-- ==== Sys2Proof/Word.lean ====
section
/-! DEFINITION. Words of the device and the sparse table that holds any indexed storage (registers of a file,
memories, units), with nothing listed at its default. -/

namespace Sys2Proof

/-- One byte. -/
abbrev Byte := BitVec 8

/-- A 32-bit word. -/
abbrev W32 := BitVec 32

/-- A 64-bit word. -/
abbrev W64 := BitVec 64

/-- A descriptor-table entry, a canvas operation or a scratch pair: 128 bits (R101, R149). -/
abbrev W128 := BitVec 128

/-- A microword, 192 bits (R121). -/
abbrev W192 := BitVec 192

/-- A 48-bit frequency, phase or carrier word (R204). -/
abbrev W48 := BitVec 48

/-- Indexed storage as plain data: (index, value) pairs with rising indices, where an index not listed holds
the default of the storage. Its operations are in Machine/Tab.lean. -/
abbrev Tab (α : Type) := List (Nat × α)

end Sys2Proof
end

