-- ==== Sys2Proof/Syntax.lean ====
section
/-! DEFINITION. The commands of the block: one constructor per row of spec/opcode_table.json, with the row's operands,
and the types of the operands. -/

namespace Sys2Proof

/-- The header of a QOP request as it arrived (R554 to R557, R561): what the datagram carries beside the command's own
operands. `lenOk`: the datagram length is 48 + PLEN. `layoutOk`: the payload has the length and layout that CMD asks
for (R564). `waiting`: how many requests waited when it arrived (R558). -/
structure Req where
  waiting : Nat
  ident : Nat
  seq : Nat
  magic : BitVec 16
  version : BitVec 8
  lenOk : Bool
  layoutOk : Bool
  tag : BitVec 128
  deriving DecidableEq, Repr

/-- One item of a WRITE (R564): the object, the length the item states and the value, its bytes read as one
little-endian number. -/
structure WItem where
  idx : Nat
  sub : Nat
  len : Nat
  val : Nat
  deriving DecidableEq, Repr

/-- A thread n = 16e + t, or one of its sketch paths (R107, R309). -/
structure CtxRef where
  n : Nat
  path : Option Nat
  deriving DecidableEq, Repr

/-- Header bits [31:8] of a canvas operation (R101). -/
structure Hdr where
  tm : BitVec 2
  adv : Bool
  vdt : Bool
  vix : BitVec 4
  dt : BitVec 16
  deriving DecidableEq, Repr

/-- A canvas operation with its fields (R105). -/
inductive COp where
  | nop (h : Hdr)
  | play (h : Hdr) (tgt : BitVec 4) (gen : Bool) (gsel : BitVec 5) (daddr : BitVec 22) (amp pofs : BitVec 16) (frame : BitVec 2) (fine : BitVec 5)
  | read (h : Hdr) (gen : Bool) (gsel : BitVec 5) (daddr : BitVec 22) (amp wlen : BitVec 16) (frame : BitVec 2) (ksel : BitVec 4) (dtag : BitVec 8)
  | fluxhold (h : Hdr) (tgt : BitVec 4) (value : BitVec 16)
  | fshift (h : Hdr) (frame : BitVec 2) (fk : Bool) (pinc : W48)
  | ffreq (h : Hdr) (frame : BitVec 2) (fk : Bool) (freq : W48)
  | fphase (h : Hdr) (frame : BitVec 2) (fk : Bool) (phase : W48)
  | fshiftv (h : Hdr) (frame : BitVec 2) (fk : Bool) (vsrc : BitVec 4)
  | wait (h : Hdr)
  | waituntil (h : Hdr) (t48 : W48)
  | barrier (h : Hdr) (mask : BitVec 16)
  | waitev (h : Hdr) (eline : BitVec 4)
  | acqtrig (h : Hdr) (swtrig : BitVec 3)
  | mark (h : Hdr) (mki tset : BitVec 3) (level : Bool)
  | event (h : Hdr) (eline : BitVec 4)
  | branch (h : Hdr) (dh : BitVec 4) (sk : Bool) (t0 t1 t2 t3 : BitVec 16)
  | goto (h : Hdr) (caddr : BitVec 22)
  | loop (h : Hdr) (vc : BitVec 4) (tofs : BitVec 16)
  | jseg (h : Hdr) (tgt : BitVec 4) (daddr : BitVec 22)
  | setv (h : Hdr) (vd : BitVec 4) (value : W32)
  | addv (h : Hdr) (vd : BitVec 4) (value : W32)
  | greset (h : Hdr) (gsel : BitVec 5)
  | endc (h : Hdr)
  | customer (h : Hdr) (k : BitVec 6) (fields : BitVec 96)
  deriving DecidableEq, Repr

/-- A parallel fetch of a DSP instruction (R371): the pointer PT0 to PT7, post-modify, X destination. -/
structure DFetch where
  pt : Nat
  post : Bool
  x : BitVec 3
  deriving DecidableEq, Repr

/-- The operand fields of a DSP instruction word (R371): D, A, B, IMM and the parallel fields that are enabled. -/
structure DWord where
  d : BitVec 4
  a : BitVec 4
  b : BitVec 4
  fx : Option DFetch
  fy : Option DFetch
  fk : Option DFetch
  st : Option DFetch
  imm : BitVec 15
  deriving DecidableEq, Repr

/-- The kind of a canvas in the CANVASES section (R583). -/
inductive CanvasKind where
  | drive | readout | both | fluxOnly
  deriving DecidableEq, Repr

/-- One canvas of a job (R583): frames are listed drive 0–3 and then readout 0–3. -/
structure CanvasRow where
  qubit : Nat
  kind : CanvasKind
  entry : Nat
  vinit : List W32
  freqInit : List W48
  vphInit : List W48
  holdInit : List (BitVec 16)
  group : Option Nat
  deriving DecidableEq, Repr

/-- One row of KERNELS (R266, R583). -/
structure KernelRow where
  qubit : Nat
  ksel : Nat
  addr : Nat
  krate : Nat
  klen : Nat
  holdLast : Bool
  deriving DecidableEq, Repr

/-- A generator definition (R177, R180). -/
structure GenDef where
  kind : Nat
  base : Nat
  p1 : Nat
  p2 : Nat
  p3 : Nat
  p4 : Nat
  mode : Nat
  deriving DecidableEq, Repr

/-- A generator slot of a canvas bound to a definition of the job (R176). -/
structure GenBind where
  canvas : Nat
  gsel : Nat
  defn : Nat
  deriving DecidableEq, Repr

/-- One row of STREAMS (R583). -/
structure StreamRow where
  addr : Nat
  len : Nat
  tile : Nat
  deriving DecidableEq, Repr

/-- One row of DECISIONS (R583): the handle of a canvas and its source. -/
structure DecisionRow where
  canvas : Nat
  handle : Nat
  source : Nat
  dtag : Nat
  chip : Nat
  deriving DecidableEq, Repr

/-- One DSP image and its attachments (R391, R392, R407, R583). -/
structure DspRow where
  tile : Nat
  pm : List W64
  xm : List W32
  ym : List W32
  km : List W32
  observe : List Nat
  fed : List Nat
  feedBase : Nat
  feedLen : Nat
  deriving DecidableEq, Repr

/-- One acquisition channel of a job with its RS settings, as (subindex, value) (R583). -/
structure AcqRow where
  channel : Nat
  settings : List (Nat × Nat)
  deriving DecidableEq, Repr

/-- A pin of a job (R422). -/
inductive PinRow where
  | thread (canvas easel thread : Nat)
  | driveSlot (canvas slot : Nat)
  | readoutSlot (canvas slot : Nat)
  | dspCore (tile core : Nat)
  | carrierXy (port : Nat) (word : W48)
  | carrierRl (line : Nat) (word : W48)
  | flow (tile port : Nat)
  deriving DecidableEq, Repr

/-- One row of CALIBRATION (R450, R583). -/
structure CalibRow where
  qubit : Nat
  dtags : List Nat
  capture : Option Nat
  deriving DecidableEq, Repr

/-- The sections of a job container (R583), addresses relative. PULSES holds (name, first segment). -/
structure Sections where
  canvases : List CanvasRow
  program : List W128
  segments : List W128
  pulses : List (String × Nat)
  samples : List W32
  kernels : List KernelRow
  genDefs : List GenDef
  genBinds : List GenBind
  streams : List StreamRow
  decisions : List DecisionRow
  dsp : List DspRow
  acq : List AcqRow
  pins : List PinRow
  calib : List CalibRow
  deriving DecidableEq, Repr

/-- A beat (R59 table, "The timing spine"). -/
structure BeatMsg where
  slot : Nat
  term : Nat
  root : Nat
  rank : Nat
  path : Bool
  release : Bool
  hops : Nat
  lease : Nat
  accDelay : Nat
  latticeId : Nat
  deriving DecidableEq, Repr

/-- A LATTICE_MSG payload (R522). -/
structure LatMsg where
  src : Nat
  dst : Nat
  jobSlot : Nat
  shot : Nat
  jobSeq : Nat
  epoch : Nat
  deriving DecidableEq, Repr

/-- The fields of a received control cell beside its payload (R520), and whether it arrived without error (R521). -/
structure CellHdr where
  link : Nat
  cseq : Nat
  ackSeq : Nat
  ackValid : Bool
  good : Bool
  deriving DecidableEq, Repr

/-- A unit that can be retired or relocated (R439, R630). -/
inductive UnitRef where
  | slice (line s : Nat)
  | xyPort (p : Nat)
  | rlTx (n : Nat)
  | rlLine (n : Nat)
  | flux (c : Nat)
  | easel (e : Nat)
  | dsp (d : Nat)
  | link (k : Nat)
  | host (h : Nat)
  | spine (secondary : Bool)
  | ddr (c : Nat)
  | sram (tile block : Nat)
  deriving DecidableEq, Repr

/-- The memories of a DSP core (R368). -/
inductive DspMem where
  | pm | xm | ym | km
  deriving DecidableEq, Repr

/-- What a target of a stroke is (R105, R165): a drive tone slot 8p + k, a readout tone slot 16n + k, a flux channel. -/
inductive Target where
  | drive (s : Nat)
  | rtone (s : Nat)
  | flux (c : Nat)
  deriving DecidableEq, Repr

/-- The commands: one constructor per row of spec/opcode_table.json, in the table's order. -/
inductive Instr where
  -- QOP requests (R564)
  | ping (r : Req)
  | read (r : Req) (items : List (Nat × Nat))
  | readPart (r : Req) (idx sub off len : Nat)
  | write (r : Req) (items : List WItem)
  | registerWrite (ident idx sub val : Nat)
  | commit (r : Req) (refuseStretch : Bool)
  | discard (r : Req)
  | loadOpen (r : Req) (kind len target : Nat)
  | loadPart (r : Req) (handle off : Nat) (bytes : List Byte)
  | loadClose (r : Req) (handle : Nat) (crc : W32)
  | loadAbort (r : Req) (handle : Nat)
  | loadTimeout (handle : Nat)
  | ddrRead (r : Req) (addr len : Nat)
  | submit (r : Req) (handle : Nat) (content : Sections)
  | start (r : Req) (jobSeq : Nat)
  | halt (r : Req) (jobSeq : Nat)
  | resume (r : Req) (jobSeq : Nat)
  | cancel (r : Req) (jobSeq : Nat)
  | jobStatus (r : Req) (jobSeq : Nat)
  | prime (r : Req)
  | recover (r : Req)
  | sleep (r : Req)
  | wake (r : Req)
  | resetPowerOn (r : Req)
  | resetWarm (r : Req)
  | resetMgmt (r : Req)
  | resetFluxState (r : Req)
  | counterClear (r : Req) (first last : Nat)
  | keySet (r : Req) (target : Nat) (wrapped : BitVec 320)
  | bulkCopy (r : Req) (chip src dst len : Nat)
  | commitApplyComplete
  -- writes with an effect of their own
  | snapshot (n : Nat)
  | custImage (len : Nat) (words : List W192)
  | custClear
  | arm (c : Nat)
  | disarm (c : Nat)
  | force (c : Nat)
  | evFire (k : Nat)
  | hostSeconds (v : Nat)
  | hkCmd
  | mboxIn (d : Nat) (v : W32)
  | calSkew (tile : Nat)
  | calLevel (ukind unit : Nat)
  | calFluxOfs (c : Nat)
  | calLoopback (line : Nat)
  | prbsStart (lane : Nat)
  | prbsStop (lane : Nat)
  | prbsClear (lane : Nat)
  | injectSingle (lane : Nat)
  | gzRetrain (k : Nat)
  | gzInject (k : Nat)
  | portReadapt (h : Nat)
  | cfgSave
  | cfgErase
  | cfgSaveComplete
  | ledgerRelease (jobSeq : Nat)
  | bbRelease (no : Nat)
  -- canvas operations (R105)
  | opNop (x : CtxRef) (h : Hdr)
  | opPlay (x : CtxRef) (h : Hdr) (tgt : BitVec 4) (gen : Bool) (gsel : BitVec 5) (daddr : BitVec 22) (amp pofs : BitVec 16) (frame : BitVec 2) (fine : BitVec 5)
  | opRead (x : CtxRef) (h : Hdr) (gen : Bool) (gsel : BitVec 5) (daddr : BitVec 22) (amp wlen : BitVec 16) (frame : BitVec 2) (ksel : BitVec 4) (dtag : BitVec 8)
  | opFluxhold (x : CtxRef) (h : Hdr) (tgt : BitVec 4) (value : BitVec 16)
  | opFshift (x : CtxRef) (h : Hdr) (frame : BitVec 2) (fk : Bool) (pinc : W48)
  | opFfreq (x : CtxRef) (h : Hdr) (frame : BitVec 2) (fk : Bool) (freq : W48)
  | opFphase (x : CtxRef) (h : Hdr) (frame : BitVec 2) (fk : Bool) (phase : W48)
  | opFshiftv (x : CtxRef) (h : Hdr) (frame : BitVec 2) (fk : Bool) (vsrc : BitVec 4)
  | opWait (x : CtxRef) (h : Hdr)
  | opWaituntil (x : CtxRef) (h : Hdr) (t48 : W48)
  | opBarrier (x : CtxRef) (h : Hdr) (mask : BitVec 16)
  | opWaitev (x : CtxRef) (h : Hdr) (eline : BitVec 4)
  | opAcqtrig (x : CtxRef) (h : Hdr) (swtrig : BitVec 3)
  | opMark (x : CtxRef) (h : Hdr) (mki tset : BitVec 3) (level : Bool)
  | opEvent (x : CtxRef) (h : Hdr) (eline : BitVec 4)
  | opBranchWait (x : CtxRef) (h : Hdr) (dh : BitVec 4) (t0 t1 t2 t3 : BitVec 16)
  | opBranchSketch (x : CtxRef) (h : Hdr) (dh : BitVec 4) (t0 t1 t2 t3 : BitVec 16)
  | opGoto (x : CtxRef) (h : Hdr) (caddr : BitVec 22)
  | opLoop (x : CtxRef) (h : Hdr) (vc : BitVec 4) (tofs : BitVec 16)
  | opJseg (x : CtxRef) (h : Hdr) (tgt : BitVec 4) (daddr : BitVec 22)
  | opSetv (x : CtxRef) (h : Hdr) (vd : BitVec 4) (value : W32)
  | opAddv (x : CtxRef) (h : Hdr) (vd : BitVec 4) (value : W32)
  | opGreset (x : CtxRef) (h : Hdr) (gsel : BitVec 5)
  | opEnd (x : CtxRef) (h : Hdr)
  | customerOpcode (x : CtxRef) (h : Hdr) (k : BitVec 6) (fields : BitVec 96)
  -- microcode and traps (R121 to R145)
  | microword (x : CtxRef) (w : W192)
  | waitcRelease (x : CtxRef)
  | tret (n : Nat)
  | waitDecision (x : CtxRef)
  | sincos (x : CtxRef)
  | recip (x : CtxRef)
  | frameRead (x : CtxRef)
  | prefetch (x : CtxRef) (addr : BitVec 22)
  | trapEntry (n : Nat)
  | datapath (x : CtxRef)
  | csUncorrectable (x : CtxRef)
  | csRestoreComplete (x : CtxRef) (ok : Bool)
  | watchdog (n : Nat)
  | overrun (n : Nat)
  -- launches and outputs
  | strokeLaunch (n : Nat)
  | readLaunch (n : Nat)
  | fluxholdLaunch (n : Nat)
  | frameLaunch (n : Nat)
  | markLaunch (n : Nat)
  | markerEdge (m : Nat)
  | markerIdleReturn (m : Nat)
  | eventLaunch (n : Nat)
  | acqtrigLaunch (n : Nat)
  | segjumpLaunch (n : Nat)
  | jumpEffect (t : Target)
  | strokeEnd (t : Target)
  | streamRefill (s bytes : Nat)
  | underrun (t : Target)
  | streamEnd (t : Target)
  | fluxRangeSwitchEnd (c : Nat)
  -- readout chain and decisions
  | windowOpen (slot : Nat)
  | windowDump (slot : Nat)
  | decisionProduce (slot : Nat)
  | decisionArrival (n handle : Nat)
  | decisionCommit (n handle : Nat)
  | decisionBlockSend (k : Nat)
  | decisionBlock (c : CellHdr) (dest w0 w1 : W64)
  | sliceRotate (line : Nat)
  | sliceCheck (line : Nat) (ofs gain skew : Int) (spur : Nat)
  -- acquisition and triggers
  | acqTrigger (c idx : Nat)
  | streamBlock (c units : Nat)
  | captureRecordComplete (c : Nat)
  | trigIn (i : Nat) (rising : Bool) (edge : Nat)
  | trigOutPulse (i : Nat)
  | trigOutPulseEnd (i : Nat)
  -- DSP instructions (R381)
  | dspNop (c : Nat) (w : DWord)
  | cmac (c : Nat) (w : DWord)
  | cmacj (c : Nat) (w : DWord)
  | cmsb (c : Nat) (w : DWord)
  | cmul (c : Nat) (w : DWord)
  | aclr (c : Nat) (w : DWord)
  | sta (c : Nat) (w : DWord)
  | stag (c : Nat) (w : DWord)
  | maxi (c : Nat) (w : DWord)
  | mini (c : Nat) (w : DWord)
  | srst (c : Nat) (w : DWord)
  | srd (c : Nat) (w : DWord)
  | ldi (c : Nat) (rd : BitVec 4) (imm : W32)
  | movg (c : Nat) (w : DWord)
  | dspAdd (c : Nat) (w : DWord)
  | dspSub (c : Nat) (w : DWord)
  | dspAnd (c : Nat) (w : DWord)
  | dspOr (c : Nat) (w : DWord)
  | dspXor (c : Nat) (w : DWord)
  | shl (c : Nat) (w : DWord)
  | sar (c : Nat) (w : DWord)
  | mulq (c : Nat) (w : DWord)
  | sgt (c : Nat) (w : DWord)
  | cmp (c : Nat) (w : DWord)
  | movxg (c : Nat) (w : DWord)
  | movgx (c : Nat) (w : DWord)
  | ldg (c : Nat) (w : DWord)
  | stg (c : Nat) (w : DWord)
  | movp (c : Nat) (w : DWord)
  | movpg (c : Nat) (w : DWord)
  | jmp (c : Nat) (w : DWord)
  | jcc (c : Nat) (w : DWord)
  | call (c : Nat) (w : DWord)
  | ret (c : Nat) (w : DWord)
  | rti (c : Nat) (w : DWord)
  | repeatN (c : Nat) (w : DWord)
  | dspLoop (c : Nat) (w : DWord)
  | loopi (c : Nat) (w : DWord)
  | inw (c : Nat) (w : DWord)
  | outd (c : Nat) (w : DWord)
  | movw (c : Nat) (w : DWord)
  | emit (c : Nat) (w : DWord)
  | eclose (c : Nat) (w : DWord)
  | bdone (c : Nat) (w : DWord)
  | di (c : Nat) (w : DWord)
  | ei (c : Nat) (w : DWord)
  | waiti (c : Nat) (w : DWord)
  | mboxw (c : Nat) (w : DWord)
  | mboxr (c : Nat) (w : DWord)
  -- events of a DSP core
  | dspInterrupt (c : Nat)
  | diExpired (c : Nat)
  | windowEntry (c : Nat)
  | dspLate (slot : Nat)
  | dspBoundary (job : Nat)
  | drainLate (c : Nat)
  | dspEcc (c : Nat) (m : DspMem) (addr : Nat) (double : Bool)
  | dspPmRestoreComplete (c : Nat) (ok : Bool)
  -- jobs, placement, ledger, results
  | placement
  | shotStart (job : Nat)
  | drainComplete (job : Nat)
  | shotBoundary (job : Nat)
  | sprout (u : UnitRef)
  | retire (u : UnitRef)
  | flowMove (h : Nat)
  | ledgerFinal (job : Nat)
  | qrsPacketSend (flow : Nat)
  | qrsAck (r : Req) (count : Nat) (pairs : List (Nat × Nat))
  | resultResend (job : Option Nat)
  -- calibration and housekeeping
  | calResult (routine ukind unit : Nat) (values : List (Nat × Int)) (principal figure : Int) (aborted : Bool)
  | skewAuto (tile : Nat)
  | discFit (q : Nat) (ground excited : List (Int × Int)) (fidelity : Nat)
  | glazeStep
  | hkTimer
  | hkResult (k : Nat) (code : BitVec 12)
  -- event matrix and notifications
  | eventLineFire (k : Nat)
  | andExpired (k : Nat)
  | latticeEvent (c : CellHdr) (fireEpoch origin line : Nat) (path : Bool) (hops latticeId : Nat)
  | notificationFrame
  | notificationSend
  -- time base and lattice
  | beatSend
  | beat (link : Nat) (b : BeatMsg)
  | beatMiss (secondary : Bool)
  | takeover
  | holdoverLimit
  | resyncComplete (offset : Int)
  | listeningComplete (roundTrips : List (Nat × Nat)) (peerAsym : List (Nat × Int))
  | lockingComplete
  | aligningComplete (offset : Int)
  | syncIn
  | syncOutPulse
  | refLoss
  | refTolerance (offset : Int)
  | pllLock
  | pllUnlock
  | ppsIn
  | ptpSync (domain seconds nanos : Nat) (rate : Int)
  | drainDone (m : LatMsg)
  | shotStartMsg (m : LatMsg)
  | triggerMsg (m : LatMsg)
  | haltMsg (m : LatMsg)
  | resumeMsg (m : LatMsg)
  | cancelMsg (m : LatMsg)
  -- serial lanes
  | bulkHead (c : CellHdr) (dst src cells addr : Nat)
  | dataCell (link : Nat) (good : Bool) (invalid : List Nat) (bytes : List Byte)
  | bulkTail (c : CellHdr) (crc : W32)
  | nak (c : CellHdr) (expected : Nat)
  | resendTimeout (link : Nat)
  | refresh (c : CellHdr) (vertical horizontal : Nat)
  | align (link : Nat) (order : List Nat) (inverted : List Bool) (skew : Nat) (good : Bool)
  | train (c : CellHdr) (latticeId chip peerLink : Nat) (ready : Bool)
  | trainingComplete (link : Nat)
  | lockComplete (link skew : Nat)
  | verifyComplete (link : Nat) (errs : List Nat)
  | trainFail (link : Nat)
  | retrain (link : Nat)
  | densityWindow (lane transitions : Nat)
  | adaptSnapshot (lane : Nat) (values : List Nat)
  | restored (lane : Nat) (values : List Nat)
  | pause (h : Nat)
  | linkDown (port : Nat)
  -- power and start-up
  | feedLoss (die : Nat) (sideB : Bool)
  | feedTransferComplete (die ticks : Nat)
  | feedRestored (die : Nat) (sideB : Bool)
  | pmbusPoll (sideB : Bool) (rail : Nat) (attemptsFailed : Nat) (faultBit : Bool)
  | pmbAlert (sideB : Bool)
  | resetN (cfgDefaultLow : Bool)
  | powerupTimeout
  | powerRemoval
  | bootComplete (fallback : Bool)
  | priming (step : Nat)
  | primingComplete (ms : Nat)
  | primingTimeout
  | asleepEntry
  | wakeComplete (ms : Nat)
  | thermWarn (code : Nat)
  | thermalTrip
  | ddrEccError (channel : Nat) (uncorrectable : Bool)
  | dacFault (u : UnitRef)
  | adcOverrange (line : Nat) (code : Int)
  -- rows at the end of the table
  | idle (c : CellHdr)
  | linkUp (port : Nat) (errs : List Nat) (bers : List W32) (uncorr : Bool)
  | peerSignal (link : Nat) (present : Bool)
  | pauseEnd (h : Nat)
  | frameDrop (port : Nat)
  | icmpEcho (port : Nat) (v6 : Bool)
  | arp (port : Nat) (v6 : Bool)
  | ptpAnnounce (domain : Nat) (utcOffset : Int)
  deriving DecidableEq, Repr

end Sys2Proof
end

