-- ==== Sys2Proof/Config.lean ====
section
/-! DEFINITION. What an implementation fixes and the manual does not state: constants without a body (free values),
each marked and named in the assumption log. No statement can prove a value of one. -/

namespace Sys2Proof.Config

/-- HMAC-SHA-256 truncated to 16 bytes (R555), a function of the key and the bytes before TAG. Free: the standard is
not part of the manual (log entry 7). -/
opaque hmac : BitVec 256 → List Byte → BitVec 128

/-- AES key wrap (RFC 3394) opened with a key: the 32-byte key, or none when the integrity check fails (R560). Free
(log entry 7). -/
opaque keyUnwrap : BitVec 256 → BitVec 320 → Option (BitVec 256)

/-- Key of identity 0 at first power-on (R560, R685). Free (log entry 7). -/
opaque factoryKey : BitVec 256

/-- A word of the vendor control store, 0x0000 to 0x2FFF (R121, R140): each release decides (log entry 83). -/
opaque vendorWord : Nat → W192

/-- The code over bits [182:0] that the device writes into the ECC field of a control-store word (R121): which SEC-DED code it
is, is not stated (log entry 83). -/
opaque storeEcc : BitVec 183 → BitVec 9

/-- Micro-address of the vendor entry of an opcode (R129): each release decides (log entry 83). -/
opaque vendorEntry : Nat → BitVec 14

/-- Whether the cosine, and the sine, that SINCOS gives for a phase takes the neighbour above (R145): the rounding of a
value between two of Q2.14 is not stated (log entry 11). -/
opaque sincosRoundsUp : W32 → Bool × Bool

/-- Vendor service RECIP at x = 0, for which R145 states no result (log entry 11). -/
opaque recipZero : W64

/-- ROT_COS and ROT_SIN of the unit vector between two centres that coincide, for which R450 states no result (log entry
11). -/
opaque zeroRotation : BitVec 16 × BitVec 16

/-- Whether the cosine, and the sine, that an NCO looks up for a phase takes the neighbour above (R209): the rounding of a
value between two of Q1.17 is not stated (log entry 11). -/
opaque ncoRoundsUp : Nat → Bool × Bool

/-- Coefficients in Q1.17 of the halfband stages HB1 to HB5 of the fixed chain (R256), those at an odd distance 2j + 1 from
the middle, alike on both sides: their values are not stated (log entry 11). -/
opaque chainTap : Nat → Nat → Int

/-- The code of a readout converter, by line, ticks since power-on and place in the tick (R240, R247): the signal at the RIN_n land
is outside the device and no command brings it (log entry 141). -/
opaque adc : Nat → Nat → Nat → BitVec 12

/-- The instruction codes of the TAP that select IDCODE, and SAMPLE/PRELOAD (R669): not stated (log entry 146). -/
opaque tapCodes : Nat × Nat

/-- The levels of the lands that SAMPLE shifts out of the TAP, first bit first, in a state of the outputs (R669): which lands stand
in which order is not stated (log entry 146). -/
opaque tapLands : List (Nat × Bool) → List Bool

/-- Taps in Q1.17 of the rate stages of 23, 11 and 7 taps (R216, R219), by distance from the output: not stated (log entry
11). -/
opaque rateTap : Nat → Nat → Int

/-- Taps in Q1.17 of the phases of the fractional-delay filter (R218, R219), earliest sample first: not stated (log entry
11). -/
opaque delayTap : Nat → Nat → Int

/-- Taps in Q1.17 of the four stages of ×16 (R219), by distance from the output: not stated (log entry 11). -/
opaque upTap : Nat → Nat → Int

/-- Taps in Q1.17 of the inverse-sinc filter (R220): not stated beyond its gain of 1.0 at 10.0 GHz and 0.746 at 2.0 GHz (log
entry 11). -/
opaque sincTap : Nat → Int

/-- Whether a rate stage, a fractional delay or a stage of ×16 takes the neighbour above for a sum in units of 2⁻¹⁷ of its
last place: the rounding is not stated (R216, R218, R219; log entry 11). -/
opaque filterRoundsUp : Int → Bool

/-- Which of a list of allowed units the placement engine takes: any number, reduced modulo the length of the list
(R414, R417; log entry 10). The arguments are the job's sections and a position in them. -/
opaque pick : Sections → Nat → Nat

/-- Entry size of a container section of this TYPE, where the manual gives none (R583, R584) (log entry 9). -/
opaque sectionEntrySize : Nat → Nat

/-- Factory flux temperature coefficient FO_TC is an object; this is the free pattern of failing bits that a double-bit
error leaves in a data word (R408: the word is returned as read) (log entry 11). -/
opaque dataError : Nat → W32 → W32

/-- By how much the space for unacknowledged results passes one byte (R600): not stated (log entry 13). -/
opaque resultSpaceRest : Nat

/-- Free space, in bytes, for unacknowledged results (R600): at least one. -/
def resultSpace : Nat := resultSpaceRest + 1

/-- Whether a wall-clock stamp of so many thirds of 10⁻¹² ns after its anchor, no whole number of nanoseconds, takes the
nanosecond above (R91): the rounding is not stated (log entry 11). -/
opaque stampRoundsUp : Int → Bool

/-- Whether the neighbour at a Genzel link names that link as its primary (false) or secondary (true) spine link: how
the chip learns it is not stated (R60; log entry 101). -/
opaque spineNeighbour : Bool → Nat → Bool

/-- Delay of a beat through the chip from a spine link, in marker steps (R61): not stated (log entry 11). -/
opaque forwardDelay : Nat → Nat

/-- What a link in TRAINING sends in a tick (R544): none PRBS31, else TRAIN cells with this READY. How long adaptation lasts is not
stated. Log entry 149. -/
opaque trainSends : Nat → Nat → Option Bool

/-- The full range of an adapted value of a lane, by lane and place of the value (R537): not stated. Log entry 149. -/
opaque adaptSpan : Nat → Nat → Nat

/-- Where the cell slots of a link stand when it goes UP, in half bit times of a lane (R518): not stated. Log entry 119. -/
opaque slotPhase : Nat → Nat

/-- The register of a pattern generator when it starts, by lane (R539): not stated. Log entry 120. -/
opaque prbsSeed : Nat → Nat

/-- Whether a pattern is sent inverted, by PRBS_SEL (R539): the recommendation that says so is no part of the spec. Log entry
120. -/
opaque prbsInverted : Nat → Bool

/-- The n-th symbol of a PAM4 pattern, by PRBS_SEL and n (R539): the standard that gives it is no part of the spec. Log entry
120. -/
opaque pam4Symbol : Nat → Nat → Nat

/-- Whether the n-th symbol that the checker of a lane receives is wrong, by lane and n (R541): the far end's signal is outside
the device and no command brings it. Log entry 120. -/
opaque symbolError : Nat → Nat → Bool

/-- C after SUB or CMP of a DSP core: the manual does not say whether it is a carry or a borrow (R379; log entry 16). -/
opaque dspSubCarry : W32 → W32 → Bool

/-- CY after a microword whose ALU operation is not ADD: the manual does not say whether the carry out of SUB is a carry
or a borrow, nor what other operations leave (R126; log entry 16). The arguments are the operation, SA and SB. -/
opaque aluCarryOpen : Nat → BitVec 64 → BitVec 64 → Bool

/-- OV after a microword whose ALU operation is not ADD, SUB or CMP: not stated (R126; log entry 16). -/
opaque aluOverflowOpen : Nat → BitVec 64 → BitVec 64 → Bool

/-- OUTCOME in RFLAGS of the entry of a DECIDE window, which has no outcome yet (R394; log entry 17). -/
opaque entryOutcome : BitVec 2

/-- MOVW with IMM 6: WT has the words 0 to 5 and 7 is the boundary word, word 6 is not stated (R381, R401; log
entry 17). -/
opaque dspWordSix : BitVec 192 → W32

/-- Payload of a RETIRED black-box record: the counts that met the criterion are in the sender's hands (R668; log
entry 14). The arguments are the criterion's row and the tick. -/
opaque retireCounts : Nat → Nat → List Byte

/-- Genzel hops, less one, from a neighbour to another chip; none when there is no way: how the chip learns them is not stated
(R414; log entry 10). The arguments are the own links that are UP, the neighbour and the chip. -/
opaque hopsFrom : List Nat → Nat → Nat → Option Nat

/-- The thread of a source qubit on another chip, which the placement engine of that chip chose: how this chip learns it
is not stated (R146, R297; log entry 10). The arguments are LJOB_ID, the chip and the qubit. -/
opaque remoteThread : Nat → Nat → Nat → Nat

/-- The other chips that name a qubit of a multi-chip job as a decision source: how this chip learns them is not stated
(R297, R414; log entry 10). The arguments are LJOB_ID and the qubit. -/
opaque decisionChips : Nat → Nat → Nat

/-- What a root knows of a multi-chip job of which it runs no part: CHIPS, SHOTS, whether it starts by trigger, and the
tick before which it does not start. How it learns them is not stated (R53; log entry 10). The argument is LJOB_ID. -/
opaque ljobFacts : Nat → Nat × Nat × Bool × Nat

/-- Decision words of other chips that this one forwards into the queue of a Genzel link in an interval of 8 ticks at most, by
LJOB_ID and link: how the engine learns them is not stated (R295, R298; log entry 10). -/
opaque wordsForwarded : Nat → Nat → Nat

/-- Spine latency in ticks from a root to a chip (R53): how the root learns it is not stated (log entry 10). -/
opaque latencyTo : Nat → Nat

/-- Whether a retired DDR4 channel held records of a shot (R660): where records lie is not stated (log entry 13). The
arguments are the channel, the JOB_SEQ and the shot. -/
opaque channelHolds : Nat → Nat → Nat → Bool

/-- Bytes of DDR4 installed on a channel (R33, R706): each module decides (log entry 13). -/
opaque ddrInstalled : Nat → Nat

/-- The stream whose DDR4 bytes an uncorrectable error of a channel lies in, 64 and above for none, and the number of
bytes lost: where the bytes lie is not stated (R192; log entry 13). The arguments are the channel and the tick. -/
opaque eccStream : Nat → Nat → Nat × Nat

/-- CFG_CRC of the stored configuration with these draft words (R616): the order in which it lies is not stated (log
entry 13). -/
opaque cfgCrc : List Byte → Nat

/-- Addresses that fail in a memory test of PRIMING: what the test finds is not the manual's (R193; log entry 14). The
arguments are the step and BOOT_COUNT. -/
opaque selfTest : Nat → Nat → List Nat

/-- Whether a code of the ramp of a WARM reset rounds up, from the first code and the sample of the ramp: the rounding is
not stated (R683; log entry 88). -/
opaque rampRoundsUp : Int → Nat → Bool

end Sys2Proof.Config
end

