-- ==== Sys2Proof/Machine/Tab.lean ====
section
/-! DEFINITION. Sparse tables: reading, writing and the canonical form of indexed storage. An index that is not
listed holds the storage's default, so equal contents are equal data. -/

namespace Sys2Proof.Machine

/-- The value at an index; `d` is what an unlisted index holds. -/
def tabGet {α : Type} (d : α) : Tab α → Nat → α
  | [], _ => d
  | (k, v) :: t, i => if k = i then v else tabGet d t i

/-- The table with (i, v) listed, in rising order of index. -/
def tabInsert {α : Type} (i : Nat) (v : α) : Tab α → Tab α
  | [] => [(i, v)]
  | (k, w) :: t =>
    if i < k then (i, v) :: (k, w) :: t
    else if i = k then (i, v) :: t
    else (k, w) :: tabInsert i v t

/-- The table without index i. -/
def tabErase {α : Type} (i : Nat) : Tab α → Tab α
  | [] => []
  | (k, w) :: t => if k = i then tabErase i t else (k, w) :: tabErase i t

/-- Writes v at index i; a write of what an unlisted index holds removes the entry. -/
def tabSet {α : Type} [DecidableEq α] (d : α) (t : Tab α) (i : Nat) (v : α) : Tab α :=
  if v = d then tabErase i t else tabInsert i v t

/-- Changes the value at an index by a function. -/
def tabMod {α : Type} [DecidableEq α] (d : α) (t : Tab α) (i : Nat) (f : α → α) : Tab α :=
  tabSet d t i (f (tabGet d t i))

/-- Writes consecutive values from index i upwards. -/
def tabFill {α : Type} [DecidableEq α] (d : α) (t : Tab α) (i : Nat) : List α → Tab α
  | [] => t
  | v :: vs => tabFill d (tabSet d t i v) (i + 1) vs

/-- n consecutive values from index i upwards. -/
def tabRead {α : Type} (d : α) (t : Tab α) (i n : Nat) : List α :=
  (List.range n).map fun k => tabGet d t (i + k)

/-- The canonical form: indices rise strictly, and no entry holds what an unlisted index holds. -/
abbrev tabWf {α : Type} [DecidableEq α] (d : Nat → α) (t : Tab α) : Prop :=
  t.Pairwise (fun a b => a.1 < b.1) ∧ ∀ p ∈ t, p.2 ≠ d p.1

end Sys2Proof.Machine
end

