-- ==== Sys2Proof/Machine/Dict.lean ====
section
/-! DEFINITION. The object dictionary (R12, R14, R603): one row per object of the field maps, with its type, access
code, reset value and stated range. A key is index · 256 + subindex, so that 0x2000.04 is 0x200004. -/

namespace Sys2Proof.Machine

/-- The value types of R12. -/
inductive Ty where
  | bool | u8 | u16 | u32 | u64 | i16 | i32 | ticks | f32
  | q (m n : Nat)
  | str (n : Nat)
  | blob (n : Nat)
  deriving DecidableEq, Repr

/-- The access codes of R14 that the field maps use. -/
inductive Acc where
  | ro | rw | wo | rs | set
  deriving DecidableEq, Repr

/-- A row of a field map: indices lo to hi, subindices slo to shi, and the range of the value read as its type
(`none`: any value of the type). -/
structure Row where
  lo : Nat
  hi : Nat
  slo : Nat
  shi : Nat
  ty : Ty
  acc : Acc
  reset : Nat
  range : Option (Int × Int)
  deriving DecidableEq, Repr

/-- Width in bytes of a value of the type (R12); a BLOB of variable length has the width 0. -/
def Ty.bytes : Ty → Nat
  | .bool => 1
  | .u8 => 1
  | .u16 => 2
  | .u32 => 4
  | .u64 => 8
  | .i16 => 2
  | .i32 => 4
  | .ticks => 8
  | .f32 => 4
  | .q m n => (m + n) / 8
  | .str n => n
  | .blob n => n

/-- Whether the type is two's complement (R12). -/
def Ty.signed : Ty → Bool
  | .i16 => true
  | .i32 => true
  | .q _ _ => true
  | _ => false

/-- The stored bytes, read as one little-endian number, as a value of the type (R12). -/
def Ty.value (t : Ty) (raw : Nat) : Int :=
  let w := 8 * t.bytes
  if t.signed ∧ 2 ^ (w - 1) ≤ raw % 2 ^ w then (raw % 2 ^ w : Nat) - (2 ^ w : Nat) else (raw : Int)

/-- Objects of chapter 02 (part 1). -/
def dictTimebase1 : List Row := [
  -- EPOCH_NOW (R58)
  ⟨0x2000, 0x2000, 0x01, 0x01, .ticks, .ro, 0x0, none⟩,
  -- REF_FORMAT (R58)
  ⟨0x2000, 0x2000, 0x02, 0x02, .u8, .rs, 0x0, some (0, 1)⟩,
  -- CLOCK_STATUS (R58)
  ⟨0x2000, 0x2000, 0x03, 0x03, .u32, .ro, 0x0, none⟩,
  -- TIMING_FLAGS (R58)
  ⟨0x2000, 0x2000, 0x04, 0x04, .u32, .set, 0x0, none⟩,
  -- CLKMON_ENABLE (R58)
  ⟨0x2000, 0x2000, 0x05, 0x05, .bool, .rw, 0x0, some (0, 1)⟩,
  -- SYNC_IN_MODE (R58)
  ⟨0x2001, 0x2001, 0x01, 0x01, .u8, .rs, 0x0, some (0, 2)⟩,
  -- SYNC_LOAD_VALUE (R58)
  ⟨0x2001, 0x2001, 0x02, 0x02, .ticks, .rs, 0x0, none⟩,
  -- SYNC_OUT_MODE (R58)
  ⟨0x2001, 0x2001, 0x03, 0x03, .u8, .rs, 0x0, some (0, 2)⟩,
  -- SYNC_OUT_PERIOD (R58)
  ⟨0x2001, 0x2001, 0x04, 0x04, .u32, .rs, 0x2EE, some (15, 4294967280)⟩,
  -- SYNC_OUT_START (R58)
  ⟨0x2001, 0x2001, 0x05, 0x05, .ticks, .rs, 0x0, none⟩,
  -- SYNC_IN_LAST (R58)
  ⟨0x2001, 0x2001, 0x06, 0x06, .ticks, .ro, 0x0, none⟩,
  -- CHIP_NAME (R88)
  ⟨0x2010, 0x2010, 0x01, 0x01, .u8, .rs, 0x0, some (0, 63)⟩,
  -- LATTICE_ID (R88)
  ⟨0x2010, 0x2010, 0x02, 0x02, .u32, .rs, 0x0, none⟩,
  -- PRIMARY_LINK (R88)
  ⟨0x2010, 0x2010, 0x03, 0x03, .u8, .rs, 0xFF, none⟩,
  -- SECONDARY_LINK (R88)
  ⟨0x2010, 0x2010, 0x04, 0x04, .u8, .rs, 0xFF, none⟩,
  -- ROOT_RANK (R88)
  ⟨0x2010, 0x2010, 0x05, 0x05, .u8, .rs, 0xFF, none⟩,
  -- LATTICE_SIZE (R88)
  ⟨0x2010, 0x2010, 0x06, 0x06, .u8, .rs, 0x1, some (1, 64)⟩,
  -- MAX_HOLDOVER (R88)
  ⟨0x2010, 0x2010, 0x07, 0x07, .u32, .rs, 0xB71B0, some (15000, 750000)⟩,
  -- LATTICE_STATE (R88)
  ⟨0x2011, 0x2011, 0x01, 0x01, .u8, .ro, 0x0, none⟩,
  -- ROOT_NAME (R88)
  ⟨0x2011, 0x2011, 0x02, 0x02, .u8, .ro, 0x0, none⟩,
  -- TERM (R88)
  ⟨0x2011, 0x2011, 0x03, 0x03, .u32, .ro, 0x0, none⟩,
  -- LEASE_REMAIN (R88)
  ⟨0x2011, 0x2011, 0x04, 0x04, .u32, .ro, 0x0, none⟩,
  -- MISSED_PRIMARY (R88)
  ⟨0x2011, 0x2011, 0x05, 0x05, .u8, .ro, 0x0, none⟩,
  -- MISSED_SECONDARY (R88)
  ⟨0x2011, 0x2011, 0x06, 0x06, .u8, .ro, 0x0, none⟩,
  -- PHASE_OFFSET (R88)
  ⟨0x2011, 0x2011, 0x07, 0x07, .i32, .ro, 0x0, none⟩]

/-- Objects of chapter 02 (part 2). -/
def dictTimebase2 : List Row := [
  -- HOLDOVER_TIME (R88)
  ⟨0x2011, 0x2011, 0x08, 0x08, .ticks, .ro, 0x0, none⟩,
  -- MEMBERS (R88)
  ⟨0x2011, 0x2011, 0x09, 0x09, .u64, .ro, 0x0, none⟩,
  -- SPINE_LATENCY (R88)
  ⟨0x2011, 0x2011, 0x0A, 0x0A, .u32, .ro, 0x0, none⟩,
  -- ROUND_TRIP (R88)
  ⟨0x2020, 0x202B, 0x01, 0x01, .u32, .ro, 0x0, none⟩,
  -- ASYMMETRY (R88)
  ⟨0x2020, 0x202B, 0x02, 0x02, .i16, .rs, 0x0, none⟩,
  -- ONE_WAY (R88)
  ⟨0x2020, 0x202B, 0x03, 0x03, .u32, .ro, 0x0, none⟩,
  -- WALL_SOURCE (R92)
  ⟨0x2030, 0x2030, 0x01, 0x01, .u8, .rs, 0x0, some (0, 3)⟩,
  -- PTP_DOMAIN (R92)
  ⟨0x2030, 0x2030, 0x02, 0x02, .u8, .rs, 0x0, some (0, 127)⟩,
  -- WALL_STATUS (R92)
  ⟨0x2030, 0x2030, 0x03, 0x03, .u32, .ro, 0x0, none⟩,
  -- MAP_EPOCH (R92)
  ⟨0x2030, 0x2030, 0x04, 0x04, .ticks, .ro, 0x0, none⟩,
  -- MAP_SECONDS (R92)
  ⟨0x2030, 0x2030, 0x05, 0x05, .u64, .ro, 0x0, none⟩,
  -- MAP_NANOS (R92)
  ⟨0x2030, 0x2030, 0x06, 0x06, .u32, .ro, 0x0, none⟩,
  -- WALL_RATE (R92)
  ⟨0x2030, 0x2030, 0x07, 0x07, .i32, .ro, 0x0, none⟩,
  -- HOST_SECONDS (R92)
  ⟨0x2030, 0x2030, 0x08, 0x08, .u64, .wo, 0x0, none⟩,
  -- UTC_OFFSET (R92)
  ⟨0x2030, 0x2030, 0x09, 0x09, .i16, .ro, 0x0, none⟩]

/-- Objects of chapter 02. -/
def dictTimebase : List Row :=
  dictTimebase1 ++ dictTimebase2

/-- Objects of chapter 03. -/
def dictEasels : List Row := [
  -- QUBIT (R146)
  ⟨0x4000, 0x41FF, 0x01, 0x01, .u16, .ro, 0xFFFF, none⟩,
  -- RUN_EASEL (R146)
  ⟨0x4000, 0x41FF, 0x02, 0x02, .u8, .ro, 0x0, none⟩,
  -- ENTRY (R146)
  ⟨0x4000, 0x41FF, 0x03, 0x03, .u32, .ro, 0x0, none⟩,
  -- THREAD_STATE (R146)
  ⟨0x4000, 0x41FF, 0x04, 0x04, .u8, .ro, 0x0, none⟩,
  -- CPC (R146)
  ⟨0x4000, 0x41FF, 0x05, 0x05, .u32, .ro, 0x0, none⟩,
  -- CURSOR (R146)
  ⟨0x4000, 0x41FF, 0x06, 0x06, .ticks, .ro, 0x0, none⟩,
  -- THREAD_FLAGS (R146)
  ⟨0x4000, 0x41FF, 0x07, 0x07, .u32, .set, 0x0, none⟩,
  -- TRAP_FRAME (R146)
  ⟨0x4000, 0x41FF, 0x08, 0x08, (.blob 96), .ro, 0x0, none⟩,
  -- QDEPTH (R146)
  ⟨0x4000, 0x41FF, 0x09, 0x09, .u8, .ro, 0x0, none⟩,
  -- LQDEPTH (R146)
  ⟨0x4000, 0x41FF, 0x0A, 0x0A, .u8, .ro, 0x0, none⟩,
  -- SNAPSHOT (R146)
  ⟨0x4000, 0x41FF, 0x0B, 0x0B, .bool, .wo, 0x0, some (0, 1)⟩,
  -- VINIT0–VINIT14 (R146)
  ⟨0x4000, 0x41FF, 0x10, 0x1E, .i32, .ro, 0x0, none⟩,
  -- V0–V15 (R146)
  ⟨0x4000, 0x41FF, 0x20, 0x2F, .i32, .ro, 0x0, none⟩,
  -- DH0–DH15 (R146)
  ⟨0x4000, 0x41FF, 0x30, 0x3F, .u32, .ro, 0x0, none⟩,
  -- EASEL_STATE (R147)
  ⟨0x4400, 0x4421, 0x01, 0x01, .u8, .ro, 0x0, none⟩,
  -- SERVES (R147)
  ⟨0x4400, 0x4421, 0x02, 0x02, .u8, .ro, 0x0, none⟩,
  -- LOOKAHEAD (R147)
  ⟨0x4400, 0x4421, 0x03, 0x03, .u16, .rs, 0x200, some (96, 4096)⟩,
  -- EASEL_FLAGS (R147)
  ⟨0x4400, 0x4421, 0x04, 0x04, .u32, .set, 0x0, none⟩,
  -- CUST_IMAGE (R147)
  ⟨0x4440, 0x4440, 0x01, 0x01, (.blob 98304), .wo, 0x0, none⟩,
  -- CUST_CRC (R147)
  ⟨0x4440, 0x4440, 0x02, 0x02, .u32, .ro, 0x0, none⟩,
  -- CUST_STATE (R147)
  ⟨0x4440, 0x4440, 0x03, 0x03, .u8, .ro, 0x0, none⟩,
  -- LOAD_ERROR (R147)
  ⟨0x4440, 0x4440, 0x04, 0x04, .u32, .ro, 0x0, none⟩,
  -- VENDOR_VERSION (R147)
  ⟨0x4440, 0x4440, 0x05, 0x05, .u32, .ro, 0x0, none⟩,
  -- CUST_CLEAR (R147)
  ⟨0x4440, 0x4440, 0x06, 0x06, .bool, .wo, 0x0, some (0, 1)⟩,
  -- CUST_ENTRY0–CUST_ENTRY63 (R147)
  ⟨0x4441, 0x4441, 0x01, 0x40, .u16, .rw, 0x0, none⟩]

/-- Objects of chapter 04. -/
def dictLibrary : List Row := [
  -- DESC_USED (R194)
  ⟨0x4800, 0x4800, 0x01, 0x01, .u32, .ro, 0x0, none⟩,
  -- STREAMS_USED (R194)
  ⟨0x4800, 0x4800, 0x02, 0x02, .u8, .ro, 0x0, none⟩,
  -- ALLOT_TOTAL (R194)
  ⟨0x4800, 0x4800, 0x03, 0x03, .u32, .ro, 0x0, none⟩,
  -- REGION0–REGION63 (R194)
  ⟨0x4801, 0x4801, 0x01, 0x40, .u64, .ro, 0x0, none⟩,
  -- STREAM_STATE (R194)
  ⟨0x4880, 0x48BF, 0x01, 0x01, .u8, .ro, 0x0, none⟩,
  -- STREAM_TILE (R194)
  ⟨0x4880, 0x48BF, 0x02, 0x02, .u8, .ro, 0xFF, none⟩,
  -- DDR_ADDR (R194)
  ⟨0x4880, 0x48BF, 0x03, 0x03, .u64, .ro, 0x0, none⟩,
  -- DDR_LEN (R194)
  ⟨0x4880, 0x48BF, 0x04, 0x04, .u64, .ro, 0x0, none⟩,
  -- RING_BYTES (R194)
  ⟨0x4880, 0x48BF, 0x05, 0x05, .u32, .ro, 0x0, none⟩,
  -- HEAD_BYTES (R194)
  ⟨0x4880, 0x48BF, 0x06, 0x06, .u32, .ro, 0x0, none⟩,
  -- ALLOT (R194)
  ⟨0x4880, 0x48BF, 0x07, 0x07, .u32, .ro, 0x0, none⟩,
  -- READ_POS (R194)
  ⟨0x4880, 0x48BF, 0x08, 0x08, .u64, .ro, 0x0, none⟩,
  -- FILL (R194)
  ⟨0x4880, 0x48BF, 0x09, 0x09, .u32, .ro, 0x0, none⟩,
  -- MIN_FILL (R194)
  ⟨0x4880, 0x48BF, 0x0A, 0x0A, .u32, .ro, 0x0, none⟩,
  -- STREAM_FLAGS (R194)
  ⟨0x4880, 0x48BF, 0x0B, 0x0B, .u32, .set, 0x0, none⟩,
  -- GBIND0–GBIND31 (R194)
  ⟨0x4A00, 0x4BFF, 0x01, 0x20, .u16, .ro, 0xFFFF, none⟩,
  -- GSTEP0–GSTEP31 (R194)
  ⟨0x4A00, 0x4BFF, 0x21, 0x40, .u32, .ro, 0x0, none⟩,
  -- GLFSR0–GLFSR31 (R194)
  ⟨0x4A00, 0x4BFF, 0x41, 0x60, .u32, .ro, 0x0, none⟩,
  -- STROKE_FLAGS (R194)
  ⟨0x4A00, 0x4BFF, 0x61, 0x61, .u32, .set, 0x0, none⟩,
  -- GKIND (R194)
  ⟨0x4C00, 0x4FFF, 0x01, 0x01, .u8, .ro, 0x0, none⟩,
  -- GBASE (R194)
  ⟨0x4C00, 0x4FFF, 0x02, 0x02, .u32, .ro, 0x0, none⟩,
  -- GP1–GP4 (R194)
  ⟨0x4C00, 0x4FFF, 0x03, 0x06, .u32, .ro, 0x0, none⟩,
  -- GRESET_MODE (R194)
  ⟨0x4C00, 0x4FFF, 0x07, 0x07, .u8, .ro, 0x0, none⟩]

/-- Objects of chapter 05 (part 1). -/
def dictOutputs1 : List Row := [
  -- DFREQ_INIT0–3 (R239)
  ⟨0x3000, 0x31FF, 0x10, 0x13, .u64, .ro, 0x0, none⟩,
  -- DVPH_INIT0–3 (R239)
  ⟨0x3000, 0x31FF, 0x14, 0x17, .u64, .ro, 0x0, none⟩,
  -- RFREQ_INIT0–3 (R239)
  ⟨0x3000, 0x31FF, 0x18, 0x1B, .u64, .ro, 0x0, none⟩,
  -- RVPH_INIT0–3 (R239)
  ⟨0x3000, 0x31FF, 0x1C, 0x1F, .u64, .ro, 0x0, none⟩,
  -- DFREQ0–3 (R239)
  ⟨0x3000, 0x31FF, 0x20, 0x23, .u64, .ro, 0x0, none⟩,
  -- DVPH0–3 (R239)
  ⟨0x3000, 0x31FF, 0x24, 0x27, .u64, .ro, 0x0, none⟩,
  -- RFREQ0–3 (R239)
  ⟨0x3000, 0x31FF, 0x28, 0x2B, .u64, .ro, 0x0, none⟩,
  -- RVPH0–3 (R239)
  ⟨0x3000, 0x31FF, 0x2C, 0x2F, .u64, .ro, 0x0, none⟩,
  -- CARRIER (R239)
  ⟨0x3800, 0x383F, 0x01, 0x01, .u64, .ro, 0x0, none⟩,
  -- CARRIER (R239)
  ⟨0x3840, 0x385F, 0x01, 0x01, .u64, .ro, 0x0, none⟩,
  -- PALETTE_GAIN (R239)
  ⟨0x3800, 0x383F, 0x02, 0x02, (.q 2 14), .rs, 0x800, none⟩,
  -- PALETTE_GAIN (R239)
  ⟨0x3840, 0x385F, 0x02, 0x02, (.q 2 14), .rs, 0x400, none⟩,
  -- OUT_ENABLE (R239)
  ⟨0x3800, 0x383F, 0x03, 0x03, .bool, .rs, 0x1, some (0, 1)⟩,
  -- OUT_ENABLE (R239)
  ⟨0x3840, 0x385F, 0x03, 0x03, .bool, .rs, 0x1, some (0, 1)⟩,
  -- FULL_SCALE (R239)
  ⟨0x3800, 0x383F, 0x04, 0x04, .u8, .rs, 0x0, some (0, 15)⟩,
  -- FULL_SCALE (R239)
  ⟨0x3840, 0x385F, 0x04, 0x04, .u8, .rs, 0x0, some (0, 15)⟩,
  -- INV_SINC (R239)
  ⟨0x3800, 0x383F, 0x05, 0x05, .bool, .rs, 0x1, some (0, 1)⟩,
  -- INV_SINC (R239)
  ⟨0x3840, 0x385F, 0x05, 0x05, .bool, .rs, 0x1, some (0, 1)⟩,
  -- BIAS_TEE (R239)
  ⟨0x3800, 0x383F, 0x06, 0x06, .bool, .rs, 0x1, some (0, 1)⟩,
  -- BIAS_TEE (R239)
  ⟨0x3840, 0x385F, 0x06, 0x06, .bool, .rs, 0x1, some (0, 1)⟩,
  -- TONES_USED (R239)
  ⟨0x3800, 0x383F, 0x07, 0x07, .u8, .ro, 0x0, none⟩,
  -- TONES_USED (R239)
  ⟨0x3840, 0x385F, 0x07, 0x07, .u8, .ro, 0x0, none⟩,
  -- PORT_FLAGS (R239)
  ⟨0x3800, 0x383F, 0x08, 0x08, .u32, .set, 0x0, none⟩,
  -- PORT_FLAGS (R239)
  ⟨0x3840, 0x385F, 0x08, 0x08, .u32, .set, 0x0, none⟩,
  -- TONE0–TONE7 (R239)
  ⟨0x3800, 0x383F, 0x10, 0x17, .u32, .ro, 0x0, none⟩]

/-- Objects of chapter 05 (part 2). -/
def dictOutputs2 : List Row := [
  -- TONE0–TONE15 (R239)
  ⟨0x3840, 0x385F, 0x10, 0x1F, .u32, .ro, 0x0, none⟩,
  -- FLUX_RANGE (R239)
  ⟨0x3400, 0x36FF, 0x01, 0x01, .u8, .rs, 0x0, some (0, 3)⟩,
  -- IDLE_CODE (R239)
  ⟨0x3400, 0x36FF, 0x02, 0x02, .i16, .rs, 0x0, none⟩,
  -- HOLD_INIT (R239)
  ⟨0x3400, 0x36FF, 0x03, 0x03, .i16, .ro, 0x0, none⟩,
  -- HOLD_NOW (R239)
  ⟨0x3400, 0x36FF, 0x04, 0x04, .i16, .ro, 0x0, none⟩,
  -- FLUX_OFFSET (R239)
  ⟨0x3400, 0x36FF, 0x05, 0x05, .i16, .ro, 0x0, none⟩,
  -- HOLDER (R239)
  ⟨0x3400, 0x36FF, 0x06, 0x06, .u16, .ro, 0xFFFF, none⟩,
  -- FLUX_FLAGS (R239)
  ⟨0x3400, 0x36FF, 0x07, 0x07, .u32, .set, 0x0, none⟩,
  -- B0 of section k (R239)
  ⟨0x3400, 0x36FF, 0x10, 0x10, (.q 2 30), .rs, 0x40000000, none⟩,
  -- B0 of section k (R239)
  ⟨0x3400, 0x36FF, 0x13, 0x13, (.q 2 30), .rs, 0x40000000, none⟩,
  -- B0 of section k (R239)
  ⟨0x3400, 0x36FF, 0x16, 0x16, (.q 2 30), .rs, 0x40000000, none⟩,
  -- B0 of section k (R239)
  ⟨0x3400, 0x36FF, 0x19, 0x19, (.q 2 30), .rs, 0x40000000, none⟩,
  -- B1 of section k (R239)
  ⟨0x3400, 0x36FF, 0x11, 0x11, (.q 2 30), .rs, 0x0, none⟩,
  -- B1 of section k (R239)
  ⟨0x3400, 0x36FF, 0x14, 0x14, (.q 2 30), .rs, 0x0, none⟩,
  -- B1 of section k (R239)
  ⟨0x3400, 0x36FF, 0x17, 0x17, (.q 2 30), .rs, 0x0, none⟩,
  -- B1 of section k (R239)
  ⟨0x3400, 0x36FF, 0x1A, 0x1A, (.q 2 30), .rs, 0x0, none⟩,
  -- A1 of section k (R239)
  ⟨0x3400, 0x36FF, 0x12, 0x12, (.q 2 30), .rs, 0x0, none⟩,
  -- A1 of section k (R239)
  ⟨0x3400, 0x36FF, 0x15, 0x15, (.q 2 30), .rs, 0x0, none⟩,
  -- A1 of section k (R239)
  ⟨0x3400, 0x36FF, 0x18, 0x18, (.q 2 30), .rs, 0x0, none⟩,
  -- A1 of section k (R239)
  ⟨0x3400, 0x36FF, 0x1B, 0x1B, (.q 2 30), .rs, 0x0, none⟩,
  -- IIR_ENABLE (R239)
  ⟨0x3400, 0x36FF, 0x1C, 0x1C, .u8, .rs, 0x0, some (0, 15)⟩,
  -- H0–H47 (R239)
  ⟨0x3400, 0x36FF, 0x20, 0x4F, (.q 2 14), .rs, 0x0, none⟩,
  -- TSET0–TSET7 (R239)
  ⟨0x3A00, 0x3A3F, 0x01, 0x08, .u32, .rs, 0x0, none⟩,
  -- IDLE_LEVEL (R239)
  ⟨0x3A00, 0x3A3F, 0x09, 0x09, .bool, .rs, 0x0, some (0, 1)⟩,
  -- MK_DRIVE (R239)
  ⟨0x3A00, 0x3A3F, 0x0A, 0x0A, .bool, .rs, 0x0, some (0, 1)⟩]

/-- Objects of chapter 05 (part 3). -/
def dictOutputs3 : List Row := [
  -- MK_LEVEL (R239)
  ⟨0x3A00, 0x3A3F, 0x0B, 0x0B, .bool, .ro, 0x0, some (0, 1)⟩,
  -- MK_FLAGS (R239)
  ⟨0x3A00, 0x3A3F, 0x0C, 0x0C, .u32, .set, 0x0, none⟩]

/-- Objects of chapter 05. -/
def dictOutputs : List Row :=
  dictOutputs1 ++ dictOutputs2 ++ dictOutputs3

/-- Objects of chapter 06. -/
def dictReadout : List Row := [
  -- RX_ENABLE (R285)
  ⟨0x3840, 0x385F, 0x20, 0x20, .bool, .rs, 0x1, some (0, 1)⟩,
  -- NZONE (R285)
  ⟨0x3840, 0x385F, 0x21, 0x21, .u8, .rs, 0x1, some (1, 2)⟩,
  -- ATTEN (R285)
  ⟨0x3840, 0x385F, 0x22, 0x22, .u8, .rs, 0x0, some (0, 7)⟩,
  -- LINE_ALIGN (R285)
  ⟨0x3840, 0x385F, 0x23, 0x23, .u32, .rs, 0x240, some (0, 262143)⟩,
  -- SLICE_MAP (R285)
  ⟨0x3840, 0x385F, 0x24, 0x24, (.blob 48), .ro, 0x0, none⟩,
  -- SPARES_LEFT (R285)
  ⟨0x3840, 0x385F, 0x25, 0x25, .u8, .ro, 0x4, none⟩,
  -- RX_FLAGS (R285)
  ⟨0x3840, 0x385F, 0x26, 0x26, .u32, .set, 0x0, none⟩,
  -- RTONE (R286)
  ⟨0x3000, 0x31FF, 0x40, 0x40, .u16, .ro, 0xFFFF, none⟩,
  -- DGAIN (R286)
  ⟨0x3000, 0x31FF, 0x41, 0x41, .u8, .rs, 0x0, some (0, 7)⟩,
  -- FIR_TAPS (R286)
  ⟨0x3000, 0x31FF, 0x42, 0x42, .u8, .rs, 0x1, some (1, 64)⟩,
  -- FIR_MODE (R286)
  ⟨0x3000, 0x31FF, 0x43, 0x43, .u8, .rs, 0x0, some (0, 1)⟩,
  -- TONE_ALIGN (R286)
  ⟨0x3000, 0x31FF, 0x44, 0x44, .u16, .rs, 0x0, some (0, 1023)⟩,
  -- ISHIFT (R286)
  ⟨0x3000, 0x31FF, 0x45, 0x45, .u8, .rs, 0x10, some (0, 31)⟩,
  -- DISC_MODE (R286)
  ⟨0x3000, 0x31FF, 0x46, 0x46, .u8, .rs, 0x0, some (0, 3)⟩,
  -- ROT_COS (R286)
  ⟨0x3000, 0x31FF, 0x47, 0x47, (.q 2 14), .rs, 0x4000, none⟩,
  -- ROT_SIN (R286)
  ⟨0x3000, 0x31FF, 0x48, 0x48, (.q 2 14), .rs, 0x0, none⟩,
  -- THRESH (R286)
  ⟨0x3000, 0x31FF, 0x49, 0x49, .i32, .rs, 0x0, none⟩,
  -- GUARD (R286)
  ⟨0x3000, 0x31FF, 0x4A, 0x4A, .u32, .rs, 0x0, none⟩,
  -- C0I, C0Q, C1I, C1Q, C2I, C2Q (R286)
  ⟨0x3000, 0x31FF, 0x4B, 0x50, .i32, .rs, 0x0, none⟩,
  -- RADIUS (R286)
  ⟨0x3000, 0x31FF, 0x51, 0x51, .u32, .rs, 0x0, none⟩,
  -- MARGIN (R286)
  ⟨0x3000, 0x31FF, 0x52, 0x52, .u64, .rs, 0x0, none⟩,
  -- CHAIN_FLAGS (R286)
  ⟨0x3000, 0x31FF, 0x53, 0x53, .u32, .set, 0x0, none⟩,
  -- LAST_RESULT (R286)
  ⟨0x3000, 0x31FF, 0x54, 0x54, (.blob 16), .ro, 0x0, none⟩,
  -- KERNEL0–KERNEL15 (R286)
  ⟨0x3000, 0x31FF, 0x60, 0x6F, .u64, .ro, 0x0, none⟩,
  -- FIRC0–FIRC63 (R286)
  ⟨0x3000, 0x31FF, 0x80, 0xBF, .u32, .rs, 0x0, none⟩]

/-- Objects of chapter 07. -/
def dictDecisions : List Row := [
  -- SKETCH_PAGES (R325)
  ⟨0x4000, 0x41FF, 0x40, 0x40, .u8, .ro, 0x0, none⟩,
  -- SKETCH_FLAGS (R325)
  ⟨0x4000, 0x41FF, 0x41, 0x41, .u32, .set, 0x0, none⟩,
  -- LIVE_PATHS (R325)
  ⟨0x4000, 0x41FF, 0x42, 0x42, .u8, .ro, 0x0, none⟩,
  -- PENDING_DEC (R325)
  ⟨0x4000, 0x41FF, 0x43, 0x43, .u8, .ro, 0x0, none⟩,
  -- HANDLE_FULL (R325)
  ⟨0x4000, 0x41FF, 0x44, 0x44, .u16, .ro, 0x0, none⟩,
  -- EXPORT_MASK (R325)
  ⟨0x4000, 0x41FF, 0x45, 0x45, .u64, .ro, 0x0, none⟩,
  -- COMMIT_MARGIN (R325)
  ⟨0x4000, 0x41FF, 0x46, 0x46, .i32, .ro, 0x0, none⟩,
  -- PAGES_RESERVED (R325)
  ⟨0x4460, 0x4467, 0x01, 0x01, .u8, .ro, 0x0, none⟩,
  -- PAGES_PEAK (R325)
  ⟨0x4460, 0x4467, 0x02, 0x02, .u8, .ro, 0x0, none⟩,
  -- ROUTE0–ROUTE63 (R325)
  ⟨0x24F0, 0x24F0, 0x01, 0x40, .u8, .ro, 0xFF, none⟩,
  -- DX_FLAGS (R325)
  ⟨0x24F1, 0x24F1, 0x01, 0x01, .u32, .set, 0x0, none⟩]

/-- Objects of chapter 08 (part 1). -/
def dictAcquisition1 : List Row := [
  -- ACQ_MODE (R365)
  ⟨0x5100, 0x517F, 0x01, 0x01, .u8, .rs, 0x0, some (0, 2)⟩,
  -- TAP (R365)
  ⟨0x5100, 0x517F, 0x02, 0x02, .u8, .rs, 0x2, some (0, 2)⟩,
  -- SOURCE (R365)
  ⟨0x5100, 0x517F, 0x03, 0x03, .u16, .rs, 0xFFFF, none⟩,
  -- REDUCE (R365)
  ⟨0x5100, 0x517F, 0x04, 0x04, .u8, .rs, 0x0, some (0, 16)⟩,
  -- PRE (R365)
  ⟨0x5100, 0x517F, 0x05, 0x05, .u32, .rs, 0x0, none⟩,
  -- POST (R365)
  ⟨0x5100, 0x517F, 0x06, 0x06, .u32, .rs, 0x0, none⟩,
  -- RECORDS (R365)
  ⟨0x5100, 0x517F, 0x07, 0x07, .u16, .rs, 0x1, none⟩,
  -- SPILL (R365)
  ⟨0x5100, 0x517F, 0x08, 0x08, .bool, .rs, 0x0, some (0, 1)⟩,
  -- BUF_BYTES (R365)
  ⟨0x5100, 0x517F, 0x09, 0x09, .u32, .rs, 0x4000, none⟩,
  -- COND_ENABLE (R365)
  ⟨0x5100, 0x517F, 0x0A, 0x0A, .u16, .rs, 0x0, none⟩,
  -- EXT_SEL (R365)
  ⟨0x5100, 0x517F, 0x0B, 0x0B, .u8, .rs, 0x0, some (0, 7)⟩,
  -- EV_SEL (R365)
  ⟨0x5100, 0x517F, 0x0C, 0x0C, .u8, .rs, 0x0, none⟩,
  -- LEVEL_PART (R365)
  ⟨0x5100, 0x517F, 0x0D, 0x0D, .u8, .rs, 0x0, some (0, 2)⟩,
  -- LEVEL_DIR (R365)
  ⟨0x5100, 0x517F, 0x0E, 0x0E, .u8, .rs, 0x0, some (0, 1)⟩,
  -- LEVEL_HIGH (R365)
  ⟨0x5100, 0x517F, 0x0F, 0x0F, .i32, .rs, 0x0, none⟩,
  -- LEVEL_LOW (R365)
  ⟨0x5100, 0x517F, 0x10, 0x10, .i32, .rs, 0x0, none⟩,
  -- HOLDOFF (R365)
  ⟨0x5100, 0x517F, 0x11, 0x11, .u32, .rs, 0x0, none⟩,
  -- ACQ_CMD (R365)
  ⟨0x5100, 0x517F, 0x12, 0x12, .u8, .wo, 0x0, some (1, 3)⟩,
  -- ACQ_STATE (R365)
  ⟨0x5100, 0x517F, 0x13, 0x13, .u8, .ro, 0x0, none⟩,
  -- ACQ_FLAGS (R365)
  ⟨0x5100, 0x517F, 0x14, 0x14, .u32, .set, 0x0, none⟩,
  -- HOLDER (R365)
  ⟨0x5100, 0x517F, 0x15, 0x15, .u16, .ro, 0xFFFF, none⟩,
  -- RECORD_NO (R365)
  ⟨0x5100, 0x517F, 0x16, 0x16, .u32, .ro, 0x0, none⟩,
  -- MARK_NO (R365)
  ⟨0x5100, 0x517F, 0x17, 0x17, .u32, .ro, 0x0, none⟩,
  -- ACQ_RATE (R365)
  ⟨0x5100, 0x517F, 0x18, 0x18, .u32, .ro, 0x0, none⟩,
  -- TI_EDGE (R367)
  ⟨0x3A40, 0x3A47, 0x01, 0x01, .u8, .rs, 0x0, some (0, 2)⟩]

/-- Objects of chapter 08 (part 2). -/
def dictAcquisition2 : List Row := [
  -- TI_MIN_WIDTH (R367)
  ⟨0x3A40, 0x3A47, 0x02, 0x02, .u8, .rs, 0x0, some (0, 15)⟩,
  -- TI_POLICY (R367)
  ⟨0x3A40, 0x3A47, 0x03, 0x03, .u8, .rs, 0x0, some (0, 2)⟩,
  -- TI_LAST (R367)
  ⟨0x3A40, 0x3A47, 0x04, 0x04, .ticks, .ro, 0x0, none⟩,
  -- TI_DEPTH (R367)
  ⟨0x3A40, 0x3A47, 0x05, 0x05, .u8, .ro, 0x0, none⟩,
  -- TI_HOLDER (R367)
  ⟨0x3A40, 0x3A47, 0x06, 0x06, .u16, .ro, 0xFFFF, none⟩,
  -- TI_FLAGS (R367)
  ⟨0x3A40, 0x3A47, 0x07, 0x07, .u32, .set, 0x0, none⟩,
  -- OUT_SOURCE (R367)
  ⟨0x3A48, 0x3A4F, 0x01, 0x01, .u8, .rs, 0x0, some (0, 5)⟩,
  -- OUT_ARG (R367)
  ⟨0x3A48, 0x3A4F, 0x02, 0x02, .u16, .rs, 0x0, none⟩,
  -- OUT_DELAY (R367)
  ⟨0x3A48, 0x3A4F, 0x03, 0x03, .u16, .rs, 0x0, none⟩,
  -- OUT_WIDTH (R367)
  ⟨0x3A48, 0x3A4F, 0x04, 0x04, .u16, .rs, 0x8, some (1, 65535)⟩,
  -- OUT_POLARITY (R367)
  ⟨0x3A48, 0x3A4F, 0x05, 0x05, .bool, .rs, 0x0, some (0, 1)⟩,
  -- OUT_LEVEL (R367)
  ⟨0x3A48, 0x3A4F, 0x06, 0x06, .bool, .rw, 0x0, some (0, 1)⟩]

/-- Objects of chapter 08. -/
def dictAcquisition : List Row :=
  dictAcquisition1 ++ dictAcquisition2

/-- Objects of chapter 09. -/
def dictDsp : List Row := [
  -- CORE_STATE (R411)
  ⟨0x5800, 0x5810, 0x01, 0x01, .u8, .ro, 0x0, none⟩,
  -- SERVES_TILE (R411)
  ⟨0x5800, 0x5810, 0x02, 0x02, .u8, .ro, 0x0, none⟩,
  -- IMAGE_CRC (R411)
  ⟨0x5800, 0x5810, 0x03, 0x03, .u32, .ro, 0x0, none⟩,
  -- ATTACH_MAP (R411)
  ⟨0x5800, 0x5810, 0x04, 0x04, .u64, .ro, 0x0, none⟩,
  -- FEED_MAP (R411)
  ⟨0x5800, 0x5810, 0x05, 0x05, .u64, .ro, 0x0, none⟩,
  -- FEED_BASE (R411)
  ⟨0x5800, 0x5810, 0x06, 0x06, .u32, .ro, 0x0, none⟩,
  -- FEED_LEN (R411)
  ⟨0x5800, 0x5810, 0x07, 0x07, .u32, .ro, 0x0, none⟩,
  -- DEC_BUDGET (R411)
  ⟨0x5800, 0x5810, 0x08, 0x08, .u16, .rs, 0x18, some (4, 1023)⟩,
  -- DRAIN_BUDGET (R411)
  ⟨0x5800, 0x5810, 0x09, 0x09, .u16, .rs, 0x40, some (0, 4095)⟩,
  -- FIFO_DEPTH (R411)
  ⟨0x5800, 0x5810, 0x0A, 0x0A, .u8, .ro, 0x0, none⟩,
  -- FIFO_PEAK (R411)
  ⟨0x5800, 0x5810, 0x0B, 0x0B, .u8, .ro, 0x0, none⟩,
  -- MBOX_IN (R411)
  ⟨0x5800, 0x5810, 0x0C, 0x0C, .u32, .wo, 0x0, none⟩,
  -- MBOX_OUT (R411)
  ⟨0x5800, 0x5810, 0x0D, 0x0D, .u32, .ro, 0x0, none⟩,
  -- DEC_SLACK_MIN (R411)
  ⟨0x5800, 0x5810, 0x0E, 0x0E, .i16, .ro, 0x0, none⟩,
  -- PC (R411)
  ⟨0x5800, 0x5810, 0x0F, 0x0F, .u16, .ro, 0x0, none⟩,
  -- DSP_FLAGS (R411)
  ⟨0x5800, 0x5810, 0x10, 0x10, .u32, .set, 0x0, none⟩]

/-- Objects of chapter 10. -/
def dictPlacement : List Row := [
  -- PLACE_FLAGS (R441)
  ⟨0x6000, 0x6000, 0x01, 0x01, .u32, .set, 0x0, none⟩,
  -- RESIDENT (R441)
  ⟨0x6000, 0x6000, 0x02, 0x02, .u8, .ro, 0x0, none⟩,
  -- SPARE_MAP (R441)
  ⟨0x6000, 0x6000, 0x03, 0x03, .u8, .ro, 0x7, none⟩,
  -- LAST_REPORT (R441)
  ⟨0x6000, 0x6000, 0x04, 0x04, (.blob 0), .ro, 0x0, none⟩,
  -- REPORT_NO (R441)
  ⟨0x6000, 0x6000, 0x05, 0x05, .u32, .ro, 0x0, none⟩,
  -- STRETCH_MAX (R441)
  ⟨0x6000, 0x6000, 0x06, 0x06, .u32, .ro, 0x0, none⟩,
  -- THREADS_FREE (R441)
  ⟨0x6010, 0x6017, 0x01, 0x01, .u8, .ro, 0x40, none⟩,
  -- STORE_FREE (R441)
  ⟨0x6010, 0x6017, 0x02, 0x02, .u32, .ro, 0x1000, none⟩,
  -- PEAK_DEMAND (R441)
  ⟨0x6010, 0x6017, 0x03, 0x03, .u32, .ro, 0x0, none⟩,
  -- SPARE_EASEL (R441)
  ⟨0x6010, 0x6017, 0x04, 0x04, .u8, .ro, 0xFF, none⟩,
  -- SPARE_DSP (R441)
  ⟨0x6010, 0x6017, 0x05, 0x05, .u8, .ro, 0xFF, none⟩,
  -- FLOW_RATE (R441)
  ⟨0x6020, 0x6023, 0x01, 0x01, .u32, .ro, 0x0, none⟩,
  -- XY_PORT (R441)
  ⟨0x6100, 0x62FF, 0x01, 0x01, .u8, .rs, 0xFF, none⟩,
  -- RL_LINE (R441)
  ⟨0x6100, 0x62FF, 0x02, 0x02, .u8, .rs, 0xFF, none⟩,
  -- FLUX0–FLUX3 (R441)
  ⟨0x6100, 0x62FF, 0x03, 0x06, .u16, .rs, 0xFFFF, none⟩,
  -- PLACED_THREAD (R441)
  ⟨0x6100, 0x62FF, 0x07, 0x07, .u16, .ro, 0xFFFF, none⟩,
  -- PLACED_XY (R441)
  ⟨0x6100, 0x62FF, 0x08, 0x08, .u16, .ro, 0xFFFF, none⟩]

/-- Objects of chapter 11 (part 1). -/
def dictCalibration1 : List Row := [
  -- CAL_CMD (R475)
  ⟨0x6800, 0x6800, 0x01, 0x01, .u32, .wo, 0x0, none⟩,
  -- CAL_BUSY (R475)
  ⟨0x6800, 0x6800, 0x02, 0x02, .u32, .ro, 0x0, none⟩,
  -- CAL_FLAGS (R475)
  ⟨0x6800, 0x6800, 0x03, 0x03, .u32, .set, 0x0, none⟩,
  -- VARNISH_POLICY (R475)
  ⟨0x6800, 0x6800, 0x04, 0x04, .u8, .rs, 0x0, some (0, 1)⟩,
  -- GLAZE_STEP (R475)
  ⟨0x6800, 0x6800, 0x05, 0x05, .u8, .rs, 0x1, some (1, 64)⟩,
  -- GLAZE_INTERVAL (R475)
  ⟨0x6800, 0x6800, 0x06, 0x06, .u32, .rs, 0x1D4C, some (750, 7500000)⟩,
  -- GLAZE_FREEZE (R475)
  ⟨0x6800, 0x6800, 0x07, 0x07, .bool, .rw, 0x0, some (0, 1)⟩,
  -- ROTATE_PERIOD (R475)
  ⟨0x6800, 0x6800, 0x08, 0x08, .u32, .rs, 0x2DC6C, some (7500, 7500000)⟩,
  -- CAL_PENDING (R475)
  ⟨0x6800, 0x6800, 0x09, 0x09, .u16, .ro, 0x0, none⟩,
  -- SKEW_DT (R475)
  ⟨0x6800, 0x6800, 0x0A, 0x0A, .u8, .rs, 0x50, none⟩,
  -- LAST_RECORD (R475)
  ⟨0x6800, 0x6800, 0x0B, 0x0B, (.blob 48), .ro, 0x0, none⟩,
  -- SLICE_TRIM (R475)
  ⟨0x6810, 0x682F, 0x01, 0x01, (.blob 208), .ro, 0x0, none⟩,
  -- SPUR_LEVEL (R475)
  ⟨0x6810, 0x682F, 0x02, 0x02, .u16, .ro, 0x0, none⟩,
  -- LOOP_RESULT (R475)
  ⟨0x6810, 0x682F, 0x03, 0x03, .u32, .ro, 0x0, none⟩,
  -- SKEW_TRIM (R475)
  ⟨0x6840, 0x687F, 0x01, 0x01, .i16, .ro, 0x0, none⟩,
  -- SKEW_TRIM (R475)
  ⟨0x6880, 0x689F, 0x01, 0x01, .i16, .ro, 0x0, none⟩,
  -- LEVEL_TRIM (R475)
  ⟨0x6840, 0x687F, 0x02, 0x02, .i16, .ro, 0x0, none⟩,
  -- LEVEL_TRIM (R475)
  ⟨0x6880, 0x689F, 0x02, 0x02, .i16, .ro, 0x0, none⟩,
  -- DC_TRIM (R475)
  ⟨0x6840, 0x687F, 0x03, 0x03, .i16, .ro, 0x0, none⟩,
  -- DC_TRIM (R475)
  ⟨0x6880, 0x689F, 0x03, 0x03, .i16, .ro, 0x0, none⟩,
  -- DC_TARGET (R475)
  ⟨0x6840, 0x687F, 0x04, 0x04, .i16, .ro, 0x0, none⟩,
  -- DC_TARGET (R475)
  ⟨0x6880, 0x689F, 0x04, 0x04, .i16, .ro, 0x0, none⟩,
  -- SKEW_RESID (R475)
  ⟨0x6840, 0x687F, 0x05, 0x05, .i16, .ro, 0x0, none⟩,
  -- SKEW_RESID (R475)
  ⟨0x6880, 0x689F, 0x05, 0x05, .i16, .ro, 0x0, none⟩,
  -- FLATNESS (R475)
  ⟨0x6840, 0x687F, 0x06, 0x06, .u16, .ro, 0x0, none⟩]

/-- Objects of chapter 11 (part 2). -/
def dictCalibration2 : List Row := [
  -- FLATNESS (R475)
  ⟨0x6880, 0x689F, 0x06, 0x06, .u16, .ro, 0x0, none⟩,
  -- SKEW_TRIM (R475)
  ⟨0x68A0, 0x68DF, 0x01, 0x01, .i16, .ro, 0x0, none⟩,
  -- SKEW_RESID (R475)
  ⟨0x68A0, 0x68DF, 0x05, 0x05, .i16, .ro, 0x0, none⟩,
  -- FO_BASE (R475)
  ⟨0x6900, 0x6BFF, 0x01, 0x01, .i16, .ro, 0x0, none⟩,
  -- FO_TC (R475)
  ⟨0x6900, 0x6BFF, 0x02, 0x02, .i32, .ro, 0x0, none⟩,
  -- FO_TREF (R475)
  ⟨0x6900, 0x6BFF, 0x03, 0x03, .u16, .ro, 0x0, none⟩,
  -- FO_SENSOR (R475)
  ⟨0x6900, 0x6BFF, 0x04, 0x04, .u8, .rs, 0x0, some (0, 21)⟩,
  -- FO_TARGET (R475)
  ⟨0x6900, 0x6BFF, 0x05, 0x05, .i16, .ro, 0x0, none⟩,
  -- SKEW_TRIM (R475)
  ⟨0x6900, 0x6BFF, 0x06, 0x06, .i16, .ro, 0x0, none⟩,
  -- HK_LOWPOWER (R475)
  ⟨0x6C00, 0x6C03, 0x01, 0x01, .bool, .rw, 0x0, some (0, 1)⟩,
  -- SEQ (R475)
  ⟨0x6C00, 0x6C03, 0x02, 0x02, (.blob 32), .rs, 0x0, none⟩,
  -- HK_LIMIT_MAP (R475)
  ⟨0x6C00, 0x6C03, 0x03, 0x03, .u32, .set, 0x0, none⟩,
  -- HK_TRIG_SRC (R475)
  ⟨0x6C04, 0x6C04, 0x01, 0x01, .u8, .rs, 0x1, some (0, 15)⟩,
  -- HK_PERIOD (R475)
  ⟨0x6C04, 0x6C04, 0x02, 0x02, .u32, .rs, 0xB71B0, some (7500, 4294967295)⟩,
  -- HK_EV (R475)
  ⟨0x6C04, 0x6C04, 0x03, 0x03, .u8, .rs, 0x0, none⟩,
  -- SCAN_LEN (R475)
  ⟨0x6C04, 0x6C04, 0x04, 0x04, .u8, .rs, 0x20, some (1, 32)⟩,
  -- HK_CMD (R475)
  ⟨0x6C04, 0x6C04, 0x05, 0x05, .bool, .wo, 0x0, some (0, 1)⟩,
  -- HK_FLAGS (R475)
  ⟨0x6C04, 0x6C04, 0x06, 0x06, .u32, .set, 0x0, none⟩,
  -- HKRES (R475)
  ⟨0x6D00, 0x6D7F, 0x01, 0x01, .u16, .ro, 0x0, none⟩,
  -- LIM_LOW (R475)
  ⟨0x6D00, 0x6D7F, 0x02, 0x02, .u16, .rs, 0x0, none⟩,
  -- LIM_HIGH (R475)
  ⟨0x6D00, 0x6D7F, 0x03, 0x03, .u16, .rs, 0xFFF, none⟩,
  -- SCALE (R475)
  ⟨0x6D00, 0x6D7F, 0x04, 0x04, .f32, .ro, 0x0, none⟩,
  -- OFFSET (R475)
  ⟨0x6D00, 0x6D7F, 0x05, 0x05, .f32, .ro, 0x0, none⟩,
  -- HK_EPOCH (R475)
  ⟨0x6D00, 0x6D7F, 0x06, 0x06, .ticks, .ro, 0x0, none⟩]

/-- Objects of chapter 11. -/
def dictCalibration : List Row :=
  dictCalibration1 ++ dictCalibration2

/-- Objects of chapter 12. -/
def dictEvents : List Row := [
  -- IN_MASK (R506)
  ⟨0x7000, 0x70FF, 0x01, 0x01, (.blob 32), .rs, 0x0, none⟩,
  -- EV_MODE (R506)
  ⟨0x7000, 0x70FF, 0x02, 0x02, .u8, .rs, 0x0, some (0, 1)⟩,
  -- AND_WINDOW (R506)
  ⟨0x7000, 0x70FF, 0x03, 0x03, .u16, .rs, 0x0, none⟩,
  -- AND_ARM (R506)
  ⟨0x7000, 0x70FF, 0x04, 0x04, (.blob 32), .ro, 0x0, none⟩,
  -- NATIVE_EN (R506)
  ⟨0x7000, 0x70FF, 0x05, 0x05, .bool, .rs, 0x1, some (0, 1)⟩,
  -- WAKE_EN (R506)
  ⟨0x7000, 0x70FF, 0x06, 0x06, .bool, .rs, 0x0, some (0, 1)⟩,
  -- LAT_EXPORT (R506)
  ⟨0x7000, 0x70FF, 0x07, 0x07, .bool, .rs, 0x0, some (0, 1)⟩,
  -- EV_LAST (R506)
  ⟨0x7000, 0x70FF, 0x08, 0x08, .ticks, .ro, 0x0, none⟩,
  -- EV_FLAGS (R506)
  ⟨0x7000, 0x70FF, 0x09, 0x09, .u32, .set, 0x0, none⟩,
  -- EV_FIRE (R506)
  ⟨0x7100, 0x7100, 0x01, 0x01, .u8, .wo, 0x0, none⟩,
  -- NOTIF_SEQ (R507)
  ⟨0x7400, 0x7400, 0x01, 0x01, .u32, .ro, 0x0, none⟩,
  -- COALESCE (R507)
  ⟨0x7400, 0x7400, 0x02, 0x02, .u32, .rw, 0x1D4C, some (0, 7500000)⟩,
  -- MIN_GAP (R507)
  ⟨0x7400, 0x7400, 0x03, 0x03, .u32, .rw, 0x2EE, some (0, 7500000)⟩,
  -- AGG_FLAGS (R507)
  ⟨0x7400, 0x7400, 0x04, 0x04, .u32, .set, 0x0, none⟩,
  -- NOTIFY_ENABLE (R507)
  ⟨0x7400, 0x7400, 0x05, 0x05, .bool, .rw, 0x0, some (0, 1)⟩,
  -- QUEUED_NOW (R507)
  ⟨0x7400, 0x7400, 0x06, 0x06, .u16, .ro, 0x0, none⟩,
  -- PENDING_MAP0–PENDING_MAP63 (R507)
  ⟨0x7401, 0x7401, 0x01, 0x40, .u64, .ro, 0x0, none⟩,
  -- SLOT_MASK (R507)
  ⟨0x7500, 0x75FF, 0x01, 0x10, .u32, .rw, 0xFFFFFFFF, none⟩,
  -- SLOT_CTRL (R507)
  ⟨0x7500, 0x75FF, 0x11, 0x20, .u8, .rw, 0x2, none⟩]

/-- Objects of chapter 13 (part 1). -/
def dictSerial1 : List Row := [
  -- PORT_STATE (R551)
  ⟨0x2800, 0x2803, 0x01, 0x01, .u8, .ro, 0x0, none⟩,
  -- PORT_STATE (R551)
  ⟨0x2810, 0x2810, 0x01, 0x01, .u8, .ro, 0x0, none⟩,
  -- PORT_ENABLE (R551)
  ⟨0x2800, 0x2803, 0x02, 0x02, .bool, .rs, 0x1, some (0, 1)⟩,
  -- PORT_ENABLE (R551)
  ⟨0x2810, 0x2810, 0x02, 0x02, .bool, .rs, 0x1, some (0, 1)⟩,
  -- AUI_MODE (R551)
  ⟨0x2800, 0x2803, 0x03, 0x03, .u8, .rs, 0x0, some (0, 1)⟩,
  -- AUI_MODE (R551)
  ⟨0x2810, 0x2810, 0x03, 0x03, .u8, .rs, 0x0, some (0, 1)⟩,
  -- MAC_ADDR (R551)
  ⟨0x2800, 0x2803, 0x04, 0x04, .u64, .rs, 0x0, none⟩,
  -- MAC_ADDR (R551)
  ⟨0x2810, 0x2810, 0x04, 0x04, .u64, .rs, 0x0, none⟩,
  -- IPV4_ADDR (R551)
  ⟨0x2800, 0x2803, 0x05, 0x05, .u32, .rs, 0x0, none⟩,
  -- IPV4_ADDR (R551)
  ⟨0x2810, 0x2810, 0x05, 0x05, .u32, .rs, 0x0, none⟩,
  -- IPV6_ADDR (R551)
  ⟨0x2800, 0x2803, 0x06, 0x06, (.blob 16), .rs, 0x0, none⟩,
  -- IPV6_ADDR (R551)
  ⟨0x2810, 0x2810, 0x06, 0x06, (.blob 16), .rs, 0x0, none⟩,
  -- MTU (R551)
  ⟨0x2800, 0x2803, 0x07, 0x07, .u16, .rs, 0x5DC, none⟩,
  -- MTU (R551)
  ⟨0x2810, 0x2810, 0x07, 0x07, .u16, .rs, 0x5DC, none⟩,
  -- VLAN (R551)
  ⟨0x2800, 0x2803, 0x08, 0x08, .u16, .rs, 0x0, none⟩,
  -- VLAN (R551)
  ⟨0x2810, 0x2810, 0x08, 0x08, .u16, .rs, 0x0, none⟩,
  -- PAUSE_RX (R551)
  ⟨0x2800, 0x2803, 0x09, 0x09, .bool, .rs, 0x0, some (0, 1)⟩,
  -- PAUSE_RX (R551)
  ⟨0x2810, 0x2810, 0x09, 0x09, .bool, .rs, 0x0, some (0, 1)⟩,
  -- NET_FLAGS (R551)
  ⟨0x2800, 0x2803, 0x0A, 0x0A, .u32, .set, 0x0, none⟩,
  -- NET_FLAGS (R551)
  ⟨0x2810, 0x2810, 0x0A, 0x0A, .u32, .set, 0x0, none⟩,
  -- PORT_CMD (R551)
  ⟨0x2800, 0x2803, 0x0B, 0x0B, .u8, .wo, 0x0, some (1, 1)⟩,
  -- PORT_CMD (R551)
  ⟨0x2810, 0x2810, 0x0B, 0x0B, .u8, .wo, 0x0, some (1, 1)⟩,
  -- GZ_STATE (R551)
  ⟨0x2400, 0x240B, 0x01, 0x01, .u8, .ro, 0x0, none⟩,
  -- GZ_ENABLE (R551)
  ⟨0x2400, 0x240B, 0x02, 0x02, .bool, .rs, 0x1, some (0, 1)⟩,
  -- PEER (R551)
  ⟨0x2400, 0x240B, 0x03, 0x03, .u32, .ro, 0x0, none⟩]

/-- Objects of chapter 13 (part 2). -/
def dictSerial2 : List Row := [
  -- PEER_LATTICE (R551)
  ⟨0x2400, 0x240B, 0x04, 0x04, .u32, .ro, 0x0, none⟩,
  -- LANE_ORDER (R551)
  ⟨0x2400, 0x240B, 0x05, 0x05, .u8, .ro, 0xE4, none⟩,
  -- POLARITY (R551)
  ⟨0x2400, 0x240B, 0x06, 0x06, .u8, .ro, 0x0, none⟩,
  -- LANE_SKEW (R551)
  ⟨0x2400, 0x240B, 0x07, 0x07, .u16, .ro, 0x0, none⟩,
  -- RESEND_TIMEOUT (R551)
  ⟨0x2400, 0x240B, 0x08, 0x08, .u16, .rs, 0x5DC, some (150, 15000)⟩,
  -- UNACKED (R551)
  ⟨0x2400, 0x240B, 0x09, 0x09, .u8, .ro, 0x0, none⟩,
  -- GZ_FLAGS (R551)
  ⟨0x2400, 0x240B, 0x0A, 0x0A, .u32, .set, 0x0, none⟩,
  -- GZ_CMD (R551)
  ⟨0x2400, 0x240B, 0x0B, 0x0B, .u8, .wo, 0x0, some (1, 2)⟩,
  -- ADAPT_STATE (R551)
  ⟨0x2410, 0x243F, 0x01, 0x01, .u8, .ro, 0x2, none⟩,
  -- ADAPT_STATE (R551)
  ⟨0x2820, 0x282F, 0x01, 0x01, .u8, .ro, 0x2, none⟩,
  -- ADAPT_STATE (R551)
  ⟨0x2830, 0x2830, 0x01, 0x01, .u8, .ro, 0x2, none⟩,
  -- DENSITY (R551)
  ⟨0x2410, 0x243F, 0x02, 0x02, .u16, .ro, 0x0, none⟩,
  -- DENSITY (R551)
  ⟨0x2820, 0x282F, 0x02, 0x02, .u16, .ro, 0x0, none⟩,
  -- DENSITY (R551)
  ⟨0x2830, 0x2830, 0x02, 0x02, .u16, .ro, 0x0, none⟩,
  -- EYE_MARGIN (R551)
  ⟨0x2410, 0x243F, 0x03, 0x03, .u32, .ro, 0x0, none⟩,
  -- EYE_MARGIN (R551)
  ⟨0x2820, 0x282F, 0x03, 0x03, .u32, .ro, 0x0, none⟩,
  -- EYE_MARGIN (R551)
  ⟨0x2830, 0x2830, 0x03, 0x03, .u32, .ro, 0x0, none⟩,
  -- GUARD_RANGE (R551)
  ⟨0x2410, 0x243F, 0x04, 0x04, .u8, .rs, 0x8, some (1, 32)⟩,
  -- GUARD_RANGE (R551)
  ⟨0x2820, 0x282F, 0x04, 0x04, .u8, .rs, 0x8, some (1, 32)⟩,
  -- GUARD_RANGE (R551)
  ⟨0x2830, 0x2830, 0x04, 0x04, .u8, .rs, 0x8, some (1, 32)⟩,
  -- PRBS_SEL (R551)
  ⟨0x2410, 0x243F, 0x05, 0x05, .u8, .rw, 0x0, some (0, 10)⟩,
  -- PRBS_SEL (R551)
  ⟨0x2820, 0x282F, 0x05, 0x05, .u8, .rw, 0x0, some (0, 10)⟩,
  -- PRBS_SEL (R551)
  ⟨0x2830, 0x2830, 0x05, 0x05, .u8, .rw, 0x0, some (0, 10)⟩,
  -- PRBS_USER (R551)
  ⟨0x2410, 0x243F, 0x06, 0x06, .u64, .rw, 0x0, none⟩,
  -- PRBS_USER (R551)
  ⟨0x2820, 0x282F, 0x06, 0x06, .u64, .rw, 0x0, none⟩]

/-- Objects of chapter 13 (part 3). -/
def dictSerial3 : List Row := [
  -- PRBS_USER (R551)
  ⟨0x2830, 0x2830, 0x06, 0x06, .u64, .rw, 0x0, none⟩,
  -- PRBS_CMD (R551)
  ⟨0x2410, 0x243F, 0x07, 0x07, .u8, .wo, 0x0, some (1, 3)⟩,
  -- PRBS_CMD (R551)
  ⟨0x2820, 0x282F, 0x07, 0x07, .u8, .wo, 0x0, some (1, 3)⟩,
  -- PRBS_CMD (R551)
  ⟨0x2830, 0x2830, 0x07, 0x07, .u8, .wo, 0x0, some (1, 3)⟩,
  -- PRBS_LOCK (R551)
  ⟨0x2410, 0x243F, 0x08, 0x08, .bool, .ro, 0x0, some (0, 1)⟩,
  -- PRBS_LOCK (R551)
  ⟨0x2820, 0x282F, 0x08, 0x08, .bool, .ro, 0x0, some (0, 1)⟩,
  -- PRBS_LOCK (R551)
  ⟨0x2830, 0x2830, 0x08, 0x08, .bool, .ro, 0x0, some (0, 1)⟩,
  -- PRBS_BITS (R551)
  ⟨0x2410, 0x243F, 0x09, 0x09, .u64, .ro, 0x0, none⟩,
  -- PRBS_BITS (R551)
  ⟨0x2820, 0x282F, 0x09, 0x09, .u64, .ro, 0x0, none⟩,
  -- PRBS_BITS (R551)
  ⟨0x2830, 0x2830, 0x09, 0x09, .u64, .ro, 0x0, none⟩,
  -- PRBS_ERRS (R551)
  ⟨0x2410, 0x243F, 0x0A, 0x0A, .u64, .ro, 0x0, none⟩,
  -- PRBS_ERRS (R551)
  ⟨0x2820, 0x282F, 0x0A, 0x0A, .u64, .ro, 0x0, none⟩,
  -- PRBS_ERRS (R551)
  ⟨0x2830, 0x2830, 0x0A, 0x0A, .u64, .ro, 0x0, none⟩,
  -- INJECT_MODE (R551)
  ⟨0x2410, 0x243F, 0x0B, 0x0B, .u8, .rw, 0x0, some (0, 2)⟩,
  -- INJECT_MODE (R551)
  ⟨0x2820, 0x282F, 0x0B, 0x0B, .u8, .rw, 0x0, some (0, 2)⟩,
  -- INJECT_MODE (R551)
  ⟨0x2830, 0x2830, 0x0B, 0x0B, .u8, .rw, 0x0, some (0, 2)⟩,
  -- INJECT_EXP (R551)
  ⟨0x2410, 0x243F, 0x0C, 0x0C, .u8, .rw, 0x14, some (10, 40)⟩,
  -- INJECT_EXP (R551)
  ⟨0x2820, 0x282F, 0x0C, 0x0C, .u8, .rw, 0x14, some (10, 40)⟩,
  -- INJECT_EXP (R551)
  ⟨0x2830, 0x2830, 0x0C, 0x0C, .u8, .rw, 0x14, some (10, 40)⟩,
  -- VERIFY_ERRS (R551)
  ⟨0x2410, 0x243F, 0x0D, 0x0D, .u32, .ro, 0x0, none⟩,
  -- VERIFY_ERRS (R551)
  ⟨0x2820, 0x282F, 0x0D, 0x0D, .u32, .ro, 0x0, none⟩,
  -- VERIFY_ERRS (R551)
  ⟨0x2830, 0x2830, 0x0D, 0x0D, .u32, .ro, 0x0, none⟩,
  -- PREFEC_BER (R551)
  ⟨0x2410, 0x243F, 0x0E, 0x0E, .f32, .ro, 0x0, none⟩,
  -- PREFEC_BER (R551)
  ⟨0x2820, 0x282F, 0x0E, 0x0E, .f32, .ro, 0x0, none⟩,
  -- PREFEC_BER (R551)
  ⟨0x2830, 0x2830, 0x0E, 0x0E, .f32, .ro, 0x0, none⟩]

/-- Objects of chapter 13. -/
def dictSerial : List Row :=
  dictSerial1 ++ dictSerial2 ++ dictSerial3

/-- Objects of chapter 14. -/
def dictQop : List Row := [
  -- QOP_FLAGS (R601)
  ⟨0x1800, 0x1800, 0x01, 0x01, .u32, .set, 0x0, none⟩,
  -- NOTIFY_ADDR (R601)
  ⟨0x1800, 0x1800, 0x02, 0x02, (.blob 16), .rw, 0x0, none⟩,
  -- NOTIFY_PORT (R601)
  ⟨0x1800, 0x1800, 0x03, 0x03, .u16, .rw, 0x0, none⟩,
  -- NOTIFY_IDENT (R601)
  ⟨0x1800, 0x1800, 0x04, 0x04, .u8, .rw, 0x0, some (0, 3)⟩,
  -- DRAFT_WORDS (R601)
  ⟨0x1800, 0x1800, 0x05, 0x05, .u32, .ro, 0x0, none⟩,
  -- COMMIT_STATE (R601)
  ⟨0x1800, 0x1800, 0x06, 0x06, .u8, .ro, 0x0, none⟩,
  -- COMMIT_ID (R601)
  ⟨0x1800, 0x1800, 0x07, 0x07, .u32, .ro, 0x0, none⟩,
  -- APPLIED_EPOCH (R601)
  ⟨0x1800, 0x1800, 0x08, 0x08, .ticks, .ro, 0x0, none⟩,
  -- STRETCH_LAST (R601)
  ⟨0x1800, 0x1800, 0x09, 0x09, .u32, .ro, 0x0, none⟩,
  -- STRETCH_WORST (R601)
  ⟨0x1800, 0x1800, 0x0A, 0x0A, .u32, .ro, 0x0, none⟩,
  -- RESEND_AFTER (R601)
  ⟨0x1800, 0x1800, 0x0B, 0x0B, .u32, .rw, 0xB71B0, some (7500, 75000000)⟩,
  -- RESULT_HELD (R601)
  ⟨0x1800, 0x1800, 0x0C, 0x0C, .u64, .ro, 0x0, none⟩,
  -- ROLE0–ROLE3 (R601)
  ⟨0x1800, 0x1800, 0x10, 0x13, .u8, .rw, 0x0, none⟩,
  -- JOB_SEQ (R601)
  ⟨0x1C00, 0x1FFF, 0x01, 0x01, .u64, .ro, 0x0, none⟩,
  -- JOB_STATE (R601)
  ⟨0x1C00, 0x1FFF, 0x02, 0x02, .u8, .ro, 0x0, none⟩,
  -- SHOTS_DONE (R601)
  ⟨0x1C00, 0x1FFF, 0x03, 0x03, .u64, .ro, 0x0, none⟩,
  -- ACKED_THROUGH (R601)
  ⟨0x1C00, 0x1FFF, 0x04, 0x04, .u64, .ro, 0x0, none⟩,
  -- SPOILED (R601)
  ⟨0x1C00, 0x1FFF, 0x05, 0x05, .u32, .ro, 0x0, none⟩,
  -- RERUNS (R601)
  ⟨0x1C00, 0x1FFF, 0x06, 0x06, .u32, .ro, 0x0, none⟩]

/-- Objects of chapter 15 (part 1). -/
def dictMap1 : List Row := [
  -- VENDOR (R610)
  ⟨0x1000, 0x1000, 0x01, 0x01, (.str 16), .ro, 0x63697264657551, none⟩,
  -- PRODUCT (R610)
  ⟨0x1000, 0x1000, 0x02, 0x02, (.str 16), .ro, 0x6E616B616353206E657A6C6543, none⟩,
  -- PART_NUMBER (R610)
  ⟨0x1000, 0x1000, 0x03, 0x03, (.str 16), .ro, 0x412D3231354B532D5A43, none⟩,
  -- SERIAL (R610)
  ⟨0x1000, 0x1000, 0x04, 0x04, (.str 16), .ro, 0x0, none⟩,
  -- STEPPING (R610)
  ⟨0x1000, 0x1000, 0x05, 0x05, .u16, .ro, 0x0, none⟩,
  -- MP_VERSION (R610)
  ⟨0x1000, 0x1000, 0x06, 0x06, .u32, .ro, 0x0, none⟩,
  -- DICT_VERSION (R610)
  ⟨0x1000, 0x1000, 0x07, 0x07, .u16, .ro, 0x100, none⟩,
  -- DEVICE_STATE (R611)
  ⟨0x1001, 0x1001, 0x01, 0x01, .u8, .ro, 0x0, none⟩,
  -- STATE_EPOCH (R611)
  ⟨0x1001, 0x1001, 0x02, 0x02, .ticks, .ro, 0x0, none⟩,
  -- PREV_STATE (R611)
  ⟨0x1001, 0x1001, 0x03, 0x03, .u8, .ro, 0x0, none⟩,
  -- STATE_CAUSE (R611)
  ⟨0x1001, 0x1001, 0x04, 0x04, .u8, .ro, 0x0, none⟩,
  -- BOOT_COUNT (R611)
  ⟨0x1001, 0x1001, 0x05, 0x05, .u32, .ro, 0x0, none⟩,
  -- LAST_RESET (R611)
  ⟨0x1001, 0x1001, 0x06, 0x06, .u8, .ro, 0x0, none⟩,
  -- XY_IN_SERVICE (R613)
  ⟨0x1002, 0x1002, 0x01, 0x01, .u8, .ro, 0x0, none⟩,
  -- RL_IN_SERVICE (R613)
  ⟨0x1002, 0x1002, 0x02, 0x02, .u8, .ro, 0x0, none⟩,
  -- FLUX_IN_SERVICE (R613)
  ⟨0x1002, 0x1002, 0x03, 0x03, .u16, .ro, 0x0, none⟩,
  -- EASELS_IN_SERVICE (R613)
  ⟨0x1002, 0x1002, 0x04, 0x04, .u8, .ro, 0x0, none⟩,
  -- DSP_IN_SERVICE (R613)
  ⟨0x1002, 0x1002, 0x05, 0x05, .u8, .ro, 0x0, none⟩,
  -- LINKS_UP (R613)
  ⟨0x1002, 0x1002, 0x06, 0x06, .u16, .ro, 0x0, none⟩,
  -- HOSTS_UP (R613)
  ⟨0x1002, 0x1002, 0x07, 0x07, .u8, .ro, 0x0, none⟩,
  -- DDR4_CHANNELS (R613)
  ⟨0x1002, 0x1002, 0x08, 0x08, .u8, .ro, 0x0, none⟩,
  -- DDR4_BYTES (R613)
  ⟨0x1002, 0x1002, 0x09, 0x09, .u64, .ro, 0x0, none⟩,
  -- DESC_QUERY (R614)
  ⟨0x1008, 0x1008, 0x01, 0x01, .u32, .rw, 0x0, none⟩,
  -- DESC_RESULT (R614)
  ⟨0x1008, 0x1008, 0x02, 0x02, .u64, .ro, 0x0, none⟩,
  -- CFG_SAVE (R616)
  ⟨0x1010, 0x1010, 0x01, 0x01, .u8, .wo, 0x0, some (1, 2)⟩]

/-- Objects of chapter 15 (part 2). -/
def dictMap2 : List Row := [
  -- CFG_USE (R616)
  ⟨0x1010, 0x1010, 0x02, 0x02, .bool, .rw, 0x0, some (0, 1)⟩,
  -- CFG_STATE (R616)
  ⟨0x1010, 0x1010, 0x03, 0x03, .u8, .ro, 0x0, none⟩,
  -- CFG_CRC (R616)
  ⟨0x1010, 0x1010, 0x04, 0x04, .u32, .ro, 0x0, none⟩,
  -- CFG_WORDS (R616)
  ⟨0x1010, 0x1010, 0x05, 0x05, .u32, .ro, 0x0, none⟩,
  -- CFG_WALL (R616)
  ⟨0x1010, 0x1010, 0x06, 0x06, .u64, .ro, 0x0, none⟩,
  -- CFG_SKIPPED (R616)
  ⟨0x1010, 0x1010, 0x07, 0x07, .u32, .ro, 0x0, none⟩,
  -- Q_HOLDER (R623)
  ⟨0x3000, 0x31FF, 0x01, 0x01, .u16, .ro, 0xFFFF, none⟩,
  -- Q_KIND (R623)
  ⟨0x3000, 0x31FF, 0x02, 0x02, .u8, .ro, 0x0, none⟩,
  -- READ_THREAD (R623)
  ⟨0x3000, 0x31FF, 0x03, 0x03, .u16, .ro, 0xFFFF, none⟩]

/-- Objects of chapter 15. -/
def dictMap : List Row :=
  dictMap1 ++ dictMap2

/-- Objects of chapter 16. -/
def dictRecords : List Row := [
  -- NEXT_JOB_SEQ (R672)
  ⟨0x7800, 0x7800, 0x01, 0x01, .u64, .ro, 0x0, none⟩,
  -- LEDGER_JOBS (R672)
  ⟨0x7800, 0x7800, 0x02, 0x02, .u16, .ro, 0x0, none⟩,
  -- LEDGER_FLAGS (R672)
  ⟨0x7800, 0x7800, 0x03, 0x03, .u32, .set, 0x0, none⟩,
  -- LEDGER_RELEASE (R672)
  ⟨0x7800, 0x7800, 0x04, 0x04, .u64, .wo, 0x0, none⟩,
  -- LEDGER_QUERY (R672)
  ⟨0x7800, 0x7800, 0x05, 0x05, .u64, .rw, 0x0, none⟩,
  -- LEDGER_VIEW (R672)
  ⟨0x7800, 0x7800, 0x06, 0x06, (.blob 64), .ro, 0x0, none⟩,
  -- RECOVERY_GEN (R672)
  ⟨0x7800, 0x7800, 0x07, 0x07, .u32, .ro, 0x0, none⟩,
  -- DISCARD_LIMIT (R672)
  ⟨0x7800, 0x7800, 0x08, 0x08, .u8, .rs, 0x8, some (1, 15)⟩,
  -- FAULT_FLAGS (R672)
  ⟨0x7810, 0x7810, 0x01, 0x01, .u32, .set, 0x0, none⟩,
  -- PATH_STATE (R672)
  ⟨0x7810, 0x7810, 0x02, 0x02, .u8, .ro, 0x0, none⟩,
  -- BB_FIRST (R672)
  ⟨0x7820, 0x7820, 0x01, 0x01, .u32, .ro, 0x0, none⟩,
  -- BB_LAST (R672)
  ⟨0x7820, 0x7820, 0x02, 0x02, .u32, .ro, 0x0, none⟩,
  -- BB_FROZEN (R672)
  ⟨0x7820, 0x7820, 0x03, 0x03, .u16, .ro, 0x0, none⟩,
  -- BB_CURSOR (R672)
  ⟨0x7820, 0x7820, 0x04, 0x04, .u32, .rw, 0x0, none⟩,
  -- BB_READ (R672)
  ⟨0x7820, 0x7820, 0x05, 0x05, (.blob 0), .ro, 0x0, none⟩,
  -- BB_RELEASE (R672)
  ⟨0x7820, 0x7820, 0x06, 0x06, .u32, .wo, 0x0, none⟩,
  -- BB_FLAGS (R672)
  ⟨0x7820, 0x7820, 0x07, 0x07, .u32, .set, 0x0, none⟩,
  -- FEED_STATE (R672)
  ⟨0x7830, 0x7838, 0x01, 0x01, .u8, .ro, 0x3, none⟩,
  -- FEED_FLAGS (R672)
  ⟨0x7830, 0x7838, 0x02, 0x02, .u32, .set, 0x0, none⟩,
  -- SWITCH_LAST (R672)
  ⟨0x7830, 0x7838, 0x03, 0x03, .u32, .ro, 0x0, none⟩,
  -- TAP_IDCODE (R672)
  ⟨0x7840, 0x7840, 0x01, 0x01, .u32, .ro, 0x0, none⟩,
  -- TRACE_SEL (R672)
  ⟨0x7840, 0x7840, 0x02, 0x02, .u32, .rw, 0x0, none⟩,
  -- TRACE_ENABLE (R672)
  ⟨0x7840, 0x7840, 0x03, 0x03, .bool, .rw, 0x0, some (0, 1)⟩]

/-- Objects of chapter 17. -/
def dictPower : List Row := [
  -- POWER_FLAGS (R707)
  ⟨0x7C00, 0x7C00, 0x01, 0x01, .u32, .set, 0x0, none⟩,
  -- AUTO_PRIME (R707)
  ⟨0x7C00, 0x7C00, 0x02, 0x02, .bool, .rw, 0x0, some (0, 1)⟩,
  -- PRIME_STEP (R707)
  ⟨0x7C00, 0x7C00, 0x03, 0x03, .u8, .ro, 0x0, none⟩,
  -- PRIME_MS (R707)
  ⟨0x7C00, 0x7C00, 0x04, 0x04, .u32, .ro, 0x0, none⟩,
  -- WAKE_MS (R707)
  ⟨0x7C00, 0x7C00, 0x05, 0x05, .u32, .ro, 0x0, none⟩,
  -- WAKE_CAUSE (R707)
  ⟨0x7C00, 0x7C00, 0x06, 0x06, .u16, .ro, 0x0, none⟩,
  -- DIE_TEMP_MAX (R707)
  ⟨0x7C00, 0x7C00, 0x07, 0x07, .u16, .ro, 0x0, none⟩,
  -- PMB_ADDR_A (R707)
  ⟨0x7C10, 0x7C2F, 0x01, 0x01, .u8, .rw, 0x0, none⟩,
  -- PMB_ADDR_B (R707)
  ⟨0x7C10, 0x7C2F, 0x02, 0x02, .u8, .rw, 0x0, none⟩,
  -- PMB_PAGE (R707)
  ⟨0x7C10, 0x7C2F, 0x03, 0x03, .u8, .rw, 0x0, none⟩,
  -- RAIL_STATE (R707)
  ⟨0x7C10, 0x7C2F, 0x04, 0x04, .u8, .ro, 0x0, none⟩]

/-- Every row of every field map (R603). -/
def dictAll : List Row :=
  dictTimebase ++ dictEasels ++ dictLibrary ++ dictOutputs ++ dictReadout ++ dictDecisions ++ dictAcquisition
    ++ dictDsp ++ dictPlacement ++ dictCalibration ++ dictEvents ++ dictSerial ++ dictQop ++ dictMap
    ++ dictRecords ++ dictPower

/-- A key: index · 256 + subindex (R604). -/
abbrev objKey (idx sub : Nat) : Nat := idx * 256 + sub

/-- The object of the unit n places above the one named. -/
abbrev unitKey (base n : Nat) : Nat := base + 256 * n

/-- The interrupt source slots (R494, R552, R602, R673, R708): first slot, number of slots, first flags object. -/
def slotTable : List (Nat × Nat × Nat) := [
  (0x000, 512, 0x400007), (0x200, 512, 0x4A0061), (0x400, 512, 0x400041), (0x600, 512, 0x300053),
  (0x800, 768, 0x340007), (0xB00, 64, 0x380008), (0xB40, 32, 0x384008), (0xB60, 32, 0x384026),
  (0xB80, 64, 0x3A000C), (0xBC0, 34, 0x440004), (0xC00, 64, 0x48800B), (0xC40, 128, 0x510014),
  (0xCC0, 8, 0x3A4007), (0xCD0, 17, 0x580010), (0xCF0, 1, 0x200004), (0xCF1, 1, 0x24F101),
  (0xCF2, 1, 0x600001), (0xCF3, 1, 0x680003), (0xCF4, 1, 0x6C0406), (0xCF8, 4, 0x6C0003),
  (0xD00, 256, 0x700009), (0xE00, 1, 0x740004), (0xE40, 12, 0x24000A), (0xE4C, 4, 0x28000A),
  (0xE50, 1, 0x28100A), (0xE80, 1, 0x180001), (0xEC0, 1, 0x781001), (0xEC1, 1, 0x780003),
  (0xEC2, 1, 0x782007), (0xEC3, 9, 0x783002), (0xF00, 1, 0x7C0001)]

/-- The flags object of a slot; none for a reserved slot (R494). -/
def slotKey (s : Nat) : Option Nat :=
  (slotTable.find? fun r => r.1 ≤ s ∧ s < r.1 + r.2.1).map fun r => unitKey r.2.2 (s - r.1)

/-- The slot of a flags object (R494). -/
def slotOf (key : Nat) : Option Nat :=
  (slotTable.find? fun r => r.2.2 ≤ key ∧ (key - r.2.2) % 256 = 0 ∧ (key - r.2.2) / 256 < r.2.1).map
    fun r => r.1 + (key - r.2.2) / 256

/-- Whether the slot has an unflagged counter at subindex 0x41 (R629). -/
def slotHas41 (s : Nat) : Bool := s == 0xCF0 || (0xCD0 ≤ s && s ≤ 0xCE0) || s == 0xE80

/-- The row of an observation counter (R626). -/
def counterRow (idx sub : Nat) : Option Row :=
  if idx < 0xF000 ∨ 0xFFFF < idx ∨ (slotKey (idx - 0xF000)).isNone then none
  else if (1 ≤ sub ∧ sub ≤ 0x40) ∨ (sub = 0x41 ∧ slotHas41 (idx - 0xF000)) then
    some ⟨idx, idx, sub, sub, .u32, .ro, 0, none⟩
  else none

/-- The row that lists an object other than a counter. -/
def mapRow (idx sub : Nat) : Option Row :=
  if 0xA000 ≤ idx ∧ idx ≤ 0xAFFF then
    if 1 ≤ sub ∧ sub ≤ 0x10 then some ⟨0xA000, 0xAFFF, 1, 0x10, .u32, .rw, 0, none⟩ else none
  else dictAll.find? fun r => r.lo ≤ idx ∧ idx ≤ r.hi ∧ r.slo ≤ sub ∧ sub ≤ r.shi

/-- The highest subindex of an index (R12 text, R622, R624, R626); 0 for an index with no object. -/
def highestSub (idx : Nat) : Nat :=
  if 0xF000 ≤ idx then
    if (slotKey (idx - 0xF000)).isNone then 0 else if slotHas41 (idx - 0xF000) then 0x41 else 0x40
  else if 0xA000 ≤ idx ∧ idx ≤ 0xAFFF then 0x10
  else dictAll.foldl (fun m r => if r.lo ≤ idx ∧ idx ≤ r.hi ∧ m < r.shi then r.shi else m) 0

/-- The row of an implemented object, subindex 0x00 included (R604). -/
def objRow (idx sub : Nat) : Option Row :=
  if sub = 0 then
    if highestSub idx = 0 then none else some ⟨idx, idx, 0, 0, .u8, .ro, highestSub idx, none⟩
  else if 0xF000 ≤ idx then counterRow idx sub
  else mapRow idx sub

/-- Reset values that vary within a row, and values shown as Stored that are not zero (log entry 4). -/
def resetSpecial (idx sub : Nat) : Option Nat :=
  let n := idx % 0x100 
  if 0x4000 ≤ idx ∧ idx ≤ 0x41FF ∧ sub = 2 then some ((idx - 0x4000) / 16)
  else if (idx = 0x4420 ∨ idx = 0x4421) ∧ sub = 1 then some 1
  else if 0x4400 ≤ idx ∧ idx ≤ 0x441F ∧ sub = 2 then some (idx - 0x4400)
  else if (idx = 0x4420 ∨ idx = 0x4421) ∧ sub = 2 then some 0xFF
  else if 0x3400 ≤ idx ∧ idx ≤ 0x36FF ∧ sub = 0x20 then some 0x4000
  else if 0x3840 ≤ idx ∧ idx ≤ 0x385F ∧ sub = 0x24 then
    some ((List.range 48).foldl (fun a p => a + p * 256 ^ p) 0)
  else if 0x3000 ≤ idx ∧ idx ≤ 0x31FF ∧ sub = 0x80 then some 0x4000
  else if idx = 0x5810 ∧ sub = 1 then some 3
  else if idx = 0x5810 ∧ sub = 2 then some 0xFF
  else if 0x5800 ≤ idx ∧ idx ≤ 0x580F ∧ sub = 2 then some (n / 2)
  else if 0x6900 ≤ idx ∧ idx ≤ 0x6BFF ∧ sub = 4 then some (2 * ((idx - 0x6900) / 96))
  else if 0x6C00 ≤ idx ∧ idx ≤ 0x6C03 ∧ sub = 2 then
    some ((List.range 32).foldl (fun a p => a + p * 256 ^ p) 0)
  else if idx = 0x1800 ∧ 0x11 ≤ sub ∧ sub ≤ 0x13 then some 0xFF
  else if idx = 0x7800 ∧ sub = 1 then some 1
  else if idx = 0x1001 ∧ sub = 5 then some 1
  else none

/-- The reset value of an object as its stored bytes (R17). -/
def resetOf (key : Nat) : Nat :=
  match resetSpecial (key / 256) (key % 256) with
  | some v => v
  | none => ((objRow (key / 256) (key % 256)).map (·.reset)).getD 0

/-- The bits of an object that a host write can change where a field map reserves the others (R11). -/
def writeMask (key : Nat) : Option Nat :=
  let idx := key / 256
  let sub := key % 256
  if 0x7500 ≤ idx ∧ idx ≤ 0x75FF ∧ 0x11 ≤ sub ∧ sub ≤ 0x20 then some 0x07
  else if key = 0x100801 then some 0x00FFFFFF
  else if 0x3A00 ≤ idx ∧ idx ≤ 0x3A3F ∧ 1 ≤ sub ∧ sub ≤ 8 then some 0x007FF7FF
  else if (0x2800 ≤ idx ∧ idx ≤ 0x2803 ∨ idx = 0x2810) ∧ sub = 4 then some (2 ^ 48 - 1)
  else if 0x5100 ≤ idx ∧ idx ≤ 0x517F ∧ sub = 0x0A then some 0x3FFF
  else none

/-- The indices whose RS and RW fields enter the stored configuration (R603, R672, R707). -/
def savedIdx (idx : Nat) : Bool :=
  [(0x1800, 0x1800), (0x2000, 0x2001), (0x2010, 0x2011), (0x2020, 0x202B), (0x2030, 0x2030), (0x2400, 0x240B),
   (0x2410, 0x243F), (0x2800, 0x2803), (0x2810, 0x2810), (0x2820, 0x282F), (0x2830, 0x2830), (0x3000, 0x31FF),
   (0x3400, 0x36FF), (0x3800, 0x385F), (0x3A00, 0x3A4F), (0x4400, 0x4421), (0x4440, 0x4441), (0x5100, 0x517F),
   (0x5800, 0x5810), (0x6100, 0x62FF), (0x6800, 0x6DFF), (0x7000, 0x7100), (0x7400, 0x7401), (0x7500, 0x75FF),
   (0xA000, 0xAFFF)].any fun r => r.1 ≤ idx ∧ idx ≤ r.2

end Sys2Proof.Machine
end

