-- ==== Sys2Proof/Machine/State.lean ====
section
/-! DEFINITION. The state of the machine as plain data: every register, memory, queue and counter the manual names,
the faults and refusals, and the state after reset. -/

namespace Sys2Proof.Machine

/-- Device states (R571). -/
inductive DState where
  | cold | priming | primed | armed | running | draining | halted | faulted | asleep
  deriving DecidableEq, Repr

/-! ### Event matrix and aggregator (chapter 12) -/

/-- A cause waiting to register at an event line (R479): its tick, the delivering line (none: a native production or
a software write), the chain and HOPS of the delivering firing (R480), and whether it is a received lattice event
(R493). -/
structure Cause where
  line : Nat
  tick : Nat
  src : Option Nat := none
  chain : List Nat := []
  hops : Nat := 0
  lattice : Bool := false
  deriving DecidableEq, Repr

/-- What an event line keeps beside its objects: its last firing and the one before it (R482), how many causes its last firing has
(R479) and, for an AND gate, the chain, the largest
HOPS and the setting ticks of the bits in AND_ARM (R485, R487). -/
structure LineSt where
  lastFire : Option Nat := none
  prevFire : Option Nat := none
  count : Nat := 0
  armChain : List Nat := []
  armHops : Nat := 0
  armTicks : List (Nat × Nat) := []
  deriving DecidableEq, Repr

/-- A queued interrupt source slot and the tick in which it was queued (R496). -/
structure QEntry where
  slot : Nat
  at_ : Nat
  deriving DecidableEq, Repr

/-- A notification entry (R505). -/
structure NEntry where
  slot : Nat
  idx : Nat
  sub : Nat
  cls : Nat
  sets : Nat
  value : Nat
  new : Nat
  deriving DecidableEq, Repr

/-- A notification frame (R504). -/
structure NFrame where
  seq : Nat
  epoch : Nat
  overflow : Bool
  afterWake : Bool
  queued : Nat
  entries : List NEntry
  deriving DecidableEq, Repr

/-- The aggregator (R494 to R505): queued slots, per slot (sets, new bits) since its last entry, the tick of the last
frame, whether the next frame is the first after wake, frames formed and not yet sent, the last frame sent with its
destination and tag, and the trace port (R670, R671): its last item, the items dropped, the tick of its last item. -/
structure Agg where
  queue : List QEntry := []
  acc : Tab (Nat × Nat) := []
  lastFrame : Option Nat := none
  afterWake : Bool := false
  formed : List NFrame := []
  sent : Option NFrame := none
  sentTag : BitVec 128 := 0
  traceItem : Option (Nat × Nat × Nat) := none
  traceAt : Option Nat := none
  traceDropped : Nat := 0
  deriving DecidableEq, Repr

/-- The event matrix: causes not yet registered, and the lines. -/
structure Ev where
  causes : List Cause := []
  lines : Tab LineSt := []
  deriving DecidableEq, Repr

/-! ### Lattice time (chapter 02) -/

/-- LATTICE_STATE (R65 table). -/
inductive LatState where
  | alone | listening | locking | aligning | joined | root | holdover | resync | isolated
  deriving DecidableEq, Repr

/-- One spine path: the beat slot expected next, the last slot received, the first copies (TERM, SLOT) received (R61), the
measured spine latency in ticks, the links crossed by the last beat taken, that beat as (link, SLOT, marker steps from SLOT to
its arrival, epoch of its arrival) (R63), the beats heard in LISTENING (R66), the run of
beats received by their deadlines, the ticks of recent misses (R644), and whether the path is out of service. -/
structure PathSt where
  expect : Nat := 0
  lastSlot : Option Nat := none
  seen : List (Nat × Nat) := []
  latency : Nat := 0
  hops : Nat := 0
  got : Option (Nat × Nat × Nat × Nat) := none
  heard : Nat := 0
  goodRun : Nat := 0
  missTicks : List Nat := []
  out : Bool := false
  deriving DecidableEq, Repr

/-- A drain report held by the root (R53, R82): job, chip, the shot index needed next, the tick it arrived. -/
structure DrainRep where
  ljob : Nat
  chip : Nat
  shot : Nat
  at_ : Nat
  deriving DecidableEq, Repr

/-- The timing spine endpoint and the root lease (R59 to R88): the lattice state, the RANK of the root followed, the lease,
the slot of the last beat, the two paths, whether the chip beats and owes a RELEASE, the RELEASE slot heard, the slot of
its last beat and the beats it sent last with their links, the slots of the followed root taken in RESYNC and the slew in
progress as (offset, its first tick) (R87), the tick of entering HOLDOVER, the links excluded from the spine (R68), the
drain reports held, lattice events seen, SYNC_OUT and the ticks at which SYNC_IN edges load the epoch (R54), whether the
reference offset lies outside 20 ppm, and the wall clock: whether there is an anchor, the second the host named, and the
time of the last PTP synchronisation in nanoseconds with its epoch (R90). -/
structure Lat where
  st : LatState := .alone
  rank : Nat := 0xFF
  leaseEnd : Nat := 0
  lastSlot : Option Nat := none
  prim : PathSt := {}
  sec : PathSt := {}
  beating : Bool := false
  releaseDue : Bool := false
  releaseSlot : Option Nat := none
  beatSlot : Option Nat := none
  sentBeats : List (BeatMsg × List Nat) := []
  resyncSlots : List Nat := []
  slew : Option (Int × Nat) := none
  holdStart : Nat := 0
  excluded : List Nat := []
  drains : List DrainRep := []
  evSeen : Tab Nat := []
  syncOutEnd : Nat := 0
  syncLoads : List Nat := []
  refOut : Bool := false
  anchored : Bool := false
  ppsSecond : Option Nat := none
  ptpTime : Option (Nat × Int) := none
  deriving DecidableEq, Repr

/-! ### Serial lanes (chapter 13) -/

/-- What a cell carries that waits for its slot (R521, R522, R524): the payload of a resendable cell, or 32 bytes of data. -/
inductive CellBody where
  | decision (dest w0 w1 : W64)
  | event (fireEpoch origin line : Nat) (path : Bool) (hops latticeId : Nat)
  | msg (kind : Nat) (m : LatMsg)
  | bulkHead (dst src cells addr : Nat)
  | data (bytes : List Byte)
  | bulkTail (crc : W32)
  deriving DecidableEq, Repr

/-- A cell on a link (R518, R521, R524): a resendable cell with its CSEQ or a data cell, and the cells that are not resendable. -/
inductive WireCell where
  | beat (b : BeatMsg)
  | body (cseq : Nat) (b : CellBody)
  | nak (expected : Nat)
  | align (count : Nat)
  | refresh
  | train (ready : Bool)
  | idle
  deriving DecidableEq, Repr

/-- A resendable cell held until it is acknowledged (R531): CSEQ, body, the tick of its sending, and for a BULK_HEAD the
data cells that follow it, which a resend sends after it again. `acked`: acknowledged, and held on for its transfer (R529). -/
structure HeldCell where
  cseq : Nat
  body : CellBody
  at_ : Nat
  acked : Bool := false
  data : List (List Byte) := []
  deriving DecidableEq, Repr

/-- A bulk transfer being received (R518, R522, R529): the CSEQ of its BULK_HEAD, where it goes and its data. -/
structure BulkRx where
  head : Nat
  dst : Nat
  addr : Nat
  cells : Nat
  data : List Byte
  deriving DecidableEq, Repr

/-- A Genzel link beside its objects (R528 to R532, R544 to R548). `decisions` are words waiting for the link as (tick
of queueing, DEST, word) (R297). What waits for a cell slot (R524), each in the order in which it became ready: `beats`,
`waiting`, cells to be sent again as (CSEQ, body) in `resent` with the decisions of `waiting` that were ready before them in
`ahead`. `phase` counts the bit times of a lane since the last cell slot, in halves, `cells` the cells sent, `aligns` and
`refreshes` those of them; `wire` is the cell of the last slot as 32 bytes, before scrambling. `bad` are the
ticks of the errored cells of the last millisecond, `expired` the expiries of RESEND_TIMEOUT in a row (R546). -/
structure Link where
  rxExpect : Nat := 0
  rxAny : Bool := false
  nakRun : Bool := false
  nakOut : Option Nat := none
  txSeq : Nat := 0
  held : List HeldCell := []
  waiting : List CellBody := []
  inject : Bool := false
  trainFails : Nat := 0
  retrained : Bool := false
  ready : Bool := false
  bulk : Option BulkRx := none
  decisions : List (Nat × W64 × W64) := []
  blockAt : Option Nat := none
  resent : List (Nat × CellBody) := []
  ahead : Nat := 0
  beats : List BeatMsg := []
  phase : Nat := 0
  cells : Nat := 0
  aligns : Nat := 0
  refreshes : Nat := 0
  wire : List Byte := []
  bad : List Nat := []
  expired : Nat := 0
  deriving DecidableEq, Repr

/-- A serial lane beside its objects: the adapted values and their snapshot (R536, R537), consecutive windows of at
least 768 transitions while frozen (R535), whether the present millisecond saw an error or a freeze (R536), whether its
generator and checker run (R539), the bits inverted by injection and whether one waits to be inverted (R542). `scr` is its
scrambler (R519). Of a test pattern: `gen` the generator's register, `part` the twelfths of a symbol that a tick left over,
`syms` the symbols so far, `tx` those of the last tick, `clean` the error-free symbols in a row before the lock, `errs` the
last 64 symbols checked since it, the newest in bit 0 (R541). `restores` are the ticks of its last restores (R546). -/
structure Lane where
  vals : List Nat := []
  snap : Option (List Nat) := none
  goodWins : Nat := 0
  dirty : Bool := false
  prbs : Bool := false
  injected : Nat := 0
  flip : Bool := false
  scr : Nat := 0
  gen : Nat := 0
  part : Nat := 0
  syms : Nat := 0
  tx : List Nat := []
  clean : Nat := 0
  errs : Nat := 0
  restores : List Nat := []
  deriving DecidableEq, Repr

/-- The last network answer of a port (R512): an echo reply or an address answer. -/
inductive NetReply where
  | echo (port : Nat) (v6 : Bool)
  | neighbour (port : Nat) (v6 : Bool) (mac : Nat)
  deriving DecidableEq, Repr

/-- The serial lanes (R509): links, lanes (0 to 47 Genzel, 48 to 63 host, 64 MGMT), host ports held by PAUSE, the last
network answer. -/
structure Ser where
  links : Tab Link := []
  lanes : Tab Lane := []
  paused : List Nat := []
  net : Option NetReply := none
  deriving DecidableEq, Repr

/-! ### QOP (chapter 14) -/

/-- A QOP reply (R561, R562). -/
structure Reply where
  ident : Nat
  seq : Nat
  cmd : Nat
  status : Nat
  dstate : Nat
  epoch : Nat
  payload : List Byte
  tag : BitVec 128 := 0
  deriving DecidableEq, Repr

/-- The records of an identity: H and the replies stored for H and the 64 values below it (R557), its key (R555), and
its own DESC_QUERY and LEDGER_QUERY (R614, R672). -/
structure Ident where
  high : Nat := 0
  stored : List Reply := []
  key : BitVec 256 := 0
  descQuery : Nat := 0
  ledgerQuery : Nat := 0
  deriving DecidableEq, Repr

/-- A staged RS field (R575): its object, its raw value and its length in bytes. -/
structure Staged where
  key : Nat
  val : Nat
  len : Nat
  deriving DecidableEq, Repr

/-- The staged words of one RUNNING or DRAINING job in a pending commit (R579): how many words its shadows hold, and
the tick in which the last one loaded. -/
structure JobWords where
  slot : Nat
  items : List Staged
  loaded : Nat
  loadedAt : Option Nat
  deriving DecidableEq, Repr

/-- A pending commit (R577 to R581): the fields still to load that no RUNNING or DRAINING job's unit has, and how many
words of the first of them have loaded. -/
structure Pending where
  refuse : Bool
  others : List Staged
  part : Nat := 0
  jobs : List JobWords
  deriving DecidableEq, Repr

/-- An open load (R567): KIND, length, target (an object key or a DDR4 address), the bytes written, whether it is
closed (KIND 2), and the tick of its last use. -/
structure Load where
  handle : Nat
  kind : Nat
  len : Nat
  target : Nat
  data : Tab Nat
  closed : Bool
  used : Nat
  deriving DecidableEq, Repr

/-- The QOP server (R553 to R569). Replies leave in `last`; while MGMT is down they wait in `held` (R593); `deferred`
are requests answered on completion (R558, R684). -/
structure Qop where
  idents : Tab Ident := []
  draft : List Staged := []
  commit : Option Pending := none
  loads : List Load := []
  nextHandle : Nat := 1
  last : Option Reply := none
  held : List Reply := []
  deferred : List Reply := []
  cfg : Option (List Staged) := none
  cfgSaving : Option (List Staged) := none
  cfgDefault : Bool := false
  deriving DecidableEq, Repr

/-! ### Jobs, placement and the ledger (chapters 10, 14, 16) -/

/-- Job states (R587). -/
inductive JobState where
  | accepted | placing | armed | running | draining | halted | ended | refused | cancelled | stopped
  deriving DecidableEq, Repr

/-- The header of a job container (R582). -/
structure JobHead where
  shots : Nat
  shotLimit : Nat
  spoilRetry : Nat
  startMode : Nat
  trigInput : Nat
  calibration : Bool
  multiChip : Bool
  gap : Nat
  startEpoch : Nat
  window : Nat
  ljob : Nat
  chips : Nat
  deriving DecidableEq, Repr

/-- A record of a shot (R594, R595): its flow and its bytes. -/
structure Rec where
  flow : Nat
  bytes : List Byte
  deriving DecidableEq, Repr

/-- An attempt of a shot (R633 to R637): its results, its marks, once it is final the flows whose summary has been sent, with
the tick of the latest sending (R598, R599), and i and s of the CONTINUE slots at its start, as in Job (R181). -/
structure Attempt where
  shot : Nat
  attempt : Nat
  start : Nat
  spoiled : Bool
  rerun : Bool
  cancelled : Bool
  wall : Option (Nat × Nat × Bool)
  recs : List Rec
  flows : List Nat
  sentFlows : List Nat
  sentAt : Option Nat
  gens : List (Nat × Nat × Nat) := []
  deriving DecidableEq, Repr

/-- The place of a canvas (R414, R420, R428): its row in CANVASES, its thread and tile, its tone slots, its flux
bindings and its barrier mask. -/
structure CanvasPlace where
  canvas : Nat
  thread : Nat
  tile : Nat
  qubit : Nat
  driveSlot : Option Nat
  readSlot : Option Nat
  flux : List Nat
  mask : Nat
  deriving DecidableEq, Repr

/-- What a job holds while it is resident (R414, R420). Regions are (kind, first, last) with kind 0 PROGRAM and 1
SEGMENT; blocks are (tile, first block, blocks, first byte of SAMPLES), `shared` the ranges stored with the data of another,
as (tile, first unit of SAMPLES, units, first unit of the other); flows are (flow, host port, rate in MB/s). `peaks`,
`pages` and `words`: fetch demand by tile in units of ½ MB/s (R30), sketch pages by tile (R318) and decision words by way (R295). -/
structure Held where
  canvases : List CanvasPlace := []
  xy : List Nat := []
  rl : List Nat := []
  flux : List Nat := []
  cores : List Nat := []
  streams : List Nat := []
  acq : List Nat := []
  regions : List (Nat × Nat × Nat × Nat) := []
  blocks : List (Nat × Nat × Nat × Nat) := []
  shared : List (Nat × Nat × Nat × Nat) := []
  defs : List Nat := []
  trig : Option Nat := none
  flows : List (Nat × Nat × Rat) := []
  peaks : List (Nat × Nat) := []
  pages : List (Nat × Nat) := []
  words : List (Nat × Nat) := []
  deriving DecidableEq, Repr

/-- Where a resident job stands between shots (R590): waiting to start, a shot in progress, its drain complete and the
boundary not yet begun, or at the boundary. -/
inductive Phase where
  | waiting | shot | drained | boundary
  deriving DecidableEq, Repr

/-- A readout result of a calibration job that DISC_FIT will take (R450): its shot, qubit, DTAG, I and Q. -/
structure FitResult where
  shot : Nat
  qubit : Nat
  dtag : Nat
  i : Int
  q : Int
  deriving DecidableEq, Repr

/-- A job of the ledger (R585, R650, R672) and, while it is resident, its progress. `nextShot` is the first index not
final; `shot` the present index; `nextStart` its fixed SHOT_START. `served`: a START has been served. `spoilNext`: its next shot
is SPOILED by what launched late before its start (R118). `trigSent`: a trigger of the job is on its way to the root or waits
there (R357). `drainWait`: its drain report waits for the decision words of the
shot (R300). `contGens` holds
i and s of the CONTINUE slots at the start of `nextShot`, as (32 · canvas + slot, i, s), `shotGens` those at the start of the
shot whose start was fixed last, and `contEnd` those at the end
of the attempt that drained last (R181, R650); `fit` the results that DISC_FIT will take (R450). -/
structure Job where
  slot : Nat
  seq : Nat
  st : JobState
  head : JobHead
  content : Sections
  nextShot : Nat := 0
  acked : Option Nat := none
  attempt : Nat := 0
  spoiledRuns : Nat := 0
  discards : Nat := 0
  recoveries : Nat := 0
  endCause : Nat := 0
  started : Bool := false
  served : Bool := false
  phase : Phase := .waiting
  shot : Nat := 0
  nextStart : Option Nat := none
  shotStart : Nat := 0
  spoiled : Bool := false
  spoilNext : Bool := false
  discarded : Bool := false
  haltDue : Bool := false
  cancelDue : Bool := false
  stopDue : Bool := false
  armedAt : Nat := 0
  drainAt : Nat := 0
  boundaryAt : Nat := 0
  recs : List Rec := []
  recsNext : List Rec := []
  windows : Nat := 0
  ackWait : Bool := false
  tentative : Option Attempt := none
  final : List Attempt := []
  queued : List Attempt := []
  drainSent : Option LatMsg := none
  trigSent : Bool := false
  drainWait : Bool := false
  held : Held := {}
  contGens : List (Nat × Nat × Nat) := []
  contEnd : List (Nat × Nat × Nat) := []
  shotGens : List (Nat × Nat × Nat) := []
  doneCount : Nat := 0
  spoiledCount : Nat := 0
  rerunCount : Nat := 0
  lastStart : Nat := 0
  lastWall : Option (Nat × Nat × Bool) := none
  fit : List FitResult := []
  deriving DecidableEq, Repr

/-- A QRS packet (R594): sent packets are kept until they are acknowledged (R599). -/
structure Packet where
  flow : Nat
  cont : Bool
  resent : Bool
  seq : Nat
  job : Nat
  first : Nat
  last : Nat
  epoch : Nat
  port : Nat
  payload : List Byte
  sentAt : Nat
  deriving DecidableEq, Repr

/-- Records waiting to leave on a flow: job, shot, bytes, and whether the record is the shot's summary. -/
structure QItem where
  flow : Nat
  job : Nat
  shot : Nat
  bytes : List Byte
  summary : Bool
  deriving DecidableEq, Repr

/-- A black-box record (R668): type, kind and index of the unit, cause, job, shot, payload, tick, device state. -/
structure BBRec where
  btype : Nat
  frozen : Bool
  ukind : Nat
  no : Nat
  epoch : Nat
  wall : Option (Nat × Nat)
  uidx : Nat
  cause : Nat
  job : Nat
  shot : Nat
  payload : List Byte
  dstate : Nat
  boot : Nat
  deriving DecidableEq, Repr

/-- Units that have been retired, and the spares that serve (R428, R430, R435, R630). `sprouts` are (retired easel or
core, spare, thread bindings done); `due` are units whose replacement waits for a boundary (R432). `faults` are the
transients that R630 counts, as (unit, kind, tick): kind 1 the restores of an easel, 0 any other. -/
structure Units where
  retired : List UnitRef := []
  sprouts : List (UnitRef × UnitRef × Nat) := []
  due : List UnitRef := []
  faults : List (UnitRef × Nat × Nat) := []
  deriving DecidableEq, Repr

/-- The job side of the hub: the ledger, the result flows, placement reports, the black box, retired units, and the
feeds whose load has not yet been transferred, as (die, side) (R639). -/
structure Hub where
  jobs : List Job := []
  qrs : List QItem := []
  sent : List Packet := []
  resend : List Packet := []
  pktSeq : Tab Nat := []
  lastPkt : Option Packet := none
  report : List Byte := []
  bb : List BBRec := []
  units : Units := {}
  transfers : List (Nat × Nat) := []
  deriving DecidableEq, Repr

/-! ### Power (chapter 17) -/

/-- Power, start-up and sleep: whether the device is powered (R681), RESET_N has risen (R679), a power-up step missed
its limit (FAULT_N is low for that, and in FAULTED), and the firmware runs (R686); the kind of the reset that the present
PRIMING follows (R657) and the steps started in it (R688); whether the device is entering ASLEEP, a wake cause has come
during the entry, and since when a wake is in progress (R691, R694); and the PMBus buses on which a supply asks for a
poll, [0] A, [1] B (R676). -/
structure Pwr where
  powered : Bool := true
  up : Bool := false
  upFail : Bool := false
  booted : Bool := false
  resetKind : Nat := 0
  steps : List Nat := []
  sleeping : Bool := false
  wakeAfter : Bool := false
  waking : Option Nat := none
  pollDue : Nat := 0
  deriving DecidableEq, Repr

/-! ### Easels, threads, decisions (chapters 03, 04, 07) -/

/-- Kinds of launch entries (R128). -/
inductive LKind where
  | stroke | read | fluxhold | frame | mark | event | acqtrig | segjump
  deriving DecidableEq, Repr

/-- A launch entry (R117, R118, R128): the scratch pair laid out as the canvas operation of its kind, the launch tick
asked for, the tick at which it launches, whether it was late, its sketch path, its place in program order, and the path whose
page it renders into (R317). -/
structure LEntry where
  kind : LKind
  w : W128
  req : Nat
  tick : Nat
  late : Bool
  path : Option Nat
  ord : Nat
  page : Option Nat := none
  deriving DecidableEq, Repr

/-- Micro-state (R131) without the generator positions. -/
structure Micro where
  mpc : Nat := 0
  rstack : List Nat := []
  ml : Tab (BitVec 16) := []
  s : Tab W64 := []
  z : Bool := false
  n : Bool := false
  cy : Bool := false
  ov : Bool := false
  deriving DecidableEq, Repr

/-- What holds a context (R115; THREAD_STATE). A held BRANCH keeps its handle, DT, targets and, for a fallback under
R311, its branch tick. -/
inductive Wait where
  | ready | time | queue | launch | mem | done
  | barrier (mask : Nat)
  | event (line since dt : Nat)
  | branch (h dt : Nat) (targets : List Nat) (fallback : Option Nat)
  | service (h : Nat)
  deriving DecidableEq, Repr

/-- The state of a thread, or of one of its sketch paths (R94, R322). `queue` holds (entry address, operation);
`gens` the slots' (i, s); `chk` the checkpoint (R131); `entry` whether it stands before the entry word of an operation that it
has dispatched (R130); `running` whether a micro-routine of the customer store is under way; `svc` a vendor
service called (R145); `waitc` a blocked WAITC word; `csBlock` a control-store restore (R139); `issued` the launches
of R119; `shadow` a path's frames as (FREQ, VPH); `consumed` the handles a path has consumed; `flags` the flags a path
holds as (key, bit, count) (R322); `illegal` a program fault held with the path. -/
structure Ctx where
  cpc : Nat := 0
  cursor : Nat := 0
  v : Tab W32 := []
  mic : Micro := {}
  gens : Tab (Nat × Nat) := []
  chk : Option (Micro × Tab (Nat × Nat)) := none
  entry : Bool := false
  running : Bool := false
  svc : Option Nat := none
  waitc : Option W192 := none
  wait : Wait := .ready
  csBlock : Bool := false
  queue : List (Nat × W128) := []
  issued : List (LKind × Nat × W128) := []
  shadow : Tab (Option (W48 × W48)) := []
  consumed : List Nat := []
  flags : List (Nat × Nat × Nat) := []
  illegal : Bool := false
  deriving DecidableEq, Repr

/-- A sketch page (R316, R317): its target as TGT names it, the branch tick of its path, and the path's output on the target
in the 64 ticks from there: 128 samples (I, Q) of a tone, in units of 2⁻¹⁵, or (code, 0) of a flux channel; the path that took
it, whether it is still rendered, and whether its path has been squashed, so that it is free from the next tick on (R320). -/
structure Page where
  tgt : Nat
  tb : Nat
  owner : Nat
  samples : List (Int × Int) := []
  live : Bool := true
  dead : Bool := false
  deriving DecidableEq, Repr

/-- A live sketch path (R309): its number, the branch that opened it, the path that branch lies in, its outcomes, its
context and its pages. -/
structure SPath where
  id : Nat
  branch : Nat
  parent : Option Nat
  outs : List Nat
  ctx : Ctx
  pages : List Page := []
  deriving DecidableEq, Repr

/-- A pending decision (R311): a sketch-mode branch that has opened paths, its handle, branch tick, targets by outcome,
the path it lies in and the context at the branch. -/
structure SBranch where
  id : Nat
  h : Nat
  tb : Nat
  targets : List Nat
  parent : Option Nat
  saved : Ctx
  deriving DecidableEq, Repr

/-- A FULL decision register (R303, R304) and the tick in which the decision reached it. -/
structure DReg where
  outcome : Nat
  seq : Nat
  forced : Bool
  dsp : Bool
  at_ : Nat
  deriving DecidableEq, Repr

/-- A trap in its handler (R132, R136): the cause, the path that it was taken in, and the micro-state saved. -/
structure InTrap where
  cause : Nat
  path : Option Nat := none
  mic : Micro := {}
  deriving DecidableEq, Repr

/-- A thread (R94): its context, sketch paths and pending decisions, launch queue, decision registers, pending traps
and the trap in its handler (R132, R136), and its progress in the shot. `reads` counts the READs
launched per DTAG (R291); `pages` are those of committed paths whose horizon has not passed (R320). -/
structure Thread where
  active : Bool := false
  ended : Bool := false
  main : Ctx := {}
  paths : List SPath := []
  pages : List Page := []
  branches : List SBranch := []
  launch : List LEntry := []
  handles : Tab (Option DReg) := []
  traps : List Nat := []
  inTrap : Option InTrap := none
  trapCount : Nat := 0
  reads : Tab Nat := []
  nextId : Nat := 0
  nextOrd : Nat := 0
  genStart : Tab (Nat × Nat) := []
  deriving DecidableEq, Repr

/-- A decision word on its way to a handle (R292, R293): thread, handle, word, and the tick by which it arrives. -/
structure BusWord where
  n : Nat
  h : Nat
  word : W64
  due : Nat
  deriving DecidableEq, Repr

/-- The easels: threads by n = 16e + t, the customer store of every easel (R141) by word and whether configuration-image
MRAM holds an image of it, decision words on the bus, the
words that each way of the bus carries in a tick from now on (R293) by way + 32 · tick: way k the segment of tile k,
8 + k its link to the hub, 16 + k its link from the hub; and the descriptor table and sample stores (R149, R155): stores
by tile · 2^22 + 4-byte unit. -/
structure Easels where
  threads : Tab Thread := []
  cust : Tab W192 := []
  custHeld : Bool := false
  bus : List BusWord := []
  carried : Tab Nat := []
  desc : Tab W128 := []
  store : Tab W32 := []
  deriving DecidableEq, Repr

/-! ### Outputs (chapters 04, 05, 08) -/

/-- A jump latched on a stroke (R169, R174): the chain it continues with, its latch tick, the boundary at which it
takes effect. -/
structure Jump where
  daddr : Nat
  at_ : Nat
  boundary : Nat
  deriving DecidableEq, Repr

/-- A stroke playing on a target (R160 to R175): its thread, launch tick, FINE, its segments as (first tick,
descriptor, plays, ticks of one play), the tick at which it ends, AMP, POFS, frame, whether it is a READ's tone, its
pending jump, the output sample from which it plays baseline (R191, R192) and whether an underrun is the cause, its place in
program order, where its job's SAMPLES lie (R583), since it may play after the job has left residence, and the stream
samples that it took last, newest first, as (output sample at which the sample is due, its bytes) (R183), and the path whose
page holds its samples within the horizon (R322). -/
structure Stroke where
  n : Nat
  start : Nat
  fine : Nat
  plays : List (Nat × Nat × Nat × Nat)
  endTick : Nat
  amp : Nat
  pofs : Nat
  frame : Nat
  isRead : Bool
  jump : Option Jump
  muted : Option Nat
  ord : Nat
  blocks : List (Nat × Nat × Nat × Nat) := []
  shared : List (Nat × Nat × Nat × Nat) := []
  samples : Nat := 0
  starved : Bool := false
  tape : List (Nat × Nat) := []
  page : Option Nat := none
  deriving DecidableEq, Repr

/-- A scheduled change of a marker (R232 to R236). -/
structure MChange where
  step : Nat
  level : Bool
  n : Nat
  ord : Nat
  path : Option Nat
  deriving DecidableEq, Repr

/-- A marker beside its objects: scheduled changes, edges that were moved and have not yet come (R236), as (land step,
level), the land step of the last edge, the first land step of the boundary after which it returns to IDLE_LEVEL, with the
threads of the job whose drain asks for it (R237), and the last change applied (step, thread) (R234). -/
structure Marker where
  changes : List MChange := []
  moved : List (Nat × Bool) := []
  lastEdge : Option Nat := none
  idleAt : List (Nat × List Nat) := []
  lastChange : Option (Nat × Nat) := none
  deriving DecidableEq, Repr

/-- A frame: FREQ and VPH (R211). -/
structure Frame where
  freq : W48 := 0
  vph : W48 := 0
  deriving DecidableEq, Repr

/-- A stream beside its objects (R183 to R192): its head copy, the position in the stream of the first byte in the ring and
the bytes in the ring, and byte ranges (first, end) lost to an uncorrectable error. -/
structure StreamSt where
  head : List Byte := []
  ringAt : Nat := 0
  ring : List Byte := []
  lost : List (Nat × Nat) := []
  deriving DecidableEq, Repr

/-- A flux channel beside its objects: the hold value, the state of the predistortion chain (R230) as past inputs of
the FIR, newest first, and (x1, y1) of each IIR section, the last code that the chain put out, the codes on their way to
the land, newest first (R196), the voltages at the land in the tick, in units of 2⁻¹⁸ V (R223), the end of a range switch
(R224), and the start of the ramp of a WARM reset (R683, R715) with its first code. -/
structure FluxSt where
  hold : Int := 0
  fir : List Int := []
  iir : Tab (Int × Int) := []
  code : Int := 0
  line : List Int := []
  land : Int × Int := (0, 0)
  switchEnd : Option Nat := none
  ramp : Option (Nat × Int) := none
  deriving DecidableEq, Repr

/-- A trigger output (R362 to R364): land ticks at which causes make it active, whether it is active, and until when. -/
structure TrigOut where
  due : List Nat := []
  active : Bool := false
  until_ : Nat := 0
  deriving DecidableEq, Repr

/-- A trigger input (R355 to R361): queued and held capture ticks, the last capture tick. -/
structure TrigIn where
  queue : List Nat := []
  held : Option Nat := none
  last : Option Nat := none
  deriving DecidableEq, Repr

/-- The outputs. Strokes by target: drive tone slot s, 512 + readout tone slot, 1024 + flux channel. Frames by
8n + 4·FK + FRAME. `palette` holds the last palette sums of a port (0 to 63 XY, 64 + n readout transmit), newest first
(R201), as long as they bear on its land; `codes` the 32 DAC codes that leave the port's land in the tick (R196, R221);
`ranged` the tone slots that contribute zero under R203, with the frame at fault; `tails` the strokes that end in this tick
and whose samples FINE delays past their end (R218). -/
structure Outs where
  strokes : Tab (Option Stroke) := []
  tails : Tab (Option Stroke) := []
  markers : Tab Marker := []
  frames : Tab Frame := []
  streams : Tab StreamSt := []
  flux : Tab FluxSt := []
  palette : Tab (List (Int × Int)) := []
  codes : Tab (List Int) := []
  ranged : List (Nat × Nat) := []
  trigOut : Tab TrigOut := []
  trigIn : Tab TrigIn := []
  deriving DecidableEq, Repr

/-! ### Readout receive chain (chapter 06) -/

/-- A window of a READ (R261 to R264, R278, R284): its thread, launch tick, job and shot, KSEL, DTAG and SEQ, the
reference time of its first sample, how many samples it holds, whether it has opened, was refused, or lost its tone,
the sum of its samples so far (R269) and whether the chain saturated in its land interval or a sample was invalid (R278, R284),
the values formed at its dump (I, Q, saturated, invalid), whether its slot was in mode DSP at its dump (R283), whether its entry
has entered a DSP core (core), its decision
(outcome, forced, DSP), the tick from which it may leave (R282, R400) and whether it has left, FIR_TAPS, and where
`fed` wrote its samples (R392): the address of the first, and how many. -/
structure Win where
  n : Nat
  launch : Nat
  job : Nat
  shot : Nat
  ksel : Nat
  dtag : Nat
  seq : Nat
  first : Nat
  count : Nat
  taps : Nat
  opened : Bool := false
  refused : Bool := false
  cut : Bool := false
  acc : Int × Int := (0, 0)
  sat : Bool := false
  invalid : Bool := false
  iq : Option (Int × Int × Bool × Bool) := none
  dsp : Bool := false
  core : Option Nat := none
  entered : Bool := false
  decision : Option (Nat × Bool × Bool) := none
  due : Nat := 0
  produced : Bool := false
  fed : Nat × Nat := (0, 0)
  deriving DecidableEq, Repr

/-- A run of invalid samples (R274, R275): the reference time of its first sample and its length in reference time. -/
structure Run where
  at_ : Nat
  len : Nat
  deriving DecidableEq, Repr

/-- A readout tone slot: the windows placed and not yet done, oldest first; the readout frame in use (R253) with the
receive values in force from a DAC-sample index on (R252, R273), newest last; invalid runs at the FIR output and at the
fixed-chain tap (R274 to R276); the clears of RX_ENABLE, as reference times of their change points, with the ends at the two taps
of the run that the following set marked (R255); and the running chain: the last mixer outputs, oldest first, the last outputs of
the fixed chain as (index, value) and of the FIR as (index of its newest input, reference time, value), newest first (R252 to
R260). -/
structure SlotRx where
  wins : List Win := []
  frame : Nat := 0
  hist : List (Nat × W48 × W48) := []
  runs : List Run := []
  fixRuns : List Run := []
  dark : List (Nat × Option (Nat × Nat)) := []
  mix : List (Int × Int) := []
  chain : List (Nat × Int × Int) := []
  fir : List (Nat × Nat × Int × Int) := []
  deriving DecidableEq, Repr

/-- A readout line beside its objects: the slice under check, the trimmed spares, the slices that failed their check
with the turn of their next one, the turn number (R244 to R247, R443), a substitution that waits for its ADC sample (R244), invalid runs at the raw tap in ADC samples, and the
clears of RX_ENABLE, with the end of the run that the following set marked, in ADC samples (R255). -/
structure LineRx where
  checking : Option Nat := none
  spares : List Nat := [48, 49, 50, 51]
  bad : List (Nat × Nat) := []
  turn : Nat := 0
  lastTurn : Nat := 0
  rotateDue : Bool := false
  rawRuns : List Run := []
  dark : List (Nat × Option Nat) := []
  deriving DecidableEq, Repr

/-- The receive chains: slots 16n + k and lines. `ticks` counts the ticks since power-on, from which the free codes of the
converters are taken (log entry 141). -/
structure Rx where
  ticks : Nat := 0
  slots : Tab SlotRx := []
  lines : Tab LineRx := []
  deriving DecidableEq, Repr

/-! ### Acquisition engine (chapter 08) -/

/-- A post-trigger run of a CAPTURE channel (R342, R347): trigger sample, causes, whether DISARM waits for it. -/
structure AcqRun where
  idx : Nat
  causes : List Nat
  disarm : Bool
  deriving DecidableEq, Repr

/-- A unit in a channel's buffer (R327 to R329): the index of its first sample, its bytes, its validity. -/
structure AcqUnit where
  idx : Nat
  bytes : List Byte
  valid : Bool
  deriving DecidableEq, Repr

/-- A stretch in which a channel takes units: from ARM, or for one shot of a job (R337, R341, R351): its first tick, the job, shot
and attempt (0 without a job), the tick in which the shot's drain completed, and its marks so far (R353). -/
structure AcqLeg where
  since : Nat
  seq : Nat := 0
  shot : Nat := 0
  attempt : Nat := 0
  stop : Option Nat := none
  marks : Nat := 0
  deriving DecidableEq, Repr

/-- An acquisition channel beside its objects: conditions met and not yet judged, as (condition, tick) (R331, R332); the
trigger sample of the last accepted trigger (R336); whether the level condition is armed and the samples that met it, not yet judged
(R334); the first sample that is still to be judged; the stretches, oldest first, of which it holds or awaits units; the units that
it holds, oldest first, and the samples of the group in progress, as (index, value, valid) (R328, R342); the index of the next unit
to form; the run in progress and the last sample of the latest run (R344); units dropped since the last block (R340). -/
structure AcqSt where
  conds : List (Nat × Nat) := []
  lastIdx : Option Nat := none
  armed : Bool := false
  crossings : List Nat := []
  judged : Nat := 0
  legs : List AcqLeg := []
  units : List AcqUnit := []
  group : List (Nat × (Int × Int) × Bool) := []
  nextUnit : Nat := 0
  run : Option AcqRun := none
  runEnd : Option Nat := none
  gap : Nat := 0
  deriving DecidableEq, Repr

/-! ### Readout DSP cores (chapter 09) -/

/-- A window entry in a core's FIFO (R393, R394): slot, DTAG and SEQ and launch of its window, I, Q, bytes 8–31. -/
structure WEntry where
  slot : Nat
  launch : Nat
  i : Int
  q : Int
  tag : W192
  job : Nat
  shot : Nat
  deriving DecidableEq, Repr

/-- The flags register FL (R370). -/
structure DFlags where
  z : Bool := false
  n : Bool := false
  c : Bool := false
  v : Bool := false
  acs : Bool := false
  ss : Bool := false
  deriving DecidableEq, Repr

/-- A loop in progress (R384): first address of the body, its last address, passes left, the present one included. -/
structure DLoop where
  first : Nat
  last : Nat
  left : Nat
  deriving DecidableEq, Repr

/-- A record being formed (R405): RTAG, CONT, words. -/
structure DRec where
  rtag : Nat
  cont : Bool
  words : List W32
  deriving DecidableEq, Repr

/-- A DSP core (R368 to R411). `ar` holds PT0–PT7, MD0–MD7, BS0–BS7, LN0–LN7 in the order of MOVP; `branch` a jump and
the delay slots before it; `repeat_` passes left of the next instruction; `di` the IMASK before DI and its tick; `wt`
WT and the window it names; `boundary` the BOUNDARY source, `bshot` the shot and attempt that it was raised for and `bword` the
boundary word; `done` whether the core has
executed BDONE for the present shot; `restore` a word of PM being restored; `stalled` the tick in which a store to XM last gave way
to a sample feed write (R375). -/
structure DspCore where
  job : Nat := 0
  pm : Tab W64 := []
  xm : Tab W32 := []
  ym : Tab W32 := []
  km : Tab W32 := []
  image : List W64 := []
  x : Tab W32 := []
  g : Tab W32 := []
  ac : Tab (Int × Int) := []
  ar : Tab Nat := []
  lc0 : Nat := 0
  lc1 : Nat := 0
  sv : Int := 0
  sx : Nat := 0
  scount : Nat := 0
  sempty : Bool := true
  wt : Option WEntry := none
  fl : DFlags := {}
  pc : Nat := 0
  branch : Option (Nat × Nat) := none
  slots : Nat := 0
  repeat_ : Nat := 0
  loops : List DLoop := []
  stack : List (Nat × DFlags) := []
  imask : Nat := 0
  di : Option (Nat × Nat) := none
  fifo : List WEntry := []
  mboxIn : W32 := 0
  mbox : Bool := false
  boundary : Bool := false
  boundaryAt : Nat := 0
  bword : W32 := 0
  bshot : Nat × Nat := (0, 0)
  done : Bool := false
  rec_ : Option DRec := none
  contNext : Bool := false
  restore : Option Nat := none
  fpos : Tab Nat := []
  slackSet : Bool := false
  stalled : Option Nat := none
  deriving DecidableEq, Repr

/-! ### Calibration and housekeeping (chapter 11) -/

/-- A routine running: routine, UKIND, unit, the tick of its start (R444, R445), for FLUX_OFS its conversions so far; `lost`
when a job took the unit or the reference was lost meanwhile (R454). -/
structure CalRun where
  routine : Nat
  ukind : Nat
  unit : Nat
  at_ : Nat
  convs : Nat := 0
  lost : Bool := false
  deriving DecidableEq, Repr

/-- A fit that a calibration job which has ended asks for (R450): the qubit, the job and its last shot, and the results, as
(I, Q), of each prepared state, and the capture channel that the job names for it. -/
structure Fit where
  qubit : Nat
  job : Nat
  shot : Nat
  groups : List (List (Int × Int))
  capture : Option Nat := none
  deriving DecidableEq, Repr

/-- A staged varnish word (R461, R462, R465): object, value, the tick in which it was staged, its routine and unit, and
the FIGURE, OLD and NEW of its result (R466). -/
structure CalWord where
  key : Nat
  val : Nat
  at_ : Nat
  routine : Nat
  ukind : Nat
  unit : Nat
  figure : Int
  old : Int
  new : Int
  deriving DecidableEq, Repr

/-- A housekeeping scan (R469 to R473): the present step and the tick of its sampling, which converters run in
low-power mode, and which have given their result of the step. -/
structure Scan where
  step : Nat
  at_ : Nat
  low : Nat
  got : Nat
  deriving DecidableEq, Repr

/-- The calibration engine and the housekeeping converters. `phase` the routine that PRIMING or the wake sequence runs, 0 none
(R448, R695). `seen` and `bad` by routine · 2^20 + UKIND · 2^16 + unit:
whether the unit has had a result since power-on reset (R451), and how many implausible results in a row (R453).
`temps` by HK0 input at the last SKEW run (R444). `kernels` the kernels found by DISC_FIT by qubit (R450), `fits` those
of calibration jobs that have ended and wait for their values. `trigAt` and `coincided`: the ticks of the
last scan trigger and of the last coincidence (R471). `low` the converters in low-power mode since the last scan began
(R473); `conv` the tick in which the conversion of the engine on HK3 ends, the first of `runs` that measures flux having it
(R472). -/
structure Cal where
  runs : List CalRun := []
  phase : Nat := 0
  stage : List CalWord := []
  seen : Tab Nat := []
  bad : Tab Nat := []
  calNo : Nat := 0
  temps : Tab Nat := []
  kernels : Tab (List W32) := []
  scan : Option Scan := none
  held : Bool := false
  low : Nat := 0
  conv : Option Nat := none
  trigAt : Option Nat := none
  coincided : Option Nat := none
  timerAt : Nat := 0
  fits : List Fit := []
  lastGlaze : Option Nat := none
  deriving DecidableEq, Repr

/-! ### The device -/

/-- What happened within the present tick, which decides between a host clear and hardware in the order of R709: the flag
bits that the host cleared (R15), the flag bits that hardware set, and the events that hardware counted. -/
structure InTick where
  cleared : Tab Nat := []
  raised : Tab Nat := []
  counted : Tab Nat := []
  deriving DecidableEq, Repr

/-- Everything the manual gives the device. `epoch` is the epoch counter and `counting` whether it counts (R44);
`objs` holds the value of every object of the dictionary that has no home of its own below; `counters` the observation
counters (R626); `inTick` what the present tick has cleared, set and counted (R15, R709). -/
structure Dev where
  epoch : Nat := 0
  counting : Bool := false
  state : DState := .cold
  objs : Tab Nat := []
  counters : Tab Nat := []
  inTick : InTick := {}
  agg : Agg := {}
  ev : Ev := {}
  lat : Lat := {}
  ser : Ser := {}
  qop : Qop := {}
  hub : Hub := {}
  pwr : Pwr := {}
  eas : Easels := {}
  out : Outs := {}
  rx : Rx := {}
  acq : Tab AcqSt := []
  dsp : Tab DspCore := []
  cal : Cal := {}
  ddr : List Host.Cell := []
  deriving DecidableEq, Repr

/-- The machine: the device, the device as it stood at the end of the previous tick (R605), and the commands that
wait, first in, first out. -/
structure State where
  now : Dev
  last : Dev
  pending : List Instr
  deriving DecidableEq, Repr

/-- Faults. No command of this block stops the machine: what the manual calls a fault is an effect on the state (a
flag, a trap, a spoiled shot, a retired unit, the device state FAULTED). The one constructor is raised by nothing. -/
inductive Fault where
  /-- Raised by no command. Safe: no path reaches it. -/
  | unreachable
  deriving DecidableEq, Repr

/-- Refusals of the model. -/
inductive Refusal where
  /-- The command has no meaning in the model yet. Raised by exec's arms only. Safe: the machine stops. -/
  | notModelled (mnemonic : String)
  deriving DecidableEq, Repr

/-- The device after power-on reset (R17, R571, R683): COLD, the epoch counter at 0 and not counting, every object at
its reset value, every memory with nothing listed, no job, no command. -/
def Dev.reset : Dev := { qop := { idents := [(0, { key := Config.factoryKey })] } }

/-- The machine after power-on reset, with no command waiting. -/
def State.reset : State := { now := Dev.reset, last := Dev.reset, pending := [] }

end Sys2Proof.Machine
end

