-- ==== Sys2Proof/Machine/Operands.lean ====
section
/-! DEFINITION. Operand forms: reading and writing objects of the dictionary, two's complement, rounding and
saturation, little-endian bytes, CRC-32, and the alignment of ticks. -/

namespace Sys2Proof.Machine

/-! ### Objects -/

/-- The present value of an object as its stored bits. -/
def Dev.rd (d : Dev) (key : Nat) : Nat := tabGet (resetOf key) d.objs key

/-- Hardware or an accepted write changes an object. -/
def Dev.wr (d : Dev) (key v : Nat) : Dev := { d with objs := tabSet (resetOf key) d.objs key v }

/-- Writes a list of objects in order. -/
def Dev.wrs (d : Dev) (l : List (Nat × Nat)) : Dev := l.foldl (fun e p => e.wr p.1 p.2) d

/-- A BOOL object is set. -/
def Dev.rdB (d : Dev) (key : Nat) : Bool := d.rd key != 0

/-- Bit of an object. -/
def Dev.bit (d : Dev) (key b : Nat) : Bool := (d.rd key).testBit b

/-- Writes one bit of an object, leaving the others. -/
def Dev.wrBit (d : Dev) (key b : Nat) (v : Bool) : Dev :=
  let old := d.rd key
  d.wr key (if v then Nat.lor old (2 ^ b) else if old.testBit b then old - 2 ^ b else old)

/-! ### Numbers (R9, R12, R710) -/

/-- The low n bits of an integer as an unsigned number. -/
def toU (n : Nat) (v : Int) : Nat := (v % (2 ^ n : Nat)).toNat

/-- The low n bits of a number as two's complement. -/
def sext (n v : Nat) : Int :=
  let u := v % 2 ^ n
  if 2 ^ (n - 1) ≤ u then (u : Int) - (2 ^ n : Nat) else (u : Int)

/-- Saturates to lo..hi. -/
def clampI (lo hi v : Int) : Int := if v < lo then lo else if hi < v then hi else v

/-- Saturates to n bits of two's complement. -/
def satI (n : Nat) (v : Int) : Int := clampI (-(2 ^ (n - 1) : Nat)) ((2 ^ (n - 1) : Nat) - 1) v

/-- Arithmetic right shift by n with rounding: half a unit of the last place kept is added first (R710). -/
def rshift (v : Int) (n : Nat) : Int := if n = 0 then v else (v + (2 ^ (n - 1) : Nat)) / (2 ^ n : Nat)

/-- num ÷ den rounded to nearest, halves upwards (R710). -/
def divRound (num : Int) (den : Nat) : Int := (2 * num + den) / ((2 * den : Nat) : Int)

/-- ⌈a ÷ b⌉. -/
def ceilDiv (a b : Nat) : Nat := (a + b - 1) / b

/-- Bits [hi:lo] of a number. -/
def bits (v hi lo : Nat) : Nat := (v / 2 ^ lo) % 2 ^ (hi + 1 - lo)

/-- The first alignment point at or after a tick (R45). -/
def alignUp (t : Nat) : Nat := (t + 14) / 15 * 15

/-- Number of ones of the low n bits. -/
def popcount (n v : Nat) : Nat := ((List.range n).filter fun i => v.testBit i).length

/-- Positions of the ones of the low n bits. -/
def onesOf (n v : Nat) : List Nat := (List.range n).filter fun i => v.testBit i

/-! ### Bytes (R10) -/

/-- n bytes of a number, least significant first. -/
def le (n v : Nat) : List Byte := (List.range n).map fun i => BitVec.ofNat 8 (v / 256 ^ i)

/-- n bytes of an integer, least significant first. -/
def leI (n : Nat) (v : Int) : List Byte := le n (toU (8 * n) v)

/-- The number that bytes hold, least significant first. -/
def ofLe : List Byte → Nat
  | [] => 0
  | b :: bs => b.toNat + 256 * ofLe bs

/-- Bytes padded with zeros to a multiple of n. -/
def padTo (n : Nat) (l : List Byte) : List Byte := l ++ List.replicate ((n - l.length % n) % n) 0

/-- One byte into the CRC-32 of IEEE 802.3. -/
def crcByte (c : Nat) (b : Byte) : Nat :=
  (List.range 8).foldl (fun x _ => if x % 2 = 1 then Nat.xor (x / 2) 0xEDB88320 else x / 2) (Nat.xor c b.toNat)

/-- CRC-32, IEEE 802.3 polynomial. -/
def crc32 (l : List Byte) : Nat := Nat.xor (l.foldl crcByte 0xFFFFFFFF) 0xFFFFFFFF

/-! ### Device states (R571) and job states (R587) -/

/-- The code of a device state (R571). -/
def DState.code : DState → Nat
  | .cold => 0
  | .priming => 1
  | .primed => 2
  | .armed => 3
  | .running => 4
  | .draining => 5
  | .halted => 6
  | .faulted => 7
  | .asleep => 8

/-- The code of a lattice state (R65 table). -/
def LatState.code : LatState → Nat
  | .alone => 0
  | .listening => 1
  | .locking => 2
  | .aligning => 3
  | .joined => 4
  | .root => 5
  | .holdover => 6
  | .resync => 7
  | .isolated => 8

/-- The code of a job state (R587). -/
def JobState.code : JobState → Nat
  | .accepted => 0
  | .placing => 1
  | .armed => 2
  | .running => 3
  | .draining => 4
  | .halted => 5
  | .ended => 6
  | .refused => 7
  | .cancelled => 8
  | .stopped => 9

/-- A job is resident from its placement until its last shot drains (R419). -/
def JobState.resident : JobState → Bool
  | .armed => true
  | .running => true
  | .draining => true
  | .halted => true
  | _ => false

end Sys2Proof.Machine
end

