-- ==== Sys2Proof/Machine/Trig.lean ====
section
/-! DEFINITION. Sine and cosine of a fraction of a turn in fixed point, as the vendor service SINCOS (R145) and the NCOs
(R206, R209) give them. The values are exact to far more places than either keeps: only the rounding of a value between two
neighbours stays open. -/

namespace Sys2Proof.Machine

/-- One in the fixed point of the series. -/
def trigOne : Int := 2 ^ 96

/-- A quarter turn in radians, π/2, in the fixed point of the series. -/
def halfPi : Int := 124451306656115542615260972311

/-- The power series of sine or cosine from a term of degree k, in the square of the angle. -/
def trigSeries (sq : Int) : Nat → Nat → Int → Int → Int
  | 0, _, _, sum => sum
  | fuel + 1, k, term, sum =>
    let next := -(term * sq / trigOne) / (((k + 1) * (k + 2) : Nat) : Int)
    trigSeries sq fuel (k + 2) next (sum + next)

/-- Cosine and sine of r ÷ 2^m of a quarter turn, in the fixed point of the series. -/
def quarterTrig (r m : Nat) : Int × Int :=
  let x := (r : Int) * halfPi / 2 ^ m
  let sq := x * x / trigOne
  (trigSeries sq 20 0 trigOne trigOne, trigSeries sq 20 1 x x)

/-- Cosine and sine of i ÷ 2^n turn, n at least 2. -/
def turnTrig (n i : Nat) : Int × Int :=
  let t := quarterTrig (i % 2 ^ (n - 2)) (n - 2)
  match i / 2 ^ (n - 2) % 4 with
  | 0 => t
  | 1 => (-t.2, t.1)
  | 2 => (-t.1, -t.2)
  | _ => (t.2, -t.1)

/-- A value scaled to p fractional bits. At a quarter turn it is exact; else it lies between two neighbours, and `up` says
which of them is taken. -/
def trigRound (p : Nat) (exact up : Bool) (v : Int) : Int :=
  let low := v * 2 ^ p / trigOne
  if !exact && up then low + 1 else low

/-- Cosine and sine of i ÷ 2^n turn with p fractional bits, each rounded as `up` says. -/
def cosSin (n i p : Nat) (up : Bool × Bool) : Int × Int :=
  let t := turnTrig n i
  let exact := i % 2 ^ (n - 2) == 0
  (trigRound p exact up.1 t.1, trigRound p exact up.2 t.2)

end Sys2Proof.Machine
end

