-- ==== Sys2Proof/Machine/Filter.lean ====
section
/-! DEFINITION. The arithmetic of the samples: complex values, what an NCO looks up (R209), halfband stages up and down (R216,
R219, R256), the fractional-delay filter (R218), the carrier mixer, the inverse-sinc filter and the DAC code (R207, R220,
R221). The taps, which the manual leaves open beyond their number and their response, are free values (log entry 11). -/

namespace Sys2Proof.Machine

/-! ### Complex values -/

/-- Two 16-bit parts of a word. -/
def parts16 (w : Nat) : Int × Int := (sext 16 w, sext 16 (w / 2 ^ 16))

/-- Complex product. -/
def cmul (a b : Int × Int) : Int × Int := (a.1 * b.1 - a.2 * b.2, a.1 * b.2 + a.2 * b.1)

/-- Complex sum. -/
def cadd (a b : Int × Int) : Int × Int := (a.1 + b.1, a.2 + b.2)

/-- A complex value times a real one. -/
def cscale (k : Int) (a : Int × Int) : Int × Int := (k * a.1, k * a.2)

/-- Sum of products of real taps with complex samples. -/
def tapSum (taps : List Int) (xs : List (Int × Int)) : Int × Int :=
  (taps.zip xs).foldl (fun a p => cadd a (cscale p.1 p.2)) (0, 0)

/-- How many parts a limit changed. -/
def changed (a b : Int × Int) : Nat := (if a.1 = b.1 then 0 else 1) + (if a.2 = b.2 then 0 else 1)

/-! ### NCOs (R209) -/

/-- Cosine and sine from the 24 most significant bits of an NCO's phase, in Q1.17. Exact, but for the rounding of a value
between two neighbours, which is free (log entry 11). -/
def ncoLookup (phase : W48) : Int × Int :=
  let i := (phase >>> 24).toNat
  let v := cosSin 24 i 17 (Config.ncoRoundsUp i)
  (satI 18 v.1, satI 18 v.2)

/-! ### Halfband stages -/

/-- A value over 2^17 without its fraction: rounded to one of its neighbours, which one is free (log entry 11). -/
def filterRound (v : Int) : Int := v / 2 ^ 17 + (if v % 2 ^ 17 ≠ 0 ∧ Config.filterRoundsUp v then 1 else 0)

/-- The taps of the samples between two inputs of a stage that doubles the rate: h on each side, alike, nearest last on the
left and first on the right. -/
def upTaps (h : Nat) (tap : Nat → Int) : List Int :=
  ((List.range h).map tap).reverse ++ (List.range h).map tap

/-- A halfband stage that doubles the rate, with 4h − 1 taps (R216, R219): an output at an input is that input, and one
between two inputs the weighted sum of h inputs on each side. The first output stands at the input of index h − 1. -/
def halfUp (h : Nat) (tap : Nat → Int) (xs : List (Int × Int)) : List (Int × Int) :=
  (List.range (xs.length + 1 - 2 * h)).flatMap fun k =>
    let w := (xs.drop k).take (2 * h)
    let s := tapSum (upTaps h tap) w
    [w.getD (h - 1) (0, 0), (filterRound s.1, filterRound s.2)]

/-- The same stage at one output of an endless sequence. -/
def halfUpAt (h : Nat) (tap : Nat → Int) (x : Int → Int × Int) (i : Int) : Int × Int :=
  if i % 2 = 0 then x (i / 2)
  else
    let s := tapSum (upTaps h tap) ((List.range (2 * h)).map fun j => x (i / 2 - (h - 1 : Nat) + j))
    (filterRound s.1, filterRound s.2)

/-- The rate stages of a segment (R216, R219): 23, 11 and 7 taps. -/
def rateUp (rate : Nat) (x : Int → Int × Int) : Int → Int × Int :=
  match rate with
  | 0 => x
  | 1 => halfUpAt 6 (Config.rateTap 0) x
  | 2 => halfUpAt 3 (Config.rateTap 1) (halfUpAt 6 (Config.rateTap 0) x)
  | _ => halfUpAt 2 (Config.rateTap 2) (halfUpAt 3 (Config.rateTap 1) (halfUpAt 6 (Config.rateTap 0) x))

/-- The fractional-delay filter of 16 taps in one of its phases (R218): phase 0 delays nothing. -/
def fineDelay (phase : Nat) (x : Int → Int × Int) (m : Int) : Int × Int :=
  if phase = 0 then x m
  else
    let s := tapSum ((List.range 16).map (Config.delayTap phase)) ((List.range 16).map fun j => x (m - 8 + j))
    (filterRound s.1, filterRound s.2)

/-- The four stages of ×16 (R219): from the 36 envelope samples 16 before and 20 from the first of a tick on, in Q1.17, to
the 40 DAC samples from 4 before the tick to 4 after it. -/
def interpolate16 (xs : List (Int × Int)) : List (Int × Int) :=
  let a := ((halfUp 14 (Config.upTap 0) xs).drop 1).take 16
  let b := (halfUp 4 (Config.upTap 1) a).take 17
  let c := (halfUp 3 (Config.upTap 2) b).drop 1
  halfUp 2 (Config.upTap 3) c

/-! ### DAC codes (R207, R208, R220, R221) -/

/-- I cos φ − Q sin φ of the carrier's phase at a DAC sample, in Q2.34 (R207, R208). -/
def carrierMix (carrier : W48) (n : Int) (v : Int × Int) : Int :=
  let t := ncoLookup (carrier * BitVec.ofInt 48 n)
  v.1 * t.1 - v.2 * t.2

/-- The DAC code of a value of 14 + b fractional bits scaled by 2^13 (R221): rounded, saturated to 14 bits. -/
def dacCode (v : Int) (b : Nat) : Int := satI 14 (rshift v b)

/-- The 32 DAC codes of a tick from the 40 mixed samples about it, through the inverse-sinc filter of 9 taps or past it
(R220, R221). -/
def dacCodes (invSinc : Bool) (vs : List Int) : List Int :=
  (List.range 32).map fun i =>
    if invSinc then
      dacCode ((List.range 9).foldl (fun a k => a + Config.sincTap k * vs.getD (i + k) 0) 0) 38
    else dacCode (vs.getD (i + 4) 0) 21

/-! ### The fixed decimation chain (R256) -/

/-- Samples of a stage: position of the first one, in ADC samples, spacing, the values, and how many parts of each
saturated. -/
structure StageOut where
  first : Int
  step : Nat
  vals : List (Int × Int)
  sats : List Nat
  deriving DecidableEq, Repr

/-- Values rounded by a shift and saturated to a width, with the parts that saturated. -/
def roundStage (first : Int) (step shift width : Nat) (l : List (Int × Int)) : StageOut :=
  let rs := l.map fun v =>
    let r := (rshift v.1 shift, rshift v.2 shift)
    let s := (satI width r.1, satI width r.2)
    (s, changed r s)
  { first := first, step := step, vals := rs.map (·.1), sats := rs.map (·.2) }

/-- A halfband stage that halves the rate, with 4h − 1 coefficients in Q1.17 of which the middle one is one half (R256):
outputs in Q1.17. -/
def halfDown (k h : Nat) (s : StageOut) : StageOut :=
  let xs := s.vals
  let taps := (List.range h).map (Config.chainTap k)
  let out := (List.range ((xs.length + 3 - 4 * h) / 2)).map fun i =>
    let c := 2 * i + 2 * h - 1
    let pairs := (List.range h).map fun j => cadd (xs.getD (c - (2 * j + 1)) (0, 0)) (xs.getD (c + (2 * j + 1)) (0, 0))
    cadd (cscale (2 ^ 16) (xs.getD c (0, 0))) (tapSum taps pairs)
  roundStage (s.first + (2 * h - 1 : Nat) * s.step) (2 * s.step) 17 18 out

/-- The stages of the fixed chain from the mixer on, in order: the mixer, HB1 to HB5, the output rounding to Q1.15. -/
def fixedChain (m : StageOut) : List StageOut :=
  let a := halfDown 0 2 m
  let b := halfDown 1 3 a
  let c := halfDown 2 3 b
  let e := halfDown 3 5 c
  let f := halfDown 4 5 e
  [m, a, b, c, e, f, roundStage f.first f.step 2 16 f.vals]

end Sys2Proof.Machine
end

