-- ==== Sys2Proof/Machine/Flags.lean ====
section
/-! DEFINITION. Flags and counters: what happens when hardware sets a bit of a flags object (R14, R15, R18, R496,
R627), when the host clears one, and the trace items that go with it (R670). -/

namespace Sys2Proof.Machine

/-- The key of an observation counter of a slot (R626). -/
def ctrKey (slot sub : Nat) : Nat := objKey (0xF000 + slot) sub

/-- The value of an observation counter. -/
def Dev.ctr (d : Dev) (key : Nat) : Nat := tabGet 0 d.counters key

/-- A counter increases by n and saturates at its all-ones value (R18). -/
def Dev.addCtr (d : Dev) (key n : Nat) : Dev :=
  { d with counters := tabSet 0 d.counters key (min (d.ctr key + n) 0xFFFFFFFF) }

/-- The tick remembers events that hardware counted: a host clear of the same tick comes before them (R569, R709). -/
def Dev.noteCounted (d : Dev) (key n : Nat) : Dev :=
  { d with inTick := { d.inTick with
      counted := tabSet 0 d.inTick.counted key (min (tabGet 0 d.inTick.counted key + n) 0xFFFFFFFF) } }

/-- Hardware counts n events. -/
def Dev.bump (d : Dev) (key n : Nat) : Dev := (d.addCtr key n).noteCounted key n

/-- The SLOT_MASK object of a slot (R507). -/
def slotMaskKey (s : Nat) : Nat := objKey (0x7500 + s / 16) (0x01 + s % 16)

/-- The SLOT_CTRL object of a slot (R507). -/
def slotCtrlKey (s : Nat) : Nat := objKey (0x7500 + s / 16) (0x11 + s % 16)

/-- CLASS of a slot (R498). -/
def Dev.slotClass (d : Dev) (s : Nat) : Nat := bits (d.rd (slotCtrlKey s)) 2 1

/-- An item for the trace port (R670, R671): at most one item every 16 ticks, items beyond that are dropped. -/
def Dev.trace (d : Dev) (src data : Nat) : Dev :=
  if d.rdB 0x784003 && ((d.bit 0x784002 src) || src == 6) then
    match d.agg.traceAt with
    | some t =>
      if t + 16 ≤ d.epoch then
        { d with agg := { d.agg with traceItem := some (src, d.epoch % 2 ^ 48, data), traceAt := some d.epoch } }
      else { d with agg := { d.agg with traceDropped := d.agg.traceDropped + 1 } }
    | none =>
      { d with agg := { d.agg with traceItem := some (src, d.epoch % 2 ^ 48, data), traceAt := some d.epoch } }
  else d

/-- A masked bit of a slot was set by hardware: SETS and NEW accumulate (R505), and a slot with ENABLE set and a class
other than POLL is queued, once (R496, R498). -/
def Dev.raise (d : Dev) (s bit : Nat) : Dev :=
  let a := tabGet (0, 0) d.agg.acc s
  let acc := tabSet (0, 0) d.agg.acc s (min (a.1 + 1) 0xFFFF, Nat.lor a.2 (2 ^ bit))
  let queued := d.agg.queue.any fun q => q.slot == s
  let enabled := d.bit (slotCtrlKey s) 0
  let queue :=
    if enabled && d.slotClass s < 2 && !queued then d.agg.queue ++ [{ slot := s, at_ := d.epoch }] else d.agg.queue
  let d1 := { d with agg := { d.agg with acc := acc, queue := queue } }
  if enabled then d1.trace 5 (s + 2 ^ 32 * Nat.lor a.2 (2 ^ bit)) else d1

/-- The tick remembers that hardware set a bit. -/
def Dev.noteRaised (d : Dev) (key bit : Nat) : Dev :=
  { d with inTick := { d.inTick with raised := tabSet 0 d.inTick.raised key (Nat.lor (tabGet 0 d.inTick.raised key) (2 ^ bit)) } }

/-- Whether a set of a bit meets a host clear of the same tick for the first time (R15). -/
def Dev.againDue (d : Dev) (key bit : Nat) : Bool :=
  (tabGet 0 d.inTick.cleared key).testBit bit && !(d.rd key).testBit bit

/-- A bit of a flags object is set and n events are counted (R14, R627). A bit that the host cleared in the same tick
reads 1 and its "again" counter increments, once in the tick (R15); the slot is raised (R496). -/
def Dev.setFlag (d : Dev) (key bit n : Nat) : Dev :=
  let d1 := d.wr key (Nat.lor (d.rd key) (2 ^ bit))
  match slotOf key with
  | none => d1
  | some s =>
    let d2 := d1.addCtr (ctrKey s (0x01 + bit)) n
    let d3 := if d.againDue key bit then d2.addCtr (ctrKey s (0x21 + bit)) 1 else d2
    if d.bit (slotMaskKey s) bit then d3.raise s bit else d3

/-- The tick remembers what hardware set and counted. -/
def Dev.noteFlag (d : Dev) (key bit n : Nat) (again : Bool) : Dev :=
  let d1 := d.noteRaised key bit
  match slotOf key with
  | none => d1
  | some s =>
    let d2 := d1.noteCounted (ctrKey s (0x01 + bit)) n
    if again then d2.noteCounted (ctrKey s (0x21 + bit)) 1 else d2

/-- Hardware sets a bit of a flags object and counts n events. -/
def Dev.flagN (d : Dev) (key bit n : Nat) : Dev := (d.setFlag key bit n).noteFlag key bit n (d.againDue key bit)

/-- A flag that the service of a host's datagram itself sets: it belongs to step 1 of the tick, in the order of arrival
(R709). -/
def Dev.hostFlag (d : Dev) (key bit : Nat) : Dev := d.setFlag key bit 1

/-- Hardware sets a bit of a flags object and counts the event. -/
def Dev.flag (d : Dev) (key bit : Nat) : Dev := d.flagN key bit 1

/-- The "again" counters of a slot's bits increment. -/
def Dev.againBits (d : Dev) (key v : Nat) : Dev :=
  match slotOf key with
  | none => d
  | some s => (onesOf 32 v).foldl (fun e b => e.bump (ctrKey s (0x21 + b)) 1) d

/-- What the service of a host's request sets and counts belongs to step 1 of the tick, in the order of arrival: a host clear
that is served after it clears it (R709). -/
def Dev.inStep1 (d before : Dev) : Dev :=
  { d with inTick := { d.inTick with raised := before.inTick.raised, counted := before.inTick.counted } }

/-- The host clears the bits that are 1 in v (R14); they are remembered for the rest of the tick. A bit that hardware set
earlier in the tick stays 1 and its "again" counter increments, once in the tick: the clear belongs to step 1 of the tick and
the set comes after it (R15, R709). A host clear never removes a slot from the queue (R497). -/
def Dev.hostClear (d : Dev) (key v : Nat) : Dev :=
  let old := d.rd key
  let kept := Nat.land (Nat.land old v) (tabGet 0 d.inTick.raised key)
  let gone := Nat.xor (Nat.land old v) kept
  let d1 := (d.wr key (Nat.xor old gone)).againBits key
    (Nat.xor kept (Nat.land kept (tabGet 0 d.inTick.cleared key)))
  { d1 with inTick := { d1.inTick with cleared := tabSet 0 d.inTick.cleared key (Nat.lor (tabGet 0 d.inTick.cleared key) v) } }

/-- PENDING_MAP bit of a slot (R495). -/
def Dev.pendingBit (d : Dev) (s : Nat) : Bool :=
  match slotKey s with
  | none => false
  | some k => Nat.land (d.rd k) (d.rd (slotMaskKey s)) != 0

end Sys2Proof.Machine
end

