-- ==== Sys2Proof/Machine/Ops.lean ====
section
/-! DEFINITION. The operations that several commands share: causes of event lines, transitions of the device state,
rejections, wall-clock stamps, black-box records, the DDR4 bytes, and the jobs of the ledger. -/

namespace Sys2Proof.Machine

/-- A command's effect on the present device. -/
def State.onNow (s : State) (f : Dev → Dev) : State := { s with now := f s.now }

/-! ### Event lines (R476, R484, R490) -/

/-- Whether a native producer of a line produces in ASLEEP (R490). -/
def asleepNative (line : Nat) : Bool := (0x80 ≤ line && line ≤ 0x8B) || line == 0x98

/-- A native production of a line whose tick is the present one (R476): a cause, unless NATIVE_EN is clear or the
device sleeps and the producer does not (R490). -/
def Dev.produce (d : Dev) (line : Nat) : Dev :=
  if d.rdB (objKey (0x7000 + line) 5) && (d.state != .asleep || asleepNative line) then
    { d with ev := { d.ev with causes := d.ev.causes ++ [{ line := line, tick := d.epoch }] } }
  else d

/-- A native production of a line that names an earlier firing tick (R476). -/
def Dev.produceAt (d : Dev) (line t : Nat) : Dev :=
  if d.rdB (objKey (0x7000 + line) 5) && (d.state != .asleep || asleepNative line) then
    { d with ev := { d.ev with causes := d.ev.causes ++ [{ line := line, tick := t }] } }
  else d

/-- A software write fires a line (R484). -/
def Dev.software (d : Dev) (line : Nat) : Dev :=
  { d with ev := { d.ev with causes := d.ev.causes ++ [{ line := line, tick := d.epoch }] } }

/-! ### Device states (R20, R571, R611, R612) -/

/-- A transition of the device state with its cause code: the state objects, event line 0x8E and the trace item. -/
def Dev.setState (d : Dev) (st : DState) (cause : Nat) : Dev :=
  if d.state = st then d
  else
    let d1 := d.wrs [(0x100102, d.epoch), (0x100103, d.state.code), (0x100104, cause)]
    let d2 := { d1 with state := st }
    (d2.trace 2 (st.code + 256 * d.state.code)).produce 0x8E

/-- A rejection with STATE_CONFLICT is counted (R21, R629). -/
def Dev.conflict (d : Dev) : Dev := d.addCtr (ctrKey 0xE80 0x41) 1

/-! ### Wall clock (R91, R92) -/

/-- Nanoseconds from the anchor to an epoch, by the formula of R91 with the time of an epoch in exact thirds of 10⁻¹² ns.
Only the rounding of a time between two nanoseconds is free (log entry 11). -/
def Dev.wallNanos (d : Dev) (e : Nat) : Int :=
  let num := 4 * ((e : Int) - sext 64 (d.rd 0x203004)) * (10 ^ 12 + sext 32 (d.rd 0x203007))
  let den : Int := 3 * 10 ^ 12
  if num % den ≠ 0 ∧ Config.stampRoundsUp num then num / den + 1 else num / den

/-- The stamp of an epoch: seconds, nanoseconds, and whether the anchor is older than 2 s; none before the first
anchor. DESIGN CHOICE (log entry 132): stamps go on from the last anchor when WALL_SOURCE returns to 0. -/
def Dev.wallStamp (d : Dev) (e : Nat) : Option (Nat × Nat × Bool) :=
  if d.lat.anchored then
    let total : Int := d.rd 0x203006 + d.wallNanos e
    some (toU 48 (d.rd 0x203005 + total / 10 ^ 9), (total % 10 ^ 9).toNat,
      decide (sext 64 (d.rd 0x203004) + 1500000000 < (e : Int)))
  else none

/-- A stamp is made: WALL_STATUS bit 2 is set when the anchor is older than 2 s (R92). -/
def Dev.noteStamp (d : Dev) (e : Nat) : Dev :=
  match d.wallStamp e with
  | some (_, _, true) => d.wrBit 0x203003 2 true
  | _ => d

/-! ### Black box (R665 to R668) -/

/-- Bytes of a record in MRAM (R668). -/
def BBRec.size (r : BBRec) : Nat := 64 + r.payload.length

/-- Bytes that the records of a kind (frozen or not) take. -/
def bbBytes (l : List BBRec) (frozen : Bool) : Nat :=
  l.foldl (fun n r => if r.frozen = frozen then n + r.size else n) 0

/-- Drops the oldest ring records until the ring holds its 15 MiB; answers also whether one was dropped (R667). -/
def bbTrim : Nat → List BBRec → List BBRec × Bool
  | 0, l => (l, false)
  | n + 1, l =>
    if bbBytes l false ≤ 15 * 2 ^ 20 then (l, false)
    else (((bbTrim n (l.eraseP fun r => !r.frozen)).1), true)

/-- BB_FIRST, BB_LAST and BB_FROZEN follow the records held (R672). -/
def Dev.bbObjects (d : Dev) : Dev :=
  let nos := d.hub.bb.map (·.no)
  d.wrs [(0x782001, nos.foldl min (nos.headD 0)), (0x782003, (d.hub.bb.filter (·.frozen)).length)]

/-- A black-box record is written (R665); records of types FAULTED and RESET are frozen while the frozen area of 1 MiB
has room (R666). -/
def Dev.bbWrite (d : Dev) (btype ukind uidx cause job shot : Nat) (payload : List Byte) : Dev :=
  let no := d.rd 0x782002 + 1
  let wantFrozen := btype == 6 || btype == 7
  let pl := payload.take 4032
  let roomy := decide (bbBytes d.hub.bb true + 64 + pl.length ≤ 2 ^ 20)
  let r : BBRec :=
    { btype := btype, frozen := wantFrozen && roomy, ukind := ukind, no := no, epoch := d.epoch,
      wall := (d.wallStamp d.epoch).map fun w => (w.1, w.2.1), uidx := uidx, cause := cause, job := job, shot := shot,
      payload := pl, dstate := d.state.code, boot := d.rd 0x100105 }
  let all := d.hub.bb ++ [r]
  let trimmed := bbTrim all.length all
  let d1 := { d with hub := { d.hub with bb := trimmed.1 } }
  let d2 := (d1.wr 0x782002 no).bbObjects
  let d3 := if wantFrozen && !roomy then d2.flag 0x782007 1 else d2
  let d4 := (if trimmed.2 then d3.flag 0x782007 0 else d3).noteStamp d.epoch
  d4.trace 4 (btype + 2 ^ 16 * (if r.frozen then 1 else 0) + 2 ^ 24 * ukind + 2 ^ 32 * no)

/-- Payload of a FAULTED record (R668 table): every flags object that reads nonzero. -/
def Dev.flagDump (d : Dev) : List Byte :=
  (d.objs.filter fun p => (slotOf p.1).isSome && p.2 != 0).flatMap fun p =>
    le 2 (p.1 / 256) ++ le 1 (p.1 % 256) ++ le 1 0 ++ le 4 p.2

/-- The device enters FAULTED (R429 to R431, R571, R664, R689), which any state but COLD and ASLEEP can. -/
def Dev.enterFaulted (d : Dev) : Dev :=
  if d.state = .cold ∨ d.state = .asleep ∨ d.state = .faulted then d
  else (d.setState .faulted 4).bbWrite 7 0 0 0 0 0 d.flagDump

/-! ### DDR4 bytes (log entry 6) -/

/-- What a byte of DDR4 that nothing has written reads as (DESIGN CHOICE, log entry 6). -/
def unlistedByte : Byte := 0

/-- Reads one byte. -/
def ddrGet (m : List Host.Cell) (a : Nat) : Byte := tabGet unlistedByte m a

/-- Writes one byte, keeping the canonical form. -/
def ddrPut (m : List Host.Cell) (a : Nat) (v : Byte) : List Host.Cell := tabSet unlistedByte m a v

/-- Writes consecutive bytes. -/
def ddrWrite (m : List Host.Cell) (a : Nat) (l : List Byte) : List Host.Cell := tabFill unlistedByte m a l

/-- Reads consecutive bytes. -/
def ddrRead (m : List Host.Cell) (a n : Nat) : List Byte := tabRead unlistedByte m a n

/-- The canonical form of byte memory: addresses rise strictly and no entry equals what an unlisted address reads. -/
abbrev Memory.wf (m : List Host.Cell) : Prop := tabWf (fun _ => unlistedByte) m

/-- Bytes of DDR4 in a channel that is in service: at most 64 GiB (R706). -/
def ddrChannelBytes (c : Nat) : Nat := min (Config.ddrInstalled c) (64 * 2 ^ 30)

/-! ### Jobs of the ledger -/

/-- The job with a sequence number. -/
def Dev.job (d : Dev) (seq : Nat) : Option Job := d.hub.jobs.find? fun j => j.seq == seq

/-- Changes a job. -/
def Dev.modJob (d : Dev) (seq : Nat) (f : Job → Job) : Dev :=
  { d with hub := { d.hub with jobs := d.hub.jobs.map fun j => if j.seq == seq then f j else j } }

/-- The jobs resident (R419). -/
def Dev.resident (d : Dev) : List Job := d.hub.jobs.filter (·.st.resident)

/-- The device state that the resident jobs give (R572). -/
def Dev.jobsState (d : Dev) : DState :=
  let l := d.resident
  if l.any (·.st == .running) then .running
  else if l.any (·.st == .draining) then .draining
  else if l.any (·.st == .halted) then .halted
  else if l.any (·.st == .armed) then .armed
  else .primed

/-- Outside COLD, PRIMING, FAULTED and ASLEEP the device state follows the jobs (R572); RESIDENT and LEDGER_JOBS
count them. -/
def Dev.syncState (d : Dev) : Dev :=
  let d1 := d.wrs [(0x600002, d.resident.length), (0x780002, d.hub.jobs.length)]
  if d.state = .cold ∨ d.state = .priming ∨ d.state = .faulted ∨ d.state = .asleep then d1
  else d1.setState d1.jobsState 3

/-- Whether a shot of the job is in progress: from its SHOT_START to the end of its drain (R633). -/
def Job.inShot (j : Job) : Bool := j.st.resident && j.phase == .shot

/-- The present attempt of a job is marked SPOILED; a job without an attempt in progress is unchanged. -/
def Dev.spoil (d : Dev) (seq : Nat) : Dev := d.modJob seq fun j => if j.inShot then { j with spoiled := true } else j

/-- Every shot in progress is marked SPOILED (R85, R86, R641). -/
def Dev.spoilAll (d : Dev) : Dev :=
  { d with hub := { d.hub with jobs := d.hub.jobs.map fun j => if j.inShot then { j with spoiled := true } else j } }

/-- The shots in progress of the jobs that satisfy a test are marked SPOILED. -/
def Dev.spoilWhere (d : Dev) (p : Job → Bool) : Dev :=
  { d with hub := { d.hub with
      jobs := d.hub.jobs.map fun j => if j.inShot && p j then { j with spoiled := true } else j } }

/-- The job that holds a thread. -/
def Dev.jobOfThread (d : Dev) (n : Nat) : Option Job :=
  d.resident.find? fun j => j.held.canvases.any (·.thread == n)

/-- The canvas of a job on a thread. -/
def Dev.placeOf (d : Dev) (n : Nat) : Option CanvasPlace :=
  (d.jobOfThread n).bind fun j => j.held.canvases.find? (·.thread == n)

/-- The shot that the job on a thread runs is marked SPOILED: the one in progress, or from 96 ticks before its SHOT_START,
when its threads run already (R97), the one that is about to start. -/
def Dev.spoilThread (d : Dev) (n : Nat) : Dev :=
  match d.jobOfThread n with
  | some j => d.modJob j.seq fun k =>
      if k.inShot then { k with spoiled := true } else { k with spoilNext := k.spoilNext || k.nextStart.isSome }
  | none => d

/-- Bytes of unacknowledged results (R596, R601, R652): the records of the final shots held, with a summary of 48 bytes
in each flow. -/
def Dev.refreshHeld (d : Dev) : Dev :=
  d.wr 0x18000C (d.hub.jobs.foldl (fun n j =>
    (j.final.foldl (fun m a => a.recs.foldl (fun k r => k + r.bytes.length) (m + 48 * a.flows.length)) n)) 0)

/-! ### Units in service (R613, R630) -/

/-- Whether a unit has been retired. -/
def Dev.isRetired (d : Dev) (u : UnitRef) : Bool := d.hub.units.retired.contains u

/-- A transient of a unit that counts towards its retirement (R323, R630). -/
def Dev.noteFault (d : Dev) (u : UnitRef) (kind : Nat) : Dev :=
  { d with hub := { d.hub with units := { d.hub.units with
      faults := (d.hub.units.faults.filter fun f => decide (d.epoch < f.2.2 + 7500000000)) ++ [(u, kind, d.epoch)] } } }

/-- How many transients of a kind, within how many ticks, retire a unit (R630). -/
def faultLimit (u : UnitRef) (kind : Nat) : Option (Nat × Nat) :=
  match u, kind with
  | .slice _ _, 0 => some (3, 7500000000)
  | .easel _, 0 => some (8, 750000000)
  | .easel _, 1 => some (4, 750000000)
  | .dsp _, 0 => some (3, 750000000)
  | .ddr _, 0 => some (3, 750000000)
  | _, _ => none

/-- Whether the transients of a unit meet a criterion of R630. -/
def Dev.faultsMet (d : Dev) (u : UnitRef) (kind : Nat) : Bool :=
  match faultLimit u kind with
  | none => false
  | some c => decide (c.1 ≤ (d.hub.units.faults.filter fun f =>
      f.1 == u && f.2.1 == kind && decide (d.epoch < f.2.2 + c.2)).length)

/-- How many units of a class are retired. -/
def Dev.countRetired (d : Dev) (p : UnitRef → Bool) : Nat := (d.hub.units.retired.filter p).length

/-- The unit counts of R613 follow the retired units, the sprouted spares, the links, the ports and the channels. -/
def Dev.refreshUnits (d : Dev) : Dev :=
  let links := (List.range 12).foldl (fun n k => if d.rd (unitKey 0x240001 k) = 4 then n + 2 ^ k else n) 0
  let hosts := (List.range 4).foldl (fun n h => if d.rd (unitKey 0x280001 h) = 3 then n + 2 ^ h else n) 0
  let chans := (List.range 4).foldl (fun n c => if d.isRetired (.ddr c) then n else n + 2 ^ c) 0
  let easels := ((List.range 32).filter fun e => !d.isRetired (.easel e)).length
  let cores := ((List.range 16).filter fun c => !d.isRetired (.dsp c)).length
  let lines := ((List.range 32).filter fun n => !(d.isRetired (.rlTx n) || d.isRetired (.rlLine n))).length
  let live := d.hub.units.sprouts.filter fun p => !d.isRetired p.2.1
  let spareE := (live.filter fun p => match p.2.1 with | .easel _ => true | _ => false).length
  let spareD := (live.filter fun p => match p.2.1 with | .dsp _ => true | _ => false).length
  d.wrs [
    (0x100201, 64 - d.countRetired fun u => match u with | .xyPort _ => true | _ => false),
    (0x100202, lines),
    (0x100203, 768 - d.countRetired fun u => match u with | .flux _ => true | _ => false),
    (0x100204, easels + spareE), (0x100205, cores + spareD),
    (0x100206, links), (0x100207, hosts), (0x100208, chans),
    (0x100209, ((List.range 4).map fun c => if d.isRetired (.ddr c) then 0 else ddrChannelBytes c).sum)]

end Sys2Proof.Machine
end

