-- ==== Sys2Proof/Machine/Links.lean ====
section
/-! DEFINITION. Genzel links as other units use them: sending resendable cells, routes, spine trees, and what a link that
stops being UP does (R523, R528 to R531, R544, R644). -/

namespace Sys2Proof.Machine

/-- The chip's own name. -/
def Dev.chip (d : Dev) : Nat := d.rd 0x201001

/-- A link beside its objects. -/
def Dev.link (d : Dev) (k : Nat) : Link := tabGet {} d.ser.links k

/-- The held cells of a link that no acknowledgement has named. -/
def Link.unacked (l : Link) : List HeldCell := l.held.filter (!·.acked)

/-- Changes a link; UNACKED follows the held cells (R551). -/
def Dev.setLink (d : Dev) (k : Nat) (l : Link) : Dev :=
  { d.wr (unitKey 0x240009 k) l.unacked.length with ser := { d.ser with links := tabSet {} d.ser.links k l } }

/-- Whether a link is UP (R544, R547). -/
def Dev.linkUp (d : Dev) (k : Nat) : Bool := d.rd (unitKey 0x240001 k) == 4

/-- A cell becomes ready on a link, and waits there for its slot (R524). -/
def Dev.sendCell (d : Dev) (k : Nat) (b : CellBody) : Dev :=
  if d.linkUp k then d.setLink k { d.link k with waiting := (d.link k).waiting ++ [b] } else d

/-- A beat becomes ready on a link (R524). -/
def Dev.sendBeat (d : Dev) (b : BeatMsg) (k : Nat) : Dev :=
  if d.linkUp k then d.setLink k { d.link k with beats := (d.link k).beats ++ [b] } else d

/-- Cells become ready in order. -/
def Dev.sendCells (d : Dev) (k : Nat) (bs : List CellBody) : Dev := bs.foldl (fun e b => e.sendCell k b) d

/-- The ROUTE entry of a chip (R325): a link 0 to 11, 0xFE the own chip, 0xFF none. -/
def Dev.route (d : Dev) (c : Nat) : Nat := d.rd (0x24F001 + c)

/-- A lattice message of an MKIND goes towards its destination (R523); one for the own chip is delivered by the
caller. -/
def Dev.sendMsg (d : Dev) (kind : Nat) (m : LatMsg) : Dev :=
  if d.route m.dst < 12 then d.sendCell (d.route m.dst) (.msg kind m) else d

/-- The bytes of a bulk transfer in data cells of 32 bytes. -/
def dataCells (l : List Byte) : List (List Byte) :=
  (List.range (ceilDiv l.length 32)).map fun i => ((padTo 32 l).drop (32 * i)).take 32

/-- A bulk transfer of at most 256 data cells: BULK_HEAD, data, BULK_TAIL (R522, R568). -/
def Dev.bulkChunk (d : Dev) (k dst addr : Nat) (l : List Byte) : Dev :=
  let cells := dataCells l
  d.sendCells k (.bulkHead dst d.chip cells.length addr :: (cells.map .data
    ++ [.bulkTail (BitVec.ofNat 32 (crc32 (padTo 32 l)))]))

/-- Bytes go to another chip along its ROUTE entry, in transfers of at most 8,192 bytes (R522, R568). -/
def Dev.bulkSend (d : Dev) (dst addr : Nat) (l : List Byte) : Dev :=
  if d.route dst < 12 then
    (List.range (ceilDiv l.length 8192)).foldl
      (fun e i => e.bulkChunk (d.route dst) dst (addr + 8192 * i) ((l.drop (8192 * i)).take 8192)) d
  else d

/-- Whether a link is a spine link of a tree, false primary and true secondary: the chip names it or its neighbour does,
since the links that all chips name form the tree (R60, R61). A link that R68 excludes is none. -/
def Dev.inTree (d : Dev) (sec : Bool) (k : Nat) : Bool :=
  decide (k < 12) && !d.lat.excluded.contains k
    && (k == (if sec then d.rd 0x201004 else d.rd 0x201003) || Config.spineNeighbour sec k)

/-- The spine links of a tree. -/
def Dev.treeLinks (d : Dev) (sec : Bool) : List Nat := (List.range 12).filter (d.inTree sec)

/-- PATH_STATE follows the paths (R672). -/
def Dev.pathState (d : Dev) : Dev :=
  d.wr 0x781002 (match d.lat.prim.out, d.lat.sec.out with
    | false, false => 0
    | false, true => 1
    | true, false => 2
    | true, true => 3)

/-- A spine path has left service (R644). -/
def Dev.pathOut (d : Dev) (sec : Bool) : Dev :=
  let d1 := (d.flag 0x781001 3).pathState
  d1.bbWrite 5 13 (if sec then 1 else 0) 8 0 0
    (le 1 d.lat.st.code ++ le 4 (d.rd 0x201103) ++ le 1 (d.rd 0x201105) ++ le 1 (d.rd 0x201106))

/-- A link whose state leaves UP takes its spine path out of service (R644). -/
def Dev.spineLinkLost (d : Dev) (k : Nat) : Dev :=
  let d1 := if d.rd 0x201003 = k ∧ !d.lat.prim.out then
      ({ d with lat := { d.lat with prim := { d.lat.prim with out := true, goodRun := 0 } } }).pathOut false else d
  if d1.rd 0x201004 = k ∧ !d1.lat.sec.out then
    ({ d1 with lat := { d1.lat with sec := { d1.lat.sec with out := true, goodRun := 0 } } }).pathOut true
  else d1

/-- A link goes to a state in which it carries nothing (R547): what it held is lost with it (R302). -/
def Dev.dropLink (d : Dev) (k st : Nat) : Dev :=
  let d1 := (d.wr (unitKey 0x240001 k) st).setLink k { d.link k with
    held := [], waiting := [], bulk := none, decisions := [], resent := [], ahead := 0, beats := [], wire := []
    bad := [], expired := 0 }
  let d2 := if st = 1 then d1 else d1.wrs ((List.range 4).map fun l => (unitKey 0x241001 (4 * k + l), 2))
  if d.linkUp k then d2.spineLinkLost k else d2

/-- Whether bytes of DDR4 overlap the extent of a stream of a job in state ARMED, RUNNING or DRAINING (R190). -/
def Dev.streamOverlap (d : Dev) (addr len : Nat) : Bool :=
  d.hub.jobs.any fun j => (j.st == .armed || j.st == .running || j.st == .draining)
    && j.content.streams.any fun s => decide (addr < s.addr + s.len ∧ s.addr < addr + len)

end Sys2Proof.Machine
end

