-- ==== Sys2Proof/Machine/Easel.lean ====
section
/-! DEFINITION. Threads as every canvas operation, microword and trap uses them: contexts, launch ticks, launch entries,
generators, strokes' durations, and the end of a canvas (chapters 03, 04, 07). -/

namespace Sys2Proof.Machine

/-! ### Threads and contexts -/

/-- Thread n. -/
def Dev.thread (d : Dev) (n : Nat) : Thread := tabGet {} d.eas.threads n

/-- Changes a thread. -/
def Dev.setThread (d : Dev) (n : Nat) (t : Thread) : Dev :=
  { d with eas := { d.eas with threads := tabSet {} d.eas.threads n t } }

/-- The tile on whose lands a thread plays: its objects keep their index on a spare (R428). -/
def tileOf (n : Nat) : Nat := n / 64

/-- The easel that runs a thread's canvas (R147). -/
def Dev.runEasel (d : Dev) (n : Nat) : Nat := d.rd (unitKey 0x400002 n)

/-- LOOKAHEAD of the easel that runs a thread. -/
def Dev.lookahead (d : Dev) (n : Nat) : Nat := d.rd (unitKey 0x440003 (d.runEasel n))

/-- The context that a reference names: the thread's own, or one of its live paths'. -/
def Thread.ctx (t : Thread) (p : Option Nat) : Option Ctx :=
  match p with
  | none => some t.main
  | some i => (t.paths.find? (·.id == i)).map (·.ctx)

/-- Changes a context. -/
def Thread.setCtx (t : Thread) (p : Option Nat) (c : Ctx) : Thread :=
  match p with
  | none => { t with main := c }
  | some i => { t with paths := t.paths.map fun q => if q.id == i then { q with ctx := c } else q }

/-- Changes a context of the device. -/
def Dev.setCtx (d : Dev) (x : CtxRef) (c : Ctx) : Dev := d.setThread x.n ((d.thread x.n).setCtx x.path c)

/-- SHOT_START of the shot that a thread plays (R96). -/
def Dev.shotTick (d : Dev) (n : Nat) : Nat :=
  match d.jobOfThread n with
  | some j => if j.phase = .shot then j.shotStart else j.nextStart.getD 0
  | none => 0

/-- A thread can issue in a context (R97, R115, R136, R310): it has begun the shot, has not ended, is in no trap
handler, the context is not held by a control-store restore, and the thread's own context stands still while paths
are live. -/
def Dev.canIssue (d : Dev) (x : CtxRef) (c : Ctx) : Bool :=
  let t := d.thread x.n
  t.active && !t.ended && t.inTrap.isNone && !c.csBlock && decide (d.shotTick x.n ≤ d.epoch + 96)
    && (x.path.isSome || t.paths.isEmpty)

/-- A pending interrupt trap other than DRAIN would be taken at the next trap point (R132, R323). -/
def Thread.trapDue (t : Thread) : Bool := t.traps.contains 2 && t.branches.isEmpty

/-- A thread flag is set and counted; in a sketch path it is held with the path (R322). -/
def Dev.ctxFlag (d : Dev) (x : CtxRef) (c : Ctx) (key bit : Nat) : Dev × Ctx :=
  if x.path.isSome then (d, { c with flags := c.flags ++ [(key, bit, 1)] }) else (d.flag key bit, c)

/-- COMMIT_MARGIN of a sketch-mode branch that takes its decision now, T_b − T_c (R325); in a sketch path it is held with
the path (R322), under the key 1. -/
def Dev.commitMargin (d : Dev) (x : CtxRef) (c : Ctx) (tb : Nat) : Dev × Ctx :=
  let v := toU 32 ((tb : Int) - d.epoch)
  if x.path.isSome then (d, { c with flags := c.flags ++ [(1, v, 0)] }) else (d.wr (unitKey 0x400046 x.n) v, c)

/-- V[i]. -/
def Ctx.vr (c : Ctx) (i : Nat) : W32 := tabGet 0 c.v i

/-- Writes V[i]. -/
def Ctx.setV (c : Ctx) (i : Nat) (w : W32) : Ctx := { c with v := tabSet 0 c.v i w }

/-- CURSOR never decreases (R95). -/
def Ctx.advance (c : Ctx) (t : Nat) : Ctx := { c with cursor := max c.cursor t }

/-! ### Canvas operations as words (R101, R105) -/

/-- The header of an operation with opcode `opc`. -/
def hdrBits (opc : Nat) (h : Hdr) : Nat :=
  opc + 2 ^ 8 * h.tm.toNat + (if h.adv then 2 ^ 10 else 0) + (if h.vdt then 2 ^ 11 else 0) + 2 ^ 12 * h.vix.toNat
    + 2 ^ 16 * h.dt.toNat

/-- A Bool as a bit at a position. -/
def bitAt (b : Bool) (i : Nat) : Nat := if b then 2 ^ i else 0

/-- The word of a PLAY with an opcode header value. -/
def playBits (hd : Nat) (tgt : BitVec 4) (gen : Bool) (gsel : BitVec 5) (daddr : BitVec 22) (amp pofs : BitVec 16)
    (frame : BitVec 2) (fine : BitVec 5) : Nat :=
  hd + 2 ^ 32 * tgt.toNat + bitAt gen 36 + 2 ^ 37 * gsel.toNat + 2 ^ 42 * daddr.toNat + 2 ^ 64 * amp.toNat
    + 2 ^ 80 * pofs.toNat + 2 ^ 96 * frame.toNat + 2 ^ 98 * fine.toNat

/-- The word of a READ. -/
def readBits (hd : Nat) (gen : Bool) (gsel : BitVec 5) (daddr : BitVec 22) (amp wlen : BitVec 16) (frame : BitVec 2)
    (ksel : BitVec 4) (dtag : BitVec 8) : Nat :=
  hd + bitAt gen 36 + 2 ^ 37 * gsel.toNat + 2 ^ 42 * daddr.toNat + 2 ^ 64 * amp.toNat + 2 ^ 80 * wlen.toNat
    + 2 ^ 96 * frame.toNat + 2 ^ 98 * ksel.toNat + 2 ^ 102 * dtag.toNat

/-- The word of a frame update. -/
def frameBits (hd : Nat) (frame : BitVec 2) (fk : Bool) (v : W48) : Nat :=
  hd + 2 ^ 32 * frame.toNat + bitAt fk 34 + 2 ^ 48 * v.toNat

/-- A canvas operation as its 128 bits (R101, R105). -/
def encodeOp : COp → W128
  | .nop h => BitVec.ofNat 128 (hdrBits 0x00 h)
  | .play h tgt gen gsel daddr amp pofs frame fine =>
    BitVec.ofNat 128 (playBits (hdrBits 0x01 h) tgt gen gsel daddr amp pofs frame fine)
  | .read h gen gsel daddr amp wlen frame ksel dtag =>
    BitVec.ofNat 128 (readBits (hdrBits 0x02 h) gen gsel daddr amp wlen frame ksel dtag)
  | .fluxhold h tgt value => BitVec.ofNat 128 (hdrBits 0x04 h + 2 ^ 32 * tgt.toNat + 2 ^ 48 * value.toNat)
  | .fshift h frame fk pinc => BitVec.ofNat 128 (frameBits (hdrBits 0x08 h) frame fk pinc)
  | .ffreq h frame fk freq => BitVec.ofNat 128 (frameBits (hdrBits 0x09 h) frame fk freq)
  | .fphase h frame fk phase => BitVec.ofNat 128 (frameBits (hdrBits 0x0A h) frame fk phase)
  | .fshiftv h frame fk vsrc =>
    BitVec.ofNat 128 (hdrBits 0x0B h + 2 ^ 32 * frame.toNat + bitAt fk 34 + 2 ^ 36 * vsrc.toNat)
  | .wait h => BitVec.ofNat 128 (hdrBits 0x10 h)
  | .waituntil h t48 => BitVec.ofNat 128 (hdrBits 0x11 h + 2 ^ 32 * t48.toNat)
  | .barrier h mask => BitVec.ofNat 128 (hdrBits 0x12 h + 2 ^ 32 * mask.toNat)
  | .waitev h eline => BitVec.ofNat 128 (hdrBits 0x13 h + 2 ^ 32 * eline.toNat)
  | .acqtrig h swtrig => BitVec.ofNat 128 (hdrBits 0x19 h + 2 ^ 32 * swtrig.toNat)
  | .mark h mki tset level =>
    BitVec.ofNat 128 (hdrBits 0x20 h + 2 ^ 32 * mki.toNat + 2 ^ 35 * tset.toNat + bitAt level 38)
  | .event h eline => BitVec.ofNat 128 (hdrBits 0x21 h + 2 ^ 32 * eline.toNat)
  | .branch h dh sk t0 t1 t2 t3 =>
    BitVec.ofNat 128 (hdrBits 0x28 h + 2 ^ 32 * dh.toNat + bitAt sk 36 + 2 ^ 64 * t0.toNat + 2 ^ 80 * t1.toNat
      + 2 ^ 96 * t2.toNat + 2 ^ 112 * t3.toNat)
  | .goto h caddr => BitVec.ofNat 128 (hdrBits 0x29 h + 2 ^ 32 * caddr.toNat)
  | .loop h vc tofs => BitVec.ofNat 128 (hdrBits 0x2A h + 2 ^ 32 * vc.toNat + 2 ^ 64 * tofs.toNat)
  | .jseg h tgt daddr => BitVec.ofNat 128 (hdrBits 0x2C h + 2 ^ 32 * tgt.toNat + 2 ^ 42 * daddr.toNat)
  | .setv h vd value => BitVec.ofNat 128 (hdrBits 0x30 h + 2 ^ 32 * vd.toNat + 2 ^ 64 * value.toNat)
  | .addv h vd value => BitVec.ofNat 128 (hdrBits 0x31 h + 2 ^ 32 * vd.toNat + 2 ^ 64 * value.toNat)
  | .greset h gsel => BitVec.ofNat 128 (hdrBits 0x38 h + 2 ^ 32 * gsel.toNat)
  | .endc h => BitVec.ofNat 128 (hdrBits 0x3F h)
  | .customer h k fields => BitVec.ofNat 128 (hdrBits (0xC0 + k.toNat) h + 2 ^ 32 * fields.toNat)

/-- Bits [hi:lo] of an operation word. -/
def fld (w : W128) (hi lo : Nat) : Nat := bits w.toNat hi lo

/-- The bits [hi:lo] of a word kept in their place. -/
def keepBits (w : W128) (hi lo : Nat) : Nat := 2 ^ lo * fld w hi lo

/-- The fields of a launch entry of a kind, laid out as the canvas operation of that kind (R105, R119, R128): its header
is ignored, but for the OPC of a FRAME entry, which chooses the layout. -/
def entryFields : LKind → List (Nat × Nat)
  | .stroke => [(35, 32), (63, 36), (102, 64)]
  | .read => [(63, 36), (109, 64)]
  | .fluxhold => [(35, 32), (63, 48)]
  | .frame => [(7, 0), (34, 32), (95, 48)]
  | .mark => [(38, 32)]
  | .event => [(35, 32)]
  | .acqtrig => [(34, 32)]
  | .segjump => [(35, 32), (63, 42)]

/-- A word as a launch entry of a kind: what lies outside its fields is ignored. -/
def entryBody (k : LKind) (w : W128) : W128 := BitVec.ofNat 128 ((entryFields k).map fun p => keepBits w p.1 p.2).sum

/-! ### Strokes' durations (R160 to R163) -/

/-- LEN of a descriptor. -/
def segLen (w : W128) : Nat := fld w 51 32

/-- Whether a segment keeps the segment rule (R160). -/
def keepsRule (w : W128) : Bool := segLen w % 16 == 0 && decide (64 ≤ segLen w)

/-- Ticks of one play of a segment (R163). -/
def playTicks (w : W128) : Nat := if keepsRule w then segLen w / 2 else 24 + 8 * ceilDiv (segLen w) 16

/-- The segments of a chain from a start tick: (first tick, descriptor, plays, ticks of one play), and the tick at
which the chain ends. `ok` says which descriptors may be read (R151). The fuel bounds the number of descriptors (R149,
R154). -/
def chainFrom (ok : Nat → Bool) (desc : Tab W128) : Nat → Nat → Nat → List (Nat × Nat × Nat × Nat) × Nat
  | 0, _, start => ([], start)
  | fuel + 1, addr, start =>
    if !ok addr then ([], start)
    else
      let w := tabGet 0 desc addr
      let plays := fld w 79 64 + 1
      let stop := start + plays * playTicks w
      if fld w 102 102 = 1 then ([(start, addr, plays, playTicks w)], stop)
      else
        let r := chainFrom ok desc fuel (fld w 101 80) stop
        ((start, addr, plays, playTicks w) :: r.1, r.2)

/-- Whether an entry lies in a PROGRAM (0) or SEGMENT (1) region of the job on a thread (R151). -/
def Dev.inRegion (d : Dev) (n kind a : Nat) : Bool :=
  match d.jobOfThread n with
  | some j => j.held.regions.any fun r => r.2.1 == kind && decide (r.2.2.1 ≤ a ∧ a ≤ r.2.2.2)
  | none => false

/-- The chain at a descriptor address for a thread, from a start tick. Descriptors are read from SEGMENT regions of the
thread's job alone (R151). DESIGN CHOICE (log entry 114): an address outside them, which only a routine can name, ends the
chain. -/
def Dev.chain (d : Dev) (n addr start : Nat) : List (Nat × Nat × Nat × Nat) × Nat :=
  chainFrom (d.inRegion n 1) d.eas.desc 4194304 addr start

/-- The played duration of a chain in ticks (R163). -/
def Dev.duration (d : Dev) (n addr : Nat) : Nat := (d.chain n addr 0).2

/-! ### Address generators (R176 to R182) -/

/-- The definition bound to a slot of a thread; none when there is no binding. -/
def Dev.genDef (d : Dev) (n g : Nat) : Option GenDef :=
  let b := d.rd (unitKey 0x4A0001 n + g)
  if b = 0xFFFF then none
  else some {
    kind := d.rd (unitKey 0x4C0001 b), base := d.rd (unitKey 0x4C0002 b), p1 := d.rd (unitKey 0x4C0003 b),
    p2 := d.rd (unitKey 0x4C0004 b), p3 := d.rd (unitKey 0x4C0005 b), p4 := d.rd (unitKey 0x4C0006 b),
    mode := d.rd (unitKey 0x4C0007 b) }

/-- The address of a step (R177), from its index and LFSR state. -/
def genAddr (g : GenDef) (i s : Nat) : Nat :=
  let off : Int :=
    match g.kind with
    | 1 =>
      if g.p2 = 0 then (i % g.p1 : Nat)
      else if g.p2 = 1 then (g.p1 - 1 - i % g.p1 : Nat)
      else
        let j := i % (2 * g.p1)
        if j < g.p1 then (j : Nat) else (2 * g.p1 - 1 - j : Nat)
    | 2 => (i % g.p1 : Nat) * sext 32 g.p2 + (i / g.p1 % g.p3 : Nat) * sext 32 g.p4
    | 3 =>
      let k := i % 2 ^ g.p1
      (Nat.xor k (k / 2) * g.p2 : Nat)
    | 4 => (s * g.p4 / 2 ^ g.p1 : Nat)
    | _ => 0
  toU 22 ((g.base : Int) + off)

/-- The LFSR state after a step (R178). -/
def genNext (g : GenDef) (s : Nat) : Nat :=
  if g.kind = 4 then if s % 2 = 1 then Nat.xor (s / 2) g.p2 else s / 2 else s

/-- A generator steps: its address, and the context with the new position (R177). A slot without a binding gives 0,
which placement excludes (R179). -/
def Dev.genStep (d : Dev) (n : Nat) (c : Ctx) (g : Nat) : Nat × Ctx :=
  match d.genDef n g with
  | none => (0, c)
  | some df =>
    let p := tabGet (0, 0) c.gens g
    (genAddr df p.1 p.2, { c with gens := tabSet (0, 0) c.gens g ((p.1 + 1) % 2 ^ 32, genNext df p.2) })

/-! ### Launch entries (R116 to R119, R313) -/

/-- The lead of a launch kind in ticks (R118). -/
def LKind.lead : LKind → Nat
  | .stroke => 60
  | .read => 60
  | .fluxhold => 12
  | .frame => 6
  | .mark => 6
  | .acqtrig => 6
  | .event => 3
  | .segjump => 0

/-- Whether the launch queue of a thread is full (R117). -/
def Thread.queueFull (t : Thread) : Bool := decide (32 ≤ t.launch.length)

/-- The launches that a context has issued in the shot, those of the paths it lies in included (R119, R322). -/
def Thread.history (t : Thread) : Nat → Option Nat → List (LKind × Nat × W128)
  | 0, _ => t.main.issued
  | fuel + 1, p =>
    match p with
    | none => t.main.issued
    | some i =>
      match t.paths.find? (·.id == i) with
      | none => t.main.issued
      | some q => q.ctx.issued ++ t.history fuel q.parent

/-- The branch tick of a path (R313); 0 outside paths. -/
def Thread.pathTb (t : Thread) (p : Option Nat) : Nat :=
  match p.bind fun i => t.paths.find? (·.id == i) with
  | none => 0
  | some q => ((t.branches.find? (·.id == q.branch)).map (·.tb)).getD 0

/-- A frame update as its effect on (FREQ, VPH) (R211): opcode 0x08 FSHIFT, 0x09 FFREQ, 0x0A FPHASE. DESIGN CHOICE (log entry
137): a FRAME entry with another OPC, for which no layout is given, leaves the frame as it is. -/
def frameUpdate (w : W128) (f : W48 × W48) : W48 × W48 :=
  let v := BitVec.ofNat 48 (fld w 95 48)
  match fld w 7 0 with
  | 0x08 => (f.1, f.2 + v)
  | 0x09 => (v, f.2)
  | 0x0A => (f.1, v)
  | _ => f

/-- The index of a frame of a thread: 8n + 4·FK + FRAME. -/
def frameIdx (n fk f : Nat) : Nat := 8 * n + 4 * fk + f

/-- A frame. -/
def Dev.frame (d : Dev) (i : Nat) : Frame := tabGet {} d.out.frames i

/-! ### Sketch pages (R316 to R320) -/

/-- The pages that a thread's paths occupy. -/
def Thread.pagesUsed (t : Thread) : Nat := t.pages.length + (t.paths.map (·.pages.length)).sum

/-- The pages in use on a tile. -/
def Dev.tilePages (d : Dev) (k : Nat) : Nat := ((List.range 64).map fun i => (d.thread (64 * k + i)).pagesUsed).sum

/-- PAGES_PEAK of a tile follows the pages in use (R325). -/
def Dev.pagesPeak (d : Dev) (n : Nat) : Dev :=
  let k := tileOf n
  if d.rd (unitKey 0x446002 k) < d.tilePages k then d.wr (unitKey 0x446002 k) (min (d.tilePages k) 255) else d

/-- PAGES_PEAK counts from the start of a job (R325). DESIGN CHOICE (log entry 140): the job that starts last on the tile, with the
pages in use as it starts. -/
def Dev.restartPeaks (d : Dev) (j : Job) : Dev :=
  (j.held.canvases.map (·.tile)).dedup.foldl (fun e k => e.wr (unitKey 0x446002 k) (min (e.tilePages k) 255)) d

/-- A path has a page for a target on which it plays within its horizon (R316, R317). Entries of a path that has merged into
it keep theirs (R315). -/
def Thread.takePage (t : Thread) (p tgt tb : Nat) : Thread :=
  { t with paths := t.paths.map fun q =>
      if q.id == p && !(q.pages.any fun g => g.tgt == tgt && g.owner == p) then
        { q with pages := q.pages ++ [{ tgt := tgt, tb := tb, owner := p }] }
      else q }

/-- The page that an entry renders into: a path's STROKE or READ that launches before the horizon; the other kinds take none
(R316, R317). -/
def pageFor (kind : LKind) (path : Option Nat) (tick tb : Nat) : Option Nat :=
  if (kind = .stroke ∨ kind = .read) ∧ tick < tb + 64 then path else none

/-- An entry takes its page. -/
def Dev.takePage (d : Dev) (n tb : Nat) (e : LEntry) : Dev :=
  match e.page with
  | none => d
  | some p => (d.setThread n ((d.thread n).takePage p (if e.kind = .read then 1 else fld e.w 35 32) tb)).pagesPeak n

/-- The pages of squashed paths, which are free from the next tick on (R320). -/
def deadPages (l : List SPath) : List Page := l.flatMap fun p => p.pages.map fun g => { g with dead := true }

/-! ### The edge schedulers (R231 to R234, R322) -/

/-- A marker beside its objects. -/
def Dev.marker (d : Dev) (m : Nat) : Marker := tabGet {} d.out.markers m

/-- Changes a marker. -/
def Dev.setMarker (d : Dev) (m : Nat) (k : Marker) : Dev :=
  { d with out := { d.out with markers := tabSet {} d.out.markers m k } }

/-- The pin that a MARK of a thread names. -/
def markPin (n : Nat) (w : W128) : Nat := 8 * tileOf n + fld w 34 32

/-- The change that a MARK entry schedules (R232). -/
def Dev.markChange (d : Dev) (n : Nat) (e : LEntry) : MChange :=
  let ts := d.rd (objKey (0x3A00 + markPin n e.w) (1 + fld e.w 37 35))
  let level := fld e.w 38 38 == 1
  { step := 128 * (e.tick + 18) + (if level then bits ts 10 0 else bits ts 22 12), level := level, n := n, ord := e.ord,
    path := e.path }

/-- Whether the edge scheduler of a MARK's pin has no place for it (R233). -/
def Dev.marksFull (d : Dev) (n : Nat) (w : W128) : Bool := decide (8 ≤ (d.marker (markPin n w)).changes.length)

/-- A change enters the edge scheduler of its pin. -/
def Dev.addMark (d : Dev) (n : Nat) (e : LEntry) : Dev :=
  let k := d.marker (markPin n e.w)
  d.setMarker (markPin n e.w) { k with changes := k.changes ++ [d.markChange n e] }

/-- What a thread's paths have scheduled changes with the paths (R322). -/
def Dev.pathMarks (d : Dev) (n : Nat) (f : Nat → Option (Option Nat)) : Dev :=
  { d with out := { d.out with markers := d.out.markers.map fun p =>
      (p.1, { p.2 with changes := p.2.changes.filterMap fun c =>
        match c.path with
        | some i => if c.n = n then (f i).map fun q => { c with path := q } else some c
        | none => some c }) } }

/-- A thread issues a launch entry in a context. A repeat of an entry already issued in the shot is discarded (R119).
In a path an entry does not launch before the branch tick (R313). An entry that misses its lead launches at its
arrival plus the lead (R118). A path's shadow frames follow its frame updates, its strokes have pages, and its marker changes
occupy the edge scheduler (R316, R322). DEDUCED (log entry 122): a path's MARK that finds the scheduler full is discarded as
it is issued, its flag and mark held with the path. -/
def Dev.issue (d : Dev) (x : CtxRef) (c : Ctx) (kind : LKind) (w : W128) (req : Nat) : Dev × Ctx :=
  let t := d.thread x.n
  if (t.history 3 x.path).contains (kind, req, w) ∨ c.issued.contains (kind, req, w) then
    d.ctxFlag x c (unitKey 0x400007 x.n) 3
  else
    let tb := t.pathTb x.path
    let early := x.path.isSome && decide (req < tb)
    let want := if early then tb else req
    let late := decide (want < d.epoch + kind.lead)
    let tick := if late then d.epoch + kind.lead else want
    let e : LEntry :=
      { kind := kind, w := w, req := req, tick := tick, late := late, path := x.path, ord := t.nextOrd
        page := pageFor kind x.path tick tb }
    let c1 := { c with issued := c.issued ++ [(kind, req, w)] }
    let c2 :=
      if kind = .frame ∧ x.path.isSome then
        let i := 4 * fld w 34 34 + fld w 33 32
        let cur := (tabGet none c1.shadow i).getD
          ((d.frame (8 * x.n + i)).freq, (d.frame (8 * x.n + i)).vph)
        { c1 with shadow := tabSet none c1.shadow i (some (frameUpdate w cur)) }
      else c1
    let d1 := (d.setThread x.n { t with launch := t.launch ++ [e], nextOrd := t.nextOrd + 1 }).takePage x.n tb e
    let r := if early then d1.ctxFlag x c2 0x200004 11 else (d1, c2)
    if kind = .mark ∧ x.path.isSome then
      if d.marksFull x.n w then
        let m := d.ctxFlag x r.2 (objKey (0x3A00 + markPin x.n w) 0x0C) 2
        (d, { m.2 with flags := m.2.flags ++ [(0, 0, 1)] })
      else (r.1.addMark x.n e, r.2)
    else r

/-! ### End of a canvas -/

/-- Every sketch path of a thread goes, and what it held: nothing of it reaches a land, an object or a counter
(R322). Marker changes of paths leave the edge schedulers. -/
def Dev.squashAll (d : Dev) (n : Nat) : Dev :=
  let t := d.thread n
  (d.setThread n { t with
    paths := [], pages := t.pages ++ deadPages t.paths, branches := [], launch := t.launch.filter fun e => e.path.isNone }).pathMarks n fun _ => none

/-- The canvas of a thread ends: queue and paths go; what is in the launch queue launches (R98). -/
def Dev.endCanvas (d : Dev) (n : Nat) : Dev :=
  let d1 := d.squashAll n
  let t := d1.thread n
  d1.setThread n { t with
    ended := true
    main := { t.main with
      queue := [], running := false, wait := .ready, waitc := none, svc := none, chk := none } }

/-- The DRAIN handler (R132): the canvas ends, and entries whose launch tick lies more than their lead ahead go. -/
def Dev.drainThread (d : Dev) (n : Nat) : Dev :=
  let d1 := d.endCanvas n
  let t := d1.thread n
  d1.setThread n { t with
    launch := t.launch.filter (fun e => decide (e.tick ≤ d.epoch + e.kind.lead)), traps := [], inTrap := none,
    main := { t.main with mic := {}, chk := none, csBlock := false } }

/-! ### Trap points (R121, R130) -/

/-- Bits [hi:lo] of a microword. -/
def mf (w : W192) (hi lo : Nat) : Nat := bits w.toNat hi lo

/-- The word of the control store at a micro-address (R121, R140, R141): the vendor's words below 0x3000, whose contents no
rule gives, and the customer store. The device writes the ECC field. -/
def Dev.storeWord (d : Dev) (a : Nat) : W192 :=
  let w := (if a < 0x3000 then Config.vendorWord a else tabGet 0 d.eas.cust (a - 0x3000)).setWidth 183
  Config.storeEcc w ++ w

/-- A context stands at a trap point (R130): before the entry word of an operation it has dispatched, or before a word with
TP = 1. -/
def Dev.atPoint (d : Dev) (c : Ctx) : Bool :=
  c.entry || (c.running && c.svc.isNone && c.waitc.isNone && mf (d.storeWord c.mic.mpc) 115 115 == 1)

/-- Whether a thread's own context stands at a trap point. -/
def Dev.atTrapPoint (d : Dev) (n : Nat) : Bool := d.atPoint (d.thread n).main

/-- A DRAIN trap of a thread (R132, R135, R136, R634): taken before it issues another microword; in a trap handler at TRET, and
after a pending SNAPSHOT of a thread that stands at a trap point, which has the higher code.
A thread that has executed END has no canvas left to end, and loses its later launch entries all the same. -/
def Dev.drainTrap (d : Dev) (n : Nat) : Dev :=
  let t := d.thread n
  if !t.active then d
  else if t.ended then
    d.setThread n { t with launch := t.launch.filter fun e => decide (e.tick ≤ d.epoch + e.kind.lead) }
  else if t.inTrap.isSome || (t.trapDue && d.atTrapPoint n) then d.setThread n { t with traps := if t.traps.contains 1 then t.traps else 1 :: t.traps }
  else d.drainThread n

/-- A program fault ends the canvas and the shot is SPOILED (R135). -/
def Dev.programFault (d : Dev) (n bit : Nat) : Dev := ((d.flag (unitKey 0x400007 n) bit).endCanvas n).spoilThread n

/-- A thread is done with its shot (R98). -/
def Thread.finished (t : Thread) : Bool := t.ended && t.launch.isEmpty

end Sys2Proof.Machine
end

