-- ==== Sys2Proof/Machine/Canvas.lean ====
section
/-! DEFINITION. Canvas operations (R101 to R112, R309 to R312): dispatch, the action of every opcode, and the
prefetcher. -/

namespace Sys2Proof.Machine

/-! ### Queue and dispatch -/

/-- The operation queued at an address. -/
def Ctx.opAt (c : Ctx) (a : Nat) : Option W128 := (c.queue.find? (·.1 == a)).map (·.2)

/-- The queued operations that follow one another from an address (fuel: the 16 places of the queue, R108). -/
def contigFrom (q : List (Nat × W128)) : Nat → Nat → List (Nat × W128)
  | 0, _ => []
  | fuel + 1, a =>
    match q.find? (·.1 == a) with
    | some p => p :: contigFrom q fuel ((a + 1) % 2 ^ 22)
    | none => []

/-- The entry addresses of the paths that a transfer at an address can take (R109): every outcome of BRANCH, GOTO's CADDR, and
LOOP's target and the entry after it. -/
def transferTargets (a : Nat) (w : W128) : List Nat :=
  let rel : Nat → Nat := fun lo => toU 22 ((a : Int) + sext 16 (fld w (lo + 15) lo))
  match fld w 7 0 with
  | 0x28 => [rel 64, rel 80, rel 96, rel 112]
  | 0x29 => [fld w 53 32]
  | 0x2A => [rel 64, (a + 1) % 2 ^ 22]
  | _ => []

/-- The entry after an operation in program order; none after GOTO and END. -/
def nextEntry (a : Nat) (w : W128) : List Nat :=
  if fld w 7 0 = 0x29 ∨ fld w 7 0 = 0x3F then [] else [(a + 1) % 2 ^ 22]

/-- The held addresses that a path from some addresses can reach over held operations (fuel: the 16 places). -/
def reachFrom (q : List (Nat × W128)) : Nat → List Nat → List Nat
  | 0, l => l
  | fuel + 1, l =>
    let on := (q.filter fun (p : Nat × W128) => l.contains p.1).flatMap fun (p : Nat × W128) =>
      let ts := transferTargets p.1 p.2
      nextEntry p.1 p.2 ++ ts ++ ts.map fun t => (t + 1) % 2 ^ 22
    reachFrom q fuel (l ++ on).dedup

/-- The thread goes on with the next entry. -/
def Ctx.fall (c : Ctx) : Ctx :=
  { c with queue := c.queue.filter (·.1 != c.cpc), cpc := (c.cpc + 1) % 2 ^ 22, wait := .ready }

/-- A transfer resolves (R110): the entries of the paths not taken go, and the held operations of the path taken stay,
those of its later transfers included. -/
def Ctx.jumpTo (c : Ctx) (a : Nat) : Ctx :=
  let q := if a = c.cpc then c.queue else c.queue.filter (·.1 != c.cpc)
  let kept := reachFrom q 16 [a]
  { c with cpc := a, queue := q.filter fun p => kept.contains p.1, wait := .ready }

/-- CPC plus an entry offset (R105). -/
def Ctx.target (c : Ctx) (ofs : BitVec 16) : Nat := toU 22 ((c.cpc : Int) + ofs.toInt)

/-- The launch tick of an operation (R102). -/
def Dev.launchTick (d : Dev) (n : Nat) (c : Ctx) (h : Hdr) : Nat :=
  (if h.tm = 1 then d.shotTick n else c.cursor) + (if h.vdt then (c.vr h.vix.toNat).toNat else h.dt.toNat)

/-- A context that a new word or operation can issue in: nothing but time, the queue or the launch queue holds it. -/
def Wait.open : Wait → Bool
  | .ready => true
  | .time => true
  | .queue => true
  | .launch => true
  | _ => false

/-- Whether a context is held by a sketch-mode branch that has opened paths in it. -/
def Thread.branching (t : Thread) (p : Option Nat) : Bool := t.branches.any (·.parent == p)

/-- A micro-scratch register. -/
def Ctx.sr (c : Ctx) (i : Nat) : W64 := tabGet 0 c.mic.s i

/-- Writes a micro-scratch register. -/
def Ctx.setS (c : Ctx) (i : Nat) (v : W64) : Ctx := { c with mic := { c.mic with s := tabSet 0 c.mic.s i v } }

/-- The launch entry in a scratch pair. -/
def Ctx.pair (c : Ctx) (i : Nat) : W128 := (c.sr (i + 1)) ++ (c.sr i)

/-- DISPATCH (R129 to R131): S0 to S2, the micro-PC at the entry word, and the checkpoint of the trap point before it. -/
def Ctx.load (c : Ctx) (w : W128) (t mpc : Nat) : Ctx :=
  let s0 := tabSet 0 c.mic.s 0 (w.setWidth 64)
  let s1 := tabSet 0 s0 1 ((w >>> 64).setWidth 64)
  let m := { c.mic with mpc := mpc, s := tabSet 0 s1 2 (BitVec.ofNat 64 t) }
  { c with mic := m, chk := some (m, c.gens), entry := true, wait := .ready }

/-- The micro-address of an opcode's entry word (R129). -/
def Dev.opEntry (d : Dev) (opc : Nat) : Nat :=
  if 0xC0 ≤ opc then d.rd (0x444101 + (opc - 0xC0)) else (Config.vendorEntry opc).toNat

/-- An operation is dispatched: a PLAY or READ with GEN = 1 steps its generator, which gives DADDR, and its words load
(R103, R129). DEDUCED (log entry 109): GEN is 0 in the words loaded, as R128 asks of the entry that they are. -/
def Dev.loadOp (d : Dev) (n : Nat) (c : Ctx) (w : W128) (t : Nat) : Ctx :=
  let gen := fld w 36 36 == 1 && (fld w 7 0 == 1 || fld w 7 0 == 2)
  let a := if gen then d.genStep n c (fld w 41 37) else (0, c)
  let w1 := if gen then BitVec.ofNat 128 (w.toNat - 2 ^ 36 - 2 ^ 42 * fld w 63 42 + 2 ^ 42 * a.1) else w
  a.2.load w1 t (d.opEntry (fld w 7 0))

/-- Why a launch must wait (R116): its tick lies beyond the lookahead, or the launch queue is full. -/
def Dev.launchHold (d : Dev) (n t : Nat) : Option Wait :=
  if d.epoch + d.lookahead n < t then some .time
  else if (d.thread n).queueFull then some .launch
  else none

/-- The routine of a dispatched operation runs, from the words in S0 to S2: one whose launch lies beyond the lookahead, or
that finds the launch queue full, waits (R116). `launches`: the operation issues a launch entry. -/
def Dev.routine (d : Dev) (x : CtxRef) (c : Ctx) (launches : Bool) (body : Dev → Ctx → Nat → Dev × Ctx) : Dev :=
  let lt := (c.sr 2).toNat
  match (if launches then d.launchHold x.n lt else none) with
  | some hold => d.setCtx x { c with wait := hold }
  | none =>
    let r := body d { c with entry := false } lt
    r.1.setCtx x r.2

/-- A thread dispatches an operation and runs its routine (R112, R115, R116, R129). An operation that has not reached the
queue makes the thread wait in WAIT_QUEUE; one whose CURSOR lies beyond the lookahead waits before its dispatch. A trap
that is pending is taken at the trap point before the entry word (R130). DESIGN CHOICE (log entry 110): a thread that lacks
its next operation waits in WAIT_QUEUE, with QUEUE_STARVE, even while its CURSOR lies beyond the lookahead as well. -/
def Dev.dispatch (d : Dev) (x : CtxRef) (op : COp) (h : Hdr) (launches : Bool)
    (body : Dev → Ctx → Nat → Dev × Ctx) : Dev :=
  let t := d.thread x.n
  match t.ctx x.path with
  | none => d
  | some c =>
    if !d.canIssue x c || c.running || !c.wait.open || t.branching x.path || (c.entry && t.trapDue) then d
    else
      match c.opAt c.cpc with
      | none =>
        if c.wait = .queue then d
        else
          let r := d.ctxFlag x c (unitKey 0x400007 x.n) 1
          r.1.setCtx x { r.2 with wait := .queue }
      | some w =>
        if w ≠ (encodeOp op) then d
        else if c.entry then d.routine x c launches body
        else if d.epoch + d.lookahead x.n < c.cursor then d.setCtx x { c with wait := .time }
        else
          let c1 := d.loadOp x.n c w (d.launchTick x.n c h)
          if t.trapDue then d.setCtx x c1 else d.routine x c1 launches body

/-- An operation that issues one launch entry (R116) and falls through. DESIGN CHOICE (log entry 136): ADV = 1 leaves CURSOR
where it is, since the header moves it to the end of what is launched and R105 gives these no duration. -/
def Dev.launchOp (d : Dev) (x : CtxRef) (op : COp) (h : Hdr) (kind : LKind) : Dev :=
  d.dispatch x op h true fun e c lt =>
    let r := e.issue x c kind (entryBody kind (c.pair 0)) lt
    (r.1, r.2.fall)

/-! ### Launching operations -/

/-- The flags that word P0 of the vendor PLAY routine writes: those of S0 AND 0x400, which tests ADV (R126, R129). -/
def Ctx.testAdv (c : Ctx) : Ctx :=
  let a := c.sr 0
  let r := a &&& 0x400
  { c with mic := { c.mic with
      z := r == 0, n := r.msb, cy := Config.aluCarryOpen 4 a 0x400, ov := Config.aluOverflowOpen 4 a 0x400 } }

/-- PLAY (R105) by the words of the vendor routine (R129): P0 launches the stroke and tests ADV; with ADV, P1 writes the
duration to S4 and P2 moves S3 and CURSOR to the end of the stroke. -/
def opPlayOp (x : CtxRef) (h : Hdr) (tgt : BitVec 4) (gen : Bool) (gsel : BitVec 5) (daddr : BitVec 22)
    (amp pofs : BitVec 16) (frame : BitVec 2) (fine : BitVec 5) (d : Dev) : Dev :=
  d.dispatch x (.play h tgt gen gsel daddr amp pofs frame fine) h true fun e c lt =>
    let r := e.issue x c .stroke (entryBody .stroke (c.pair 0)) lt
    let c1 := r.2.testAdv
    let len := e.duration x.n (fld (c.pair 0) 63 42)
    let c2 := if h.adv then
        ((c1.setS 4 (BitVec.ofNat 64 len)).setS 3 (BitVec.ofNat 64 (lt + len))).advance (lt + len)
      else c1
    (r.1, c2.fall)

/-- READ (R105). -/
def opReadOp (x : CtxRef) (h : Hdr) (gen : Bool) (gsel : BitVec 5) (daddr : BitVec 22) (amp wlen : BitVec 16)
    (frame : BitVec 2) (ksel : BitVec 4) (dtag : BitVec 8) (d : Dev) : Dev :=
  d.dispatch x (.read h gen gsel daddr amp wlen frame ksel dtag) h true fun e c lt =>
    let r := e.issue x c .read (entryBody .read (c.pair 0)) lt
    let c1 := if h.adv then r.2.advance (lt + wlen.toNat) else r.2
    (r.1, c1.fall)

/-- FSHIFTV (R211): issued as the FSHIFT entry whose PINC is V[VSRC] × 2^16, read now. -/
def opFshiftvOp (x : CtxRef) (h : Hdr) (frame : BitVec 2) (fk : Bool) (vsrc : BitVec 4) (d : Dev) : Dev :=
  d.dispatch x (.fshiftv h frame fk vsrc) h true fun e c lt =>
    let pinc := BitVec.ofNat 48 ((c.vr vsrc.toNat).toNat * 2 ^ 16)
    let r := e.issue x c .frame (entryBody .frame (encodeOp (COp.fshift h frame fk pinc))) lt
    (r.1, r.2.fall)

/-! ### Time -/

/-- WAIT (R105). -/
def opWaitOp (x : CtxRef) (h : Hdr) (d : Dev) : Dev :=
  d.dispatch x (.wait h) h false fun e c lt => (e, (c.advance lt).fall)

/-- WAITUNTIL (R105). -/
def opWaituntilOp (x : CtxRef) (h : Hdr) (t48 : W48) (d : Dev) : Dev :=
  d.dispatch x (.waituntil h t48) h false fun e c _ => (e, (c.advance (e.shotTick x.n + t48.toNat)).fall)

/-- The threads that a mask names on the easel of a thread (R105). -/
def maskThreads (n mask : Nat) : List Nat := (onesOf 16 mask).map fun i => 16 * (n / 16) + i

/-- Whether a thread has arrived at a BARRIER: in its own context, with no live path (R711). -/
def Thread.arrived (t : Thread) : Bool :=
  t.paths.isEmpty && (match t.main.wait with | .barrier _ => true | _ => false)

/-- The last thread of a mask has arrived: each sets CURSOR to the largest (R105). -/
def Dev.releaseBarrier (d : Dev) (n mask : Nat) : Dev :=
  let ns := maskThreads n mask
  if ns.all fun m => (d.thread m).arrived then
    let top := (ns.map fun m => (d.thread m).main.cursor).foldl max 0
    ns.foldl (fun e m => let t := e.thread m
      e.setThread m { t with main := (t.main.advance top).fall }) d
  else d

/-- BARRIER (R105, R711). -/
def opBarrierOp (x : CtxRef) (h : Hdr) (mask : BitVec 16) (d : Dev) : Dev :=
  let d1 := d.dispatch x (.barrier h mask) h false fun e c _ => (e, { c with wait := .barrier mask.toNat })
  if x.path.isNone && (d1.thread x.n).arrived then d1.releaseBarrier x.n mask.toNat else d1

/-- What an event line keeps. -/
def Dev.lineSt (d : Dev) (k : Nat) : LineSt := tabGet {} d.ev.lines k

/-- The canvas event line of a tile (R477). -/
def canvasLine (n eline : Nat) : Nat := 16 * tileOf n + eline

/-- WAITEV (R105): the first firing at or after arrival releases it. -/
def opWaitevOp (x : CtxRef) (h : Hdr) (eline : BitVec 4) (d : Dev) : Dev :=
  d.dispatch x (.waitev h eline) h false fun e c _ =>
    let k := canvasLine x.n eline.toNat
    let off := if h.vdt then (c.vr h.vix.toNat).toNat else h.dt.toNat
    if (e.lineSt k).lastFire = some e.epoch then (e, (c.advance (e.epoch + off)).fall)
    else (e, { c with wait := .event k e.epoch off })

/-! ### Branches -/

/-- The decision register of a handle as a context sees it: a decision that the context has consumed is gone (R322). -/
def Thread.full (t : Thread) (c : Ctx) (h : Nat) : Option DReg :=
  if c.consumed.contains h then none else tabGet none t.handles h

/-- A context consumes the decision of a handle (R305): a path marks it, the thread's own context empties it. -/
def Dev.consume (d : Dev) (x : CtxRef) (c : Ctx) (h : Nat) : Dev × Ctx :=
  if x.path.isSome then (d, { c with consumed := h :: c.consumed })
  else (d.setThread x.n { d.thread x.n with handles := tabSet none (d.thread x.n).handles h none }, c)

/-- BRANCH with SK = 0 (R106): it holds the thread until its decision commits. -/
def opBranchWaitOp (x : CtxRef) (h : Hdr) (dh : BitVec 4) (t0 t1 t2 t3 : BitVec 16) (d : Dev) : Dev :=
  d.dispatch x (.branch h dh false t0 t1 t2 t3) h false fun e c _ =>
    let off := if h.vdt then (c.vr h.vix.toNat).toNat else h.dt.toNat
    (e, { c with wait := .branch dh.toNat off ([t0, t1, t2, t3].map c.target) none })

/-- Opens one path for each distinct target (R309, R322). What the queue holds for a path goes with it. -/
def Dev.openPaths (d : Dev) (x : CtxRef) (c : Ctx) (h tb : Nat) (targets : List Nat) : Dev :=
  let t := d.thread x.n
  let bid := t.nextId
  let ds := targets.dedup
  let mk : Nat × Nat → SPath := fun p =>
    { id := bid + 1 + p.2, branch := bid, parent := x.path,
      outs := (List.range 4).filter fun o => targets[o]? == some p.1,
      ctx := { ((c.advance tb).jumpTo p.1) with issued := [], flags := [] } }
  d.setThread x.n { t with
    paths := t.paths ++ ds.zipIdx.map mk
    branches := t.branches ++
      [{ id := bid, h := h, tb := tb, targets := targets, parent := x.path, saved := { c with queue := [] } }]
    nextId := bid + 1 + ds.length }

/-- BRANCH with SK = 1 (R309 to R311). LIVE_PATHS and PENDING_DEC are read from the thread. -/
def opBranchSketchOp (x : CtxRef) (h : Hdr) (dh : BitVec 4) (t0 t1 t2 t3 : BitVec 16) (d : Dev) : Dev :=
  d.dispatch x (.branch h dh true t0 t1 t2 t3) h false fun e c lt =>
    let t := e.thread x.n
    let tb := max lt c.cursor
    let targets := [t0, t1, t2, t3].map c.target
    match t.full c dh.toNat with
    | some r =>
      let q := e.consume x c dh.toNat
      let p := q.1.commitMargin x q.2 tb
      (p.1, (p.2.advance tb).jumpTo (targets.getD r.outcome 0))
    | none =>
      if 2 ≤ t.branches.length ∨ 4 < t.paths.length + targets.dedup.length then
        let q := e.ctxFlag x c (unitKey 0x400041 x.n) 0
        (q.1, { q.2 with wait := .branch dh.toNat 0 targets (some tb) })
      else (e.openPaths x c dh.toNat tb targets, { c with queue := [] })

/-! ### Transfers and registers -/

/-- GOTO (R105). -/
def opGotoOp (x : CtxRef) (h : Hdr) (a : BitVec 22) (d : Dev) : Dev :=
  d.dispatch x (.goto h a) h false fun e c _ => (e, c.jumpTo a.toNat)

/-- LOOP (R105). -/
def opLoopOp (x : CtxRef) (h : Hdr) (vc : BitVec 4) (tofs : BitVec 16) (d : Dev) : Dev :=
  d.dispatch x (.loop h vc tofs) h false fun e c _ =>
    let v := c.vr vc.toNat - 1
    let c1 := c.setV vc.toNat v
    (e, c1.jumpTo (if v ≠ 0 then c.target tofs else (c.cpc + 1) % 2 ^ 22))

/-- SETV (R105). -/
def opSetvOp (x : CtxRef) (h : Hdr) (vd : BitVec 4) (v : W32) (d : Dev) : Dev :=
  d.dispatch x (.setv h vd v) h false fun e c _ => (e, (c.setV vd.toNat v).fall)

/-- ADDV (R105). -/
def opAddvOp (x : CtxRef) (h : Hdr) (vd : BitVec 4) (v : W32) (d : Dev) : Dev :=
  d.dispatch x (.addv h vd v) h false fun e c _ => (e, (c.setV vd.toNat (c.vr vd.toNat + v)).fall)

/-- GRESET (R182). -/
def opGresetOp (x : CtxRef) (h : Hdr) (g : BitVec 5) (d : Dev) : Dev :=
  d.dispatch x (.greset h g) h false fun e c _ =>
    let p := tabGet (0, 0) (e.thread x.n).genStart g.toNat
    (e, { c with gens := tabSet (0, 0) c.gens g.toNat p }.fall)

/-- END (R98): in a path the canvas ends when the path commits (R322). -/
def opEndOp (x : CtxRef) (h : Hdr) (d : Dev) : Dev :=
  let d1 := d.dispatch x (.endc h) h false fun e c _ => (e, { c with wait := .done })
  if x.path.isNone && (d1.thread x.n).main.wait == .done then d1.endCanvas x.n else d1

/-- A customer opcode (R129): its CUST_ENTRY routine begins. -/
def customerOp (x : CtxRef) (h : Hdr) (k : BitVec 6) (f : BitVec 96) (d : Dev) : Dev :=
  if d.rd (0x444101 + k.toNat) = 0 then d
  else
    d.dispatch x (.customer h k f) h false fun e c _ => (e, { c with entry := true, running := true }.fall)

/-! ### Prefetch -/

/-- The first two operations of each path of a transfer (R109): the entry it goes to and the one that follows it there,
which after a GOTO that is held is the GOTO's own target. -/
def firstTwo (q : List (Nat × W128)) (t : Nat) : List Nat :=
  t :: match q.find? (·.1 == t) with
    | some p => if fld p.2 7 0 = 0x29 then [fld p.2 53 32] else nextEntry t p.2
    | none => [(t + 1) % 2 ^ 22]

/-- What the transfers in a queue have the prefetcher hold (R109), those held as entries of a path included. -/
def pathEntries (q : List (Nat × W128)) : List Nat :=
  (q.flatMap fun p => (transferTargets p.1 p.2).flatMap (firstTwo q)).dedup

/-- The addresses that the prefetcher may fetch next for a context (R108, R109): the entry after the queued run in program
order, and the entries of every path. -/
def Ctx.wanted (c : Ctx) : List Nat :=
  let next := match (contigFrom c.queue 16 c.cpc).getLast? with
    | none => [c.cpc]
    | some p => nextEntry p.1 p.2
  next ++ pathEntries c.queue

/-- The entries that a thread's operation queue holds, for its own context and its paths (R108, R309). -/
def Thread.heldEntries (t : Thread) : List Nat :=
  ((t.main.queue ++ t.paths.flatMap (·.ctx.queue)).map (·.1)).dedup

/-- Whether the queue has a place for an entry at an address (R108, R109): the next operation of a path and the one at CPC
take any free place, another one in program order leaves the places that the paths still need, its own included. -/
def Thread.hasPlace (t : Thread) (c : Ctx) (a : Nat) (w : W128) : Bool :=
  let held := t.heldEntries
  if held.contains a then true
  else if a == c.cpc || (pathEntries c.queue).contains a then decide (held.length < 16)
  else
    let q := (a, w) :: c.queue
    let missing := (pathEntries q).filter fun b => b != a && !held.contains b
    decide (held.length + 1 + missing.length ≤ 16)

/-- PREFETCH (R108 to R112): a full queue pauses it. -/
def prefetchOp (x : CtxRef) (addr : BitVec 22) (d : Dev) : Dev :=
  let t := d.thread x.n
  match t.ctx x.path with
  | none => d
  | some c =>
    let a := addr.toNat
    if t.active && !t.ended && decide (d.shotTick x.n ≤ d.epoch + 96) && c.wanted.contains a && (c.opAt a).isNone
        && d.inRegion x.n 0 a && t.hasPlace c a (tabGet 0 d.eas.desc a) then
      d.setCtx x { c with
        queue := c.queue ++ [(a, tabGet 0 d.eas.desc a)]
        wait := if c.wait = .queue ∧ a = c.cpc then .ready else c.wait }
    else d

/-! ### Meanings -/

/-- NOP. -/
def execOpNop (x : CtxRef) (h : Hdr) (s : State) : Host.Outcome State Fault Refusal :=
  .next (s.onNow fun d => d.dispatch x (.nop h) h false fun e c _ => (e, c.fall))
/-- PLAY. -/
def execOpPlay (x : CtxRef) (h : Hdr) (tgt : BitVec 4) (gen : Bool) (gsel : BitVec 5) (daddr : BitVec 22)
    (amp pofs : BitVec 16) (frame : BitVec 2) (fine : BitVec 5) (s : State) : Host.Outcome State Fault Refusal :=
  .next (s.onNow (opPlayOp x h tgt gen gsel daddr amp pofs frame fine))
/-- CANVAS_READ. -/
def execOpRead (x : CtxRef) (h : Hdr) (gen : Bool) (gsel : BitVec 5) (daddr : BitVec 22) (amp wlen : BitVec 16)
    (frame : BitVec 2) (ksel : BitVec 4) (dtag : BitVec 8) (s : State) : Host.Outcome State Fault Refusal :=
  .next (s.onNow (opReadOp x h gen gsel daddr amp wlen frame ksel dtag))
/-- FLUXHOLD. -/
def execOpFluxhold (x : CtxRef) (h : Hdr) (tgt : BitVec 4) (v : BitVec 16) (s : State) :
    Host.Outcome State Fault Refusal := .next (s.onNow fun d => d.launchOp x (.fluxhold h tgt v) h .fluxhold)
/-- FSHIFT. -/
def execOpFshift (x : CtxRef) (h : Hdr) (frame : BitVec 2) (fk : Bool) (v : W48) (s : State) :
    Host.Outcome State Fault Refusal := .next (s.onNow fun d => d.launchOp x (.fshift h frame fk v) h .frame)
/-- FFREQ. -/
def execOpFfreq (x : CtxRef) (h : Hdr) (frame : BitVec 2) (fk : Bool) (v : W48) (s : State) :
    Host.Outcome State Fault Refusal := .next (s.onNow fun d => d.launchOp x (.ffreq h frame fk v) h .frame)
/-- FPHASE. -/
def execOpFphase (x : CtxRef) (h : Hdr) (frame : BitVec 2) (fk : Bool) (v : W48) (s : State) :
    Host.Outcome State Fault Refusal := .next (s.onNow fun d => d.launchOp x (.fphase h frame fk v) h .frame)
/-- FSHIFTV. -/
def execOpFshiftv (x : CtxRef) (h : Hdr) (frame : BitVec 2) (fk : Bool) (vsrc : BitVec 4) (s : State) :
    Host.Outcome State Fault Refusal := .next (s.onNow (opFshiftvOp x h frame fk vsrc))
/-- WAIT. -/
def execOpWait (x : CtxRef) (h : Hdr) (s : State) : Host.Outcome State Fault Refusal := .next (s.onNow (opWaitOp x h))
/-- WAITUNTIL. -/
def execOpWaituntil (x : CtxRef) (h : Hdr) (t48 : W48) (s : State) : Host.Outcome State Fault Refusal :=
  .next (s.onNow (opWaituntilOp x h t48))
/-- BARRIER. -/
def execOpBarrier (x : CtxRef) (h : Hdr) (mask : BitVec 16) (s : State) : Host.Outcome State Fault Refusal :=
  .next (s.onNow (opBarrierOp x h mask))
/-- WAITEV. -/
def execOpWaitev (x : CtxRef) (h : Hdr) (eline : BitVec 4) (s : State) : Host.Outcome State Fault Refusal :=
  .next (s.onNow (opWaitevOp x h eline))
/-- ACQTRIG. -/
def execOpAcqtrig (x : CtxRef) (h : Hdr) (sw : BitVec 3) (s : State) : Host.Outcome State Fault Refusal :=
  .next (s.onNow fun d => d.launchOp x (.acqtrig h sw) h .acqtrig)
/-- MARK. -/
def execOpMark (x : CtxRef) (h : Hdr) (mki tset : BitVec 3) (level : Bool) (s : State) :
    Host.Outcome State Fault Refusal := .next (s.onNow fun d => d.launchOp x (.mark h mki tset level) h .mark)
/-- EVENT. -/
def execOpEvent (x : CtxRef) (h : Hdr) (eline : BitVec 4) (s : State) : Host.Outcome State Fault Refusal :=
  .next (s.onNow fun d => d.launchOp x (.event h eline) h .event)
/-- BRANCH_WAIT. -/
def execOpBranchWait (x : CtxRef) (h : Hdr) (dh : BitVec 4) (t0 t1 t2 t3 : BitVec 16) (s : State) :
    Host.Outcome State Fault Refusal := .next (s.onNow (opBranchWaitOp x h dh t0 t1 t2 t3))
/-- BRANCH_SKETCH. -/
def execOpBranchSketch (x : CtxRef) (h : Hdr) (dh : BitVec 4) (t0 t1 t2 t3 : BitVec 16) (s : State) :
    Host.Outcome State Fault Refusal := .next (s.onNow (opBranchSketchOp x h dh t0 t1 t2 t3))
/-- GOTO. -/
def execOpGoto (x : CtxRef) (h : Hdr) (a : BitVec 22) (s : State) : Host.Outcome State Fault Refusal :=
  .next (s.onNow (opGotoOp x h a))
/-- LOOP. -/
def execOpLoop (x : CtxRef) (h : Hdr) (vc : BitVec 4) (tofs : BitVec 16) (s : State) :
    Host.Outcome State Fault Refusal := .next (s.onNow (opLoopOp x h vc tofs))
/-- JSEG. -/
def execOpJseg (x : CtxRef) (h : Hdr) (tgt : BitVec 4) (a : BitVec 22) (s : State) :
    Host.Outcome State Fault Refusal := .next (s.onNow fun d => d.launchOp x (.jseg h tgt a) h .segjump)
/-- SETV. -/
def execOpSetv (x : CtxRef) (h : Hdr) (vd : BitVec 4) (v : W32) (s : State) : Host.Outcome State Fault Refusal :=
  .next (s.onNow (opSetvOp x h vd v))
/-- ADDV. -/
def execOpAddv (x : CtxRef) (h : Hdr) (vd : BitVec 4) (v : W32) (s : State) : Host.Outcome State Fault Refusal :=
  .next (s.onNow (opAddvOp x h vd v))
/-- GRESET. -/
def execOpGreset (x : CtxRef) (h : Hdr) (g : BitVec 5) (s : State) : Host.Outcome State Fault Refusal :=
  .next (s.onNow (opGresetOp x h g))
/-- END. -/
def execOpEnd (x : CtxRef) (h : Hdr) (s : State) : Host.Outcome State Fault Refusal := .next (s.onNow (opEndOp x h))
/-- CUSTOMER_OPCODE. -/
def execCustomerOpcode (x : CtxRef) (h : Hdr) (k : BitVec 6) (f : BitVec 96) (s : State) :
    Host.Outcome State Fault Refusal := .next (s.onNow (customerOp x h k f))
/-- PREFETCH. -/
def execPrefetch (x : CtxRef) (a : BitVec 22) (s : State) : Host.Outcome State Fault Refusal :=
  .next (s.onNow (prefetchOp x a))

end Sys2Proof.Machine
end

