-- ==== Sys2Proof/Machine/Micro.lean ====
section
/-! DEFINITION. Microwords, vendor services, traps and the trap frame (R113 to R145). -/

namespace Sys2Proof.Machine

/-! ### Fields and operands of a microword (R121, R126) -/

/-- {IMM2, IMM}. -/
def microImm (w : W192) : W64 := BitVec.ofNat 64 (mf w 81 50 + 2 ^ 32 * mf w 151 120)

/-- An operand by its selector (R126). -/
def Dev.operand (d : Dev) (n : Nat) (c : Ctx) (w : W192) (sel : Nat) : W64 :=
  if sel < 8 then c.sr sel
  else if sel < 0x18 then (c.vr (sel - 8)).signExtend 64
  else if sel < 0x1C then (tabGet 0 c.mic.ml (sel - 0x18)).zeroExtend 64
  else if sel = 0x1C then BitVec.ofNat 64 c.cursor
  else if sel = 0x1D then BitVec.ofNat 64 d.epoch
  else if sel = 0x1E then BitVec.ofNat 64 (d.shotTick n)
  else microImm w

/-- A write by selector: S0 to S7, V0 to V15, ML0 to ML3; the other selectors are read only (R126). -/
def Ctx.put (c : Ctx) (sel : Nat) (v : W64) : Ctx :=
  if sel < 8 then c.setS sel v
  else if sel < 0x18 then c.setV (sel - 8) (v.setWidth 32)
  else if sel < 0x1C then { c with mic := { c.mic with ml := tabSet 0 c.mic.ml (sel - 0x18) (v.setWidth 16) } }
  else c

/-! ### ALU (R127) -/

/-- The low w bits as ones; w = 0 means 64. -/
def lowMask (w : Nat) : W64 := if w = 0 then BitVec.allOnes 64 else BitVec.ofNat 64 (2 ^ w - 1)

/-- Leading zeros of a 64-bit word. -/
def clz64 (v : W64) : Nat := if v = 0 then 64 else 63 - Nat.log2 v.toNat

/-- The result of an ALU operation; none for NONE and the reserved codes. `old` is what DST holds. -/
def aluResult (op : Nat) (a b old : W64) : Option W64 :=
  match op with
  | 0x01 => some a
  | 0x02 => some (a + b)
  | 0x03 => some (a - b)
  | 0x04 => some (a &&& b)
  | 0x05 => some (a ||| b)
  | 0x06 => some (a ^^^ b)
  | 0x07 => some (a <<< (b.toNat % 64))
  | 0x08 => some (a >>> (b.toNat % 64))
  | 0x09 => some (a.sshiftRight (b.toNat % 64))
  | 0x0A => some (BitVec.ofInt 64 ((a.setWidth 32).toInt * (b.setWidth 32).toInt))
  | 0x0B => some (BitVec.ofInt 64 (satI 16 (rshift ((a.setWidth 16).toInt * (b.setWidth 16).toInt) 14)))
  | 0x0C => some (if a.toInt ≤ b.toInt then a else b)
  | 0x0D => some (if a.toInt ≤ b.toInt then b else a)
  | 0x0E => some ((a >>> (b.toNat % 64)) &&& lowMask (bits b.toNat 13 8))
  | 0x0F =>
    let m := lowMask (bits b.toNat 13 8) <<< (b.toNat % 64)
    some ((old &&& ~~~m) ||| ((a <<< (b.toNat % 64)) &&& m))
  | 0x10 => some (a - b)
  | 0x11 => some (BitVec.ofNat 64 (clz64 a))
  | 0x12 => some (BitVec.ofNat 64 (popcount 64 a.toNat))
  | _ => none

/-- CY (R126): the carry out of the addition. Whether that of a subtraction is a carry or a borrow, and what FW leaves in
CY after any other operation, is not stated: free (log entry 16). -/
def aluCarry (op : Nat) (a b : W64) : Bool :=
  if op = 2 then decide (2 ^ 64 ≤ a.toNat + b.toNat) else Config.aluCarryOpen op a b

/-- OV (R126): signed overflow of ADD, SUB and CMP. What FW leaves in OV after any other operation is not stated: free
(log entry 16). -/
def aluOverflow (op : Nat) (a b : W64) : Bool :=
  let exact := if op = 2 then a.toInt + b.toInt else a.toInt - b.toInt
  if op = 2 ∨ op = 3 ∨ op = 0x10 then decide (exact < -(2 ^ 63) ∨ 2 ^ 63 ≤ exact) else Config.aluOverflowOpen op a b

/-- The context after a word's ALU result and flags (R122, R125): FW or CMP writes the flags. -/
def Dev.aluStep (d : Dev) (n : Nat) (c : Ctx) (w : W192) : Ctx × Option W64 :=
  let op := mf w 33 28
  let a := d.operand n c w (mf w 38 34)
  let b := d.operand n c w (mf w 43 39)
  let dst := mf w 48 44
  match aluResult op a b (d.operand n c w dst) with
  | none => (c, none)
  | some r =>
    let c1 := if op = 0x10 then c else c.put dst r
    let c2 := if mf w 49 49 = 1 ∨ op = 0x10 then
        { c1 with mic := { c1.mic with z := r == 0, n := r.msb, cy := aluCarry op a b, ov := aluOverflow op a b } }
      else c1
    (c2, some r)

/-- COND (R125), on the context after the word's own ALU result; S3 and ML as the word found them. -/
def Dev.microCond (d : Dev) (x : CtxRef) (before after : Ctx) (w : W192) : Bool :=
  let s3 := (before.sr 3).toNat % 16
  let hold :=
    match mf w 24 20 with
    | 0x00 => true
    | 0x01 => after.mic.z
    | 0x02 => after.mic.n
    | 0x03 => after.mic.cy
    | 0x04 => after.mic.ov
    | 0x05 => tabGet 0 before.mic.ml (mf w 27 26) == 0
    | 0x06 => true
    | 0x07 => !(d.thread x.n).queueFull
    | 0x08 => ((d.thread x.n).full before s3).isSome
    | 0x09 => x.path.isSome
    | 0x0A => match (d.lineSt (canvasLine x.n s3)).lastFire with
      | some t => decide (d.shotTick x.n ≤ t)
      | none => false
    | _ => false
  if mf w 25 25 = 1 then !hold else hold

/-! ### Effects (R122, R123, R128) -/

/-- The launch kinds of LCH. -/
def launchKind : Nat → Option LKind
  | 1 => some .stroke
  | 2 => some .read
  | 3 => some .fluxhold
  | 4 => some .frame
  | 5 => some .mark
  | 6 => some .event
  | 7 => some .acqtrig
  | 8 => some .segjump
  | _ => none

/-- A program fault in a context: it ends the canvas (R135); in a path it is held with the path (R322). -/
def Dev.ctxProgramFault (d : Dev) (x : CtxRef) (c : Ctx) (bit : Nat) : Dev :=
  if x.path.isSome then
    let r := d.ctxFlag x c (unitKey 0x400007 x.n) bit
    r.1.setCtx x { r.2 with illegal := true, wait := .done, running := false }
  else d.programFault x.n bit

/-- The micro-address after another. DESIGN CHOICE (log entry 138): the customer store, which a routine leaves by DISPATCH, CALLS
and RET alone (R144), goes round from 0x3FFF to 0x3000. -/
def mpcNext (pc : Nat) : Nat := if pc < 0x3000 then pc + 1 else 0x3000 + (pc + 1) % 2 ^ 12

/-- SEQ (R123) after the word's effects; `cond` is COND. CALL and CALLS at depth 2 are left to the caller (R124). DESIGN
CHOICE (log entry 111): RET with an empty return stack leaves the micro-PC where it is. -/
def Ctx.sequence (c : Ctx) (w : W192) (loopZero cond : Bool) : Ctx :=
  let pc := c.mic.mpc
  let nx := mf w 15 2
  let go : Nat → Ctx := fun a => { c with mic := { c.mic with mpc := a % 2 ^ 14 } }
  match mf w 19 16 with
  | 0x0 => go (mpcNext pc)
  | 0x1 => go nx
  | 0x2 => go (if cond then nx else mpcNext pc)
  | 0x3 => { c with mic := { c.mic with mpc := nx, rstack := mpcNext pc :: c.mic.rstack } }
  | 0x4 => match c.mic.rstack with
    | [] => c
    | a :: r => { c with mic := { c.mic with mpc := a, rstack := r } }
  | 0x5 => go (if loopZero then mpcNext pc else nx)
  | 0x6 => { c with running := false, wait := .ready }
  | 0x7 => { c with svc := some (nx % 64), mic := { c.mic with rstack := mpcNext pc :: c.mic.rstack } }
  | 0x8 => go nx
  | _ => c

/-- All effects of a word (R122): ALU, MEM, LCH, CUR, SEQ. DESIGN CHOICE (log entry 112): where DST, MD and the counter of
LOOP name one register, MEM writes over the ALU, and the decremented counter over both. -/
def Dev.microEffects (d : Dev) (x : CtxRef) (c : Ctx) (w : W192) : Dev :=
  let seq := mf w 19 16
  if (seq = 3 ∨ seq = 7) ∧ 2 ≤ c.mic.rstack.length then d.ctxProgramFault x c 6
  else
    let r := d.aluStep x.n c w
    let cond := d.microCond x c r.1 w
    let ma := d.operand x.n c w (mf w 90 86)
    let md := mf w 95 91
    let c1 :=
      match mf w 85 82 with
      | 0x1 => r.1.put md (BitVec.ofNat 64 (d.duration x.n (bits ma.toNat 63 42)))
      | 0x2 =>
        let g := d.genStep x.n r.1 (ma.toNat % 32)
        g.2.put md (BitVec.ofNat 64 g.1)
      | _ => r.1
    let ml := tabGet 0 c.mic.ml (mf w 27 26) - 1
    let c2 := if seq = 5 then c1.put (0x18 + mf w 27 26) (ml.zeroExtend 64) else c1
    let c3 := if mf w 113 110 = 1 then c2.advance ((r.2.map BitVec.toNat).getD 0) else c2
    let p :=
      match launchKind (mf w 99 96) with
      | some k => d.issue x c3 k (entryBody k (c.pair (mf w 104 100))) (d.operand x.n c w (mf w 109 105)).toNat
      | none => (d, c3)
    p.1.setCtx x (({ p.2 with waitc := none, wait := .ready }).sequence w (ml == 0) cond)

/-- In how many bits two words differ, those of the ECC field included. -/
def microDiff (v w : W192) : Nat := popcount 192 (v ^^^ w).toNat

/-- A fetched word in which one bit is wrong is corrected: CS_CORRECTED of the easel, set at once (R139, R323). -/
def Dev.corrected (d : Dev) (n diff : Nat) : Dev := if diff = 1 then d.flag (unitKey 0x440004 (d.runEasel n)) 0 else d

/-- MICROWORD (R113 to R134, R139): the word fetched at the micro-PC issues, once a single wrong bit has been corrected; one
with more wrong bits does not, and CS_UNCORRECTABLE reports it. At a trap point, before TP = 1 or the entry word of an
operation, a pending trap is taken first, and the checkpoint is stored (R130, R131); a launch beyond the lookahead or into a
full queue does not issue (R116); WAITC whose condition does not hold blocks. DESIGN CHOICE (log entry 139): of a thread that
runs no customer routine, the word is one that its vendor routine fetches; the routine's effect is its operation's, and the
fetch shows by CS_CORRECTED alone. -/
def microwordOp (x : CtxRef) (fetched : W192) (d : Dev) : Dev :=
  let t := d.thread x.n
  match t.ctx x.path with
  | none => d
  | some c =>
    let w := d.storeWord c.mic.mpc
    let point := mf w 115 115 == 1 || c.entry
    if t.active && !t.ended && !c.running && decide (c.mic.mpc < 0x3000) && decide (microDiff fetched w ≤ 1) then
      d.corrected x.n (microDiff fetched w)
    else if !d.canIssue x c || !c.running || c.svc.isSome || c.waitc.isSome || !c.wait.open || t.branching x.path
        || decide (1 < microDiff fetched w) || (point && t.trapDue) then d
    else
      let hold := if (launchKind (mf w 99 96)).isSome then
          d.launchHold x.n (d.operand x.n c w (mf w 109 105)).toNat else none
      match hold with
      | some h => d.setCtx x { c with wait := h, chk := if point then some (c.mic, c.gens) else c.chk }
      | none =>
        let d1 := d.corrected x.n (microDiff fetched w)
        let c1 := { c with entry := false, chk := if point then some (c.mic, c.gens) else c.chk }
        if mf w 19 16 = 8 ∧ !d1.microCond x c1 (d1.aluStep x.n c1 w).1 w then
          d1.setCtx x { c1 with
            waitc := some w
            wait := if mf w 24 20 = 8 then .service ((c1.sr 3).toNat % 16) else .mem }
        else d1.microEffects x c1 w

/-- WAITC_RELEASE (R116, R123): the blocked word executes once its condition holds and its launch, if it has one, finds the
lookahead and the queue open. -/
def waitcReleaseOp (x : CtxRef) (d : Dev) : Dev :=
  match (d.thread x.n).ctx x.path with
  | none => d
  | some c =>
    match c.waitc with
    | some w =>
      let held := (launchKind (mf w 99 96)).isSome
        && (d.launchHold x.n (d.operand x.n c w (mf w 109 105)).toNat).isSome
      if d.canIssue x c && d.microCond x c (d.aluStep x.n c w).1 w && !held then d.microEffects x c w else d
    | none => d

/-! ### Vendor services (R145) -/

/-- A service returns: S3, and the return address popped. -/
def Ctx.serviceReturn (c : Ctx) (v : W64) : Ctx :=
  let c1 := c.setS 3 v
  { c1 with
    svc := none, wait := .ready
    mic := { c1.mic with mpc := c1.mic.rstack.headD 0, rstack := c1.mic.rstack.drop 1 } }

/-- A context in which a service has been called runs it. -/
def Dev.service (d : Dev) (x : CtxRef) (k : Nat) (f : Dev → Ctx → Dev × Ctx) : Dev :=
  match (d.thread x.n).ctx x.path with
  | none => d
  | some c =>
    if d.canIssue x c && c.svc == some k then
      let r := f d c
      r.1.setCtx x r.2
    else d

/-- WAIT_DECISION: consumes a decision that is held, and else blocks. -/
def waitDecisionOp (x : CtxRef) (d : Dev) : Dev :=
  d.service x 0 fun e c =>
    let h := (c.sr 3).toNat % 16
    match (e.thread x.n).full c h with
    | some r =>
      let q := e.consume x c h
      (q.1, q.2.serviceReturn (BitVec.ofNat 64 r.outcome))
    | none => (e, { c with wait := .service h })

/-- SINCOS: cosine in [15:0], sine in [31:16], in Q2.14; only the rounding is free (log entry 11). -/
def sincosWord (phase : W32) : W64 :=
  let v := cosSin 32 phase.toNat 14 (Config.sincosRoundsUp phase)
  BitVec.ofNat 64 (toU 16 v.1 + 2 ^ 16 * toU 16 v.2)

/-- SINCOS. -/
def sincosOp (x : CtxRef) (d : Dev) : Dev :=
  d.service x 1 fun e c => (e, c.serviceReturn (sincosWord ((c.sr 3).setWidth 32)))

/-- RECIP: ⌊2^32 ÷ x⌋; free at x = 0. -/
def recipOp (x : CtxRef) (d : Dev) : Dev :=
  d.service x 2 fun e c =>
    let v := (c.sr 3).toNat % 2 ^ 32
    (e, c.serviceReturn (if v = 0 then Config.recipZero else BitVec.ofNat 64 (2 ^ 32 / v)))

/-- FRAME_READ: the virtual phase of a frame; in a path, of its shadow (R322). -/
def frameReadOp (x : CtxRef) (d : Dev) : Dev :=
  d.service x 3 fun e c =>
    let i := 4 * bits (c.sr 3).toNat 2 2 + (c.sr 3).toNat % 4
    let now := (e.frame (8 * x.n + i)).vph
    let v := if x.path.isSome then ((tabGet none c.shadow i).map (·.2)).getD now else now
    (e, c.serviceReturn (v.zeroExtend 64))

/-! ### Traps (R130 to R139) -/

/-- The trap frame of a context (R138). -/
def trapFrame (n easel cause epoch count : Nat) (sketch : Bool) (c : Ctx) : List Byte :=
  let m := c.mic
  let flags := bitAt m.z 0 + bitAt m.n 1 + bitAt m.cy 2 + bitAt m.ov 3 + bitAt sketch 4
  let w0 := m.mpc + 2 ^ 14 * m.rstack.length + 2 ^ 16 * (m.rstack.reverse.getD 0 0) + 2 ^ 32 * (m.rstack.reverse.getD 1 0)
    + 2 ^ 48 * flags + 2 ^ 56 * cause
  let w1 := (List.range 4).foldl (fun a i => a + 2 ^ (16 * i) * (tabGet 0 m.ml i).toNat) 0
  le 8 w0 ++ le 8 w1 ++ (List.range 8).flatMap (fun i => le 8 (c.sr i).toNat) ++ le 8 epoch
    ++ le 8 (count % 2 ^ 16 + 2 ^ 16 * (n % 16) + 2 ^ 20 * easel)

/-- The traps that the paths of a context hold, those it lies in included (R138, R322). -/
def Thread.trapsHeld (t : Thread) : Nat → Option Nat → Nat
  | 0, _ => 0
  | fuel + 1, p =>
    match p.bind fun i => t.paths.find? (·.id == i) with
    | none => 0
    | some q => (q.ctx.flags.filter fun f => f.1 == 2).length + t.trapsHeld fuel q.parent

/-- A trap other than DRAIN enters its handler (R132, R136): the micro-state of the context is saved in the trap frame. A frame
taken in a path carries FLAGS bit 4, and reaches TRAP_FRAME when the path commits (R138, R322, R323). DESIGN CHOICE (log entry
139): until TRET the whole thread issues nothing, and no decision of it commits. -/
def Dev.enterTrap (d : Dev) (x : CtxRef) (c : Ctx) (cause : Nat) : Dev :=
  let t := d.thread x.n
  let count := t.trapCount + t.trapsHeld 4 x.path + 1
  let fr := ofLe (trapFrame x.n (d.runEasel x.n) cause d.epoch count x.path.isSome c)
  let t1 := { t with
    traps := t.traps.filter (· != cause), inTrap := some { cause := cause, path := x.path, mic := c.mic } }
  if x.path.isNone then
    (d.wr (unitKey 0x400008 x.n) fr).setThread x.n { t1 with trapCount := t.trapCount + 1 }
  else d.setThread x.n (t1.setCtx x.path { c with flags := c.flags ++ [(2, fr, 1)] })

/-- A SNAPSHOT is taken (R131, R132): the trap point's checkpoint is stored, and its frame. -/
def Dev.takeSnapshot (d : Dev) (n : Nat) : Dev :=
  let c := (d.thread n).main
  let c1 := { c with chk := some (c.mic, c.gens) }
  (d.setCtx { n := n, path := none } c1).enterTrap { n := n, path := none } c1 2

/-- TRAP_ENTRY (R132, R323): a pending SNAPSHOT is taken at a trap point, when no decision of the thread is pending. -/
def trapEntryOp (n : Nat) (d : Dev) : Dev :=
  let t := d.thread n
  if t.active && !t.ended && t.inTrap.isNone && t.trapDue && !t.main.csBlock && d.atTrapPoint n then d.takeSnapshot n
  else d

/-- A cause that arises while traps are masked stays pending (R136). -/
def Dev.pendTrap (d : Dev) (n cause : Nat) : Dev :=
  let t := d.thread n
  if t.traps.contains cause then d else d.setThread n { t with traps := t.traps ++ [cause] }

/-- The context at its last checkpoint (R131, R133): at a trap point, that of this point, which is the context as it stands. -/
def Dev.rollback (d : Dev) (c : Ctx) : Ctx :=
  if d.atPoint c then { c with chk := some (c.mic, c.gens), wait := .ready }
  else
    match c.chk with
    | some k =>
      if c.running then { c with mic := k.1, gens := k.2, svc := none, waitc := none, wait := .ready } else c
    | none => c

/-- A DATAPATH trap is taken (R133): the last checkpoint is restored, and ROLLBACK is set; the flags of the easel are set
at once (R323). -/
def Dev.takeDatapath (d : Dev) (x : CtxRef) (c : Ctx) : Dev :=
  let d1 := (d.flag (unitKey 0x440004 (d.runEasel x.n)) 2).noteFault (.easel (d.runEasel x.n)) 0
  let r := d1.ctxFlag x (d.rollback c) (unitKey 0x400007 x.n) 2
  (r.1.setCtx x r.2).enterTrap x r.2 0x10

/-- A CS_UNCORRECTABLE trap is taken (R135, R139): the word has no effect, and the context is blocked while its word is
restored. -/
def Dev.takeCs (d : Dev) (x : CtxRef) (c : Ctx) : Dev :=
  let d1 := (d.flag (unitKey 0x440004 (d.runEasel x.n)) 1).noteFault (.easel (d.runEasel x.n)) 1
  let b := { c with csBlock := true }
  (d1.setCtx x b).enterTrap x b 0x11

/-- What arose while a trap was in its handler is taken, the highest code first (R135, R136): a transient fault at once, a
SNAPSHOT where the thread stands at a trap point, then a DRAIN. -/
def Dev.nextTrap (d : Dev) (x : CtxRef) (c : Ctx) : Dev :=
  let t := d.thread x.n
  if t.traps.contains 0x11 then d.takeCs x c
  else if t.traps.contains 0x10 then d.takeDatapath x c
  else if t.trapDue && d.atTrapPoint x.n then d.takeSnapshot x.n
  else if t.traps.contains 1 then d.drainThread x.n
  else d

/-- TRET (R132, R135, R136): the micro-state of the frame is restored, once a word under restore stands again, and what arose
in the handler is taken. -/
def tretOp (n : Nat) (d : Dev) : Dev :=
  let t := d.thread n
  match t.inTrap with
  | none => d
  | some f =>
    let x : CtxRef := { n := n, path := f.path }
    match t.ctx f.path with
    | none => d.setThread n { t with inTrap := none }
    | some c0 =>
      if c0.csBlock then d
      else
        let c := { c0 with mic := f.mic }
        (d.setThread n ({ t with inTrap := none }.setCtx f.path c)).nextTrap x c

/-- DATAPATH (R133): taken at once, or pending while another trap is in its handler (R136). -/
def datapathOp (x : CtxRef) (d : Dev) : Dev :=
  let t := d.thread x.n
  match t.ctx x.path with
  | none => d
  | some c =>
    if t.active && !t.ended then
      if t.inTrap.isSome then d.pendTrap x.n 0x10 else d.takeDatapath x c
    else d

/-- CS_UNCORRECTABLE (R139): taken at once, or pending while another trap is in its handler (R136). -/
def csUncorrectableOp (x : CtxRef) (d : Dev) : Dev :=
  let t := d.thread x.n
  match t.ctx x.path with
  | none => d
  | some c =>
    if t.active && !t.ended && !c.csBlock then
      if t.inTrap.isSome then d.pendTrap x.n 0x11 else d.takeCs x c
    else d

/-- WATCHDOG (R137): a trap stays pending for 128 cycles. -/
def watchdogOp (n : Nat) (d : Dev) : Dev :=
  let t := d.thread n
  if t.active && !t.ended && t.inTrap.isNone && !t.traps.isEmpty then d.programFault n 4 else d

/-- OVERRUN (R99): SHOT_LIMIT expires before END. -/
def overrunOp (n : Nat) (d : Dev) : Dev :=
  match d.jobOfThread n with
  | some j =>
    let t := d.thread n
    if t.active && !t.ended && j.phase == .shot && decide (j.shotStart + j.head.shotLimit ≤ d.epoch) then
      ((d.flag (unitKey 0x400007 n) 5).drainTrap n).spoilThread n
    else d
  | none => d

/-- SNAPSHOT (R135): a write of 1 raises a SNAPSHOT trap in a thread that runs a canvas. -/
def Dev.raiseSnapshot (d : Dev) (n : Nat) : Dev :=
  let t := d.thread n
  if t.active && !t.ended && !t.traps.contains 2 then d.setThread n { t with traps := t.traps ++ [2] } else d

/-! ### Meanings -/

/-- MICROWORD. -/
def execMicroword (x : CtxRef) (w : W192) (s : State) : Host.Outcome State Fault Refusal :=
  .next (s.onNow (microwordOp x w))
/-- WAITC_RELEASE. -/
def execWaitcRelease (x : CtxRef) (s : State) : Host.Outcome State Fault Refusal := .next (s.onNow (waitcReleaseOp x))
/-- TRET. -/
def execTret (n : Nat) (s : State) : Host.Outcome State Fault Refusal := .next (s.onNow (tretOp n))
/-- WAIT_DECISION. -/
def execWaitDecision (x : CtxRef) (s : State) : Host.Outcome State Fault Refusal := .next (s.onNow (waitDecisionOp x))
/-- SINCOS. -/
def execSincos (x : CtxRef) (s : State) : Host.Outcome State Fault Refusal := .next (s.onNow (sincosOp x))
/-- RECIP. -/
def execRecip (x : CtxRef) (s : State) : Host.Outcome State Fault Refusal := .next (s.onNow (recipOp x))
/-- FRAME_READ. -/
def execFrameRead (x : CtxRef) (s : State) : Host.Outcome State Fault Refusal := .next (s.onNow (frameReadOp x))
/-- TRAP_ENTRY. -/
def execTrapEntry (n : Nat) (s : State) : Host.Outcome State Fault Refusal := .next (s.onNow (trapEntryOp n))
/-- DATAPATH. -/
def execDatapath (x : CtxRef) (s : State) : Host.Outcome State Fault Refusal := .next (s.onNow (datapathOp x))
/-- CS_UNCORRECTABLE. -/
def execCsUncorrectable (x : CtxRef) (s : State) : Host.Outcome State Fault Refusal :=
  .next (s.onNow (csUncorrectableOp x))
/-- WATCHDOG. -/
def execWatchdog (n : Nat) (s : State) : Host.Outcome State Fault Refusal := .next (s.onNow (watchdogOp n))
/-- OVERRUN. -/
def execOverrun (n : Nat) (s : State) : Host.Outcome State Fault Refusal := .next (s.onNow (overrunOp n))

end Sys2Proof.Machine
end

