-- ==== Sys2Proof/Machine/Launch.lean ====
section
/-! DEFINITION. The launch unit and the outputs (R117, R118, R164 to R192, R196 to R239): strokes, readout tones and
windows, frames, markers, events, segment jumps, streams. -/

namespace Sys2Proof.Machine

/-! ### Targets and slots -/

/-- The index of a target in the table of strokes. -/
def targetKey : Target → Nat
  | .drive s => s
  | .rtone s => 512 + s
  | .flux c => 1024 + c

/-- The target that TGT names for a thread (R105, R414). -/
def Dev.targetOf (d : Dev) (n tgt : Nat) : Option Target :=
  (d.placeOf n).bind fun p =>
    match tgt with
    | 0 => p.driveSlot.map .drive
    | 1 => p.readSlot.map .rtone
    | k + 2 => p.flux[k]?.map .flux

/-- The stroke playing on a target. -/
def Dev.stroke (d : Dev) (t : Target) : Option Stroke := tabGet none d.out.strokes (targetKey t)

/-- Changes the stroke on a target. -/
def Dev.setStroke (d : Dev) (t : Target) (s : Option Stroke) : Dev :=
  { d with out := { d.out with strokes := tabSet none d.out.strokes (targetKey t) s } }

/-- The target of a key of the table of strokes. -/
def keyTarget (k : Nat) : Target := if k < 512 then .drive k else if k < 1024 then .rtone (k - 512) else .flux (k - 1024)

/-- The port objects that a tone slot belongs to (R239): XY port of a drive slot, readout line of a readout slot. -/
def portOf : Target → Option Nat
  | .drive s => some (0x3800 + s / 8)
  | .rtone s => some (0x3840 + s / 16)
  | .flux _ => none

/-- The TONE object of a readout slot. -/
def rtoneKey (slot : Nat) : Nat := objKey (0x3840 + slot / 16) (0x10 + slot % 16)

/-- Whether a readout slot is bound to a job, and the qubit it serves (R239). -/
def Dev.slotBound (d : Dev) (slot : Nat) : Bool := d.bit (rtoneKey slot) 10

/-- The qubit that a readout slot serves. -/
def Dev.slotQubit (d : Dev) (slot : Nat) : Nat := bits (d.rd (rtoneKey slot)) 24 16

/-- FIR_TAPS of a readout slot. -/
def Dev.slotTaps (d : Dev) (slot : Nat) : Nat := d.rd (unitKey 0x300042 (d.slotQubit slot))

/-- LINE_ALIGN of a line. -/
def Dev.lineAlign (d : Dev) (line : Nat) : Nat := d.rd (unitKey 0x384023 line)

/-- A readout slot beside its objects. -/
def Dev.slotRx (d : Dev) (slot : Nat) : SlotRx := tabGet {} d.rx.slots slot

/-- Changes a readout slot. -/
def Dev.setSlotRx (d : Dev) (slot : Nat) (r : SlotRx) : Dev :=
  { d with rx := { d.rx with slots := tabSet {} d.rx.slots slot r } }

/-! ### Labels and invalid runs (R241, R271 to R276) -/

/-- The first reference time at or after x at the FIR output (R241). -/
def firstLabel (taps x : Nat) : Nat := if taps % 2 = 1 then 64 * ceilDiv x 64 else 64 * ceilDiv (x + 32) 64 - 32

/-- The runs that a change at DAC index `ac2` = 2A_c marks at the FIR output and at the fixed-chain tap (R271, R274, R275):
`taps` is the larger FIR_TAPS, and the labels follow FIR_TAPS after the change. -/
def markedRuns (now ac2 taps extra : Nat) : Run × Run :=
  ({ at_ := firstLabel now (ac2 - 32 * (15 + taps)), len := 64 * (15 + taps + extra) },
    { at_ := 64 * ceilDiv (ac2 - 512) 64, len := 64 * (16 + extra) })

/-- A change marks its runs on a slot. -/
def Dev.markSlot (d : Dev) (slot ac2 taps extra : Nat) : Dev :=
  let r := d.slotRx slot
  let u := markedRuns (d.slotTaps slot) ac2 taps extra
  d.setSlotRx slot { r with runs := r.runs ++ [u.1], fixRuns := r.fixRuns ++ [u.2] }

/-- Whether a reference time, or an ADC sample, lies in an invalid run. -/
def inRun (l : List Run) (r : Nat) : Bool := l.any fun u => decide (u.at_ ≤ r ∧ r < u.at_ + u.len)

/-- The receive values of a slot at a DAC-sample index (R252, R273). -/
def SlotRx.at_ (r : SlotRx) (x : Nat) : W48 × W48 :=
  match (r.hist.filter fun h => decide (h.1 ≤ x)).getLast? with
  | some h => h.2
  | none => (0, 0)

/-- The receive values of a slot change from DAC index x on; a new value marks a run (R271, R272). -/
def Dev.receiveChange (d : Dev) (slot x : Nat) (f : Frame) : Dev :=
  let r := d.slotRx slot
  let was := (r.hist.getLast?.map (·.2)).getD (0, 0)
  if was = (f.freq, f.vph) then d
  else
    let d1 := d.setSlotRx slot { r with hist := r.hist ++ [(x, f.freq, f.vph)] }
    if r.hist.isEmpty then d1 else d1.markSlot slot (2 * ceilDiv x 2) (d.slotTaps slot) 0

/-! ### Launch queue -/

/-- The entry of a kind that launches next: committed, its tick come, earliest first and then in program order. -/
def Thread.dueEntry (t : Thread) (kind : LKind) (now : Nat) : Option LEntry :=
  (t.launch.filter fun e => e.kind == kind && e.path.isNone && decide (e.tick ≤ now)).foldl
    (fun b e => match b with
      | none => some e
      | some a => if e.tick < a.tick ∨ (e.tick = a.tick ∧ e.ord < a.ord) then some e else some a) none

/-- An entry of a kind leaves the launch queue and takes effect; a late one sets LATE_EPOCH and LATE_LAUNCH and spoils
the shot (R51, R117, R118). DESIGN CHOICE (log entry 113): the flags and the mark come in the tick in which the late entry
launches, which R118 does not say. -/
def Dev.launchEntry (d : Dev) (n : Nat) (kind : LKind) (f : Dev → LEntry → Dev) : Dev :=
  let t := d.thread n
  match t.dueEntry kind d.epoch with
  | none => d
  | some e =>
    let d1 := d.setThread n { t with launch := t.launch.filter (· != e) }
    let d2 := if e.late then ((d1.flag 0x200004 11).flag (unitKey 0x400007 n) 0).spoilThread n else d1
    f d2 e

/-! ### Strokes (R164 to R167, R203) -/

/-- Flags of a thread's strokes. -/
def strokeFlags (n : Nat) : Nat := unitKey 0x4A0061 n

/-- Whether the offset of a frequency from a carrier lies outside the limit (R199, R203). -/
def offsetOut (freq carrier : W48) : Bool := decide (7036874417766 < (freq - carrier).toInt.natAbs)

/-- Whether the offset of a frequency on a target lies outside the limit of its port's carrier (R199, R203). -/
def Dev.outOfRange (d : Dev) (t : Target) (freq : W48) : Bool :=
  match portOf t with
  | some p => offsetOut freq (BitVec.ofNat 48 (d.rd (objKey p 1)))
  | none => false

/-- The offset check of a tone slot on which a frame plays (R203): a slot that begins to contribute zero sets TONE_RANGE
once, until an offset within the limit; the frame of the latest stroke decides. -/
def Dev.rangeCheck (d : Dev) (t : Target) (n i : Nat) : Dev :=
  match portOf t with
  | none => d
  | some p =>
    let k := targetKey t
    if d.outOfRange t (d.frame i).freq then
      if d.out.ranged.any fun r => r.1 == k then
        { d with out := { d.out with ranged := d.out.ranged.map fun r => if r.1 = k then (k, i) else r } }
      else (({ d with out := { d.out with ranged := (k, i) :: d.out.ranged } }).flag (objKey p 8) 1).spoilThread n
    else { d with out := { d.out with ranged := d.out.ranged.filter fun r => r.1 != k } }

/-- The streams that the descriptors of a stroke name. -/
def Dev.streamsOf (d : Dev) (plays : List (Nat × Nat × Nat × Nat)) : List Nat :=
  (plays.filterMap fun p =>
    let w := tabGet 0 d.eas.desc p.2.1
    if fld w 22 22 = 1 then some (fld w 28 23) else none)

/-- STREAM_STATE of a configured stream follows the strokes that name it (R194): STARVED while an underrun holds one at
baseline, PLAYING while one plays, else READY. -/
def Dev.streamState (d : Dev) (k : Nat) : Dev :=
  if d.rd (unitKey 0x488001 k) = 0 then d
  else
    let users := (d.out.strokes.filterMap (·.2)).filter fun s =>
      (decide (d.epoch < s.endTick) || s.jump.isSome) && (d.streamsOf s.plays).contains k
    d.wr (unitKey 0x488001 k) (if users.any (·.starved) then 4 else if users.isEmpty then 2 else 3)

/-- The states of the streams of a stroke's segments. -/
def Dev.streamStates (d : Dev) (plays : List (Nat × Nat × Nat × Nat)) : Dev :=
  (d.streamsOf plays).foldl Dev.streamState d

/-- The window of a READ whose tone is cut carries TONE_CUT (R264). -/
def Dev.toneCut (d : Dev) (t : Target) (s : Stroke) : Dev :=
  match t with
  | .rtone slot =>
    if s.isRead then
      let r := d.slotRx slot
      d.setSlotRx slot { r with
        wins := r.wins.map fun w => if w.n = s.n ∧ w.launch = s.start then { w with cut := true } else w }
    else d
  | _ => d

/-- An earlier stroke on a target stops (R166). -/
def Dev.cutStroke (d : Dev) (t : Target) : Dev :=
  match d.stroke t with
  | none => d
  | some s => (((d.setStroke t none).flag (strokeFlags s.n) 1).toneCut t s).streamStates s.plays

/-- Whether a stroke on a target keeps an entry of its thread from playing: it has the same launch tick and comes later in
program order (R167). -/
def Dev.outplayed (d : Dev) (t : Target) (n : Nat) (e : LEntry) : Bool :=
  (d.stroke t).any fun s => s.n == n && s.start == e.tick && decide (e.ord < s.ord)

/-- The stroke of a launch entry: PLAY's fields, and READ's (R105, R119, R163). -/
def Dev.entryStroke (d : Dev) (n : Nat) (e : LEntry) (isRead : Bool) : Stroke :=
  let ch := d.chain n (fld e.w 63 42) e.tick
  { n := n, start := e.tick, fine := if isRead then 0 else fld e.w 102 98, plays := ch.1, endTick := ch.2,
    amp := fld e.w 79 64, pofs := if isRead then 0 else fld e.w 95 80, frame := fld e.w 97 96, isRead := isRead,
    jump := none, muted := none, ord := e.ord, page := e.page
    blocks := ((d.jobOfThread n).map (·.held.blocks)).getD []
    shared := ((d.jobOfThread n).map (·.held.shared)).getD []
    samples := ((d.jobOfThread n).map (·.content.samples.length)).getD 0 }

/-- Output samples by which FINE carries a stroke past its end (R218). -/
def Stroke.tail (s : Stroke) : Nat := ceilDiv s.fine 16

/-- A stroke that has ended has samples left at or after a tick, which a stroke launched there cuts (R166, R218). -/
def Dev.cutTail (d : Dev) (s : Option Stroke) (t : Nat) : Dev :=
  match s with
  | some s => if 2 * t < 2 * s.endTick + s.tail then d.flag (strokeFlags s.n) 1 else d
  | none => d

/-- A stroke starts on a target (R151, R164 to R167, R192, R203, R218). -/
def Dev.startStroke (d : Dev) (t : Target) (n : Nat) (e : LEntry) (isRead : Bool) : Dev :=
  if d.outplayed t n e then d.flag (strokeFlags n) 1
  else
  let d0 := match d.stroke t with
    | some s => if d.epoch < s.endTick ∨ e.tick < s.endTick then d.cutStroke t
      else ((d.setStroke t none).streamStates s.plays).cutTail (some s) e.tick
    | none => d.cutTail (tabGet none d.out.tails (targetKey t)) e.tick
  let d1 := { d0 with out := { d0.out with tails := tabSet none d0.out.tails (targetKey t) none } }
  let s := d1.entryStroke n e isRead
  let d2 := d1.setStroke t (some s)
  let broken := match s.plays with
    | p :: _ => !keepsRule (tabGet 0 d2.eas.desc p.2.1)
    | [] => false
  let d3 := if broken then d2.flag (strokeFlags n) 0 else d2
  let d4 := d3.streamStates s.plays
  match t with
  | .drive _ => d4.rangeCheck t n (frameIdx n 0 s.frame)
  | .rtone _ => d4.rangeCheck t n (frameIdx n 1 s.frame)
  | .flux _ => d4

/-- STROKE_LAUNCH. -/
def strokeLaunchOp (n : Nat) (d : Dev) : Dev :=
  d.launchEntry n .stroke fun d1 e =>
    match d1.targetOf n (fld e.w 35 32) with
    | some t => d1.startStroke t n e false
    | none => d1

/-- READ_LAUNCH (R253, R261, R263): the tone starts, the readout frame becomes the receive frame, and the window is
placed. -/
def readLaunchOp (n : Nat) (d : Dev) : Dev :=
  d.launchEntry n .read fun d1 e =>
    match d1.targetOf n 1, d1.jobOfThread n with
    | some (.rtone slot), some j =>
      let lost := d1.outplayed (.rtone slot) n e
      let d2 := d1.startStroke (.rtone slot) n e true
      let q := d2.slotQubit slot
      let la := d2.lineAlign (slot / 16)
      let fr := fld e.w 97 96
      let d3 := d2.receiveChange slot (32 * e.tick + la) (d2.frame (frameIdx n 1 fr))
      let taps := d3.slotTaps slot
      let t := d3.thread n
      let dtag := fld e.w 109 102
      let w : Win :=
        { n := n, launch := e.tick, job := j.seq, shot := j.shot, ksel := fld e.w 101 98, dtag := dtag,
          seq := tabGet 0 t.reads dtag % 16, taps := taps,
          first := firstLabel taps (32 * (e.tick + d3.rd (unitKey 0x300044 q)) + la), count := ceilDiv (fld e.w 95 80) 2,
          cut := lost }
      let r := d3.slotRx slot
      let d4 := d3.setSlotRx slot { r with frame := fr, wins := r.wins ++ [w] }
      (d4.setThread n { t with reads := tabSet 0 t.reads dtag (tabGet 0 t.reads dtag + 1) }).modJob j.seq
        fun j => { j with windows := j.windows + 1 }
    | _, _ => d1

/-- A flux channel beside its objects. -/
def Dev.fluxSt (d : Dev) (c : Nat) : FluxSt := tabGet {} d.out.flux c

/-- Changes a flux channel. -/
def Dev.setFlux (d : Dev) (c : Nat) (f : FluxSt) : Dev :=
  { d with out := { d.out with flux := tabSet {} d.out.flux c f } }

/-- The value that a channel holds between strokes. -/
def Dev.setIdle (d : Dev) (c : Nat) (v : Int) : Dev := d.setFlux c { d.fluxSt c with hold := v }

/-- The hold value of a channel; HOLD_NOW follows it. IDLE_CODE only takes its place (R225). -/
def Dev.setHold (d : Dev) (c : Nat) (v : Int) : Dev := (d.wr (unitKey 0x340004 c) (toU 16 v)).setIdle c v

/-- FLUXHOLD_LAUNCH (R105). -/
def fluxholdLaunchOp (n : Nat) (d : Dev) : Dev :=
  d.launchEntry n .fluxhold fun d1 e =>
    match d1.targetOf n (fld e.w 35 32) with
    | some (.flux c) => d1.setHold c (sext 16 (fld e.w 63 48))
    | _ => d1

/-- Changes a frame. A tone slot whose offset this brings back within the limit may set TONE_RANGE again (R203). -/
def Dev.setFrame (d : Dev) (i : Nat) (f : Frame) : Dev :=
  { d with out := { d.out with
      frames := tabSet {} d.out.frames i f
      ranged := d.out.ranged.filter fun r => r.2 != i || d.outOfRange (keyTarget r.1) f.freq } }

/-- FRAME_LAUNCH (R203, R211 to R213, R215): the frame, the strokes that play on it, and the receive side of a readout
frame in use. -/
def frameLaunchOp (n : Nat) (d : Dev) : Dev :=
  d.launchEntry n .frame fun d1 e =>
    let fk := fld e.w 34 34
    let f := fld e.w 33 32
    let i := frameIdx n fk f
    let old := d1.frame i
    let v := frameUpdate e.w (old.freq, old.vph)
    let d2 := d1.setFrame i { freq := v.1, vph := v.2 }
    match d2.targetOf n fk with
    | none => d2
    | some t =>
      let d3 := match d2.stroke t with
        | some s => if s.frame = f ∧ s.n = n ∧ d2.epoch < s.endTick then d2.rangeCheck t n i else d2
        | none => d2
      match t with
      | .rtone slot =>
        if (d3.slotRx slot).frame = f then
          d3.receiveChange slot (32 * e.tick + d3.lineAlign (slot / 16)) (d3.frame i)
        else d3
      | _ => d3

/-! ### Markers (R231 to R238) -/

/-- MARK_LAUNCH (R232, R233, R322): the change enters the edge scheduler; one that its path had scheduled stands there. -/
def markLaunchOp (n : Nat) (d : Dev) : Dev :=
  d.launchEntry n .mark fun d1 e =>
    let m := markPin n e.w
    let k := d1.marker m
    if k.changes.any fun c => c.n == n && c.ord == e.ord then
      d1.setMarker m { k with
        changes := k.changes.map fun c => if c.n = n ∧ c.ord = e.ord then d1.markChange n e else c }
    else if d1.marksFull n e.w then (d1.flag (objKey (0x3A00 + m) 0x0C) 2).spoilThread n
    else d1.addMark n e

/-- The level at a marker's land. -/
def Dev.markerLevel (d : Dev) (m : Nat) : Bool := d.rdB (objKey (0x3A00 + m) 0x0B)

/-- The level at a marker's land changes at a land step; a level that it already holds makes no edge (R235). -/
def Dev.markerEdge (d : Dev) (m step : Nat) (level : Bool) : Dev :=
  if d.markerLevel m = level then d
  else (d.wr (objKey (0x3A00 + m) 0x0B) (if level then 1 else 0)).setMarker m { d.marker m with lastEdge := some step }

/-- The moved edges of a marker up to a land step come, in order (R236). -/
def Dev.movedEdges (d : Dev) (m last : Nat) : Dev :=
  let k := d.marker m
  let due := (k.moved.filter fun p => decide (p.1 ≤ last)).mergeSort fun a b => decide (a.1 ≤ b.1)
  if due.isEmpty then d
  else due.foldl (fun e p => e.markerEdge m p.1 p.2)
    (d.setMarker m { k with moved := k.moved.filter fun p => !decide (p.1 ≤ last) })

/-- MARKER_EDGE (R233 to R236): the changes of the earliest land step take effect, after the moved edges before them. Of
one thread's the last in program order stands, and between threads that of the higher index; an edge too close to the
previous one waits until 48 steps after it, and comes when the changes before that have. -/
def markerEdgeOp (m : Nat) (d0 : Dev) : Dev :=
  match (d0.marker m).changes.filter (·.path.isNone) with
  | [] => d0
  | c0 :: cs =>
    let step := cs.foldl (fun a c => min a c.step) c0.step
    if d0.epoch < step / 128 then d0
    else
      let d := d0.movedEdges m step
      let k := d.marker m
      let now : MChange → Bool := fun c => c.path.isNone && c.step == step
      let here := k.changes.filter now
      let best := here.foldl (fun b c => if b.n < c.n ∨ (b.n = c.n ∧ b.ord ≤ c.ord) then c else b) (here.headD c0)
      let others := (here.filter (·.n != best.n)).length
      let flags := objKey (0x3A00 + m) 0x0C
      let again := match k.lastChange with
        | some p => if p.1 = step ∧ p.2 ≠ best.n then 1 else 0
        | none => 0
      let d1 := if others + again = 0 then d else d.flagN flags 1 (others + again)
      let k1 := { k with changes := k.changes.filter (fun c => !now c), lastChange := some (step, best.n) }
      let d2 := d1.setMarker m k1
      if d2.markerLevel m = best.level then d2
      else match k.lastEdge with
        | some l =>
          if step < l + 48 then
            (d2.setMarker m { k1 with moved := k1.moved ++ [(l + 48, best.level)] }).flag flags 0
          else d2.markerEdge m step best.level
        | none => d2.markerEdge m step best.level

/-- The land step of a return to IDLE_LEVEL that is due from a step on (R237). -/
def Marker.idleStep (k : Marker) (b : Nat) : Nat :=
  match k.lastEdge with
  | some l => max b (l + 48)
  | none => b

/-- MARKER_IDLE_RETURN (R237): when every change of the shot has landed, at the later of the first land tick of the boundary
and 48 steps after the last edge. -/
def markerIdleReturnOp (m : Nat) (d0 : Dev) : Dev :=
  let last := 128 * d0.epoch + 127
  let d := if (d0.marker m).changes.any fun c => c.path.isNone && decide (c.step ≤ last) then d0 else d0.movedEdges m last
  let k := d.marker m
  match k.idleAt.find? fun b => decide (k.idleStep b.1 / 128 ≤ d.epoch) && !(k.changes.any fun c => b.2.contains c.n) with
  | none => d
  | some b =>
    if k.moved.isEmpty then
      (d.setMarker m { k with idleAt := k.idleAt.erase b }).markerEdge m (k.idleStep b.1) (d.rdB (objKey (0x3A00 + m) 9))
    else d

/-! ### Events and acquisition triggers -/

/-- EVENT_LAUNCH (R476, R477): a production of the canvas event line at its launch tick. -/
def eventLaunchOp (n : Nat) (d : Dev) : Dev :=
  d.launchEntry n .event fun d1 e => d1.produce (canvasLine n (fld e.w 35 32))

/-- A channel of the acquisition engine beside its objects. -/
def Dev.acqSt (d : Dev) (c : Nat) : AcqSt := tabGet {} d.acq c

/-- Changes a channel. -/
def Dev.setAcq (d : Dev) (c : Nat) (a : AcqSt) : Dev := { d with acq := tabSet {} d.acq c a }

/-- ACQ_STATE of a channel. -/
def Dev.acqState (d : Dev) (c : Nat) : Nat := d.rd (unitKey 0x510013 c)

/-- A condition of a channel is met at a tick (R331): ignored unless it is enabled and the channel evaluates. -/
def Dev.addCond (d : Dev) (c bit tick : Nat) : Dev :=
  let st := d.acqState c
  if d.bit (unitKey 0x51000A c) bit && (st == 1 || st == 2 || st == 3) then
    d.setAcq c { d.acqSt c with conds := (d.acqSt c).conds ++ [(bit, tick)] }
  else d

/-- ACQTRIG_LAUNCH (R331): condition SWTRIG of every channel of the tile, at the launch tick + 18. -/
def acqtrigLaunchOp (n : Nat) (d : Dev) : Dev :=
  d.launchEntry n .acqtrig fun d1 e =>
    (List.range 16).foldl (fun f i => f.addCond (16 * tileOf n + i) (fld e.w 34 32) (e.tick + 18)) d1

/-! ### Segment jumps (R168 to R175) -/

/-- The first boundary of a stroke at or after a tick (R168). -/
def Stroke.nextBoundary (s : Stroke) (t : Nat) : Option Nat :=
  let starts := s.plays.filterMap fun p =>
    let lo := max t (if p.1 = s.start then p.1 + 1 else p.1)
    let k := if p.2.2.2 = 0 then 0 else ceilDiv (lo - p.1) p.2.2.2
    if k < p.2.2.1 then some (p.1 + k * p.2.2.2) else none
  match starts with
  | a :: l => some (l.foldl min a)
  | [] => if t ≤ s.endTick then some s.endTick else none

/-- SEGJUMP_LAUNCH (R169 to R174). -/
def segjumpLaunchOp (n : Nat) (d : Dev) : Dev :=
  d.launchEntry n .segjump fun d1 e =>
    match d1.targetOf n (fld e.w 35 32) with
    | none => d1
    | some t =>
      match d1.stroke t with
      | none => d1.flag (strokeFlags n) 4
      | some s =>
        if s.n ≠ n ∨ s.endTick ≤ e.tick then d1.flag (strokeFlags n) 4
        else
          match s.nextBoundary (e.tick + 12) with
          | none => (d1.flag (strokeFlags n) 2).flag (strokeFlags n) 3
          | some b =>
            let d2 := if s.jump.isSome then d1.flag (strokeFlags n) 5 else d1
            d2.setStroke t (some { s with jump := some { daddr := fld e.w 63 42, at_ := e.tick, boundary := b } })

/-- A stroke as it goes on from the boundary of the jump that is pending on it (R170, R171). -/
def Dev.afterJump (d : Dev) (s : Stroke) : Stroke :=
  match s.jump with
  | none => s
  | some j =>
    let ch := d.chain s.n j.daddr j.boundary
    let kept := (s.plays.filter fun p => decide (p.1 < j.boundary)).map fun p =>
      (p.1, p.2.1, min p.2.2.1 (if p.2.2.2 = 0 then 0 else (j.boundary - p.1) / p.2.2.2), p.2.2.2)
    { s with plays := kept ++ ch.1, endTick := ch.2, jump := none, page := none }

/-- JUMP_EFFECT (R170, R171, R175): the stroke goes on with the new chain at the boundary. -/
def jumpEffectOp (t : Target) (d : Dev) : Dev :=
  match d.stroke t with
  | none => d
  | some s =>
    match s.jump with
    | none => d
    | some j =>
      if d.epoch < j.boundary then d
      else
        let late := match s.nextBoundary (j.at_ + 1) with
          | some b => decide (b < j.boundary)
          | none => false
        let d1 := (d.setStroke t (some (d.afterJump s))).streamStates (s.plays ++ (d.afterJump s).plays)
        if late then d1.flag (strokeFlags s.n) 2 else d1

/-- STROKE_END (R164): the target returns to baseline. Samples that FINE delays past the end still leave in this tick
(R218). -/
def strokeEndOp (t : Target) (d : Dev) : Dev :=
  match d.stroke t with
  | none => d
  | some s =>
    if s.endTick ≤ d.epoch ∧ s.jump.isNone then
      let d1 := d.setStroke t none
      let d2 := if s.fine = 0 ∨ s.endTick < d.epoch then d1
        else { d1 with out := { d1.out with tails := tabSet none d1.out.tails (targetKey t) (some s) } }
      d2.streamStates s.plays
    else d

/-! ### Stored samples (R153 to R156, R162, R183) -/

/-- RATE of a segment: 2^RATE output samples for one stored. -/
def segRate (w : W128) : Nat := fld w 53 52

/-- Bytes of a stored sample (R155). -/
def sampleBytes (w : W128) : Nat := if fld w 55 54 = 0 then 4 else 2

/-- Stored samples of one play (R156). -/
def segStored (w : W128) : Nat := segLen w / 2 ^ segRate w

/-- Output samples of baseline before each play (R162). -/
def deadSamples (w : W128) : Nat := if keepsRule w then 0 else 48

/-- The play of a stroke at a tick: its first tick, its descriptor, the ticks of one play. -/
def Stroke.playAt (s : Stroke) (t : Nat) : Option (Nat × Nat × Nat) :=
  (s.plays.find? fun p => decide (p.1 ≤ t ∧ t < p.1 + p.2.2.1 * p.2.2.2)).map fun p =>
    (p.1 + (t - p.1) / p.2.2.2 * p.2.2.2, p.2.1, p.2.2.2)

/-- What sounds at output sample m = 2E + e of a stroke, FINE left out: the descriptor and the sample of its play; none at
baseline (R162). -/
def Dev.soundAt (d : Dev) (s : Stroke) (m : Nat) : Option (W128 × Nat) :=
  (s.playAt (m / 2)).bind fun p =>
    let w := tabGet 0 d.eas.desc p.2.1
    let first := 2 * p.1 + deadSamples w
    if first ≤ m ∧ m < first + segLen w then some (w, m - first) else none

/-- The stored sample of a stroke that is due at an output sample, as (descriptor, stored index). -/
def Dev.storedAt (d : Dev) (s : Stroke) (m : Nat) : Option (W128 × Nat) :=
  (d.soundAt s m).bind fun x => if x.2 % 2 ^ segRate x.1 = 0 then some (x.1, x.2 / 2 ^ segRate x.1) else none

/-! ### Streams (R183 to R192) -/

/-- A stream beside its objects. -/
def Dev.streamSt (d : Dev) (s : Nat) : StreamSt := tabGet {} d.out.streams s

/-- The byte at a position of the stream, when the head copy or the ring holds it (R187). -/
def StreamSt.byteAt (v : StreamSt) (pos : Nat) : Option Byte :=
  if pos < v.head.length then v.head[pos]? else if v.ringAt ≤ pos then v.ring[pos - v.ringAt]? else none

/-- Whether a byte was lost to an uncorrectable error (R192). -/
def StreamSt.isLost (v : StreamSt) (pos : Nat) : Bool := v.lost.any fun r => decide (r.1 ≤ pos ∧ pos < r.2)

/-- The value of so many bytes from a position, when none of them is missing (R192). -/
def StreamSt.sample (v : StreamSt) (pos bytes : Nat) : Option Nat :=
  ((List.range bytes).mapM fun i => if v.isLost (pos + i) then none else v.byteAt (pos + i)).map ofLe

/-- Changes a stream. Bytes before READ_POS leave the ring; FILL counts those in it, MIN_FILL the lowest. -/
def Dev.setStream (d : Dev) (s : Nat) (v : StreamSt) : Dev :=
  let pos := d.rd (unitKey 0x488008 s)
  let v1 := { v with ring := v.ring.drop (pos - v.ringAt), ringAt := max v.ringAt pos }
  let fill := v1.ring.length
  let d1 := d.wr (unitKey 0x488009 s) fill
  let d2 := if fill < d1.rd (unitKey 0x48800A s) then d1.wr (unitKey 0x48800A s) fill else d1
  { d2 with out := { d2.out with streams := tabSet {} d2.out.streams s v1 } }

/-- Whether a stream's refill reads: a shot of the job that holds it is in progress (R187). -/
def Dev.streamRuns (d : Dev) (k : Nat) : Bool :=
  d.rd (unitKey 0x488001 k) != 0 && d.resident.any fun j => j.held.streams.contains k && j.inShot

/-- The bytes that a refill read brings: as many as arrive, as the stream still has, and as the ring has space for. -/
def Dev.refillBytes (d : Dev) (k bytes : Nat) : Nat :=
  let v := d.streamSt k
  min bytes (min (d.rd (unitKey 0x488004 k) - (v.ringAt + v.ring.length)) (d.rd (unitKey 0x488005 k) - v.ring.length))

/-- STREAM_REFILL (R187): a read returns into the ring, from DDR_ADDR + HEAD_BYTES on and in order; what strokes have
passed by is not fetched (R192). -/
def streamRefillOp (k bytes : Nat) (d : Dev) : Dev :=
  if d.streamRuns k then
    let v := d.streamSt k
    d.setStream k { v with
      ring := v.ring ++ ddrRead d.ddr (d.rd (unitKey 0x488003 k) + v.ringAt + v.ring.length) (d.refillBytes k bytes) }
  else d

/-- A sample of a stream that is due in the tick: the target's key, the output sample at which it is due, the stream, its
position in the stream and its bytes. -/
structure Due where
  key : Nat
  at_ : Nat
  stream : Nat
  pos : Nat
  bytes : Nat
  deriving DecidableEq, Repr

/-- The samples that an output sample adds to those that the tick takes from streams. -/
def Dev.dueAt (d : Dev) (m : Nat) (l : List Due) : List Due :=
  d.out.strokes.foldl (fun l p =>
    match p.2.map d.afterJump with
    | none => l
    | some s =>
      if s.start ≤ m / 2 ∧ m / 2 < s.endTick then
        match d.storedAt s m with
        | none => l
        | some x =>
          if fld x.1 22 22 = 0 then l
          else
            let k := fld x.1 28 23
            let before := ((l.filter fun u => u.stream == k).map (·.bytes)).sum
            l ++ [{ key := p.1, at_ := m, stream := k, pos := d.rd (unitKey 0x488008 k) + before, bytes := sampleBytes x.1 }]
      else l) l

/-- The samples of streams that are due in the tick, in the order in which they are taken (R183). DESIGN CHOICE (log entry
115): of two strokes on one stream at one output sample, that of the lower target takes the earlier sample. -/
def Dev.streamDues (d : Dev) : List Due := d.dueAt (2 * d.epoch + 1) (d.dueAt (2 * d.epoch) [])

/-- The first output sample of the tick at which a stroke reads past the end of its stream (R191). -/
def Dev.pastEnd (d : Dev) (t : Target) : Option Due :=
  d.streamDues.find? fun u => u.key == targetKey t && decide (d.rd (unitKey 0x488004 u.stream) < u.pos + u.bytes)

/-- The first sample of the tick that a stroke finds missing (R192). -/
def Dev.missing (d : Dev) (t : Target) : Option Due :=
  d.streamDues.find? fun u => u.key == targetKey t && decide (u.pos + u.bytes ≤ d.rd (unitKey 0x488004 u.stream))
    && ((d.streamSt u.stream).sample u.pos u.bytes).isNone

/-- UNDERRUN (R192): the stroke plays baseline from the first missing sample to its end, and the shot is SPOILED. STREAM_ECC
is set when the sample was lost to an uncorrectable error. -/
def underrunOp (t : Target) (d : Dev) : Dev :=
  match d.stroke t, d.missing t with
  | some s, some u =>
    if s.muted.isNone then
      let ecc := (List.range u.bytes).any fun i => (d.streamSt u.stream).isLost (u.pos + i)
      let d1 := (d.setStroke t (some { s with muted := some u.at_, starved := true })).streamState u.stream
      let d2 := (d1.flag (strokeFlags s.n) 8).flag (unitKey 0x48800B u.stream) 0
      (if ecc then d2.flag (unitKey 0x48800B u.stream) 2 else d2).spoilThread s.n
    else d
  | _, _ => d

/-- STREAM_END (R191): a stroke plays baseline from the first sample past the end of its stream. -/
def streamEndOp (t : Target) (d : Dev) : Dev :=
  match d.stroke t, d.pastEnd t with
  | some s, some u =>
    if s.muted.isNone then
      ((d.setStroke t (some { s with muted := some u.at_ })).flag (strokeFlags s.n) 9).flag (unitKey 0x48800B u.stream) 1
    else d
  | _, _ => d

/-- FLUX_RANGE_SWITCH_END (R224): the hold at 0 V ends early and the land follows the new range. -/
def fluxRangeSwitchEndOp (c : Nat) (d : Dev) : Dev := d.setFlux c { d.fluxSt c with switchEnd := none }

/-! ### Meanings -/

/-- STROKE_LAUNCH. -/
def execStrokeLaunch (n : Nat) (s : State) : Host.Outcome State Fault Refusal := .next (s.onNow (strokeLaunchOp n))
/-- READ_LAUNCH. -/
def execReadLaunch (n : Nat) (s : State) : Host.Outcome State Fault Refusal := .next (s.onNow (readLaunchOp n))
/-- FLUXHOLD_LAUNCH. -/
def execFluxholdLaunch (n : Nat) (s : State) : Host.Outcome State Fault Refusal := .next (s.onNow (fluxholdLaunchOp n))
/-- FRAME_LAUNCH. -/
def execFrameLaunch (n : Nat) (s : State) : Host.Outcome State Fault Refusal := .next (s.onNow (frameLaunchOp n))
/-- MARK_LAUNCH. -/
def execMarkLaunch (n : Nat) (s : State) : Host.Outcome State Fault Refusal := .next (s.onNow (markLaunchOp n))
/-- MARKER_EDGE. -/
def execMarkerEdge (m : Nat) (s : State) : Host.Outcome State Fault Refusal := .next (s.onNow (markerEdgeOp m))
/-- MARKER_IDLE_RETURN. -/
def execMarkerIdleReturn (m : Nat) (s : State) : Host.Outcome State Fault Refusal :=
  .next (s.onNow (markerIdleReturnOp m))
/-- EVENT_LAUNCH. -/
def execEventLaunch (n : Nat) (s : State) : Host.Outcome State Fault Refusal := .next (s.onNow (eventLaunchOp n))
/-- ACQTRIG_LAUNCH. -/
def execAcqtrigLaunch (n : Nat) (s : State) : Host.Outcome State Fault Refusal := .next (s.onNow (acqtrigLaunchOp n))
/-- SEGJUMP_LAUNCH. -/
def execSegjumpLaunch (n : Nat) (s : State) : Host.Outcome State Fault Refusal := .next (s.onNow (segjumpLaunchOp n))
/-- JUMP_EFFECT. -/
def execJumpEffect (t : Target) (s : State) : Host.Outcome State Fault Refusal := .next (s.onNow (jumpEffectOp t))
/-- STROKE_END. -/
def execStrokeEnd (t : Target) (s : State) : Host.Outcome State Fault Refusal := .next (s.onNow (strokeEndOp t))
/-- STREAM_REFILL. -/
def execStreamRefill (k bytes : Nat) (s : State) : Host.Outcome State Fault Refusal :=
  .next (s.onNow (streamRefillOp k bytes))
/-- UNDERRUN. -/
def execUnderrun (t : Target) (s : State) : Host.Outcome State Fault Refusal := .next (s.onNow (underrunOp t))
/-- STREAM_END. -/
def execStreamEnd (t : Target) (s : State) : Host.Outcome State Fault Refusal := .next (s.onNow (streamEndOp t))
/-- FLUX_RANGE_SWITCH_END. -/
def execFluxRangeSwitchEnd (c : Nat) (s : State) : Host.Outcome State Fault Refusal :=
  .next (s.onNow (fluxRangeSwitchEndOp c))

end Sys2Proof.Machine
end

