-- ==== Sys2Proof/Machine/Readout.lean ====
section
/-! DEFINITION. The readout receive chain (chapter 06): windows, down-conversion, FIR, integration, discrimination, the
readout result and the decision word, and the decisions of a thread (chapter 07). -/

namespace Sys2Proof.Machine

/-! ### Windows (R261 to R265) -/

/-- Reference time of a window's last sample. -/
def Win.last (w : Win) : Nat := w.first + 64 * (w.count - 1)

/-- L: the land tick of a window's last sample (R262). -/
def Win.land (w : Win) : Nat := w.last / 32

/-- D_w: the dump tick (R263). -/
def Win.dump (w : Win) : Nat := w.land + 46 + w.taps

/-- The tick in which a window's first sample reaches the integrator (R242, R263). -/
def Win.arrive (w : Win) : Nat := w.first / 32 + 43 + w.taps

/-- Changes the first window of a slot that satisfies a test. -/
def Dev.modWin (d : Dev) (slot : Nat) (p : Win → Bool) (f : Win → Win) : Dev :=
  let r := d.slotRx slot
  match r.wins.findIdx? p with
  | none => d
  | some i => d.setSlotRx slot { r with wins := r.wins.modify i f }

/-- The flags object of a slot's chain. -/
def Dev.chainFlags (d : Dev) (slot : Nat) : Nat := unitKey 0x300053 (d.slotQubit slot)

/-- WINDOW_OPEN (R263): a window opens on a free integrator, or is refused. -/
def windowOpenOp (slot : Nat) (d : Dev) : Dev :=
  let r := d.slotRx slot
  let fresh : Win → Bool := fun w => !w.opened && !w.refused
  match r.wins.find? fresh with
  | none => d
  | some w =>
    if d.epoch < w.arrive then d
    else
      let busy := (r.wins.filter fun v => v.opened && decide (w.arrive ≤ v.dump)).length
      if busy < 2 then d.modWin slot fresh fun v => { v with opened := true }
      else ((d.modWin slot fresh fun v => { v with refused := true }).flag (d.chainFlags slot) 5).spoil w.job

/-- The windows of a slot that have opened, or will open when their first sample comes (R263). -/
def SlotRx.opening (r : SlotRx) : List Win :=
  r.wins.foldl (fun l w =>
    if w.refused then l
    else if w.opened || decide ((l.filter fun v => decide (w.arrive ≤ v.dump)).length < 2) then l ++ [w] else l) []

/-! ### Down-conversion, FIR and integration (R252 to R260, R268, R269) -/

/-- One mixer sample before rounding (R252), in units of 2⁻²⁸: x · 2^DGAIN · e^(−jθ) at ADC sample a, with the FREQ and VPH of
the receive frame. -/
def mixSample (fv : W48 × W48) (la dgain : Nat) (a : Int) (code : Int) : Int × Int :=
  let t := ncoLookup (BitVec.ofInt 48 ((fv.1.toNat : Int) * (2 * a - la) + fv.2.toNat))
  cscale (code * (2 ^ dgain : Nat)) (t.1, -t.2)

/-- One FIR output before rounding (R258, R259), from the chain outputs, newest first. -/
def firSample (coeffs xs : List (Int × Int)) : Int × Int :=
  (coeffs.zip xs).foldl (fun s c => cadd s (cmul c.1 c.2)) (0, 0)

/-- The FIR coefficients of a qubit (R258, R259). -/
def Dev.firCoeffs (d : Dev) (q taps : Nat) : List (Int × Int) :=
  (List.range taps).map fun i =>
    let p := parts16 (d.rd (unitKey 0x300080 q + i))
    if d.rd (unitKey 0x300043 q) = 1 then p else (p.1, 0)

/-- The weight of a window sample (R266, R268). -/
def Dev.kernelWeight (d : Dev) (tile entry i : Nat) : Int × Int :=
  let k := i / 2 ^ bits entry 23 22
  let len := bits entry 47 32
  let addr := tile * 2 ^ 22 + bits entry 21 0
  if k < len then parts16 (tabGet 0 d.eas.store (addr + k)).toNat
  else if entry.testBit 24 then parts16 (tabGet 0 d.eas.store (addr + len - 1)).toNat
  else (0, 0)

/-- Whether a reference time lies in a stretch of zeros, which a set of RX_ENABLE ended or has yet to end (R255). -/
def inDark (l : List (Nat × Option Nat)) (r : Nat) : Bool :=
  l.any fun x => decide (x.1 ≤ r) && x.2.all fun s => decide (r < s)

/-- Whether a sample of a slot at the fixed-chain tap (1) or the FIR output (2) is zero because RX_ENABLE is or was clear
(R255). -/
def SlotRx.isDark (s : SlotRx) (tap r : Nat) : Bool :=
  inDark (s.dark.map fun x => (x.1, x.2.map fun e => if tap = 1 then e.1 else e.2)) r

/-- Whether a sample of a slot at the fixed-chain tap (1) or the FIR output (2) is valid (R274 to R277). -/
def SlotRx.isValid (s : SlotRx) (tap r : Nat) : Bool :=
  !s.isDark tap r && !inRun (if tap = 1 then s.fixRuns else s.runs) r

/-- The code of a line's converter, so many ticks ago and at a place in its tick: the signal is outside the device (log entry
141). -/
def Dev.adcCode (d : Dev) (line ago a : Nat) : Int := (Config.adc line (d.rx.ticks - ago) a).toInt

/-- Saturations at reference times fall in the land intervals of windows (R284). -/
def SlotRx.saturated (r : SlotRx) (ts : List Int) : SlotRx :=
  if ts = [] then r
  else { r with
    wins := r.wins.map fun w =>
      if ts.any (fun t => decide ((w.first : Int) ≤ t ∧ t ≤ w.last)) then { w with sat := true } else w }

/-- The reference times at which the samples of a stage saturated. -/
def StageOut.satTimes (s : StageOut) : List Int :=
  (s.sats.zipIdx.filter fun p => p.1 != 0).map fun p => 2 * (s.first + (p.2 * s.step : Nat))

/-- A saturation flag of a bound slot is set and counted; a slot bound to no job raises none (R255). -/
def Dev.chainSat (d : Dev) (slot bit n : Nat) : Dev :=
  if n = 0 ∨ !d.slotBound slot then d else d.flagN (d.chainFlags slot) bit n

/-- The mixer outputs of the tick (R252), over the codes of a full-scale converter. -/
def Dev.mixTick (d : Dev) (slot : Nat) : Dev :=
  let r := d.slotRx slot
  let line := slot / 16
  let a0 : Int := 16 * d.epoch
  let codes := (List.range 16).map (d.adcCode line 0)
  let la := d.lineAlign line
  let dgain := d.rd (unitKey 0x300041 (d.slotQubit slot))
  let m := roundStage a0 1 11 18 (codes.zipIdx.map fun c =>
    mixSample (r.at_ (32 * d.epoch + 2 * c.2)) la dgain (a0 + c.2) c.1)
  let ends := (codes.zipIdx.filter fun c => c.1 == -2048 || c.1 == 2047).map fun c => 2 * (a0 + c.2)
  let mix := r.mix ++ m.vals
  (d.setSlotRx slot ({ r with mix := mix.drop (mix.length - 505) }.saturated (ends ++ m.satTimes))).chainSat slot 0 m.sats.sum

/-- The newest samples of a stage, as many as 32 ADC samples bring. -/
def StageOut.newest (s : StageOut) : StageOut :=
  let n := s.sats.length - 32 / s.step
  { first := s.first + (n * s.step : Nat), step := s.step, vals := s.vals.drop n, sats := s.sats.drop n }

/-- The last 499 mixer outputs up to the one that the fixed chain's output needs last; those before the slot was bound are 0. -/
def SlotRx.chainInput (r : SlotRx) : List (Int × Int) :=
  let l := r.mix.take (r.mix.length - 6)
  List.replicate (499 - l.length) (0, 0) ++ l

/-- The stages of the fixed chain for its output j: its response takes in the 249 ADC samples on each side (R256). -/
def SlotRx.chainStages (r : SlotRx) (j : Nat) : List StageOut :=
  (fixedChain { first := 32 * (j : Int) - 249, step := 1, vals := r.chainInput, sats := [] }).drop 1

/-- Output j of the fixed chain, and the FIR output whose newest input it is (R256, R258). -/
def Dev.chainStep (d : Dev) (slot j : Nat) : Dev :=
  let r := d.slotRx slot
  let q := d.slotQubit slot
  let taps := d.slotTaps slot
  let stages := r.chainStages j
  let news := stages.map StageOut.newest
  let x := if r.isDark 1 (64 * j) then ((0, 0) : Int × Int) else ((stages.getLast?.bind (·.vals.getLast?)).getD (0, 0))
  let chain := ((j, x) :: r.chain).take 80
  let y := roundStage (32 * (j : Int)) 32 14 16 [firSample (d.firCoeffs q taps) (chain.map (·.2))]
  let t : Int := 64 * (j : Int) - 32 * ((taps : Int) - 1)
  let v := if r.isDark 2 t.toNat then ((0, 0) : Int × Int) else y.vals.headD (0, 0)
  let fir := if t < 0 then r.fir else ((j, t.toNat, v) :: r.fir).take 16
  let fs := if y.sats.sum = 0 then [] else [t]
  let d1 := d.setSlotRx slot ({ r with chain := chain, fir := fir }.saturated (news.flatMap StageOut.satTimes ++ fs))
  (d1.chainSat slot 1 (news.map fun s => s.sats.sum).sum).chainSat slot 2 y.sats.sum

/-- The readout slots whose chains run (R255): those of jobs that hold units, and those of which a job that has ended still awaits
samples (R341). -/
def Dev.liveSlots (d : Dev) : List Nat :=
  (d.hub.jobs.flatMap fun j => j.held.canvases.filterMap (·.readSlot) ++ (if j.st.resident then [] else
    (j.held.acq.filter fun c => d.rd (unitKey 0x510002 c) != 0).map fun c => d.rd (unitKey 0x510003 c))).dedup

/-- Every running chain takes the ADC samples of the tick (R252 to R260); an output of the fixed chain forms in every second tick,
when the last sample of its response has come. DESIGN CHOICE (log entry 142): the saturations of a stage are flagged in the tick in
whose samples they first show. -/
def Dev.chainTick (d : Dev) : Dev :=
  let live := d.liveSlots
  let idle := d.rx.slots.map fun p => if live.contains p.1 then p else (p.1, { p.2 with mix := [], chain := [], fir := [] })
  let d0 := { d with rx := { d.rx with slots := idle } }
  live.foldl (fun e s =>
    let e1 := e.mixTick s
    if e.epoch % 2 = 1 ∧ 15 ≤ e.epoch then e1.chainStep s ((e.epoch - 15) / 2) else e1) d0

/-- The FIR outputs of a slot that reach the integrators in the tick, as (reference time, value) (R242). -/
def Dev.firArrivals (d : Dev) (slot : Nat) : List (Nat × Int × Int) :=
  ((d.slotRx slot).fir.filter fun y => 2 * y.1 + 44 == d.epoch).map (·.2)

/-- Whether a window takes the sample of a reference time. -/
def Win.takes (w : Win) (r : Nat) : Bool := !w.refused && w.iq.isNone && decide (w.first ≤ r ∧ r ≤ w.last)

/-- The DSP core that serves a slot and is attached to it (R391, R411). -/
def Dev.coreOf (d : Dev) (slot : Nat) : Option Nat :=
  (List.range 17).find? fun c =>
    d.rd (unitKey 0x580002 c) == slot / 64 && d.bit (unitKey 0x580004 c) (slot % 64)
      && (let st := d.rd (unitKey 0x580001 c); st == 1 || st == 2 || st == 4)

/-- A core. -/
def Dev.core (d : Dev) (c : Nat) : DspCore := tabGet {} d.dsp c

/-- Changes a core. -/
def Dev.setCore (d : Dev) (c : Nat) (k : DspCore) : Dev := { d with dsp := tabSet {} d.dsp c k }

/-- A FIR output enters the feed ring of a FED slot of a core (R392): the device, and the address. -/
def Dev.feed (d : Dev) (c slot : Nat) (y : Int × Int) : Option (Dev × Nat) :=
  let map := d.rd (unitKey 0x580005 c)
  if map.testBit (slot % 64) then
    let hi := (onesOf (slot % 64) map).length
    let base := if hi = 0 then bits (d.rd (unitKey 0x580006 c)) 12 0 else bits (d.rd (unitKey 0x580006 c)) 28 16
    let len := if hi = 0 then bits (d.rd (unitKey 0x580007 c)) 13 0 else bits (d.rd (unitKey 0x580007 c)) 29 16
    if len = 0 then none
    else
      let k := d.core c
      let pos := tabGet 0 k.fpos hi
      let a := (base + pos) % 8192
      some (d.setCore c { k with
        xm := tabSet 0 k.xm a (BitVec.ofNat 32 (toU 16 y.1 + 2 ^ 16 * toU 16 y.2)), fpos := tabSet 0 k.fpos hi ((pos + 1) % len) }, a)
  else none

/-- Whether a FIR output of a FED slot of a core is written in the tick (R375). -/
def Dev.feedsNow (d : Dev) (c : Nat) : Bool :=
  (onesOf 64 (d.rd (unitKey 0x580005 c))).any fun b =>
    let s := 64 * d.rd (unitKey 0x580002 c) + b
    (d.firArrivals s).any fun y => (d.slotRx s).wins.any fun w => w.takes y.1

/-- A FIR output reaches the integrators of its slot (R269) and, once, the feed ring of a FED slot (R392). -/
def Dev.takeFir (d : Dev) (slot : Nat) (y : Nat × Int × Int) : Dev :=
  let r := d.slotRx slot
  if r.wins.any (fun w => w.takes y.1) then
    let f := (d.coreOf slot).bind fun c => d.feed c slot y.2
    let q := d.slotQubit slot
    let d1 := match f with
      | some x => x.1
      | none => d
    d1.setSlotRx slot { r with
     wins := r.wins.map fun w =>
      if w.takes y.1 then
        let i := (y.1 - w.first) / 64
        { w with
          acc := cadd w.acc (cmul (d.kernelWeight (slot / 64) (d.rd (unitKey 0x300060 q + w.ksel)) i) y.2)
          invalid := w.invalid || !r.isValid 2 y.1
          fed := match f with
            | some x => (if w.fed.2 = 0 then x.2 else w.fed.1, w.fed.2 + 1)
            | none => w.fed }
      else w }
  else d

/-- The FIR outputs that arrive in the tick are integrated and fed. -/
def Dev.integrateTick (d : Dev) : Dev :=
  d.liveSlots.foldl (fun e s => (e.firArrivals s).foldl (fun f y => f.takeFir s y) e) d

/-! ### Discriminator (R279 to R283) -/

/-- LINEAR (R280). -/
def Dev.discLinear (d : Dev) (q : Nat) (i qv : Int) : Nat :=
  let p := divRound (i * sext 16 (d.rd (unitKey 0x300047 q)) + qv * sext 16 (d.rd (unitKey 0x300048 q))) (2 ^ 14)
  let th := sext 32 (d.rd (unitKey 0x300049 q))
  let g : Int := d.rd (unitKey 0x30004A q)
  if th + g < p then 1 else if p < th - g then 0 else 3

/-- CENTRES2 and CENTRES3 (R281): k centres. -/
def Dev.discCentres (d : Dev) (q k : Nat) (i qv : Int) : Nat :=
  let dist : Nat → Int := fun a =>
    let ci := sext 32 (d.rd (unitKey 0x30004B q + 2 * a))
    let cq := sext 32 (d.rd (unitKey 0x30004C q + 2 * a))
    (i - ci) ^ 2 + (qv - cq) ^ 2
  let ds := (List.range k).map fun a => (dist a, a)
  let sorted := ds.mergeSort fun x y => decide (x.1 ≤ y.1)
  let best := sorted.getD 0 (0, 3)
  let next := sorted.getD 1 (0, 3)
  let radius : Int := d.rd (unitKey 0x300051 q)
  if next.1 - best.1 ≤ (d.rd (unitKey 0x300052 q) : Int) ∨ (radius ≠ 0 ∧ radius ^ 2 < best.1) then 3 else best.2

/-- The outcome of a window under DISC_MODE 0 to 2, with FORCED (R278, R280, R281). -/
def Dev.discriminate (d : Dev) (slot : Nat) (w : Win) (iq : Int × Int × Bool × Bool) : Nat × Bool :=
  let q := d.slotQubit slot
  if w.refused || iq.2.2.2 then (3, true)
  else
    match d.rd (unitKey 0x300046 q) with
    | 0 => (d.discLinear q iq.1 iq.2.1, false)
    | 1 => (d.discCentres q 2 iq.1 iq.2.1, false)
    | _ => (d.discCentres q 3 iq.1 iq.2.1, false)

/-- WINDOW_DUMP (R269, R278, R283): I and Q of a window form, and in modes 0 to 2 its outcome with the parameters in force; a
refused window has zeros. -/
def windowDumpOp (slot : Nat) (d : Dev) : Dev :=
  let ready : Win → Bool := fun w => (w.opened || w.refused) && w.iq.isNone && decide (w.dump ≤ d.epoch)
  match (d.slotRx slot).wins.find? ready with
  | none => d
  | some w =>
    let q := d.slotQubit slot
    let sh := d.rd (unitKey 0x300045 q)
    let v : Int × Int := if w.refused then (0, 0) else (rshift w.acc.1 sh, rshift w.acc.2 sh)
    let s := (satI 32 v.1, satI 32 v.2)
    let iq := (s.1, s.2, w.sat || decide (0 < changed v s), w.invalid)
    let dsp := d.rd (unitKey 0x300046 q) == 3
    let o := d.discriminate slot w iq
    let d1 := if changed v s = 0 then d else d.flagN (d.chainFlags slot) 3 (changed v s)
    let d2 := if w.invalid then d1.flag (d.chainFlags slot) 4 else d1
    d2.modWin slot ready fun u =>
      { u with
        iq := some iq, core := d.coreOf slot, dsp := dsp
        decision := if dsp then none else some (o.1, o.2, false), due := w.dump + 3 }

/-! ### Decision words and results (R284, R289 to R297) -/

/-- The decision word (R290). -/
def Dev.decisionWord (d : Dev) (w : Win) (o : Nat) (forced dsp : Bool) : W64 :=
  BitVec.ofNat 64 (o % 4 + bitAt forced 2 + bitAt dsp 3 + 2 ^ 4 * w.dtag + 2 ^ 12 * w.n + 2 ^ 21 * (d.chip % 64)
    + 2 ^ 27 * (w.seq % 16) + 2 ^ 31 + 2 ^ 32 * (d.epoch % 2 ^ 16) + 2 ^ 48 * (w.shot % 256))

/-- The readout result (R284). -/
def resultBytes (w : Win) (q o : Nat) (forced : Bool) (iq : Int × Int × Bool × Bool) : List Byte :=
  leI 4 iq.1 ++ leI 4 iq.2.1
    ++ le 1 (o % 4 + bitAt iq.2.2.2 2 + bitAt iq.2.2.1 3 + bitAt w.cut 4 + bitAt forced 5 + bitAt w.refused 6)
    ++ le 1 w.dtag ++ le 2 q ++ le 4 (w.first / 32)

/-- The handles on the chip that name a source, as (thread, handle) (R146, R291). -/
def Dev.handlesOf (d : Dev) (chip n dtag : Nat) : List (Nat × Nat) :=
  d.objs.filterMap fun p =>
    let idx := p.1 / 256
    let sub := p.1 % 256
    if 0x4000 ≤ idx ∧ idx < 0x4200 ∧ 0x30 ≤ sub ∧ sub ≤ 0x3F ∧ p.2.testBit 31 ∧ bits p.2 5 0 = chip
        ∧ bits p.2 14 6 = n ∧ bits p.2 22 15 = dtag then some (idx - 0x4000, sub - 0x30) else none

/-- A word uses a way of the bus in the first tick from `t` in which the way still has room (R293). -/
def Dev.useWay (d : Dev) (way cap t : Nat) : Dev × Nat :=
  let old := d.eas.carried.filter fun p => decide (d.epoch ≤ p.1 / 32)
  let key : Nat → Nat := fun k => way + 32 * (t + k)
  let k := ((List.range (old.length + 1)).find? fun k => decide (tabGet 0 old (key k) < cap)).getD 0
  ({ d with eas := { d.eas with carried := tabSet 0 old (key k) (tabGet 0 old (key k) + 1) } }, t + k)

/-- A word of the hub takes the link to a tile, then the tile's segment 3 ticks later: the tick by which it reaches the
threads there (R292, R293). -/
def Dev.fromHub (d : Dev) (tile t : Nat) : Dev × Nat :=
  let c := d.useWay (16 + tile) 32 t
  let g := c.1.useWay tile 64 (c.2 + 3)
  (g.1, g.2 + 3)

/-- A word of the hub goes to tiles: the ticks by which it reaches them. -/
def Dev.fromHubTo (d : Dev) (tiles : List Nat) (t : Nat) : Dev × Tab Nat :=
  tiles.foldl (fun a k => let x := a.1.fromHub k t; (x.1, tabSet 0 a.2 k x.2)) (d, [])

/-- A decision produced now on a tile takes its segment, and the link to the hub when handles of other tiles or other
chips want it (R292, R293): the tick by which it reaches the threads of its own tile, that in which the hub queues it for other
chips, and those by which it reaches the threads of other tiles. DEDUCED (log entry 143): the hub queues a word that nothing delayed
6 ticks after its production, as in the example. -/
def Dev.carryWord (d : Dev) (tile : Nat) (others : List Nat) (exported : Bool) : Dev × Nat × Nat × Tab Nat :=
  let a := d.useWay tile 64 d.epoch
  if others = [] ∧ exported = false then (a.1, a.2 + 3, a.2 + 6, [])
  else
    let b := a.1.useWay (8 + tile) 32 a.2
    let r := b.1.fromHubTo others b.2
    (r.1, a.2 + 3, b.2 + 6, r.2)

/-- A word goes to handles over the bus; it reaches a thread by a tick (R292). -/
def Dev.busSend (d : Dev) (hs : List (Nat × Nat)) (word : W64) (due : Nat → Nat) : Dev :=
  { d with eas := { d.eas with
      bus := d.eas.bus ++ hs.map fun p => { n := p.1, h := p.2, word := word, due := due p.1 } } }

/-- A word queues at a tick on each link that serves a chip of a mask, DEST the chips that the link serves (R297, R298); a chip
without a route is dropped, and counted where the block was received. -/
def Dev.exportWord (d : Dev) (chips : List Nat) (not_ : Option Nat) (word : W64) (t : Nat) : Dev :=
  (List.range 12).foldl (fun e k =>
    let cs := chips.filter fun c => e.route c == k
    if cs = [] ∨ not_ = some k then e
    else
      let l := e.link k
      let dest : W64 := BitVec.ofNat 64 (cs.foldl (fun a c => a + 2 ^ c) 0)
      e.setLink k { l with decisions := l.decisions ++ [(t, dest, word)] }) d

/-- A readout result joins the last batch of its flow, or opens a new one (R595). -/
def addResult (recs : List Rec) (flow job shot : Nat) (res : List Byte) : List Rec :=
  let isOpen : Rec → Bool := fun r => r.flow == flow && ofLe (r.bytes.take 2) == 0x10 && decide (r.bytes.length < 24 + 16 * 64)
  match recs.findIdx? isOpen with
  | some i => recs.modify i fun r =>
      { r with bytes := r.bytes.take 2 ++ le 2 (ofLe ((r.bytes.drop 2).take 2) + 1) ++ r.bytes.drop 4 ++ res }
  | none => recs ++ [{ flow := flow, bytes := le 2 0x10 ++ le 2 1 ++ le 4 0 ++ le 8 job ++ le 8 shot ++ res }]

/-- A record joins the results of an attempt: that of the shot in progress, or one that has ended and whose results have not left
(R341, R351, R405). -/
def Job.addRec (j : Job) (shot attempt : Nat) (r : Rec) : Job :=
  let mine : Attempt → Bool := fun a => a.shot == shot && a.attempt == attempt
  if j.phase = .shot ∧ j.shot = shot ∧ j.attempt = attempt then { j with recs := j.recs ++ [r] }
  else
    { j with
      tentative := j.tentative.map fun a => if mine a then { a with recs := a.recs ++ [r] } else a
      queued := j.queued.map fun a => if mine a then { a with recs := a.recs ++ [r] } else a }

/-- DECISION_PRODUCE (R282, R284, R289 to R293, R297, R400). -/
def decisionProduceOp (slot : Nat) (d : Dev) : Dev :=
  let q := d.slotQubit slot
  let ready : Win → Bool := fun w => w.iq.isSome && !w.produced && w.decision.isSome && decide (w.due ≤ d.epoch)
  match (d.slotRx slot).wins.find? ready with
  | none => d
  | some w =>
    match w.iq, w.decision with
    | some iq, some o =>
      let word := d.decisionWord w o.1 o.2.1 o.2.2
      let res := resultBytes w q o.1 o.2.1 iq
      let d1 := d.modWin slot ready fun v => { v with produced := true }
      let hs := d1.handlesOf (d1.chip % 64) w.n w.dtag
      let others := ((hs.map fun p => tileOf p.1).dedup).filter (· != tileOf w.n)
      let mask := d1.rd (unitKey 0x400045 w.n)
      let c := d1.carryWord (tileOf w.n) others (mask != 0)
      let d2 := c.1.busSend hs word fun m => if tileOf m = tileOf w.n then c.2.1 else tabGet 0 c.2.2.2 (tileOf m)
      let d3 := d2.exportWord ((onesOf 64 mask).filter (· != d2.chip)) none word c.2.2.1
      let d4 := (d3.wr (unitKey 0x300054 q) (ofLe res)).modJob w.job fun j => { j with
        windows := j.windows - 1, recs := addResult j.recs (slot / 64) j.seq w.shot res }
      let r := d4.slotRx slot
      (d4.setSlotRx slot { r with wins := r.wins.filter fun v => !(v.produced && (v.core.isNone || v.entered)) }).trace 1
        word.toNat
    | _, _ => d

/-! ### Decisions of a thread (R303 to R315, R320 to R322) -/

/-- A word reaches a register (R304). -/
def Dev.fillHandle (d : Dev) (n h : Nat) (word : W64) : Dev :=
  let v := word.toNat
  let r : DReg := { outcome := v % 4, seq := bits v 30 27, forced := v.testBit 2, dsp := v.testBit 3, at_ := d.epoch }
  let t := d.thread n
  let put : Dev → Dev := fun e => e.setThread n { t with handles := tabSet none t.handles h (some r) }
  match tabGet none t.handles h with
  | none => put d
  | some old => if old.seq = r.seq then d.flag (unitKey 0x400041 n) 3 else (put d).flag (unitKey 0x400041 n) 2

/-- DECISION_ARRIVAL (R292 to R294, R304): the oldest word for the handle, in its tick. DEDUCED (log entry 143): a word reaches the
threads in the tick by which R292 has it reach them, later by what it waited. -/
def decisionArrivalOp (n h : Nat) (d : Dev) : Dev :=
  match d.eas.bus.find? fun b => b.n == n && b.h == h with
  | none => d
  | some b =>
    if d.epoch < b.due then d
    else ({ d with eas := { d.eas with bus := d.eas.bus.eraseP fun c => c.n == n && c.h == h } }).fillHandle n h b.word

/-- The flags that a path held are raised when it commits (R322); the key 0 stands for the mark SPOILED, the key 1 for a
value of COMMIT_MARGIN, the key 2 for a trap and its frame. -/
def Dev.raiseHeld (d : Dev) (n : Nat) (fs : List (Nat × Nat × Nat)) : Dev :=
  fs.foldl (fun e f => if f.1 = 0 then e.spoilThread n
    else if f.1 = 1 then e.wr (unitKey 0x400046 n) f.2.1
    else if f.1 = 2 then
      (e.wr (unitKey 0x400008 n) f.2.1).setThread n { e.thread n with trapCount := (e.thread n).trapCount + 1 }
    else e.flagN f.1 f.2.1 f.2.2) d

/-- A branch that is not in time (R312): SK_LATE and SPOILED, held with a path while it is one. -/
def Dev.skLate (d : Dev) (x : CtxRef) (c : Ctx) : Dev × Ctx :=
  if x.path.isSome then (d, { c with flags := c.flags ++ [(unitKey 0x400041 x.n, 1, 1), (0, 0, 1)] })
  else ((d.flag (unitKey 0x400041 x.n) 1).spoilThread x.n, c)

/-- A context waiting in wait mode, in a fallback or in WAIT_DECISION takes a decision at T_c (R106, R311, R312). -/
def Dev.commitWait (d : Dev) (x : CtxRef) (c : Ctx) (h : Nat) (r : DReg) : Dev :=
  match c.wait with
  | .service _ =>
    let q := d.consume x c h
    match c.waitc with
    | some _ => d.setCtx x { c with wait := .mem }
    | none => q.1.setCtx x (q.2.serviceReturn (BitVec.ofNat 64 r.outcome))
  | .branch _ dt targets none =>
    let q := d.consume x c h
    q.1.setCtx x ((q.2.advance (d.epoch + dt)).jumpTo (targets.getD r.outcome 0))
  | .branch _ _ targets (some tb) =>
    let q := d.consume x c h
    let m := q.1.commitMargin x q.2 tb
    if d.epoch + 60 ≤ tb then m.1.setCtx x ((m.2.advance tb).jumpTo (targets.getD r.outcome 0))
    else
      let p := m.1.skLate x m.2
      p.1.setCtx x ((p.2.advance (d.epoch + 60)).jumpTo (targets.getD r.outcome 0))
  | _ => d

/-- The paths opened, at any depth, inside a list of paths (fuel: the nesting, R311). -/
def Thread.inside (t : Thread) : Nat → List Nat → List Nat
  | 0, ids => ids
  | fuel + 1, ids =>
    let more := (t.paths.filter fun p => (p.parent.map ids.contains).getD false && !ids.contains p.id).map (·.id)
    if more = [] then ids else t.inside fuel (ids ++ more)

/-- Paths go, with the branches inside them and their launch entries (R320, R322). -/
def Thread.squash (t : Thread) (ids : List Nat) : Thread :=
  { t with
    paths := t.paths.filter fun p => !ids.contains p.id
    pages := t.pages ++ deadPages (t.paths.filter fun p => ids.contains p.id)
    branches := t.branches.filter fun b => !((b.parent.map ids.contains).getD false)
    launch := t.launch.filter fun e => !((e.path.map ids.contains).getD false) }

/-- The marker changes of paths go (R322). -/
def Dev.squashMarks (d : Dev) (n : Nat) (ids : List Nat) : Dev :=
  d.pathMarks n fun i => if ids.contains i then none else some (some i)

/-- A path becomes the context it lies in: the thread's own, or an outer path that stays speculative (R315, R320). -/
def Dev.mergePath (d : Dev) (n : Nat) (p : SPath) (h : Nat) : Dev :=
  let t := d.thread n
  let up : Option Nat → Option Nat := fun q => if q = some p.id then p.parent else q
  let t1 := { t with
    paths := (t.paths.filter (·.id != p.id)).map fun q =>
      { q with parent := up q.parent, pages := if p.parent = some q.id then q.pages ++ p.pages else q.pages }
    branches := t.branches.map fun b => { b with parent := up b.parent }
    launch := t.launch.map fun e => { e with path := up e.path } }
  let d0 := d.pathMarks n fun i => some (up (some i))
  match p.parent with
  | some o =>
    match (t.paths.find? (·.id == o)) with
    | none => d0.setThread n t1
    | some outer =>
      d0.setThread n (t1.setCtx (some o) { p.ctx with
        issued := outer.ctx.issued ++ p.ctx.issued, consumed := h :: p.ctx.consumed
        flags := outer.ctx.flags ++ p.ctx.flags })
  | none =>
    let c := p.ctx
    let t2 := { t1 with
      pages := t.pages ++ p.pages
      main := { c with issued := t.main.issued ++ c.issued, shadow := [], consumed := [], flags := [], illegal := false }
      handles := (h :: c.consumed).foldl (fun hs k => tabSet none hs k none) t.handles }
    let d1 := (d0.setThread n t2).raiseHeld n c.flags
    if c.illegal then (d1.endCanvas n).spoilThread n
    else if c.wait = .done then d1.endCanvas n
    else
      match c.wait with
      | .barrier mask => if (d1.thread n).paths.isEmpty then d1.releaseBarrier n mask else d1
      | _ => d1

/-- A sketch-mode branch commits at T_c (R312, R315, R320). -/
def Dev.commitBranch (d : Dev) (n : Nat) (b : SBranch) (r : DReg) : Dev :=
  let t := d.thread n
  let own := (t.paths.filter (·.branch == b.id))
  let x : CtxRef := { n := n, path := b.parent }
  if d.epoch ≤ b.tb then
    match own.find? (·.outs.contains r.outcome) with
    | none => d
    | some p =>
      let lose := t.inside 4 ((own.filter (·.id != p.id)).map (·.id))
      let t1 := t.squash lose
      let m := (d.squashMarks n lose).commitMargin x { p.ctx with flags := [] } b.tb
      (m.1.setThread n { t1 with branches := t1.branches.filter (·.id != b.id) }).mergePath n
        { p with ctx := { p.ctx with flags := m.2.flags ++ p.ctx.flags } } b.h
  else
    let lose := t.inside 4 (own.map (·.id))
    let t1 := t.squash lose
    let d1 := (d.squashMarks n lose).setThread n { t1 with branches := t1.branches.filter (·.id != b.id) }
    let q := d1.consume x b.saved b.h
    let m := q.1.commitMargin x q.2 b.tb
    let p := m.1.skLate x m.2
    p.1.setCtx x ((p.2.advance (d.epoch + 60)).jumpTo (b.targets.getD r.outcome 0))

/-- Whether a context waits for the decision of a handle. -/
def Ctx.waitsFor (c : Ctx) (h : Nat) : Bool :=
  match c.wait with
  | .service k => k == h
  | .branch k _ _ _ => k == h
  | _ => false

/-- DECISION_COMMIT (R106, R305, R312, R320, R321): the thread's own wait, or the outermost branch on the handle, or the
paths that wait for it. -/
def decisionCommitOp (n h : Nat) (d : Dev) : Dev :=
  let t := d.thread n
  match tabGet none t.handles h with
  | none => d
  | some r =>
    if t.ended || t.inTrap.isSome then d
    else if t.paths.isEmpty then
      if t.main.waitsFor h then d.commitWait { n := n, path := none } t.main h r else d
    else
      let sees : Option Nat → Bool := fun p => match t.ctx p with
        | some c => (t.full c h).isSome
        | none => false
      match t.branches.find? fun b => b.h == h && sees b.parent with
      | some b => d.commitBranch n b r
      | none =>
        (t.paths.filter fun p => p.ctx.waitsFor h && (t.full p.ctx h).isSome).foldl
          (fun e p => e.commitWait { n := n, path := some p.id } p.ctx h r) d

/-! ### Decision blocks (R296 to R301) -/

/-- DECISION_BLOCK_SEND (R297, R301): at most one block every 2 ticks; a second word only for the same chips. -/
def decisionBlockSendOp (k : Nat) (d : Dev) : Dev :=
  let l := d.link k
  let idle := match l.blockAt with
    | some t => decide (t + 2 ≤ d.epoch)
    | none => true
  match l.decisions.filter fun w => decide (w.1 ≤ d.epoch) with
  | [] => d
  | a :: rest =>
    if d.linkUp k && idle then
      let two := match rest with
        | b :: _ => b.2.1 == a.2.1
        | [] => false
      let w1 : W64 := if two then (rest.headD a).2.2 else 0
      let late := (if a.1 + 6 < d.epoch then 1 else 0)
        + (if two && decide ((rest.headD a).1 + 6 < d.epoch) then 1 else 0)
      let d1 := (d.setLink k { l with
        decisions := (if two then (l.decisions.erase a).erase (rest.headD a) else l.decisions.erase a), blockAt := some d.epoch }).sendCell k (.decision a.2.1 a.2.2 w1)
      if late = 0 then d1 else d1.flagN 0x24F101 0 late
    else d

/-- A received word is delivered to the handles that name its source. A word for whose handles' jobs its CHIP or its SHOT does not
stand is discarded; so is one that no handle names, when it stands for no resident job (R298, R299). -/
def Dev.receiveWord (d : Dev) (word : W64) : Dev :=
  if !word.toNat.testBit 31 then d
  else
    let v := word.toNat
    let stands : Job → Bool := fun j => j.head.multiChip && j.head.chips.testBit (bits v 26 21) && j.shot % 256 == bits v 55 48
    let named := d.handlesOf (bits v 26 21) (bits v 20 12) (bits v 11 4)
    let hs := named.filter fun p => d.resident.any fun j => stands j && j.held.canvases.any (·.thread == p.1)
    if hs = [] ∧ (named ≠ [] ∨ !d.resident.any stands) then d.flag 0x24F101 1
    else
      let c := d.fromHubTo (hs.map fun p => tileOf p.1).dedup d.epoch
      c.1.busSend hs word fun m => tabGet 0 c.2 (tileOf m)

/-- What a chip does with an accepted decision block (R298). -/
def Dev.takeBlock (d : Dev) (link : Nat) (dest w0 w1 : W64) : Dev :=
  let own := dest.toNat.testBit d.chip
  let d1 := if own then (d.receiveWord w0).receiveWord w1 else d
  let others := (onesOf 64 dest.toNat).filter (· != d1.chip)
  let none_ := others.filter fun c => d1.route c == 0xFF
  let d2 := if none_ = [] then d1 else d1.flagN 0x24F101 2 none_.length
  let d3 := d2.exportWord others (some link) w0 d.epoch
  if w1.toNat.testBit 31 then d3.exportWord others (some link) w1 d.epoch else d3

/-! ### Meanings -/

/-- WINDOW_OPEN. -/
def execWindowOpen (slot : Nat) (s : State) : Host.Outcome State Fault Refusal := .next (s.onNow (windowOpenOp slot))
/-- WINDOW_DUMP. -/
def execWindowDump (slot : Nat) (s : State) : Host.Outcome State Fault Refusal := .next (s.onNow (windowDumpOp slot))
/-- DECISION_PRODUCE. -/
def execDecisionProduce (slot : Nat) (s : State) : Host.Outcome State Fault Refusal :=
  .next (s.onNow (decisionProduceOp slot))
/-- DECISION_ARRIVAL. -/
def execDecisionArrival (n h : Nat) (s : State) : Host.Outcome State Fault Refusal :=
  .next (s.onNow (decisionArrivalOp n h))
/-- DECISION_COMMIT. -/
def execDecisionCommit (n h : Nat) (s : State) : Host.Outcome State Fault Refusal :=
  .next (s.onNow (decisionCommitOp n h))
/-- DECISION_BLOCK_SEND. -/
def execDecisionBlockSend (k : Nat) (s : State) : Host.Outcome State Fault Refusal :=
  .next (s.onNow (decisionBlockSendOp k))

end Sys2Proof.Machine
end

