-- ==== Sys2Proof/Machine/Dsp.lean ====
section
/-! DEFINITION. The readout DSP cores (chapter 09): instruction words, the parallel fields, every opcode, interrupts, the
window FIFO, deadlines and records. -/

namespace Sys2Proof.Machine

/-! ### Instruction words (R371) -/

/-- The parallel field FX of a word. -/
def dspFx (v : Nat) : Option DFetch :=
  if v.testBit 20 then some { pt := bits v 22 21, post := v.testBit 23, x := BitVec.ofNat 3 (bits v 26 24) } else none

/-- The parallel field FY of a word. -/
def dspFy (v : Nat) : Option DFetch :=
  if v.testBit 27 then some { pt := 4 + bits v 28 28, post := v.testBit 29, x := BitVec.ofNat 3 (bits v 32 30) } else none

/-- The parallel field FK of a word. -/
def dspFk (v : Nat) : Option DFetch :=
  if v.testBit 34 then some { pt := 6 + bits v 35 35, post := v.testBit 36, x := BitVec.ofNat 3 (bits v 39 37) } else none

/-- The parallel field ST of a word. -/
def dspSt (v : Nat) : Option DFetch :=
  if v.testBit 41 then some { pt := bits v 44 42, post := v.testBit 45, x := BitVec.ofNat 3 (bits v 48 46) } else none

/-- The operand fields of a word other than LDI. Pointers are numbered PT0 to PT7. -/
def dspWord (p : W64) : DWord :=
  let v := p.toNat
  { d := BitVec.ofNat 4 (bits v 11 8), a := BitVec.ofNat 4 (bits v 15 12), b := BitVec.ofNat 4 (bits v 19 16),
    fx := dspFx v, fy := dspFy v, fk := dspFk v, st := dspSt v, imm := BitVec.ofNat 15 (bits v 63 49) }

/-- The word at PC. -/
def DspCore.fetch (k : DspCore) : W64 := tabGet 0 k.pm k.pc

/-- Whether a core executes: CORE_STATE running or sprouted, and no word of PM is being restored (R408, R409). -/
def Dev.coreRuns (d : Dev) (c : Nat) : Bool :=
  let st := d.rd (unitKey 0x580001 c)
  (st == 1 || st == 4) && (d.core c).restore.isNone

/-- Whether the instruction at the core's PC is this one. -/
def Dev.dspAt (d : Dev) (c opc : Nat) (w : DWord) : Bool :=
  d.coreRuns c && (let p := (d.core c).fetch; bits p.toNat 7 0 == opc && decide (dspWord p = w))

/-! ### Registers -/

/-- G[i]. -/
def DspCore.gr (k : DspCore) (i : Nat) : W32 := tabGet 0 k.g (i % 16)

/-- Writes G[i]. -/
def DspCore.setG (k : DspCore) (i : Nat) (v : W32) : DspCore := { k with g := tabSet 0 k.g (i % 16) v }

/-- X[i]. -/
def DspCore.xr (k : DspCore) (i : Nat) : W32 := tabGet 0 k.x (i % 8)

/-- Writes X[i]. -/
def DspCore.setX (k : DspCore) (i : Nat) (v : W32) : DspCore := { k with x := tabSet 0 k.x (i % 8) v }

/-- The parts of X[i] (R369). -/
def DspCore.xc (k : DspCore) (i : Nat) : Int × Int := parts16 (k.xr i).toNat

/-- An address register by its number in the order of MOVP: PT0–PT7, MD0–MD7, BS0–BS7, LN0–LN7. -/
def DspCore.areg (k : DspCore) (i : Nat) : Nat := tabGet 0 k.ar (i % 32)

/-- Writes an address register at its width (R370). -/
def DspCore.setAreg (k : DspCore) (i v : Nat) : DspCore :=
  { k with ar := tabSet 0 k.ar (i % 32) (if 8 ≤ i % 32 ∧ i % 32 < 16 then v % 2 ^ 16 else v % 2 ^ 14) }

/-- The size of the memory that a pointer serves (R368, R372). -/
def ptSize (p : Nat) : Nat := if p < 6 then 8192 else 16384

/-- The word that a pointer names (R372). -/
def DspCore.atPt (k : DspCore) (p : Nat) : W32 :=
  let a := k.areg p % ptSize p
  if p < 4 then tabGet 0 k.xm a else if p < 6 then tabGet 0 k.ym a else tabGet 0 k.km a

/-- Writes a word of the memory that a pointer serves. -/
def DspCore.putAt (k : DspCore) (p a : Nat) (v : W32) : DspCore :=
  if p < 4 then { k with xm := tabSet 0 k.xm a v }
  else if p < 6 then { k with ym := tabSet 0 k.ym a v }
  else { k with km := tabSet 0 k.km a v }

/-- The pointer after a post-modify (R374). -/
def DspCore.post (k : DspCore) (p : Nat) : Nat :=
  let pt : Int := k.areg p
  let md := sext 16 (k.areg (8 + p))
  let bs : Int := k.areg (16 + p)
  let ln := k.areg (24 + p)
  if ln = 0 then toU 14 ((pt + md) % (ptSize p : Nat)) else toU 14 (bs + (pt - bs + md) % (ln : Int))

/-! ### Parallel fields and the end of an instruction (R372 to R376, R382 to R384) -/

/-- A fetch: the word as it stood before the instruction goes to the X register. -/
def fetchInto (k0 : DspCore) (f : Option DFetch) (k : DspCore) : DspCore :=
  match f with
  | none => k
  | some f => k.setX f.x.toNat (k0.atPt f.pt)

/-- A store: the X register as it stood before the instruction goes to the word at the pointer. -/
def storeFrom (k0 : DspCore) (f : Option DFetch) (k : DspCore) : DspCore :=
  match f with
  | none => k
  | some f => k.putAt f.pt (k0.areg f.pt % ptSize f.pt) (k0.xr f.x.toNat)

/-- The post-modify of a field, from the pointer as it stood before the instruction. -/
def postModify (k0 : DspCore) (f : Option DFetch) (k : DspCore) : DspCore :=
  match f with
  | none => k
  | some f => if f.post then k.setAreg f.pt (k0.post f.pt) else k

/-- The parallel fields of an instruction, beside its operation. -/
def parallel (k0 : DspCore) (w : DWord) (k : DspCore) : DspCore :=
  let k1 := storeFrom k0 w.st (fetchInto k0 w.fk (fetchInto k0 w.fy (fetchInto k0 w.fx k)))
  postModify k0 w.st (postModify k0 w.fk (postModify k0 w.fy (postModify k0 w.fx k1)))

/-- The address after an instruction in sequence, with the loops, innermost first (R384). -/
def loopNext : List DLoop → Nat → Nat × List DLoop
  | [], pc => ((pc + 1) % 8192, [])
  | l :: rest, pc =>
    if pc = l.last then
      if 1 < l.left then (l.first, { l with left := l.left - 1 } :: rest) else loopNext rest pc
    else ((pc + 1) % 8192, l :: rest)

/-- LC0 and LC1 follow the loops: passes left of the outer and of the inner one. -/
def DspCore.setLoops (k : DspCore) (ls : List DLoop) : DspCore :=
  { k with
    loops := ls
    lc0 := ((ls.getLast?).map (·.left)).getD 0
    lc1 := if 2 ≤ ls.length then ((ls.head?).map (·.left)).getD 0 else 0 }

/-- The end of an instruction: the next pass of a REPEAT, the target of a branch after its delay slots, the next pass
of a loop, or the next address; one delay slot fewer lies ahead. `k0` is the core before the instruction. -/
def DspCore.advance (k0 k : DspCore) : DspCore :=
  if 1 < k0.repeat_ then { k with repeat_ := k0.repeat_ - 1 }
  else
    let k1 := { k with repeat_ := if k0.repeat_ = 1 then 0 else k.repeat_, slots := k.slots - 1 }
    match k1.branch with
    | some (t, 1) =>
      { k1 with pc := t, branch := none }
    | some (t, n) =>
      let r := loopNext k1.loops k1.pc
      { k1 with pc := r.1, branch := some (t, n - 1) }.setLoops r.2
    | none =>
      let r := loopNext k1.loops k1.pc
      { k1 with pc := r.1 }.setLoops r.2

/-- PC and FIFO_DEPTH follow the core (R411). -/
def Dev.coreObjects (d : Dev) (c : Nat) : Dev :=
  d.wrs [(unitKey 0x58000F c, (d.core c).pc), (unitKey 0x58000A c, (d.core c).fifo.length)]

/-- DSP_FLAGS of a core. -/
def dspFlags (c : Nat) : Nat := unitKey 0x580010 c

/-- A program fault halts the core (R409). -/
def Dev.dspFault (d : Dev) (c : Nat) : Dev :=
  ((d.wr (unitKey 0x580001 c) 2).flag (dspFlags c) 7).spoil (d.core c).job

/-- Whether an instruction stores to XM: its field ST does, or it is an STG (R372, R375). -/
def storesX (opc : Nat) (w : DWord) : Bool :=
  (w.st.any fun f => decide (f.pt < 4)) || (opc == 0x1F && decide (w.a.toNat % 8 < 4))

/-- Whether an instruction gives way to a sample feed write of the tick (R375): for one cycle. -/
def Dev.stalls (d : Dev) (c opc : Nat) (w : DWord) : Bool :=
  storesX opc w && d.feedsNow c && (d.core c).stalled.all fun t => t + 1 != d.epoch

/-- An instruction other than LDI: its operation, its parallel fields and its end. The operation answers none on a
program fault. An instruction that is not the one at the PC of a running core has no effect. -/
def Dev.dspRun (d : Dev) (c opc : Nat) (w : DWord) (f : Dev → DspCore → Option (Dev × DspCore)) : Dev :=
  if d.dspAt c opc w then
    if d.stalls c opc w then d.setCore c { d.core c with stalled := some d.epoch }
    else
    match f d (d.core c) with
    | none => d.dspFault c
    | some r => (r.1.setCore c ((d.core c).advance (parallel (d.core c) w r.2))).coreObjects c
  else d

/-- An instruction whose operation changes only the core. -/
def Dev.dspPure (d : Dev) (c opc : Nat) (w : DWord) (f : DspCore → DspCore) : Dev :=
  d.dspRun c opc w fun e k => some (e, f k)

/-! ### Complex arithmetic (R377, R378) -/

/-- AC[i]. -/
def DspCore.acr (k : DspCore) (i : Nat) : Int × Int := tabGet (0, 0) k.ac (i % 4)

/-- Writes AC[i]. -/
def DspCore.setAc (k : DspCore) (i : Nat) (v : Int × Int) : DspCore := { k with ac := tabSet (0, 0) k.ac (i % 4) v }

/-- A value goes to an accumulator; a part outside Q10.30 saturates, sets ACS and ACC_SAT (R377). -/
def Dev.toAcc (d : Dev) (c i : Nat) (v : Int × Int) (k : DspCore) : Option (Dev × DspCore) :=
  let s := (satI 40 v.1, satI 40 v.2)
  let n := changed v s
  let k1 := k.setAc i s
  if n = 0 then some (d, k1) else some (d.flagN (dspFlags c) 0 n, { k1 with fl := { k1.fl with acs := true } })

/-- A conversion that saturated n parts sets SS and STORE_SAT (R378). -/
def Dev.storeSat (d : Dev) (c n : Nat) (k : DspCore) : Option (Dev × DspCore) :=
  if n = 0 then some (d, k) else some (d.flagN (dspFlags c) 1 n, { k with fl := { k.fl with ss := true } })

/-- Conjugate. -/
def conj (a : Int × Int) : Int × Int := (a.1, -a.2)

/-- Negation. -/
def cneg (a : Int × Int) : Int × Int := (-a.1, -a.2)

/-- CMAC. -/
def cmacOp (c : Nat) (w : DWord) (d : Dev) : Dev :=
  d.dspRun c 0x01 w fun e k =>
    e.toAcc c w.d.toNat (cadd (k.acr w.d.toNat) (cmul (k.xc w.a.toNat) (k.xc w.b.toNat))) k

/-- CMACJ. -/
def cmacjOp (c : Nat) (w : DWord) (d : Dev) : Dev :=
  d.dspRun c 0x02 w fun e k =>
    e.toAcc c w.d.toNat (cadd (k.acr w.d.toNat) (cmul (k.xc w.a.toNat) (conj (k.xc w.b.toNat)))) k

/-- CMSB. -/
def cmsbOp (c : Nat) (w : DWord) (d : Dev) : Dev :=
  d.dspRun c 0x03 w fun e k =>
    e.toAcc c w.d.toNat (cadd (k.acr w.d.toNat) (cneg (cmul (k.xc w.a.toNat) (k.xc w.b.toNat)))) k

/-- CMUL. -/
def cmulOp (c : Nat) (w : DWord) (d : Dev) : Dev :=
  d.dspRun c 0x04 w fun e k => e.toAcc c w.d.toNat (cmul (k.xc w.a.toNat) (k.xc w.b.toNat)) k

/-- ACLR. -/
def aclrOp (c : Nat) (w : DWord) (d : Dev) : Dev := d.dspPure c 0x05 w fun k => k.setAc w.d.toNat (0, 0)

/-- STA (R378). -/
def staOp (c : Nat) (w : DWord) (d : Dev) : Dev :=
  d.dspRun c 0x06 w fun e k =>
    let sh := bits w.imm.toNat 4 0
    let p := k.acr w.a.toNat
    let v := (rshift p.1 (sh + 15), rshift p.2 (sh + 15))
    let s := (satI 16 v.1, satI 16 v.2)
    e.storeSat c (changed v s) (k.setX w.d.toNat (BitVec.ofNat 32 (toU 16 s.1 + 2 ^ 16 * toU 16 s.2)))

/-- STAG (R378): IMM[5] chooses the part, 0 real and 1 imaginary. -/
def stagOp (c : Nat) (w : DWord) (d : Dev) : Dev :=
  d.dspRun c 0x07 w fun e k =>
    let p := k.acr w.a.toNat
    let v := rshift (if w.imm.toNat.testBit 5 then p.2 else p.1) (bits w.imm.toNat 4 0)
    let s := satI 32 v
    e.storeSat c (if v = s then 0 else 1) (k.setG w.d.toNat (BitVec.ofInt 32 s))

/-! ### Search (R380) -/

/-- The key of MAXI and MINI, chosen by IMM[1:0]: 0 the real part, 1 the imaginary part, else the squared magnitude. -/
def DspCore.key (k : DspCore) (w : DWord) : Int :=
  let x := k.xc w.a.toNat
  match bits w.imm.toNat 1 0 with
  | 0 => x.1
  | 1 => x.2
  | _ => x.1 * x.1 + x.2 * x.2

/-- A search step that takes the key when `better` holds. -/
def DspCore.search (k : DspCore) (key : Int) (better : Bool) : DspCore :=
  let k1 := if k.sempty || better then { k with sv := key, sx := k.scount, sempty := false } else k
  { k1 with scount := (k.scount + 1) % 2 ^ 32 }

/-- MAXI. -/
def maxiOp (c : Nat) (w : DWord) (d : Dev) : Dev :=
  d.dspPure c 0x08 w fun k => k.search (k.key w) (decide (k.sv < k.key w))

/-- MINI. -/
def miniOp (c : Nat) (w : DWord) (d : Dev) : Dev :=
  d.dspPure c 0x09 w fun k => k.search (k.key w) (decide (k.key w < k.sv))

/-- SRST. -/
def srstOp (c : Nat) (w : DWord) (d : Dev) : Dev := d.dspPure c 0x0A w fun k => { k with sempty := true, scount := 0 }

/-- SRD. -/
def srdOp (c : Nat) (w : DWord) (d : Dev) : Dev :=
  d.dspPure c 0x0B w fun k =>
    (k.setG w.d.toNat (BitVec.ofInt 32 k.sv)).setG (w.d.toNat + 1) (BitVec.ofNat 32 k.sx)

/-! ### Scalar arithmetic (R379) -/

/-- Z and N of a result. -/
def DFlags.zn (f : DFlags) (r : W32) : DFlags := { f with z := decide (r = 0), n := r.msb }

/-- Flags of an addition. -/
def DFlags.add (f : DFlags) (a b : W32) : DFlags :=
  { f.zn (a + b) with
    c := decide (2 ^ 32 ≤ a.toNat + b.toNat)
    v := decide ((a + b).toInt ≠ a.toInt + b.toInt) }

/-- Flags of a subtraction; C is free (log entry 16). -/
def DFlags.sub (f : DFlags) (a b : W32) : DFlags :=
  { f.zn (a - b) with c := Config.dspSubCarry a b, v := decide ((a - b).toInt ≠ a.toInt - b.toInt) }

/-- NOP. -/
def dspNopOp (c : Nat) (w : DWord) (d : Dev) : Dev := d.dspPure c 0x00 w id

/-- LDI (R371): the immediate in [51:20], no parallel fields. -/
def ldiOp (c : Nat) (rd : BitVec 4) (imm : W32) (d : Dev) : Dev :=
  let k := d.core c
  let v := k.fetch.toNat
  if d.coreRuns c && bits v 7 0 == 0x10 && bits v 11 8 == rd.toNat && bits v 51 20 == imm.toNat then
    (d.setCore c (k.advance (k.setG rd.toNat imm))).coreObjects c
  else d

/-- MOVG. -/
def movgOp (c : Nat) (w : DWord) (d : Dev) : Dev := d.dspPure c 0x11 w fun k => k.setG w.d.toNat (k.gr w.a.toNat)

/-- ADD. -/
def dspAddOp (c : Nat) (w : DWord) (d : Dev) : Dev :=
  d.dspPure c 0x12 w fun k =>
    let a := k.gr w.a.toNat
    let b := k.gr w.b.toNat
    { k.setG w.d.toNat (a + b) with fl := k.fl.add a b }

/-- SUB. -/
def dspSubOp (c : Nat) (w : DWord) (d : Dev) : Dev :=
  d.dspPure c 0x13 w fun k =>
    let a := k.gr w.a.toNat
    let b := k.gr w.b.toNat
    { k.setG w.d.toNat (a - b) with fl := k.fl.sub a b }

/-- A bitwise operation: Z and N (R379). -/
def DspCore.logic (k : DspCore) (w : DWord) (f : W32 → W32 → W32) : DspCore :=
  let r := f (k.gr w.a.toNat) (k.gr w.b.toNat)
  { k.setG w.d.toNat r with fl := k.fl.zn r }

/-- AND. -/
def dspAndOp (c : Nat) (w : DWord) (d : Dev) : Dev := d.dspPure c 0x14 w fun k => k.logic w (· &&& ·)

/-- OR. -/
def dspOrOp (c : Nat) (w : DWord) (d : Dev) : Dev := d.dspPure c 0x15 w fun k => k.logic w (· ||| ·)

/-- XOR. -/
def dspXorOp (c : Nat) (w : DWord) (d : Dev) : Dev := d.dspPure c 0x16 w fun k => k.logic w (· ^^^ ·)

/-- SHL. -/
def shlOp (c : Nat) (w : DWord) (d : Dev) : Dev :=
  d.dspPure c 0x17 w fun k => k.setG w.d.toNat (k.gr w.a.toNat <<< bits (k.gr w.b.toNat).toNat 4 0)

/-- SAR. -/
def sarOp (c : Nat) (w : DWord) (d : Dev) : Dev :=
  d.dspPure c 0x18 w fun k => k.setG w.d.toNat ((k.gr w.a.toNat).sshiftRight (bits (k.gr w.b.toNat).toNat 4 0))

/-- MULQ (R378). -/
def mulqOp (c : Nat) (w : DWord) (d : Dev) : Dev :=
  d.dspRun c 0x19 w fun e k =>
    let v := rshift ((k.gr w.a.toNat).toInt * (k.gr w.b.toNat).toInt) 14
    let s := satI 32 v
    e.storeSat c (if v = s then 0 else 1) (k.setG w.d.toNat (BitVec.ofInt 32 s))

/-- SGT. -/
def sgtOp (c : Nat) (w : DWord) (d : Dev) : Dev :=
  d.dspPure c 0x1A w fun k =>
    k.setG w.d.toNat (if (k.gr w.b.toNat).toInt < (k.gr w.a.toNat).toInt then 1 else 0)

/-- CMP. -/
def cmpOp (c : Nat) (w : DWord) (d : Dev) : Dev :=
  d.dspPure c 0x1B w fun k => { k with fl := k.fl.sub (k.gr w.a.toNat) (k.gr w.b.toNat) }

/-- MOVXG. -/
def movxgOp (c : Nat) (w : DWord) (d : Dev) : Dev := d.dspPure c 0x1C w fun k => k.setG w.d.toNat (k.xr w.a.toNat)

/-- MOVGX. -/
def movgxOp (c : Nat) (w : DWord) (d : Dev) : Dev := d.dspPure c 0x1D w fun k => k.setX w.d.toNat (k.gr w.a.toNat)

/-- The pointer that LDG and STG name, with its post-modify by IMM[0]. -/
def pointerField (w : DWord) : Option DFetch := some { pt := w.a.toNat % 8, post := w.imm.toNat.testBit 0, x := 0 }

/-- LDG. -/
def ldgOp (c : Nat) (w : DWord) (d : Dev) : Dev :=
  d.dspPure c 0x1E w fun k => postModify k (pointerField w) (k.setG w.d.toNat (k.atPt (w.a.toNat % 8)))

/-- STG. -/
def stgOp (c : Nat) (w : DWord) (d : Dev) : Dev :=
  d.dspPure c 0x1F w fun k =>
    let p := w.a.toNat % 8
    postModify k (pointerField w) (k.putAt p (k.areg p % ptSize p) (k.gr w.d.toNat))

/-- MOVP. -/
def movpOp (c : Nat) (w : DWord) (d : Dev) : Dev :=
  d.dspPure c 0x20 w fun k => k.setAreg (bits w.imm.toNat 4 0) (k.gr w.a.toNat).toNat

/-- MOVPG: a post-modify step is sign-extended (R370). -/
def movpgOp (c : Nat) (w : DWord) (d : Dev) : Dev :=
  d.dspPure c 0x21 w fun k =>
    let i := bits w.imm.toNat 4 0
    k.setG w.d.toNat (if 8 ≤ i ∧ i < 16 then BitVec.ofInt 32 (sext 16 (k.areg i)) else BitVec.ofNat 32 (k.areg i))

/-! ### Flow of control (R382 to R385) -/

/-- A branch with two delay slots (R382). It ends the loops whose body it lies in and leaves (R384). -/
def DspCore.branchTo (k : DspCore) (t : Nat) : DspCore :=
  let body : DLoop → Nat → Bool := fun l a => decide (l.first ≤ a ∧ a ≤ l.last)
  { k with branch := some (t % 8192, 3) }.setLoops (k.loops.filter fun l => !body l k.pc || body l (t % 8192))

/-- Conditions of JCC. -/
def DspCore.cond (k : DspCore) (a : Nat) : Bool :=
  match a with
  | 0 => k.fl.z
  | 1 => !k.fl.z
  | 2 => k.fl.n
  | 3 => !k.fl.n
  | 4 => k.fl.c
  | 5 => !k.fl.c
  | 6 => k.fl.v
  | 7 => !k.fl.v
  | 8 => !k.fifo.isEmpty
  | _ => false

/-- A push onto the return stack; none when it is full (R385). -/
def DspCore.push (k : DspCore) (pc : Nat) : Option DspCore :=
  if k.stack.length < 8 then some { k with stack := (pc % 8192, k.fl) :: k.stack } else none

/-- JMP. -/
def jmpOp (c : Nat) (w : DWord) (d : Dev) : Dev := d.dspPure c 0x28 w fun k => k.branchTo (bits w.imm.toNat 12 0)

/-- JCC: its delay slots execute whether or not it is taken (R382). -/
def jccOp (c : Nat) (w : DWord) (d : Dev) : Dev :=
  d.dspPure c 0x29 w fun k => if k.cond w.a.toNat then k.branchTo (bits w.imm.toNat 12 0)
    else { k with slots := 3 }

/-- CALL: the address after the delay slots is pushed. -/
def callOp (c : Nat) (w : DWord) (d : Dev) : Dev :=
  d.dspRun c 0x2A w fun e k => (k.push (k.pc + 3)).map fun k1 => (e, k1.branchTo (bits w.imm.toNat 12 0))

/-- RET: the address of the newest entry. -/
def retOp (c : Nat) (w : DWord) (d : Dev) : Dev :=
  d.dspRun c 0x2B w fun e k =>
    match k.stack with
    | [] => none
    | p :: rest => some (e, { k with stack := rest }.branchTo p.1)

/-- RTI: PC and FL of the newest entry, without a delay slot (R382, R390). -/
def rtiOp (c : Nat) (w : DWord) (d : Dev) : Dev :=
  d.dspRun c 0x2C w fun e k =>
    match k.stack with
    | [] => none
    | p :: rest => some (e, { k with stack := rest, fl := p.2, branch := some (p.1, 1) })

/-- REPEAT (R383). -/
def repeatNOp (c : Nat) (w : DWord) (d : Dev) : Dev := d.dspPure c 0x2D w fun k => { k with repeat_ := w.imm.toNat }

/-- A loop over the next B + 1 instructions; a count of 0 skips the body, to what follows it (R384). -/
def DspCore.startLoop (k : DspCore) (b count : Nat) : DspCore :=
  if count = 0 then
    let r := loopNext k.loops ((k.pc + b + 1) % 8192)
    { k with branch := some (r.1, 1) }.setLoops r.2
  else k.setLoops ({ first := (k.pc + 1) % 8192, last := (k.pc + b + 1) % 8192, left := count } :: k.loops)

/-- LOOP. -/
def dspLoopOp (c : Nat) (w : DWord) (d : Dev) : Dev :=
  d.dspPure c 0x2E w fun k => k.startLoop w.b.toNat (bits (k.gr w.a.toNat).toNat 15 0)

/-- LOOPI. -/
def loopiOp (c : Nat) (w : DWord) (d : Dev) : Dev := d.dspPure c 0x2F w fun k => k.startLoop w.b.toNat w.imm.toNat

/-! ### Decisions of a core (R393 to R400) -/

/-- DEC_SLACK_MIN follows a decision of the core (R411). -/
def Dev.decSlack (d : Dev) (c : Nat) (w : Win) (at_ : Nat) : Dev :=
  let v : Int := (w.dump + d.rd (unitKey 0x580008 c) : Nat) - (at_ : Int)
  let k := d.core c
  if !k.slackSet || decide (v < sext 16 (d.rd (unitKey 0x58000E c))) then
    (d.wr (unitKey 0x58000E c) (toU 16 (satI 16 v))).setCore c { k with slackSet := true }
  else d

/-- INW (R393): on an empty FIFO it blocks. -/
def inwOp (c : Nat) (w : DWord) (d : Dev) : Dev :=
  match (d.core c).fifo with
  | [] => d
  | en :: rest =>
    d.dspPure c 0x30 w fun k =>
      { (k.setG w.d.toNat (BitVec.ofInt 32 en.i)).setG (w.d.toNat + 1) (BitVec.ofInt 32 en.q) with
        wt := some en, fifo := rest }

/-- RFLAGS of a window entry's tag (R394). -/
def WEntry.rflags (e : WEntry) : Nat := bits e.tag.toNat 7 0

/-- Whether an entry is of kind DECIDE (R394). -/
def WEntry.decide_ (e : WEntry) : Bool := e.tag.toNat.testBit 56

/-- OUTD (R396 to R398): the decision is produced in the next tick; one for a decided window, after the deadline or for
an OBSERVE window is discarded with DSP_DUP; one for a window forced under R396 is discarded without a flag. -/
def outdOp (c : Nat) (w : DWord) (d : Dev) : Dev :=
  d.dspRun c 0x31 w fun e k =>
    match k.wt with
    | none => some (e.flag (dspFlags c) 3, k)
    | some en =>
      let open_ : Win → Bool := fun v => v.launch == en.launch && v.job == en.job && v.decision.isNone
        && decide (e.epoch + 1 ≤ v.dump + e.rd (unitKey 0x580008 c))
      if en.decide_ then
        if en.rflags.testBit 5 then some (e, k)
        else
          match (e.slotRx en.slot).wins.find? open_ with
          | none => some (e.flag (dspFlags c) 3, k)
          | some v =>
            let o := bits (k.gr w.a.toNat).toNat 1 0
            let e1 := (e.modWin en.slot open_ fun u =>
              { u with decision := some (o, false, true), due := e.epoch + 1 }).decSlack c v
              (e.epoch + 1)
            some (e1, { k with slackSet := true })
      else some (e.flag (dspFlags c) 3, k)

/-- MOVW: a word of WT; IMM 7 the boundary word (R401); word 6 is not stated (log entry 17). -/
def movwOp (c : Nat) (w : DWord) (d : Dev) : Dev :=
  d.dspPure c 0x32 w fun k =>
    let tag : W192 := (k.wt.map (·.tag)).getD 0
    let i := bits w.imm.toNat 2 0
    k.setG w.d.toNat (if i = 7 then k.bword else if i = 6 then Config.dspWordSix tag
      else BitVec.ofNat 32 (bits tag.toNat (32 * i + 31) (32 * i)))

/-! ### Records (R405, R406) -/

/-- The bytes of a DSP record. -/
def dspRecord (c job shot : Nat) (r : DRec) : List Byte :=
  padTo 8 (le 2 4 ++ le 2 c ++ le 2 r.words.length ++ le 1 (bitAt r.cont 0) ++ le 1 0 ++ le 2 r.rtag ++ le 6 0
    ++ le 8 job ++ le 8 shot ++ r.words.flatMap fun v => le 4 v.toNat)

/-- A record closes (R405): before the core's BDONE it belongs to the shot of its BOUNDARY, or to the present one where none is
raised; after it, to the next one. DESIGN CHOICE (log entry 144): one that closes when the results of its shot have left is lost. -/
def Dev.closeRec (d : Dev) (c : Nat) (k : DspCore) (r : DRec) : Dev :=
  d.modJob k.job fun j =>
    let x : Nat → Rec := fun shot => { flow := 8, bytes := dspRecord c j.seq shot r }
    if k.boundary then j.addRec k.bshot.1 k.bshot.2 (x k.bshot.1)
    else if k.done then { j with recsNext := j.recsNext ++ [x j.shot] }
    else { j with recs := j.recs ++ [x j.shot] }

/-- EMIT. -/
def emitOp (c : Nat) (w : DWord) (d : Dev) : Dev :=
  d.dspRun c 0x33 w fun e k =>
    let r : DRec := match k.rec_ with
      | some r => { r with words := r.words ++ [k.gr w.a.toNat] }
      | none => { rtag := w.imm.toNat, cont := k.contNext, words := [k.gr w.a.toNat] }
    if 256 ≤ r.words.length then some (e.closeRec c k r, { k with rec_ := none, contNext := true })
    else some (e, { k with rec_ := some r, contNext := false })

/-- ECLOSE. -/
def ecloseOp (c : Nat) (w : DWord) (d : Dev) : Dev :=
  d.dspRun c 0x34 w fun e k =>
    match k.rec_ with
    | some r => some (e.closeRec c k r, { k with rec_ := none, contNext := false })
    | none => some (e, k)

/-! ### Boundary, interrupts, mailbox (R386 to R390, R401, R402) -/

/-- Whether a core's BOUNDARY was raised for the shot in progress of its job. -/
def Dev.boundaryOf (d : Dev) (k : DspCore) : Bool :=
  match d.job k.job with
  | some j => j.inShot && decide (j.shotStart ≤ k.boundaryAt) && decide (0 < k.boundaryAt)
  | none => false

/-- BDONE (R386, R402). -/
def bdoneOp (c : Nat) (w : DWord) (d : Dev) : Dev :=
  d.dspRun c 0x35 w fun e k => some (e, { k with boundary := false, done := k.done || (k.boundary && e.boundaryOf k) })

/-- DI (R388). -/
def diOp (c : Nat) (w : DWord) (d : Dev) : Dev :=
  d.dspRun c 0x36 w fun e k =>
    some (e, { k with imask := 0, di := if k.di.isSome then k.di else some (k.imask, e.epoch) })

/-- EI (R388). -/
def eiOp (c : Nat) (w : DWord) (d : Dev) : Dev :=
  d.dspPure c 0x37 w fun k => { k with imask := bits w.imm.toNat 2 0, di := none }

/-- The lowest pending enabled interrupt source (R386). -/
def DspCore.source (k : DspCore) : Option Nat :=
  if k.boundary && k.imask.testBit 0 then some 0
  else if !k.fifo.isEmpty && k.imask.testBit 1 then some 1
  else if k.mbox && k.imask.testBit 2 then some 2
  else none

/-- WAITI: blocks until an enabled interrupt is pending. -/
def waitiOp (c : Nat) (w : DWord) (d : Dev) : Dev :=
  if (d.core c).source.isSome then d.dspPure c 0x38 w id else d

/-- MBOXW. -/
def mboxwOp (c : Nat) (w : DWord) (d : Dev) : Dev :=
  d.dspRun c 0x39 w fun e k => some (e.wr (unitKey 0x58000D c) (k.gr w.a.toNat).toNat, k)

/-- MBOXR. -/
def mboxrOp (c : Nat) (w : DWord) (d : Dev) : Dev :=
  d.dspPure c 0x3A w fun k => { k.setG w.d.toNat k.mboxIn with mbox := false }

/-- A write to MBOX_IN raises MBOX (R386). -/
def mboxInOp (c : Nat) (v : W32) (d : Dev) : Dev :=
  (d.wr (unitKey 0x58000C c) v.toNat).setCore c { d.core c with mboxIn := v, mbox := true }

/-- DSP_INTERRUPT (R385 to R387, R390). -/
def dspInterruptOp (c : Nat) (d : Dev) : Dev :=
  let k := d.core c
  match k.source with
  | none => d
  | some s =>
    if d.coreRuns c && k.branch.isNone && k.slots == 0 && k.repeat_ == 0 && k.di.isNone then
      match k.push k.pc with
      | none => d.dspFault c
      | some k1 => (d.setCore c { k1 with pc := 8 * s, imask := 0 }).coreObjects c
    else d

/-- DI_EXPIRED (R388): in the 64th cycle, after a REPEAT. -/
def diExpiredOp (c : Nat) (d : Dev) : Dev :=
  let k := d.core c
  match k.di with
  | none => d
  | some m =>
    if m.2 + 64 ≤ d.epoch ∧ k.repeat_ = 0 then (d.setCore c { k with imask := m.1, di := none }).flag (dspFlags c) 5
    else d

/-- The tag of a window entry: bytes 8–31 (R394). -/
def entryTag (slot : Nat) (w : Win) (iq : Int × Int × Bool × Bool) (dec fed : Bool) : W192 :=
  let forced := w.refused || iq.2.2.2
  let rfl := bitAt iq.2.2.2 2 + bitAt iq.2.2.1 3 + bitAt w.cut 4 + bitAt forced 5 + bitAt w.refused 6
  let o := if dec then (if forced then 3 else Config.entryOutcome.toNat) else ((w.decision.map (·.1)).getD 3)
  BitVec.ofNat 192 (ofLe (le 1 (rfl + o) ++ le 1 w.dtag ++ le 2 slot ++ le 2 w.n ++ le 1 w.seq
    ++ le 1 (bitAt dec 0 + bitAt fed 1) ++ le 4 w.land ++ le 4 w.dump ++ le 2 w.fed.1 ++ le 2 w.fed.2 ++ le 4 0))

/-- The windows that a core has not yet entered, as (dump tick, slot), earliest first (R393). -/
def Dev.toEnter (d : Dev) (c : Nat) : List (Nat × Nat) :=
  ((d.rx.slots.flatMap fun p => p.2.wins.filterMap fun w =>
    if w.core = some c ∧ w.iq.isSome ∧ !w.entered then some (w.dump, p.1) else none).mergeSort
      fun a b => decide (a.1 < b.1 ∨ (a.1 = b.1 ∧ a.2 ≤ b.2)))

/-- WINDOW_ENTRY (R393 to R396). -/
def windowEntryOp (c : Nat) (d : Dev) : Dev :=
  match d.toEnter c with
  | [] => d
  | (dump, slot) :: _ =>
    if d.epoch < dump + (if c = 16 then 8 else 2) then d
    else
      let mine : Win → Bool := fun w => w.core == some c && w.iq.isSome && !w.entered
      match (d.slotRx slot).wins.find? mine with
      | none => d
      | some w =>
        let iq := w.iq.getD (0, 0, false, false)
        let fed := d.bit (unitKey 0x580005 c) (slot % 64)
        let forced := w.refused || iq.2.2.2
        let full := decide (32 ≤ (d.core c).fifo.length)
        let force := w.dsp && (forced || full) && w.decision.isNone
        let d1 := d.modWin slot mine fun v =>
          { v with
            entered := true, decision := if force then some (3, true, false) else v.decision
            due := if force then d.epoch else v.due }
        let d2 := if force then d1.decSlack c w d1.epoch else d1
        let r := d2.slotRx slot
        let d3 := d2.setSlotRx slot { r with wins := r.wins.filter fun v => !(v.produced && v.entered) }
        if full then (d3.flag (dspFlags c) 4).spoil w.job
        else
          let k := d3.core c
          let en : WEntry := {
            slot := slot, launch := w.launch, i := iq.1, q := iq.2.1,
            tag := entryTag slot w iq w.dsp fed, job := w.job, shot := w.shot }
          let d4 := (d3.setCore c { k with fifo := k.fifo ++ [en] }).coreObjects c
          let n := (d4.core c).fifo.length
          if d4.rd (unitKey 0x58000B c) < n then d4.wr (unitKey 0x58000B c) n else d4

/-- The core whose DEC_BUDGET a DECIDE window has: its own, or the one whose map names the slot (R398). -/
def Dev.budgetCore (d : Dev) (slot : Nat) (w : Win) : Nat :=
  (w.core.orElse fun _ => (List.range 17).find? fun c =>
    d.rd (unitKey 0x580002 c) == slot / 64 && d.bit (unitKey 0x580004 c) (slot % 64)).getD (2 * (slot / 64))

/-- DSP_LATE (R398): the oldest window of a DECIDE slot without a decision at its deadline. -/
def dspLateOp (slot : Nat) (d : Dev) : Dev :=
  let undecided : Win → Bool := fun w => w.iq.isSome && w.decision.isNone
  match (d.slotRx slot).wins.find? undecided with
  | none => d
  | some w =>
    let c := d.budgetCore slot w
    if w.dump + d.rd (unitKey 0x580008 c) ≤ d.epoch then
      ((d.modWin slot undecided fun v =>
        { v with decision := some (3, true, true), due := d.epoch }).decSlack c w d.epoch).flag (dspFlags c) 2
    else d

/-- Whether every window of a job's shot has produced its result (R265, R401): its canvases have ended, nothing waits to
launch, and no window is open. -/
def Dev.windowsDone (d : Dev) (j : Job) : Bool :=
  j.held.canvases.all (fun p => (d.thread p.thread).finished) && j.windows == 0

/-- DSP_BOUNDARY (R401). -/
def dspBoundaryOp (job : Nat) (d : Dev) : Dev :=
  match d.job job with
  | none => d
  | some j =>
    if j.inShot && d.windowsDone j then
      j.held.cores.foldl (fun e c =>
        let k := e.core c
        if j.shotStart ≤ k.boundaryAt ∧ 0 < k.boundaryAt then e
        else e.setCore c { k with
          boundary := true, boundaryAt := e.epoch, bshot := (j.shot, j.attempt)
          bword := BitVec.ofNat 32 (j.shot % 2 ^ 24 + bitAt j.spoiled 24 + bitAt (decide (1 < j.attempt)) 25) }) d
    else d

/-- DRAIN_LATE (R402). -/
def drainLateOp (c : Nat) (d : Dev) : Dev :=
  let k := d.core c
  if d.boundaryOf k && !k.done && decide (k.boundaryAt + d.rd (unitKey 0x580009 c) ≤ d.epoch)
      && d.rd (unitKey 0x580001 c) != 2 then
    ((d.setCore c { k with done := true }).flag (dspFlags c) 6).spoil k.job
  else d

/-- A double-bit error in a data memory leaves the core with the word as read (R408). -/
def Dev.dataEcc (d : Dev) (c : Nat) (k : DspCore) : Dev := ((d.setCore c k).flag (dspFlags c) 9).spoil k.job

/-- DSP_ECC (R408); a double-bit error counts towards the core's retirement (R630). -/
def dspEccOp (c : Nat) (m : DspMem) (addr : Nat) (double : Bool) (d : Dev) : Dev :=
  let k := d.core c
  if !double then d.flag (dspFlags c) 8
  else
    let d1 := d.noteFault (.dsp c) 0
    match m with
    | .pm => d1.setCore c { k with restore := some (addr % 8192) }
    | .xm => d1.dataEcc c { k with xm := tabMod 0 k.xm (addr % 8192) (Config.dataError addr) }
    | .ym => d1.dataEcc c { k with ym := tabMod 0 k.ym (addr % 8192) (Config.dataError addr) }
    | .km => d1.dataEcc c { k with km := tabMod 0 k.km (addr % 16384) (Config.dataError addr) }

/-! ### Meanings -/

/-- NOP of a DSP core. -/
def execDspNop (c : Nat) (w : DWord) (s : State) : Host.Outcome State Fault Refusal :=
  .next (s.onNow (dspNopOp c w))
/-- CMAC. -/
def execCmac (c : Nat) (w : DWord) (s : State) : Host.Outcome State Fault Refusal :=
  .next (s.onNow (cmacOp c w))
/-- CMACJ. -/
def execCmacj (c : Nat) (w : DWord) (s : State) : Host.Outcome State Fault Refusal :=
  .next (s.onNow (cmacjOp c w))
/-- CMSB. -/
def execCmsb (c : Nat) (w : DWord) (s : State) : Host.Outcome State Fault Refusal :=
  .next (s.onNow (cmsbOp c w))
/-- CMUL. -/
def execCmul (c : Nat) (w : DWord) (s : State) : Host.Outcome State Fault Refusal :=
  .next (s.onNow (cmulOp c w))
/-- ACLR. -/
def execAclr (c : Nat) (w : DWord) (s : State) : Host.Outcome State Fault Refusal :=
  .next (s.onNow (aclrOp c w))
/-- STA. -/
def execSta (c : Nat) (w : DWord) (s : State) : Host.Outcome State Fault Refusal :=
  .next (s.onNow (staOp c w))
/-- STAG. -/
def execStag (c : Nat) (w : DWord) (s : State) : Host.Outcome State Fault Refusal :=
  .next (s.onNow (stagOp c w))
/-- MAXI. -/
def execMaxi (c : Nat) (w : DWord) (s : State) : Host.Outcome State Fault Refusal :=
  .next (s.onNow (maxiOp c w))
/-- MINI. -/
def execMini (c : Nat) (w : DWord) (s : State) : Host.Outcome State Fault Refusal :=
  .next (s.onNow (miniOp c w))
/-- SRST. -/
def execSrst (c : Nat) (w : DWord) (s : State) : Host.Outcome State Fault Refusal :=
  .next (s.onNow (srstOp c w))
/-- SRD. -/
def execSrd (c : Nat) (w : DWord) (s : State) : Host.Outcome State Fault Refusal :=
  .next (s.onNow (srdOp c w))
/-- MOVG. -/
def execMovg (c : Nat) (w : DWord) (s : State) : Host.Outcome State Fault Refusal :=
  .next (s.onNow (movgOp c w))
/-- ADD. -/
def execDspAdd (c : Nat) (w : DWord) (s : State) : Host.Outcome State Fault Refusal :=
  .next (s.onNow (dspAddOp c w))
/-- SUB. -/
def execDspSub (c : Nat) (w : DWord) (s : State) : Host.Outcome State Fault Refusal :=
  .next (s.onNow (dspSubOp c w))
/-- AND. -/
def execDspAnd (c : Nat) (w : DWord) (s : State) : Host.Outcome State Fault Refusal :=
  .next (s.onNow (dspAndOp c w))
/-- OR. -/
def execDspOr (c : Nat) (w : DWord) (s : State) : Host.Outcome State Fault Refusal :=
  .next (s.onNow (dspOrOp c w))
/-- XOR. -/
def execDspXor (c : Nat) (w : DWord) (s : State) : Host.Outcome State Fault Refusal :=
  .next (s.onNow (dspXorOp c w))
/-- SHL. -/
def execShl (c : Nat) (w : DWord) (s : State) : Host.Outcome State Fault Refusal :=
  .next (s.onNow (shlOp c w))
/-- SAR. -/
def execSar (c : Nat) (w : DWord) (s : State) : Host.Outcome State Fault Refusal :=
  .next (s.onNow (sarOp c w))
/-- MULQ. -/
def execMulq (c : Nat) (w : DWord) (s : State) : Host.Outcome State Fault Refusal :=
  .next (s.onNow (mulqOp c w))
/-- SGT. -/
def execSgt (c : Nat) (w : DWord) (s : State) : Host.Outcome State Fault Refusal :=
  .next (s.onNow (sgtOp c w))
/-- CMP. -/
def execCmp (c : Nat) (w : DWord) (s : State) : Host.Outcome State Fault Refusal :=
  .next (s.onNow (cmpOp c w))
/-- MOVXG. -/
def execMovxg (c : Nat) (w : DWord) (s : State) : Host.Outcome State Fault Refusal :=
  .next (s.onNow (movxgOp c w))
/-- MOVGX. -/
def execMovgx (c : Nat) (w : DWord) (s : State) : Host.Outcome State Fault Refusal :=
  .next (s.onNow (movgxOp c w))
/-- LDG. -/
def execLdg (c : Nat) (w : DWord) (s : State) : Host.Outcome State Fault Refusal :=
  .next (s.onNow (ldgOp c w))
/-- STG. -/
def execStg (c : Nat) (w : DWord) (s : State) : Host.Outcome State Fault Refusal :=
  .next (s.onNow (stgOp c w))
/-- MOVP. -/
def execMovp (c : Nat) (w : DWord) (s : State) : Host.Outcome State Fault Refusal :=
  .next (s.onNow (movpOp c w))
/-- MOVPG. -/
def execMovpg (c : Nat) (w : DWord) (s : State) : Host.Outcome State Fault Refusal :=
  .next (s.onNow (movpgOp c w))
/-- JMP. -/
def execJmp (c : Nat) (w : DWord) (s : State) : Host.Outcome State Fault Refusal :=
  .next (s.onNow (jmpOp c w))
/-- JCC. -/
def execJcc (c : Nat) (w : DWord) (s : State) : Host.Outcome State Fault Refusal :=
  .next (s.onNow (jccOp c w))
/-- CALL. -/
def execCall (c : Nat) (w : DWord) (s : State) : Host.Outcome State Fault Refusal :=
  .next (s.onNow (callOp c w))
/-- RET. -/
def execRet (c : Nat) (w : DWord) (s : State) : Host.Outcome State Fault Refusal :=
  .next (s.onNow (retOp c w))
/-- RTI. -/
def execRti (c : Nat) (w : DWord) (s : State) : Host.Outcome State Fault Refusal :=
  .next (s.onNow (rtiOp c w))
/-- REPEAT. -/
def execRepeatN (c : Nat) (w : DWord) (s : State) : Host.Outcome State Fault Refusal :=
  .next (s.onNow (repeatNOp c w))
/-- LOOP. -/
def execDspLoop (c : Nat) (w : DWord) (s : State) : Host.Outcome State Fault Refusal :=
  .next (s.onNow (dspLoopOp c w))
/-- LOOPI. -/
def execLoopi (c : Nat) (w : DWord) (s : State) : Host.Outcome State Fault Refusal :=
  .next (s.onNow (loopiOp c w))
/-- INW. -/
def execInw (c : Nat) (w : DWord) (s : State) : Host.Outcome State Fault Refusal :=
  .next (s.onNow (inwOp c w))
/-- OUTD. -/
def execOutd (c : Nat) (w : DWord) (s : State) : Host.Outcome State Fault Refusal :=
  .next (s.onNow (outdOp c w))
/-- MOVW. -/
def execMovw (c : Nat) (w : DWord) (s : State) : Host.Outcome State Fault Refusal :=
  .next (s.onNow (movwOp c w))
/-- EMIT. -/
def execEmit (c : Nat) (w : DWord) (s : State) : Host.Outcome State Fault Refusal :=
  .next (s.onNow (emitOp c w))
/-- ECLOSE. -/
def execEclose (c : Nat) (w : DWord) (s : State) : Host.Outcome State Fault Refusal :=
  .next (s.onNow (ecloseOp c w))
/-- BDONE. -/
def execBdone (c : Nat) (w : DWord) (s : State) : Host.Outcome State Fault Refusal :=
  .next (s.onNow (bdoneOp c w))
/-- DI. -/
def execDi (c : Nat) (w : DWord) (s : State) : Host.Outcome State Fault Refusal :=
  .next (s.onNow (diOp c w))
/-- EI. -/
def execEi (c : Nat) (w : DWord) (s : State) : Host.Outcome State Fault Refusal :=
  .next (s.onNow (eiOp c w))
/-- WAITI. -/
def execWaiti (c : Nat) (w : DWord) (s : State) : Host.Outcome State Fault Refusal :=
  .next (s.onNow (waitiOp c w))
/-- MBOXW. -/
def execMboxw (c : Nat) (w : DWord) (s : State) : Host.Outcome State Fault Refusal :=
  .next (s.onNow (mboxwOp c w))
/-- MBOXR. -/
def execMboxr (c : Nat) (w : DWord) (s : State) : Host.Outcome State Fault Refusal :=
  .next (s.onNow (mboxrOp c w))
/-- LDI. -/
def execLdi (c : Nat) (rd : BitVec 4) (imm : W32) (s : State) : Host.Outcome State Fault Refusal :=
  .next (s.onNow (ldiOp c rd imm))
/-- A write to MBOX_IN. -/
def execMboxIn (c : Nat) (v : W32) (s : State) : Host.Outcome State Fault Refusal := .next (s.onNow (mboxInOp c v))
/-- DSP_INTERRUPT. -/
def execDspInterrupt (c : Nat) (s : State) : Host.Outcome State Fault Refusal := .next (s.onNow (dspInterruptOp c))
/-- DI_EXPIRED. -/
def execDiExpired (c : Nat) (s : State) : Host.Outcome State Fault Refusal := .next (s.onNow (diExpiredOp c))
/-- WINDOW_ENTRY. -/
def execWindowEntry (c : Nat) (s : State) : Host.Outcome State Fault Refusal := .next (s.onNow (windowEntryOp c))
/-- DSP_LATE. -/
def execDspLate (slot : Nat) (s : State) : Host.Outcome State Fault Refusal := .next (s.onNow (dspLateOp slot))
/-- DSP_BOUNDARY. -/
def execDspBoundary (job : Nat) (s : State) : Host.Outcome State Fault Refusal := .next (s.onNow (dspBoundaryOp job))
/-- DRAIN_LATE. -/
def execDrainLate (c : Nat) (s : State) : Host.Outcome State Fault Refusal := .next (s.onNow (drainLateOp c))
/-- DSP_ECC. -/
def execDspEcc (c : Nat) (m : DspMem) (addr : Nat) (double : Bool) (s : State) : Host.Outcome State Fault Refusal :=
  .next (s.onNow (dspEccOp c m addr double))

end Sys2Proof.Machine
end

