-- ==== Sys2Proof/Machine/Acq.lean ====
section
/-! DEFINITION. The acquisition engine and the trigger outputs (chapter 08): conditions, marks, stream blocks, capture
records, ARM, DISARM and FORCE, and the pulses of TRIG_OUT. -/

namespace Sys2Proof.Machine

/-! ### Channels and samples (R326 to R332) -/

/-- TAP of a channel. -/
def Dev.acqTap (d : Dev) (c : Nat) : Nat := d.rd (unitKey 0x510002 c)

/-- SOURCE of a channel: a line for TAP 0, else a readout slot. -/
def Dev.acqSrc (d : Dev) (c : Nat) : Nat := d.rd (unitKey 0x510003 c)

/-- REDUCE of a channel. -/
def Dev.acqK (d : Dev) (c : Nat) : Nat := d.rd (unitKey 0x510004 c)

/-- FIR_TAPS of a channel's slot; 1 for a tap that the FIR does not touch. -/
def Dev.acqTaps (d : Dev) (c : Nat) : Nat := if d.acqTap c = 2 then d.slotTaps (d.acqSrc c) else 1

/-- The reference time of a sample of the taps 1 and 2 (R241); 2A for a raw sample A. -/
def sampleRef (tap taps idx : Nat) : Nat :=
  if tap = 0 then 2 * idx else if tap = 2 ∧ taps % 2 = 0 then 64 * idx - 32 else 64 * idx

/-- The land tick of a sample. -/
def sampleTick (tap taps idx : Nat) : Nat := sampleRef tap taps idx / 32

/-- The first sample of a tap at or after a tick (R332). -/
def firstSample (tap taps t : Nat) : Nat :=
  if tap = 0 then 16 * t
  else if tap = 2 ∧ taps % 2 = 0 then ceilDiv (32 * t + 32) 64
  else ceilDiv (32 * t) 64

/-- The tick in which a sample reaches the engine (R242, R256). -/
def sampleArrival (tap taps idx : Nat) : Nat :=
  sampleTick tap taps idx + (if tap = 0 then 12 else if tap = 1 then 44 else 43 + taps)

/-- The first sample of a channel at or after a tick. -/
def Dev.chanSample (d : Dev) (c t : Nat) : Nat := firstSample (d.acqTap c) (d.acqTaps c) t

/-- Whether a channel's tap has output (R255): the slot of a tone chain is bound to a job, or was until the job ended that
still owes the channel's last units (R341). -/
def Dev.tapLive (d : Dev) (c : Nat) : Bool :=
  d.acqTap c == 0 || d.slotBound (d.acqSrc c) || d.hub.jobs.any fun j => j.held.acq.contains c

/-- The samples of a channel's tap that reach the engine in the tick, as (index, value, valid) (R240 to R242, R255, R275, R277,
R327): the codes of the line's converter of 12 ticks ago, or an output of the slot's fixed chain or FIR. -/
def Dev.acqArrivals (d : Dev) (c : Nat) : List (Nat × (Int × Int) × Bool) :=
  let src := d.acqSrc c
  let r := d.slotRx src
  match d.acqTap c with
  | 0 =>
    let l := tabGet {} d.rx.lines src
    if d.epoch < 12 then []
    else (List.range 16).map fun a =>
      let i := 16 * (d.epoch - 12) + a
      let dark := inDark l.dark i
      (i, if dark then (0, 0) else (d.adcCode src 12 a, 0), !dark && !inRun l.rawRuns i)
  | 1 => (r.chain.filter fun x => 2 * x.1 + 44 == d.epoch).map fun x => (x.1, x.2, r.isValid 1 (64 * x.1))
  | _ => (d.firArrivals src).map fun y => ((y.1 + 32) / 64, y.2, r.isValid 2 y.1)

/-- Bytes of a unit (R327, R328). -/
def unitBytes (tap k : Nat) : Nat := (if tap = 0 then 2 else 4) * (if k = 0 then 1 else 2)

/-- Rate of a channel in units of 10⁶ bytes per second, as (bytes per second × 2^REDUCE). -/
def unitRate (tap : Nat) : Nat := if tap = 0 then 12000 else 375

/-- Whether a channel's rate is at most a bound in MB/s times 1, without rounding (R338, R346). -/
def Dev.acqRate (d : Dev) (c : Nat) : Nat :=
  unitBytes (d.acqTap c) (d.acqK c) * unitRate (d.acqTap c) * 2 ^ (16 - d.acqK c)

/-- The least of a list. -/
def listMin : List Int → Int
  | [] => 0
  | a :: l => l.foldl min a

/-- The greatest of a list. -/
def listMax : List Int → Int
  | [] => 0
  | a :: l => l.foldl max a

/-- The bytes of one unit from the unreduced samples of its group (R327, R328). -/
def unitOf (tap k : Nat) (g : List (Int × Int)) : List Byte :=
  let is := g.map (·.1)
  let qs := g.map (·.2)
  if k = 0 then leI 2 (is.headD 0) ++ (if tap = 0 then [] else leI 2 (qs.headD 0))
  else if tap = 0 then leI 2 (listMin is) ++ leI 2 (listMax is)
  else leI 2 (listMin is) ++ leI 2 (listMin qs) ++ leI 2 (listMax is) ++ leI 2 (listMax qs)

/-- The stretch of a channel that a tick lies in. -/
def AcqSt.legAt (st : AcqSt) (t : Nat) : Option AcqLeg := st.legs.find? fun l => decide (l.since ≤ t) && l.stop.all fun e => decide (t ≤ e)

/-- The first tick of a channel's latest stretch. -/
def AcqSt.since (st : AcqSt) : Nat := ((st.legs.getLast?).map (·.since)).getD 0

/-- The value of a sample for the level condition (R334). -/
def Dev.levelValue (d : Dev) (c : Nat) (v : Int × Int) : Int :=
  if d.acqTap c = 0 then v.1
  else
    match d.rd (unitKey 0x51000D c) with
    | 0 => v.1
    | 1 => v.2
    | _ => (v.1 * v.1 + v.2 * v.2) / 2 ^ 15

/-- A sample arms the level condition of a channel, or is the first after that to meet it (R334, R335). -/
def Dev.levelStep (d : Dev) (c : Nat) (st : AcqSt) (idx : Nat) (v : Int × Int) (valid : Bool) : AcqSt :=
  if !d.bit (unitKey 0x51000A c) 9 || !valid || decide (idx < st.judged) then st
  else
    let hi := sext 32 (d.rd (unitKey 0x51000F c))
    let lo := sext 32 (d.rd (unitKey 0x510010 c))
    let x := d.levelValue c v
    let rises := d.rd (unitKey 0x51000E c) == 0
    if st.armed then
      if rises && decide (hi ≤ x) || !rises && decide (x ≤ lo) then { st with armed := false, crossings := st.crossings ++ [idx] }
      else st
    else { st with armed := rises && decide (x ≤ lo) || !rises && decide (hi ≤ x) }

/-- A sample enters the group in progress, and a full group becomes a unit (R327 to R329). Units begin at multiples of 2^REDUCE, in
a stretch of the channel. -/
def Dev.groupStep (d : Dev) (c : Nat) (st : AcqSt) (s : Nat × (Int × Int) × Bool) : AcqSt :=
  let k := d.acqK c
  let opens := s.1 % 2 ^ k == 0
  if (if opens then (st.legAt (sampleTick (d.acqTap c) (d.acqTaps c) s.1)).isNone else st.group.isEmpty) then { st with group := [] }
  else
    let g := (if opens then [] else st.group) ++ [s]
    if g.length < 2 ^ k then { st with group := g }
    else
      let first := (g.headD s).1
      { st with
        group := [], nextUnit := first + 2 ^ k
        units := st.units ++ [{ idx := first, bytes := unitOf (d.acqTap c) k (g.map (·.2.1)), valid := g.all (·.2.2) }] }

/-! ### Records of a channel (R351 to R354) -/

/-- The job that holds a channel; a job that has ended keeps a streaming channel until its last block (R341). -/
def Dev.acqJob (d : Dev) (c : Nat) : Option Job :=
  d.hub.jobs.find? fun j => j.slot == d.rd (unitKey 0x510015 c) && j.held.acq.contains c

/-- A record of a channel goes to the shot that its stretch belongs to, or to its tile's flow without a job. -/
def Dev.acqDeliver (d : Dev) (c : Nat) (l : AcqLeg) (bytes : List Byte) : Dev :=
  let b := padTo 8 bytes
  if l.seq = 0 then
    { d with hub := { d.hub with
        qrs := d.hub.qrs ++ [{ flow := c / 16, job := 0, shot := 0, bytes := b, summary := false }] } }
  else d.modJob l.seq fun j => j.addRec l.shot l.attempt { flow := c / 16, bytes := b }

/-- The VALID bitmap (R352). -/
def validBits (us : List AcqUnit) : Nat :=
  (us.zipIdx).foldl (fun n u => n + bitAt u.1.valid u.2) 0

/-- A stream block (R352). -/
def Dev.blockBytes (d : Dev) (c gap : Nat) (l : AcqLeg) (boundary spilled inRec : Bool) (us : List AcqUnit) : List Byte :=
  le 2 1 ++ le 2 c ++ le 2 us.length
    ++ le 2 (bitAt (d.acqK c != 0) 0 + bitAt (gap != 0) 1 + bitAt boundary 2 + bitAt (us.any fun u => !u.valid) 3
      + bitAt spilled 4 + bitAt inRec 5)
    ++ le 8 ((us.head?.map (·.idx)).getD 0) ++ le 8 l.seq ++ le 8 l.shot ++ le 8 gap ++ le 64 (validBits us) ++ us.flatMap (·.bytes)

/-- CAUSE as a mask. -/
def causeMask (cs : List Nat) : Nat := cs.foldl (fun m b => Nat.lor m (2 ^ b)) 0

/-- The lowest set bit of CAUSE. -/
def primary (cs : List Nat) : Nat := cs.foldl min (cs.headD 0)

/-- A mark record (R353). -/
def Dev.markBytes (d : Dev) (c idx : Nat) (cs : List Nat) (no : Nat) (l : AcqLeg) : List Byte :=
  le 2 2 ++ le 2 c ++ le 2 (causeMask cs) ++ le 1 (primary cs) ++ le 1 0 ++ le 8 idx
    ++ le 8 (sampleTick (d.acqTap c) (d.acqTaps c) idx) ++ le 8 l.seq ++ le 8 l.shot ++ le 4 no ++ le 4 0

/-! ### Trigger outputs (R362 to R364) -/

/-- A trigger output. -/
def Dev.trigOut (d : Dev) (i : Nat) : TrigOut := tabGet {} d.out.trigOut i

/-- Changes a trigger output. -/
def Dev.setTrigOut (d : Dev) (i : Nat) (t : TrigOut) : Dev :=
  { d with out := { d.out with trigOut := tabSet {} d.out.trigOut i t } }

/-- A cause at a tick for the outputs with a source and an argument; causes of one tick give one pulse. -/
def Dev.trigCause (d : Dev) (source : Nat) (arg : Option Nat) (t : Nat) : Dev :=
  (List.range 8).foldl (fun e i =>
    let fits := e.rd (unitKey 0x3A4801 i) == source && (match arg with
      | some a => e.rd (unitKey 0x3A4802 i) == a
      | none => true)
    if fits then
      let o := e.trigOut i
      let at_ := t + 18 + e.rd (unitKey 0x3A4803 i)
      if o.due.contains at_ then e else e.setTrigOut i { o with due := o.due ++ [at_] }
    else e) d

/-- TRIG_OUT_PULSE: the causes whose land tick has come make the land active; a later end stands. -/
def trigOutPulseOp (i : Nat) (d : Dev) : Dev :=
  let o := d.trigOut i
  let ripe := o.due.filter fun t => decide (t ≤ d.epoch)
  match ripe with
  | [] => d
  | t :: ts =>
    let stop := ts.foldl max t + d.rd (unitKey 0x3A4804 i)
    d.setTrigOut i {
      due := o.due.filter fun t => decide (d.epoch < t), active := true,
      until_ := if o.active then max o.until_ stop else stop }

/-- TRIG_OUT_PULSE_END. -/
def trigOutPulseEndOp (i : Nat) (d : Dev) : Dev :=
  let o := d.trigOut i
  if o.active && decide (o.until_ ≤ d.epoch) && o.due.all (fun t => decide (d.epoch < t)) then
    d.setTrigOut i { o with active := false }
  else d

/-- Whether the land of a trigger output is high (R362, R363). -/
def Dev.trigLand (d : Dev) (i : Nat) : Bool :=
  if d.rd (unitKey 0x3A4801 i) = 1 then d.rdB (unitKey 0x3A4806 i)
  else (d.rd (unitKey 0x3A4801 i) != 0 && (d.trigOut i).active) != d.rdB (unitKey 0x3A4805 i)

/-- The level that drives a marker land; none while it is high impedance (R238). -/
def Dev.markerLand (d : Dev) (m : Nat) : Option Bool :=
  if d.rdB (objKey (0x3A00 + m) 0x0A) then some (d.markerLevel m) else none

/-! ### Triggers of a channel (R331 to R336, R342 to R344) -/

/-- ACQ_FLAGS of a channel. -/
def acqFlags (c : Nat) : Nat := unitKey 0x510014 c

/-- The trigger samples of windows that have opened, or will open, on a channel's tap and that are not yet judged (R331: condition
10). -/
def Dev.windowSamples (d : Dev) (c : Nat) : List Nat :=
  let s := d.acqState c
  let st := d.acqSt c
  let slots := if d.acqTap c = 0 then (List.range 16).map (16 * d.acqSrc c + ·) else [d.acqSrc c]
  if d.bit (unitKey 0x51000A c) 10 then
    (slots.flatMap fun k => (d.slotRx k).opening.map fun w => d.chanSample c (w.first / 32)).filter fun i =>
      decide (st.judged ≤ i) && (s == 1 || s == 2 || s == 3 || st.runEnd.any fun e => decide (i ≤ e))
  else []

/-- The conditions of a channel that are met and not yet judged, as (condition, trigger sample) (R331, R332, R334). -/
def Dev.metConds (d : Dev) (c : Nat) : List (Nat × Nat) :=
  ((d.acqSt c).conds.map fun p => (p.1, d.chanSample c p.2)) ++ (d.acqSt c).crossings.map (9, ·)
    ++ (d.windowSamples c).map (10, ·)

/-- Whether every condition of a tick has reached a channel: an edge of its external input is a trigger only when its level has
held for TI_MIN_WIDTH ticks (R331, R355). -/
def Dev.condsKnown (d : Dev) (c t : Nat) : Bool :=
  !d.bit (unitKey 0x51000A c) 8 || decide (t + d.rd (unitKey 0x3A4002 (d.rd (unitKey 0x51000B c))) ≤ d.epoch)

/-- The units of a CAPTURE channel that its ring still holds: PRE before the run, before the earliest condition that is not yet
judged or that an external input can still bring, or the latest PRE (R342). -/
def Dev.trimRing (d : Dev) (c : Nat) (st : AcqSt) : AcqSt :=
  if d.acqState c = 3 then st
  else
    let k := d.acqK c
    let pre := d.rd (unitKey 0x510005 c)
    let from_ := (match st.run with
      | some r => [r.idx]
      | none => []) ++ (d.metConds c).map (·.2)
      ++ if d.bit (unitKey 0x51000A c) 8 then [d.chanSample c (d.epoch - 32)] else []
    let u := from_.foldl min st.nextUnit / 2 ^ k * 2 ^ k
    { st with units := st.units.filter fun x => decide (u ≤ x.idx + pre * 2 ^ k) }

/-- The samples that arrive in the tick enter the channels (R334, R337, R342). -/
def Dev.acqTick (d : Dev) : Dev :=
  (d.acq.filter fun p => !p.2.legs.isEmpty).foldl (fun e p =>
    let l := e.acqArrivals p.1
    if l = [] then e
    else
      let st := l.foldl (fun st s => e.groupStep p.1 (e.levelStep p.1 st s.1 s.2.1 s.2.2) s) p.2
      let e1 := e.setAcq p.1 st
      e1.setAcq p.1 (e1.trimRing p.1 st)) d

/-- A trigger is accepted (R333, R336, R337, R342): the output pulses, line 0x90 + tile, and a mark or a post-trigger
run. -/
def Dev.acqAccept (d : Dev) (c idx : Nat) (cs : List Nat) (l : AcqLeg) : Dev :=
  let d1 := ((d.setAcq c { d.acqSt c with lastIdx := some idx }).trigCause 3 (some c) d.epoch).produce (0x90 + c / 16)
  let st := d1.acqSt c
  if d1.acqState c = 3 then
    let no := l.marks + 1
    let d2 := d1.setAcq c { st with legs := st.legs.map fun x => if x = l then { x with marks := no } else x }
    (if st.legs.getLast? = some l then d2.wr (unitKey 0x510017 c) no else d2).acqDeliver c l (d1.markBytes c idx cs no l)
  else
    let k := d1.acqK c
    (d1.wr (unitKey 0x510013 c) 2).setAcq c { st with
      run := some { idx := idx, causes := cs, disarm := false }
      runEnd := some ((idx / 2 ^ k + d1.rd (unitKey 0x510006 c)) * 2 ^ k - 1) }

/-- The conditions met at a sample are judged. -/
def AcqSt.judge (st : AcqSt) (idx : Nat) (at_ : Nat → Nat) : AcqSt :=
  { st with
    conds := st.conds.filter fun p => at_ p.2 != idx
    crossings := st.crossings.filter (· != idx), judged := max st.judged (idx + 1) }

/-- ACQ_TRIGGER (R333, R336, R343, R344): the conditions met at a sample are judged, when it has come, the earliest sample first. One
met in a post-trigger run starts no record, whenever it is judged. -/
def acqTriggerOp (c idx : Nat) (d : Dev) : Dev :=
  let st := d.acqSt c
  let s := d.acqState c
  let met := d.metConds c
  let cs := ((met.filter fun p => p.2 == idx).map (·.1)).dedup
  let inRun := st.runEnd.any fun e => decide (idx ≤ e)
  if cs = [] ∨ met.any (fun p => decide (p.2 < idx)) ∨ d.epoch < sampleArrival (d.acqTap c) (d.acqTaps c) idx ∨ !d.tapLive c
      ∨ !d.condsKnown c (sampleTick (d.acqTap c) (d.acqTaps c) idx) ∨ (s = 2 ∧ !inRun) then d
  else
    let d1 := d.setAcq c (st.judge idx (d.chanSample c))
    match st.legAt (sampleTick (d.acqTap c) (d.acqTaps c) idx) with
    | none => d1
    | some l =>
      if st.lastIdx.any fun i => decide (idx < i + d.rd (unitKey 0x510011 c)) then d1.flag (acqFlags c) 2
      else
        let d2 := if 2 ≤ cs.length then d1.flag (acqFlags c) 3 else d1
        if inRun then d2.flag (acqFlags c) 1
        else if s = 1 ∨ s = 3 then d2.acqAccept c idx cs l
        else d1

/-! ### Stream blocks (R337 to R341) -/

/-- Most units of a block (R352). -/
def blockUnits (tap k : Nat) : Nat := 1024 / unitBytes tap k

/-- Bytes of a channel without a job that wait in its buffer. -/
def Dev.acqWaiting (d : Dev) (c : Nat) : Nat :=
  (d.hub.qrs.filter fun i => i.job == 0 && i.flow == c / 16 && ofLe ((i.bytes.drop 2).take 2) == c).foldl
    (fun n i => n + i.bytes.length) 0

/-- A channel that its job no longer needs is idle and has no holder. -/
def Dev.freeChannel (d : Dev) (seq c : Nat) : Dev :=
  (((d.wr (unitKey 0x510015 c) (resetOf (unitKey 0x510015 c))).wr (unitKey 0x510013 c) 0).setAcq c
    { lastIdx := (d.acqSt c).lastIdx }).modJob seq fun j => { j with held := { j.held with acq := j.held.acq.filter (· != c) } }

/-- The tick in which the unit of an index begins to land. -/
def Dev.unitTick (d : Dev) (c idx : Nat) : Nat := sampleTick (d.acqTap c) (d.acqTaps c) idx

/-- Whether a unit belongs to a stretch. -/
def Dev.inLeg (d : Dev) (c idx : Nat) (l : AcqLeg) : Bool :=
  decide (l.since ≤ d.unitTick c idx) && l.stop.all fun e => decide (d.unitTick c idx ≤ e)

/-- Whether a stretch still owes units, which its channel holds or awaits (R341). -/
def Dev.legOwes (d : Dev) (c : Nat) (l : AcqLeg) : Bool :=
  let st := d.acqSt c
  l.stop.all (fun e => decide (d.unitTick c st.nextUnit ≤ e)) || st.units.any fun u => d.inLeg c u.idx l

/-- STREAM_BLOCK: the next units of a streaming channel, of one stretch. A condition met at one of their samples is judged first,
since its mark goes before the block (R337); the last block of a shot carries BOUNDARY (R341). -/
def streamBlockOp (c units : Nat) (d : Dev) : Dev :=
  let k := d.acqK c
  let st := d.acqSt c
  match st.legs.find? (d.legOwes c) with
  | none => d
  | some l =>
    let us := (st.units.takeWhile fun u => d.inLeg c u.idx l).take units
    let next := ((us.getLast?).map fun u => u.idx + 2 ^ k).getD 0
    if (d.acqState c = 3 ∨ d.acqState c = 0) ∧ d.rd (unitKey 0x510001 c) = 1 ∧ us ≠ [] ∧ us.length = units ∧ units ≤ blockUnits (d.acqTap c) k
        ∧ (d.metConds c).all (fun p => decide (next ≤ p.2)) ∧ d.condsKnown c (d.unitTick c (next - 1)) then
      let last := l.stop.any fun e => decide (e < d.unitTick c next)
      let st1 := { st with
        units := st.units.drop units, legs := if last then st.legs.filter (· != l) else st.legs }
      let b := d.blockBytes c st.gap l (last && l.seq != 0) false false us
      if l.seq ≠ 0 then
        let d1 := (d.setAcq c st1).acqDeliver c l b
        if st1.legs.isEmpty && !((d.job l.seq).any fun j => j.st.resident) then d1.freeChannel l.seq c else d1
      else if d.acqWaiting c + b.length ≤ d.rd (unitKey 0x510009 c) then (d.setAcq c { st1 with gap := 0 }).acqDeliver c l b
      else (d.setAcq c { st1 with gap := st.gap + units }).flag (acqFlags c) 0
    else d

/-! ### Capture records (R342 to R350, R354) -/

/-- PRE. -/
def Dev.acqPre (d : Dev) (c : Nat) : Nat := d.rd (unitKey 0x510005 c)
/-- POST. -/
def Dev.acqPost (d : Dev) (c : Nat) : Nat := d.rd (unitKey 0x510006 c)

/-- Whether a record is larger than BUF_BYTES (R345). -/
def Dev.acqLong (d : Dev) (c : Nat) : Bool :=
  decide (d.rd (unitKey 0x510009 c) < (d.acqPre c + d.acqPost c) * unitBytes (d.acqTap c) (d.acqK c))

/-- The units of a record (R342, R343): those of the ring before the trigger unit, at most PRE, then those from it on. -/
def Dev.recordUnits (d : Dev) (c idx : Nat) : List AcqUnit × List AcqUnit :=
  let us := (d.acqSt c).units
  let trig := idx / 2 ^ d.acqK c * 2 ^ d.acqK c
  let before := us.filter fun u => decide (u.idx < trig)
  (before.drop (before.length - d.acqPre c), (us.filter fun u => decide (trig ≤ u.idx)).take (d.acqPost c))

/-- The state of a CAPTURE channel after a record (R348, R349). -/
def Dev.afterRecord (d : Dev) (c no : Nat) (disarm : Bool) : Nat :=
  let n := d.rd (unitKey 0x510007 c)
  if disarm then 0 else if n ≠ 0 ∧ n ≤ no then 4 else 1

/-- The header of a capture record (R354). -/
def Dev.recordHead (d : Dev) (c no : Nat) (r : AcqRun) (l : AcqLeg) (before after : List AcqUnit) : List Byte :=
  let us := before ++ after
  let bad := us.filter fun u => !u.valid
  le 2 3 ++ le 2 c ++ le 2 (causeMask r.causes) ++ le 1 (primary r.causes)
    ++ le 1 (bitAt (decide (before.length < d.acqPre c)) 0 + bitAt (bad != []) 1 + bitAt (d.acqK c != 0) 2 + bitAt (d.acqLong c) 3)
    ++ le 8 r.idx ++ le 8 ((us.head?.map (·.idx)).getD 0) ++ le 4 before.length ++ le 4 after.length ++ le 4 bad.length ++ le 4 no
    ++ le 8 ((bad.head?.map (·.idx)).getD (2 ^ 64 - 1))
    ++ le 8 l.seq ++ le 8 l.shot ++ le 8 (sampleTick (d.acqTap c) (d.acqTaps c) r.idx)

/-- CAPTURE_RECORD_COMPLETE: the record of the run in progress, when its last unit has come. -/
def captureRecordCompleteOp (c : Nat) (d : Dev) : Dev :=
  let st := d.acqSt c
  match st.run, st.legs.getLast? with
  | some r, some l =>
    let us := d.recordUnits c r.idx
    if d.acqState c = 2 ∧ us.2.length = d.acqPost c then
      let no := d.rd (unitKey 0x510016 c) + 1
      let d1 := (d.wrs [(unitKey 0x510016 c, no), (unitKey 0x510013 c, d.afterRecord c no r.disarm)]).setAcq c
        { st with run := none }
      let d2 := if us.1.length < d.acqPre c then d1.flag (acqFlags c) 4 else d1
      let d3 := if d.acqLong c then d2.flag (acqFlags c) 5 else d2
      let n := blockUnits (d.acqTap c) (d.acqK c)
      let all := us.1 ++ us.2
      (List.range (ceilDiv all.length n)).foldl (fun e i =>
        e.acqDeliver c l (d.blockBytes c 0 l false
          (d.acqLong c && decide (d.rd (unitKey 0x510009 c) < ((i + 1) * n) * unitBytes (d.acqTap c) (d.acqK c))) true
          ((all.drop (i * n)).take n))) (d3.acqDeliver c l (d.recordHead c no r l us.1 us.2))
    else d
  | _, _ => d

/-! ### ARM, DISARM, FORCE (R338, R345, R346, R349, R366) -/

/-- The rates of the channels in a set, in MB/s × 2¹⁶. -/
def Dev.rateSum (d : Dev) (p : Nat → Bool) : Nat :=
  ((List.range 128).filter p).foldl (fun n c => n + d.acqRate c) 0

/-- Whether a channel streams. -/
def Dev.streaming (d : Dev) (c : Nat) : Bool := d.acqState c == 3

/-- Whether a channel has been accepted as a spilling one: a job holds it, or it is armed without one (R345, R346). -/
def Dev.spilling (d : Dev) (c : Nat) : Bool :=
  d.rd (unitKey 0x510001 c) == 2 && d.acqLong c
    && (d.rd (unitKey 0x510015 c) != 0xFFFF || d.acqState c == 1 || d.acqState c == 2)

/-- What of a record BUF_BYTES cannot hold: the size of a channel's spill extent (R345, R346). -/
def Dev.acqExcess (d : Dev) (c : Nat) : Nat :=
  (d.acqPre c + d.acqPost c) * unitBytes (d.acqTap c) (d.acqK c) - d.rd (unitKey 0x510009 c)

/-- Bytes of DDR4 that no stream extent of a resident job and no spill extent takes. DESIGN CHOICE (log entry 124): extents
fit wherever their bytes do. -/
def Dev.ddrFree (d : Dev) : Nat :=
  d.rd 0x100209 - (((List.range 128).filter d.spilling).map d.acqExcess).sum
    - ((d.resident.flatMap (·.held.streams)).map fun k => d.rd (unitKey 0x488004 k)).sum

/-- The status with which a channel's ARM is served: 0x13 STREAM_RATE, 0x12 CAPTURE_TOO_LONG, 0x14 SPILL_RATE, 0 when it
keeps the rules (R338, R345, R346). -/
def Dev.armRules (d : Dev) (c : Nat) : Nat :=
  if d.rd (unitKey 0x510001 c) = 1 then
    if 12000 * 2 ^ 16 < d.rateSum (fun x => x / 16 == c / 16 && d.streaming x) + d.acqRate c
        ∨ 40000 * 2 ^ 16 < d.rateSum d.streaming + d.acqRate c then 0x13 else 0
  else if d.acqLong c then
    if !d.rdB (unitKey 0x510008 c) then 0x12
    else if 12000 * 2 ^ 16 < d.acqRate c ∨ 20000 * 2 ^ 16 < d.rateSum d.spilling + d.acqRate c
        ∨ d.ddrFree < d.acqExcess c then 0x14
    else 0
  else 0

/-- The status of a write of ARM: STATE_CONFLICT for a channel of a job, one already armed (R366), or one that is off;
then the rules. -/
def Dev.armStatus (d : Dev) (c : Nat) : Nat :=
  let st := d.acqState c
  if d.rd (unitKey 0x510015 c) ≠ 0xFFFF ∨ st = 1 ∨ st = 2 ∨ st = 3 ∨ d.rd (unitKey 0x510001 c) = 0 then 0x07
  else d.armRules c

/-- A channel begins a stretch: its counts at 0, its first unit the first at or after the tick. A CAPTURE channel starts with an
empty ring and nothing to judge (R337, R342, R343, R348); a streaming one may still owe units of earlier shots (R341). -/
def Dev.acqBegin (d : Dev) (c : Nat) (l : AcqLeg) : Dev :=
  let k := d.acqK c
  let st := d.acqSt c
  let streams := d.rd (unitKey 0x510001 c) == 1
  let owed := if streams then st.legs.filter (d.legOwes c) else []
  (d.wrs [(unitKey 0x510013 c, if streams then 3 else 1), (unitKey 0x510016 c, 0), (unitKey 0x510017 c, 0)]).setAcq c
    { lastIdx := st.lastIdx, legs := owed ++ [l]
      units := if owed = [] then [] else st.units, group := if owed = [] then [] else st.group
      conds := if owed = [] then [] else st.conds, crossings := if owed = [] then [] else st.crossings
      judged := if owed = [] then d.chanSample c l.since else st.judged
      nextUnit := if owed = [] then ceilDiv (d.chanSample c l.since) (2 ^ k) * 2 ^ k else st.nextUnit }

/-- ARM; a rejection with STATE_CONFLICT is counted (R629), one under R338, R345 or R346 changes nothing. -/
def armOp (c : Nat) (d : Dev) : Dev :=
  if d.armStatus c = 0 then d.acqBegin c { since := d.epoch } else if d.armStatus c = 7 then d.conflict else d

/-- A channel that has stopped at once: a streaming one still delivers the units that it holds (R337). -/
def Dev.stopped (d : Dev) (c : Nat) : AcqSt :=
  let st := d.acqSt c
  match st.units.getLast? with
  | some u =>
    if d.acqState c = 3 then
      { st with conds := [], crossings := [], group := [], legs := st.legs.map fun l => { l with stop := some (d.unitTick c u.idx) } }
    else { lastIdx := st.lastIdx }
  | none => { lastIdx := st.lastIdx }

/-- DISARM (R349): at once, or when the run in progress completes. -/
def disarmOp (c : Nat) (d : Dev) : Dev :=
  if d.rd (unitKey 0x510015 c) ≠ 0xFFFF then d.conflict
  else
    let st := d.acqSt c
    match st.run with
    | some r => d.setAcq c { st with run := some { r with disarm := true } }
    | none => (d.wr (unitKey 0x510013 c) 0).setAcq c (d.stopped c)

/-- FORCE (R331): condition 13. -/
def forceOp (c : Nat) (d : Dev) : Dev :=
  if d.rd (unitKey 0x510015 c) ≠ 0xFFFF then d.conflict else d.addCond c 13 d.epoch

/-! ### Meanings -/

/-- ACQ_TRIGGER. -/
def execAcqTrigger (c idx : Nat) (s : State) : Host.Outcome State Fault Refusal := .next (s.onNow (acqTriggerOp c idx))
/-- STREAM_BLOCK. -/
def execStreamBlock (c units : Nat) (s : State) : Host.Outcome State Fault Refusal := .next (s.onNow (streamBlockOp c units))
/-- CAPTURE_RECORD_COMPLETE. -/
def execCaptureRecordComplete (c : Nat) (s : State) : Host.Outcome State Fault Refusal :=
  .next (s.onNow (captureRecordCompleteOp c))
/-- TRIG_OUT_PULSE. -/
def execTrigOutPulse (i : Nat) (s : State) : Host.Outcome State Fault Refusal := .next (s.onNow (trigOutPulseOp i))
/-- TRIG_OUT_PULSE_END. -/
def execTrigOutPulseEnd (i : Nat) (s : State) : Host.Outcome State Fault Refusal := .next (s.onNow (trigOutPulseEndOp i))
/-- A write of 1 to ACQ_CMD. -/
def execArm (c : Nat) (s : State) : Host.Outcome State Fault Refusal := .next (s.onNow (armOp c))
/-- A write of 2 to ACQ_CMD. -/
def execDisarm (c : Nat) (s : State) : Host.Outcome State Fault Refusal := .next (s.onNow (disarmOp c))
/-- A write of 3 to ACQ_CMD. -/
def execForce (c : Nat) (s : State) : Host.Outcome State Fault Refusal := .next (s.onNow (forceOp c))

end Sys2Proof.Machine
end

