-- ==== Sys2Proof/Machine/Place.lean ====
section
/-! DEFINITION. The placement engine's checks (chapter 10): reports, the reach of a program, the choice of units, and
every reason for which a job is refused. -/

namespace Sys2Proof.Machine

/-! ### Reports (R436 to R440) -/

/-- A unit code (R439). -/
def unitCode (cls idx : Nat) : Nat := cls * 2 ^ 11 + idx % 2 ^ 11

/-- The code for no unit (R439). -/
def noUnit : Nat := 0xFFFF

/-- An entry (R438). -/
def reportEntry (etype eflags a b arg16 arg64 : Nat) : List Byte :=
  le 1 etype ++ le 1 eflags ++ le 2 a ++ le 2 b ++ le 2 arg16 ++ le 8 arg64

/-- A report is produced (R436, R437): it is the latest, and leaves on flow 9. -/
def Dev.report (d : Dev) (verdict slot seq shot reason : Nat) (es : List (List Byte)) : Dev :=
  let no := d.rd 0x600005 + 1
  let b := le 2 5 ++ le 1 verdict ++ le 1 0 ++ le 2 es.length ++ le 2 slot ++ le 8 seq ++ le 8 shot ++ le 8 d.epoch
    ++ le 2 reason ++ le 2 0 ++ le 4 no ++ le 8 0 ++ es.flatten
  let d1 := d.wr 0x600005 no
  { d1 with hub := { d1.hub with
      report := b, qrs := d1.hub.qrs ++ [{ flow := 9, job := seq, shot := shot, bytes := padTo 8 b, summary := false }] } }

/-- A failure found (R425, R426): reason, SUB, ITEM, VALUE, the units concerned. -/
structure Failure where
  reason : Nat
  sub : Nat := 0
  item : Nat := 0
  value : Nat := 0
  a : Nat := noUnit
  b : Nat := noUnit
  deriving DecidableEq, Repr

/-- The REFUSAL entry of a failure (R440). -/
def Failure.entry (f : Failure) : List Byte :=
  reportEntry 0x0A 0 f.a f.b f.reason (f.item % 2 ^ 32 + 2 ^ 32 * (f.sub % 256) + 2 ^ 40 * (f.value % 2 ^ 24))

/-- A failure that names a qubit. -/
def failQ (reason q : Nat) (sub : Nat := 0) : Failure := { reason := reason, sub := sub, item := q, a := unitCode 11 q }

/-! ### Programs (R101, R104, R105, R152) -/

/-- OPC. -/
def opc (w : W128) : Nat := fld w 7 0

/-- Bits that the fields of an opcode use above the header; none for an opcode without a meaning (R105). -/
def opMask (o : Nat) : Option Nat :=
  let r : Nat → Nat → Nat := fun hi lo => 2 ^ (hi + 1) - 2 ^ lo
  match o with
  | 0x00 => some 0
  | 0x01 => some (r 102 32)
  | 0x02 => some (r 109 36)
  | 0x04 => some (r 35 32 + r 63 48)
  | 0x08 => some (r 34 32 + r 95 48)
  | 0x09 => some (r 34 32 + r 95 48)
  | 0x0A => some (r 34 32 + r 95 48)
  | 0x0B => some (r 34 32 + r 39 36)
  | 0x10 => some 0
  | 0x11 => some (r 79 32)
  | 0x12 => some (r 47 32)
  | 0x13 => some (r 35 32)
  | 0x19 => some (r 34 32)
  | 0x20 => some (r 38 32)
  | 0x21 => some (r 35 32)
  | 0x28 => some (r 36 32 + r 127 64)
  | 0x29 => some (r 53 32)
  | 0x2A => some (r 35 32 + r 79 64)
  | 0x2C => some (r 35 32 + r 63 42)
  | 0x30 => some (r 35 32 + r 95 64)
  | 0x31 => some (r 35 32 + r 95 64)
  | 0x38 => some (r 36 32)
  | 0x3F => some 0
  | _ => if 0xC0 ≤ o then some (r 127 32) else none

/-- A program entry. -/
def secOp (cs : Sections) (i : Nat) : W128 := cs.program.getD i 0

/-- The entries that can follow an entry (R152). -/
def successors (w : W128) (i : Nat) : List Int :=
  let rel : Nat → Int := fun lo => (i : Int) + sext 16 (fld w (lo + 15) lo)
  match opc w with
  | 0x3F => []
  | 0x29 => [(fld w 53 32 : Int)]
  | 0x2A => [(i : Int) + 1, rel 64]
  | 0x28 => [(i : Int) + 1, rel 64, rel 80, rel 96, rel 112]
  | _ => [(i : Int) + 1]

/-- Entries reached from a list of entries, inside the program (fuel: six steps for each entry). -/
def secWalk (cs : Sections) : Nat → List Int → List Nat → List Nat
  | 0, _, seen => seen
  | _, [], seen => seen
  | fuel + 1, i :: todo, seen =>
    if i < 0 ∨ (cs.program.length : Int) ≤ i ∨ seen.contains i.toNat then secWalk cs fuel todo seen
    else secWalk cs fuel (successors (secOp cs i.toNat) i.toNat ++ todo) (i.toNat :: seen)

/-- Entries that can be reached from some entries. -/
def secReach (cs : Sections) (starts : List Int) : List Nat :=
  secWalk cs (6 * cs.program.length + starts.length + 8) starts []

/-- Entries that a sketch path can reach: those reached from the targets of a sketch-mode branch (log entry 12). -/
def secSketchReach (cs : Sections) (es : List Nat) : List Nat :=
  secReach cs (es.flatMap fun i =>
    let w := secOp cs i
    if opc w = 0x28 ∧ fld w 36 36 = 1 then (successors w i).drop 1 else [])

/-- The generator slot that an operation names. -/
def genSlot (w : W128) : Option Nat :=
  if (opc w = 1 ∨ opc w = 2) ∧ fld w 36 36 = 1 then some (fld w 41 37)
  else if opc w = 0x38 then some (fld w 36 32)
  else none

/-- The definition bound to a slot of a canvas (R176). -/
def secBinding (cs : Sections) (canvas g : Nat) : Option Nat :=
  (cs.genBinds.find? fun b => b.canvas == canvas && b.gsel == g).map (·.defn)

/-- The least and greatest offset that a definition produces, taken from its kind (R177). -/
def genSpan (g : GenDef) : Int × Int :=
  let s1 := sext 32 g.p2
  let s2 := sext 32 g.p4
  let stride : Int × Int :=
    (min 0 ((g.p1 - 1 : Nat) * s1) + min 0 ((g.p3 - 1 : Nat) * s2), max 0 ((g.p1 - 1 : Nat) * s1) + max 0 ((g.p3 - 1 : Nat) * s2))
  match g.kind with
  | 1 => (0, (g.p1 - 1 : Nat))
  | 2 => stride
  | 3 => (0, ((2 ^ g.p1 - 1) * g.p2 : Nat))
  | 4 => (0, ((g.p4 - 1 : Nat) : Int))
  | _ => (0, 0)

/-- Whether a definition keeps R179. -/
def genOk (g : GenDef) : Bool :=
  match g.kind with
  | 1 => decide (1 ≤ g.p1 ∧ g.p1 ≤ 4194304 ∧ g.p2 ≤ 2)
  | 2 => decide (1 ≤ g.p1 ∧ 1 ≤ g.p3)
  | 3 => decide (1 ≤ g.p1 ∧ g.p1 ≤ 22 ∧ 1 ≤ g.p2)
  | 4 => decide (2 ≤ g.p1 ∧ g.p1 ≤ 22 ∧ 1 ≤ g.p4 ∧ g.p4 ≤ 2 ^ g.p1 ∧ 1 ≤ g.p3 ∧ g.p3 < 2 ^ g.p1 ∧ g.p2 < 2 ^ g.p1)
      && g.p2.testBit (g.p1 - 1)
  | _ => false

/-- Whether a reset mode is one of R180. -/
def genModeOk (g : GenDef) : Bool := decide (g.mode ≤ 2)

/-! ### Segments (R153 to R156) -/

/-- A segment descriptor. -/
def secSeg (cs : Sections) (i : Nat) : W128 := cs.segments.getD i 0

/-- Whether a descriptor keeps R154 by itself. -/
def segOk (w : W128) : Bool :=
  let rate := fld w 53 52
  fld w 31 29 == 0 && fld w 63 56 == 0 && fld w 127 103 == 0
    && (fld w 22 22 == 0 || fld w 21 0 == 0) && (fld w 22 22 == 1 || fld w 28 23 == 0)
    && fld w 51 32 != 0 && fld w 51 32 % 2 ^ rate == 0 && decide (fld w 55 54 ≤ 1)
    && (fld w 22 22 == 0 || fld w 79 64 == 0)

/-- Stored 4-byte units of a descriptor's samples (R155, R156). -/
def segUnits (w : W128) : Nat :=
  let n := fld w 51 32 / 2 ^ fld w 53 52
  if fld w 55 54 = 0 then n else ceilDiv n 2

/-- The descriptors of a chain from an address, and whether it leaves the segments or returns to itself. -/
def secChainOf (cs : Sections) : Nat → Nat → List Nat → List Nat × Bool × Bool
  | 0, _, seen => (seen, false, true)
  | fuel + 1, a, seen =>
    if cs.segments.length ≤ a then (seen, true, false)
    else if seen.contains a then (seen, false, true)
    else if fld (secSeg cs a) 102 102 = 1 then (a :: seen, false, false)
    else secChainOf cs fuel (fld (secSeg cs a) 101 80) (a :: seen)

/-- First descriptors that an operation can start with: its DADDR, or those of SEGMENTS in the span of its generator
(R152). -/
def secStarts (cs : Sections) (canvas : Nat) (w : W128) : List Nat :=
  if opc w = 1 ∨ opc w = 2 ∨ opc w = 0x2C then
    match (if opc w = 0x2C then none else genSlot w) with
    | none => [fld w 63 42]
    | some g =>
      match secBinding cs canvas g with
      | none => []
      | some b =>
        match cs.genDefs[b]? with
        | none => []
        | some df =>
          let s := genSpan df
          let lo := max 0 ((df.base : Int) + s.1)
          let hi := min ((cs.segments.length : Int) - 1) (df.base + s.2)
          (List.range (hi - lo + 1).toNat).map fun k => lo.toNat + k
  else []

/-- The descriptors that a canvas' strokes can reach. -/
def secCanvasSegs (cs : Sections) (canvas : Nat) (es : List Nat) : List Nat :=
  ((es.flatMap fun i => secStarts cs canvas (secOp cs i)).dedup.flatMap fun a =>
    (secChainOf cs (cs.segments.length + 1) a []).1).dedup

/-! ### Wiring (R412, R413, R415) -/

/-- XY_PORT of a qubit. -/
def Dev.xyOf (d : Dev) (q : Nat) : Option Nat := let v := d.rd (unitKey 0x610001 q); if v = 0xFF then none else some v
/-- RL_LINE of a qubit. -/
def Dev.rlOf (d : Dev) (q : Nat) : Option Nat := let v := d.rd (unitKey 0x610002 q); if v = 0xFF then none else some v
/-- Flux channels of a qubit, in order. -/
def Dev.fluxOf (d : Dev) (q : Nat) : List Nat :=
  ((List.range 4).map fun i => d.rd (unitKey 0x610003 q + i)).filter (· != 0xFFFF)

/-- Whether a qubit takes part in a breach of the wiring (R413). -/
def Dev.wiringBad (d : Dev) (q : Nat) : Bool :=
  let qs := List.range 512
  let xyBad := match d.xyOf q with
    | some p => decide (8 < (qs.filter fun r => d.xyOf r == some p).length)
    | none => false
  let rlBad := match d.rlOf q with
    | some n => decide (16 < (qs.filter fun r => d.rlOf r == some n).length)
    | none => false
  let fx := d.fluxOf q
  let fluxBad := fx != [] && qs.any fun r => r != q && (d.fluxOf r).any fun c => fx.contains c
  ((d.xyOf q).isNone && (d.rlOf q).isNone && fx == []) || xyBad || rlBad || fluxBad

/-- The canvas' tile by its kind; none when the wiring does not give it (R415). `i` is its row. -/
def Dev.canvasTile (d : Dev) (cs : Sections) (i : Nat) : Option Nat :=
  match cs.canvases[i]? with
  | none => none
  | some r =>
    let xy := (d.xyOf r.qubit).map (· / 8)
    let rl := (d.rlOf r.qubit).map (· / 4)
    match r.kind with
    | .both => if xy = rl then xy else none
    | .drive => xy
    | .readout => rl
    | .fluxOnly =>
      let others := (cs.canvases.filter fun c => c.qubit == r.qubit && c.kind != .fluxOnly).filterMap fun c =>
        match c.kind with
        | .readout => rl
        | _ => xy
      let tiles := (((d.fluxOf r.qubit).map (· / 96)).reverse.dedup.reverse).filter fun t => !others.contains t
      let before := ((cs.canvases.take i).filter fun c => c.qubit == r.qubit && c.kind == .fluxOnly).length
      tiles[before]?

/-- The flux channels bound to a canvas (R414, R415). -/
def Dev.canvasFlux (d : Dev) (cs : Sections) (i : Nat) : List Nat :=
  match cs.canvases[i]?, d.canvasTile cs i with
  | some r, some t => (d.fluxOf r.qubit).filter fun c => c / 96 == t
  | _, _ => []

/-! ### What is free -/

/-- Threads held by resident jobs. -/
def Dev.heldThreads (d : Dev) : List Nat := d.resident.flatMap fun j => j.held.canvases.map (·.thread)

/-- The free threads of a tile, those of retired easels left out. -/
def Dev.freeThreads (d : Dev) (tile : Nat) : List Nat :=
  ((List.range 64).map (64 * tile + ·)).filter fun n =>
    !d.heldThreads.contains n && !d.isRetired (.easel (n / 16))

/-- The lowest address at which `len` fits between used ranges (first, last), below a bound. -/
def lowestFit (used : List (Nat × Nat)) (len bound : Nat) : Option Nat :=
  let cands := (0 :: used.map fun u => u.2 + 1).mergeSort fun a b => decide (a ≤ b)
  cands.find? fun a => decide (a + len ≤ bound) && used.all fun u => decide (a + len ≤ u.1 ∨ u.2 < a)

/-- Descriptor entries in regions, as (first, last). -/
def Dev.usedEntries (d : Dev) : List (Nat × Nat) := d.resident.flatMap fun j => j.held.regions.map fun r => (r.2.2.1, r.2.2.2)

/-- Sample-store blocks in use on a tile, as (first, last); retired blocks count as used. -/
def Dev.usedBlocks (d : Dev) (tile : Nat) : List (Nat × Nat) :=
  (d.resident.flatMap fun j => (j.held.blocks.filter fun b => b.1 == tile && b.2.2.1 != 0).map fun b =>
    (b.2.1, b.2.1 + b.2.2.1 - 1))
  ++ d.hub.units.retired.filterMap fun u => match u with
    | .sram t b => if t = tile ∧ b < 4096 then some (b, b) else none
    | _ => none

/-! ### Choice of threads (R414, R416, R422) -/

/-- The pinned thread of a canvas. -/
def secPinThread (cs : Sections) (i : Nat) : Option Nat :=
  cs.pins.findSome? fun p => match p with
    | .thread c e t => if c = i then some (16 * e + t) else none
    | _ => none

/-- The element of a nonempty list that the engine takes: free (R414, R417; log entry 10). -/
def choose {α : Type} (cs : Sections) (pos : Nat) (l : List α) : Option α := l[Config.pick cs pos % l.length]?

/-- The members of a barrier group that no pin places. -/
def groupRest (cs : Sections) (g : Nat) : List Nat :=
  (List.range cs.canvases.length).filter fun k => ((cs.canvases[k]?).bind (·.group)) == some g && (secPinThread cs k).isNone

/-- The easels that a barrier group can go to on its tile, in the engine's order (R416): that of its pinned members, else any. -/
def groupEasels (cs : Sections) (g t : Nat) : List Nat :=
  let pinned := (List.range cs.canvases.length).filterMap fun k =>
    if ((cs.canvases[k]?).bind (·.group)) = some g then secPinThread cs k else none
  match pinned.head? with
  | some n => [n / 16]
  | none => (List.range 4).map fun k => 4 * t + (Config.pick cs g + k) % 4

/-- Barrier groups on easels with enough free threads: the first way that places them all, as (group, easel). Groups are given as
(group, threads needed, easels). -/
def packGroups (free : List Nat) : List (Nat × Nat × List Nat) → Option (List (Nat × Nat))
  | [] => some []
  | x :: l => x.2.2.findSome? fun e =>
    let there := (free.filter fun n => n / 16 == e).take x.2.1
    if there.length < x.2.1 then none
    else (packGroups (free.filter fun n => !there.contains n) l).map ((x.1, e) :: ·)

/-- The free threads of a tile that no pin of the job names. -/
def Dev.openThreads (d : Dev) (cs : Sections) (t : Nat) : List Nat :=
  let pinned := (List.range cs.canvases.length).filterMap (secPinThread cs)
  (d.freeThreads t).filter fun n => !pinned.contains n

/-- The barrier groups of a tile with their easels (R414, R416). -/
def Dev.groupPlaces (d : Dev) (cs : Sections) (t : Nat) : List (Nat × Nat) :=
  let gs := ((List.range cs.canvases.length).filterMap fun k =>
    if d.canvasTile cs k = some t then (cs.canvases[k]?).bind (·.group) else none).dedup
  (packGroups (d.openThreads cs t) (gs.map fun g => (g, (groupRest cs g).length, groupEasels cs g t))).getD []

/-- The thread of one more canvas (R414, R416): its pin; on the easel of its barrier group; else any free thread of its tile. -/
def Dev.chooseThread (d : Dev) (cs : Sections) (i : Nat) (out : List (Nat × Nat)) : Option Nat :=
  match secPinThread cs i with
  | some n => some n
  | none =>
    match d.canvasTile cs i with
    | none => none
    | some t =>
      let free := (d.openThreads cs t).filter fun n => !(out.map (·.2)).contains n
      match (cs.canvases[i]?).bind (·.group) with
      | none => choose cs i free
      | some g =>
        match (d.groupPlaces cs t).find? (·.1 == g) with
        | some p => (free.filter fun n => n / 16 == p.2).head?
        | none => none

/-- The threads of the canvases, as (row, thread), those of barrier groups chosen first; a row that finds none is left out. -/
def Dev.chooseThreads (d : Dev) (cs : Sections) : List (Nat × Nat) :=
  let rows := List.range cs.canvases.length
  let grouped : Nat → Bool := fun i => ((cs.canvases[i]?).bind (·.group)).isSome
  (rows.filter grouped ++ rows.filter fun i => !grouped i).foldl (fun out i =>
    match d.chooseThread cs i out with
    | some n => out ++ [(i, n)]
    | none => out) []

/-! ### Frequencies (R199, R200, R214, R250) -/

/-- The frames of a canvas that its program plays or retunes on a slot, and readout frame 0, the receive frame from each shot
boundary on (R253): FK, FRAME and the frequencies they take. -/
def secFreqs (cs : Sections) (i : Nat) (es : List Nat) : List (Nat × Nat × W48) :=
  match cs.canvases[i]? with
  | none => []
  | some r =>
    let played := es.filterMap fun e =>
      let w := secOp cs e
      if opc w = 1 ∧ fld w 35 32 = 0 then some (0, fld w 97 96)
      else if (opc w = 1 ∧ fld w 35 32 = 1) ∨ opc w = 2 then some (1, fld w 97 96)
      else none
    let tuned := es.filterMap fun e =>
      let w := secOp cs e
      if opc w = 9 then some (fld w 34 34, fld w 33 32, (BitVec.ofNat 48 (fld w 95 48) : W48)) else none
    let received := if r.kind = .both ∨ r.kind = .readout then [(1, 0)] else []
    let frames := (received ++ played ++ tuned.map fun t => (t.1, t.2.1)).dedup
    (frames.flatMap fun f =>
      (f.1, f.2, r.freqInit.getD (4 * f.1 + f.2) 0) :: (tuned.filter fun t => t.1 == f.1 && t.2.1 == f.2)).dedup

/-- The carrier of a port from the frequencies on it (R414): the midpoint, or its pin. -/
def carrierOf (pin : Option W48) (l : List W48) : Nat :=
  match pin with
  | some w => w.toNat
  | none =>
    match l.map (·.toNat) with
    | [] => 0
    | a :: t => (t.foldl min a + t.foldl max a) / 2

/-- The pinned carrier of an XY port or readout line. -/
def secPinCarrier (cs : Sections) (xy : Bool) (u : Nat) : Option W48 :=
  cs.pins.findSome? fun p => match p with
    | .carrierXy k w => if xy && k == u then some w else none
    | .carrierRl k w => if !xy && k == u then some w else none
    | _ => none

/-- Whether a frequency lies in 2.0 GHz to 10.0 GHz, ends included (R199, R205). -/
def inBand (f : W48) : Bool := decide (2 ^ 48 ≤ 12 * f.toNat ∧ 12 * f.toNat ≤ 5 * 2 ^ 48)

/-- Whether a frequency lies in the tone band of a zone (R250). -/
def inZone (nzone : Nat) (f : W48) : Bool :=
  if nzone = 2 then decide (63 * 2 ^ 48 ≤ 240 * f.toNat ∧ 240 * f.toNat ≤ 100 * 2 ^ 48)
  else decide (20 * 2 ^ 48 ≤ 240 * f.toNat ∧ 240 * f.toNat ≤ 57 * 2 ^ 48)

/-! ### DSP images (R391, R407) -/

/-- Opcodes of a DSP core (R381). -/
def dspCode (o : Nat) : Bool :=
  decide (o ≤ 0x0B ∨ (0x10 ≤ o ∧ o ≤ 0x21) ∨ (0x28 ≤ o ∧ o ≤ 0x3A) ∧ o ≠ 0x3B)

/-- A branch with delay slots. -/
def dspBranch (o : Nat) : Bool := decide (0x28 ≤ o ∧ o ≤ 0x2B)

/-- The X registers that the parallel fields of a word load. -/
def dspLoads (w : DWord) : List Nat := ([w.fx, w.fy, w.fk].filterMap id).map fun f => f.x.toNat

/-- The pointers that an instruction moves: by the post-modify of its fields, by that of LDG and STG, and by MOVP. -/
def dspMoves (o : Nat) (w : DWord) : List Nat :=
  ((([w.fx, w.fy, w.fk, w.st].filterMap id).filter (·.post)).map (·.pt))
    ++ (if (o = 0x1E ∨ o = 0x1F) ∧ w.imm.toNat.testBit 0 then [w.a.toNat % 8] else [])
    ++ (if o = 0x20 ∧ bits w.imm.toNat 4 0 < 8 then [bits w.imm.toNat 4 0] else [])

/-- Whether LDG reads on the bus that a parallel field of its word reads on. -/
def dspBusTwice (o : Nat) (w : DWord) : Bool :=
  o == 0x1E && ((w.fx.isSome && decide (w.a.toNat % 8 < 4)) || (w.fy.isSome && decide (w.a.toNat % 8 = 4 ∨ w.a.toNat % 8 = 5))
    || (w.fk.isSome && decide (6 ≤ w.a.toNat % 8)))

/-- Whether a list names something twice. -/
def twice (l : List Nat) : Bool := decide (l.dedup.length < l.length)

/-- The reasons of R407 that an instruction word of an image breaks. LDI carries no parallel fields (R371). -/
def dspWordFaults (pm : List W64) (a : Nat) : List Nat :=
  let v := (pm.getD a 0).toNat
  let o := bits v 7 0
  let full := dspWord (pm.getD a 0)
  let w := if o = 0x10 then { full with fx := none, fy := none, fk := none, st := none } else full
  let prev : Nat → Nat := fun k => if k ≤ a then bits (pm.getD (a - k) 0).toNat 7 0 else 0
  let slot := (1 ≤ a && dspBranch (prev 1)) || (2 ≤ a && dspBranch (prev 2))
  let loops := (List.range pm.length).filterMap fun l =>
    let u := (pm.getD l 0).toNat
    if bits u 7 0 = 0x2E ∨ bits u 7 0 = 0x2F then some (l + 1, l + 1 + bits u 19 16) else none
  let t := bits v 61 49
  let writesX := if o = 0x06 ∨ o = 0x1D then [w.d.toNat % 8] else []
  let reserved := o != 0x10 && (v.testBit 33 || v.testBit 40)
  let n := w.imm.toNat
  let nx := if a + 1 < pm.length then bits (pm.getD (a + 1) 0).toNat 7 0 else 0
  let i2 := !dspCode o || reserved || (o == 0x10 && decide (2 ^ 52 ≤ v))
  let i3 := slot && (dspBranch o || (0x2C ≤ o && o ≤ 0x2F) || o == 0x38)
  let i4 := dspBranch o && o != 0x2B
    && (decide (pm.length ≤ t) || loops.any fun l => decide (l.1 ≤ t ∧ t ≤ l.2) && !decide (l.1 ≤ a ∧ a ≤ l.2))
  let i5 := o == 0x2D && (decide (n < 1 ∨ 256 < n) || dspBranch nx || (0x2C ≤ nx && nx ≤ 0x31) || (0x35 ≤ nx && nx ≤ 0x38))
  let i6 := (o == 0x2E || o == 0x2F) && decide (3 ≤ 1 + (loops.filter fun l => decide (l.1 ≤ a ∧ a ≤ l.2)).length)
  let i7 := dspBusTwice o w || twice (dspLoads w ++ writesX) || twice (dspMoves o w)
  let i8 := (o == 0x30 || o == 0x0B) && w.d.toNat == 15
  ([(2, i2), (3, i3), (4, i4), (5, i5), (6, i6), (7, i7), (8, i8)].filter (·.2)).map (·.1)

/-- The failures of an image: (reason of R407, word). -/
def dspImageFaults (r : DspRow) : List (Nat × Nat) :=
  (if 8192 < r.pm.length ∨ 8192 < r.xm.length ∨ 8192 < r.ym.length ∨ 16384 < r.km.length then [(1, 0)] else [])
    ++ (List.range r.pm.length).flatMap fun a => (dspWordFaults r.pm a).map fun x => (x, a)

/-- The qubits whose slots attach to the images of a tile (R391): DISC_MODE 3, and those named for observation. -/
def Dev.attached (d : Dev) (cs : Sections) (tile : Nat) : List Nat :=
  (cs.canvases.filterMap fun r =>
    if (r.kind = .both ∨ r.kind = .readout) ∧ (d.rlOf r.qubit).map (· / 4) = some tile
        ∧ (d.rd (unitKey 0x300046 r.qubit) = 3 ∨ cs.dsp.any fun x => x.observe.contains r.qubit) then some r.qubit
    else none).dedup

/-- How the attached slots of a tile go to its images: an image takes those it names, then the others fill up in order
(R391); as (row of DSP, qubits). -/
def Dev.attachment (d : Dev) (cs : Sections) (tile : Nat) : List (Nat × List Nat) :=
  let rows := (List.range cs.dsp.length).filter fun k => ((cs.dsp[k]?).map (·.tile)) == some tile
  let qs := d.attached cs tile
  (rows.zipIdx).map fun r =>
    let named := fun k => ((cs.dsp[k]?).map (·.observe)).getD []
    let own := qs.filter fun q => (named r.1).contains q
    let free := qs.filter fun q => !(rows.any fun k => (named k).contains q)
    (r.1, own ++ (if r.2 = 0 then free.take (32 - own.length)
      else free.drop (32 - (qs.filter fun q => (named (rows.headD 0)).contains q).length)))

/-! ### The checks (R413 to R426) -/

/-- A canvas as the checks see it: row, qubit, tile, the entries it can reach. -/
structure CView where
  i : Nat
  row : CanvasRow
  tile : Option Nat
  reach : List Nat
  flux : List Nat
  deriving DecidableEq, Repr

/-- The canvases of a job as the checks see them. -/
def Dev.views (d : Dev) (cs : Sections) : List CView :=
  (cs.canvases.zipIdx).map fun r =>
    { i := r.2, row := r.1, tile := d.canvasTile cs r.2, reach := secReach cs [(r.1.entry : Int)], flux := d.canvasFlux cs r.2 }

/-- Whether a canvas holds the binding that TGT names (R104). -/
def CView.holds (v : CView) (tgt : Nat) : Bool :=
  match tgt with
  | 0 => v.row.kind == .both || v.row.kind == .drive
  | 1 => v.row.kind == .both || v.row.kind == .readout
  | k + 2 => decide (k < v.flux.length)

/-- Wiring, spans, threads, groups (R413, R415, R416). -/
def Dev.checkSpans (d : Dev) (cs : Sections) (vs : List CView) : List Failure :=
  let qs := (vs.map (·.row.qubit)).dedup
  let wiring := (qs.filter d.wiringBad).map (failQ 1)
  let span := (qs.filter fun q =>
    let mine := vs.filter fun v => v.row.qubit == q
    let ts := mine.map (·.tile)
    ts.any (·.isNone) || decide (ts.dedup.length < ts.length)).map (failQ 2)
  let threads := (List.range 8).filterMap fun t =>
    let n := (vs.filter fun v => v.tile == some t).length
    if (d.freeThreads t).length < n then some ({ reason := 3, item := n, a := unitCode 10 t } : Failure) else none
  let groups := (vs.filterMap (·.row.group)).dedup
  let badGroup := groups.filterMap fun g =>
    let m := vs.filter fun v => v.row.group == some g
    if 16 < m.length ∨ 1 < ((m.map (·.tile)).dedup).length then
      (m.head?).map fun v => failQ 4 v.row.qubit
    else none
  let placed := (d.chooseThreads cs).map (·.1)
  let lost := if threads = [] ∧ badGroup = [] ∧ span = [] then
      (vs.filter fun v => !placed.contains v.i).map fun v => ({ reason := 3, item := 1, a := unitCode 11 v.row.qubit } : Failure)
    else []
  wiring ++ span ++ threads ++ badGroup ++ lost

/-- Whether two pins give one unit different values, so that they cannot both be honoured (R422). -/
def pinsClash (p q : PinRow) : Bool :=
  match p, q with
  | .thread c e t, .thread c2 e2 t2 => c == c2 && (e != e2 || t != t2)
  | .driveSlot c s, .driveSlot c2 s2 => c == c2 && s != s2
  | .readoutSlot c s, .readoutSlot c2 s2 => c == c2 && s != s2
  | .carrierXy u w, .carrierXy u2 w2 => u == u2 && w != w2
  | .carrierRl u w, .carrierRl u2 w2 => u == u2 && w != w2
  | .flow t h, .flow t2 h2 => t == t2 && h != h2
  | _, _ => false

/-- The qubit of the canvas that a pin names; 0 for a pin that names none. -/
def pinQubit (cs : Sections) (p : PinRow) : Nat :=
  let q : Nat → Nat := fun c => ((cs.canvases[c]?).map (·.qubit)).getD 0
  match p with
  | .thread c _ _ => q c
  | .driveSlot c _ => q c
  | .readoutSlot c _ => q c
  | _ => 0

/-- The flows of a job (R596): its tiles, and flow 8 with a DSP core. -/
def jobFlows (tiles : List Nat) (cs : Sections) : List Nat :=
  ((List.range 8).filter fun t => tiles.contains t || cs.acq.any fun a => a.channel / 16 == t)
    ++ (if cs.dsp = [] then [] else [8])

/-- Pins (R422): a pin of a DSP core needs an image on its tile for each core named, and a flow's a flow of the job. -/
def Dev.checkPins (d : Dev) (cs : Sections) (vs : List CView) : List Failure :=
  let view : Nat → Option CView := fun c => vs.find? (·.i == c)
  let q : Nat → Nat := fun c => ((view c).map (·.row.qubit)).getD 0
  let bad : PinRow → Option Nat := fun p => match p with
    | .thread c e t =>
      match view c with
      | none => some 0
      | some v =>
        if v.tile = some (e / 4) ∧ e < 32 ∧ t < 16
            ∧ (cs.pins.filter fun x => match x with
              | .thread c2 e2 t2 => c2 != c && e2 == e && t2 == t
              | _ => false) = [] then none
        else some v.row.qubit
    | .driveSlot c s =>
      match view c with
      | none => some 0
      | some v => if v.holds 0 ∧ s < 8 ∧ (cs.pins.filter fun x => match x with
            | .driveSlot c2 s2 => c2 != c && s2 == s && d.xyOf (q c2) == d.xyOf v.row.qubit
            | _ => false) = [] then none else some v.row.qubit
    | .readoutSlot c s =>
      match view c with
      | none => some 0
      | some v => if v.holds 1 ∧ s < 16 ∧ (cs.pins.filter fun x => match x with
            | .readoutSlot c2 s2 => c2 != c && s2 == s && d.rlOf (q c2) == d.rlOf v.row.qubit
            | _ => false) = [] then none else some v.row.qubit
    | .dspCore t c =>
      let named := (cs.pins.filterMap fun x => match x with
        | .dspCore t2 c2 => if t2 = t then some c2 else none
        | _ => none).dedup
      if c / 2 = t ∧ c < 16 ∧ named.length ≤ (cs.dsp.filter fun r => r.tile == t).length then none else some 0
    | .carrierXy p _ => if vs.any fun v => v.holds 0 && d.xyOf v.row.qubit == some p then none else some 0
    | .carrierRl n _ => if vs.any fun v => v.holds 1 && d.rlOf v.row.qubit == some n then none else some 0
    | .flow f h =>
      let tiles := vs.filterMap (·.tile)
      if h < 4 ∧ d.rd (unitKey 0x280001 h) = 3 ∧ (jobFlows tiles cs).contains f then none else some 0
  let group := vs.filter fun v => match v.row.group, secPinThread cs v.i with
    | some g, some n => vs.any fun u => u.row.group == some g && (match (secPinThread cs) u.i with
        | some m => m / 16 != n / 16
        | none => false)
    | _, _ => false
  let clash := cs.pins.filterMap fun p => if cs.pins.any (pinsClash p) then some (pinQubit cs p) else none
  (((cs.pins.filterMap bad) ++ clash).dedup.map (failQ 5)) ++ group.map fun v => failQ 5 v.row.qubit

/-- Units held by another resident job, or retired (R420). -/
def Dev.checkUnits (d : Dev) (h : JobHead) (cs : Sections) (vs : List CView) : List Failure :=
  let rs := d.resident
  let per := vs.filter fun v =>
    let q := v.row.qubit
    let xy := (d.xyOf q).toList
    let rl := (d.rlOf q).toList
    (xy.any fun p => rs.any (·.held.xy.contains p) || d.isRetired (.xyPort p))
      || (rl.any fun n => rs.any (·.held.rl.contains n) || d.isRetired (.rlTx n) || d.isRetired (.rlLine n))
      || (v.flux.any fun c => rs.any (·.held.flux.contains c) || d.isRetired (.flux c))
      || (match (secPinThread cs) v.i with
        | some n => d.heldThreads.contains n || d.isRetired (.easel (n / 16))
        | none => false)
  let acq := cs.acq.filter fun a => rs.any (·.held.acq.contains a.channel)
    || (let st := d.acqState a.channel; st == 1 || st == 2 || st == 3)
  let cores := cs.dsp.filter fun r => ((List.range 2).filter fun k =>
    !(rs.any (·.held.cores.contains (2 * r.tile + k))) && !d.isRetired (.dsp (2 * r.tile + k))).length
      < min 2 (cs.dsp.filter fun x => x.tile == r.tile).length
  let pins := cs.pins.filterMap fun p => match p with
    | .dspCore t c => if c / 2 = t ∧ (rs.any (·.held.cores.contains c) ∨ d.isRetired (.dsp c)) then some c else none
    | _ => none
  (per.map fun v => failQ 6 v.row.qubit)
    ++ (acq.map fun a => ({ reason := 6, item := 0, a := unitCode 13 a.channel } : Failure))
    ++ (cores.map fun r => ({ reason := 6, item := 0, a := unitCode 2 (2 * r.tile) } : Failure))
    ++ (pins.dedup.map fun c => ({ reason := 6, item := 0, a := unitCode 2 c } : Failure))
    ++ (if h.startMode = 2 ∧ rs.any (·.held.trig == some h.trigInput) then
        [{ reason := 6, item := h.trigInput, a := unitCode 16 h.trigInput }] else [])

/-- Program entries and their reach (R104, R152). -/
def Dev.checkProgram (d : Dev) (cs : Sections) (vs : List CView) : List Failure :=
  let entries := (vs.flatMap (·.reach)).dedup
  let item : Nat → Nat → Failure := fun k e => { reason := 9, sub := k, item := e }
  let per := entries.flatMap fun e =>
    let w := secOp cs e
    let o := opc w
    let runs := vs.filter fun v => v.reach.contains e
    let tgt := fld w 35 32
    let groups := (runs.map (·.row.group)).dedup
    let i1 := (opMask o).isNone
    let i2 := decide (0xC0 ≤ o) && d.rd (0x444101 + (o - 0xC0)) == 0
    let i3 := decide (2 ≤ fld w 9 8)
    let i4 := match opMask o with
      | some m => w.toNat / 2 ^ 32 != Nat.land (w.toNat / 2 ^ 32) (m / 2 ^ 32)
      | none => false
    let i7 := (o == 2 && fld w 95 80 == 0) || ((o == 1 || o == 0x2C) && decide (5 < tgt))
      || (o == 4 && decide (tgt < 2 ∨ 5 < tgt))
    let i5 := !i7 && (((o == 1 || o == 0x2C || o == 4) && runs.any fun v => !v.holds tgt)
      || (o == 2 && runs.any fun v => !v.holds 1))
    let i6 := o == 0x12 && (groups.contains none || decide (1 < groups.length))
    (if i1 then [item 1 e] else []) ++ (if i2 then [item 2 e] else []) ++ (if i3 then [item 3 e] else [])
      ++ (if i4 then [item 4 e] else []) ++ (if i5 then [item 5 e] else []) ++ (if i6 then [item 6 e] else [])
      ++ (if i7 then [item 7 e] else [])
  let scope := entries.filter fun e => (successors (secOp cs e) e).any fun t => decide (t < 0 ∨ (cs.program.length : Int) ≤ t)
  let badEntry := vs.filter fun v => decide (cs.program.length ≤ v.row.entry)
  per ++ (scope.map fun e => ({ reason := 0x0A, item := e } : Failure))
    ++ (badEntry.map fun v => ({ reason := 0x0A, item := v.row.entry } : Failure))

/-- Descriptors whose chain ends or leaves the segments, one step further than those known to (R154). -/
def chainsEnd (cs : Sections) (ends : List Bool) : List Bool :=
  (cs.segments.zip ends).map fun x =>
    x.2 || fld x.1 102 102 == 1 || (ends.getD (fld x.1 101 80) true)

/-- Descriptors whose chain returns to a descriptor already in it (R154). -/
def loopingChains (cs : Sections) : Nat → List Bool → List Nat
  | 0, ends => (List.range cs.segments.length).filter fun a => !ends.getD a true
  | fuel + 1, ends =>
    let next := chainsEnd cs ends
    if next = ends then loopingChains cs 0 ends else loopingChains cs fuel next

/-- Micro-addresses that a word goes on to (R123): a RET comes to the word after a CALL, which is one of them. -/
def microNexts (a : Nat) (w : W192) : List Nat :=
  let nx := mf w 15 2
  let on := mpcNext a
  match mf w 19 16 with
  | 0x0 => [on]
  | 0x1 => [nx]
  | 0x2 => [on, nx]
  | 0x3 => [on, nx]
  | 0x5 => [on, nx]
  | 0x7 => [on]
  | 0x8 => [nx]
  | _ => []

/-- Words of the customer store that a routine can reach from some addresses (fuel: three steps for each word). -/
def Dev.microReach (d : Dev) : Nat → List Nat → List Nat → List Nat
  | 0, _, seen => seen
  | _, [], seen => seen
  | fuel + 1, a :: todo, seen =>
    if a < 0x3000 ∨ seen.contains a then d.microReach fuel todo seen
    else d.microReach fuel (microNexts a (d.storeWord a) ++ todo) (a :: seen)

/-- The generator slots that the GSTEPs of a customer opcode's routine name by an immediate (R128, R179). A slot that a
register gives is known only when the routine runs (log entry 117). -/
def Dev.routineSlots (d : Dev) (o : Nat) : List Nat :=
  if o < 0xC0 then []
  else
    ((d.microReach 16384 [d.rd (0x444101 + (o - 0xC0))] []).filterMap fun a =>
      let w := d.storeWord a
      if mf w 85 82 = 2 ∧ mf w 90 86 = 0x1F then some (mf w 81 50 % 32) else none).dedup

/-- The definitions whose addresses a customer opcode's routine can read (R128, R179): those of the slots that its GSTEPs name by
an immediate, every one bound to the canvas when a register gives the slot. -/
def Dev.routineGens (d : Dev) (o : Nat) (binds : List GenBind) : List Nat :=
  if o < 0xC0 then []
  else
    let ws := ((d.microReach 16384 [d.rd (0x444101 + (o - 0xC0))] []).map d.storeWord).filter fun w => mf w 85 82 == 2
    (binds.filter fun b => ws.any fun w => mf w 90 86 != 0x1F || mf w 81 50 % 32 == b.gsel).map (·.defn)

/-- The descriptors in the span of a definition. -/
def spanStarts (cs : Sections) (b : Nat) : List Nat :=
  match cs.genDefs[b]? with
  | none => []
  | some df =>
    let s := genSpan df
    (List.range cs.segments.length).filter fun a => decide ((df.base : Int) + s.1 ≤ a ∧ (a : Int) ≤ df.base + s.2)

/-- Segments, generators, kernels (R152, R154, R179, R267). -/
def Dev.checkSegments (d : Dev) (cs : Sections) (vs : List CView) (freeDefs : Nat) : List Failure :=
  let n := cs.segments.length
  let desc := ((List.range n).filter fun a => !segOk (secSeg cs a)).map fun a => ({ reason := 0x0B, item := a } : Failure)
  let uses := vs.flatMap fun v => v.reach.map fun e => (v, e)
  let direct := (List.range cs.program.length).filter fun e =>
    let w := secOp cs e
    (opc w == 1 || opc w == 2 || opc w == 0x2C) && (opc w == 0x2C || (genSlot w).isNone) && decide (n ≤ fld w 63 42)
  let spans := (cs.genBinds.map (·.defn)).dedup.filter fun b =>
    match cs.genDefs[b]? with
    | none => true
    | some df =>
      let s := genSpan df
      genOk df && decide ((df.base : Int) + s.1 < 0 ∨ (n : Int) ≤ df.base + s.2)
  let firsts := (uses.flatMap fun u => (secStarts cs u.1.i (secOp cs u.2)).map fun a =>
    (a, decide (2 ≤ fld (secOp cs u.2) 35 32 ∧ fld (secOp cs u.2) 35 32 ≤ 5) && opc (secOp cs u.2) != 2)).dedup
  let routines := (uses.flatMap fun u => ((d.routineGens (opc (secOp cs u.2)) (cs.genBinds.filter fun b => b.canvas == u.1.i)).flatMap
    (spanStarts cs)).map fun a => (a, false)).dedup
  let chains := (firsts ++ routines).dedup.filter fun f => decide (f.1 < n)
  let leave := chains.filterMap fun f =>
    let r := secChainOf cs (n + 1) f.1 []
    if r.2.1 then r.1.head? else none
  let loops := (loopingChains cs n (List.replicate n false)).filterMap fun a => (secChainOf cs (n + 1) a []).1.head?
  let iq := (chains.filter (·.2)).flatMap fun f => (secChainOf cs (n + 1) f.1 []).1.filter fun a => fld (secSeg cs a) 55 54 == 0
  let gens := ((List.range cs.genDefs.length).filter fun b => match cs.genDefs[b]? with
    | some g => !(genOk g && genModeOk g)
    | none => false).map fun b => ({ reason := 0x0C, sub := 0, item := b } : Failure)
  let unbound := uses.filterMap fun u => (genSlot (secOp cs u.2)).bind fun g =>
    if (secBinding cs u.1.i g).isNone then some ({ reason := 0x0C, sub := 1, item := u.2, value := g } : Failure) else none
  let stepped := uses.flatMap fun u => ((d.routineSlots (opc (secOp cs u.2))).filter fun g =>
    (secBinding cs u.1.i g).isNone).map fun g => ({ reason := 0x0C, sub := 1, item := u.2, value := g } : Failure)
  let many := if freeDefs < cs.genDefs.length then
      [({ reason := 0x0C, sub := 2, item := cs.genDefs.length, value := cs.genDefs.length } : Failure)] else []
  let kern := uses.filterMap fun u =>
    let w := secOp cs u.2
    if opc w = 2 then
      match cs.kernels.find? fun k => k.qubit == u.1.row.qubit && k.ksel == fld w 101 98 with
      | none => some (failQ 0x13 u.1.row.qubit (fld w 101 98))
      | some k => if cs.samples.length < k.addr + k.klen ∨ k.klen = 0 then some (failQ 0x13 u.1.row.qubit k.ksel) else none
    else none
  desc ++ (direct.map fun e => ({ reason := 0x0A, item := e } : Failure))
    ++ (spans.map fun b => ({ reason := 0x0A, item := b } : Failure))
    ++ (leave.dedup.map fun a => ({ reason := 0x0A, item := a } : Failure))
    ++ ((loops ++ iq).dedup.map fun a => ({ reason := 0x0B, item := a } : Failure))
    ++ gens ++ (unbound ++ stepped).dedup ++ many ++ kern.dedup

/-- A failure of a frame of a qubit (R426): SUB the frame, ITEM the qubit. DESIGN CHOICE (log entry 116): UNIT_B names the
frame's port, which tells a drive frame from a readout frame; the entry of R440 has no place for the frequency. -/
def failTone (reason fk : Nat) (p : Option Nat) (q frame : Nat) : Failure :=
  { failQ reason q frame with b := (p.map (unitCode (if fk = 0 then 14 else 15))).getD noUnit }

/-- Frequencies (R199, R200, R250). -/
def Dev.checkTones (d : Dev) (cs : Sections) (vs : List CView) : List Failure :=
  let all := vs.flatMap fun v => (secFreqs cs v.i v.reach).map fun f => (v, f)
  let port : CView → Nat → Option Nat := fun v fk => if fk = 0 then d.xyOf v.row.qubit else d.rlOf v.row.qubit
  all.flatMap fun x =>
    let fk := x.2.1
    let f := x.2.2.2
    let p := port x.1 fk
    if !x.1.holds fk then []
    else
      let mine := all.filter fun y => y.2.1 == fk && port y.1 fk == p && y.1.holds fk
      let car := carrierOf (p.bind fun u => secPinCarrier cs (fk == 0) u) (mine.map fun y => y.2.2.2)
      let far := offsetOut f (BitVec.ofNat 48 car) || !inBand f
      let close := fk == 1 && mine.any fun y => y.1.i != x.1.i
        && decide ((((f.toNat : Int) - y.2.2.2.toNat).natAbs) * 4800 < 2 ^ 48)
      let zone := fk == 1 && (match p with
        | some n => !inZone (d.rd (unitKey 0x384021 n)) f
        | none => false)
      let failed := fun reason => [failTone reason fk p x.1.row.qubit x.2.2.1]
      (if far then failed 0x10 else []) ++ (if close then failed 0x11 else []) ++ (if zone then failed 0x12 else [])

/-- The value that an ACQUISITION row gives a setting, else the channel's own. -/
def Dev.acqSetting (d : Dev) (a : AcqRow) (sub : Nat) : Nat :=
  match a.settings.find? fun s => s.1 == sub with
  | some s => s.2
  | none => d.rd (unitKey 0x510000 a.channel + sub)

/-- Rate of an ACQUISITION row in MB/s × 2¹⁶. -/
def Dev.rowRate (d : Dev) (a : AcqRow) : Nat :=
  unitBytes (d.acqSetting a 2) (d.acqSetting a 4) * unitRate (d.acqSetting a 2) * 2 ^ (16 - d.acqSetting a 4)

/-- Bytes of a record of an ACQUISITION row that its buffer cannot hold. -/
def Dev.rowExcess (d : Dev) (a : AcqRow) : Nat :=
  (d.acqSetting a 5 + d.acqSetting a 6) * unitBytes (d.acqSetting a 2) (d.acqSetting a 4) - d.acqSetting a 9

/-- Bytes of a record of an ACQUISITION row. -/
def Dev.rowBytes (d : Dev) (a : AcqRow) : Nat :=
  (d.acqSetting a 5 + d.acqSetting a 6) * unitBytes (d.acqSetting a 2) (d.acqSetting a 4)

/-- BUF_BYTES of a channel once a job's settings stand. -/
def Dev.rowBuffer (d : Dev) (cs : Sections) (c : Nat) : Nat :=
  match cs.acq.find? fun x => x.channel == c with
  | some x => d.acqSetting x 9
  | none => d.rd (unitKey 0x510009 c)

/-- Whether the settings of an ACQUISITION row keep the rules of R326, R330 and R365: the source lies on the channel's tile, CAPTURE
has at least one unit after the trigger, and the buffers of the tile have whole pages and fit. -/
def Dev.rowAgrees (d : Dev) (cs : Sections) (a : AcqRow) : Bool :=
  let tile := a.channel / 16
  let src := d.acqSetting a 3
  (src == 0xFFFF || (if d.acqSetting a 2 = 0 then src / 4 == tile else src / 64 == tile))
    && (d.acqSetting a 1 != 2 || d.acqSetting a 6 != 0) && d.acqSetting a 9 % 4096 == 0
    && decide ((((List.range 16).map (16 * tile + ·)).map (d.rowBuffer cs)).sum ≤ 7340032)

/-- Acquisition channels (R326, R330, R338, R345, R346, R365). -/
def Dev.checkAcq (d : Dev) (cs : Sections) : List Failure :=
  let spill := cs.acq.filter fun a => d.acqSetting a 1 == 2 && decide (d.acqSetting a 9 < d.rowBytes a)
  let total := d.rateSum d.spilling + (spill.map d.rowRate).sum
  ((spill.filter fun a => d.acqSetting a 8 == 0 || decide (12000 * 2 ^ 16 < d.rowRate a) || decide (20000 * 2 ^ 16 < total)
    || decide (d.ddrFree < (spill.map d.rowExcess).sum + (cs.streams.map (·.len)).sum)).map fun a =>
      ({ reason := 0x16, item := a.channel, a := unitCode 13 a.channel } : Failure)) ++
    (cs.acq.filter fun a => !d.rowAgrees cs a).map fun a =>
      ({ reason := 0x16, item := a.channel, a := unitCode 13 a.channel } : Failure)

/-- DSP attachments and images (R391, R407). -/
def Dev.checkDsp (d : Dev) (cs : Sections) : List Failure :=
  let attach := (List.range 8).filterMap fun t =>
    let qs := d.attached cs t
    let rows := cs.dsp.filter fun r => r.tile == t
    let over_ := ((d.attachment cs t).any fun r => decide (32 < r.2.length))
      || qs.any fun q => !((d.attachment cs t).any fun r => r.2.contains q)
    if (qs != [] && rows.isEmpty) || decide (2 < rows.length) || over_ || decide (64 < qs.length) then
      some ({ reason := 0x17, item := qs.length, a := unitCode 10 t } : Failure) else none
  let fed := (cs.dsp.filter fun r => decide (2 < r.fed.length)).map fun r =>
    ({ reason := 0x17, item := r.fed.length, a := unitCode 10 r.tile } : Failure)
  attach ++ fed ++ cs.dsp.flatMap fun r => (dspImageFaults r).map fun x =>
    ({ reason := 0x18, sub := x.1, item := x.2, a := unitCode 10 r.tile } : Failure)

/-- Genzel hops to a chip over a link that is up: one to the neighbour there, and the neighbour's own, which the chip learns in a way
that is not stated (R414; log entry 10). -/
def Dev.hopsOver (d : Dev) (ups : List Nat) (c k : Nat) : Option Nat :=
  let nb := d.rd (unitKey 0x240003 k) % 64
  if nb = c then some 1 else (Config.hopsFrom ups nb c).map (· + 2)

/-- The route to a chip (R414): over the link that is up with the fewest hops, the lowest of several. -/
def Dev.routeFor (d : Dev) (c : Nat) : Nat :=
  let ups := (List.range 12).filter d.linkUp
  if c = d.chip then 0xFE
  else
    ((ups.foldl (fun (best : Option (Nat × Nat)) k =>
      match d.hopsOver ups c k, best with
      | none, _ => best
      | some h, none => some (h, k)
      | some h, some b => if h < b.1 then some (h, k) else best) none).map (·.2)).getD 0xFF

/-- ROUTE0 to ROUTE63 are written (R414, R434). -/
def Dev.setRoutes (d : Dev) : Dev := (List.range 64).foldl (fun e c => e.wr (0x24F001 + c) (d.routeFor c)) d

/-- Decision sources and routes (R414, R434, R712). -/
def Dev.checkDecisions (d : Dev) (h : JobHead) (cs : Sections) : List Failure :=
  let reads : Nat → Bool := fun q => cs.canvases.any fun c => c.qubit == q && (c.kind == .both || c.kind == .readout)
  let src := ((cs.decisions.filter fun x => x.chip == d.chip && !reads x.source).map (·.source)).dedup
  let chips := ((if h.multiChip then onesOf 64 h.chips else []) ++ cs.decisions.map (·.chip)).dedup.filter fun c =>
    c != d.chip && d.routeFor c == 0xFF
  (src.map (failQ 0x1A)) ++ chips.map fun c => ({ reason := 0x19, item := c } : Failure)

end Sys2Proof.Machine
end

