-- ==== Sys2Proof/Machine/Timeline.lean ====
section
/-! DEFINITION. The placement engine's analysis of a job's timing (R30, R186, R295, R318, R713): each canvas is followed from
SHOT_START, in ticks after it, and what its strokes fetch, consume and produce is summed; with the checks that rest on it.
DEDUCED (log entry 12): the rules speak of what can happen in a tick of the job and not of how it is found. The outcomes of
different threads are taken as independent. From a point whose tick depends on data (a wait-mode BRANCH, WAITEV, a customer
routine, a value that changes with the shot) a canvas may play in any tick whatever it can reach from there. -/

namespace Sys2Proof.Machine

/-! ### What is laid out -/

/-- The plays of a segment: the first tick and the one after the last, the ticks of a play, the segment, what they read from the
sample store, in units of ½ MB/s, and the stream that they take from with the MB/s that they take. -/
structure Span where
  first : Nat
  stop : Nat
  step : Nat
  seg : Nat
  rate : Nat
  stream : Option Nat
  take : Nat
  deriving DecidableEq, Repr

/-- A stroke on a target: its launch tick, and what its window fetches beside it, in units of ½ MB/s (R270). -/
structure Laid where
  tgt : Nat
  start : Nat
  kernel : Nat
  spans : List Span
  deriving DecidableEq, Repr

/-- How far a canvas has been followed: on its way, at a BARRIER, ended, at a point whose tick depends on data, or at a
sketch-mode BRANCH with its branch tick and the entries of its paths. -/
inductive DryStop where
  | going | parked | ended | open_
  | branch (tb : Nat) (targets : List Nat)
  deriving DecidableEq, Repr

/-- A canvas as it is followed. `v` holds V0 to V15 where they do not depend on the shot; `laid` the strokes, the last
first; `reads` the READs as (tick of the decision, DTAG); `stop` the last tick in which something of it lasts. -/
structure Dry where
  pc : Nat
  cursor : Nat := 0
  v : List (Option Nat) := []
  gens : Tab (Nat × Nat) := []
  laid : List Laid := []
  reads : List (Option Nat × Nat) := []
  stop : Nat := 0
  st : DryStop := .going
  deriving DecidableEq, Repr

/-- MB/s of a segment's samples ("Bandwidth budget", R186): 4 bytes of a complex sample or 2 of a real one at 1.5 GS/s, divided by
its RATE. -/
def segRateMB (w : W128) : Nat := (if fld w 55 54 = 0 then 6000 else 3000) / 2 ^ fld w 53 52

/-- The fetch rate of a segment in units of ½ MB/s; none from a stream. -/
def segFetch (w : W128) : Nat := if fld w 22 22 = 1 then 0 else 2 * segRateMB w

/-- MB/s that a segment takes from its stream (R186). -/
def segTake (w : W128) : Nat := if fld w 22 22 = 1 then segRateMB w else 0

/-- The rate at which a READ's window fetches its kernel (R270), in units of ½ MB/s. -/
def kernelFetch (cs : Sections) (q ksel : Nat) : Nat :=
  match cs.kernels.find? fun k => k.qubit == q && k.ksel == ksel with
  | some k => 3000 / 2 ^ k.krate
  | none => 0

/-- The stream of a segment. -/
def segStream (w : W128) : Option Nat := if fld w 22 22 = 1 then some (fld w 28 23) else none

/-- The chain of a job at an address from a tick, as in `chainFrom`. -/
def secChain (cs : Sections) (addr start : Nat) : List (Nat × Nat × Nat × Nat) × Nat :=
  chainFrom (fun a => decide (a < cs.segments.length)) (cs.segments.zipIdx.map fun p => (p.2, p.1)) (cs.segments.length + 1) addr start

/-- The spans of the plays of a chain. -/
def spansOf (cs : Sections) (kernel : Nat) (plays : List (Nat × Nat × Nat × Nat)) : List Span :=
  plays.map fun p =>
    let w := secSeg cs p.2.1
    { first := p.1, stop := p.1 + p.2.2.1 * p.2.2.2, step := p.2.2.2, seg := p.2.1, rate := segFetch w + kernel
      stream := segStream w, take := segTake w }

/-- Spans that end at a tick. -/
def cutSpans (t : Nat) (l : List Span) : List Span :=
  (l.filter fun s => decide (s.first < t)).map fun s => { s with stop := min s.stop t }

/-- The least of some ticks. -/
def natMin (l : List Nat) : Option Nat := l.foldl (fun m x => some (match m with
  | some y => min x y
  | none => x)) none

/-- A stroke begins on a target at its launch tick (R117, R166, R167): it cuts the strokes that began before it or, earlier in
program order, with it, and one that begins later cuts it. -/
def Dry.lay (cs : Sections) (s : Dry) (tgt start kernel : Nat) (plays : List (Nat × Nat × Nat × Nat)) (stop : Nat) : Dry :=
  let spans := spansOf cs kernel plays
  let later := (s.laid.filter fun l => l.tgt == tgt && decide (start < l.start)).map (·.start)
  let mine := match natMin later with
    | some t => cutSpans t spans
    | none => spans
  { s with
    laid := { tgt := tgt, start := start, kernel := kernel, spans := mine } :: s.laid.map fun l =>
      if l.tgt = tgt ∧ l.start ≤ start then { l with spans := cutSpans start l.spans } else l
    stop := max s.stop stop }

/-! ### Following a canvas -/

/-- The offset of an operation's header: DT, or a value register (R101). -/
def Dry.offset (s : Dry) (w : W128) : Option Nat :=
  if fld w 11 11 = 1 then s.v.getD (fld w 15 12) none else some (fld w 31 16)

/-- The launch tick of an operation (R102). -/
def Dry.launch (s : Dry) (w : W128) : Option Nat :=
  (s.offset w).map fun o => (if fld w 9 8 = 1 then 0 else s.cursor) + o

/-- The next entry. -/
def Dry.fall (s : Dry) : Dry := { s with pc := s.pc + 1 }

/-- CURSOR moves on (R95). -/
def Dry.advance (s : Dry) (t : Nat) : Dry := { s with cursor := max s.cursor t, stop := max s.stop t }

/-- Whether a definition's positions are the same in every shot (R180). -/
def genFixed (g : GenDef) : Bool := g.mode == 0 || (g.mode == 2 && g.kind != 4)

/-- The first descriptor of a stroke, and the canvas with its generator's step (R103). A generator that goes on from shot to
shot gives one when all the chains that it can start are alike. -/
def Dry.start (cs : Sections) (i : Nat) (s : Dry) (w : W128) : Option (Nat × Dry) :=
  match genSlot w with
  | none => some (fld w 63 42, s)
  | some g =>
    match (secBinding cs i g).bind fun b => cs.genDefs[b]? with
    | none => none
    | some df =>
      if genFixed df then
        let p := tabGet (0, if df.kind = 4 then df.p3 else 0) s.gens g
        let gens := tabInsert g ((p.1 + 1) % 2 ^ 32, genNext df p.2) s.gens
        some (genAddr df p.1 p.2, { s with gens := gens })
      else
        let all := (secStarts cs i w).map fun a => (a, spansOf cs 0 (secChain cs a 0).1)
        match all with
        | [] => none
        | a :: l => if l.all fun b => b.2 == a.2 then some (a.1, s) else none

/-- The parts of a window that the analysis uses: the tick of its first sample at the integrator less 43 and FIR_TAPS, FIR_TAPS
and DISC_MODE, for a qubit and a launch tick (R242, R261, R282). -/
def Dev.windowAt (d : Dev) (q launch : Nat) : Nat × Nat × Nat :=
  let align := match d.rlOf q with
    | some n => d.rd (unitKey 0x384023 n)
    | none => 0
  ((32 * (launch + d.rd (unitKey 0x300044 q)) + align) / 32, d.rd (unitKey 0x300042 q), d.rd (unitKey 0x300046 q))

/-- The entries that a BRANCH can go on with. -/
def branchTargets (pc : Nat) (w : W128) : List Nat :=
  ([64, 80, 96, 112].map fun lo => toU 22 ((pc : Int) + sext 16 (fld w (lo + 15) lo))).dedup

/-- The first boundary of a stroke at or after a tick (R168): where a play other than the first one begins, or the stroke's end. -/
def boundaryFrom (t : Nat) : List Span → Option Nat
  | [] => none
  | s :: l =>
    let b := s.first + max 1 (ceilDiv (t - s.first) (max 1 s.step)) * s.step
    if t ≤ s.stop ∧ b ≤ s.stop then some b else boundaryFrom t l

/-- A jump of the stroke that plays on a target at the latch (R168 to R172): at the first boundary 12 ticks after it or later,
the new chain replaces the rest. -/
def Dry.jump (cs : Sections) (s : Dry) (tgt latch addr : Nat) : Dry :=
  match s.laid.find? fun l => l.tgt == tgt && decide (l.start ≤ latch) && l.spans.any fun x => decide (latch < x.stop) with
  | none => s
  | some l =>
    match boundaryFrom (latch + 12) l.spans with
    | none => s
    | some b =>
      let ch := secChain cs addr b
      let later := (s.laid.filter fun x => x.tgt == tgt && decide (l.start < x.start)).map (·.start)
      let more := spansOf cs l.kernel ch.1
      let kept := match natMin later with
        | some t => cutSpans t more
        | none => more
      { s with
        laid := s.laid.map fun x => if x = l then { x with spans := cutSpans b x.spans ++ kept } else x
        stop := max s.stop ch.2 }

/-- One operation of a canvas (R105). -/
def Dev.dryOp (d : Dev) (cs : Sections) (i q : Nat) (s : Dry) : Dry :=
  let w := secOp cs s.pc
  let stuck : Dry := { s with st := .open_ }
  if cs.program.length ≤ s.pc then stuck
  else
    match opc w, s.launch w with
    | 0x3F, _ => { s with st := .ended }
    | 0x29, _ => { s with pc := fld w 53 32 }
    | 0x2A, _ =>
      match s.v.getD (fld w 35 32) none with
      | none => stuck
      | some n =>
        let n1 := (n + (2 ^ 32 - 1)) % 2 ^ 32
        let s1 := { s with v := s.v.set (fld w 35 32) (some n1) }
        if n1 = 0 then s1.fall else { s1 with pc := toU 22 ((s.pc : Int) + sext 16 (fld w 79 64)) }
    | 0x30, _ => { s with v := s.v.set (fld w 35 32) (some (fld w 95 64)) }.fall
    | 0x31, _ =>
      { s with v := s.v.set (fld w 35 32) ((s.v.getD (fld w 35 32) none).map fun n => (n + fld w 95 64) % 2 ^ 32) }.fall
    | 0x38, _ => { s with gens := tabErase (fld w 36 32) s.gens }.fall
    | 0x11, _ => (s.advance (fld w 79 32)).fall
    | 0x12, _ => { s with st := .parked }
    | 0x13, _ => stuck
    | 0x28, t =>
      if fld w 36 36 = 0 then stuck
      else match t with
        | none => stuck
        | some t => { s with st := .branch (max t s.cursor) (branchTargets s.pc w) }
    | _, none => stuck
    | 0x01, some t =>
      match s.start cs i w with
      | none => stuck
      | some (a, s1) =>
        let ch := secChain cs a t
        let s2 := s1.lay cs (fld w 35 32) t 0 ch.1 ch.2
        (if fld w 10 10 = 1 then s2.advance ch.2 else s2).fall
    | 0x02, some t =>
      match s.start cs i w with
      | none => stuck
      | some (a, s1) =>
        let ch := secChain cs a t
        let win := d.windowAt q t
        let from_ := win.1 + 43 + win.2.1
        let len := fld w 95 80
        let s2 := s1.lay cs 1 t (kernelFetch cs q (fld w 101 98)) ch.1 ch.2
        let s3 : Dry := { s2 with
          reads := (if win.2.2 = 3 then none else some (from_ + len + 6), fld w 109 102) :: s2.reads
          stop := max s2.stop (from_ + len + 3) }
        (if fld w 10 10 = 1 then s3.advance (t + len) else s3).fall
    | 0x10, some t => (s.advance t).fall
    | 0x2C, some t => (s.jump cs (fld w 35 32) t (fld w 63 42)).fall
    | o, some t => if 0xC0 ≤ o then stuck else { s with stop := max s.stop t }.fall

/-- A canvas followed until it stops; one that takes too many operations counts as open from there. -/
def Dev.leg (d : Dev) (cs : Sections) (i q : Nat) : Nat → Dry → Dry
  | 0, s => if s.st = .going then { s with st := .open_ } else s
  | fuel + 1, s => if s.st = .going then d.leg cs i q fuel (d.dryOp cs i q s) else s

/-- Operations that the analysis follows in one canvas without a branch. -/
def legFuel : Nat := 16384

/-- A canvas as it begins a shot (R96). -/
def dryStart (r : CanvasRow) : Dry :=
  { pc := r.entry, v := ((List.range 15).map fun k => some ((r.vinit.getD k 0).toNat)) ++ [none] }

/-- Whether a canvas waits at a BARRIER. -/
def Dry.isParked (s : Dry) : Bool := s.st == .parked

/-- The barriers of a job (R105, R416): a group whose canvases all wait at one goes on from the largest CURSOR. -/
def Dev.passBarriers (d : Dev) (cs : Sections) : Nat → List Dry → List Dry
  | 0, l => l
  | fuel + 1, l =>
    let group : Nat → Option Nat := fun i => (cs.canvases[i]?).bind (·.group)
    let ready : Nat → Bool := fun g => ((l.zipIdx).filter fun x => group x.2 == some g).all fun x => x.1.isParked
    let gs := ((List.range cs.canvases.length).filterMap group).dedup.filter ready
    if gs = [] then l
    else d.passBarriers cs fuel <| (l.zipIdx).map fun x =>
      match group x.2 with
      | none => x.1
      | some g =>
        if gs.contains g then
          let top := ((l.zipIdx.filter fun y => group y.2 == some g).map fun y => y.1.cursor).foldl max 0
          d.leg cs x.2 (((cs.canvases[x.2]?).map (·.qubit)).getD 0) legFuel { (x.1.advance top).fall with st := .going }
        else x.1

/-! ### Alternatives -/

/-- One way in which a canvas can go: what it lays out, its READs, its end, where it becomes open, with the entries that it can go
on from there, and the stretches in which other paths that have become open are rendered beside it, as (first tick, the tick
after the last, entries). -/
structure Course where
  laid : List Laid
  reads : List (Option Nat × Nat)
  stop : Nat
  from_ : Option (Nat × List Nat)
  beside : List (Nat × Nat × List Nat) := []
  deriving DecidableEq, Repr

/-- A run without a further branch. A canvas that has ended, or that waits at a BARRIER for one that has, does no more; one at a
branch that is not followed goes on from the branch. -/
def Dry.run (s : Dry) (waits : Bool) : Course :=
  { laid := s.laid, reads := s.reads, stop := s.stop
    from_ := match s.st with
      | .ended => none
      | .parked => if waits then none else some (s.cursor, [s.pc])
      | _ => some (s.cursor, [s.pc]) }

/-- The strokes of a run after those of the branch that it comes from. -/
def Course.since (r : Course) (n : Nat) : List Laid := r.laid.take (r.laid.length - n)

/-- Where a run is open before a tick. -/
def Course.openBy (r : Course) (t : Nat) : List (Nat × Nat × List Nat) :=
  (match r.from_ with
    | some o => if o.1 < t then [(o.1, t, o.2)] else []
    | none => [])
  ++ (r.beside.filter fun b => decide (b.1 < t)).map fun b => (b.1, min b.2.1 t, b.2.2)

/-- The runs of a canvas by the paths of its sketch-mode branches (R30, R309, R317, R319): beside a path's own strokes, those of
the other paths count up to the horizon of 64 ticks, a stroke rendered in k sketches k times, and so do the paths that have become
open by then. `depth` bounds the branches that are followed. -/
def Dev.runs (d : Dev) (cs : Sections) (i q : Nat) : Nat → Bool → Dry → List Course
  | 0, waits, s => [s.run waits]
  | depth + 1, waits, s =>
    match s.st with
    | .branch tb ts =>
      let subs := ts.map fun t => d.runs cs i q depth false (d.leg cs i q legFuel { s.advance tb with pc := t, st := .going })
      let n := s.laid.length
      (subs.zipIdx).flatMap fun p =>
        let others := (subs.zipIdx).filter fun o => o.2 != p.2
        let laid := others.flatMap fun o => (o.1.flatMap fun r => r.since n).dedup
        let open_ := others.flatMap fun o => (o.1.flatMap fun r => r.openBy (tb + 64)).dedup
        p.1.map fun r => { r with
          laid := r.laid ++ laid.map fun l => { l with spans := cutSpans (tb + 64) l.spans }
          beside := r.beside ++ open_ }
    | _ => [s.run waits]

/-- Sketch-mode branches that are followed one after another in one canvas. -/
def branchDepth : Nat := 8

/-- The canvases of a job followed to their first branch, barriers passed. -/
def Dev.drys (d : Dev) (cs : Sections) : List Dry :=
  d.passBarriers cs legFuel ((cs.canvases.zipIdx).map fun r => d.leg cs r.2 r.1.qubit legFuel (dryStart r.1))

/-- Whether a canvas waits at a BARRIER that a canvas of its group, having ended, never reaches. -/
def stuckAtBarrier (cs : Sections) (ds : List Dry) (i : Nat) : Bool :=
  let group : Nat → Option Nat := fun k => (cs.canvases[k]?).bind (·.group)
  (ds.zipIdx).any fun x => group x.2 == group i && x.1.st == .ended

/-- The runs of each canvas of a job. -/
def Dev.jobRuns (d : Dev) (cs : Sections) : List (List Course) :=
  let ds := d.drys cs
  (ds.zipIdx).map fun x =>
    d.runs cs x.2 (((cs.canvases[x.2]?).map (·.qubit)).getD 0) branchDepth (stuckAtBarrier cs ds x.2) x.1

/-! ### What an open canvas can do -/

/-- The largest number of a list. -/
def natMax (l : List Nat) : Nat := l.foldl max 0

/-- The descriptors that an entry can play, and its target; a customer routine can play every one on every target. -/
def entryPlays (cs : Sections) (i : Nat) (w : W128) : List (Nat × List Nat) :=
  let chain : List Nat := ((secStarts cs i w).flatMap fun a => (secChainOf cs (cs.segments.length + 1) a []).1).dedup
  if opc w = 1 ∨ opc w = 0x2C then [(fld w 35 32, chain)]
  else if opc w = 2 then [(1, chain)]
  else if 0xC0 ≤ opc w then (List.range 6).map fun t => (t, List.range cs.segments.length)
  else []

/-- The paths of a sketch-mode BRANCH; none of another operation. -/
def sketchWidth (cs : Sections) (e : Nat) : Nat :=
  let w := secOp cs e
  if opc w = 0x28 ∧ fld w 36 36 = 1 then (branchTargets e w).length else 0

/-- The most paths that can be live when a canvas goes on from some entries, at least one (R311, R319): those of one branch, or
of two, one inside the other, when they are four at most. -/
def pathFactor (cs : Sections) (es : List Nat) : Nat :=
  max 1 (natMax (es.map fun e =>
    let n := sketchWidth cs e
    if n = 0 then 1
    else
      let inner := (secReach cs ((branchTargets e (secOp cs e)).map Int.ofNat)).map (sketchWidth cs)
      n + natMax (inner.filter fun m => decide (n + m ≤ 4))))

/-- What a canvas fetches in a tick at most when it goes on from some entries, in units of ½ MB/s: on each target the most, for
every path; a READ's stroke with its kernel. -/
def openFetch (cs : Sections) (i q : Nat) (pcs : List Nat) : Nat :=
  let es := secReach cs (pcs.map Int.ofNat)
  let rates := es.flatMap fun e =>
    let w := secOp cs e
    let kern := if opc w = 2 then kernelFetch cs q (fld w 101 98) else 0
    (entryPlays cs i w).map fun p => (p.1, natMax (p.2.map fun a => segFetch (secSeg cs a)) + kern)
  let tgt : Nat → Nat := fun t => natMax ((rates.filter fun p => p.1 == t).map (·.2))
  pathFactor cs es * ((List.range 6).map tgt).sum

/-- MB/s of a stream that a canvas takes in a tick at most when it goes on from some entries. -/
def openTake (cs : Sections) (i k : Nat) (pcs : List Nat) : Nat :=
  let es := secReach cs (pcs.map Int.ofNat)
  let plays := es.flatMap fun e => entryPlays cs i (secOp cs e)
  ((List.range 6).map fun t => natMax ((plays.filter fun p => p.1 == t).flatMap fun p => p.2.filterMap fun a =>
    if segStream (secSeg cs a) = some k then some (segTake (secSeg cs a)) else none)).sum

/-! ### Peaks (R30, R186) -/

/-- Sum of a figure of the spans of a run that cover a tick. -/
def Course.at_ (r : Course) (t : Nat) (f : Span → Nat) : Nat :=
  ((r.laid.flatMap (·.spans)).map fun s => if s.first ≤ t ∧ t < s.stop then f s else 0).sum

/-- Whether a run is open in a tick, and from which entries. -/
def Course.openAt (r : Course) (t : Nat) : Option (List Nat) := r.from_.bind fun o => if o.1 ≤ t then some o.2 else none

/-- The ticks in which something begins in some runs. -/
def runTicks (rs : List Course) : List Nat :=
  (rs.flatMap fun r => (r.laid.flatMap fun l => l.spans.map (·.first)) ++ (r.from_.map (·.1)).toList ++ r.beside.map (·.1)).dedup

/-- The peak of a sum over canvases, and its first tick, from what each canvas has in a tick. -/
def peakOf (ticks : List Nat) (f : Nat → Nat) : Nat × Nat :=
  (ticks.mergeSort (· ≤ ·)).foldl (fun p t => if p.1 < f t then (f t, t) else p) (0, 0)

/-- A figure in units of ½ MB/s as a number of MB/s. DESIGN CHOICE (log entry 12): a half is dropped. -/
def halfRate (n : Nat) : Nat := n / 2

/-- Peak fetch demand of a job on a tile in units of ½ MB/s, and its tick after SHOT_START (R30, R319). -/
def Dev.peakDemand (d : Dev) (cs : Sections) (runs : List (List Course)) (tile : Nat) : Nat × Nat :=
  let here := (runs.zipIdx).filter fun x => d.canvasTile cs x.2 == some tile
  let one : Nat → Nat → Course → Nat := fun i t r =>
    let q := ((cs.canvases[i]?).map (·.qubit)).getD 0
    r.at_ t (·.rate) + ((r.beside.filter fun b => decide (b.1 ≤ t ∧ t < b.2.1)).map fun b => openFetch cs i q b.2.2).sum
      + match r.openAt t with
        | some pcs => openFetch cs i q pcs
        | none => 0
  peakOf (runTicks (here.flatMap (·.1))) fun t => (here.map fun x => natMax (x.1.map (one x.2 t))).sum

/-- ALLOT of a stream in MB/s (R186): the most that its strokes consume in a tick, as a rate. -/
def Dev.allot (cs : Sections) (runs : List (List Course)) (k : Nat) : Nat :=
  let one : Nat → Nat → Course → Nat := fun i t r => r.at_ t (fun s => if s.stream = some k then s.take else 0) + match r.openAt t with
    | some pcs => openTake cs i k pcs
    | none => 0
  (peakOf (runTicks runs.flatten) fun t => ((runs.zipIdx).map fun x => natMax (x.1.map (one x.2 t))).sum).1

/-! ### Sketch pages (R316, R318) -/

/-- The targets on which a path plays in its horizon: by what it lays out before a further branch, or all it can reach where
it becomes open in the horizon. -/
def legTargets (cs : Sections) (i tb n : Nat) (s : Dry) : List Nat :=
  let own := ((s.laid.take (s.laid.length - n)).filter fun l => l.spans.any fun x => decide (x.first < tb + 64)).map (·.tgt)
  let more := match (s.run false).from_ with
    | some (t, pcs) =>
      let branches := match s.st with
        | .branch _ _ => true
        | _ => false
      if t < tb + 64 ∧ branches = false then
        ((secReach cs (pcs.map Int.ofNat)).flatMap fun e => entryPlays cs i (secOp cs e)).map (·.1)
      else []
    | none => []
  (own ++ more).dedup

/-- The pages of a branch and those of the branches in its paths, as far as branches are followed: for each branch its paths,
its pages, and the largest pages of a branch inside it that can be pending with it (R311, R318); past that, four paths on every
target that its paths can reach. -/
def Dev.branchPages (d : Dev) (cs : Sections) (i q : Nat) : Nat → Dry → Nat × Nat × Nat
  | 0, s =>
    match s.st with
    | .branch _ ts =>
      let tgts := ((secReach cs (ts.map Int.ofNat)).flatMap fun e => entryPlays cs i (secOp cs e)).map (·.1)
      (ts.length, 4 * tgts.dedup.length, 4 * tgts.dedup.length)
    | _ => (0, 0, 0)
  | depth + 1, s =>
    match s.st with
    | .branch tb ts =>
      let legs := ts.map fun t => d.leg cs i q legFuel { s.advance tb with pc := t, st := .going }
      let own := (legs.map fun l => (legTargets cs i tb s.laid.length l).length).sum
      let subs := legs.map fun l => d.branchPages cs i q depth l
      let inner := natMax (subs.map fun x => if ts.length + x.1 ≤ 4 then x.2.1 else 0)
      (ts.length, own, max (own + inner) (natMax (subs.map (·.2.2))))
    | _ => (0, 0, 0)

/-- The pages that a thread's paths can occupy together (R318); of a canvas that becomes open before its branches are
followed, four paths on every target that the paths can play on. -/
def Dev.sketchPages (d : Dev) (cs : Sections) (i : Nat) : Nat :=
  let q := ((cs.canvases[i]?).map (·.qubit)).getD 0
  match (d.drys cs)[i]? with
  | none => 0
  | some s =>
    let known := (d.branchPages cs i q branchDepth s).2.2
    let late := ((d.runs cs i q branchDepth false s).filterMap (·.from_)).flatMap (·.2)
    let es := secSketchReach cs (secReach cs (late.map Int.ofNat))
    let tgts := ((es.flatMap fun e => entryPlays cs i (secOp cs e)).map (·.1)).dedup
    max known (4 * tgts.length)

/-- Segments of streams that strokes rendered in a sketch reach (R185, R317): those launched before the horizon of a path, or
that a path which has become open by then can launch; past the branches that are followed, those of every path. -/
def Dev.sketchStreams (d : Dev) (cs : Sections) (i q : Nat) : Nat → Dry → List Nat
  | 0, s =>
    match s.st with
    | .branch _ ts => (secCanvasSegs cs i (secReach cs (ts.map Int.ofNat))).filter fun a => fld (secSeg cs a) 22 22 == 1
    | _ => []
  | depth + 1, s =>
    match s.st with
    | .branch tb ts =>
      let n := s.laid.length
      ts.flatMap fun t =>
        let l := d.leg cs i q legFuel { s.advance tb with pc := t, st := .going }
        let own := ((l.laid.take (l.laid.length - n)).filter fun x => decide (x.start < tb + 64)).flatMap fun x =>
          (x.spans.filter fun y => y.stream.isSome).map (·.seg)
        let more := match l.st with
          | .branch _ _ => []
          | .ended => []
          | _ =>
            if l.cursor < tb + 64 then
              (secCanvasSegs cs i (secReach cs [(l.pc : Int)])).filter fun a => fld (secSeg cs a) 22 22 == 1
            else []
        own ++ more ++ d.sketchStreams cs i q depth l
    | .ended => []
    | _ => (secCanvasSegs cs i (secSketchReach cs (secReach cs [(s.pc : Int)]))).filter fun a => fld (secSeg cs a) 22 22 == 1

/-- Streams in sketches (R185). -/
def Dev.checkSketchStreams (d : Dev) (cs : Sections) : List Failure :=
  (((d.drys cs).zipIdx.flatMap fun x =>
    d.sketchStreams cs x.2 (((cs.canvases[x.2]?).map (·.qubit)).getD 0) branchDepth x.1).dedup).map fun a =>
      ({ reason := 0x0F, item := a } : Failure)

/-! ### Result rates (R713) -/

/-- The least tick to which an operation takes CURSOR from a tick, where what depends on data is taken as nothing (R105). -/
def leastCursor (cs : Sections) (i : Nat) (w : W128) (c : Nat) : Nat :=
  let off := if fld w 11 11 = 1 then 0 else fld w 31 16
  let t := (if fld w 9 8 = 1 then 0 else c) + off
  match opc w with
  | 0x01 =>
    if fld w 10 10 = 1 then
      max c (t + (natMin ((secStarts cs i w).map fun a => (secChain cs a 0).2)).getD 0)
    else c
  | 0x02 => if fld w 10 10 = 1 then max c (t + fld w 95 80) else c
  | 0x10 => max c t
  | 0x11 => max c (fld w 79 32)
  | _ => c

/-- The least CURSOR with which each entry can be reached, taken one step further. -/
def reachStep (cs : Sections) (i : Nat) (m : List (Nat × Nat)) : List (Nat × Nat) :=
  m.foldl (fun out p =>
    let w := secOp cs p.1
    let c := leastCursor cs i w p.2
    (successors w p.1).foldl (fun o t =>
      if t < 0 ∨ (cs.program.length : Int) ≤ t then o
      else match o.find? fun x => x.1 == t.toNat with
        | some x => if x.2 ≤ c then o else (t.toNat, c) :: o.filter fun y => y.1 != t.toNat
        | none => (t.toNat, c) :: o) out) m

/-- The least CURSORs, until nothing changes (fuel: the entries of the program). -/
def reachTicks (cs : Sections) (i : Nat) : Nat → List (Nat × Nat) → List (Nat × Nat)
  | 0, m => m
  | fuel + 1, m =>
    let n := reachStep cs i m
    if n = m then m else reachTicks cs i fuel n

/-- The length of a run: an open one takes the shortest way from there to an END. -/
def Course.length (cs : Sections) (i : Nat) (r : Course) : Nat :=
  match r.from_ with
  | none => r.stop
  | some o =>
    let m := reachTicks cs i cs.program.length (o.2.map fun e => (e, o.1))
    max r.stop ((natMin ((m.filter fun p => opc (secOp cs p.1) == 0x3F).map (·.2))).getD 0)

/-- The length of the shortest shot that the programs allow: the last canvas' shortest run. -/
def shortestShot (cs : Sections) (runs : List (List Course)) : Nat :=
  natMax ((runs.zipIdx).map fun x => (natMin (x.1.map fun r => r.length cs x.2)).getD 0)

/-- The most that V[k] holds when a LOOP among some entries begins: the values that SETV and the parameters give it; none where
another operation can write it. -/
def loopCount (cs : Sections) (i : Nat) (es : List Nat) (k : Nat) : Option Nat :=
  let ws := es.map (secOp cs)
  let init := ((cs.canvases[i]?).map fun r => ((r.vinit.getD k 0).toNat)).getD 0
  if k = 15 ∨ ws.any fun w => (opc w == 0x31 && fld w 35 32 == k) || decide (0xC0 ≤ opc w) then none
  else
    let vs := (ws.filter fun w => opc w == 0x30 && fld w 35 32 == k).map (fld · 95 64)
    some (natMax ((init :: vs).map fun v => if v = 0 then 2 ^ 32 else v))

/-- How often an open run can come by an entry at most: once, or as often as the LOOPs around it let it, whose counts are known;
an entry in another cycle as often as a shot has ticks, which bounds each canvas. -/
def visits (cs : Sections) (i limit : Nat) (es : List Nat) (e : Nat) : Nat :=
  let again : List Int := successors (secOp cs e) e
  if !(secReach cs again).contains e then 1
  else
    let loops := es.filterMap fun l =>
      let w := secOp cs l
      let t := (l : Int) + sext 16 (fld w 79 64)
      if opc w = 0x2A ∧ t ≤ e ∧ e ≤ l then some (loopCount cs i es (fld w 35 32)) else none
    let back := es.any fun l => opc (secOp cs l) != 0x2A && decide (e ≤ l) && (successors (secOp cs l) l).any fun t => decide (t ≤ e)
    if loops = [] ∨ back = true then limit
    else min limit (loops.foldl (fun n c => n * c.getD limit) 1)

/-- The READs that a canvas can launch in a shot: those laid out, and what an open run can launch, one in a tick at most. -/
def Course.readCount (cs : Sections) (i limit : Nat) (r : Course) : Nat :=
  r.reads.length + match r.from_ with
    | some o =>
      let es := secReach cs (o.2.map Int.ofNat)
      min limit ((es.filter fun e => opc (secOp cs e) == 2).map (visits cs i limit es)).sum
    | none => 0

/-- The READs that a tile's canvases can launch in a shot. -/
def Dev.readsPerShot (d : Dev) (cs : Sections) (runs : List (List Course)) (limit tile : Nat) : Nat :=
  (((runs.zipIdx).filter fun x => d.canvasTile cs x.2 == some tile).map fun x =>
    natMax (x.1.map (Course.readCount cs x.2 limit))).sum

/-! ### Decision words (R292, R295) -/

/-- The ways that a decision of a canvas takes, as (way, ticks after the decision): 0 to 7 the link of a tile to the hub, 8 to 15
the link of the hub to a tile, 16 to 23 a segment, 24 to 35 the queue of a Genzel link. -/
def Dev.wordWays (d : Dev) (h : JobHead) (cs : Sections) (i dtag : Nat) : List (Nat × Nat) :=
  match cs.canvases[i]?, d.canvasTile cs i with
  | some r, some t =>
    let want := (cs.decisions.filter fun x => x.chip == d.chip && x.source == r.qubit && x.dtag == dtag).filterMap fun x =>
      d.canvasTile cs x.canvas
    let tiles := want.dedup.filter (· != t)
    let mask := if h.multiChip then
        Nat.land (Config.decisionChips h.ljob r.qubit) (Nat.land h.chips ((2 ^ 64 - 1) - 2 ^ d.chip)) else 0
    let links := ((onesOf 64 mask).map d.routeFor).dedup.filter (· < 12)
    [(16 + t, 0)] ++ (if tiles = [] ∧ mask = 0 then [] else [(t, 0)])
      ++ tiles.flatMap (fun u => [(8 + u, 0), (16 + u, 3)]) ++ links.map fun k => (24 + k, 6)
  | _, _ => []

/-- The words that the handles of a job take from other chips: they can come in any tick. -/
def Dev.wordsFrom (d : Dev) (cs : Sections) (way : Nat) : Nat :=
  (((cs.decisions.filter fun x => x.chip != d.chip).filterMap fun x => (d.canvasTile cs x.canvas).map fun t =>
    (x.chip, x.source, x.dtag, t)).dedup.filter fun x => way == 8 + x.2.2.2 || way == 16 + x.2.2.2).length

/-- The words of a canvas on a way, by its runs: those with a tick, and how many can come in any interval of a length. A decision
whose tick is not known comes once for each READ, one that a READ in a cycle makes in every tick. -/
def Dev.runWords (d : Dev) (h : JobHead) (cs : Sections) (i way len : Nat) (r : Course) : List Nat × Nat :=
  let on : Nat → List Nat := fun tag => ((d.wordWays h cs i tag).filter fun w => w.1 == way).map (·.2)
  let known := r.reads.flatMap fun x => match x.1 with
    | some t => (on x.2).map (t + ·)
    | none => []
  let loose := (r.reads.filter fun x => x.1.isNone).flatMap fun x => on x.2
  let later := match r.from_ with
    | some o =>
      let es := secReach cs (o.2.map Int.ofNat)
      (es.filter fun e => opc (secOp cs e) == 2).flatMap fun e =>
        (List.replicate (min len (visits cs i len es e)) (on (fld (secOp cs e) 109 102))).flatten
    | none => []
  (known, min len (loose ++ later).length)

/-- The most words of a job that can be due on a way in an interval of its length, 2 ticks or for a Genzel link 8, and the
first tick of it. A chip forwards words of a multi-chip job alone (R298). -/
def Dev.wordPeak (d : Dev) (h : JobHead) (cs : Sections) (runs : List (List Course)) (way : Nat) : Nat × Nat :=
  let len := if way < 24 then 2 else 8
  let ws := (runs.zipIdx).map fun x => x.1.map (d.runWords h cs x.2 way len)
  let ticks := (ws.flatten.flatMap (·.1)).dedup
  let any_ := (ws.map fun l => natMax (l.map (·.2))).sum + d.wordsFrom cs way
    + (if way < 24 ∨ !h.multiChip then 0 else Config.wordsForwarded h.ljob (way - 24))
  let p := peakOf ticks fun t => (ws.map fun l => natMax (l.map fun w => (w.1.filter fun x => decide (t ≤ x ∧ x < t + len)).length)).sum
  (p.1 + any_, p.2)

/-- The bound of R295 on a way. -/
def wayBound (way : Nat) : Nat := if way < 16 then 64 else if way < 24 then 128 else 8

/-- The unit that a report names for a way. -/
def wayUnit (way : Nat) : Nat := if way < 24 then unitCode 10 (way % 8) else unitCode 8 (way - 24)

/-- The word peaks that a job holds, those of zero left out. -/
def Dev.wordPeaks (d : Dev) (h : JobHead) (cs : Sections) (runs : List (List Course)) : List (Nat × Nat) :=
  ((List.range 36).map fun w => (w, (d.wordPeak h cs runs w).1)).filter fun p => p.2 != 0

/-! ### The checks -/

/-- A kernel that DISC_FIT found for a qubit stands in place of the job's own weights from the next job placed (R450): the
sections with its data after the job's samples, its rows naming them there. -/
def Dev.withFits (d : Dev) (cs : Sections) : Sections :=
  cs.kernels.foldl (fun (c : Sections) (r : KernelRow) =>
    let k := tabGet [] d.cal.kernels r.qubit
    if k = [] ∨ cs.samples.length < r.addr + r.klen then { c with kernels := c.kernels ++ [r] }
    else
      { c with
        kernels := c.kernels ++ [{ r with addr := c.samples.length }]
        samples := c.samples ++ k.take r.klen ++ ((cs.samples.drop r.addr).take r.klen).drop k.length })
    { cs with kernels := [] }

/-- Sample ranges that a tile uses, as (first, units), in the order of SAMPLES (R28, R414). -/
def usedRanges (cs : Sections) (vs : List CView) (tile : Nat) : List (Nat × Nat) :=
  let here := vs.filter fun v => v.tile == some tile
  let segs := (here.flatMap fun v => secCanvasSegs cs v.i v.reach).dedup.filter fun a =>
    decide (a < cs.segments.length) && fld (secSeg cs a) 22 22 == 0
  let kerns := here.flatMap fun v => (v.reach.filter fun e => opc (secOp cs e) == 2).filterMap fun e =>
    (cs.kernels.find? fun k => k.qubit == v.row.qubit && k.ksel == fld (secOp cs e) 101 98).map fun k => (k.addr, k.klen)
  ((segs.map fun a => (fld (secSeg cs a) 21 0, segUnits (secSeg cs a))) ++ kerns).dedup.mergeSort
    fun a b => decide (a.1 ≤ b.1)

/-- The first of some ranges of SAMPLES that has the data of a range: identical data are stored once (R414). -/
def sameData (cs : Sections) (rs : List (Nat × Nat)) (r : Nat × Nat) : Nat × Nat :=
  (rs.find? fun q => q.2 == r.2 && (cs.samples.drop q.1).take q.2 == (cs.samples.drop r.1).take r.2).getD r

/-- The ranges of a tile whose data are stored for another one: (tile, first, units, the first unit of the other). -/
def sharedRanges (cs : Sections) (vs : List CView) (tile : Nat) : List (Nat × Nat × Nat × Nat) :=
  let rs := usedRanges cs vs tile
  rs.filterMap fun r =>
    let q := sameData cs rs r
    if q.1 = r.1 then none else some (tile, r.1, r.2, q.1)

/-- Sample ranges that a tile stores, as (first, units), overlapping ones merged (R28, R414). -/
def Dev.storeRanges (cs : Sections) (vs : List CView) (tile : Nat) : List (Nat × Nat) :=
  let rs := usedRanges cs vs tile
  (rs.filter fun r => sameData cs rs r == r).foldl (fun out r => match out.getLast? with
    | some l => if r.1 ≤ l.1 + l.2 then out.dropLast ++ [(l.1, max l.2 (r.1 + r.2 - l.1))] else out ++ [r]
    | none => [r]) []

/-- Bytes of a stream's ring and of its head copy: what 4 µs consume at ALLOT (R186). -/
def ringBytes (allot : Nat) : Nat := max 4 (4 * allot)

/-- Blocks that a tile needs, one entry for each range and for each ring and head copy, in the order of placing:
(blocks, first unit of SAMPLES, units, stream). -/
def Dev.storeNeeds (cs : Sections) (vs : List CView) (runs : List (List Course)) (tile : Nat) : List (Nat × Nat × Nat × Option Nat) :=
  ((Dev.storeRanges cs vs tile).map fun r => (ceilDiv r.2 1024, r.1, r.2, none))
    ++ ((cs.streams.zipIdx).filter fun s => s.1.tile == tile).map fun s =>
      (2 * ceilDiv (ringBytes (Dev.allot cs runs s.2)) 4096, 0, 0, some s.2)

/-- Places needs at the lowest blocks that fit (R414): (blocks' first, need). A need that finds no place ends the list. -/
def placeBlocks : List (Nat × Nat × Nat × Option Nat) → List (Nat × Nat) → Option (List (Nat × Nat × Nat × Nat × Option Nat))
  | [], _ => some []
  | n :: ns, used =>
    match lowestFit used n.1 4096 with
    | none => none
    | some b => (placeBlocks ns ((b, b + n.1 - 1) :: used)).map fun r => (b, n) :: r

/-- Spaces and limits (R28, R31, R33, R34, R150, R295, R318, R421). -/
def Dev.checkSpaces (d : Dev) (h : JobHead) (cs : Sections) (vs : List CView) : List Failure :=
  let used := d.usedEntries
  let runs := d.jobRuns cs
  let pl := cs.program.length
  let sl := cs.segments.length
  let p := lowestFit used pl 4194304
  let s := p.bind fun a => lowestFit (if pl = 0 then used else (a, a + pl - 1) :: used) sl 4194304
  let regions := (d.resident.map fun j => j.held.regions.length).sum
  let desc := if s.isNone ∨ 62 < regions then
      [({ reason := 7, item := pl + sl, value := pl + sl } : Failure)] else []
  let store := (List.range 8).filterMap fun t =>
    let needs := Dev.storeNeeds cs vs runs t
    let blocks := (needs.map (·.1)).sum
    if (placeBlocks needs (d.usedBlocks t)).isNone then
      some ({ reason := 8, item := 4096 * blocks, value := blocks, a := unitCode 10 t } : Failure) else none
  let tiles := (vs.filterMap (·.tile)).dedup
  let fetch := tiles.filterMap fun t =>
    let mine := d.peakDemand cs runs t
    let sum := mine.1 + (d.resident.flatMap fun j => (j.held.peaks.filter fun x => x.1 == t).map (·.2)).sum
    if 1024000 < sum then some ({ reason := 0x0D, item := mine.2, value := halfRate sum, a := unitCode 10 t } : Failure) else none
  let allots := (List.range cs.streams.length).map (Dev.allot cs runs)
  let heldStreams := (d.resident.map fun j => j.held.streams.length).sum
  let total := allots.sum + (d.resident.flatMap fun j => j.held.streams.map fun k => d.rd (unitKey 0x488007 k)).sum
  let streams := if 64 < heldStreams + cs.streams.length ∨ 80000 < total then
      [({ reason := 0x0E, item := cs.streams.length - 1 } : Failure)] else []
  let link := (List.range 36).filterMap fun w =>
    let mine := d.wordPeak h cs runs w
    let sum := mine.1 + (d.resident.flatMap fun j => (j.held.words.filter fun x => x.1 == w).map (·.2)).sum
    if mine.1 ≠ 0 ∧ wayBound w < sum then some ({ reason := 0x14, item := mine.2, a := wayUnit w } : Failure) else none
  let pages := tiles.filterMap fun t =>
    let mine := ((List.range cs.canvases.length).filterMap fun i =>
      if d.canvasTile cs i = some t then some (d.sketchPages cs i) else none).sum
    let sum := mine + (d.resident.flatMap fun j => (j.held.pages.filter fun x => x.1 == t).map (·.2)).sum
    if 128 < sum then some ({ reason := 0x15, item := sum, value := sum, a := unitCode 10 t } : Failure) else none
  desc ++ store ++ fetch ++ streams ++ link ++ pages

/-- The definitions that no resident job holds. -/
def Dev.freeDefs (d : Dev) : List Nat := (List.range 1024).filter fun g => !(d.resident.any (·.held.defs.contains g))

/-- Every failure of a job (R424, R425). -/
def Dev.failures (d : Dev) (h : JobHead) (cs : Sections) : List Failure :=
  let vs := d.views cs
  d.checkSpans cs vs ++ d.checkPins cs vs ++ d.checkUnits h cs vs ++ d.checkProgram cs vs
    ++ d.checkSegments cs vs d.freeDefs.length ++ d.checkSketchStreams cs ++ d.checkTones cs vs ++ d.checkAcq cs ++ d.checkDsp cs
    ++ d.checkDecisions h cs ++ d.checkSpaces h cs vs

end Sys2Proof.Machine
end

