-- ==== Sys2Proof/Machine/Settle.lean ====
section
/-! DEFINITION. A job is settled on the units that the placement engine chooses for it: the choice, the descriptors and
bindings that carry it, the report, and the release of the units when the job leaves residence (chapter 10). -/

namespace Sys2Proof.Machine

/-! ### The choice (R414) -/

/-- The tone slots of the canvases of a port, as (row, index within the port): pins first, others free (log entry 10). -/
def chooseSlots (cs : Sections) (n : Nat) (rows : List Nat) (pin : Nat → Option Nat) : List (Nat × Nat) :=
  let pinned := rows.filterMap fun i => (pin i).map fun k => (i, k)
  rows.foldl (fun out i =>
    if (pin i).isSome then out
    else
      let free := (List.range n).filter fun k => !(out.map (·.2)).contains k
      match choose cs (1000 + i) free with
      | some k => out ++ [(i, k)]
      | none => out) pinned

/-- The pinned drive slot of a canvas. -/
def secPinDrive (cs : Sections) (i : Nat) : Option Nat :=
  cs.pins.findSome? fun p => match p with
    | .driveSlot c s => if c = i then some s else none
    | _ => none

/-- The pinned readout slot of a canvas. -/
def secPinRead (cs : Sections) (i : Nat) : Option Nat :=
  cs.pins.findSome? fun p => match p with
    | .readoutSlot c s => if c = i then some s else none
    | _ => none

/-- The places of the canvases of a job. -/
def Dev.choosePlaces (d : Dev) (cs : Sections) (vs : List CView) : List CanvasPlace :=
  let threads := d.chooseThreads cs
  let drives := vs.filter fun v => v.holds 0
  let reads := vs.filter fun v => v.holds 1
  let xys := (drives.filterMap fun v => d.xyOf v.row.qubit).dedup
  let rls := (reads.filterMap fun v => d.rlOf v.row.qubit).dedup
  let ds := xys.flatMap fun p =>
    (chooseSlots cs 8 ((drives.filter fun v => d.xyOf v.row.qubit == some p).map (·.i)) (secPinDrive cs)).map
      fun x => (x.1, 8 * p + x.2)
  let rs := rls.flatMap fun n =>
    (chooseSlots cs 16 ((reads.filter fun v => d.rlOf v.row.qubit == some n).map (·.i)) (secPinRead cs)).map
      fun x => (x.1, 16 * n + x.2)
  vs.filterMap fun v =>
    (threads.find? (·.1 == v.i)).map fun t =>
      let mask := match v.row.group with
        | some g => (threads.filter fun u => ((cs.canvases[u.1]?).bind (·.group)) == some g).foldl
            (fun m u => Nat.lor m (2 ^ (u.2 % 16))) 0
        | none => 0
      { canvas := v.i, thread := t.2, tile := t.2 / 64, qubit := v.row.qubit, driveSlot := (ds.find? (·.1 == v.i)).map (·.2),
        readSlot := (rs.find? (·.1 == v.i)).map (·.2), flux := v.flux, mask := mask }

/-- The cores of the DSP images, in order: a pin, else the lower-numbered core of the tile that is free (R414). -/
def Dev.chooseCores (d : Dev) (cs : Sections) : List Nat :=
  cs.dsp.foldl (fun out r =>
    let free := ([2 * r.tile, 2 * r.tile + 1]).filter fun c =>
      !out.contains c && !(d.resident.any (·.held.cores.contains c)) && !d.isRetired (.dsp c)
    let pinned := free.filter fun c => cs.pins.any fun p => match p with
      | .dspCore t k => t == r.tile && k == c
      | _ => false
    out ++ [(pinned.head?.orElse fun _ => free.head?).getD (2 * r.tile)]) []

/-- Expected rate assigned to a host port, in MB/s. -/
def Dev.flowRate (d : Dev) (h : Nat) : Rat :=
  (d.resident.flatMap fun j => (j.held.flows.filter fun f => f.2.1 == h).map (·.2.2)).sum

/-- A rate as an object or a report shows it. DESIGN CHOICE (log entry 12): a fraction of a MB/s is dropped. -/
def wholeRate (r : Rat) : Nat := r.floor.toNat

/-- The port with the least assigned rate among those that are up (R414); port 0 when none is. -/
def Dev.leastPort (d : Dev) (extra : List (Nat × Nat × Rat)) : Nat :=
  let rate : Nat → Rat := fun h => d.flowRate h + ((extra.filter fun f => f.2.1 == h).map (·.2.2)).sum
  let ups := (List.range 4).filter fun h => d.rd (unitKey 0x280001 h) == 3
  (ups.foldl (fun b h => match b with
    | none => some h
    | some a => if rate h < rate a then some h else some a) none).getD 0

/-- The expected rate of a flow in MB/s (R713): B bytes every P ticks. -/
def Dev.expectedRate (d : Dev) (h : JobHead) (cs : Sections) (runs : List (List Course)) (flow : Nat) : Rat :=
  let p := shortestShot cs runs + h.gap
  let here := cs.acq.filter fun a => a.channel / 16 == flow
  let caps := ((here.filter fun a => d.acqSetting a 1 == 2).map fun a =>
    (d.rowBytes a + 72) * max 1 (d.acqSetting a 7)).sum
  let streams := ((here.filter fun a => d.acqSetting a 1 == 1).map d.rowRate).sum
  let bytes := if flow = 8 then 1056 * cs.dsp.length + 48 else 16 * d.readsPerShot cs runs h.shotLimit flow + caps + 48
  mkRat ((bytes * 750 : Nat)) (max 1 p) + (if flow = 8 then 0 else mkRat (streams : Nat) (2 ^ 16))

/-- The pinned port of a flow. -/
def secPinFlow (cs : Sections) (flow : Nat) : Option Nat :=
  cs.pins.findSome? fun p => match p with
    | .flow t h => if t = flow then some h else none
    | _ => none

/-- The flows with their ports and rates (R36, R414). -/
def Dev.chooseFlows (d : Dev) (h : JobHead) (cs : Sections) (runs : List (List Course)) (tiles : List Nat) : List (Nat × Nat × Rat) :=
  (jobFlows tiles cs).foldl (fun out f =>
    out ++ [(f, (secPinFlow cs f).getD (d.leastPort out), d.expectedRate h cs runs f)]) []

/-- What a job holds, by the engine's choice. -/
def Dev.choosePlacement (d : Dev) (h : JobHead) (cs : Sections) : Held :=
  let vs := d.views cs
  let runs := d.jobRuns cs
  let places := d.choosePlaces cs vs
  let qs := (places.map (·.qubit)).dedup
  let tiles := (places.map (·.tile)).dedup
  let pl := cs.program.length
  let p := (lowestFit d.usedEntries pl 4194304).getD 0
  let s := (lowestFit (if pl = 0 then d.usedEntries else (p, p + pl - 1) :: d.usedEntries) cs.segments.length 4194304).getD 0
  let usedRegions := d.resident.flatMap fun j => j.held.regions.map (·.1)
  let freeRegions := (List.range 64).filter fun k => !usedRegions.contains k
  let regions := (if pl = 0 then [] else [(freeRegions.getD 0 0, 0, p, p + pl - 1)])
    ++ (if cs.segments = [] then [] else [(freeRegions.getD (if pl = 0 then 0 else 1) 0, 1, s, s + cs.segments.length - 1)])
  let usedStreams := d.resident.flatMap fun j => j.held.streams
  { canvases := places
    xy := (qs.filterMap d.xyOf).dedup
    rl := (qs.filterMap d.rlOf).dedup
    flux := places.flatMap (·.flux)
    cores := d.chooseCores cs
    streams := ((List.range 64).filter fun k => !usedStreams.contains k).take cs.streams.length
    acq := cs.acq.map (·.channel)
    regions := regions
    blocks := (List.range 8).flatMap fun t => ((placeBlocks (Dev.storeNeeds cs vs runs t) (d.usedBlocks t)).getD []).map
      fun b => (t, b.1, b.2.1, if b.2.2.2.2.isSome then 2 ^ 40 + b.2.2.2.2.getD 0 else 4 * b.2.2.1)
    shared := (List.range 8).flatMap fun t => sharedRanges cs vs t
    defs := d.freeDefs.take cs.genDefs.length
    trig := if h.startMode = 2 then some h.trigInput else none
    flows := d.chooseFlows h cs runs tiles
    peaks := tiles.map fun t => (t, (d.peakDemand cs runs t).1)
    pages := places.map fun c => (c.tile, d.sketchPages cs c.canvas)
    words := d.wordPeaks h cs runs }

/-! ### Writing the placement (R149, R151, R225, R266, R297, R414) -/

/-- The first entry of a region of a job. -/
def Held.base (h : Held) (kind : Nat) : Nat := ((h.regions.find? fun r => r.2.1 == kind).map (·.2.2.1)).getD 0

/-- Bits [hi:lo] of a word replaced by a value. -/
def putField (w : W128) (hi lo v : Nat) : W128 :=
  BitVec.ofNat 128 (w.toNat - fld w hi lo * 2 ^ lo + (v % 2 ^ (hi + 1 - lo)) * 2 ^ lo)

/-- A program entry with the engine's addresses and masks (R414, R583). -/
def relocateOp (pb sb mask : Nat) (w : W128) : W128 :=
  match opc w with
  | 0x29 => putField w 53 32 (pb + fld w 53 32)
  | 0x12 => putField w 47 32 mask
  | 0x2C => putField w 63 42 (sb + fld w 63 42)
  | 0x01 => if fld w 36 36 = 1 then w else putField w 63 42 (sb + fld w 63 42)
  | 0x02 => if fld w 36 36 = 1 then w else putField w 63 42 (sb + fld w 63 42)
  | _ => w

/-- A descriptor with the engine's addresses: NEXT and STREAM. SADDR stays an address of SAMPLES, which the tile that
fetches resolves by where it stores the range (R414; log entry 10). -/
def relocateSeg (sb : Nat) (streams : List Nat) (w : W128) : W128 :=
  let w1 := putField w 101 80 (sb + fld w 101 80)
  if fld w 22 22 = 1 then putField w1 28 23 (streams.getD (fld w 28 23) 0) else w1

/-- The 4-byte unit of a tile's sample store that holds a unit of a job's SAMPLES (R414, R583): of a range whose data are
stored for another one, the unit of that one. -/
def storeUnit (shared blocks : List (Nat × Nat × Nat × Nat)) (samples : Nat) (tile unit0 : Nat) : Nat :=
  let unit := match shared.find? fun r => r.1 == tile && decide (r.2.1 ≤ unit0 ∧ unit0 < r.2.1 + r.2.2.1) with
    | some r => r.2.2.2 + (unit0 - r.2.1)
    | none => unit0
  let hit := blocks.find? fun b => b.1 == tile && decide (b.2.2.2 < 2 ^ 40)
    && decide (b.2.2.2 / 4 ≤ unit ∧ unit < b.2.2.2 / 4 + 1024 * b.2.2.1 ∧ unit < samples)
  match hit with
  | some b => 1024 * b.2.1 + (unit - b.2.2.2 / 4)
  | none => 0

/-- Loads the sample ranges of a job into its tiles' stores. -/
def Dev.loadStores (d : Dev) (h : Held) (cs : Sections) : Dev :=
  { d with eas := { d.eas with store := h.blocks.foldl (fun st b =>
      if 2 ^ 40 ≤ b.2.2.2 then st
      else tabFill 0 st (2 ^ 22 * b.1 + 1024 * b.2.1) ((cs.samples.drop (b.2.2.2 / 4)).take (1024 * b.2.2.1))) d.eas.store } }

/-- Writes the program and the segments of a job into the descriptor table, and the region objects. -/
def Dev.loadTable (d : Dev) (slot : Nat) (h : Held) (cs : Sections) (vs : List CView) : Dev :=
  let pb := h.base 0
  let sb := h.base 1
  let maskOf : Nat → Nat := fun e =>
    match vs.find? fun v => v.reach.contains e with
    | some v => ((h.canvases.find? (·.canvas == v.i)).map (·.mask)).getD 0
    | none => 0
  let prog := (cs.program.zipIdx).map fun w => relocateOp pb sb (maskOf w.2) w.1
  let segs := cs.segments.map (relocateSeg sb h.streams)
  let d1 := { d with eas := { d.eas with desc := tabFill 0 (tabFill 0 d.eas.desc pb prog) sb segs } }
  h.regions.foldl (fun e r => e.wr (0x480101 + r.1)
    (r.2.2.1 + 2 ^ 22 * r.2.2.2 + 2 ^ 44 * r.2.1 + 2 ^ 45 + 2 ^ 48 * slot)) d1

/-- The decision handle word of a DECISIONS row (R146). -/
def Dev.handleWord (d : Dev) (h : JobHead) (places : List CanvasPlace) (r : DecisionRow) : Nat :=
  let thread := if r.chip = d.chip then
      ((places.find? fun p => p.qubit == r.source && p.readSlot.isSome).map (·.thread)).getD 0
    else Config.remoteThread h.ljob r.chip r.source % 512
  r.chip % 64 + 2 ^ 6 * thread + 2 ^ 15 * (r.dtag % 256) + 2 ^ 31

/-- Q_KIND of a qubit (R606). -/
def qKind (kinds : List CanvasKind) : Nat :=
  match kinds with
  | [] => 0
  | [.both] => 1
  | [.drive] => 2
  | [.readout] => 3
  | _ => if kinds.all (· == .fluxOnly) then 4 else 5

/-- The canvas whose frames are those of a kind of a qubit (R239): the one with the tone slot, else the qubit's first. -/
def framePlace (ps : List CanvasPlace) (q : Nat) (readout : Bool) : Option CanvasPlace :=
  let mine := ps.filter fun p => p.qubit == q
  (mine.find? fun p => if readout then p.readSlot.isSome else p.driveSlot.isSome).orElse fun _ => mine.head?

/-- FREQ_INIT and VPH_INIT of the frames of a canvas' qubit that are its own (R239). -/
def frameInits (ps : List CanvasPlace) (p : CanvasPlace) (r : CanvasRow) : List (Nat × Nat) :=
  ([false, true].filter fun k => framePlace ps p.qubit k == some p).flatMap fun k =>
    let o := if k then 4 else 0
    (List.range 4).flatMap fun f => [(unitKey 0x300010 p.qubit + 2 * o + f, (r.freqInit.getD (o + f) 0).toNat),
      (unitKey 0x300014 p.qubit + 2 * o + f, (r.vphInit.getD (o + f) 0).toNat)]

/-- Writes the bindings of one canvas: its thread, its tone slots, its flux channels. -/
def Dev.bindCanvas (d : Dev) (j : Job) (h : Held) (p : CanvasPlace) : Dev :=
  let cs := j.content
  match cs.canvases[p.canvas]? with
  | none => d
  | some r =>
    let n := p.thread
    let exports := if j.head.multiChip then
        Nat.land (Config.decisionChips j.head.ljob p.qubit) (Nat.land j.head.chips ((2 ^ 64 - 1) - 2 ^ d.chip)) else 0
    let base := [(unitKey 0x400001 n, p.qubit), (unitKey 0x400003 n, h.base 0 + r.entry),
      (unitKey 0x400040 n, d.sketchPages cs p.canvas), (unitKey 0x400045 n, exports)]
      ++ ((List.range 15).map fun i => (unitKey 0x400010 n + i, (r.vinit.getD i 0).toNat))
      ++ ((cs.decisions.filter fun x => x.canvas == p.canvas).map fun x =>
        (unitKey 0x400030 n + x.handle % 16, d.handleWord j.head h.canvases x))
      ++ ((cs.genBinds.filter fun b => b.canvas == p.canvas).map fun b =>
        (unitKey 0x4A0001 n + b.gsel % 32, h.defs.getD b.defn 0))
    let d1 := (d.wrs base).wrs (frameInits h.canvases p r)
    let tone : Nat := n + 2 ^ 10 + 2 ^ 16 * p.qubit
    let q := p.qubit
    let d2 : Dev := match p.driveSlot with
      | some s => d1.wrs [(objKey (0x3800 + s / 8) (0x10 + s % 8), tone), (unitKey 0x610008 q, s)]
      | none => d1
    let d3 : Dev := match p.readSlot with
      | some s => (d2.wrs [(rtoneKey s, tone), (unitKey 0x300040 q, s), (unitKey 0x300003 q, n)]).wrs
          ((cs.kernels.filter fun (k : KernelRow) => k.qubit == q).map fun (k : KernelRow) => (unitKey 0x300060 q + k.ksel % 16,
            storeUnit h.shared h.blocks cs.samples.length p.tile k.addr + 2 ^ 22 * k.krate + bitAt k.holdLast 24 + 2 ^ 25 + 2 ^ 32 * k.klen))
      | none => d2
    let d4 : Dev := if r.kind = .readout ∧ d3.rd (unitKey 0x610007 q) ≠ 0xFFFF then d3
      else if r.kind = .fluxOnly ∧ d3.rd (unitKey 0x610007 q) ≠ 0xFFFF then d3
      else d3.wr (unitKey 0x610007 q) n
    let d5 := d4.wrs [(unitKey 0x300001 q, j.slot),
      (unitKey 0x300002 q, qKind ((cs.canvases.filter fun (c : CanvasRow) => c.qubit == q).map fun (c : CanvasRow) => c.kind))]
    (p.flux.zipIdx).foldl (fun e c =>
      (e.wrs [(unitKey 0x340006 c.1, n), (unitKey 0x340003 c.1, (r.holdInit.getD c.2 0).toNat)]).setHold c.1
        ((r.holdInit.getD c.2 0).toInt)) d5

/-- The carriers of the ports of a job (R198, R414). -/
def Dev.setCarriers (d : Dev) (h : Held) (cs : Sections) (vs : List CView) : Dev :=
  let fs : Nat → Nat → List W48 := fun fk u => vs.flatMap fun v =>
    if (if fk = 0 then d.xyOf v.row.qubit else d.rlOf v.row.qubit) = some u ∧ v.holds fk then
      ((secFreqs cs v.i v.reach).filter fun f => f.1 == fk).map fun f => f.2.2 else []
  let d1 := h.xy.foldl (fun e p => e.wr (unitKey 0x380001 p) (carrierOf (secPinCarrier cs true p) (fs 0 p))) d
  h.rl.foldl (fun e n => e.wr (unitKey 0x384001 n) (carrierOf (secPinCarrier cs false n) (fs 1 n))) d1

/-- The streams of a job (R183 to R187): configured, with their head copies loaded, for a job enters ARMED only when its data
is loaded (R418). -/
def Dev.setStreams (d : Dev) (h : Held) (cs : Sections) : Dev :=
  let runs := d.jobRuns cs
  ((cs.streams.zipIdx).zip h.streams).foldl (fun e x =>
    let a := Dev.allot cs runs x.1.2
    (e.wrs [(unitKey 0x488001 x.2, 2), (unitKey 0x488002 x.2, x.1.1.tile), (unitKey 0x488003 x.2, x.1.1.addr),
      (unitKey 0x488004 x.2, x.1.1.len), (unitKey 0x488005 x.2, ringBytes a), (unitKey 0x488006 x.2, ringBytes a),
      (unitKey 0x488007 x.2, a), (unitKey 0x488008 x.2, 0), (unitKey 0x488009 x.2, 0),
      (unitKey 0x48800A x.2, 0)]).setStream x.2 {
        head := ddrRead e.ddr x.1.1.addr (min (ringBytes a) x.1.1.len), ringAt := ringBytes a }) d

/-- The generator definitions of a job (R176 to R180). -/
def Dev.setDefs (d : Dev) (h : Held) (cs : Sections) : Dev :=
  (cs.genDefs.zip h.defs).foldl (fun e x => e.wrs [(unitKey 0x4C0001 x.2, x.1.kind),
    (unitKey 0x4C0002 x.2, h.base 1 + x.1.base), (unitKey 0x4C0003 x.2, x.1.p1), (unitKey 0x4C0004 x.2, x.1.p2),
    (unitKey 0x4C0005 x.2, x.1.p3), (unitKey 0x4C0006 x.2, x.1.p4), (unitKey 0x4C0007 x.2, x.1.mode)]) d

/-- The acquisition channels of a job, with their settings (R365). -/
def Dev.setChannels (d : Dev) (slot : Nat) (cs : Sections) : Dev :=
  cs.acq.foldl (fun e a =>
    ((e.wrs (a.settings.map fun s => (unitKey 0x510000 a.channel + s.1, s.2))).wr (unitKey 0x510015 a.channel) slot)) d

/-- The slots of qubits on a tile as a map of its slots (R411). -/
def slotMapOf (places : List CanvasPlace) (qs : List Nat) : Nat :=
  places.foldl (fun m p => match p.readSlot with
    | some s => if qs.contains p.qubit then Nat.lor m (2 ^ (s % 64)) else m
    | none => m) 0

/-- The bytes of an image, for IMAGE_CRC. -/
def imageBytes (r : DspRow) : List Byte :=
  (r.pm.flatMap fun w => le 8 w.toNat) ++ ((r.xm ++ r.ym ++ r.km).flatMap fun w => le 4 w.toNat)

/-- The DSP cores of a job: attached, and their images loaded (R391, R392, R407, R411). -/
def Dev.setCores (d : Dev) (j : Job) (h : Held) : Dev :=
  ((j.content.dsp.zipIdx).zip h.cores).foldl (fun e x =>
    let r := x.1.1
    let qs := (((d.attachment j.content r.tile).find? (·.1 == x.1.2)).map (·.2)).getD []
    let c := x.2
    let k : DspCore := {
      job := j.seq, image := r.pm, pm := tabFill 0 [] 0 r.pm, xm := tabFill 0 [] 0 r.xm,
      ym := tabFill 0 [] 0 r.ym, km := tabFill 0 [] 0 r.km, pc := 0x20, mbox := (e.core c).mbox, mboxIn := (e.core c).mboxIn }
    (e.wrs [(unitKey 0x580003 c, crc32 (imageBytes r)), (unitKey 0x580004 c, slotMapOf h.canvases qs),
      (unitKey 0x580005 c, slotMapOf h.canvases r.fed), (unitKey 0x580006 c, r.feedBase), (unitKey 0x580007 c, r.feedLen),
      (unitKey 0x58000B c, 0), (unitKey 0x58000E c, 0), (unitKey 0x58000F c, 0x20)]).setCore c k) d

/-- The code of an optional slot. -/
def slotCode (cls : Nat) (s : Option Nat) : Nat :=
  match s with
  | some k => unitCode cls k
  | none => noUnit

/-- The entries of a PLACED report (R440). -/
def Dev.placedEntries (d : Dev) (j : Job) (h : Held) : List (List Byte) :=
  let cs := j.content
  let runs := d.jobRuns cs
  let pinned : CanvasPlace → Nat := fun p =>
    if (secPinThread cs p.canvas).isSome ∨ (secPinDrive cs p.canvas).isSome ∨ (secPinRead cs p.canvas).isSome then 1 else 0
  let core : CanvasPlace → Nat := fun p => match p.readSlot with
    | some s => match h.cores.find? fun c => d.bit (unitKey 0x580004 c) (s % 64) && c / 2 == s / 64 with
      | some c => unitCode 2 c
      | none => noUnit
    | none => noUnit
  (h.canvases.map fun p => reportEntry 1 (pinned p) (unitCode 11 p.qubit) (unitCode 0 p.thread) (slotCode 3 p.driveSlot)
      (slotCode 4 p.readSlot + 2 ^ 16 * core p))
    ++ (h.canvases.flatMap fun p => (p.flux.zipIdx).map fun c => reportEntry 2 0 (unitCode 5 c.1) (unitCode 0 p.thread) c.2 0)
    ++ (h.xy.map fun p => reportEntry 3 (if (secPinCarrier cs true p).isSome then 1 else 0) (unitCode 14 p) noUnit 0
      (d.rd (unitKey 0x380001 p)))
    ++ (h.rl.map fun n => reportEntry 3 (if (secPinCarrier cs false n).isSome then 1 else 0) (unitCode 15 n) noUnit 0
      (d.rd (unitKey 0x384001 n)))
    ++ (h.peaks.map fun t => reportEntry 4 0 (unitCode 10 t.1) noUnit ((h.pages.filter fun x => x.1 == t.1).map (·.2)).sum
      (halfRate t.2 % 2 ^ 32 + 2 ^ 32 * (d.peakDemand cs runs t.1).2))
    ++ (h.regions.map fun r => reportEntry 5 0 (unitCode 12 r.1) noUnit r.2.1 (r.2.2.1 + 2 ^ 22 * r.2.2.2))
    ++ ((cs.streams.zip h.streams).map fun s => reportEntry 6 0 (unitCode 9 s.2) (unitCode 10 s.1.tile) 0
      (d.rd (unitKey 0x488007 s.2)))
    ++ (h.flows.map fun f => reportEntry 7 (if (secPinFlow cs f.1).isSome then 1 else 0)
      (if f.1 = 8 then unitCode 2 (h.cores.headD 0) else unitCode 10 f.1) (unitCode 7 f.2.1) 0 (wholeRate f.2.2))
    ++ ((List.range cs.segments.length).filter fun a => !keepsRule (secSeg cs a)).map fun a =>
      reportEntry 8 0 noUnit noUnit 0 (h.base 1 + a)

/-- Whether what a job holds includes a unit of a calibration routine (R445). -/
def Held.calUses (h : Held) (ukind unit : Nat) : Bool :=
  match ukind with
  | 1 => h.rl.contains unit
  | 3 => h.xy.contains unit
  | 4 => h.rl.contains unit
  | 5 => h.flux.contains unit
  | _ => false

/-- A job that takes a unit keeps a routine that plays a probe on it from completing (R445, R454). -/
def Dev.bumpRuns (d : Dev) (h : Held) : Dev :=
  { d with cal := { d.cal with runs := d.cal.runs.map fun r =>
      if (r.routine = 3 ∨ r.routine = 4 ∨ r.routine = 5) ∧ h.calUses r.ukind r.unit then { r with lost := true } else r } }

/-- A job takes its units (R414, R419, R420). -/
def Dev.settle (d : Dev) (j : Job) : Dev :=
  let j := { j with content := d.withFits j.content }
  let h := d.choosePlacement j.head j.content
  let vs := d.views j.content
  let d1 := ((d.loadStores h j.content).loadTable j.slot h j.content vs).setRoutes
  let d2 := h.canvases.foldl (fun e p => e.bindCanvas j h p) (d1.setCarriers h j.content vs)
  let d3 := (((d2.setStreams h j.content).setDefs h j.content).setChannels j.slot j.content).setCores j h
  let d4 := match h.trig with
    | some i => d3.wr (unitKey 0x3A4006 i) j.slot
    | none => d3
  (d4.modJob j.seq fun k => { k with held := h }).bumpRuns h

/-! ### Release (R225, R435) -/

/-- A unit stands idle among the spares again (R435): its state object takes a value and its bit of SPARE_MAP is set, unless it
has been retired. -/
def Dev.backToSpares (d : Dev) (u : UnitRef) (key v bit : Nat) : Dev :=
  if d.isRetired u then d else (d.wr key v).wrBit 0x600003 bit true

/-- A sprouted spare that no resident job uses any more returns (R435). -/
def Dev.returnSpares (d : Dev) : Dev :=
  let rs := d.resident
  let idle : UnitRef × UnitRef × Nat → Bool := fun p =>
    match p.2.1 with
    | .easel s => !(rs.any fun j => j.held.canvases.any fun c => d.runEasel c.thread == s)
    | .dsp s => !(rs.any fun j => j.held.cores.contains s)
    | _ => false
  let gone := d.hub.units.sprouts.filter idle
  let d1 := { d with hub := { d.hub with units := { d.hub.units with
    sprouts := d.hub.units.sprouts.filter fun p => !idle p } } }
  let d2 := gone.foldl (fun e p =>
    match p.1, p.2.1 with
    | .easel _, .easel s =>
      let tile := d.rd (unitKey 0x440002 s) / 4
      let e1 := ((List.range 512).filter fun t => e.runEasel t == s).foldl (fun f t => f.wr (unitKey 0x400002 t) (t / 16)) e
      let e2 := if e1.rd (unitKey 0x601004 tile) = s then e1.wr (unitKey 0x601004 tile) 0xFF else e1
      (e2.wr (unitKey 0x440002 s) 0xFF).backToSpares (.easel s) (unitKey 0x440001 s) 1 (s - 32)
    | .dsp _, .dsp s => (e.wrs [(unitKey 0x580002 s, 0xFF), (unitKey 0x580004 s, 0), (unitKey 0x580005 s, 0),
        (unitKey 0x601005 (d.rd (unitKey 0x580002 s)), 0xFF)]).backToSpares (.dsp s) (unitKey 0x580001 s) 3 2
    | _, _ => e) d1
  if gone = [] then d2 else d2.refreshUnits

/-- An object returns to its reset value. -/
def Dev.unwr (d : Dev) (key : Nat) : Dev := d.wr key (resetOf key)

/-- The bindings of a canvas go: the objects that name a unit or none name none. What only the canvas used stays as it
last was. -/
def Dev.unbindCanvas (d : Dev) (p : CanvasPlace) : Dev :=
  let n := p.thread
  let q := p.qubit
  let keys := [unitKey 0x400001 n, unitKey 0x400040 n, unitKey 0x400045 n, unitKey 0x610007 q,
      unitKey 0x300001 q, unitKey 0x300002 q]
    ++ (match p.driveSlot with
      | some s => [objKey (0x3800 + s / 8) (0x10 + s % 8), unitKey 0x610008 q]
      | none => [])
    ++ (match p.readSlot with
      | some s => [rtoneKey s, unitKey 0x300040 q, unitKey 0x300003 q]
      | none => [])
    ++ ((List.range 16).map (unitKey 0x400030 n + ·)) ++ ((List.range 32).map (unitKey 0x4A0001 n + ·))
  let d1 := keys.foldl Dev.unwr d
  let d2 := p.flux.foldl (fun e c => ((e.unwr (unitKey 0x340006 c)).setIdle c (sext 16 (e.rd (unitKey 0x340002 c))))) d1
  let t := d2.thread n
  let kept : Ctx := { cpc := t.main.cpc, cursor := t.main.cursor, v := t.main.v, gens := t.main.gens }
  d2.setThread n { main := kept }

/-- A job leaves residence: its units are free; its flows stay for what it has still to deliver, and so do streaming
channels that owe units of its last shot (R341). Its flux channels
output IDLE_CODE (R225). -/
def Dev.release (d : Dev) (j : Job) : Dev :=
  let h := j.held
  let d1 := h.canvases.foldl Dev.unbindCanvas d
  let d2 := h.regions.foldl (fun e r => e.unwr (0x480101 + r.1)) d1
  let d3 := h.streams.foldl (fun e k =>
    ((List.range 10).foldl (fun f i => f.unwr (unitKey 0x488001 k + i)) e).setStream k {}) d2
  let d4 := h.defs.foldl (fun e g => (List.range 7).foldl (fun f i => f.unwr (unitKey 0x4C0001 g + i)) e) d3
  let owing := h.acq.filter fun c => d.acqState c == 3 && (d.acqSt c).legs.any (d.legOwes c)
  let d5 := (h.acq.filter fun c => !owing.contains c).foldl (fun e c => e.freeChannel j.seq c) d4
  let d6 := h.cores.foldl (fun e c =>
    let e1 := ([unitKey 0x580003 c, unitKey 0x580004 c, unitKey 0x580005 c, unitKey 0x580006 c, unitKey 0x580007 c,
      unitKey 0x58000A c, unitKey 0x58000F c]).foldl Dev.unwr e
    let k : DspCore := { mbox := (e.core c).mbox, mboxIn := (e.core c).mboxIn }
    if e1.rd (unitKey 0x580001 c) = 5 ∨ c = 16 then e1.setCore c k else (e1.wr (unitKey 0x580001 c) 0).setCore c k) d5
  let d7 := match h.trig with
    | some i => d6.unwr (unitKey 0x3A4006 i)
    | none => d6
  (d7.modJob j.seq fun k => { k with held := { flows := h.flows, acq := owing } }).returnSpares

end Sys2Proof.Machine
end

