-- ==== Sys2Proof/Machine/Results.lean ====
section
/-! DEFINITION. The result stream and the ledger's delivery (R594 to R600, R633 to R663): attempts, summaries, QRS
packets, acknowledgements, resends, and how a job leaves the ledger. -/

namespace Sys2Proof.Machine

/-! ### Attempts (R596, R633 to R637, R650, R653) -/

/-- A shot summary (R596). -/
def summaryBytes (seq : Nat) (a : Attempt) (records : Nat) : List Byte :=
  le 2 0x11 ++ le 1 (bitAt a.spoiled 0 + bitAt a.rerun 1 + bitAt a.cancelled 2) ++ le 1 a.attempt ++ le 4 records
    ++ le 8 seq ++ le 8 a.shot ++ le 8 a.start
    ++ (match a.wall with
      | some w => le 6 w.1 ++ le 4 w.2.1 ++ le 1 (1 + bitAt w.2.2 1)
      | none => le 6 0 ++ le 4 0 ++ le 1 0)
    ++ le 5 0

/-- The records of an attempt as they leave on its flows: each flow's records, then its summary (R596). -/
def Attempt.items (a : Attempt) (seq : Nat) : List QItem :=
  a.flows.flatMap fun f =>
    let rs := a.recs.filter fun r => r.flow == f
    (rs.map fun r => { flow := f, job := seq, shot := a.shot, bytes := padTo 8 r.bytes, summary := false })
      ++ [{ flow := f, job := seq, shot := a.shot, bytes := summaryBytes seq a rs.length, summary := true }]

/-- The flows of a job. -/
def Job.flows (j : Job) : List Nat := j.held.flows.map (·.1)

/-- The records of one shot carry its index (R406): a DSP record closed before the shot started takes it. -/
def stampRec (shot : Nat) (r : Rec) : Rec :=
  if ofLe (r.bytes.take 2) = 4 then { r with bytes := r.bytes.take 24 ++ le 8 shot ++ r.bytes.drop 32 } else r

/-- The attempt of the shot that has drained. -/
def Job.attempted (j : Job) (wall : Option (Nat × Nat × Bool)) : Attempt :=
  { shot := j.shot, attempt := j.attempt, start := j.shotStart, spoiled := j.spoiled, rerun := decide (1 < j.attempt),
    cancelled := false, wall := wall, recs := j.recs.map (stampRec j.shot), flows := j.flows, sentFlows := [], sentAt := none
    gens := j.shotGens }

/-- The readout results in a record (R284, R595). -/
def Rec.results (r : Rec) (shot : Nat) : List FitResult :=
  if ofLe (r.bytes.take 2) ≠ 0x10 then []
  else (List.range ((r.bytes.length - 24) / 16)).map fun k =>
    let b := (r.bytes.drop (24 + 16 * k)).take 16
    { shot := shot, qubit := ofLe ((b.drop 10).take 2), dtag := ofLe ((b.drop 9).take 1), i := sext 32 (ofLe (b.take 4)),
      q := sext 32 (ofLe ((b.drop 4).take 4)) }

/-- What an attempt adds to the results that the job's calibration parameters name (R450). -/
def Job.fitResults (j : Job) (a : Attempt) : List FitResult :=
  (a.recs.flatMap fun r => r.results a.shot).filter fun x =>
    j.content.calib.any fun c => c.qubit == x.qubit && c.dtags.contains x.dtag

/-- An attempt is final: it waits until the ledger holds it; the next index is the job's next one (R637, R650). -/
def Job.finish (j : Job) (a : Attempt) : Job :=
  { j with
    fit := j.fit.filter (fun x => decide (x.shot < a.shot)) ++ j.fitResults a
    queued := j.queued ++ [a], nextShot := a.shot + 1, attempt := 0, spoiledRuns := 0, discards := 0
    doneCount := j.doneCount + 1 }

/-- The present index of a cancelled or stopped job is delivered as a summary alone (R653, R662). -/
def Job.cancelSummary (j : Job) : Job :=
  let a : Attempt :=
    { shot := j.nextShot, attempt := j.attempt, start := if j.attempt = 0 then 0 else j.lastStart,
      spoiled := decide (0 < j.spoiledRuns), rerun := decide (1 < j.attempt), cancelled := true,
      wall := if j.attempt = 0 then none else j.lastWall, recs := [], flows := j.flows, sentFlows := [], sentAt := none }
  if j.flows = [] ∨ j.head.shots ≤ j.nextShot then j else { j with queued := j.queued ++ [a] }

/-- Whether a streaming channel of a job still owes units of an attempt (R341). -/
def Dev.streamOwed (d : Dev) (j : Job) (a : Attempt) : Bool :=
  j.held.acq.any fun c => d.acqState c == 3 && (d.acqSt c).legs.any fun l =>
    l.shot == a.shot && l.attempt == a.attempt && d.legOwes c l

/-- LEDGER_FINAL (R651, R652): the oldest final attempt is durable, and its records may leave. -/
def ledgerFinalOp (job : Nat) (d : Dev) : Dev :=
  match d.job job with
  | none => d
  | some j =>
    match j.queued with
    | [] => d
    | a :: rest =>
      if d.streamOwed j a then d
      else
        let d1 := d.modJob job fun k => { k with queued := rest, final := k.final ++ [a] }
        ({ d1 with hub := { d1.hub with qrs := d1.hub.qrs ++ a.items job } }).refreshHeld

/-! ### Packets (R594) -/

/-- The payload that a port carries: MTU − 112 bytes. -/
def Dev.payloadMax (d : Dev) (h : Nat) : Nat := d.rd (unitKey 0x280007 h) - 112

/-- The host port of a flow of a job; a record without a job, or of flow 9, takes the lowest port that is up. -/
def Dev.portOfFlow (d : Dev) (job flow : Nat) : Nat :=
  match (d.job job).bind fun j => j.held.flows.find? fun f => f.1 == flow with
  | some f => f.2.1
  | none => ((List.range 4).find? fun h => d.rd (unitKey 0x280001 h) == 3).getD 0

/-- Whether a port can send: up, and not held by PAUSE (R511). -/
def Dev.portSends (d : Dev) (h : Nat) : Bool := d.rd (unitKey 0x280001 h) == 3 && !d.ser.paused.contains h

/-- The records at the front of a flow that fit in one packet: one job's records of one shot; a record that is too long
alone is cut. Answers the payload, the records that ended in it, and what stays (fuel: the records). -/
def packFrom (limit : Nat) : Nat → Nat → Nat → List Byte → List QItem → List QItem → List Byte × List QItem × List QItem × Bool
  | 0, _, _, acc, done, l => (acc, done, l, false)
  | _, _, _, acc, done, [] => (acc, done, [], false)
  | fuel + 1, job, shot, acc, done, i :: l =>
    if i.job ≠ job ∨ i.shot ≠ shot then (acc, done, i :: l, false)
    else if acc.length + i.bytes.length ≤ limit then packFrom limit fuel job shot (acc ++ i.bytes) (done ++ [i]) l
    else if acc = [] then
      (i.bytes.take limit, done, { i with bytes := i.bytes.drop limit } :: l, true)
    else (acc, done, i :: l, false)

/-- The header and payload of a packet (R594). -/
def Packet.bytes (p : Packet) : List Byte :=
  le 2 0x5152 ++ le 1 1 ++ le 1 1 ++ le 1 p.flow ++ le 1 (bitAt p.cont 0 + bitAt p.resent 1) ++ le 2 p.payload.length
    ++ le 8 p.seq ++ le 8 p.job ++ le 8 p.first ++ le 8 p.last ++ le 8 p.epoch ++ le 1 p.port ++ le 3 0
    ++ le 4 (crc32 p.payload) ++ le 8 0 ++ p.payload

/-- The summaries of a packet have left on its flow (R598). -/
def Job.summarySent (j : Job) (flow shot now : Nat) : Job :=
  { j with final := j.final.map fun a =>
      if a.shot = shot then
        { a with sentFlows := if a.sentFlows.contains flow then a.sentFlows else a.sentFlows ++ [flow], sentAt := some now }
      else a }

/-- A packet goes out. -/
def Dev.putPacket (d : Dev) (p : Packet) : Dev := { d with hub := { d.hub with lastPkt := some p } }

/-- QRS_PACKET_SEND: a packet to resend goes first; else the next records of the flow. -/
def qrsPacketSendOp (flow : Nat) (d : Dev) : Dev :=
  match d.hub.resend.find? (·.flow == flow) with
  | some p =>
    let h := d.portOfFlow p.job flow
    if d.portSends h then
      let q := { p with resent := true, port := h, sentAt := d.epoch }
      let d1 := { d with hub := { d.hub with
        resend := d.hub.resend.eraseP (fun (x : Packet) => x.flow == flow), sent := d.hub.sent ++ [q] } }
      (d1.modJob p.job fun j => { j with final := j.final.map fun a =>
        if p.flow ≠ 9 ∧ a.shot = p.last ∧ a.sentAt.isSome then { a with sentAt := some d.epoch } else a }).putPacket q
    else d
  | none =>
    let mine := d.hub.qrs.filter (·.flow == flow)
    match mine with
    | [] => d
    | i :: _ =>
      let h := d.portOfFlow i.job flow
      let r := packFrom (d.payloadMax h) mine.length i.job i.shot [] [] mine
      if d.portSends h && decide (0 < d.payloadMax h) then
        let seq := tabGet 0 d.hub.pktSeq flow
        let p : Packet :=
          { flow := flow, cont := r.2.2.2, resent := false, seq := seq, job := i.job, first := i.shot, last := i.shot,
            epoch := d.epoch, port := h, payload := r.1, sentAt := d.epoch }
        let d1 := { d with hub := { d.hub with
          qrs := (d.hub.qrs.filter fun (x : QItem) => x.flow != flow) ++ r.2.2.1, pktSeq := tabSet 0 d.hub.pktSeq flow (seq + 1),
          sent := if i.job = 0 ∧ flow ≠ 9 then d.hub.sent else d.hub.sent ++ [p] } }
        let d2 := if r.2.1.any (·.summary) then d1.modJob i.job fun j => j.summarySent flow i.shot d.epoch else d1
        d2.putPacket p
      else d

/-! ### Resends (R599, R658) -/

/-- Packets that satisfy a test wait to be resent, in order. -/
def Dev.requeue (d : Dev) (p : Packet → Bool) : Dev :=
  { d with hub := { d.hub with resend := d.hub.resend ++ d.hub.sent.filter p, sent := d.hub.sent.filter (fun (x : Packet) => !p x) } }

/-- RESULT_RESEND: a job's shots from the first whose acknowledgement is overdue, or flow 9 (job none). -/
def resultResendOp (job : Option Nat) (d : Dev) : Dev :=
  let after := d.rd 0x18000B
  match job with
  | none =>
    match (d.hub.sent.filter (·.flow == 9)).find? fun p => decide (p.sentAt + after ≤ d.epoch) with
    | none => d
    | some p => d.requeue fun x => x.flow == 9 && decide (p.seq ≤ x.seq)
  | some seq =>
    match d.job seq with
    | none => d
    | some j =>
      let late : Attempt → Bool := fun a => a.sentFlows.length == a.flows.length && (match a.sentAt with
        | some t => decide (t + after ≤ d.epoch)
        | none => false)
      match j.final.find? late with
      | none => d
      | some a =>
        (d.requeue fun x => x.job == seq && x.flow != 9 && decide (a.shot ≤ x.last)).modJob seq fun k =>
          { k with final := k.final.map fun b =>
              if a.shot ≤ b.shot ∧ b.sentAt.isSome then { b with sentAt := some d.epoch } else b }

/-! ### Acknowledgements and leaving the ledger (R598, R661) -/

/-- A job's slot becomes free. -/
def Dev.leave (d : Dev) (seq : Nat) : Dev :=
  let d1 := { d with hub := { d.hub with
    jobs := d.hub.jobs.filter (·.seq != seq), sent := d.hub.sent.filter fun p => p.job != seq || p.flow == 9,
    resend := d.hub.resend.filter fun p => p.job != seq || p.flow == 9 } }
  (d1.wr 0x780002 d1.hub.jobs.length).refreshHeld

/-- A job that has ended or been cancelled leaves when nothing of it is unacknowledged (R661). -/
def Dev.leaveIfDone (d : Dev) (seq : Nat) : Dev :=
  match d.job seq with
  | none => d
  | some j =>
    if (j.st = .ended ∨ j.st = .cancelled) ∧ j.queued = [] ∧ j.final = [] ∧ j.tentative.isNone then d.leave seq else d

/-- Refused jobs leave when their placement report is acknowledged (R661). -/
def Dev.leaveRefused (d : Dev) : Dev :=
  (d.hub.jobs.filter (·.st == .refused)).foldl (fun e j =>
    if e.hub.qrs.any (fun i => i.flow == 9 && i.job == j.seq)
        || (e.hub.sent ++ e.hub.resend).any (fun p => p.flow == 9 && p.job == j.seq) then e else e.leave j.seq) d

/-- One pair of an acknowledgement (R597, R598). -/
def Dev.ackPair (d : Dev) (seq through : Nat) : Dev :=
  if seq = 0 then
    if tabGet 0 d.hub.pktSeq 9 ≤ through then d.hostFlag 0x180001 4
    else
      let stays : Packet → Bool := fun p => p.flow != 9 || decide (through < p.seq)
      ({ d with hub := { d.hub with
        sent := d.hub.sent.filter stays, resend := d.hub.resend.filter stays } }).leaveRefused
  else
    match d.job seq with
    | none => d
    | some j =>
      let old := match j.acked with
        | some a => decide (through ≤ a)
        | none => false
      if old then d
      else
        let covered := j.final.filter fun a => decide (a.shot ≤ through)
        let first := match j.acked with
          | some a => a + 1
          | none => 0
        if covered.length = through + 1 - first ∧ covered.all (fun a => a.flows.all a.sentFlows.contains) then
          let stays : Packet → Bool := fun p => p.job != seq || p.flow == 9 || decide (through < p.last)
          let d1 := d.modJob seq fun k =>
            { k with acked := some through, final := k.final.filter fun a => decide (through < a.shot) }
          (({ d1 with hub := { d1.hub with
            sent := d1.hub.sent.filter stays, resend := d1.hub.resend.filter stays } }).refreshHeld).leaveIfDone seq
        else d.hostFlag 0x180001 4

/-- A write to LEDGER_RELEASE of the JOB_SEQ of a STOPPED job frees its slot; any other is rejected (R661). -/
def ledgerReleaseOp (seq : Nat) (d : Dev) : Dev :=
  match d.job seq with
  | some j => if j.st = .stopped then d.leave seq else d.conflict
  | none => d.conflict

/-- A write to BB_RELEASE releases a frozen record, whose place is free again (R666). -/
def bbReleaseOp (no : Nat) (d : Dev) : Dev :=
  let hit : BBRec → Bool := fun r => r.no == no && r.frozen
  if d.hub.bb.any hit then
    ({ d with hub := { d.hub with bb := d.hub.bb.filter fun r => !hit r } }).bbObjects
  else d

/-! ### Meanings -/

/-- LEDGER_FINAL. -/
def execLedgerFinal (job : Nat) (s : State) : Host.Outcome State Fault Refusal := .next (s.onNow (ledgerFinalOp job))
/-- QRS_PACKET_SEND. -/
def execQrsPacketSend (flow : Nat) (s : State) : Host.Outcome State Fault Refusal :=
  .next (s.onNow (qrsPacketSendOp flow))
/-- RESULT_RESEND. -/
def execResultResend (job : Option Nat) (s : State) : Host.Outcome State Fault Refusal :=
  .next (s.onNow (resultResendOp job))
/-- A write to LEDGER_RELEASE. -/
def execLedgerRelease (seq : Nat) (s : State) : Host.Outcome State Fault Refusal := .next (s.onNow (ledgerReleaseOp seq))
/-- A write to BB_RELEASE. -/
def execBbRelease (no : Nat) (s : State) : Host.Outcome State Fault Refusal := .next (s.onNow (bbReleaseOp no))

end Sys2Proof.Machine
end

