-- ==== Sys2Proof/Machine/Retire.lean ====
section
/-! DEFINITION. How a job ends, how an attempt is discarded, and how a unit is retired (R428 to R434, R630 to R635, R660,
R662). -/

namespace Sys2Proof.Machine

/-! ### Units in reports and records (R439, R668) -/

/-- BUKIND and BUINDEX of a unit (R668). -/
def unitKind : UnitRef → Nat × Nat
  | .slice n s => (3, 52 * n + s)
  | .xyPort p => (4, p)
  | .rlTx n => (5, n)
  | .rlLine n => (5, n)
  | .flux c => (6, c)
  | .easel e => (7, e)
  | .dsp c => (8, c)
  | .link k => (9, k)
  | .host h => (10, h)
  | .spine s => (13, if s then 1 else 0)
  | .ddr c => (11, c)
  | .sram _ b => (12, b)

/-- Unit code of a unit (R439). -/
def unitReport : UnitRef → Nat
  | .slice n s => unitCode 6 (52 * n + s)
  | .xyPort p => unitCode 14 p
  | .rlTx n => unitCode 15 n
  | .rlLine n => unitCode 15 n
  | .flux c => unitCode 5 c
  | .easel e => unitCode 1 e
  | .dsp c => unitCode 2 c
  | .link k => unitCode 8 k
  | .host h => unitCode 7 h
  | .spine _ => noUnit
  | .ddr _ => noUnit
  | .sram t _ => unitCode 10 t

/-- The row of R630 whose criterion retires a unit. -/
def unitRow : UnitRef → Nat
  | .slice _ _ => 1
  | .xyPort _ => 2
  | .rlTx _ => 2
  | .rlLine _ => 1
  | .flux _ => 3
  | .easel _ => 4
  | .dsp _ => 5
  | .link _ => 6
  | .host _ => 7
  | .spine _ => 8
  | .ddr _ => 9
  | .sram _ _ => 10

/-- Whether the shots of a job use a unit (R420, R633). -/
def Dev.uses (d : Dev) (j : Job) : UnitRef → Bool
  | .xyPort p => j.held.xy.contains p
  | .rlTx n => j.held.rl.contains n
  | .rlLine n => j.held.rl.contains n
  | .flux c => j.held.flux.contains c
  | .easel e => j.held.canvases.any fun p => d.runEasel p.thread == e
  | .dsp c => j.held.cores.contains c
  | _ => false

/-- The resident jobs whose shots use a unit. -/
def Dev.users (d : Dev) (u : UnitRef) : List Job := d.resident.filter fun j => d.uses j u

/-! ### The end of a job (R590, R653, R662) -/

/-- A job takes a state in which it runs no more. A cancelled or stopped one delivers its present index as a summary,
unless the attempt that has just drained is final (R653, R662). -/
def Dev.endJob (d : Dev) (seq : Nat) (st : JobState) (cause : Nat) : Dev :=
  match d.job seq with
  | none => d
  | some j =>
    let j0 := if (st = .cancelled ∨ st = .stopped) ∧ ¬(j.phase = .drained ∧ j.shot < j.nextShot) then j.cancelSummary
      else j
    let j1 := { j0 with
      st := st, endCause := cause, nextStart := none, tentative := none, haltDue := false
      cancelDue := false, stopDue := false, ackWait := false }
    (d.modJob seq fun _ => j1).syncState

/-- A RETIRED entry (R440). -/
def retiredEntry (u : UnitRef) : List Byte := reportEntry 0x0B 0 (unitReport u) noUnit 0 0

/-- A job stops at a boundary (R429 to R431, R635, R662): its state, its units, and the report. -/
def Dev.stopJob (d : Dev) (seq : Nat) : Dev :=
  match d.job seq with
  | none => d
  | some j =>
    let es := (d.hub.units.retired.filter (d.uses j)).map retiredEntry
    ((d.endJob seq .stopped j.endCause).release j).report 3 j.slot seq j.nextShot 0 es

/-- A job is to stop at its next shot boundary; between shots it stops at once. -/
def Dev.stopAt (d : Dev) (seq cause : Nat) : Dev :=
  match d.job seq with
  | none => d
  | some j =>
    let d1 := d.modJob seq fun k => if k.stopDue then k else { k with stopDue := true, endCause := cause }
    match j.phase with
    | .waiting => d1.stopJob seq
    | .boundary => d1.stopJob seq
    | .shot => d1
    | .drained => d1

/-! ### Discards (R633 to R635) -/

/-- The attempt in progress of a job is discarded; a cause is a row of R630, or 0 for a reset or a repeated start. -/
def Dev.discard (d : Dev) (seq cause : Nat) : Dev :=
  match d.job seq with
  | none => d
  | some j =>
    if j.inShot && !j.discarded then
      let n := j.discards + 1
      let ts := (j.held.canvases.map (·.thread)).filter fun t => (d.thread t).active && !(d.thread t).ended
      let body := le 2 cause ++ ts.flatMap (le 2)
      let d1 := (d.modJob seq fun k => { k with discarded := true, discards := n }).flag 0x781001 1
      let d2 := (ts.foldl Dev.drainTrap d1).bbWrite 3 0 0 cause seq j.shot body
      if d.rd 0x780008 ≤ n then
        ((d2.modJob seq fun k => { k with stopDue := true, endCause := 5 }).flag 0x781001 2).bbWrite 3 0 0 cause seq j.shot
          body
      else d2
    else d

/-! ### What a retirement brings with it -/

/-- The tile that an easel serves: its own, or for a spare the tile of the easel it serves for (R441). -/
def Dev.tileOf (d : Dev) (e : Nat) : Nat := (if e < 32 then e else d.rd (unitKey 0x440002 e)) / 4

/-- The canvases of resident jobs that run on an easel. -/
def Dev.served (d : Dev) (e : Nat) : Nat :=
  (d.resident.map fun j => (j.held.canvases.filter fun p => d.runEasel p.thread == e).length).sum

/-- The retired easels whose work waits for a spare or for free threads, in order of retirement. -/
def Dev.dueEasels (d : Dev) : List Nat := d.hub.units.due.filterMap fun u => match u with
  | .easel e => some e
  | _ => none

/-- Whether a spare or enough free threads of its tile are left for a further retired easel, beside those that wait (R428,
R429). -/
def Dev.coverEasel (d : Dev) (e : Nat) : Bool :=
  let spares := popcount 2 (d.rd 0x600003)
  let moved := d.dueEasels.drop spares
  decide (d.dueEasels.length < spares) || decide (d.served e
    + ((moved.filter fun x => d.tileOf x == d.tileOf e).map d.served).sum ≤ (d.freeThreads (d.tileOf e)).length)

/-- A replacement waits for the shot boundaries of the jobs concerned (R432). -/
def Dev.addDue (d : Dev) (u : UnitRef) : Dev :=
  { d with hub := { d.hub with units := { d.hub.units with due := d.hub.units.due ++ [u] } } }

/-- No spare: the users stop at their next boundary and the device enters FAULTED (R429 to R431). -/
def Dev.noSpare (d : Dev) (us : List Job) : Dev :=
  (us.foldl (fun e (j : Job) => e.stopAt j.seq 4) (d.flag 0x600001 2)).enterFaulted

/-- An easel or a core of jobs is retired: a spare, free threads (R429), or neither. A spare that is retired is no
spare any more. -/
def Dev.retireServer (d : Dev) (u : UnitRef) : Dev :=
  let us := d.users u
  let d1 := us.foldl (fun e (j : Job) => e.discard j.seq (unitRow u)) d
  match u with
  | .easel e =>
    let d2 := d1.wr (unitKey 0x440001 e) 3
    let d3 := if 32 ≤ e then d2.wrBit 0x600003 (e - 32) false else d2
    if us = [] then d3
    else if d3.coverEasel e then d3.addDue u
    else d3.noSpare us
  | .dsp c =>
    let d2 := d1.wr (unitKey 0x580001 c) 5
    let d3 := if c = 16 then d2.wrBit 0x600003 2 false else d2
    let promised := d3.hub.units.due.any fun v => match v with
      | .dsp _ => true
      | _ => false
    if us = [] then d3 else if d3.bit 0x600003 2 && !promised then d3.addDue u else d3.noSpare us
  | _ => d1

/-- A port, line or channel without a spare is retired (R431). -/
def Dev.retireFixed (d : Dev) (u : UnitRef) : Dev :=
  let us := d.users u
  if us = [] then d else (us.foldl (fun e (j : Job) => e.discard j.seq (unitRow u)) d).noSpare us

/-- ROUTE0 to ROUTE63 are recomputed after a link was retired (R434): at once, or at the next boundary of a multi-chip
job. -/
def Dev.reroute (d : Dev) (k : Nat) : Dev :=
  if d.resident.any (fun j => j.head.multiChip) then d.addDue (.link k)
  else (d.setRoutes).flag 0x600001 1

/-- What a DDR4 channel held of unacknowledged results (R660). The first unsent shot it held, and every later one,
run again, from the generator values recorded for it (R181); a shot partly sent, or one of a job that runs no more, is
lost. -/
def Dev.loseResults (d : Dev) (c : Nat) : Dev :=
  d.hub.jobs.foldl (fun e (j : Job) =>
    let hit := j.final.filter fun a => Config.channelHolds c j.seq a.shot
    let unsent : Attempt → Bool := fun a => a.sentFlows == []
      && !((e.hub.sent ++ e.hub.resend).any fun p => p.job == j.seq && p.flow != 9 && p.last == a.shot)
    let again := if j.st.resident then hit.find? unsent else none
    let e1 : Dev := match again with
      | some a =>
        let e2 := e.modJob j.seq fun k => { k with
          final := k.final.filter (fun b => decide (b.shot < a.shot))
          queued := k.queued.filter (fun b => decide (b.shot < a.shot)), nextShot := a.shot, attempt := a.attempt
          contGens := a.gens }
        { e2 with hub := { e2.hub with qrs := e2.hub.qrs.filter fun (i : QItem) =>
            !(i.job == j.seq && i.flow != 9 && decide (a.shot ≤ i.shot)) } }
      | none => e
    let lost := hit.filter fun a => !(unsent a) || !j.st.resident
    match lost with
    | [] => e1
    | a :: l =>
      let last := l.foldl (fun m b => max m b.shot) a.shot
      let e2 : Dev := { e1 with hub := { e1.hub with qrs := e1.hub.qrs.filter fun i =>
        !(i.job == j.seq && i.flow != 9 && lost.any fun b => b.shot == i.shot) } }
      let e3 := e2.modJob j.seq fun k =>
        { k with
          final := k.final.map fun b =>
            if lost.any (fun x => x.shot == b.shot) then { b with sentFlows := b.flows, recs := [] } else b }
      ((e3.refreshHeld).flag 0x780003 1).bbWrite 0x0A 0 0 9 j.seq a.shot (le 8 j.seq ++ le 8 a.shot ++ le 8 last)) d

/-- The slice that takes the position of one that leaves for good (R246): a trimmed spare. DESIGN CHOICE (log entry 118):
when none is at hand, the slice under check, whose check ends, else one that waits for its next turn. -/
def LineRx.standIn (l : LineRx) (s : Nat) : Option Nat :=
  ((l.spares ++ l.checking.toList ++ l.bad.map (·.1)).filter (· != s)).head?

/-- A slice leaves the interleave for good (R246), and a spare holds its position. Answers whether a spare was left. -/
def Dev.retireSlice (d : Dev) (n s : Nat) : Dev × Bool :=
  let left := d.rd (unitKey 0x384025 n)
  let l := tabGet {} d.rx.lines n
  if left = 0 then (d, false)
  else
    let map := (List.range 48).map fun p => bits (d.rd (unitKey 0x384024 n)) (8 * p + 7) (8 * p)
    let used := map.contains s
    let new := if used then (l.standIn s).getD s else s
    let map2 := map.map fun x => if x = s then new else x
    let d1 := d.wrs [(unitKey 0x384025 n, left - 1),
      (unitKey 0x384024 n, (map2.zipIdx).foldl (fun a x => a + x.1 * 256 ^ x.2) 0)]
    let l2 := { l with
      spares := l.spares.filter fun x => x != s && x != new, bad := l.bad.filter fun b => b.1 != s && b.1 != new
      checking := if l.checking = some s ∨ l.checking = some new then none else l.checking }
    (({ d1 with rx := { d1.rx with lines := tabSet {} d1.rx.lines n l2 } }).flag (unitKey 0x384026 n) 2, true)

/-- A unit is retired: its own state and what follows for jobs, beside what every retirement does. -/
def Dev.retireEffect (d : Dev) : UnitRef → Dev
  | .slice n s =>
    let r := d.retireSlice n s
    if r.2 then
      (r.1.users (.rlLine n)).foldl (fun e (j : Job) => e.report 2 j.slot j.seq j.nextShot 0 [retiredEntry (.slice n s)]) r.1
    else d
  | .easel e => d.retireServer (.easel e)
  | .dsp c => d.retireServer (.dsp c)
  | .xyPort p => d.retireFixed (.xyPort p)
  | .rlTx n => d.retireFixed (.rlTx n)
  | .rlLine n => d.retireFixed (.rlLine n)
  | .flux c => d.retireFixed (.flux c)
  | .link k => ((d.dropLink k 5).flag (unitKey 0x24000A k) 5).reroute k
  | .host h => (d.wr (unitKey 0x280001 h) 4).flag (unitKey 0x28000A h) 2
  | .ddr c => d.loseResults c
  | .spine _ => d
  | .sram _ _ => d

/-- Every retirement is recorded (R632): the flag, event line 0x8F, the black-box record and the unit counts. -/
def Dev.recordRetired (d : Dev) (u : UnitRef) (row : Nat) : Dev :=
  let d1 := { d with hub := { d.hub with units := { d.hub.units with retired := d.hub.units.retired ++ [u] } } }
  let d2 := ((d1.flag 0x781001 0).produce 0x8F).bbWrite 1 (unitKind u).1 (unitKind u).2 row 0 0
    (Config.retireCounts row d.epoch)
  d2.refreshUnits

/-- A unit is retired under a row of R630 (R630, R632); a second retirement of it does nothing. A slice that finds no
spare retires its line as well (R246). A spine path only leaves service (R644). -/
def Dev.retireUnit (d : Dev) (u : UnitRef) (row : Nat) : Dev :=
  if d.isRetired u then d
  else
    match u with
    | .spine s =>
      let p := if s then d.lat.sec else d.lat.prim
      if p.out then d
      else if s then ({ d with lat := { d.lat with sec := { p with out := true, goodRun := 0 } } }).pathOut true
      else ({ d with lat := { d.lat with prim := { p with out := true, goodRun := 0 } } }).pathOut false
    | .slice n _ =>
      let d1 := ((d.recordRetired u row).retireEffect u)
      if d.rd (unitKey 0x384025 n) = 0 ∧ !d1.isRetired (.rlLine n) then
        (d1.recordRetired (.rlLine n) row).retireEffect (.rlLine n)
      else d1
    | _ => ((d.recordRetired u row).retireEffect u).refreshUnits

/-! ### Drain reports (R53, R82) -/

/-- A drain report reaches the root (R53): one entry for each chip of a job, and its chip joins MEMBERS (R72). -/
def Dev.takeDrain (d : Dev) (m : LatMsg) : Dev :=
  let keep := d.lat.drains.filter fun r => !(r.ljob == m.jobSeq && r.chip == m.src)
  let d1 := if d.lat.st = .root ∧ m.src ≠ d.chip then d.wr 0x201109 (Nat.lor (d.rd 0x201109) (2 ^ m.src)) else d
  { d1 with lat := { d1.lat with
      drains := keep ++ [{ ljob := m.jobSeq, chip := m.src, shot := m.shot, at_ := d.epoch }] } }

/-- A drain report goes to the root that the chip follows. -/
def Dev.sendDrain (d : Dev) (m : LatMsg) : Dev :=
  let m1 := { m with dst := d.rd 0x201102 }
  if m1.dst = d.chip then d.takeDrain m1 else d.sendMsg 1 m1

/-- The last drain report of each multi-chip job whose next start has not been received goes to the new root (R82). -/
def Dev.resendDrains (d : Dev) : Dev :=
  (d.resident.filter (·.head.multiChip)).foldl (fun e (j : Job) => match j.drainSent with
    | some m => e.sendDrain m
    | none => e) d

end Sys2Proof.Machine
end

