-- ==== Sys2Proof/Machine/Serial.lean ====
section
/-! DEFINITION. Serial lanes, host ports and Genzel links (chapter 13): cells sent and received, resending, training,
adaptation, test patterns, and the network answers of the ports. -/

namespace Sys2Proof.Machine

/-! ### Received control cells -/

/-- A lane beside its objects. -/
def Dev.lane (d : Dev) (n : Nat) : Lane := tabGet {} d.ser.lanes n

/-- Changes a lane. -/
def Dev.setLane (d : Dev) (n : Nat) (l : Lane) : Dev :=
  { d with ser := { d.ser with lanes := tabSet {} d.ser.lanes n l } }

/-- The instants of a list that lie less than a number of ticks back, and the present one. -/
def Dev.within (d : Dev) (ticks : Nat) (l : List Nat) : List Nat := (l.filter fun t => decide (d.epoch < t + ticks)) ++ [d.epoch]

/-- A cell of a link arrived with an error (R528, R533); its lanes saw it (R536), and it counts towards R546. -/
def Dev.cellErr (d : Dev) (k : Nat) : Dev :=
  let d1 := d.flag (unitKey 0x24000A k) 0
  (List.range 4).foldl (fun e l => e.setLane (4 * k + l) { e.lane (4 * k + l) with dirty := true })
    (d1.setLink k { d1.link k with bad := d1.within 750000 (d1.link k).bad })

/-- Of the cells to be sent again, those that are still held, with the data of their transfers. -/
def stillHeld (hs : List HeldCell) : Bool → List (Nat × CellBody) → List (Nat × CellBody)
  | _, [] => []
  | keep, (c, b) :: l =>
    match b with
    | .data _ => if keep then (c, b) :: stillHeld hs keep l else stillHeld hs keep l
    | _ => if hs.any fun h => h.cseq == c then (c, b) :: stillHeld hs true l else stillHeld hs false l

/-- Whether a body is a BULK_HEAD. -/
def CellBody.isHead : CellBody → Bool
  | .bulkHead _ _ _ _ => true
  | _ => false

/-- Whether a body is a BULK_TAIL. -/
def CellBody.isTail : CellBody → Bool
  | .bulkTail _ => true
  | _ => false

/-- The held cells from a BULK_HEAD on whose BULK_TAIL is not among them. -/
def openTransfer : List HeldCell → List HeldCell
  | [] => []
  | h :: l => if h.body.isHead && !l.any (·.body.isTail) then h :: l else openTransfer l

/-- What stays held when cells up to the one at a place are acknowledged (R530, R531): those after it, and before them those of a
transfer whose BULK_TAIL is still to be acknowledged, since a NAK may name its BULK_HEAD (R529; DEDUCED, log entry 148). -/
def stayHeld (hs : List HeldCell) (i : Nat) : List HeldCell :=
  ((openTransfer (hs.take (i + 1))).map fun h => { h with acked := true }) ++ hs.drop (i + 1)

/-- ACK_SEQ of a received cell frees the sender's held cells up to it (R530, R531). -/
def Dev.ackCells (d : Dev) (c : CellHdr) : Dev :=
  if c.ackValid then
    let l := d.link c.link
    match l.held.findIdx? fun h => h.cseq == c.ackSeq with
    | none => d
    | some i => d.setLink c.link { l with
        held := stayHeld l.held i, resent := stillHeld (stayHeld l.held i) true l.resent, expired := 0 }
  else d

/-- A control cell that is not resendable (R533): whether it stands, and the device after its reception. -/
def Dev.rxPlain (d : Dev) (c : CellHdr) : Dev × Bool :=
  if d.linkUp c.link then
    if c.good then (d.ackCells c, true) else (d.cellErr c.link, false)
  else (d, false)

/-- A resendable cell (R528): accepted only in CSEQ order; on the first discarded one after an accepted one, NAK. -/
def Dev.rxCell (d : Dev) (c : CellHdr) : Dev × Bool :=
  if d.linkUp c.link then
    let d1 := if c.good then d.ackCells c else d.cellErr c.link
    let l := d1.link c.link
    if c.good && c.cseq == l.rxExpect then
      (d1.setLink c.link { l with rxExpect := (l.rxExpect + 1) % 256, rxAny := true, nakRun := false }, true)
    else if l.nakRun then (d1, false)
    else (d1.setLink c.link { l with nakRun := true, nakOut := some l.rxExpect }, false)
  else (d, false)

/-- IDLE (R530): delivers its ACK_SEQ. -/
def idleOp (c : CellHdr) (d : Dev) : Dev := (d.rxPlain c).1

/-- Whether a body is a decision block. -/
def CellBody.isDecision : CellBody → Bool
  | .decision _ _ _ => true
  | _ => false

/-- The decision words of a body (R296). -/
def CellBody.words : CellBody → Nat
  | .decision _ w0 w1 => bitAt (w0.toNat.testBit 31) 0 + bitAt (w1.toNat.testBit 31) 0
  | _ => 0

/-- A held cell as it is sent again: a BULK_HEAD with the data cells that follow it (R529: the NAK of a transfer names its
BULK_HEAD). -/
def HeldCell.again (h : HeldCell) : List (Nat × CellBody) := (h.cseq, h.body) :: h.data.map fun b => (0, .data b)

/-- Held cells from a CSEQ onwards become ready again in order (R532); a resent decision word is late (R301). -/
def Dev.resendFrom (d : Dev) (k from_ : Nat) : Dev :=
  let l := d.link k
  match l.held.findIdx? fun h => h.cseq == from_ with
  | none => d
  | some i =>
    let out := l.held.drop i
    let late := (out.map (·.body.words)).sum
    let held := l.held.take i ++ out.map fun h => { h with at_ := d.epoch }
    let d1 := d.setLink k { l with
      held := held, resent := out.flatMap HeldCell.again, ahead := (l.waiting.filter (·.isDecision)).length }
    let d2 := d1.flag (unitKey 0x24000A k) 1
    if late = 0 then d2 else d2.flagN 0x24F101 0 late

/-- NAK (R532): resend from EXPECT. -/
def nakOp (c : CellHdr) (expected : Nat) (d : Dev) : Dev :=
  let p := d.rxPlain c
  if p.2 then p.1.resendFrom c.link expected else p.1

/-- RESEND_TIMEOUT ticks after its sending the oldest held cell is not acknowledged (R532). -/
def resendTimeoutOp (k : Nat) (d : Dev) : Dev :=
  match (d.link k).unacked with
  | [] => d
  | h :: _ =>
    if h.at_ + d.rd (unitKey 0x240008 k) ≤ d.epoch ∧ d.linkUp k then
      let d1 := d.flag (unitKey 0x24000A k) 2
      (d1.setLink k { d1.link k with expired := (d1.link k).expired + 1 }).resendFrom k h.cseq
    else d

/-- REFRESH (R538): measures EYE_MARGIN on each lane of the link. -/
def refreshOp (c : CellHdr) (vertical horizontal : Nat) (d : Dev) : Dev :=
  let p := d.rxPlain c
  if p.2 then
    p.1.wrs ((List.range 4).map fun l =>
      (unitKey 0x241003 (4 * c.link + l), vertical % 2 ^ 16 + 2 ^ 16 * (horizontal % 2 ^ 16)))
  else p.1

/-! ### Bulk transfers (R518, R522, R529, R568) -/

/-- BULK_HEAD: a transfer begins. -/
def bulkHeadOp (c : CellHdr) (dst cells addr : Nat) (d : Dev) : Dev :=
  let p := d.rxCell c
  if p.2 then
    p.1.setLink c.link { p.1.link c.link with
      bulk := some { head := c.cseq, dst := dst, addr := addr, cells := cells, data := [] } }
  else p.1

/-- A data cell of a transfer is stored; an errored one is discarded (R533), and a lane with an invalid sync header sets its
SYNC_ERR bit (R518). -/
def dataCellOp (k : Nat) (good : Bool) (invalid : List Nat) (bytes : List Byte) (d : Dev) : Dev :=
  if d.linkUp k then
    if good && invalid.isEmpty then
      match (d.link k).bulk with
      | some b =>
        if b.data.length < 32 * b.cells then
          d.setLink k { d.link k with bulk := some { b with data := b.data ++ (padTo 32 bytes).take 32 } }
        else d
      | none => d
    else (invalid.filter (· < 4)).dedup.foldl (fun e l => e.flag (unitKey 0x24000A k) (16 + l)) (d.cellErr k)
  else d

/-- BULK_TAIL: a transfer whose CRC matches is copied to DDR4, subject to R190, or sent on along ROUTE; one whose CRC
does not match is errored, and the NAK names its BULK_HEAD (R529). -/
def bulkTailOp (c : CellHdr) (crc : W32) (d : Dev) : Dev :=
  let l := d.link c.link
  match l.bulk with
  | none => (d.rxCell c).1
  | some b =>
    if d.linkUp c.link && c.good && c.cseq == l.rxExpect
        && (b.data.length != 32 * b.cells || crc32 b.data != crc.toNat) then
      let d1 := (d.ackCells c).cellErr c.link
      d1.setLink c.link { d1.link c.link with
        bulk := none, rxExpect := b.head, nakRun := true, nakOut := some b.head }
    else
      let p := d.rxCell c
      if p.2 then
        let d1 := p.1.setLink c.link { p.1.link c.link with bulk := none }
        if b.dst = d.chip then
          if d1.streamOverlap b.addr b.data.length then d1.conflict
          else { d1 with ddr := ddrWrite d1.ddr b.addr b.data }
        else d1.bulkSend b.dst b.addr b.data
      else p.1

/-! ### Training, retraining and retirement (R544 to R550) -/

/-- A peer signal appears on an enabled link, which leaves DOWN for TRAINING, or disappears from it (R544). -/
def peerSignalOp (k : Nat) (present : Bool) (d : Dev) : Dev :=
  let st := d.rd (unitKey 0x240001 k)
  if st = 5 then d
  else if present then
    if st = 0 ∧ d.rdB (unitKey 0x240002 k) then
      ((d.wr (unitKey 0x240001 k) 1).wrs ((List.range 4).map fun l => (unitKey 0x241001 (4 * k + l), 0))).refreshUnits
    else d
  else (d.dropLink k 0).refreshUnits

/-- TRAIN (R544): reports the peer's identity and readiness. -/
def trainOp (c : CellHdr) (latticeId chip peerLink : Nat) (ready : Bool) (d : Dev) : Dev :=
  if d.rd (unitKey 0x240001 c.link) = 1 then
    if c.good then
      (d.wrs [(unitKey 0x240003 c.link, chip % 64 + 64 * (peerLink % 16)),
        (unitKey 0x240004 c.link, latticeId % 2 ^ 32)]).setLink c.link { d.link c.link with ready := ready }
    else d.cellErr c.link
  else d

/-- TRAINING ends and the link enters LOCKING (R544). -/
def trainingCompleteOp (k : Nat) (d : Dev) : Dev :=
  if d.rd (unitKey 0x240001 k) = 1 ∧ (d.link k).ready then d.wr (unitKey 0x240001 k) 2 else d

/-- ALIGN (R525): lane order, polarity and skew; an ALIGN that breaks R524 is an errored cell. -/
def alignOp (k : Nat) (order : List Nat) (inverted : List Bool) (skew : Nat) (good : Bool) (d : Dev) : Dev :=
  let st := d.rd (unitKey 0x240001 k)
  if st = 2 ∨ st = 4 then
    if good then
      d.wrs [(unitKey 0x240005 k, (order.take 4).zipIdx.foldl (fun n p => n + (p.1 % 4) * 4 ^ p.2) 0),
        (unitKey 0x240006 k, (inverted.take 4).zipIdx.foldl (fun n p => n + (if p.1 then 2 ^ p.2 else 0)) 0),
        (unitKey 0x240007 k, min skew 264)]
    else d.cellErr k
  else d

/-- A step exceeds its limit or a check fails: the link returns to TRAINING, and retires when training fails 3 times in
a row (R545, R548). -/
def Dev.trainFailed (d : Dev) (k : Nat) : Dev :=
  let l := d.link k
  let d1 := (d.wr (unitKey 0x240001 k) 1).flag (unitKey 0x24000A k) 4
  let d2 := d1.setLink k { d1.link k with trainFails := l.trainFails + 1, ready := false }
  if 3 ≤ l.trainFails + 1 then d2.retireUnit (.link k) 6 else d2

/-- LOCKING ends (R526, R544): the link enters VERIFY, unless its lanes differ by more than 264 UI. -/
def lockCompleteOp (k skew : Nat) (d : Dev) : Dev :=
  if d.rd (unitKey 0x240001 k) = 2 then
    if skew ≤ 264 then d.wrs [(unitKey 0x240001 k, 3), (unitKey 0x240007 k, skew)] else d.trainFailed k
  else d

/-- VERIFY ends (R545, R548): at most 4 errors on every lane and the link goes UP; otherwise it is retired when this
followed a retraining, and else returns to TRAINING. -/
def verifyCompleteOp (k : Nat) (errs : List Nat) (d : Dev) : Dev :=
  if d.rd (unitKey 0x240001 k) = 3 then
    let d1 := d.wrs ((errs.take 4).zipIdx.map fun p => (unitKey 0x24100D (4 * k + p.2), min p.1 0xFFFFFFFF))
    if (errs.take 4).all (· ≤ 4) then
      let d2 := d1.wr (unitKey 0x240001 k) 4
      let l := d2.link k
      (d2.setLink k { l with
        trainFails := 0, retrained := false, rxExpect := 0, rxAny := false, nakRun := false, nakOut := none,
        txSeq := 0, held := [], waiting := [], bulk := none
        phase := Config.slotPhase k % 132, cells := 0, aligns := 0, refreshes := 0 }).refreshUnits
    else if (d.link k).retrained then d1.retireUnit (.link k) 6
    else d1.trainFailed k
  else d

/-- A training step exceeds its limit (R545). -/
def trainFailOp (k : Nat) (d : Dev) : Dev :=
  let st := d.rd (unitKey 0x240001 k)
  if st = 1 ∨ st = 2 ∨ st = 3 then d.trainFailed k else d

/-- An UP link retrains (R546): it passes through TRAINING, LOCKING and VERIFY; a spine path over it goes out of
service (R644). -/
def Dev.retrainLink (d : Dev) (k : Nat) : Dev :=
  if d.rd (unitKey 0x240001 k) = 4 then
    let d1 := ((d.dropLink k 1).wrs ((List.range 4).map fun l => (unitKey 0x241001 (4 * k + l), 0))).flag (unitKey 0x24000A k) 3
    ((List.range 4).foldl (fun e l => e.setLane (4 * k + l) { e.lane (4 * k + l) with restores := [] })
      (d1.setLink k { d1.link k with retrained := true, ready := false })).refreshUnits
  else d

/-- Whether what the commands brought meets a criterion of R546: 64 errored cells within 1 ms, 8 expiries of RESEND_TIMEOUT
in a row, 3 restores on one lane within 1 s. -/
def Dev.retrainDue (d : Dev) (k : Nat) : Bool :=
  d.linkUp k && (decide (64 ≤ (d.link k).bad.length ∨ 8 ≤ (d.link k).expired)
    || (List.range 4).any fun l => decide (3 ≤ (d.lane (4 * k + l)).restores.length))

/-- The links that retrain at the end of a tick. -/
def Dev.retrainTick (d : Dev) : Dev := ((List.range 12).filter d.retrainDue).foldl Dev.retrainLink d

/-- A port that loses its link re-adapts (R549, R550): it sets LINK_DOWN and ADAPTING; the flows of a host port move
under R433 on FLOW_MOVE. Port 4 is MGMT. -/
def portKey (port sub : Nat) : Nat := if port = 4 then objKey 0x2810 sub else objKey (0x2800 + port) sub

/-- LINK_DOWN. -/
def linkDownOp (port : Nat) (d : Dev) : Dev :=
  if port ≤ 4 ∧ (d.rd (portKey port 1) = 2 ∨ d.rd (portKey port 1) = 3) then
    let d1 := (d.wr (portKey port 1) 1).flag (portKey port 0x0A) 0
    (if port = 4 then d1 else d1.flag (portKey port 0x0A) 1).refreshUnits
  else d

/-- Whether a host port passes its verification (R549): no pre-FEC bit error ratio, a number of F32, above 2.4 × 10⁻⁴, and no
uncorrectable codeword. -/
def portPasses (bers : List W32) (uncorr : Bool) : Bool := !uncorr && bers.all fun b => decide (b.toNat ≤ 0x397BA882)

/-- What the verification of a host port found on its lanes: errors and pre-FEC bit error ratios (R551), and an uncorrectable
codeword. -/
def Dev.portFound (d : Dev) (port : Nat) (errs : List Nat) (bers : List W32) (uncorr : Bool) : Dev :=
  let d1 := d.wrs (((errs.take 4).zipIdx.map fun p => (objKey (0x2820 + 4 * port + p.2) 0x0D, min p.1 0xFFFFFFFF))
    ++ (bers.take 4).zipIdx.map fun p => (objKey (0x2820 + 4 * port + p.2) 0x0E, p.1.toNat))
  if uncorr then d1.flag (portKey port 0x0A) 3 else d1

/-- A host port ends its verification and goes UP or is retired; MGMT regains block lock, and held replies are sent
(R549, R593). -/
def linkUpOp (port : Nat) (errs : List Nat) (bers : List W32) (uncorr : Bool) (d : Dev) : Dev :=
  if port = 4 ∧ d.rd 0x281001 ≠ 1 ∧ d.rd 0x281001 ≠ 2 then d
  else if port = 4 then
    let d1 := d.wr 0x281001 3
    { d1 with qop := { d1.qop with last := (d1.qop.held.getLast?).orElse fun _ => d1.qop.last, held := [] } }
  else if port < 4 ∧ (d.rd (portKey port 1) = 1 ∨ d.rd (portKey port 1) = 2) then
    let d := d.portFound port errs bers uncorr
    if portPasses (bers.take 4) uncorr then ((d.wr (portKey port 1) 3).refreshUnits)
    else (d.wr (portKey port 1) 4).flag (portKey port 0x0A) 2 |>.retireUnit (.host port) 7
  else d

/-- A received PAUSE holds a host port whose PAUSE_RX is set (R512, R514). -/
def pauseOp (h : Nat) (d : Dev) : Dev :=
  if h < 4 ∧ d.rdB (portKey h 9) then
    ({ d with ser := { d.ser with paused := if d.ser.paused.contains h then d.ser.paused else h :: d.ser.paused } }
      ).flag (portKey h 0x0A) 5
  else d

/-- The pause time runs out (R514). -/
def pauseEndOp (h : Nat) (d : Dev) : Dev :=
  { d with ser := { d.ser with paused := d.ser.paused.filter (· != h) } }

/-- A frame that the port does not support is dropped (R513, R517). -/
def frameDropOp (port : Nat) (d : Dev) : Dev := if port ≤ 4 then d.flag (portKey port 0x0A) 4 else d

/-- Whether a port answers for a network layer: it is UP and has an address (R512, R516). -/
def Dev.portAnswers (d : Dev) (port : Nat) (v6 : Bool) : Bool :=
  decide (port ≤ 4) && d.rd (portKey port 1) == 3 && (if v6 then d.rdB (portKey port 6) else d.rdB (portKey port 5))

/-- An ICMP or ICMPv6 echo request is answered (R512). -/
def icmpEchoOp (port : Nat) (v6 : Bool) (d : Dev) : Dev :=
  if d.portAnswers port v6 then { d with ser := { d.ser with net := some (.echo port v6) } } else d

/-- An ARP or neighbour discovery message is answered with the port's address (R512). -/
def arpOp (port : Nat) (v6 : Bool) (d : Dev) : Dev :=
  if d.portAnswers port v6 then
    { d with ser := { d.ser with net := some (.neighbour port v6 (d.rd (portKey port 4) % 2 ^ 48)) } }
  else d

/-! ### Adaptation (R534 to R537) -/

/-- The objects of a lane, numbered 0 to 47 Genzel, 48 to 63 host, 64 MGMT. -/
def laneKey (lane sub : Nat) : Nat :=
  if lane < 48 then objKey (0x2410 + lane) sub
  else if lane < 64 then objKey (0x2820 + (lane - 48)) sub
  else objKey 0x2830 sub

/-- The flags object of a lane's link or port, and the lane's number in it. -/
def laneFlags (lane : Nat) : Nat × Nat :=
  if lane < 48 then (unitKey 0x24000A (lane / 4), lane % 4)
  else if lane < 64 then (unitKey 0x28000A ((lane - 48) / 4), (lane - 48) % 4)
  else (0x28100A, 0)

/-- A window of 4,096 symbols ends (R534, R535). -/
def densityWindowOp (lane transitions : Nat) (d : Dev) : Dev :=
  if lane ≤ 64 then
    let d1 := d.wr (laneKey lane 2) (min transitions 4095)
    let l := d.lane lane
    if d.rd (laneKey lane 1) = 1 then
      let good := if 768 ≤ transitions then l.goodWins + 1 else 0
      if 2 ≤ good then (d1.wr (laneKey lane 1) 0).setLane lane { l with goodWins := 0, dirty := true }
      else d1.setLane lane { l with goodWins := good, dirty := true }
    else if d.rd (laneKey lane 1) = 0 ∧ transitions < 512 then
      ((d1.wr (laneKey lane 1) 1).setLane lane { l with goodWins := 0, dirty := true }).flag
        (laneFlags lane).1 (8 + (laneFlags lane).2)
    else d1
  else d

/-- Every 1 ms a lane snapshots its adapted values, if the millisecond saw no freeze and no error (R536). -/
def adaptSnapshotOp (lane : Nat) (values : List Nat) (d : Dev) : Dev :=
  if lane ≤ 64 then
    let l := d.lane lane
    let dirty := l.dirty || d.rd (laneKey lane 1) == 1
    d.setLane lane { l with vals := values, snap := if dirty then l.snap else some values, dirty := false }
  else d

/-- Whether an adapted value has left the range of its snapshot plus or minus GUARD_RANGE ÷ 64 of its full range (R537). -/
def Dev.leftGuard (d : Dev) (lane : Nat) (snap values : List Nat) : Bool :=
  ((values.zip snap).zipIdx).any fun p =>
    decide (d.rd (laneKey lane 4) * Config.adaptSpan lane p.2 < 64 * (p.1.1 - p.1.2 + (p.1.2 - p.1.1)))

/-- An adapted value of a lane leaves its guard range: every one is restored from the snapshot (R537). -/
def restoredOp (lane : Nat) (values : List Nat) (d : Dev) : Dev :=
  if lane ≤ 64 then
    match (d.lane lane).snap with
    | some v =>
      if !d.leftGuard lane v values then d else
      (d.setLane lane { d.lane lane with vals := v, restores := d.within 750000000 (d.lane lane).restores }).flag (laneFlags lane).1 (12 + (laneFlags lane).2)
    | none => d
  else d

/-! ### Test patterns (R539 to R543) -/

/-- Whether the enable of a lane's link or port is clear (R540). -/
def Dev.laneDisabled (d : Dev) (lane : Nat) : Bool :=
  if lane < 48 then !d.rdB (unitKey 0x240002 (lane / 4))
  else if lane < 64 then !d.rdB (unitKey 0x280002 ((lane - 48) / 4))
  else !d.rdB 0x281002

/-- Whether PRBS_CMD = 1 is accepted (R540). -/
def Dev.prbsOk (d : Dev) (lane : Nat) : Bool :=
  d.laneDisabled lane && (d.state == .primed || d.state == .halted || d.state == .faulted)

/-- PRBS_CMD = 1 starts the generator and the checker. -/
def Dev.prbsStart (d : Dev) (lane : Nat) : Dev :=
  (d.wr (laneKey lane 8) 0).setLane lane { d.lane lane with
    prbs := true, gen := Config.prbsSeed lane, part := 0, syms := 0, tx := [], clean := 0, errs := 0 }

/-- PRBS_CMD = 2 stops them. -/
def Dev.prbsStop (d : Dev) (lane : Nat) : Dev := d.setLane lane { d.lane lane with prbs := false, tx := [] }

/-- PRBS_CMD = 3 clears the counts (R541). -/
def Dev.prbsClear (d : Dev) (lane : Nat) : Dev := d.wrs [(laneKey lane 9, 0), (laneKey lane 0x0A, 0)]

/-- INJECT_MODE 1 inverts one bit when it is written (R542). -/
def Dev.injectSingle (d : Dev) (lane : Nat) : Dev :=
  (d.wr (laneKey lane 0x0B) 1).setLane lane { d.lane lane with injected := (d.lane lane).injected + 1, flip := true }

/-- Whether GZ_CMD = 2 is accepted (R543). -/
def Dev.gzInjectOk (d : Dev) (k : Nat) : Bool := d.linkUp k && (d.state == .primed || d.state == .halted)

/-- GZ_CMD = 2 corrupts the next resendable cell (R543). -/
def Dev.gzInject (d : Dev) (k : Nat) : Dev := d.setLink k { d.link k with inject := true }

/-- PORT_CMD = 1 re-adapts a port that is enabled and not retired (R549). -/
def Dev.portReadapt (d : Dev) (h : Nat) : Dev :=
  if d.rd (portKey h 1) = 0 ∨ d.rd (portKey h 1) = 4 then d else ((d.wr (portKey h 1) 1).flag (portKey h 0x0A) 1).refreshUnits

/-- The pattern symbol that a generator sends (R539): its register, the number of symbols so far and PRBS_USER to the next
register and the symbol. -/
def prbsStep (sel user gen n : Nat) : Nat × Nat :=
  let lfsr : Nat → Nat → Nat × Nat := fun a b =>
    let bit := Nat.xor (bits gen (a - 1) (a - 1)) (bits gen (b - 1) (b - 1))
    ((2 * gen + bit) % 2 ^ a, Nat.xor (bits gen (a - 1) (a - 1)) (bitAt (Config.prbsInverted sel) 0))
  match sel with
  | 1 => lfsr 7 6
  | 2 => lfsr 9 5
  | 3 => lfsr 15 14
  | 4 => lfsr 23 18
  | 5 => lfsr 31 28
  | 6 => (gen, if n % 16 < 8 then 1 else 0)
  | 7 => (gen, bits user (n % 64) (n % 64))
  | _ => (gen, Config.pam4Symbol sel n % 4)

/-- A symbol leaves the generator (R539, R542): a single inversion that waits takes it, and INJECT_MODE 2 the last of every
2^INJECT_EXP symbols; of a PAM4 symbol the low bit is inverted. -/
def Lane.send (sel user mode exp : Nat) (l : Lane) : Lane :=
  let r := prbsStep sel user l.gen l.syms
  let hit := l.flip || (mode == 2 && (l.syms + 1) % 2 ^ exp == 0)
  { l with gen := r.1, syms := l.syms + 1, tx := l.tx ++ [if hit then Nat.xor r.2 1 else r.2], flip := false
           injected := if hit && !l.flip then l.injected + 1 else l.injected }

/-- The checker's state: locked, error-free symbols before the lock, the last 64 symbols since it, symbols checked, errors. -/
structure Checker where
  lock : Bool
  clean : Nat
  errs : Nat
  checked : Nat
  wrong : Nat

/-- The checker receives a symbol (R541). -/
def Checker.take (c : Checker) (err : Bool) : Checker :=
  if c.lock then
    let errs := (2 * c.errs + bitAt err 0) % 2 ^ 64
    { lock := decide ((onesOf 64 errs).length ≤ 32), clean := 0, errs := errs, checked := min (c.checked + 1) (2 ^ 64 - 1)
      wrong := min (c.wrong + bitAt err 0) (2 ^ 64 - 1) }
  else
    let clean := if err then 0 else c.clean + 1
    { c with lock := decide (64 ≤ clean), clean := clean, errs := 0 }

/-- Symbols of a lane in a tick, in twelfths (R509, R510): 28.125 GBd, 26.5625 GBd and 10.3125 GBd at 750 MHz. -/
def laneRate (lane : Nat) : Nat := if lane < 48 then 450 else if lane < 64 then 425 else 165

/-- The test pattern of a lane in a tick: what its generator sends and its checker counts. -/
def Dev.prbsLane (d : Dev) (lane : Nat) : Dev :=
  let l := d.lane lane
  let sel := d.rd (laneKey lane 5)
  if sel = 0 then d
  else
    let all := l.part + laneRate lane
    let l1 := (List.range (all / 12)).foldl (fun (x : Lane) _ =>
      x.send sel (d.rd (laneKey lane 6)) (d.rd (laneKey lane 0x0B)) (d.rd (laneKey lane 0x0C))) { l with tx := [], part := all % 12 }
    let c := (List.range (all / 12)).foldl (fun (x : Checker) i => x.take (Config.symbolError lane (l.syms + i)))
      { lock := d.rdB (laneKey lane 8), clean := l.clean, errs := l.errs, checked := d.rd (laneKey lane 9)
        wrong := d.rd (laneKey lane 0x0A) }
    (d.wrs [(laneKey lane 8, bitAt c.lock 0), (laneKey lane 9, c.checked), (laneKey lane 0x0A, c.wrong)]).setLane lane
      { l1 with clean := c.clean, errs := c.errs }

/-- The test patterns of a tick (R539 to R542). -/
def Dev.prbsTick (d : Dev) : Dev :=
  (d.ser.lanes.filter fun p => p.2.prbs).foldl (fun e p => e.prbsLane p.1) d

/-! ### Cell slots (R518 to R524, R530, R543) -/

/-- The payload of a beat ("The timing spine"). -/
def beatBytes (b : BeatMsg) : List Byte :=
  le 8 b.slot ++ le 4 b.term
    ++ le 4 (b.root % 64 + 2 ^ 6 * (b.rank % 8) + bitAt b.path 9 + bitAt b.release 10 + 2 ^ 11 * (b.hops % 32) + 2 ^ 16 * (b.lease % 2 ^ 16))
    ++ le 4 (b.accDelay % 2 ^ 24) ++ le 4 b.latticeId

/-- CTYPE and payload of a body (R296, R521, R522); a data cell has neither. -/
def CellBody.coded : CellBody → Nat × List Byte
  | .decision dest w0 w1 => (2, le 8 dest.toNat ++ le 8 w0.toNat ++ le 8 w1.toNat)
  | .event fire origin line path hops id =>
    (3, le 8 fire ++ le 12 (origin % 64 + 2 ^ 6 * (line % 8) + bitAt path 9 + 2 ^ 10 * (hops % 32)) ++ le 4 id)
  | .msg kind m =>
    (4, le 4 (kind % 2 ^ 8 + 2 ^ 8 * (m.src % 64) + 2 ^ 14 * (m.dst % 64) + 2 ^ 20 * (m.jobSlot % 2 ^ 10)) ++ le 4 m.shot
      ++ le 8 m.jobSeq ++ le 8 m.epoch)
  | .bulkHead dst src cells addr => (5, le 8 (dst % 64 + 2 ^ 6 * (src % 64) + 2 ^ 16 * (cells % 2 ^ 9)) ++ le 8 addr ++ le 8 0)
  | .bulkTail crc => (6, le 24 crc.toNat)
  | .data _ => (0, [])

/-- A control cell other than ALIGN (R520, R530): CSEQ, the payload, the acknowledgement and the CRC, one bit of which
INJECT corrupts (R543). -/
def Link.control (l : Link) (ctype cseq : Nat) (payload : List Byte) (corrupt : Bool) : List Byte :=
  let b := le 1 ctype ++ le 1 cseq ++ payload ++ le 1 ((l.rxExpect + 255) % 256) ++ le 1 (bitAt l.rxAny 0)
  b ++ le 4 (Nat.xor (crc32 b) (bitAt corrupt 0))

/-- One bit through the self-synchronous scrambler x⁵⁸ + x³⁹ + 1 (R519): the register and the bit sent. -/
def scramble (scr bit : Nat) : Nat × Nat :=
  let out := Nat.xor bit (Nat.xor (bits scr 38 38) (bits scr 57 57))
  ((2 * scr + out) % 2 ^ 58, out)

/-- The register after the bytes of a lane, bit 0 of the first byte first. -/
def scrambleBytes (scr : Nat) (l : List Byte) : Nat :=
  (List.range (8 * l.length)).foldl (fun s i => (scramble s (bits (ofLe l) i i)).1) scr

/-- n bytes of a lane whose scrambled bits alternate, 1 first (R538). -/
def alternating (scr n : Nat) : List Byte :=
  le n ((List.range (8 * n)).foldl (fun (a : Nat × Nat) i =>
    let bit := Nat.xor ((i + 1) % 2) (Nat.xor (bits a.1 38 38) (bits a.1 57 57))
    ((scramble a.1 bit).1, a.2 + bit * 2 ^ i)) (scr, 0)).2

/-- The payload of a REFRESH on a link (R538): on each lane the payload bytes of the cell, after what stands before them. -/
def Dev.refreshPayload (d : Dev) (k : Nat) : List Byte :=
  let scr : Nat → Nat := fun i => (d.lane (4 * k + i)).scr
  alternating (scrambleBytes (scr 0) (le 2 8)) 6 ++ alternating (scr 1) 8 ++ alternating (scr 2) 8 ++ alternating (scr 3) 2

/-- A cell as 32 bytes, before scrambling (R518, R520, R524). -/
def Dev.cellBytes (d : Dev) (k : Nat) : WireCell → List Byte
  | .beat b => (d.link k).control 1 0 (beatBytes b) false
  | .body _ (.data b) => b
  | .body cseq b => (d.link k).control b.coded.1 cseq b.coded.2 (d.link k).inject
  | .nak e => (d.link k).control 7 0 (le 24 (e % 256)) false
  | .align n => (List.range 4).flatMap fun l => le 1 10 ++ le 1 l ++ le 4 n ++ le 1 0x5A ++ le 1 0xA5
  | .refresh => (d.link k).control 8 0 (d.refreshPayload k) false
  | .train ready => (d.link k).control 9 0 (le 4 (d.rd 0x201002) ++ le 20 (d.chip % 64 + 2 ^ 6 * k + bitAt ready 10)) false
  | .idle => (d.link k).control 0 0 (le 24 0) false

/-- The first waiting body that a test names, if any, and what is left. -/
def takeFirst (p : CellBody → Bool) (l : List CellBody) : Option (CellBody × List CellBody) :=
  (l.find? p).map fun b => (b, l.eraseP p)

/-- A new resendable cell takes its slot: it gets its CSEQ and is held (R528, R531); with a BULK_HEAD its data. -/
def Link.sendNew (l : Link) (now : Nat) (b : CellBody) (rest : List CellBody) : WireCell × Link :=
  let data := match b with
    | .bulkHead _ _ n _ => (rest.filterMap fun x => match x with
      | .data y => some y
      | _ => none).take n
    | _ => []
  (.body l.txSeq b, { l with
    waiting := rest, held := l.held ++ [{ cseq := l.txSeq, body := b, at_ := now, data := data }], txSeq := (l.txSeq + 1) % 256
    ahead := if b.isDecision then l.ahead - 1 else l.ahead })

/-- Whether a body is a lattice event or message. -/
def CellBody.isLattice : CellBody → Bool
  | .event _ _ _ _ _ _ => true
  | .msg _ _ => true
  | _ => false

/-- Whether a body belongs to a bulk transfer. -/
def CellBody.isBulk (b : CellBody) : Bool := !b.isDecision && !b.isLattice

/-- A cell from `resent` takes its slot again (R532). -/
def Link.sendAgain (l : Link) (now cseq : Nat) (b : CellBody) (rest : List (Nat × CellBody)) : WireCell × Link :=
  (.body cseq b, { l with resent := rest, held := l.held.map fun h => if h.cseq = cseq ∧ h.body = b then { h with at_ := now } else h })

/-- What a link sends in a cell slot when no beat is ready: the first that is ready of the list of R524. With 128 cells held
no new resendable cell is ready (R531). -/
def Link.next (l : Link) (now : Nat) : WireCell × Link :=
  let room := decide (l.unacked.length < 128)
  let decision := if room then takeFirst (·.isDecision) l.waiting else none
  let lower : WireCell × Link :=
    match l.nakOut with
    | some e => (.nak e, { l with nakOut := none })
    | none =>
      if l.aligns < l.cells / 16384 then (.align l.aligns, { l with aligns := l.aligns + 1 })
      else if l.refreshes < l.cells / 65536 then (.refresh, { l with refreshes := l.refreshes + 1 })
      else match (if room then takeFirst (·.isLattice) l.waiting else none) with
        | some (b, rest) => l.sendNew now b rest
        | none =>
          match takeFirst (·.isBulk) l.waiting with
          | some (.data b, rest) => (.body 0 (.data b), { l with waiting := rest })
          | some (b, rest) => if room then l.sendNew now b rest else (.idle, l)
          | none => (.idle, l)
  match l.resent, decision with
  | [], some (b, rest) => l.sendNew now b rest
  | [], none => lower
  | (c, b) :: t, none => l.sendAgain now c b t
  | (c, b) :: t, some (x, rest) => if 0 < l.ahead then l.sendNew now x rest else l.sendAgain now c b t

/-- The cell that a link sends in its slot (R524, R544): in TRAINING a TRAIN cell, in LOCKING ALIGN when due, and no cell while
PRBS31 is sent. -/
def Dev.slotCell (d : Dev) (k : Nat) : Option (WireCell × Link) :=
  let l := d.link k
  match d.rd (unitKey 0x240001 k) with
  | 1 => (Config.trainSends k d.epoch).map fun ready => (.train ready, l)
  | 2 => if l.aligns < l.cells / 16384 then some (.align l.aligns, { l with aligns := l.aligns + 1 }) else some (.idle, l)
  | 4 => match l.beats with
    | b :: rest => some (.beat b, { l with beats := rest })
    | [] => some (l.next d.epoch)
  | _ => none

/-- A cell slot of a link (R524): the cell, its 32 bytes and the scramblers, which an ALIGN does not advance (R519). -/
def Dev.cellSlot (d : Dev) (k : Nat) : Dev :=
  let l := d.link k
  match d.slotCell k with
  | none => d.setLink k { l with wire := [] }
  | some r =>
  let bytes := d.cellBytes k r.1
  let resendable := match r.1 with
    | .body _ (.data _) => false
    | .body _ _ => true
    | _ => false
  let d1 := d.setLink k { r.2 with cells := l.cells + 1, wire := bytes, inject := l.inject && !resendable }
  match r.1 with
  | .align _ => d1
  | _ => (List.range 4).foldl (fun e i => e.setLane (4 * k + i) { e.lane (4 * k + i) with
      scr := scrambleBytes (e.lane (4 * k + i)).scr ((bytes.drop (8 * i)).take 8) }) d1

/-- The cell slots that begin in a tick: one of 66 bit times of a lane, of which 37.5 pass in a tick (R510, R518). -/
def Dev.cellTick (d : Dev) : Dev :=
  let sends : Nat → Bool := fun k => (d.rd (unitKey 0x240001 k)) ∈ [1, 2, 3, 4]
  ((List.range 12).filter sends).foldl (fun e k =>
    let l := e.link k
    if l.phase + 75 < 132 then e.setLink k { l with phase := l.phase + 75 }
    else (e.setLink k { l with phase := l.phase + 75 - 132 }).cellSlot k) d

/-! ### Meanings -/

/-- IDLE. -/
def execIdle (c : CellHdr) (s : State) : Host.Outcome State Fault Refusal := .next (s.onNow (idleOp c))
/-- BULK_HEAD. -/
def execBulkHead (c : CellHdr) (dst _src cells addr : Nat) (s : State) : Host.Outcome State Fault Refusal :=
  .next (s.onNow (bulkHeadOp c dst cells addr))
/-- DATA_CELL. -/
def execDataCell (k : Nat) (good : Bool) (invalid : List Nat) (bytes : List Byte) (s : State) :
    Host.Outcome State Fault Refusal := .next (s.onNow (dataCellOp k good invalid bytes))
/-- BULK_TAIL. -/
def execBulkTail (c : CellHdr) (crc : W32) (s : State) : Host.Outcome State Fault Refusal :=
  .next (s.onNow (bulkTailOp c crc))
/-- NAK. -/
def execNak (c : CellHdr) (expected : Nat) (s : State) : Host.Outcome State Fault Refusal :=
  .next (s.onNow (nakOp c expected))
/-- RESEND_TIMEOUT. -/
def execResendTimeout (k : Nat) (s : State) : Host.Outcome State Fault Refusal := .next (s.onNow (resendTimeoutOp k))
/-- REFRESH. -/
def execRefresh (c : CellHdr) (v h : Nat) (s : State) : Host.Outcome State Fault Refusal :=
  .next (s.onNow (refreshOp c v h))
/-- ALIGN. -/
def execAlign (k : Nat) (order : List Nat) (inverted : List Bool) (skew : Nat) (good : Bool) (s : State) :
    Host.Outcome State Fault Refusal := .next (s.onNow (alignOp k order inverted skew good))
/-- TRAIN. -/
def execTrain (c : CellHdr) (id chip peer : Nat) (ready : Bool) (s : State) : Host.Outcome State Fault Refusal :=
  .next (s.onNow (trainOp c id chip peer ready))
/-- TRAINING_COMPLETE. -/
def execTrainingComplete (k : Nat) (s : State) : Host.Outcome State Fault Refusal :=
  .next (s.onNow (trainingCompleteOp k))
/-- LOCK_COMPLETE. -/
def execLockComplete (k skew : Nat) (s : State) : Host.Outcome State Fault Refusal :=
  .next (s.onNow (lockCompleteOp k skew))
/-- VERIFY_COMPLETE. -/
def execVerifyComplete (k : Nat) (errs : List Nat) (s : State) : Host.Outcome State Fault Refusal :=
  .next (s.onNow (verifyCompleteOp k errs))
/-- TRAIN_FAIL. -/
def execTrainFail (k : Nat) (s : State) : Host.Outcome State Fault Refusal := .next (s.onNow (trainFailOp k))
/-- RETRAIN. -/
def execRetrain (k : Nat) (s : State) : Host.Outcome State Fault Refusal := .next (s.onNow (·.retrainLink k))
/-- DENSITY_WINDOW. -/
def execDensityWindow (lane n : Nat) (s : State) : Host.Outcome State Fault Refusal :=
  .next (s.onNow (densityWindowOp lane n))
/-- ADAPT_SNAPSHOT. -/
def execAdaptSnapshot (lane : Nat) (v : List Nat) (s : State) : Host.Outcome State Fault Refusal :=
  .next (s.onNow (adaptSnapshotOp lane v))
/-- RESTORED. -/
def execRestored (lane : Nat) (values : List Nat) (s : State) : Host.Outcome State Fault Refusal :=
  .next (s.onNow (restoredOp lane values))
/-- PAUSE. -/
def execPause (h : Nat) (s : State) : Host.Outcome State Fault Refusal := .next (s.onNow (pauseOp h))
/-- PAUSE_END. -/
def execPauseEnd (h : Nat) (s : State) : Host.Outcome State Fault Refusal := .next (s.onNow (pauseEndOp h))
/-- LINK_DOWN. -/
def execLinkDown (p : Nat) (s : State) : Host.Outcome State Fault Refusal := .next (s.onNow (linkDownOp p))
/-- LINK_UP. -/
def execLinkUp (p : Nat) (errs : List Nat) (bers : List W32) (uncorr : Bool) (s : State) :
    Host.Outcome State Fault Refusal := .next (s.onNow (linkUpOp p errs bers uncorr))
/-- PEER_SIGNAL. -/
def execPeerSignal (k : Nat) (present : Bool) (s : State) : Host.Outcome State Fault Refusal :=
  .next (s.onNow (peerSignalOp k present))
/-- FRAME_DROP. -/
def execFrameDrop (p : Nat) (s : State) : Host.Outcome State Fault Refusal := .next (s.onNow (frameDropOp p))
/-- ICMP_ECHO. -/
def execIcmpEcho (p : Nat) (v6 : Bool) (s : State) : Host.Outcome State Fault Refusal :=
  .next (s.onNow (icmpEchoOp p v6))
/-- ARP. -/
def execArp (p : Nat) (v6 : Bool) (s : State) : Host.Outcome State Fault Refusal := .next (s.onNow (arpOp p v6))

end Sys2Proof.Machine
end

