-- ==== Sys2Proof/Machine/Lattice.lean ====
section
/-! DEFINITION. Epoch time, the timing spine, the root lease, SYNC and wall-clock anchors (chapter 02). The messages
of multi-chip jobs are in Jobs.lean. -/

namespace Sys2Proof.Machine

/-! ### Reference, fabric clock and epoch (R41 to R57) -/

/-- REF_OFFSET in units of 0.01 ppm. -/
def Dev.refOffset (d : Dev) : Int := sext 16 (d.rd 0x200003 / 2 ^ 16)

/-- The fabric PLL locks: the epoch counter starts counting, and the ALONE or ROOT chip's clock follows REFCLK, which is
accepted within ±20 ppm (R42). -/
def pllLockOp (d : Dev) : Dev :=
  let d1 := if -2000 ≤ d.refOffset ∧ d.refOffset ≤ 2000 then d.wrBit 0x200003 0 true else d
  { d1.wrBit 0x200003 1 true with counting := true }

/-- The fabric PLL loses lock (R571, R689): the flag, and during PRIMING the device enters FAULTED. DESIGN CHOICE (log
entry 102): the epoch counter goes on counting, since R44 says only when it starts. -/
def pllUnlockOp (d : Dev) : Dev :=
  let d1 := (d.wrBit 0x200003 1 false).flag 0x200004 1
  if d.state = .priming then d1.enterFaulted else d1

/-- The reference is declared lost (R42); calibration routines that run cannot complete (R454). A root whose reference is
lost releases the token in its next beat (R79). DESIGN CHOICE (log entry 133): a member that is in HOLDOVER already marks its
shots SPOILED too, where R86 speaks of entering it. -/
def refLossOp (d : Dev) : Dev :=
  let d0 := (d.wrBit 0x200003 0 false).flag 0x200004 0
  let d1 : Dev := { d0 with cal := { d0.cal with runs := d0.cal.runs.map fun r => { r with lost := true } } }
  match d1.lat.st with
  | .root => { d1 with lat := { d1.lat with releaseDue := d1.lat.beating } }
  | .holdover => d1.spoilAll
  | _ => d1

/-- The reference is measured, its offset in units of 0.01 ppm (R42, R43): REF_OFFSET always reports it. Beyond ±50 ppm a
reference that was present is declared lost; one within ±20 ppm is accepted, and meets R42 again if it was lost.
REF_TOLERANCE is set and counted each time the offset of a present reference leaves ±20 ppm without a loss. -/
def refToleranceOp (offset : Int) (d : Dev) : Dev :=
  let old := d.rd 0x200003
  let d1 := d.wr 0x200003 (old % 2 ^ 16 + 2 ^ 16 * toU 16 offset)
  let out := decide (offset < -2000 ∨ 2000 < offset)
  let d2 := { d1 with lat := { d1.lat with refOut := out } }
  if offset < -5000 ∨ 5000 < offset then (if d.bit 0x200003 0 then refLossOp d2 else d2)
  else if !out then d2.wrBit 0x200003 0 true
  else if !d.lat.refOut && d.bit 0x200003 0 then d2.flag 0x200004 13
  else d2

/-- Whether a SYNC_IN edge may load the epoch (R47, R54, R55). -/
def Dev.syncLoadOk (d : Dev) : Bool :=
  (d.state == .cold || d.state == .priming || d.state == .primed) && (d.lat.st == .alone || d.lat.st == .root)

/-- A path whose instants have moved by a load of the epoch. -/
def PathSt.move (p : PathSt) (f : Nat → Nat) : PathSt :=
  { p with missTicks := p.missTicks.map f, got := p.got.map fun g => (g.1, g.2.1, g.2.2.1, f g.2.2.2) }

/-- A marker whose land steps have moved. -/
def Marker.move (m : Marker) (f : Nat → Nat) : Marker :=
  { changes := m.changes.map fun c => { c with step := f c.step }, moved := m.moved.map fun p => (f p.1, p.2)
    lastEdge := m.lastEdge.map f, idleAt := m.idleAt.map fun b => (f b.1, b.2)
    lastChange := m.lastChange.map fun c => (f c.1, c.2) }

/-- The epoch is loaded (R47): the present tick takes the new value. What was measured in ticks goes on unchanged, so the
instants that the device remembers or awaits move with the counter, the anchor of the wall clock among them (log entry
103). -/
def Dev.loadEpoch (d : Dev) (new : Nat) : Dev :=
  let d := d.wr 0x203004 (toU 64 (sext 64 (d.rd 0x203004) + new - d.epoch))
  let f : Nat → Nat := fun t => ((t : Int) + new - d.epoch).toNat
  let g : Nat → Nat := fun s => ((s : Int) + 128 * ((new : Int) - d.epoch)).toNat
  { d with
    epoch := new
    agg := { d.agg with
      queue := d.agg.queue.map fun q => { q with at_ := f q.at_ }
      lastFrame := d.agg.lastFrame.map f, traceAt := d.agg.traceAt.map f }
    ev := { causes := d.ev.causes.map fun c => { c with tick := f c.tick }
            lines := d.ev.lines.map fun p => (p.1, { p.2 with
              lastFire := p.2.lastFire.map f, prevFire := p.2.prevFire.map f, armTicks := p.2.armTicks.map fun a => (a.1, f a.2) }) }
    lat := { d.lat with
      prim := d.lat.prim.move f, sec := d.lat.sec.move f, beatSlot := none, lastSlot := d.lat.lastSlot
      syncOutEnd := f d.lat.syncOutEnd, syncLoads := d.lat.syncLoads.map f
      ptpTime := d.lat.ptpTime.map fun p => (p.1, p.2 + new - d.epoch) }
    ser := { d.ser with links := d.ser.links.map fun p => (p.1, { p.2 with
      held := p.2.held.map fun h => { h with at_ := f h.at_ }, blockAt := p.2.blockAt.map f
      decisions := p.2.decisions.map fun w => (f w.1, w.2), bad := p.2.bad.map f })
                        lanes := d.ser.lanes.map fun p => (p.1, { p.2 with restores := p.2.restores.map f }) }
    qop := { d.qop with loads := d.qop.loads.map fun (l : Load) => { l with used := f l.used } }
    hub := { d.hub with
      sent := d.hub.sent.map fun p => { p with sentAt := f p.sentAt }
      resend := d.hub.resend.map fun p => { p with sentAt := f p.sentAt }
      units := { d.hub.units with faults := d.hub.units.faults.map fun x => (x.1, x.2.1, f x.2.2) }
      jobs := d.hub.jobs.map fun j => { j with final := j.final.map fun a => { a with sentAt := a.sentAt.map f } } }
    out := { d.out with
      markers := d.out.markers.map fun p => (p.1, p.2.move g)
      flux := d.out.flux.map fun p => (p.1, { p.2 with
        switchEnd := p.2.switchEnd.map f, ramp := p.2.ramp.map fun r => (f r.1, r.2) })
      trigOut := d.out.trigOut.map fun p => (p.1, { p.2 with due := p.2.due.map f, until_ := f p.2.until_ })
      trigIn := d.out.trigIn.map fun p => (p.1, { p.2 with last := p.2.last.map f }) }
    cal := { d.cal with
      runs := d.cal.runs.map fun r => { r with at_ := f r.at_ }
      stage := d.cal.stage.map fun w => { w with at_ := f w.at_ }
      scan := d.cal.scan.map fun s => { s with at_ := f s.at_ }
      trigAt := d.cal.trigAt.map f, coincided := d.cal.coincided.map f, timerAt := f d.cal.timerAt
      conv := d.cal.conv.map f, lastGlaze := d.cal.lastGlaze.map f }
    pwr := { d.pwr with waking := d.pwr.waking.map f, pollDue := f d.pwr.pollDue } }

/-- A SYNC_IN edge is captured (R54, R55): in mode 1 it loads the epoch at the first alignment point at least 15 ticks
later, where it may. -/
def syncInOp (d : Dev) : Dev :=
  let d1 := d.wr 0x200106 d.epoch
  if d.rd 0x200101 = 1 then
    if d.syncLoadOk then { d1 with lat := { d1.lat with syncLoads := d1.lat.syncLoads ++ [alignUp (d.epoch + 15)] } }
    else d1.flag 0x200004 2
  else d1

/-- Whether SYNC_OUT goes high at the present epoch (R57). -/
def Dev.syncOutDue (d : Dev) : Bool :=
  let mode := d.rd 0x200103
  if mode = 1 then
    decide (d.rd 0x200105 ≤ d.epoch) && (d.epoch - d.rd 0x200105) % d.rd 0x200104 == 0
  else if mode = 2 then d.epoch % 750 == 0
  else false

/-- SYNC_OUT goes high for 8 ticks (R57). -/
def syncOutPulseOp (d : Dev) : Dev :=
  if d.syncOutDue then { d with lat := { d.lat with syncOutEnd := d.epoch + 8 } } else d

/-! ### Wall clock (R89 to R92) -/

/-- A new anchor: the present epoch and a wall time. -/
def Dev.anchor (d : Dev) (seconds nanos : Nat) : Dev :=
  let d1 := d.wrs [(0x203004, d.epoch), (0x203005, seconds % 2 ^ 48), (0x203006, nanos % 10 ^ 9)]
  { d1.wrBit 0x203003 2 false with lat := { d1.lat with anchored := true } }

/-- A PPS_IN edge is captured (R90): with WALL_SOURCE 2 PTP names the second, the nearest to its time at the edge; with
3 the host does. DESIGN CHOICE (log entry 104): after the edge that HOST_SECONDS names, each further edge counts the
second on by one; and WALL_STATUS bit 1 (1PPS present) stays, since nothing is said of its fall. -/
def ppsInOp (d : Dev) : Dev :=
  let d1 := (d.wrBit 0x203003 1 true).produce 0x98
  match d.rd 0x203001 with
  | 2 =>
    match d.lat.ptpTime with
    | some (ns, at_) => d1.anchor (divRound (3 * ns + 4 * ((d.epoch : Int) - at_)) (3 * 10 ^ 9)).toNat 0
    | none => d1
  | 3 =>
    match d.lat.ppsSecond with
    | some sec => ({ d1 with lat := { d1.lat with ppsSecond := some (sec + 1) } }).anchor sec 0
    | none => d1
  | _ => d1

/-- A PTP synchronisation (R89, R91) in the chip's domain, from the master selected: it gives the time, and with
WALL_SOURCE 1 it is an anchor. DESIGN CHOICE (log entry 104): a master once selected stays selected (WALL_STATUS bit 0). -/
def ptpSyncOp (domain seconds nanos : Nat) (rate : Int) (d : Dev) : Dev :=
  if domain = d.rd 0x203002 ∧ d.bit 0x203003 0 then
    let d1 := d.wr 0x203007 (toU 32 rate)
    let d2 := { d1 with lat := { d1.lat with ptpTime := some (10 ^ 9 * seconds + nanos, d.epoch) } }
    if d.rd 0x203001 = 1 then d2.anchor seconds nanos else d2
  else d

/-- A PTP announce message of the chip's domain selects the master and sets UTC_OFFSET (R89). -/
def ptpAnnounceOp (domain : Nat) (utcOffset : Int) (d : Dev) : Dev :=
  if domain = d.rd 0x203002 then (d.wrBit 0x203003 0 true).wr 0x203009 (toU 16 utcOffset) else d

/-! ### Joining (R65 to R72) -/

/-- The spine links that the chip itself names and that are not excluded, with their trees: false primary, true
secondary. -/
def Dev.spineLinks (d : Dev) : List (Nat × Bool) :=
  let p := d.rd 0x201003
  let s := d.rd 0x201004
  (if p < 12 ∧ !d.lat.excluded.contains p then [(p, false)] else [])
    ++ (if s < 12 ∧ !d.lat.excluded.contains s then [(s, true)] else [])

/-- The path of a tree. -/
def Lat.path (l : Lat) (sec : Bool) : PathSt := if sec then l.sec else l.prim

/-- Changes a path. -/
def Dev.setPath (d : Dev) (sec : Bool) (p : PathSt) : Dev :=
  { d with lat := if sec then { d.lat with sec := p } else { d.lat with prim := p } }

/-- DISCIPLINED, HOLDOVER and SLEWING of CLOCK_STATUS show the source of the clock (R41): the beats, holdover, or
neither. -/
def Dev.clockSource (d : Dev) (disciplined holdover : Bool) : Dev :=
  ((d.wrBit 0x200003 2 disciplined).wrBit 0x200003 3 holdover).wrBit 0x200003 4 false

/-- The chip holds the root token from now on (R65, R75): a root whose reference is already lost owes a RELEASE (R79). DESIGN
CHOICE (log entry 130): MEMBERS starts anew with the chip itself, the first that a new root hears. -/
def Dev.enterRoot (d : Dev) (rank : Nat) : Dev :=
  let d1 := (d.wrs [(0x201102, d.chip), (0x201109, 2 ^ d.chip)]).clockSource false false
  { d1 with lat := { d1.lat with
      st := .root, rank := rank, beating := true, releaseDue := !d1.bit 0x200003 0, releaseSlot := none
      resyncSlots := [], slew := none } }

/-- A join begins: LISTENING, with nothing measured and no root followed (R65, R88). DESIGN CHOICE (log entry 131): TERM, that
of the root followed, is 0 again, so that the first beat of the lattice is followed whatever its term. -/
def Dev.enterListening (d : Dev) : Dev :=
  let d1 := (d.clockSource false false).wr 0x201103 0
  { d1 with lat := { d1.lat with
      st := .listening, rank := 0xFF, beating := false, releaseDue := false, excluded := [], lastSlot := none
      prim := {}, sec := {}, releaseSlot := none, resyncSlots := [], slew := none } }

/-- A change of lattice configuration takes effect in PRIMED (R65). DESIGN CHOICE (log entry 105): an ISOLATED chip, too,
is ALONE when the change leaves it no spine link. -/
def Dev.latticeConfig (d : Dev) : Dev :=
  if d.rd 0x201005 = 0 then
    let d1 := d.enterRoot 0
    { d1 with lat := { d1.lat with excluded := [] } }
  else if d.rd 0x201003 < 12 ∨ d.rd 0x201004 < 12 then d.enterListening
  else
    let d1 := d.clockSource false false
    { d1 with lat := { d1.lat with st := .alone, beating := false, releaseDue := false, excluded := [] } }

/-- ONE_WAY of a link from its ROUND_TRIP and ASYMMETRY (R67). -/
def Dev.oneWay (d : Dev) (k : Nat) : Dev :=
  d.wr (unitKey 0x202003 k)
    (toU 32 (divRound ((d.rd (unitKey 0x202001 k) : Int) + sext 16 (d.rd (unitKey 0x202002 k))) 2))

/-- ROUND_TRIP and ONE_WAY of a measured link (R67). -/
def Dev.measureLink (d : Dev) (k rt : Nat) : Dev := (d.wr (unitKey 0x202001 k) (rt % 2 ^ 32)).oneWay k

/-- A committed ASYMMETRY acts on the ONE_WAY of a link that has been measured (R67). -/
def Dev.asymmetryChanged (d : Dev) (k : Nat) : Dev := if d.rd (unitKey 0x202001 k) = 0 then d else d.oneWay k

/-- Whether a link is a spine link of either tree. -/
def Dev.onSpine (d : Dev) (k : Nat) : Bool := d.inTree false k || d.inTree true k

/-- The paths on which the chip hears beats: those whose own link it names and has not excluded. -/
def Dev.paths (d : Dev) : List Bool := d.spineLinks.map (·.2)

/-- Marker steps from SLOT to the arrival of a beat: ACC_DELAY plus ONE_WAY of the receiving link (R63). -/
def Dev.beatDelay (d : Dev) (link : Nat) (b : BeatMsg) : Nat := b.accDelay + d.rd (unitKey 0x202003 link)

/-- Whether the beats of a path keep R59: at most 8 links and 1,500 ticks, of 128 marker steps each. -/
def PathSt.withinSpine (p : PathSt) : Bool :=
  decide (p.hops ≤ 8) && (p.got.map fun g => decide (g.2.2.1 ≤ 128 * 1500)).getD true

/-- SPINE_LATENCY: the larger of the measured latencies of the two paths. -/
def Dev.spineLatency (d : Dev) : Dev := d.wr 0x20110A (max d.lat.prim.latency d.lat.sec.latency)

/-- A path's latency follows its last beat, with the ONE_WAY of the link that brought it as it stands now. -/
def Dev.remeasure (d : Dev) (sec : Bool) : Dev :=
  let p := d.lat.path sec
  match p.got with
  | none => d
  | some (link, slot, acc, at_) =>
    let t := acc + d.rd (unitKey 0x202003 link)
    d.setPath sec { p with got := some (link, slot, t, at_), latency := t / 128 }

/-- The round-trip measurement ends (R66 to R69), once every spine link has been measured and 64 beats have been heard on
each path: links whose ASYMMETRY values do not sum to zero are excluded; a join whose spine would break R59 is refused;
otherwise the chip enters LOCKING and the beats discipline its clock. -/
def listeningCompleteOp (roundTrips : List (Nat × Nat)) (peerAsym : List (Nat × Int)) (d : Dev) : Dev :=
  let measured := ((List.range 12).all fun k => !d.onSpine k || roundTrips.any fun r => r.1 == k)
    && d.paths.all fun x => decide (64 ≤ (d.lat.path x).heard)
  if d.lat.st = .listening ∧ measured then
    let d1 := (roundTrips.filter fun r => d.onSpine r.1).foldl (fun e r => e.measureLink r.1 r.2) d
    let bad := (peerAsym.filter fun a =>
      d.onSpine a.1 && decide (a.2 + sext 16 (d.rd (unitKey 0x202002 a.1)) ≠ 0)).map (·.1)
    let d2 := bad.foldl (fun e k =>
      ({ e with lat := { e.lat with excluded := k :: e.lat.excluded } }).flag 0x200004 12) d1
    let d3 := d2.paths.foldl Dev.remeasure d2
    if d3.spineLinks = [] then d2
    else if d3.paths.all fun x => (d3.lat.path x).withinSpine then
      let d4 := d3.spineLatency.clockSource true false
      { d4 with lat := { d4.lat with st := .locking } }
    else d2.flag 0x200004 12
  else d

/-- The path that the chip uses (R63): the primary one while it delivers beats, else the secondary one. -/
def Dev.usedPath (d : Dev) : PathSt :=
  if d.lat.prim.got.isSome && d.rd 0x201105 == 0 && !d.lat.prim.out then d.lat.prim
  else if d.lat.sec.got.isSome then d.lat.sec
  else d.lat.prim

/-- Frequency lock (R66): the epoch is loaded from the last beat of the path in use, which arrived at its SLOT plus
ACC_DELAY plus ONE_WAY (R63); the chip enters ALIGNING. A load falls only in COLD, PRIMING or PRIMED (R47). -/
def lockingCompleteOp (d : Dev) : Dev :=
  if d.lat.st = .locking ∧ (d.state = .cold ∨ d.state = .priming ∨ d.state = .primed) then
    match d.usedPath.got with
    | none => d
    | some (_, slot, acc, at_) =>
      let d1 := d.loadEpoch (slot + acc / 128 + (d.epoch - at_))
      { d1 with counting := true, lat := { d1.lat with st := .aligning } }
  else d

/-- The phase offset is measured (R66): PHASE_OFFSET reports it, and within ±1 step the chip enters JOINED. -/
def aligningCompleteOp (offset : Int) (d : Dev) : Dev :=
  if d.lat.st = .aligning then
    let d1 := d.wr 0x201107 (toU 32 offset)
    if -1 ≤ offset ∧ offset ≤ 1 then { d1 with lat := { d1.lat with st := .joined } } else d1
  else d

/-! ### Beats (R59 to R64) -/

/-- The beat that a root sends at a slot on a tree (R60, R73, R79). -/
def Dev.makeBeat (d : Dev) (sec : Bool) : BeatMsg :=
  let rel := d.lat.releaseDue
  { slot := d.epoch, term := d.rd 0x201103, root := d.chip, rank := d.rd 0x201005 % 8, path := sec, release := rel,
    hops := 0, lease := if rel then 0 else 9000, accDelay := 0, latticeId := d.rd 0x201002 }

/-- At each beat slot a root sends one beat on every spine link of each tree, with its PATH (R60); one with RELEASE is its
last (R79). -/
def beatSendOp (d : Dev) : Dev :=
  if d.lat.st = .root ∧ d.lat.beating ∧ d.epoch % 750 = 0 ∧ d.lat.beatSlot ≠ some d.epoch then
    let l := d.lat
    let lease := if l.releaseDue then 0 else 9000
    let d0 := [false, true].foldl (fun e x => (d.treeLinks x).foldl (fun f k => f.sendBeat (d.makeBeat x) k) e) d
    let d1 := { d0 with lat := { l with
      sentBeats := [false, true].map fun x => (d.makeBeat x, d.treeLinks x)
      beatSlot := some d.epoch, lastSlot := some d.epoch
      leaseEnd := d.epoch + lease, beating := !l.releaseDue, releaseDue := false } }
    d1.wr 0x201104 lease
  else d

/-- A first copy is forwarded on the other spine links of its path (R61). The chip's own forwarding delay is not
stated: free, as a function of the link (log entry 11). -/
def Dev.forwardBeat (d : Dev) (link : Nat) (b : BeatMsg) : Dev :=
  let out := { b with hops := b.hops + 1, accDelay := d.beatDelay link b + Config.forwardDelay link }
  let links := (d.treeLinks b.path).filter (· != link)
  let d1 := links.foldl (fun e k => e.sendBeat out k) d
  { d1 with lat := { d1.lat with sentBeats := [(out, links)] } }

/-- The chip now follows the root of a beat. -/
def Dev.follow (d : Dev) (b : BeatMsg) : Dev :=
  let d1 := d.wrs [(0x201102, b.root), (0x201103, b.term)]
  { d1 with lat := { d1.lat with rank := b.rank } }

/-- The slot of the last beat of the present term or a higher one moves on, whether or not its root is followed: such a
beat holds a standby back (R75). -/
def Dev.noteSlot (d : Dev) (b : BeatMsg) : Dev :=
  if d.rd 0x201103 ≤ b.term then
    { d with lat := { d.lat with lastSlot := some (max b.slot (d.lat.lastSlot.getD 0)) } }
  else d

/-- A beat of the followed root on one of the chip's paths: the run of misses ends, the path may return (R645), its
latency is measured (R64), the lease follows. While the chip listens, ONE_WAY of the link is still to be measured and is left
out. DESIGN CHOICE (log entry 129): a latency in ticks leaves a fraction of a tick out. A member's MEMBERS holds only what the
root announces (R72); DESIGN CHOICE (log entry 130): no message announces it, so a member's map stays as it was. -/
def Dev.takeBeat (d : Dev) (link : Nat) (b : BeatMsg) : Dev :=
  let p := d.lat.path b.path
  let run := p.goodRun + 1
  let back := p.out && decide (750 ≤ run)
  let delay := if d.lat.st = .listening then b.accDelay else d.beatDelay link b
  let d1 := d.wrs [(if b.path then 0x201106 else 0x201105, 0), (0x201104, b.lease)]
  let d2 := (d1.setPath b.path { p with
    lastSlot := some b.slot, expect := b.slot + 750, goodRun := run, out := p.out && !back, latency := delay / 128
    hops := b.hops + 1, got := some (link, b.slot, delay, d.epoch)
    heard := if d.lat.st = .listening then p.heard + 1 else p.heard }).spineLatency
  let d3 := { d2 with lat := { d2.lat with
    leaseEnd := b.slot + b.lease, releaseSlot := if b.release then some b.slot else d2.lat.releaseSlot
    resyncSlots := if d2.lat.st = .resync ∧ !d2.lat.resyncSlots.contains b.slot then d2.lat.resyncSlots ++ [b.slot]
      else d2.lat.resyncSlots } }
  if back then (d3.flag 0x781001 4).pathState else d3

/-- Whether a beat outranks the root that the chip follows (R77, R78): a higher term, or the same term and a lower
rank. -/
def Dev.outranks (d : Dev) (b : BeatMsg) : Bool :=
  decide (d.rd 0x201103 < b.term) || (b.term == d.rd 0x201103 && decide (b.rank < d.lat.rank))

/-- RESYNC begins: nothing is measured yet, and no slew is in progress. -/
def Dev.enterResync (d : Dev) : Dev :=
  let d1 := d.clockSource true false
  let len := if d.lat.st = .holdover then d.epoch - d.lat.holdStart else d.rd 0x201108
  { d1.wr 0x201108 len with lat := { d1.lat with st := .resync, resyncSlots := [], slew := none, beating := false } }

/-- A chip that is joining follows the beats of the highest term and, between roots of that term, of the lower RANK
(R77). DESIGN CHOICE (log entry 131): it is no member yet, so a change of root leaves it on its way, without ROOT_CHANGED and
RESYNC. -/
def Dev.joinBeat (d : Dev) (link : Nat) (b : BeatMsg) : Dev :=
  if d.outranks b then (d.follow b).takeBeat link b
  else if b.term = d.rd 0x201103 ∧ b.rank = d.lat.rank then d.takeBeat link b else d

/-- A member in service or in holdover with a beat (R77): one that outranks its root takes it through RESYNC to the new
one; one of its root it takes as `same` says. -/
def Dev.memberBeat (d : Dev) (link : Nat) (b : BeatMsg) (same : Dev → Dev) : Dev :=
  if d.outranks b then ((d.flag 0x200004 7).follow b |>.enterResync).takeBeat link b
  else if b.term = d.rd 0x201103 ∧ b.rank = d.lat.rank then (same d).takeBeat link b else d

/-- What the chip itself does with a beat. -/
def Dev.useBeat (d : Dev) (link : Nat) (b : BeatMsg) : Dev :=
  match d.lat.st with
  | .root =>
    if d.outranks b then ((d.flag 0x200004 10).follow b |>.enterResync).takeBeat link b
    else d.wr 0x201109 (Nat.lor (d.rd 0x201109) (2 ^ b.root))
  | .alone => d
  | .isolated => d
  | .listening => d.joinBeat link b
  | .locking => d.joinBeat link b
  | .aligning => d.joinBeat link b
  | .joined => d.memberBeat link b id
  | .holdover => d.memberBeat link b Dev.enterResync
  | .resync => d.memberBeat link b id

/-- BEAT (R61 to R63, R68, R77, R78): nothing arrives on a link that is not UP; a beat of another lattice is discarded and
counted; none is used that comes on an excluded link; of each beat only the first copy is used and forwarded. -/
def beatOp (link : Nat) (b : BeatMsg) (d : Dev) : Dev :=
  if !d.linkUp link then d
  else if b.latticeId ≠ d.rd 0x201002 then d.bump (ctrKey 0xCF0 0x41) 1
  else if d.lat.excluded.contains link then d
  else
    let p := d.lat.path b.path
    if p.seen.contains (b.term, b.slot) then d
    else
      let d1 := d.setPath b.path { p with seen := p.seen ++ [(b.term, b.slot)] }
      ((d1.forwardBeat link b).noteSlot b).useBeat link b

/-- HOLDOVER begins with root loss declared (R74, R83, R86). -/
def Dev.rootLoss (d : Dev) : Dev :=
  let d1 := ((d.flag 0x200004 5).produce 0x9A).clockSource false true
  let d2 := { d1 with lat := { d1.lat with st := .holdover, holdStart := d.epoch, resyncSlots := [], slew := none } }
  if d2.bit 0x200003 0 then d2 else d2.spoilAll

/-- The epoch of the root as a path's beats give it: the chip's own once the join has loaded it, before that the time since
the path's last beat added to that beat's arrival (R63). -/
def Dev.rootEpoch (d : Dev) (p : PathSt) : Nat :=
  if d.lat.st = .listening ∨ d.lat.st = .locking then
    match p.got with
    | some (_, slot, acc, at_) => slot + acc / 128 + (d.epoch - at_)
    | none => 0
  else d.epoch

/-- Whether the chip expects beats: from the end of its measurements, whose latency the deadline of R64 needs. -/
def Dev.expectsBeats (d : Dev) : Bool :=
  d.lat.st == .locking || d.lat.st == .aligning || d.lat.st == .joined || d.lat.st == .resync || d.lat.st == .holdover

/-- A path's beat deadline passes with no beat (R64, R644, R74). The third in a row on both paths declares root loss. -/
def beatMissOp (secondary : Bool) (d : Dev) : Dev :=
  let p := d.lat.path secondary
  if d.expectsBeats && decide ((if secondary then d.rd 0x201004 else d.rd 0x201003) < 12)
      && decide (p.expect + p.latency + 75 ≤ d.rootEpoch p) then
    let key := if secondary then 0x201106 else 0x201105
    let other := d.rd (if secondary then 0x201105 else 0x201106)
    let otherUsed := decide ((if secondary then d.rd 0x201003 else d.rd 0x201004) < 12)
    let run := min (d.rd key + 1) 255
    let ticks := (p.missTicks.filter fun t => d.epoch < t + 750000) ++ [d.epoch]
    let d1 := (d.wr key run).flag 0x200004 (if secondary then 4 else 3)
    let goes := !p.out && decide (8 ≤ ticks.length) && otherUsed && other == 0
    let d2 := d1.setPath secondary { p with
      expect := p.expect + 750, goodRun := 0, missTicks := ticks, out := p.out || goes }
    let d3 := if goes then d2.pathOut secondary else d2
    if d3.lat.st ≠ .holdover ∧ 3 ≤ run ∧ (3 ≤ other ∨ !otherUsed) then d3.rootLoss else d3
  else d

/-! ### The root lease (R73 to R88) -/

/-- The epoch at which a standby of rank k takes the token (R75, R76, R79). -/
def takeoverAt (lat : Lat) (k : Nat) : Option Nat :=
  match lat.releaseSlot, lat.lastSlot with
  | some r, some s => if k = 1 ∧ s = r then some (r + 1500) else some (s + 9750 + (k - 1) * 2250)
  | _, some s => some (s + 9750 + (k - 1) * 2250)
  | _, none => none

/-- A standby assumes the root token (R75, R76, R79). DESIGN CHOICE (log entry 107): it may from JOINED, HOLDOVER or
RESYNC, and not while it is still joining. -/
def takeoverOp (d : Dev) : Dev :=
  let k := d.rd 0x201005
  let member := d.lat.st == .holdover || d.lat.st == .joined || d.lat.st == .resync
  match takeoverAt d.lat k with
  | some t =>
    if member && decide (1 ≤ k ∧ k ≤ 4) && decide (t ≤ d.epoch) then
      let d1 := ((d.wr 0x201103 ((d.rd 0x201103 + 1) % 2 ^ 32)).flag 0x200004 6).enterRoot k
      let d2 : Dev := { d1 with lat := { d1.lat with drains := [] } }
      d2.resendDrains
    else d
  | none => d

/-- Holdover reaches MAX_HOLDOVER (R85). -/
def holdoverLimitOp (d : Dev) : Dev :=
  if d.lat.st = .holdover ∧ d.lat.holdStart + d.rd 0x201007 ≤ d.epoch then
    let d1 := ((d.flag 0x200004 8).wr 0x201108 (d.epoch - d.lat.holdStart)).clockSource false false
    ({ d1 with lat := { d1.lat with st := .isolated } }).spoilAll
  else d

/-- Whether a slew of one marker step per 750 ticks has brought its offset within one step (R87). -/
def slewDone (slew : Option (Int × Nat)) (now : Nat) : Bool :=
  match slew with
  | none => true
  | some (o, t) => decide (o.natAbs ≤ (now - t) / 750 + 1)

/-- An offset is measured in RESYNC, over 4 beats or after a slew (R87): beyond 64 marker steps it is an epoch fault, within
±1 step the chip is JOINED again, and otherwise the clock slews. DESIGN CHOICE (log entry 22): a chip that is JOINED again
re-sends its last drain reports under an unchanged root too, of which R82 says nothing. -/
def resyncCompleteOp (offset : Int) (d : Dev) : Dev :=
  if d.lat.st = .resync ∧ 4 ≤ d.lat.resyncSlots.length ∧ slewDone d.lat.slew d.epoch then
    let d1 := d.wr 0x201107 (toU 32 offset)
    if offset < -64 ∨ 64 < offset then
      let d2 := (d1.flag 0x200004 9).clockSource false false
      { d2 with lat := { d2.lat with st := .isolated, slew := none } }
    else if -1 ≤ offset ∧ offset ≤ 1 then
      ({ d1.wrBit 0x200003 4 false with lat := { d1.lat with st := .joined, slew := none } }).resendDrains
    else { d1.wrBit 0x200003 4 true with lat := { d1.lat with slew := some (offset, d.epoch) } }
  else d

/-! ### Meanings -/

/-- PLL_LOCK. -/
def execPllLock (s : State) : Host.Outcome State Fault Refusal := .next (s.onNow pllLockOp)
/-- PLL_UNLOCK. -/
def execPllUnlock (s : State) : Host.Outcome State Fault Refusal := .next (s.onNow pllUnlockOp)
/-- REF_LOSS. -/
def execRefLoss (s : State) : Host.Outcome State Fault Refusal := .next (s.onNow refLossOp)
/-- REF_TOLERANCE. -/
def execRefTolerance (o : Int) (s : State) : Host.Outcome State Fault Refusal := .next (s.onNow (refToleranceOp o))
/-- SYNC_IN. -/
def execSyncIn (s : State) : Host.Outcome State Fault Refusal := .next (s.onNow syncInOp)
/-- SYNC_OUT_PULSE. -/
def execSyncOutPulse (s : State) : Host.Outcome State Fault Refusal := .next (s.onNow syncOutPulseOp)
/-- PPS_IN. -/
def execPpsIn (s : State) : Host.Outcome State Fault Refusal := .next (s.onNow ppsInOp)
/-- PTP_SYNC. -/
def execPtpSync (domain sec ns : Nat) (rate : Int) (s : State) : Host.Outcome State Fault Refusal :=
  .next (s.onNow (ptpSyncOp domain sec ns rate))
/-- PTP_ANNOUNCE. -/
def execPtpAnnounce (domain : Nat) (utc : Int) (s : State) : Host.Outcome State Fault Refusal :=
  .next (s.onNow (ptpAnnounceOp domain utc))
/-- LISTENING_COMPLETE. -/
def execListeningComplete (rts : List (Nat × Nat)) (asym : List (Nat × Int)) (s : State) :
    Host.Outcome State Fault Refusal := .next (s.onNow (listeningCompleteOp rts asym))
/-- LOCKING_COMPLETE. -/
def execLockingComplete (s : State) : Host.Outcome State Fault Refusal := .next (s.onNow lockingCompleteOp)
/-- ALIGNING_COMPLETE. -/
def execAligningComplete (offset : Int) (s : State) : Host.Outcome State Fault Refusal :=
  .next (s.onNow (aligningCompleteOp offset))
/-- BEAT_SEND. -/
def execBeatSend (s : State) : Host.Outcome State Fault Refusal := .next (s.onNow beatSendOp)
/-- BEAT. -/
def execBeat (link : Nat) (b : BeatMsg) (s : State) : Host.Outcome State Fault Refusal :=
  .next (s.onNow (beatOp link b))
/-- BEAT_MISS. -/
def execBeatMiss (sec : Bool) (s : State) : Host.Outcome State Fault Refusal := .next (s.onNow (beatMissOp sec))
/-- HOLDOVER_LIMIT. -/
def execHoldoverLimit (s : State) : Host.Outcome State Fault Refusal := .next (s.onNow holdoverLimitOp)

end Sys2Proof.Machine
end

