-- ==== Sys2Proof/Machine/Apply.lean ====
section
/-! DEFINITION. What a word does when it takes effect: the object takes its value, with the marks and changes that the
chapters give for it (R65, R224, R271 to R275, R544), and which resident job holds the unit of an object (R420, R578). -/

namespace Sys2Proof.Machine

/-- The readout tone slots of a line that are bound. -/
def Dev.boundSlots (d : Dev) (line : Nat) : List Nat := ((List.range 16).map (16 * line + ·)).filter d.slotBound

/-- FIR_TAPS of a slot: the larger of before a change, as `old` gives it, and now (R271). -/
def Dev.maxTaps (d old : Dev) (slot : Nat) : Nat := max (old.slotTaps slot) (d.slotTaps slot)

/-- A change of a line's chain marks its tones (R271); `extra` is the settling beyond the combined response. -/
def Dev.markLine (d old : Dev) (line extra : Nat) : Dev :=
  (d.boundSlots line).foldl (fun e s => e.markSlot s (32 * e.epoch) (e.maxTaps old s) extra) d

/-- A line beside its objects. -/
def Dev.lineRx (d : Dev) (n : Nat) : LineRx := tabGet {} d.rx.lines n

/-- Changes a line. -/
def Dev.setLine (d : Dev) (n : Nat) (l : LineRx) : Dev := { d with rx := { d.rx with lines := tabSet {} d.rx.lines n l } }

/-- A run at the raw tap: 256 ADC samples from the change point (R275). -/
def Dev.markRaw (d : Dev) (n : Nat) : Dev :=
  let l := d.lineRx n
  d.setLine n { l with rawRuns := l.rawRuns ++ [{ at_ := 16 * d.epoch, len := 256 }] }

/-- The zeros of a slot from a clear of RX_ENABLE in the tick on, or up to the end of the run that its set in the tick marks
(R255). -/
def Dev.darkSlot (d old : Dev) (on : Bool) (slot : Nat) : Dev :=
  let r := d.slotRx slot
  if on then
    let taps := d.maxTaps old slot
    let run := markedRuns (d.slotTaps slot) (32 * d.epoch) taps 8
    let ends := (run.2.at_ + run.2.len, run.1.at_ + run.1.len)
    d.setSlotRx slot { r with dark := r.dark.map fun x => (x.1, some (x.2.getD ends)) }
  else d.setSlotRx slot { r with dark := r.dark ++ [(32 * d.epoch, none)] }

/-- RX_ENABLE of a line takes a new value (R255, R271): samples are zero and invalid from the clear to the end of the run that
the following set marks. -/
def Dev.enableLine (d old : Dev) (n : Nat) (on : Bool) : Dev :=
  let d1 := ((List.range 16).map (16 * n + ·)).foldl (fun e s => e.darkSlot old on s) ((d.markLine old n 8).markRaw n)
  let l := d1.lineRx n
  let t := 16 * d.epoch
  d1.setLine n { l with dark := if on then l.dark.map fun x => (x.1, some (x.2.getD (t + 256))) else l.dark ++ [(t, none)] }

/-- A setting of a readout line has taken a new value (R271). -/
def Dev.lineChanged (d old : Dev) (n sub : Nat) : Dev :=
  match sub with
  | 0x20 => d.enableLine old n (d.rdB (unitKey 0x384020 n))
  | 0x21 => (d.markLine old n 8).markRaw n
  | 0x22 => (d.markLine old n 8).markRaw n
  | 0x23 => d.markLine old n 0
  | _ => d

/-- A setting of a qubit's chain has taken a new value (R271). -/
def Dev.chainChanged (d old : Dev) (q sub : Nat) : Dev :=
  let slot := d.rd (unitKey 0x300040 q)
  let marks := sub == 0x41 || sub == 0x42 || sub == 0x43 || (0x80 ≤ sub && sub ≤ 0xBF)
  if marks && decide (slot < 512) && d.slotBound slot then d.markSlot slot (32 * d.epoch) (d.maxTaps old slot) 0 else d

/-- Whether a thread of a job in ARMED, RUNNING or DRAINING holds a flux channel (R225). -/
def Dev.fluxHeld (d : Dev) (c : Nat) : Bool :=
  d.hub.jobs.any fun j => (j.st == .armed || j.st == .running || j.st == .draining) && j.held.flux.contains c

/-- A port is enabled or disabled (R512, R544, R549): the host ports 0 to 3 and MGMT, 4. -/
def Dev.portEnabled (d : Dev) (port : Nat) (on : Bool) : Dev :=
  let st := portKey port 1
  let lanes := if port = 4 then [laneKey 64 1] else (List.range 4).map fun l => laneKey (48 + 4 * port + l) 1
  if d.rd st = 4 then d
  else ((d.wr st (if on then 1 else 0)).wrs (lanes.map fun k => (k, if on then 0 else 2))).refreshUnits

/-- A word takes effect: the object takes its value, and a new value does what its chapter says; `before` is the device before the
words that take effect with it. -/
def Dev.applyWord (d before : Dev) (key v : Nat) : Dev :=
  let old := d.rd key
  let idx := key / 256
  let sub := key % 256
  let d1 := d.wr key v
  if old = v then d1
  else if 0x3840 ≤ idx ∧ idx ≤ 0x385F then d1.lineChanged before (idx - 0x3840) sub
  else if 0x3000 ≤ idx ∧ idx ≤ 0x31FF then d1.chainChanged before (idx - 0x3000) sub
  else if 0x3400 ≤ idx ∧ idx ≤ 0x36FF then
    let c := idx - 0x3400
    if sub = 1 then d1.setFlux c { d1.fluxSt c with switchEnd := some (d1.epoch + 1500) }
    else if sub = 2 ∧ !d1.fluxHeld c then d1.setIdle c (sext 16 v)
    else d1
  else if 0x2020 ≤ idx ∧ idx ≤ 0x202B ∧ sub = 2 then d1.asymmetryChanged (idx - 0x2020)
  else if 0x2400 ≤ idx ∧ idx ≤ 0x240B ∧ sub = 2 then
    if v = 0 ∧ d1.rd (objKey idx 1) ≠ 5 then (d1.dropLink (idx - 0x2400) 0).refreshUnits else d1
  else if 0x2800 ≤ idx ∧ idx ≤ 0x2803 ∧ sub = 2 then d1.portEnabled (idx - 0x2800) (v != 0)
  else if idx = 0x2810 ∧ sub = 2 then d1.portEnabled 4 (v != 0)
  else d1

/-- Whether a key is a FIR_TAPS. -/
def isTaps (key : Nat) : Bool := decide (0x3000 ≤ key / 256 ∧ key / 256 ≤ 0x31FF) && key % 256 == 0x42

/-- Words take effect together: the labels of the runs that they mark follow every new FIR_TAPS (R274), and a change of lattice
configuration is applied once (R65). -/
def Dev.applyWords (d : Dev) (l : List (Nat × Nat)) : Dev :=
  let d1 := ((l.filter fun w => isTaps w.1) ++ l.filter fun w => !isTaps w.1).foldl (fun e w => e.applyWord d w.1 w.2) d
  if l.any fun w => w.1 / 256 == 0x2010 && d.rd w.1 != w.2 then d1.latticeConfig else d1

/-- The resident job that holds the unit of an object (R420). -/
def Dev.holderOf (d : Dev) (key : Nat) : Option Job :=
  let idx := key / 256
  let r := d.resident
  if 0x3000 ≤ idx ∧ idx ≤ 0x31FF then r.find? fun j => j.held.canvases.any fun p => p.qubit == idx - 0x3000
  else if 0x3400 ≤ idx ∧ idx ≤ 0x36FF then r.find? fun j => j.held.flux.contains (idx - 0x3400)
  else if 0x6900 ≤ idx ∧ idx ≤ 0x6BFF then r.find? fun j => j.held.flux.contains (idx - 0x6900)
  else if 0x3800 ≤ idx ∧ idx ≤ 0x383F then r.find? fun j => j.held.xy.contains (idx - 0x3800)
  else if 0x6840 ≤ idx ∧ idx ≤ 0x687F then r.find? fun j => j.held.xy.contains (idx - 0x6840)
  else if 0x3840 ≤ idx ∧ idx ≤ 0x385F then r.find? fun j => j.held.rl.contains (idx - 0x3840)
  else if 0x6880 ≤ idx ∧ idx ≤ 0x689F then r.find? fun j => j.held.rl.contains (idx - 0x6880)
  else if 0x5100 ≤ idx ∧ idx ≤ 0x517F then r.find? fun j => j.held.acq.contains (idx - 0x5100)
  else if 0x5800 ≤ idx ∧ idx ≤ 0x5810 then r.find? fun j => j.held.cores.contains (idx - 0x5800)
  else if 0x3A40 ≤ idx ∧ idx ≤ 0x3A47 then r.find? fun j => j.held.trig == some (idx - 0x3A40)
  else if 0x4000 ≤ idx ∧ idx ≤ 0x41FF then r.find? fun j => j.held.canvases.any fun p => p.thread == idx - 0x4000
  else none

end Sys2Proof.Machine
end

