-- ==== Sys2Proof/Machine/Cal.lean ====
section
/-! DEFINITION. The calibration engine and the housekeeping converters (chapter 11): routines and their results, slices,
glaze and varnish, calibration records, scans and limits. -/

namespace Sys2Proof.Machine

/-! ### Records (R466) -/

/-- A calibration record: the latest one, and a record of flow 9. -/
def Dev.calRecord (d : Dev) (routine result ukind unit : Nat) (figure old new : Int) (job shot : Nat) : Dev :=
  let no := d.cal.calNo + 1
  let b := le 2 6 ++ le 1 routine ++ le 1 result ++ le 1 ukind ++ le 1 0 ++ le 2 unit ++ le 8 d.epoch ++ leI 4 figure
    ++ leI 4 old ++ leI 4 new ++ le 4 no ++ le 8 job ++ le 8 shot
  let d1 := (d.wr 0x68000B (ofLe b))
  { d1 with
    cal := { d1.cal with calNo := no }
    hub := { d1.hub with qrs := d1.hub.qrs ++ [{ flow := 9, job := job, shot := shot, bytes := b, summary := false }] } }

/-! ### Varnish (R461 to R465) -/

/-- The stage changes; CAL_PENDING follows it. -/
def Dev.setStage (d : Dev) (l : List CalWord) : Dev :=
  { d.wr 0x680009 l.length with cal := { d.cal with stage := l } }

/-- Staged words whose unit no resident job holds apply at once (R462, R463). -/
def Dev.flushStage (d : Dev) : Dev :=
  let free : CalWord → Bool := fun w => (d.holderOf w.key).isNone
  if d.cal.stage.any free then
    ((d.cal.stage.filter free).foldl (fun e (w : CalWord) => e.applyWord d w.key w.val) d).setStage
      (d.cal.stage.filter fun w => !free w)
  else d

/-- The first n words of a list that are due, and the others; both keep their order (R465). -/
def takeDue (due : CalWord → Bool) : Nat → List CalWord → List CalWord × List CalWord
  | _, [] => ([], [])
  | n, w :: l =>
    let r := takeDue due (if due w then n - 1 else n) l
    if due w ∧ 0 < n then (w :: r.1, r.2) else (r.1, w :: r.2)

/-- The calibration stage at the first tick of a boundary of a job (R462 to R465): at most 512 words, in the order of
staging; a word whose object the host's commit sets too gives way to it. -/
def Dev.applyStage (d : Dev) (seq : Nat) (host : List Nat) : Dev :=
  if d.rd 0x680004 = 1 then d
  else
    let due : CalWord → Bool := fun w => ((d.holderOf w.key).any fun j => j.seq == seq) && decide (w.at_ < d.epoch)
    let r := takeDue due 512 d.cal.stage
    (r.1.foldl (fun e (w : CalWord) =>
      if host.contains w.key then
        (e.flag 0x680003 3).calRecord w.routine 4 w.ukind w.unit w.figure w.old w.new 0 0
      else e.applyWord d w.key w.val) d).setStage r.2

/-- A unit is retired and the words that waited for jobs that it stopped apply. -/
def Dev.retireNow (d : Dev) (u : UnitRef) (row : Nat) : Dev := (d.retireUnit u row).flushStage

/-! ### Runs (R444, R445) -/

/-- CAL_BUSY follows the routines that run. -/
def Dev.calBusy (d : Dev) : Dev :=
  let rs := (d.cal.runs.map (·.routine)) ++ (if d.rx.lines.any fun p => p.2.checking.isSome then [1] else [])
  d.wr 0x680002 (rs.foldl (fun m r => Nat.lor m (2 ^ r)) 0)

/-- Whether a resident job holds a unit of a routine. -/
def Dev.calHeld (d : Dev) (ukind unit : Nat) : Bool := d.resident.any fun j => j.held.calUses ukind unit

/-- The units that a CAL_CMD names; 0xFFF names all. -/
def calUnits (ukind unit : Nat) : List Nat :=
  if unit = 0xFFF then
    List.range (match ukind with
      | 1 => 32
      | 2 => 8
      | 3 => 64
      | 4 => 32
      | 5 => 768
      | _ => 0)
  else [unit]

/-- The HK0 code of a temperature input. -/
def Dev.tempCode (d : Dev) (i : Nat) : Nat := bits (d.rd (unitKey 0x6D0001 i)) 11 0

/-- The tile's temperatures are those of this SKEW run. -/
def Dev.markTemps (d : Dev) (tile : Nat) : Dev :=
  { d with cal := { d.cal with
      temps := tabSet 0 (tabSet 0 d.cal.temps (2 * tile) (d.tempCode (2 * tile))) (2 * tile + 1) (d.tempCode (2 * tile + 1)) } }

/-- A run starts on one unit. -/
def Dev.startRun (d : Dev) (routine ukind unit : Nat) : Dev :=
  let r : CalRun := { routine := routine, ukind := ukind, unit := unit, at_ := d.epoch }
  let d1 : Dev := { d with cal := { d.cal with runs := d.cal.runs ++ [r] } }
  (if routine = 2 then d1.markTemps unit else d1).calBusy

/-- One routine starts on each of n units. -/
def Dev.startRuns (d : Dev) (routine ukind n : Nat) : Dev := (List.range n).foldl (fun e u => e.startRun routine ukind u) d

/-- A routine of PRIMING or of the wake sequence begins on every unit; 0 ends them. -/
def Dev.startPhase (d : Dev) (routine : Nat) : Dev :=
  let d1 := { d with cal := { d.cal with phase := routine } }
  match routine with
  | 1 => d1.startRuns 1 1 32
  | 2 => d1.startRuns 2 2 8
  | 3 => (d1.startRuns 3 3 64).startRuns 3 4 32
  | 4 => d1.startRuns 4 5 768
  | _ => d1

/-- The routines of PRIMING and of the wake sequence run in the order SLICE, SKEW, LEVEL, and in PRIMING FLUX_OFS; each begins
when the one before it has ended on every unit (R448, R695). -/
def Dev.nextRuns (d : Dev) (routine : Nat) : Dev :=
  if d.cal.phase ≠ routine ∨ d.cal.runs.any (fun r => r.routine == routine) then d
  else d.startPhase (if routine < 3 ∨ routine = 3 ∧ d.state = .priming then routine + 1 else 0)

/-- CAL_CMD (R445): rejected for a routine already running on the unit, and for one that plays a probe also in a state
other than PRIMED and HALTED or on a unit that a resident job holds. -/
def Dev.calStart (d : Dev) (routine ukind unit : Nat) : Option Dev :=
  let us := calUnits ukind unit
  let running := d.cal.runs.any fun r => r.routine == routine && r.ukind == ukind && us.contains r.unit
  let probe := routine == 3 || routine == 4 || routine == 5
  let barred := probe && (!(d.state == .primed || d.state == .halted) || us.any (d.calHeld ukind))
  if running || barred then none else some (us.foldl (fun e u => e.startRun routine ukind u) d)

/-- A CAL_CMD that is rejected changes nothing and is counted (R21, R629). -/
def Dev.calCmd (d : Dev) (routine ukind unit : Nat) : Dev := (d.calStart routine ukind unit).getD d.conflict

/-- SKEW_AUTO (R444): a tile sensor has moved SKEW_DT since the last run. -/
def skewAutoOp (tile : Nat) (d : Dev) : Dev :=
  let moved : Nat → Bool := fun i =>
    let a := d.tempCode i
    let b := tabGet 0 d.cal.temps i
    decide (d.rd 0x68000A ≤ a - b + (b - a))
  if d.state = .cold ∨ d.state = .asleep ∨ (d.cal.runs.any fun r => r.routine == 2 && r.unit == tile) then d
  else if moved (2 * tile) || moved (2 * tile + 1) then d.startRun 2 2 tile
  else d

/-! ### Plausibility (R451 to R453) -/

/-- Index of a unit in the tables of R451 and R453. -/
def calIndex (routine ukind unit : Nat) : Nat := routine * 2 ^ 20 + ukind * 2 ^ 16 + unit

/-- Whether a value lies in a band and, unless it is the unit's first result, near the present value. -/
def plausible (first : Bool) (band change present v : Int) : Bool :=
  decide (-band ≤ v ∧ v ≤ band) && (first || decide (-change ≤ v - present ∧ v - present ≤ change))

/-- A unit has had a result. -/
def Dev.markSeen (d : Dev) (i : Nat) (good : Bool) : Dev :=
  { d with cal := { d.cal with
      seen := tabSet 0 d.cal.seen i 1, bad := tabSet 0 d.cal.bad i (if good then 0 else tabGet 0 d.cal.bad i + 1) } }

/-- An implausible result is counted; the third in a row is CAL_STUCK. Answers whether it is. -/
def Dev.implausible (d : Dev) (i : Nat) : Dev × Bool :=
  let d1 := (d.flag 0x680003 0).markSeen i false
  if 3 ≤ tabGet 0 d1.cal.bad i then
    ({ d1 with cal := { d1.cal with bad := tabSet 0 d1.cal.bad i 0 } }.flag 0x680003 1, true)
  else (d1, false)

/-- The SKEW_TRIM objects of a tile: XY ports, readout transmit ports, flux DACs, markers. -/
def skewKeys (k : Nat) : List Nat :=
  ((List.range 8).map fun i => unitKey 0x684001 (8 * k + i)) ++ ((List.range 4).map fun i => unitKey 0x688001 (4 * k + i))
    ++ ((List.range 96).map fun i => unitKey 0x690006 (96 * k + i)) ++ ((List.range 8).map fun i => unitKey 0x68A001 (8 * k + i))

/-- The SKEW_RESID objects of a tile. -/
def residKeys (k : Nat) : List Nat :=
  ((List.range 8).map fun i => unitKey 0x684005 (8 * k + i)) ++ ((List.range 4).map fun i => unitKey 0x688005 (4 * k + i))
    ++ ((List.range 8).map fun i => unitKey 0x68A005 (8 * k + i))

/-- First object of the trims of a port under LEVEL. -/
def levelBase (ukind unit : Nat) : Nat := if ukind = 3 then unitKey 0x684000 unit else unitKey 0x688000 unit

/-- An object read as a 16-bit number. -/
def Dev.rd16 (d : Dev) (key : Nat) : Int := sext 16 (d.rd key)

/-- Whether a value of a result passes R451; an object that the routine does not set passes and is ignored. -/
def Dev.calOk (d : Dev) (routine ukind unit : Nat) (v : Nat × Int) : Bool :=
  let first := tabGet 0 d.cal.seen (calIndex routine ukind unit) = 0
  match routine with
  | 2 => if (skewKeys unit).contains v.1 then plausible first 115 16 (d.rd16 v.1) v.2 else true
  | 3 =>
    if v.1 = levelBase ukind unit + 2 then plausible first 450 50 (d.rd16 v.1) v.2
    else if v.1 = levelBase ukind unit + 4 then plausible first 450 50 (d.rd16 (levelBase ukind unit + 3)) v.2
    else true
  | 4 => if v.1 = unitKey 0x690001 unit then plausible first 2048 256 (d.rd16 v.1) v.2 else true
  | 5 => if v.1 = unitKey 0x681003 unit then decide (576 ≤ v.2 ∧ v.2 ≤ 262143) else true
  | _ => true

/-! ### Flux offset targets (R458) -/

/-- num ÷ den rounded to nearest, halves away from zero. -/
def roundAway (num : Int) (den : Nat) : Int := if 0 ≤ num then divRound num den else -(divRound (-num) den)

/-- FO_TARGET of a channel at a temperature code. -/
def Dev.foTarget (d : Dev) (c t : Nat) : Dev :=
  let dt : Int := (t : Int) - d.rd (unitKey 0x690003 c)
  d.wr (unitKey 0x690005 c) (toU 16 (satI 16 (d.rd16 (unitKey 0x690001 c)
    + roundAway (sext 32 (d.rd (unitKey 0x690002 c)) * dt) (2 ^ 16))))

/-- The targets of the channels that follow an HK0 input (R458). -/
def Dev.foTargets (d : Dev) (i : Nat) : Dev :=
  (List.range 768).foldl (fun e c => if e.rd (unitKey 0x690004 c) = i then e.foTarget c (e.tempCode i) else e) d

/-! ### Slices (R243 to R246, R442, R447) -/

/-- A trim of a slice: 0 OFFSET, 1 GAIN, 2 SKEW. -/
def Dev.sliceTrim (d : Dev) (n s f : Nat) : Int := sext 10 (bits (d.rd (unitKey 0x681001 n)) (32 * s + 10 * f + 9) (32 * s + 10 * f))

/-- The trims of a slice change. -/
def Dev.setSliceTrim (d : Dev) (n s : Nat) (ofs gain skew : Int) : Dev :=
  let old := d.rd (unitKey 0x681001 n)
  let was := bits old (32 * s + 31) (32 * s)
  d.wr (unitKey 0x681001 n) (old - was * 2 ^ (32 * s)
    + (toU 10 ofs + 2 ^ 10 * toU 10 gain + 2 ^ 20 * toU 10 skew) * 2 ^ (32 * s))

/-- The worst slice offset of a line. -/
def Dev.worstOffset (d : Dev) (n : Nat) : Int :=
  (List.range 52).foldl (fun (m : Int) s => let v := d.sliceTrim n s 0; if m.natAbs < v.natAbs then v else m) 0

/-- Whether the trims found for a slice are plausible (R451). -/
def Dev.sliceOk (d : Dev) (n s : Nat) (ofs gain skew : Int) : Bool :=
  let first := tabGet 0 d.cal.seen (calIndex 1 1 (52 * n + s)) = 0
  plausible first 256 32 (d.sliceTrim n s 0) ofs && plausible first 300 40 (d.sliceTrim n s 1) gain
    && plausible first 320 40 (d.sliceTrim n s 2) skew

/-- The slice at an interleave position (R243). -/
def Dev.sliceAt (d : Dev) (n p : Nat) : Nat := bits (d.rd (unitKey 0x384024 n)) (8 * p + 7) (8 * p)

/-- A slice leaves the interleave where it stands in it, and the first trimmed spare takes its position (R243, R244); one
outside the interleave leaves the spares. None where no spare is at hand. -/
def Dev.outOfInterleave (d : Dev) (n s : Nat) : Option Dev :=
  let l := d.lineRx n
  match (List.range 48).find? fun p => d.sliceAt n p == s with
  | none => some (d.setLine n { l with spares := l.spares.filter (· != s) })
  | some p =>
    match l.spares with
    | [] => none
    | t :: rest =>
      let map := d.rd (unitKey 0x384024 n)
      some ((d.wr (unitKey 0x384024 n) (map - s * 256 ^ p + t * 256 ^ p)).setLine n { l with spares := rest })

/-- The slice whose turn comes next: the first from the turn counter that has not been retired. -/
def Dev.nextSlice (d : Dev) (n : Nat) : Option Nat :=
  ((List.range 52).map fun i => ((d.lineRx n).turn + i) % 52).find? fun s => !d.isRetired (.slice n s)

/-- Whether a line can rotate (R246, R447): one with no spare left does not, nor one whose period has not passed, nor one while
PRIMING or the wake sequence checks every slice. -/
def Dev.canRotate (d : Dev) (n : Nat) : Bool :=
  let l := d.lineRx n
  !(d.state == .cold || d.state == .asleep || d.cal.phase == 1 || l.checking.isSome || d.rd (unitKey 0x384025 n) == 0
    || decide (d.epoch < l.lastTurn + d.rd 0x680008))

/-- The next slice of a line goes to its check, and a trimmed spare takes its position (R244, R447). -/
def Dev.rotateSlice (d : Dev) (n : Nat) : Dev :=
  let l := d.lineRx n
  match d.nextSlice n with
  | none => d
  | some s =>
    let d1 := d.setLine n { l with turn := (s + 1) % 52, lastTurn := d.epoch, rotateDue := false }
    match d1.outOfInterleave n s with
    | none => d1
    | some d2 => (d2.setLine n { d2.lineRx n with checking := some s }).calBusy

/-- SLICE_ROTATE (R244, R447): at an ADC sample that is a multiple of 48, the first of every third tick; in another tick the
substitution waits for it. -/
def sliceRotateOp (n : Nat) (d : Dev) : Dev :=
  if !d.canRotate n then d
  else if d.epoch % 3 = 0 then d.rotateSlice n
  else d.setLine n { d.lineRx n with rotateDue := true }

/-- The substitutions that waited for this tick (R244). -/
def Dev.rotateTick (d : Dev) : Dev :=
  if d.epoch % 3 = 0 then
    (d.rx.lines.filter fun p => p.2.rotateDue).foldl (fun e p =>
      if e.canRotate p.1 then e.rotateSlice p.1 else e.setLine p.1 { e.lineRx p.1 with rotateDue := false }) d
  else d

/-- A slice glitch (R245, R452, R630): it is counted, and so is the implausible result. Answers whether the slice is
stuck. -/
def Dev.glitch (d : Dev) (n s : Nat) : Dev × Bool :=
  ((d.flag (unitKey 0x384026 n) 1).noteFault (.slice n s) 0).implausible (calIndex 1 1 (52 * n + s))

/-- A slice that glitched stays out of the interleave until its next turn (R245): a trimmed spare takes its position. -/
def Dev.benchSlice (d : Dev) (n s : Nat) : Dev :=
  match d.outOfInterleave n s with
  | none => d
  | some e =>
    let l := e.lineRx n
    e.setLine n { l with
      checking := l.checking.filter (· != s), bad := (l.bad.filter fun b => b.1 != s) ++ [(s, l.turn)] }

/-- A slice takes new trims outside the interleave (R443) and stands among the spares; where no spare takes its position its
trims stay (R246). -/
def Dev.trimSlice (d : Dev) (n s : Nat) (ofs gain skew : Int) : Dev :=
  match d.outOfInterleave n s with
  | none => d
  | some e =>
    let l := e.lineRx n
    ((e.setSliceTrim n s ofs gain skew).markSeen (calIndex 1 1 (52 * n + s)) true).setLine n { l with
      checking := l.checking.filter (· != s), spares := l.spares ++ [s], bad := l.bad.filter fun b => b.1 != s }

/-- SLICE_CHECK (R245, R447, R451 to R454): the slice's trims, or a glitch; the third glitch in a row is CAL_STUCK and
retires the slice (R630). With the reference lost the check cannot complete, and the slice keeps its trims. -/
def sliceCheckOp (n : Nat) (ofs gain skew : Int) (spur : Nat) (d : Dev) : Dev :=
  let l := d.lineRx n
  match l.checking with
  | none => d
  | some s =>
    if d.epoch < l.lastTurn + 6000 then d
    else if !d.bit 0x200003 0 then
      let o := d.worstOffset n
      ((((d.setLine n { l with checking := none, spares := l.spares ++ [s] }).calBusy).flag 0x680003 2).calRecord 1 3 1 n spur o o
        0 0)
    else
      let old := d.worstOffset n
      let d1 := d.wr (unitKey 0x681002 n) spur
      if d1.sliceOk n s ofs gain skew then
        let d2 := (d1.setSliceTrim n s ofs gain skew).markSeen (calIndex 1 1 (52 * n + s)) true
        let d3 := (d2.setLine n { l with
          checking := none, spares := l.spares ++ [s], bad := l.bad.filter fun b => b.1 != s }).calBusy
        d3.calRecord 1 0 1 n spur old (d3.worstOffset n) 0 0
      else
        let d2 := (d1.setLine n { l with checking := none, bad := (l.bad.filter fun b => b.1 != s) ++ [(s, l.turn)] }).calBusy
        let r := d2.glitch n s
        let d3 := r.1.calRecord 1 2 1 n spur old ofs 0 0
        if r.2 then d3.retireNow (.slice n s) 1 else d3

/-! ### Results (R444 to R454) -/

/-- A routine's figure goes to the object that shows it. -/
def Dev.calFigure (d : Dev) (routine ukind unit : Nat) (figure : Int) : Dev :=
  match routine with
  | 1 => d.wr (unitKey 0x681002 unit) (toU 16 figure)
  | 3 => d.wr (levelBase ukind unit + 6) (toU 16 figure)
  | _ => d

/-- Values go to the calibration stage, or apply at once where no resident job holds the unit (R461, R462). Answers
whether one was staged. -/
def Dev.varnish (d : Dev) (routine ukind unit : Nat) (figure old new : Int) (vs : List (Nat × Nat)) : Dev × Bool :=
  let held := vs.filter fun v => (d.holderOf v.1).isSome
  let d1 := d.applyWords (vs.filter fun v => (d.holderOf v.1).isNone)
  if held = [] then (d1, false)
  else
    (d1.setStage (d1.cal.stage ++ held.map fun v =>
      { key := v.1, val := v.2, at_ := d.epoch, routine := routine, ukind := ukind, unit := unit, figure := figure, old := old,
        new := new }), true)

/-- The principal value of a routine before its result (R466). -/
def Dev.principalOld (d : Dev) (routine ukind unit : Nat) : Int :=
  match routine with
  | 1 => d.worstOffset unit
  | 2 => listMax ((skewKeys unit).map d.rd16)
  | 3 => d.rd16 (levelBase ukind unit + 2)
  | 4 => d.rd16 (unitKey 0x690001 unit)
  | 5 => d.rd (unitKey 0x384023 unit)
  | _ => 0

/-- The principal value that a routine found (R466): the largest trim, LEVEL_TRIM, FO_BASE or LINE_ALIGN among its values; where
they hold none, and for SLICE, the one that its command names. -/
def principalNew (routine ukind unit : Nat) (vs : List (Nat × Int)) (named : Int) : Int :=
  let of : Nat → Int := fun key => ((vs.find? fun v => v.1 == key).map (·.2)).getD named
  match routine with
  | 2 => match (vs.filter fun v => (skewKeys unit).contains v.1).map (·.2) with
    | [] => named
    | l => listMax l
  | 3 => of (levelBase ukind unit + 2)
  | 4 => of (unitKey 0x690001 unit)
  | 5 => of (unitKey 0x681003 unit)
  | _ => named

/-- The values of a plausible result take effect (R442, R444): SKEW_TRIM and LEVEL_TRIM as
varnish; DC_TARGET and the flux offset as targets of the glaze. LOOPBACK proposes LINE_ALIGN in LOOP_RESULT. -/
def Dev.calApply (d : Dev) (routine ukind unit : Nat) (vs : List (Nat × Int)) (figure old new : Int) : Dev × Bool :=
  match routine with
  | 2 =>
    let d1 := d.wrs ((vs.filter fun v => (residKeys unit).contains v.1).map fun v => (v.1, toU 16 v.2))
    d1.varnish 2 ukind unit figure old new
      ((vs.filter fun v => (skewKeys unit).contains v.1).map fun v => (v.1, toU 16 v.2))
  | 3 =>
    let b := levelBase ukind unit
    let d1 := d.wrs ((vs.filter fun v => v.1 == b + 4).map fun v => (v.1, toU 16 v.2))
    d1.varnish 3 ukind unit figure old new ((vs.filter fun v => v.1 == b + 2).map fun v => (v.1, toU 16 v.2))
  | 4 =>
    let d1 := d.wrs ((vs.filter fun v => v.1 == unitKey 0x690001 unit || v.1 == unitKey 0x690003 unit).map fun v =>
      (v.1, toU 16 v.2))
    (d1.foTarget unit (d1.tempCode (d1.rd (unitKey 0x690004 unit))), false)
  | 5 => (d.wrs ((vs.filter fun v => v.1 == unitKey 0x681003 unit).map fun v => (v.1, toU 32 v.2)), false)
  | _ => (d, false)

/-- A slice's trims among the results of SLICE, where none is named those that it has. -/
def Dev.sliceResult (d : Dev) (n s : Nat) (vs : List (Nat × Int)) : Int × Int × Int :=
  let get : Nat → Int := fun f => ((vs.find? fun v => v.1 == 3 * s + f).map (·.2)).getD (d.sliceTrim n s f)
  (get 0, get 1, get 2)

/-- The results of SLICE on a line (R442, R451, R452): a slice's plausible trims apply at once, others are a glitch. -/
def Dev.applySlices (d : Dev) (n : Nat) (vs : List (Nat × Int)) : Dev :=
  ((List.range 52).filter fun s => vs.any fun v => v.1 / 3 == s).foldl (fun e s =>
    let t := e.sliceResult n s vs
    if e.sliceOk n s t.1 t.2.1 t.2.2 then e.trimSlice n s t.1 t.2.1 t.2.2
    else
      let r := (e.benchSlice n s).glitch n s
      if r.2 then r.1.retireNow (.slice n s) 1 else r.1) d

/-- CAL_RESULT: the result of a routine that runs. Values are (object, value); for SLICE (3 times
the slice plus 0 OFFSET, 1 GAIN, 2 SKEW, value). -/
def calResultOp (routine ukind unit : Nat) (vs : List (Nat × Int)) (principal figure : Int) (aborted : Bool) (d : Dev) : Dev :=
  let mine : CalRun → Bool := fun r => r.routine == routine && r.ukind == ukind && r.unit == unit
  match d.cal.runs.find? mine with
  | none => d
  | some r =>
    let probe := routine == 3 || routine == 4 || routine == 5
    let moved := r.lost || probe && (decide (r.at_ < d.rd 0x100102) || d.calHeld ukind unit)
    let principal := principalNew routine ukind unit vs principal
    let d1 := { d with cal := { d.cal with runs := d.cal.runs.filter fun r => !mine r } }.calBusy
    let old := d.principalOld routine ukind unit
    if aborted || moved || !d.bit 0x200003 0 then
      ((d1.flag 0x680003 2).calRecord routine 3 ukind unit figure old principal 0 0).nextRuns routine
    else
      let i := calIndex routine ukind unit
      let d2 := d1.calFigure routine ukind unit figure
      if routine = 1 then
        let good := (List.range 52).all fun s =>
          let t := d1.sliceResult unit s vs
          !(vs.any fun v => v.1 / 3 == s) || d1.sliceOk unit s t.1 t.2.1 t.2.2
        ((d2.applySlices unit vs).calRecord 1 (if good then 0 else 2) ukind unit figure old principal 0 0).nextRuns 1
      else if vs.all (d1.calOk routine ukind unit) then
        let r := (d2.markSeen i true).calApply routine ukind unit vs figure old principal
        (r.1.calRecord routine (if r.2 then 1 else 0) ukind unit figure old principal 0 0).nextRuns routine
      else (((d2.implausible i).1).calRecord routine 2 ukind unit figure old principal 0 0).nextRuns routine

/-- The routines that run cannot complete (R454). -/
def Dev.abortRuns (d : Dev) : Dev :=
  let d1 := d.cal.runs.foldl (fun e (r : CalRun) =>
    let old := e.principalOld r.routine r.ukind r.unit
    (e.flag 0x680003 2).calRecord r.routine 3 r.ukind r.unit 0 old old 0 0) d
  { d1 with cal := { d1.cal with runs := [], phase := 0 } }.calBusy

/-! ### DISC_FIT (R450) -/

/-- The mean of a group, rounded to nearest. -/
def meanOf (l : List (Int × Int)) : Int × Int :=
  (divRound ((l.map (·.1)).foldl (· + ·) 0) (max 1 l.length), divRound ((l.map (·.2)).foldl (· + ·) 0) (max 1 l.length))

/-- 2¹⁴ · a ÷ √n2, rounded to nearest, halves upwards (R710). -/
def unitPart (a : Int) (n2 : Nat) : Int :=
  let s := Nat.sqrt (2 ^ 30 * a.natAbs ^ 2 / n2)
  let r := (s + 1) / 2
  if 0 ≤ a then (r : Int)
  else if (2 * r - 1) ^ 2 * n2 = 2 ^ 30 * a.natAbs ^ 2 ∧ 0 < r then -((r : Int) - 1)
  else -(r : Int)

/-- ROT_COS and ROT_SIN from C0 to C1. -/
def rotation (a b : Int × Int) : Int × Int :=
  let dx := b.1 - a.1
  let dy := b.2 - a.2
  let n2 := dx.natAbs ^ 2 + dy.natAbs ^ 2
  if n2 = 0 then (Config.zeroRotation.1.toInt, Config.zeroRotation.2.toInt)
  else (unitPart dx n2, unitPart dy n2)

/-- The kernel: the conjugate of excited minus ground, scaled so that the largest part is 0x7FFF. -/
def fitKernel (ground excited : List (Int × Int)) : List W32 :=
  let w := (excited.zip ground).map fun p => (p.1.1 - p.2.1, -(p.1.2 - p.2.2))
  let m := w.foldl (fun a p => max a (max p.1.natAbs p.2.natAbs)) 0
  if m = 0 then []
  else w.map fun p => BitVec.ofNat 32 (toU 16 (divRound (p.1 * 0x7FFF) m) + 2 ^ 16 * toU 16 (divRound (p.2 * 0x7FFF) m))

/-- DISC_FIT: centres, rotation, threshold and kernel of a qubit of a calibration job that has ended, from the results that
the job has delivered and the mean traces of its capture channel. -/
def discFitOp (q : Nat) (ground excited : List (Int × Int)) (fidelity : Nat) (d : Dev) : Dev :=
  match d.cal.fits.find? fun f => f.qubit == q with
  | none => d
  | some f =>
    let gs := f.groups
    let cs := (gs.take 3).map meanOf
    let linear := d.rd (unitKey 0x300046 q) = 0
    let c0 := cs.getD 0 (0, 0)
    let c1 := cs.getD 1 (0, 0)
    let rot := rotation c0 c1
    let thresh := divRound ((c0.1 + c1.1) * rot.1 + (c0.2 + c1.2) * rot.2) (2 ^ 15)
    let vs := ((cs.zipIdx).flatMap fun c =>
        [(unitKey 0x30004B q + 2 * c.2, toU 32 c.1.1), (unitKey 0x30004C q + 2 * c.2, toU 32 c.1.2)])
      ++ (if linear then [(unitKey 0x300047 q, toU 16 rot.1), (unitKey 0x300048 q, toU 16 rot.2), (unitKey 0x300049 q, toU 32 thresh)]
        else [])
    let old := sext 32 (d.rd (if linear then unitKey 0x300049 q else unitKey 0x30004D q))
    let new := if linear then thresh else c1.1
    let d1 := { d with cal := { d.cal with fits := d.cal.fits.filter fun x => x.qubit != q } }
    let i := calIndex 6 7 q
    if gs.all (fun g => decide (64 ≤ g.length)) && decide (5000 ≤ fidelity) then
      let r := (d1.markSeen i true).varnish 6 7 q fidelity old new vs
      let k := if f.capture.isSome then fitKernel ground excited else []
      let d2 := if k = [] then r.1 else { r.1 with cal := { r.1.cal with kernels := tabSet [] r.1.cal.kernels q k } }
      d2.calRecord 6 (if r.2 then 1 else 0) 7 q fidelity old new f.job f.shot
    else ((d1.implausible i).1).calRecord 6 2 7 q fidelity old new f.job f.shot

/-! ### Glaze (R455 to R460) -/

/-- One step of a glazed value towards its target. -/
def glazeTo (step : Nat) (v t : Int) : Int := if v < t then min t (v + step) else max t (v - step)

/-- A glazed value steps towards its target. -/
def Dev.glaze (d : Dev) (key target : Nat) : Dev :=
  d.wr key (toU 16 (glazeTo (d.rd 0x680005) (d.rd16 key) (d.rd16 target)))

/-- GLAZE_STEP: at a glaze instant, once, every glazed value moves. -/
def glazeStepOp (d : Dev) : Dev :=
  let n := d.rd 0x680006
  if d.state = .asleep ∨ d.rdB 0x680007 ∨ n = 0 ∨ d.epoch % n ≠ 0 ∨ d.cal.lastGlaze = some d.epoch then d
  else
    let d1 := { d with cal := { d.cal with lastGlaze := some d.epoch } }
    let d2 := (List.range 64).foldl (fun e p => e.glaze (unitKey 0x684003 p) (unitKey 0x684004 p)) d1
    let d3 := (List.range 32).foldl (fun e p => e.glaze (unitKey 0x688003 p) (unitKey 0x688004 p)) d2
    (List.range 768).foldl (fun e c => e.glaze (unitKey 0x340005 c) (unitKey 0x690005 c)) d3

/-! ### Scans (R467 to R474) -/

/-- A scan begins: its converters' modes are fixed (R473). -/
def Dev.beginScan (d : Dev) (at_ : Nat) : Dev :=
  let low := if d.state = .asleep then 15 else
    (List.range 4).foldl (fun m k => if d.rdB (unitKey 0x6C0001 k) then m + 2 ^ k else m) 0
  { d with cal := { d.cal with scan := some { step := 0, at_ := at_, low := low, got := 0 }, low := low } }

/-- Conversions of FLUX_OFS on one channel: 256 at each of two codes (R444). -/
def fluxConversions : Nat := 512

/-- The conversion of the engine that ends is counted for the run that made it. -/
def countConv : List CalRun → List CalRun
  | [] => []
  | r :: l => if r.routine = 4 ∧ r.convs < fluxConversions then { r with convs := r.convs + 1 } :: l else r :: countConv l

/-- A trigger from an enabled source (R471): 0 timer, 1 event, 2 HK_CMD, 3 shot boundary. One that falls during a conversion
of the calibration engine waits for its end (R472), and a second one then merges with it (DESIGN CHOICE, log entry 121). -/
def Dev.hkTrigger (d : Dev) (source : Nat) : Dev :=
  if !d.bit 0x6C0401 source then d
  else if d.cal.trigAt = some d.epoch ∧ d.state ≠ .asleep then
    if d.cal.coincided = some d.epoch then d
    else ({ d with cal := { d.cal with coincided := some d.epoch } }).flag 0x6C0406 0
  else
    let d1 := { d with cal := { d.cal with trigAt := some d.epoch } }
    if d.cal.scan.isNone && (d.cal.conv.all fun t => decide (t ≤ d.epoch + 1)) then
      ({ d1 with cal := { d1.cal with
          conv := none, runs := if d.cal.conv.isSome then countConv d1.cal.runs else d1.cal.runs } }).beginScan (d.epoch + 1)
    else if d.cal.held then d1.flag 0x6C0406 1
    else { d1 with cal := { d1.cal with held := true } }

/-- The calibration engine on HK3 in a tick (R444, R472, R473): a conversion ends, and a scan that waited begins; otherwise,
between scans, the next conversion of the first FLUX_OFS run begins. Outside the states in which the routine runs none
begins. -/
def Dev.convTick (d : Dev) : Dev :=
  let ended := d.cal.conv.any fun t => decide (t ≤ d.epoch)
  let d1 : Dev := if ended then { d with cal := { d.cal with conv := none, runs := countConv d.cal.runs } } else d
  if d1.cal.conv.isSome || d1.cal.scan.isSome then d1
  else if d1.cal.held then ({ d1 with cal := { d1.cal with held := false } }).beginScan d1.epoch
  else if (d1.state == .priming || d1.state == .primed || d1.state == .halted)
      && d1.cal.runs.any fun r => r.routine == 4 && decide (r.convs < fluxConversions) then
    { d1 with cal := { d1.cal with conv := some (d1.epoch + (if d1.cal.low.testBit 3 then 6000 else 750)) } }
  else d1

/-- HK_TIMER: HK_PERIOD ticks after the last one; in ASLEEP the sleep timer times it (R473). -/
def hkTimerOp (d : Dev) : Dev :=
  if d.state ≠ .asleep ∧ d.epoch < d.cal.timerAt + d.rd 0x6C0402 then d
  else ({ d with cal := { d.cal with timerAt := d.epoch } }).hkTrigger 0

/-- A write of 1 to HK_CMD. -/
def hkCmdOp (d : Dev) : Dev := d.hkTrigger 2

/-- The conversion time of a converter in a scan. -/
def Scan.time (s : Scan) (k : Nat) : Nat := if s.low.testBit k then 6000 else 750

/-- The end of a step in which every converter has given its result. -/
def Dev.scanNext (d : Dev) (s : Scan) : Dev :=
  let stop := s.at_ + (if s.low = 0 then 750 else 6000)
  if s.step + 1 < d.rd 0x6C0404 then
    { d with cal := { d.cal with scan := some { s with step := s.step + 1, at_ := stop, got := 0 } } }
  else
    let d1 := { d with cal := { d.cal with scan := none } }
    if d.cal.held then ({ d1 with cal := { d1.cal with held := false } }).beginScan stop else d1

/-- A result of an input is stored and checked against its limits (R469, R474). -/
def Dev.hkStore (d : Dev) (k i code at_ : Nat) : Dev :=
  let b := unitKey 0x6D0000 (32 * k + i)
  let low := decide (code < d.rd (b + 2))
  let high := decide (d.rd (b + 3) < code)
  let d1 := d.wrs [(b + 1, code + bitAt low 12 + bitAt high 13 + 2 ^ 14), (b + 6, at_)]
  if low || high then (d1.flag (unitKey 0x6C0003 k) i).produce (0x88 + k) else d1

/-- HK_RESULT: a converter's result of the present step is valid. -/
def hkResultOp (k : Nat) (code : BitVec 12) (d : Dev) : Dev :=
  match d.cal.scan with
  | none => d
  | some s =>
    if 4 ≤ k ∨ s.got.testBit k ∨ (d.state ≠ .asleep ∧ d.epoch < s.at_ + s.time k) then d
    else
      let i := bits (d.rd (unitKey 0x6C0002 k)) (8 * s.step + 7) (8 * s.step)
      let d1 := d.hkStore k i code.toNat s.at_
      let d2 := if k = 0 ∧ i ≤ 21 then
          (if i ≤ 19 then d1.wr 0x7C0007 (max (d1.rd 0x7C0007) code.toNat) else d1).foTargets i else d1
      let s1 := { s with got := s.got + 2 ^ k }
      if s1.got = 15 then d2.scanNext s1 else { d2 with cal := { d2.cal with scan := some s1 } }

/-! ### Converter faults (R247, R431, R630) -/

/-- ADC_OVERRANGE: a converter code at either end. -/
def adcOverrangeOp (n : Nat) (code : Int) (d : Dev) : Dev :=
  if code = -2048 ∨ code = 2047 then d.flag (unitKey 0x384026 n) 0 else d

/-- DAC_FAULT: a DAC monitor detects a failure, which retires the port or channel. -/
def dacFaultOp (u : UnitRef) (d : Dev) : Dev :=
  match u with
  | .xyPort p => (d.flag (unitKey 0x380008 p) 2).retireNow (.xyPort p) 2
  | .rlTx n => (d.flag (unitKey 0x384008 n) 2).retireNow (.rlTx n) 2
  | .flux c => (d.flag (unitKey 0x340007 c) 1).retireNow (.flux c) 3
  | _ => d

/-! ### Meanings -/

/-- CAL_CMD of SKEW. -/
def execCalSkew (tile : Nat) (s : State) : Host.Outcome State Fault Refusal := .next (s.onNow (·.calCmd 2 2 tile))
/-- CAL_CMD of LEVEL. -/
def execCalLevel (ukind unit : Nat) (s : State) : Host.Outcome State Fault Refusal :=
  .next (s.onNow (·.calCmd 3 ukind unit))
/-- CAL_CMD of FLUX_OFS. -/
def execCalFluxOfs (c : Nat) (s : State) : Host.Outcome State Fault Refusal := .next (s.onNow (·.calCmd 4 5 c))
/-- CAL_CMD of LOOPBACK. -/
def execCalLoopback (line : Nat) (s : State) : Host.Outcome State Fault Refusal := .next (s.onNow (·.calCmd 5 1 line))
/-- CAL_RESULT. -/
def execCalResult (routine ukind unit : Nat) (vs : List (Nat × Int)) (principal figure : Int) (aborted : Bool) (s : State) :
    Host.Outcome State Fault Refusal := .next (s.onNow (calResultOp routine ukind unit vs principal figure aborted))
/-- SKEW_AUTO. -/
def execSkewAuto (tile : Nat) (s : State) : Host.Outcome State Fault Refusal := .next (s.onNow (skewAutoOp tile))
/-- DISC_FIT. -/
def execDiscFit (q : Nat) (ground excited : List (Int × Int)) (fidelity : Nat) (s : State) :
    Host.Outcome State Fault Refusal := .next (s.onNow (discFitOp q ground excited fidelity))
/-- GLAZE_STEP. -/
def execGlazeStep (s : State) : Host.Outcome State Fault Refusal := .next (s.onNow glazeStepOp)
/-- HK_TIMER. -/
def execHkTimer (s : State) : Host.Outcome State Fault Refusal := .next (s.onNow hkTimerOp)
/-- A write of HK_CMD. -/
def execHkCmd (s : State) : Host.Outcome State Fault Refusal := .next (s.onNow hkCmdOp)
/-- HK_RESULT. -/
def execHkResult (k : Nat) (code : BitVec 12) (s : State) : Host.Outcome State Fault Refusal :=
  .next (s.onNow (hkResultOp k code))
/-- SLICE_ROTATE. -/
def execSliceRotate (n : Nat) (s : State) : Host.Outcome State Fault Refusal := .next (s.onNow (sliceRotateOp n))
/-- SLICE_CHECK. -/
def execSliceCheck (n : Nat) (ofs gain skew : Int) (spur : Nat) (s : State) : Host.Outcome State Fault Refusal :=
  .next (s.onNow (sliceCheckOp n ofs gain skew spur))
/-- ADC_OVERRANGE. -/
def execAdcOverrange (n : Nat) (code : Int) (s : State) : Host.Outcome State Fault Refusal :=
  .next (s.onNow (adcOverrangeOp n code))
/-- DAC_FAULT. -/
def execDacFault (u : UnitRef) (s : State) : Host.Outcome State Fault Refusal := .next (s.onNow (dacFaultOp u))

end Sys2Proof.Machine
end

