-- ==== Sys2Proof/Machine/Events.lean ====
section
/-! DEFINITION. The event matrix and the interrupt aggregator (chapter 12): causes, firings, AND gates, lattice lines,
wake causes, notification frames. -/

namespace Sys2Proof.Machine

/-! ### Wake (R491, R694) -/

/-- A wake cause: WAKE, or a firing of a line. Causes beside the first set WAKE_COINCIDE; one that arrives while the
device enters ASLEEP takes effect at the end of the entry. -/
def Dev.wakeCause (d : Dev) (line : Option Nat) : Dev :=
  let old := d.rd 0x7C0006
  let fired := old.testBit 1
  let new := match line with
    | none => Nat.lor old 1
    | some k => if fired then old else Nat.lor old (2 + 2 ^ 8 * k)
  if d.state = .asleep then
    match d.pwr.waking with
    | none => Dev.startPhase { d.wr 0x7C0006 (match line with
        | none => 1
        | some k => 2 + 2 ^ 8 * k) with pwr := { d.pwr with waking := some d.epoch } } 1
    | some _ => (d.wr 0x7C0006 new).flag 0x7C0001 3
  else if d.pwr.sleeping then
    if d.pwr.wakeAfter then (d.wr 0x7C0006 new).flag 0x7C0001 3
    else { d.wr 0x7C0006 (match line with
        | none => 1
        | some k => 2 + 2 ^ 8 * k) with pwr := { d.pwr with wakeAfter := true } }
  else d

/-! ### Lattice events (R492, R493, R523) -/

/-- The last FIRE_EPOCH seen of a lattice event by origin, line and path, counted from 1. -/
def evIndex (origin line : Nat) (path : Bool) : Nat := 16 * origin + 2 * line + bitAt path 0

/-- A lattice event goes along the spine links of its path. -/
def Dev.spreadEvent (d : Dev) (fireEpoch origin line : Nat) (path : Bool) (hops : Nat) (not_ : Option Nat) : Dev :=
  ((d.treeLinks path).filter fun k => some k != not_).foldl
    (fun e k => e.sendCell k (.event fireEpoch origin line path hops (e.rd 0x201002))) d

/-- A firing of a lattice line is exported along both trees (R492). -/
def Dev.exportEvent (d : Dev) (k t : Nat) : Dev :=
  let seen := tabSet 0 (tabSet 0 d.lat.evSeen (evIndex d.chip (k - 0xF8) false) (t + 1)) (evIndex d.chip (k - 0xF8) true) (t + 1)
  let d1 := { d with lat := { d.lat with evSeen := seen } }
  (d1.spreadEvent t d.chip (k - 0xF8) false 0 none).spreadEvent t d.chip (k - 0xF8) true 0 none

/-! ### Consumers (R476, R490) -/

/-- WAITEV contexts of the threads of the tile whose canvas line it is (R105). -/
def Dev.wakeThreads (d : Dev) (k t : Nat) : Dev :=
  let go : Ctx → Ctx := fun c => match c.wait with
    | .event l since off => if l = k ∧ since ≤ t then ({ c with wait := .ready }.advance (t + off)).fall else c
    | _ => c
  if k < 128 then
    { d with eas := { d.eas with threads := d.eas.threads.map fun p =>
        (p.1, { p.2 with main := go p.2.main, paths := p.2.paths.map fun q => { q with ctx := go q.ctx } }) } }
  else d

/-- What a firing at a tick starts: wake and the housekeeping scan always; the others outside ASLEEP. -/
def Dev.consume_ (d : Dev) (k t : Nat) (export_ : Bool) : Dev :=
  let d1 := if (d.state = .asleep ∨ d.pwr.sleeping) ∧ d.rdB (unitKey 0x700006 k) then d.wakeCause (some k) else d
  let d2 := if d1.rd 0x6C0403 = k then d1.hkTrigger 1 else d1
  if d2.state = .asleep then d2
  else
    let d3 := (d2.wakeThreads k t).trigCause 5 (some k) t
    let d4 := (List.range 128).foldl (fun e c =>
      if e.rd (unitKey 0x51000C c) = k then e.addCond c 11 t else e) d3
    if export_ && decide (0xF8 ≤ k) && d4.rdB (unitKey 0x700007 k) then d4.exportEvent k t else d4

/-! ### Firing (R478 to R489) -/

/-- The lines whose IN_MASK has a bit set. -/
def Dev.fedBy (d : Dev) (k : Nat) : List Nat :=
  d.objs.filterMap fun p =>
    if 0x700001 ≤ p.1 ∧ p.1 ≤ 0x70FF01 ∧ p.1 % 256 = 1 ∧ p.2.testBit k then some (p.1 / 256 - 0x7000) else none

/-- Whether a line has fired at a tick. In ASLEEP the matrix times itself (R489). -/
def Dev.fired (d : Dev) (k t : Nat) : Bool := d.state != .asleep && (d.lineSt k).lastFire == some t

/-- Further causes of a tick in which a line has fired are part of that firing (R479, R480): COINCIDE, and what it delivers
carries their chains and HOPS too. -/
def Dev.joinFiring (d : Dev) (k t n : Nat) (chain : List Nat) (hops : Nat) : Dev :=
  let st := d.lineSt k
  let d1 := if st.count < 2 then d.flag (unitKey 0x700009 k) 2 else d
  let ours : Cause → Bool := fun c => c.src == some k && c.tick == t + 1
  let d2 : Dev := { d1 with ev := { d1.ev with lines := tabSet {} d1.ev.lines k { st with count := st.count + n } } }
  let lost := (d2.ev.causes.filter ours).length
  let keep := d2.ev.causes.filter fun c => !ours c
  let more : Cause → Cause := fun c =>
    if ours c = true then { c with chain := (c.chain ++ chain).dedup, hops := max c.hops hops } else c
  if 6 ≤ hops then
    let d3 : Dev := { d2 with ev := { d2.ev with causes := keep } }
    if lost = 0 then d3 else d3.flagN (unitKey 0x700009 k) 1 lost
  else { d2 with ev := { d2.ev with causes := d2.ev.causes.map more } }

/-- A line fires at a tick on n causes with a chain and HOPS: the firing is recorded, delivered with one hop more, and
consumed; several causes are COINCIDE. -/
def Dev.fire (d : Dev) (k t n : Nat) (chain : List Nat) (hops : Nat) (export_ : Bool) : Dev :=
  if d.fired k t then d.joinFiring k t n chain hops else
  let d := if 2 ≤ n then d.flag (unitKey 0x700009 k) 2 else d
  let st := d.lineSt k
  let d1 := { d with ev := { d.ev with
    lines := tabSet {} d.ev.lines k { st with lastFire := some t, prevFire := st.lastFire, count := n } } }
  let d2 := (if d1.state = .asleep then d1 else d1.wr (unitKey 0x700008 k) t).trace 3 (k + 2 ^ 8 * hops)
  let to_ := d2.fedBy k
  let d3 : Dev :=
    if 6 ≤ hops then (if to_ = [] then d2 else d2.flagN (unitKey 0x700009 k) 1 to_.length)
    else { d2 with ev := { d2.ev with causes := d2.ev.causes ++ to_.map fun j =>
      { line := j, tick := t + 1, src := some k, chain := chain, hops := hops } } }
  d3.consume_ k t export_

/-- The bits of AND_ARM expire by a tick (R487), unless the gate has fired since they were set. -/
def Dev.expireArm (d : Dev) (k t : Nat) : Dev :=
  let st := d.lineSt k
  let w := d.rd (unitKey 0x700003 k)
  let since : Nat → Bool := fun u => match st.lastFire with
    | some f => decide (u ≤ f)
    | none => false
  if w ≠ 0 ∧ st.armTicks.any fun p => decide (p.2 + w ≤ t) && !since p.2 then
    ({ d.wr (unitKey 0x700004 k) 0 with ev := { d.ev with
      lines := tabSet {} d.ev.lines k { st with armChain := [], armHops := 0, armTicks := [] } } }).flag (unitKey 0x700009 k) 3
  else d

/-- AND_EXPIRED (R487). -/
def andExpiredOp (k : Nat) (d : Dev) : Dev := d.expireArm k d.epoch

/-- The union of chains. -/
def unionOf (cs : List Cause) : List Nat := (cs.flatMap (·.chain)).dedup

/-- The largest HOPS. -/
def mostHops (cs : List Cause) : Nat := cs.foldl (fun m c => max m c.hops) 0

/-- Deliveries that R482 suppresses are counted; the others stay. -/
def Dev.suppress (d : Dev) (k t : Nat) (cs : List Cause) : Dev × List Cause :=
  let near := match if d.fired k t then (d.lineSt k).prevFire else (d.lineSt k).lastFire with
    | some f => decide (t ≤ f + 6)
    | none => false
  let loops := cs.filter fun c => near && c.chain.contains k
  (if loops = [] then d else d.flagN (unitKey 0x700009 k) 0 loops.length, cs.filter fun c => !(near && c.chain.contains k))

/-- The causes of a tick at a line in OR mode (R479, R480). -/
def Dev.fireOr (d : Dev) (k t : Nat) (nat dels : List Cause) : Dev :=
  let r := d.suppress k t dels
  if nat = [] ∧ r.2 = [] then r.1
  else
    let n := nat.length + r.2.length
    let export_ := (nat ++ r.2).any fun c => !c.lattice
    if r.2 = [] then r.1.fire k t n [k] 0 export_
    else r.1.fire k t n (k :: unionOf r.2).dedup (1 + mostHops r.2) export_

/-- The causes of a tick at an AND gate (R485 to R488). -/
def Dev.fireAnd (d : Dev) (k t : Nat) (nat dels : List Cause) : Dev :=
  let d0 := d.expireArm k t
  let r := d0.suppress k t dels
  let arm := r.1.rd (unitKey 0x700004 k)
  let fresh := r.2.filter fun c => !arm.testBit (c.src.getD 0)
  let st := r.1.lineSt k
  let arm2 := fresh.foldl (fun m c => Nat.lor m (2 ^ (c.src.getD 0))) arm
  let chain := (st.armChain ++ unionOf fresh).dedup
  let hops := max st.armHops (mostHops fresh)
  let mask := r.1.rd (unitKey 0x700001 k)
  let full := fresh ≠ [] ∧ Nat.land arm2 mask = mask
  let st2 : LineSt := if full then { st with armChain := [], armHops := 0, armTicks := [] }
    else { st with armChain := chain, armHops := hops, armTicks := st.armTicks ++ fresh.map fun c => (c.src.getD 0, t) }
  let d1 := { r.1.wr (unitKey 0x700004 k) (if full then 0 else arm2) with
    ev := { r.1.ev with lines := tabSet {} r.1.ev.lines k st2 } }
  if full then d1.fire k t (nat.length + fresh.length) (k :: chain).dedup (1 + hops) true
  else if nat = [] then d1
  else d1.fire k t nat.length [k] 0 (nat.any fun c => !c.lattice)

/-- EVENT_LINE_FIRE: every cause of the earliest tick that has come registers at a line, which fires at most once. In
ASLEEP the matrix times itself (R489). A cause that comes after its line has fired in its tick is part of that firing (R479). -/
def eventLineFireOp (k : Nat) (d : Dev) : Dev :=
  let mine := d.ev.causes.filter fun c => c.line == k && (d.state == .asleep || decide (c.tick ≤ d.epoch))
  match mine with
  | [] => d
  | c :: cs =>
    let t := cs.foldl (fun m x => min m x.tick) c.tick
    let now := mine.filter (·.tick == t)
    let d1 := { d with ev := { d.ev with causes := d.ev.causes.filter fun x => !(x.line == k && x.tick == t) } }
    let nat := now.filter (·.src.isNone)
    let dels := now.filter (·.src.isSome)
    if d.rd (unitKey 0x700002 k) = 1 then d1.fireAnd k t nat dels else d1.fireOr k t nat dels

/-- LATTICE_EVENT (R493, R523, R528): the first copy of each path goes on; the first copy of all fires the line. -/
def latticeEventOp (c : CellHdr) (fireEpoch origin line : Nat) (path : Bool) (hops latticeId : Nat) (d : Dev) : Dev :=
  let p := d.rxCell c
  let d0 := p.1
  if !p.2 ∨ latticeId ≠ d0.rd 0x201002 ∨ origin = d0.chip ∨ 8 ≤ line then d0
  else
    let here := tabGet 0 d0.lat.evSeen (evIndex origin line path)
    let other := tabGet 0 d0.lat.evSeen (evIndex origin line (!path))
    if fireEpoch < here then d0
    else
      let d1 := { d0 with lat := { d0.lat with evSeen := tabSet 0 d0.lat.evSeen (evIndex origin line path) (fireEpoch + 1) } }
      let d2 := d1.spreadEvent fireEpoch origin line path (hops + 1) (some c.link)
      if fireEpoch < other then d2
      else if d2.rdB (objKey (0x70F8 + line) 5) && d2.state != .asleep then
        { d2 with ev := { d2.ev with causes := d2.ev.causes ++ [{ line := 0xF8 + line, tick := d2.epoch, lattice := true }] } }
      else d2

/-! ### Notification frames (R499 to R505) -/

/-- Whether a frame forms now (R499, R503). -/
def Dev.frameDue (d : Dev) : Bool :=
  let q := d.agg.queue
  let gap := match d.agg.lastFrame with
    | some t => decide (t + d.rd 0x740003 ≤ d.epoch)
    | none => true
  d.rdB 0x740005 && d.state != .asleep && gap
    && (q.any (fun e => d.slotClass e.slot == 0)
      || q.any (fun e => d.slotClass e.slot == 1 && decide (e.at_ + d.rd 0x740002 ≤ d.epoch))
      || decide (64 ≤ q.length))

/-- The entry of a slot (R505). -/
def Dev.entryOf (d : Dev) (s : Nat) : NEntry :=
  let k := (slotKey s).getD 0
  let a := tabGet (0, 0) d.agg.acc s
  { slot := s, idx := k / 256, sub := k % 256, cls := d.slotClass s, sets := a.1, value := d.rd k, new := a.2 }

/-- NOTIFICATION_FRAME: a frame forms from the queue (R500, R502, R504). -/
def notificationFrameOp (d : Dev) : Dev :=
  if d.frameDue then
    let order := d.agg.queue.mergeSort fun a b =>
      decide (d.slotClass a.slot * 4096 + a.slot ≤ d.slotClass b.slot * 4096 + b.slot)
    let out := (order.take 64).map (·.slot)
    let rest := d.agg.queue.filter fun e => !out.contains e.slot
    let seq := (d.rd 0x740001 + 1) % 2 ^ 32
    let f : NFrame :=
      { seq := seq, epoch := d.epoch, overflow := rest != [], afterWake := d.agg.afterWake, queued := rest.length,
        entries := out.map d.entryOf }
    let d1 := { d.wr 0x740001 seq with agg := { d.agg with
      queue := rest, acc := out.foldl (fun a s => tabErase s a) d.agg.acc, lastFrame := some d.epoch, afterWake := false
      formed := d.agg.formed ++ [f] } }
    if rest = [] then d1 else d1.flag 0x740004 0
  else d

/-- The bytes of a notification entry. -/
def NEntry.bytes (e : NEntry) : List Byte :=
  le 2 e.slot ++ le 2 e.idx ++ le 1 e.sub ++ le 1 e.cls ++ le 2 e.sets ++ le 4 e.value ++ le 4 e.new

/-- The bytes of a notification frame (R504). -/
def NFrame.bytes (f : NFrame) : List Byte :=
  le 2 7 ++ le 2 f.entries.length ++ le 4 f.seq ++ le 8 f.epoch ++ le 1 (bitAt f.overflow 0 + bitAt f.afterWake 1) ++ le 3 0
    ++ le 4 f.queued ++ le 8 0 ++ f.entries.flatMap NEntry.bytes

/-- A QOP header (R561). -/
def qopHeader (ftype ident plen seq cmd status dstate epoch : Nat) : List Byte :=
  le 2 0x5150 ++ le 1 1 ++ le 1 ftype ++ le 1 ident ++ le 1 0 ++ le 2 plen ++ le 8 seq ++ le 2 cmd ++ le 2 status
    ++ le 1 dstate ++ le 3 0 ++ le 8 epoch

/-- An identity's record. -/
def Dev.ident (d : Dev) (i : Nat) : Ident := tabGet {} d.qop.idents i

/-- NOTIFICATION_SEND (R501, R553, R555): the oldest frame formed goes to the notification destination, tagged with the
key of NOTIFY_IDENT; with no destination it is gone. -/
def notificationSendOp (d : Dev) : Dev :=
  match d.agg.formed with
  | [] => d
  | f :: rest =>
    if d.rd 0x180002 = 0 then { d with agg := { d.agg with formed := rest } }
    else
      let b := qopHeader 3 (d.rd 0x180004) f.bytes.length f.seq 0 0 d.state.code f.epoch ++ f.bytes
      { d with agg := { d.agg with
          formed := rest, sent := some f, sentTag := Config.hmac (d.ident (d.rd 0x180004)).key b } }

/-! ### Meanings -/

/-- EVENT_LINE_FIRE. -/
def execEventLineFire (k : Nat) (s : State) : Host.Outcome State Fault Refusal := .next (s.onNow (eventLineFireOp k))
/-- AND_EXPIRED. -/
def execAndExpired (k : Nat) (s : State) : Host.Outcome State Fault Refusal := .next (s.onNow (andExpiredOp k))
/-- A write of EV_FIRE (R484). -/
def execEvFire (k : Nat) (s : State) : Host.Outcome State Fault Refusal := .next (s.onNow (·.software k))
/-- LATTICE_EVENT. -/
def execLatticeEvent (c : CellHdr) (fireEpoch origin line : Nat) (path : Bool) (hops latticeId : Nat) (s : State) :
    Host.Outcome State Fault Refusal := .next (s.onNow (latticeEventOp c fireEpoch origin line path hops latticeId))
/-- NOTIFICATION_FRAME. -/
def execNotificationFrame (s : State) : Host.Outcome State Fault Refusal := .next (s.onNow notificationFrameOp)
/-- NOTIFICATION_SEND. -/
def execNotificationSend (s : State) : Host.Outcome State Fault Refusal := .next (s.onNow notificationSendOp)

end Sys2Proof.Machine
end

