-- ==== Sys2Proof/Machine/Shots.lean ====
section
/-! DEFINITION. The life of a shot: fixing its start, SHOT_START, the drain, the shot boundary and triggers (chapters 03,
08, 14, 16), and what the root of a multi-chip job does with the reports of its chips (R53, R592, R654, R655). -/

namespace Sys2Proof.Machine

/-! ### Threads and generators at a start (R96, R180, R181) -/

/-- i and s of a generator slot at the start of a shot index (R180, R181). -/
def genStartAt (g : GenDef) (shot : Nat) (kept : Option (Nat × Nat)) : Nat × Nat :=
  let seed := if g.kind = 4 then g.p3 else 0
  match g.mode with
  | 1 => kept.getD (0, seed)
  | 2 =>
    let s := Nat.xor seed (shot % 2 ^ g.p1)
    (0, if g.kind ≠ 4 then 0 else if s = 0 then seed else s)
  | _ => (0, seed)

/-- The generator slots of a canvas at the start of a shot, by slot. -/
def Job.gensAt (j : Job) (canvas shot : Nat) : Tab (Nat × Nat) :=
  (j.content.genBinds.filter fun b => b.canvas == canvas).foldl (fun m b =>
    match j.content.genDefs[b.defn]? with
    | none => m
    | some g =>
      let kept := (j.contGens.find? fun x => x.1 == 32 * canvas + b.gsel).map (·.2)
      tabSet (0, 0) m b.gsel (genStartAt g shot kept)) []

/-- i and s of the CONTINUE slots of a job as they stand, as (32 · canvas + slot, i, s). -/
def Dev.contNow (d : Dev) (j : Job) : List (Nat × Nat × Nat) :=
  (j.content.genBinds.filter fun b => ((j.content.genDefs[b.defn]?).map (·.mode)) == some 1).filterMap fun b =>
    (j.held.canvases.find? fun p => p.canvas == b.canvas).map fun p =>
      (32 * b.canvas + b.gsel, tabGet (0, 0) (d.thread p.thread).main.gens b.gsel)

/-- What a shot boundary sets in a thread, for a shot index (R96, R180, R303): empty queues and registers, no path, no
pending trap, no micro-state, CPC at its ENTRY, V0 to V15, its generators; `kept` gives i and s of the CONTINUE slots. -/
def Dev.resetThread (d : Dev) (j : Job) (p : CanvasPlace) (kept : List (Nat × Nat × Nat)) (shot : Nat) : Dev :=
  let d1 := d.squashAll p.thread
  let t := d1.thread p.thread
  let gens := ({ j with contGens := kept }).gensAt p.canvas shot
  let v := (List.range 15).foldl (fun m i => tabSet 0 m i (BitVec.ofNat 32 (d.rd (unitKey 0x400010 p.thread + i)))) []
  let c : Ctx := {
    cpc := d.rd (unitKey 0x400003 p.thread), cursor := t.main.cursor, v := tabSet 0 v 15 (BitVec.ofNat 32 shot), gens := gens }
  let u : Thread := { nextId := t.nextId, nextOrd := t.nextOrd, main := c, genStart := gens }
  let d2 := d1.setThread p.thread u
  { d2 with eas := { d2.eas with bus := d2.eas.bus.filter fun (b : BusWord) => b.n != p.thread } }

/-- A thread stands at the start of a shot whose SHOT_START is fixed (R96, R97): it may run from 96 ticks before it. -/
def Dev.startThread (d : Dev) (j : Job) (p : CanvasPlace) (start shot : Nat) : Dev :=
  let d1 := d.resetThread j p j.contGens shot
  let t := d1.thread p.thread
  d1.setThread p.thread { t with active := true, main := { t.main with cursor := start } }

/-- A thread rests: its registers are EMPTY, its queues empty, and it runs nothing. -/
def Dev.restThread (d : Dev) (n : Nat) : Dev :=
  let d1 := d.squashAll n
  let t := d1.thread n
  let d2 := d1.setThread n { t with active := false, handles := [], traps := [], inTrap := none, reads := [], launch := [] }
  { d2 with eas := { d2.eas with bus := d2.eas.bus.filter fun (b : BusWord) => b.n != n } }

/-- SHOT_START of the next shot is placed at a tick: every thread of the job at its start (R96, R97). -/
def Dev.placeStart (d : Dev) (seq start shot : Nat) : Dev :=
  match d.job seq with
  | none => d
  | some j =>
    let d1 := j.held.canvases.foldl (fun e p => e.startThread j p start shot) d
    d1.modJob seq fun k => { k with
      nextStart := some start, trigSent := false, shot := shot, shotGens := j.contGens, ackWait := false, spoilNext := false }

/-- The start of a shot is fixed; a tick that has already passed gives way to the next one, with LATE_EPOCH (R51). -/
def Dev.fixStart (d : Dev) (seq start shot : Nat) : Dev :=
  if start < d.epoch then (d.flag 0x200004 11).placeStart seq (d.epoch + 1) shot else d.placeStart seq start shot

/-- A start that has been fixed falls: the threads rest until the next one. DESIGN CHOICE (log entry 134): a trigger that the
start has taken is spent, and the job waits for another one. -/
def Dev.dropStart (d : Dev) (seq : Nat) : Dev :=
  match d.job seq with
  | none => d
  | some j =>
    (j.held.canvases.foldl (fun e p => e.restThread p.thread) d).modJob seq fun k => { k with nextStart := none }

/-! ### When a job may start its next shot (R588, R589, R600) -/

/-- Whether a replacement of a unit of the job waits for this boundary (R432). -/
def Dev.awaitsUnit (d : Dev) (j : Job) : Bool := d.hub.units.due.any (d.uses j)

/-- Whether RESULT_WINDOW lets a job start its next index: k − H ≤ W (R600). -/
def Job.windowOpen (j : Job) : Bool :=
  j.head.window == 0 || decide (j.nextShot + 1 ≤ j.head.window + (match j.acked with
    | some a => a + 1
    | none => 0))

/-- The result gates of R600: whether the job may start, with the flags of a wait that begins. -/
def Dev.resultGate (d : Dev) (j : Job) : Dev × Bool :=
  if !j.windowOpen then (if j.ackWait then d else (d.flag 0x180001 5).modJob j.seq fun k => { k with ackWait := true }, false)
  else if Config.resultSpace ≤ d.rd 0x18000C then
    (if j.ackWait then d else (d.flag 0x180001 6).modJob j.seq fun k => { k with ackWait := true }, false)
  else (d, true)

/-- A trigger input beside its objects. -/
def Dev.trigInOf (d : Dev) (i : Nat) : TrigIn := tabGet {} d.out.trigIn i

/-- Changes a trigger input. -/
def Dev.setTrigIn (d : Dev) (i : Nat) (t : TrigIn) : Dev :=
  { d with out := { d.out with trigIn := tabSet {} d.out.trigIn i t } }

/-- TI_FLAGS of an input. -/
def trigFlags (i : Nat) : Nat := unitKey 0x3A4007 i

/-- The least tick of the next start of a job on one chip, the trigger left out (R588, R589). -/
def Dev.startFloor (d : Dev) (j : Job) : Nat :=
  match j.phase with
  | .boundary => max (j.boundaryAt + j.head.gap) (d.epoch + 96)
  | _ => if j.head.startMode = 3 ∧ !j.started then max j.head.startEpoch (d.epoch + 96) else d.epoch + 96

/-- A triggered job takes the oldest queued or held trigger (R357, R358). -/
def Dev.takeTrigger (d : Dev) (i : Nat) : Option (Nat × Dev) :=
  let t := d.trigInOf i
  match t.held, t.queue with
  | some a, _ => some (a, d.setTrigIn i { t with held := none })
  | none, a :: l => some (a, d.setTrigIn i { t with queue := l })
  | none, [] => none

/-- Whether a job starts without waiting for a command or a trigger (R588, R658). -/
def Job.selfStarts (j : Job) : Bool := j.started || j.served || j.head.startMode == 0 || j.head.startMode == 3

/-- From root loss until the chip is JOINED again no new shot starts, nor in ISOLATED (R81, R85). -/
def Dev.noNewShot (d : Dev) : Bool := d.lat.st == .holdover || d.lat.st == .resync || d.lat.st == .isolated

/-- Whether a resident job stands between shots with no start fixed and may seek one. One in DRAINING repeats its last
shot. -/
def Dev.canSeek (d : Dev) (j : Job) : Bool :=
  (j.st == .armed || j.st == .running || (j.st == .draining && !j.haltDue && !j.cancelDue)) && (j.phase == .waiting || j.phase == .boundary) && j.nextStart.isNone
    && !j.stopDue && !d.awaitsUnit j && (j.head.multiChip || !d.noNewShot)

/-- The report of a chip of a multi-chip job: the index that it needs next (R53, the paragraph before R654). -/
def Dev.drainReport (d : Dev) (j : Job) : LatMsg :=
  let need := match j.tentative with
    | some a => a.shot + 1
    | none => j.nextShot
  { src := d.chip, dst := d.rd 0x201102, jobSlot := j.slot, shot := need % 2 ^ 32, jobSeq := j.head.ljob,
    epoch := j.drainAt }

/-- Whether a decision word of a job that the chip must send, its own or one that it forwards (R298), is still on one of its links
(R300). -/
def Dev.wordsWait (d : Dev) (j : Job) : Bool :=
  let mine : W64 → Bool := fun w =>
    let c := bits w.toNat 26 21
    w.toNat.testBit 31 && (if c = d.chip % 64 then j.held.canvases.any fun p => p.thread == bits w.toNat 20 12
      else j.head.chips.testBit c && j.shot % 256 == bits w.toNat 55 48)
  (List.range 12).any fun k => ((d.link k).decisions.any fun w => mine w.2.2)
    || (d.link k).waiting.any fun b => match b with
      | .decision _ w0 w1 => mine w0 || mine w1
      | _ => false

/-- The chip reports the completion of its drain for a job (R53), or waits until every decision word of the shot has left its
links (R300). -/
def Dev.reportDrain (d : Dev) (j : Job) : Dev :=
  if d.wordsWait j then d.modJob j.seq fun k => { k with drainWait := true }
  else
    let m := d.drainReport j
    (d.modJob j.seq fun k => { k with drainSent := some m, drainWait := false, ackWait := false }).sendDrain m

/-- The root notes an entry of a job beside the chips' reports: 64 a trigger, 65 a halt or cancellation, 66 a resume. -/
def Dev.putDrain (d : Dev) (ljob chip shot : Nat) : Dev :=
  let keep := d.lat.drains.filter fun r => !(r.ljob == ljob && r.chip == chip)
  { d with lat := { d.lat with drains := keep ++ [{ ljob := ljob, chip := chip, shot := shot, at_ := d.epoch }] } }

/-- A trigger of capture tick t for the next shot of a job reaches the root; the first one counts. -/
def Dev.noteTrigger (d : Dev) (ljob t : Nat) : Dev :=
  if d.lat.drains.any fun r => r.ljob == ljob && r.chip == 64 then d else d.putDrain ljob 64 t

/-- A trigger of a multi-chip job goes to the root (R357). -/
def Dev.sendTrigger (d : Dev) (j : Job) (t : Nat) : Dev :=
  let d := d.modJob j.seq fun k => { k with trigSent := true }
  let m : LatMsg := {
    src := d.chip, dst := d.rd 0x201102, jobSlot := j.slot, shot := 0, jobSeq := j.head.ljob, epoch := t }
  if m.dst = d.chip then d.noteTrigger j.head.ljob t else d.sendMsg 3 m

/-- A job on one chip that may start fixes its next start; a triggered one when a trigger waits. A chip of a multi-chip
job reports to the root instead, once for each start that it needs. -/
def Dev.seek (d : Dev) (seq : Nat) : Dev :=
  match d.job seq with
  | none => d
  | some j =>
    if !d.canSeek j then d
    else
      let g := d.resultGate j
      if !g.2 then g.1
      else if j.head.multiChip then
        if j.drainSent.isSome ∨ (j.head.startMode = 1 ∧ !j.started ∧ !j.served) then d
        else
          let d1 := d.reportDrain j
          if j.head.startMode = 2 ∧ !d.wordsWait j ∧ !j.trigSent then
            match d1.takeTrigger j.head.trigInput with
            | none => d1
            | some (t, d2) => d2.sendTrigger j t
          else d1
      else if j.head.startMode = 2 then
        match d.takeTrigger j.head.trigInput with
        | none => d
        | some (t, d1) =>
          let after := if j.phase = .boundary then j.drainAt + 96 else 0
          d1.fixStart seq (alignUp (max (max (t + 120) after) (d.startFloor j))) j.nextShot
      else if j.selfStarts then d.fixStart seq (alignUp (d.startFloor j)) j.nextShot
      else d

/-! ### The root of a multi-chip job (R53, R357, R592, R654, R655) -/

/-- CHIPS, SHOTS, whether it starts by trigger, and the earliest start of a multi-chip job, as the root knows them. -/
def Dev.ljobInfo (d : Dev) (ljob : Nat) : Nat × Nat × Bool × Nat :=
  match d.hub.jobs.find? fun j => j.head.multiChip && j.head.ljob == ljob && j.st.resident with
  | some j => (j.head.chips, j.head.shots, j.head.startMode == 2, if j.head.startMode = 3 then j.head.startEpoch else 0)
  | none => Config.ljobFacts ljob

/-- An entry of the root for a job. -/
def Lat.drainOf (l : Lat) (ljob chip : Nat) : Option DrainRep := l.drains.find? fun r => r.ljob == ljob && r.chip == chip

/-- The root forgets an entry of a job. -/
def Dev.dropDrain (d : Dev) (ljob : Nat) (p : Nat → Bool) : Dev :=
  { d with lat := { d.lat with drains := d.lat.drains.filter fun (r : DrainRep) => !(r.ljob == ljob && p r.chip) } }

/-- An index of which a message gives the low 32 bits, near another index. -/
def nearIndex (base low : Nat) : Nat := ((base : Int) + sext 32 (low + 2 ^ 32 - base % 2 ^ 32)).toNat

/-- The start that the root sets for a job: its index mod 2³² and its epoch, when every chip has reported and nothing
holds the job back. -/
def Dev.rootStart (d : Dev) (ljob : Nat) : Option (Nat × Nat) :=
  let info := d.ljobInfo ljob
  let chips := onesOf 64 info.1
  let reps := chips.filterMap fun c => d.lat.drainOf ljob c
  if d.lat.st ≠ .root ∨ chips = [] ∨ reps.length ≠ chips.length ∨ (d.lat.drainOf ljob 65).isSome then none
  else
    let base := (reps.headD { ljob := 0, chip := 0, shot := 0, at_ := 0 }).shot
    let least := reps.foldl (fun m r => min m (nearIndex (base + 2 ^ 40) r.shot)) (base + 2 ^ 40)
    let need := least % 2 ^ 32
    let ends := need == info.2.1 % 2 ^ 32
    let lag := (chips.filter (· != d.chip)).foldl (fun m c => max m (Config.latencyTo c)) 0
    let last := reps.foldl (fun m r => max m r.at_) 0
    let resumed := match d.lat.drainOf ljob 66 with
      | some r => r.at_ + 96
      | none => 0
    let low := max (max (last + lag + 75) resumed) info.2.2.2
    match info.2.2.1 && !ends, d.lat.drainOf ljob 64 with
    | false, _ => some (need, alignUp low)
    | true, some t => some (need, alignUp (max low (max (t.at_ + lag + 75) (t.shot + 120))))
    | true, none => none

/-- A discarded attempt that was tentatively final (R635, R655). -/
def Dev.discardTentative (d : Dev) (j : Job) (a : Attempt) : Dev :=
  let n := j.discards + 1
  let d1 := ((d.modJob j.seq fun k => { k with tentative := none, discards := n }).flag 0x781001 1).bbWrite 3 0 0 0 j.seq
    a.shot (le 2 0)
  if d.rd 0x780008 ≤ n then
    ((d1.modJob j.seq fun k => { k with stopDue := true, endCause := 5 }).flag 0x781001 2).bbWrite 3 0 0 0 j.seq a.shot
      (le 2 0)
  else d1

/-- The triggers that a job leaves behind are discarded, one that it has sent to the root and that started no shot among them
(R361). -/
def Dev.dropTriggers (d : Dev) (j : Job) : Dev :=
  match j.held.trig with
  | none => d
  | some i =>
    let t := d.trigInOf i
    let n := t.queue.length + (if t.held.isSome then 1 else 0) + (if j.trigSent then 1 else 0)
    let d1 := d.setTrigIn i { t with queue := [], held := none }
    if n = 0 then d1 else d1.flagN (trigFlags i) 3 n

/-- A job ends: every index is final (R590). A calibration job waits for its fits (R450). -/
def Dev.finishJob (d : Dev) (j : Job) : Dev :=
  let d1 := (d.endJob j.seq .ended 1).dropTriggers j
  if j.head.calibration then
    { d1 with cal := { d1.cal with fits := d1.cal.fits ++ j.content.calib.map fun r =>
        { qubit := r.qubit, job := j.seq, shot := j.shot, capture := r.capture, groups := r.dtags.map fun t =>
            (j.fit.filter fun x => x.qubit == r.qubit && x.dtag == t).map fun x => (x.i, x.q) } } }
  else d1

/-- A job that runs no more between shots leaves residence at once. -/
def Dev.leaveResidence (d : Dev) (seq : Nat) : Dev :=
  match d.job seq with
  | none => d
  | some j => ((d.release j).flushStage).leaveIfDone seq

/-- SHOT_START as a chip of the job takes it (R82, R655): an index above the tentative one makes it final, the same
index discards it; SHOTS ends the job; any other index fixes the start. -/
def Dev.takeShotStart (d : Dev) (m : LatMsg) : Dev :=
  match d.hub.jobs.find? fun j => j.head.multiChip && j.head.ljob == m.jobSeq && j.st.resident with
  | none => d
  | some j =>
    if j.phase = .shot ∨ j.phase = .drained then d
    else
      let k := nearIndex j.nextShot m.shot
      let d1 : Dev := match j.tentative with
        | none => d
        | some a =>
          if a.shot < k then
            d.modJob j.seq fun x => { x.finish a with tentative := none, contGens := x.contEnd }
          else d.discardTentative j a
      let d2 := d1.modJob j.seq fun x => { x with drainSent := none }
      match d2.job j.seq with
      | none => d2
      | some j2 =>
        if j2.head.shots ≤ k then (d2.finishJob j2).leaveResidence j.seq
        else if j2.stopDue then (d2.stopJob j.seq).flushStage
        else if d2.awaitsUnit j2 then d2
        else d2.fixStart j.seq m.epoch k

/-- The root sends a message of a kind to every chip of a job but its own. -/
def Dev.toChips (d : Dev) (ljob kind : Nat) (m : LatMsg) : Dev :=
  ((onesOf 64 (d.ljobInfo ljob).1).filter (· != d.chip)).foldl (fun e c =>
    e.sendMsg kind { m with src := d.chip, dst := c }) d

/-- The root sets the next start of a job when it can, and sends it to every chip (R53, R654). -/
def Dev.rootTry (d : Dev) (ljob : Nat) : Dev :=
  match d.rootStart ljob with
  | none => d
  | some (shot, start) =>
    let m : LatMsg := { src := d.chip, dst := d.chip, jobSlot := 0, shot := shot, jobSeq := ljob, epoch := start }
    let d1 := d.toChips ljob 2 m
    (d1.dropDrain ljob fun _ => true).takeShotStart m

/-- The root looks at every job of which it holds a report. -/
def Dev.rootAll (d : Dev) : Dev := ((d.lat.drains.map (·.ljob)).dedup).foldl Dev.rootTry d

/-- A job seeks its next start; the root goes on with what that may have completed. -/
def Dev.seekStart (d : Dev) (seq : Nat) : Dev :=
  let d1 := d.seek seq
  if d1.lat.st = .root then d1.rootAll else d1

/-- The drain reports that waited for decision words that have now left (R300). -/
def Dev.drainTick (d : Dev) : Dev :=
  (d.resident.filter fun j => j.drainWait && !d.wordsWait j).foldl (fun e (j : Job) =>
    let e1 := e.modJob j.seq fun k => { k with drainWait := false }
    if j.st = .halted then (e1.reportDrain j).rootAll else e1.seekStart j.seq) d

/-! ### SHOT_START (R51, R52, R82, R96, R590, R633) -/

/-- What begins with a shot, beside the job's own fields: the channels that are not off take units for it from its SHOT_START on
(R341 to R343). -/
def Dev.beginShot (d : Dev) (j : Job) (t : Nat) : Dev :=
  let d1 := j.held.cores.foldl (fun e c =>
    if e.rd (unitKey 0x580001 c) = 0 then e.wr (unitKey 0x580001 c) 1 else e) (d.produce 0x8C)
  let d2 := j.held.acq.foldl (fun e c =>
    if e.rd (unitKey 0x510001 c) = 0 then e
    else (e.acqBegin c { since := t, seq := j.seq, shot := j.shot, attempt := j.attempt + 1 }).addCond c 12 t) d1
  (d2.trigCause 2 none t).syncState

/-- SHOT_START: the attempt begins. One that comes after its tick is placed at the present one, with LATE_EPOCH (R51). -/
def shotStartOp (seq : Nat) (d : Dev) : Dev :=
  match d.job seq with
  | none => d
  | some j =>
    match j.nextStart with
    | none => d
    | some t =>
      if !j.st.resident || j.st == .halted || !(j.phase == .waiting || j.phase == .boundary) || decide (d.epoch < t) then d
      else if j.head.multiChip && !(d.lat.st == .joined || d.lat.st == .root) then
        (d.dropStart seq).reportDrain j
      else if d.noNewShot then d.dropStart seq
      else
        let late := decide (t < d.epoch)
        let t := max t d.epoch
        let d := if late then (d.flag 0x200004 11).placeStart seq t j.shot else d
        let n := j.attempt + 1
        let last := decide (j.shot + 1 = j.head.shots) || j.haltDue || j.cancelDue
        let wall := d.wallStamp t
        let d1 := ((if j.started then d else d.restartPeaks j).noteStamp t).modJob seq fun k => { k with
          phase := .shot, shotStart := t, nextStart := none, attempt := n, spoiled := k.spoilNext, spoilNext := false, discarded := false
          started := true, lastStart := t, lastWall := wall, st := if last then .draining else .running
          rerunCount := if 1 < n then k.rerunCount + 1 else k.rerunCount }
        d1.beginShot j t

/-! ### The drain (R82, R98, R265, R350, R402, R404, R590, R636, R637) -/

/-- Whether no post-trigger run of a channel is in progress, nor one about to start at a sample that has landed (R350). -/
def Dev.runsDone (d : Dev) (c : Nat) : Bool :=
  d.acqState c != 2 && (d.acqState c != 1 || (d.metConds c).all fun p => decide (d.epoch < d.unitTick c p.2))

/-- Whether the drain of a shot is complete. -/
def Dev.drained (d : Dev) (j : Job) : Bool :=
  d.windowsDone j && j.held.acq.all d.runsDone
    && (j.discarded || j.held.cores.all fun c =>
      (d.core c).done || d.rd (unitKey 0x580001 c) == 2 || d.rd (unitKey 0x580001 c) == 5)

/-- What is left in a core's FIFO is discarded and counted (R404), and the next shot asks for a new BDONE. -/
def Dev.closeCore (d : Dev) (c : Nat) : Dev :=
  let k := d.core c
  let n := k.fifo.length
  let d1 := (d.setCore c { k with fifo := [], done := false }).wr (unitKey 0x58000A c) 0
  if n = 0 then d1 else d1.bump (ctrKey (0xCD0 + c) 0x41) n

/-- The drain of a shot completes on a channel: a streaming one delivers what lands up to this tick (R341), and a CAPTURE one still
waiting for a trigger closes without a record (R350). -/
def Dev.closeChannel (d : Dev) (c : Nat) : Dev :=
  let st := d.acqSt c
  match d.acqState c with
  | 3 => d.setAcq c { st with legs := st.legs.map fun l => { l with stop := some (l.stop.getD d.epoch) } }
  | 1 => (d.wr (unitKey 0x510013 c) 0).setAcq c { lastIdx := st.lastIdx }
  | _ => d

/-- What becomes of the attempt that has drained: run again, final, or for a multi-chip job tentatively final. DESIGN CHOICE (log
entry 135): its stamp takes the wall-clock anchor as it stands now, and its age counts to SHOT_START (R92). -/
def Dev.settleAttempt (d : Dev) (j : Job) : Dev :=
  let a := j.attempted (d.wallStamp j.shotStart)
  let cont := d.contNow j
  let d := d.noteStamp j.shotStart
  let base := fun (k : Job) => { k with recs := k.recsNext, recsNext := [], spoiledCount := if j.spoiled then k.spoiledCount + 1 else k.spoiledCount }
  if j.discarded then d.modJob j.seq base
  else if j.spoiled ∧ j.spoiledRuns + 1 ≤ j.head.spoilRetry ∧ !j.cancelDue then
    d.modJob j.seq fun k => { base k with spoiledRuns := k.spoiledRuns + 1 }
  else if j.head.multiChip then
    d.modJob j.seq fun k => { base k with tentative := some a, contEnd := cont }
  else d.modJob j.seq fun k => { (base k).finish a with contGens := cont, contEnd := cont }

/-- The state that a job takes when its drain completes (R590, R591): a cancellation overrides a halt. A job whose last
shot is not yet final stays in DRAINING, which it leaves for ENDED, HALTED or CANCELLED alone. -/
def Dev.afterDrain (d : Dev) (j : Job) : Dev :=
  if j.cancelDue then (d.endJob j.seq .cancelled 2).dropTriggers j
  else if !j.head.multiChip && decide (j.head.shots ≤ j.nextShot) then d.finishJob j
  else if j.haltDue then (d.modJob j.seq fun k => { k with st := .halted, haltDue := false }).syncState
  else if j.shot + 1 = j.head.shots then d
  else (d.modJob j.seq fun k => { k with st := .running }).syncState

/-- DRAIN_COMPLETE. -/
def drainCompleteOp (seq : Nat) (d : Dev) : Dev :=
  match d.job seq with
  | none => d
  | some j =>
    if j.inShot && d.drained j then
      let d1 := (j.held.acq.foldl Dev.closeChannel (j.held.cores.foldl Dev.closeCore d)).produce 0x8D
      let d2 := (d1.settleAttempt j).modJob seq fun k => { k with phase := .drained, drainAt := d.epoch }
      match d2.job seq with
      | none => d2
      | some k => d2.afterDrain k
    else d

/-! ### The shot boundary (R96, R214, R225, R237, R409, R462, R578 to R581, R709) -/

/-- A commit is complete when nothing of it waits (R581). -/
def Dev.commitDone (d : Dev) : Dev :=
  match d.qop.commit with
  | none => d
  | some p =>
    if p.others = [] ∧ p.jobs = [] then
      ({ d with qop := { d.qop with commit := none } }).wrs [(0x180006, 2), (0x180008, d.epoch)]
    else d

/-- The words of the pending commit for a job. -/
def Dev.jobWords (d : Dev) (slot : Nat) : Option JobWords :=
  d.qop.commit.bind fun p => p.jobs.find? fun w => w.slot == slot

/-- Whether the boundary of a job may begin: no word of a commit that does not refuse a stretch is still to load. -/
def Dev.wordsReady (d : Dev) (j : Job) : Bool :=
  match d.jobWords j.slot with
  | none => true
  | some w => (match w.loadedAt with
    | some t => decide (t < d.epoch)
    | none => false) || (d.qop.commit.map (·.refuse)).getD false

/-- The commit's words of a job take effect, with the stretch that their loading caused. -/
def Dev.applyJobWords (d : Dev) (j : Job) : Dev :=
  match d.qop.commit, d.jobWords j.slot with
  | some p, some w =>
    match w.loadedAt with
    | none => d
    | some t =>
      if d.epoch ≤ t ∨ (p.refuse ∧ j.drainAt < t) then d
      else
        let late := t - j.drainAt
        let d1 := if late = 0 then d else (d.wrs [(0x180009, late), (0x18000A, max late (d.rd 0x18000A))]).flag 0x180001 3
        let d2 := d1.applyWords (w.items.map fun (i : Staged) => (i.key, i.val))
        ({ d2 with qop := { d2.qop with commit := some { p with jobs := p.jobs.filter fun (x : JobWords) => x.slot != j.slot } } }).commitDone
  | _, _ => d

/-- Every frame of a canvas takes its FREQ_INIT and VPH_INIT from the job (R214, R583); the receive frame is frame 0 again
(R253). -/
def Dev.resetFrames (d : Dev) (j : Job) (p : CanvasPlace) : Dev :=
  let row := j.content.canvases[p.canvas]?
  let d2 := (List.range 8).foldl (fun (x : Dev) i =>
    x.setFrame (frameIdx p.thread (i / 4) (i % 4)) {
      freq := (row.map fun r => r.freqInit.getD i 0).getD 0
      vph := (row.map fun r => r.vphInit.getD i 0).getD 0 }) d
  match p.readSlot with
  | none => d2
  | some s =>
    let d3 := d2.setSlotRx s { d2.slotRx s with frame := 0 }
    d3.receiveChange s (32 * d.epoch + d.lineAlign (s / 16)) (d3.frame (frameIdx p.thread 1 0))

/-- The hold values of a job's flux channels: HOLD_INIT, or IDLE_CODE for a job that runs no shots (R225). -/
def Dev.resetHolds (d : Dev) (j : Job) : Dev :=
  let runs := j.st == .armed || j.st == .running || j.st == .draining
  j.held.flux.foldl (fun e c => if runs then e.setHold c (sext 16 (e.rd (unitKey 0x340003 c)))
    else e.setIdle c (sext 16 (e.rd (unitKey 0x340002 c)))) d

/-- The streams of a job start again at their beginning (R184): READ_POS is 0, the ring is empty, and the head copy stays
(R186). -/
def Dev.restartStreams (d : Dev) (j : Job) : Dev :=
  j.held.streams.foldl (fun e k => (e.wrs [(unitKey 0x488001 k, 2), (unitKey 0x488008 k, 0), (unitKey 0x488009 k, 0),
    (unitKey 0x48800A k, 0)]).setStream k { head := (e.streamSt k).head, ringAt := e.rd (unitKey 0x488006 k) }) d

/-- A halted core resumes at 0x0020 (R409). -/
def Dev.restartCores (d : Dev) (j : Job) : Dev :=
  j.held.cores.foldl (fun e c =>
    if e.rd (unitKey 0x580001 c) = 2 then
      (e.setCore c { e.core c with pc := 0x20, branch := none, repeat_ := 0, loops := [] }).wrs
        [(unitKey 0x580001 c, if c = 16 then 4 else 1), (unitKey 0x58000F c, 0x20)]
    else e) d

/-- Markers of the job's tiles are to return to IDLE_LEVEL (R237): those that stand at another level, and those on which
changes of the shot have still to land. The first land tick of the boundary comes 18 ticks after its first tick (R196). -/
def Dev.idleMarkers (d : Dev) (j : Job) : Dev :=
  let ms := ((j.held.canvases.map (·.tile)).dedup).flatMap fun t => (List.range 8).map (8 * t + ·)
  let ns := j.held.canvases.map (·.thread)
  ms.foldl (fun e m =>
    let k := e.marker m
    if e.markerLevel m = e.rdB (objKey (0x3A00 + m) 9) ∧ k.moved = [] ∧ !(k.changes.any fun c => ns.contains c.n) then e
    else e.setMarker m { k with idleAt := k.idleAt ++ [(128 * (e.epoch + 18), ns)] }) d

/-- The index of the shot that follows as the chip knows it, and i and s of the CONTINUE slots at its start: a
tentatively final attempt counts as final (R181, R654). -/
def Job.following (j : Job) : Nat × List (Nat × Nat × Nat) :=
  match j.tentative with
  | some a => (a.shot + 1, j.contEnd)
  | none => (j.nextShot, j.contGens)

/-- The threads of a job at the first tick of a boundary (R96, R709): set anew for the shot that follows, or at rest when
the job has left residence. -/
def Dev.boundaryThreads (d : Dev) (j : Job) : Dev :=
  let f := j.following
  j.held.canvases.foldl (fun e p =>
    if j.st.resident then (e.resetFrames j p).resetThread j p f.2 f.1 else (e.resetFrames j p).restThread p.thread) d

/-- Every unit of a job is set anew at a boundary. -/
def Dev.boundaryResets (d : Dev) (j : Job) : Dev :=
  let d1 := d.boundaryThreads j
  (((d1.resetHolds j).restartStreams j).restartCores j).idleMarkers j

/-- ROUTE entries that were to change at a boundary of a multi-chip job are written (R434). -/
def Dev.boundaryRoutes (d : Dev) (j : Job) : Dev :=
  let links := d.hub.units.due.filter fun u => match u with
    | .link _ => true
    | _ => false
  if links = [] ∨ !j.head.multiChip then d
  else
    let d1 := { d with hub := { d.hub with units := { d.hub.units with due := d.hub.units.due.filter fun u => !links.contains u } } }
    ((d1.setRoutes).flag 0x600001 1).report 2 j.slot j.seq j.nextShot 0 (links.map retiredEntry)

/-- SHOT_BOUNDARY: the first tick of the boundary after a drain. -/
def shotBoundaryOp (seq : Nat) (d : Dev) : Dev :=
  match d.job seq with
  | none => d
  | some j =>
    if j.phase = .drained ∧ j.drainAt < d.epoch ∧ d.wordsReady j then
      let host := (d.jobWords j.slot).map (fun w => w.items.map (·.key)) |>.getD []
      let d1 := (((d.applyStage seq host).applyJobWords j).boundaryResets j).hkTrigger 3
      let d2 := (d1.boundaryRoutes j).modJob seq fun k => { k with phase := .boundary, boundaryAt := d.epoch }
      if !j.st.resident then (d2.modJob seq fun k => { k with phase := .waiting }).leaveResidence seq
      else if j.stopDue then (d2.stopJob seq).flushStage
      else if j.st = .halted then
        (if j.head.multiChip then (d2.reportDrain j).rootAll else d2)
      else d2.seekStart seq
    else d

/-! ### Trigger inputs (R355 to R360) -/

/-- A trigger of capture tick t waits in the queue of an input, which has 4 places; a held one takes one (R358, R367). -/
def Dev.queueTrigger (d : Dev) (i t : Nat) : Dev :=
  let x := d.trigInOf i
  if 4 ≤ x.queue.length + (if x.held.isSome then 1 else 0) then d.flag (trigFlags i) 0
  else d.setTrigIn i { x with queue := x.queue ++ [t] }

/-- A trigger of capture tick t of a job's shot trigger (R357 to R360). DESIGN CHOICE (log entry 145): on a chip whose trigger is on
its way to the root, which may have fixed the start already, the busy interval counts as begun. -/
def Dev.shotTrigger (d : Dev) (i c : Nat) (j : Job) : Dev :=
  let t := d.trigInOf i
  let busy := j.nextStart.isSome || j.phase == .shot || j.trigSent
  if !busy then
    if j.head.multiChip && j.drainSent.isSome then d.sendTrigger j c else (d.queueTrigger i c).seek j.seq
  else
    match d.rd (unitKey 0x3A4003 i) with
    | 1 => d.flag (trigFlags i) 1
    | 2 =>
      if t.held.isSome then (d.setTrigIn i { t with held := some c }).flag (trigFlags i) 2
      else d.setTrigIn i { t with held := some c }
    | _ => d.queueTrigger i c

/-- Whether an edge of an input is a trigger (R355): of the kind that TI_EDGE selects, the level having held for TI_MIN_WIDTH
ticks. -/
def Dev.qualifies (d : Dev) (i : Nat) (rising : Bool) (edge : Nat) : Bool :=
  let kind := d.rd (unitKey 0x3A4001 i)
  (kind == 2 || rising == (kind == 0)) && decide (edge + d.rd (unitKey 0x3A4002 i) ≤ d.epoch)

/-- TRIG_IN (R355, R356): an edge whose level has held since its land tick; a trigger of that capture tick, at most one in a tick. -/
def trigInOp (i : Nat) (rising : Bool) (edge : Nat) (d : Dev) : Dev :=
  if (d.trigInOf i).last = some edge ∨ !d.qualifies i rising edge then d
  else
    let d1 := (d.setTrigIn i { d.trigInOf i with last := some edge }).wr (unitKey 0x3A4004 i) edge
    let d2 := d1.produceAt (0x80 + i) edge
    let d3 := (List.range 128).foldl (fun e c =>
      if e.rd (unitKey 0x51000B c) = i then e.addCond c 8 edge else e) d2
    let d4 := d3.trigCause 4 (some i) edge
    match d4.resident.find? fun j => j.held.trig == some i with
    | none => d4
    | some j =>
      let d5 := d4.shotTrigger i edge j
      if d5.lat.st = .root then d5.rootAll else d5

/-! ### Meanings -/

/-- SHOT_START. -/
def execShotStart (job : Nat) (s : State) : Host.Outcome State Fault Refusal := .next (s.onNow (shotStartOp job))
/-- DRAIN_COMPLETE. -/
def execDrainComplete (job : Nat) (s : State) : Host.Outcome State Fault Refusal :=
  .next (s.onNow (drainCompleteOp job))
/-- SHOT_BOUNDARY. -/
def execShotBoundary (job : Nat) (s : State) : Host.Outcome State Fault Refusal :=
  .next (s.onNow (shotBoundaryOp job))
/-- TRIG_IN. -/
def execTrigIn (i : Nat) (rising : Bool) (edge : Nat) (s : State) : Host.Outcome State Fault Refusal :=
  .next (s.onNow (trigInOp i rising edge))

end Sys2Proof.Machine
end

