-- ==== Sys2Proof/Machine/Jobs.lean ====
section
/-! DEFINITION. Jobs as a whole: placement, HALT, RESUME and CANCEL on one chip and through the root, sprouting and moving
of units, and what a restore or a received decision block does (chapters 10, 14, 16). -/

namespace Sys2Proof.Machine

/-! ### HALT, RESUME, CANCEL on this chip (R590 to R592, R653, R661) -/

/-- A job enters HALTED (R590, R225). -/
def Dev.enterHalted (d : Dev) (j : Job) : Dev :=
  let d1 := (d.dropStart j.seq).modJob j.seq fun k => { k with st := .halted, haltDue := false }
  let d2 := match d1.job j.seq with
    | some k => if k.phase = Phase.drained then d1 else d1.resetHolds k
    | none => d1
  d2.syncState

/-- HALT of a resident job (R591): none aborts a shot that has started; between shots it holds at once. A chip of a
multi-chip job whose start the root has fixed runs that shot. -/
def Dev.localHalt (d : Dev) (seq : Nat) : Dev :=
  match d.job seq with
  | none => d
  | some j =>
    if j.st = .armed ∨ j.st = .running then
      if j.phase = .shot ∨ (j.head.multiChip ∧ j.nextStart.isSome) then
        (d.modJob seq fun k => { k with haltDue := true, st := .draining }).syncState
      else d.enterHalted j
    else d

/-- RESUME of a HALTED job (R591): the next shot starts at the first alignment point at least 96 ticks later; one that
waits for a trigger waits for it. -/
def Dev.localResume (d : Dev) (seq : Nat) : Dev :=
  match d.job seq with
  | none => d
  | some j =>
    if j.st = .halted then
      let d1 := (d.modJob seq fun k => { k with st := if k.started then .running else .armed, served := true }).syncState
      match d1.job seq with
      | none => d1
      | some k =>
        let d2 := if k.phase = .drained then d1 else d1.resetHolds k
        if k.head.multiChip || k.head.startMode == 2 then d2.seekStart seq
        else if d2.canSeek k then
          let g := d2.resultGate k
          if g.2 then g.1.fixStart seq (alignUp (d.epoch + 96)) k.nextShot else g.1
        else d2
    else d

/-- CANCEL (R591, R653, R661). -/
def Dev.localCancel (d : Dev) (seq : Nat) : Dev :=
  match d.job seq with
  | none => d
  | some j =>
    match j.st with
    | .accepted => d.leave seq
    | .placing => d.leave seq
    | .ended => d
    | .refused => d
    | .cancelled => d
    | .stopped => d
    | _ =>
      if j.phase = .shot ∨ (j.head.multiChip ∧ j.nextStart.isSome) then
        (d.modJob seq fun k => { k with cancelDue := true, haltDue := false, st := .draining }).syncState
      else
        let d1 := ((d.dropStart seq).endJob seq .cancelled 2).dropTriggers j
        if j.phase = .drained then d1 else d1.leaveResidence seq

/-- START (R588): the start of an ARMED job in mode HOST. -/
def Dev.localStart (d : Dev) (seq : Nat) : Dev := (d.modJob seq fun k => { k with served := true }).seekStart seq

/-! ### Messages of multi-chip jobs (R523, R592) -/

/-- The multi-chip job of an LJOB_ID that has not ended. -/
def Dev.ljob (d : Dev) (l : Nat) : Option Job :=
  d.hub.jobs.find? fun j => j.head.multiChip && j.head.ljob == l && (j.st.resident || j.st == .accepted || j.st == .placing)

/-- A message for another chip goes on along ROUTE; one for this chip is used. -/
def Dev.receiveMsg (d : Dev) (kind : Nat) (m : LatMsg) (use : Dev → Dev) : Dev :=
  if m.dst = d.chip then use d else d.sendMsg kind m

/-- A job command at the root, or from it: the root sends it to every chip and notes it; every chip applies it. -/
def Dev.jobCommand (d : Dev) (kind : Nat) (m : LatMsg) : Dev :=
  let root : Dev :=
    if d.lat.st = .root then
      let d1 := d.toChips m.jobSeq kind m
      if kind = 5 then (d1.dropDrain m.jobSeq (· == 65)).putDrain m.jobSeq 66 0
      else d1.putDrain m.jobSeq 65 (if kind = 6 then 1 else 0)
    else d
  let here : Dev := match root.ljob m.jobSeq with
    | none => root
    | some j => if kind = 4 then root.localHalt j.seq else if kind = 5 then root.localResume j.seq else root.localCancel j.seq
  if here.lat.st = .root then here.rootTry m.jobSeq else here

/-- DRAIN_DONE (R53, R82): the root counts the report. -/
def drainDoneOp (m : LatMsg) (d : Dev) : Dev :=
  d.receiveMsg 1 m fun e => if e.lat.st = .root then (e.takeDrain m).rootTry m.jobSeq else e

/-- SHOT_START message (R655). -/
def shotStartMsgOp (m : LatMsg) (d : Dev) : Dev := d.receiveMsg 2 m fun e => e.takeShotStart m

/-- TRIGGER message (R357). -/
def triggerMsgOp (m : LatMsg) (d : Dev) : Dev :=
  d.receiveMsg 3 m fun e => if e.lat.st = .root then (e.noteTrigger m.jobSeq m.epoch).rootTry m.jobSeq else e

/-- HALT message (R592). -/
def haltMsgOp (m : LatMsg) (d : Dev) : Dev := d.receiveMsg 4 m fun e => e.jobCommand 4 m

/-- RESUME message (R592). -/
def resumeMsgOp (m : LatMsg) (d : Dev) : Dev := d.receiveMsg 5 m fun e => e.jobCommand 5 m

/-- CANCEL message (R592). -/
def cancelMsgOp (m : LatMsg) (d : Dev) : Dev := d.receiveMsg 6 m fun e => e.jobCommand 6 m

/-- A command of the host for a multi-chip job goes to the root (R592). -/
def Dev.commandToRoot (d : Dev) (kind : Nat) (j : Job) : Dev :=
  let m : LatMsg := {
    src := d.chip, dst := d.rd 0x201102, jobSlot := j.slot, shot := 0, jobSeq := j.head.ljob, epoch := d.epoch }
  d.receiveMsg kind m fun e => e.jobCommand kind m

/-- The jobs that were held back seek their starts again (R81). -/
def Dev.seekAll (d : Dev) : Dev := d.resident.foldl (fun e (j : Job) => e.seekStart j.seq) d

/-- TAKEOVER, what the new root can set at once, and the end of what held jobs back (R81). -/
def takeoverAllOp (d : Dev) : Dev :=
  let d1 := takeoverOp d
  if d.lat.st ≠ .root ∧ d1.lat.st = .root then d1.rootAll.seekAll else d1

/-- RESYNC_COMPLETE: a chip that is JOINED again starts shots again (R81). -/
def resyncAllOp (offset : Int) (d : Dev) : Dev :=
  let d1 := resyncCompleteOp offset d
  if d.lat.st = .resync ∧ d1.lat.st = .joined then d1.seekAll else d1

/-! ### Placement (R414, R418, R419, R424, R425, R586, R657, R658) -/

/-- Whether the device state and the lattice state let the placement engine work (R70, R586). -/
def Dev.placing (d : Dev) : Bool :=
  !(d.lat.st == .listening || d.lat.st == .locking || d.lat.st == .aligning) &&
  (d.state == .primed || d.state == .armed || d.state == .running || d.state == .draining || d.state == .halted)
      && !d.pwr.sleeping

/-- Whether words that only PRIMED lets take effect are still loading (R65, R412, R551). -/
def Dev.wiringLoads (d : Dev) : Bool :=
  d.qop.commit.any fun p => p.others.any fun (s : Staged) =>
    s.key / 256 == 0x2010 || (decide (0x2400 ≤ s.key / 256 ∧ s.key / 256 ≤ 0x240B) && s.key % 256 == 2) || decide (0x6100 ≤ s.key / 256 ∧ s.key / 256 ≤ 0x62FF)

/-- The job next for placement: the least JOB_SEQ of those accepted, when fewer than 8 are resident and no job that has
run its last shot still holds its units. DESIGN CHOICE (log entry 108): placement waits while lattice or wiring words of a
COMMIT load, since they take effect in PRIMED alone (R65, R412) and within their time (R578). -/
def Dev.nextJob (d : Dev) : Option Job :=
  if d.placing && !d.wiringLoads && decide (d.resident.length < 8)
      && !(d.hub.jobs.any fun j => !j.st.resident && j.held.canvases != []) then
    (d.hub.jobs.filter fun j => j.st == .accepted || j.st == .placing).foldl (fun m j => match m with
      | none => some j
      | some k => if j.seq < k.seq then some j else some k) none
  else none

/-- A job is refused (R424, R425). -/
def Dev.refuseJob (d : Dev) (j : Job) (fs : List Failure) : Dev :=
  let reason := fs.foldl (fun m f => min m f.reason) ((fs.head?.map (·.reason)).getD 0)
  let d1 := d.modJob j.seq fun k => { k with st := .refused, endCause := 3 }
  (d1.report 1 j.slot j.seq 0 reason ((fs.take 255).map Failure.entry)).flag 0x600001 4

/-- PLACEMENT: the next job is refused, or placed and ARMED; a recovered HALTED job stays HALTED. -/
def placementOp (d : Dev) : Dev :=
  match d.nextJob with
  | none => d
  | some j =>
    match d.failures j.head (d.withFits j.content) with
    | f :: fs => d.refuseJob j (f :: fs)
    | [] =>
      let d1 := (d.settle j).modJob j.seq fun k => { k with
        st := if k.haltDue then .halted else .armed, haltDue := false, armedAt := d.epoch, phase := .waiting
        shot := k.nextShot, nextStart := none, drainSent := none, trigSent := false, ackWait := false }
      match d1.job j.seq with
      | none => d1
      | some k =>
        let d2 := (k.held.canvases.foldl (fun x p => x.resetFrames k p) d1).resetHolds k
        let d3 := (d2.report 0 k.slot k.seq 0 0 (d2.placedEntries k k.held)).syncState
        d3.seekStart k.seq

/-! ### Sprouting and moving (R428 to R432) -/

/-- The users of a unit that stand between shots. -/
def Dev.readyUsers (d : Dev) (u : UnitRef) : List Job :=
  (d.users u).filter fun j => j.phase == .waiting || j.phase == .boundary

/-- The stretch of a boundary by a replacement (R432), its report and its record. A job that has not started a shot yet has no
boundary to stretch. -/
def Dev.noteMove (d : Dev) (u : UnitRef) (js : List Job) (es : Job → List (List Byte)) : Dev :=
  let long := js.foldl (fun m j => if j.phase = .boundary then max m (d.epoch - j.boundaryAt) else m) 0
  let d1 := if js.any (fun j => j.phase == .boundary) then (d.wr 0x600006 (max long (d.rd 0x600006))).flag 0x600001 3 else d
  js.foldl (fun e (j : Job) =>
    (e.report 2 j.slot j.seq j.nextShot 0 (es j)).bbWrite 2 (unitKind u).1 (unitKind u).2 0 j.seq j.nextShot
      ((es j).headD [])) d1

/-- The places of a job on an easel. -/
def Dev.onEasel (d : Dev) (j : Job) (e : Nat) : List CanvasPlace := j.held.canvases.filter fun p => d.runEasel p.thread == e

/-- The spare in service that has been sprouted for an easel. -/
def Dev.sproutOf (d : Dev) (e : Nat) : Option Nat :=
  d.hub.units.sprouts.findSome? fun p => match p with
    | (.easel r, .easel s, _) => if r = e ∧ !d.isRetired (.easel s) then some s else none
    | _ => none

/-- The spare that serves for an easel: the one already sprouted for it, else the lowest free one. -/
def Dev.spareFor (d : Dev) (e : Nat) : Option Nat :=
  match d.sproutOf e with
  | some s => some s
  | none => (onesOf 2 (d.rd 0x600003)).head?.map (· + 32)

/-- The spare takes over what the retired easel ran for the jobs that stand between shots (R428). -/
def Dev.sproutEasel (d : Dev) (e s : Nat) (js : List Job) : Dev :=
  let serves := if e < 32 then e else d.rd (unitKey 0x440002 e)
  let tile := serves / 4
  let fresh := (d.sproutOf e).isNone
  let d1 : Dev := if fresh then
      let x := (d.wrBit 0x600003 (s - 32) false).wrs [(unitKey 0x440001 s, 2), (unitKey 0x440002 s, serves),
        (unitKey 0x601004 tile, s)]
      { x with hub := { x.hub with units := { x.hub.units with
          sprouts := x.hub.units.sprouts ++ [(.easel e, .easel s, 0)] } } }
    else d
  let places := js.flatMap fun j => d.onEasel j e
  let d2 := (places.foldl (fun x p => x.wr (unitKey 0x400002 p.thread) s) d1).flag 0x600001 0
  let pinned : Job → Nat := fun j =>
    if (d.onEasel j e).any fun p => (secPinThread j.content p.canvas).isSome then 1 else 0
  d2.noteMove (.easel e) js fun j =>
    [reportEntry 9 (6 + pinned j) (unitCode 1 e) (unitCode 1 s) tile (d.onEasel j e).length]

/-- The objects that bind a canvas to its thread go to another thread, and those that name the thread follow (R429). -/
def Dev.moveBindings (d : Dev) (p : CanvasPlace) (m : Nat) : Dev :=
  let n := p.thread
  let subs := [1, 3, 0x40, 0x41, 0x45, 0x46] ++ (List.range 15).map (0x10 + ·) ++ (List.range 16).map (0x30 + ·)
  let keys := (subs.map fun s => (objKey (0x4000 + n) s, objKey (0x4000 + m) s))
    ++ (List.range 32).map fun g => (unitKey 0x4A0001 n + g, unitKey 0x4A0001 m + g)
  let d1 := keys.foldl (fun e k => (e.wr k.2 (d.rd k.1)).unwr k.1) d
  let retone : Nat → Nat := fun v => v - v % 2 ^ 9 + m
  let d2 := match p.driveSlot with
    | some s => let k := objKey (0x3800 + s / 8) (0x10 + s % 8); d1.wr k (retone (d1.rd k))
    | none => d1
  let d3 := match p.readSlot with
    | some s => (d2.wr (rtoneKey s) (retone (d2.rd (rtoneKey s)))).wr (unitKey 0x300003 p.qubit) m
    | none => d2
  let d4 := p.flux.foldl (fun e c => e.wr (unitKey 0x340006 c) m) d3
  let d5 := if d4.rd (unitKey 0x610007 p.qubit) = n then d4.wr (unitKey 0x610007 p.qubit) m else d4
  let d6 := d5.objs.foldl (fun e k =>
    let idx := k.1 / 256
    let sub := k.1 % 256
    if 0x4000 ≤ idx ∧ idx < 0x4200 ∧ 0x30 ≤ sub ∧ sub ≤ 0x3F ∧ k.2.testBit 31 ∧ bits k.2 5 0 = d.chip % 64
        ∧ bits k.2 14 6 = n then e.wr k.1 (k.2 - 2 ^ 6 * n + 2 ^ 6 * m) else e) d5
  let d7 := (d6.setThread m (d.thread n)).setThread n {}
  (List.range 8).foldl (fun e f => e.setFrame (8 * m + f) (d.frame (8 * n + f))) d7

/-- The barrier mask of a place among the places of its job (R414). -/
def maskOf (cs : Sections) (ps : List CanvasPlace) (p : CanvasPlace) : Nat :=
  match (cs.canvases[p.canvas]?).bind (·.group) with
  | none => 0
  | some g => (ps.filter fun q => ((cs.canvases[q.canvas]?).bind (·.group)) == some g).foldl
      (fun m q => Nat.lor m (2 ^ (q.thread % 16))) 0

/-- The canvases of a job on a retired easel move to free threads of the tile, in ascending order (R429); its program is
written again with the new masks. Answers the device and the moves. -/
def Dev.moveCanvases (d : Dev) (seq e : Nat) : Dev × List (CanvasPlace × Nat) :=
  match d.job seq with
  | none => (d, [])
  | some j =>
    let from_ := (d.onEasel j e).mergeSort fun a b => decide (a.thread ≤ b.thread)
    let free := from_.headD { canvas := 0, thread := 0, tile := 0, qubit := 0, driveSlot := none, readSlot := none, flux := [], mask := 0 }
    let moves := from_.zip (d.freeThreads free.tile)
    let d1 := moves.foldl (fun x m => x.moveBindings m.1 m.2) d
    let ps := j.held.canvases.map fun p => match moves.find? fun m => m.1.canvas == p.canvas with
      | some m => { p with thread := m.2 }
      | none => p
    let ps2 := ps.map fun p => { p with mask := maskOf j.content ps p }
    let h := { j.held with canvases := ps2 }
    let d2 := (d1.loadTable j.slot h j.content (d.views j.content)).modJob seq fun k => { k with held := h }
    (d2, moves)

/-- The core D16 takes over a retired core of a job (R410, R430). -/
def Dev.sproutCore (d : Dev) (c : Nat) (js : List Job) : Dev :=
  let tile := if c = 16 then d.rd (unitKey 0x580002 16) else c / 2
  let copy := [3, 4, 5, 6, 7].map fun s => (objKey 0x5810 s, d.rd (objKey (0x5800 + c) s))
  let img := (d.core c).image
  let d1 := ((d.wrs (copy ++ [(objKey 0x5810 1, 4), (objKey 0x5810 2, tile), (unitKey 0x601005 tile, 16),
    (objKey 0x5810 0x0B, 0), (objKey 0x5810 0x0E, 0), (objKey 0x5810 0x0F, 0x20), (objKey (0x5800 + c) 4, 0),
    (objKey (0x5800 + c) 5, 0)])).wrBit 0x600003 2 false).flag 0x600001 0
  let d2 : Dev := { d1 with hub := { d1.hub with units := { d1.hub.units with
    sprouts := d1.hub.units.sprouts ++ [(.dsp c, .dsp 16, 0)] } } }
  let d3 := js.foldl (fun e (j : Job) =>
    let row := ((j.content.dsp.zip j.held.cores).find? fun x => x.2 == c).map (·.1)
    let k : DspCore := match row with
      | some r => { job := j.seq, image := img, pm := tabFill 0 [] 0 r.pm, xm := tabFill 0 [] 0 r.xm,
                    ym := tabFill 0 [] 0 r.ym, km := tabFill 0 [] 0 r.km, pc := 0x20 }
      | none => { job := j.seq }
    (e.setCore 16 k).modJob j.seq fun x => { x with
      held := { x.held with cores := x.held.cores.map fun y => if y = c then 16 else y } }) d2
  d3.noteMove (.dsp c) js fun j =>
    let pinned := if j.content.pins.any (fun p => match p with
      | .dspCore _ k => k == c
      | _ => false) then 1 else 0
    [reportEntry 9 (6 + pinned) (unitCode 2 c) (unitCode 2 16) tile (popcount 64 (d.rd (objKey (0x5800 + c) 4)))]

/-- A unit that no job waits for any more is no longer due. -/
def Dev.settleDue (d : Dev) (u : UnitRef) : Dev :=
  if d.users u = [] then
    { d with hub := { d.hub with units := { d.hub.units with due := d.hub.units.due.filter (· != u) } } }
  else d

/-- SPROUT: the replacement of a retired easel or core takes effect for the jobs that stand between shots. -/
def sproutOp (u : UnitRef) (d : Dev) : Dev :=
  let js := d.readyUsers u
  if !d.hub.units.due.contains u || js.isEmpty then d
  else
    let d1 : Dev := match u with
      | .easel e =>
        match d.spareFor e with
        | some s => d.sproutEasel e s js
        | none =>
          if (d.freeThreads (d.tileOf e)).length < (js.map fun j => (d.onEasel j e).length).sum then d.noSpare js else
          let r := js.foldl (fun (x : Dev × List (Nat × List (CanvasPlace × Nat))) (j : Job) =>
            let y := x.1.moveCanvases j.seq e
            (y.1, x.2 ++ [(j.seq, y.2)])) (d.flag 0x600001 1, [])
          r.1.noteMove u js fun j => ((r.2.filter fun x => x.1 == j.seq).flatMap (·.2)).map fun m =>
            reportEntry 9 (2 + if (secPinThread j.content m.1.canvas).isSome then 1 else 0) (unitCode 0 m.1.thread)
              (unitCode 0 m.2) m.1.tile 1
      | .dsp c => d.sproutCore c js
      | _ => d
    let d2 := (d1.settleDue u).refreshUnits
    js.foldl (fun e (j : Job) => e.seekStart j.seq) d2

/-- RETIRE: a unit meets the criterion of its row of R630. -/
def retireOp (u : UnitRef) (d : Dev) : Dev := d.retireNow u (unitRow u)

/-! ### Flows (R433) -/

/-- FLOW_MOVE: the flows of a port that is not up go to ports that are. -/
def flowMoveOp (h : Nat) (d : Dev) : Dev :=
  if d.rd (unitKey 0x280001 h) = 3 ∨ !((List.range 4).any fun p => d.rd (unitKey 0x280001 p) == 3) then d
  else
    let js := d.hub.jobs.filter fun j => j.held.flows.any fun f => f.2.1 == h
    if js = [] then d
    else
      js.foldl (fun e (j : Job) =>
        let mine := j.held.flows.filter fun f => f.2.1 == h
        let r := mine.foldl (fun (x : Dev × List (List Byte)) f =>
          let p := x.1.leastPort []
          let y := x.1.modJob j.seq fun k => { k with held := { k.held with
            flows := k.held.flows.map fun g => if g.1 = f.1 then (g.1, p, g.2.2) else g } }
          (y, x.2 ++ [reportEntry 7 (2 + if (secPinFlow j.content f.1).isSome then 1 else 0) (if f.1 = 8 then unitCode 2 (j.held.cores.headD 0) else unitCode 10 f.1) (unitCode 7 p)
            0 (wholeRate f.2.2)])) (e, [])
        r.1.report 2 j.slot j.seq j.nextShot 0 r.2) (d.flag 0x600001 1)

/-! ### Restores and decision blocks (R139, R298, R408) -/

/-- CS_RESTORE_COMPLETE: the word is restored and the context goes on; a word that cannot be restored retires the easel
(R630). -/
def csRestoreCompleteOp (x : CtxRef) (ok : Bool) (d : Dev) : Dev :=
  match (d.thread x.n).ctx x.path with
  | none => d
  | some c =>
    if c.csBlock then
      let d1 := d.setCtx x { c with csBlock := false }
      if ok then d1 else d1.retireNow (.easel (d.runEasel x.n)) 4
    else d

/-- DSP_PM_RESTORE_COMPLETE: the word of the image stands in PM again. -/
def dspPmRestoreCompleteOp (c : Nat) (ok : Bool) (d : Dev) : Dev :=
  let k := d.core c
  match k.restore with
  | none => d
  | some a =>
    if ok then d.setCore c { k with pm := tabSet 0 k.pm a (k.image.getD a 0), restore := none }
    else (d.setCore c { k with restore := none }).retireNow (.dsp c) 5

/-- DECISION_BLOCK (R298). -/
def decisionBlockOp (c : CellHdr) (dest w0 w1 : W64) (d : Dev) : Dev :=
  let r := d.rxCell c
  if r.2 then r.1.takeBlock c.link dest w0 w1 else r.1

/-! ### Acknowledgements that let jobs go on (R600) -/

/-- Jobs that waited for results to be acknowledged look again. -/
def Dev.afterAck (d : Dev) : Dev :=
  (d.resident.filter (·.ackWait)).foldl (fun e (j : Job) => e.seekStart j.seq) d

/-! ### Meanings -/

/-- PLACEMENT. -/
def execPlacement (s : State) : Host.Outcome State Fault Refusal := .next (s.onNow placementOp)
/-- SPROUT. -/
def execSprout (u : UnitRef) (s : State) : Host.Outcome State Fault Refusal := .next (s.onNow (sproutOp u))
/-- RETIRE. -/
def execRetire (u : UnitRef) (s : State) : Host.Outcome State Fault Refusal := .next (s.onNow (retireOp u))
/-- FLOW_MOVE. -/
def execFlowMove (h : Nat) (s : State) : Host.Outcome State Fault Refusal := .next (s.onNow (flowMoveOp h))
/-- DRAIN_DONE. -/
def execDrainDone (m : LatMsg) (s : State) : Host.Outcome State Fault Refusal := .next (s.onNow (drainDoneOp m))
/-- SHOT_START message. -/
def execShotStartMsg (m : LatMsg) (s : State) : Host.Outcome State Fault Refusal := .next (s.onNow (shotStartMsgOp m))
/-- TRIGGER message. -/
def execTriggerMsg (m : LatMsg) (s : State) : Host.Outcome State Fault Refusal := .next (s.onNow (triggerMsgOp m))
/-- HALT message. -/
def execHaltMsg (m : LatMsg) (s : State) : Host.Outcome State Fault Refusal := .next (s.onNow (haltMsgOp m))
/-- RESUME message. -/
def execResumeMsg (m : LatMsg) (s : State) : Host.Outcome State Fault Refusal := .next (s.onNow (resumeMsgOp m))
/-- CANCEL message. -/
def execCancelMsg (m : LatMsg) (s : State) : Host.Outcome State Fault Refusal := .next (s.onNow (cancelMsgOp m))
/-- TAKEOVER. -/
def execTakeover (s : State) : Host.Outcome State Fault Refusal := .next (s.onNow takeoverAllOp)
/-- RESYNC_COMPLETE. -/
def execResyncComplete (offset : Int) (s : State) : Host.Outcome State Fault Refusal :=
  .next (s.onNow (resyncAllOp offset))
/-- CS_RESTORE_COMPLETE. -/
def execCsRestoreComplete (x : CtxRef) (ok : Bool) (s : State) : Host.Outcome State Fault Refusal :=
  .next (s.onNow (csRestoreCompleteOp x ok))
/-- DSP_PM_RESTORE_COMPLETE. -/
def execDspPmRestoreComplete (c : Nat) (ok : Bool) (s : State) : Host.Outcome State Fault Refusal :=
  .next (s.onNow (dspPmRestoreCompleteOp c ok))
/-- DECISION_BLOCK. -/
def execDecisionBlock (c : CellHdr) (dest w0 w1 : W64) (s : State) : Host.Outcome State Fault Refusal :=
  .next (s.onNow (decisionBlockOp c dest w0 w1))

end Sys2Proof.Machine
end

