-- ==== Sys2Proof/Machine/Checks.lean ====
section
/-! DEFINITION. What a write is checked for before anything applies (R11 to R14, R21, R142, R148, R366, R470, R483, R508,
R565, R576, R604, R606, R617, R707), what a commit is checked for (R65, R224, R249, R330, R412, R576), the loader's check of
a customer image (R143), and the writes with an effect of their own. -/

namespace Sys2Proof.Machine

/-! ### Status codes (R570) -/

/-- OK. -/
def stOk : Nat := 0
/-- BAD_PAYLOAD. -/
def stBadPayload : Nat := 2
/-- ACCESS_DENIED. -/
def stAccessDenied : Nat := 3
/-- NO_OBJECT. -/
def stNoObject : Nat := 4
/-- ACCESS_CODE. -/
def stAccessCode : Nat := 5
/-- OUT_OF_RANGE. -/
def stOutOfRange : Nat := 6
/-- STATE_CONFLICT. -/
def stStateConflict : Nat := 7
/-- BUSY. -/
def stBusy : Nat := 8
/-- STALE_SEQ. -/
def stStaleSeq : Nat := 9
/-- TOO_LONG. -/
def stTooLong : Nat := 10
/-- DRAFT_FULL. -/
def stDraftFull : Nat := 11
/-- DRAFT_TOO_LARGE. -/
def stDraftTooLarge : Nat := 12
/-- BAD_HANDLE. -/
def stBadHandle : Nat := 13
/-- LOAD_CRC. -/
def stLoadCrc : Nat := 14
/-- BAD_CONTAINER. -/
def stBadContainer : Nat := 15
/-- LEDGER_FULL. -/
def stLedgerFull : Nat := 16
/-- NO_JOB. -/
def stNoJob : Nat := 17
/-- NO_ROUTE. -/
def stNoRoute : Nat := 21

/-! ### Ranges of written values (R12, R13, R56, R57, R143, R229, R330, R470, R483, R506, R508) -/

/-- Whether a value is one of 0 to top, or `none_`. -/
def upTo (top none_ v : Nat) : Bool := decide (v ≤ top) || v == none_

/-- The inputs that a sequence entry of a converter can name: neither reserved nor HK3.0 to HK3.7 (R470). -/
def seqInputOk (k i : Nat) : Bool :=
  decide (i < 32) && !(k == 0 && decide (22 ≤ i)) && !(k == 3 && (decide (i ≤ 7) || decide (26 ≤ i)))

/-- What CAL_CMD names (R444, R475): a routine, its kind of unit, and a unit or 0xFFF for all. -/
def calCmdOk (v : Nat) : Bool :=
  let u := bits v 27 16
  let fits : Nat → Bool := fun n => decide (u < n) || u == 0xFFF
  match bits v 7 0, bits v 15 8 with
  | 2, 2 => fits 8
  | 3, 3 => fits 64
  | 3, 4 => fits 32
  | 4, 5 => fits 768
  | 5, 1 => fits 32
  | _, _ => false

/-- The ranges that a chapter states beside the range of its row. -/
def specialRange (idx sub v : Nat) : Bool :=
  if idx = 0x2001 ∧ (sub = 2 ∨ sub = 4) then v % 15 == 0
  else if idx = 0x2010 ∧ (sub = 3 ∨ sub = 4) then upTo 11 0xFF v
  else if idx = 0x2010 ∧ sub = 5 then upTo 4 0xFF v
  else if idx = 0x4441 then v == 0 || decide (0x3000 ≤ v ∧ v ≤ 0x3FFF)
  else if 0x3400 ≤ idx ∧ idx ≤ 0x36FF ∧ (sub = 0x12 ∨ sub = 0x15 ∨ sub = 0x18 ∨ sub = 0x1B) then
    decide (-(2 ^ 30 : Int) < sext 32 v ∧ sext 32 v < 2 ^ 30)
  else if 0x5100 ≤ idx ∧ idx ≤ 0x517F ∧ sub = 9 then v % 4096 == 0
  else if 0x6100 ≤ idx ∧ idx ≤ 0x62FF ∧ sub = 1 then upTo 63 0xFF v
  else if 0x6100 ≤ idx ∧ idx ≤ 0x62FF ∧ sub = 2 then upTo 31 0xFF v
  else if 0x6100 ≤ idx ∧ idx ≤ 0x62FF then upTo 767 0xFFFF v
  else if idx = 0x6800 ∧ sub = 1 then calCmdOk v
  else if 0x6C00 ≤ idx ∧ idx ≤ 0x6C03 ∧ sub = 2 then
    (List.range 32).all fun p => seqInputOk (idx - 0x6C00) (bits v (8 * p + 7) (8 * p))
  else if 0x7000 ≤ idx ∧ idx ≤ 0x70FF ∧ sub = 1 then !v.testBit (idx - 0x7000)
  else if 0x7000 ≤ idx ∧ idx ≤ 0x70FF ∧ sub = 7 then v == 0 || decide (0x70F8 ≤ idx)
  else if 0x7500 ≤ idx ∧ idx ≤ 0x75FF then
    let s := 16 * (idx - 0x7500) + (sub - 1) % 16
    (slotKey s).isSome && (decide (sub ≤ 0x10) || bits v 2 1 != 3)
  else if idx = 0x1800 ∧ 0x10 ≤ sub ∧ sub ≤ 0x13 then v == 0 || v == 1 || v == 2 || v == 0xFF
  else if 0x2800 ≤ idx ∧ idx ≤ 0x2803 ∧ sub = 7 then v == 1500 || v == 9000
  else if idx = 0x2810 ∧ sub = 7 then v == 1500
  else if 0x7C10 ≤ idx ∧ idx ≤ 0x7C2F ∧ sub ≤ 2 then decide (v ≤ 0x7F)
  else true

/-- Whether a written value lies within the stated range of its object. -/
def rangeOk (key v : Nat) : Bool :=
  match objRow (key / 256) (key % 256) with
  | none => false
  | some r =>
    (match r.range with
      | some (lo, hi) => decide (lo ≤ r.ty.value v ∧ r.ty.value v ≤ hi)
      | none => true)
    && (r.ty != .bool || decide (v ≤ 1))
    && (r.ty != .f32 || bits v 30 23 != 255)
    && specialRange (key / 256) (key % 256) v

/-! ### The customer image (R121 to R128, R134, R141 to R143, R147) -/

/-- A value register that a selector names (R126). -/
def valueReg (sel : Nat) : Option Nat := if 8 ≤ sel ∧ sel < 0x18 then some (sel - 8) else none

/-- The value registers that a word reads: its operands, an INSERT's destination, the address of a memory operation, and
a launch tick. -/
def microReads (w : W192) : List Nat :=
  let op := mf w 33 28
  let a := if op = 0 then [] else [mf w 38 34]
  let b := if op = 0 ∨ op = 1 ∨ op = 0x11 ∨ op = 0x12 then [] else [mf w 43 39]
  let c := if op = 0x0F then [mf w 48 44] else []
  let m := if mf w 85 82 = 0 then [] else [mf w 90 86]
  let l := if mf w 99 96 = 0 then [] else [mf w 109 105]
  (a ++ b ++ c ++ m ++ l).filterMap valueReg

/-- The value registers that a word writes. -/
def microWrites (w : W192) : List Nat :=
  let op := mf w 33 28
  let a := if op = 0 ∨ op = 0x10 then [] else [mf w 48 44]
  let m := if mf w 85 82 = 0 then [] else [mf w 95 91]
  (a ++ m).filterMap valueReg

/-- Whether the word after a word in the image can follow it in a straight line. -/
def fallsThrough (w : W192) : Bool := mf w 19 16 == 0 || mf w 19 16 == 2 || mf w 19 16 == 5

/-- Word a of an image, a from 0. -/
def imageWord (img : List W192) (a : Nat) : W192 := img.getD a 0

/-- The reason for which a word fails by itself or by its target (R143); 0 none. -/
def wordReason (img : List W192) (a : Nat) (w : W192) : Nat :=
  let seq := mf w 19 16
  let next := mf w 15 2
  let jumps := seq == 1 || seq == 2 || seq == 3 || seq == 5 || seq == 8
  if mf w 119 116 ≠ 0 ∨ mf w 182 152 ≠ 0 ∨ 0x0B ≤ mf w 24 20 ∨ 0x13 ≤ mf w 33 28 ∨ 3 ≤ mf w 85 82 ∨ 9 ≤ mf w 99 96
      ∨ 2 ≤ mf w 113 110 then 2
  else if 9 ≤ seq then 3
  else if jumps ∧ next < 0x3000 then 4
  else if seq = 7 ∧ 4 ≤ next % 64 then 5
  else if jumps ∧ next ≤ 0x3000 + a ∧ mf (imageWord img (next - 0x3000)) 115 115 = 0 then 6
  else if 0x1C ≤ mf w 48 44 ∨ !(mf w 104 100 == 0 || mf w 104 100 == 2 || mf w 104 100 == 4 || mf w 104 100 == 6) then 8
  else 0

/-- The first failing word of an image and its reason: `read` are the value registers read since the last trap point. -/
def imageFault (img : List W192) : List W192 → Nat → List Nat → Option (Nat × Nat)
  | [], _, _ => none
  | w :: ws, a, read =>
    let own := (if mf w 115 115 = 1 then [] else read) ++ microReads w
    let r := wordReason img a w
    if r ≠ 0 ∧ r < 7 then some (a, r)
    else if (microWrites w).any own.contains then some (a, 7)
    else if r ≠ 0 then some (a, r)
    else imageFault img ws (a + 1) (if fallsThrough w then own else [])

/-- The bytes of an image (R141). -/
def custBytes (img : List W192) : List Byte := img.flatMap fun w => le 24 w.toNat

/-- The check of an image of `len` bytes: the word and the reason of the first failure (R143). -/
def custCheck (len : Nat) (img : List W192) : Option (Nat × Nat) :=
  if len ≠ 98304 ∨ img.length ≠ 4096 then some (0, 1) else imageFault img img 0 []

/-- CUST_IMAGE (R141 to R143): accepted in PRIMED; a rejected image changes nothing but LOAD_ERROR. ECC is the
device's own and acts on no word. -/
def custImageOp (len : Nat) (img : List W192) (d : Dev) : Dev :=
  if d.state ≠ .primed then d.conflict
  else
    match custCheck len img with
    | some (a, r) => d.wr 0x444004 (a + 2 ^ 16 * r)
    | none =>
      { d.wrs [(0x444002, crc32 (custBytes img)), (0x444003, 1), (0x444004, 0)] with
        eas := { d.eas with cust := tabFill 0 [] 0 img, custHeld := true } }

/-- CUST_CLEAR (R147): in PRIMED only, the customer store and CUST_ENTRY are empty. -/
def custClearOp (d : Dev) : Dev :=
  if d.state ≠ .primed then d.conflict
  else
    let d1 := d.wrs ([(0x444002, 0), (0x444003, 0)] ++ (List.range 64).map fun k => (0x444101 + k, 0))
    { d1 with eas := { d1.eas with cust := [], custHeld := false } }

/-! ### Stored configuration (R616 to R620) -/

/-- Whether CFG_SAVE is accepted (R617). -/
def Dev.cfgOk (d : Dev) : Bool := d.state == .primed && d.qop.commit.isNone && d.rd 0x101003 != 3

/-- Draft words of a field (R575). -/
def Staged.words (s : Staged) : Nat := ceilDiv s.len 8

/-- The applied values of the RS and RW fields of a row, over its indices that R603 marks Saved, that differ from their
reset values; a field that is not listed stands at its reset value. -/
def Dev.savedFields (d : Dev) : List Staged :=
  (d.objs.filter fun p => savedIdx (p.1 / 256)).filterMap fun p =>
    (objRow (p.1 / 256) (p.1 % 256)).bind fun r =>
      if r.acc = .rs ∨ r.acc = .rw then some { key := p.1, val := p.2, len := r.ty.bytes } else none

/-- Draft words of every RS and RW field that a save records (R618). -/
def savedWordCount : Nat :=
  (dictAll.map fun r =>
    if (r.acc = .rs ∨ r.acc = .rw) ∧ savedIdx r.lo then
      (r.hi + 1 - r.lo) * (r.shi + 1 - r.slo) * ceilDiv r.ty.bytes 8 else 0).sum + 0x1000 * 0x10

/-- CFG_SAVE = 1: the save begins (R618). -/
def cfgSaveOp (d : Dev) : Dev :=
  if d.cfgOk then
    let d1 := d.wr 0x101003 3
    { d1 with qop := { d1.qop with cfgSaving := some d.savedFields } }
  else d.conflict

/-- A draft word in the stored configuration (R575): index, subindex, part, value. -/
def Staged.bytes (s : Staged) : List Byte :=
  (List.range s.words).flatMap fun p =>
    le 2 (s.key / 256) ++ le 1 (s.key % 256) ++ le 1 p ++ le 8 (s.val / 2 ^ (64 * p) % 2 ^ 64)

/-- The save completes (R618, R619): CFG_STATE leaves 3; CFG_WALL is a stamp (R92). -/
def cfgSaveCompleteOp (d : Dev) : Dev :=
  match d.qop.cfgSaving with
  | none => d
  | some l =>
    let d1 := d.wrs [(0x101003, 1), (0x101004, Config.cfgCrc (l.flatMap Staged.bytes) % 2 ^ 32), (0x101005, savedWordCount),
      (0x101006, match d.wallStamp d.epoch with
        | some w => w.1
        | none => 0)]
    { d1.noteStamp d.epoch with qop := { d1.qop with cfg := some l, cfgSaving := none } }

/-- CFG_SAVE = 2: the stored configuration is erased (R619). -/
def cfgEraseOp (d : Dev) : Dev :=
  if d.cfgOk then
    let d1 := d.wrs [(0x101003, 0), (0x101004, 0), (0x101005, 0), (0x101006, 0)]
    { d1 with qop := { d1.qop with cfg := none } }
  else d.conflict

/-! ### Other writes with an effect of their own -/

/-- HOST_SECONDS (R90): names the second of the next 1PPS edge. -/
def hostSecondsOp (v : Nat) (d : Dev) : Dev := { d with lat := { d.lat with ppsSecond := some v } }

/-- PRBS_CMD = 1 (R540). -/
def prbsStartOp (lane : Nat) (d : Dev) : Dev := if d.prbsOk lane then d.prbsStart lane else d.conflict

/-- GZ_CMD = 2 (R543). -/
def gzInjectOp (k : Nat) (d : Dev) : Dev := if d.gzInjectOk k then d.gzInject k else d.conflict

/-- The lane of an object of a lane (R551). -/
def laneOf (idx : Nat) : Nat :=
  if idx < 0x2800 then idx - 0x2410 else if idx < 0x2830 then idx - 0x2820 + 48 else 64

/-- The status with which a WO field is served, beside its range (R21, R338, R345, R346, R366, R445, R540, R543, R617,
R661). -/
def Dev.actStatus (d : Dev) (idx sub v : Nat) : Nat :=
  let bad : Bool → Nat := fun b => if b then stStateConflict else stOk
  if 0x5100 ≤ idx ∧ idx ≤ 0x517F ∧ sub = 0x12 then
    let c := idx - 0x5100
    if v = 1 then d.armStatus c else bad (d.rd (unitKey 0x510015 c) != 0xFFFF)
  else if idx = 0x6800 ∧ sub = 1 then bad (d.calStart (bits v 7 0) (bits v 15 8) (bits v 27 16)).isNone
  else if (0x2410 ≤ idx ∧ idx ≤ 0x243F ∨ 0x2820 ≤ idx ∧ idx ≤ 0x282F ∨ idx = 0x2830) ∧ sub = 7 then
    bad (v == 1 && !d.prbsOk (laneOf idx))
  else if 0x2400 ≤ idx ∧ idx ≤ 0x240B ∧ sub = 0x0B then bad (v == 2 && !d.gzInjectOk (idx - 0x2400))
  else if idx = 0x1010 ∧ sub = 1 then bad (!d.cfgOk)
  else if idx = 0x4440 then bad (d.state != .primed)
  else if idx = 0x7800 ∧ sub = 4 then bad (!((d.job v).map (·.st == .stopped)).getD false)
  else stOk

/-- What a write of a WO field does. -/
def Dev.act (d : Dev) (idx sub v : Nat) : Dev :=
  if idx = 0x2030 ∧ sub = 8 then hostSecondsOp v d
  else if 0x4000 ≤ idx ∧ idx ≤ 0x41FF ∧ sub = 0x0B then if v = 1 then d.raiseSnapshot (idx - 0x4000) else d
  else if idx = 0x4440 ∧ sub = 6 then if v = 1 then custClearOp d else d
  else if 0x5100 ≤ idx ∧ idx ≤ 0x517F ∧ sub = 0x12 then
    let c := idx - 0x5100
    if v = 1 then armOp c d else if v = 2 then disarmOp c d else forceOp c d
  else if 0x5800 ≤ idx ∧ idx ≤ 0x5810 ∧ sub = 0x0C then mboxInOp (idx - 0x5800) (BitVec.ofNat 32 v) d
  else if idx = 0x6800 ∧ sub = 1 then d.calCmd (bits v 7 0) (bits v 15 8) (bits v 27 16)
  else if idx = 0x6C04 ∧ sub = 5 then if v = 1 then hkCmdOp d else d
  else if idx = 0x7100 then d.software v
  else if 0x2800 ≤ idx ∧ idx ≤ 0x2803 ∧ sub = 0x0B then d.portReadapt (idx - 0x2800)
  else if idx = 0x2810 ∧ sub = 0x0B then d.portReadapt 4
  else if 0x2400 ≤ idx ∧ idx ≤ 0x240B ∧ sub = 0x0B then
    if v = 1 then d.retrainLink (idx - 0x2400) else gzInjectOp (idx - 0x2400) d
  else if (0x2410 ≤ idx ∧ idx ≤ 0x243F ∨ 0x2820 ≤ idx ∧ idx ≤ 0x282F ∨ idx = 0x2830) ∧ sub = 7 then
    if v = 1 then prbsStartOp (laneOf idx) d else if v = 2 then d.prbsStop (laneOf idx) else d.prbsClear (laneOf idx)
  else if idx = 0x1010 ∧ sub = 1 then if v = 1 then cfgSaveOp d else cfgEraseOp d
  else if idx = 0x7800 ∧ sub = 4 then ledgerReleaseOp v d
  else if idx = 0x7820 ∧ sub = 6 then bbReleaseOp v d
  else d

/-! ### Items of a WRITE (R565, R604, R606, R608, R609) -/

/-- Objects that are accepted only in PRIMED (R142, R707). -/
def primedOnly (idx sub : Nat) : Bool :=
  idx == 0x4441 || (idx == 0x7C00 && sub == 2) || (decide (0x7C10 ≤ idx ∧ idx ≤ 0x7C2F) && decide (sub ≤ 3))

/-- Whether an object is configuration of an acquisition channel that a job holds (R366). -/
def Dev.heldConfig (d : Dev) (idx sub : Nat) : Bool :=
  decide (0x5100 ≤ idx ∧ idx ≤ 0x517F) && decide (sub ≤ 0x12) && d.rd (objKey idx 0x15) != 0xFFFF

/-- The status of an item: object, access code, length, state, range; 0 when it can apply. -/
def Dev.itemStatus (d : Dev) (i : WItem) : Nat :=
  match objRow i.idx i.sub with
  | none => stNoObject
  | some r =>
    if i.len ≠ r.ty.bytes then stBadPayload
    else if r.acc = .ro then stAccessCode
    else if (primedOnly i.idx i.sub ∧ d.state ≠ .primed) ∨ d.heldConfig i.idx i.sub then stStateConflict
    else if r.acc ≠ .set ∧ !rangeOk (objKey i.idx i.sub) (i.val % 256 ^ r.ty.bytes) then stOutOfRange
    else if r.acc = .wo then d.actStatus i.idx i.sub (i.val % 256 ^ r.ty.bytes)
    else stOk

/-- Draft words of a list of staged fields. -/
def draftWords (l : List Staged) : Nat := l.foldl (fun n (s : Staged) => n + s.words) 0

/-- A field enters the draft; a second write of it replaces its words (R575). -/
def stageField (l : List Staged) (s : Staged) : List Staged :=
  if l.any fun x => x.key == s.key then l.map fun x => if x.key == s.key then s else x else l ++ [s]

/-- The draft after the RS items of a list. -/
def Dev.draftAfter (d : Dev) (l : List WItem) : List Staged :=
  l.foldl (fun m (i : WItem) => match objRow i.idx i.sub with
    | some r => if r.acc = .rs then
        stageField m { key := objKey i.idx i.sub, val := (i.val % 256 ^ r.ty.bytes) &&&
          ((writeMask (objKey i.idx i.sub)).getD (256 ^ r.ty.bytes - 1)), len := r.ty.bytes } else m
    | none => m) d.qop.draft

/-- DRAFT_WORDS follows the open draft. -/
def Dev.setDraft (d : Dev) (l : List Staged) : Dev :=
  { d.wr 0x180005 (draftWords l) with qop := { d.qop with draft := l } }

/-- The identity's own copies of DESC_QUERY and LEDGER_QUERY (R614, R672). -/
def Dev.setIdent (d : Dev) (i : Nat) (x : Ident) : Dev :=
  { d with qop := { d.qop with idents := tabSet {} d.qop.idents i x } }

/-- An RW field takes its value at once. -/
def Dev.applyRw (d : Dev) (who idx sub v : Nat) : Dev :=
  let key := objKey idx sub
  if idx = 0x1008 ∧ sub = 1 then d.setIdent who { d.ident who with descQuery := v % 2 ^ 24 }
  else if idx = 0x7800 ∧ sub = 5 then d.setIdent who { d.ident who with ledgerQuery := v }
  else if (0x2410 ≤ idx ∧ idx ≤ 0x243F ∨ 0x2820 ≤ idx ∧ idx ≤ 0x282F ∨ idx = 0x2830) ∧ sub = 0x0B ∧ v = 1 then
    d.injectSingle (laneOf idx)
  else d.wr key (match writeMask key with
    | some m => v &&& m
    | none => v)

/-- An item applies (R14, R609): an RS field is staged by the whole WRITE, the others act at once. -/
def Dev.applyItem (d : Dev) (who : Nat) (i : WItem) : Dev :=
  match objRow i.idx i.sub with
  | none => d
  | some r =>
    let v := i.val % 256 ^ r.ty.bytes
    match r.acc with
    | .ro => d
    | .rs => d
    | .rw => d.applyRw who i.idx i.sub v
    | .wo => d.act i.idx i.sub v
    | .set => d.hostClear (objKey i.idx i.sub) v

/-- The items of a WRITE that was checked apply in order (R608). -/
def Dev.applyItems (d : Dev) (who : Nat) (l : List WItem) : Dev :=
  l.foldl (fun e i => e.applyItem who i) (d.setDraft (d.draftAfter l))

/-- The first item of a list whose status is one of some, with its number and status. -/
def Dev.firstWith (d : Dev) (l : List WItem) (f : Nat → Bool) : Option (Nat × WItem × Nat) :=
  (l.zipIdx.find? fun p => f (d.itemStatus p.1)).map fun p => (p.2, p.1, d.itemStatus p.1)

/-- The first item that fails by the state, else the first that fails (R563, R565). -/
def Dev.firstFailure (d : Dev) (l : List WItem) : Option (Nat × WItem × Nat) :=
  match d.firstWith l (· == stStateConflict) with
  | some p => some p
  | none => d.firstWith l (· != 0)

/-! ### The checks of a COMMIT (R65, R224, R249, R330, R365, R412, R551, R576) -/

/-- The value that a field holds once a list of staged fields has taken effect. -/
def Dev.after (d : Dev) (l : List Staged) (key : Nat) : Nat :=
  match l.find? fun s => s.key == key with
  | some s => s.val
  | none => d.rd key

/-- A staged field whose change the present state does not allow. -/
def Dev.stateBreach (d : Dev) (s : Staged) : Bool :=
  let idx := s.key / 256
  let sub := s.key % 256
  let changes := d.rd s.key != s.val
  let still := d.state == .primed || d.state == .halted
  changes && ((idx == 0x2010 && d.state != .primed)
    || (decide (0x6100 ≤ idx ∧ idx ≤ 0x62FF) && d.state != .primed)
    || (decide (0x2400 ≤ idx ∧ idx ≤ 0x240B) && sub == 2 && d.state != .primed)
    || (decide (0x3400 ≤ idx ∧ idx ≤ 0x36FF) && sub == 1 && !still)
    || (decide (0x3840 ≤ idx ∧ idx ≤ 0x385F) && sub == 0x21 && !still))

/-- Whether the settings of an acquisition channel agree among themselves: its source lies on its tile, and CAPTURE has
at least one unit after the trigger (R365). -/
def Dev.acqAgree (d : Dev) (l : List Staged) (c : Nat) : Bool :=
  let f := fun s => d.after l (objKey (0x5100 + c) s)
  (f 3 == 0xFFFF || (if f 2 = 0 then f 3 / 4 == c / 16 else f 3 / 64 == c / 16)) && (f 1 != 2 || f 6 != 0)

/-- A staged field whose value does not agree with the other fields as the commit leaves them. -/
def Dev.valueBreach (d : Dev) (l : List Staged) (s : Staged) : Bool :=
  let idx := s.key / 256
  let sub := s.key % 256
  if idx = 0x2010 ∧ (sub = 3 ∨ sub = 4) then
    d.after l 0x201003 != 0xFF && d.after l 0x201004 == d.after l 0x201003
  else if 0x5100 ≤ idx ∧ idx ≤ 0x517F then
    let tile := (idx - 0x5100) / 16
    (sub == 9 && decide (7340032 < ((List.range 16).map fun c => d.after l (objKey (0x5100 + 16 * tile + c) 9)).sum))
      || !d.acqAgree l (idx - 0x5100)
  else false

/-- The first field for which a COMMIT is rejected, and the status. SECONDARY_LINK is the field concerned where it equals
PRIMARY_LINK (R576). -/
def Dev.commitBreach (d : Dev) (l : List Staged) : Option (Nat × Nat) :=
  match l.find? d.stateBreach with
  | some s => some (s.key, stStateConflict)
  | none => (l.find? (d.valueBreach l)).map fun s => (if s.key = 0x201003 then 0x201004 else s.key, stOutOfRange)

/-! ### Meanings -/

/-- SNAPSHOT. -/
def execSnapshot (n : Nat) (s : State) : Host.Outcome State Fault Refusal := .next (s.onNow (·.raiseSnapshot n))
/-- CUST_IMAGE. -/
def execCustImage (len : Nat) (words : List W192) (s : State) : Host.Outcome State Fault Refusal :=
  .next (s.onNow (custImageOp len words))
/-- CUST_CLEAR. -/
def execCustClear (s : State) : Host.Outcome State Fault Refusal := .next (s.onNow custClearOp)
/-- HOST_SECONDS. -/
def execHostSeconds (v : Nat) (s : State) : Host.Outcome State Fault Refusal := .next (s.onNow (hostSecondsOp v))
/-- PRBS_START. -/
def execPrbsStart (lane : Nat) (s : State) : Host.Outcome State Fault Refusal := .next (s.onNow (prbsStartOp lane))
/-- PRBS_STOP. -/
def execPrbsStop (lane : Nat) (s : State) : Host.Outcome State Fault Refusal := .next (s.onNow (·.prbsStop lane))
/-- PRBS_CLEAR. -/
def execPrbsClear (lane : Nat) (s : State) : Host.Outcome State Fault Refusal := .next (s.onNow (·.prbsClear lane))
/-- INJECT_SINGLE. -/
def execInjectSingle (lane : Nat) (s : State) : Host.Outcome State Fault Refusal := .next (s.onNow (·.injectSingle lane))
/-- GZ_RETRAIN. -/
def execGzRetrain (k : Nat) (s : State) : Host.Outcome State Fault Refusal := .next (s.onNow (·.retrainLink k))
/-- GZ_INJECT. -/
def execGzInject (k : Nat) (s : State) : Host.Outcome State Fault Refusal := .next (s.onNow (gzInjectOp k))
/-- PORT_READAPT. -/
def execPortReadapt (h : Nat) (s : State) : Host.Outcome State Fault Refusal := .next (s.onNow (·.portReadapt h))
/-- CFG_SAVE = 1. -/
def execCfgSave (s : State) : Host.Outcome State Fault Refusal := .next (s.onNow cfgSaveOp)
/-- CFG_SAVE = 2. -/
def execCfgErase (s : State) : Host.Outcome State Fault Refusal := .next (s.onNow cfgEraseOp)
/-- CFG_SAVE_COMPLETE. -/
def execCfgSaveComplete (s : State) : Host.Outcome State Fault Refusal := .next (s.onNow cfgSaveCompleteOp)

end Sys2Proof.Machine
end

