-- ==== Sys2Proof/Machine/Reply.lean ====
section
/-! DEFINITION. Replies of the QOP server: their bytes and tags, what is kept of them, when they leave (R553 to R558, R561,
R562, R593, R684). -/

namespace Sys2Proof.Machine

/-- What a command answers: its status, and either the reply payload or what the failure concerns: the item, the object
and the state of the job named (R562); the device state to name where it is not the present one (R605, R684). -/
structure Ans where
  status : Nat := 0
  payload : List Byte := []
  item : Nat := 0
  key : Nat := 0
  job : Option JobState := none
  dstate : Option Nat := none
  deriving DecidableEq, Repr

/-- The payload of the reply (R562). -/
def Ans.bytes (a : Ans) : List Byte :=
  if a.status = 0 then a.payload
  else
    le 2 a.item ++ le 2 (a.key / 256) ++ le 1 (a.key % 256) ++ (match a.job with
      | some s => le 1 s.code ++ le 1 1
      | none => le 1 0 ++ le 1 0) ++ le 1 0

/-- The frame of a reply before its TAG (R561). -/
def Reply.bytes (r : Reply) : List Byte :=
  qopHeader 2 r.ident r.payload.length r.seq r.cmd r.status r.dstate r.epoch ++ r.payload

/-- Whether MGMT is up (R593). -/
def Dev.mgmtUp (d : Dev) : Bool := d.rd 0x281001 == 3

/-- A reply tagged with the key of its request's identity (R555). -/
def Dev.tagged (d : Dev) (r : Reply) : Reply := { r with tag := Config.hmac (d.ident r.ident).key r.bytes }

/-- A reply leaves; while MGMT is down it waits (R593). -/
def Dev.sendReply (d : Dev) (r : Reply) : Dev :=
  if d.mgmtUp then { d with qop := { d.qop with last := some (d.tagged r) } }
  else { d with qop := { d.qop with held := d.qop.held ++ [d.tagged r] } }

/-- The replies kept of an identity: H and the 64 values below it (R557). -/
def keepWindow (h : Nat) (l : List Reply) : List Reply := l.filter fun r => decide (h ≤ r.seq + 64)

/-- A reply is kept for its REQ_SEQ. -/
def Dev.storeReply (d : Dev) (r : Reply) : Dev :=
  let x := d.ident r.ident
  d.setIdent r.ident { x with stored := keepWindow x.high (x.stored ++ [r]) }

/-- A reply is kept and leaves. -/
def Dev.finishReply (d : Dev) (r : Reply) : Dev := (d.storeReply r).sendReply r

/-- The replies that were to leave on completion leave, with the device state of now (R558). -/
def Dev.releaseReplies (d : Dev) : Dev :=
  d.qop.deferred.foldl (fun e (r : Reply) => e.finishReply { r with dstate := e.state.code })
    { d with qop := { d.qop with deferred := [] } }

/-- The reply to a power-on RESET leaves as soon as QOP is available; the records of R557 stay empty (R684). -/
def Dev.releaseReset (d : Dev) : Dev :=
  d.qop.deferred.foldl (fun e (r : Reply) => e.sendReply { r with dstate := e.state.code })
    { d with qop := { d.qop with deferred := [] } }

end Sys2Proof.Machine
end

