-- ==== Sys2Proof/Machine/Power.lean ====
section
/-! DEFINITION. Power, resets, start-up, sleep and wake (chapter 17), feeds and PMBus (R638 to R643, R674 to R678), and
the recovery of the ledger (R656 to R659). -/

namespace Sys2Proof.Machine

/-! ### What a reset keeps (R603, R683) -/

/-- Objects that MRAM holds: those marked Stored, and what shows the stored configuration. -/
def storedKey (key : Nat) : Bool :=
  key == 0x100105 || decide (0x101002 ≤ key ∧ key ≤ 0x101006) || key == 0x780001 || key == 0x780002 || key == 0x780007
    || decide (0x782001 ≤ key ∧ key ≤ 0x782003) || key == 0x7C0002
    || (decide (0x7C10 ≤ key / 256 ∧ key / 256 ≤ 0x7C2F) && decide (1 ≤ key % 256 ∧ key % 256 ≤ 3))

/-- Objects that a WARM reset does not change: those that show a present condition of the hardware (feeds, rails, spine
paths, the highest temperature since power-on), and REPORT_NO, which counts since power-on (R437). -/
def liveKey (key : Nat) : Bool :=
  key == 0x600005 || key == 0x781002 || key == 0x7C0007 || (decide (0x7830 ≤ key / 256 ∧ key / 256 ≤ 0x7838) && key % 256 == 1)
    || (decide (0x7C10 ≤ key / 256 ∧ key / 256 ≤ 0x7C2F) && key % 256 == 4)

/-- A job without units, as it waits for recovery: resident ones are ACCEPTED again, a HALTED one is to be HALTED when it
is placed (R657, R658). -/
def Job.offline (j : Job) : Job :=
  { j with
    st := if j.st.resident ∨ j.st = .placing then .accepted else j.st
    haltDue := j.haltDue || j.st == .halted
    phase := .waiting, nextStart := none, spoiled := false, discarded := false, recs := [], recsNext := [], windows := 0
    spoilNext := false, ackWait := false, drainSent := none, trigSent := false, drainWait := false, served := j.started, held := { flows := j.held.flows } }

/-- The records that a job holds in DDR4 are lost (R659, R683). -/
def Job.holdLost (j : Job) : Job :=
  { j with
    final := (j.final ++ j.queued).map fun a => { a with recs := [], sentFlows := a.flows }, queued := []
    tentative := none }

/-! ### Power (R679 to R685) -/

/-- Every item that a POWER_ON reset or a loss of power does not keep goes (R683). -/
def Dev.wiped (d : Dev) : Dev :=
  let cfg := d.qop.cfg
  let d1 : Dev := {
    objs := (d.objs.filter fun p => storedKey p.1)
    qop := { idents := d.qop.idents.map fun p => (p.1, { key := p.2.key }), cfg := cfg }
    hub := { jobs := d.hub.jobs.map fun j => j.offline.holdLost, bb := d.hub.bb }
    eas := { cust := d.eas.cust, custHeld := d.eas.custHeld }
    rx := { ticks := d.rx.ticks } }
  d1.wr 0x101003 (if cfg.isSome then 1 else 0)

/-- A POWER_ON reset (R44, R571, R683): COLD, with a start of the firmware before it. -/
def Dev.powerOn (d : Dev) : Dev :=
  let d1 := d.wiped
  d1.wr 0x100105 ((d1.rd 0x100105 + 1) % 2 ^ 32)

/-- RESET_N rises (R679, R682, R685). When the device runs, RESET_N low was a POWER_ON reset. -/
def resetNOp (cfgDefaultLow : Bool) (d : Dev) : Dev :=
  let d1 := if d.pwr.up || !d.pwr.powered then d.powerOn else d
  let d2 := { d1 with pwr := { d1.pwr with up := true } }
  if cfgDefaultLow then
    let d3 := d2.wrs [(0x180010, 0), (0x180011, 0xFF), (0x180012, 0xFF), (0x180013, 0xFF)]
    let d4 := d3.setIdent 0 { d3.ident 0 with key := Config.factoryKey }
    { d4 with qop := { d4.qop with cfgDefault := true } }
  else d2

/-- A power-up step misses its limit (R679): FAULT_N is low, and the device stays in COLD. -/
def powerupTimeoutOp (d : Dev) : Dev :=
  if d.state = .cold ∧ d.pwr.up then { d with pwr := { d.pwr with upFail := true } } else d

/-- Power is removed (R649, R681): MRAM is all that stays. -/
def powerRemovalOp (d : Dev) : Dev :=
  let d1 := d.wiped
  { d1 with pwr := { powered := false } }

/-- Every rail of the device takes a state (R707). -/
def Dev.setRails (d : Dev) (p : Nat → Bool) (v : Nat) : Dev :=
  ((List.range 32).filter p).foldl (fun e r => e.wr (unitKey 0x7C1004 r) v) d

/-- The device enters PRIMING (R571, R687, R690). -/
def Dev.enterPriming (d : Dev) (cause : Nat) : Dev :=
  let d1 := (d.setState .priming cause).wr 0x7C0003 0
  { d1 with pwr := { d1.pwr with steps := [] } }

/-- A RESET record (R666, R668). -/
def Dev.resetRecord (d : Dev) (kind : Nat) : Dev := (d.wr 0x100106 kind).bbWrite 6 0 0 0 0 0 (le 1 kind)

/-- BOOT_COMPLETE (R684, R686, R687): QOP is available in COLD; with AUTO_PRIME, PRIMING begins. -/
def bootCompleteOp (fallback : Bool) (d : Dev) : Dev :=
  if d.pwr.powered && d.pwr.up && !d.pwr.booted then
    let d1 : Dev := { d with pwr := { d.pwr with booted := true } }
    let d2 := (d1.wrs [(0x281001, 3), (0x283001, 0)]).setRails (fun r => !d.pwr.upFail || r == 28 || r == 29 || r == 31) 7
    let d3 := ((if fallback then d2.flag 0x7C0001 4 else d2).resetRecord 0).releaseReset
    if d3.rdB 0x7C0002 && !d3.pwr.upFail then d3.enterPriming 0 else d3
  else d

/-! ### WARM, MGMT and FLUX_STATE resets (R633, R656, R682 to R684, R715) -/

/-- A job that was to end at its next boundary ends: cancelled or stopped. -/
def Dev.endDue (d : Dev) (seq : Nat) : Dev :=
  match d.job seq with
  | none => d
  | some j =>
    if j.stopDue then d.stopJob seq
    else if j.cancelDue then d.endJob seq .cancelled 2
    else d

/-- A job leaves its units, and every channel that owed it units is free. -/
def Dev.strip (d : Dev) (seq : Nat) : Dev :=
  match d.job seq with
  | none => d
  | some j => j.held.acq.foldl (fun e c => e.freeChannel seq c) (d.release j)

/-- A WARM reset: attempts in progress are discarded; the device is in COLD, then in PRIMING at once. The cause is that of
the transition: 1 a command, 4 a thermal trip. -/
def Dev.warmReset (d : Dev) (cause : Nat) : Dev :=
  let seqs := d.hub.jobs.map (·.seq)
  let d1 := seqs.foldl (fun e s => e.discard s 0) (d.wr 0x781001 0)
  let d2 := seqs.foldl Dev.strip (seqs.foldl Dev.endDue d1)
  let d3 := d2.flushStage
  let spares := (if d3.isRetired (.easel 32) then 0 else 1) + (if d3.isRetired (.easel 33) then 0 else 2)
    + (if d3.isRetired (.dsp 16) then 0 else 4)
  let ramp : FluxSt → FluxSt := fun f => { hold := f.hold, code := f.code, ramp := some (d.epoch, f.code) }
  let d4 : Dev := { d3 with
    objs := d3.objs.filter fun p => savedIdx (p.1 / 256) || storedKey p.1 || liveKey p.1
    inTick := {}, ev := { d3.ev with causes := [] }
    qop := { d3.qop with draft := [], commit := none, loads := d3.qop.loads.filter fun (l : Load) => l.kind == 2, cfgSaving := none }
    hub := { d3.hub with jobs := d3.hub.jobs.map Job.offline, report := [], units := { d3.hub.units with sprouts := [], due := [] } }
    eas := { cust := d3.eas.cust, custHeld := d3.eas.custHeld }
    out := { flux := d3.out.flux.map fun p => (p.1, ramp p.2) }
    rx := { ticks := d3.rx.ticks, lines := d3.rx.lines }, acq := [], dsp := []
    cal := { d3.cal with runs := [], phase := 0, scan := none, held := false, low := 0, conv := none }
    pwr := { d3.pwr with resetKind := 1, sleeping := false, wakeAfter := false, waking := none } }
  let d5 := d4.wrs [(0x180005, 0), (0x180006, 0), (0x680002, 0), (0x600003, spares), (0x780002, d4.hub.jobs.length),
    (0x781001, d3.rd 0x781001), (0x101003, if d3.qop.cfg.isSome then 1 else 0)]
  ((d5.setState .cold cause).resetRecord 1).enterPriming cause

/-- A MGMT reset: the open draft is lost. -/
def Dev.mgmtReset (d : Dev) : Dev := (d.setDraft []).resetRecord 2

/-- A FLUX_STATE reset: the predistortion state of each channel that no resident job holds is cleared. -/
def Dev.fluxReset (d : Dev) : Dev :=
  let heldBy := d.resident.flatMap fun j => j.held.flux
  let d1 : Dev := { d with out := { d.out with
    flux := d.out.flux.map fun p => if heldBy.contains p.1 then p else (p.1, { p.2 with fir := [], iir := [] }) } }
  d1.wr 0x100106 3 |>.bbWrite 6 0 0 0 0 0 (le 1 3)

/-- RECOVER (R571, R656, R657, R687): a FAULTED device discards the attempts in progress, and PRIMING begins; the jobs
that have not ended are recovered at its end. -/
def Dev.recover (d : Dev) : Dev :=
  let seqs := d.hub.jobs.map (·.seq)
  let d1 := seqs.foldl (fun e s => e.discard s 0) d.abortRuns
  let d2 := seqs.foldl Dev.strip (seqs.foldl Dev.endDue d1)
  let d3 : Dev := { d2 with
    hub := { d2.hub with jobs := d2.hub.jobs.map Job.offline }, pwr := { d2.pwr with resetKind := 1 } }
  d3.enterPriming 1

/-- THERMAL_TRIP (R699): a WARM reset, and THERM_TRIP. -/
def thermalTripOp (d : Dev) : Dev :=
  if d.pwr.booted then (d.warmReset 4).flag 0x7C0001 1 else d

/-- THERM_WARN (R698): a die at or above 100 °C. -/
def thermWarnOp (code : Nat) (d : Dev) : Dev :=
  if 2624 ≤ code then (d.wr 0x7C0007 (max (d.rd 0x7C0007) code)).flag 0x7C0001 0 else d

/-! ### PRIMING (R448, R657 to R659, R688 to R690) -/

/-- The group of a step (R688). -/
def primeGroup (step : Nat) : Nat := if step = 1 then 0 else if step ≤ 4 then 1 else if step ≤ 7 then 2 else 3

/-- The steps that this PRIMING runs. -/
def Dev.primeSteps (d : Dev) : List Nat := if d.pwr.resetKind = 0 then [1, 2, 3, 4, 5, 6, 7, 8] else [1, 2, 3, 4, 5, 8]

/-- Whether a step may start: it is one of this PRIMING's, and the groups before it have ended, the calibration routines of
step 7 among them. -/
def Dev.stepReady (d : Dev) (step : Nat) : Bool :=
  d.state == .priming && (step != 8 || d.cal.phase == 0) && d.primeSteps.contains step && !d.pwr.steps.contains step
    && d.primeSteps.all fun s => decide (primeGroup step ≤ primeGroup s) || d.pwr.steps.contains s

/-- Whether a die stood at or above 95 °C at its last housekeeping result. -/
def Dev.dieHot (d : Dev) : Bool := (List.range 20).any fun i => decide (2544 ≤ d.tempCode i)

/-- What a memory holds when March C− has run over it in both passes (R193): DESIGN CHOICE (log entry 14): the data words are
not stated, and the last ones are what an unlisted address reads as. Step 4 tests the descriptor table and the sample stores;
step 5 the DDR4, which after a reset other than POWER_ON is kept (R656, R683). -/
def Dev.marched (d : Dev) (step : Nat) : Dev :=
  if step = 4 then { d with eas := { d.eas with desc := [], store := [] } }
  else if d.pwr.resetKind = 0 then { d with ddr := [] }
  else d

/-- The memory test of a step (R193): it writes over what it tests, and failing addresses are recorded. -/
def Dev.memoryTest (d : Dev) (step : Nat) : Dev :=
  match Config.selfTest step (d.rd 0x100105) with
  | [] => d.marched step
  | l => (d.marched step).bbWrite 8 0 0 0 0 0 (l.flatMap (le 8))

/-- Host ports train (R549); with every one retired the device fails (R689). -/
def Dev.trainPorts (d : Dev) : Dev :=
  let d1 := (List.range 4).foldl (fun e h =>
    if e.rd (unitKey 0x280001 h) = 0 ∧ e.rdB (unitKey 0x280002 h) then e.portEnabled h true else e) d
  if (List.range 4).all fun h => d1.rd (unitKey 0x280001 h) == 4 then d1.enterFaulted else d1

/-- PRIMING: a step begins (R688). -/
def primingOp (step : Nat) (d : Dev) : Dev :=
  if d.stepReady step then
    let d1 := d.wr 0x7C0003 step
    let d2 : Dev := { d1 with pwr := { d1.pwr with steps := d1.pwr.steps ++ [step] } }
    match step with
    | 1 => if d2.dieHot then d2.enterFaulted.releaseReplies else d2
    | 2 => if !d2.eas.custHeld then d2 else d2.wrs [(0x444003, 1), (0x444002,
        crc32 ((tabRead 0 d2.eas.cust 0 4096).flatMap fun w => le 24 w.toNat))]
    | 4 => d2.memoryTest 4
    | 5 => d2.memoryTest 5
    | 6 => d2.trainPorts
    | 7 => d2.startPhase 1
    | _ => d2
  else d

/-- PRIMING_TIMEOUT (R689). -/
def primingTimeoutOp (d : Dev) : Dev := if d.state = .priming then d.enterFaulted.releaseReplies else d

/-- A job that has not ended. -/
def Job.open_ (j : Job) : Bool := j.st == .accepted || j.st == .placing || j.st.resident

/-- After a power-on reset: every job that had not ended is STOPPED and its unacknowledged records are lost (R659,
R662). -/
def Dev.loseHold (d : Dev) : Dev :=
  match d.hub.jobs.filter Job.open_ with
  | [] => d
  | j :: l =>
    let lost := (j :: l).flatMap fun k => le 8 k.seq ++ le 8 (match k.acked with
      | some a => a + 1
      | none => 0) ++ le 8 (k.nextShot - 1)
    let d1 := (j :: l).foldl (fun e (k : Job) =>
      (e.modJob k.seq fun x => { x with final := [], queued := [] }).endJob k.seq .stopped 6) d
    (d1.flag 0x780003 1).bbWrite 0x0A 0 0 0 0 0 lost

/-- After another reset: the jobs that have not ended are recovered, and what is held is sent again (R657, R658). -/
def Dev.recoverJobs (d : Dev) : Dev :=
  let js := (d.hub.jobs.filter Job.open_).mergeSort fun a b => decide (a.seq ≤ b.seq)
  let d1 := (d.wr 0x780007 (d.rd 0x780007 + 1)).flag 0x780003 0
  let d2 := d1.bbWrite 9 0 0 0 0 0 (js.flatMap fun j => le 8 j.seq ++ le 8 j.nextShot)
  (js.foldl (fun e (j : Job) => e.modJob j.seq fun k => { k with recoveries := k.recoveries + 1 }) d2).requeue fun _ => true

/-- The stored configuration is applied (R620): a word that fails its range check is skipped and counted. -/
def Dev.applyConfig (d : Dev) : Dev :=
  match d.qop.cfg with
  | some l =>
    if d.rd 0x101002 = 1 ∧ d.rd 0x101003 = 1 ∧ !d.qop.cfgDefault then
      let good := l.filter fun s => rangeOk s.key s.val
      let bad := l.filter fun s => !rangeOk s.key s.val
      (d.wr 0x101007 (draftWords bad)).applyWords (good.map fun s => (s.key, s.val))
    else d
  | none => d

/-- PRIMING_COMPLETE (R571, R620, R657, R715). -/
def primingCompleteOp (ms : Nat) (d : Dev) : Dev :=
  if d.state = .priming ∧ d.primeSteps.all d.pwr.steps.contains then
    let d1 := (d.wr 0x7C0004 ms).refreshUnits
    let d2 := if d.pwr.resetKind = 0 then d1.loseHold.applyConfig else d1.recoverJobs
    let d3 : Dev := { d2 with out := { d2.out with flux := d2.out.flux.map fun p => (p.1, { p.2 with ramp := none }) } }
    (d3.setState .primed 2).releaseReplies
  else d

/-! ### Sleep and wake (R691 to R696) -/

/-- The rails of the AO group (R674). -/
def aoRail (r : Nat) : Bool := r == 28 || r == 29 || r == 31

/-- SLEEP (R691): a root releases the token first. -/
def Dev.beginSleep (d : Dev) : Dev :=
  let l := if d.lat.st = .root then { d.lat with releaseDue := d.lat.beating } else d.lat
  { d with lat := l, pwr := { d.pwr with sleeping := true } }

/-- Links and host ports lose their power. -/
def Dev.portsOff (d : Dev) : Dev :=
  let d1 := (List.range 12).foldl (fun e k => if e.rd (unitKey 0x240001 k) = 5 then e else e.dropLink k 0) d
  ((List.range 4).foldl (fun e h => if e.rd (unitKey 0x280001 h) = 4 then e else e.portEnabled h false) d1).refreshUnits

/-- ASLEEP_ENTRY (R691, R692): the rails are off, and what on-package SRAM held is lost. Routines end (R454). -/
def asleepEntryOp (d : Dev) : Dev :=
  if d.pwr.sleeping ∧ d.state = .primed then
    let d2 := ((d.abortRuns.portsOff.setRails (fun r => !aoRail r) 0).wrBit 0x200003 1 false).clockSource false false
    let d3 := d2.setState .asleep 1
    let d4 : Dev := { d3 with
      counting := false
      lat := { d3.lat with st := if d3.lat.st = .alone then .alone else .isolated, beating := false, releaseDue := false }
      eas := { d3.eas with desc := [], store := [] }, dsp := []
      pwr := { d3.pwr with sleeping := false, wakeAfter := false, waking := if d3.pwr.wakeAfter then some d3.epoch else none } }
    if d3.pwr.wakeAfter then d4.startPhase 1 else d4
  else d

/-- WAKE_COMPLETE (R695, R696), when SLICE, SKEW and LEVEL have run: the rails are on, the fabric clock runs, control stores are
reloaded, lanes train; a chip with a spine link joins again. -/
def wakeCompleteOp (ms : Nat) (d : Dev) : Dev :=
  if d.state = .asleep ∧ d.pwr.waking.isSome ∧ d.cal.phase = 0 then
    let d1 := (d.setRails (fun _ => true) 7).wrBit 0x200003 1 true
    let spine := decide (d.rd 0x201003 < 12 ∨ d.rd 0x201004 < 12)
    let d2 : Dev := { d1 with
      counting := true, pwr := { d1.pwr with waking := none }, agg := { d1.agg with afterWake := true } }
    ((((if spine then d2.enterListening else d2).setState .primed 5).wr 0x7C0005 ms).trainPorts)
  else d

/-! ### Feeds and PMBus (R638 to R643, R674 to R678) -/

/-- Whether a job holds a unit of a tile. -/
def Job.onTile (t : Nat) (j : Job) : Bool :=
  j.held.canvases.any (·.tile == t) || j.held.xy.any (· / 8 == t) || j.held.rl.any (· / 4 == t)
    || j.held.flux.any (· / 96 == t) || j.held.cores.any (fun c => c != 16 && c / 2 == t) || j.held.acq.any (· / 16 == t)

/-- The units of a tile (R22). -/
def tileUnits (t : Nat) : List UnitRef :=
  (List.range 8).map (fun i => UnitRef.xyPort (8 * t + i)) ++ (List.range 4).map (fun i => UnitRef.rlLine (4 * t + i))
    ++ (List.range 96).map (fun i => UnitRef.flux (96 * t + i)) ++ (List.range 4).map (fun i => UnitRef.easel (4 * t + i))
    ++ (List.range 2).map fun i => UnitRef.dsp (2 * t + i)

/-- The rails of a die (R674), 8 the hub. -/
def dieRails (die : Nat) : List Nat := if die < 8 then [3 * die, 3 * die + 1, 3 * die + 2] else (List.range 8).map (24 + ·)

/-- The die of a rail. -/
def railDie (r : Nat) : Nat := if r < 24 then r / 3 else 8

/-- The rails of a feed of a die are in band, or are not. -/
def Dev.feedBand (d : Dev) (die : Nat) (sideB good : Bool) : Dev :=
  (dieRails die).foldl (fun e r => e.wrBit (unitKey 0x7C1004 r) (if sideB then 1 else 0) good) d

/-- A feed of a die is lost (R639, R641, R643). -/
def feedLossOp (die : Nat) (sideB : Bool) (d : Dev) : Dev :=
  let side := if sideB then 1 else 0
  let key := unitKey 0x783001 die
  if 8 < die ∨ !d.bit key side then d
  else
    let d1 := (((d.wrBit key side false).feedBand die sideB false).flag (unitKey 0x783002 die) side)
    let d2 : Dev := { d1 with hub := { d1.hub with transfers := d1.hub.transfers ++ [(die, side)] } }
    let d3 := if die = 8 then d2.spoilAll else d2.spoilWhere (Job.onTile die)
    if d3.rd key % 4 ≠ 0 then d3
    else if die = 8 then powerRemovalOp d3
    else (tileUnits die).foldl (fun e u => e.retireNow u 0) d3

/-- The codes of a die's rails on a feed (R674). -/
def Dev.railReadings (d : Dev) (die side : Nat) : List Byte :=
  (dieRails die).flatMap fun r => le 2 (bits (d.rd (unitKey 0x6D0001 (32 * (side + 1) + r))) 11 0)

/-- The remaining feed carries the whole load (R639, R641). -/
def feedTransferCompleteOp (die ticks : Nat) (d : Dev) : Dev :=
  match d.hub.transfers.find? fun t => t.1 == die with
  | none => d
  | some t =>
    let d1 : Dev := { d with hub := { d.hub with transfers := d.hub.transfers.erase t } }
    (d1.wr (unitKey 0x783003 die) ticks).bbWrite 4 14 (2 * die + t.2) 0 0 0 (d.railReadings die t.2 ++ le 4 ticks)

/-- A lost feed rejoins load sharing (R642). -/
def feedRestoredOp (die : Nat) (sideB : Bool) (d : Dev) : Dev :=
  let side := if sideB then 1 else 0
  let key := unitKey 0x783001 die
  if 8 < die ∨ d.bit key side then d
  else ((d.wrBit key side true).feedBand die sideB true).flag (unitKey 0x783002 die) 2

/-- A supply is polled (R676 to R678): a failure after the third attempt is an error; a supply that reports a fault is a
lost feed. -/
def pmbusPollOp (sideB : Bool) (rail attemptsFailed : Nat) (faultBit : Bool) (d : Dev) : Dev :=
  let side := if sideB then 1 else 0
  let d1 : Dev := { d with pwr := { d.pwr with pollDue := if d.pwr.pollDue.testBit side then d.pwr.pollDue - 2 ^ side else d.pwr.pollDue } }
  if 32 ≤ rail ∨ !d.pwr.powered ∨ d.rd (unitKey (0x7C1001 + side) rail) = 0 then d1
  else if 3 ≤ attemptsFailed then d1.flag 0x7C0001 2
  else if faultBit then feedLossOp (railDie rail) sideB d1
  else d1

/-- PMB_A_ALERT_N or PMB_B_ALERT_N asks for a poll (R676). -/
def pmbAlertOp (sideB : Bool) (d : Dev) : Dev :=
  { d with pwr := { d.pwr with pollDue := Nat.lor d.pwr.pollDue (if sideB then 2 else 1) } }

/-- A DDR4 read returns an ECC error (R192, R630): a correctable one is corrected; the bytes of an uncorrectable one are
missing in the stream that they belong to, whose STREAM_ECC it sets (R194), and it counts towards the channel's retirement. -/
def ddrEccErrorOp (channel : Nat) (uncorrectable : Bool) (d : Dev) : Dev :=
  let hit := Config.eccStream channel d.epoch
  if !uncorrectable then d
  else
    let d1 := d.noteFault (.ddr channel) 0
    if hit.1 < 64 ∧ d.rd (unitKey 0x488001 hit.1) ≠ 0 then
      let v := d1.streamSt hit.1
      let at_ := v.ringAt + v.ring.length
      (d1.setStream hit.1 { v with lost := v.lost ++ [(at_, at_ + hit.2)] }).flag (unitKey 0x48800B hit.1) 2
    else d1

/-! ### Meanings -/

/-- RESET_N. -/
def execResetN (cfgDefaultLow : Bool) (s : State) : Host.Outcome State Fault Refusal :=
  .next (s.onNow (resetNOp cfgDefaultLow))
/-- POWERUP_TIMEOUT. -/
def execPowerupTimeout (s : State) : Host.Outcome State Fault Refusal := .next (s.onNow powerupTimeoutOp)
/-- POWER_REMOVAL. -/
def execPowerRemoval (s : State) : Host.Outcome State Fault Refusal := .next (s.onNow powerRemovalOp)
/-- BOOT_COMPLETE. -/
def execBootComplete (fallback : Bool) (s : State) : Host.Outcome State Fault Refusal :=
  .next (s.onNow (bootCompleteOp fallback))
/-- PRIMING. -/
def execPriming (step : Nat) (s : State) : Host.Outcome State Fault Refusal := .next (s.onNow (primingOp step))
/-- PRIMING_COMPLETE. -/
def execPrimingComplete (ms : Nat) (s : State) : Host.Outcome State Fault Refusal :=
  .next (s.onNow (primingCompleteOp ms))
/-- PRIMING_TIMEOUT. -/
def execPrimingTimeout (s : State) : Host.Outcome State Fault Refusal := .next (s.onNow primingTimeoutOp)
/-- ASLEEP_ENTRY. -/
def execAsleepEntry (s : State) : Host.Outcome State Fault Refusal := .next (s.onNow asleepEntryOp)
/-- WAKE_COMPLETE. -/
def execWakeComplete (ms : Nat) (s : State) : Host.Outcome State Fault Refusal := .next (s.onNow (wakeCompleteOp ms))
/-- THERM_WARN. -/
def execThermWarn (code : Nat) (s : State) : Host.Outcome State Fault Refusal := .next (s.onNow (thermWarnOp code))
/-- THERMAL_TRIP. -/
def execThermalTrip (s : State) : Host.Outcome State Fault Refusal := .next (s.onNow thermalTripOp)
/-- FEED_LOSS. -/
def execFeedLoss (die : Nat) (sideB : Bool) (s : State) : Host.Outcome State Fault Refusal :=
  .next (s.onNow (feedLossOp die sideB))
/-- FEED_TRANSFER_COMPLETE. -/
def execFeedTransferComplete (die ticks : Nat) (s : State) : Host.Outcome State Fault Refusal :=
  .next (s.onNow (feedTransferCompleteOp die ticks))
/-- FEED_RESTORED. -/
def execFeedRestored (die : Nat) (sideB : Bool) (s : State) : Host.Outcome State Fault Refusal :=
  .next (s.onNow (feedRestoredOp die sideB))
/-- PMBUS_POLL. -/
def execPmbusPoll (sideB : Bool) (rail attemptsFailed : Nat) (faultBit : Bool) (s : State) :
    Host.Outcome State Fault Refusal := .next (s.onNow (pmbusPollOp sideB rail attemptsFailed faultBit))
/-- PMB_ALERT. -/
def execPmbAlert (sideB : Bool) (s : State) : Host.Outcome State Fault Refusal := .next (s.onNow (pmbAlertOp sideB))
/-- DDR_ECC_ERROR. -/
def execDdrEccError (channel : Nat) (uncorrectable : Bool) (s : State) : Host.Outcome State Fault Refusal :=
  .next (s.onNow (ddrEccErrorOp channel uncorrectable))

end Sys2Proof.Machine
end

