-- ==== Sys2Proof/Machine/Read.lean ====
section
/-! DEFINITION. What a read of an object returns (R12, R14, R49, R604, R605, R614, R615, R626, R668, R672, R714): the
bytes of stored objects, and of objects that show other parts of the state. -/

namespace Sys2Proof.Machine

/-! ### The TAP (R2, R669) -/

/-- What an instruction of the TAP puts between TDI and TDO. -/
inductive TapReg where
  /-- The bypass bit. -/
  | bypass
  /-- The 32 bits of TAP_IDCODE. -/
  | idcode
  /-- The levels of the lands. PRELOAD drives nothing. -/
  | lands
  deriving DecidableEq, Repr

/-- The register that an instruction code of the TAP selects: every code but those of IDCODE and SAMPLE/PRELOAD selects
BYPASS (R669). -/
def tapSelect (code : Nat) : TapReg :=
  if code = Config.tapCodes.1 then .idcode else if code = Config.tapCodes.2 then .lands else .bypass

/-- What the TAP shifts out under an instruction code, first bit first (R669). It observes the device and changes nothing of its
state (R2). -/
def Dev.tapOut (d : Dev) (code : Nat) : List Bool :=
  match tapSelect code with
  | .bypass => [false]
  | .idcode => (List.range 32).map fun b => d.bit 0x784001 b
  | .lands => Config.tapLands ((List.range 64).filterMap fun m => (d.markerLand m).map fun v => (m, v))

/-! ### Objects that show other parts of the state -/

/-- What holds a thread in each context that runs: its own, or its sketch paths while there are any (R310, R711). -/
def Thread.waits (t : Thread) : List Wait :=
  if t.paths.isEmpty then [t.main.wait]
  else (t.paths.filter fun p => !t.branching (some p.id)).map fun p => if p.ctx.wait = .done then .service 0 else p.ctx.wait

/-- THREAD_STATE (R146, R711): READY while one context is ready, else the state of the first of them. A path at its END
waits for its decision. -/
def Dev.threadState (d : Dev) (n : Nat) : Nat :=
  let t := d.thread n
  if t.inTrap.isSome then 0x0A
  else if (d.jobOfThread n).isNone then 0
  else if t.finished then 9
  else if t.waits.contains .ready then 1
  else match t.waits.headD .ready with
    | .ready => 1
    | .time => 2
    | .branch _ _ _ _ => 3
    | .service _ => 3
    | .queue => 4
    | .launch => 5
    | .mem => 6
    | .barrier _ => 7
    | .event _ _ _ => 8
    | .done => 1

/-- Bytes 0 to 55 of a black-box record (R668). -/
def BBRec.head (r : BBRec) : List Byte :=
  let w := r.wall.getD (0, 0)
  le 2 r.btype ++ le 1 (if r.frozen then 1 else 0) ++ le 1 r.ukind ++ le 4 r.no ++ le 8 r.epoch ++ le 8 w.1 ++ le 4 w.2
    ++ le 2 r.uidx ++ le 2 r.cause ++ le 8 r.job ++ le 8 r.shot ++ le 2 r.payload.length ++ le 1 r.dstate ++ le 1 0
    ++ le 4 r.boot

/-- A black-box record (R668). -/
def BBRec.bytes (r : BBRec) : List Byte :=
  r.head ++ le 4 (crc32 (r.head ++ r.payload)) ++ le 4 0 ++ r.payload

/-- ACKED_THROUGH (R601): all ones, which counts as −1, before an acknowledgement covers a shot. -/
def Job.ackedThrough (j : Job) : Nat := j.acked.getD (2 ^ 64 - 1)

/-- LEDGER_VIEW of a job (R672). -/
def Job.view (j : Job) : List Byte :=
  le 8 j.seq ++ le 2 j.slot ++ le 1 j.st.code ++ le 1 j.endCause ++ le 4 j.recoveries ++ le 8 j.nextShot
    ++ le 8 j.ackedThrough ++ le 8 j.head.shots ++ le 1 j.attempt ++ le 1 j.spoiledRuns ++ le 1 j.discards
    ++ le 1 ((if j.head.multiChip then 1 else 0) + (if j.tentative.isSome then 2 else 0)) ++ le 20 0

/-- An object of a job slot (R601). -/
def Dev.slotObject (d : Dev) (slot sub : Nat) : Nat :=
  match d.hub.jobs.find? (·.slot == slot) with
  | none => 0
  | some j =>
    match sub with
    | 1 => j.seq
    | 2 => j.st.code
    | 3 => j.doneCount
    | 4 => j.ackedThrough
    | 5 => j.spoiledCount
    | 6 => j.rerunCount
    | _ => 0

/-- The thread whose canvas serves the tones of a kind of a qubit: readout tones, or drive tones. -/
def Dev.toneThread (d : Dev) (q : Nat) (readout : Bool) : Option Nat :=
  (framePlace (d.resident.flatMap (·.held.canvases)) q readout).map (·.thread)

/-- A present frame value of a qubit (R211): DFREQ, DVPH, RFREQ, RVPH at 0x20 to 0x2F. -/
def Dev.frameValue (d : Dev) (q i : Nat) : Nat :=
  match d.toneThread q (decide (8 ≤ i)) with
  | none => 0
  | some n =>
    let f := d.frame (frameIdx n (i / 8) (i % 4))
    if i / 4 % 2 = 0 then f.freq.toNat else f.vph.toNat

/-- Free 4 KiB blocks of a tile's sample store. -/
def Dev.storeFree (d : Dev) (tile : Nat) : Nat :=
  0x1000 - ((d.usedBlocks tile).map fun b => b.2 + 1 - b.1).sum

/-- Entries of the descriptor table in regions. -/
def Dev.descUsed (d : Dev) : Nat := ((d.resident.flatMap (·.held.regions)).map fun r => r.2.2.2 + 1 - r.2.2.1).sum

/-- A word of the PENDING_MAP (R495). -/
def Dev.pendingWord (d : Dev) (w : Nat) : Nat :=
  (List.range 64).foldl (fun n b => if d.pendingBit (64 * w + b) then n + 2 ^ b else n) 0

/-- The objects of a thread that its state shows (R146, R325). -/
def Dev.threadObject (d : Dev) (n sub : Nat) : Option Nat :=
  let t := d.thread n
  if sub = 4 then some (d.threadState n)
  else if sub = 5 then some t.main.cpc
  else if sub = 6 then some t.main.cursor
  else if sub = 9 then some t.heldEntries.length
  else if sub = 0x0A then some t.launch.length
  else if 0x20 ≤ sub ∧ sub ≤ 0x2F then some (t.main.vr (sub - 0x20)).toNat
  else if sub = 0x42 then some t.paths.length
  else if sub = 0x43 then some t.branches.length
  else if sub = 0x44 then
    some ((List.range 16).foldl (fun m h => if (tabGet none t.handles h).isSome then m + 2 ^ h else m) 0)
  else none

/-- Objects whose value is that of another part of the state; none: the object's own value stands. `now` is the present
epoch (R49). -/
def Dev.shown (d : Dev) (now idx sub : Nat) : Option Nat :=
  if 0x4000 ≤ idx ∧ idx ≤ 0x41FF then d.threadObject (idx - 0x4000) sub
  else if idx = 0x2000 ∧ sub = 1 then some now
  else if idx = 0x2011 ∧ sub = 1 then some d.lat.st.code
  else if idx = 0x2011 ∧ sub = 4 then
    some (if d.lat.st = .alone ∨ d.lat.st = .listening then d.rd 0x201104 else d.lat.leaseEnd - d.epoch)
  else if idx = 0x2011 ∧ sub = 8 then
    (if d.lat.st = .holdover then some (d.epoch - d.lat.holdStart) else none)
  else if idx = 0x1001 ∧ sub = 1 then some d.state.code
  else if 0x1C00 ≤ idx ∧ idx ≤ 0x1FFF then some (d.slotObject (idx - 0x1C00) sub)
  else if 0x4A00 ≤ idx ∧ idx ≤ 0x4BFF ∧ 0x21 ≤ sub ∧ sub ≤ 0x40 then
    some (tabGet (0, 0) (d.thread (idx - 0x4A00)).main.gens (sub - 0x21)).1
  else if 0x4A00 ≤ idx ∧ idx ≤ 0x4BFF ∧ 0x41 ≤ sub ∧ sub ≤ 0x60 then
    some (tabGet (0, 0) (d.thread (idx - 0x4A00)).main.gens (sub - 0x41)).2
  else if idx = 0x4800 ∧ sub = 1 then some d.descUsed
  else if idx = 0x4800 ∧ sub = 2 then some (d.resident.flatMap (·.held.streams)).length
  else if idx = 0x4800 ∧ sub = 3 then some ((List.range 64).map fun s => d.rd (unitKey 0x488007 s)).sum
  else if 0x3000 ≤ idx ∧ idx ≤ 0x31FF ∧ 0x20 ≤ sub ∧ sub ≤ 0x2F then some (d.frameValue (idx - 0x3000) (sub - 0x20))
  else if 0x3800 ≤ idx ∧ idx ≤ 0x383F ∧ sub = 7 then
    some ((List.range 8).filter fun k => d.bit (objKey idx (0x10 + k)) 10).length
  else if 0x3840 ≤ idx ∧ idx ≤ 0x385F ∧ sub = 7 then some (d.boundSlots (idx - 0x3840)).length
  else if 0x5100 ≤ idx ∧ idx ≤ 0x517F ∧ sub = 0x18 then
    some (if d.rd (objKey idx 1) = 0 then 0 else d.acqRate (idx - 0x5100) / 2 ^ 16)
  else if 0x3A40 ≤ idx ∧ idx ≤ 0x3A47 ∧ sub = 5 then
    let t := d.trigInOf (idx - 0x3A40)
    some (t.queue.length + (if t.held.isSome then 1 else 0))
  else if 0x6010 ≤ idx ∧ idx ≤ 0x6017 ∧ sub = 1 then some (d.freeThreads (idx - 0x6010)).length
  else if 0x6010 ≤ idx ∧ idx ≤ 0x6017 ∧ sub = 2 then some (d.storeFree (idx - 0x6010))
  else if 0x6010 ≤ idx ∧ idx ≤ 0x6017 ∧ sub = 3 then
    some (halfRate ((d.resident.flatMap (·.held.peaks)).filter fun p => p.1 == idx - 0x6010 : List (Nat × Nat)).unzip.2.sum)
  else if 0x4460 ≤ idx ∧ idx ≤ 0x4467 ∧ sub = 1 then
    some ((d.resident.flatMap (·.held.pages)).filter fun p => p.1 == idx - 0x4460 : List (Nat × Nat)).unzip.2.sum
  else if 0x6020 ≤ idx ∧ idx ≤ 0x6023 then some (wholeRate (d.flowRate (idx - 0x6020)))
  else if idx = 0x7400 ∧ sub = 6 then some d.agg.queue.length
  else if idx = 0x7401 ∧ 1 ≤ sub then some (d.pendingWord (sub - 1))
  else if 0xF000 ≤ idx then some (d.ctr (objKey idx sub))
  else none

/-! ### Descriptions and views of an identity (R614, R615, R672) -/

/-- TYPE, Q_M and Q_N of a type (R615). -/
def Ty.code : Ty → Nat × Nat × Nat
  | .bool => (0x01, 0, 0)
  | .u8 => (0x02, 0, 0)
  | .u16 => (0x03, 0, 0)
  | .u32 => (0x04, 0, 0)
  | .u64 => (0x05, 0, 0)
  | .i16 => (0x06, 0, 0)
  | .i32 => (0x07, 0, 0)
  | .q m n => (0x08, m, n)
  | .f32 => (0x09, 0, 0)
  | .ticks => (0x0A, 0, 0)
  | .str _ => (0x0B, 0, 0)
  | .blob _ => (0x0C, 0, 0)

/-- ACCESS (R615). -/
def Acc.code : Acc → Nat
  | .ro => 0
  | .rw => 1
  | .wo => 2
  | .rs => 4
  | .set => 5

/-- The present bytes of a BLOB of variable length: LAST_REPORT and BB_READ. -/
def Dev.variableBytes (d : Dev) (idx : Nat) : List Byte :=
  if idx = 0x6000 then d.hub.report
  else match d.hub.bb.find? fun r => r.no == d.rd 0x782004 with
    | some r => r.bytes
    | none => []

/-- Length in bytes of an object's value at present. -/
def Dev.lengthOf (d : Dev) (idx : Nat) (r : Row) : Nat :=
  if r.ty = .blob 0 then (d.variableBytes idx).length else r.ty.bytes

/-- DESC_RESULT for a DESC_QUERY (R615). -/
def Dev.describe (d : Dev) (q : Nat) : Nat :=
  let idx := q % 2 ^ 16
  let sub := bits q 23 16
  match objRow idx sub with
  | none => 0
  | some r =>
    let c := r.ty.code
    c.1 + 2 ^ 8 * r.acc.code + 2 ^ 12 * c.2.1 + 2 ^ 16 * c.2.2 + 2 ^ 21
      + (if savedIdx idx ∧ (r.acc = .rs ∨ r.acc = .rw) then 2 ^ 23 else 0) + 2 ^ 32 * d.lengthOf idx r

/-- LEDGER_VIEW of an identity. -/
def Dev.ledgerView (d : Dev) (who : Nat) : List Byte :=
  match d.job (d.ident who).ledgerQuery with
  | some j => j.view
  | none => le 64 0

/-- The bytes that a read of an implemented object returns to an identity. -/
def Dev.readBytes (d : Dev) (now who idx sub : Nat) (r : Row) : List Byte :=
  if r.acc = .wo then le r.ty.bytes 0
  else if r.ty = .blob 0 then d.variableBytes idx
  else if idx = 0x1008 ∧ sub = 1 then le 4 (d.ident who).descQuery
  else if idx = 0x1008 ∧ sub = 2 then le 8 (d.describe (d.ident who).descQuery)
  else if idx = 0x7800 ∧ sub = 5 then le 8 (d.ident who).ledgerQuery
  else if idx = 0x7800 ∧ sub = 6 then d.ledgerView who
  else if sub = 0 then le 1 (highestSub idx)
  else match d.shown now idx sub with
    | some v => le r.ty.bytes v
    | none => le r.ty.bytes (d.rd (objKey idx sub))

end Sys2Proof.Machine
end

