-- ==== Sys2Proof/Machine/Qop.lean ====
section
/-! DEFINITION. The QOP server: how a request is taken, checked and answered (R553 to R563, R573), and the requests about
objects, drafts, states, counters and keys (R564 to R569, R575 to R581, R604 to R609, R682 to R694, R714). -/

namespace Sys2Proof.Machine

/-! ### Taking a request (R553 to R558) -/

/-- QOP is available: the device is powered, its firmware runs and MGMT is up (R686, R593). -/
def Dev.available (d : Dev) : Bool := d.pwr.powered && d.pwr.booted && d.mgmtUp

/-- The ROLE of an identity (R559); other numbers name no identity. -/
def Dev.role (d : Dev) (i : Nat) : Nat := if i < 4 then d.rd (0x180010 + i) else 0xFF

/-- The frame of a request before its TAG (R554, R561). -/
def requestFrame (r : Req) (cmd : Nat) (payload : List Byte) : List Byte :=
  qopHeader 1 r.ident payload.length r.seq cmd 0 0 0 ++ payload

/-- Whether a request is dropped (R556, R557). -/
def Dev.drops (d : Dev) (r : Req) (cmd : Nat) (payload : List Byte) : Bool :=
  r.magic != 0x5150 || r.version != 1 || !r.lenOk || d.role r.ident == 0xFF
    || r.tag != Config.hmac (d.ident r.ident).key (requestFrame r cmd payload) || r.seq == 0

/-- How a request that arrived is handled (R556 to R558). -/
inductive Gate where
  | drop | busy | stale | accepted | accept
  deriving DecidableEq, Repr

/-- The handling of a request. -/
def Dev.gate (d : Dev) (r : Req) (cmd : Nat) (payload : List Byte) : Gate :=
  let x := d.ident r.ident
  if d.drops r cmd payload then .drop
  else if 64 ≤ r.waiting then .busy
  else if x.high < r.seq then .accept
  else if r.seq + 64 < x.high then .stale
  else if x.stored.any (fun (p : Reply) => p.seq == r.seq)
      || d.qop.deferred.any (fun (p : Reply) => p.ident == r.ident && p.seq == r.seq) then .accepted
  else .accept

/-- The reply to a request. -/
def Dev.replyTo (d : Dev) (r : Req) (cmd : Nat) (a : Ans) : Reply :=
  { ident := r.ident, seq := r.seq, cmd := cmd, status := a.status, dstate := a.dstate.getD d.state.code
    epoch := d.epoch, payload := a.bytes }

/-- A reply leaves and is kept, unless the identity's records were cleared meanwhile (R557). -/
def Dev.answer (d : Dev) (r : Req) (cmd : Nat) (a : Ans) : Dev :=
  let p := d.replyTo r cmd a
  if r.seq ≤ (d.ident r.ident).high then d.finishReply p else d.sendReply p

/-- An accepted request counts (R557). -/
def Dev.take (d : Dev) (r : Req) : Dev :=
  let x := d.ident r.ident
  let h := max x.high r.seq
  d.setIdent r.ident { x with high := h, stored := keepWindow h x.stored }

/-- The stored reply of a request leaves again. -/
def Dev.again (d : Dev) (r : Req) : Dev :=
  match (d.ident r.ident).stored.find? fun (p : Reply) => p.seq == r.seq with
  | some p => d.sendReply p
  | none => d

/-- Whether a role permits a command (R559, R560). -/
def roleAllows (role ident cmd : Nat) : Bool :=
  if cmd = 0x50 then role == 0 && ident == 0
  else role == 0 || role == 1 || (role == 2 && (cmd == 1 || cmd == 0x10 || cmd == 0x11 || cmd == 0x24 || cmd == 0x35))

/-- Whether a device state accepts a command (R573). READ and READ_PART outside 0x1000–0x1FFF are checked by item. -/
def stateAllows (st : DState) (cmd : Nat) : Bool :=
  let live := st == .primed || st == .armed || st == .running || st == .draining || st == .halted
  if cmd = 1 ∨ cmd = 0x44 ∨ cmd = 0x10 ∨ cmd = 0x11 then true
  else if cmd = 0x24 ∨ cmd = 0x35 ∨ cmd = 0x45 then live || st == .priming || st == .faulted
  else if cmd = 0x31 ∨ cmd = 0x32 ∨ cmd = 0x33 then live && st != .primed
  else if cmd = 0x40 then st == .cold
  else if cmd = 0x41 then st == .faulted
  else if cmd = 0x42 ∨ cmd = 0x50 then st == .primed
  else if cmd = 0x43 then st == .asleep
  else if cmd = 0x51 then st == .primed || st == .halted
  else live

/-- A request is answered at once. A STATE_CONFLICT is counted (R21). -/
def Dev.settleAnswer (d : Dev) (r : Req) (cmd : Nat) (a : Ans) : Dev :=
  (if a.status = stStateConflict then d.conflict else d).answer r cmd a

/-- A request whose answer waits for completion (R558). -/
def Dev.defer (d : Dev) (r : Req) (cmd : Nat) : Dev :=
  { d with qop := { d.qop with deferred := d.qop.deferred ++ [d.replyTo r cmd {}] } }

/-- The checks of R563 before the content: form, role, state. -/
def Dev.precheck (d : Dev) (r : Req) (cmd : Nat) (formOk : Bool) : Nat :=
  if !r.layoutOk || !formOk then stBadPayload
  else if !roleAllows (d.role r.ident) r.ident cmd then stAccessDenied
  else if !stateAllows d.state cmd then stStateConflict
  else stOk

/-- A request is served: dropped, turned away, answered again, or checked and executed. `run` answers the device after
the command, and its answer or none when that comes on completion. -/
def Dev.serve (d : Dev) (r : Req) (cmd : Nat) (payload : List Byte) (formOk : Bool) (run : Dev → Dev × Option Ans) :
    Dev :=
  if !d.available then d
  else match d.gate r cmd payload with
    | .drop => d.hostFlag 0x180001 0
    | .busy => (d.hostFlag 0x180001 2).sendReply (d.replyTo r cmd { status := stBusy })
    | .stale => (d.hostFlag 0x180001 1).sendReply (d.replyTo r cmd { status := stStaleSeq })
    | .accepted => d.again r
    | .accept =>
      let d1 := d.take r
      let pre := d1.precheck r cmd formOk
      if pre ≠ stOk then d1.settleAnswer r cmd { status := pre }
      else
        let x := run d1
        let e := x.1.inStep1 d1
        match x.2 with
        | some a => e.settleAnswer r cmd a
        | none => e

/-! ### PING, READ, READ_PART, DDR_READ -/

/-- PING. -/
def pingOp (r : Req) (d : Dev) : Dev := d.serve r 0x01 [] true fun e => (e, some {})

/-- Status and bytes of one item of a READ (R564, R604, R605). -/
def Dev.readItem (d : Dev) (now who : Nat) (i : Nat × Nat) : Nat × List Byte :=
  match objRow i.1 i.2 with
  | none => (stNoObject, [])
  | some w =>
    let b := d.readBytes now who i.1 i.2 w
    if 1024 < b.length then (stTooLong, []) else (stOk, b)

/-- The reply items of a READ (R566): an entry that leaves no room for 4 bytes of each later item is TOO_LONG. -/
def Dev.readFill (d : Dev) (now who : Nat) : List (Nat × Nat) → Nat → List Byte
  | [], _ => []
  | i :: l, used =>
    let x := d.readItem now who i
    let fits := decide (used + 4 + (padTo 4 x.2).length + 4 * l.length ≤ 1404)
    let y := if fits then x else (stTooLong, [])
    let b := le 2 y.1 ++ le 2 y.2.length ++ padTo 4 y.2
    b ++ d.readFill now who l (used + b.length)

/-- Whether COLD and ASLEEP let an index be read (R573). -/
def readable (st : DState) (idx : Nat) : Bool := (st != .cold && st != .asleep) || decide (0x1000 ≤ idx ∧ idx ≤ 0x1FFF)

/-- READ: the items as they stood at the end of the previous tick (R605). -/
def readOp (last : Dev) (r : Req) (items : List (Nat × Nat)) (d : Dev) : Dev :=
  d.serve r 0x10 (items.flatMap fun i => le 2 i.1 ++ le 1 i.2 ++ le 1 0) (decide (1 ≤ items.length ∧ items.length ≤ 64))
    fun e =>
      match items.zipIdx.find? fun p => !readable e.state p.1.1 with
      | none => (e, some { payload := last.readFill e.epoch r.ident items 0, dstate := some last.state.code })
      | some p => (e, some { status := stStateConflict, item := p.2, key := objKey p.1.1 p.1.2 })

/-- READ_PART (R607, R714). -/
def readPartOp (last : Dev) (r : Req) (idx sub off len : Nat) (d : Dev) : Dev :=
  d.serve r 0x11 (le 2 idx ++ le 1 sub ++ le 4 off ++ le 2 len) (decide (1 ≤ len ∧ len ≤ 1392)) fun e =>
    if !readable e.state idx then (e, some { status := stStateConflict, key := objKey idx sub })
    else match objRow idx sub with
      | none => (e, some { status := stNoObject, key := objKey idx sub })
      | some w =>
        let b := last.readBytes e.epoch r.ident idx sub w
        if b.length ≤ off then (e, some { status := stOutOfRange, key := objKey idx sub })
        else (e, some { payload := (b.drop off).take len, dstate := some last.state.code })

/-- DDR_READ. -/
def ddrReadOp (r : Req) (addr len : Nat) (d : Dev) : Dev :=
  d.serve r 0x24 (le 8 addr ++ le 2 len) (decide (1 ≤ len ∧ len ≤ 1392)) fun e =>
    (e, some { payload := Sys2Proof.Machine.ddrRead e.ddr addr len })

/-! ### WRITE, COMMIT, DISCARD (R565, R575 to R581) -/

/-- Whether an object is one of ROLE0 to ROLE3. -/
def isRole (idx sub : Nat) : Bool := idx == 0x1800 && decide (0x10 ≤ sub ∧ sub ≤ 0x13)

/-- The first item of a WRITE that a role does not permit (R559). -/
def deniedItem (role : Nat) (l : List WItem) : Option (Nat × WItem) :=
  if role = 0 then none else (l.zipIdx.find? fun p => isRole p.1.idx p.1.sub).map fun p => (p.2, p.1)

/-- The answer to a WRITE that cannot apply, if it cannot: the lengths of its items, the role, then the rest (R563,
R606). -/
def Dev.writeFault (d : Dev) (who : Nat) (l : List WItem) : Option Ans :=
  match d.firstWith l (· == stBadPayload), deniedItem (d.role who) l with
  | some p, _ => some { status := stBadPayload, item := p.1, key := objKey p.2.1.idx p.2.1.sub }
  | none, some p => some { status := stAccessDenied, item := p.1, key := objKey p.2.idx p.2.sub }
  | none, none =>
    match d.firstFailure l with
    | some p => some { status := p.2.2, item := p.1, key := objKey p.2.1.idx p.2.1.sub }
    | none => if 65536 < draftWords (d.draftAfter l) then some { status := stDraftFull } else none

/-- The bytes of an item of a WRITE. -/
def WItem.bytes (i : WItem) : List Byte :=
  le 2 i.idx ++ le 1 i.sub ++ le 1 0 ++ le 2 i.len ++ le 2 0 ++ padTo 4 (le i.len i.val)

/-- WRITE. -/
def writeOp (r : Req) (items : List WItem) (d : Dev) : Dev :=
  let payload := items.flatMap WItem.bytes
  d.serve r 0x12 payload (decide (1 ≤ items.length ∧ items.length ≤ 64 ∧ payload.length ≤ 1404)) fun e =>
    match e.writeFault r.ident items with
    | some a => (e, some a)
    | none => (e.applyItems r.ident items, some {})

/-- REGISTER_WRITE: one field written by an identity, as one WRITE item, without the frame of a request. -/
def registerWriteOp (ident idx sub val : Nat) (d : Dev) : Dev :=
  let i : WItem := { idx := idx, sub := sub, len := ((objRow idx sub).map (·.ty.bytes)).getD 0, val := val }
  if !d.available || d.role ident == 0xFF || !roleAllows (d.role ident) ident 0x12 then d
  else if !stateAllows d.state 0x12 then d.conflict
  else match d.writeFault ident [i] with
    | some a => if a.status = stStateConflict then d.conflict else d
    | none => d.applyItems ident [i]

/-- The staged fields for units that a RUNNING or DRAINING job holds, by ascending job slot, and the others (R578,
R579). -/
def Dev.splitDraft (d : Dev) (l : List Staged) : Pending :=
  let owner : Staged → Option Nat := fun s => (d.holderOf s.key).bind fun j =>
    if j.st = .running ∨ j.st = .draining then some j.slot else none
  let slots := ((l.filterMap owner).dedup).mergeSort fun a b => decide (a ≤ b)
  { refuse := false, others := l.filter fun s => (owner s).isNone
    jobs := slots.map fun k => { slot := k, items := l.filter fun s => owner s == some k, loaded := 0, loadedAt := none } }

/-- A COMMIT is accepted (R577, R581). -/
def Dev.beginCommit (d : Dev) (p : Pending) : Dev :=
  let d1 := (d.setDraft []).wrs [(0x180006, 1), (0x180007, (d.rd 0x180007 + 1) % 2 ^ 32)]
  ({ d1 with qop := { d1.qop with commit := some p } }).commitDone

/-- COMMIT. -/
def commitOp (r : Req) (refuse : Bool) (d : Dev) : Dev :=
  d.serve r 0x13 (le 1 (if refuse then 1 else 0)) true fun e =>
    if e.qop.commit.isSome then (e, some { status := stStateConflict })
    else match e.commitBreach e.qop.draft with
      | some b => (e, some { status := b.2, key := b.1 })
      | none =>
        let p := { e.splitDraft e.qop.draft with refuse := refuse }
        if refuse && p.jobs.any (fun (w : JobWords) => decide (4096 < draftWords w.items)) then
          (e, some { status := stDraftTooLarge })
        else
          let e1 := e.beginCommit p
          (e1, some { payload := le 4 (e1.rd 0x180007) ++ le 4 (draftWords e.qop.draft) })

/-- DISCARD (R577). -/
def discardOp (r : Req) (d : Dev) : Dev :=
  d.serve r 0x14 [] true fun e => (e.setDraft [], some { payload := le 4 (draftWords e.qop.draft) })

/-- COMMIT_APPLY_COMPLETE: with no word of a job left, the words still to load take effect, and the commit is complete
(R578, R581). -/
def commitApplyCompleteOp (d : Dev) : Dev :=
  match d.qop.commit with
  | none => d
  | some p =>
    if p.jobs = [] then
      let d1 := d.applyWords (p.others.map fun (i : Staged) => (i.key, i.val))
      ({ d1 with qop := { d1.qop with commit := some { p with others := [], part := 0 } } }).commitDone
    else d

/-! ### Loads (R190, R567) -/

/-- The open load of a handle. -/
def Dev.load? (d : Dev) (h : Nat) : Option Load := d.qop.loads.find? fun (l : Load) => l.handle == h

/-- Changes an open load. -/
def Dev.putLoad (d : Dev) (l : Load) : Dev :=
  { d with qop := { d.qop with loads := d.qop.loads.map fun (x : Load) => if x.handle == l.handle then l else x } }

/-- A handle closes, and its data is discarded. -/
def Dev.dropLoad (d : Dev) (h : Nat) : Dev :=
  { d with qop := { d.qop with loads := d.qop.loads.filter fun (x : Load) => x.handle != h } }

/-- The target of a LOAD_OPEN as its payload carries it. -/
def loadTarget (kind target : Nat) : List Byte :=
  if kind = 1 then le 2 (target / 256) ++ le 1 (target % 256) else if kind = 3 then le 8 target else []

/-- LOAD_OPEN. -/
def loadOpenOp (r : Req) (kind len target : Nat) (d : Dev) : Dev :=
  d.serve r 0x20 (le 1 kind ++ le 8 len ++ loadTarget kind target) (decide (1 ≤ kind ∧ kind ≤ 3)) fun e =>
    if 2 ^ 29 < len then (e, some { status := stOutOfRange })
    else if 8 ≤ e.qop.loads.length ∨ 2 ^ 29 < (e.qop.loads.map (·.len)).sum + len then
      (e, some { status := stStateConflict })
    else
      let h := e.qop.nextHandle
      let l : Load := { handle := h, kind := kind, len := len, target := target, data := [], closed := false, used := e.epoch }
      let used := fun k => e.qop.loads.any fun (x : Load) => x.handle == k
      let next := (((List.range 10).map fun k => (h + 1 + k) % 65536).find? fun k => !used k && k != 0 && k != h).getD 1
      ({ e with qop := { e.qop with loads := e.qop.loads ++ [l], nextHandle := next } }, some { payload := le 2 h })

/-- What a byte of a load that nothing has written holds. -/
def unwrittenByte : Nat := 256

/-- LOAD_PART. -/
def loadPartOp (r : Req) (handle off : Nat) (bytes : List Byte) (d : Dev) : Dev :=
  d.serve r 0x21 (le 2 handle ++ le 4 off ++ bytes) (decide (1 ≤ bytes.length ∧ bytes.length ≤ 1392)) fun e =>
    match e.load? handle with
    | none => (e, some { status := stBadHandle })
    | some l =>
      if l.closed then (e, some { status := stBadHandle })
      else if l.len < off + bytes.length then (e, some { status := stOutOfRange })
      else (e.putLoad { l with data := tabFill unwrittenByte l.data off (bytes.map (·.toNat)), used := e.epoch }, some {})

/-- The bytes of a load. -/
def Load.bytes (l : Load) : List Byte := (tabRead 0 l.data 0 l.len).map (BitVec.ofNat 8)

/-- Whether every byte of a load has been written. -/
def Load.complete (l : Load) : Bool := l.data.length == l.len

/-- A load of KIND 1 writes its object as one WRITE item; CUST_IMAGE is checked by the loader (R143). -/
def Dev.writeLoad (d : Dev) (who : Nat) (l : Load) : Dev × Ans :=
  let b := l.bytes
  let i : WItem := { idx := l.target / 256, sub := l.target % 256, len := l.len, val := ofLe b }
  if l.target = 0x444001 then
    let words := (List.range (l.len / 24)).map fun k => BitVec.ofNat 192 (ofLe ((b.drop (24 * k)).take 24))
    if d.state ≠ .primed then (d, { status := stStateConflict, key := l.target })
    else match custCheck l.len words with
      | some f => (custImageOp l.len words d, { status := if f.2 = 1 then stBadPayload else stOutOfRange, key := l.target })
      | none => (custImageOp l.len words d, {})
  else match d.writeFault who [i] with
    | some a => (d, a)
    | none => (d.applyItems who [i], {})

/-- LOAD_CLOSE. -/
def loadCloseOp (r : Req) (handle : Nat) (crc : W32) (d : Dev) : Dev :=
  d.serve r 0x22 (le 2 handle ++ le 4 crc.toNat) true fun e =>
    match e.load? handle with
    | none => (e, some { status := stBadHandle })
    | some l =>
      if !l.complete || crc32 l.bytes != crc.toNat then (e.putLoad { l with used := e.epoch }, some { status := stLoadCrc })
      else if l.kind = 2 then (e.putLoad { l with closed := true, used := e.epoch }, some {})
      else if l.kind = 3 then
        if e.streamOverlap l.target l.len then (e, some { status := stStateConflict })
        else ({ e with ddr := ddrWrite e.ddr l.target l.bytes }.dropLoad handle, some {})
      else
        let x := e.writeLoad r.ident l
        (if x.2.status = stOk then x.1.dropLoad handle
          else if x.2.status = stStateConflict then e
          else x.1.putLoad { l with used := e.epoch }, some x.2)

/-- LOAD_ABORT. -/
def loadAbortOp (r : Req) (handle : Nat) (d : Dev) : Dev :=
  d.serve r 0x23 (le 2 handle) true fun e =>
    match e.load? handle with
    | none => (e, some { status := stBadHandle })
    | some _ => (e.dropLoad handle, some {})

/-- LOAD_TIMEOUT: a handle unused for 10 s closes. -/
def loadTimeoutOp (handle : Nat) (d : Dev) : Dev :=
  match d.load? handle with
  | none => d
  | some l => if l.used + 7500000000 ≤ d.epoch then d.dropLoad handle else d

/-! ### PRIME, RECOVER, SLEEP, WAKE, RESET (R571, R682 to R694) -/

/-- PRIME: answered on completion. A device that missed a power-up step stays in COLD (R679). -/
def primeOp (r : Req) (d : Dev) : Dev :=
  d.serve r 0x40 [] true fun e =>
    if e.pwr.upFail then (e, some { status := stStateConflict }) else ((e.enterPriming 1).defer r 0x40, none)

/-- RECOVER: answered on completion. -/
def recoverOp (r : Req) (d : Dev) : Dev := d.serve r 0x41 [] true fun e => ((e.recover).defer r 0x41, none)

/-- SLEEP. -/
def sleepOp (r : Req) (d : Dev) : Dev := d.serve r 0x42 [] true fun e => (e.beginSleep, some {})

/-- WAKE. -/
def wakeOp (r : Req) (d : Dev) : Dev := d.serve r 0x43 [] true fun e => (e.wakeCause none, some {})

/-- RESET of kind POWER_ON: the firmware starts again, and the reply leaves when QOP is available. -/
def resetPowerOnOp (r : Req) (d : Dev) : Dev :=
  d.serve r 0x44 (le 1 0) true fun e =>
    let p := e.replyTo r 0x44 {}
    let e1 := e.powerOn
    ({ e1 with pwr := { e1.pwr with up := true }, qop := { e1.qop with deferred := [p] } }, none)

/-- RESET of kind WARM: the reply names COLD. -/
def resetWarmOp (r : Req) (d : Dev) : Dev :=
  d.serve r 0x44 (le 1 1) true fun e => (e.warmReset 1, some { dstate := some 0 })

/-- RESET of kind MGMT. -/
def resetMgmtOp (r : Req) (d : Dev) : Dev := d.serve r 0x44 (le 1 2) true fun e => (e.mgmtReset, some {})

/-- RESET of kind FLUX_STATE. -/
def resetFluxStateOp (r : Req) (d : Dev) : Dev := d.serve r 0x44 (le 1 3) true fun e => (e.fluxReset, some {})

/-! ### COUNTER_CLEAR, KEY_SET, BULK_COPY (R560, R568, R569) -/

/-- How many counters a range of indices has. -/
def countersIn (first last : Nat) : Nat :=
  ((List.range (last + 1 - first)).map fun k => highestSub (first + k)).sum

/-- COUNTER_CLEAR: what hardware counts in the same tick it counts after the clear (R569, R709). -/
def counterClearOp (r : Req) (first last : Nat) (d : Dev) : Dev :=
  d.serve r 0x45 (le 2 first ++ le 2 last) true fun e =>
    if first < 0xF000 ∨ 0xFFFF < first ∨ last < 0xF000 ∨ 0xFFFF < last ∨ last < first then
      (e, some { status := stOutOfRange })
    else
      let in_ : Nat × Nat → Bool := fun p => decide (first ≤ p.1 / 256 ∧ p.1 / 256 ≤ last)
      let kept := e.counters.filter fun p => !in_ p
      ({ e with counters := (e.inTick.counted.filter in_).foldr (fun p t => tabSet 0 t p.1 p.2) kept },
        some { payload := le 4 (countersIn first last) })

/-- KEY_SET. -/
def keySetOp (r : Req) (target : Nat) (wrapped : BitVec 320) (d : Dev) : Dev :=
  d.serve r 0x50 (le 1 target ++ le 7 0 ++ le 40 wrapped.toNat) true fun e =>
    if 3 < target then (e, some { status := stOutOfRange })
    else match Config.keyUnwrap (e.ident 0).key wrapped with
      | none => (e, some { status := stBadPayload })
      | some k => (e.setIdent target { e.ident target with key := k, high := 0, stored := [] }, some {})

/-- BULK_COPY. -/
def bulkCopyOp (r : Req) (chip src dst len : Nat) (d : Dev) : Dev :=
  d.serve r 0x51 (le 1 chip ++ le 8 src ++ le 8 dst ++ le 8 len) true fun e =>
    if 63 < chip then (e, some { status := stOutOfRange })
    else if chip = e.chip then
      if e.streamOverlap dst len then (e, some { status := stStateConflict })
      else ({ e with ddr := ddrWrite e.ddr dst (Sys2Proof.Machine.ddrRead e.ddr src len) }, some {})
    else if 11 < e.route chip then (e, some { status := stNoRoute })
    else (e.bulkSend chip dst (Sys2Proof.Machine.ddrRead e.ddr src len), some {})

/-! ### Meanings -/

/-- PING. -/
def execPing (r : Req) (s : State) : Host.Outcome State Fault Refusal := .next (s.onNow (pingOp r))
/-- READ. -/
def execRead (r : Req) (items : List (Nat × Nat)) (s : State) : Host.Outcome State Fault Refusal :=
  .next (s.onNow (readOp s.last r items))
/-- READ_PART. -/
def execReadPart (r : Req) (idx sub off len : Nat) (s : State) : Host.Outcome State Fault Refusal :=
  .next (s.onNow (readPartOp s.last r idx sub off len))
/-- WRITE. -/
def execWrite (r : Req) (items : List WItem) (s : State) : Host.Outcome State Fault Refusal :=
  .next (s.onNow (writeOp r items))
/-- REGISTER_WRITE. -/
def execRegisterWrite (ident idx sub val : Nat) (s : State) : Host.Outcome State Fault Refusal :=
  .next (s.onNow (registerWriteOp ident idx sub val))
/-- COMMIT. -/
def execCommit (r : Req) (refuse : Bool) (s : State) : Host.Outcome State Fault Refusal :=
  .next (s.onNow (commitOp r refuse))
/-- DISCARD. -/
def execDiscard (r : Req) (s : State) : Host.Outcome State Fault Refusal := .next (s.onNow (discardOp r))
/-- COMMIT_APPLY_COMPLETE. -/
def execCommitApplyComplete (s : State) : Host.Outcome State Fault Refusal := .next (s.onNow commitApplyCompleteOp)
/-- LOAD_OPEN. -/
def execLoadOpen (r : Req) (kind len target : Nat) (s : State) : Host.Outcome State Fault Refusal :=
  .next (s.onNow (loadOpenOp r kind len target))
/-- LOAD_PART. -/
def execLoadPart (r : Req) (handle off : Nat) (bytes : List Byte) (s : State) : Host.Outcome State Fault Refusal :=
  .next (s.onNow (loadPartOp r handle off bytes))
/-- LOAD_CLOSE. -/
def execLoadClose (r : Req) (handle : Nat) (crc : W32) (s : State) : Host.Outcome State Fault Refusal :=
  .next (s.onNow (loadCloseOp r handle crc))
/-- LOAD_ABORT. -/
def execLoadAbort (r : Req) (handle : Nat) (s : State) : Host.Outcome State Fault Refusal :=
  .next (s.onNow (loadAbortOp r handle))
/-- LOAD_TIMEOUT. -/
def execLoadTimeout (handle : Nat) (s : State) : Host.Outcome State Fault Refusal :=
  .next (s.onNow (loadTimeoutOp handle))
/-- DDR_READ. -/
def execDdrRead (r : Req) (addr len : Nat) (s : State) : Host.Outcome State Fault Refusal :=
  .next (s.onNow (ddrReadOp r addr len))
/-- PRIME. -/
def execPrime (r : Req) (s : State) : Host.Outcome State Fault Refusal := .next (s.onNow (primeOp r))
/-- RECOVER. -/
def execRecover (r : Req) (s : State) : Host.Outcome State Fault Refusal := .next (s.onNow (recoverOp r))
/-- SLEEP. -/
def execSleep (r : Req) (s : State) : Host.Outcome State Fault Refusal := .next (s.onNow (sleepOp r))
/-- WAKE. -/
def execWake (r : Req) (s : State) : Host.Outcome State Fault Refusal := .next (s.onNow (wakeOp r))
/-- RESET_POWER_ON. -/
def execResetPowerOn (r : Req) (s : State) : Host.Outcome State Fault Refusal := .next (s.onNow (resetPowerOnOp r))
/-- RESET_WARM. -/
def execResetWarm (r : Req) (s : State) : Host.Outcome State Fault Refusal := .next (s.onNow (resetWarmOp r))
/-- RESET_MGMT. -/
def execResetMgmt (r : Req) (s : State) : Host.Outcome State Fault Refusal := .next (s.onNow (resetMgmtOp r))
/-- RESET_FLUX_STATE. -/
def execResetFluxState (r : Req) (s : State) : Host.Outcome State Fault Refusal := .next (s.onNow (resetFluxStateOp r))
/-- COUNTER_CLEAR. -/
def execCounterClear (r : Req) (first last : Nat) (s : State) : Host.Outcome State Fault Refusal :=
  .next (s.onNow (counterClearOp r first last))
/-- KEY_SET. -/
def execKeySet (r : Req) (target : Nat) (wrapped : BitVec 320) (s : State) : Host.Outcome State Fault Refusal :=
  .next (s.onNow (keySetOp r target wrapped))
/-- BULK_COPY. -/
def execBulkCopy (r : Req) (chip src dst len : Nat) (s : State) : Host.Outcome State Fault Refusal :=
  .next (s.onNow (bulkCopyOp r chip src dst len))

end Sys2Proof.Machine
end

