-- ==== Sys2Proof/Machine/Requests.lean ====
section
/-! DEFINITION. The requests about jobs (R574, R582 to R592): the container's header and directory, SUBMIT, START, HALT,
RESUME, CANCEL, JOB_STATUS, and the acknowledgements of the result stream (R597, R598). -/

namespace Sys2Proof.Machine

/-! ### The job container (R582 to R584) -/

/-- n bytes of a list from an offset, as a number. -/
def bytesAt (l : List Byte) (off n : Nat) : Nat := ofLe ((l.drop off).take n)

/-- The header of a container (R582). -/
def parseHead (b : List Byte) : JobHead :=
  let f := bytesAt b 27 1
  { shots := bytesAt b 8 8, shotLimit := bytesAt b 16 8, spoilRetry := bytesAt b 24 1, startMode := bytesAt b 25 1
    trigInput := bytesAt b 26 1, calibration := f.testBit 0, multiChip := f.testBit 1, gap := bytesAt b 28 4
    startEpoch := bytesAt b 32 8, window := bytesAt b 40 4, ljob := bytesAt b 48 8, chips := bytesAt b 56 8 }

/-- Whether the fields of a header are in range and its reserved fields zero (R582, R584). -/
def headOk (b : List Byte) : Bool :=
  let h := parseHead b
  decide (64 ≤ b.length) && bytesAt b 0 4 == 0x424A5A43 && bytesAt b 4 2 == 1
    && decide (1 ≤ bytesAt b 6 2 ∧ bytesAt b 6 2 ≤ 32) && decide (1 ≤ h.shots ∧ h.shots ≤ 2 ^ 48)
    && decide (96 ≤ h.shotLimit ∧ h.shotLimit ≤ 2 ^ 32) && decide (h.spoilRetry ≤ 15) && decide (h.startMode ≤ 3)
    && decide (h.trigInput ≤ 7) && decide (bytesAt b 27 1 < 4) && decide (96 ≤ h.gap ∧ h.gap ≤ 7500000)
    && bytesAt b 44 4 == 0

/-- An entry of the directory (R582). -/
structure DirEntry where
  type : Nat
  reserved : Nat
  count : Nat
  offset : Nat
  length : Nat
  deriving DecidableEq, Repr

/-- The directory of a container. -/
def parseDir (b : List Byte) : List DirEntry :=
  (List.range (bytesAt b 6 2)).map fun i =>
    let o := 64 + 24 * i
    { type := bytesAt b o 2, reserved := bytesAt b (o + 2) 2, count := bytesAt b (o + 4) 4, offset := bytesAt b (o + 8) 8
      length := bytesAt b (o + 16) 8 }

/-- The entry size of a section: stated for operations, descriptors and names, the 4-byte unit of SAMPLES (R583), free for
the others (log entry 9). -/
def entrySize (type : Nat) : Nat :=
  if type = 2 ∨ type = 3 then 16 else if type = 4 then 32 else if type = 5 then 4 else Config.sectionEntrySize type

/-- Whether two sections overlap. -/
def sectionsOverlap (x y : DirEntry) : Bool :=
  decide (x.offset < y.offset + y.length ∧ y.offset < x.offset + x.length)

/-- Whether a directory is accepted (R584). -/
def dirOk (len : Nat) : List DirEntry → Bool
  | [] => true
  | e :: l =>
    decide (1 ≤ e.type ∧ e.type ≤ 0x0D) && e.reserved == 0 && decide (e.offset + e.length ≤ len)
      && e.length == e.count * entrySize e.type && l.all (fun x => x.type != e.type && !sectionsOverlap x e)
      && dirOk len l

/-- Whether SUBMIT accepts a container. -/
def containerOk (b : List Byte) : Bool :=
  headOk b && decide (64 + 24 * bytesAt b 6 2 ≤ b.length) && dirOk b.length (parseDir b)

/-- The bytes of the section of a type; none where the container has none. -/
def sectionBytes (b : List Byte) (type : Nat) : List Byte :=
  match (parseDir b).find? (·.type == type) with
  | some e => (b.drop e.offset).take e.length
  | none => []

/-- Entries of n bytes each, least significant byte first (R10). -/
def entries (n : Nat) (l : List Byte) : List Nat := (List.range (l.length / n)).map fun i => bytesAt l (n * i) n

/-- The characters of a STR field up to its first zero byte. -/
def strOf (l : List Byte) : String := String.ofList ((l.takeWhile (· != 0)).map fun c => Char.ofNat c.toNat)

/-- The sections of a container: PROGRAM, SEGMENTS, PULSES and SAMPLES, whose layouts the manual gives, are read from its
bytes, least significant first (R10, R101, R153, R583); `c` gives what the others hold (log entry 9). -/
def readSections (b : List Byte) (c : Sections) : Sections :=
  { c with
    program := (entries 16 (sectionBytes b 2)).map (BitVec.ofNat 128)
    segments := (entries 16 (sectionBytes b 3)).map (BitVec.ofNat 128)
    pulses := (List.range ((sectionBytes b 4).length / 32)).map fun i =>
      let e := ((sectionBytes b 4).drop (32 * i)).take 32
      (strOf (e.take 24), bytesAt e 24 4)
    samples := (entries 4 (sectionBytes b 5)).map (BitVec.ofNat 32) }

/-! ### SUBMIT (R584, R585, R648) -/

/-- The lowest free job slot. -/
def Dev.freeSlot (d : Dev) : Nat :=
  ((List.range 1024).find? fun k => !(d.hub.jobs.any fun j => j.slot == k)).getD 0

/-- A job enters the ledger. -/
def Dev.recordJob (d : Dev) (h : JobHead) (cs : Sections) : Dev :=
  let seq := d.rd 0x780001
  let j : Job := { slot := d.freeSlot, seq := seq, st := .accepted, head := h, content := cs }
  let d1 : Dev := { d with hub := { d.hub with jobs := d.hub.jobs ++ [j] } }
  d1.wrs [(0x780001, seq + 1), (0x780002, d1.hub.jobs.length)]

/-- SUBMIT: `content` is what the sections hold whose layouts the manual does not give (log entry 9). -/
def submitOp (r : Req) (handle : Nat) (content : Sections) (d : Dev) : Dev :=
  d.serve r 0x30 (le 2 handle) true fun e =>
    match e.load? handle with
    | none => (e, some { status := stBadHandle })
    | some l =>
      if l.kind ≠ 2 ∨ !l.closed then (e, some { status := stBadHandle })
      else if !containerOk l.bytes then (e.putLoad { l with used := e.epoch }, some { status := stBadContainer })
      else if 1024 ≤ e.hub.jobs.length then (e.putLoad { l with used := e.epoch }, some { status := stLedgerFull })
      else
        ((e.recordJob (parseHead l.bytes) (readSections l.bytes content)).dropLoad handle,
          some { payload := le 2 e.freeSlot ++ le 8 (e.rd 0x780001) })

/-! ### START, HALT, RESUME, CANCEL (R574, R588, R591, R592) -/

/-- Whether a job accepts START. -/
def Job.takesStart (j : Job) : Bool := j.st == .armed && j.head.startMode == 1

/-- Whether a job accepts HALT. -/
def Job.takesHalt (j : Job) : Bool := j.st == .armed || j.st == .running

/-- Whether a job accepts RESUME. -/
def Job.takesResume (j : Job) : Bool := j.st == .halted

/-- Whether a job accepts CANCEL. -/
def Job.takesCancel (j : Job) : Bool := j.st == .accepted || j.st == .placing || j.st.resident

/-- A job command: NO_JOB, STATE_CONFLICT with the state of the job, or its effect. -/
def Dev.jobRequest (d : Dev) (seq : Nat) (takes : Job → Bool) (run : Dev → Job → Dev) : Dev × Option Ans :=
  match d.job seq with
  | none => (d, some { status := stNoJob })
  | some j => if takes j then (run d j, some {}) else (d, some { status := stStateConflict, job := some j.st })

/-- START. -/
def startOp (r : Req) (seq : Nat) (d : Dev) : Dev :=
  d.serve r 0x31 (le 8 seq) true fun e => e.jobRequest seq Job.takesStart fun x j => x.localStart j.seq

/-- HALT of one job, on one chip or through the root. -/
def Dev.haltJob (d : Dev) (j : Job) : Dev := if j.head.multiChip then d.commandToRoot 4 j else d.localHalt j.seq

/-- RESUME of one job. -/
def Dev.resumeJob (d : Dev) (j : Job) : Dev := if j.head.multiChip then d.commandToRoot 5 j else d.localResume j.seq

/-- CANCEL of one job. -/
def Dev.cancelJob (d : Dev) (j : Job) : Dev := if j.head.multiChip then d.commandToRoot 6 j else d.localCancel j.seq

/-- HALT; JOB_SEQ all ones names every resident job that accepts it. -/
def haltOp (r : Req) (seq : Nat) (d : Dev) : Dev :=
  d.serve r 0x32 (le 8 seq) true fun e =>
    if seq = 2 ^ 64 - 1 then
      match e.resident.filter Job.takesHalt with
      | [] => (e, some { status := stStateConflict })
      | js => (js.foldl Dev.haltJob e, some {})
    else e.jobRequest seq Job.takesHalt Dev.haltJob

/-- RESUME. -/
def resumeOp (r : Req) (seq : Nat) (d : Dev) : Dev :=
  d.serve r 0x33 (le 8 seq) true fun e => e.jobRequest seq Job.takesResume Dev.resumeJob

/-- CANCEL. -/
def cancelOp (r : Req) (seq : Nat) (d : Dev) : Dev :=
  d.serve r 0x34 (le 8 seq) true fun e => e.jobRequest seq Job.takesCancel Dev.cancelJob

/-- The objects of a job's slot in subindex order (R601). -/
def Dev.slotObjects (d : Dev) (slot : Nat) : List Byte :=
  le 8 (d.slotObject slot 1) ++ le 1 (d.slotObject slot 2) ++ le 8 (d.slotObject slot 3) ++ le 8 (d.slotObject slot 4)
    ++ le 4 (d.slotObject slot 5) ++ le 4 (d.slotObject slot 6)

/-- JOB_STATUS. -/
def jobStatusOp (r : Req) (seq : Nat) (d : Dev) : Dev :=
  d.serve r 0x35 (le 8 seq) true fun e =>
    match e.job seq with
    | none => (e, some { status := stNoJob })
    | some j => (e, some { payload := e.slotObjects j.slot })

/-! ### Acknowledgements (R597, R598) -/

/-- An acknowledgement packet before its TAG: the header of R594, with the fields that it has no use for zero, and the
payload of R597. -/
def ackPacket (r : Req) (count : Nat) (pairs : List (Nat × Nat)) : List Byte :=
  let p := le 2 r.ident ++ le 2 count ++ pairs.flatMap fun x => le 8 x.1 ++ le 8 x.2
  le 2 0x5152 ++ le 1 1 ++ le 1 2 ++ le 2 0 ++ le 2 (p.length + 16) ++ le 56 0 ++ p

/-- Whether an acknowledgement is dropped. -/
def Dev.dropsAck (d : Dev) (r : Req) (count : Nat) (pairs : List (Nat × Nat)) : Bool :=
  r.magic != 0x5152 || r.version != 1 || !r.lenOk || d.role r.ident == 0xFF || count == 0 || decide (64 < count)
    || count != pairs.length || r.tag != Config.hmac (d.ident r.ident).key (ackPacket r count pairs)

/-- Whether a host port is up. -/
def Dev.anyPortUp (d : Dev) : Bool := (List.range 4).any fun h => d.rd (unitKey 0x280001 h) == 3

/-- QRS_ACK. -/
def qrsAckOp (r : Req) (count : Nat) (pairs : List (Nat × Nat)) (d : Dev) : Dev :=
  if !d.pwr.booted || !d.anyPortUp then d
  else if d.dropsAck r count pairs then d.hostFlag 0x180001 0
  else (pairs.foldl (fun e p => e.ackPair p.1 p.2) d).afterAck

/-! ### Meanings -/

/-- SUBMIT. -/
def execSubmit (r : Req) (handle : Nat) (content : Sections) (s : State) : Host.Outcome State Fault Refusal :=
  .next (s.onNow (submitOp r handle content))
/-- START. -/
def execStart (r : Req) (seq : Nat) (s : State) : Host.Outcome State Fault Refusal := .next (s.onNow (startOp r seq))
/-- HALT. -/
def execHalt (r : Req) (seq : Nat) (s : State) : Host.Outcome State Fault Refusal := .next (s.onNow (haltOp r seq))
/-- RESUME. -/
def execResume (r : Req) (seq : Nat) (s : State) : Host.Outcome State Fault Refusal := .next (s.onNow (resumeOp r seq))
/-- CANCEL. -/
def execCancel (r : Req) (seq : Nat) (s : State) : Host.Outcome State Fault Refusal := .next (s.onNow (cancelOp r seq))
/-- JOB_STATUS. -/
def execJobStatus (r : Req) (seq : Nat) (s : State) : Host.Outcome State Fault Refusal :=
  .next (s.onNow (jobStatusOp r seq))
/-- QRS_ACK. -/
def execQrsAck (r : Req) (count : Nat) (pairs : List (Nat × Nat)) (s : State) : Host.Outcome State Fault Refusal :=
  .next (s.onNow (qrsAckOp r count pairs))

end Sys2Proof.Machine
end

