-- ==== Sys2Proof/Machine/Dispatch.lean ====
section
/-! DEFINITION. One arm per command: each is one direct call of the command's meaning. -/

namespace Sys2Proof.Machine

/-- The effect of a command on everything but the queue. -/
def exec (i : Instr) (s : State) : Host.Outcome State Fault Refusal :=
  match i with
  | .ping r => Sys2Proof.Machine.execPing r s
  | .read r items => Sys2Proof.Machine.execRead r items s
  | .readPart r idx sub off len => Sys2Proof.Machine.execReadPart r idx sub off len s
  | .write r items => Sys2Proof.Machine.execWrite r items s
  | .registerWrite ident idx sub val => Sys2Proof.Machine.execRegisterWrite ident idx sub val s
  | .commit r refuseStretch => Sys2Proof.Machine.execCommit r refuseStretch s
  | .discard r => Sys2Proof.Machine.execDiscard r s
  | .loadOpen r kind len target => Sys2Proof.Machine.execLoadOpen r kind len target s
  | .loadPart r handle off bytes => Sys2Proof.Machine.execLoadPart r handle off bytes s
  | .loadClose r handle crc => Sys2Proof.Machine.execLoadClose r handle crc s
  | .loadAbort r handle => Sys2Proof.Machine.execLoadAbort r handle s
  | .loadTimeout handle => Sys2Proof.Machine.execLoadTimeout handle s
  | .ddrRead r addr len => Sys2Proof.Machine.execDdrRead r addr len s
  | .submit r handle content => Sys2Proof.Machine.execSubmit r handle content s
  | .start r jobSeq => Sys2Proof.Machine.execStart r jobSeq s
  | .halt r jobSeq => Sys2Proof.Machine.execHalt r jobSeq s
  | .resume r jobSeq => Sys2Proof.Machine.execResume r jobSeq s
  | .cancel r jobSeq => Sys2Proof.Machine.execCancel r jobSeq s
  | .jobStatus r jobSeq => Sys2Proof.Machine.execJobStatus r jobSeq s
  | .prime r => Sys2Proof.Machine.execPrime r s
  | .recover r => Sys2Proof.Machine.execRecover r s
  | .sleep r => Sys2Proof.Machine.execSleep r s
  | .wake r => Sys2Proof.Machine.execWake r s
  | .resetPowerOn r => Sys2Proof.Machine.execResetPowerOn r s
  | .resetWarm r => Sys2Proof.Machine.execResetWarm r s
  | .resetMgmt r => Sys2Proof.Machine.execResetMgmt r s
  | .resetFluxState r => Sys2Proof.Machine.execResetFluxState r s
  | .counterClear r first last => Sys2Proof.Machine.execCounterClear r first last s
  | .keySet r target wrapped => Sys2Proof.Machine.execKeySet r target wrapped s
  | .bulkCopy r chip src dst len => Sys2Proof.Machine.execBulkCopy r chip src dst len s
  | .commitApplyComplete => Sys2Proof.Machine.execCommitApplyComplete s
  | .snapshot n => Sys2Proof.Machine.execSnapshot n s
  | .custImage len words => Sys2Proof.Machine.execCustImage len words s
  | .custClear => Sys2Proof.Machine.execCustClear s
  | .arm c => Sys2Proof.Machine.execArm c s
  | .disarm c => Sys2Proof.Machine.execDisarm c s
  | .force c => Sys2Proof.Machine.execForce c s
  | .evFire k => Sys2Proof.Machine.execEvFire k s
  | .hostSeconds v => Sys2Proof.Machine.execHostSeconds v s
  | .hkCmd => Sys2Proof.Machine.execHkCmd s
  | .mboxIn d v => Sys2Proof.Machine.execMboxIn d v s
  | .calSkew tile => Sys2Proof.Machine.execCalSkew tile s
  | .calLevel ukind unit => Sys2Proof.Machine.execCalLevel ukind unit s
  | .calFluxOfs c => Sys2Proof.Machine.execCalFluxOfs c s
  | .calLoopback line => Sys2Proof.Machine.execCalLoopback line s
  | .prbsStart lane => Sys2Proof.Machine.execPrbsStart lane s
  | .prbsStop lane => Sys2Proof.Machine.execPrbsStop lane s
  | .prbsClear lane => Sys2Proof.Machine.execPrbsClear lane s
  | .injectSingle lane => Sys2Proof.Machine.execInjectSingle lane s
  | .gzRetrain k => Sys2Proof.Machine.execGzRetrain k s
  | .gzInject k => Sys2Proof.Machine.execGzInject k s
  | .portReadapt h => Sys2Proof.Machine.execPortReadapt h s
  | .cfgSave => Sys2Proof.Machine.execCfgSave s
  | .cfgErase => Sys2Proof.Machine.execCfgErase s
  | .cfgSaveComplete => Sys2Proof.Machine.execCfgSaveComplete s
  | .ledgerRelease jobSeq => Sys2Proof.Machine.execLedgerRelease jobSeq s
  | .bbRelease no => Sys2Proof.Machine.execBbRelease no s
  | .opNop x h => Sys2Proof.Machine.execOpNop x h s
  | .opPlay x h tgt gen gsel daddr amp pofs frame fine => Sys2Proof.Machine.execOpPlay x h tgt gen gsel daddr amp pofs frame fine s
  | .opRead x h gen gsel daddr amp wlen frame ksel dtag => Sys2Proof.Machine.execOpRead x h gen gsel daddr amp wlen frame ksel dtag s
  | .opFluxhold x h tgt value => Sys2Proof.Machine.execOpFluxhold x h tgt value s
  | .opFshift x h frame fk pinc => Sys2Proof.Machine.execOpFshift x h frame fk pinc s
  | .opFfreq x h frame fk freq => Sys2Proof.Machine.execOpFfreq x h frame fk freq s
  | .opFphase x h frame fk phase => Sys2Proof.Machine.execOpFphase x h frame fk phase s
  | .opFshiftv x h frame fk vsrc => Sys2Proof.Machine.execOpFshiftv x h frame fk vsrc s
  | .opWait x h => Sys2Proof.Machine.execOpWait x h s
  | .opWaituntil x h t48 => Sys2Proof.Machine.execOpWaituntil x h t48 s
  | .opBarrier x h mask => Sys2Proof.Machine.execOpBarrier x h mask s
  | .opWaitev x h eline => Sys2Proof.Machine.execOpWaitev x h eline s
  | .opAcqtrig x h swtrig => Sys2Proof.Machine.execOpAcqtrig x h swtrig s
  | .opMark x h mki tset level => Sys2Proof.Machine.execOpMark x h mki tset level s
  | .opEvent x h eline => Sys2Proof.Machine.execOpEvent x h eline s
  | .opBranchWait x h dh t0 t1 t2 t3 => Sys2Proof.Machine.execOpBranchWait x h dh t0 t1 t2 t3 s
  | .opBranchSketch x h dh t0 t1 t2 t3 => Sys2Proof.Machine.execOpBranchSketch x h dh t0 t1 t2 t3 s
  | .opGoto x h caddr => Sys2Proof.Machine.execOpGoto x h caddr s
  | .opLoop x h vc tofs => Sys2Proof.Machine.execOpLoop x h vc tofs s
  | .opJseg x h tgt daddr => Sys2Proof.Machine.execOpJseg x h tgt daddr s
  | .opSetv x h vd value => Sys2Proof.Machine.execOpSetv x h vd value s
  | .opAddv x h vd value => Sys2Proof.Machine.execOpAddv x h vd value s
  | .opGreset x h gsel => Sys2Proof.Machine.execOpGreset x h gsel s
  | .opEnd x h => Sys2Proof.Machine.execOpEnd x h s
  | .customerOpcode x h k fields => Sys2Proof.Machine.execCustomerOpcode x h k fields s
  | .microword x w => Sys2Proof.Machine.execMicroword x w s
  | .waitcRelease x => Sys2Proof.Machine.execWaitcRelease x s
  | .tret n => Sys2Proof.Machine.execTret n s
  | .waitDecision x => Sys2Proof.Machine.execWaitDecision x s
  | .sincos x => Sys2Proof.Machine.execSincos x s
  | .recip x => Sys2Proof.Machine.execRecip x s
  | .frameRead x => Sys2Proof.Machine.execFrameRead x s
  | .prefetch x addr => Sys2Proof.Machine.execPrefetch x addr s
  | .trapEntry n => Sys2Proof.Machine.execTrapEntry n s
  | .datapath x => Sys2Proof.Machine.execDatapath x s
  | .csUncorrectable x => Sys2Proof.Machine.execCsUncorrectable x s
  | .csRestoreComplete x ok => Sys2Proof.Machine.execCsRestoreComplete x ok s
  | .watchdog n => Sys2Proof.Machine.execWatchdog n s
  | .overrun n => Sys2Proof.Machine.execOverrun n s
  | .strokeLaunch n => Sys2Proof.Machine.execStrokeLaunch n s
  | .readLaunch n => Sys2Proof.Machine.execReadLaunch n s
  | .fluxholdLaunch n => Sys2Proof.Machine.execFluxholdLaunch n s
  | .frameLaunch n => Sys2Proof.Machine.execFrameLaunch n s
  | .markLaunch n => Sys2Proof.Machine.execMarkLaunch n s
  | .markerEdge m => Sys2Proof.Machine.execMarkerEdge m s
  | .markerIdleReturn m => Sys2Proof.Machine.execMarkerIdleReturn m s
  | .eventLaunch n => Sys2Proof.Machine.execEventLaunch n s
  | .acqtrigLaunch n => Sys2Proof.Machine.execAcqtrigLaunch n s
  | .segjumpLaunch n => Sys2Proof.Machine.execSegjumpLaunch n s
  | .jumpEffect t => Sys2Proof.Machine.execJumpEffect t s
  | .strokeEnd t => Sys2Proof.Machine.execStrokeEnd t s
  | .streamRefill k bytes => Sys2Proof.Machine.execStreamRefill k bytes s
  | .underrun t => Sys2Proof.Machine.execUnderrun t s
  | .streamEnd t => Sys2Proof.Machine.execStreamEnd t s
  | .fluxRangeSwitchEnd c => Sys2Proof.Machine.execFluxRangeSwitchEnd c s
  | .windowOpen slot => Sys2Proof.Machine.execWindowOpen slot s
  | .windowDump slot => Sys2Proof.Machine.execWindowDump slot s
  | .decisionProduce slot => Sys2Proof.Machine.execDecisionProduce slot s
  | .decisionArrival n handle => Sys2Proof.Machine.execDecisionArrival n handle s
  | .decisionCommit n handle => Sys2Proof.Machine.execDecisionCommit n handle s
  | .decisionBlockSend k => Sys2Proof.Machine.execDecisionBlockSend k s
  | .decisionBlock c dest w0 w1 => Sys2Proof.Machine.execDecisionBlock c dest w0 w1 s
  | .sliceRotate line => Sys2Proof.Machine.execSliceRotate line s
  | .sliceCheck line ofs gain skew spur => Sys2Proof.Machine.execSliceCheck line ofs gain skew spur s
  | .acqTrigger c idx => Sys2Proof.Machine.execAcqTrigger c idx s
  | .streamBlock c units => Sys2Proof.Machine.execStreamBlock c units s
  | .captureRecordComplete c => Sys2Proof.Machine.execCaptureRecordComplete c s
  | .trigIn io rising edge => Sys2Proof.Machine.execTrigIn io rising edge s
  | .trigOutPulse io => Sys2Proof.Machine.execTrigOutPulse io s
  | .trigOutPulseEnd io => Sys2Proof.Machine.execTrigOutPulseEnd io s
  | .dspNop c w => Sys2Proof.Machine.execDspNop c w s
  | .cmac c w => Sys2Proof.Machine.execCmac c w s
  | .cmacj c w => Sys2Proof.Machine.execCmacj c w s
  | .cmsb c w => Sys2Proof.Machine.execCmsb c w s
  | .cmul c w => Sys2Proof.Machine.execCmul c w s
  | .aclr c w => Sys2Proof.Machine.execAclr c w s
  | .sta c w => Sys2Proof.Machine.execSta c w s
  | .stag c w => Sys2Proof.Machine.execStag c w s
  | .maxi c w => Sys2Proof.Machine.execMaxi c w s
  | .mini c w => Sys2Proof.Machine.execMini c w s
  | .srst c w => Sys2Proof.Machine.execSrst c w s
  | .srd c w => Sys2Proof.Machine.execSrd c w s
  | .ldi c rd imm => Sys2Proof.Machine.execLdi c rd imm s
  | .movg c w => Sys2Proof.Machine.execMovg c w s
  | .dspAdd c w => Sys2Proof.Machine.execDspAdd c w s
  | .dspSub c w => Sys2Proof.Machine.execDspSub c w s
  | .dspAnd c w => Sys2Proof.Machine.execDspAnd c w s
  | .dspOr c w => Sys2Proof.Machine.execDspOr c w s
  | .dspXor c w => Sys2Proof.Machine.execDspXor c w s
  | .shl c w => Sys2Proof.Machine.execShl c w s
  | .sar c w => Sys2Proof.Machine.execSar c w s
  | .mulq c w => Sys2Proof.Machine.execMulq c w s
  | .sgt c w => Sys2Proof.Machine.execSgt c w s
  | .cmp c w => Sys2Proof.Machine.execCmp c w s
  | .movxg c w => Sys2Proof.Machine.execMovxg c w s
  | .movgx c w => Sys2Proof.Machine.execMovgx c w s
  | .ldg c w => Sys2Proof.Machine.execLdg c w s
  | .stg c w => Sys2Proof.Machine.execStg c w s
  | .movp c w => Sys2Proof.Machine.execMovp c w s
  | .movpg c w => Sys2Proof.Machine.execMovpg c w s
  | .jmp c w => Sys2Proof.Machine.execJmp c w s
  | .jcc c w => Sys2Proof.Machine.execJcc c w s
  | .call c w => Sys2Proof.Machine.execCall c w s
  | .ret c w => Sys2Proof.Machine.execRet c w s
  | .rti c w => Sys2Proof.Machine.execRti c w s
  | .repeatN c w => Sys2Proof.Machine.execRepeatN c w s
  | .dspLoop c w => Sys2Proof.Machine.execDspLoop c w s
  | .loopi c w => Sys2Proof.Machine.execLoopi c w s
  | .inw c w => Sys2Proof.Machine.execInw c w s
  | .outd c w => Sys2Proof.Machine.execOutd c w s
  | .movw c w => Sys2Proof.Machine.execMovw c w s
  | .emit c w => Sys2Proof.Machine.execEmit c w s
  | .eclose c w => Sys2Proof.Machine.execEclose c w s
  | .bdone c w => Sys2Proof.Machine.execBdone c w s
  | .di c w => Sys2Proof.Machine.execDi c w s
  | .ei c w => Sys2Proof.Machine.execEi c w s
  | .waiti c w => Sys2Proof.Machine.execWaiti c w s
  | .mboxw c w => Sys2Proof.Machine.execMboxw c w s
  | .mboxr c w => Sys2Proof.Machine.execMboxr c w s
  | .dspInterrupt c => Sys2Proof.Machine.execDspInterrupt c s
  | .diExpired c => Sys2Proof.Machine.execDiExpired c s
  | .windowEntry c => Sys2Proof.Machine.execWindowEntry c s
  | .dspLate slot => Sys2Proof.Machine.execDspLate slot s
  | .dspBoundary job => Sys2Proof.Machine.execDspBoundary job s
  | .drainLate c => Sys2Proof.Machine.execDrainLate c s
  | .dspEcc c m addr double => Sys2Proof.Machine.execDspEcc c m addr double s
  | .dspPmRestoreComplete c ok => Sys2Proof.Machine.execDspPmRestoreComplete c ok s
  | .placement => Sys2Proof.Machine.execPlacement s
  | .shotStart job => Sys2Proof.Machine.execShotStart job s
  | .drainComplete job => Sys2Proof.Machine.execDrainComplete job s
  | .shotBoundary job => Sys2Proof.Machine.execShotBoundary job s
  | .sprout u => Sys2Proof.Machine.execSprout u s
  | .retire u => Sys2Proof.Machine.execRetire u s
  | .flowMove h => Sys2Proof.Machine.execFlowMove h s
  | .ledgerFinal job => Sys2Proof.Machine.execLedgerFinal job s
  | .qrsPacketSend flow => Sys2Proof.Machine.execQrsPacketSend flow s
  | .qrsAck r count pairs => Sys2Proof.Machine.execQrsAck r count pairs s
  | .resultResend job => Sys2Proof.Machine.execResultResend job s
  | .calResult routine ukind unit values principal figure aborted => Sys2Proof.Machine.execCalResult routine ukind unit values principal figure aborted s
  | .skewAuto tile => Sys2Proof.Machine.execSkewAuto tile s
  | .discFit q ground excited fidelity => Sys2Proof.Machine.execDiscFit q ground excited fidelity s
  | .glazeStep => Sys2Proof.Machine.execGlazeStep s
  | .hkTimer => Sys2Proof.Machine.execHkTimer s
  | .hkResult k code => Sys2Proof.Machine.execHkResult k code s
  | .eventLineFire k => Sys2Proof.Machine.execEventLineFire k s
  | .andExpired k => Sys2Proof.Machine.execAndExpired k s
  | .latticeEvent c fireEpoch origin line path hops latticeId => Sys2Proof.Machine.execLatticeEvent c fireEpoch origin line path hops latticeId s
  | .notificationFrame => Sys2Proof.Machine.execNotificationFrame s
  | .notificationSend => Sys2Proof.Machine.execNotificationSend s
  | .beatSend => Sys2Proof.Machine.execBeatSend s
  | .beat link b => Sys2Proof.Machine.execBeat link b s
  | .beatMiss secondary => Sys2Proof.Machine.execBeatMiss secondary s
  | .takeover => Sys2Proof.Machine.execTakeover s
  | .holdoverLimit => Sys2Proof.Machine.execHoldoverLimit s
  | .resyncComplete offset => Sys2Proof.Machine.execResyncComplete offset s
  | .listeningComplete roundTrips peerAsym => Sys2Proof.Machine.execListeningComplete roundTrips peerAsym s
  | .lockingComplete => Sys2Proof.Machine.execLockingComplete s
  | .aligningComplete offset => Sys2Proof.Machine.execAligningComplete offset s
  | .syncIn => Sys2Proof.Machine.execSyncIn s
  | .syncOutPulse => Sys2Proof.Machine.execSyncOutPulse s
  | .refLoss => Sys2Proof.Machine.execRefLoss s
  | .refTolerance offset => Sys2Proof.Machine.execRefTolerance offset s
  | .pllLock => Sys2Proof.Machine.execPllLock s
  | .pllUnlock => Sys2Proof.Machine.execPllUnlock s
  | .ppsIn => Sys2Proof.Machine.execPpsIn s
  | .ptpSync domain seconds nanos rate => Sys2Proof.Machine.execPtpSync domain seconds nanos rate s
  | .drainDone m => Sys2Proof.Machine.execDrainDone m s
  | .shotStartMsg m => Sys2Proof.Machine.execShotStartMsg m s
  | .triggerMsg m => Sys2Proof.Machine.execTriggerMsg m s
  | .haltMsg m => Sys2Proof.Machine.execHaltMsg m s
  | .resumeMsg m => Sys2Proof.Machine.execResumeMsg m s
  | .cancelMsg m => Sys2Proof.Machine.execCancelMsg m s
  | .bulkHead c dst src cells addr => Sys2Proof.Machine.execBulkHead c dst src cells addr s
  | .dataCell link good invalid bytes => Sys2Proof.Machine.execDataCell link good invalid bytes s
  | .bulkTail c crc => Sys2Proof.Machine.execBulkTail c crc s
  | .nak c expected => Sys2Proof.Machine.execNak c expected s
  | .resendTimeout link => Sys2Proof.Machine.execResendTimeout link s
  | .refresh c vertical horizontal => Sys2Proof.Machine.execRefresh c vertical horizontal s
  | .align link order inverted skew good => Sys2Proof.Machine.execAlign link order inverted skew good s
  | .train c latticeId chip peerLink ready => Sys2Proof.Machine.execTrain c latticeId chip peerLink ready s
  | .trainingComplete link => Sys2Proof.Machine.execTrainingComplete link s
  | .lockComplete link skew => Sys2Proof.Machine.execLockComplete link skew s
  | .verifyComplete link errs => Sys2Proof.Machine.execVerifyComplete link errs s
  | .trainFail link => Sys2Proof.Machine.execTrainFail link s
  | .retrain link => Sys2Proof.Machine.execRetrain link s
  | .densityWindow lane transitions => Sys2Proof.Machine.execDensityWindow lane transitions s
  | .adaptSnapshot lane values => Sys2Proof.Machine.execAdaptSnapshot lane values s
  | .restored lane values => Sys2Proof.Machine.execRestored lane values s
  | .pause h => Sys2Proof.Machine.execPause h s
  | .linkDown port => Sys2Proof.Machine.execLinkDown port s
  | .feedLoss die sideB => Sys2Proof.Machine.execFeedLoss die sideB s
  | .feedTransferComplete die ticks => Sys2Proof.Machine.execFeedTransferComplete die ticks s
  | .feedRestored die sideB => Sys2Proof.Machine.execFeedRestored die sideB s
  | .pmbusPoll sideB rail attemptsFailed faultBit => Sys2Proof.Machine.execPmbusPoll sideB rail attemptsFailed faultBit s
  | .pmbAlert sideB => Sys2Proof.Machine.execPmbAlert sideB s
  | .resetN cfgDefaultLow => Sys2Proof.Machine.execResetN cfgDefaultLow s
  | .powerupTimeout => Sys2Proof.Machine.execPowerupTimeout s
  | .powerRemoval => Sys2Proof.Machine.execPowerRemoval s
  | .bootComplete fallback => Sys2Proof.Machine.execBootComplete fallback s
  | .priming step => Sys2Proof.Machine.execPriming step s
  | .primingComplete ms => Sys2Proof.Machine.execPrimingComplete ms s
  | .primingTimeout => Sys2Proof.Machine.execPrimingTimeout s
  | .asleepEntry => Sys2Proof.Machine.execAsleepEntry s
  | .wakeComplete ms => Sys2Proof.Machine.execWakeComplete ms s
  | .thermWarn code => Sys2Proof.Machine.execThermWarn code s
  | .thermalTrip => Sys2Proof.Machine.execThermalTrip s
  | .ddrEccError channel uncorrectable => Sys2Proof.Machine.execDdrEccError channel uncorrectable s
  | .dacFault u => Sys2Proof.Machine.execDacFault u s
  | .adcOverrange line code => Sys2Proof.Machine.execAdcOverrange line code s
  | .idle c => Sys2Proof.Machine.execIdle c s
  | .linkUp port errs bers uncorr => Sys2Proof.Machine.execLinkUp port errs bers uncorr s
  | .peerSignal link present => Sys2Proof.Machine.execPeerSignal link present s
  | .pauseEnd h => Sys2Proof.Machine.execPauseEnd h s
  | .frameDrop port => Sys2Proof.Machine.execFrameDrop port s
  | .icmpEcho port v6 => Sys2Proof.Machine.execIcmpEcho port v6 s
  | .arp port v6 => Sys2Proof.Machine.execArp port v6 s
  | .ptpAnnounce domain utcOffset => Sys2Proof.Machine.execPtpAnnounce domain utcOffset s

end Sys2Proof.Machine
end

