-- ==== Sys2Proof/Machine/Render.lean ====
section
/-! DEFINITION. What the outputs form in a tick (R46, R153 to R164, R183, R191, R192, R195 to R230, R683, R715): the samples
that strokes take from streams, envelopes, palette sums, DAC codes, flux codes and land voltages, marker edges. -/

namespace Sys2Proof.Machine

/-! ### Taking from streams (R183, R192) -/

/-- The streams that strokes read advance by what the tick takes; past its end nothing is taken. A missing sample counts as
zero: the stroke that underruns plays baseline (R192). -/
def Dev.takeStreams (d : Dev) : Dev :=
  d.streamDues.foldl (fun e u =>
    let v := ((e.streamSt u.stream).sample u.pos u.bytes).getD 0
    let pos := min (u.pos + u.bytes) (e.rd (unitKey 0x488004 u.stream))
    let e1 := e.wr (unitKey 0x488008 u.stream) pos
    let e2 := e1.setStream u.stream (e1.streamSt u.stream)
    match e2.stroke (keyTarget u.key) with
    | some s => e2.setStroke (keyTarget u.key) (some { s with tape := ((u.at_, v) :: s.tape).take 16 })
    | none => e2) d

/-! ### Stored samples (R153 to R156, R216) -/

/-- The tile of a target (R22). -/
def targetTile : Target → Nat
  | .drive s => s / 64
  | .rtone s => s / 64
  | .flux c => c / 96

/-- The plays of a stroke that are filtered as one sequence with the play at a tick (R216): those about it of the same RATE
and FMT. Answers them, with the number of stored samples in them before the play. -/
def Dev.sequenceAt (d : Dev) (s : Stroke) (t : Nat) : List (Nat × Nat × Nat × Nat) × Nat :=
  let kind : Nat × Nat × Nat × Nat → Nat := fun p => fld (tabGet 0 d.eas.desc p.2.1) 55 52
  let before := s.plays.filter fun p => decide (p.1 + p.2.2.1 * p.2.2.2 ≤ t)
  match s.plays.find? fun p => decide (p.1 ≤ t ∧ t < p.1 + p.2.2.1 * p.2.2.2) with
  | none => ([], 0)
  | some p =>
    let like := fun q => kind q == kind p
    let pre := (before.reverse.takeWhile like).reverse
    let after := (s.plays.filter fun q => decide (t < q.1)).takeWhile like
    let stored : Nat × Nat × Nat × Nat → Nat := fun q => segStored (tabGet 0 d.eas.desc q.2.1)
    (pre ++ p :: after, (pre.map fun q => stored q * q.2.2.1).sum + (t - p.1) / p.2.2.2 * stored p)

/-- A stored sample of a sequence of plays: its descriptor, its index in its play, the output sample at which it is due. -/
def Dev.storedIn (d : Dev) : List (Nat × Nat × Nat × Nat) → Nat → Option (W128 × Nat × Nat)
  | [], _ => none
  | p :: l, i =>
    let w := tabGet 0 d.eas.desc p.2.1
    let n := segStored w
    if i < n * p.2.2.1 then
      some (w, i % n, 2 * (p.1 + i / n * p.2.2.2) + deadSamples w + i % n * 2 ^ segRate w)
    else d.storedIn l (i - n * p.2.2.1)

/-- The bytes of a stored sample (R28, R155, R187): from the tile's store; or of a stream, taken when it was due, or, for one
that is still to come, from where it stands after those that strokes take before it. -/
def Dev.storedBytes (d : Dev) (t : Target) (s : Stroke) (w : W128) (k due : Nat) : Nat :=
  if fld w 22 22 = 1 then
    match s.tape.find? fun p => p.1 == due with
    | some p => p.2
    | none =>
      if due < 2 * d.epoch + 2 then 0
      else
        let now := 2 * d.epoch + 2
        let l := (List.range (due + 1 - now)).foldl (fun l i => d.dueAt (now + i) l) []
        match l.find? fun u => u.key == targetKey t && u.at_ == due with
        | some u => ((d.streamSt u.stream).sample u.pos u.bytes).getD 0
        | none => 0
  else
    let unit := fld w 21 0 + (if fld w 55 54 = 0 then k else k / 2)
    let tile := targetTile t
    let v := (tabGet 0 d.eas.store (2 ^ 22 * tile + storeUnit s.shared s.blocks s.samples tile unit)).toNat
    if fld w 55 54 = 0 then v else v / 2 ^ (16 * (k % 2))

/-- The value of a stored sample (R155). -/
def Dev.storedValue (d : Dev) (t : Target) (s : Stroke) (w : W128) (k due : Nat) : Int × Int :=
  let raw := d.storedBytes t s w k due
  if fld w 55 54 = 0 then parts16 raw else (sext 16 raw, 0)

/-- AMP times a stored sample of a tone (R157), and whether it saturated. -/
def ampSample (amp : Nat) (v : Int × Int) : (Int × Int) × Bool :=
  let re := rshift (v.1 * sext 16 amp) 14
  let im := rshift (v.2 * sext 16 amp) 14
  ((satI 16 re, satI 16 im), satI 16 re != re || satI 16 im != im)

/-- Whether a stroke plays baseline at an output sample: from an underrun or its stream's end on (R191, R192). -/
def Stroke.silent (s : Stroke) (m : Nat) : Bool := s.muted.any fun k => decide (k ≤ m)

/-! ### Samples of a stroke at 1.5 GS/s (R157, R164, R216 to R218) -/

/-- A stored sample as it enters the rate stages: a tone's after AMP, a flux stroke's as it is (R157, R219). -/
def Dev.rateInput (d : Dev) (t : Target) (s : Stroke) (w : W128) (k due : Nat) : Int × Int :=
  let v := d.storedValue t s w k due
  match t with
  | .flux _ => v
  | _ => (ampSample s.amp v).1

/-- The output sample m of a stroke before FINE: its stored samples through the rate stages of its segment (R216, R217), zero
at baseline. Beyond the sequence samples count as zero. -/
def Dev.rated (d : Dev) (t : Target) (s : Stroke) (m : Int) : Int × Int :=
  if m < 0 ∨ s.silent m.toNat then (0, 0)
  else match d.soundAt s m.toNat with
    | none => (0, 0)
    | some x =>
      if segRate x.1 = 0 then d.rateInput t s x.1 x.2 m.toNat
      else
        let q := d.sequenceAt s (m.toNat / 2)
        let at_ : Int → Int × Int := fun i =>
          if i < 0 then (0, 0)
          else match d.storedIn q.1 i.toNat with
            | none => (0, 0)
            | some y => d.rateInput t s y.1 y.2.1 y.2.2
        let v := rateUp (segRate x.1) at_ ((q.2 * 2 ^ segRate x.1 : Nat) + (x.2 : Int))
        (satI 16 v.1, satI 16 v.2)

/-- The output sample m of a stroke, with the chain of a jump that is pending on it, FINE ÷ 16 samples late (R164, R171, R218). DESIGN CHOICE (log entry 77): what the
fractional-delay filter would give before the stroke's first sample and after its last one, each FINE later, is baseline. -/
def Dev.strokeSample (d : Dev) (t : Target) (s0 : Stroke) (m : Nat) : Int × Int :=
  let s := d.afterJump s0
  if 16 * m < 32 * s.start + s.fine ∨ 2 * s.endTick + s.tail ≤ m then (0, 0)
  else
    let v := fineDelay (s.fine % 16) (d.rated t s) ((m : Int) - (s.fine / 16 : Nat))
    (satI 16 v.1, satI 16 v.2)

/-- The strokes that play in the present tick, with their targets, and those of which FINE has left a sample. -/
def Dev.playing (d : Dev) : List (Target × Stroke) :=
  (d.out.strokes.filterMap fun p => p.2.bind fun s =>
    if s.start ≤ d.epoch ∧ 2 * d.epoch < 2 * s.endTick + s.tail then some (keyTarget p.1, s) else none)
  ++ d.out.tails.filterMap fun p => p.2.map fun s => (keyTarget p.1, s)

/-! ### Palettes (R201 to R208) -/

/-- The index of the frame on which a stroke plays. -/
def strokeFrame (t : Target) (s : Stroke) : Nat :=
  match t with
  | .rtone _ => frameIdx s.n 1 s.frame
  | _ => frameIdx s.n 0 s.frame

/-- A tone's contribution to its palette at an output sample with a frame's values, in Q2.32 before PALETTE_GAIN (R201 to
R203, R208): nothing while the offset lies outside its limit. -/
def Dev.mixedOn (d : Dev) (f : Frame) (t : Target) (s : Stroke) (carrier : W48) (m : Nat) : Int × Int :=
  if offsetOut f.freq carrier then (0, 0)
  else
    cmul (d.strokeSample t s m)
      (ncoLookup ((f.freq - carrier) * BitVec.ofNat 48 (16 * m) + f.vph + BitVec.ofNat 48 (s.pofs * 2 ^ 32)))

/-- The sample of a committed path's page that a stroke plays at an output sample within the horizon (R317, R322). -/
def Dev.pageAt (d : Dev) (t : Target) (s : Stroke) (m : Nat) : Option (Int × Int) :=
  s.page.bind fun o => ((d.thread s.n).pages.find? fun g =>
    !g.dead && g.owner == o && d.targetOf s.n g.tgt == some t && decide (2 * g.tb ≤ m ∧ m < 2 * g.tb + 128)).map
      fun g => g.samples.getD (m - 2 * g.tb) (0, 0)

/-- A tone's contribution: from its page within the horizon (R322), else on its frame as it stands. -/
def Dev.mixed (d : Dev) (t : Target) (s : Stroke) (carrier : W48) (m : Nat) : Int × Int :=
  match d.pageAt t s m with
  | some v => cscale (2 ^ 17) v
  | none => d.mixedOn (d.frame (strokeFrame t s)) t s carrier m

/-- The palette sum of a port at an output sample, and whether it saturated (R201). -/
def Dev.paletteSum (d : Dev) (port : Nat) (l : List (Target × Stroke)) (m : Nat) : (Int × Int) × Bool :=
  let carrier := BitVec.ofNat 48 (d.rd (objKey port 1))
  let gain := sext 16 (d.rd (objKey port 2))
  let sum := l.foldl (fun a x => cadd a (d.mixed x.1 x.2 carrier m)) (0, 0)
  let re := rshift (sum.1 * gain) 31
  let im := rshift (sum.2 * gain) 31
  ((satI 16 re, satI 16 im), satI 16 re != re || satI 16 im != im)

/-- The index of a port in the tables of palettes and codes. -/
def portIndex (port : Nat) : Nat := if port < 0x3840 then port - 0x3800 else port - 0x3840 + 64

/-- The port of an index. -/
def indexPort (i : Nat) : Nat := if i < 64 then 0x3800 + i else 0x3840 + (i - 64)

/-- The 32 DAC codes that leave a port's land in a tick (R196, R207, R208, R219 to R222): formed from the palette sums about
18 ticks earlier, newest first; code 0 while OUT_ENABLE is clear. -/
def Dev.portCodes (d : Dev) (port : Nat) (sums : List (Int × Int)) : List Int :=
  if !d.rdB (objKey port 3) then []
  else
    let env := interpolate16 ((List.range 36).map fun i => cscale 4 (sums.getD (53 - i) (0, 0)))
    let first : Int := 32 * (d.epoch : Int) - 576
    let carrier := BitVec.ofNat 48 (d.rd (objKey port 1))
    let vs := env.zipIdx.map fun x => carrierMix carrier (first - 4 + (x.2 : Nat)) x.1
    let codes := dacCodes (d.rdB (objKey port 5)) vs
    if codes.all (· == 0) then [] else codes

/-- A port forms the two palette sums of the tick, and the codes that leave its land. -/
def Dev.renderPort (d : Dev) (port : Nat) (l : List (Target × Stroke)) : Dev :=
  let a := d.paletteSum port l (2 * d.epoch)
  let b := d.paletteSum port l (2 * d.epoch + 1)
  let i := portIndex port
  let n := (if a.2 then 1 else 0) + (if b.2 then 1 else 0)
  let d1 := if n = 0 then d else d.flagN (objKey port 8) 0 n
  let sums := (b.1 :: a.1 :: tabGet [] d1.out.palette i).take 54
  let kept := if sums.all (· == (0, 0)) then [] else sums
  { d1 with out := { d1.out with
      palette := tabSet [] d1.out.palette i kept, codes := tabSet [] d1.out.codes i (d1.portCodes port kept) } }

/-- The RF ports form their samples: those with a stroke, and those whose land still follows earlier ones. -/
def Dev.renderPorts (d : Dev) : Dev :=
  let l := d.playing
  let old : List Nat := (d.out.palette.map (·.1) ++ d.out.codes.map (·.1)).map indexPort
  let ports := ((l.filterMap fun x => portOf x.1) ++ old).dedup
  ports.foldl (fun e p => e.renderPort p (l.filter fun x => portOf x.1 == some p)) d

/-- The DAC code that leaves the land of a port at DAC sample s of the present tick (R196). -/
def Dev.landCode (d : Dev) (port s : Nat) : Int := (tabGet [] d.out.codes (portIndex port)).getD s 0

/-- The amplitude left k dB below a maximum, in millionths of it: 10 to the power −k/20, rounded. -/
def belowMaximum (k : Nat) : Nat :=
  [1000000, 891251, 794328, 707946, 630957, 562341, 501187, 446684, 398107, 354813, 316228, 281838, 251189, 223872, 199526,
    177828].getD k 0

/-- The level that a port's output stage gives its land at DAC sample s of the present tick, in millionths of a code at the
maximum full scale: full scale is FULL_SCALE dB below the maximum (R222). The land holds it for one DAC sample, from which comes
the amplitude sin(πf ÷ 24 GHz) ÷ (πf ÷ 24 GHz) of R220. -/
def Dev.landLevel (d : Dev) (port s : Nat) : Int := d.landCode port s * belowMaximum (d.rd (objKey port 4))

/-- Whether a port's land carries the DC current of the output stage: with BIAS_TEE set the internal bias tee feeds the stage and
the land carries none; clear, the stage is biased through the land by the carrier board (R222). -/
def Dev.landDc (d : Dev) (port : Nat) : Bool := !d.rdB (objKey port 6)

/-- ENV_CLIP and DEAD_TIME of a tone or flux stroke in the tick (R157, R162). -/
def Dev.strokeTick (d : Dev) (x : Target × Stroke) : Dev :=
  let s := x.2
  let clips : Nat → Nat := fun m =>
    match x.1 with
    | .flux _ => 0
    | _ =>
      if s.silent m ∨ s.endTick ≤ m / 2 then 0
      else match d.storedAt s m with
        | some y => if (ampSample s.amp (d.storedValue x.1 s y.1 y.2 m)).2 then 1 else 0
        | none => 0
  let n := clips (2 * d.epoch) + clips (2 * d.epoch + 1)
  let d1 := if n = 0 then d else d.flagN (strokeFlags s.n) 6 n
  match s.playAt d.epoch with
  | none => d1
  | some p =>
    if p.1 = d.epoch ∧ p.1 ≠ s.start ∧ !keepsRule (tabGet 0 d.eas.desc p.2.1) then d1.flag (strokeFlags s.n) 0 else d1

/-! ### Flux channels (R158, R196, R223 to R230) -/

/-- Saturation to n bits, with the count of saturations. -/
def satCount (n : Nat) (v : Int) (k : Nat) : Int × Nat := (satI n v, if satI n v = v then k else k + 1)

/-- The IIR sections from k on (R227): the value, the state, the count of saturations. -/
def Dev.iirFrom (d : Dev) (c : Nat) : Nat → Nat → Int → Tab (Int × Int) → Nat → Int × Tab (Int × Int) × Nat
  | 0, _, x, st, n => (x, st, n)
  | fuel + 1, k, x, st, n =>
    let p := tabGet (0, 0) st k
    let key := fun s => sext 32 (d.rd (objKey (0x3400 + c) (s + 3 * k)))
    let acc := key 0x10 * x + key 0x11 * p.1 - key 0x12 * p.2
    let y := if d.bit (objKey (0x3400 + c) 0x1C) k then satCount 24 ((acc + 2 ^ 29) / 2 ^ 30) n else (x, n)
    d.iirFrom c fuel (k + 1) y.1 (tabSet (0, 0) st k (x, y.1)) y.2

/-- The trailing zeros of a list go. -/
def trimZeros (l : List Int) : List Int := (l.reverse.dropWhile (· == 0)).reverse

/-- One sample through the offset adder and the predistortion chain (R226, R227), with the saturations. Its code enters the
way to the land. -/
def Dev.predistort (d : Dev) (c : Nat) (f : FluxSt) (code : Int) : FluxSt × Nat :=
  let a := satCount 16 (code + sext 16 (d.rd (unitKey 0x340005 c))) 0
  let r := d.iirFrom c 4 0 (a.1 * 256) f.iir a.2
  let xs := r.1 :: f.fir
  let acc := (xs.zipIdx.map fun p => sext 16 (d.rd (objKey (0x3400 + c) (0x20 + p.2))) * p.1).sum
  let y := satCount 24 ((acc + 2 ^ 13) / 2 ^ 14) r.2.2
  let o := satCount 16 ((y.1 + 2 ^ 7) / 2 ^ 8) y.2
  ({ f with fir := trimZeros (xs.take 47), iir := r.2.1, code := o.1, line := trimZeros ((o.1 :: f.line).take 38) }, o.2)

/-- The output code of a flux channel before the offset adder at an output sample, over a hold value, and whether it
saturated (R158). -/
def Dev.fluxCodeOn (d : Dev) (hold : Int) (c : Nat) (s : Option Stroke) (m : Nat) : Int × Bool :=
  match s with
  | none => (hold, false)
  | some s =>
    let w := rshift (hold * 2 ^ 14 + (d.strokeSample (.flux c) s m).1 * sext 16 s.amp) 14
    (satI 16 w, satI 16 w != w)

/-- The output code at a half of the tick: from the stroke's page within the horizon (R322). -/
def Dev.fluxCode (d : Dev) (c : Nat) (s : Option Stroke) (e : Nat) : Int × Bool :=
  let r := d.fluxCodeOn (d.fluxSt c).hold c s (2 * d.epoch + e)
  match s.bind fun q => d.pageAt (.flux c) q (2 * d.epoch + e) with
  | some v => (v.1, r.2)
  | none => r

/-- The voltage at a flux land for a code, in units of 2⁻¹⁸ V (R223). -/
def fluxVolts (range : Nat) (code : Int) : Int := code * (2 ^ (3 - range) : Nat)

/-- The two voltages at the land in the tick (R196, R223, R224): the codes that left the offset adder 18 ticks earlier, or
0 V while the range switches. -/
def Dev.fluxLand (d : Dev) (c : Nat) (f : FluxSt) : FluxSt :=
  let held := f.switchEnd.any fun t => decide (d.epoch < t)
  let v := fluxVolts (d.rd (unitKey 0x340001 c))
  { f with land := if held then (0, 0) else (v (f.line.getD 37 0), v (f.line.getD 36 0)) }

/-- A flux channel forms the two samples of the tick. -/
def Dev.fluxTick (d : Dev) (c : Nat) (s : Option Stroke) : Dev :=
  let f := d.fluxSt c
  let still := s.isNone && f.hold == 0 && f.fir.isEmpty && f.iir.isEmpty && f.line.isEmpty && d.rd (unitKey 0x340005 c) == 0
  if still then (if f.code = 0 ∧ f.land = (0, 0) then d else d.setFlux c { f with code := 0, land := (0, 0) })
  else
    let a := d.fluxCode c s 0
    let b := d.fluxCode c s 1
    let x := d.predistort c f a.1
    let y := d.predistort c x.1 b.1
    let n := (if a.2 then 1 else 0) + (if b.2 then 1 else 0)
    let d1 := match s with
      | some q => if n = 0 then d else d.flagN (strokeFlags q.n) 7 n
      | none => d
    let d2 := d1.setFlux c (d.fluxLand c y.1)
    if x.2 + y.2 = 0 then d2 else d2.flagN (unitKey 0x340007 c) 0 (x.2 + y.2)

/-- The code of sample k of a WARM reset's ramp, from 1: linear to 0 V over 100 µs, which is 150,000 samples (R683). -/
def rampCode (first : Int) (k : Nat) : Int :=
  if 150000 ≤ k then 0
  else
    let x := first * (150000 - (k : Int))
    if x % 150000 ≠ 0 ∧ Config.rampRoundsUp first k then x / 150000 + 1 else x / 150000

/-- A flux channel ramps after a WARM reset, or stands at 0 V (R683, R715): the later sample of the tick stands in `code`,
both at the land. -/
def FluxSt.rampTick (f : FluxSt) (range t : Nat) : FluxSt :=
  match f.ramp with
  | none => { f with line := [], land := (0, 0) }
  | some p =>
    let k := 2 * (t - p.1) + 1
    { f with
      code := rampCode p.2 (k + 1), line := []
      land := (fluxVolts range (rampCode p.2 k), fluxVolts range (rampCode p.2 (k + 1))) }

/-- The flux channels compute from PRIMED on; before, those of a WARM reset ramp (R683, R715). -/
def Dev.fluxTicks (d : Dev) (l : List (Target × Stroke)) : Dev :=
  if d.state = .cold ∨ d.state = .priming then
    { d with out := { d.out with
        flux := d.out.flux.map fun p => (p.1, p.2.rampTick (d.rd (unitKey 0x340001 p.1)) d.epoch) } }
  else if d.state = .asleep then d
  else (List.range 768).foldl (fun e c => e.fluxTick c ((l.find? fun x => x.1 == .flux c).map (·.2))) d

/-! ### Markers (R236) -/

/-- The moved edges that fall in the tick come. -/
def Dev.markerTick (d : Dev) : Dev :=
  (d.out.markers.filter fun p => !p.2.moved.isEmpty).foldl (fun e p => e.movedEdges p.1 (128 * e.epoch + 127)) d

/-! ### Sketch pages (R316, R317, R320, R322) -/

/-- A path and those that it lies in, the thread's own context last (fuel: the nesting). -/
def Thread.lineage (t : Thread) : Nat → Option Nat → List (Option Nat)
  | _, none => [none]
  | 0, p => [p]
  | fuel + 1, some i => some i :: t.lineage fuel ((t.paths.find? (·.id == i)).bind (·.parent))

/-- The entries that satisfy a test and launch by a tick, in the order in which they launch. -/
def Thread.entriesBy (t : Thread) (p : LEntry → Bool) (u : Nat) : List LEntry :=
  (t.launch.filter fun e => p e && decide (e.tick ≤ u)).mergeSort fun a b =>
    decide (a.tick < b.tick ∨ (a.tick = b.tick ∧ a.ord ≤ b.ord))

/-- A path's shadow of a frame at a tick: the frame, with the FRAME entries that the path sees (R322). -/
def Dev.shadowFrame (d : Dev) (n i : Nat) (line : List (Option Nat)) (u : Nat) : Frame :=
  let l := (d.thread n).entriesBy (fun e => e.kind == .frame && line.contains e.path
    && frameIdx n (fld e.w 34 34) (fld e.w 33 32) == i) u
  l.foldl (fun f e => let v := frameUpdate e.w (f.freq, f.vph); { freq := v.1, vph := v.2 }) (d.frame i)

/-- A path's shadow of the hold value of a flux channel at a tick (R322). -/
def Dev.shadowHold (d : Dev) (n tgt c : Nat) (line : List (Option Nat)) (u : Nat) : Int :=
  let l := (d.thread n).entriesBy (fun e => e.kind == .fluxhold && line.contains e.path && fld e.w 35 32 == tgt) u
  (l.getLast?.map fun e => sext 16 (fld e.w 63 48)).getD (d.fluxSt c).hold

/-- The sample that a context renders into a page at an output sample (R316, R317): of the page's strokes, still in the launch
queue or launched in the tick of the commit. DESIGN CHOICE (log entry 123): a tone's contribution rounds to the page's 16
bits; a stroke that jumps leaves its page when the jump takes effect. -/
def Dev.pageSample (d : Dev) (n : Nat) (t : Target) (line : List (Option Nat)) (g : Page) (m : Nat) : Int × Int :=
  let th := d.thread n
  let mine : LEntry → Bool := fun e => e.page == some g.owner
    && ((e.kind == .stroke && fld e.w 35 32 == g.tgt) || (e.kind == .read && g.tgt == 1))
  let queued := (th.entriesBy mine (m / 2)).getLast?.map fun e => d.entryStroke n e (e.kind == .read)
  let s := (queued.or ((d.stroke t).filter fun s => s.n == n && s.page == some g.owner)).filter fun s =>
    decide (m < 2 * s.endTick + s.tail)
  match t with
  | .flux c => ((d.fluxCodeOn (d.shadowHold n g.tgt c line (m / 2)) c s m).1, 0)
  | _ =>
    match s, portOf t with
    | some s, some port =>
      let v := d.mixedOn (d.shadowFrame n (strokeFrame t s) line (m / 2)) t s
        (BitVec.ofNat 48 (d.rd (objKey port 1))) m
      (satI 16 (rshift v.1 17), satI 16 (rshift v.2 17))
    | _, _ => (0, 0)

/-- A page follows the entries of its path. -/
def Dev.renderPage (d : Dev) (n : Nat) (line : List (Option Nat)) (g : Page) : Page :=
  match d.targetOf n g.tgt with
  | some t => { g with samples := (List.range 128).map fun k => d.pageSample n t line g (2 * g.tb + k) }
  | none => g

/-- The paths render; the pages of a committed path stand as they are at its commit. -/
def Dev.pageTick (d : Dev) : Dev :=
  (d.eas.threads.filter fun x => !x.2.paths.isEmpty || !x.2.pages.isEmpty).foldl (fun e x =>
    e.setThread x.1 { x.2 with
      paths := x.2.paths.map fun p => { p with pages := p.pages.map (d.renderPage x.1 (x.2.lineage 4 (some p.id))) }
      pages := x.2.pages.map fun g =>
        if g.live && !g.dead then { d.renderPage x.1 [none] g with live := false } else g }) d

/-- Pages of committed paths are freed as their horizon passes, those of squashed ones at the end of the tick (R320). -/
def Dev.freePages (d : Dev) : Dev :=
  (d.eas.threads.filter fun x => !x.2.pages.isEmpty).foldl (fun e x =>
    e.setThread x.1 { x.2 with pages := x.2.pages.filter fun g => !g.dead && decide (d.epoch + 1 < g.tb + 64) }) d

/-! ### The end of the tick -/

/-- The outputs of a tick when its commands are done: samples are taken from streams, flux and RF samples form, marker edges
come, paths render before them, pages are freed, and what FINE had carried past a stroke's end is over. -/
def Dev.render (d : Dev) : Dev :=
  let d0 := d.takeStreams.pageTick
  let l := d0.playing
  let d1 := (l.foldl Dev.strokeTick (d0.fluxTicks l).renderPorts).markerTick
  let d2 := d1.freePages
  { d2 with out := { d2.out with tails := [] } }

end Sys2Proof.Machine
end

