-- ==== Sys2Proof/Machine/Tick.lean ====
section
/-! DEFINITION. What a tick brings by itself (R46, R54, R476, R579, R671): what the outputs form, the words that the apply
engine loads, the epoch's count. A step on an empty queue is one tick (log entry 2). -/

namespace Sys2Proof.Machine

/-! ### The apply engine (R579) -/

/-- Fields that load with a budget of words, `part` words of the first having loaded: the fields loaded, the others, the
words of the first of these that have loaded, what is left of the budget. -/
def loadFields : Nat → Nat → List Staged → List Staged × List Staged × Nat × Nat
  | budget, _, [] => ([], [], 0, budget)
  | budget, part, s :: l =>
    let need := s.words - part
    if need ≤ budget then
      let r := loadFields (budget - need) 0 l
      (s :: r.1, r.2.1, r.2.2.1, r.2.2.2)
    else ([], s :: l, part + budget, 0)

/-- The words of the jobs that load with a budget, in ascending order of job slot. -/
def Dev.loadJobs (d : Dev) : Nat → List JobWords → List JobWords
  | _, [] => []
  | budget, w :: l =>
    let all := draftWords w.items
    let drained := (d.hub.jobs.find? fun j => j.slot == w.slot).any fun j =>
      j.phase == .drained && decide (j.drainAt < d.epoch)
    let n := min budget ((if drained then all else min all 4096) - w.loaded)
    let w1 := { w with loaded := w.loaded + n
                       loadedAt := if w.loadedAt.isNone ∧ w.loaded + n = all then some d.epoch else w.loadedAt }
    w1 :: d.loadJobs (budget - n) l

/-- Whether no job holds units in a slot. -/
def Dev.slotEmpty (d : Dev) (slot : Nat) : Bool :=
  !(d.hub.jobs.any fun j => j.slot == slot && (j.st.resident || j.held.canvases != []))

/-- The apply engine loads 16 words; what no RUNNING or DRAINING job's unit has takes effect as it loads. The words of a
job that has left its units join the others. -/
def Dev.applyTick (d : Dev) : Dev :=
  match d.qop.commit with
  | none => d
  | some p =>
    let gone := (p.jobs.filter fun (w : JobWords) => d.slotEmpty w.slot).flatMap (·.items)
    let r := loadFields 16 p.part (p.others ++ gone)
    let js := d.loadJobs r.2.2.2 (p.jobs.filter fun (w : JobWords) => !d.slotEmpty w.slot)
    let d1 := d.applyWords (r.1.map fun (i : Staged) => (i.key, i.val))
    ({ d1 with qop := { d1.qop with commit := some { p with others := r.2.1, part := r.2.2.1, jobs := js } } }).commitDone

/-! ### Retirements (R630) -/

/-- A unit is retired in the tick in which its transients meet its criterion. -/
def Dev.retireTick (d : Dev) : Dev :=
  ((d.hub.units.faults.filter fun f => decide (f.2.2 = d.epoch)).map fun f => (f.1, f.2.1)).dedup.foldl (fun e x =>
    if e.faultsMet x.1 x.2 then e.retireNow x.1 (unitRow x.1) else e) d

/-! ### The tick -/

/-- TSRC 6 reports the items dropped when the port is free (R671). -/
def Dev.traceTick (d : Dev) : Dev :=
  if d.agg.traceDropped = 0 ∨ (d.agg.traceAt.any fun t => decide (d.epoch < t + 16)) then d
  else
    let n := d.agg.traceDropped
    ({ d with agg := { d.agg with traceDropped := 0 } }).trace 6 n

/-- What is left of a tick when its commands are done: units whose criterion is met are retired and links retrain (R546),
the receive chains take their samples (R252, R269), the outputs form, test patterns and cells leave, staged varnish of free units takes effect, replies that waited for the end
of PRIMING leave. -/
def Dev.endTick (d : Dev) : Dev :=
  let d2 := d.retireTick.retrainTick.chainTick.integrateTick.render.prbsTick.cellTick.drainTick.flushStage.traceTick
  if d2.state = .cold ∨ d2.state = .priming ∨ d2.qop.deferred = [] then d2 else d2.releaseReplies

/-- The epoch of the next tick (R44, R46, R54, R55): the count, or what SYNC_IN loads. An edge whose instant of loading
finds the device or lattice state changed loads nothing and is counted. -/
def Dev.countTick (d : Dev) : Dev :=
  if !d.counting then d
  else
    let d1 := { d with epoch := d.epoch + 1 }
    let n := (d1.lat.syncLoads.filter (· == d1.epoch)).length
    let d2 := { d1 with lat := { d1.lat with syncLoads := d1.lat.syncLoads.filter (· != d1.epoch) } }
    if n = 0 then d1
    else if d2.syncLoadOk then d2.loadEpoch (d2.rd 0x200102)
    else d2.flagN 0x200004 2 n

/-- The beginning of the next tick: what the last one cleared, set and counted is forgotten (R15, R709), the beat slot is
an event (R476), slices that waited for their sample are substituted (R244), the calibration engine
converts (R472), samples arrive at the acquisition engine (R337, R342), and the apply engine loads. -/
def Dev.beginTick (d : Dev) : Dev :=
  let d0 : Dev := { d with inTick := {}, rx := { d.rx with ticks := d.rx.ticks + 1 } }
  let d1 := d0.countTick.acqTick
  let d2 := if d1.counting ∧ d1.epoch % 750 = 0 then d1.produce 0x99 else d1
  d2.rotateTick.convTick.applyTick

/-- One tick: the device at its end is what READ shows in the next one (R605). -/
def State.tick (s : State) : State :=
  let d := s.now.endTick
  { s with last := d, now := d.beginTick }

end Sys2Proof.Machine
end

