-- ==== Sys2Proof/Machine/Response.lean ====
section
/-! DEFINITION. The responses that the manual gives its filters (R219, R220, R251, R257), as a condition on the taps, whose values
are free (log entry 11): a claim that needs a response takes `FiltersConform`, or one of its parts, as a premise. Frequencies are
in MHz; a gain is that of a tone through the filter. -/

namespace Sys2Proof.Machine

/-- A gain within some decibels of one. -/
def Ripple (db g : ℝ) : Prop := abs (20 * Real.logb 10 (abs g)) ≤ db

/-- A gain at least some decibels below one. -/
def Attenuated (db g : ℝ) : Prop := abs g ≤ (10 : ℝ) ^ (-(db / 20))

/-- The gain of a halfband stage at f cycles a sample of its faster side: the middle tap, and h taps at odd distances on each side,
of which a stage that doubles the rate counts half (w = 1) and one that halves it all (w = 2). -/
def HalfbandGain (w h : Nat) (tap : Nat → Int) (f g : ℝ) : Prop :=
  g = 1 / 2 + w * ((List.range h).map fun (j : Nat) => (tap j : ℝ) / 2 ^ 17 * Real.cos (2 * Real.pi * f * (2 * j + 1))).sum

/-- The gain of halfband stages in a row, that of the fastest side first. -/
def CascadeGain (w : Nat) : List (Nat × (Nat → Int)) → ℝ → ℝ → Prop
  | [], _, g => g = 1
  | p :: l, f, g => ∃ a b, HalfbandGain w p.1 p.2 f a ∧ CascadeGain w l (2 * f) b ∧ g = a * b

/-- The two parts of a sum of taps in Q1.17 at f cycles a sample, tap k at k − at. -/
def TapGain (n : Nat) (tap : Nat → Int) (at_ f re im : ℝ) : Prop :=
  re = ((List.range n).map fun (k : Nat) => (tap k : ℝ) / 2 ^ 17 * Real.cos (2 * Real.pi * f * (k - at_))).sum ∧
    im = ((List.range n).map fun (k : Nat) => (tap k : ℝ) / 2 ^ 17 * Real.sin (2 * Real.pi * f * (k - at_))).sum

/-- R219: rate stages from ½, ¼ and ⅛, with the passband's and the stopband's edge. -/
def RateStagesConform : Prop :=
  ∀ r ∈ [([(6, Config.rateTap 0)], 300, (450 : ℝ)), ([(3, Config.rateTap 1), (6, Config.rateTap 0)], 150, 225),
      ([(2, Config.rateTap 2), (3, Config.rateTap 1), (6, Config.rateTap 0)], 75, 112.5)],
    ∀ f g : ℝ, CascadeGain 1 r.1 (f / 1500) g →
      (|f| ≤ r.2.1 → Ripple 0.005 g) ∧ (r.2.2 ≤ |f| → |f| ≤ 750 → Attenuated 80 g)

/-- R218, R219: each phase of the fractional delay, against its own delay of p ÷ 16 samples. -/
def FineDelayConforms : Prop :=
  ∀ p : Nat, 1 ≤ p → p < 16 → ∀ f re im : ℝ, |f| ≤ 600 →
    TapGain 16 (Config.delayTap p) (8 - p / 16) (f / 1500) re im →
      Ripple 0.01 (Real.sqrt (re ^ 2 + im ^ 2)) ∧ 0 < re ∧ |im| ≤ re * Real.tan (2 * Real.pi * (|f| * 10 ^ 6) * (0.5 / 10 ^ 12))

/-- R219: the four stages of ×16, with their output rate and the edge of the stopband. -/
def InterpolationConforms : Prop :=
  ∀ r ∈ [(0, 14, 3000, (900 : ℝ)), (1, 4, 6000, 2400), (2, 3, 12000, 5400), (3, 2, 24000, 11400)],
    ∀ f g : ℝ, HalfbandGain 1 r.2.1 (Config.upTap r.1) (f / r.2.2.1) g →
      (|f| ≤ 600 → Ripple 0.005 g) ∧ (r.2.2.2 ≤ |f| → |f| ≤ r.2.2.1 / 2 → Attenuated 85 g)

/-- R220: what a code held for one DAC sample gives of a tone at f at the land. -/
def HoldGain (f g : ℝ) : Prop := g * (Real.pi * f / 24000) = Real.sin (Real.pi * f / 24000)

/-- R220: the inverse-sinc filter, whose two gains are given to one and to three places. -/
def InverseSincConforms : Prop :=
  ∀ f re im g : ℝ, TapGain 9 Config.sincTap 4 (f / 24000) re im → g = Real.sqrt (re ^ 2 + im ^ 2) →
    (f = 10000 → 0.95 ≤ g ∧ g ≤ 1.05) ∧ (f = 2000 → 0.7455 ≤ g ∧ g ≤ 0.7465) ∧
    (∀ s t : ℝ, 2000 ≤ f → f ≤ 10000 → HoldGain f s → HoldGain 10000 t → Ripple 0.1 (g * s / t))

/-- The stages HB1 to HB5 of the fixed chain (R256). -/
def chainStages : List (Nat × (Nat → Int)) :=
  [(2, Config.chainTap 0), (3, Config.chainTap 1), (3, Config.chainTap 2), (5, Config.chainTap 3), (5, Config.chainTap 4)]

/-- R251, R257: the fixed chain's passband, what would alias into it, and the conjugate image of a tone in its zone's band. -/
def FixedChainConforms : Prop :=
  (∀ f g : ℝ, CascadeGain 2 chainStages (f / 12000) g →
    (|f| ≤ 150 → Ripple 0.01 g) ∧
    (∀ k : Int, 225 ≤ |f| → |f| ≤ 6000 → |f - 375 * k| ≤ 150 → Attenuated 70 g)) ∧
  (∀ f g : ℝ, (2000 ≤ f ∧ f ≤ 5700) ∨ (6300 ≤ f ∧ f ≤ 10000) → CascadeGain 2 chainStages (2 * f / 12000) g → Attenuated 70 g)

/-- The taps have the responses of R219, R220, R251 and R257. -/
def FiltersConform : Prop :=
  RateStagesConform ∧ FineDelayConforms ∧ InterpolationConforms ∧ InverseSincConforms ∧ FixedChainConforms

end Sys2Proof.Machine
end

