-- ==== Sys2Proof/Safety.lean ====
section
/-! DEFINITION. What every step keeps: the byte memory of the present device and of the snapshot stand in their canonical
form, so that equal memories are equal data. -/

namespace Sys2Proof.Machine

/-- The byte memories of a state are canonical. -/
def State.wf (s : State) : Prop := Memory.wf s.now.ddr ∧ Memory.wf s.last.ddr

end Sys2Proof.Machine
end

