-- ==== Sys2Proof/WellFormed.lean ====
section
/-! DEFINITION. Well-formed commands: the operands that name a unit, a place or a field of an object lie in the ranges that
the manual gives them. A meaning is total: a command that is not well formed acts on no unit of the device. -/

namespace Sys2Proof

/-- An identity field of one byte, a sequence number of 64 bits (R561). -/
def Req.wf (r : Req) : Bool := decide (r.ident < 256) && decide (r.seq < 2 ^ 64)

/-- An index, a subindex, a length and a value that fit the item (R564). -/
def WItem.wf (i : WItem) : Bool :=
  decide (i.idx < 2 ^ 16) && decide (i.sub < 256) && decide (i.len < 2 ^ 16) && decide (i.val < 256 ^ i.len)

/-- A thread of the tiles (R92). -/
def threadOk (n : Nat) : Bool := decide (n < 512)

/-- A target (R105, R165). -/
def Target.wf : Target → Bool
  | .drive s => decide (s < 512)
  | .rtone s => decide (s < 512)
  | .flux c => decide (c < 768)

/-- A unit (R22, R630). -/
def UnitRef.wf : UnitRef → Bool
  | .slice line s => decide (line < 32) && decide (s < 52)
  | .xyPort p => decide (p < 64)
  | .rlTx n => decide (n < 32)
  | .rlLine n => decide (n < 32)
  | .flux c => decide (c < 768)
  | .easel e => decide (e < 34)
  | .dsp d => decide (d < 17)
  | .link k => decide (k < 12)
  | .host h => decide (h < 4)
  | .spine _ => true
  | .ddr c => decide (c < 4)
  | .sram tile block => decide (tile < 8) && decide (block < 4096)

/-- A cell of a link (R520). -/
def CellHdr.wf (c : CellHdr) : Bool := decide (c.link < 12) && decide (c.cseq < 256) && decide (c.ackSeq < 256)

/-- A DSP core (R368). -/
def coreOk (c : Nat) : Bool := decide (c < 17)

/-- A serial lane: 0 to 47 Genzel, 48 to 63 host, 64 MGMT (R509). -/
def laneOk (l : Nat) : Bool := decide (l < 65)

/-- A host port or MGMT (R509). -/
def portOk (p : Nat) : Bool := decide (p < 5)

/-- A readout tone slot 16n + k (R239). -/
def slotOk (s : Nat) : Bool := decide (s < 512)

/-- The pointers of the parallel fields of a DSP word: PT0–PT3, PT4 or PT5, PT6 or PT7, PT0–PT7 (R371). -/
def DWord.wf (w : DWord) : Bool :=
  let fits : Option DFetch → Nat → Nat → Bool := fun o lo n => match o with
    | some f => decide (lo ≤ f.pt ∧ f.pt < n)
    | none => true
  fits w.fx 0 4 && fits w.fy 4 6 && fits w.fk 6 8 && fits w.st 0 8

/-- A well-formed command. -/
def Instr.wf : Instr → Bool
  | .ping r => r.wf
  | .read r items => r.wf && items.all fun i => decide (i.1 < 2 ^ 16 ∧ i.2 < 256)
  | .readPart r idx sub off len => r.wf && decide (idx < 2 ^ 16 ∧ sub < 256 ∧ off < 2 ^ 32 ∧ len < 2 ^ 16)
  | .write r items => r.wf && items.all WItem.wf
  | .registerWrite i idx sub _ => decide (i < 256 ∧ idx < 2 ^ 16 ∧ sub < 256)
  | .commit r _ => r.wf
  | .discard r => r.wf
  | .loadOpen r kind len target => r.wf && decide (kind < 256 ∧ len < 2 ^ 64 ∧ target < 2 ^ 64)
  | .loadPart r h off _ => r.wf && decide (h < 2 ^ 16 ∧ off < 2 ^ 32)
  | .loadClose r h _ => r.wf && decide (h < 2 ^ 16)
  | .loadAbort r h => r.wf && decide (h < 2 ^ 16)
  | .loadTimeout h => decide (h < 2 ^ 16)
  | .ddrRead r addr len => r.wf && decide (addr < 2 ^ 64 ∧ len < 2 ^ 16)
  | .submit r h _ => r.wf && decide (h < 2 ^ 16)
  | .start r j => r.wf && decide (j < 2 ^ 64)
  | .halt r j => r.wf && decide (j < 2 ^ 64)
  | .resume r j => r.wf && decide (j < 2 ^ 64)
  | .cancel r j => r.wf && decide (j < 2 ^ 64)
  | .jobStatus r j => r.wf && decide (j < 2 ^ 64)
  | .prime r => r.wf
  | .recover r => r.wf
  | .sleep r => r.wf
  | .wake r => r.wf
  | .resetPowerOn r => r.wf
  | .resetWarm r => r.wf
  | .resetMgmt r => r.wf
  | .resetFluxState r => r.wf
  | .counterClear r a b => r.wf && decide (a < 2 ^ 16 ∧ b < 2 ^ 16)
  | .keySet r t _ => r.wf && decide (t < 256)
  | .bulkCopy r c a b n => r.wf && decide (c < 256 ∧ a < 2 ^ 64 ∧ b < 2 ^ 64 ∧ n < 2 ^ 64)
  | .snapshot n => threadOk n
  | .arm c => decide (c < 128)
  | .disarm c => decide (c < 128)
  | .force c => decide (c < 128)
  | .evFire k => decide (k < 256)
  | .mboxIn c _ => coreOk c
  | .calSkew t => decide (t < 8)
  | .calLevel k u => (k == 3 && decide (u < 64)) || (k == 4 && decide (u < 32))
  | .calFluxOfs c => decide (c < 768)
  | .calLoopback n => decide (n < 32)
  | .prbsStart l => laneOk l
  | .prbsStop l => laneOk l
  | .prbsClear l => laneOk l
  | .injectSingle l => laneOk l
  | .gzRetrain k => decide (k < 12)
  | .gzInject k => decide (k < 12)
  | .portReadapt h => portOk h
  | .opNop x _ => threadOk x.n
  | .opPlay x _ _ _ _ _ _ _ _ _ => threadOk x.n
  | .opRead x _ _ _ _ _ _ _ _ _ => threadOk x.n
  | .microword x _ => threadOk x.n
  | .strokeLaunch n => threadOk n
  | .readLaunch n => threadOk n
  | .jumpEffect t => t.wf
  | .strokeEnd t => t.wf
  | .underrun t => t.wf
  | .streamEnd t => t.wf
  | .streamRefill s _ => decide (s < 64)
  | .fluxRangeSwitchEnd c => decide (c < 768)
  | .windowOpen s => slotOk s
  | .windowDump s => slotOk s
  | .decisionProduce s => slotOk s
  | .decisionArrival n h => threadOk n && decide (h < 16)
  | .decisionCommit n h => threadOk n && decide (h < 16)
  | .sliceRotate n => decide (n < 32)
  | .sliceCheck n _ _ _ _ => decide (n < 32)
  | .trigIn i _ _ => decide (i < 8)
  | .cmac c w => coreOk c && w.wf
  | .dspNop c w => coreOk c && w.wf
  | .sprout u => u.wf
  | .retire u => u.wf
  | .dacFault u => u.wf
  | .flowMove h => decide (h < 4)
  | .eventLineFire k => decide (k < 256)
  | .andExpired k => decide (k < 256)
  | .nak c _ => c.wf
  | .refresh c _ _ => c.wf
  | .train c _ _ _ _ => c.wf
  | .idle c => c.wf
  | .linkDown p => portOk p
  | .linkUp p errs bers _ => portOk p && (p == 4 || errs.length == 4 && bers.length == 4)
  | .feedLoss d _ => decide (d < 9)
  | .feedTransferComplete d _ => decide (d < 9)
  | .feedRestored d _ => decide (d < 9)
  | .pmbusPoll _ r _ _ => decide (r < 32)
  | .priming s => decide (1 ≤ s ∧ s ≤ 8)
  | .ddrEccError c _ => decide (c < 4)
  | .commitApplyComplete => true
  | .custImage _ words => decide (words.length ≤ 4096)
  | .custClear => true
  | .hostSeconds v => decide (v < 2 ^ 64)
  | .hkCmd => true
  | .cfgSave => true
  | .cfgErase => true
  | .cfgSaveComplete => true
  | .ledgerRelease jobSeq => decide (jobSeq < 2 ^ 64)
  | .bbRelease no => decide (no < 2 ^ 32)
  | .opFluxhold x _ _ _ => threadOk x.n
  | .opFshift x _ _ _ _ => threadOk x.n
  | .opFfreq x _ _ _ _ => threadOk x.n
  | .opFphase x _ _ _ _ => threadOk x.n
  | .opFshiftv x _ _ _ _ => threadOk x.n
  | .opWait x _ => threadOk x.n
  | .opWaituntil x _ _ => threadOk x.n
  | .opBarrier x _ _ => threadOk x.n
  | .opWaitev x _ _ => threadOk x.n
  | .opAcqtrig x _ _ => threadOk x.n
  | .opMark x _ _ _ _ => threadOk x.n
  | .opEvent x _ _ => threadOk x.n
  | .opBranchWait x _ _ _ _ _ _ => threadOk x.n
  | .opBranchSketch x _ _ _ _ _ _ => threadOk x.n
  | .opGoto x _ _ => threadOk x.n
  | .opLoop x _ _ _ => threadOk x.n
  | .opJseg x _ _ _ => threadOk x.n
  | .opSetv x _ _ _ => threadOk x.n
  | .opAddv x _ _ _ => threadOk x.n
  | .opGreset x _ _ => threadOk x.n
  | .opEnd x _ => threadOk x.n
  | .customerOpcode x _ _ _ => threadOk x.n
  | .waitcRelease x => threadOk x.n
  | .tret n => threadOk n
  | .waitDecision x => threadOk x.n
  | .sincos x => threadOk x.n
  | .recip x => threadOk x.n
  | .frameRead x => threadOk x.n
  | .prefetch x _ => threadOk x.n
  | .trapEntry n => threadOk n
  | .datapath x => threadOk x.n
  | .csUncorrectable x => threadOk x.n
  | .csRestoreComplete x _ => threadOk x.n
  | .watchdog n => threadOk n
  | .overrun n => threadOk n
  | .fluxholdLaunch n => threadOk n
  | .frameLaunch n => threadOk n
  | .markLaunch n => threadOk n
  | .markerEdge m => decide (m < 64)
  | .markerIdleReturn m => decide (m < 64)
  | .eventLaunch n => threadOk n
  | .acqtrigLaunch n => threadOk n
  | .segjumpLaunch n => threadOk n
  | .decisionBlockSend k => decide (k < 12)
  | .decisionBlock c _ _ _ => c.wf
  | .acqTrigger c _ => decide (c < 128)
  | .streamBlock c _ => decide (c < 128)
  | .captureRecordComplete c => decide (c < 128)
  | .trigOutPulse i => decide (i < 8)
  | .trigOutPulseEnd i => decide (i < 8)
  | .cmacj c w => coreOk c && w.wf
  | .cmsb c w => coreOk c && w.wf
  | .cmul c w => coreOk c && w.wf
  | .aclr c w => coreOk c && w.wf
  | .sta c w => coreOk c && w.wf
  | .stag c w => coreOk c && w.wf
  | .maxi c w => coreOk c && w.wf
  | .mini c w => coreOk c && w.wf
  | .srst c w => coreOk c && w.wf
  | .srd c w => coreOk c && w.wf
  | .ldi c _ _ => coreOk c
  | .movg c w => coreOk c && w.wf
  | .dspAdd c w => coreOk c && w.wf
  | .dspSub c w => coreOk c && w.wf
  | .dspAnd c w => coreOk c && w.wf
  | .dspOr c w => coreOk c && w.wf
  | .dspXor c w => coreOk c && w.wf
  | .shl c w => coreOk c && w.wf
  | .sar c w => coreOk c && w.wf
  | .mulq c w => coreOk c && w.wf
  | .sgt c w => coreOk c && w.wf
  | .cmp c w => coreOk c && w.wf
  | .movxg c w => coreOk c && w.wf
  | .movgx c w => coreOk c && w.wf
  | .ldg c w => coreOk c && w.wf
  | .stg c w => coreOk c && w.wf
  | .movp c w => coreOk c && w.wf
  | .movpg c w => coreOk c && w.wf
  | .jmp c w => coreOk c && w.wf
  | .jcc c w => coreOk c && w.wf
  | .call c w => coreOk c && w.wf
  | .ret c w => coreOk c && w.wf
  | .rti c w => coreOk c && w.wf
  | .repeatN c w => coreOk c && w.wf
  | .dspLoop c w => coreOk c && w.wf
  | .loopi c w => coreOk c && w.wf
  | .inw c w => coreOk c && w.wf
  | .outd c w => coreOk c && w.wf
  | .movw c w => coreOk c && w.wf
  | .emit c w => coreOk c && w.wf
  | .eclose c w => coreOk c && w.wf
  | .bdone c w => coreOk c && w.wf
  | .di c w => coreOk c && w.wf
  | .ei c w => coreOk c && w.wf
  | .waiti c w => coreOk c && w.wf
  | .mboxw c w => coreOk c && w.wf
  | .mboxr c w => coreOk c && w.wf
  | .dspInterrupt c => coreOk c
  | .diExpired c => coreOk c
  | .windowEntry c => coreOk c
  | .dspLate slot => slotOk slot
  | .dspBoundary job => decide (job < 2 ^ 64)
  | .drainLate c => coreOk c
  | .dspEcc c _ _ _ => coreOk c
  | .dspPmRestoreComplete c _ => coreOk c
  | .placement => true
  | .shotStart job => decide (job < 2 ^ 64)
  | .drainComplete job => decide (job < 2 ^ 64)
  | .shotBoundary job => decide (job < 2 ^ 64)
  | .ledgerFinal job => decide (job < 2 ^ 64)
  | .qrsPacketSend flow => decide (flow < 10)
  | .qrsAck r _ _ => r.wf
  | .resultResend job => job.all fun j => decide (j < 2 ^ 64)
  | .calResult routine _ _ _ _ _ _ => decide (1 ≤ routine ∧ routine ≤ 6)
  | .skewAuto tile => decide (tile < 8)
  | .discFit q _ _ _ => decide (q < 512)
  | .glazeStep => true
  | .hkTimer => true
  | .hkResult k _ => decide (k < 4)
  | .latticeEvent c _ _ line _ _ _ => c.wf && decide (line < 8)
  | .notificationFrame => true
  | .notificationSend => true
  | .beatSend => true
  | .beat link _ => decide (link < 12)
  | .beatMiss _ => true
  | .takeover => true
  | .holdoverLimit => true
  | .resyncComplete _ => true
  | .listeningComplete _ _ => true
  | .lockingComplete => true
  | .aligningComplete _ => true
  | .syncIn => true
  | .syncOutPulse => true
  | .refLoss => true
  | .refTolerance _ => true
  | .pllLock => true
  | .pllUnlock => true
  | .ppsIn => true
  | .ptpSync domain _ _ _ => decide (domain < 256)
  | .drainDone _ => true
  | .shotStartMsg _ => true
  | .triggerMsg _ => true
  | .haltMsg _ => true
  | .resumeMsg _ => true
  | .cancelMsg _ => true
  | .bulkHead c _ _ _ _ => c.wf
  | .dataCell link _ invalid _ => decide (link < 12) && invalid.all fun l => decide (l < 4)
  | .bulkTail c _ => c.wf
  | .resendTimeout link => decide (link < 12)
  | .align link _ _ _ _ => decide (link < 12)
  | .trainingComplete link => decide (link < 12)
  | .lockComplete link _ => decide (link < 12)
  | .verifyComplete link _ => decide (link < 12)
  | .trainFail link => decide (link < 12)
  | .retrain link => decide (link < 12)
  | .densityWindow lane _ => laneOk lane
  | .adaptSnapshot lane _ => laneOk lane
  | .restored lane _ => laneOk lane
  | .pause h => decide (h < 4)
  | .pmbAlert _ => true
  | .resetN _ => true
  | .powerupTimeout => true
  | .powerRemoval => true
  | .bootComplete _ => true
  | .primingComplete _ => true
  | .primingTimeout => true
  | .asleepEntry => true
  | .wakeComplete _ => true
  | .thermWarn _ => true
  | .thermalTrip => true
  | .adcOverrange line _ => decide (line < 32)
  | .peerSignal link _ => decide (link < 12)
  | .pauseEnd h => decide (h < 4)
  | .frameDrop port => portOk port
  | .icmpEcho port _ => portOk port
  | .arp port _ => portOk port
  | .ptpAnnounce _ _ => true

end Sys2Proof
end

