-- ==== Sys2Proof/Certificates/Slice0/Obligations.lean ====
section
/-! DEFINITION. The statements for the provers, from the numbered rules of the manual. -/

open Sys2Proof Sys2Proof.Machine Config

/-! ### What statements say of a step -/

/-- A command whose meaning is a change of the device: the next state has that device, and everything else stands. -/
def Does (c : Instr) (s : State) (f : Dev → Dev) : Prop := exec c s = .next { s with now := f s.now }

/-- A request that is accepted and passes the checks of R563 that come before its content. -/
def Served (d : Dev) (r : Req) (cmd : Nat) (payload : List Byte) : Prop :=
  d.available = true ∧ d.drops r cmd payload = false ∧ r.waiting < 64 ∧ (d.ident r.ident).high < r.seq ∧
    r.layoutOk = true ∧ roleAllows (d.role r.ident) r.ident cmd = true ∧ stateAllows d.state cmd = true

/-- A request is taken, its command acts by `f` in step 1 of the tick, and a reply with a status, a device state and a payload is
kept and leaves. -/
def Answers (c : Instr) (s : State) (r : Req) (cmd st ds : Nat) (payload : List Byte) (f : Dev → Dev) : Prop :=
  Does c s fun d => ((f (d.take r)).inStep1 (d.take r)).finishReply
    { ident := r.ident, seq := r.seq, cmd := cmd, status := st, dstate := ds, epoch := (f (d.take r)).epoch, payload := payload }

/-- The commands that can change bytes of DDR4: those that store, those that remove power from it, and its
self-test. -/
def touchesDdr : Instr → Bool
  | .loadClose .. => true
  | .bulkCopy .. => true
  | .bulkTail .. => true
  | .resetPowerOn .. => true
  | .resetN .. => true
  | .powerRemoval => true
  | .feedLoss .. => true
  | .pmbusPoll .. => true
  | .priming step => step == 5
  | _ => false

/-! ### The machine -/

/-- Model's own (log entries 1 and 2): a step runs the command at the front of the queue on the rest of the machine,
commands leave first in, first out, and on an empty queue one tick passes. Every command, in every state, has a next
state; no command touches the queue or what READ shows of the previous tick. -/
def Obligations.StepRunsTheFrontCommand : Prop :=
  (∀ (c : Instr) (s : State), step { s with pending := c :: s.pending } = exec c s) ∧
    (∀ s : State, s.pending = [] → step s = .next s.tick) ∧
    (∀ s : State, s.tick.pending = s.pending) ∧
    (∀ (c : Instr) (s : State), ∃ t, exec c s = .next t ∧ t.pending = s.pending ∧ t.last = s.last)

/-- The bytes of DDR4 keep their canonical form in every step, of a command and of a tick. -/
def Obligations.StepKeepsMemoryCanonical : Prop := ∀ s t : State, s.wf → step s = .next t → t.wf

/-- The machine after power-on reset meets the invariant of the steps. -/
def Obligations.ResetMemoryCanonical : Prop := State.reset.wf

/-- The frame of memory: a command that stores nothing, removes no power and tests no DDR4 leaves every byte of
it. -/
def Obligations.MemoryFrame : Prop :=
  ∀ (c : Instr) (s t : State), touchesDdr c = false → exec c s = .next t →
    ∀ a, ddrGet t.now.ddr a = ddrGet s.now.ddr a

/-- After power-on reset (R44, R571, R683 with the reset values of the object tables): the epoch counter stands at 0 and
does not count, the device is in COLD, every object holds its reset value, there is no job, no draft, no open load. -/
def Obligations.ResetState : Prop :=
  State.reset.pending = [] ∧ State.reset.now.epoch = 0 ∧ State.reset.now.counting = false ∧
    State.reset.now.state = .cold ∧ (∀ key, State.reset.now.rd key = resetOf key) ∧
    (∀ key, State.reset.now.ctr key = 0) ∧ State.reset.now.hub.jobs = [] ∧ State.reset.now.qop.draft = [] ∧
    State.reset.now.qop.loads = [] ∧ (∀ n, State.reset.now.thread n = {}) ∧ (∀ c, State.reset.now.core c = {})

/-! ### QOP: how a request is handled -/

/-- R556, R557: a request whose MAGIC, VERSION, LEN, TAG or role fails, or whose REQ_SEQ is 0, is dropped without a
reply: it sets bit 0 of QOP_FLAGS and does nothing else. With 64 requests waiting a datagram is answered BUSY and not
recorded; a REQ_SEQ more than 64 below the highest accepted is answered STALE_SEQ; one accepted before is answered with
its stored reply. None of them runs. PING stands for the commands, which share the gate. -/
def Obligations.RequestsNotServed : Prop :=
  ∀ (r : Req) (s : State), s.now.available = true →
    (s.now.drops r 1 [] = true → Does (.ping r) s fun d => d.hostFlag 0x180001 0) ∧
    (s.now.drops r 1 [] = false → 64 ≤ r.waiting → ∃ t, exec (.ping r) s = .next t ∧ t.now.qop.idents = s.now.qop.idents ∧ t.now.bit 0x180001 2 = true ∧
      ∃ p, t.now.qop.last = some p ∧ p.seq = r.seq ∧ p.status = stBusy) ∧
    (s.now.drops r 1 [] = false → r.waiting < 64 → r.seq + 64 < (s.now.ident r.ident).high →
      ∃ t, exec (.ping r) s = .next t ∧ t.now.qop.idents = s.now.qop.idents ∧ t.now.bit 0x180001 1 = true ∧
      ∃ p, t.now.qop.last = some p ∧ p.seq = r.seq ∧ p.status = stStaleSeq) ∧
    (∀ p : Reply, s.now.drops r 1 [] = false → r.waiting < 64 → r.seq ≤ (s.now.ident r.ident).high → (s.now.ident r.ident).high ≤ r.seq + 64 →
      (s.now.ident r.ident).stored.find? (fun q => q.seq == r.seq) = some p →
      Does (.ping r) s fun d => d.sendReply p)
/-! ### QOP commands -/

/-- R564, R605, R607, R714 with the command table of chapter 14: PING answers nothing; READ and READ_PART answer values
as they stood at the end of the previous tick; DDR_READ answers bytes of DDR4; JOB_STATUS answers the objects of the
job's slot. None changes anything but the QOP records. -/
def Obligations.QueriesAnswer : Prop :=
  ∀ (r : Req) (s : State),
    (Served s.now r 0x01 [] → Answers (.ping r) s r 0x01 0 s.now.state.code [] id) ∧
    (∀ items : List (Nat × Nat), 1 ≤ items.length → items.length ≤ 64 →
      (items.all fun i => readable s.now.state i.1) = true →
      Served s.now r 0x10 (items.flatMap fun i => le 2 i.1 ++ le 1 i.2 ++ le 1 0) →
      Answers (.read r items) s r 0x10 0 s.last.state.code (s.last.readFill s.now.epoch r.ident items 0) id) ∧
    (∀ (idx sub off len : Nat) (w : Row), 1 ≤ len → len ≤ 1392 → readable s.now.state idx = true →
      objRow idx sub = some w → off < (s.last.readBytes s.now.epoch r.ident idx sub w).length →
      Served s.now r 0x11 (le 2 idx ++ le 1 sub ++ le 4 off ++ le 2 len) →
      Answers (.readPart r idx sub off len) s r 0x11 0 s.last.state.code
        (((s.last.readBytes s.now.epoch r.ident idx sub w).drop off).take len) id) ∧
    (∀ addr len : Nat, 1 ≤ len → len ≤ 1392 → Served s.now r 0x24 (le 8 addr ++ le 2 len) →
      Answers (.ddrRead r addr len) s r 0x24 0 s.now.state.code
        ((List.range len).map fun k => ddrGet s.now.ddr (addr + k)) id) ∧
    (∀ (seq : Nat) (j : Job), s.now.job seq = some j → Served s.now r 0x35 (le 8 seq) →
      Answers (.jobStatus r seq) s r 0x35 0 s.now.state.code (s.now.slotObjects j.slot) id)

/-- R14, R15, R575, R609: a WRITE of one item that passes its checks. An RW object without an effect of its own takes the value;
an RS field goes to the draft and its object keeps its present value; a set
bit written as 1 is cleared, unless hardware has set it in the same tick. A REGISTER_WRITE by a permitted identity does the same without a reply, and on a WO field it does what that field does
(0x180005, DRAFT_WORDS, is read-only and follows the draft). -/
def Obligations.WritesTakeEffect : Prop :=
  ∀ (r : Req) (s : State) (i : WItem) (w : Row), objRow i.idx i.sub = some w →
    (∀ c : Instr, w.acc ≠ .wo →
      ((c = .write r [i] ∧ (Machine.WItem.bytes i).length ≤ 1404 ∧ Served s.now r 0x12 (Machine.WItem.bytes i) ∧ (s.now.take r).writeFault r.ident [i] = none) ∨
        (c = .registerWrite r.ident i.idx i.sub i.val ∧ i.len = w.ty.bytes ∧ s.now.available = true ∧
          s.now.role r.ident ≠ 0xFF ∧ roleAllows (s.now.role r.ident) r.ident 0x12 = true ∧
          stateAllows s.now.state 0x12 = true ∧ s.now.writeFault r.ident [i] = none)) →
      ∃ t, exec c s = .next t ∧ t.now.ddr = s.now.ddr ∧ t.now.hub = s.now.hub ∧ t.now.eas = s.now.eas ∧
        (w.acc = .rw → i.idx ≠ 0x1008 → i.idx ≠ 0x7800 → ¬ (0x2410 ≤ i.idx ∧ i.idx ≤ 0x2830) →
          writeMask (objKey i.idx i.sub) = none → t.now.rd (objKey i.idx i.sub) = i.val % 256 ^ w.ty.bytes) ∧
        (w.acc = .rs → objKey i.idx i.sub ≠ 0x180005 → t.now.rd (objKey i.idx i.sub) = s.now.rd (objKey i.idx i.sub) ∧
          ∃ x ∈ t.now.qop.draft, x.key = objKey i.idx i.sub ∧ x.val = i.val % 256 ^ w.ty.bytes &&&
            ((writeMask (objKey i.idx i.sub)).getD (256 ^ w.ty.bytes - 1))) ∧
        (w.acc = .set → objKey i.idx i.sub ≠ 0x180005 → ∀ b : Nat, (t.now.rd (objKey i.idx i.sub)).testBit b =
          ((s.now.rd (objKey i.idx i.sub)).testBit b && (!(i.val % 256 ^ w.ty.bytes).testBit b ||
            (tabGet 0 s.now.inTick.raised (objKey i.idx i.sub)).testBit b)))) ∧
    (w.acc = .wo → i.len = w.ty.bytes → s.now.available = true → s.now.role r.ident ≠ 0xFF →
      roleAllows (s.now.role r.ident) r.ident 0x12 = true → stateAllows s.now.state 0x12 = true →
      s.now.writeFault r.ident [i] = none →
      Does (.registerWrite r.ident i.idx i.sub i.val) s fun d =>
        (d.setDraft d.qop.draft).act i.idx i.sub (i.val % 256 ^ w.ty.bytes))

/-- R577, R578, R580, R581: COMMIT takes the draft, which is then empty, answers COMMIT_ID and its words, and leaves them
pending, split by the jobs that hold their units, with no object changed; of an empty draft it is complete at once.
While one is pending a COMMIT has STATE_CONFLICT, and with REFUSE_STRETCH and more than 4,096 words for a job
DRAFT_TOO_LARGE: neither changes anything. DISCARD empties the draft, and not a pending commit. COMMIT_APPLY_COMPLETE,
with no word of a running job left, puts every word still waiting into force: each object holds the value staged for it,
and the commit is complete with this tick in APPLIED_EPOCH. -/
def Obligations.DraftCommands : Prop :=
  ∀ (r : Req) (s : State),
    (∀ refuse : Bool, s.now.qop.commit = none → s.now.commitBreach s.now.qop.draft = none →
      (refuse = true → ((s.now.splitDraft s.now.qop.draft).jobs.any fun w => decide (4096 < draftWords w.items)) = false) →
      Served s.now r 0x13 (le 1 (if refuse then 1 else 0)) →
      ∃ t p, exec (.commit r refuse) s = .next t ∧ t.now.qop.draft = [] ∧ t.now.rd 0x180005 = 0 ∧
        t.now.rd 0x180007 = (s.now.rd 0x180007 + 1) % 2 ^ 32 ∧ t.now.qop.last = some p ∧ p.seq = r.seq ∧
        p.status = stOk ∧ p.payload = le 4 ((s.now.rd 0x180007 + 1) % 2 ^ 32) ++ le 4 (draftWords s.now.qop.draft) ∧
        (s.now.qop.draft ≠ [] → t.now.rd 0x180006 = 1 ∧
          t.now.qop.commit = some { s.now.splitDraft s.now.qop.draft with refuse := refuse }) ∧
        (s.now.qop.draft = [] → t.now.rd 0x180006 = 2 ∧ t.now.rd 0x180008 = s.now.epoch ∧ t.now.qop.commit = none) ∧
        (∀ key, key ≠ 0x180005 → key ≠ 0x180006 → key ≠ 0x180007 → key ≠ 0x180008 → t.now.rd key = s.now.rd key) ∧
        t.now.ddr = s.now.ddr ∧ t.now.eas = s.now.eas ∧ t.now.hub = s.now.hub) ∧
    (∀ (refuse : Bool) (p : Pending), s.now.qop.commit = some p → Served s.now r 0x13 (le 1 (if refuse then 1 else 0)) →
      ∃ t q, exec (.commit r refuse) s = .next t ∧ t.now.qop.last = some q ∧ q.status = stStateConflict ∧
        t.now.qop.draft = s.now.qop.draft ∧ t.now.qop.commit = some p ∧ t.now.objs = s.now.objs) ∧
    (s.now.qop.commit = none → s.now.commitBreach s.now.qop.draft = none →
      ((s.now.splitDraft s.now.qop.draft).jobs.any fun w => decide (4096 < draftWords w.items)) = true →
      Served s.now r 0x13 (le 1 1) →
      ∃ t q, exec (.commit r true) s = .next t ∧ t.now.qop.last = some q ∧ q.status = stDraftTooLarge ∧
        t.now.qop.draft = s.now.qop.draft ∧ t.now.qop.commit = none ∧ t.now.objs = s.now.objs) ∧
    (Served s.now r 0x14 [] →
      Answers (.discard r) s r 0x14 0 s.now.state.code (le 4 (draftWords s.now.qop.draft)) fun d => d.setDraft []) ∧
    (∀ p : Pending, s.now.qop.commit = some p → p.jobs = [] →
      ∃ t, exec .commitApplyComplete s = .next t ∧ t.now.qop.commit = none ∧ t.now.rd 0x180006 = 2 ∧
        t.now.rd 0x180008 = t.now.epoch ∧ t.now.epoch = s.now.epoch ∧ t.now.ddr = s.now.ddr ∧
        ((∀ x ∈ p.others, (objRow (x.key / 256) (x.key % 256)).map (·.acc) = some .rs) →
          ∀ a x b, p.others = a ++ x :: b → (∀ y ∈ b, y.key ≠ x.key) → t.now.rd x.key = x.val))

/-- R190, R567: a load that opens takes the next handle; LOAD_PART writes its bytes at their offset; LOAD_ABORT and
LOAD_TIMEOUT close a handle and discard its data. -/
def Obligations.LoadCommands : Prop :=
  ∀ (r : Req) (s : State),
    (∀ kind len target : Nat, 1 ≤ kind → kind ≤ 3 → s.now.qop.loads.length < 8 →
      (s.now.qop.loads.map (·.len)).sum + len ≤ 2 ^ 29 →
      Served s.now r 0x20 (le 1 kind ++ le 8 len ++ loadTarget kind target) →
      ∃ t p, exec (.loadOpen r kind len target) s = .next t ∧ t.now.qop.loads = s.now.qop.loads ++
          [{ handle := s.now.qop.nextHandle, kind := kind, len := len, target := target, data := [], closed := false,
             used := s.now.epoch }] ∧
        t.now.qop.last = some p ∧ p.status = stOk ∧ p.payload = le 2 s.now.qop.nextHandle ∧ t.now.objs = s.now.objs ∧
        t.now.ddr = s.now.ddr ∧ t.now.hub = s.now.hub) ∧
    (∀ (handle off : Nat) (bytes : List Byte) (l : Load), 1 ≤ bytes.length → bytes.length ≤ 1392 →
      s.now.load? handle = some l → l.closed = false → off + bytes.length ≤ l.len →
      Served s.now r 0x21 (le 2 handle ++ le 4 off ++ bytes) →
      Answers (.loadPart r handle off bytes) s r 0x21 0 s.now.state.code [] fun d =>
        d.putLoad { l with data := tabFill unwrittenByte l.data off (bytes.map (·.toNat)), used := d.epoch }) ∧
    (∀ (handle : Nat) (l : Load), s.now.load? handle = some l → Served s.now r 0x23 (le 2 handle) →
      Answers (.loadAbort r handle) s r 0x23 0 s.now.state.code [] fun d => d.dropLoad handle) ∧
    (∀ (handle : Nat) (l : Load), s.now.load? handle = some l → l.used + 7500000000 ≤ s.now.epoch →
      Does (.loadTimeout handle) s fun d => d.dropLoad handle)

/-- R190, R567, R568: a complete load of KIND 3 stores its bytes at its DDR4 address, and a BULK_COPY within the chip
stores the bytes of its source at its destination; every byte outside the bytes stored reads as before. -/
def Obligations.StoresToDdr : Prop :=
  ∀ (r : Req) (s : State),
    (∀ (handle : Nat) (crc : W32) (l : Load), s.now.load? handle = some l → l.complete = true →
      crc32 l.bytes = crc.toNat → l.kind = 3 → s.now.streamOverlap l.target l.len = false →
      Served s.now r 0x22 (le 2 handle ++ le 4 crc.toNat) →
      ∃ t, exec (.loadClose r handle crc) s = .next t ∧ t.now.load? handle = none ∧
        (∀ a, (a < l.target ∨ l.target + l.bytes.length ≤ a) → ddrGet t.now.ddr a = ddrGet s.now.ddr a) ∧
        (∀ k, (h : k < l.bytes.length) → ddrGet t.now.ddr (l.target + k) = l.bytes[k])) ∧
    (∀ src dst len : Nat, s.now.chip ≤ 63 → s.now.streamOverlap dst len = false →
      Served s.now r 0x51 (le 1 s.now.chip ++ le 8 src ++ le 8 dst ++ le 8 len) →
      ∃ t, exec (.bulkCopy r s.now.chip src dst len) s = .next t ∧
        (∀ a, (a < dst ∨ dst + len ≤ a) → ddrGet t.now.ddr a = ddrGet s.now.ddr a) ∧
        (∀ k, k < len → ddrGet t.now.ddr (dst + k) = ddrGet s.now.ddr (src + k)))

/-- R585, R588, R591, R592: SUBMIT of a container that passes its checks records an ACCEPTED job under the next JOB_SEQ
in the lowest free slot. START of an ARMED job in mode HOST is noted, and fixes its first shot at the first alignment point at
least 96 ticks later where nothing holds it. HALT of a job on one chip between shots leaves it HALTED at once, with no start fixed,
and in a shot DRAINING until that ends; RESUME leaves a HALTED one ARMED or RUNNING, with a start fixed in the same way; CANCEL in
a shot leaves it DRAINING, overrides a HALT, and takes a job that still waits for placement out of the ledger. Each answers OK; of
a job on several chips HALT, RESUME and CANCEL go to the root; HALT with JOB_SEQ all ones names every resident job that takes it. -/
def Obligations.JobRequests : Prop :=
  ∀ (r : Req) (s : State),
    (∀ (handle : Nat) (content : Sections) (l : Load), s.now.load? handle = some l → l.kind = 2 → l.closed = true →
      containerOk l.bytes = true → s.now.hub.jobs.length < 1024 → Served s.now r 0x30 (le 2 handle) →
      ∃ t p, exec (.submit r handle content) s = .next t ∧
        t.now.hub.jobs = s.now.hub.jobs ++
          [{ slot := s.now.freeSlot, seq := s.now.rd 0x780001, st := .accepted, head := parseHead l.bytes, content := readSections l.bytes content }] ∧
        t.now.rd 0x780001 = s.now.rd 0x780001 + 1 ∧ t.now.load? handle = none ∧ t.now.qop.last = some p ∧
        p.status = stOk ∧ p.payload = le 2 s.now.freeSlot ++ le 8 (s.now.rd 0x780001) ∧ t.now.ddr = s.now.ddr) ∧
    (∀ (seq : Nat) (j : Job), s.now.job seq = some j → j.st = .armed → j.head.startMode = 1 → Served s.now r 0x31 (le 8 seq) →
      ∃ t k p, exec (.start r seq) s = .next t ∧ t.now.qop.last = some p ∧ p.seq = r.seq ∧ p.status = stOk ∧
        t.now.job seq = some k ∧ k.served = true ∧ k.st = .armed ∧ t.now.ddr = s.now.ddr ∧
        (j.head.multiChip = false → s.now.lat.st ≠ .root → s.now.canSeek j = true → j.windowOpen = true →
          s.now.rd 0x18000C < Config.resultSpace → j.phase = .waiting → k.nextStart = some (alignUp (s.now.epoch + 96)) ∧
            k.shot = j.nextShot) ∧
        (∀ a, j.head.multiChip = false → s.now.lat.st ≠ .root → j.nextStart = some a → k = { j with served := true })) ∧
    (∀ (seq : Nat) (j : Job), s.now.job seq = some j → (j.st = .armed ∨ j.st = .running) → seq ≠ 2 ^ 64 - 1 →
      Served s.now r 0x32 (le 8 seq) →
      ∃ t p, exec (.halt r seq) s = .next t ∧ t.now.qop.last = some p ∧ p.seq = r.seq ∧ p.status = stOk ∧
        t.now.ddr = s.now.ddr ∧
        (j.head.multiChip = false → j.phase = .shot → t.now.job seq = some { j with haltDue := true, st := .draining }) ∧
        (j.head.multiChip = false → j.phase ≠ .shot →
          t.now.job seq = some { j with st := .halted, haltDue := false, nextStart := none })) ∧
    (∀ (seq : Nat) (j : Job), s.now.job seq = some j → j.st = .halted → Served s.now r 0x33 (le 8 seq) →
      ∃ t k p, exec (.resume r seq) s = .next t ∧ t.now.qop.last = some p ∧ p.seq = r.seq ∧ p.status = stOk ∧
        t.now.job seq = some k ∧ t.now.ddr = s.now.ddr ∧
        (j.head.multiChip = false → k.st = (if j.started then .running else .armed) ∧
          (j.head.startMode ≠ 2 → s.now.canSeek { j with st := .armed } = true → j.windowOpen = true →
            s.now.rd 0x18000C < Config.resultSpace → k.nextStart = some (alignUp (s.now.epoch + 96)) ∧ k.shot = j.nextShot))) ∧
    (∀ (seq : Nat) (j : Job), s.now.job seq = some j → j.takesCancel = true → Served s.now r 0x34 (le 8 seq) →
      ∃ t p, exec (.cancel r seq) s = .next t ∧ t.now.qop.last = some p ∧ p.seq = r.seq ∧ p.status = stOk ∧
        t.now.ddr = s.now.ddr ∧
        (j.head.multiChip = false → j.st.resident = true → j.phase = .shot →
          t.now.job seq = some { j with cancelDue := true, haltDue := false, st := .draining }) ∧
        (j.head.multiChip = false → j.st.resident = true → j.phase = .drained →
          ((t.now.job seq).map (·.st)) = some .cancelled) ∧
        (j.head.multiChip = false → (j.st = .accepted ∨ j.st = .placing) → t.now.job seq = none)) ∧
    (∀ (j : Job) (js : List Job), s.now.resident.filter Job.takesHalt = j :: js → Served s.now r 0x32 (le 8 (2 ^ 64 - 1)) →
      Answers (.halt r (2 ^ 64 - 1)) s r 0x32 0 ((j :: js).foldl Dev.haltJob (s.now.take r)).state.code []
        fun d => (j :: js).foldl Dev.haltJob d) ∧
    (∀ (seq : Nat) (j : Job), s.now.job seq = some j → j.head.multiChip = true → seq ≠ 2 ^ 64 - 1 →
      (j.takesHalt = true → Served s.now r 0x32 (le 8 seq) →
        Answers (.halt r seq) s r 0x32 0 ((s.now.take r).commandToRoot 4 j).state.code [] fun d => d.commandToRoot 4 j) ∧
      (j.takesResume = true → Served s.now r 0x33 (le 8 seq) →
        Answers (.resume r seq) s r 0x33 0 ((s.now.take r).commandToRoot 5 j).state.code [] fun d => d.commandToRoot 5 j) ∧
      (j.takesCancel = true → Served s.now r 0x34 (le 8 seq) →
        Answers (.cancel r seq) s r 0x34 0 ((s.now.take r).commandToRoot 6 j).state.code [] fun d => d.commandToRoot 6 j))

/-- R560, R569: COUNTER_CLEAR leaves every observation counter of its range at what hardware counts in this tick, zero
where it counts nothing, and leaves the others; KEY_SET by
identity 0 gives an identity the key that it unwraps and clears its records. What unwrapping gives is a free value (log
entry 7). -/
def Obligations.CountersAndKeys : Prop :=
  ∀ (r : Req) (s : State),
    (∀ first last : Nat, 0xF000 ≤ first → first ≤ last → last ≤ 0xFFFF →
      Served s.now r 0x45 (le 2 first ++ le 2 last) →
      ∃ t, exec (.counterClear r first last) s = .next t ∧ t.now.objs = s.now.objs ∧ t.now.ddr = s.now.ddr ∧
        (∀ key, first ≤ key / 256 → key / 256 ≤ last → t.now.ctr key = tabGet 0 s.now.inTick.counted key) ∧
        (∀ key, (key / 256 < first ∨ last < key / 256) → t.now.ctr key = s.now.ctr key)) ∧
    (∀ (target : Nat) (wrapped : BitVec 320), target ≤ 3 →
      Served s.now r 0x50 (le 1 target ++ le 7 0 ++ le 40 wrapped.toNat) →
      ∃ t, exec (.keySet r target wrapped) s = .next t ∧
        (match Config.keyUnwrap (s.now.ident 0).key wrapped with
          | some k => (t.now.ident target).key = k ∧ (t.now.ident target).high = 0
          | none => (t.now.ident target).key = (s.now.ident target).key) ∧
        t.now.objs = s.now.objs ∧ t.now.ddr = s.now.ddr ∧
        ∀ i, i ≠ target → (t.now.ident i).key = (s.now.ident i).key)

/-- R571, R573, R683, R684, R691: PRIME in COLD enters PRIMING and is answered on completion; SLEEP is noted in PRIMED; a
RESET of kind WARM leaves the device in PRIMING and answers with state COLD; MGMT loses the open draft; FLUX_STATE clears
the predistortion state of a channel that no job holds; POWER_ON leaves COLD, the epoch counter 0 and stopped, the byte
memory without contents, and the reply waits for the firmware. -/
def Obligations.StateRequests : Prop :=
  ∀ (r : Req) (s : State),
    (s.now.pwr.upFail = false → Served s.now r 0x40 [] →
      ∃ t, exec (.prime r) s = .next t ∧ t.now.state = .priming ∧ t.now.pwr.steps = [] ∧
        t.now.qop.last = s.now.qop.last ∧ t.now.qop.deferred.length = s.now.qop.deferred.length + 1 ∧
        t.now.rd 0x100103 = 0 ∧ t.now.ddr = s.now.ddr) ∧
    (Served s.now r 0x41 [] → ∃ t, exec (.recover r) s = .next t ∧ t.now.state = .priming ∧
      t.now.pwr.resetKind = 1 ∧ t.now.ddr = s.now.ddr ∧
      ∀ j ∈ t.now.hub.jobs, j.st.resident = false) ∧
    (Served s.now r 0x42 [] → Answers (.sleep r) s r 0x42 0 s.now.state.code [] fun d => d.beginSleep) ∧
    (Served s.now r 0x43 [] → Answers (.wake r) s r 0x43 0 s.now.state.code [] fun d => d.wakeCause none) ∧
    (Served s.now r 0x44 (le 1 1) → ∃ t p, exec (.resetWarm r) s = .next t ∧ t.now.state = .priming ∧
      t.now.qop.last = some p ∧ p.seq = r.seq ∧ p.status = stOk ∧ p.dstate = 0 ∧ t.now.qop.draft = [] ∧
      t.now.qop.commit = none ∧ t.now.ddr = s.now.ddr ∧ t.now.eas.threads = [] ∧ t.now.rd 0x100106 = 1 ∧
      ∀ j ∈ t.now.hub.jobs, j.st.resident = false) ∧
    (Served s.now r 0x44 (le 1 2) → ∃ t, exec (.resetMgmt r) s = .next t ∧ t.now.qop.draft = [] ∧
      t.now.rd 0x100106 = 2 ∧ t.now.hub.jobs = s.now.hub.jobs ∧ t.now.ddr = s.now.ddr) ∧
    (Served s.now r 0x44 (le 1 3) → ∃ t, exec (.resetFluxState r) s = .next t ∧ t.now.rd 0x100106 = 3 ∧
      t.now.hub.jobs = s.now.hub.jobs ∧ t.now.ddr = s.now.ddr ∧ ∀ c,
        ((s.now.resident.flatMap fun j => j.held.flux).contains c = false →
          (t.now.fluxSt c).fir = [] ∧ (t.now.fluxSt c).iir = []) ∧ (t.now.fluxSt c).hold = (s.now.fluxSt c).hold) ∧
    (Served s.now r 0x44 (le 1 0) → ∃ t, exec (.resetPowerOn r) s = .next t ∧ t.now.state = .cold ∧ t.now.epoch = 0 ∧
      t.now.counting = false ∧ t.now.pwr.booted = false ∧ t.now.qop.last = none ∧ t.now.qop.deferred.length = 1 ∧
      t.now.rd 0x100105 = (s.now.rd 0x100105 + 1) % 2 ^ 32 ∧ t.now.ddr = [] ∧ t.now.eas.cust = s.now.eas.cust)
/-! ### Writes with an effect of their own -/

/-- R141 to R143, R147: in PRIMED an image that passes its check becomes the customer store, one word after another from
the first; a failing one changes only the error object; CUST_CLEAR empties the store and every CUST_ENTRY. Outside PRIMED
both are rejected and counted. -/
def Obligations.CustomerStoreLoads : Prop :=
  ∀ (s : State) (len : Nat) (img : List W192),
    (s.now.state = .primed → custCheck len img = none →
      ∃ t, exec (.custImage len img) s = .next t ∧
        (∀ k, (h : k < img.length) → tabGet 0 t.now.eas.cust k = img[k]) ∧ t.now.eas.custHeld = true ∧
        t.now.rd 0x444002 = crc32 (custBytes img) ∧ t.now.rd 0x444003 = 1 ∧ t.now.rd 0x444004 = 0 ∧
        t.now.eas.threads = s.now.eas.threads ∧ t.now.hub = s.now.hub ∧ t.now.ddr = s.now.ddr) ∧
    (∀ a why, s.now.state = .primed → custCheck len img = some (a, why) →
      Does (.custImage len img) s fun d => d.wr 0x444004 (a + 2 ^ 16 * why)) ∧
    (s.now.state = .primed → ∃ t, exec .custClear s = .next t ∧ t.now.eas.cust = [] ∧
        t.now.eas.custHeld = false ∧ t.now.rd 0x444003 = 0 ∧
        (∀ k, k < 64 → t.now.rd (0x444101 + k) = 0) ∧ t.now.eas.threads = s.now.eas.threads ∧ t.now.hub = s.now.hub ∧
        t.now.ddr = s.now.ddr) ∧
    (s.now.state ≠ .primed → Does (.custImage len img) s Dev.conflict ∧ Does .custClear s Dev.conflict)

/-- R331, R349, R366: ARM of a free channel that keeps the rules begins it with its counts at 0, in a stretch that starts now;
DISARM of a channel without a run in progress leaves it idle at once, a streaming one with the units that it still holds, and else
is noted for the end of that run; FORCE gives an enabled, armed channel condition 13. All three are rejected for a channel that a
job holds. -/
def Obligations.AcquisitionCommands : Prop :=
  ∀ (s : State) (c : Nat),
    (s.now.armStatus c = 0 → ∃ t, exec (.arm c) s = .next t ∧ t.now.rd (unitKey 0x510016 c) = 0 ∧
      t.now.rd (unitKey 0x510017 c) = 0 ∧
      t.now.rd (unitKey 0x510013 c) = (if s.now.rd (unitKey 0x510001 c) = 1 then 3 else 1) ∧
      (t.now.acqSt c).legs.getLast? = some { since := s.now.epoch } ∧ (t.now.acqSt c).run = none ∧
      (t.now.acqSt c).lastIdx = (s.now.acqSt c).lastIdx ∧
      ((s.now.acqSt c).legs = [] → (t.now.acqSt c).conds = [] ∧ (t.now.acqSt c).units = []) ∧
      (∀ b, b ≠ c → t.now.acqSt b = s.now.acqSt b) ∧ t.now.hub = s.now.hub ∧ t.now.ddr = s.now.ddr) ∧
    (s.now.rd (unitKey 0x510015 c) = 0xFFFF → (s.now.acqSt c).run = none →
      ∃ t, exec (.disarm c) s = .next t ∧ t.now.rd (unitKey 0x510013 c) = 0 ∧ (t.now.acqSt c).conds = [] ∧
        (t.now.acqSt c).crossings = [] ∧ (t.now.acqSt c).run = none ∧
        (t.now.acqSt c).units = (if s.now.acqState c = 3 then (s.now.acqSt c).units else []) ∧
        (t.now.acqSt c).lastIdx = (s.now.acqSt c).lastIdx ∧ (∀ b, b ≠ c → t.now.acqSt b = s.now.acqSt b) ∧
        t.now.hub = s.now.hub ∧ t.now.ddr = s.now.ddr) ∧
    (∀ r : AcqRun, s.now.rd (unitKey 0x510015 c) = 0xFFFF → (s.now.acqSt c).run = some r →
      Does (.disarm c) s fun d => d.setAcq c { d.acqSt c with run := some { r with disarm := true } }) ∧
    (s.now.rd (unitKey 0x510015 c) = 0xFFFF → s.now.bit (unitKey 0x51000A c) 13 = true → s.now.acqState c = 1 →
      Does (.force c) s fun d => d.setAcq c { d.acqSt c with conds := (d.acqSt c).conds ++ [(13, d.epoch)] }) ∧
    (s.now.rd (unitKey 0x510015 c) ≠ 0xFFFF →
      Does (.arm c) s Dev.conflict ∧ Does (.disarm c) s Dev.conflict ∧ Does (.force c) s Dev.conflict)

/-- R90, R130, R386, R484: a write of HOST_SECONDS names the second of the next 1PPS edge; SNAPSHOT leaves trap 2 pending
on an active thread; EV_FIRE is a cause at its line in the tick of the write; a write of MBOX_IN raises the core's
mailbox. -/
def Obligations.HostWritesOfUnits : Prop :=
  ∀ (s : State),
    (∀ v, Does (.hostSeconds v) s fun d => { d with lat := { d.lat with ppsSecond := some v } }) ∧
    (∀ n, (s.now.thread n).active = true → (s.now.thread n).ended = false → (s.now.thread n).traps.contains 2 = false →
      Does (.snapshot n) s fun d => d.setThread n { d.thread n with traps := (d.thread n).traps ++ [2] }) ∧
    (∀ k, Does (.evFire k) s fun d =>
      { d with ev := { d.ev with causes := d.ev.causes ++ [{ line := k, tick := d.epoch }] } }) ∧
    (∀ (c : Nat) (v : W32), ∃ t, exec (.mboxIn c v) s = .next t ∧ (t.now.core c).mbox = true ∧ (t.now.core c).mboxIn = v ∧
      (t.now.core c).g = (s.now.core c).g ∧ (t.now.core c).pc = (s.now.core c).pc ∧
      t.now.rd (unitKey 0x58000C c) = v.toNat ∧ (∀ b, b ≠ c → t.now.core b = s.now.core b) ∧ t.now.hub = s.now.hub ∧
      t.now.ddr = s.now.ddr)

/-- R540 to R543: in a state that allows them, PRBS_START clears PRBS_LOCK and starts a lane's generator, at the
seed of log entry 120, and checker, PRBS_STOP stops them, PRBS_CLEAR clears both counts; a single bit is inverted on one lane; GZ_INJECT corrupts the
next cell of a link; PORT_READAPT takes a host port that is not retired through its training again. -/
def Obligations.LaneCommands : Prop :=
  ∀ (s : State) (l k h : Nat),
    (s.now.prbsOk l = true → Does (.prbsStart l) s fun d => (d.wr (laneKey l 8) 0).setLane l
      { d.lane l with prbs := true, gen := Config.prbsSeed l, part := 0, syms := 0, tx := [], clean := 0, errs := 0 }) ∧
    Does (.prbsStop l) s (fun d => d.setLane l { d.lane l with prbs := false, tx := [] }) ∧
    (∃ t, exec (.prbsClear l) s = .next t ∧ t.now.rd (laneKey l 9) = 0 ∧ t.now.rd (laneKey l 0x0A) = 0 ∧
      t.now.ser = s.now.ser ∧ t.now.hub = s.now.hub ∧ t.now.ddr = s.now.ddr) ∧
    Does (.injectSingle l) s (fun d =>
      (d.wr (laneKey l 0x0B) 1).setLane l { d.lane l with injected := (d.lane l).injected + 1, flip := true }) ∧
    (s.now.gzInjectOk k = true → Does (.gzInject k) s fun d => d.setLink k { d.link k with inject := true }) ∧
    (s.now.gzInjectOk k = false → Does (.gzInject k) s Dev.conflict) ∧
    (s.now.rd (unitKey 0x240001 k) = 4 → ∃ t, exec (.gzRetrain k) s = .next t ∧ t.now.rd (unitKey 0x240001 k) = 1 ∧
      (t.now.link k).retrained = true ∧ (t.now.link k).ready = false ∧ t.now.bit (unitKey 0x24000A k) 3 = true ∧
      t.now.ddr = s.now.ddr) ∧
    (s.now.rd (portKey h 1) ≠ 4 → s.now.rd (portKey h 1) ≠ 0 → ∃ t, exec (.portReadapt h) s = .next t ∧ t.now.rd (portKey h 1) = 1 ∧
      t.now.bit (portKey h 0x0A) 1 = true ∧ t.now.ddr = s.now.ddr)

/-- R617 to R619: in PRIMED, with no commit pending and no save under way, CFG_SAVE = 1 takes the applied values and shows
3; the save that completes becomes the stored configuration and shows 1; CFG_SAVE = 2 erases it and shows 0. Anywhere else
a write of CFG_SAVE has the status STATE_CONFLICT and does nothing. -/
def Obligations.StoredConfiguration : Prop :=
  ∀ (s : State),
    (s.now.state = .primed → s.now.qop.commit = none → s.now.rd 0x101003 ≠ 3 →
      (∃ t l, exec .cfgSave s = .next t ∧ t.now.rd 0x101003 = 3 ∧ t.now.qop.cfgSaving = some l ∧
        (∀ p ∈ s.now.objs, ∀ w, savedIdx (p.1 / 256) = true → objRow (p.1 / 256) (p.1 % 256) = some w →
          (w.acc = .rs ∨ w.acc = .rw) → { key := p.1, val := p.2, len := w.ty.bytes } ∈ l) ∧
        (∀ x ∈ l, savedIdx (x.key / 256) = true ∧ (x.key, x.val) ∈ s.now.objs) ∧
        (∀ key, key ≠ 0x101003 → t.now.rd key = s.now.rd key) ∧
        t.now.qop.cfg = s.now.qop.cfg ∧ t.now.hub = s.now.hub ∧ t.now.eas = s.now.eas ∧ t.now.ddr = s.now.ddr) ∧
      (∃ t, exec .cfgErase s = .next t ∧ t.now.rd 0x101003 = 0 ∧ t.now.qop.cfg = none ∧
        t.now.rd 0x101005 = 0 ∧ t.now.qop.cfgSaving = s.now.qop.cfgSaving ∧
        t.now.hub = s.now.hub ∧ t.now.eas = s.now.eas ∧ t.now.ddr = s.now.ddr)) ∧
    (s.now.state ≠ .primed ∨ s.now.qop.commit ≠ none ∨ s.now.rd 0x101003 = 3 →
      Does .cfgSave s Dev.conflict ∧ Does .cfgErase s Dev.conflict ∧
      ∀ v, v = 1 ∨ v = 2 → s.now.itemStatus { idx := 0x1010, sub := 1, len := 1, val := v } = stStateConflict) ∧
    (∀ l, s.now.qop.cfgSaving = some l → ∃ t, exec .cfgSaveComplete s = .next t ∧ t.now.rd 0x101003 = 1 ∧
      t.now.qop.cfg = some l ∧ t.now.qop.cfgSaving = none ∧ t.now.rd 0x101005 = savedWordCount ∧ t.now.hub = s.now.hub ∧ t.now.eas = s.now.eas ∧
      t.now.ddr = s.now.ddr)

/-- R661, R666: LEDGER_RELEASE removes a STOPPED job from the ledger and is rejected for any other; BB_RELEASE removes the
frozen record it names and leaves every other record. -/
def Obligations.LedgerAndBlackBoxRelease : Prop :=
  ∀ (s : State),
    (∀ (q : Nat) (j : Job), s.now.job q = some j → j.st = .stopped → Does (.ledgerRelease q) s fun d => d.leave q) ∧
    (∀ (q : Nat), ((s.now.job q).map (·.st)) ≠ some .stopped → Does (.ledgerRelease q) s Dev.conflict) ∧
    (∀ (no : Nat), (s.now.hub.bb.any fun r => r.no == no && r.frozen) = true →
      ∃ t, exec (.bbRelease no) s = .next t ∧
        t.now.hub.bb = (s.now.hub.bb.filter fun r => !(r.no == no && r.frozen)) ∧ t.now.hub.jobs = s.now.hub.jobs ∧
        t.now.ddr = s.now.ddr)

/-! ### Canvas operations -/

/-- A thread, or one of its paths, stands at an operation that it can dispatch now (R97, R112, R115), with its clock below
the 64 bits in which S2 holds a launch tick (R129). -/
def AtOp (d : Dev) (x : CtxRef) (op : COp) (c : Ctx) : Prop :=
  (d.thread x.n).ctx x.path = some c ∧ d.canIssue x c = true ∧ c.running = false ∧ c.wait.open = true ∧
    c.entry = false ∧ (d.thread x.n).trapDue = false ∧ (d.thread x.n).branching x.path = false ∧
    c.opAt c.cpc = some (encodeOp op) ∧ c.cursor ≤ d.epoch + d.lookahead x.n ∧ c.cursor < 2 ^ 63 ∧ d.shotTick x.n < 2 ^ 63

/-- The context has left the operation for the next entry (R108): the entry it stood at is gone from its queue. -/
def Fell (c c' : Ctx) : Prop :=
  c'.cpc = (c.cpc + 1) % 2 ^ 22 ∧ c'.queue = c.queue.filter (fun p => p.1 != c.cpc) ∧ c'.wait = .ready

/-- The command changes one context of one thread, and nothing else of the machine. -/
def DoesCtx (i : Instr) (s : State) (x : CtxRef) (c' : Ctx) : Prop := Does i s fun d => d.setCtx x c'

/-- R105, R182, R211: operations on the thread's own registers. NOP changes none; SETV writes and ADDV adds to one V
register; GRESET returns a generator to its start; GOTO goes to its entry; LOOP decrements V[VC] and goes to its target
while that is not zero. None changes CURSOR, and what they do not name stands. -/
def Obligations.RegisterOperations : Prop :=
  ∀ (s : State) (x : CtxRef) (c : Ctx) (h : Hdr),
    (AtOp s.now x (.nop h) c → ∃ c', DoesCtx (.opNop x h) s x c' ∧ Fell c c' ∧ c'.v = c.v ∧ c'.gens = c.gens ∧
      c'.cursor = c.cursor ∧ c'.issued = c.issued) ∧
    (∀ (vd : BitVec 4) (v : W32), AtOp s.now x (.setv h vd v) c → ∃ c', DoesCtx (.opSetv x h vd v) s x c' ∧ Fell c c' ∧
      c'.vr vd.toNat = v ∧ (∀ k, k ≠ vd.toNat → c'.vr k = c.vr k) ∧ c'.cursor = c.cursor ∧ c'.gens = c.gens) ∧
    (∀ (vd : BitVec 4) (v : W32), AtOp s.now x (.addv h vd v) c → ∃ c', DoesCtx (.opAddv x h vd v) s x c' ∧ Fell c c' ∧
      c'.vr vd.toNat = c.vr vd.toNat + v ∧ (∀ k, k ≠ vd.toNat → c'.vr k = c.vr k) ∧ c'.cursor = c.cursor ∧
      c'.gens = c.gens) ∧
    (∀ g : BitVec 5, AtOp s.now x (.greset h g) c → ∃ c', DoesCtx (.opGreset x h g) s x c' ∧ Fell c c' ∧
      tabGet (0, 0) c'.gens g.toNat = tabGet (0, 0) (s.now.thread x.n).genStart g.toNat ∧ c'.v = c.v ∧
      (∀ k, k ≠ g.toNat → tabGet (0, 0) c'.gens k = tabGet (0, 0) c.gens k) ∧ c'.cursor = c.cursor) ∧
    (∀ a : BitVec 22, AtOp s.now x (.goto h a) c → ∃ c', DoesCtx (.opGoto x h a) s x c' ∧ c'.cpc = a.toNat ∧
      c'.v = c.v ∧ c'.cursor = c.cursor ∧ c'.gens = c.gens ∧ c'.wait = .ready) ∧
    (∀ (vc : BitVec 4) (ofs : BitVec 16), AtOp s.now x (.loop h vc ofs) c → ∃ c', DoesCtx (.opLoop x h vc ofs) s x c' ∧
      c'.vr vc.toNat = c.vr vc.toNat - 1 ∧ (∀ k, k ≠ vc.toNat → c'.vr k = c.vr k) ∧ c'.cursor = c.cursor ∧
      (c.vr vc.toNat = 1 → c'.cpc = (c.cpc + 1) % 2 ^ 22) ∧
      (c.vr vc.toNat ≠ 1 → c'.cpc = (((c.cpc : Int) + ofs.toInt) % 2 ^ 22).toNat))

/-- R95, R98, R105, R106, R108: WAIT and WAITUNTIL move CURSOR to their tick unless it is later already; a BARRIER that
others have still to reach holds the thread; WAITEV before a firing holds it for its line; BRANCH with SK = 0 holds it for
its decision; END ends the canvas; a customer opcode starts its routine; an entry that the prefetcher wants comes in. -/
def Obligations.TimeAndHoldOperations : Prop :=
  ∀ (s : State) (x : CtxRef) (c : Ctx) (h : Hdr),
    (AtOp s.now x (.wait h) c → ∃ c', DoesCtx (.opWait x h) s x c' ∧ Fell c c' ∧ c'.v = c.v ∧
      c'.cursor = max c.cursor (s.now.launchTick x.n c h)) ∧
    (∀ t48 : W48, AtOp s.now x (.waituntil h t48) c → ∃ c', DoesCtx (.opWaituntil x h t48) s x c' ∧ Fell c c' ∧
      c'.v = c.v ∧ c'.cursor = max c.cursor (s.now.shotTick x.n + t48.toNat)) ∧
    (∀ (mask : BitVec 16) (m : Nat), AtOp s.now x (.barrier h mask) c → x.path = none → m ∈ maskThreads x.n mask.toNat →
      m ≠ x.n → (s.now.thread m).arrived = false →
      ∃ c', DoesCtx (.opBarrier x h mask) s x c' ∧ c'.wait = .barrier mask.toNat ∧ c'.cpc = c.cpc ∧ c'.cursor = c.cursor) ∧
    (∀ (mask : BitVec 16), AtOp s.now x (.barrier h mask) c → x.path = none → maskThreads x.n mask.toNat = [x.n] →
      (s.now.thread x.n).paths = [] → ∃ t, exec (.opBarrier x h mask) s = .next t ∧
        (t.now.thread x.n).main.cpc = (c.cpc + 1) % 2 ^ 22 ∧ (t.now.thread x.n).main.cursor = c.cursor ∧
        (t.now.thread x.n).main.wait = .ready ∧ ∀ m, m ≠ x.n → t.now.thread m = s.now.thread m) ∧
    (∀ e : BitVec 4, AtOp s.now x (.waitev h e) c → (s.now.lineSt (canvasLine x.n e.toNat)).lastFire ≠ some s.now.epoch →
      ∃ c' off, DoesCtx (.opWaitev x h e) s x c' ∧ c'.wait = .event (16 * (x.n / 64) + e.toNat) s.now.epoch off ∧
        off = (if h.vdt then (c.vr h.vix.toNat).toNat else h.dt.toNat) ∧ c'.cpc = c.cpc ∧ c'.cursor = c.cursor) ∧
    (∀ e : BitVec 4, AtOp s.now x (.waitev h e) c → (s.now.lineSt (canvasLine x.n e.toNat)).lastFire = some s.now.epoch →
      ∃ c', DoesCtx (.opWaitev x h e) s x c' ∧ Fell c c' ∧ c'.cursor = max c.cursor (s.now.epoch +
        (if h.vdt then (c.vr h.vix.toNat).toNat else h.dt.toNat))) ∧
    (∀ (dh : BitVec 4) (t0 t1 t2 t3 : BitVec 16), AtOp s.now x (.branch h dh false t0 t1 t2 t3) c →
      ∃ c' off, DoesCtx (.opBranchWait x h dh t0 t1 t2 t3) s x c' ∧
        c'.wait = .branch dh.toNat off (([t0, t1, t2, t3]).map c.target) none ∧ c'.cpc = c.cpc ∧ c'.cursor = c.cursor) ∧
    (AtOp s.now x (.endc h) c → x.path = none → ∃ t, exec (.opEnd x h) s = .next t ∧ (t.now.thread x.n).ended = true ∧
      (t.now.thread x.n).paths = [] ∧ (t.now.thread x.n).main.queue = [] ∧
      (t.now.thread x.n).launch = (s.now.thread x.n).launch.filter (fun e => e.path.isNone) ∧
      t.now.hub = s.now.hub ∧ t.now.ddr = s.now.ddr) ∧
    (∀ (k : BitVec 6) (f : BitVec 96), s.now.rd (0x444101 + k.toNat) ≠ 0 → AtOp s.now x (.customer h k f) c →
      ∃ c', DoesCtx (.customerOpcode x h k f) s x c' ∧ Fell c c' ∧ c'.running = true ∧
        c'.mic.mpc = s.now.rd (0x444101 + k.toNat) ∧ c'.pair 0 = encodeOp (.customer h k f) ∧
        c'.sr 2 = BitVec.ofNat 64 (s.now.launchTick x.n c h) ∧ c'.v = c.v ∧ c'.cursor = c.cursor) ∧
    (∀ a : BitVec 22, (s.now.thread x.n).ctx x.path = some c → (s.now.thread x.n).active = true →
      (s.now.thread x.n).ended = false → s.now.shotTick x.n ≤ s.now.epoch + 96 →
      (s.now.thread x.n).hasPlace c a.toNat (tabGet 0 s.now.eas.desc a.toNat) = true →
      c.wanted.contains a.toNat = true → c.opAt a.toNat = none → s.now.inRegion x.n 0 a.toNat = true →
      ∃ c', DoesCtx (.prefetch x a) s x c' ∧ c'.queue = c.queue ++ [(a.toNat, tabGet 0 s.now.eas.desc a.toNat)] ∧
        c'.cpc = c.cpc ∧ c'.cursor = c.cursor ∧ c'.v = c.v)

/-- R106, R309, R310: BRANCH with SK = 1 goes on at the target of a decision it already holds, and consumes it; without
one it opens one path for each distinct target, while two decisions and four paths allow it, and holds its own context
where it is; in a path, a third
decision or a fifth path makes it wait, with the flag of that set if the path commits. -/
def Obligations.SketchBranch : Prop :=
  ∀ (s : State) (x : CtxRef) (c : Ctx) (h : Hdr) (dh : BitVec 4) (t0 t1 t2 t3 : BitVec 16),
    AtOp s.now x (.branch h dh true t0 t1 t2 t3) c →
    (∀ r : DReg, x.path = none → (s.now.thread x.n).full c dh.toNat = some r →
      ∃ t, exec (.opBranchSketch x h dh t0 t1 t2 t3) s = .next t ∧
        (t.now.thread x.n).main.cpc = (([t0, t1, t2, t3]).map c.target).getD r.outcome 0 ∧
        (t.now.thread x.n).main.cursor = max c.cursor (s.now.launchTick x.n c h) ∧
        tabGet none (t.now.thread x.n).handles dh.toNat = none ∧ (t.now.thread x.n).paths = (s.now.thread x.n).paths) ∧
    ((s.now.thread x.n).full c dh.toNat = none → (s.now.thread x.n).branches.length < 2 →
      (s.now.thread x.n).paths.length + ((([t0, t1, t2, t3]).map c.target).dedup).length ≤ 4 →
      ∃ t b, exec (.opBranchSketch x h dh t0 t1 t2 t3) s = .next t ∧
        (t.now.thread x.n).branches = (s.now.thread x.n).branches ++ [b] ∧ b.h = dh.toNat ∧
        b.tb = max (s.now.launchTick x.n c h) c.cursor ∧ b.targets = ([t0, t1, t2, t3]).map c.target ∧
        (t.now.thread x.n).paths.length = (s.now.thread x.n).paths.length + (b.targets.dedup).length ∧
        (t.now.thread x.n).main.cpc = (s.now.thread x.n).main.cpc ∧
        (t.now.thread x.n).main.cursor = (s.now.thread x.n).main.cursor ∧
        (∀ m, m ≠ x.n → t.now.thread m = s.now.thread m) ∧ t.now.hub = s.now.hub ∧ t.now.ddr = s.now.ddr) ∧
    (∀ i : Nat, x.path = some i → (s.now.thread x.n).full c dh.toNat = none →
      (2 ≤ (s.now.thread x.n).branches.length ∨
        4 < (s.now.thread x.n).paths.length + ((([t0, t1, t2, t3]).map c.target).dedup).length) →
      ∃ t c', exec (.opBranchSketch x h dh t0 t1 t2 t3) s = .next t ∧ (t.now.thread x.n).ctx x.path = some c' ∧
        c'.wait = .branch dh.toNat 0 (([t0, t1, t2, t3]).map c.target) (some (max (s.now.launchTick x.n c h) c.cursor)) ∧
        c'.cpc = c.cpc ∧ c'.cursor = c.cursor ∧ c'.flags = c.flags ++ [(unitKey 0x400041 x.n, 0, 1)] ∧
        (t.now.thread x.n).branches = (s.now.thread x.n).branches ∧ (t.now.thread x.n).main = (s.now.thread x.n).main ∧
        (t.now.thread x.n).paths.length = (s.now.thread x.n).paths.length ∧ (∀ m, m ≠ x.n → t.now.thread m = s.now.thread m) ∧ t.now.ddr = s.now.ddr)

/-- The operations that issue one launch entry, with the kind of the entry and the word it carries (R116, R128). -/
def Issues (x : CtxRef) (c : Ctx) (h : Hdr) (i : Instr) (op : COp) (k : LKind) (w : W128) : Prop :=
  (w = entryBody k (encodeOp op) ∧
    ((∃ tgt gs a am po fr fi, i = .opPlay x h tgt false gs a am po fr fi ∧ op = .play h tgt false gs a am po fr fi ∧
        k = .stroke) ∨
     (∃ gs a am wl fr ks dt, i = .opRead x h false gs a am wl fr ks dt ∧ op = .read h false gs a am wl fr ks dt ∧
        k = .read) ∨
     (∃ tgt v, i = .opFluxhold x h tgt v ∧ op = .fluxhold h tgt v ∧ k = .fluxhold) ∨
     (∃ fr fk v, i = .opFshift x h fr fk v ∧ op = .fshift h fr fk v ∧ k = .frame) ∨
     (∃ fr fk v, i = .opFfreq x h fr fk v ∧ op = .ffreq h fr fk v ∧ k = .frame) ∨
     (∃ fr fk v, i = .opFphase x h fr fk v ∧ op = .fphase h fr fk v ∧ k = .frame) ∨
     (∃ sw, i = .opAcqtrig x h sw ∧ op = .acqtrig h sw ∧ k = .acqtrig) ∨
     (∃ m ts lv, i = .opMark x h m ts lv ∧ op = .mark h m ts lv ∧ k = .mark) ∨
     (∃ e, i = .opEvent x h e ∧ op = .event h e ∧ k = .event) ∨
     (∃ tgt a, i = .opJseg x h tgt a ∧ op = .jseg h tgt a ∧ k = .segjump))) ∨
  (∃ fr fk vs, i = .opFshiftv x h fr fk vs ∧ op = .fshiftv h fr fk vs ∧ k = .frame ∧
    w = entryBody .frame (encodeOp (.fshift h fr fk (BitVec.ofNat 48 ((c.vr vs.toNat).toNat * 2 ^ 16)))))

/-- R102, R116 to R119, R211: an operation that launches, dispatched in the thread's own context with room in the launch
queue, its tick within the lookahead, and not a repeat, enters the launch queue with its word; it launches at the tick it
asks for, or its lead after its arrival when that is later; the thread goes to the next entry. -/
def Obligations.LaunchOperations : Prop :=
  ∀ (s : State) (x : CtxRef) (c : Ctx) (h : Hdr) (i : Instr) (op : COp) (k : LKind) (w : W128),
    Issues x c h i op k w → x.path = none → AtOp s.now x op c →
    s.now.launchHold x.n (s.now.launchTick x.n c h) = none →
    c.issued.contains (k, s.now.launchTick x.n c h, w) = false →
    ∃ t e, exec i s = .next t ∧ (t.now.thread x.n).launch = (s.now.thread x.n).launch ++ [e] ∧ e.kind = k ∧ e.w = w ∧
      e.req = s.now.launchTick x.n c h ∧
      e.tick = (if e.req < s.now.epoch + k.lead then s.now.epoch + k.lead else e.req) ∧
      e.path = none ∧ Fell c (t.now.thread x.n).main ∧ (t.now.thread x.n).main.v = c.v ∧
      c.cursor ≤ (t.now.thread x.n).main.cursor ∧ (k ≠ .stroke → k ≠ .read → (t.now.thread x.n).main.cursor = c.cursor) ∧
      (∀ m, m ≠ x.n → t.now.thread m = s.now.thread m) ∧ t.now.out = s.now.out ∧ t.now.objs = s.now.objs ∧
      t.now.hub = s.now.hub ∧ t.now.ddr = s.now.ddr

/-- R103, R177: a PLAY or READ with GEN = 1 takes its descriptor address from the step of its generator, which moves on
by one, and else is as with that address in its field. -/
def Obligations.GeneratedAddress : Prop :=
  ∀ (s : State) (x : CtxRef) (c : Ctx) (h : Hdr) (g : BitVec 5) (df : GenDef) (i : Instr) (op op' : COp) (k : LKind),
    s.now.genDef x.n g.toNat = some df → x.path = none → AtOp s.now x op c →
    ((∃ tgt a am po fr fi, i = .opPlay x h tgt true g a am po fr fi ∧ op = .play h tgt true g a am po fr fi ∧ k = .stroke ∧
        op' = .play h tgt false g (BitVec.ofNat 22 (genAddr df (tabGet (0, 0) c.gens g.toNat).1
          (tabGet (0, 0) c.gens g.toNat).2)) am po fr fi) ∨
     (∃ a am wl fr ks dt, i = .opRead x h true g a am wl fr ks dt ∧ op = .read h true g a am wl fr ks dt ∧ k = .read ∧
        op' = .read h false g (BitVec.ofNat 22 (genAddr df (tabGet (0, 0) c.gens g.toNat).1
          (tabGet (0, 0) c.gens g.toNat).2)) am wl fr ks dt)) →
    s.now.launchHold x.n (s.now.launchTick x.n c h) = none →
    c.issued.contains (k, s.now.launchTick x.n c h, entryBody k (encodeOp op')) = false →
    ∃ t e, exec i s = .next t ∧ (t.now.thread x.n).launch = (s.now.thread x.n).launch ++ [e] ∧
      e.w = entryBody k (encodeOp op') ∧ e.kind = k ∧ Fell c (t.now.thread x.n).main ∧
      tabGet (0, 0) (t.now.thread x.n).main.gens g.toNat =
        (((tabGet (0, 0) c.gens g.toNat).1 + 1) % 2 ^ 32, genNext df (tabGet (0, 0) c.gens g.toNat).2) ∧
      (∀ j, j ≠ g.toNat → tabGet (0, 0) (t.now.thread x.n).main.gens j = tabGet (0, 0) c.gens j) ∧
      t.now.objs = s.now.objs ∧ t.now.hub = s.now.hub ∧ t.now.ddr = s.now.ddr

/-! ### Microwords, services and traps -/

/-- A context stands at a word of the control store that it can issue now (R113 to R116, R130, R140). -/
def AtWord (d : Dev) (x : CtxRef) (w : W192) (c : Ctx) : Prop :=
  (d.thread x.n).ctx x.path = some c ∧ d.canIssue x c = true ∧ c.running = true ∧ c.svc = none ∧ c.waitc = none ∧
    c.wait.open = true ∧ (d.thread x.n).branching x.path = false ∧ w = d.storeWord c.mic.mpc ∧
    (mf w 115 115 = 1 ∨ c.entry = true → (d.thread x.n).trapDue = false)

/-- The fetch of a word, right or with one bit wrong, changes one context; the wrong bit is corrected and sets
CS_CORRECTED of the easel (R139). -/
def DoesFetched (s : State) (x : CtxRef) (w : W192) (c' : Ctx) : Prop :=
  ∀ f : W192, (microDiff f w = 0 → DoesCtx (.microword x f) s x c') ∧
    (microDiff f w = 1 → Does (.microword x f) s fun d =>
      (d.flag (unitKey 0x440004 (d.runEasel x.n)) 0).setCtx x c')

/-- The word has no memory operation, no launch and no change of CURSOR. -/
def Plain (w : W192) : Prop := mf w 85 82 = 0 ∧ mf w 99 96 = 0 ∧ mf w 113 110 = 0

/-- R122, R125 to R127, R139: a plain word with SEQ STEP writes its ALU result to the S, V or ML register that DST names
and to nothing else of them; FW alone makes it write Z, N, CY and OV (their open values: log entry 16); CMP writes flags and
no register; the micro-PC goes to PC + 1 (after the last customer word: log entry 138). A word fetched with one wrong bit does the same, with CS_CORRECTED; one with more
does nothing. -/
def Obligations.MicrowordAlu : Prop :=
  ∀ (s : State) (x : CtxRef) (c : Ctx) (w : W192) (r : W64), AtWord s.now x w c → Plain w → mf w 19 16 = 0 →
    aluResult (mf w 33 28) (s.now.operand x.n c w (mf w 38 34)) (s.now.operand x.n c w (mf w 43 39))
      (s.now.operand x.n c w (mf w 48 44)) = some r →
    (∀ f : W192, 1 < microDiff f w → Does (.microword x f) s id) ∧
    ∃ c', DoesFetched s x w c' ∧ c'.mic.mpc = mpcNext c.mic.mpc % 2 ^ 14 ∧ c'.running = true ∧
      c'.cpc = c.cpc ∧ c'.cursor = c.cursor ∧ c'.gens = c.gens ∧ c'.issued = c.issued ∧ c'.queue = c.queue ∧
      (mf w 33 28 ≠ 0x10 → mf w 48 44 < 8 → c'.sr (mf w 48 44) = r ∧ c'.v = c.v ∧ c'.mic.ml = c.mic.ml ∧
        ∀ k, k ≠ mf w 48 44 → c'.sr k = c.sr k) ∧
      (mf w 33 28 ≠ 0x10 → 8 ≤ mf w 48 44 → mf w 48 44 < 0x18 → c'.vr (mf w 48 44 - 8) = r.setWidth 32 ∧
        c'.mic.s = c.mic.s ∧ c'.mic.ml = c.mic.ml ∧ ∀ k, k ≠ mf w 48 44 - 8 → c'.vr k = c.vr k) ∧
      (mf w 33 28 ≠ 0x10 → 0x18 ≤ mf w 48 44 → mf w 48 44 < 0x1C →
        tabGet 0 c'.mic.ml (mf w 48 44 - 0x18) = r.setWidth 16 ∧ c'.v = c.v ∧ c'.mic.s = c.mic.s ∧
        ∀ k, k ≠ mf w 48 44 - 0x18 → tabGet 0 c'.mic.ml k = tabGet 0 c.mic.ml k) ∧
      (mf w 33 28 = 0x10 ∨ 0x1C ≤ mf w 48 44 → c'.v = c.v ∧ c'.mic.s = c.mic.s ∧ c'.mic.ml = c.mic.ml) ∧
      (mf w 33 28 = 0x10 ∨ mf w 49 49 = 1 → c'.mic.z = (r == 0) ∧ c'.mic.n = r.msb ∧
        c'.mic.cy = aluCarry (mf w 33 28) (s.now.operand x.n c w (mf w 38 34)) (s.now.operand x.n c w (mf w 43 39)) ∧
        c'.mic.ov = aluOverflow (mf w 33 28) (s.now.operand x.n c w (mf w 38 34)) (s.now.operand x.n c w (mf w 43 39))) ∧
      (mf w 33 28 ≠ 0x10 → mf w 49 49 = 0 → c'.mic.z = c.mic.z ∧ c'.mic.n = c.mic.n ∧ c'.mic.cy = c.mic.cy ∧
        c'.mic.ov = c.mic.ov)

/-- R123, R124: the next word. With no ALU result: GOTO and a taken BR go to NEXT, a BR not taken to PC + 1; CALL pushes
PC + 1; RET pops; LOOP decrements its ML register; DISPATCH ends the routine; CALLS calls a service; a CALL at depth 2 is
a program fault that ends the canvas; a WAITC whose condition does not hold blocks, and is released to NEXT when it does. -/
def Obligations.MicrowordSequence : Prop :=
  ∀ (s : State) (x : CtxRef) (c : Ctx) (w : W192), Plain w → mf w 33 28 = 0 →
    (AtWord s.now x w c →
      (mf w 19 16 = 1 → ∃ c', DoesFetched s x w c' ∧ c'.mic.mpc = mf w 15 2 ∧ c'.mic.rstack = c.mic.rstack) ∧
      (mf w 19 16 = 2 → mf w 24 20 = 1 → mf w 25 25 = 0 → ∃ c', DoesFetched s x w c' ∧
        c'.mic.mpc = if c.mic.z then mf w 15 2 else mpcNext c.mic.mpc % 2 ^ 14) ∧
      (mf w 19 16 = 3 → c.mic.rstack.length < 2 → ∃ c', DoesFetched s x w c' ∧ c'.mic.mpc = mf w 15 2 ∧
        c'.mic.rstack = mpcNext c.mic.mpc :: c.mic.rstack) ∧
      (∀ a l, mf w 19 16 = 4 → c.mic.rstack = a :: l → ∃ c', DoesFetched s x w c' ∧ c'.mic.mpc = a ∧
        c'.mic.rstack = l) ∧
      (mf w 19 16 = 5 → ∃ c', DoesFetched s x w c' ∧
        tabGet 0 c'.mic.ml (mf w 27 26) = tabGet 0 c.mic.ml (mf w 27 26) - 1 ∧
        c'.mic.mpc = if tabGet 0 c.mic.ml (mf w 27 26) = 1 then mpcNext c.mic.mpc % 2 ^ 14 else mf w 15 2) ∧
      (mf w 19 16 = 6 → ∃ c', DoesFetched s x w c' ∧ c'.running = false ∧ c'.cpc = c.cpc ∧
        c'.queue = c.queue) ∧
      (mf w 19 16 = 7 → c.mic.rstack.length < 2 → ∃ c', DoesFetched s x w c' ∧ c'.svc = some (mf w 15 2 % 64) ∧
        c'.mic.rstack = mpcNext c.mic.mpc :: c.mic.rstack) ∧
      (mf w 19 16 = 3 → x.path = none → 2 ≤ c.mic.rstack.length → ∀ f : W192, microDiff f w ≤ 1 →
        ∃ t, exec (.microword x f) s = .next t ∧
        (t.now.thread x.n).ended = true ∧ t.now.bit (unitKey 0x400007 x.n) 6 = true) ∧
      (mf w 19 16 = 8 → mf w 24 20 = 8 → mf w 25 25 = 0 →
        ((s.now.thread x.n).full c ((c.sr 3).toNat % 16)) = none →
        ∃ c', DoesFetched s x w c' ∧ c'.waitc = some w ∧ c'.wait = .service ((c.sr 3).toNat % 16) ∧
          c'.mic = c.mic)) ∧
    ((s.now.thread x.n).ctx x.path = some c → c.waitc = some w → s.now.canIssue x c = true → mf w 19 16 = 8 →
      mf w 24 20 = 8 → mf w 25 25 = 0 → ((s.now.thread x.n).full c ((c.sr 3).toNat % 16)).isSome = true →
      ∃ c', DoesCtx (.waitcRelease x) s x c' ∧ c'.waitc = none ∧ c'.mic.mpc = mf w 15 2 ∧ c'.v = c.v)

/-- R145: a vendor service returns its value in S3 to the word after its CALLS. RECIP gives ⌊2^32 ÷ x⌋ (log entry 11 at 0),
FRAME_READ the virtual phase of a frame of the thread, WAIT_DECISION the outcome of a decision that it consumes; SINCOS
returns the cosine and the sine of its phase in Q2.14, exact at the quarter turns; only the rounding elsewhere is free
(log entry 11). A word that a vendor routine fetches with one wrong bit sets CS_CORRECTED (log entry 139). -/
def Obligations.VendorServices : Prop :=
  ∀ (s : State) (x : CtxRef) (c : Ctx), (s.now.thread x.n).ctx x.path = some c → s.now.canIssue x c = true →
    (∀ f : W192, c.running = false → c.mic.mpc < 0x3000 → microDiff f (s.now.storeWord c.mic.mpc) = 1 →
      Does (.microword x f) s fun d => d.flag (unitKey 0x440004 (d.runEasel x.n)) 0) ∧
    (c.svc = some 1 → ∃ c', DoesCtx (.sincos x) s x c' ∧ c'.svc = none ∧ c'.mic.mpc = c.mic.rstack.headD 0 ∧
      c'.mic.rstack = c.mic.rstack.drop 1 ∧ c'.sr 3 = sincosWord ((c.sr 3).setWidth 32) ∧ c'.v = c.v ∧
      ((c.sr 3).setWidth 32 = (0 : W32) → c'.sr 3 = 0x4000) ∧
      ((c.sr 3).setWidth 32 = (0x40000000 : W32) → c'.sr 3 = 0x40000000) ∧
      ((c.sr 3).setWidth 32 = (0x80000000 : W32) → c'.sr 3 = 0xC000) ∧
      ((c.sr 3).setWidth 32 = (0xC0000000 : W32) → c'.sr 3 = 0xC0000000)) ∧
    (c.svc = some 2 → ∃ c', DoesCtx (.recip x) s x c' ∧ c'.svc = none ∧ c'.mic.mpc = c.mic.rstack.headD 0 ∧
      c'.v = c.v ∧ ((c.sr 3).toNat % 2 ^ 32 ≠ 0 → c'.sr 3 = BitVec.ofNat 64 (2 ^ 32 / ((c.sr 3).toNat % 2 ^ 32)))) ∧
    (c.svc = some 3 → x.path = none → ∃ c', DoesCtx (.frameRead x) s x c' ∧ c'.svc = none ∧
      c'.mic.mpc = c.mic.rstack.headD 0 ∧ c'.v = c.v ∧ c'.sr 3 =
        ((s.now.frame (8 * x.n + (4 * bits (c.sr 3).toNat 2 2 + (c.sr 3).toNat % 4))).vph).zeroExtend 64) ∧
    (∀ r : DReg, c.svc = some 0 → x.path = none → (s.now.thread x.n).full c ((c.sr 3).toNat % 16) = some r →
      ∃ t, exec (.waitDecision x) s = .next t ∧ (t.now.thread x.n).main.svc = none ∧
        (t.now.thread x.n).main.sr 3 = BitVec.ofNat 64 r.outcome ∧
        tabGet none (t.now.thread x.n).handles ((c.sr 3).toNat % 16) = none ∧
        ∀ m, m ≠ x.n → t.now.thread m = s.now.thread m) ∧
    (c.svc = some 0 → (s.now.thread x.n).full c ((c.sr 3).toNat % 16) = none →
      ∃ c', DoesCtx (.waitDecision x) s x c' ∧ c'.wait = .service ((c.sr 3).toNat % 16) ∧ c'.svc = some 0 ∧ c'.mic = c.mic)

/-- R99, R130 to R139, R323: traps. A pending SNAPSHOT is taken at a trap point: the checkpoint of the point is stored, the
thread's frame is saved, its object shows it, and its count goes up; TRET restores the micro-state of the frame, and takes what has
waited, the highest code first: a SNAPSHOT at a trap point before a DRAIN; DATAPATH restores the last checkpoint of a routine under
way, at a trap point that of the point, and enters its handler, or stays pending in another handler; an uncorrectable word holds the
context until it is restored, and a restore that succeeds releases it. A trap taken in a sketch path enters its handler too, and its
frame, with bit 4, is held with the path. A trap that stays pending is a program fault; a thread that passes SHOT_LIMIT is drained,
after a SNAPSHOT that it stands at. -/
def Obligations.Traps : Prop :=
  ∀ (s : State) (n : Nat),
    ((s.now.thread n).active = true → (s.now.thread n).ended = false → (s.now.thread n).inTrap = none →
      (s.now.thread n).trapDue = true → (s.now.thread n).main.csBlock = false → s.now.atTrapPoint n = true →
      ∃ t, exec (.trapEntry n) s = .next t ∧
        (t.now.thread n).inTrap = some { cause := 2, path := none, mic := (s.now.thread n).main.mic } ∧
        (t.now.thread n).main = { (s.now.thread n).main with
          chk := some ((s.now.thread n).main.mic, (s.now.thread n).main.gens) } ∧ t.now.rd (unitKey 0x400008 n) =
          ofLe (trapFrame n (s.now.runEasel n) 2 s.now.epoch ((s.now.thread n).trapCount + 1) false (s.now.thread n).main) ∧
        (t.now.thread n).trapCount = (s.now.thread n).trapCount + 1 ∧ 2 ∉ (t.now.thread n).traps ∧
        (∀ m, m ≠ n → t.now.thread m = s.now.thread m) ∧ t.now.hub = s.now.hub ∧ t.now.ddr = s.now.ddr) ∧
    (∀ f c, (s.now.thread n).inTrap = some f → (s.now.thread n).ctx f.path = some c → c.csBlock = false →
      (s.now.thread n).traps = [] → Does (.tret n) s fun d =>
        d.setThread n ({ d.thread n with inTrap := none }.setCtx f.path { c with mic := f.mic })) ∧
    (∀ f, (s.now.thread n).inTrap = some f → f.path = none → (s.now.thread n).main.csBlock = false →
      ((s.now.thread n).traps = [1] → ∃ t, exec (.tret n) s = .next t ∧ (t.now.thread n).ended = true ∧
        (t.now.thread n).inTrap = none ∧ (t.now.thread n).traps = [] ∧ t.now.hub = s.now.hub ∧ t.now.ddr = s.now.ddr) ∧
      ((s.now.thread n).traps = [1, 2] → (s.now.thread n).branches = [] →
        s.now.atPoint { (s.now.thread n).main with mic := f.mic } = true →
        ∃ t, exec (.tret n) s = .next t ∧ (t.now.thread n).inTrap = some { cause := 2, path := none, mic := f.mic } ∧
          (t.now.thread n).ended = (s.now.thread n).ended ∧ (t.now.thread n).traps = [1] ∧ t.now.hub = s.now.hub ∧
          t.now.ddr = s.now.ddr)) ∧
    (∀ f, (s.now.thread n).active = true → (s.now.thread n).ended = false → (s.now.thread n).inTrap = some f →
      0x10 ∉ (s.now.thread n).traps → Does (.datapath { n := n, path := none }) s fun d =>
        d.setThread n { d.thread n with traps := (d.thread n).traps ++ [0x10] }) ∧
    (∀ k : Micro × Tab (Nat × Nat), (s.now.thread n).active = true → (s.now.thread n).ended = false → (s.now.thread n).inTrap = none →
      (s.now.atPoint (s.now.thread n).main = false → (s.now.thread n).main.running = true → (s.now.thread n).main.chk = some k) →
      (s.now.atPoint (s.now.thread n).main = true → k = ((s.now.thread n).main.mic, (s.now.thread n).main.gens)) →
      (s.now.thread n).main.running = true →
      ∃ t, exec (.datapath { n := n, path := none }) s = .next t ∧
        (t.now.thread n).inTrap = some { cause := 0x10, path := none, mic := k.1 } ∧
        (t.now.thread n).main.mic = k.1 ∧ (t.now.thread n).main.gens = k.2 ∧ (t.now.thread n).main.chk = some k ∧
        (t.now.thread n).main.v = (s.now.thread n).main.v ∧ (t.now.thread n).main.cursor = (s.now.thread n).main.cursor ∧
        t.now.bit (unitKey 0x400007 n) 2 = true ∧ t.now.ddr = s.now.ddr) ∧
    (∀ i c, (s.now.thread n).active = true → (s.now.thread n).ended = false → (s.now.thread n).inTrap = none →
      (s.now.thread n).ctx (some i) = some c → s.now.atPoint c = true →
      ∃ t c', exec (.datapath { n := n, path := some i }) s = .next t ∧ (t.now.thread n).ctx (some i) = some c' ∧
        (t.now.thread n).inTrap = some { cause := 0x10, path := some i, mic := c.mic } ∧ c'.mic = c.mic ∧ c'.gens = c.gens ∧
        (t.now.thread n).trapCount = (s.now.thread n).trapCount ∧
        t.now.rd (unitKey 0x400008 n) = s.now.rd (unitKey 0x400008 n) ∧
        (∃ fr k, c'.flags = c.flags ++ [(unitKey 0x400007 n, 2, 1), (2, fr, 1)] ∧
          fr = ofLe (trapFrame n (s.now.runEasel n) 0x10 s.now.epoch k true c)) ∧
        t.now.bit (unitKey 0x440004 (s.now.runEasel n)) 2 = true ∧ t.now.ddr = s.now.ddr) ∧
    ((s.now.thread n).active = true → (s.now.thread n).ended = false → (s.now.thread n).inTrap = none →
      (s.now.thread n).main.csBlock = false →
      ∃ t, exec (.csUncorrectable { n := n, path := none }) s = .next t ∧ (t.now.thread n).main.csBlock = true ∧
        (t.now.thread n).inTrap = some { cause := 0x11, path := none, mic := (s.now.thread n).main.mic } ∧
        t.now.bit (unitKey 0x440004 (s.now.runEasel n)) 1 = true ∧
        (t.now.thread n).trapCount = (s.now.thread n).trapCount + 1 ∧ t.now.ddr = s.now.ddr) ∧
    (∀ (x : CtxRef) (c : Ctx), (s.now.thread x.n).ctx x.path = some c → c.csBlock = true →
      DoesCtx (.csRestoreComplete x true) s x { c with csBlock := false }) ∧
    ((s.now.thread n).active = true → (s.now.thread n).ended = false → (s.now.thread n).inTrap = none →
      (s.now.thread n).traps ≠ [] →
      ∃ t, exec (.watchdog n) s = .next t ∧ (t.now.thread n).ended = true ∧
        t.now.bit (unitKey 0x400007 n) 4 = true ∧ t.now.ddr = s.now.ddr) ∧
    (∀ j : Job, s.now.jobOfThread n = some j → (s.now.thread n).active = true → (s.now.thread n).ended = false →
      (s.now.thread n).inTrap = none → j.phase = .shot → j.shotStart + j.head.shotLimit ≤ s.now.epoch →
      ∃ t, exec (.overrun n) s = .next t ∧ t.now.bit (unitKey 0x400007 n) 5 = true ∧ t.now.ddr = s.now.ddr ∧
        (((s.now.thread n).trapDue && s.now.atTrapPoint n) = false → (t.now.thread n).ended = true) ∧
        (((s.now.thread n).trapDue && s.now.atTrapPoint n) = true → (t.now.thread n).ended = false ∧
          1 ∈ (t.now.thread n).traps))

/-! ### Launches, strokes, frames, markers and streams -/

/-- An entry of a kind is the next to launch on a thread, in time for its lead (R117, R118). -/
def EntryDue (d : Dev) (n : Nat) (k : LKind) (e : LEntry) : Prop :=
  (d.thread n).dueEntry k d.epoch = some e ∧ e.late = false

/-- An entry has left the launch queue of its thread, and no other thread changed. -/
def Launched (s t : State) (n : Nat) (e : LEntry) : Prop :=
  (t.now.thread n).launch = (s.now.thread n).launch.filter (fun a => a != e) ∧
    (t.now.thread n).main = (s.now.thread n).main ∧ (∀ m, m ≠ n → t.now.thread m = s.now.thread m) ∧
    t.now.ddr = s.now.ddr

/-- R105, R164 to R166, R261 to R263: a STROKE starts on the free target that it names, from its launch tick to the end of
its chain, with its AMP, POFS, FRAME and FINE; a READ starts its tone and places a window of WLEN ÷ 2 samples, rounded
up, whose SEQ counts the READs of its DTAG. -/
def Obligations.StrokeAndReadLaunch : Prop :=
  ∀ (s : State) (n : Nat) (e : LEntry),
    (∀ tgt : Target, EntryDue s.now n .stroke e → s.now.targetOf n (fld e.w 35 32) = some tgt → s.now.stroke tgt = none →
      ∃ t k, exec (.strokeLaunch n) s = .next t ∧ Launched s t n e ∧ t.now.stroke tgt = some k ∧ k.n = n ∧
        k.start = e.tick ∧ k.endTick = (s.now.chain n (fld e.w 63 42) e.tick).2 ∧
        k.plays = (s.now.chain n (fld e.w 63 42) e.tick).1 ∧ k.amp = fld e.w 79 64 ∧ k.pofs = fld e.w 95 80 ∧
        k.frame = fld e.w 97 96 ∧ k.fine = fld e.w 102 98 ∧ k.isRead = false ∧
        (∀ u, u ≠ tgt → targetKey u ≠ targetKey tgt → t.now.stroke u = s.now.stroke u)) ∧
    (∀ (slot : Nat) (j : Job), EntryDue s.now n .read e → s.now.targetOf n 1 = some (.rtone slot) →
      s.now.jobOfThread n = some j → s.now.stroke (.rtone slot) = none →
      ∃ t k w, exec (.readLaunch n) s = .next t ∧ (t.now.thread n).launch = (s.now.thread n).launch.filter (fun a => a != e) ∧
        t.now.stroke (.rtone slot) = some k ∧ k.start = e.tick ∧ k.isRead = true ∧ k.n = n ∧
        (t.now.slotRx slot).wins = (s.now.slotRx slot).wins ++ [w] ∧ w.n = n ∧ w.launch = e.tick ∧ w.job = j.seq ∧
        w.shot = j.shot ∧ w.ksel = fld e.w 101 98 ∧ w.dtag = fld e.w 109 102 ∧ w.count = ceilDiv (fld e.w 95 80) 2 ∧
        w.seq = tabGet 0 (s.now.thread n).reads (fld e.w 109 102) % 16 ∧ w.opened = false ∧
        tabGet 0 (t.now.thread n).reads (fld e.w 109 102) = tabGet 0 (s.now.thread n).reads (fld e.w 109 102) + 1 ∧
        t.now.ddr = s.now.ddr)

/-- R105, R211, R232, R233, R331, R476: FLUXHOLD sets the hold value of its channel, which HOLD_NOW shows; a frame update
changes FREQ or VPH of one frame; MARK schedules its change 18 ticks after its launch plus its timing offset, in the place
that its path had taken where there is one, and a change that would be the ninth is discarded with its flag; EVENT produces its canvas line;
ACQTRIG meets its condition on the enabled channels of the tile, 18 ticks after its launch. -/
def Obligations.OtherLaunches : Prop :=
  ∀ (s : State) (n : Nat) (e : LEntry),
    (∀ c, EntryDue s.now n .fluxhold e → s.now.targetOf n (fld e.w 35 32) = some (.flux c) →
      ∃ t, exec (.fluxholdLaunch n) s = .next t ∧ Launched s t n e ∧ (t.now.fluxSt c).hold = sext 16 (fld e.w 63 48) ∧
        t.now.rd (unitKey 0x340004 c) = toU 16 (sext 16 (fld e.w 63 48)) ∧
        (t.now.fluxSt c).code = (s.now.fluxSt c).code ∧ (∀ b, b ≠ c → t.now.fluxSt b = s.now.fluxSt b)) ∧
    (EntryDue s.now n .frame e → ∃ t, exec (.frameLaunch n) s = .next t ∧ Launched s t n e ∧
      (∀ i, i ≠ frameIdx n (fld e.w 34 34) (fld e.w 33 32) → t.now.frame i = s.now.frame i) ∧
      let f := s.now.frame (frameIdx n (fld e.w 34 34) (fld e.w 33 32))
      let g := t.now.frame (frameIdx n (fld e.w 34 34) (fld e.w 33 32))
      (fld e.w 7 0 = 0x08 → g.freq = f.freq ∧ g.vph = f.vph + BitVec.ofNat 48 (fld e.w 95 48)) ∧
      (fld e.w 7 0 = 0x09 → g.freq = BitVec.ofNat 48 (fld e.w 95 48) ∧ g.vph = f.vph) ∧
      (fld e.w 7 0 = 0x0A → g.freq = f.freq ∧ g.vph = BitVec.ofNat 48 (fld e.w 95 48))) ∧
    (∀ m, EntryDue s.now n .mark e → m = 8 * tileOf n + fld e.w 34 32 →
      ((∀ c ∈ (s.now.marker m).changes, c.n = n → c.ord ≠ e.ord) → (s.now.marker m).changes.length < 8 →
        ∃ t c, exec (.markLaunch n) s = .next t ∧ Launched s t n e ∧
          (t.now.marker m).changes = (s.now.marker m).changes ++ [c] ∧
          c.level = (fld e.w 38 38 == 1) ∧ c.n = n ∧ c.ord = e.ord ∧ c.path = none ∧
          c.step = 128 * (e.tick + 18) + (if fld e.w 38 38 = 1
            then bits (s.now.rd (objKey (0x3A00 + m) (1 + fld e.w 37 35))) 10 0
            else bits (s.now.rd (objKey (0x3A00 + m) (1 + fld e.w 37 35))) 22 12)) ∧
      ((∃ c ∈ (s.now.marker m).changes, c.n = n ∧ c.ord = e.ord) →
        ∃ t, exec (.markLaunch n) s = .next t ∧ Launched s t n e ∧ (t.now.marker m).changes =
          (s.now.marker m).changes.map fun c => if c.n = n ∧ c.ord = e.ord then s.now.markChange n e else c) ∧
      ((∀ c ∈ (s.now.marker m).changes, c.n = n → c.ord ≠ e.ord) → 8 ≤ (s.now.marker m).changes.length →
        ∃ t, exec (.markLaunch n) s = .next t ∧ Launched s t n e ∧
          (t.now.marker m).changes = (s.now.marker m).changes ∧ t.now.bit (objKey (0x3A00 + m) 0x0C) 2 = true)) ∧
    (EntryDue s.now n .event e → s.now.rdB (objKey (0x7000 + canvasLine n (fld e.w 35 32)) 5) = true → s.now.state ≠ .asleep →
      ∃ t, exec (.eventLaunch n) s = .next t ∧ Launched s t n e ∧ t.now.ev.causes = s.now.ev.causes ++
        [{ line := canvasLine n (fld e.w 35 32), tick := s.now.epoch }]) ∧
    (∀ c, EntryDue s.now n .acqtrig e → c / 16 = tileOf n → s.now.bit (unitKey 0x51000A c) (fld e.w 34 32) = true →
      s.now.acqState c = 1 → ∃ t, exec (.acqtrigLaunch n) s = .next t ∧ Launched s t n e ∧
        (t.now.acqSt c).conds = (s.now.acqSt c).conds ++ [(fld e.w 34 32, e.tick + 18)])

/-- R168 to R171, R164: a segment jump that finds a boundary is latched on the thread's playing stroke; from that boundary on
the stroke plays the new chain; a stroke past its end leaves its target; one that is late for a jump is flagged. -/
def Obligations.StrokesGoOn : Prop :=
  ∀ (s : State) (n : Nat) (e : LEntry) (tgt : Target) (k : Stroke), s.now.stroke tgt = some k →
    (∀ b, EntryDue s.now n .segjump e → s.now.targetOf n (fld e.w 35 32) = some tgt → k.n = n → e.tick < k.endTick →
      k.nextBoundary (e.tick + 12) = some b → k.jump = none →
      ∃ t, exec (.segjumpLaunch n) s = .next t ∧ Launched s t n e ∧
        t.now.stroke tgt = some { k with jump := some { daddr := fld e.w 63 42, at_ := e.tick, boundary := b } }) ∧
    (EntryDue s.now n .segjump e → s.now.targetOf n (fld e.w 35 32) = some tgt → k.endTick ≤ e.tick →
      ∃ t, exec (.segjumpLaunch n) s = .next t ∧ Launched s t n e ∧ t.now.stroke tgt = some k ∧
        t.now.bit (strokeFlags n) 4 = true) ∧
    (∀ j, k.jump = some j → j.boundary ≤ s.now.epoch →
      ∃ t k', exec (.jumpEffect tgt) s = .next t ∧ t.now.stroke tgt = some k' ∧ k'.jump = none ∧
        k'.endTick = (s.now.chain k.n j.daddr j.boundary).2 ∧ k'.start = k.start ∧ k'.amp = k.amp ∧
        t.now.eas = s.now.eas ∧ t.now.ddr = s.now.ddr) ∧
    (k.jump = none → k.endTick ≤ s.now.epoch → ∃ t, exec (.strokeEnd tgt) s = .next t ∧ t.now.stroke tgt = none ∧
      (∀ u, targetKey u ≠ targetKey tgt → t.now.stroke u = s.now.stroke u) ∧ t.now.eas = s.now.eas ∧ t.now.ddr = s.now.ddr)

/-- R233 to R237: of one scheduled change whose step has come the marker takes the level. A level that it holds already makes
no edge; an edge less than 48 steps after the last one waits, flagged, until 48 steps after it, and comes when the changes before
that step have. The return to IDLE_LEVEL, once every change of the boundary's threads has landed, comes at the later of its
own step and 48 steps after the last edge. -/
def Obligations.MarkerEdges : Prop :=
  ∀ (s : State) (m : Nat),
    (∀ c : MChange, (s.now.marker m).changes = [c] → c.path = none → c.step / 128 ≤ s.now.epoch →
      (s.now.marker m).moved = [] →
      ∃ t, exec (.markerEdge m) s = .next t ∧ (t.now.marker m).changes = [] ∧
        (s.now.markerLevel m = c.level → t.now.markerLevel m = c.level ∧ (t.now.marker m).moved = [] ∧
          (t.now.marker m).lastEdge = (s.now.marker m).lastEdge) ∧
        (s.now.markerLevel m ≠ c.level → (∀ l, (s.now.marker m).lastEdge = some l → l + 48 ≤ c.step) →
          t.now.markerLevel m = c.level ∧ (t.now.marker m).moved = [] ∧ (t.now.marker m).lastEdge = some c.step) ∧
        (∀ l, s.now.markerLevel m ≠ c.level → (s.now.marker m).lastEdge = some l → c.step < l + 48 →
          t.now.bit (objKey (0x3A00 + m) 0x0C) 0 = true ∧ t.now.markerLevel m = s.now.markerLevel m ∧
          (t.now.marker m).moved = [(l + 48, c.level)] ∧ (t.now.marker m).lastEdge = some l) ∧
        (∀ b, b ≠ m → t.now.marker b = s.now.marker b) ∧ t.now.eas = s.now.eas ∧ t.now.hub = s.now.hub ∧
        t.now.ddr = s.now.ddr) ∧
    (∀ (b : Nat × List Nat) (bs : List (Nat × List Nat)), (s.now.marker m).idleAt = b :: bs → (s.now.marker m).moved = [] →
      (∀ c ∈ (s.now.marker m).changes, c.n ∉ b.2) →
      max b.1 (((s.now.marker m).lastEdge.map (· + 48)).getD 0) / 128 ≤ s.now.epoch →
      ∃ t, exec (.markerIdleReturn m) s = .next t ∧
        t.now.markerLevel m = s.now.rdB (objKey (0x3A00 + m) 9) ∧ (t.now.marker m).idleAt = bs ∧
        (t.now.marker m).lastEdge = (if s.now.markerLevel m = s.now.rdB (objKey (0x3A00 + m) 9)
          then (s.now.marker m).lastEdge
          else some (max b.1 (((s.now.marker m).lastEdge.map (· + 48)).getD 0))) ∧
        (∀ k, k ≠ m → t.now.marker k = s.now.marker k) ∧ t.now.eas = s.now.eas ∧ t.now.hub = s.now.hub ∧
        t.now.ddr = s.now.ddr)

/-- R183 to R192, R224: while a shot of its job is in progress, a refill of a stream appends to its ring the bytes that
follow there in DDR4, as many as arrive, as the stream still has and as the ring has room for; a stroke plays baseline from
its first missing sample on, which spoils its shot; one that reads past the end of its stream plays baseline from there on
too; and the hold of a flux range switch ends. -/
def Obligations.Streams : Prop :=
  ∀ (s : State) (k : Nat),
    (∀ bytes, s.now.streamRuns k = true → ∃ t, exec (.streamRefill k bytes) s = .next t ∧
      (t.now.streamSt k).ring = ((s.now.streamSt k).ring ++ Sys2Proof.Machine.ddrRead s.now.ddr
        (s.now.rd (unitKey 0x488003 k) + (s.now.streamSt k).ringAt + (s.now.streamSt k).ring.length)
        (min bytes (min
          (s.now.rd (unitKey 0x488004 k) - ((s.now.streamSt k).ringAt + (s.now.streamSt k).ring.length))
          (s.now.rd (unitKey 0x488005 k) - (s.now.streamSt k).ring.length)))).drop
            (s.now.rd (unitKey 0x488008 k) - (s.now.streamSt k).ringAt) ∧
      (t.now.streamSt k).ringAt = max (s.now.streamSt k).ringAt (s.now.rd (unitKey 0x488008 k)) ∧
      t.now.rd (unitKey 0x488009 k) = (t.now.streamSt k).ring.length ∧
      (∀ j, j ≠ k → t.now.streamSt j = s.now.streamSt j) ∧ t.now.eas = s.now.eas ∧ t.now.hub = s.now.hub ∧
      t.now.ddr = s.now.ddr) ∧
    (∀ (tgt : Target) (q : Stroke) (u : Machine.Due), s.now.stroke tgt = some q → s.now.missing tgt = some u →
      q.muted = none →
      ∃ t, exec (.underrun tgt) s = .next t ∧ t.now.stroke tgt = some { q with muted := some u.at_, starved := true } ∧
        t.now.bit (strokeFlags q.n) 8 = true ∧ t.now.bit (unitKey 0x48800B u.stream) 0 = true ∧
        (((List.range u.bytes).any fun i => (s.now.streamSt u.stream).isLost (u.pos + i)) = true →
          t.now.bit (unitKey 0x48800B u.stream) 2 = true) ∧
        (∀ j, s.now.jobOfThread q.n = some j → ∀ x ∈ t.now.hub.jobs, x.seq = j.seq → x.inShot = true → x.spoiled = true) ∧
        t.now.eas = s.now.eas ∧ t.now.ddr = s.now.ddr) ∧
    (∀ (tgt : Target) (q : Stroke) (u : Machine.Due), s.now.stroke tgt = some q → s.now.pastEnd tgt = some u →
      q.muted = none →
      ∃ t, exec (.streamEnd tgt) s = .next t ∧ t.now.stroke tgt = some { q with muted := some u.at_ } ∧
        t.now.bit (strokeFlags q.n) 9 = true ∧ t.now.bit (unitKey 0x48800B u.stream) 1 = true ∧ t.now.hub = s.now.hub ∧
        t.now.eas = s.now.eas ∧ t.now.ddr = s.now.ddr) ∧
    (∀ c, Does (.fluxRangeSwitchEnd c) s fun d => d.setFlux c { d.fluxSt c with switchEnd := none })

/-! ### Readout windows and decisions -/

/-- R263, R268, R269, R278, R280, R283: a window whose first sample has arrived opens while fewer than two are open, and is refused
otherwise; each FIR output of its span adds its product with the weight of its index, and an invalid one marks the window; at its
dump I and Q are the sums shifted and saturated to 32 bits, and the decision is formed then: of a LINEAR qubit 1 above THETA + GUARD
of the projection, 0 below THETA − GUARD, 3 between, and 3, forced, of an invalid or a refused window, which has zeros. -/
def Obligations.Windows : Prop :=
  ∀ (s : State) (slot : Nat) (w : Win) (l r : List Win), (s.now.slotRx slot).wins = l ++ w :: r →
    ((∀ v ∈ l, v.opened = true ∨ v.refused = true) → w.opened = false → w.refused = false → w.arrive ≤ s.now.epoch →
      (((l ++ w :: r).filter fun v => v.opened && decide (w.arrive ≤ v.dump)).length < 2 →
        ∃ t, exec (.windowOpen slot) s = .next t ∧ (t.now.slotRx slot).wins = l ++ { w with opened := true } :: r ∧
          t.now.objs = s.now.objs ∧ t.now.hub = s.now.hub ∧ t.now.eas = s.now.eas ∧ t.now.ddr = s.now.ddr) ∧
      (2 ≤ ((l ++ w :: r).filter fun v => v.opened && decide (w.arrive ≤ v.dump)).length →
        ∃ t, exec (.windowOpen slot) s = .next t ∧ (t.now.slotRx slot).wins = l ++ { w with refused := true } :: r ∧
          t.now.bit (s.now.chainFlags slot) 5 = true ∧ t.now.eas = s.now.eas ∧ t.now.ddr = s.now.ddr)) ∧
    (∀ y : Nat × Int × Int, l = [] → r = [] → w.refused = false → w.iq = none → w.first ≤ y.1 → y.1 ≤ w.last →
      s.now.coreOf slot = none →
      ((s.now.takeFir slot y).slotRx slot).wins = [{ w with
        acc := cadd w.acc (cmul (s.now.kernelWeight (slot / 64) (s.now.rd (unitKey 0x300060 (s.now.slotQubit slot) + w.ksel))
          ((y.1 - w.first) / 64)) y.2)
        invalid := w.invalid || !(s.now.slotRx slot).isValid 2 y.1 }]) ∧
    ((∀ v ∈ l, ((v.opened || v.refused) && v.iq.isNone && decide (v.dump ≤ s.now.epoch)) = false) →
      w.iq = none → w.dump ≤ s.now.epoch →
      (w.refused = true → w.invalid = false → w.sat = false → s.now.rd (unitKey 0x300046 (s.now.slotQubit slot)) ≠ 3 →
        ∃ t w', exec (.windowDump slot) s = .next t ∧ (t.now.slotRx slot).wins = l ++ w' :: r ∧
        w'.iq = some (0, 0, false, false) ∧ w'.decision = some (3, true, false) ∧ t.now.objs = s.now.objs ∧
        t.now.hub = s.now.hub ∧ t.now.eas = s.now.eas ∧ t.now.ddr = s.now.ddr) ∧
      (w.opened = true → w.refused = false → ∃ t w' i q sat, exec (.windowDump slot) s = .next t ∧
        (t.now.slotRx slot).wins = l ++ w' :: r ∧ w'.iq = some (i, q, sat, w.invalid) ∧ w'.n = w.n ∧ w'.launch = w.launch ∧
        i = satI 32 (rshift w.acc.1 (s.now.rd (unitKey 0x300045 (s.now.slotQubit slot)))) ∧
        q = satI 32 (rshift w.acc.2 (s.now.rd (unitKey 0x300045 (s.now.slotQubit slot)))) ∧
        (w.invalid = true → t.now.bit (s.now.chainFlags slot) 4 = true) ∧
        (s.now.rd (unitKey 0x300046 (s.now.slotQubit slot)) = 3 → w'.decision = none ∧ w'.dsp = true) ∧
        (s.now.rd (unitKey 0x300046 (s.now.slotQubit slot)) ≠ 3 → w.invalid = true → w'.decision = some (3, true, false)) ∧
        (∀ p th g : Int, s.now.rd (unitKey 0x300046 (s.now.slotQubit slot)) = 0 → w.invalid = false →
          p = divRound (i * sext 16 (s.now.rd (unitKey 0x300047 (s.now.slotQubit slot))) +
            q * sext 16 (s.now.rd (unitKey 0x300048 (s.now.slotQubit slot)))) (2 ^ 14) →
          th = sext 32 (s.now.rd (unitKey 0x300049 (s.now.slotQubit slot))) →
          g = s.now.rd (unitKey 0x30004A (s.now.slotQubit slot)) →
          (th + g < p → w'.decision = some (1, false, false)) ∧
          (p < th - g → w'.decision = some (0, false, false)) ∧
          (th - g ≤ p → p ≤ th + g → w'.decision = some (3, false, false))) ∧
        t.now.eas = s.now.eas ∧ t.now.hub = s.now.hub ∧ t.now.ddr = s.now.ddr))

/-- R284, R289 to R293: once three ticks have passed since its dump the decision of a window is produced: the result object holds
the result, the job awaits one window fewer, and the word is on the bus for every handle that names its source: due in 3 ticks on
its tile and in 6 elsewhere when the ways of the bus carry nothing else, never earlier, and a tick later on its tile when 64 words
have the segment. -/
def Obligations.DecisionProduced : Prop :=
  ∀ (s : State) (slot : Nat) (w : Win) (iq : Int × Int × Bool × Bool) (o : Nat) (forced dsp : Bool),
    (s.now.slotRx slot).wins = [w] → w.iq = some iq → w.produced = false → w.decision = some (o, forced, dsp) →
    w.due ≤ s.now.epoch → s.now.rd (unitKey 0x400045 w.n) = 0 → w.n < 512 →
    ∃ t, exec (.decisionProduce slot) s = .next t ∧
      (∀ j, s.now.job w.job = some j → ∃ j', t.now.job w.job = some j' ∧ j'.windows = j.windows - 1) ∧
      t.now.rd (unitKey 0x300054 (s.now.slotQubit slot)) = ofLe (resultBytes w (s.now.slotQubit slot) o forced iq) ∧
      (∃ due : Nat → Nat, t.now.eas.bus = s.now.eas.bus ++ (s.now.handlesOf (s.now.chip % 64) w.n w.dtag).map (fun p =>
          { n := p.1, h := p.2, word := s.now.decisionWord w o forced dsp, due := due p.1 }) ∧
        ∀ p ∈ s.now.handlesOf (s.now.chip % 64) w.n w.dtag,
          s.now.epoch + (if tileOf p.1 = tileOf w.n then 3 else 6) ≤ due p.1 ∧
          (s.now.eas.carried = [] → due p.1 = s.now.epoch + (if tileOf p.1 = tileOf w.n then 3 else 6)) ∧
          (tileOf p.1 = tileOf w.n → tabGet 0 s.now.eas.carried (tileOf w.n + 32 * s.now.epoch) = 64 →
            tabGet 0 s.now.eas.carried (tileOf w.n + 32 * (s.now.epoch + 1)) < 64 → due p.1 = s.now.epoch + 4)) ∧
      t.now.eas.threads = s.now.eas.threads ∧ t.now.ddr = s.now.ddr

/-- R106, R292, R304, R305, R311: the oldest word for an empty handle fills it with its outcome once its tick has come, and not
before; a thread that waits in BRANCH
for the handle takes the decision: CURSOR goes to at least T_c + DT, the thread to the target of the outcome, and the
handle is empty again. -/
def Obligations.DecisionsTaken : Prop :=
  ∀ (s : State) (n h : Nat),
    (∀ b : BusWord, (s.now.eas.bus.find? fun b => b.n == n && b.h == h) = some b →
      (s.now.epoch < b.due → Does (.decisionArrival n h) s id) ∧
      (b.due ≤ s.now.epoch → tabGet none (s.now.thread n).handles h = none →
      ∃ t r, exec (.decisionArrival n h) s = .next t ∧ tabGet none (t.now.thread n).handles h = some r ∧
        r.outcome = b.word.toNat % 4 ∧ r.seq = bits b.word.toNat 30 27 ∧ r.at_ = s.now.epoch ∧
        (t.now.thread n).main = (s.now.thread n).main ∧ (∀ m, m ≠ n → t.now.thread m = s.now.thread m) ∧
        t.now.objs = s.now.objs ∧ t.now.hub = s.now.hub ∧ t.now.ddr = s.now.ddr)) ∧
    (∀ (r : DReg) (dt : Nat) (targets : List Nat), tabGet none (s.now.thread n).handles h = some r →
      (s.now.thread n).ended = false → (s.now.thread n).inTrap = none → (s.now.thread n).paths = [] →
      (s.now.thread n).main.wait = .branch h dt targets none →
      ∃ t, exec (.decisionCommit n h) s = .next t ∧ (t.now.thread n).main.cpc = targets.getD r.outcome 0 ∧
        (t.now.thread n).main.cursor = max (s.now.thread n).main.cursor (s.now.epoch + dt) ∧
        (t.now.thread n).main.wait = .ready ∧ tabGet none (t.now.thread n).handles h = none ∧
        (t.now.thread n).main.v = (s.now.thread n).main.v ∧ (∀ m, m ≠ n → t.now.thread m = s.now.thread m) ∧
        t.now.objs = s.now.objs ∧ t.now.hub = s.now.hub ∧ t.now.ddr = s.now.ddr)

/-- R297 to R301: a link that is up makes a block of the first word that waits for it, and of the second when it goes to the same
chips, at most one every 2 ticks, which joins the cells that wait for the link, and a word that waited longer than 6 ticks sets
DX_LATE; a received block for this chip alone, whose cell is accepted, delivers its valid word to the handles of this chip that name
the source of a multi-chip job's shot; a word whose handles' jobs its chip or shot does not fit is discarded with DX_STALE. -/
def Obligations.DecisionBlocks : Prop :=
  ∀ (s : State),
    (∀ (k : Nat) (a : Nat × W64 × W64) (rest : List (Nat × W64 × W64)), (s.now.link k).decisions = a :: rest →
      (∀ w ∈ a :: rest, w.1 ≤ s.now.epoch) → s.now.linkUp k = true →
      (∀ u, (s.now.link k).blockAt = some u → u + 2 ≤ s.now.epoch) →
      ∃ t, exec (.decisionBlockSend k) s = .next t ∧ (t.now.link k).blockAt = some s.now.epoch ∧
        (∀ b l, rest = b :: l → b.2.1 = a.2.1 → (t.now.link k).decisions = l ∧
          (t.now.link k).waiting = (s.now.link k).waiting ++ [.decision a.2.1 a.2.2 b.2.2]) ∧
        ((∀ b l, rest = b :: l → b.2.1 ≠ a.2.1) → (t.now.link k).decisions = rest ∧
          (t.now.link k).waiting = (s.now.link k).waiting ++ [.decision a.2.1 a.2.2 0]) ∧
        (a.1 + 6 < s.now.epoch → t.now.bit 0x24F101 0 = true) ∧
        (∀ j, j ≠ k → t.now.link j = s.now.link j) ∧ t.now.eas = s.now.eas ∧ t.now.hub = s.now.hub ∧
        t.now.ddr = s.now.ddr) ∧
    (∀ (k : Nat), (∀ w ∈ (s.now.link k).decisions, s.now.epoch < w.1) → Does (.decisionBlockSend k) s id) ∧
    (∀ (c : CellHdr) (d : Dev) (w0 w1 : W64) (p : Nat × Nat) (j : Job), s.now.rxCell c = (d, true) → d.chip < 64 →
      w0.toNat.testBit 31 = true → w1.toNat.testBit 31 = false →
      p ∈ d.handlesOf (bits w0.toNat 26 21) (bits w0.toNat 20 12) (bits w0.toNat 11 4) → j ∈ d.resident →
      (j.held.canvases.any fun x => x.thread == p.1) = true → j.head.multiChip = true →
      j.head.chips.testBit (bits w0.toNat 26 21) = true → j.shot % 256 = bits w0.toNat 55 48 →
      ∃ t, exec (.decisionBlock c (BitVec.ofNat 64 (2 ^ d.chip)) w0 w1) s = .next t ∧
        (∀ b ∈ d.eas.bus, b ∈ t.now.eas.bus) ∧
        (∃ u, ({ n := p.1, h := p.2, word := w0, due := u } : BusWord) ∈ t.now.eas.bus ∧ d.epoch + 6 ≤ u ∧
            (d.eas.carried = [] → u = d.epoch + 6)) ∧
        t.now.eas.threads = d.eas.threads ∧ t.now.hub = d.hub ∧ t.now.ddr = s.now.ddr) ∧
    (∀ (c : CellHdr) (d : Dev) (w0 w1 : W64), s.now.rxCell c = (d, true) → d.chip < 64 →
      w0.toNat.testBit 31 = true → w1.toNat.testBit 31 = false →
      d.handlesOf (bits w0.toNat 26 21) (bits w0.toNat 20 12) (bits w0.toNat 11 4) ≠ [] →
      (∀ p ∈ d.handlesOf (bits w0.toNat 26 21) (bits w0.toNat 20 12) (bits w0.toNat 11 4), ∀ j ∈ d.resident,
        (j.held.canvases.any fun x => x.thread == p.1) = true →
          ¬ (j.head.chips.testBit (bits w0.toNat 26 21) = true ∧ j.shot % 256 = bits w0.toNat 55 48)) →
      ∃ t, exec (.decisionBlock c (BitVec.ofNat 64 (2 ^ d.chip)) w0 w1) s = .next t ∧ t.now.bit 0x24F101 1 = true ∧
        t.now.eas = d.eas ∧ t.now.hub = d.hub ∧ t.now.ddr = s.now.ddr)
/-! ### Acquisition and trigger lands -/

/-- The samples of a channel up to one have come, and every condition of their ticks is known (R242, R256, R355). -/
def Arrived (d : Dev) (c idx : Nat) : Prop :=
  sampleArrival (d.acqTap c) (d.acqTaps c) idx ≤ d.epoch ∧ d.tapLive c = true ∧
    d.condsKnown c (sampleTick (d.acqTap c) (d.acqTaps c) idx) = true

/-- R333, R336, R337, R342, R344, R348: an armed CAPTURE channel whose conditions fall at a sample takes the trigger, one for all
of them, with COINCIDE for two, and begins its post-trigger run; a condition within HOLDOFF is suppressed and flagged, and one in a
run is flagged as RETRIG; the record of a run whose units have come ends the run, counts, leaves the state that COUNT and a DISARM
give, and is delivered with its blocks; a streaming channel without a job hands over the block of its next units while its buffer
has room, and else drops them, flagged and counted for the next block. -/
def Obligations.AcquisitionRuns : Prop :=
  ∀ (s : State) (c idx : Nat),
    (∀ b cs l, s.now.metConds c = (b :: cs).map (·, idx) → (b :: cs).Nodup → Arrived s.now c idx → s.now.acqState c = 1 →
      (∀ e, (s.now.acqSt c).runEnd = some e → e < idx) →
      (∀ a, (s.now.acqSt c).lastIdx = some a → a + s.now.rd (unitKey 0x510011 c) ≤ idx) →
      (s.now.acqSt c).legAt (sampleTick (s.now.acqTap c) (s.now.acqTaps c) idx) = some l →
      ∃ t, exec (.acqTrigger c idx) s = .next t ∧ t.now.acqState c = 2 ∧ (t.now.acqSt c).conds = [] ∧
        (t.now.acqSt c).crossings = [] ∧ (t.now.acqSt c).run = some { idx := idx, causes := b :: cs, disarm := false } ∧
        (t.now.acqSt c).runEnd = some ((idx / 2 ^ s.now.acqK c + s.now.acqPost c) * 2 ^ s.now.acqK c - 1) ∧
        (t.now.acqSt c).lastIdx = some idx ∧ (cs ≠ [] → t.now.bit (acqFlags c) 3 = true) ∧
        (∀ e, e ≠ c → t.now.acqSt e = s.now.acqSt e) ∧
        t.now.hub = s.now.hub ∧ t.now.eas = s.now.eas ∧ t.now.ddr = s.now.ddr) ∧
    (∀ b l a, s.now.metConds c = [(b, idx)] → Arrived s.now c idx → s.now.acqState c = 1 →
      (s.now.acqSt c).legAt (sampleTick (s.now.acqTap c) (s.now.acqTaps c) idx) = some l →
      (s.now.acqSt c).lastIdx = some a → idx < a + s.now.rd (unitKey 0x510011 c) →
      ∃ t, exec (.acqTrigger c idx) s = .next t ∧ t.now.acqState c = 1 ∧ (t.now.acqSt c).conds = [] ∧
        (t.now.acqSt c).run = (s.now.acqSt c).run ∧ (t.now.acqSt c).lastIdx = some a ∧ t.now.bit (acqFlags c) 2 = true ∧
        t.now.hub = s.now.hub ∧ t.now.eas = s.now.eas ∧ t.now.ddr = s.now.ddr) ∧
    (∀ b l e, s.now.metConds c = [(b, idx)] → Arrived s.now c idx → s.now.acqState c = 2 →
      (s.now.acqSt c).legAt (sampleTick (s.now.acqTap c) (s.now.acqTaps c) idx) = some l →
      (s.now.acqSt c).runEnd = some e → idx ≤ e →
      (∀ a, (s.now.acqSt c).lastIdx = some a → a + s.now.rd (unitKey 0x510011 c) ≤ idx) →
      ∃ t, exec (.acqTrigger c idx) s = .next t ∧ t.now.acqState c = 2 ∧ (t.now.acqSt c).conds = [] ∧
        (t.now.acqSt c).run = (s.now.acqSt c).run ∧ t.now.bit (acqFlags c) 1 = true ∧
        t.now.hub = s.now.hub ∧ t.now.eas = s.now.eas ∧ t.now.ddr = s.now.ddr) ∧
    (∀ (r : AcqRun) (l : AcqLeg), (s.now.acqSt c).run = some r → (s.now.acqSt c).legs.getLast? = some l →
      s.now.acqState c = 2 → (s.now.recordUnits c r.idx).2.length = s.now.acqPost c →
      ∃ t, exec (.captureRecordComplete c) s = .next t ∧ (t.now.acqSt c).run = none ∧
        t.now.rd (unitKey 0x510016 c) = s.now.rd (unitKey 0x510016 c) + 1 ∧
        t.now.acqState c = (if r.disarm = true then 0
          else if s.now.rd (unitKey 0x510007 c) ≠ 0 ∧ s.now.rd (unitKey 0x510007 c) ≤ s.now.rd (unitKey 0x510016 c) + 1
          then 4 else 1) ∧
        ((s.now.recordUnits c r.idx).1.length < s.now.acqPre c → t.now.bit (acqFlags c) 4 = true) ∧
        (l.seq = 0 → ∃ blocks, t.now.hub.qrs = s.now.hub.qrs ++
            { flow := c / 16, job := 0, shot := 0, summary := false,
              bytes := padTo 8 (s.now.recordHead c (s.now.rd (unitKey 0x510016 c) + 1) r l (s.now.recordUnits c r.idx).1
                (s.now.recordUnits c r.idx).2) } :: blocks ∧
          blocks.length = ceilDiv ((s.now.recordUnits c r.idx).1.length + (s.now.recordUnits c r.idx).2.length)
            (blockUnits (s.now.acqTap c) (s.now.acqK c)) ∧ ∀ b ∈ blocks, b.flow = c / 16 ∧ b.job = 0) ∧
        t.now.eas = s.now.eas ∧ t.now.ddr = s.now.ddr) ∧
    (∀ (l : AcqLeg) (us rest : List AcqUnit) (u : AcqUnit), s.now.acqState c = 3 → s.now.rd (unitKey 0x510001 c) = 1 →
      (s.now.acqSt c).legs = [l] → l.seq = 0 → l.stop = none → (s.now.acqSt c).units = us ++ u :: rest →
      (∀ x ∈ us ++ [u], s.now.inLeg c x.idx l = true) →
      us.length + 1 ≤ blockUnits (s.now.acqTap c) (s.now.acqK c) →
      (∀ p ∈ s.now.metConds c, u.idx + 2 ^ s.now.acqK c ≤ p.2) →
      s.now.condsKnown c (s.now.unitTick c (u.idx + 2 ^ s.now.acqK c - 1)) = true →
      ∃ t, exec (.streamBlock c (us.length + 1)) s = .next t ∧ (t.now.acqSt c).units = rest ∧ (t.now.acqSt c).legs = [l] ∧
        t.now.acqState c = 3 ∧ t.now.hub.jobs = s.now.hub.jobs ∧ t.now.eas = s.now.eas ∧ t.now.ddr = s.now.ddr ∧
        (s.now.acqWaiting c + (s.now.blockBytes c (s.now.acqSt c).gap l false false false (us ++ [u])).length
            ≤ s.now.rd (unitKey 0x510009 c) →
          (t.now.acqSt c).gap = 0 ∧ t.now.objs = s.now.objs ∧ t.now.hub.qrs = s.now.hub.qrs ++
            [{ flow := c / 16, job := 0, shot := 0, summary := false, bytes :=
                padTo 8 (s.now.blockBytes c (s.now.acqSt c).gap l false false false (us ++ [u])) }]) ∧
        (s.now.rd (unitKey 0x510009 c) <
            s.now.acqWaiting c + (s.now.blockBytes c (s.now.acqSt c).gap l false false false (us ++ [u])).length →
          (t.now.acqSt c).gap = (s.now.acqSt c).gap + (us.length + 1) ∧ t.now.hub = s.now.hub ∧
            t.now.bit (acqFlags c) 0 = true))

/-- R355 to R364: an edge of the kind that TI_EDGE selects, whose level has held for TI_MIN_WIDTH ticks, is a trigger: captured with
its land tick, once in a tick, and a cause of its event line at that tick; any other is none. A cause whose land tick has come makes
an output active for the pulse length, and the output ends when that is over. -/
def Obligations.TriggerLands : Prop :=
  ∀ (s : State) (i : Nat),
    (∀ (rising : Bool) (edge : Nat), (s.now.trigInOf i).last ≠ some edge →
      (s.now.rd (unitKey 0x3A4001 i) = 2 ∨ s.now.rd (unitKey 0x3A4001 i) = (if rising then 0 else 1)) →
      edge + s.now.rd (unitKey 0x3A4002 i) ≤ s.now.epoch → s.now.resident = [] →
      s.now.rdB (objKey (0x7000 + (0x80 + i)) 5) = true → s.now.state ≠ .asleep →
      ∃ t, exec (.trigIn i rising edge) s = .next t ∧ (t.now.trigInOf i).last = some edge ∧
        t.now.rd (unitKey 0x3A4004 i) = edge ∧
        t.now.ev.causes = s.now.ev.causes ++ [{ line := 0x80 + i, tick := edge }] ∧ t.now.hub = s.now.hub ∧
        t.now.ddr = s.now.ddr) ∧
    (∀ (rising : Bool) (edge : Nat), ((s.now.trigInOf i).last = some edge ∨
        s.now.rd (unitKey 0x3A4001 i) = (if rising then 1 else 0) ∨
        s.now.epoch < edge + s.now.rd (unitKey 0x3A4002 i)) → Does (.trigIn i rising edge) s id) ∧
    (∀ a, (s.now.trigOut i).due = [a] → a ≤ s.now.epoch → (s.now.trigOut i).active = false →
      Does (.trigOutPulse i) s fun d => d.setTrigOut i
        { due := [], active := true, until_ := a + d.rd (unitKey 0x3A4804 i) }) ∧
    ((s.now.trigOut i).active = true → (s.now.trigOut i).until_ ≤ s.now.epoch → (s.now.trigOut i).due = [] →
      Does (.trigOutPulseEnd i) s fun d => d.setTrigOut i { d.trigOut i with active := false })
/-! ### DSP cores -/

/-- A core runs, no word of PM is being restored, the word at its PC has this opcode and these fields (R371), and no sample
feed of the tick takes XM before its store (R375). -/
def AtDsp (d : Dev) (c opc : Nat) (w : DWord) : Prop :=
  d.coreRuns c = true ∧ bits (d.core c).fetch.toNat 7 0 = opc ∧ dspWord (d.core c).fetch = w ∧ d.stalls c opc w = false

/-- An instruction of a core: its operation gives the core `k`, its parallel fields act from the core before it, and the
core goes on; the PC object follows. Nothing but the core and that object changes (the FIFO depth with an INW). -/
def CoreDoes (i : Instr) (s : State) (c : Nat) (w : DWord) (k : DspCore) : Prop :=
  ∃ t, exec i s = .next t ∧ t.now.core c = (s.now.core c).advance (parallel (s.now.core c) w k) ∧
    t.now.rd (unitKey 0x58000F c) = (t.now.core c).pc ∧ (∀ b, b ≠ c → t.now.core b = s.now.core b) ∧
    (∀ key, key ≠ unitKey 0x58000F c → key ≠ unitKey 0x58000A c → t.now.rd key = s.now.rd key) ∧
    t.now.hub = s.now.hub ∧ t.now.eas = s.now.eas ∧ t.now.rx = s.now.rx ∧ t.now.ddr = s.now.ddr

/-- An instruction of a core that also sets a bit of its DSP_FLAGS. -/
def CoreFlags (i : Instr) (s : State) (c : Nat) (w : DWord) (bit : Nat) (k : DspCore) : Prop :=
  ∃ t, exec i s = .next t ∧ t.now.core c = (s.now.core c).advance (parallel (s.now.core c) w k) ∧
    t.now.bit (unitKey 0x580010 c) bit = true ∧ (∀ b, b ≠ c → t.now.core b = s.now.core b) ∧
    t.now.hub = s.now.hub ∧ t.now.eas = s.now.eas ∧ t.now.rx = s.now.rx ∧ t.now.ddr = s.now.ddr

/-- A branch taken: its target after two delay slots, and the loops whose body it leaves at an end (R382, R384). -/
def Branches (k : DspCore) (t : Nat) : DspCore :=
  { k with branch := some (t % 8192, 3) }.setLoops (k.loops.filter fun l =>
    !decide (l.first ≤ k.pc ∧ k.pc ≤ l.last) || decide (l.first ≤ t % 8192 ∧ t % 8192 ≤ l.last))

/-- R371, R378, R379 with the instruction table: the scalar instructions of a core, for every pair of operands and every
combination of parallel fields. Addition, subtraction and shifts are modulo 2³²; ADD, SUB and CMP set Z, N, C and V; AND,
OR and XOR set Z and N; the others set none. The carry of a subtraction is the free value of log entry 16. -/
def Obligations.DspScalarInstructions : Prop :=
  ∀ (s : State) (c : Nat) (w : DWord) (k : DspCore) (a b : W32),
    s.now.core c = k → k.gr w.a.toNat = a → k.gr w.b.toNat = b →
    (AtDsp s.now c 0x00 w → CoreDoes (.dspNop c w) s c w k) ∧
    (AtDsp s.now c 0x11 w → CoreDoes (.movg c w) s c w (k.setG w.d.toNat a)) ∧
    (AtDsp s.now c 0x12 w → CoreDoes (.dspAdd c w) s c w { k.setG w.d.toNat (a + b) with
      fl := { k.fl with z := decide (a + b = 0), n := (a + b).msb, c := decide (2 ^ 32 ≤ a.toNat + b.toNat),
                        v := decide ((a + b).toInt ≠ a.toInt + b.toInt) } }) ∧
    (AtDsp s.now c 0x13 w → CoreDoes (.dspSub c w) s c w { k.setG w.d.toNat (a - b) with
      fl := { k.fl with z := decide (a - b = 0), n := (a - b).msb, c := dspSubCarry a b,
                        v := decide ((a - b).toInt ≠ a.toInt - b.toInt) } }) ∧
    (AtDsp s.now c 0x1B w → CoreDoes (.cmp c w) s c w { k with
      fl := { k.fl with z := decide (a - b = 0), n := (a - b).msb, c := dspSubCarry a b,
                        v := decide ((a - b).toInt ≠ a.toInt - b.toInt) } }) ∧
    (∀ (i : Instr) (op : W32 → W32 → W32) (opc : Nat),
      (i = .dspAnd c w ∧ op = (fun x y => x &&& y) ∧ opc = 0x14) ∨ (i = .dspOr c w ∧ op = (fun x y => x ||| y) ∧ opc = 0x15) ∨
        (i = .dspXor c w ∧ op = (fun x y => x ^^^ y) ∧ opc = 0x16) →
      AtDsp s.now c opc w → CoreDoes i s c w { k.setG w.d.toNat (op a b) with
        fl := { k.fl with z := decide (op a b = 0), n := (op a b).msb } }) ∧
    (AtDsp s.now c 0x17 w → CoreDoes (.shl c w) s c w (k.setG w.d.toNat (a <<< (b.toNat % 32)))) ∧
    (AtDsp s.now c 0x18 w → CoreDoes (.sar c w) s c w (k.setG w.d.toNat (a.sshiftRight (b.toNat % 32)))) ∧
    (AtDsp s.now c 0x1A w → CoreDoes (.sgt c w) s c w (k.setG w.d.toNat (if b.toInt < a.toInt then 1 else 0))) ∧
    (AtDsp s.now c 0x1C w → CoreDoes (.movxg c w) s c w (k.setG w.d.toNat (k.xr w.a.toNat))) ∧
    (AtDsp s.now c 0x1D w → CoreDoes (.movgx c w) s c w (k.setX w.d.toNat a)) ∧
    (∀ v : Int, (a.toInt * b.toInt + 2 ^ 13) / 2 ^ 14 = v → AtDsp s.now c 0x19 w →
      (-2 ^ 31 ≤ v → v < 2 ^ 31 → CoreDoes (.mulq c w) s c w (k.setG w.d.toNat (BitVec.ofInt 32 v))) ∧
      (2 ^ 31 ≤ v → CoreFlags (.mulq c w) s c w 1
        { k.setG w.d.toNat 0x7FFFFFFF with fl := { k.fl with ss := true } }) ∧
      (v < -2 ^ 31 → CoreFlags (.mulq c w) s c w 1
        { k.setG w.d.toNat 0x80000000 with fl := { k.fl with ss := true } })) ∧
    (∀ (rd : BitVec 4) (imm : W32), s.now.coreRuns c = true → bits k.fetch.toNat 7 0 = 0x10 →
      bits k.fetch.toNat 11 8 = rd.toNat → bits k.fetch.toNat 51 20 = imm.toNat →
      CoreDoes (.ldi c rd imm) s c { d := 0, a := 0, b := 0, fx := none, fy := none, fk := none, st := none, imm := 0 }
        (k.setG rd.toNat imm))

/-- R377, R378, R380: the products are exact and go to an accumulator, whose parts saturate at 40 bits with ACS and
ACC_SAT; STA and STAG convert with rounding and saturation; MAXI and MINI keep the first of equal extremes, and SRST, SRD
begin and read the search. -/
def Obligations.DspComplexInstructions : Prop :=
  ∀ (s : State) (c : Nat) (w : DWord) (k : DspCore) (a b e : Int × Int),
    s.now.core c = k → k.xc w.a.toNat = a → k.xc w.b.toNat = b → k.acr w.d.toNat = e →
    (∀ (i : Instr) (opc : Nat) (re im : Int),
      (i = .cmac c w ∧ opc = 0x01 ∧ re = e.1 + (a.1 * b.1 - a.2 * b.2) ∧ im = e.2 + (a.1 * b.2 + a.2 * b.1)) ∨
        (i = .cmacj c w ∧ opc = 0x02 ∧ re = e.1 + (a.1 * b.1 + a.2 * b.2) ∧ im = e.2 + (a.2 * b.1 - a.1 * b.2)) ∨
        (i = .cmsb c w ∧ opc = 0x03 ∧ re = e.1 - (a.1 * b.1 - a.2 * b.2) ∧ im = e.2 - (a.1 * b.2 + a.2 * b.1)) ∨
        (i = .cmul c w ∧ opc = 0x04 ∧ re = a.1 * b.1 - a.2 * b.2 ∧ im = a.1 * b.2 + a.2 * b.1) →
      AtDsp s.now c opc w →
      (-2 ^ 39 ≤ re → re < 2 ^ 39 → -2 ^ 39 ≤ im → im < 2 ^ 39 → CoreDoes i s c w (k.setAc w.d.toNat (re, im))) ∧
      (¬ (-2 ^ 39 ≤ re ∧ re < 2 ^ 39 ∧ -2 ^ 39 ≤ im ∧ im < 2 ^ 39) → CoreFlags i s c w 0
        { k.setAc w.d.toNat (max (-2 ^ 39) (min (2 ^ 39 - 1) re), max (-2 ^ 39) (min (2 ^ 39 - 1) im)) with
          fl := { k.fl with acs := true } })) ∧
    (AtDsp s.now c 0x05 w → CoreDoes (.aclr c w) s c w (k.setAc w.d.toNat (0, 0))) ∧
    (∀ (re im : Int) (sh : Nat), w.imm.toNat % 32 = sh → ((k.acr w.a.toNat).1 + 2 ^ (sh + 14)) / 2 ^ (sh + 15) = re →
      ((k.acr w.a.toNat).2 + 2 ^ (sh + 14)) / 2 ^ (sh + 15) = im → AtDsp s.now c 0x06 w →
      (-32768 ≤ re → re < 32768 → -32768 ≤ im → im < 32768 →
        CoreDoes (.sta c w) s c w (k.setX w.d.toNat (BitVec.ofInt 16 im ++ BitVec.ofInt 16 re))) ∧
      (¬ (-32768 ≤ re ∧ re < 32768 ∧ -32768 ≤ im ∧ im < 32768) → CoreFlags (.sta c w) s c w 1
        { k.setX w.d.toNat (BitVec.ofInt 16 (max (-32768) (min 32767 im)) ++
            BitVec.ofInt 16 (max (-32768) (min 32767 re))) with fl := { k.fl with ss := true } })) ∧
    (∀ (p v : Int) (sh : Nat), w.imm.toNat % 32 = sh →
      (if w.imm.toNat.testBit 5 then (k.acr w.a.toNat).2 else (k.acr w.a.toNat).1) = p →
      (if sh = 0 then p else (p + 2 ^ (sh - 1)) / 2 ^ sh) = v → AtDsp s.now c 0x07 w →
      (-2 ^ 31 ≤ v → v < 2 ^ 31 → CoreDoes (.stag c w) s c w (k.setG w.d.toNat (BitVec.ofInt 32 v))) ∧
      (¬ (-2 ^ 31 ≤ v ∧ v < 2 ^ 31) → CoreFlags (.stag c w) s c w 1
        { k.setG w.d.toNat (BitVec.ofInt 32 (max (-2 ^ 31) (min (2 ^ 31 - 1) v))) with fl := { k.fl with ss := true } })) ∧
    (∀ (i : Instr) (opc : Nat) (key : Int) (better : Prop) [Decidable better],
      key = (if w.imm.toNat % 4 = 0 then a.1 else if w.imm.toNat % 4 = 1 then a.2 else a.1 * a.1 + a.2 * a.2) →
      (i = .maxi c w ∧ opc = 0x08 ∧ (better ↔ k.sempty = true ∨ k.sv < key)) ∨
        (i = .mini c w ∧ opc = 0x09 ∧ (better ↔ k.sempty = true ∨ key < k.sv)) →
      AtDsp s.now c opc w → CoreDoes i s c w { k with
        sv := if better then key else k.sv, sx := if better then k.scount else k.sx,
        sempty := if better then false else k.sempty, scount := (k.scount + 1) % 2 ^ 32 }) ∧
    (AtDsp s.now c 0x0A w → CoreDoes (.srst c w) s c w { k with sempty := true, scount := 0 }) ∧
    (AtDsp s.now c 0x0B w → CoreDoes (.srd c w) s c w
      ((k.setG w.d.toNat (BitVec.ofInt 32 k.sv)).setG (w.d.toNat + 1) (BitVec.ofNat 32 k.sx)))

/-- R370, R372 to R375 and R382 to R385: LDG, STG, MOVP, MOVPG and the parallel fields; branches with two delay slots,
which end the loops they leave and execute their slots taken or not; calls and returns over eight entries, REPEAT, and
loops; a push onto a full stack or a pop from an empty one is a program fault; a store to XM in a cycle of a sample feed waits that
one cycle. A count of 0 skips a loop's body, as the end
of its last pass would. -/
def Obligations.DspPointersAndFlow : Prop :=
  ∀ (s : State) (c : Nat) (w : DWord) (k : DspCore) (a : W32), s.now.core c = k → k.gr w.a.toNat = a →
    (AtDsp s.now c 0x1E w → CoreDoes (.ldg c w) s c w
      (if w.imm.toNat % 2 = 1 then (k.setG w.d.toNat (k.atPt (w.a.toNat % 8))).setAreg (w.a.toNat % 8) (k.post (w.a.toNat % 8))
       else k.setG w.d.toNat (k.atPt (w.a.toNat % 8)))) ∧
    (AtDsp s.now c 0x1F w → CoreDoes (.stg c w) s c w
      (if w.imm.toNat % 2 = 1 then
        (k.putAt (w.a.toNat % 8) (k.areg (w.a.toNat % 8) % ptSize (w.a.toNat % 8)) (k.gr w.d.toNat)).setAreg
          (w.a.toNat % 8) (k.post (w.a.toNat % 8))
       else k.putAt (w.a.toNat % 8) (k.areg (w.a.toNat % 8) % ptSize (w.a.toNat % 8)) (k.gr w.d.toNat))) ∧
    (∀ (i : Instr) (opc : Nat), (i = .dspNop c w ∧ opc = 0x00 ∧ (w.st.any fun f => decide (f.pt < 4)) = true) ∨
        (i = .stg c w ∧ opc = 0x1F ∧ w.a.toNat % 8 < 4) →
      s.now.coreRuns c = true → bits k.fetch.toNat 7 0 = opc → dspWord k.fetch = w → s.now.feedsNow c = true →
      k.stalled = none → Does i s fun d => d.setCore c { k with stalled := some d.epoch }) ∧
    (AtDsp s.now c 0x20 w → CoreDoes (.movp c w) s c w (k.setAreg (w.imm.toNat % 32) a.toNat)) ∧
    (AtDsp s.now c 0x21 w → CoreDoes (.movpg c w) s c w (k.setG w.d.toNat
      (if 8 ≤ w.imm.toNat % 32 ∧ w.imm.toNat % 32 < 16 then BitVec.ofInt 32 (sext 16 (k.areg (w.imm.toNat % 32)))
       else BitVec.ofNat 32 (k.areg (w.imm.toNat % 32))))) ∧
    (∀ f g : DFetch, w = { d := w.d, a := w.a, b := w.b, fx := some f, fy := none, fk := none, st := some g, imm := w.imm } →
      f.pt < 4 → 4 ≤ g.pt → g.pt < 8 → f.post = true → g.post = false → AtDsp s.now c 0x00 w →
      ∃ t, exec (.dspNop c w) s = .next t ∧ (t.now.core c).xr f.x.toNat = k.atPt f.pt ∧
        (t.now.core c).areg f.pt = (if k.areg (24 + f.pt) = 0
            then toU 14 (((k.areg f.pt : Int) + sext 16 (k.areg (8 + f.pt))) % 8192)
            else toU 14 ((k.areg (16 + f.pt) : Int) +
              ((k.areg f.pt : Int) - k.areg (16 + f.pt) + sext 16 (k.areg (8 + f.pt))) % (k.areg (24 + f.pt) : Int))) % 2 ^ 14 ∧
        (t.now.core c).atPt g.pt = k.xr g.x.toNat) ∧
    (AtDsp s.now c 0x28 w → CoreDoes (.jmp c w) s c w (Branches k (w.imm.toNat % 2 ^ 13))) ∧
    (AtDsp s.now c 0x29 w → CoreDoes (.jcc c w) s c w
      (if k.cond w.a.toNat = true then Branches k (w.imm.toNat % 2 ^ 13) else { k with slots := 3 })) ∧
    (AtDsp s.now c 0x2A w → k.stack.length < 8 → CoreDoes (.call c w) s c w
      (Branches { k with stack := ((k.pc + 3) % 8192, k.fl) :: k.stack } (w.imm.toNat % 2 ^ 13))) ∧
    (∀ p rest, AtDsp s.now c 0x2B w → k.stack = p :: rest → CoreDoes (.ret c w) s c w
      (Branches { k with stack := rest } p.1)) ∧
    (∀ p rest, AtDsp s.now c 0x2C w → k.stack = p :: rest → CoreDoes (.rti c w) s c w
      { k with stack := rest, fl := p.2, branch := some (p.1, 1) }) ∧
    (∀ i : Instr, (i = .call c w ∧ AtDsp s.now c 0x2A w ∧ 8 ≤ k.stack.length) ∨
        (i = .ret c w ∧ AtDsp s.now c 0x2B w ∧ k.stack = []) ∨ (i = .rti c w ∧ AtDsp s.now c 0x2C w ∧ k.stack = []) →
      Does i s fun d => ((d.wr (unitKey 0x580001 c) 2).flag (unitKey 0x580010 c) 7).spoil k.job) ∧
    (AtDsp s.now c 0x2D w → CoreDoes (.repeatN c w) s c w { k with repeat_ := w.imm.toNat }) ∧
    (∀ (i : Instr) (count : Nat), (i = .dspLoop c w ∧ AtDsp s.now c 0x2E w ∧ count = a.toNat % 2 ^ 16) ∨
        (i = .loopi c w ∧ AtDsp s.now c 0x2F w ∧ count = w.imm.toNat) →
      (0 < count → CoreDoes i s c w (k.setLoops
        ({ first := (k.pc + 1) % 8192, last := (k.pc + w.b.toNat + 1) % 8192, left := count } :: k.loops))) ∧
      (count = 0 → CoreDoes i s c w
        ({ k with branch := some ((loopNext k.loops ((k.pc + w.b.toNat + 1) % 8192)).1, 1) }.setLoops
          (loopNext k.loops ((k.pc + w.b.toNat + 1) % 8192)).2))) ∧
    (w = { d := w.d, a := w.a, b := w.b, fx := none, fy := none, fk := none, st := none, imm := w.imm } →
      AtDsp s.now c 0x00 w → ∃ t, exec (.dspNop c w) s = .next t ∧ (t.now.core c).g = k.g ∧ (t.now.core c).x = k.x ∧
        (k.repeat_ = 0 → k.branch = none → k.loops = [] → (t.now.core c).pc = (k.pc + 1) % 8192) ∧
        (1 < k.repeat_ → (t.now.core c).pc = k.pc ∧ (t.now.core c).repeat_ = k.repeat_ - 1) ∧
        (∀ b, k.repeat_ = 0 → k.branch = some (b, 2) → k.loops = [] →
          (t.now.core c).pc = (k.pc + 1) % 8192 ∧ (t.now.core c).branch = some (b, 1)) ∧
        (∀ b, k.repeat_ = 0 → k.branch = some (b, 1) → (t.now.core c).pc = b ∧ (t.now.core c).branch = none) ∧
        (∀ (l : DLoop) (rest : List DLoop), k.repeat_ = 0 → k.branch = none → k.loops = l :: rest → k.pc = l.last →
          1 < l.left → (t.now.core c).pc = l.first ∧ (t.now.core c).loops = { l with left := l.left - 1 } :: rest))

/-- R386, R388, R393, R397, R401, R405 with the instruction table: INW takes the oldest window entry and blocks on an empty
FIFO; OUTD decides the window that WT names, and is discarded with DSP_DUP for an OBSERVE window; MOVW reads WT and the
boundary word; EMIT and ECLOSE write records; BDONE ends the boundary; DI, EI and WAITI; the mailbox. -/
def Obligations.DspWindowsAndRecords : Prop :=
  ∀ (s : State) (c : Nat) (w : DWord) (k : DspCore) (a : W32), s.now.core c = k → k.gr w.a.toNat = a →
    (∀ (en : WEntry) (rest : List WEntry), AtDsp s.now c 0x30 w → k.fifo = en :: rest → CoreDoes (.inw c w) s c w
      { (k.setG w.d.toNat (BitVec.ofInt 32 en.i)).setG (w.d.toNat + 1) (BitVec.ofInt 32 en.q) with
        wt := some en, fifo := rest }) ∧
    (k.fifo = [] → Does (.inw c w) s id) ∧
    (∀ (en : WEntry) (v : Win), AtDsp s.now c 0x31 w → k.wt = some en → en.decide_ = true → en.rflags.testBit 5 = false →
      (s.now.slotRx en.slot).wins = [v] → v.launch = en.launch → v.job = en.job → v.decision = none →
      s.now.epoch + 1 ≤ v.dump + s.now.rd (unitKey 0x580008 c) →
      ∃ t, exec (.outd c w) s = .next t ∧
        (t.now.slotRx en.slot).wins = [{ v with decision := some (a.toNat % 4, false, true), due := s.now.epoch + 1 }] ∧
        t.now.hub = s.now.hub ∧
        t.now.ddr = s.now.ddr) ∧
    (∀ en : WEntry, AtDsp s.now c 0x31 w → k.wt = some en → en.decide_ = false → CoreFlags (.outd c w) s c w 3 k) ∧
    (∀ (en : WEntry) (i : Nat), AtDsp s.now c 0x32 w → k.wt = some en → w.imm.toNat % 8 = i →
      (i ≤ 5 → CoreDoes (.movw c w) s c w (k.setG w.d.toNat ((en.tag >>> (32 * i)).truncate 32))) ∧
      (i = 7 → CoreDoes (.movw c w) s c w (k.setG w.d.toNat k.bword))) ∧
    (AtDsp s.now c 0x33 w →
      (k.rec_ = none → CoreDoes (.emit c w) s c w
        { k with rec_ := some { rtag := w.imm.toNat, cont := k.contNext, words := [a] }, contNext := false }) ∧
      (∀ r : DRec, k.rec_ = some r → r.words.length < 255 → CoreDoes (.emit c w) s c w
        { k with rec_ := some { r with words := r.words ++ [a] }, contNext := false }) ∧
      (∀ (r : DRec) (j : Job), k.rec_ = some r → r.words.length = 255 → s.now.job k.job = some j → k.boundary = false →
          k.done = false →
        ∃ t, exec (.emit c w) s = .next t ∧ (t.now.core c).rec_ = none ∧ (t.now.core c).contNext = true ∧
          (t.now.job k.job).map (·.recs) =
            some (j.recs ++ [{ flow := 8, bytes := dspRecord c j.seq j.shot { r with words := r.words ++ [a] } }]) ∧
          t.now.eas = s.now.eas ∧ t.now.ddr = s.now.ddr)) ∧
    (AtDsp s.now c 0x34 w → (k.rec_ = none → CoreDoes (.eclose c w) s c w k) ∧
      (∀ (r : DRec) (j : Job), k.rec_ = some r → s.now.job k.job = some j → k.boundary = true → j.phase = .shot →
          k.bshot = (j.shot, j.attempt) →
        ∃ t, exec (.eclose c w) s = .next t ∧ (t.now.core c).rec_ = none ∧
          (t.now.job k.job).map (·.recs) = some (j.recs ++ [{ flow := 8, bytes := dspRecord c j.seq j.shot r }]) ∧
          t.now.eas = s.now.eas ∧ t.now.ddr = s.now.ddr) ∧
      (∀ (r : DRec) (j : Job), k.rec_ = some r → s.now.job k.job = some j → k.boundary = false →
        ∃ t, exec (.eclose c w) s = .next t ∧ (t.now.core c).rec_ = none ∧
          (t.now.job k.job).map (·.recs) =
            some (j.recs ++ if k.done then [] else [{ flow := 8, bytes := dspRecord c j.seq j.shot r }]) ∧
          (t.now.job k.job).map (·.recsNext) =
            some (j.recsNext ++ if k.done then [{ flow := 8, bytes := dspRecord c j.seq j.shot r }] else []) ∧
          t.now.eas = s.now.eas ∧ t.now.ddr = s.now.ddr)) ∧
    (∀ j : Job, AtDsp s.now c 0x35 w → s.now.job k.job = some j →
      (k.boundary = true → j.inShot = true → j.shotStart ≤ k.boundaryAt → 0 < k.boundaryAt →
        CoreDoes (.bdone c w) s c w { k with boundary := false, done := true }) ∧
      (k.boundary = false → CoreDoes (.bdone c w) s c w k)) ∧
    (AtDsp s.now c 0x36 w → k.di = none →
      CoreDoes (.di c w) s c w { k with imask := 0, di := some (k.imask, s.now.epoch) }) ∧
    (AtDsp s.now c 0x37 w → CoreDoes (.ei c w) s c w { k with imask := w.imm.toNat % 8, di := none }) ∧
    (AtDsp s.now c 0x38 w → (k.source = none → Does (.waiti c w) s id) ∧
      (k.source ≠ none → CoreDoes (.waiti c w) s c w k)) ∧
    (AtDsp s.now c 0x39 w → ∃ t, exec (.mboxw c w) s = .next t ∧ t.now.rd (unitKey 0x58000D c) = a.toNat ∧
      t.now.core c = k.advance (parallel k w k) ∧ (∀ b, b ≠ c → t.now.core b = s.now.core b) ∧ t.now.hub = s.now.hub ∧
      t.now.ddr = s.now.ddr) ∧
    (AtDsp s.now c 0x3A w → CoreDoes (.mboxr c w) s c w { k.setG w.d.toNat k.mboxIn with mbox := false })

/-- R385 to R390, R393, R395, R398, R401, R402, R408: the lowest pending enabled interrupt is entered between instructions,
pushing PC and FL and clearing IMASK; DI expires; a window entry enters a FIFO with room and else is dropped with
FIFO_OVERFLOW; an undecided window is forced at its deadline; BOUNDARY is raised; a drain that lasts too long is late; and
memory errors. -/
def Obligations.DspEvents : Prop :=
  ∀ (s : State) (c : Nat) (k : DspCore), s.now.core c = k →
    (∀ v : Nat, s.now.coreRuns c = true → k.branch = none → k.slots = 0 → k.repeat_ = 0 → k.di = none →
      (v = 0 ∧ k.boundary = true ∧ k.imask.testBit 0 = true) ∨
        (v = 1 ∧ (k.boundary && k.imask.testBit 0) = false ∧ k.fifo ≠ [] ∧ k.imask.testBit 1 = true) ∨
        (v = 2 ∧ (k.boundary && k.imask.testBit 0) = false ∧ (!k.fifo.isEmpty && k.imask.testBit 1) = false ∧
          k.mbox = true ∧ k.imask.testBit 2 = true) →
      (k.stack.length < 8 → ∃ t, exec (.dspInterrupt c) s = .next t ∧ t.now.core c = { k with
          pc := 8 * v, imask := 0, stack := (k.pc % 8192, k.fl) :: k.stack } ∧
        (∀ b, b ≠ c → t.now.core b = s.now.core b) ∧ t.now.hub = s.now.hub ∧ t.now.ddr = s.now.ddr) ∧
      (8 ≤ k.stack.length → Does (.dspInterrupt c) s fun d =>
        ((d.wr (unitKey 0x580001 c) 2).flag (unitKey 0x580010 c) 7).spoil k.job)) ∧
    (∀ m at_, k.di = some (m, at_) → at_ + 64 ≤ s.now.epoch → k.repeat_ = 0 → Does (.diExpired c) s fun d =>
      (d.setCore c { k with imask := m, di := none }).flag (unitKey 0x580010 c) 5) ∧
    (∀ (slot : Nat) (w : Win) (i q : Int) (sat inv : Bool), s.now.toEnter c = [(w.dump, slot)] →
      (s.now.slotRx slot).wins = [w] → w.core = some c → w.entered = false → w.iq = some (i, q, sat, inv) →
      w.dump + (if c = 16 then 8 else 2) ≤ s.now.epoch →
      (k.fifo.length < 32 → ∃ t en, exec (.windowEntry c) s = .next t ∧ (t.now.core c).fifo = k.fifo ++ [en] ∧ en.i = i ∧
        en.q = q ∧ en.slot = slot ∧ en.launch = w.launch ∧ (t.now.core c).g = k.g ∧
        (w.dsp = true → w.decision = none → w.produced = false → (w.refused || inv) = true → (t.now.slotRx slot).wins =
          [{ w with entered := true, decision := some (3, true, false), due := s.now.epoch }]) ∧ t.now.hub = s.now.hub ∧
        t.now.ddr = s.now.ddr) ∧
      (32 ≤ k.fifo.length → ∃ t, exec (.windowEntry c) s = .next t ∧ (t.now.core c).fifo = k.fifo ∧
        (w.dsp = true → w.decision = none → w.produced = false → (t.now.slotRx slot).wins =
          [{ w with entered := true, decision := some (3, true, false), due := s.now.epoch }]) ∧
        t.now.bit (unitKey 0x580010 c) 4 = true ∧ t.now.hub.jobs = (s.now.spoil w.job).hub.jobs ∧ t.now.ddr = s.now.ddr)) ∧
    (∀ (slot : Nat) (w : Win), (s.now.slotRx slot).wins = [w] → w.iq ≠ none → w.decision = none → w.core = some c →
      w.dump + s.now.rd (unitKey 0x580008 c) ≤ s.now.epoch →
      ∃ t, exec (.dspLate slot) s = .next t ∧ (t.now.slotRx slot).wins =
          [{ w with decision := some (3, true, true), due := s.now.epoch }] ∧
        t.now.bit (unitKey 0x580010 c) 2 = true ∧ t.now.hub = s.now.hub ∧ t.now.ddr = s.now.ddr) ∧
    (∀ (q : Nat) (j : Job), s.now.job q = some j → j.inShot = true → s.now.windowsDone j = true → c ∈ j.held.cores →
      k.boundaryAt < j.shotStart → ∃ t, exec (.dspBoundary q) s = .next t ∧ (t.now.core c).boundary = true ∧
        (t.now.core c).bshot = (j.shot, j.attempt) ∧
        (t.now.core c).boundaryAt = s.now.epoch ∧ (t.now.core c).bword = BitVec.ofNat 32 (j.shot % 2 ^ 24 +
          (if j.spoiled then 2 ^ 24 else 0) + (if 1 < j.attempt then 2 ^ 25 else 0)) ∧
        (t.now.core c).pc = k.pc ∧ t.now.hub = s.now.hub ∧ t.now.objs = s.now.objs ∧ t.now.ddr = s.now.ddr) ∧
    (∀ j : Job, s.now.job k.job = some j → j.inShot = true → j.shotStart ≤ k.boundaryAt → 0 < k.boundaryAt →
      k.done = false → k.boundaryAt + s.now.rd (unitKey 0x580009 c) ≤ s.now.epoch → s.now.rd (unitKey 0x580001 c) ≠ 2 →
      Does (.drainLate c) s fun d => ((d.setCore c { k with done := true }).flag (unitKey 0x580010 c) 6).spoil k.job) ∧
    (∀ (m : DspMem) (addr : Nat), Does (.dspEcc c m addr false) s fun d => d.flag (unitKey 0x580010 c) 8) ∧
    (∀ addr, Does (.dspEcc c .pm addr true) s fun d =>
      (d.noteFault (.dsp c) 0).setCore c { k with restore := some (addr % 8192) }) ∧
    (∀ addr, Does (.dspEcc c .xm addr true) s fun d =>
      (((d.noteFault (.dsp c) 0).setCore c { k with xm := tabMod 0 k.xm (addr % 8192) (dataError addr) }).flag
        (unitKey 0x580010 c) 9).spoil k.job) ∧
    (∀ addr, Does (.dspEcc c .ym addr true) s fun d =>
      (((d.noteFault (.dsp c) 0).setCore c { k with ym := tabMod 0 k.ym (addr % 8192) (dataError addr) }).flag
        (unitKey 0x580010 c) 9).spoil k.job) ∧
    (∀ addr, Does (.dspEcc c .km addr true) s fun d =>
      (((d.noteFault (.dsp c) 0).setCore c { k with km := tabMod 0 k.km (addr % 16384) (dataError addr) }).flag
        (unitKey 0x580010 c) 9).spoil k.job) ∧
    (∀ at_, k.restore = some at_ → Does (.dspPmRestoreComplete c true) s fun d =>
      d.setCore c { k with pm := tabSet 0 k.pm at_ (k.image.getD at_ 0), restore := none })

/-! ### Jobs, shots, units -/

/-- R51, R419, R424, R586, R590, R636, R637, R709: the next job is refused with its failures or placed and ARMED; a start
whose tick has come begins an attempt, at the present tick with LATE_EPOCH where it comes late; a drain that completes runs the shot again, makes its attempt final, or ends the
job; a boundary sets every thread to rest unless its next start is fixed. -/
def Obligations.PlacementAndShots : Prop :=
  ∀ (s : State) (q : Nat) (j : Job), s.now.job q = some j →
    (∀ f fs, s.now.nextJob = some j → s.now.failures j.head (s.now.withFits j.content) = f :: fs →
      ∃ t, exec .placement s = .next t ∧ (t.now.job q).map (·.st) = some .refused ∧ t.now.bit 0x600001 4 = true ∧
        t.now.eas = s.now.eas ∧ t.now.dsp = s.now.dsp ∧ t.now.state = s.now.state ∧ t.now.ddr = s.now.ddr) ∧
    (s.now.nextJob = some j → s.now.failures j.head (s.now.withFits j.content) = [] → s.now.lat.st ≠ .root →
      ∃ t j', exec .placement s = .next t ∧ t.now.job q = some j' ∧
        j'.st = (if j.haltDue = true then .halted else .armed) ∧ j'.phase = .waiting ∧ j'.armedAt = s.now.epoch ∧
        j'.held.canvases = (s.now.choosePlacement j.head (s.now.withFits j.content)).canvases ∧ t.now.ddr = s.now.ddr) ∧
    (∀ a, j.nextStart = some a → j.st.resident = true → j.st ≠ .halted → (j.phase = .waiting ∨ j.phase = .boundary) →
      a ≤ s.now.epoch → s.now.noNewShot = false →
      (j.head.multiChip = true → s.now.lat.st = .joined ∨ s.now.lat.st = .root) →
      ∃ t j', exec (.shotStart q) s = .next t ∧ t.now.job q = some j' ∧ j'.phase = .shot ∧ j'.shotStart = s.now.epoch ∧
        j'.nextStart = none ∧ j'.attempt = j.attempt + 1 ∧ j'.shot = j.shot ∧
        j'.st = (if j.shot + 1 = j.head.shots ∨ j.haltDue = true ∨ j.cancelDue = true then .draining else .running) ∧
        (a = s.now.epoch → j'.spoiled = j.spoilNext ∧ t.now.eas = s.now.eas) ∧
        (a < s.now.epoch → j'.spoiled = false ∧ t.now.bit 0x200004 11 = true) ∧ t.now.ddr = s.now.ddr) ∧
    (j.inShot = true → s.now.drained j = true →
      ∃ t j', exec (.drainComplete q) s = .next t ∧ t.now.job q = some j' ∧ j'.phase = .drained ∧
        j'.drainAt = s.now.epoch ∧
        (j.discarded = true → j'.nextShot = j.nextShot ∧ j'.discards = j.discards ∧ j'.spoiledRuns = j.spoiledRuns) ∧
        (j.discarded = false → j.spoiled = true → j.spoiledRuns < j.head.spoilRetry → j.cancelDue = false →
          j'.nextShot = j.nextShot ∧ j'.spoiledRuns = j.spoiledRuns + 1 ∧ j'.queued = j.queued) ∧
        (j.discarded = false → (j.spoiled = false ∨ j.head.spoilRetry ≤ j.spoiledRuns) → j.head.multiChip = false →
          j.cancelDue = false → j'.nextShot = j.shot + 1 ∧
          (j'.st = if j.head.shots ≤ j.shot + 1 then .ended else if j.haltDue = true then .halted else .running) ∧
          ∃ a, j'.queued = j.queued ++ [a] ∧ a.shot = j.shot ∧ a.attempt = j.attempt ∧ a.start = j.shotStart ∧
            a.spoiled = j.spoiled ∧ a.rerun = decide (1 < j.attempt) ∧ a.recs = j.recs.map (stampRec j.shot)) ∧
        t.now.ddr = s.now.ddr) ∧
    (j.phase = .drained → j.drainAt < s.now.epoch → s.now.qop.commit = none → s.now.cal.stage = [] →
      s.now.lat.st ≠ .root → j.st.resident = true → j.stopDue = false → j.st ≠ .halted →
      ∃ t j', exec (.shotBoundary q) s = .next t ∧ t.now.job q = some j' ∧ j'.phase = .boundary ∧
        j'.boundaryAt = s.now.epoch ∧ j'.nextShot = j.nextShot ∧
        (j'.nextStart = none → ∀ p ∈ j.held.canvases, (t.now.thread p.thread).active = false) ∧ t.now.ddr = s.now.ddr)

/-- R247, R428, R430, R433, R630, R632, R635: a unit that meets its criterion is retired once; a spare easel takes over the
threads of a retired one at a boundary, and D16 those of a retired core, with nothing of what it had accumulated; the
flows of a port that is not up go to one that is; converter faults set their flags. -/
def Obligations.UnitsAndSpares : Prop :=
  ∀ (s : State),
    (∀ u : UnitRef, s.now.isRetired u = false → (∀ b, u ≠ .spine b) →
      ∃ t, exec (.retire u) s = .next t ∧ t.now.isRetired u = true ∧ t.now.ddr = s.now.ddr) ∧
    (∀ u : UnitRef, s.now.isRetired u = true → Does (.retire u) s Dev.flushStage) ∧
    (∀ e m : Nat, s.now.hub.units.due.contains (.easel e) = true → s.now.readyUsers (.easel e) ≠ [] →
      s.now.spareFor e = some m → s.now.lat.st ≠ .root →
      ∃ t, exec (.sprout (.easel e)) s = .next t ∧ t.now.bit 0x600001 0 = true ∧
        (∀ j ∈ s.now.readyUsers (.easel e), ∀ p ∈ s.now.onEasel j e, p.thread < 512 →
          t.now.rd (unitKey 0x400002 p.thread) = m) ∧ t.now.ddr = s.now.ddr) ∧
    (∀ c : Nat, s.now.hub.units.due.contains (.dsp c) = true → s.now.readyUsers (.dsp c) ≠ [] → s.now.lat.st ≠ .root →
      ∃ t, exec (.sprout (.dsp c)) s = .next t ∧ t.now.rd 0x581001 = 4 ∧ t.now.bit 0x600003 2 = false ∧
        (t.now.core 16).g = [] ∧ (t.now.core 16).ac = [] ∧ (t.now.core 16).stack = [] ∧ t.now.ddr = s.now.ddr) ∧
    (∀ (h p : Nat) (j : Job), s.now.rd (unitKey 0x280001 h) ≠ 3 → p < 4 →
      (∀ k, k < 4 → (s.now.rd (unitKey 0x280001 k) = 3 ↔ k = p)) → j ∈ s.now.hub.jobs →
      (∀ k ∈ s.now.hub.jobs, k.seq = j.seq → k = j) → (j.held.flows.map (·.1)).Nodup →
      (∃ f ∈ j.held.flows, f.2.1 = h) →
      ∃ t j', exec (.flowMove h) s = .next t ∧ t.now.job j.seq = some j' ∧
        j'.held.flows = (j.held.flows.map fun f => if f.2.1 = h then (f.1, p, f.2.2) else f) ∧
        t.now.bit 0x600001 1 = true ∧ t.now.eas = s.now.eas ∧ t.now.ddr = s.now.ddr) ∧
    (∀ n : Nat, Does (.dacFault (.xyPort n)) s (fun d => (d.flag (unitKey 0x380008 n) 2).retireNow (.xyPort n) 2) ∧
      Does (.dacFault (.rlTx n)) s (fun d => (d.flag (unitKey 0x384008 n) 2).retireNow (.rlTx n) 2) ∧
      Does (.dacFault (.flux n)) s (fun d => (d.flag (unitKey 0x340007 n) 1).retireNow (.flux n) 3)) ∧
    (∀ (n : Nat) (code : Int),
      (code = -2048 ∨ code = 2047 → Does (.adcOverrange n code) s fun d => d.flag (unitKey 0x384026 n) 0) ∧
      (-2048 < code → code < 2047 → Does (.adcOverrange n code) s id))

/-- R594, R597 to R599, R651, R652, R661: a final attempt becomes durable and its records leave in packets numbered per
flow, no longer than the port carries; an acknowledgement frees the shots it covers; a job that has ended with nothing
left leaves the ledger; what is not acknowledged in time is sent again. -/
def Obligations.ResultsDelivered : Prop :=
  ∀ (s : State) (q : Nat) (j : Job), s.now.job q = some j →
    (∀ a rest, j.queued = a :: rest → s.now.streamOwed j a = false →
      ∃ t j', exec (.ledgerFinal q) s = .next t ∧ t.now.job q = some j' ∧ j'.queued = rest ∧ j'.final = j.final ++ [a] ∧
        t.now.hub.qrs = s.now.hub.qrs ++ a.items q ∧ t.now.eas = s.now.eas ∧ t.now.ddr = s.now.ddr) ∧
    (∀ (flow : Nat) (i : QItem) (l : List QItem), s.now.hub.resend.find? (fun p => p.flow == flow) = none →
      s.now.hub.qrs.filter (fun x => x.flow == flow) = i :: l → s.now.portSends (s.now.portOfFlow i.job flow) = true →
      0 < s.now.payloadMax (s.now.portOfFlow i.job flow) →
      ∃ t p, exec (.qrsPacketSend flow) s = .next t ∧ t.now.hub.lastPkt = some p ∧ p.flow = flow ∧ p.job = i.job ∧
        p.seq = tabGet 0 s.now.hub.pktSeq flow ∧ p.first = i.shot ∧ p.last = i.shot ∧ p.epoch = s.now.epoch ∧
        p.port = s.now.portOfFlow i.job flow ∧ p.resent = false ∧
        p.payload.length ≤ s.now.payloadMax (s.now.portOfFlow i.job flow) ∧
        tabGet 0 t.now.hub.pktSeq flow = tabGet 0 s.now.hub.pktSeq flow + 1 ∧ t.now.objs = s.now.objs ∧
        t.now.ddr = s.now.ddr) ∧
    (∀ (flow : Nat) (p : Packet), s.now.hub.resend.find? (fun x => x.flow == flow) = some p →
      s.now.portSends (s.now.portOfFlow p.job flow) = true →
      ∃ t, exec (.qrsPacketSend flow) s = .next t ∧ t.now.hub.lastPkt = some
          { p with resent := true, port := s.now.portOfFlow p.job flow, sentAt := s.now.epoch } ∧
        t.now.hub.qrs = s.now.hub.qrs ∧ t.now.objs = s.now.objs ∧ t.now.ddr = s.now.ddr) ∧
    (∀ (a : Attempt) (l : List Attempt) (sent : Nat), j.final = a :: l → a.sentFlows.length = a.flows.length →
      a.sentAt = some sent → sent + s.now.rd 0x18000B ≤ s.now.epoch →
      ∃ t, exec (.resultResend (some q)) s = .next t ∧
        t.now.hub.resend = s.now.hub.resend ++ s.now.hub.sent.filter
          (fun p => p.job == q && p.flow != 9 && decide (a.shot ≤ p.last)) ∧
        t.now.hub.qrs = s.now.hub.qrs ∧ t.now.objs = s.now.objs ∧ t.now.ddr = s.now.ddr) ∧
    (∀ (r : Req) (last first : Nat), q ≠ 0 → s.now.pwr.booted = true → s.now.anyPortUp = true →
      s.now.dropsAck r 1 [(q, last)] = false → first = (match j.acked with
        | some a => a + 1
        | none => 0) → first ≤ last →
      (j.final.filter fun a => decide (a.shot ≤ last)).length = last + 1 - first →
      (∀ a ∈ j.final, a.shot ≤ last → ∀ f ∈ a.flows, f ∈ a.sentFlows) →
      (j.st ≠ .ended → j.st ≠ .cancelled → s.now.lat.st ≠ .root →
        ∃ t j', exec (.qrsAck r 1 [(q, last)]) s = .next t ∧ t.now.job q = some j' ∧ j'.acked = some last ∧
          j'.final = j.final.filter (fun a => decide (last < a.shot)) ∧ t.now.ddr = s.now.ddr) ∧
      (j.st = .ended → j.queued = [] → j.tentative = none → (∀ a ∈ j.final, a.shot ≤ last) →
        ∃ t, exec (.qrsAck r 1 [(q, last)]) s = .next t ∧ t.now.job q = none ∧ t.now.ddr = s.now.ddr)) ∧
    (∀ (r : Req) (pairs : List (Nat × Nat)), s.now.pwr.booted = true → s.now.anyPortUp = true →
      s.now.dropsAck r pairs.length pairs = true → Does (.qrsAck r pairs.length pairs) s fun d => d.hostFlag 0x180001 0)

/-! ### Calibration and housekeeping -/

/-- R444, R445, R447, R448, R450 to R456, R695: a CAL_CMD that R445 allows starts a run and any other is rejected; a tile one of whose two
sensors has moved by SKEW_DT starts SKEW; a run that is aborted, or whose reference was lost, changes no trim; a plausible
LOOPBACK result is shown and an implausible one counted; when the last run of a routine of PRIMING or of the wake sequence
ends, the next routine runs on all its units; a fit of at least 64 results a group and a fidelity of at least 0.5
gives the centres, and any other is implausible; glazed values take one step at a glaze instant; a slice whose turn it is
goes to its check at an ADC sample that is a multiple of 48, a spare takes its place, and it comes back with the trims of
the check, or with its own when they are implausible or the reference is lost. -/
def Obligations.CalibrationEngine : Prop :=
  ∀ (s : State),
    (∀ (i : Instr) (routine ukind unit : Nat),
      (i = .calSkew unit ∧ routine = 2 ∧ ukind = 2) ∨ (i = .calLevel ukind unit ∧ routine = 3) ∨
        (i = .calFluxOfs unit ∧ routine = 4 ∧ ukind = 5) ∨ (i = .calLoopback unit ∧ routine = 5 ∧ ukind = 1) →
      ((∀ r ∈ s.now.cal.runs, ¬ (r.routine = routine ∧ r.ukind = ukind ∧ r.unit ∈ calUnits ukind unit)) →
        (routine ≠ 2 → (s.now.state = .primed ∨ s.now.state = .halted) ∧
          ∀ u ∈ calUnits ukind unit, s.now.calHeld ukind u = false) →
        ∃ t, exec i s = .next t ∧ t.now.cal.runs = s.now.cal.runs ++
            (calUnits ukind unit).map (fun u => { routine := routine, ukind := ukind, unit := u, at_ := s.now.epoch }) ∧
          (calUnits ukind unit ≠ [] → t.now.bit 0x680002 routine = true) ∧ t.now.hub = s.now.hub ∧
          t.now.eas = s.now.eas ∧ t.now.ddr = s.now.ddr) ∧
      ((∃ r ∈ s.now.cal.runs, r.routine = routine ∧ r.ukind = ukind ∧ r.unit ∈ calUnits ukind unit) ∨
        (routine ≠ 2 ∧ ((s.now.state ≠ .primed ∧ s.now.state ≠ .halted) ∨
          ∃ u ∈ calUnits ukind unit, s.now.calHeld ukind u = true)) →
        Does i s Dev.conflict)) ∧
    (∀ tile : Nat, s.now.state ≠ .cold → s.now.state ≠ .asleep →
      (∀ r ∈ s.now.cal.runs, ¬ (r.routine = 2 ∧ r.unit = tile)) →
      ((∃ i, (i = 2 * tile ∨ i = 2 * tile + 1) ∧
          (s.now.rd 0x68000A + tabGet 0 s.now.cal.temps i ≤ s.now.tempCode i ∨
            s.now.rd 0x68000A + s.now.tempCode i ≤ tabGet 0 s.now.cal.temps i)) →
        Does (.skewAuto tile) s fun d => d.startRun 2 2 tile) ∧
      ((∀ i, (i = 2 * tile ∨ i = 2 * tile + 1) →
          s.now.tempCode i < s.now.rd 0x68000A + tabGet 0 s.now.cal.temps i ∧
            tabGet 0 s.now.cal.temps i < s.now.rd 0x68000A + s.now.tempCode i) →
        Does (.skewAuto tile) s id)) ∧
    (∀ (routine ukind unit : Nat) (vs : List (Nat × Int)) (p f : Int) (aborted : Bool) (r : CalRun),
      s.now.cal.runs = [r] → r.routine = routine → r.ukind = ukind → r.unit = unit →
      (aborted = true ∨ r.lost = true ∨ s.now.bit 0x200003 0 = false) →
      ∃ t, exec (.calResult routine ukind unit vs p f aborted) s = .next t ∧
        (s.now.cal.phase ≠ routine → t.now.cal.runs = [] ∧ t.now.cal.phase = s.now.cal.phase) ∧
        (s.now.cal.phase = routine →
          (routine = 1 → t.now.cal.phase = 2 ∧ ∀ u, u < 8 → ∃ x ∈ t.now.cal.runs, x.routine = 2 ∧ x.unit = u) ∧
          (routine = 2 → t.now.cal.phase = 3 ∧ ∀ u, u < 64 → ∃ x ∈ t.now.cal.runs, x.routine = 3 ∧ x.ukind = 3 ∧ x.unit = u) ∧
          (routine = 3 → s.now.state = .priming → t.now.cal.phase = 4 ∧
            ∀ u, u < 768 → ∃ x ∈ t.now.cal.runs, x.routine = 4 ∧ x.unit = u) ∧
          (routine = 4 ∨ routine = 3 ∧ s.now.state ≠ .priming → t.now.cal.phase = 0 ∧ t.now.cal.runs = [])) ∧
        t.now.bit 0x680003 2 = true ∧ t.now.cal.stage = s.now.cal.stage ∧
        (∀ key, key ≠ 0x680002 → key ≠ 0x680003 → key ≠ 0x68000B → t.now.rd key = s.now.rd key) ∧
        t.now.eas = s.now.eas ∧ t.now.ddr = s.now.ddr) ∧
    (∀ (unit : Nat) (v p f : Int) (r : CalRun), s.now.cal.runs = [r] → r.routine = 5 → r.ukind = 1 → r.unit = unit →
      r.lost = false → s.now.rd 0x100102 ≤ r.at_ → s.now.calHeld 1 unit = false → s.now.bit 0x200003 0 = true →
      s.now.cal.phase = 0 →
      (576 ≤ v → v ≤ 262143 → ∃ t, exec (.calResult 5 1 unit [(unitKey 0x681003 unit, v)] p f false) s = .next t ∧
        t.now.cal.runs = [] ∧ t.now.rd (unitKey 0x681003 unit) = v.toNat ∧ t.now.eas = s.now.eas ∧ t.now.ddr = s.now.ddr) ∧
      (v < 576 ∨ 262143 < v → ∃ t, exec (.calResult 5 1 unit [(unitKey 0x681003 unit, v)] p f false) s = .next t ∧
        t.now.cal.runs = [] ∧ t.now.rd (unitKey 0x681003 unit) = s.now.rd (unitKey 0x681003 unit) ∧
        t.now.bit 0x680003 0 = true ∧ t.now.eas = s.now.eas ∧ t.now.ddr = s.now.ddr)) ∧
    (∀ (q fid : Nat) (ga gb ground excited : List (Int × Int)) (f : Fit), q < 512 → s.now.cal.fits = [f] → f.qubit = q →
      f.groups = [ga, gb] → s.now.resident = [] →
      (64 ≤ ga.length → 64 ≤ gb.length → 5000 ≤ fid → ∃ t, exec (.discFit q ground excited fid) s = .next t ∧
        t.now.cal.fits = [] ∧
        t.now.rd (unitKey 0x30004B q) = toU 32 (divRound ((ga.map (·.1)).foldl (· + ·) 0) ga.length) ∧
        t.now.rd (unitKey 0x30004C q) = toU 32 (divRound ((ga.map (·.2)).foldl (· + ·) 0) ga.length) ∧
        t.now.rd (unitKey 0x30004D q) = toU 32 (divRound ((gb.map (·.1)).foldl (· + ·) 0) gb.length) ∧
        t.now.rd (unitKey 0x30004E q) = toU 32 (divRound ((gb.map (·.2)).foldl (· + ·) 0) gb.length) ∧
        t.now.eas = s.now.eas ∧ t.now.ddr = s.now.ddr) ∧
      (ga.length < 64 ∨ gb.length < 64 ∨ fid < 5000 → ∃ t, exec (.discFit q ground excited fid) s = .next t ∧
        t.now.cal.fits = [] ∧ t.now.bit 0x680003 0 = true ∧
        (∀ k, 0x300046 ≤ k → k ≤ 0x300052 → t.now.rd (unitKey k q) = s.now.rd (unitKey k q)) ∧
        t.now.eas = s.now.eas ∧ t.now.ddr = s.now.ddr)) ∧
    (s.now.state ≠ .asleep → s.now.rdB 0x680007 = false → s.now.rd 0x680006 ≠ 0 → s.now.epoch % s.now.rd 0x680006 = 0 →
      s.now.cal.lastGlaze ≠ some s.now.epoch →
      ∃ t, exec .glazeStep s = .next t ∧ t.now.cal.lastGlaze = some s.now.epoch ∧
        (∀ (key target u : Nat), (key = unitKey 0x684003 u ∧ target = unitKey 0x684004 u ∧ u < 64) ∨
            (key = unitKey 0x688003 u ∧ target = unitKey 0x688004 u ∧ u < 32) ∨
            (key = unitKey 0x340005 u ∧ target = unitKey 0x690005 u ∧ u < 768) →
          t.now.rd key = toU 16 (if s.now.rd16 key < s.now.rd16 target
            then min (s.now.rd16 target) (s.now.rd16 key + s.now.rd 0x680005)
            else max (s.now.rd16 target) (s.now.rd16 key - s.now.rd 0x680005))) ∧
        t.now.hub = s.now.hub ∧ t.now.ddr = s.now.ddr) ∧
    (∀ (n x p y : Nat) (rest : List Nat), s.now.state ≠ .cold → s.now.state ≠ .asleep → s.now.cal.phase ≠ 1 →
      (s.now.lineRx n).checking = none →
      s.now.rd (unitKey 0x384025 n) ≠ 0 → (s.now.lineRx n).lastTurn + s.now.rd 0x680008 ≤ s.now.epoch →
      (s.now.epoch % 3 = 0 → s.now.nextSlice n = some x →
        (List.range 48).find? (fun i => s.now.sliceAt n i == x) = some p → (s.now.lineRx n).spares = y :: rest → x < 52 →
        y < 52 → ∃ t, exec (.sliceRotate n) s = .next t ∧ (t.now.lineRx n).checking = some x ∧
          (t.now.lineRx n).spares = rest ∧ (t.now.lineRx n).turn = (x + 1) % 52 ∧
          (t.now.lineRx n).lastTurn = s.now.epoch ∧ t.now.sliceAt n p = y ∧ t.now.hub = s.now.hub ∧
          t.now.ddr = s.now.ddr) ∧
      (s.now.epoch % 3 ≠ 0 → Does (.sliceRotate n) s fun d => d.setLine n { d.lineRx n with rotateDue := true })) ∧
    (∀ (n x spur : Nat) (ofs gain skew : Int), (s.now.lineRx n).checking = some x →
      (s.now.lineRx n).lastTurn + 6000 ≤ s.now.epoch →
      (s.now.bit 0x200003 0 = false → ∃ t, exec (.sliceCheck n ofs gain skew spur) s = .next t ∧
        (t.now.lineRx n).checking = none ∧ (t.now.lineRx n).spares = (s.now.lineRx n).spares ++ [x] ∧
        t.now.rd (unitKey 0x681001 n) = s.now.rd (unitKey 0x681001 n) ∧ t.now.bit 0x680003 2 = true ∧
        t.now.ddr = s.now.ddr) ∧
      (s.now.bit 0x200003 0 = true → s.now.sliceOk n x ofs gain skew = true → ∃ t, exec (.sliceCheck n ofs gain skew spur) s = .next t ∧
        (t.now.lineRx n).checking = none ∧ (t.now.lineRx n).spares = (s.now.lineRx n).spares ++ [x] ∧
        t.now.sliceTrim n x 0 = ofs ∧ t.now.sliceTrim n x 1 = gain ∧ t.now.sliceTrim n x 2 = skew ∧
        t.now.rd (unitKey 0x681002 n) = spur ∧ t.now.ddr = s.now.ddr) ∧
      (s.now.bit 0x200003 0 = true → s.now.sliceOk n x ofs gain skew = false → tabGet 0 s.now.cal.bad (calIndex 1 1 (52 * n + x)) < 2 →
        ∃ t, exec (.sliceCheck n ofs gain skew spur) s = .next t ∧ (t.now.lineRx n).checking = none ∧
          t.now.bit (unitKey 0x384026 n) 1 = true ∧ t.now.rd (unitKey 0x681001 n) = s.now.rd (unitKey 0x681001 n) ∧
          t.now.ddr = s.now.ddr))

/-- R467 to R474, R698: an enabled source starts a scan one tick later, or holds one trigger while a scan or a conversion of
the calibration engine runs, and a trigger beyond that is lost; a source that is not enabled starts nothing; a result is stored with its tick and the bits of the limits it is outside of; a die at or
above 100 °C sets THERM_WARN. -/
def Obligations.HousekeepingScans : Prop :=
  ∀ (s : State),
    (∀ (i : Instr) (source : Nat), (i = .hkTimer ∧ source = 0 ∧ s.now.state ≠ .asleep ∧
          s.now.cal.timerAt + s.now.rd 0x6C0402 ≤ s.now.epoch) ∨ (i = .hkCmd ∧ source = 2) →
      s.now.bit 0x6C0401 source = true → s.now.cal.trigAt ≠ some s.now.epoch →
      (s.now.cal.scan = none → (∀ c, s.now.cal.conv = some c → c ≤ s.now.epoch + 1) → ∃ t sc, exec i s = .next t ∧ t.now.cal.scan = some sc ∧ sc.step = 0 ∧
        sc.at_ = s.now.epoch + 1 ∧ sc.got = 0 ∧ t.now.objs = s.now.objs ∧ t.now.hub = s.now.hub ∧ t.now.ddr = s.now.ddr) ∧
      (s.now.cal.scan ≠ none ∨ (∃ c, s.now.cal.conv = some c ∧ s.now.epoch + 1 < c) → s.now.cal.held = false →
        ∃ t, exec i s = .next t ∧ t.now.cal.held = true ∧ t.now.cal.scan = s.now.cal.scan ∧ t.now.objs = s.now.objs ∧ t.now.hub = s.now.hub ∧ t.now.ddr = s.now.ddr) ∧
      (s.now.cal.scan ≠ none ∨ (∃ c, s.now.cal.conv = some c ∧ s.now.epoch + 1 < c) → s.now.cal.held = true →
        ∃ t, exec i s = .next t ∧ t.now.cal.scan = s.now.cal.scan ∧ t.now.bit 0x6C0406 1 = true ∧ t.now.hub = s.now.hub ∧ t.now.ddr = s.now.ddr)) ∧
    (s.now.bit 0x6C0401 2 = false → Does .hkCmd s id) ∧
    (∀ (k : Nat) (code : BitVec 12) (sc : Scan) (i : Nat), s.now.cal.scan = some sc → k < 4 → sc.got.testBit k = false →
      sc.at_ + (if sc.low.testBit k then 6000 else 750) ≤ s.now.epoch →
      bits (s.now.rd (unitKey 0x6C0002 k)) (8 * sc.step + 7) (8 * sc.step) = i →
      ∃ t, exec (.hkResult k code) s = .next t ∧
        t.now.rd (unitKey 0x6D0001 (32 * k + i)) = code.toNat + 2 ^ 14 +
          (if code.toNat < s.now.rd (unitKey 0x6D0002 (32 * k + i)) then 2 ^ 12 else 0) +
          (if s.now.rd (unitKey 0x6D0003 (32 * k + i)) < code.toNat then 2 ^ 13 else 0) ∧
        t.now.rd (unitKey 0x6D0006 (32 * k + i)) = sc.at_ ∧
        (code.toNat < s.now.rd (unitKey 0x6D0002 (32 * k + i)) ∨ s.now.rd (unitKey 0x6D0003 (32 * k + i)) < code.toNat →
          t.now.bit (unitKey 0x6C0003 k) i = true) ∧
        t.now.hub = s.now.hub ∧ t.now.ddr = s.now.ddr) ∧
    (∀ code : Nat, (2624 ≤ code → ∃ t, exec (.thermWarn code) s = .next t ∧ t.now.bit 0x7C0001 0 = true ∧
        t.now.rd 0x7C0007 = max (s.now.rd 0x7C0007) code ∧ t.now.state = s.now.state ∧ t.now.hub = s.now.hub ∧
        t.now.eas = s.now.eas ∧ t.now.dsp = s.now.dsp ∧ t.now.pwr = s.now.pwr ∧ t.now.ddr = s.now.ddr) ∧
      (code < 2624 → Does (.thermWarn code) s id))

/-! ### Event matrix and notifications -/

/-- R479 to R482, R485 to R487, R493: a cause that is no delivery fires its line, in both modes, which is recorded and delivered one tick later to every
line fed by it; an AND gate fires when the last bit of its mask arrives and keeps its armed bits until then
or until they expire; the first copy of a lattice event is a cause at its line. -/
def Obligations.EventLines : Prop :=
  ∀ (s : State) (k : Nat) (c : Cause), c.line = k → s.now.state ≠ .asleep →
    (s.now.ev.causes = [c] → c.tick ≤ s.now.epoch → (s.now.lineSt k).lastFire ≠ some c.tick →
      (c.src = none →
        ∃ t, exec (.eventLineFire k) s = .next t ∧ (t.now.lineSt k).lastFire = some c.tick ∧
          t.now.rd (unitKey 0x700008 k) = c.tick ∧
          (∀ j ∈ s.now.fedBy k, ∃ x ∈ t.now.ev.causes, x.line = j ∧ x.tick = c.tick + 1 ∧ x.src = some k ∧ x.hops = 0 ∧
            x.chain = [k]) ∧ t.now.hub = s.now.hub ∧ t.now.ddr = s.now.ddr) ∧
      (∀ m : Nat, s.now.rd (unitKey 0x700002 k) = 1 → c.src = some m → c.chain.contains k = false →
        s.now.rd (unitKey 0x700003 k) = 0 → (s.now.rd (unitKey 0x700004 k)).testBit m = false →
        (Nat.land (Nat.lor (s.now.rd (unitKey 0x700004 k)) (2 ^ m)) (s.now.rd (unitKey 0x700001 k)) =
            s.now.rd (unitKey 0x700001 k) →
          ∃ t, exec (.eventLineFire k) s = .next t ∧ (t.now.lineSt k).lastFire = some c.tick ∧
            t.now.rd (unitKey 0x700004 k) = 0 ∧ t.now.hub = s.now.hub ∧ t.now.ddr = s.now.ddr) ∧
        (Nat.land (Nat.lor (s.now.rd (unitKey 0x700004 k)) (2 ^ m)) (s.now.rd (unitKey 0x700001 k)) ≠
            s.now.rd (unitKey 0x700001 k) →
          ∃ t, exec (.eventLineFire k) s = .next t ∧ (t.now.lineSt k).lastFire = (s.now.lineSt k).lastFire ∧
            t.now.rd (unitKey 0x700004 k) = Nat.lor (s.now.rd (unitKey 0x700004 k)) (2 ^ m) ∧ t.now.ev.causes = [] ∧
            t.now.hub = s.now.hub ∧ t.now.ddr = s.now.ddr))) ∧
    (∀ m at_ : Nat, (s.now.lineSt k).armTicks = [(m, at_)] → (∀ f, (s.now.lineSt k).lastFire = some f → f < at_) →
      s.now.rd (unitKey 0x700003 k) ≠ 0 → at_ + s.now.rd (unitKey 0x700003 k) ≤ s.now.epoch →
      ∃ t, exec (.andExpired k) s = .next t ∧ t.now.rd (unitKey 0x700004 k) = 0 ∧ t.now.bit (unitKey 0x700009 k) 3 = true ∧
        (t.now.lineSt k).armTicks = [] ∧ (t.now.lineSt k).lastFire = (s.now.lineSt k).lastFire ∧ t.now.hub = s.now.hub ∧
        t.now.ddr = s.now.ddr) ∧
    (∀ (h : CellHdr) (fired origin line hops : Nat) (path : Bool), (s.now.rxCell h).2 = true → origin ≠ s.now.chip →
      line < 8 → tabGet 0 s.now.lat.evSeen (evIndex origin line path) ≤ fired →
      tabGet 0 s.now.lat.evSeen (evIndex origin line (!path)) ≤ fired → s.now.rdB (objKey (0x70F8 + line) 5) = true →
      ∃ t, exec (.latticeEvent h fired origin line path hops (s.now.rd 0x201002)) s = .next t ∧
        tabGet 0 t.now.lat.evSeen (evIndex origin line path) = fired + 1 ∧
        t.now.ev.causes = s.now.ev.causes ++ [{ line := 0xF8 + line, tick := s.now.epoch, lattice := true }] ∧
        t.now.hub = s.now.hub ∧ t.now.ddr = s.now.ddr)

/-- R497, R499 to R505, R555: a frame forms when R499 says so, with at most 64 entries, the next FRAME_SEQ and its epoch,
and its slots leave the queue (the aggregator's own slot may be raised again by FRAME_OVERFLOW); the oldest frame leaves for the notification destination, if there is one. -/
def Obligations.NotificationFrames : Prop :=
  ∀ (s : State),
    (s.now.frameDue = true → ∃ t f, exec .notificationFrame s = .next t ∧ t.now.agg.formed = s.now.agg.formed ++ [f] ∧
      f.seq = (s.now.rd 0x740001 + 1) % 2 ^ 32 ∧ t.now.rd 0x740001 = f.seq ∧ f.epoch = s.now.epoch ∧
      f.entries.length = min 64 s.now.agg.queue.length ∧ (f.queued = 0 → t.now.agg.queue = []) ∧
      (∀ e ∈ f.entries, slotOf 0x740004 ≠ some e.slot → ∀ x ∈ t.now.agg.queue, x.slot ≠ e.slot) ∧
      (∀ e ∈ f.entries, (∃ x ∈ s.now.agg.queue, x.slot = e.slot) ∧ e.value = s.now.rd ((slotKey e.slot).getD 0)) ∧
      t.now.agg.lastFrame = some s.now.epoch ∧ t.now.hub = s.now.hub ∧ t.now.ddr = s.now.ddr) ∧
    (s.now.frameDue = false → Does .notificationFrame s id) ∧
    (∀ (f : NFrame) (l : List NFrame), s.now.agg.formed = f :: l →
      ∃ t, exec .notificationSend s = .next t ∧ t.now.agg.formed = l ∧
        (s.now.rd 0x180002 ≠ 0 → t.now.agg.sent = some f ∧ t.now.agg.sentTag = hmac (s.now.ident (s.now.rd 0x180004)).key
          (qopHeader 3 (s.now.rd 0x180004) f.bytes.length f.seq 0 0 s.now.state.code f.epoch ++ f.bytes)) ∧
        (s.now.rd 0x180002 = 0 → t.now.agg.sent = s.now.agg.sent) ∧ t.now.hub = s.now.hub ∧ t.now.ddr = s.now.ddr)

/-! ### Time and lattice -/

/-- R42 to R44, R54 to R57, R79, R89 to R91: PLL lock starts the epoch counter and accepts a reference within 20 ppm; loss of the lock sets its flag; the reference
is lost on REF_LOSS or when its offset passes 50 ppm, is accepted within 20 ppm, and sets REF_TOLERANCE when it is present
and leaves 20 ppm without a loss; a SYNC_IN edge is captured and, where it may, loads the epoch at the first alignment point at least 15
ticks later; SYNC_OUT is high for 8 ticks; 1PPS and PTP of the chip's domain, from the master selected, give anchors. That
each edge after the one that HOST_SECONDS names counts its second on is the model's choice (log entry 104). -/
def Obligations.TimeReferences : Prop :=
  ∀ (s : State),
    (∃ t, exec .pllLock s = .next t ∧ t.now.counting = true ∧ t.now.bit 0x200003 1 = true ∧
      (∀ o : Int, sext 16 (s.now.rd 0x200003 / 2 ^ 16) = o → (-2000 ≤ o → o ≤ 2000 → t.now.bit 0x200003 0 = true) ∧
        (o < -2000 ∨ 2000 < o → t.now.bit 0x200003 0 = s.now.bit 0x200003 0)) ∧ t.now.epoch = s.now.epoch ∧ t.now.hub = s.now.hub ∧ t.now.ddr = s.now.ddr) ∧
    (∃ t, exec .pllUnlock s = .next t ∧ t.now.bit 0x200003 1 = false ∧ t.now.bit 0x200004 1 = true ∧
      t.now.state = (if s.now.state = .priming then .faulted else s.now.state) ∧ t.now.ddr = s.now.ddr) ∧
    (∃ t, exec .refLoss s = .next t ∧ t.now.bit 0x200003 0 = false ∧ t.now.bit 0x200004 0 = true ∧
      (∀ r ∈ t.now.cal.runs, r.lost = true) ∧ (s.now.lat.st = .root → t.now.lat.releaseDue = s.now.lat.beating) ∧
      (s.now.lat.st ≠ .holdover → t.now.hub = s.now.hub) ∧
      (s.now.lat.st = .holdover → t.now.hub = s.now.spoilAll.hub) ∧ t.now.ddr = s.now.ddr) ∧
    (∀ o : Int, ∃ t, exec (.refTolerance o) s = .next t ∧ t.now.rd 0x200003 / 2 ^ 16 = toU 16 o ∧
      (o < -5000 ∨ 5000 < o → t.now.bit 0x200003 0 = false ∧ (s.now.bit 0x200003 0 = true → t.now.bit 0x200004 0 = true)) ∧
      (-2000 ≤ o → o ≤ 2000 → t.now.bit 0x200003 0 = true) ∧
      ((-5000 ≤ o ∧ o < -2000) ∨ (2000 < o ∧ o ≤ 5000) → s.now.lat.refOut = false → s.now.bit 0x200003 0 = true →
        t.now.bit 0x200004 13 = true) ∧
      ((-5000 ≤ o ∧ o < -2000) ∨ (2000 < o ∧ o ≤ 5000) → s.now.bit 0x200003 0 = false →
        ∀ key, key ≠ 0x200003 → t.now.rd key = s.now.rd key) ∧
      t.now.lat.refOut = decide (o < -2000 ∨ 2000 < o) ∧
      (s.now.lat.st ≠ .holdover ∨ (-5000 ≤ o ∧ o ≤ 5000) → t.now.hub = s.now.hub) ∧ t.now.ddr = s.now.ddr) ∧
    (∃ t, exec .syncIn s = .next t ∧ t.now.rd 0x200106 = s.now.epoch ∧
      (s.now.rd 0x200101 = 1 → s.now.syncLoadOk = true →
        t.now.lat.syncLoads = s.now.lat.syncLoads ++ [(s.now.epoch + 29) / 15 * 15]) ∧
      (s.now.rd 0x200101 = 1 → s.now.syncLoadOk = false → t.now.bit 0x200004 2 = true) ∧
      (s.now.rd 0x200101 ≠ 1 → t.now.lat = s.now.lat) ∧ t.now.hub = s.now.hub ∧ t.now.ddr = s.now.ddr) ∧
    (s.now.counting = true → s.now.epoch + 1 ∈ s.now.lat.syncLoads →
      (s.now.syncLoadOk = true → s.now.countTick.epoch = s.now.rd 0x200102) ∧
      (s.now.syncLoadOk = false → s.now.countTick.epoch = s.now.epoch + 1 ∧ s.now.countTick.bit 0x200004 2 = true)) ∧
    ((s.now.rd 0x200103 = 2 ∧ s.now.epoch % 750 = 0) ∨ (s.now.rd 0x200103 = 1 ∧ s.now.rd 0x200105 ≤ s.now.epoch ∧
        (s.now.epoch - s.now.rd 0x200105) % s.now.rd 0x200104 = 0) →
      Does .syncOutPulse s fun d => { d with lat := { d.lat with syncOutEnd := d.epoch + 8 } }) ∧
    (∀ sec, s.now.rd 0x203001 = 3 → s.now.lat.ppsSecond = some sec → ∃ t, exec .ppsIn s = .next t ∧
      t.now.rd 0x203004 = s.now.epoch ∧ t.now.rd 0x203005 = sec % 2 ^ 48 ∧ t.now.rd 0x203006 = 0 ∧
      t.now.lat.anchored = true ∧ t.now.lat.ppsSecond = some (sec + 1) ∧ t.now.bit 0x203003 1 = true ∧
      t.now.hub = s.now.hub ∧ t.now.ddr = s.now.ddr) ∧
    (∀ (ns : Nat) (at_ : Int), s.now.rd 0x203001 = 2 → s.now.lat.ptpTime = some (ns, at_) → ∃ t, exec .ppsIn s = .next t ∧
      t.now.rd 0x203004 = s.now.epoch ∧
      t.now.rd 0x203005 = (divRound (3 * ns + 4 * ((s.now.epoch : Int) - at_)) (3 * 10 ^ 9)).toNat % 2 ^ 48 ∧
      t.now.rd 0x203006 = 0 ∧ t.now.lat.anchored = true ∧ t.now.bit 0x203003 1 = true ∧ t.now.hub = s.now.hub ∧
      t.now.ddr = s.now.ddr) ∧
    (∀ (domain sec ns : Nat) (rate : Int),
      (domain = s.now.rd 0x203002 → s.now.bit 0x203003 0 = true → ∃ t, exec (.ptpSync domain sec ns rate) s = .next t ∧
        t.now.rd 0x203007 = toU 32 rate ∧ t.now.lat.ptpTime = some (10 ^ 9 * sec + ns, (s.now.epoch : Int)) ∧
        (s.now.rd 0x203001 = 1 → t.now.rd 0x203004 = s.now.epoch ∧ t.now.rd 0x203005 = sec % 2 ^ 48 ∧
          t.now.rd 0x203006 = ns % 10 ^ 9 ∧ t.now.lat.anchored = true) ∧ t.now.hub = s.now.hub ∧ t.now.ddr = s.now.ddr) ∧
      (domain ≠ s.now.rd 0x203002 ∨ s.now.bit 0x203003 0 = false → Does (.ptpSync domain sec ns rate) s id)) ∧
    (∀ (domain : Nat) (utc : Int),
      (domain = s.now.rd 0x203002 → ∃ t, exec (.ptpAnnounce domain utc) s = .next t ∧ t.now.rd 0x203009 = toU 16 utc ∧
        t.now.bit 0x203003 0 = true ∧ t.now.hub = s.now.hub ∧ t.now.ddr = s.now.ddr) ∧
      (domain ≠ s.now.rd 0x203002 → Does (.ptpAnnounce domain utc) s id))

/-- R60 to R64, R66 to R69, R73 to R79, R83 to R87: a root sends a beat with its lease, PATH and RELEASE on each spine link of
both trees at each beat slot; a beat of another lattice is discarded and counted; one on an excluded link is not used, nor a second copy; a first copy goes on along its tree
and, from the root that a chip follows, renews its lease, and one of a higher term or lower rank makes it follow anew
through RESYNC; three misses on the only path are root loss; a standby takes the token over at its tick; HOLDOVER ends in
ISOLATED; RESYNC ends by its offset or slews; a join goes from LISTENING through LOCKING and ALIGNING to JOINED. That a
standby may take over from RESYNC is the model's choice (log entry 107). -/
def Obligations.SpineAndLease : Prop :=
  ∀ (s : State),
    (s.now.lat.st = .root → s.now.lat.beating = true → s.now.epoch % 750 = 0 → s.now.lat.beatSlot ≠ some s.now.epoch →
      ∃ t, exec .beatSend s = .next t ∧
        (∀ x : Bool, ∃ b, (b, s.now.treeLinks x) ∈ t.now.lat.sentBeats ∧ b.path = x ∧
          b.slot = s.now.epoch ∧ b.term = s.now.rd 0x201103 ∧ b.root = s.now.chip ∧ b.release = s.now.lat.releaseDue ∧
          b.lease = (if s.now.lat.releaseDue then 0 else 9000) ∧ b.hops = 0 ∧ b.accDelay = 0 ∧
          ∀ k ∈ s.now.treeLinks x, s.now.linkUp k = true → b ∈ (t.now.link k).beats) ∧
        t.now.lat.beating = !s.now.lat.releaseDue ∧ t.now.hub = s.now.hub ∧ t.now.ddr = s.now.ddr) ∧
    (∀ (k : Nat) (b : BeatMsg), s.now.linkUp k = true →
      (b.latticeId ≠ s.now.rd 0x201002 → Does (.beat k b) s fun d => d.bump (ctrKey 0xCF0 0x41) 1) ∧
      (b.latticeId = s.now.rd 0x201002 → s.now.lat.excluded.contains k = true → Does (.beat k b) s id) ∧
      (s.now.lat.excluded.contains k = false →
        (b.latticeId = s.now.rd 0x201002 → (s.now.lat.path b.path).seen.contains (b.term, b.slot) = true →
          Does (.beat k b) s id) ∧
        (b.latticeId = s.now.rd 0x201002 → (s.now.lat.path b.path).seen.contains (b.term, b.slot) = false →
          (s.now.lat.st = .joined → b.term = s.now.rd 0x201103 → b.rank = s.now.lat.rank →
            ∃ t out, exec (.beat k b) s = .next t ∧ t.now.lat.st = .joined ∧ t.now.lat.leaseEnd = b.slot + b.lease ∧
              t.now.rd 0x201104 = b.lease ∧ t.now.rd (if b.path then 0x201106 else 0x201105) = 0 ∧
              t.now.lat.sentBeats = [(out, (s.now.treeLinks b.path).filter (· != k))] ∧ out.hops = b.hops + 1 ∧
              out.slot = b.slot ∧ (b.term, b.slot) ∈ (t.now.lat.path b.path).seen ∧ t.now.hub = s.now.hub ∧
              t.now.ddr = s.now.ddr) ∧
          (s.now.lat.st = .joined ∨ s.now.lat.st = .holdover ∨ s.now.lat.st = .resync ∨ s.now.lat.st = .root →
            (s.now.rd 0x201103 < b.term ∨ (b.term = s.now.rd 0x201103 ∧ b.rank < s.now.lat.rank)) →
            ∃ t, exec (.beat k b) s = .next t ∧ t.now.lat.st = .resync ∧ t.now.rd 0x201103 = b.term ∧
              t.now.rd 0x201102 = b.root ∧ t.now.lat.rank = b.rank ∧
              t.now.bit 0x200004 (if s.now.lat.st = .root then 10 else 7) = true ∧ t.now.hub = s.now.hub ∧
              t.now.ddr = s.now.ddr)))) ∧
    (∀ sec : Bool, (s.now.lat.st = .locking ∨ s.now.lat.st = .aligning ∨ s.now.lat.st = .joined ∨ s.now.lat.st = .resync ∨
        s.now.lat.st = .holdover) →
      s.now.rd (if sec then 0x201004 else 0x201003) < 12 →
      (s.now.lat.path sec).expect + (s.now.lat.path sec).latency + 75 ≤ s.now.rootEpoch (s.now.lat.path sec) →
      ∃ t, exec (.beatMiss sec) s = .next t ∧
        t.now.rd (if sec then 0x201106 else 0x201105) = min (s.now.rd (if sec then 0x201106 else 0x201105) + 1) 255 ∧
        (t.now.lat.path sec).expect = (s.now.lat.path sec).expect + 750 ∧
        t.now.bit 0x200004 (if sec then 4 else 3) = true ∧
        (s.now.lat.st ≠ .holdover → 12 ≤ s.now.rd (if sec then 0x201003 else 0x201004) →
          2 ≤ s.now.rd (if sec then 0x201106 else 0x201105) → t.now.lat.st = .holdover ∧ t.now.bit 0x200004 5 = true ∧
            t.now.lat.holdStart = s.now.epoch) ∧ t.now.eas = s.now.eas ∧ t.now.ddr = s.now.ddr) ∧
    (∀ a, (s.now.lat.st = .joined ∨ s.now.lat.st = .resync ∨ s.now.lat.st = .holdover) → 1 ≤ s.now.rd 0x201005 →
      s.now.rd 0x201005 ≤ 4 → takeoverAt s.now.lat (s.now.rd 0x201005) = some a → a ≤ s.now.epoch →
      s.now.resident.filter (·.head.multiChip) = [] →
      ∃ t, exec .takeover s = .next t ∧ t.now.lat.st = .root ∧ t.now.lat.rank = s.now.rd 0x201005 ∧
        t.now.lat.beating = true ∧ t.now.rd 0x201103 = (s.now.rd 0x201103 + 1) % 2 ^ 32 ∧ t.now.rd 0x201102 = s.now.chip ∧
        t.now.bit 0x200004 6 = true ∧ (s.now.resident = [] → t.now.hub = s.now.hub) ∧ t.now.ddr = s.now.ddr) ∧
    (s.now.lat.st = .holdover → s.now.lat.holdStart + s.now.rd 0x201007 ≤ s.now.epoch →
      ∃ t, exec .holdoverLimit s = .next t ∧ t.now.lat.st = .isolated ∧ t.now.bit 0x200004 8 = true ∧
        t.now.rd 0x201108 = s.now.epoch - s.now.lat.holdStart ∧ t.now.hub = s.now.spoilAll.hub ∧ t.now.ddr = s.now.ddr) ∧
    (∀ o : Int, s.now.lat.st = .resync → 4 ≤ s.now.lat.resyncSlots.length → slewDone s.now.lat.slew s.now.epoch = true →
      ∃ t, exec (.resyncComplete o) s = .next t ∧ t.now.rd 0x201107 = toU 32 o ∧
        t.now.lat.st = (if o < -64 ∨ 64 < o then .isolated else if -1 ≤ o ∧ o ≤ 1 then .joined else .resync) ∧
        t.now.lat.slew = (if -64 ≤ o ∧ o ≤ 64 ∧ (o < -1 ∨ 1 < o) then some (o, s.now.epoch) else none) ∧
        (o < -64 ∨ 64 < o → t.now.bit 0x200004 9 = true) ∧ t.now.ddr = s.now.ddr) ∧
    (∀ (rts : List (Nat × Nat)) (d : Dev), s.now.lat.st = .listening → s.now.spineLinks ≠ [] →
      (∀ k, k < 12 → s.now.onSpine k = true → ∃ r ∈ rts, r.1 = k) →
      (∀ x ∈ s.now.spineLinks, 64 ≤ (s.now.lat.path x.2).heard) →
      d = (rts.filter fun r => s.now.onSpine r.1).foldl (fun e r => e.measureLink r.1 r.2) s.now →
      ((∀ x ∈ s.now.spineLinks, (s.now.lat.path x.2).hops ≤ 8 ∧ ∀ link slot acc at_,
          (s.now.lat.path x.2).got = some (link, slot, acc, at_) → acc + d.rd (unitKey 0x202003 link) ≤ 128 * 1500) →
        ∃ t, exec (.listeningComplete rts []) s = .next t ∧ t.now.lat.st = .locking ∧ t.now.bit 0x200003 2 = true ∧
          (∀ k rt, (k, rt) ∈ rts → (rts.map (·.1)).Nodup → s.now.onSpine k = true → t.now.rd (unitKey 0x202001 k) = rt % 2 ^ 32 ∧
            t.now.rd (unitKey 0x202003 k) = toU 32 (divRound
              ((rt % 2 ^ 32 : Nat) + sext 16 (s.now.rd (unitKey 0x202002 k))) 2)) ∧
          t.now.hub = s.now.hub ∧ t.now.ddr = s.now.ddr) ∧
      ((∃ x ∈ s.now.spineLinks, 8 < (s.now.lat.path x.2).hops ∨ ∃ link slot acc at_,
          (s.now.lat.path x.2).got = some (link, slot, acc, at_) ∧ 128 * 1500 < acc + d.rd (unitKey 0x202003 link)) →
        ∃ t, exec (.listeningComplete rts []) s = .next t ∧ t.now.lat.st = .listening ∧ t.now.bit 0x200004 12 = true ∧
          t.now.hub = s.now.hub ∧ t.now.ddr = s.now.ddr) ∧
      (∀ (k : Nat) (a : Int), s.now.onSpine k = true → a + sext 16 (s.now.rd (unitKey 0x202002 k)) ≠ 0 →
        ∃ t, exec (.listeningComplete rts [(k, a)]) s = .next t ∧ k ∈ t.now.lat.excluded ∧ t.now.bit 0x200004 12 = true ∧
          t.now.hub = s.now.hub ∧ t.now.ddr = s.now.ddr)) ∧
    (∀ link slot acc at_ : Nat, s.now.lat.st = .locking →
      (s.now.state = .cold ∨ s.now.state = .priming ∨ s.now.state = .primed) →
      s.now.usedPath.got = some (link, slot, acc, at_) →
      ∃ t, exec .lockingComplete s = .next t ∧ t.now.epoch = slot + acc / 128 + (s.now.epoch - at_) ∧
        t.now.counting = true ∧ t.now.lat.st = .aligning ∧ (∀ key, key ≠ 0x203004 → t.now.rd key = s.now.rd key) ∧ t.now.eas = s.now.eas ∧
        t.now.ddr = s.now.ddr) ∧
    (∀ o : Int, s.now.lat.st = .aligning → ∃ t, exec (.aligningComplete o) s = .next t ∧ t.now.rd 0x201107 = toU 32 o ∧
      t.now.lat.st = (if -1 ≤ o ∧ o ≤ 1 then .joined else .aligning) ∧ t.now.hub = s.now.hub ∧ t.now.ddr = s.now.ddr)

/-- R53, R82, R357, R523, R592, R654, R655: a message for another chip goes on along ROUTE; the root records the reports
and triggers of a job, and the chip of a report in MEMBERS; a chip takes SHOT_START as its next start and applies HALT, RESUME and CANCEL to its
job. -/
def Obligations.LatticeMessages : Prop :=
  ∀ (s : State) (m : LatMsg),
    (∀ (i : Instr) (kind : Nat), (i = .drainDone m ∧ kind = 1) ∨ (i = .shotStartMsg m ∧ kind = 2) ∨
        (i = .triggerMsg m ∧ kind = 3) ∨ (i = .haltMsg m ∧ kind = 4) ∨ (i = .resumeMsg m ∧ kind = 5) ∨
        (i = .cancelMsg m ∧ kind = 6) → m.dst ≠ s.now.chip →
      (s.now.route m.dst < 12 → Does i s fun d => d.sendCell (d.route m.dst) (.msg kind m)) ∧
      (12 ≤ s.now.route m.dst → Does i s id)) ∧
    (m.dst = s.now.chip → s.now.lat.st = .root →
      ((s.now.takeDrain m).rootStart m.jobSeq = none → ∃ t, exec (.drainDone m) s = .next t ∧
        (∃ r ∈ t.now.lat.drains, r.ljob = m.jobSeq ∧ r.chip = m.src ∧ r.shot = m.shot ∧ r.at_ = s.now.epoch) ∧
        (m.src ≠ s.now.chip → t.now.bit 0x201109 m.src = true) ∧ t.now.hub = s.now.hub ∧ t.now.eas = s.now.eas ∧ t.now.ddr = s.now.ddr) ∧
      ((s.now.noteTrigger m.jobSeq m.epoch).rootStart m.jobSeq = none → ∃ t, exec (.triggerMsg m) s = .next t ∧
        (∃ r ∈ t.now.lat.drains, r.ljob = m.jobSeq ∧ r.chip = 64) ∧ t.now.hub = s.now.hub ∧ t.now.eas = s.now.eas ∧
        t.now.ddr = s.now.ddr)) ∧
    (∀ j : Job, m.dst = s.now.chip → s.now.lat.st ≠ .root → s.now.ljob m.jobSeq = some j →
      ∀ (i : Instr) (d : Dev), (i = .haltMsg m ∧ d = s.now.localHalt j.seq) ∨ (i = .resumeMsg m ∧ d = s.now.localResume j.seq) ∨
          (i = .cancelMsg m ∧ d = s.now.localCancel j.seq) → d.lat.st ≠ .root → exec i s = .next { s with now := d }) ∧
    (∀ j : Job, m.dst = s.now.chip → s.now.ljob m.jobSeq = some j → s.now.job j.seq = some j → j.st.resident = true →
      (j.phase = .waiting ∨ j.phase = .boundary) → j.tentative = none → j.stopDue = false → s.now.awaitsUnit j = false →
      nearIndex j.nextShot m.shot < j.head.shots → s.now.epoch ≤ m.epoch →
      (∀ k ∈ s.now.hub.jobs, k.head.multiChip = true → k.head.ljob = m.jobSeq → k.st.resident = true → k = j) →
      ∃ t j', exec (.shotStartMsg m) s = .next t ∧ t.now.job j.seq = some j' ∧ j'.nextStart = some m.epoch ∧
        j'.shot = nearIndex j.nextShot m.shot ∧ (∀ p ∈ j.held.canvases, (t.now.thread p.thread).active = true ∧
          (t.now.thread p.thread).main.cursor = m.epoch) ∧ t.now.objs = s.now.objs ∧ t.now.ddr = s.now.ddr)

/-! ### Serial lanes -/

/-- R518, R522, R528 to R533, R568, R690: an acknowledgement frees held cells, and takes them from those still to be sent
again; NAK and a timeout resend from the cell they name, a BULK_HEAD with the data cells of its transfer; a data cell
joins its transfer, and an invalid sync header of a lane sets its SYNC_ERR bit; a bulk transfer whose CRC matches is stored in DDR4 at its address, byte for byte, and one whose CRC does not match is
asked for again from its BULK_HEAD; REFRESH measures the eye of each lane. -/
def Obligations.CellsReceived : Prop :=
  ∀ (s : State) (c : CellHdr), s.now.linkUp c.link = true → c.good = true →
    (∀ i : Nat, c.ackValid = true → (s.now.link c.link).held.findIdx? (fun h => h.cseq == c.ackSeq) = some i →
      Does (.idle c) s fun d => d.setLink c.link { d.link c.link with
        held := stayHeld (d.link c.link).held i
        resent := stillHeld (stayHeld (d.link c.link).held i) true (d.link c.link).resent, expired := 0 }) ∧
    (∀ expected i : Nat, c.ackValid = false →
      (s.now.link c.link).held.findIdx? (fun h => h.cseq == expected) = some i →
      ∃ t, exec (.nak c expected) s = .next t ∧
        (t.now.link c.link).resent = ((s.now.link c.link).held.drop i).flatMap
          (fun h => (h.cseq, h.body) :: h.data.map fun b => (0, .data b)) ∧
        t.now.bit (unitKey 0x24000A c.link) 1 = true ∧ t.now.hub = s.now.hub ∧ t.now.ddr = s.now.ddr) ∧
    (∀ (h : HeldCell) (l : List HeldCell) (i : Nat), (s.now.link c.link).unacked = h :: l →
      (s.now.link c.link).held.findIdx? (fun x => x.cseq == h.cseq) = some i →
      h.at_ + s.now.rd (unitKey 0x240008 c.link) ≤ s.now.epoch →
      ∃ t, exec (.resendTimeout c.link) s = .next t ∧
        (t.now.link c.link).resent = ((s.now.link c.link).held.drop i).flatMap
          (fun x => (x.cseq, x.body) :: x.data.map fun b => (0, .data b)) ∧
        (t.now.link c.link).expired = (s.now.link c.link).expired + 1 ∧
        t.now.bit (unitKey 0x24000A c.link) 2 = true ∧ t.now.hub = s.now.hub ∧ t.now.ddr = s.now.ddr) ∧
    (∀ v h : Nat, c.ackValid = false → ∃ t, exec (.refresh c v h) s = .next t ∧
      (∀ l, l < 4 → t.now.rd (unitKey 0x241003 (4 * c.link + l)) = v % 2 ^ 16 + 2 ^ 16 * (h % 2 ^ 16)) ∧
      t.now.ser = s.now.ser ∧ t.now.hub = s.now.hub ∧ t.now.ddr = s.now.ddr) ∧
    (∀ dst src cells addr : Nat, c.cseq = (s.now.link c.link).rxExpect → c.ackValid = false →
      ∃ t, exec (.bulkHead c dst src cells addr) s = .next t ∧ (t.now.link c.link).bulk = some
          { head := c.cseq, dst := dst, addr := addr, cells := cells, data := [] } ∧
        (t.now.link c.link).rxExpect = (c.cseq + 1) % 256 ∧ t.now.hub = s.now.hub ∧ t.now.ddr = s.now.ddr) ∧
    (∀ (b : BulkRx) (bytes : List Byte), (s.now.link c.link).bulk = some b → b.data.length < 32 * b.cells →
      bytes.length = 32 →
      Does (.dataCell c.link true [] bytes) s fun d =>
        d.setLink c.link { d.link c.link with bulk := some { b with data := b.data ++ bytes } }) ∧
    (∀ (l : Nat) (good : Bool) (bytes : List Byte), l < 4 → ∃ t, exec (.dataCell c.link good [l] bytes) s = .next t ∧
      t.now.bit (unitKey 0x24000A c.link) 0 = true ∧ t.now.bit (unitKey 0x24000A c.link) (16 + l) = true ∧
      (t.now.link c.link).bulk = (s.now.link c.link).bulk ∧ t.now.hub = s.now.hub ∧ t.now.ddr = s.now.ddr) ∧
    (∀ (b : BulkRx) (crc : W32), (s.now.link c.link).bulk = some b → c.cseq = (s.now.link c.link).rxExpect →
      (b.data.length = 32 * b.cells → crc32 b.data = crc.toNat → b.dst = s.now.chip →
        s.now.streamOverlap b.addr b.data.length = false →
        ∃ t, exec (.bulkTail c crc) s = .next t ∧ (t.now.link c.link).bulk = none ∧
          (∀ n, (h : n < b.data.length) → ddrGet t.now.ddr (b.addr + n) = b.data[n]) ∧
          (∀ a, a < b.addr ∨ b.addr + b.data.length ≤ a → ddrGet t.now.ddr a = ddrGet s.now.ddr a) ∧
          t.now.hub = s.now.hub ∧ t.now.eas = s.now.eas) ∧
      (b.data.length = 32 * b.cells → crc32 b.data = crc.toNat → b.dst = s.now.chip →
        s.now.streamOverlap b.addr b.data.length = true →
        ∃ t, exec (.bulkTail c crc) s = .next t ∧ (t.now.link c.link).bulk = none ∧ t.now.ddr = s.now.ddr ∧
          t.now.hub = s.now.hub ∧ t.now.eas = s.now.eas) ∧
      (crc32 b.data ≠ crc.toNat → ∃ t, exec (.bulkTail c crc) s = .next t ∧ (t.now.link c.link).bulk = none ∧
        (t.now.link c.link).rxExpect = b.head ∧ (t.now.link c.link).nakOut = some b.head ∧
        t.now.bit (unitKey 0x24000A c.link) 0 = true ∧ t.now.ddr = s.now.ddr ∧ t.now.hub = s.now.hub ∧
        t.now.eas = s.now.eas))

/-- R525, R526, R544 to R548: a link goes from DOWN through TRAINING, LOCKING and VERIFY to UP, falls back to TRAINING on a
failure, and is retired on the third in a row or on a failed retraining; an UP link retrains; ALIGN gives its lanes. -/
def Obligations.LinkTraining : Prop :=
  ∀ (s : State) (k st : Nat), k < 12 → s.now.rd (unitKey 0x240001 k) = st →
    (st = 0 → s.now.rdB (unitKey 0x240002 k) = true → ∃ t, exec (.peerSignal k true) s = .next t ∧
      t.now.rd (unitKey 0x240001 k) = 1 ∧ t.now.ser = s.now.ser ∧ t.now.ddr = s.now.ddr) ∧
    (st ≠ 5 → ∃ t, exec (.peerSignal k false) s = .next t ∧ t.now.rd (unitKey 0x240001 k) = 0 ∧
      (t.now.link k).held = [] ∧ (t.now.link k).bulk = none ∧ t.now.ddr = s.now.ddr) ∧
    (∀ (c : CellHdr) (id chip peer : Nat) (ready : Bool), c.link = k → c.good = true → st = 1 →
      ∃ t, exec (.train c id chip peer ready) s = .next t ∧ (t.now.link k).ready = ready ∧
        t.now.rd (unitKey 0x240003 k) = chip % 64 + 64 * (peer % 16) ∧ t.now.rd (unitKey 0x240004 k) = id % 2 ^ 32 ∧
        t.now.hub = s.now.hub ∧ t.now.ddr = s.now.ddr) ∧
    (st = 1 → (s.now.link k).ready = true → Does (.trainingComplete k) s fun d => d.wr (unitKey 0x240001 k) 2) ∧
    (∀ (order : List Nat) (inv : List Bool) (skew : Nat), st = 2 ∨ st = 4 →
      ∃ t, exec (.align k order inv skew true) s = .next t ∧ t.now.rd (unitKey 0x240007 k) = min skew 264 ∧
        t.now.rd (unitKey 0x240005 k) = (order.take 4).zipIdx.foldl (fun n p => n + (p.1 % 4) * 4 ^ p.2) 0 ∧
        t.now.ser = s.now.ser ∧ t.now.hub = s.now.hub ∧ t.now.ddr = s.now.ddr) ∧
    (∀ skew : Nat, skew ≤ 264 → st = 2 → ∃ t, exec (.lockComplete k skew) s = .next t ∧
      t.now.rd (unitKey 0x240001 k) = 3 ∧ t.now.rd (unitKey 0x240007 k) = skew ∧ t.now.ser = s.now.ser ∧
      t.now.hub = s.now.hub ∧ t.now.ddr = s.now.ddr) ∧
    (∀ errs : List Nat, (∀ e ∈ errs.take 4, e ≤ 4) → st = 3 → ∃ t, exec (.verifyComplete k errs) s = .next t ∧
      t.now.rd (unitKey 0x240001 k) = 4 ∧ (t.now.link k).trainFails = 0 ∧ (t.now.link k).retrained = false ∧
      (t.now.link k).rxExpect = 0 ∧ (t.now.link k).txSeq = 0 ∧ (t.now.link k).held = [] ∧
      t.now.ddr = s.now.ddr) ∧
    (∀ i : Instr, ((∃ errs : List Nat, i = .verifyComplete k errs ∧ (∃ e ∈ errs.take 4, 4 < e) ∧ st = 3 ∧
          (s.now.link k).retrained = false) ∨ (i = .trainFail k ∧ (st = 1 ∨ st = 2 ∨ st = 3)) ∨
          (∃ skew : Nat, i = .lockComplete k skew ∧ 264 < skew ∧ st = 2)) →
      ((s.now.link k).trainFails < 2 → ∃ t, exec i s = .next t ∧ t.now.rd (unitKey 0x240001 k) = 1 ∧
        (t.now.link k).trainFails = (s.now.link k).trainFails + 1 ∧ t.now.bit (unitKey 0x24000A k) 4 = true ∧
        t.now.hub = s.now.hub ∧ t.now.ddr = s.now.ddr) ∧
      (2 ≤ (s.now.link k).trainFails → ∃ t, exec i s = .next t ∧ t.now.isRetired (.link k) = true ∧
        t.now.ddr = s.now.ddr)) ∧
    (∀ errs : List Nat, (∃ e ∈ errs.take 4, 4 < e) → st = 3 → (s.now.link k).retrained = true →
      ∃ t, exec (.verifyComplete k errs) s = .next t ∧ t.now.isRetired (.link k) = true ∧ t.now.ddr = s.now.ddr) ∧
    (st = 4 → ∃ t, exec (.retrain k) s = .next t ∧ t.now.rd (unitKey 0x240001 k) = 1 ∧ (t.now.link k).retrained = true ∧
      t.now.bit (unitKey 0x24000A k) 3 = true ∧ t.now.ddr = s.now.ddr)

/-- R512 to R514, R534 to R537, R549, R593: a port goes down and up, and a loss of
MGMT changes no job, draft, commit or state, and holds replies until MGMT returns; PAUSE holds a port; a frame that it does not support is
counted; it answers echo and address requests while it is UP with an address; a lane freezes below 512 transitions and
thaws after two windows of at least 768; its adapted values are snapshot and restored. -/
def Obligations.PortsAndAdaptation : Prop :=
  ∀ (s : State) (h : Nat), h < 4 →
    (s.now.rd (portKey h 1) = 2 ∨ s.now.rd (portKey h 1) = 3 → ∃ t, exec (.linkDown h) s = .next t ∧ t.now.rd (portKey h 1) = 1 ∧
      t.now.bit (portKey h 0x0A) 0 = true ∧ t.now.bit (portKey h 0x0A) 1 = true ∧ t.now.hub = s.now.hub ∧
      t.now.ddr = s.now.ddr) ∧
    (s.now.rd (portKey h 1) = 1 ∨ s.now.rd (portKey h 1) = 2 →
      ∀ (errs : List Nat) (bers : List W32) (uncorr : Bool),
        (uncorr = false → (∀ b ∈ bers.take 4, b.toNat ≤ 0x397BA882) → ∃ t, exec (.linkUp h errs bers uncorr) s = .next t ∧
          t.now.rd (portKey h 1) = 3 ∧ (∀ (l : Nat) (b : W32), l < 4 → bers[l]? = some b →
            t.now.rd (objKey (0x2820 + 4 * h + l) 0x0E) = b.toNat) ∧ t.now.hub = s.now.hub ∧ t.now.ddr = s.now.ddr) ∧
        (uncorr = true ∨ (∃ b ∈ bers.take 4, 0x397BA882 < b.toNat) → ∃ t, exec (.linkUp h errs bers uncorr) s = .next t ∧
          t.now.rd (portKey h 1) = 4 ∧ t.now.isRetired (.host h) = true ∧ t.now.ddr = s.now.ddr)) ∧
    (s.now.rd 0x281001 = 2 ∨ s.now.rd 0x281001 = 3 → ∃ t, exec (.linkDown 4) s = .next t ∧ t.now.rd 0x281001 = 1 ∧ t.now.hub.jobs = s.now.hub.jobs ∧
      t.now.hub.qrs = s.now.hub.qrs ∧ t.now.qop = s.now.qop ∧ t.now.state = s.now.state ∧
      (∀ k, k < 4 → t.now.portSends k = s.now.portSends k) ∧ t.now.eas = s.now.eas ∧ t.now.ddr = s.now.ddr) ∧
    (∀ r : Reply, s.now.rd 0x281001 ≠ 3 → (s.now.sendReply r).qop.last = s.now.qop.last ∧
      (s.now.sendReply r).qop.held = s.now.qop.held ++ [s.now.tagged r]) ∧
    (∀ (r : Reply) (errs : List Nat) (bers : List W32) (uncorr : Bool), s.now.qop.held = [r] →
      s.now.rd 0x281001 = 1 ∨ s.now.rd 0x281001 = 2 → ∃ t, exec (.linkUp 4 errs bers uncorr) s = .next t ∧ t.now.rd 0x281001 = 3 ∧
      t.now.qop.held = [] ∧ t.now.qop.last = some r ∧ t.now.hub = s.now.hub ∧ t.now.ddr = s.now.ddr) ∧
    (s.now.rdB (portKey h 9) = true → ∃ t, exec (.pause h) s = .next t ∧ h ∈ t.now.ser.paused ∧
      t.now.portSends h = false ∧ t.now.bit (portKey h 0x0A) 5 = true ∧ t.now.hub = s.now.hub ∧ t.now.ddr = s.now.ddr) ∧
    (∃ t, exec (.pauseEnd h) s = .next t ∧ h ∉ t.now.ser.paused ∧ t.now.objs = s.now.objs ∧ t.now.hub = s.now.hub ∧
      t.now.ddr = s.now.ddr) ∧
    Does (.frameDrop h) s (fun d => d.flag (portKey h 0x0A) 4) ∧
    (∀ v6 : Bool, s.now.rd (portKey h 1) = 3 → s.now.rdB (portKey h (if v6 then 6 else 5)) = true →
      Does (.icmpEcho h v6) s (fun d => { d with ser := { d.ser with net := some (.echo h v6) } }) ∧
      Does (.arp h v6) s fun d => { d with ser := { d.ser with
        net := some (.neighbour h v6 (d.rd (portKey h 4) % 2 ^ 48)) } }) ∧
    (∀ lane n : Nat, lane ≤ 64 →
      (s.now.rd (laneKey lane 1) = 0 → 512 ≤ n → ∃ t, exec (.densityWindow lane n) s = .next t ∧
        t.now.rd (laneKey lane 2) = min n 4095 ∧ t.now.rd (laneKey lane 1) = 0 ∧ t.now.ser = s.now.ser ∧
        t.now.ddr = s.now.ddr) ∧
      (s.now.rd (laneKey lane 1) = 0 → n < 512 → ∃ t, exec (.densityWindow lane n) s = .next t ∧
        t.now.rd (laneKey lane 2) = n ∧ t.now.rd (laneKey lane 1) = 1 ∧ (t.now.lane lane).goodWins = 0 ∧
        t.now.bit (laneFlags lane).1 (8 + (laneFlags lane).2) = true ∧ t.now.ddr = s.now.ddr) ∧
      (s.now.rd (laneKey lane 1) = 1 → 768 ≤ n → (s.now.lane lane).goodWins = 1 →
        ∃ t, exec (.densityWindow lane n) s = .next t ∧ t.now.rd (laneKey lane 1) = 0 ∧ t.now.ddr = s.now.ddr) ∧
      (s.now.rd (laneKey lane 1) = 1 → n < 768 → ∃ t, exec (.densityWindow lane n) s = .next t ∧
        t.now.rd (laneKey lane 1) = 1 ∧ (t.now.lane lane).goodWins = 0 ∧ t.now.ddr = s.now.ddr) ∧
      (∀ vs : List Nat, ∃ t, exec (.adaptSnapshot lane vs) s = .next t ∧
        (t.now.lane lane).snap = (if (s.now.lane lane).dirty = true ∨ s.now.rd (laneKey lane 1) = 1
          then (s.now.lane lane).snap else some vs) ∧ (t.now.lane lane).dirty = false ∧ t.now.objs = s.now.objs ∧
        t.now.ddr = s.now.ddr) ∧
      (∀ vs now : List Nat, (s.now.lane lane).snap = some vs →
        (s.now.leftGuard lane vs now = true → ∃ t, exec (.restored lane now) s = .next t ∧ (t.now.lane lane).vals = vs ∧
          t.now.bit (laneFlags lane).1 (12 + (laneFlags lane).2) = true ∧ t.now.ddr = s.now.ddr) ∧
        (s.now.leftGuard lane vs now = false → Does (.restored lane now) s id)))

/-! ### Power -/

/-- R571, R649, R657, R679 to R688, R691 to R696, R699: RESET_N rising, or low while the device runs, is a POWER_ON reset
that keeps MRAM; the firmware starts once; PRIMING runs its steps and ends in PRIMED or, too late, in FAULTED; sleep loses
what on-package SRAM held; a wake starts the clock again; a thermal trip is a WARM reset. -/
def Obligations.ResetsPrimingAndSleep : Prop :=
  ∀ (s : State),
    (s.now.pwr.up = false → s.now.pwr.powered = true → Does (.resetN false) s fun d =>
      { d with pwr := { d.pwr with up := true } }) ∧
    (s.now.pwr.up = true ∨ s.now.pwr.powered = false → ∃ t, exec (.resetN false) s = .next t ∧ t.now.state = .cold ∧
      t.now.counting = false ∧ t.now.pwr.up = true ∧ t.now.rd 0x100105 = (s.now.rd 0x100105 + 1) % 2 ^ 32 ∧
      (∀ key, storedKey key = false → t.now.rd key = resetOf key) ∧ t.now.eas.cust = s.now.eas.cust ∧
      t.now.eas.threads = [] ∧ t.now.hub.bb = s.now.hub.bb ∧ t.now.qop.cfg = s.now.qop.cfg ∧ t.now.qop.draft = []) ∧
    (∃ t, exec (.resetN true) s = .next t ∧ t.now.rd 0x180010 = 0 ∧ t.now.rd 0x180011 = 0xFF ∧ t.now.rd 0x180012 = 0xFF ∧
      t.now.rd 0x180013 = 0xFF ∧ (t.now.ident 0).key = factoryKey ∧ t.now.qop.cfgDefault = true) ∧
    (s.now.state = .cold → s.now.pwr.up = true → Does .powerupTimeout s fun d =>
      { d with pwr := { d.pwr with upFail := true } }) ∧
    (∃ t, exec .powerRemoval s = .next t ∧ t.now.pwr.powered = false ∧ t.now.pwr.booted = false ∧ t.now.state = .cold ∧
      (∀ key, storedKey key = false → t.now.rd key = resetOf key) ∧ t.now.eas.cust = s.now.eas.cust ∧
      t.now.hub.bb = s.now.hub.bb ∧ t.now.qop.cfg = s.now.qop.cfg) ∧
    (∀ fallback : Bool, s.now.pwr.powered = true → s.now.pwr.up = true → s.now.pwr.booted = false →
      s.now.state = .cold → ∃ t, exec (.bootComplete fallback) s = .next t ∧ t.now.pwr.booted = true ∧
        t.now.rd 0x281001 = 3 ∧ t.now.rd 0x100106 = 0 ∧
        t.now.state = (if s.now.rdB 0x7C0002 = true ∧ s.now.pwr.upFail = false then .priming else .cold) ∧
        t.now.ddr = s.now.ddr) ∧
    (∀ step : Nat, s.now.stepReady step = true → step ≠ 1 → step ≠ 6 → ∃ t, exec (.priming step) s = .next t ∧
      t.now.pwr.steps = s.now.pwr.steps ++ [step] ∧ t.now.rd 0x7C0003 = step ∧ t.now.state = .priming ∧
      (step ≠ 5 ∨ s.now.pwr.resetKind ≠ 0 → t.now.ddr = s.now.ddr)) ∧
    (s.now.stepReady 1 = true → ∃ t, exec (.priming 1) s = .next t ∧ t.now.pwr.steps = s.now.pwr.steps ++ [1] ∧
      t.now.state = (if s.now.dieHot = true then .faulted else .priming) ∧ t.now.ddr = s.now.ddr) ∧
    (s.now.stepReady 6 = true → ∃ t, exec (.priming 6) s = .next t ∧ t.now.pwr.steps = s.now.pwr.steps ++ [6] ∧
      ((∀ h, h < 4 → s.now.rd (unitKey 0x280001 h) = 4) → t.now.state = .faulted) ∧
      ((∃ h, h < 4 ∧ s.now.rd (unitKey 0x280001 h) ≠ 4) → t.now.state = .priming) ∧
      t.now.ddr = s.now.ddr) ∧
    (∀ ms : Nat, s.now.state = .priming → (∀ x ∈ s.now.primeSteps, x ∈ s.now.pwr.steps) →
      ∃ t, exec (.primingComplete ms) s = .next t ∧ t.now.state = .primed ∧
        (s.now.pwr.resetKind ≠ 0 → t.now.rd 0x7C0004 = ms ∧ t.now.rd 0x780007 = s.now.rd 0x780007 + 1 ∧
          t.now.bit 0x780003 0 = true) ∧ t.now.ddr = s.now.ddr) ∧
    (s.now.state = .priming → ∃ t, exec .primingTimeout s = .next t ∧ t.now.state = .faulted ∧ t.now.ddr = s.now.ddr) ∧
    (s.now.pwr.sleeping = true → s.now.state = .primed → ∃ t, exec .asleepEntry s = .next t ∧ t.now.state = .asleep ∧
      t.now.counting = false ∧ t.now.eas.desc = [] ∧ t.now.eas.store = [] ∧ t.now.dsp = [] ∧
      t.now.pwr.sleeping = false ∧ t.now.ddr = s.now.ddr) ∧
    (∀ ms : Nat, s.now.state = .asleep → s.now.pwr.waking ≠ none → s.now.cal.phase = 0 → (∃ h, h < 4 ∧ s.now.rd (unitKey 0x280001 h) ≠ 4) →
      ∃ t, exec (.wakeComplete ms) s = .next t ∧ t.now.state = .primed ∧ t.now.counting = true ∧ t.now.rd 0x7C0005 = ms ∧
        t.now.pwr.waking = none ∧ t.now.agg.afterWake = true ∧ t.now.ddr = s.now.ddr) ∧
    (s.now.pwr.booted = true → ∃ t, exec .thermalTrip s = .next t ∧ t.now.state = .priming ∧
      t.now.bit 0x7C0001 1 = true ∧ t.now.eas.threads = [] ∧ t.now.qop.draft = [] ∧ t.now.ddr = s.now.ddr)

/-- R192, R638 to R643, R676 to R678: a lost feed is flagged, and the remaining one carries the load; a hub without a feed
has no power; a restored feed shares the load again; a supply that does not answer three times is an error; an alert asks
for a poll; an uncorrectable DDR4 error counts towards the retirement of its channel and leaves its bytes out of the stream they
belong to, whose STREAM_ECC it sets; which stream and how many bytes is the free value of log entry 13. -/
def Obligations.FeedsAndSupplies : Prop :=
  ∀ (s : State) (die side : Nat) (b : Bool), side = (if b then 1 else 0) → die ≤ 8 →
    (s.now.bit (unitKey 0x783001 die) side = true → s.now.bit (unitKey 0x783001 die) (1 - side) = true →
      ∃ t, exec (.feedLoss die b) s = .next t ∧ t.now.bit (unitKey 0x783001 die) side = false ∧
        t.now.bit (unitKey 0x783001 die) (1 - side) = true ∧ t.now.bit (unitKey 0x783002 die) side = true ∧
        t.now.hub.transfers = s.now.hub.transfers ++ [(die, side)] ∧ t.now.eas = s.now.eas ∧ t.now.ddr = s.now.ddr) ∧
    (die = 8 → s.now.bit (unitKey 0x783001 die) side = true → s.now.rd (unitKey 0x783001 die) % 4 = 2 ^ side →
      ∃ t, exec (.feedLoss die b) s = .next t ∧ t.now.pwr.powered = false ∧ t.now.state = .cold ∧
        t.now.eas.cust = s.now.eas.cust) ∧
    (s.now.bit (unitKey 0x783001 die) side = false → Does (.feedLoss die b) s id ∧
      ∃ t, exec (.feedRestored die b) s = .next t ∧ t.now.bit (unitKey 0x783001 die) side = true ∧
        t.now.bit (unitKey 0x783002 die) 2 = true ∧ t.now.hub = s.now.hub ∧ t.now.eas = s.now.eas ∧
        t.now.ddr = s.now.ddr) ∧
    (∀ ticks : Nat, s.now.hub.transfers = [(die, side)] → ∃ t, exec (.feedTransferComplete die ticks) s = .next t ∧
      t.now.rd (unitKey 0x783003 die) = ticks ∧ t.now.hub.transfers = [] ∧ t.now.hub.jobs = s.now.hub.jobs ∧
      t.now.eas = s.now.eas ∧ t.now.ddr = s.now.ddr) ∧
    (∀ rail n : Nat, rail < 32 → s.now.pwr.powered = true → s.now.rd (unitKey (0x7C1001 + side) rail) ≠ 0 →
      s.now.pwr.pollDue.testBit side = false →
      (3 ≤ n → ∀ f : Bool, Does (.pmbusPoll b rail n f) s fun d => d.flag 0x7C0001 2) ∧
      (n < 3 → Does (.pmbusPoll b rail n false) s id ∧
        exec (.pmbusPoll b rail n true) s = exec (.feedLoss (railDie rail) b) s)) ∧
    (∃ t, exec (.pmbAlert b) s = .next t ∧ t.now.pwr.pollDue.testBit side = true ∧
      t.now.pwr.pollDue.testBit (1 - side) = s.now.pwr.pollDue.testBit (1 - side) ∧ t.now.objs = s.now.objs ∧
      t.now.ddr = s.now.ddr) ∧
    (∀ ch : Nat, Does (.ddrEccError ch false) s id ∧ Does (.ddrEccError ch true) s fun d =>
      let e := d.noteFault (.ddr ch) 0
      let v := e.streamSt (eccStream ch d.epoch).1
      if (eccStream ch d.epoch).1 < 64 ∧ d.rd (unitKey 0x488001 (eccStream ch d.epoch).1) ≠ 0 then
        (e.setStream (eccStream ch d.epoch).1 { v with
          lost := v.lost ++ [(v.ringAt + v.ring.length, v.ringAt + v.ring.length + (eccStream ch d.epoch).2)] }).flag
            (unitKey 0x48800B (eccStream ch d.epoch).1) 2
      else e)
end

