-- ==== Sys2Proof/Laws/Tab.lean ====
section
/-! SUPPORT. Sparse tables: what an index reads after a write, and that every write keeps the canonical form. -/

set_option linter.unusedSectionVars false

namespace Sys2Proof.Machine

variable {α : Type} [DecidableEq α]

theorem tabGet_insert_self (d : α) (t : Tab α) (i : Nat) (v : α) : tabGet d (tabInsert i v t) i = v := by
  induction t with
  | nil => simp [tabInsert, tabGet]
  | cons p t ih =>
    obtain ⟨k, w⟩ := p
    unfold tabInsert
    split
    · simp [tabGet]
    · split
      · simp [tabGet]
      · rename_i h
        simp [tabGet, Ne.symm h, ih]

theorem tabGet_insert_other (d : α) (t : Tab α) (i j : Nat) (v : α) (h : j ≠ i) :
    tabGet d (tabInsert i v t) j = tabGet d t j := by
  induction t with
  | nil => simp [tabInsert, tabGet, Ne.symm h]
  | cons p t ih =>
    obtain ⟨k, w⟩ := p
    unfold tabInsert
    split
    · simp [tabGet, Ne.symm h]
    · split
      · rename_i e
        subst e
        simp [tabGet, Ne.symm h]
      · simp [tabGet, ih]

theorem tabGet_erase_self (d : α) (t : Tab α) (i : Nat) : tabGet d (tabErase i t) i = d := by
  induction t with
  | nil => rfl
  | cons p t ih =>
    obtain ⟨k, w⟩ := p
    unfold tabErase
    split
    · exact ih
    · rename_i h
      simp [tabGet, h, ih]

theorem tabGet_erase_other (d : α) (t : Tab α) (i j : Nat) (h : j ≠ i) :
    tabGet d (tabErase i t) j = tabGet d t j := by
  induction t with
  | nil => rfl
  | cons p t ih =>
    obtain ⟨k, w⟩ := p
    unfold tabErase
    split
    · rename_i e
      subst e
      simp [tabGet, Ne.symm h, ih]
    · simp [tabGet, ih]

/-- A write is read back. -/
@[simp] theorem tabGet_set_self (d : α) (t : Tab α) (i : Nat) (v : α) : tabGet d (tabSet d t i v) i = v := by
  unfold tabSet
  split
  · rename_i h
    rw [tabGet_erase_self, h]
  · exact tabGet_insert_self ..

/-- A write leaves every other index, whatever an unlisted index holds there. -/
theorem tabGet_set_other (d e : α) (t : Tab α) (i j : Nat) (v : α) (h : j ≠ i) :
    tabGet e (tabSet d t i v) j = tabGet e t j := by
  unfold tabSet
  split
  · exact tabGet_erase_other _ _ _ _ h
  · exact tabGet_insert_other _ _ _ _ _ h

theorem mem_tabErase {t : Tab α} {i : Nat} {p : Nat × α} (h : p ∈ tabErase i t) : p ∈ t := by
  induction t with
  | nil => exact h
  | cons q t ih =>
    obtain ⟨k, w⟩ := q
    unfold tabErase at h
    split at h
    · exact List.mem_cons_of_mem _ (ih h)
    · rcases List.mem_cons.mp h with h | h
      · exact h ▸ List.mem_cons_self
      · exact List.mem_cons_of_mem _ (ih h)

theorem tabErase_wf {d : Nat → α} {t : Tab α} (i : Nat) (h : tabWf d t) : tabWf d (tabErase i t) := by
  refine ⟨?_, fun p hp => h.2 p (mem_tabErase hp)⟩
  obtain ⟨h, -⟩ := h
  induction t with
  | nil => exact h
  | cons q t ih =>
    obtain ⟨k, w⟩ := q
    rw [List.pairwise_cons] at h
    unfold tabErase
    split
    · exact ih h.2
    · exact List.pairwise_cons.mpr ⟨fun p hp => h.1 p (mem_tabErase hp), ih h.2⟩

theorem mem_tabInsert {t : Tab α} {i : Nat} {v : α} {p : Nat × α} (h : p ∈ tabInsert i v t) : p = (i, v) ∨ p ∈ t := by
  induction t with
  | nil => simpa [tabInsert] using h
  | cons q t ih =>
    obtain ⟨k, w⟩ := q
    unfold tabInsert at h
    split at h
    · rcases List.mem_cons.mp h with h | h
      · exact .inl h
      · exact .inr h
    · split at h
      · rcases List.mem_cons.mp h with h | h
        · exact .inl h
        · exact .inr (List.mem_cons_of_mem _ h)
      · rcases List.mem_cons.mp h with h | h
        · exact .inr (h ▸ List.mem_cons_self)
        · rcases ih h with h | h
          · exact .inl h
          · exact .inr (List.mem_cons_of_mem _ h)

theorem tabInsert_wf {d : Nat → α} {t : Tab α} {i : Nat} {v : α} (h : tabWf d t) (hv : v ≠ d i) :
    tabWf d (tabInsert i v t) := by
  refine ⟨?_, fun p hp => ?_⟩
  · obtain ⟨h, -⟩ := h
    induction t with
    | nil => simp [tabInsert]
    | cons q t ih =>
      obtain ⟨k, w⟩ := q
      have h' := List.pairwise_cons.mp h
      unfold tabInsert
      split
      · rename_i hi
        refine List.pairwise_cons.mpr ⟨fun p hp => ?_, h⟩
        rcases List.mem_cons.mp hp with hp | hp
        · subst hp; exact hi
        · exact Nat.lt_trans hi (h'.1 p hp)
      · split
        · rename_i e
          subst e
          exact List.pairwise_cons.mpr ⟨h'.1, h'.2⟩
        · rename_i h1 h2
          refine List.pairwise_cons.mpr ⟨fun p hp => ?_, ih h'.2⟩
          rcases mem_tabInsert hp with hp | hp
          · subst hp; show k < i; omega
          · exact h'.1 p hp
  · rcases mem_tabInsert hp with hp | hp
    · subst hp; exact hv
    · exact h.2 p hp

/-- Every write keeps the canonical form. -/
theorem tabSet_wf {d : α} {t : Tab α} (i : Nat) (v : α) (h : tabWf (fun _ => d) t) :
    tabWf (fun _ => d) (tabSet d t i v) := by
  unfold tabSet
  split
  · exact tabErase_wf i h
  · rename_i hv
    exact tabInsert_wf h hv

/-- So does a write of consecutive values. -/
theorem tabFill_wf {d : α} {t : Tab α} (i : Nat) (l : List α) (h : tabWf (fun _ => d) t) :
    tabWf (fun _ => d) (tabFill d t i l) := by
  induction l generalizing t i with
  | nil => exact h
  | cons v l ih => exact ih (i + 1) (tabSet_wf i v h)

/-- A write of consecutive values leaves every index outside them. -/
theorem tabGet_fill_other (d e : α) (t : Tab α) (i j : Nat) (l : List α) (h : j < i ∨ i + l.length ≤ j) :
    tabGet e (tabFill d t i l) j = tabGet e t j := by
  induction l generalizing t i with
  | nil => rfl
  | cons v l ih =>
    simp only [List.length_cons] at h
    rw [tabFill, ih _ _ (by omega), tabGet_set_other _ _ _ _ _ _ (by omega)]

/-- A write of consecutive values is read back. -/
theorem tabGet_fill_self (d : α) (t : Tab α) (i k : Nat) (l : List α) (h : k < l.length) :
    tabGet d (tabFill d t i l) (i + k) = l[k] := by
  induction l generalizing t i k with
  | nil => simp at h
  | cons v l ih =>
    rw [tabFill]
    cases k with
    | zero => rw [tabGet_fill_other _ _ _ _ _ _ (by omega)]; simp
    | succ k =>
      rw [show i + (k + 1) = i + 1 + k by omega, ih _ _ k (by simpa using h)]
      simp

end Sys2Proof.Machine
end

