-- ==== Sys2Proof/Laws/Bus.lean ====
section
/-! SUPPORT. The decision bus (R292, R293): the tick in which a word uses a way, and when words of the hub reach tiles
whose ways are free. -/

namespace Sys2Proof.Machine

theorem tabGet_filter {α : Type} (d : α) (t : Tab α) (j : Nat) (P : Nat → Bool) (h : P j = true) :
    tabGet d (t.filter fun q => P q.1) j = tabGet d t j := by
  induction t with
  | nil => rfl
  | cons a l ih =>
    obtain ⟨k, v⟩ := a
    by_cases hk : k = j
    · subst hk; simp [h, tabGet]
    · cases hp : P k <;> simp [hp, tabGet, hk, ih]

@[simp] theorem Dev.useWay_epoch (d : Dev) (way cap t : Nat) : (d.useWay way cap t).1.epoch = d.epoch := rfl

/-- No way carries a word before the word comes. -/
theorem Dev.useWay_ge (d : Dev) (way cap t : Nat) : t ≤ (d.useWay way cap t).2 := Nat.le_add_right ..

/-- A way with room carries the word in the tick in which it comes. -/
theorem Dev.useWay_free (d : Dev) (way cap t : Nat) (hw : way < 32) (ht : d.epoch ≤ t)
    (h : tabGet 0 d.eas.carried (way + 32 * t) < cap) : (d.useWay way cap t).2 = t := by
  have hk : tabGet 0 (d.eas.carried.filter fun p => decide (d.epoch ≤ p.1 / 32)) (way + 32 * t) < cap := by
    rw [tabGet_filter 0 _ _ fun i => decide (d.epoch ≤ i / 32)]
    · exact h
    · simp; omega
  simp [Dev.useWay, List.range_succ_eq_map, hk]

/-- A word in one way leaves every other way as it was. -/
theorem Dev.useWay_other (d : Dev) (way cap t j : Nat) (hw : way < 32) (hj : j % 32 ≠ way) (he : d.epoch ≤ j / 32) :
    tabGet 0 (d.useWay way cap t).1.eas.carried j = tabGet 0 d.eas.carried j := by
  simp only [Dev.useWay]
  rw [tabGet_set_other, tabGet_filter 0 _ _ fun i => decide (d.epoch ≤ i / 32)]
  · simpa using he
  · intro h; omega

@[simp] theorem Dev.fromHub_epoch (d : Dev) (tile t : Nat) : (d.fromHub tile t).1.epoch = d.epoch := rfl

theorem Dev.fromHub_ge (d : Dev) (tile t : Nat) : t + 6 ≤ (d.fromHub tile t).2 := by
  have a := d.useWay_ge (16 + tile) 32 t
  have b := (d.useWay (16 + tile) 32 t).1.useWay_ge tile 64 ((d.useWay (16 + tile) 32 t).2 + 3)
  simp only [Dev.fromHub]; omega

/-- A word of the hub reaches a tile whose ways have room in 6 ticks. -/
theorem Dev.fromHub_free (d : Dev) (tile t : Nat) (hk : tile < 8) (ht : d.epoch ≤ t)
    (hl : tabGet 0 d.eas.carried (16 + tile + 32 * t) < 32) (hs : tabGet 0 d.eas.carried (tile + 32 * (t + 3)) < 64) :
    (d.fromHub tile t).2 = t + 6 := by
  have a := d.useWay_free (16 + tile) 32 t (by omega) ht hl
  have b := (d.useWay (16 + tile) 32 t).1.useWay_free tile 64 (t + 3) (by omega) (by simp; omega) (by
    rw [Dev.useWay_other _ _ _ _ _ (by omega) (by omega) (by omega)]; exact hs)
  simp only [Dev.fromHub, a, b]

theorem Dev.fromHub_other (d : Dev) (tile t j : Nat) (hk : tile < 8) (h1 : j % 32 ≠ tile) (h2 : j % 32 ≠ 16 + tile)
    (he : d.epoch ≤ j / 32) : tabGet 0 (d.fromHub tile t).1.eas.carried j = tabGet 0 d.eas.carried j := by
  simp only [Dev.fromHub]
  rw [Dev.useWay_other _ _ _ _ _ (by omega) h1 (by simpa using he), Dev.useWay_other _ _ _ _ _ (by omega) h2 he]

/-- The pair that `Dev.fromHubTo` folds. -/
theorem Dev.fromHubTo_fold (t : Nat) (l : List Nat) : ∀ (a : Dev × Tab Nat), l.Nodup →
    (∀ k ∉ l, tabGet 0 (l.foldl (fun a k => let x := a.1.fromHub k t; (x.1, tabSet 0 a.2 k x.2)) a).2 k = tabGet 0 a.2 k) ∧
    (∀ k ∈ l, t + 6 ≤ tabGet 0 (l.foldl (fun a k => let x := a.1.fromHub k t; (x.1, tabSet 0 a.2 k x.2)) a).2 k) ∧
    ((∀ k ∈ l, k < 8) → a.1.epoch ≤ t →
      (∀ k ∈ l, tabGet 0 a.1.eas.carried (16 + k + 32 * t) < 32 ∧ tabGet 0 a.1.eas.carried (k + 32 * (t + 3)) < 64) →
      ∀ k ∈ l, tabGet 0 (l.foldl (fun a k => let x := a.1.fromHub k t; (x.1, tabSet 0 a.2 k x.2)) a).2 k = t + 6) := by
  induction l with
  | nil => intro a _; exact ⟨fun _ _ => rfl, fun _ h => absurd h (by simp), fun _ _ _ _ h => absurd h (by simp)⟩
  | cons m l ih =>
    intro a hn
    obtain ⟨hm, hl⟩ := List.nodup_cons.1 hn
    have h := ih ((a.1.fromHub m t).1, tabSet 0 a.2 m (a.1.fromHub m t).2) hl
    simp only [List.foldl_cons]
    refine ⟨fun k hk => ?_, fun k hk => ?_, fun h8 he hf k hk => ?_⟩
    · rw [h.1 k (fun x => hk (List.mem_cons_of_mem _ x)), tabGet_set_other]
      rintro rfl; exact hk List.mem_cons_self
    · rcases List.mem_cons.1 hk with rfl | hk
      · rw [h.1 k hm, tabGet_set_self]; exact a.1.fromHub_ge k t
      · exact h.2.1 k hk
    · rcases List.mem_cons.1 hk with rfl | hk
      · rw [h.1 k hm, tabGet_set_self]
        exact a.1.fromHub_free k t (h8 k hk) he (hf k hk).1 (hf k hk).2
      · refine h.2.2 (fun i hi => h8 i (List.mem_cons_of_mem _ hi)) he (fun i hi => ?_) k hk
        have hi8 := h8 i (List.mem_cons_of_mem _ hi)
        have hm8 := h8 m List.mem_cons_self
        have hne : i ≠ m := fun e => hm (e ▸ hi)
        have g := hf i (List.mem_cons_of_mem _ hi)
        constructor
        · show tabGet 0 (a.1.fromHub m t).1.eas.carried _ < 32
          rw [Dev.fromHub_other _ _ _ _ hm8 (by omega) (by omega) (by omega)]; exact g.1
        · show tabGet 0 (a.1.fromHub m t).1.eas.carried _ < 64
          rw [Dev.fromHub_other _ _ _ _ hm8 (by omega) (by omega) (by omega)]; exact g.2

end Sys2Proof.Machine
end

