-- ==== Sys2Proof/Laws/MemA.lean ====
section
/-! SUPPORT. What each operation does to the bytes of DDR4 (operands, flags, operations, links): most leave them, the few that store keep
their canonical form. One lemma per operation, cited by the laws of the step. -/

set_option linter.all false
set_option linter.unreachableTactic false
set_option linter.unusedTactic false

namespace Sys2Proof.Machine

theorem foldl_ddr {α : Type} (f : Dev → α → Dev) (l : List α) (d : Dev) (h : ∀ e x, (f e x).ddr = e.ddr) :
    (l.foldl f d).ddr = d.ddr := by
  induction l generalizing d with
  | nil => rfl
  | cons x l ih => exact (ih (f d x)).trans (h d x)

theorem ite_ddr {p : Prop} [Decidable p] {a b : Dev} {m : List Host.Cell} (ha : a.ddr = m) (hb : b.ddr = m) :
    (if p then a else b).ddr = m := by split <;> assumption

theorem foldl_ddr1 {α β : Type} (f : Dev × β → α → Dev × β) (l : List α) (p : Dev × β)
    (h : ∀ q x, (f q x).1.ddr = q.1.ddr) : (l.foldl f p).1.ddr = p.1.ddr := by
  induction l generalizing p with
  | nil => rfl
  | cons x l ih => exact (ih (f p x)).trans (h p x)

@[simp] theorem Dev.wr_ddr (d : Dev) (key : Nat) (v : Nat) : (Dev.wr d key v).ddr = d.ddr := by
  unfold Dev.wr
  repeat' first
    | with_reducible rfl
    | dsimp only
    | split
    | (refine (foldl_ddr _ _ _ ?_).trans ?_ <;> try intro _ _)
    | (refine (foldl_ddr1 _ _ _ ?_).trans ?_ <;> try intro _ _)

@[simp] theorem Dev.wrs_ddr (d : Dev) (l : List (Nat × Nat)) : (Dev.wrs d l).ddr = d.ddr := by
  unfold Dev.wrs
  repeat' first
    | with_reducible rfl
    | simp only [Dev.wr_ddr]
    | dsimp only
    | split
    | (refine (foldl_ddr _ _ _ ?_).trans ?_ <;> try intro _ _)
    | (refine (foldl_ddr1 _ _ _ ?_).trans ?_ <;> try intro _ _)

@[simp] theorem Dev.wrBit_ddr (d : Dev) (key : Nat) (b : Nat) (v : Bool) : (Dev.wrBit d key b v).ddr = d.ddr := by
  unfold Dev.wrBit
  repeat' first
    | with_reducible rfl
    | simp only [Dev.wr_ddr]
    | dsimp only
    | split
    | (refine (foldl_ddr _ _ _ ?_).trans ?_ <;> try intro _ _)
    | (refine (foldl_ddr1 _ _ _ ?_).trans ?_ <;> try intro _ _)

@[simp] theorem Dev.addCtr_ddr (d : Dev) (key : Nat) (n : Nat) : (Dev.addCtr d key n).ddr = d.ddr := by
  unfold Dev.addCtr
  repeat' first
    | with_reducible rfl
    | dsimp only
    | split
    | (refine (foldl_ddr _ _ _ ?_).trans ?_ <;> try intro _ _)
    | (refine (foldl_ddr1 _ _ _ ?_).trans ?_ <;> try intro _ _)

@[simp] theorem Dev.noteCounted_ddr (d : Dev) (key : Nat) (n : Nat) : (Dev.noteCounted d key n).ddr = d.ddr := by
  unfold Dev.noteCounted
  repeat' first
    | with_reducible rfl
    | dsimp only
    | split
    | (refine (foldl_ddr _ _ _ ?_).trans ?_ <;> try intro _ _)
    | (refine (foldl_ddr1 _ _ _ ?_).trans ?_ <;> try intro _ _)

@[simp] theorem Dev.bump_ddr (d : Dev) (key : Nat) (n : Nat) : (Dev.bump d key n).ddr = d.ddr := by
  unfold Dev.bump
  repeat' first
    | with_reducible rfl
    | simp only [Dev.addCtr_ddr, Dev.noteCounted_ddr]
    | dsimp only
    | split
    | (refine (foldl_ddr _ _ _ ?_).trans ?_ <;> try intro _ _)
    | (refine (foldl_ddr1 _ _ _ ?_).trans ?_ <;> try intro _ _)

@[simp] theorem Dev.trace_ddr (d : Dev) (src : Nat) (data : Nat) : (Dev.trace d src data).ddr = d.ddr := by
  unfold Dev.trace
  repeat' first
    | with_reducible rfl
    | dsimp only
    | split
    | (refine (foldl_ddr _ _ _ ?_).trans ?_ <;> try intro _ _)
    | (refine (foldl_ddr1 _ _ _ ?_).trans ?_ <;> try intro _ _)

@[simp] theorem Dev.raise_ddr (d : Dev) (s : Nat) (bit : Nat) : (Dev.raise d s bit).ddr = d.ddr := by
  unfold Dev.raise
  repeat' first
    | with_reducible rfl
    | simp only [Dev.trace_ddr]
    | dsimp only
    | split
    | (refine (foldl_ddr _ _ _ ?_).trans ?_ <;> try intro _ _)
    | (refine (foldl_ddr1 _ _ _ ?_).trans ?_ <;> try intro _ _)

@[simp] theorem Dev.noteRaised_ddr (d : Dev) (key : Nat) (bit : Nat) : (Dev.noteRaised d key bit).ddr = d.ddr := by
  unfold Dev.noteRaised
  repeat' first
    | with_reducible rfl
    | dsimp only
    | split
    | (refine (foldl_ddr _ _ _ ?_).trans ?_ <;> try intro _ _)
    | (refine (foldl_ddr1 _ _ _ ?_).trans ?_ <;> try intro _ _)

@[simp] theorem Dev.setFlag_ddr (d : Dev) (key : Nat) (bit : Nat) (n : Nat) : (Dev.setFlag d key bit n).ddr = d.ddr := by
  unfold Dev.setFlag
  repeat' first
    | with_reducible rfl
    | simp only [Dev.addCtr_ddr, Dev.raise_ddr, Dev.wr_ddr]
    | dsimp only
    | split
    | (refine (foldl_ddr _ _ _ ?_).trans ?_ <;> try intro _ _)
    | (refine (foldl_ddr1 _ _ _ ?_).trans ?_ <;> try intro _ _)

@[simp] theorem Dev.noteFlag_ddr (d : Dev) (key : Nat) (bit : Nat) (n : Nat) (again : Bool) : (Dev.noteFlag d key bit n again).ddr = d.ddr := by
  unfold Dev.noteFlag
  repeat' first
    | with_reducible rfl
    | simp only [Dev.noteCounted_ddr, Dev.noteRaised_ddr]
    | dsimp only
    | split
    | (refine (foldl_ddr _ _ _ ?_).trans ?_ <;> try intro _ _)
    | (refine (foldl_ddr1 _ _ _ ?_).trans ?_ <;> try intro _ _)

@[simp] theorem Dev.flagN_ddr (d : Dev) (key : Nat) (bit : Nat) (n : Nat) : (Dev.flagN d key bit n).ddr = d.ddr := by
  unfold Dev.flagN
  repeat' first
    | with_reducible rfl
    | simp only [Dev.noteFlag_ddr, Dev.setFlag_ddr]
    | dsimp only
    | split
    | (refine (foldl_ddr _ _ _ ?_).trans ?_ <;> try intro _ _)
    | (refine (foldl_ddr1 _ _ _ ?_).trans ?_ <;> try intro _ _)

@[simp] theorem Dev.hostFlag_ddr (d : Dev) (key : Nat) (bit : Nat) : (Dev.hostFlag d key bit).ddr = d.ddr := by
  unfold Dev.hostFlag
  repeat' first
    | with_reducible rfl
    | simp only [Dev.setFlag_ddr]
    | dsimp only
    | split
    | (refine (foldl_ddr _ _ _ ?_).trans ?_ <;> try intro _ _)
    | (refine (foldl_ddr1 _ _ _ ?_).trans ?_ <;> try intro _ _)

@[simp] theorem Dev.flag_ddr (d : Dev) (key : Nat) (bit : Nat) : (Dev.flag d key bit).ddr = d.ddr := by
  unfold Dev.flag
  repeat' first
    | with_reducible rfl
    | simp only [Dev.flagN_ddr]
    | dsimp only
    | split
    | (refine (foldl_ddr _ _ _ ?_).trans ?_ <;> try intro _ _)
    | (refine (foldl_ddr1 _ _ _ ?_).trans ?_ <;> try intro _ _)

@[simp] theorem Dev.againBits_ddr (d : Dev) (key : Nat) (v : Nat) : (Dev.againBits d key v).ddr = d.ddr := by
  unfold Dev.againBits
  repeat' first
    | with_reducible rfl
    | simp only [Dev.bump_ddr]
    | dsimp only
    | split
    | (refine (foldl_ddr _ _ _ ?_).trans ?_ <;> try intro _ _)
    | (refine (foldl_ddr1 _ _ _ ?_).trans ?_ <;> try intro _ _)

@[simp] theorem Dev.inStep1_ddr (d : Dev) (before : Dev) : (Dev.inStep1 d before).ddr = d.ddr := by
  unfold Dev.inStep1
  repeat' first
    | with_reducible rfl
    | dsimp only
    | split
    | (refine (foldl_ddr _ _ _ ?_).trans ?_ <;> try intro _ _)
    | (refine (foldl_ddr1 _ _ _ ?_).trans ?_ <;> try intro _ _)

@[simp] theorem Dev.hostClear_ddr (d : Dev) (key : Nat) (v : Nat) : (Dev.hostClear d key v).ddr = d.ddr := by
  unfold Dev.hostClear
  repeat' first
    | with_reducible rfl
    | simp only [Dev.againBits_ddr, Dev.wr_ddr]
    | dsimp only
    | split
    | (refine (foldl_ddr _ _ _ ?_).trans ?_ <;> try intro _ _)
    | (refine (foldl_ddr1 _ _ _ ?_).trans ?_ <;> try intro _ _)

@[simp] theorem Dev.produce_ddr (d : Dev) (line : Nat) : (Dev.produce d line).ddr = d.ddr := by
  unfold Dev.produce
  repeat' first
    | with_reducible rfl
    | dsimp only
    | split
    | (refine (foldl_ddr _ _ _ ?_).trans ?_ <;> try intro _ _)
    | (refine (foldl_ddr1 _ _ _ ?_).trans ?_ <;> try intro _ _)

@[simp] theorem Dev.produceAt_ddr (d : Dev) (line : Nat) (t : Nat) : (Dev.produceAt d line t).ddr = d.ddr := by
  unfold Dev.produceAt
  repeat' first
    | with_reducible rfl
    | dsimp only
    | split
    | (refine (foldl_ddr _ _ _ ?_).trans ?_ <;> try intro _ _)
    | (refine (foldl_ddr1 _ _ _ ?_).trans ?_ <;> try intro _ _)

@[simp] theorem Dev.software_ddr (d : Dev) (line : Nat) : (Dev.software d line).ddr = d.ddr := by
  unfold Dev.software
  repeat' first
    | with_reducible rfl
    | dsimp only
    | split
    | (refine (foldl_ddr _ _ _ ?_).trans ?_ <;> try intro _ _)
    | (refine (foldl_ddr1 _ _ _ ?_).trans ?_ <;> try intro _ _)

@[simp] theorem Dev.setState_ddr (d : Dev) (st : DState) (cause : Nat) : (Dev.setState d st cause).ddr = d.ddr := by
  unfold Dev.setState
  repeat' first
    | with_reducible rfl
    | simp only [Dev.produce_ddr, Dev.trace_ddr, Dev.wrs_ddr]
    | dsimp only
    | split
    | (refine (foldl_ddr _ _ _ ?_).trans ?_ <;> try intro _ _)
    | (refine (foldl_ddr1 _ _ _ ?_).trans ?_ <;> try intro _ _)

@[simp] theorem Dev.conflict_ddr (d : Dev) : (Dev.conflict d).ddr = d.ddr := by
  unfold Dev.conflict
  repeat' first
    | with_reducible rfl
    | simp only [Dev.addCtr_ddr]
    | dsimp only
    | split
    | (refine (foldl_ddr _ _ _ ?_).trans ?_ <;> try intro _ _)
    | (refine (foldl_ddr1 _ _ _ ?_).trans ?_ <;> try intro _ _)

@[simp] theorem Dev.noteStamp_ddr (d : Dev) (e : Nat) : (Dev.noteStamp d e).ddr = d.ddr := by
  unfold Dev.noteStamp
  repeat' first
    | with_reducible rfl
    | simp only [Dev.wrBit_ddr]
    | dsimp only
    | split
    | (refine (foldl_ddr _ _ _ ?_).trans ?_ <;> try intro _ _)
    | (refine (foldl_ddr1 _ _ _ ?_).trans ?_ <;> try intro _ _)

@[simp] theorem Dev.bbObjects_ddr (d : Dev) : (Dev.bbObjects d).ddr = d.ddr := by
  unfold Dev.bbObjects
  repeat' first
    | with_reducible rfl
    | simp only [Dev.wrs_ddr]
    | dsimp only
    | split
    | (refine (foldl_ddr _ _ _ ?_).trans ?_ <;> try intro _ _)
    | (refine (foldl_ddr1 _ _ _ ?_).trans ?_ <;> try intro _ _)

@[simp] theorem Dev.bbWrite_ddr (d : Dev) (btype : Nat) (ukind : Nat) (uidx : Nat) (cause : Nat) (job : Nat) (shot : Nat) (payload : List Byte) : (Dev.bbWrite d btype ukind uidx cause job shot payload).ddr = d.ddr := by
  unfold Dev.bbWrite
  extract_lets no w pl roomy r all tr h0 d1 d2 d3 d4
  have h2 : d2.ddr = d.ddr := by simp [d2, d1]
  have h3 : d3.ddr = d.ddr := ite_ddr (by simp [h2]) h2
  simp only [d4, Dev.trace_ddr, Dev.noteStamp_ddr]
  exact ite_ddr (by simp [h3]) h3

@[simp] theorem Dev.enterFaulted_ddr (d : Dev) : (Dev.enterFaulted d).ddr = d.ddr := by
  unfold Dev.enterFaulted
  repeat' first
    | with_reducible rfl
    | simp only [Dev.bbWrite_ddr, Dev.setState_ddr]
    | dsimp only
    | split
    | (refine (foldl_ddr _ _ _ ?_).trans ?_ <;> try intro _ _)
    | (refine (foldl_ddr1 _ _ _ ?_).trans ?_ <;> try intro _ _)

@[simp] theorem Dev.modJob_ddr (d : Dev) (seq : Nat) (f : Job → Job) : (Dev.modJob d seq f).ddr = d.ddr := by
  unfold Dev.modJob
  repeat' first
    | with_reducible rfl
    | dsimp only
    | split
    | (refine (foldl_ddr _ _ _ ?_).trans ?_ <;> try intro _ _)
    | (refine (foldl_ddr1 _ _ _ ?_).trans ?_ <;> try intro _ _)

@[simp] theorem Dev.syncState_ddr (d : Dev) : (Dev.syncState d).ddr = d.ddr := by
  unfold Dev.syncState
  repeat' first
    | with_reducible rfl
    | simp only [Dev.setState_ddr, Dev.wrs_ddr]
    | dsimp only
    | split
    | (refine (foldl_ddr _ _ _ ?_).trans ?_ <;> try intro _ _)
    | (refine (foldl_ddr1 _ _ _ ?_).trans ?_ <;> try intro _ _)

@[simp] theorem Dev.spoil_ddr (d : Dev) (seq : Nat) : (Dev.spoil d seq).ddr = d.ddr := by
  unfold Dev.spoil
  repeat' first
    | with_reducible rfl
    | simp only [Dev.modJob_ddr]
    | dsimp only
    | split
    | (refine (foldl_ddr _ _ _ ?_).trans ?_ <;> try intro _ _)
    | (refine (foldl_ddr1 _ _ _ ?_).trans ?_ <;> try intro _ _)

@[simp] theorem Dev.spoilAll_ddr (d : Dev) : (Dev.spoilAll d).ddr = d.ddr := by
  unfold Dev.spoilAll
  repeat' first
    | with_reducible rfl
    | dsimp only
    | split
    | (refine (foldl_ddr _ _ _ ?_).trans ?_ <;> try intro _ _)
    | (refine (foldl_ddr1 _ _ _ ?_).trans ?_ <;> try intro _ _)

@[simp] theorem Dev.spoilWhere_ddr (d : Dev) (p : Job → Bool) : (Dev.spoilWhere d p).ddr = d.ddr := by
  unfold Dev.spoilWhere
  repeat' first
    | with_reducible rfl
    | dsimp only
    | split
    | (refine (foldl_ddr _ _ _ ?_).trans ?_ <;> try intro _ _)
    | (refine (foldl_ddr1 _ _ _ ?_).trans ?_ <;> try intro _ _)

@[simp] theorem Dev.spoilThread_ddr (d : Dev) (n : Nat) : (Dev.spoilThread d n).ddr = d.ddr := by
  unfold Dev.spoilThread
  repeat' first
    | with_reducible rfl
    | simp only [Dev.modJob_ddr]
    | dsimp only
    | split
    | (refine (foldl_ddr _ _ _ ?_).trans ?_ <;> try intro _ _)
    | (refine (foldl_ddr1 _ _ _ ?_).trans ?_ <;> try intro _ _)

@[simp] theorem Dev.refreshHeld_ddr (d : Dev) : (Dev.refreshHeld d).ddr = d.ddr := by
  unfold Dev.refreshHeld
  repeat' first
    | with_reducible rfl
    | simp only [Dev.wr_ddr]
    | dsimp only
    | split
    | (refine (foldl_ddr _ _ _ ?_).trans ?_ <;> try intro _ _)
    | (refine (foldl_ddr1 _ _ _ ?_).trans ?_ <;> try intro _ _)

@[simp] theorem Dev.noteFault_ddr (d : Dev) (u : UnitRef) (kind : Nat) : (Dev.noteFault d u kind).ddr = d.ddr := by
  unfold Dev.noteFault
  repeat' first
    | with_reducible rfl
    | dsimp only
    | split
    | (refine (foldl_ddr _ _ _ ?_).trans ?_ <;> try intro _ _)
    | (refine (foldl_ddr1 _ _ _ ?_).trans ?_ <;> try intro _ _)

@[simp] theorem Dev.refreshUnits_ddr (d : Dev) : (Dev.refreshUnits d).ddr = d.ddr := by
  unfold Dev.refreshUnits
  repeat' first
    | with_reducible rfl
    | simp only [Dev.wrs_ddr]
    | dsimp only
    | split
    | (refine (foldl_ddr _ _ _ ?_).trans ?_ <;> try intro _ _)
    | (refine (foldl_ddr1 _ _ _ ?_).trans ?_ <;> try intro _ _)

@[simp] theorem Dev.setLink_ddr (d : Dev) (k : Nat) (l : Link) : (Dev.setLink d k l).ddr = d.ddr := by
  unfold Dev.setLink
  repeat' first
    | with_reducible rfl
    | simp only [Dev.wr_ddr]
    | dsimp only
    | split
    | (refine (foldl_ddr _ _ _ ?_).trans ?_ <;> try intro _ _)
    | (refine (foldl_ddr1 _ _ _ ?_).trans ?_ <;> try intro _ _)

@[simp] theorem Dev.sendCell_ddr (d : Dev) (k : Nat) (b : CellBody) : (Dev.sendCell d k b).ddr = d.ddr := by
  unfold Dev.sendCell
  repeat' first
    | with_reducible rfl
    | simp only [Dev.setLink_ddr]
    | dsimp only
    | split
    | (refine (foldl_ddr _ _ _ ?_).trans ?_ <;> try intro _ _)
    | (refine (foldl_ddr1 _ _ _ ?_).trans ?_ <;> try intro _ _)

@[simp] theorem Dev.sendBeat_ddr (d : Dev) (b : BeatMsg) (k : Nat) : (Dev.sendBeat d b k).ddr = d.ddr := by
  unfold Dev.sendBeat
  repeat' first
    | with_reducible rfl
    | simp only [Dev.setLink_ddr]
    | dsimp only
    | split
    | (refine (foldl_ddr _ _ _ ?_).trans ?_ <;> try intro _ _)
    | (refine (foldl_ddr1 _ _ _ ?_).trans ?_ <;> try intro _ _)

@[simp] theorem Dev.sendCells_ddr (d : Dev) (k : Nat) (bs : List CellBody) : (Dev.sendCells d k bs).ddr = d.ddr := by
  unfold Dev.sendCells
  repeat' first
    | with_reducible rfl
    | simp only [Dev.sendCell_ddr]
    | dsimp only
    | split
    | (refine (foldl_ddr _ _ _ ?_).trans ?_ <;> try intro _ _)
    | (refine (foldl_ddr1 _ _ _ ?_).trans ?_ <;> try intro _ _)

@[simp] theorem Dev.sendMsg_ddr (d : Dev) (kind : Nat) (m : LatMsg) : (Dev.sendMsg d kind m).ddr = d.ddr := by
  unfold Dev.sendMsg
  repeat' first
    | with_reducible rfl
    | simp only [Dev.sendCell_ddr]
    | dsimp only
    | split
    | (refine (foldl_ddr _ _ _ ?_).trans ?_ <;> try intro _ _)
    | (refine (foldl_ddr1 _ _ _ ?_).trans ?_ <;> try intro _ _)

@[simp] theorem Dev.bulkChunk_ddr (d : Dev) (k : Nat) (dst : Nat) (addr : Nat) (l : List Byte) : (Dev.bulkChunk d k dst addr l).ddr = d.ddr := by
  unfold Dev.bulkChunk
  repeat' first
    | with_reducible rfl
    | simp only [Dev.sendCell_ddr, Dev.setLink_ddr]
    | dsimp only
    | split
    | (refine (foldl_ddr _ _ _ ?_).trans ?_ <;> try intro _ _)
    | (refine (foldl_ddr1 _ _ _ ?_).trans ?_ <;> try intro _ _)

@[simp] theorem Dev.bulkSend_ddr (d : Dev) (dst : Nat) (addr : Nat) (l : List Byte) : (Dev.bulkSend d dst addr l).ddr = d.ddr := by
  unfold Dev.bulkSend
  split
  · exact foldl_ddr _ _ _ fun e x => by simp
  · rfl

@[simp] theorem Dev.pathState_ddr (d : Dev) : (Dev.pathState d).ddr = d.ddr := by
  unfold Dev.pathState
  repeat' first
    | with_reducible rfl
    | simp only [Dev.wr_ddr]
    | dsimp only
    | split
    | (refine (foldl_ddr _ _ _ ?_).trans ?_ <;> try intro _ _)
    | (refine (foldl_ddr1 _ _ _ ?_).trans ?_ <;> try intro _ _)

@[simp] theorem Dev.pathOut_ddr (d : Dev) (sec : Bool) : (Dev.pathOut d sec).ddr = d.ddr := by
  unfold Dev.pathOut
  repeat' first
    | with_reducible rfl
    | simp only [Dev.bbWrite_ddr, Dev.flag_ddr, Dev.pathState_ddr]
    | dsimp only
    | split
    | (refine (foldl_ddr _ _ _ ?_).trans ?_ <;> try intro _ _)
    | (refine (foldl_ddr1 _ _ _ ?_).trans ?_ <;> try intro _ _)

@[simp] theorem Dev.spineLinkLost_ddr (d : Dev) (k : Nat) : (Dev.spineLinkLost d k).ddr = d.ddr := by
  unfold Dev.spineLinkLost
  repeat' first
    | with_reducible rfl
    | simp only [Dev.pathOut_ddr]
    | dsimp only
    | split
    | (refine (foldl_ddr _ _ _ ?_).trans ?_ <;> try intro _ _)
    | (refine (foldl_ddr1 _ _ _ ?_).trans ?_ <;> try intro _ _)

@[simp] theorem Dev.dropLink_ddr (d : Dev) (k : Nat) (st : Nat) : (Dev.dropLink d k st).ddr = d.ddr := by
  unfold Dev.dropLink
  repeat' first
    | with_reducible rfl
    | simp only [Dev.setLink_ddr, Dev.spineLinkLost_ddr, Dev.wr_ddr, Dev.wrs_ddr]
    | dsimp only
    | split
    | (refine (foldl_ddr _ _ _ ?_).trans ?_ <;> try intro _ _)
    | (refine (foldl_ddr1 _ _ _ ?_).trans ?_ <;> try intro _ _)

end Sys2Proof.Machine
end

