-- ==== Sys2Proof/Laws/MemB.lean ====
section
/-! SUPPORT. What each operation does to the bytes of DDR4 (easels, canvas operations, micro-words): most leave them, the few that store keep
their canonical form. One lemma per operation, cited by the laws of the step. -/

set_option linter.all false
set_option linter.unreachableTactic false
set_option linter.unusedTactic false

namespace Sys2Proof.Machine

@[simp] theorem Dev.setThread_ddr (d : Dev) (n : Nat) (t : Thread) : (Dev.setThread d n t).ddr = d.ddr := by
  unfold Dev.setThread
  repeat' first
    | with_reducible rfl
    | dsimp only
    | split
    | (refine (foldl_ddr _ _ _ ?_).trans ?_ <;> try intro _ _)
    | (refine (foldl_ddr1 _ _ _ ?_).trans ?_ <;> try intro _ _)

@[simp] theorem Dev.setCtx_ddr (d : Dev) (x : CtxRef) (c : Ctx) : (Dev.setCtx d x c).ddr = d.ddr := by
  unfold Dev.setCtx
  repeat' first
    | with_reducible rfl
    | simp only [Dev.setThread_ddr]
    | dsimp only
    | split
    | (refine (foldl_ddr _ _ _ ?_).trans ?_ <;> try intro _ _)
    | (refine (foldl_ddr1 _ _ _ ?_).trans ?_ <;> try intro _ _)

@[simp] theorem Dev.ctxFlag_ddr (d : Dev) (x : CtxRef) (c : Ctx) (key : Nat) (bit : Nat) : (Dev.ctxFlag d x c key bit).1.ddr = d.ddr := by
  unfold Dev.ctxFlag
  repeat' first
    | with_reducible rfl
    | simp only [Dev.flag_ddr]
    | dsimp only
    | split
    | (refine (foldl_ddr _ _ _ ?_).trans ?_ <;> try intro _ _)
    | (refine (foldl_ddr1 _ _ _ ?_).trans ?_ <;> try intro _ _)

@[simp] theorem Dev.commitMargin_ddr (d : Dev) (x : CtxRef) (c : Ctx) (tb : Nat) :
    (Dev.commitMargin d x c tb).1.ddr = d.ddr := by
  unfold Dev.commitMargin
  dsimp only
  split
  · rfl
  · exact Dev.wr_ddr _ _ _

@[simp] theorem Dev.pagesPeak_ddr (d : Dev) (n : Nat) : (Dev.pagesPeak d n).ddr = d.ddr := by
  unfold Dev.pagesPeak
  repeat' first
    | with_reducible rfl
    | simp only [Dev.wr_ddr]
    | dsimp only
    | split
    | (refine (foldl_ddr _ _ _ ?_).trans ?_ <;> try intro _ _)
    | (refine (foldl_ddr1 _ _ _ ?_).trans ?_ <;> try intro _ _)

@[simp] theorem Dev.restartPeaks_ddr (d : Dev) (j : Job) : (Dev.restartPeaks d j).ddr = d.ddr := by
  unfold Dev.restartPeaks
  repeat' first
    | with_reducible rfl
    | simp only [Dev.wr_ddr]
    | dsimp only
    | split
    | (refine (foldl_ddr _ _ _ ?_).trans ?_ <;> try intro _ _)
    | (refine (foldl_ddr1 _ _ _ ?_).trans ?_ <;> try intro _ _)

@[simp] theorem Dev.takePage_ddr (d : Dev) (n : Nat) (tb : Nat) (e : LEntry) : (Dev.takePage d n tb e).ddr = d.ddr := by
  unfold Dev.takePage
  repeat' first
    | with_reducible rfl
    | simp only [Dev.pagesPeak_ddr, Dev.setThread_ddr]
    | dsimp only
    | split
    | (refine (foldl_ddr _ _ _ ?_).trans ?_ <;> try intro _ _)
    | (refine (foldl_ddr1 _ _ _ ?_).trans ?_ <;> try intro _ _)

@[simp] theorem Dev.setMarker_ddr (d : Dev) (m : Nat) (k : Marker) : (Dev.setMarker d m k).ddr = d.ddr := by
  unfold Dev.setMarker
  repeat' first
    | with_reducible rfl
    | dsimp only
    | split
    | (refine (foldl_ddr _ _ _ ?_).trans ?_ <;> try intro _ _)
    | (refine (foldl_ddr1 _ _ _ ?_).trans ?_ <;> try intro _ _)

@[simp] theorem Dev.addMark_ddr (d : Dev) (n : Nat) (e : LEntry) : (Dev.addMark d n e).ddr = d.ddr := by
  unfold Dev.addMark
  repeat' first
    | with_reducible rfl
    | simp only [Dev.setMarker_ddr]
    | dsimp only
    | split
    | (refine (foldl_ddr _ _ _ ?_).trans ?_ <;> try intro _ _)
    | (refine (foldl_ddr1 _ _ _ ?_).trans ?_ <;> try intro _ _)

@[simp] theorem Dev.pathMarks_ddr (d : Dev) (n : Nat) (f : Nat → Option (Option Nat)) : (Dev.pathMarks d n f).ddr = d.ddr := by
  unfold Dev.pathMarks
  repeat' first
    | with_reducible rfl
    | dsimp only
    | split
    | (refine (foldl_ddr _ _ _ ?_).trans ?_ <;> try intro _ _)
    | (refine (foldl_ddr1 _ _ _ ?_).trans ?_ <;> try intro _ _)

@[simp] theorem Dev.issue_ddr (d : Dev) (x : CtxRef) (c : Ctx) (kind : LKind) (w : W128) (req : Nat) : (Dev.issue d x c kind w req).1.ddr = d.ddr := by
  unfold Dev.issue
  repeat' first
    | with_reducible rfl
    | simp only [Dev.addMark_ddr, Dev.ctxFlag_ddr, Dev.setThread_ddr, Dev.takePage_ddr]
    | dsimp only
    | split
    | (refine (foldl_ddr _ _ _ ?_).trans ?_ <;> try intro _ _)
    | (refine (foldl_ddr1 _ _ _ ?_).trans ?_ <;> try intro _ _)

@[simp] theorem Dev.squashAll_ddr (d : Dev) (n : Nat) : (Dev.squashAll d n).ddr = d.ddr := by
  unfold Dev.squashAll
  repeat' first
    | with_reducible rfl
    | simp only [Dev.pathMarks_ddr, Dev.setThread_ddr]
    | dsimp only
    | split
    | (refine (foldl_ddr _ _ _ ?_).trans ?_ <;> try intro _ _)
    | (refine (foldl_ddr1 _ _ _ ?_).trans ?_ <;> try intro _ _)

@[simp] theorem Dev.endCanvas_ddr (d : Dev) (n : Nat) : (Dev.endCanvas d n).ddr = d.ddr := by
  unfold Dev.endCanvas
  repeat' first
    | with_reducible rfl
    | simp only [Dev.setThread_ddr, Dev.squashAll_ddr]
    | dsimp only
    | split
    | (refine (foldl_ddr _ _ _ ?_).trans ?_ <;> try intro _ _)
    | (refine (foldl_ddr1 _ _ _ ?_).trans ?_ <;> try intro _ _)

@[simp] theorem Dev.drainThread_ddr (d : Dev) (n : Nat) : (Dev.drainThread d n).ddr = d.ddr := by
  unfold Dev.drainThread
  repeat' first
    | with_reducible rfl
    | simp only [Dev.endCanvas_ddr, Dev.setThread_ddr]
    | dsimp only
    | split
    | (refine (foldl_ddr _ _ _ ?_).trans ?_ <;> try intro _ _)
    | (refine (foldl_ddr1 _ _ _ ?_).trans ?_ <;> try intro _ _)

@[simp] theorem Dev.drainTrap_ddr (d : Dev) (n : Nat) : (Dev.drainTrap d n).ddr = d.ddr := by
  unfold Dev.drainTrap
  repeat' first
    | with_reducible rfl
    | simp only [Dev.drainThread_ddr, Dev.setThread_ddr]
    | dsimp only
    | split
    | (refine (foldl_ddr _ _ _ ?_).trans ?_ <;> try intro _ _)
    | (refine (foldl_ddr1 _ _ _ ?_).trans ?_ <;> try intro _ _)

@[simp] theorem Dev.programFault_ddr (d : Dev) (n : Nat) (bit : Nat) : (Dev.programFault d n bit).ddr = d.ddr := by
  unfold Dev.programFault
  repeat' first
    | with_reducible rfl
    | simp only [Dev.endCanvas_ddr, Dev.flag_ddr, Dev.spoilThread_ddr]
    | dsimp only
    | split
    | (refine (foldl_ddr _ _ _ ?_).trans ?_ <;> try intro _ _)
    | (refine (foldl_ddr1 _ _ _ ?_).trans ?_ <;> try intro _ _)

theorem Dev.routine_ddr (d : Dev) (x : CtxRef) (c : Ctx) (launches : Bool) (body : Dev → Ctx → Nat → Dev × Ctx)
    (hb : ∀ e c t, (body e c t).1.ddr = e.ddr) : (Dev.routine d x c launches body).ddr = d.ddr := by
  unfold Dev.routine
  repeat' first
    | with_reducible rfl
    | simp only [Dev.setCtx_ddr, hb]
    | dsimp only
    | split

theorem Dev.dispatch_ddr (d : Dev) (x : CtxRef) (op : COp) (h : Hdr) (launches : Bool)
    (body : Dev → Ctx → Nat → Dev × Ctx) (hb : ∀ e c t, (body e c t).1.ddr = e.ddr) :
    (d.dispatch x op h launches body).ddr = d.ddr := by
  unfold Dev.dispatch
  repeat' first
    | with_reducible rfl
    | simp only [Dev.ctxFlag_ddr, Dev.setCtx_ddr, hb]
    | exact Dev.routine_ddr _ _ _ _ _ hb
    | dsimp only
    | split

@[simp] theorem Dev.launchOp_ddr (d : Dev) (x : CtxRef) (op : COp) (h : Hdr) (kind : LKind) : (Dev.launchOp d x op h kind).ddr = d.ddr := by
  unfold Dev.launchOp
  repeat' first
    | with_reducible rfl
    | simp only [Dev.issue_ddr]
    | (refine Dev.dispatch_ddr _ _ _ _ _ _ ?_ <;> try intro _ _ _)
    | dsimp only
    | split
    | (refine (foldl_ddr _ _ _ ?_).trans ?_ <;> try intro _ _)
    | (refine (foldl_ddr1 _ _ _ ?_).trans ?_ <;> try intro _ _)

@[simp] theorem opPlayOp_ddr (x : CtxRef) (h : Hdr) (tgt : BitVec 4) (gen : Bool) (gsel : BitVec 5) (daddr : BitVec 22) (amp : BitVec 16) (pofs : BitVec 16) (frame : BitVec 2) (fine : BitVec 5) (d : Dev) : (opPlayOp x h tgt gen gsel daddr amp pofs frame fine d).ddr = d.ddr := by
  unfold opPlayOp
  repeat' first
    | with_reducible rfl
    | simp only [Dev.issue_ddr]
    | (refine Dev.dispatch_ddr _ _ _ _ _ _ ?_ <;> try intro _ _ _)
    | dsimp only
    | split
    | (refine (foldl_ddr _ _ _ ?_).trans ?_ <;> try intro _ _)
    | (refine (foldl_ddr1 _ _ _ ?_).trans ?_ <;> try intro _ _)

@[simp] theorem opReadOp_ddr (x : CtxRef) (h : Hdr) (gen : Bool) (gsel : BitVec 5) (daddr : BitVec 22) (amp : BitVec 16) (wlen : BitVec 16) (frame : BitVec 2) (ksel : BitVec 4) (dtag : BitVec 8) (d : Dev) : (opReadOp x h gen gsel daddr amp wlen frame ksel dtag d).ddr = d.ddr := by
  unfold opReadOp
  repeat' first
    | with_reducible rfl
    | simp only [Dev.issue_ddr]
    | (refine Dev.dispatch_ddr _ _ _ _ _ _ ?_ <;> try intro _ _ _)
    | dsimp only
    | split
    | (refine (foldl_ddr _ _ _ ?_).trans ?_ <;> try intro _ _)
    | (refine (foldl_ddr1 _ _ _ ?_).trans ?_ <;> try intro _ _)

@[simp] theorem opFshiftvOp_ddr (x : CtxRef) (h : Hdr) (frame : BitVec 2) (fk : Bool) (vsrc : BitVec 4) (d : Dev) : (opFshiftvOp x h frame fk vsrc d).ddr = d.ddr := by
  unfold opFshiftvOp
  repeat' first
    | with_reducible rfl
    | simp only [Dev.issue_ddr]
    | (refine Dev.dispatch_ddr _ _ _ _ _ _ ?_ <;> try intro _ _ _)
    | dsimp only
    | split
    | (refine (foldl_ddr _ _ _ ?_).trans ?_ <;> try intro _ _)
    | (refine (foldl_ddr1 _ _ _ ?_).trans ?_ <;> try intro _ _)

@[simp] theorem opWaitOp_ddr (x : CtxRef) (h : Hdr) (d : Dev) : (opWaitOp x h d).ddr = d.ddr := by
  unfold opWaitOp
  repeat' first
    | with_reducible rfl
    | (refine Dev.dispatch_ddr _ _ _ _ _ _ ?_ <;> try intro _ _ _)
    | dsimp only
    | split
    | (refine (foldl_ddr _ _ _ ?_).trans ?_ <;> try intro _ _)
    | (refine (foldl_ddr1 _ _ _ ?_).trans ?_ <;> try intro _ _)

@[simp] theorem opWaituntilOp_ddr (x : CtxRef) (h : Hdr) (t48 : W48) (d : Dev) : (opWaituntilOp x h t48 d).ddr = d.ddr := by
  unfold opWaituntilOp
  repeat' first
    | with_reducible rfl
    | (refine Dev.dispatch_ddr _ _ _ _ _ _ ?_ <;> try intro _ _ _)
    | dsimp only
    | split
    | (refine (foldl_ddr _ _ _ ?_).trans ?_ <;> try intro _ _)
    | (refine (foldl_ddr1 _ _ _ ?_).trans ?_ <;> try intro _ _)

@[simp] theorem Dev.releaseBarrier_ddr (d : Dev) (n : Nat) (mask : Nat) : (Dev.releaseBarrier d n mask).ddr = d.ddr := by
  unfold Dev.releaseBarrier
  repeat' first
    | with_reducible rfl
    | simp only [Dev.setThread_ddr]
    | dsimp only
    | split
    | (refine (foldl_ddr _ _ _ ?_).trans ?_ <;> try intro _ _)
    | (refine (foldl_ddr1 _ _ _ ?_).trans ?_ <;> try intro _ _)

@[simp] theorem opBarrierOp_ddr (x : CtxRef) (h : Hdr) (mask : BitVec 16) (d : Dev) : (opBarrierOp x h mask d).ddr = d.ddr := by
  unfold opBarrierOp
  repeat' first
    | with_reducible rfl
    | simp only [Dev.releaseBarrier_ddr]
    | (refine Dev.dispatch_ddr _ _ _ _ _ _ ?_ <;> try intro _ _ _)
    | dsimp only
    | split
    | (refine (foldl_ddr _ _ _ ?_).trans ?_ <;> try intro _ _)
    | (refine (foldl_ddr1 _ _ _ ?_).trans ?_ <;> try intro _ _)

@[simp] theorem opWaitevOp_ddr (x : CtxRef) (h : Hdr) (eline : BitVec 4) (d : Dev) : (opWaitevOp x h eline d).ddr = d.ddr := by
  unfold opWaitevOp
  repeat' first
    | with_reducible rfl
    | (refine Dev.dispatch_ddr _ _ _ _ _ _ ?_ <;> try intro _ _ _)
    | dsimp only
    | split
    | (refine (foldl_ddr _ _ _ ?_).trans ?_ <;> try intro _ _)
    | (refine (foldl_ddr1 _ _ _ ?_).trans ?_ <;> try intro _ _)

@[simp] theorem Dev.consume_ddr (d : Dev) (x : CtxRef) (c : Ctx) (h : Nat) : (Dev.consume d x c h).1.ddr = d.ddr := by
  unfold Dev.consume
  repeat' first
    | with_reducible rfl
    | simp only [Dev.setThread_ddr]
    | dsimp only
    | split
    | (refine (foldl_ddr _ _ _ ?_).trans ?_ <;> try intro _ _)
    | (refine (foldl_ddr1 _ _ _ ?_).trans ?_ <;> try intro _ _)

@[simp] theorem opBranchWaitOp_ddr (x : CtxRef) (h : Hdr) (dh : BitVec 4) (t0 : BitVec 16) (t1 : BitVec 16) (t2 : BitVec 16) (t3 : BitVec 16) (d : Dev) : (opBranchWaitOp x h dh t0 t1 t2 t3 d).ddr = d.ddr := by
  unfold opBranchWaitOp
  repeat' first
    | with_reducible rfl
    | (refine Dev.dispatch_ddr _ _ _ _ _ _ ?_ <;> try intro _ _ _)
    | dsimp only
    | split
    | (refine (foldl_ddr _ _ _ ?_).trans ?_ <;> try intro _ _)
    | (refine (foldl_ddr1 _ _ _ ?_).trans ?_ <;> try intro _ _)

@[simp] theorem Dev.openPaths_ddr (d : Dev) (x : CtxRef) (c : Ctx) (h : Nat) (tb : Nat) (targets : List Nat) : (Dev.openPaths d x c h tb targets).ddr = d.ddr := by
  unfold Dev.openPaths
  repeat' first
    | with_reducible rfl
    | simp only [Dev.setThread_ddr]
    | dsimp only
    | split
    | (refine (foldl_ddr _ _ _ ?_).trans ?_ <;> try intro _ _)
    | (refine (foldl_ddr1 _ _ _ ?_).trans ?_ <;> try intro _ _)

@[simp] theorem opBranchSketchOp_ddr (x : CtxRef) (h : Hdr) (dh : BitVec 4) (t0 : BitVec 16) (t1 : BitVec 16) (t2 : BitVec 16) (t3 : BitVec 16) (d : Dev) : (opBranchSketchOp x h dh t0 t1 t2 t3 d).ddr = d.ddr := by
  unfold opBranchSketchOp
  repeat' first
    | with_reducible rfl
    | simp only [Dev.commitMargin_ddr, Dev.consume_ddr, Dev.ctxFlag_ddr, Dev.openPaths_ddr, Dev.pagesPeak_ddr]
    | (refine Dev.dispatch_ddr _ _ _ _ _ _ ?_ <;> try intro _ _ _)
    | dsimp only
    | split
    | (refine (foldl_ddr _ _ _ ?_).trans ?_ <;> try intro _ _)
    | (refine (foldl_ddr1 _ _ _ ?_).trans ?_ <;> try intro _ _)

@[simp] theorem opGotoOp_ddr (x : CtxRef) (h : Hdr) (a : BitVec 22) (d : Dev) : (opGotoOp x h a d).ddr = d.ddr := by
  unfold opGotoOp
  repeat' first
    | with_reducible rfl
    | (refine Dev.dispatch_ddr _ _ _ _ _ _ ?_ <;> try intro _ _ _)
    | dsimp only
    | split
    | (refine (foldl_ddr _ _ _ ?_).trans ?_ <;> try intro _ _)
    | (refine (foldl_ddr1 _ _ _ ?_).trans ?_ <;> try intro _ _)

@[simp] theorem opLoopOp_ddr (x : CtxRef) (h : Hdr) (vc : BitVec 4) (tofs : BitVec 16) (d : Dev) : (opLoopOp x h vc tofs d).ddr = d.ddr := by
  unfold opLoopOp
  repeat' first
    | with_reducible rfl
    | (refine Dev.dispatch_ddr _ _ _ _ _ _ ?_ <;> try intro _ _ _)
    | dsimp only
    | split
    | (refine (foldl_ddr _ _ _ ?_).trans ?_ <;> try intro _ _)
    | (refine (foldl_ddr1 _ _ _ ?_).trans ?_ <;> try intro _ _)

@[simp] theorem opSetvOp_ddr (x : CtxRef) (h : Hdr) (vd : BitVec 4) (v : W32) (d : Dev) : (opSetvOp x h vd v d).ddr = d.ddr := by
  unfold opSetvOp
  repeat' first
    | with_reducible rfl
    | (refine Dev.dispatch_ddr _ _ _ _ _ _ ?_ <;> try intro _ _ _)
    | dsimp only
    | split
    | (refine (foldl_ddr _ _ _ ?_).trans ?_ <;> try intro _ _)
    | (refine (foldl_ddr1 _ _ _ ?_).trans ?_ <;> try intro _ _)

@[simp] theorem opAddvOp_ddr (x : CtxRef) (h : Hdr) (vd : BitVec 4) (v : W32) (d : Dev) : (opAddvOp x h vd v d).ddr = d.ddr := by
  unfold opAddvOp
  repeat' first
    | with_reducible rfl
    | (refine Dev.dispatch_ddr _ _ _ _ _ _ ?_ <;> try intro _ _ _)
    | dsimp only
    | split
    | (refine (foldl_ddr _ _ _ ?_).trans ?_ <;> try intro _ _)
    | (refine (foldl_ddr1 _ _ _ ?_).trans ?_ <;> try intro _ _)

@[simp] theorem opGresetOp_ddr (x : CtxRef) (h : Hdr) (g : BitVec 5) (d : Dev) : (opGresetOp x h g d).ddr = d.ddr := by
  unfold opGresetOp
  repeat' first
    | with_reducible rfl
    | (refine Dev.dispatch_ddr _ _ _ _ _ _ ?_ <;> try intro _ _ _)
    | dsimp only
    | split
    | (refine (foldl_ddr _ _ _ ?_).trans ?_ <;> try intro _ _)
    | (refine (foldl_ddr1 _ _ _ ?_).trans ?_ <;> try intro _ _)

@[simp] theorem opEndOp_ddr (x : CtxRef) (h : Hdr) (d : Dev) : (opEndOp x h d).ddr = d.ddr := by
  unfold opEndOp
  repeat' first
    | with_reducible rfl
    | simp only [Dev.endCanvas_ddr]
    | (refine Dev.dispatch_ddr _ _ _ _ _ _ ?_ <;> try intro _ _ _)
    | dsimp only
    | split
    | (refine (foldl_ddr _ _ _ ?_).trans ?_ <;> try intro _ _)
    | (refine (foldl_ddr1 _ _ _ ?_).trans ?_ <;> try intro _ _)

@[simp] theorem customerOp_ddr (x : CtxRef) (h : Hdr) (k : BitVec 6) (f : BitVec 96) (d : Dev) : (customerOp x h k f d).ddr = d.ddr := by
  unfold customerOp
  repeat' first
    | with_reducible rfl
    | (refine Dev.dispatch_ddr _ _ _ _ _ _ ?_ <;> try intro _ _ _)
    | dsimp only
    | split
    | (refine (foldl_ddr _ _ _ ?_).trans ?_ <;> try intro _ _)
    | (refine (foldl_ddr1 _ _ _ ?_).trans ?_ <;> try intro _ _)

@[simp] theorem prefetchOp_ddr (x : CtxRef) (addr : BitVec 22) (d : Dev) : (prefetchOp x addr d).ddr = d.ddr := by
  unfold prefetchOp
  repeat' first
    | with_reducible rfl
    | simp only [Dev.setCtx_ddr]
    | dsimp only
    | split
    | (refine (foldl_ddr _ _ _ ?_).trans ?_ <;> try intro _ _)
    | (refine (foldl_ddr1 _ _ _ ?_).trans ?_ <;> try intro _ _)

@[simp] theorem Dev.ctxProgramFault_ddr (d : Dev) (x : CtxRef) (c : Ctx) (bit : Nat) : (Dev.ctxProgramFault d x c bit).ddr = d.ddr := by
  unfold Dev.ctxProgramFault
  repeat' first
    | with_reducible rfl
    | simp only [Dev.ctxFlag_ddr, Dev.programFault_ddr, Dev.setCtx_ddr]
    | dsimp only
    | split
    | (refine (foldl_ddr _ _ _ ?_).trans ?_ <;> try intro _ _)
    | (refine (foldl_ddr1 _ _ _ ?_).trans ?_ <;> try intro _ _)

@[simp] theorem Dev.microEffects_ddr (d : Dev) (x : CtxRef) (c : Ctx) (w : W192) : (Dev.microEffects d x c w).ddr = d.ddr := by
  unfold Dev.microEffects
  repeat' first
    | with_reducible rfl
    | simp only [Dev.ctxProgramFault_ddr, Dev.issue_ddr, Dev.setCtx_ddr]
    | dsimp only
    | split
    | (refine (foldl_ddr _ _ _ ?_).trans ?_ <;> try intro _ _)
    | (refine (foldl_ddr1 _ _ _ ?_).trans ?_ <;> try intro _ _)

@[simp] theorem Dev.corrected_ddr (d : Dev) (n : Nat) (diff : Nat) : (Dev.corrected d n diff).ddr = d.ddr := by
  unfold Dev.corrected
  repeat' first
    | with_reducible rfl
    | simp only [Dev.flag_ddr]
    | dsimp only
    | split
    | (refine (foldl_ddr _ _ _ ?_).trans ?_ <;> try intro _ _)
    | (refine (foldl_ddr1 _ _ _ ?_).trans ?_ <;> try intro _ _)

@[simp] theorem microwordOp_ddr (x : CtxRef) (fetched : W192) (d : Dev) : (microwordOp x fetched d).ddr = d.ddr := by
  unfold microwordOp
  repeat' first
    | with_reducible rfl
    | simp only [Dev.corrected_ddr, Dev.microEffects_ddr, Dev.setCtx_ddr]
    | (refine Dev.service_ddr _ _ _ _ ?_ <;> try intro _ _)
    | dsimp only
    | split
    | (refine (foldl_ddr _ _ _ ?_).trans ?_ <;> try intro _ _)
    | (refine (foldl_ddr1 _ _ _ ?_).trans ?_ <;> try intro _ _)

@[simp] theorem waitcReleaseOp_ddr (x : CtxRef) (d : Dev) : (waitcReleaseOp x d).ddr = d.ddr := by
  unfold waitcReleaseOp
  repeat' first
    | with_reducible rfl
    | simp only [Dev.microEffects_ddr]
    | dsimp only
    | split
    | (refine (foldl_ddr _ _ _ ?_).trans ?_ <;> try intro _ _)
    | (refine (foldl_ddr1 _ _ _ ?_).trans ?_ <;> try intro _ _)

theorem Dev.service_ddr (d : Dev) (x : CtxRef) (k : Nat) (f : Dev → Ctx → Dev × Ctx)
    (hf : ∀ e c, (f e c).1.ddr = e.ddr) : (d.service x k f).ddr = d.ddr := by
  unfold Dev.service
  repeat' first
    | with_reducible rfl
    | simp only [Dev.setCtx_ddr, hf]
    | dsimp only
    | split

@[simp] theorem waitDecisionOp_ddr (x : CtxRef) (d : Dev) : (waitDecisionOp x d).ddr = d.ddr := by
  unfold waitDecisionOp
  repeat' first
    | with_reducible rfl
    | simp only [Dev.consume_ddr]
    | (refine Dev.service_ddr _ _ _ _ ?_ <;> try intro _ _)
    | dsimp only
    | split
    | (refine (foldl_ddr _ _ _ ?_).trans ?_ <;> try intro _ _)
    | (refine (foldl_ddr1 _ _ _ ?_).trans ?_ <;> try intro _ _)

@[simp] theorem sincosOp_ddr (x : CtxRef) (d : Dev) : (sincosOp x d).ddr = d.ddr := by
  unfold sincosOp
  repeat' first
    | with_reducible rfl
    | (refine Dev.service_ddr _ _ _ _ ?_ <;> try intro _ _)
    | dsimp only
    | split
    | (refine (foldl_ddr _ _ _ ?_).trans ?_ <;> try intro _ _)
    | (refine (foldl_ddr1 _ _ _ ?_).trans ?_ <;> try intro _ _)

@[simp] theorem recipOp_ddr (x : CtxRef) (d : Dev) : (recipOp x d).ddr = d.ddr := by
  unfold recipOp
  repeat' first
    | with_reducible rfl
    | (refine Dev.service_ddr _ _ _ _ ?_ <;> try intro _ _)
    | dsimp only
    | split
    | (refine (foldl_ddr _ _ _ ?_).trans ?_ <;> try intro _ _)
    | (refine (foldl_ddr1 _ _ _ ?_).trans ?_ <;> try intro _ _)

@[simp] theorem frameReadOp_ddr (x : CtxRef) (d : Dev) : (frameReadOp x d).ddr = d.ddr := by
  unfold frameReadOp
  repeat' first
    | with_reducible rfl
    | (refine Dev.service_ddr _ _ _ _ ?_ <;> try intro _ _)
    | dsimp only
    | split
    | (refine (foldl_ddr _ _ _ ?_).trans ?_ <;> try intro _ _)
    | (refine (foldl_ddr1 _ _ _ ?_).trans ?_ <;> try intro _ _)

@[simp] theorem Dev.enterTrap_ddr (d : Dev) (x : CtxRef) (c : Ctx) (cause : Nat) : (Dev.enterTrap d x c cause).ddr = d.ddr := by
  unfold Dev.enterTrap
  repeat' first
    | with_reducible rfl
    | simp only [Dev.setCtx_ddr, Dev.setThread_ddr, Dev.wr_ddr]
    | dsimp only
    | split
    | (refine (foldl_ddr _ _ _ ?_).trans ?_ <;> try intro _ _)
    | (refine (foldl_ddr1 _ _ _ ?_).trans ?_ <;> try intro _ _)

@[simp] theorem Dev.takeSnapshot_ddr (d : Dev) (n : Nat) : (Dev.takeSnapshot d n).ddr = d.ddr := by
  unfold Dev.takeSnapshot
  repeat' first
    | with_reducible rfl
    | simp only [Dev.enterTrap_ddr, Dev.setCtx_ddr]
    | dsimp only
    | split
    | (refine (foldl_ddr _ _ _ ?_).trans ?_ <;> try intro _ _)
    | (refine (foldl_ddr1 _ _ _ ?_).trans ?_ <;> try intro _ _)

@[simp] theorem trapEntryOp_ddr (n : Nat) (d : Dev) : (trapEntryOp n d).ddr = d.ddr := by
  unfold trapEntryOp
  repeat' first
    | with_reducible rfl
    | simp only [Dev.takeSnapshot_ddr]
    | dsimp only
    | split
    | (refine (foldl_ddr _ _ _ ?_).trans ?_ <;> try intro _ _)
    | (refine (foldl_ddr1 _ _ _ ?_).trans ?_ <;> try intro _ _)

@[simp] theorem Dev.pendTrap_ddr (d : Dev) (n : Nat) (cause : Nat) : (Dev.pendTrap d n cause).ddr = d.ddr := by
  unfold Dev.pendTrap
  repeat' first
    | with_reducible rfl
    | simp only [Dev.setThread_ddr]
    | dsimp only
    | split
    | (refine (foldl_ddr _ _ _ ?_).trans ?_ <;> try intro _ _)
    | (refine (foldl_ddr1 _ _ _ ?_).trans ?_ <;> try intro _ _)

@[simp] theorem Dev.takeDatapath_ddr (d : Dev) (x : CtxRef) (c : Ctx) : (Dev.takeDatapath d x c).ddr = d.ddr := by
  unfold Dev.takeDatapath
  repeat' first
    | with_reducible rfl
    | simp only [Dev.ctxFlag_ddr, Dev.enterTrap_ddr, Dev.flag_ddr, Dev.noteFault_ddr, Dev.setCtx_ddr]
    | dsimp only
    | split
    | (refine (foldl_ddr _ _ _ ?_).trans ?_ <;> try intro _ _)
    | (refine (foldl_ddr1 _ _ _ ?_).trans ?_ <;> try intro _ _)

@[simp] theorem Dev.takeCs_ddr (d : Dev) (x : CtxRef) (c : Ctx) : (Dev.takeCs d x c).ddr = d.ddr := by
  unfold Dev.takeCs
  repeat' first
    | with_reducible rfl
    | simp only [Dev.enterTrap_ddr, Dev.flag_ddr, Dev.noteFault_ddr, Dev.setCtx_ddr]
    | dsimp only
    | split
    | (refine (foldl_ddr _ _ _ ?_).trans ?_ <;> try intro _ _)
    | (refine (foldl_ddr1 _ _ _ ?_).trans ?_ <;> try intro _ _)

@[simp] theorem Dev.nextTrap_ddr (d : Dev) (x : CtxRef) (c : Ctx) : (Dev.nextTrap d x c).ddr = d.ddr := by
  unfold Dev.nextTrap
  repeat' first
    | with_reducible rfl
    | simp only [Dev.drainThread_ddr, Dev.takeCs_ddr, Dev.takeDatapath_ddr, Dev.takeSnapshot_ddr]
    | dsimp only
    | split
    | (refine (foldl_ddr _ _ _ ?_).trans ?_ <;> try intro _ _)
    | (refine (foldl_ddr1 _ _ _ ?_).trans ?_ <;> try intro _ _)

@[simp] theorem tretOp_ddr (n : Nat) (d : Dev) : (tretOp n d).ddr = d.ddr := by
  unfold tretOp
  repeat' first
    | with_reducible rfl
    | simp only [Dev.nextTrap_ddr, Dev.setCtx_ddr, Dev.setThread_ddr]
    | dsimp only
    | split
    | (refine (foldl_ddr _ _ _ ?_).trans ?_ <;> try intro _ _)
    | (refine (foldl_ddr1 _ _ _ ?_).trans ?_ <;> try intro _ _)

@[simp] theorem datapathOp_ddr (x : CtxRef) (d : Dev) : (datapathOp x d).ddr = d.ddr := by
  unfold datapathOp
  repeat' first
    | with_reducible rfl
    | simp only [Dev.pendTrap_ddr, Dev.takeDatapath_ddr]
    | dsimp only
    | split
    | (refine (foldl_ddr _ _ _ ?_).trans ?_ <;> try intro _ _)
    | (refine (foldl_ddr1 _ _ _ ?_).trans ?_ <;> try intro _ _)

@[simp] theorem csUncorrectableOp_ddr (x : CtxRef) (d : Dev) : (csUncorrectableOp x d).ddr = d.ddr := by
  unfold csUncorrectableOp
  repeat' first
    | with_reducible rfl
    | simp only [Dev.pendTrap_ddr, Dev.takeCs_ddr]
    | dsimp only
    | split
    | (refine (foldl_ddr _ _ _ ?_).trans ?_ <;> try intro _ _)
    | (refine (foldl_ddr1 _ _ _ ?_).trans ?_ <;> try intro _ _)

@[simp] theorem watchdogOp_ddr (n : Nat) (d : Dev) : (watchdogOp n d).ddr = d.ddr := by
  unfold watchdogOp
  repeat' first
    | with_reducible rfl
    | simp only [Dev.programFault_ddr]
    | dsimp only
    | split
    | (refine (foldl_ddr _ _ _ ?_).trans ?_ <;> try intro _ _)
    | (refine (foldl_ddr1 _ _ _ ?_).trans ?_ <;> try intro _ _)

@[simp] theorem overrunOp_ddr (n : Nat) (d : Dev) : (overrunOp n d).ddr = d.ddr := by
  unfold overrunOp
  repeat' first
    | with_reducible rfl
    | simp only [Dev.drainTrap_ddr, Dev.flag_ddr, Dev.spoilThread_ddr]
    | dsimp only
    | split
    | (refine (foldl_ddr _ _ _ ?_).trans ?_ <;> try intro _ _)
    | (refine (foldl_ddr1 _ _ _ ?_).trans ?_ <;> try intro _ _)

@[simp] theorem Dev.raiseSnapshot_ddr (d : Dev) (n : Nat) : (Dev.raiseSnapshot d n).ddr = d.ddr := by
  unfold Dev.raiseSnapshot
  repeat' first
    | with_reducible rfl
    | simp only [Dev.setThread_ddr]
    | dsimp only
    | split
    | (refine (foldl_ddr _ _ _ ?_).trans ?_ <;> try intro _ _)
    | (refine (foldl_ddr1 _ _ _ ?_).trans ?_ <;> try intro _ _)

end Sys2Proof.Machine
end

