-- ==== Sys2Proof/Laws/MemC.lean ====
section
/-! SUPPORT. What each operation does to the bytes of DDR4 (launches and readout): most leave them, the few that store keep
their canonical form. One lemma per operation, cited by the laws of the step. -/

set_option linter.all false
set_option linter.unreachableTactic false
set_option linter.unusedTactic false

namespace Sys2Proof.Machine

@[simp] theorem Dev.setStroke_ddr (d : Dev) (t : Target) (s : Option Stroke) : (Dev.setStroke d t s).ddr = d.ddr := by
  unfold Dev.setStroke
  repeat' first
    | with_reducible rfl
    | dsimp only
    | split
    | (refine (foldl_ddr _ _ _ ?_).trans ?_ <;> try intro _ _)
    | (refine (foldl_ddr1 _ _ _ ?_).trans ?_ <;> try intro _ _)

@[simp] theorem Dev.setSlotRx_ddr (d : Dev) (slot : Nat) (r : SlotRx) : (Dev.setSlotRx d slot r).ddr = d.ddr := by
  unfold Dev.setSlotRx
  repeat' first
    | with_reducible rfl
    | dsimp only
    | split
    | (refine (foldl_ddr _ _ _ ?_).trans ?_ <;> try intro _ _)
    | (refine (foldl_ddr1 _ _ _ ?_).trans ?_ <;> try intro _ _)

@[simp] theorem Dev.markSlot_ddr (d : Dev) (slot : Nat) (ac2 : Nat) (taps : Nat) (extra : Nat) : (Dev.markSlot d slot ac2 taps extra).ddr = d.ddr := by
  unfold Dev.markSlot
  repeat' first
    | with_reducible rfl
    | simp only [Dev.setSlotRx_ddr]
    | dsimp only
    | split
    | (refine (foldl_ddr _ _ _ ?_).trans ?_ <;> try intro _ _)
    | (refine (foldl_ddr1 _ _ _ ?_).trans ?_ <;> try intro _ _)

@[simp] theorem Dev.receiveChange_ddr (d : Dev) (slot : Nat) (x : Nat) (f : Frame) : (Dev.receiveChange d slot x f).ddr = d.ddr := by
  unfold Dev.receiveChange
  repeat' first
    | with_reducible rfl
    | simp only [Dev.markSlot_ddr, Dev.setSlotRx_ddr]
    | dsimp only
    | split
    | (refine (foldl_ddr _ _ _ ?_).trans ?_ <;> try intro _ _)
    | (refine (foldl_ddr1 _ _ _ ?_).trans ?_ <;> try intro _ _)

theorem Dev.launchEntry_ddr (d : Dev) (n : Nat) (kind : LKind) (f : Dev → LEntry → Dev)
    (hf : ∀ e a, (f e a).ddr = e.ddr) : (d.launchEntry n kind f).ddr = d.ddr := by
  unfold Dev.launchEntry
  repeat' first
    | with_reducible rfl
    | simp only [Dev.flag_ddr, Dev.setThread_ddr, Dev.spoilThread_ddr, hf]
    | dsimp only
    | split

@[simp] theorem Dev.rangeCheck_ddr (d : Dev) (t : Target) (n : Nat) (i : Nat) : (Dev.rangeCheck d t n i).ddr = d.ddr := by
  unfold Dev.rangeCheck
  repeat' first
    | with_reducible rfl
    | simp only [Dev.flag_ddr, Dev.spoilThread_ddr]
    | dsimp only
    | split
    | (refine (foldl_ddr _ _ _ ?_).trans ?_ <;> try intro _ _)
    | (refine (foldl_ddr1 _ _ _ ?_).trans ?_ <;> try intro _ _)

@[simp] theorem Dev.streamState_ddr (d : Dev) (k : Nat) : (Dev.streamState d k).ddr = d.ddr := by
  unfold Dev.streamState
  repeat' first
    | with_reducible rfl
    | simp only [Dev.wr_ddr]
    | dsimp only
    | split
    | (refine (foldl_ddr _ _ _ ?_).trans ?_ <;> try intro _ _)
    | (refine (foldl_ddr1 _ _ _ ?_).trans ?_ <;> try intro _ _)

@[simp] theorem Dev.streamStates_ddr (d : Dev) (plays : List (Nat × Nat × Nat × Nat)) : (Dev.streamStates d plays).ddr = d.ddr := by
  unfold Dev.streamStates
  repeat' first
    | with_reducible rfl
    | simp only [Dev.streamState_ddr]
    | dsimp only
    | split
    | (refine (foldl_ddr _ _ _ ?_).trans ?_ <;> try intro _ _)
    | (refine (foldl_ddr1 _ _ _ ?_).trans ?_ <;> try intro _ _)

@[simp] theorem Dev.toneCut_ddr (d : Dev) (t : Target) (s : Stroke) : (Dev.toneCut d t s).ddr = d.ddr := by
  unfold Dev.toneCut
  repeat' first
    | with_reducible rfl
    | simp only [Dev.setSlotRx_ddr]
    | dsimp only
    | split
    | (refine (foldl_ddr _ _ _ ?_).trans ?_ <;> try intro _ _)
    | (refine (foldl_ddr1 _ _ _ ?_).trans ?_ <;> try intro _ _)

@[simp] theorem Dev.cutStroke_ddr (d : Dev) (t : Target) : (Dev.cutStroke d t).ddr = d.ddr := by
  unfold Dev.cutStroke
  repeat' first
    | with_reducible rfl
    | simp only [Dev.flag_ddr, Dev.setStroke_ddr, Dev.streamStates_ddr, Dev.toneCut_ddr]
    | dsimp only
    | split
    | (refine (foldl_ddr _ _ _ ?_).trans ?_ <;> try intro _ _)
    | (refine (foldl_ddr1 _ _ _ ?_).trans ?_ <;> try intro _ _)

@[simp] theorem Dev.cutTail_ddr (d : Dev) (s : Option Stroke) (t : Nat) : (Dev.cutTail d s t).ddr = d.ddr := by
  unfold Dev.cutTail
  repeat' first
    | with_reducible rfl
    | simp only [Dev.flag_ddr]
    | dsimp only
    | split
    | (refine (foldl_ddr _ _ _ ?_).trans ?_ <;> try intro _ _)
    | (refine (foldl_ddr1 _ _ _ ?_).trans ?_ <;> try intro _ _)

@[simp] theorem Dev.startStroke_ddr (d : Dev) (t : Target) (n : Nat) (e : LEntry) (isRead : Bool) : (Dev.startStroke d t n e isRead).ddr = d.ddr := by
  unfold Dev.startStroke
  repeat' first
    | with_reducible rfl
    | simp only [Dev.cutStroke_ddr, Dev.cutTail_ddr, Dev.flag_ddr, Dev.rangeCheck_ddr, Dev.setStroke_ddr, Dev.streamStates_ddr]
    | dsimp only
    | split
    | (refine (foldl_ddr _ _ _ ?_).trans ?_ <;> try intro _ _)
    | (refine (foldl_ddr1 _ _ _ ?_).trans ?_ <;> try intro _ _)

@[simp] theorem strokeLaunchOp_ddr (n : Nat) (d : Dev) : (strokeLaunchOp n d).ddr = d.ddr := by
  unfold strokeLaunchOp
  repeat' first
    | with_reducible rfl
    | simp only [Dev.startStroke_ddr]
    | (refine Dev.launchEntry_ddr _ _ _ _ ?_ <;> try intro _ _)
    | dsimp only
    | split
    | (refine (foldl_ddr _ _ _ ?_).trans ?_ <;> try intro _ _)
    | (refine (foldl_ddr1 _ _ _ ?_).trans ?_ <;> try intro _ _)

@[simp] theorem readLaunchOp_ddr (n : Nat) (d : Dev) : (readLaunchOp n d).ddr = d.ddr := by
  unfold readLaunchOp
  repeat' first
    | with_reducible rfl
    | simp only [Dev.modJob_ddr, Dev.receiveChange_ddr, Dev.setSlotRx_ddr, Dev.setThread_ddr, Dev.startStroke_ddr]
    | (refine Dev.launchEntry_ddr _ _ _ _ ?_ <;> try intro _ _)
    | dsimp only
    | split
    | (refine (foldl_ddr _ _ _ ?_).trans ?_ <;> try intro _ _)
    | (refine (foldl_ddr1 _ _ _ ?_).trans ?_ <;> try intro _ _)

@[simp] theorem Dev.setFlux_ddr (d : Dev) (c : Nat) (f : FluxSt) : (Dev.setFlux d c f).ddr = d.ddr := by
  unfold Dev.setFlux
  repeat' first
    | with_reducible rfl
    | dsimp only
    | split
    | (refine (foldl_ddr _ _ _ ?_).trans ?_ <;> try intro _ _)
    | (refine (foldl_ddr1 _ _ _ ?_).trans ?_ <;> try intro _ _)

@[simp] theorem Dev.setIdle_ddr (d : Dev) (c : Nat) (v : Int) : (Dev.setIdle d c v).ddr = d.ddr := by
  unfold Dev.setIdle
  repeat' first
    | with_reducible rfl
    | simp only [Dev.setFlux_ddr]
    | dsimp only
    | split
    | (refine (foldl_ddr _ _ _ ?_).trans ?_ <;> try intro _ _)
    | (refine (foldl_ddr1 _ _ _ ?_).trans ?_ <;> try intro _ _)

@[simp] theorem Dev.setHold_ddr (d : Dev) (c : Nat) (v : Int) : (Dev.setHold d c v).ddr = d.ddr := by
  unfold Dev.setHold
  repeat' first
    | with_reducible rfl
    | simp only [Dev.setIdle_ddr, Dev.wr_ddr]
    | dsimp only
    | split
    | (refine (foldl_ddr _ _ _ ?_).trans ?_ <;> try intro _ _)
    | (refine (foldl_ddr1 _ _ _ ?_).trans ?_ <;> try intro _ _)

@[simp] theorem fluxholdLaunchOp_ddr (n : Nat) (d : Dev) : (fluxholdLaunchOp n d).ddr = d.ddr := by
  unfold fluxholdLaunchOp
  repeat' first
    | with_reducible rfl
    | simp only [Dev.setHold_ddr, Dev.setIdle_ddr]
    | (refine Dev.launchEntry_ddr _ _ _ _ ?_ <;> try intro _ _)
    | dsimp only
    | split
    | (refine (foldl_ddr _ _ _ ?_).trans ?_ <;> try intro _ _)
    | (refine (foldl_ddr1 _ _ _ ?_).trans ?_ <;> try intro _ _)

@[simp] theorem Dev.setFrame_ddr (d : Dev) (i : Nat) (f : Frame) : (Dev.setFrame d i f).ddr = d.ddr := by
  unfold Dev.setFrame
  repeat' first
    | with_reducible rfl
    | dsimp only
    | split
    | (refine (foldl_ddr _ _ _ ?_).trans ?_ <;> try intro _ _)
    | (refine (foldl_ddr1 _ _ _ ?_).trans ?_ <;> try intro _ _)

@[simp] theorem frameLaunchOp_ddr (n : Nat) (d : Dev) : (frameLaunchOp n d).ddr = d.ddr := by
  unfold frameLaunchOp
  refine Dev.launchEntry_ddr _ _ _ _ fun e x => ?_
  extract_lets fk f i old v d2
  have h2 : d2.ddr = e.ddr := Dev.setFrame_ddr ..
  clear_value d2
  split
  · exact h2
  · extract_lets d3
    have h3 : d3.ddr = e.ddr := by
      simp only [d3]
      split
      · exact ite_ddr ((Dev.rangeCheck_ddr ..).trans h2) h2
      · exact h2
    clear_value d3
    split
    · exact ite_ddr ((Dev.receiveChange_ddr ..).trans h3) h3
    · exact h3

@[simp] theorem markLaunchOp_ddr (n : Nat) (d : Dev) : (markLaunchOp n d).ddr = d.ddr := by
  unfold markLaunchOp
  repeat' first
    | with_reducible rfl
    | simp only [Dev.addMark_ddr, Dev.flag_ddr, Dev.setMarker_ddr, Dev.spoilThread_ddr]
    | (refine Dev.launchEntry_ddr _ _ _ _ ?_ <;> try intro _ _)
    | dsimp only
    | split
    | (refine (foldl_ddr _ _ _ ?_).trans ?_ <;> try intro _ _)
    | (refine (foldl_ddr1 _ _ _ ?_).trans ?_ <;> try intro _ _)

@[simp] theorem Dev.markerEdge_ddr (d : Dev) (m : Nat) (step : Nat) (level : Bool) : (Dev.markerEdge d m step level).ddr = d.ddr := by
  unfold Dev.markerEdge
  repeat' first
    | with_reducible rfl
    | simp only [Dev.setMarker_ddr, Dev.wr_ddr]
    | dsimp only
    | split
    | (refine (foldl_ddr _ _ _ ?_).trans ?_ <;> try intro _ _)
    | (refine (foldl_ddr1 _ _ _ ?_).trans ?_ <;> try intro _ _)

@[simp] theorem Dev.movedEdges_ddr (d : Dev) (m : Nat) (last : Nat) : (Dev.movedEdges d m last).ddr = d.ddr := by
  unfold Dev.movedEdges
  repeat' first
    | with_reducible rfl
    | simp only [Dev.markerEdge_ddr, Dev.setMarker_ddr]
    | dsimp only
    | split
    | (refine (foldl_ddr _ _ _ ?_).trans ?_ <;> try intro _ _)
    | (refine (foldl_ddr1 _ _ _ ?_).trans ?_ <;> try intro _ _)

@[simp] theorem markerEdgeOp_ddr (m : Nat) (d0 : Dev) : (markerEdgeOp m d0).ddr = d0.ddr := by
  unfold markerEdgeOp
  repeat' first
    | with_reducible rfl
    | simp only [Dev.flagN_ddr, Dev.flag_ddr, Dev.markerEdge_ddr, Dev.movedEdges_ddr, Dev.setMarker_ddr]
    | dsimp only
    | split
    | (refine (foldl_ddr _ _ _ ?_).trans ?_ <;> try intro _ _)
    | (refine (foldl_ddr1 _ _ _ ?_).trans ?_ <;> try intro _ _)

@[simp] theorem markerIdleReturnOp_ddr (m : Nat) (d0 : Dev) : (markerIdleReturnOp m d0).ddr = d0.ddr := by
  unfold markerIdleReturnOp
  repeat' first
    | with_reducible rfl
    | simp only [Dev.markerEdge_ddr, Dev.movedEdges_ddr, Dev.setMarker_ddr]
    | dsimp only
    | split
    | (refine (foldl_ddr _ _ _ ?_).trans ?_ <;> try intro _ _)
    | (refine (foldl_ddr1 _ _ _ ?_).trans ?_ <;> try intro _ _)

@[simp] theorem eventLaunchOp_ddr (n : Nat) (d : Dev) : (eventLaunchOp n d).ddr = d.ddr := by
  unfold eventLaunchOp
  repeat' first
    | with_reducible rfl
    | simp only [Dev.produce_ddr]
    | (refine Dev.launchEntry_ddr _ _ _ _ ?_ <;> try intro _ _)
    | dsimp only
    | split
    | (refine (foldl_ddr _ _ _ ?_).trans ?_ <;> try intro _ _)
    | (refine (foldl_ddr1 _ _ _ ?_).trans ?_ <;> try intro _ _)

@[simp] theorem Dev.setAcq_ddr (d : Dev) (c : Nat) (a : AcqSt) : (Dev.setAcq d c a).ddr = d.ddr := by
  unfold Dev.setAcq
  repeat' first
    | with_reducible rfl
    | dsimp only
    | split
    | (refine (foldl_ddr _ _ _ ?_).trans ?_ <;> try intro _ _)
    | (refine (foldl_ddr1 _ _ _ ?_).trans ?_ <;> try intro _ _)

@[simp] theorem Dev.addCond_ddr (d : Dev) (c : Nat) (bit : Nat) (tick : Nat) : (Dev.addCond d c bit tick).ddr = d.ddr := by
  unfold Dev.addCond
  repeat' first
    | with_reducible rfl
    | simp only [Dev.setAcq_ddr]
    | dsimp only
    | split
    | (refine (foldl_ddr _ _ _ ?_).trans ?_ <;> try intro _ _)
    | (refine (foldl_ddr1 _ _ _ ?_).trans ?_ <;> try intro _ _)

@[simp] theorem acqtrigLaunchOp_ddr (n : Nat) (d : Dev) : (acqtrigLaunchOp n d).ddr = d.ddr := by
  unfold acqtrigLaunchOp
  repeat' first
    | with_reducible rfl
    | simp only [Dev.addCond_ddr]
    | (refine Dev.launchEntry_ddr _ _ _ _ ?_ <;> try intro _ _)
    | dsimp only
    | split
    | (refine (foldl_ddr _ _ _ ?_).trans ?_ <;> try intro _ _)
    | (refine (foldl_ddr1 _ _ _ ?_).trans ?_ <;> try intro _ _)

@[simp] theorem segjumpLaunchOp_ddr (n : Nat) (d : Dev) : (segjumpLaunchOp n d).ddr = d.ddr := by
  unfold segjumpLaunchOp
  repeat' first
    | with_reducible rfl
    | simp only [Dev.flag_ddr, Dev.setStroke_ddr]
    | (refine Dev.launchEntry_ddr _ _ _ _ ?_ <;> try intro _ _)
    | dsimp only
    | split
    | (refine (foldl_ddr _ _ _ ?_).trans ?_ <;> try intro _ _)
    | (refine (foldl_ddr1 _ _ _ ?_).trans ?_ <;> try intro _ _)

@[simp] theorem jumpEffectOp_ddr (t : Target) (d : Dev) : (jumpEffectOp t d).ddr = d.ddr := by
  unfold jumpEffectOp
  repeat' first
    | with_reducible rfl
    | simp only [Dev.flag_ddr, Dev.setStroke_ddr, Dev.streamStates_ddr]
    | dsimp only
    | split
    | (refine (foldl_ddr _ _ _ ?_).trans ?_ <;> try intro _ _)
    | (refine (foldl_ddr1 _ _ _ ?_).trans ?_ <;> try intro _ _)

@[simp] theorem strokeEndOp_ddr (t : Target) (d : Dev) : (strokeEndOp t d).ddr = d.ddr := by
  unfold strokeEndOp
  repeat' first
    | with_reducible rfl
    | simp only [Dev.setStroke_ddr, Dev.streamStates_ddr]
    | dsimp only
    | split
    | (refine (foldl_ddr _ _ _ ?_).trans ?_ <;> try intro _ _)
    | (refine (foldl_ddr1 _ _ _ ?_).trans ?_ <;> try intro _ _)

@[simp] theorem Dev.setStream_ddr (d : Dev) (s : Nat) (v : StreamSt) : (Dev.setStream d s v).ddr = d.ddr := by
  unfold Dev.setStream
  repeat' first
    | with_reducible rfl
    | simp only [Dev.wr_ddr]
    | dsimp only
    | split
    | (refine (foldl_ddr _ _ _ ?_).trans ?_ <;> try intro _ _)
    | (refine (foldl_ddr1 _ _ _ ?_).trans ?_ <;> try intro _ _)

@[simp] theorem streamRefillOp_ddr (k : Nat) (bytes : Nat) (d : Dev) : (streamRefillOp k bytes d).ddr = d.ddr := by
  unfold streamRefillOp
  repeat' first
    | with_reducible rfl
    | simp only [Dev.setStream_ddr]
    | dsimp only
    | split
    | (refine (foldl_ddr _ _ _ ?_).trans ?_ <;> try intro _ _)
    | (refine (foldl_ddr1 _ _ _ ?_).trans ?_ <;> try intro _ _)

@[simp] theorem underrunOp_ddr (t : Target) (d : Dev) : (underrunOp t d).ddr = d.ddr := by
  unfold underrunOp
  repeat' first
    | with_reducible rfl
    | simp only [Dev.flag_ddr, Dev.setStroke_ddr, Dev.spoilThread_ddr, Dev.streamState_ddr]
    | dsimp only
    | split
    | (refine (foldl_ddr _ _ _ ?_).trans ?_ <;> try intro _ _)
    | (refine (foldl_ddr1 _ _ _ ?_).trans ?_ <;> try intro _ _)

@[simp] theorem streamEndOp_ddr (t : Target) (d : Dev) : (streamEndOp t d).ddr = d.ddr := by
  unfold streamEndOp
  repeat' first
    | with_reducible rfl
    | simp only [Dev.flag_ddr, Dev.setStroke_ddr]
    | dsimp only
    | split
    | (refine (foldl_ddr _ _ _ ?_).trans ?_ <;> try intro _ _)
    | (refine (foldl_ddr1 _ _ _ ?_).trans ?_ <;> try intro _ _)

@[simp] theorem fluxRangeSwitchEndOp_ddr (c : Nat) (d : Dev) : (fluxRangeSwitchEndOp c d).ddr = d.ddr := by
  unfold fluxRangeSwitchEndOp
  repeat' first
    | with_reducible rfl
    | simp only [Dev.setFlux_ddr]
    | dsimp only
    | split
    | (refine (foldl_ddr _ _ _ ?_).trans ?_ <;> try intro _ _)
    | (refine (foldl_ddr1 _ _ _ ?_).trans ?_ <;> try intro _ _)

@[simp] theorem Dev.modWin_ddr (d : Dev) (slot : Nat) (p : Win → Bool) (f : Win → Win) : (Dev.modWin d slot p f).ddr = d.ddr := by
  unfold Dev.modWin
  repeat' first
    | with_reducible rfl
    | simp only [Dev.setSlotRx_ddr]
    | dsimp only
    | split
    | (refine (foldl_ddr _ _ _ ?_).trans ?_ <;> try intro _ _)
    | (refine (foldl_ddr1 _ _ _ ?_).trans ?_ <;> try intro _ _)

@[simp] theorem windowOpenOp_ddr (slot : Nat) (d : Dev) : (windowOpenOp slot d).ddr = d.ddr := by
  unfold windowOpenOp
  repeat' first
    | with_reducible rfl
    | simp only [Dev.addCond_ddr, Dev.flag_ddr, Dev.modWin_ddr, Dev.spoil_ddr]
    | dsimp only
    | split
    | (refine (foldl_ddr _ _ _ ?_).trans ?_ <;> try intro _ _)
    | (refine (foldl_ddr1 _ _ _ ?_).trans ?_ <;> try intro _ _)

@[simp] theorem Dev.chainSat_ddr (d : Dev) (slot : Nat) (bit : Nat) (n : Nat) : (Dev.chainSat d slot bit n).ddr = d.ddr := by
  unfold Dev.chainSat
  repeat' first
    | with_reducible rfl
    | simp only [Dev.flagN_ddr]
    | dsimp only
    | split
    | (refine (foldl_ddr _ _ _ ?_).trans ?_ <;> try intro _ _)
    | (refine (foldl_ddr1 _ _ _ ?_).trans ?_ <;> try intro _ _)

@[simp] theorem Dev.mixTick_ddr (d : Dev) (slot : Nat) : (Dev.mixTick d slot).ddr = d.ddr := by
  unfold Dev.mixTick
  repeat' first
    | with_reducible rfl
    | simp only [Dev.chainSat_ddr, Dev.setSlotRx_ddr]
    | dsimp only
    | split
    | (refine (foldl_ddr _ _ _ ?_).trans ?_ <;> try intro _ _)
    | (refine (foldl_ddr1 _ _ _ ?_).trans ?_ <;> try intro _ _)

@[simp] theorem Dev.chainStep_ddr (d : Dev) (slot : Nat) (j : Nat) : (Dev.chainStep d slot j).ddr = d.ddr := by
  unfold Dev.chainStep
  repeat' first
    | with_reducible rfl
    | simp only [Dev.chainSat_ddr, Dev.setSlotRx_ddr]
    | dsimp only
    | split
    | (refine (foldl_ddr _ _ _ ?_).trans ?_ <;> try intro _ _)
    | (refine (foldl_ddr1 _ _ _ ?_).trans ?_ <;> try intro _ _)

@[simp] theorem Dev.chainTick_ddr (d : Dev) : (Dev.chainTick d).ddr = d.ddr := by
  unfold Dev.chainTick
  repeat' first
    | with_reducible rfl
    | simp only [Dev.chainStep_ddr, Dev.mixTick_ddr]
    | dsimp only
    | split
    | (refine (foldl_ddr _ _ _ ?_).trans ?_ <;> try intro _ _)
    | (refine (foldl_ddr1 _ _ _ ?_).trans ?_ <;> try intro _ _)

@[simp] theorem Dev.setCore_ddr (d : Dev) (c : Nat) (k : DspCore) : (Dev.setCore d c k).ddr = d.ddr := by
  unfold Dev.setCore
  repeat' first
    | with_reducible rfl
    | dsimp only
    | split
    | (refine (foldl_ddr _ _ _ ?_).trans ?_ <;> try intro _ _)
    | (refine (foldl_ddr1 _ _ _ ?_).trans ?_ <;> try intro _ _)

/-- A feed write leaves the bytes of DDR4. -/
theorem Dev.feed_ddr {d : Dev} {c slot : Nat} {y : Int × Int} {x : Dev × Nat} (h : d.feed c slot y = some x) : x.1.ddr = d.ddr := by
  unfold Dev.feed at h
  obtain ⟨-, h⟩ := Option.ite_none_right_eq_some.mp h
  obtain ⟨-, h⟩ := Option.ite_none_left_eq_some.mp h
  rw [← Option.some.inj h]
  rfl

@[simp] theorem Dev.takeFir_ddr (d : Dev) (slot : Nat) (y : Nat × Int × Int) : (Dev.takeFir d slot y).ddr = d.ddr := by
  unfold Dev.takeFir
  lift_lets
  extract_lets r f q d1
  split
  · refine (Dev.setSlotRx_ddr ..).trans ?_
    have hf : ∀ x, f = some x → x.1.ddr = d.ddr := by
      intro x hx
      obtain ⟨c, -, hc⟩ := Option.bind_eq_some_iff.mp hx
      exact Dev.feed_ddr hc
    simp only [d1]
    clear_value f
    cases f
    · rfl
    · exact hf _ rfl
  · rfl

@[simp] theorem Dev.integrateTick_ddr (d : Dev) : (Dev.integrateTick d).ddr = d.ddr := by
  unfold Dev.integrateTick
  repeat' first
    | with_reducible rfl
    | simp only [Dev.takeFir_ddr]
    | dsimp only
    | split
    | (refine (foldl_ddr _ _ _ ?_).trans ?_ <;> try intro _ _)
    | (refine (foldl_ddr1 _ _ _ ?_).trans ?_ <;> try intro _ _)

@[simp] theorem windowDumpOp_ddr (slot : Nat) (d : Dev) : (windowDumpOp slot d).ddr = d.ddr := by
  unfold windowDumpOp
  extract_lets ready
  split
  · rfl
  · refine (Dev.modWin_ddr ..).trans (ite_ddr ((Dev.flag_ddr ..).trans ?_) ?_) <;> exact ite_ddr rfl (Dev.flagN_ddr ..)

@[simp] theorem Dev.useWay_ddr (d : Dev) (way : Nat) (cap : Nat) (t : Nat) : (Dev.useWay d way cap t).1.ddr = d.ddr := by
  unfold Dev.useWay
  repeat' first
    | with_reducible rfl
    | dsimp only
    | split
    | (refine (foldl_ddr _ _ _ ?_).trans ?_ <;> try intro _ _)
    | (refine (foldl_ddr1 _ _ _ ?_).trans ?_ <;> try intro _ _)

@[simp] theorem Dev.fromHub_ddr (d : Dev) (tile : Nat) (t : Nat) : (Dev.fromHub d tile t).1.ddr = d.ddr := by
  unfold Dev.fromHub
  repeat' first
    | with_reducible rfl
    | simp only [Dev.useWay_ddr]
    | dsimp only
    | split
    | (refine (foldl_ddr _ _ _ ?_).trans ?_ <;> try intro _ _)
    | (refine (foldl_ddr1 _ _ _ ?_).trans ?_ <;> try intro _ _)

@[simp] theorem Dev.fromHubTo_ddr (d : Dev) (tiles : List Nat) (t : Nat) : (Dev.fromHubTo d tiles t).1.ddr = d.ddr := by
  unfold Dev.fromHubTo
  generalize ([] : Tab Nat) = r
  induction tiles generalizing d r with
  | nil => rfl
  | cons k l ih => rw [List.foldl_cons, ih]; rfl

@[simp] theorem Dev.carryWord_ddr (d : Dev) (tile : Nat) (others : List Nat) (exported : Bool) :
    (Dev.carryWord d tile others exported).1.ddr = d.ddr := by
  unfold Dev.carryWord
  dsimp only
  split
  · rfl
  · simp only [Dev.fromHubTo_ddr, Dev.useWay_ddr]

@[simp] theorem Dev.busSend_ddr (d : Dev) (hs : List (Nat × Nat)) (word : W64) (due : Nat → Nat) : (Dev.busSend d hs word due).ddr = d.ddr := by
  unfold Dev.busSend
  repeat' first
    | with_reducible rfl
    | dsimp only
    | split
    | (refine (foldl_ddr _ _ _ ?_).trans ?_ <;> try intro _ _)
    | (refine (foldl_ddr1 _ _ _ ?_).trans ?_ <;> try intro _ _)

@[simp] theorem Dev.exportWord_ddr (d : Dev) (chips : List Nat) (not_ : Option Nat) (word : W64) (t : Nat) : (Dev.exportWord d chips not_ word t).ddr = d.ddr := by
  unfold Dev.exportWord
  repeat' first
    | with_reducible rfl
    | simp only [Dev.setLink_ddr]
    | dsimp only
    | split
    | (refine (foldl_ddr _ _ _ ?_).trans ?_ <;> try intro _ _)
    | (refine (foldl_ddr1 _ _ _ ?_).trans ?_ <;> try intro _ _)

@[simp] theorem decisionProduceOp_ddr (slot : Nat) (d : Dev) : (decisionProduceOp slot d).ddr = d.ddr := by
  unfold decisionProduceOp
  repeat' first
    | with_reducible rfl
    | simp only [Dev.busSend_ddr, Dev.carryWord_ddr, Dev.exportWord_ddr, Dev.modJob_ddr, Dev.modWin_ddr, Dev.setSlotRx_ddr, Dev.trace_ddr, Dev.wr_ddr]
    | dsimp only
    | split
    | (refine (foldl_ddr _ _ _ ?_).trans ?_ <;> try intro _ _)
    | (refine (foldl_ddr1 _ _ _ ?_).trans ?_ <;> try intro _ _)

@[simp] theorem Dev.fillHandle_ddr (d : Dev) (n : Nat) (h : Nat) (word : W64) : (Dev.fillHandle d n h word).ddr = d.ddr := by
  unfold Dev.fillHandle
  repeat' first
    | with_reducible rfl
    | simp only [Dev.flag_ddr, Dev.setThread_ddr]
    | dsimp only
    | split
    | (refine (foldl_ddr _ _ _ ?_).trans ?_ <;> try intro _ _)
    | (refine (foldl_ddr1 _ _ _ ?_).trans ?_ <;> try intro _ _)

@[simp] theorem decisionArrivalOp_ddr (n : Nat) (h : Nat) (d : Dev) : (decisionArrivalOp n h d).ddr = d.ddr := by
  unfold decisionArrivalOp
  repeat' first
    | with_reducible rfl
    | simp only [Dev.fillHandle_ddr]
    | dsimp only
    | split
    | (refine (foldl_ddr _ _ _ ?_).trans ?_ <;> try intro _ _)
    | (refine (foldl_ddr1 _ _ _ ?_).trans ?_ <;> try intro _ _)

@[simp] theorem Dev.raiseHeld_ddr (d : Dev) (n : Nat) (fs : List (Nat × Nat × Nat)) : (Dev.raiseHeld d n fs).ddr = d.ddr := by
  unfold Dev.raiseHeld
  repeat' first
    | with_reducible rfl
    | simp only [Dev.flagN_ddr, Dev.setThread_ddr, Dev.spoilThread_ddr, Dev.wr_ddr]
    | dsimp only
    | split
    | (refine (foldl_ddr _ _ _ ?_).trans ?_ <;> try intro _ _)
    | (refine (foldl_ddr1 _ _ _ ?_).trans ?_ <;> try intro _ _)

@[simp] theorem Dev.skLate_ddr (d : Dev) (x : CtxRef) (c : Ctx) : (Dev.skLate d x c).1.ddr = d.ddr := by
  unfold Dev.skLate
  repeat' first
    | with_reducible rfl
    | simp only [Dev.flag_ddr, Dev.spoilThread_ddr]
    | dsimp only
    | split
    | (refine (foldl_ddr _ _ _ ?_).trans ?_ <;> try intro _ _)
    | (refine (foldl_ddr1 _ _ _ ?_).trans ?_ <;> try intro _ _)

@[simp] theorem Dev.commitWait_ddr (d : Dev) (x : CtxRef) (c : Ctx) (h : Nat) (r : DReg) : (Dev.commitWait d x c h r).ddr = d.ddr := by
  unfold Dev.commitWait
  repeat' first
    | with_reducible rfl
    | simp only [Dev.commitMargin_ddr, Dev.consume_ddr, Dev.setCtx_ddr, Dev.skLate_ddr]
    | (refine Dev.service_ddr _ _ _ _ ?_ <;> try intro _ _)
    | dsimp only
    | split
    | (refine (foldl_ddr _ _ _ ?_).trans ?_ <;> try intro _ _)
    | (refine (foldl_ddr1 _ _ _ ?_).trans ?_ <;> try intro _ _)

@[simp] theorem Dev.squashMarks_ddr (d : Dev) (n : Nat) (ids : List Nat) : (Dev.squashMarks d n ids).ddr = d.ddr := by
  unfold Dev.squashMarks
  repeat' first
    | with_reducible rfl
    | simp only [Dev.pathMarks_ddr]
    | dsimp only
    | split
    | (refine (foldl_ddr _ _ _ ?_).trans ?_ <;> try intro _ _)
    | (refine (foldl_ddr1 _ _ _ ?_).trans ?_ <;> try intro _ _)

@[simp] theorem Dev.mergePath_ddr (d : Dev) (n : Nat) (p : SPath) (h : Nat) : (Dev.mergePath d n p h).ddr = d.ddr := by
  unfold Dev.mergePath
  repeat' first
    | with_reducible rfl
    | simp only [Dev.endCanvas_ddr, Dev.pathMarks_ddr, Dev.raiseHeld_ddr, Dev.releaseBarrier_ddr, Dev.setCtx_ddr, Dev.setThread_ddr, Dev.spoilThread_ddr]
    | dsimp only
    | split
    | (refine (foldl_ddr _ _ _ ?_).trans ?_ <;> try intro _ _)
    | (refine (foldl_ddr1 _ _ _ ?_).trans ?_ <;> try intro _ _)

@[simp] theorem Dev.commitBranch_ddr (d : Dev) (n : Nat) (b : SBranch) (r : DReg) : (Dev.commitBranch d n b r).ddr = d.ddr := by
  unfold Dev.commitBranch
  repeat' first
    | with_reducible rfl
    | simp only [Dev.commitMargin_ddr, Dev.consume_ddr, Dev.mergePath_ddr, Dev.setCtx_ddr, Dev.setThread_ddr, Dev.skLate_ddr, Dev.squashMarks_ddr]
    | dsimp only
    | split
    | (refine (foldl_ddr _ _ _ ?_).trans ?_ <;> try intro _ _)
    | (refine (foldl_ddr1 _ _ _ ?_).trans ?_ <;> try intro _ _)

@[simp] theorem decisionCommitOp_ddr (n : Nat) (h : Nat) (d : Dev) : (decisionCommitOp n h d).ddr = d.ddr := by
  unfold decisionCommitOp
  repeat' first
    | with_reducible rfl
    | simp only [Dev.commitBranch_ddr, Dev.commitWait_ddr, Dev.pagesPeak_ddr]
    | dsimp only
    | split
    | (refine (foldl_ddr _ _ _ ?_).trans ?_ <;> try intro _ _)
    | (refine (foldl_ddr1 _ _ _ ?_).trans ?_ <;> try intro _ _)

@[simp] theorem decisionBlockSendOp_ddr (k : Nat) (d : Dev) : (decisionBlockSendOp k d).ddr = d.ddr := by
  unfold decisionBlockSendOp
  repeat' first
    | with_reducible rfl
    | simp only [Dev.flagN_ddr, Dev.sendCell_ddr, Dev.setLink_ddr]
    | dsimp only
    | split
    | (refine (foldl_ddr _ _ _ ?_).trans ?_ <;> try intro _ _)
    | (refine (foldl_ddr1 _ _ _ ?_).trans ?_ <;> try intro _ _)

@[simp] theorem Dev.receiveWord_ddr (d : Dev) (word : W64) : (Dev.receiveWord d word).ddr = d.ddr := by
  unfold Dev.receiveWord
  repeat' first
    | with_reducible rfl
    | simp only [Dev.busSend_ddr, Dev.fromHubTo_ddr, Dev.flag_ddr]
    | dsimp only
    | split
    | (refine (foldl_ddr _ _ _ ?_).trans ?_ <;> try intro _ _)
    | (refine (foldl_ddr1 _ _ _ ?_).trans ?_ <;> try intro _ _)

@[simp] theorem Dev.takeBlock_ddr (d : Dev) (link : Nat) (dest : W64) (w0 : W64) (w1 : W64) : (Dev.takeBlock d link dest w0 w1).ddr = d.ddr := by
  unfold Dev.takeBlock
  repeat' first
    | with_reducible rfl
    | simp only [Dev.exportWord_ddr, Dev.flagN_ddr, Dev.receiveWord_ddr]
    | dsimp only
    | split
    | (refine (foldl_ddr _ _ _ ?_).trans ?_ <;> try intro _ _)
    | (refine (foldl_ddr1 _ _ _ ?_).trans ?_ <;> try intro _ _)

end Sys2Proof.Machine
end

