-- ==== Sys2Proof/Laws/MemD.lean ====
section
/-! SUPPORT. What each operation does to the bytes of DDR4 (DSP cores and acquisition): most leave them, the few that store keep
their canonical form. One lemma per operation, cited by the laws of the step. -/

set_option linter.all false
set_option linter.unreachableTactic false
set_option linter.unusedTactic false

namespace Sys2Proof.Machine

@[simp] theorem Dev.coreObjects_ddr (d : Dev) (c : Nat) : (Dev.coreObjects d c).ddr = d.ddr := by
  unfold Dev.coreObjects
  repeat' first
    | with_reducible rfl
    | simp only [Dev.wrs_ddr]
    | dsimp only
    | split
    | (refine (foldl_ddr _ _ _ ?_).trans ?_ <;> try intro _ _)
    | (refine (foldl_ddr1 _ _ _ ?_).trans ?_ <;> try intro _ _)

@[simp] theorem Dev.dspFault_ddr (d : Dev) (c : Nat) : (Dev.dspFault d c).ddr = d.ddr := by
  unfold Dev.dspFault
  repeat' first
    | with_reducible rfl
    | simp only [Dev.flag_ddr, Dev.spoil_ddr, Dev.wr_ddr]
    | dsimp only
    | split
    | (refine (foldl_ddr _ _ _ ?_).trans ?_ <;> try intro _ _)
    | (refine (foldl_ddr1 _ _ _ ?_).trans ?_ <;> try intro _ _)

/-- What an operation of a DSP instruction answers keeps the bytes of DDR4. -/
def OptFrame (e : Dev) (o : Option (Dev × DspCore)) : Prop := ∀ r ∈ o, r.1.ddr = e.ddr

theorem OptFrame.none (e : Dev) : OptFrame e Option.none := fun r h => by cases h

theorem OptFrame.some {e : Dev} {x : Dev × DspCore} (h : x.1.ddr = e.ddr) : OptFrame e (Option.some x) := by
  intro r hr; cases hr; exact h

theorem OptFrame.map {e : Dev} {α : Type} {o : Option α} {f : α → Dev × DspCore} (h : ∀ a, (f a).1.ddr = e.ddr) :
    OptFrame e (o.map f) := by
  cases o
  · exact OptFrame.none e
  · exact OptFrame.some (h _)

theorem Dev.dspRun_ddr (d : Dev) (c opc : Nat) (w : DWord) (f : Dev → DspCore → Option (Dev × DspCore))
    (hf : ∀ e k, OptFrame e (f e k)) : (d.dspRun c opc w f).ddr = d.ddr := by
  unfold Dev.dspRun
  split
  · split
    · rfl
    · split
      · exact Dev.dspFault_ddr ..
      · rename_i r hr
        rw [Dev.coreObjects_ddr, Dev.setCore_ddr]
        exact hf _ _ r hr
  · rfl

@[simp] theorem Dev.dspPure_ddr (d : Dev) (c : Nat) (opc : Nat) (w : DWord) (f : DspCore → DspCore) : (Dev.dspPure d c opc w f).ddr = d.ddr := by
  unfold Dev.dspPure
  repeat' first
    | (refine Dev.dspRun_ddr _ _ _ _ _ ?_ <;> try intro _ _)
    | exact OptFrame.none _
    | exact Dev.toAcc_frame _ _ _ _ _
    | exact Dev.storeSat_frame _ _ _ _
    | exact Dev.flagN_ddr ..
    | exact Dev.flag_ddr ..
    | (refine OptFrame.some ?_)
    | (refine OptFrame.map ?_ <;> try intro _)
    | with_reducible rfl
    | dsimp only
    | split
    | (refine (foldl_ddr _ _ _ ?_).trans ?_ <;> try intro _ _)
    | (refine (foldl_ddr1 _ _ _ ?_).trans ?_ <;> try intro _ _)

theorem Dev.toAcc_frame (e : Dev) (c i : Nat) (v : Int × Int) (k : DspCore) : OptFrame e (e.toAcc c i v k) := by
  unfold Dev.toAcc
  dsimp only
  split
  · exact OptFrame.some rfl
  · exact OptFrame.some (Dev.flagN_ddr ..)

theorem Dev.storeSat_frame (e : Dev) (c n : Nat) (k : DspCore) : OptFrame e (e.storeSat c n k) := by
  unfold Dev.storeSat
  split
  · exact OptFrame.some rfl
  · exact OptFrame.some (Dev.flagN_ddr ..)

@[simp] theorem cmacOp_ddr (c : Nat) (w : DWord) (d : Dev) : (cmacOp c w d).ddr = d.ddr := by
  unfold cmacOp
  repeat' first
    | (refine Dev.dspRun_ddr _ _ _ _ _ ?_ <;> try intro _ _)
    | exact OptFrame.none _
    | exact Dev.toAcc_frame _ _ _ _ _
    | exact Dev.storeSat_frame _ _ _ _
    | exact Dev.flagN_ddr ..
    | exact Dev.flag_ddr ..
    | (refine OptFrame.some ?_)
    | (refine OptFrame.map ?_ <;> try intro _)
    | with_reducible rfl
    | dsimp only
    | split
    | (refine (foldl_ddr _ _ _ ?_).trans ?_ <;> try intro _ _)
    | (refine (foldl_ddr1 _ _ _ ?_).trans ?_ <;> try intro _ _)

@[simp] theorem cmacjOp_ddr (c : Nat) (w : DWord) (d : Dev) : (cmacjOp c w d).ddr = d.ddr := by
  unfold cmacjOp
  repeat' first
    | (refine Dev.dspRun_ddr _ _ _ _ _ ?_ <;> try intro _ _)
    | exact OptFrame.none _
    | exact Dev.toAcc_frame _ _ _ _ _
    | exact Dev.storeSat_frame _ _ _ _
    | exact Dev.flagN_ddr ..
    | exact Dev.flag_ddr ..
    | (refine OptFrame.some ?_)
    | (refine OptFrame.map ?_ <;> try intro _)
    | with_reducible rfl
    | dsimp only
    | split
    | (refine (foldl_ddr _ _ _ ?_).trans ?_ <;> try intro _ _)
    | (refine (foldl_ddr1 _ _ _ ?_).trans ?_ <;> try intro _ _)

@[simp] theorem cmsbOp_ddr (c : Nat) (w : DWord) (d : Dev) : (cmsbOp c w d).ddr = d.ddr := by
  unfold cmsbOp
  repeat' first
    | (refine Dev.dspRun_ddr _ _ _ _ _ ?_ <;> try intro _ _)
    | exact OptFrame.none _
    | exact Dev.toAcc_frame _ _ _ _ _
    | exact Dev.storeSat_frame _ _ _ _
    | exact Dev.flagN_ddr ..
    | exact Dev.flag_ddr ..
    | (refine OptFrame.some ?_)
    | (refine OptFrame.map ?_ <;> try intro _)
    | with_reducible rfl
    | dsimp only
    | split
    | (refine (foldl_ddr _ _ _ ?_).trans ?_ <;> try intro _ _)
    | (refine (foldl_ddr1 _ _ _ ?_).trans ?_ <;> try intro _ _)

@[simp] theorem cmulOp_ddr (c : Nat) (w : DWord) (d : Dev) : (cmulOp c w d).ddr = d.ddr := by
  unfold cmulOp
  repeat' first
    | (refine Dev.dspRun_ddr _ _ _ _ _ ?_ <;> try intro _ _)
    | exact OptFrame.none _
    | exact Dev.toAcc_frame _ _ _ _ _
    | exact Dev.storeSat_frame _ _ _ _
    | exact Dev.flagN_ddr ..
    | exact Dev.flag_ddr ..
    | (refine OptFrame.some ?_)
    | (refine OptFrame.map ?_ <;> try intro _)
    | with_reducible rfl
    | dsimp only
    | split
    | (refine (foldl_ddr _ _ _ ?_).trans ?_ <;> try intro _ _)
    | (refine (foldl_ddr1 _ _ _ ?_).trans ?_ <;> try intro _ _)

@[simp] theorem aclrOp_ddr (c : Nat) (w : DWord) (d : Dev) : (aclrOp c w d).ddr = d.ddr := by
  unfold aclrOp
  repeat' first
    | with_reducible rfl
    | simp only [Dev.dspPure_ddr]
    | dsimp only
    | split
    | (refine (foldl_ddr _ _ _ ?_).trans ?_ <;> try intro _ _)
    | (refine (foldl_ddr1 _ _ _ ?_).trans ?_ <;> try intro _ _)

@[simp] theorem staOp_ddr (c : Nat) (w : DWord) (d : Dev) : (staOp c w d).ddr = d.ddr := by
  unfold staOp
  repeat' first
    | (refine Dev.dspRun_ddr _ _ _ _ _ ?_ <;> try intro _ _)
    | exact OptFrame.none _
    | exact Dev.toAcc_frame _ _ _ _ _
    | exact Dev.storeSat_frame _ _ _ _
    | exact Dev.flagN_ddr ..
    | exact Dev.flag_ddr ..
    | (refine OptFrame.some ?_)
    | (refine OptFrame.map ?_ <;> try intro _)
    | with_reducible rfl
    | dsimp only
    | split
    | (refine (foldl_ddr _ _ _ ?_).trans ?_ <;> try intro _ _)
    | (refine (foldl_ddr1 _ _ _ ?_).trans ?_ <;> try intro _ _)

@[simp] theorem stagOp_ddr (c : Nat) (w : DWord) (d : Dev) : (stagOp c w d).ddr = d.ddr := by
  unfold stagOp
  repeat' first
    | (refine Dev.dspRun_ddr _ _ _ _ _ ?_ <;> try intro _ _)
    | exact OptFrame.none _
    | exact Dev.toAcc_frame _ _ _ _ _
    | exact Dev.storeSat_frame _ _ _ _
    | exact Dev.flagN_ddr ..
    | exact Dev.flag_ddr ..
    | (refine OptFrame.some ?_)
    | (refine OptFrame.map ?_ <;> try intro _)
    | with_reducible rfl
    | dsimp only
    | split
    | (refine (foldl_ddr _ _ _ ?_).trans ?_ <;> try intro _ _)
    | (refine (foldl_ddr1 _ _ _ ?_).trans ?_ <;> try intro _ _)

@[simp] theorem maxiOp_ddr (c : Nat) (w : DWord) (d : Dev) : (maxiOp c w d).ddr = d.ddr := by
  unfold maxiOp
  repeat' first
    | with_reducible rfl
    | simp only [Dev.dspPure_ddr]
    | dsimp only
    | split
    | (refine (foldl_ddr _ _ _ ?_).trans ?_ <;> try intro _ _)
    | (refine (foldl_ddr1 _ _ _ ?_).trans ?_ <;> try intro _ _)

@[simp] theorem miniOp_ddr (c : Nat) (w : DWord) (d : Dev) : (miniOp c w d).ddr = d.ddr := by
  unfold miniOp
  repeat' first
    | with_reducible rfl
    | simp only [Dev.dspPure_ddr]
    | dsimp only
    | split
    | (refine (foldl_ddr _ _ _ ?_).trans ?_ <;> try intro _ _)
    | (refine (foldl_ddr1 _ _ _ ?_).trans ?_ <;> try intro _ _)

@[simp] theorem srstOp_ddr (c : Nat) (w : DWord) (d : Dev) : (srstOp c w d).ddr = d.ddr := by
  unfold srstOp
  repeat' first
    | with_reducible rfl
    | simp only [Dev.dspPure_ddr]
    | dsimp only
    | split
    | (refine (foldl_ddr _ _ _ ?_).trans ?_ <;> try intro _ _)
    | (refine (foldl_ddr1 _ _ _ ?_).trans ?_ <;> try intro _ _)

@[simp] theorem srdOp_ddr (c : Nat) (w : DWord) (d : Dev) : (srdOp c w d).ddr = d.ddr := by
  unfold srdOp
  repeat' first
    | with_reducible rfl
    | simp only [Dev.dspPure_ddr]
    | dsimp only
    | split
    | (refine (foldl_ddr _ _ _ ?_).trans ?_ <;> try intro _ _)
    | (refine (foldl_ddr1 _ _ _ ?_).trans ?_ <;> try intro _ _)

@[simp] theorem dspNopOp_ddr (c : Nat) (w : DWord) (d : Dev) : (dspNopOp c w d).ddr = d.ddr := by
  unfold dspNopOp
  repeat' first
    | with_reducible rfl
    | simp only [Dev.dspPure_ddr]
    | dsimp only
    | split
    | (refine (foldl_ddr _ _ _ ?_).trans ?_ <;> try intro _ _)
    | (refine (foldl_ddr1 _ _ _ ?_).trans ?_ <;> try intro _ _)

@[simp] theorem ldiOp_ddr (c : Nat) (rd : BitVec 4) (imm : W32) (d : Dev) : (ldiOp c rd imm d).ddr = d.ddr := by
  unfold ldiOp
  repeat' first
    | with_reducible rfl
    | simp only [Dev.coreObjects_ddr, Dev.setCore_ddr]
    | dsimp only
    | split
    | (refine (foldl_ddr _ _ _ ?_).trans ?_ <;> try intro _ _)
    | (refine (foldl_ddr1 _ _ _ ?_).trans ?_ <;> try intro _ _)

@[simp] theorem movgOp_ddr (c : Nat) (w : DWord) (d : Dev) : (movgOp c w d).ddr = d.ddr := by
  unfold movgOp
  repeat' first
    | with_reducible rfl
    | simp only [Dev.dspPure_ddr]
    | dsimp only
    | split
    | (refine (foldl_ddr _ _ _ ?_).trans ?_ <;> try intro _ _)
    | (refine (foldl_ddr1 _ _ _ ?_).trans ?_ <;> try intro _ _)

@[simp] theorem dspAddOp_ddr (c : Nat) (w : DWord) (d : Dev) : (dspAddOp c w d).ddr = d.ddr := by
  unfold dspAddOp
  repeat' first
    | with_reducible rfl
    | simp only [Dev.dspPure_ddr]
    | dsimp only
    | split
    | (refine (foldl_ddr _ _ _ ?_).trans ?_ <;> try intro _ _)
    | (refine (foldl_ddr1 _ _ _ ?_).trans ?_ <;> try intro _ _)

@[simp] theorem dspSubOp_ddr (c : Nat) (w : DWord) (d : Dev) : (dspSubOp c w d).ddr = d.ddr := by
  unfold dspSubOp
  repeat' first
    | with_reducible rfl
    | simp only [Dev.dspPure_ddr]
    | dsimp only
    | split
    | (refine (foldl_ddr _ _ _ ?_).trans ?_ <;> try intro _ _)
    | (refine (foldl_ddr1 _ _ _ ?_).trans ?_ <;> try intro _ _)

@[simp] theorem dspAndOp_ddr (c : Nat) (w : DWord) (d : Dev) : (dspAndOp c w d).ddr = d.ddr := by
  unfold dspAndOp
  repeat' first
    | with_reducible rfl
    | simp only [Dev.dspPure_ddr]
    | dsimp only
    | split
    | (refine (foldl_ddr _ _ _ ?_).trans ?_ <;> try intro _ _)
    | (refine (foldl_ddr1 _ _ _ ?_).trans ?_ <;> try intro _ _)

@[simp] theorem dspOrOp_ddr (c : Nat) (w : DWord) (d : Dev) : (dspOrOp c w d).ddr = d.ddr := by
  unfold dspOrOp
  repeat' first
    | with_reducible rfl
    | simp only [Dev.dspPure_ddr]
    | dsimp only
    | split
    | (refine (foldl_ddr _ _ _ ?_).trans ?_ <;> try intro _ _)
    | (refine (foldl_ddr1 _ _ _ ?_).trans ?_ <;> try intro _ _)

@[simp] theorem dspXorOp_ddr (c : Nat) (w : DWord) (d : Dev) : (dspXorOp c w d).ddr = d.ddr := by
  unfold dspXorOp
  repeat' first
    | with_reducible rfl
    | simp only [Dev.dspPure_ddr]
    | dsimp only
    | split
    | (refine (foldl_ddr _ _ _ ?_).trans ?_ <;> try intro _ _)
    | (refine (foldl_ddr1 _ _ _ ?_).trans ?_ <;> try intro _ _)

@[simp] theorem shlOp_ddr (c : Nat) (w : DWord) (d : Dev) : (shlOp c w d).ddr = d.ddr := by
  unfold shlOp
  repeat' first
    | with_reducible rfl
    | simp only [Dev.dspPure_ddr]
    | dsimp only
    | split
    | (refine (foldl_ddr _ _ _ ?_).trans ?_ <;> try intro _ _)
    | (refine (foldl_ddr1 _ _ _ ?_).trans ?_ <;> try intro _ _)

@[simp] theorem sarOp_ddr (c : Nat) (w : DWord) (d : Dev) : (sarOp c w d).ddr = d.ddr := by
  unfold sarOp
  repeat' first
    | with_reducible rfl
    | simp only [Dev.dspPure_ddr]
    | dsimp only
    | split
    | (refine (foldl_ddr _ _ _ ?_).trans ?_ <;> try intro _ _)
    | (refine (foldl_ddr1 _ _ _ ?_).trans ?_ <;> try intro _ _)

@[simp] theorem mulqOp_ddr (c : Nat) (w : DWord) (d : Dev) : (mulqOp c w d).ddr = d.ddr := by
  unfold mulqOp
  repeat' first
    | (refine Dev.dspRun_ddr _ _ _ _ _ ?_ <;> try intro _ _)
    | exact OptFrame.none _
    | exact Dev.toAcc_frame _ _ _ _ _
    | exact Dev.storeSat_frame _ _ _ _
    | exact Dev.flagN_ddr ..
    | exact Dev.flag_ddr ..
    | (refine OptFrame.some ?_)
    | (refine OptFrame.map ?_ <;> try intro _)
    | with_reducible rfl
    | dsimp only
    | split
    | (refine (foldl_ddr _ _ _ ?_).trans ?_ <;> try intro _ _)
    | (refine (foldl_ddr1 _ _ _ ?_).trans ?_ <;> try intro _ _)

@[simp] theorem sgtOp_ddr (c : Nat) (w : DWord) (d : Dev) : (sgtOp c w d).ddr = d.ddr := by
  unfold sgtOp
  repeat' first
    | with_reducible rfl
    | simp only [Dev.dspPure_ddr]
    | dsimp only
    | split
    | (refine (foldl_ddr _ _ _ ?_).trans ?_ <;> try intro _ _)
    | (refine (foldl_ddr1 _ _ _ ?_).trans ?_ <;> try intro _ _)

@[simp] theorem cmpOp_ddr (c : Nat) (w : DWord) (d : Dev) : (cmpOp c w d).ddr = d.ddr := by
  unfold cmpOp
  repeat' first
    | with_reducible rfl
    | simp only [Dev.dspPure_ddr]
    | dsimp only
    | split
    | (refine (foldl_ddr _ _ _ ?_).trans ?_ <;> try intro _ _)
    | (refine (foldl_ddr1 _ _ _ ?_).trans ?_ <;> try intro _ _)

@[simp] theorem movxgOp_ddr (c : Nat) (w : DWord) (d : Dev) : (movxgOp c w d).ddr = d.ddr := by
  unfold movxgOp
  repeat' first
    | with_reducible rfl
    | simp only [Dev.dspPure_ddr]
    | dsimp only
    | split
    | (refine (foldl_ddr _ _ _ ?_).trans ?_ <;> try intro _ _)
    | (refine (foldl_ddr1 _ _ _ ?_).trans ?_ <;> try intro _ _)

@[simp] theorem movgxOp_ddr (c : Nat) (w : DWord) (d : Dev) : (movgxOp c w d).ddr = d.ddr := by
  unfold movgxOp
  repeat' first
    | with_reducible rfl
    | simp only [Dev.dspPure_ddr]
    | dsimp only
    | split
    | (refine (foldl_ddr _ _ _ ?_).trans ?_ <;> try intro _ _)
    | (refine (foldl_ddr1 _ _ _ ?_).trans ?_ <;> try intro _ _)

@[simp] theorem ldgOp_ddr (c : Nat) (w : DWord) (d : Dev) : (ldgOp c w d).ddr = d.ddr := by
  unfold ldgOp
  repeat' first
    | with_reducible rfl
    | simp only [Dev.dspPure_ddr]
    | dsimp only
    | split
    | (refine (foldl_ddr _ _ _ ?_).trans ?_ <;> try intro _ _)
    | (refine (foldl_ddr1 _ _ _ ?_).trans ?_ <;> try intro _ _)

@[simp] theorem stgOp_ddr (c : Nat) (w : DWord) (d : Dev) : (stgOp c w d).ddr = d.ddr := by
  unfold stgOp
  repeat' first
    | with_reducible rfl
    | simp only [Dev.dspPure_ddr]
    | dsimp only
    | split
    | (refine (foldl_ddr _ _ _ ?_).trans ?_ <;> try intro _ _)
    | (refine (foldl_ddr1 _ _ _ ?_).trans ?_ <;> try intro _ _)

@[simp] theorem movpOp_ddr (c : Nat) (w : DWord) (d : Dev) : (movpOp c w d).ddr = d.ddr := by
  unfold movpOp
  repeat' first
    | with_reducible rfl
    | simp only [Dev.dspPure_ddr]
    | dsimp only
    | split
    | (refine (foldl_ddr _ _ _ ?_).trans ?_ <;> try intro _ _)
    | (refine (foldl_ddr1 _ _ _ ?_).trans ?_ <;> try intro _ _)

@[simp] theorem movpgOp_ddr (c : Nat) (w : DWord) (d : Dev) : (movpgOp c w d).ddr = d.ddr := by
  unfold movpgOp
  repeat' first
    | with_reducible rfl
    | simp only [Dev.dspPure_ddr]
    | dsimp only
    | split
    | (refine (foldl_ddr _ _ _ ?_).trans ?_ <;> try intro _ _)
    | (refine (foldl_ddr1 _ _ _ ?_).trans ?_ <;> try intro _ _)

@[simp] theorem jmpOp_ddr (c : Nat) (w : DWord) (d : Dev) : (jmpOp c w d).ddr = d.ddr := by
  unfold jmpOp
  repeat' first
    | with_reducible rfl
    | simp only [Dev.dspPure_ddr]
    | dsimp only
    | split
    | (refine (foldl_ddr _ _ _ ?_).trans ?_ <;> try intro _ _)
    | (refine (foldl_ddr1 _ _ _ ?_).trans ?_ <;> try intro _ _)

@[simp] theorem jccOp_ddr (c : Nat) (w : DWord) (d : Dev) : (jccOp c w d).ddr = d.ddr := by
  unfold jccOp
  repeat' first
    | with_reducible rfl
    | simp only [Dev.dspPure_ddr]
    | dsimp only
    | split
    | (refine (foldl_ddr _ _ _ ?_).trans ?_ <;> try intro _ _)
    | (refine (foldl_ddr1 _ _ _ ?_).trans ?_ <;> try intro _ _)

@[simp] theorem callOp_ddr (c : Nat) (w : DWord) (d : Dev) : (callOp c w d).ddr = d.ddr := by
  unfold callOp
  repeat' first
    | (refine Dev.dspRun_ddr _ _ _ _ _ ?_ <;> try intro _ _)
    | exact OptFrame.none _
    | exact Dev.toAcc_frame _ _ _ _ _
    | exact Dev.storeSat_frame _ _ _ _
    | exact Dev.flagN_ddr ..
    | exact Dev.flag_ddr ..
    | (refine OptFrame.some ?_)
    | (refine OptFrame.map ?_ <;> try intro _)
    | with_reducible rfl
    | dsimp only
    | split
    | (refine (foldl_ddr _ _ _ ?_).trans ?_ <;> try intro _ _)
    | (refine (foldl_ddr1 _ _ _ ?_).trans ?_ <;> try intro _ _)

@[simp] theorem retOp_ddr (c : Nat) (w : DWord) (d : Dev) : (retOp c w d).ddr = d.ddr := by
  unfold retOp
  repeat' first
    | (refine Dev.dspRun_ddr _ _ _ _ _ ?_ <;> try intro _ _)
    | exact OptFrame.none _
    | exact Dev.toAcc_frame _ _ _ _ _
    | exact Dev.storeSat_frame _ _ _ _
    | exact Dev.flagN_ddr ..
    | exact Dev.flag_ddr ..
    | (refine OptFrame.some ?_)
    | (refine OptFrame.map ?_ <;> try intro _)
    | with_reducible rfl
    | dsimp only
    | split
    | (refine (foldl_ddr _ _ _ ?_).trans ?_ <;> try intro _ _)
    | (refine (foldl_ddr1 _ _ _ ?_).trans ?_ <;> try intro _ _)

@[simp] theorem rtiOp_ddr (c : Nat) (w : DWord) (d : Dev) : (rtiOp c w d).ddr = d.ddr := by
  unfold rtiOp
  repeat' first
    | (refine Dev.dspRun_ddr _ _ _ _ _ ?_ <;> try intro _ _)
    | exact OptFrame.none _
    | exact Dev.toAcc_frame _ _ _ _ _
    | exact Dev.storeSat_frame _ _ _ _
    | exact Dev.flagN_ddr ..
    | exact Dev.flag_ddr ..
    | (refine OptFrame.some ?_)
    | (refine OptFrame.map ?_ <;> try intro _)
    | with_reducible rfl
    | dsimp only
    | split
    | (refine (foldl_ddr _ _ _ ?_).trans ?_ <;> try intro _ _)
    | (refine (foldl_ddr1 _ _ _ ?_).trans ?_ <;> try intro _ _)

@[simp] theorem repeatNOp_ddr (c : Nat) (w : DWord) (d : Dev) : (repeatNOp c w d).ddr = d.ddr := by
  unfold repeatNOp
  repeat' first
    | with_reducible rfl
    | simp only [Dev.dspPure_ddr]
    | dsimp only
    | split
    | (refine (foldl_ddr _ _ _ ?_).trans ?_ <;> try intro _ _)
    | (refine (foldl_ddr1 _ _ _ ?_).trans ?_ <;> try intro _ _)

@[simp] theorem dspLoopOp_ddr (c : Nat) (w : DWord) (d : Dev) : (dspLoopOp c w d).ddr = d.ddr := by
  unfold dspLoopOp
  repeat' first
    | with_reducible rfl
    | simp only [Dev.dspPure_ddr]
    | dsimp only
    | split
    | (refine (foldl_ddr _ _ _ ?_).trans ?_ <;> try intro _ _)
    | (refine (foldl_ddr1 _ _ _ ?_).trans ?_ <;> try intro _ _)

@[simp] theorem loopiOp_ddr (c : Nat) (w : DWord) (d : Dev) : (loopiOp c w d).ddr = d.ddr := by
  unfold loopiOp
  repeat' first
    | with_reducible rfl
    | simp only [Dev.dspPure_ddr]
    | dsimp only
    | split
    | (refine (foldl_ddr _ _ _ ?_).trans ?_ <;> try intro _ _)
    | (refine (foldl_ddr1 _ _ _ ?_).trans ?_ <;> try intro _ _)

@[simp] theorem Dev.decSlack_ddr (d : Dev) (c : Nat) (w : Win) (at_ : Nat) : (Dev.decSlack d c w at_).ddr = d.ddr := by
  unfold Dev.decSlack
  repeat' first
    | with_reducible rfl
    | simp only [Dev.setCore_ddr, Dev.wr_ddr]
    | dsimp only
    | split
    | (refine (foldl_ddr _ _ _ ?_).trans ?_ <;> try intro _ _)
    | (refine (foldl_ddr1 _ _ _ ?_).trans ?_ <;> try intro _ _)

@[simp] theorem inwOp_ddr (c : Nat) (w : DWord) (d : Dev) : (inwOp c w d).ddr = d.ddr := by
  unfold inwOp
  repeat' first
    | with_reducible rfl
    | simp only [Dev.dspPure_ddr]
    | dsimp only
    | split
    | (refine (foldl_ddr _ _ _ ?_).trans ?_ <;> try intro _ _)
    | (refine (foldl_ddr1 _ _ _ ?_).trans ?_ <;> try intro _ _)

@[simp] theorem outdOp_ddr (c : Nat) (w : DWord) (d : Dev) : (outdOp c w d).ddr = d.ddr := by
  unfold outdOp
  repeat' first
    | (refine Dev.dspRun_ddr _ _ _ _ _ ?_ <;> try intro _ _)
    | exact OptFrame.none _
    | exact Dev.toAcc_frame _ _ _ _ _
    | exact Dev.storeSat_frame _ _ _ _
    | exact Dev.flagN_ddr ..
    | exact Dev.flag_ddr ..
    | (refine OptFrame.some ?_)
    | (refine OptFrame.map ?_ <;> try intro _)
    | with_reducible rfl
    | simp only [Dev.decSlack_ddr, Dev.flag_ddr, Dev.modWin_ddr]
    | dsimp only
    | split
    | (refine (foldl_ddr _ _ _ ?_).trans ?_ <;> try intro _ _)
    | (refine (foldl_ddr1 _ _ _ ?_).trans ?_ <;> try intro _ _)

@[simp] theorem movwOp_ddr (c : Nat) (w : DWord) (d : Dev) : (movwOp c w d).ddr = d.ddr := by
  unfold movwOp
  repeat' first
    | with_reducible rfl
    | simp only [Dev.dspPure_ddr]
    | dsimp only
    | split
    | (refine (foldl_ddr _ _ _ ?_).trans ?_ <;> try intro _ _)
    | (refine (foldl_ddr1 _ _ _ ?_).trans ?_ <;> try intro _ _)

@[simp] theorem Dev.closeRec_ddr (d : Dev) (c : Nat) (k : DspCore) (r : DRec) : (Dev.closeRec d c k r).ddr = d.ddr := by
  unfold Dev.closeRec
  repeat' first
    | with_reducible rfl
    | simp only [Dev.modJob_ddr]
    | dsimp only
    | split
    | (refine (foldl_ddr _ _ _ ?_).trans ?_ <;> try intro _ _)
    | (refine (foldl_ddr1 _ _ _ ?_).trans ?_ <;> try intro _ _)

@[simp] theorem emitOp_ddr (c : Nat) (w : DWord) (d : Dev) : (emitOp c w d).ddr = d.ddr := by
  unfold emitOp
  repeat' first
    | (refine Dev.dspRun_ddr _ _ _ _ _ ?_ <;> try intro _ _)
    | exact OptFrame.none _
    | exact Dev.toAcc_frame _ _ _ _ _
    | exact Dev.storeSat_frame _ _ _ _
    | exact Dev.flagN_ddr ..
    | exact Dev.flag_ddr ..
    | (refine OptFrame.some ?_)
    | (refine OptFrame.map ?_ <;> try intro _)
    | with_reducible rfl
    | simp only [Dev.closeRec_ddr]
    | dsimp only
    | split
    | (refine (foldl_ddr _ _ _ ?_).trans ?_ <;> try intro _ _)
    | (refine (foldl_ddr1 _ _ _ ?_).trans ?_ <;> try intro _ _)

@[simp] theorem ecloseOp_ddr (c : Nat) (w : DWord) (d : Dev) : (ecloseOp c w d).ddr = d.ddr := by
  unfold ecloseOp
  repeat' first
    | (refine Dev.dspRun_ddr _ _ _ _ _ ?_ <;> try intro _ _)
    | exact OptFrame.none _
    | exact Dev.toAcc_frame _ _ _ _ _
    | exact Dev.storeSat_frame _ _ _ _
    | exact Dev.flagN_ddr ..
    | exact Dev.flag_ddr ..
    | (refine OptFrame.some ?_)
    | (refine OptFrame.map ?_ <;> try intro _)
    | with_reducible rfl
    | simp only [Dev.closeRec_ddr]
    | dsimp only
    | split
    | (refine (foldl_ddr _ _ _ ?_).trans ?_ <;> try intro _ _)
    | (refine (foldl_ddr1 _ _ _ ?_).trans ?_ <;> try intro _ _)

@[simp] theorem bdoneOp_ddr (c : Nat) (w : DWord) (d : Dev) : (bdoneOp c w d).ddr = d.ddr := by
  unfold bdoneOp
  repeat' first
    | (refine Dev.dspRun_ddr _ _ _ _ _ ?_ <;> try intro _ _)
    | exact OptFrame.none _
    | exact Dev.toAcc_frame _ _ _ _ _
    | exact Dev.storeSat_frame _ _ _ _
    | exact Dev.flagN_ddr ..
    | exact Dev.flag_ddr ..
    | (refine OptFrame.some ?_)
    | (refine OptFrame.map ?_ <;> try intro _)
    | with_reducible rfl
    | dsimp only
    | split
    | (refine (foldl_ddr _ _ _ ?_).trans ?_ <;> try intro _ _)
    | (refine (foldl_ddr1 _ _ _ ?_).trans ?_ <;> try intro _ _)

@[simp] theorem diOp_ddr (c : Nat) (w : DWord) (d : Dev) : (diOp c w d).ddr = d.ddr := by
  unfold diOp
  repeat' first
    | (refine Dev.dspRun_ddr _ _ _ _ _ ?_ <;> try intro _ _)
    | exact OptFrame.none _
    | exact Dev.toAcc_frame _ _ _ _ _
    | exact Dev.storeSat_frame _ _ _ _
    | exact Dev.flagN_ddr ..
    | exact Dev.flag_ddr ..
    | (refine OptFrame.some ?_)
    | (refine OptFrame.map ?_ <;> try intro _)
    | with_reducible rfl
    | dsimp only
    | split
    | (refine (foldl_ddr _ _ _ ?_).trans ?_ <;> try intro _ _)
    | (refine (foldl_ddr1 _ _ _ ?_).trans ?_ <;> try intro _ _)

@[simp] theorem eiOp_ddr (c : Nat) (w : DWord) (d : Dev) : (eiOp c w d).ddr = d.ddr := by
  unfold eiOp
  repeat' first
    | with_reducible rfl
    | simp only [Dev.dspPure_ddr]
    | dsimp only
    | split
    | (refine (foldl_ddr _ _ _ ?_).trans ?_ <;> try intro _ _)
    | (refine (foldl_ddr1 _ _ _ ?_).trans ?_ <;> try intro _ _)

@[simp] theorem waitiOp_ddr (c : Nat) (w : DWord) (d : Dev) : (waitiOp c w d).ddr = d.ddr := by
  unfold waitiOp
  repeat' first
    | with_reducible rfl
    | simp only [Dev.dspPure_ddr]
    | dsimp only
    | split
    | (refine (foldl_ddr _ _ _ ?_).trans ?_ <;> try intro _ _)
    | (refine (foldl_ddr1 _ _ _ ?_).trans ?_ <;> try intro _ _)

@[simp] theorem mboxwOp_ddr (c : Nat) (w : DWord) (d : Dev) : (mboxwOp c w d).ddr = d.ddr := by
  unfold mboxwOp
  repeat' first
    | (refine Dev.dspRun_ddr _ _ _ _ _ ?_ <;> try intro _ _)
    | exact OptFrame.none _
    | exact Dev.toAcc_frame _ _ _ _ _
    | exact Dev.storeSat_frame _ _ _ _
    | exact Dev.flagN_ddr ..
    | exact Dev.flag_ddr ..
    | (refine OptFrame.some ?_)
    | (refine OptFrame.map ?_ <;> try intro _)
    | with_reducible rfl
    | simp only [Dev.wr_ddr]
    | dsimp only
    | split
    | (refine (foldl_ddr _ _ _ ?_).trans ?_ <;> try intro _ _)
    | (refine (foldl_ddr1 _ _ _ ?_).trans ?_ <;> try intro _ _)

@[simp] theorem mboxrOp_ddr (c : Nat) (w : DWord) (d : Dev) : (mboxrOp c w d).ddr = d.ddr := by
  unfold mboxrOp
  repeat' first
    | with_reducible rfl
    | simp only [Dev.dspPure_ddr]
    | dsimp only
    | split
    | (refine (foldl_ddr _ _ _ ?_).trans ?_ <;> try intro _ _)
    | (refine (foldl_ddr1 _ _ _ ?_).trans ?_ <;> try intro _ _)

@[simp] theorem mboxInOp_ddr (c : Nat) (v : W32) (d : Dev) : (mboxInOp c v d).ddr = d.ddr := by
  unfold mboxInOp
  repeat' first
    | with_reducible rfl
    | simp only [Dev.setCore_ddr, Dev.wr_ddr]
    | dsimp only
    | split
    | (refine (foldl_ddr _ _ _ ?_).trans ?_ <;> try intro _ _)
    | (refine (foldl_ddr1 _ _ _ ?_).trans ?_ <;> try intro _ _)

@[simp] theorem dspInterruptOp_ddr (c : Nat) (d : Dev) : (dspInterruptOp c d).ddr = d.ddr := by
  unfold dspInterruptOp
  repeat' first
    | with_reducible rfl
    | simp only [Dev.coreObjects_ddr, Dev.dspFault_ddr, Dev.setCore_ddr]
    | dsimp only
    | split
    | (refine (foldl_ddr _ _ _ ?_).trans ?_ <;> try intro _ _)
    | (refine (foldl_ddr1 _ _ _ ?_).trans ?_ <;> try intro _ _)

@[simp] theorem diExpiredOp_ddr (c : Nat) (d : Dev) : (diExpiredOp c d).ddr = d.ddr := by
  unfold diExpiredOp
  repeat' first
    | with_reducible rfl
    | simp only [Dev.flag_ddr, Dev.setCore_ddr]
    | dsimp only
    | split
    | (refine (foldl_ddr _ _ _ ?_).trans ?_ <;> try intro _ _)
    | (refine (foldl_ddr1 _ _ _ ?_).trans ?_ <;> try intro _ _)

@[simp] theorem windowEntryOp_ddr (c : Nat) (d : Dev) : (windowEntryOp c d).ddr = d.ddr := by
  unfold windowEntryOp
  repeat' first
    | with_reducible rfl
    | simp only [Dev.coreObjects_ddr, Dev.decSlack_ddr, Dev.flag_ddr, Dev.modWin_ddr, Dev.setCore_ddr, Dev.setSlotRx_ddr, Dev.spoil_ddr, Dev.wr_ddr]
    | dsimp only
    | split
    | (refine (foldl_ddr _ _ _ ?_).trans ?_ <;> try intro _ _)
    | (refine (foldl_ddr1 _ _ _ ?_).trans ?_ <;> try intro _ _)

@[simp] theorem dspLateOp_ddr (slot : Nat) (d : Dev) : (dspLateOp slot d).ddr = d.ddr := by
  unfold dspLateOp
  repeat' first
    | with_reducible rfl
    | simp only [Dev.decSlack_ddr, Dev.flag_ddr, Dev.modWin_ddr]
    | dsimp only
    | split
    | (refine (foldl_ddr _ _ _ ?_).trans ?_ <;> try intro _ _)
    | (refine (foldl_ddr1 _ _ _ ?_).trans ?_ <;> try intro _ _)

@[simp] theorem dspBoundaryOp_ddr (job : Nat) (d : Dev) : (dspBoundaryOp job d).ddr = d.ddr := by
  unfold dspBoundaryOp
  repeat' first
    | with_reducible rfl
    | simp only [Dev.setCore_ddr]
    | dsimp only
    | split
    | (refine (foldl_ddr _ _ _ ?_).trans ?_ <;> try intro _ _)
    | (refine (foldl_ddr1 _ _ _ ?_).trans ?_ <;> try intro _ _)

@[simp] theorem drainLateOp_ddr (c : Nat) (d : Dev) : (drainLateOp c d).ddr = d.ddr := by
  unfold drainLateOp
  repeat' first
    | with_reducible rfl
    | simp only [Dev.flag_ddr, Dev.setCore_ddr, Dev.spoil_ddr]
    | dsimp only
    | split
    | (refine (foldl_ddr _ _ _ ?_).trans ?_ <;> try intro _ _)
    | (refine (foldl_ddr1 _ _ _ ?_).trans ?_ <;> try intro _ _)

@[simp] theorem Dev.dataEcc_ddr (d : Dev) (c : Nat) (k : DspCore) : (Dev.dataEcc d c k).ddr = d.ddr := by
  unfold Dev.dataEcc
  repeat' first
    | with_reducible rfl
    | simp only [Dev.flag_ddr, Dev.setCore_ddr, Dev.spoil_ddr]
    | dsimp only
    | split
    | (refine (foldl_ddr _ _ _ ?_).trans ?_ <;> try intro _ _)
    | (refine (foldl_ddr1 _ _ _ ?_).trans ?_ <;> try intro _ _)

@[simp] theorem dspEccOp_ddr (c : Nat) (m : DspMem) (addr : Nat) (double : Bool) (d : Dev) : (dspEccOp c m addr double d).ddr = d.ddr := by
  unfold dspEccOp
  repeat' first
    | with_reducible rfl
    | simp only [Dev.dataEcc_ddr, Dev.flag_ddr, Dev.noteFault_ddr, Dev.setCore_ddr]
    | dsimp only
    | split
    | (refine (foldl_ddr _ _ _ ?_).trans ?_ <;> try intro _ _)
    | (refine (foldl_ddr1 _ _ _ ?_).trans ?_ <;> try intro _ _)

@[simp] theorem Dev.acqDeliver_ddr (d : Dev) (c : Nat) (l : AcqLeg) (bytes : List Byte) : (Dev.acqDeliver d c l bytes).ddr = d.ddr := by
  unfold Dev.acqDeliver
  repeat' first
    | with_reducible rfl
    | simp only [Dev.modJob_ddr]
    | dsimp only
    | split
    | (refine (foldl_ddr _ _ _ ?_).trans ?_ <;> try intro _ _)
    | (refine (foldl_ddr1 _ _ _ ?_).trans ?_ <;> try intro _ _)

@[simp] theorem Dev.setTrigOut_ddr (d : Dev) (i : Nat) (t : TrigOut) : (Dev.setTrigOut d i t).ddr = d.ddr := by
  unfold Dev.setTrigOut
  repeat' first
    | with_reducible rfl
    | dsimp only
    | split
    | (refine (foldl_ddr _ _ _ ?_).trans ?_ <;> try intro _ _)
    | (refine (foldl_ddr1 _ _ _ ?_).trans ?_ <;> try intro _ _)

@[simp] theorem Dev.trigCause_ddr (d : Dev) (source : Nat) (arg : Option Nat) (t : Nat) : (Dev.trigCause d source arg t).ddr = d.ddr := by
  unfold Dev.trigCause
  repeat' first
    | with_reducible rfl
    | simp only [Dev.setTrigOut_ddr]
    | dsimp only
    | split
    | (refine (foldl_ddr _ _ _ ?_).trans ?_ <;> try intro _ _)
    | (refine (foldl_ddr1 _ _ _ ?_).trans ?_ <;> try intro _ _)

@[simp] theorem trigOutPulseOp_ddr (i : Nat) (d : Dev) : (trigOutPulseOp i d).ddr = d.ddr := by
  unfold trigOutPulseOp
  repeat' first
    | with_reducible rfl
    | simp only [Dev.setTrigOut_ddr]
    | dsimp only
    | split
    | (refine (foldl_ddr _ _ _ ?_).trans ?_ <;> try intro _ _)
    | (refine (foldl_ddr1 _ _ _ ?_).trans ?_ <;> try intro _ _)

@[simp] theorem trigOutPulseEndOp_ddr (i : Nat) (d : Dev) : (trigOutPulseEndOp i d).ddr = d.ddr := by
  unfold trigOutPulseEndOp
  repeat' first
    | with_reducible rfl
    | simp only [Dev.setTrigOut_ddr]
    | dsimp only
    | split
    | (refine (foldl_ddr _ _ _ ?_).trans ?_ <;> try intro _ _)
    | (refine (foldl_ddr1 _ _ _ ?_).trans ?_ <;> try intro _ _)

@[simp] theorem Dev.acqTick_ddr (d : Dev) : (Dev.acqTick d).ddr = d.ddr := by
  unfold Dev.acqTick
  repeat' first
    | with_reducible rfl
    | simp only [Dev.setAcq_ddr]
    | dsimp only
    | split
    | (refine (foldl_ddr _ _ _ ?_).trans ?_ <;> try intro _ _)
    | (refine (foldl_ddr1 _ _ _ ?_).trans ?_ <;> try intro _ _)

@[simp] theorem Dev.acqAccept_ddr (d : Dev) (c : Nat) (idx : Nat) (cs : List Nat) (l : AcqLeg) : (Dev.acqAccept d c idx cs l).ddr = d.ddr := by
  unfold Dev.acqAccept
  repeat' first
    | with_reducible rfl
    | simp only [Dev.acqDeliver_ddr, Dev.produce_ddr, Dev.setAcq_ddr, Dev.trigCause_ddr, Dev.wr_ddr]
    | dsimp only
    | split
    | (refine (foldl_ddr _ _ _ ?_).trans ?_ <;> try intro _ _)
    | (refine (foldl_ddr1 _ _ _ ?_).trans ?_ <;> try intro _ _)

@[simp] theorem acqTriggerOp_ddr (c : Nat) (idx : Nat) (d : Dev) : (acqTriggerOp c idx d).ddr = d.ddr := by
  unfold acqTriggerOp
  repeat' first
    | with_reducible rfl
    | simp only [Dev.acqAccept_ddr, Dev.flag_ddr, Dev.setAcq_ddr]
    | dsimp only
    | split
    | (refine (foldl_ddr _ _ _ ?_).trans ?_ <;> try intro _ _)
    | (refine (foldl_ddr1 _ _ _ ?_).trans ?_ <;> try intro _ _)

@[simp] theorem Dev.freeChannel_ddr (d : Dev) (seq : Nat) (c : Nat) : (Dev.freeChannel d seq c).ddr = d.ddr := by
  unfold Dev.freeChannel
  repeat' first
    | with_reducible rfl
    | simp only [Dev.modJob_ddr, Dev.setAcq_ddr, Dev.wr_ddr]
    | dsimp only
    | split
    | (refine (foldl_ddr _ _ _ ?_).trans ?_ <;> try intro _ _)
    | (refine (foldl_ddr1 _ _ _ ?_).trans ?_ <;> try intro _ _)

@[simp] theorem streamBlockOp_ddr (c : Nat) (units : Nat) (d : Dev) : (streamBlockOp c units d).ddr = d.ddr := by
  unfold streamBlockOp
  repeat' first
    | with_reducible rfl
    | simp only [Dev.acqDeliver_ddr, Dev.flag_ddr, Dev.freeChannel_ddr, Dev.setAcq_ddr]
    | dsimp only
    | split
    | (refine (foldl_ddr _ _ _ ?_).trans ?_ <;> try intro _ _)
    | (refine (foldl_ddr1 _ _ _ ?_).trans ?_ <;> try intro _ _)

@[simp] theorem captureRecordCompleteOp_ddr (c : Nat) (d : Dev) : (captureRecordCompleteOp c d).ddr = d.ddr := by
  unfold captureRecordCompleteOp
  repeat' first
    | with_reducible rfl
    | simp only [Dev.acqDeliver_ddr, Dev.flag_ddr, Dev.setAcq_ddr, Dev.wrs_ddr]
    | dsimp only
    | split
    | (refine (foldl_ddr _ _ _ ?_).trans ?_ <;> try intro _ _)
    | (refine (foldl_ddr1 _ _ _ ?_).trans ?_ <;> try intro _ _)

@[simp] theorem Dev.acqBegin_ddr (d : Dev) (c : Nat) (l : AcqLeg) : (Dev.acqBegin d c l).ddr = d.ddr := by
  unfold Dev.acqBegin
  repeat' first
    | with_reducible rfl
    | simp only [Dev.setAcq_ddr, Dev.wrs_ddr]
    | dsimp only
    | split
    | (refine (foldl_ddr _ _ _ ?_).trans ?_ <;> try intro _ _)
    | (refine (foldl_ddr1 _ _ _ ?_).trans ?_ <;> try intro _ _)

@[simp] theorem armOp_ddr (c : Nat) (d : Dev) : (armOp c d).ddr = d.ddr := by
  unfold armOp
  repeat' first
    | with_reducible rfl
    | simp only [Dev.acqBegin_ddr, Dev.conflict_ddr]
    | dsimp only
    | split
    | (refine (foldl_ddr _ _ _ ?_).trans ?_ <;> try intro _ _)
    | (refine (foldl_ddr1 _ _ _ ?_).trans ?_ <;> try intro _ _)

@[simp] theorem disarmOp_ddr (c : Nat) (d : Dev) : (disarmOp c d).ddr = d.ddr := by
  unfold disarmOp
  repeat' first
    | with_reducible rfl
    | simp only [Dev.conflict_ddr, Dev.setAcq_ddr, Dev.wr_ddr]
    | dsimp only
    | split
    | (refine (foldl_ddr _ _ _ ?_).trans ?_ <;> try intro _ _)
    | (refine (foldl_ddr1 _ _ _ ?_).trans ?_ <;> try intro _ _)

@[simp] theorem forceOp_ddr (c : Nat) (d : Dev) : (forceOp c d).ddr = d.ddr := by
  unfold forceOp
  repeat' first
    | with_reducible rfl
    | simp only [Dev.addCond_ddr, Dev.conflict_ddr]
    | dsimp only
    | split
    | (refine (foldl_ddr _ _ _ ?_).trans ?_ <;> try intro _ _)
    | (refine (foldl_ddr1 _ _ _ ?_).trans ?_ <;> try intro _ _)

end Sys2Proof.Machine
end

