-- ==== Sys2Proof/Laws/MemE.lean ====
section
/-! SUPPORT. What each operation does to the bytes of DDR4 (placement, settling, results, retirement): most leave them, the few that store keep
their canonical form. One lemma per operation, cited by the laws of the step. -/

set_option linter.all false
set_option linter.unreachableTactic false
set_option linter.unusedTactic false

namespace Sys2Proof.Machine

@[simp] theorem Dev.report_ddr (d : Dev) (verdict : Nat) (slot : Nat) (seq : Nat) (shot : Nat) (reason : Nat) (es : List (List Byte)) : (Dev.report d verdict slot seq shot reason es).ddr = d.ddr := by
  unfold Dev.report
  repeat' first
    | with_reducible rfl
    | simp only [Dev.wr_ddr]
    | dsimp only
    | split
    | (refine (foldl_ddr _ _ _ ?_).trans ?_ <;> try intro _ _)
    | (refine (foldl_ddr1 _ _ _ ?_).trans ?_ <;> try intro _ _)

@[simp] theorem Dev.setRoutes_ddr (d : Dev) : (Dev.setRoutes d).ddr = d.ddr := by
  unfold Dev.setRoutes
  repeat' first
    | with_reducible rfl
    | simp only [Dev.wr_ddr]
    | dsimp only
    | split
    | (refine (foldl_ddr _ _ _ ?_).trans ?_ <;> try intro _ _)
    | (refine (foldl_ddr1 _ _ _ ?_).trans ?_ <;> try intro _ _)

@[simp] theorem Dev.loadStores_ddr (d : Dev) (h : Held) (cs : Sections) : (Dev.loadStores d h cs).ddr = d.ddr := by
  unfold Dev.loadStores
  repeat' first
    | with_reducible rfl
    | dsimp only
    | split
    | (refine (foldl_ddr _ _ _ ?_).trans ?_ <;> try intro _ _)
    | (refine (foldl_ddr1 _ _ _ ?_).trans ?_ <;> try intro _ _)

@[simp] theorem Dev.loadTable_ddr (d : Dev) (slot : Nat) (h : Held) (cs : Sections) (vs : List CView) : (Dev.loadTable d slot h cs vs).ddr = d.ddr := by
  unfold Dev.loadTable
  repeat' first
    | with_reducible rfl
    | simp only [Dev.wr_ddr]
    | dsimp only
    | split
    | (refine (foldl_ddr _ _ _ ?_).trans ?_ <;> try intro _ _)
    | (refine (foldl_ddr1 _ _ _ ?_).trans ?_ <;> try intro _ _)

@[simp] theorem Dev.bindCanvas_ddr (d : Dev) (j : Job) (h : Held) (p : CanvasPlace) : (Dev.bindCanvas d j h p).ddr = d.ddr := by
  unfold Dev.bindCanvas
  repeat' first
    | with_reducible rfl
    | simp only [Dev.setHold_ddr, Dev.setIdle_ddr, Dev.wr_ddr, Dev.wrs_ddr]
    | dsimp only
    | split
    | (refine (foldl_ddr _ _ _ ?_).trans ?_ <;> try intro _ _)
    | (refine (foldl_ddr1 _ _ _ ?_).trans ?_ <;> try intro _ _)

@[simp] theorem Dev.setCarriers_ddr (d : Dev) (h : Held) (cs : Sections) (vs : List CView) : (Dev.setCarriers d h cs vs).ddr = d.ddr := by
  unfold Dev.setCarriers
  repeat' first
    | with_reducible rfl
    | simp only [Dev.wr_ddr]
    | dsimp only
    | split
    | (refine (foldl_ddr _ _ _ ?_).trans ?_ <;> try intro _ _)
    | (refine (foldl_ddr1 _ _ _ ?_).trans ?_ <;> try intro _ _)

@[simp] theorem Dev.setStreams_ddr (d : Dev) (h : Held) (cs : Sections) : (Dev.setStreams d h cs).ddr = d.ddr := by
  unfold Dev.setStreams
  repeat' first
    | with_reducible rfl
    | simp only [Dev.setStream_ddr, Dev.wrs_ddr]
    | dsimp only
    | split
    | (refine (foldl_ddr _ _ _ ?_).trans ?_ <;> try intro _ _)
    | (refine (foldl_ddr1 _ _ _ ?_).trans ?_ <;> try intro _ _)

@[simp] theorem Dev.setDefs_ddr (d : Dev) (h : Held) (cs : Sections) : (Dev.setDefs d h cs).ddr = d.ddr := by
  unfold Dev.setDefs
  repeat' first
    | with_reducible rfl
    | simp only [Dev.wrs_ddr]
    | dsimp only
    | split
    | (refine (foldl_ddr _ _ _ ?_).trans ?_ <;> try intro _ _)
    | (refine (foldl_ddr1 _ _ _ ?_).trans ?_ <;> try intro _ _)

@[simp] theorem Dev.setChannels_ddr (d : Dev) (slot : Nat) (cs : Sections) : (Dev.setChannels d slot cs).ddr = d.ddr := by
  unfold Dev.setChannels
  repeat' first
    | with_reducible rfl
    | simp only [Dev.wr_ddr, Dev.wrs_ddr]
    | dsimp only
    | split
    | (refine (foldl_ddr _ _ _ ?_).trans ?_ <;> try intro _ _)
    | (refine (foldl_ddr1 _ _ _ ?_).trans ?_ <;> try intro _ _)

@[simp] theorem Dev.setCores_ddr (d : Dev) (j : Job) (h : Held) : (Dev.setCores d j h).ddr = d.ddr := by
  unfold Dev.setCores
  repeat' first
    | with_reducible rfl
    | simp only [Dev.setCore_ddr, Dev.wrs_ddr]
    | dsimp only
    | split
    | (refine (foldl_ddr _ _ _ ?_).trans ?_ <;> try intro _ _)
    | (refine (foldl_ddr1 _ _ _ ?_).trans ?_ <;> try intro _ _)

@[simp] theorem Dev.bumpRuns_ddr (d : Dev) (h : Held) : (Dev.bumpRuns d h).ddr = d.ddr := by
  unfold Dev.bumpRuns
  repeat' first
    | with_reducible rfl
    | simp only [Dev.routine_ddr]
    | dsimp only
    | split
    | (refine (foldl_ddr _ _ _ ?_).trans ?_ <;> try intro _ _)
    | (refine (foldl_ddr1 _ _ _ ?_).trans ?_ <;> try intro _ _)

@[simp] theorem Dev.settle_ddr (d : Dev) (j : Job) : (Dev.settle d j).ddr = d.ddr := by
  unfold Dev.settle
  repeat' first
    | with_reducible rfl
    | simp only [Dev.bindCanvas_ddr, Dev.loadStores_ddr, Dev.loadTable_ddr, Dev.modJob_ddr, Dev.setCarriers_ddr, Dev.setChannels_ddr, Dev.setCores_ddr, Dev.setDefs_ddr, Dev.setRoutes_ddr, Dev.setStreams_ddr, Dev.wr_ddr]
    | dsimp only
    | split
    | (refine (foldl_ddr _ _ _ ?_).trans ?_ <;> try intro _ _)
    | (refine (foldl_ddr1 _ _ _ ?_).trans ?_ <;> try intro _ _)

@[simp] theorem Dev.backToSpares_ddr (d : Dev) (u : UnitRef) (key : Nat) (v : Nat) (bit : Nat) : (Dev.backToSpares d u key v bit).ddr = d.ddr := by
  unfold Dev.backToSpares
  repeat' first
    | with_reducible rfl
    | simp only [Dev.wrBit_ddr, Dev.wr_ddr]
    | dsimp only
    | split
    | (refine (foldl_ddr _ _ _ ?_).trans ?_ <;> try intro _ _)
    | (refine (foldl_ddr1 _ _ _ ?_).trans ?_ <;> try intro _ _)

@[simp] theorem Dev.returnSpares_ddr (d : Dev) : (Dev.returnSpares d).ddr = d.ddr := by
  unfold Dev.returnSpares
  repeat' first
    | with_reducible rfl
    | simp only [Dev.backToSpares_ddr, Dev.refreshUnits_ddr, Dev.wr_ddr, Dev.wrs_ddr]
    | dsimp only
    | split
    | (refine (foldl_ddr _ _ _ ?_).trans ?_ <;> try intro _ _)
    | (refine (foldl_ddr1 _ _ _ ?_).trans ?_ <;> try intro _ _)

@[simp] theorem Dev.unwr_ddr (d : Dev) (key : Nat) : (Dev.unwr d key).ddr = d.ddr := by
  unfold Dev.unwr
  repeat' first
    | with_reducible rfl
    | simp only [Dev.wr_ddr]
    | dsimp only
    | split
    | (refine (foldl_ddr _ _ _ ?_).trans ?_ <;> try intro _ _)
    | (refine (foldl_ddr1 _ _ _ ?_).trans ?_ <;> try intro _ _)

@[simp] theorem Dev.unbindCanvas_ddr (d : Dev) (p : CanvasPlace) : (Dev.unbindCanvas d p).ddr = d.ddr := by
  unfold Dev.unbindCanvas
  repeat' first
    | with_reducible rfl
    | simp only [Dev.setHold_ddr, Dev.setIdle_ddr, Dev.setThread_ddr, Dev.unwr_ddr]
    | dsimp only
    | split
    | (refine (foldl_ddr _ _ _ ?_).trans ?_ <;> try intro _ _)
    | (refine (foldl_ddr1 _ _ _ ?_).trans ?_ <;> try intro _ _)

@[simp] theorem Dev.release_ddr (d : Dev) (j : Job) : (Dev.release d j).ddr = d.ddr := by
  unfold Dev.release
  repeat' first
    | with_reducible rfl
    | simp only [Dev.freeChannel_ddr, Dev.modJob_ddr, Dev.returnSpares_ddr, Dev.setCore_ddr, Dev.setStream_ddr, Dev.unbindCanvas_ddr, Dev.unwr_ddr, Dev.wr_ddr]
    | dsimp only
    | split
    | (refine (foldl_ddr _ _ _ ?_).trans ?_ <;> try intro _ _)
    | (refine (foldl_ddr1 _ _ _ ?_).trans ?_ <;> try intro _ _)

@[simp] theorem ledgerFinalOp_ddr (job : Nat) (d : Dev) : (ledgerFinalOp job d).ddr = d.ddr := by
  unfold ledgerFinalOp
  repeat' first
    | with_reducible rfl
    | simp only [Dev.modJob_ddr, Dev.refreshHeld_ddr]
    | dsimp only
    | split
    | (refine (foldl_ddr _ _ _ ?_).trans ?_ <;> try intro _ _)
    | (refine (foldl_ddr1 _ _ _ ?_).trans ?_ <;> try intro _ _)

@[simp] theorem Dev.putPacket_ddr (d : Dev) (p : Packet) : (Dev.putPacket d p).ddr = d.ddr := by
  unfold Dev.putPacket
  repeat' first
    | with_reducible rfl
    | dsimp only
    | split
    | (refine (foldl_ddr _ _ _ ?_).trans ?_ <;> try intro _ _)
    | (refine (foldl_ddr1 _ _ _ ?_).trans ?_ <;> try intro _ _)

@[simp] theorem qrsPacketSendOp_ddr (flow : Nat) (d : Dev) : (qrsPacketSendOp flow d).ddr = d.ddr := by
  unfold qrsPacketSendOp
  repeat' first
    | with_reducible rfl
    | simp only [Dev.modJob_ddr, Dev.putPacket_ddr]
    | dsimp only
    | split
    | (refine (foldl_ddr _ _ _ ?_).trans ?_ <;> try intro _ _)
    | (refine (foldl_ddr1 _ _ _ ?_).trans ?_ <;> try intro _ _)

@[simp] theorem Dev.requeue_ddr (d : Dev) (p : Packet → Bool) : (Dev.requeue d p).ddr = d.ddr := by
  unfold Dev.requeue
  repeat' first
    | with_reducible rfl
    | dsimp only
    | split
    | (refine (foldl_ddr _ _ _ ?_).trans ?_ <;> try intro _ _)
    | (refine (foldl_ddr1 _ _ _ ?_).trans ?_ <;> try intro _ _)

@[simp] theorem resultResendOp_ddr (job : Option Nat) (d : Dev) : (resultResendOp job d).ddr = d.ddr := by
  unfold resultResendOp
  repeat' first
    | with_reducible rfl
    | simp only [Dev.modJob_ddr, Dev.requeue_ddr]
    | dsimp only
    | split
    | (refine (foldl_ddr _ _ _ ?_).trans ?_ <;> try intro _ _)
    | (refine (foldl_ddr1 _ _ _ ?_).trans ?_ <;> try intro _ _)

@[simp] theorem Dev.leave_ddr (d : Dev) (seq : Nat) : (Dev.leave d seq).ddr = d.ddr := by
  unfold Dev.leave
  repeat' first
    | with_reducible rfl
    | simp only [Dev.refreshHeld_ddr, Dev.wr_ddr]
    | dsimp only
    | split
    | (refine (foldl_ddr _ _ _ ?_).trans ?_ <;> try intro _ _)
    | (refine (foldl_ddr1 _ _ _ ?_).trans ?_ <;> try intro _ _)

@[simp] theorem Dev.leaveIfDone_ddr (d : Dev) (seq : Nat) : (Dev.leaveIfDone d seq).ddr = d.ddr := by
  unfold Dev.leaveIfDone
  repeat' first
    | with_reducible rfl
    | simp only [Dev.leave_ddr]
    | dsimp only
    | split
    | (refine (foldl_ddr _ _ _ ?_).trans ?_ <;> try intro _ _)
    | (refine (foldl_ddr1 _ _ _ ?_).trans ?_ <;> try intro _ _)

@[simp] theorem Dev.leaveRefused_ddr (d : Dev) : (Dev.leaveRefused d).ddr = d.ddr := by
  unfold Dev.leaveRefused
  repeat' first
    | with_reducible rfl
    | simp only [Dev.leave_ddr]
    | dsimp only
    | split
    | (refine (foldl_ddr _ _ _ ?_).trans ?_ <;> try intro _ _)
    | (refine (foldl_ddr1 _ _ _ ?_).trans ?_ <;> try intro _ _)

@[simp] theorem Dev.ackPair_ddr (d : Dev) (seq : Nat) (through : Nat) : (Dev.ackPair d seq through).ddr = d.ddr := by
  unfold Dev.ackPair
  repeat' first
    | with_reducible rfl
    | simp only [Dev.hostFlag_ddr, Dev.leaveIfDone_ddr, Dev.leaveRefused_ddr, Dev.modJob_ddr, Dev.refreshHeld_ddr]
    | dsimp only
    | split
    | (refine (foldl_ddr _ _ _ ?_).trans ?_ <;> try intro _ _)
    | (refine (foldl_ddr1 _ _ _ ?_).trans ?_ <;> try intro _ _)

@[simp] theorem ledgerReleaseOp_ddr (seq : Nat) (d : Dev) : (ledgerReleaseOp seq d).ddr = d.ddr := by
  unfold ledgerReleaseOp
  repeat' first
    | with_reducible rfl
    | simp only [Dev.conflict_ddr, Dev.leave_ddr]
    | dsimp only
    | split
    | (refine (foldl_ddr _ _ _ ?_).trans ?_ <;> try intro _ _)
    | (refine (foldl_ddr1 _ _ _ ?_).trans ?_ <;> try intro _ _)

@[simp] theorem bbReleaseOp_ddr (no : Nat) (d : Dev) : (bbReleaseOp no d).ddr = d.ddr := by
  unfold bbReleaseOp
  repeat' first
    | with_reducible rfl
    | simp only [Dev.bbObjects_ddr]
    | dsimp only
    | split
    | (refine (foldl_ddr _ _ _ ?_).trans ?_ <;> try intro _ _)
    | (refine (foldl_ddr1 _ _ _ ?_).trans ?_ <;> try intro _ _)

@[simp] theorem Dev.endJob_ddr (d : Dev) (seq : Nat) (st : JobState) (cause : Nat) : (Dev.endJob d seq st cause).ddr = d.ddr := by
  unfold Dev.endJob
  repeat' first
    | with_reducible rfl
    | simp only [Dev.modJob_ddr, Dev.syncState_ddr]
    | dsimp only
    | split
    | (refine (foldl_ddr _ _ _ ?_).trans ?_ <;> try intro _ _)
    | (refine (foldl_ddr1 _ _ _ ?_).trans ?_ <;> try intro _ _)

@[simp] theorem Dev.stopJob_ddr (d : Dev) (seq : Nat) : (Dev.stopJob d seq).ddr = d.ddr := by
  unfold Dev.stopJob
  repeat' first
    | with_reducible rfl
    | simp only [Dev.endJob_ddr, Dev.release_ddr, Dev.report_ddr]
    | dsimp only
    | split
    | (refine (foldl_ddr _ _ _ ?_).trans ?_ <;> try intro _ _)
    | (refine (foldl_ddr1 _ _ _ ?_).trans ?_ <;> try intro _ _)

@[simp] theorem Dev.stopAt_ddr (d : Dev) (seq : Nat) (cause : Nat) : (Dev.stopAt d seq cause).ddr = d.ddr := by
  unfold Dev.stopAt
  repeat' first
    | with_reducible rfl
    | simp only [Dev.modJob_ddr, Dev.stopJob_ddr]
    | dsimp only
    | split
    | (refine (foldl_ddr _ _ _ ?_).trans ?_ <;> try intro _ _)
    | (refine (foldl_ddr1 _ _ _ ?_).trans ?_ <;> try intro _ _)

@[simp] theorem Dev.discard_ddr (d : Dev) (seq : Nat) (cause : Nat) : (Dev.discard d seq cause).ddr = d.ddr := by
  unfold Dev.discard
  repeat' first
    | with_reducible rfl
    | simp only [Dev.bbWrite_ddr, Dev.drainTrap_ddr, Dev.flag_ddr, Dev.modJob_ddr]
    | dsimp only
    | split
    | (refine (foldl_ddr _ _ _ ?_).trans ?_ <;> try intro _ _)
    | (refine (foldl_ddr1 _ _ _ ?_).trans ?_ <;> try intro _ _)

@[simp] theorem Dev.addDue_ddr (d : Dev) (u : UnitRef) : (Dev.addDue d u).ddr = d.ddr := by
  unfold Dev.addDue
  repeat' first
    | with_reducible rfl
    | dsimp only
    | split
    | (refine (foldl_ddr _ _ _ ?_).trans ?_ <;> try intro _ _)
    | (refine (foldl_ddr1 _ _ _ ?_).trans ?_ <;> try intro _ _)

@[simp] theorem Dev.noSpare_ddr (d : Dev) (us : List Job) : (Dev.noSpare d us).ddr = d.ddr := by
  unfold Dev.noSpare
  repeat' first
    | with_reducible rfl
    | simp only [Dev.enterFaulted_ddr, Dev.flag_ddr, Dev.stopAt_ddr]
    | dsimp only
    | split
    | (refine (foldl_ddr _ _ _ ?_).trans ?_ <;> try intro _ _)
    | (refine (foldl_ddr1 _ _ _ ?_).trans ?_ <;> try intro _ _)

@[simp] theorem Dev.retireServer_ddr (d : Dev) (u : UnitRef) : (Dev.retireServer d u).ddr = d.ddr := by
  unfold Dev.retireServer
  repeat' first
    | with_reducible rfl
    | simp only [Dev.addDue_ddr, Dev.discard_ddr, Dev.noSpare_ddr, Dev.wrBit_ddr, Dev.wr_ddr]
    | dsimp only
    | split
    | (refine (foldl_ddr _ _ _ ?_).trans ?_ <;> try intro _ _)
    | (refine (foldl_ddr1 _ _ _ ?_).trans ?_ <;> try intro _ _)

@[simp] theorem Dev.retireFixed_ddr (d : Dev) (u : UnitRef) : (Dev.retireFixed d u).ddr = d.ddr := by
  unfold Dev.retireFixed
  repeat' first
    | with_reducible rfl
    | simp only [Dev.discard_ddr, Dev.noSpare_ddr]
    | dsimp only
    | split
    | (refine (foldl_ddr _ _ _ ?_).trans ?_ <;> try intro _ _)
    | (refine (foldl_ddr1 _ _ _ ?_).trans ?_ <;> try intro _ _)

@[simp] theorem Dev.reroute_ddr (d : Dev) (k : Nat) : (Dev.reroute d k).ddr = d.ddr := by
  unfold Dev.reroute
  repeat' first
    | with_reducible rfl
    | simp only [Dev.addDue_ddr, Dev.flag_ddr, Dev.setRoutes_ddr]
    | dsimp only
    | split
    | (refine (foldl_ddr _ _ _ ?_).trans ?_ <;> try intro _ _)
    | (refine (foldl_ddr1 _ _ _ ?_).trans ?_ <;> try intro _ _)

@[simp] theorem Dev.loseResults_ddr (d : Dev) (c : Nat) : (Dev.loseResults d c).ddr = d.ddr := by
  unfold Dev.loseResults
  repeat' first
    | with_reducible rfl
    | simp only [Dev.bbWrite_ddr, Dev.flag_ddr, Dev.modJob_ddr, Dev.refreshHeld_ddr]
    | dsimp only
    | split
    | (refine (foldl_ddr _ _ _ ?_).trans ?_ <;> try intro _ _)
    | (refine (foldl_ddr1 _ _ _ ?_).trans ?_ <;> try intro _ _)

@[simp] theorem Dev.retireSlice_ddr (d : Dev) (n : Nat) (s : Nat) : (Dev.retireSlice d n s).1.ddr = d.ddr := by
  unfold Dev.retireSlice
  repeat' first
    | with_reducible rfl
    | simp only [Dev.flag_ddr, Dev.wrs_ddr]
    | dsimp only
    | split
    | (refine (foldl_ddr _ _ _ ?_).trans ?_ <;> try intro _ _)
    | (refine (foldl_ddr1 _ _ _ ?_).trans ?_ <;> try intro _ _)

@[simp] theorem Dev.retireEffect_ddr (d : Dev) (u : UnitRef) : (Dev.retireEffect d u).ddr = d.ddr := by
  unfold Dev.retireEffect
  repeat' first
    | with_reducible rfl
    | simp only [Dev.dropLink_ddr, Dev.flag_ddr, Dev.loseResults_ddr, Dev.report_ddr, Dev.reroute_ddr, Dev.retireFixed_ddr, Dev.retireServer_ddr, Dev.retireSlice_ddr, Dev.wr_ddr]
    | dsimp only
    | split
    | (refine (foldl_ddr _ _ _ ?_).trans ?_ <;> try intro _ _)
    | (refine (foldl_ddr1 _ _ _ ?_).trans ?_ <;> try intro _ _)

@[simp] theorem Dev.recordRetired_ddr (d : Dev) (u : UnitRef) (row : Nat) : (Dev.recordRetired d u row).ddr = d.ddr := by
  unfold Dev.recordRetired
  repeat' first
    | with_reducible rfl
    | simp only [Dev.bbWrite_ddr, Dev.flag_ddr, Dev.produce_ddr, Dev.refreshUnits_ddr]
    | dsimp only
    | split
    | (refine (foldl_ddr _ _ _ ?_).trans ?_ <;> try intro _ _)
    | (refine (foldl_ddr1 _ _ _ ?_).trans ?_ <;> try intro _ _)

@[simp] theorem Dev.retireUnit_ddr (d : Dev) (u : UnitRef) (row : Nat) : (Dev.retireUnit d u row).ddr = d.ddr := by
  unfold Dev.retireUnit
  repeat' first
    | with_reducible rfl
    | simp only [Dev.pathOut_ddr, Dev.recordRetired_ddr, Dev.refreshUnits_ddr, Dev.retireEffect_ddr]
    | dsimp only
    | split
    | (refine (foldl_ddr _ _ _ ?_).trans ?_ <;> try intro _ _)
    | (refine (foldl_ddr1 _ _ _ ?_).trans ?_ <;> try intro _ _)

@[simp] theorem Dev.takeDrain_ddr (d : Dev) (m : LatMsg) : (Dev.takeDrain d m).ddr = d.ddr := by
  unfold Dev.takeDrain
  repeat' first
    | with_reducible rfl
    | simp only [Dev.wr_ddr]
    | dsimp only
    | split
    | (refine (foldl_ddr _ _ _ ?_).trans ?_ <;> try intro _ _)
    | (refine (foldl_ddr1 _ _ _ ?_).trans ?_ <;> try intro _ _)

@[simp] theorem Dev.sendDrain_ddr (d : Dev) (m : LatMsg) : (Dev.sendDrain d m).ddr = d.ddr := by
  unfold Dev.sendDrain
  repeat' first
    | with_reducible rfl
    | simp only [Dev.sendMsg_ddr, Dev.takeDrain_ddr]
    | dsimp only
    | split
    | (refine (foldl_ddr _ _ _ ?_).trans ?_ <;> try intro _ _)
    | (refine (foldl_ddr1 _ _ _ ?_).trans ?_ <;> try intro _ _)

@[simp] theorem Dev.resendDrains_ddr (d : Dev) : (Dev.resendDrains d).ddr = d.ddr := by
  unfold Dev.resendDrains
  repeat' first
    | with_reducible rfl
    | simp only [Dev.sendDrain_ddr]
    | dsimp only
    | split
    | (refine (foldl_ddr _ _ _ ?_).trans ?_ <;> try intro _ _)
    | (refine (foldl_ddr1 _ _ _ ?_).trans ?_ <;> try intro _ _)

end Sys2Proof.Machine
end

