-- ==== Sys2Proof/Laws/MemF.lean ====
section
/-! SUPPORT. What each operation does to the bytes of DDR4 (serial lanes, lattice time, applied words, calibration): most leave them, the few that store keep
their canonical form. One lemma per operation, cited by the laws of the step. -/

set_option linter.all false
set_option linter.unreachableTactic false
set_option linter.unusedTactic false

namespace Sys2Proof.Machine

@[simp] theorem Dev.setLane_ddr (d : Dev) (n : Nat) (l : Lane) : (Dev.setLane d n l).ddr = d.ddr := by
  unfold Dev.setLane
  repeat' first
    | with_reducible rfl
    | dsimp only
    | split
    | (refine (foldl_ddr _ _ _ ?_).trans ?_ <;> try intro _ _)
    | (refine (foldl_ddr1 _ _ _ ?_).trans ?_ <;> try intro _ _)

@[simp] theorem Dev.cellErr_ddr (d : Dev) (k : Nat) : (Dev.cellErr d k).ddr = d.ddr := by
  unfold Dev.cellErr
  repeat' first
    | with_reducible rfl
    | simp only [Dev.flag_ddr, Dev.setLane_ddr, Dev.setLink_ddr]
    | dsimp only
    | split
    | (refine (foldl_ddr _ _ _ ?_).trans ?_ <;> try intro _ _)
    | (refine (foldl_ddr1 _ _ _ ?_).trans ?_ <;> try intro _ _)

@[simp] theorem Dev.ackCells_ddr (d : Dev) (c : CellHdr) : (Dev.ackCells d c).ddr = d.ddr := by
  unfold Dev.ackCells
  repeat' first
    | with_reducible rfl
    | simp only [Dev.sendCells_ddr, Dev.setLink_ddr]
    | dsimp only
    | split
    | (refine (foldl_ddr _ _ _ ?_).trans ?_ <;> try intro _ _)
    | (refine (foldl_ddr1 _ _ _ ?_).trans ?_ <;> try intro _ _)

@[simp] theorem Dev.rxPlain_ddr (d : Dev) (c : CellHdr) : (Dev.rxPlain d c).1.ddr = d.ddr := by
  unfold Dev.rxPlain
  repeat' first
    | with_reducible rfl
    | simp only [Dev.ackCells_ddr, Dev.cellErr_ddr]
    | dsimp only
    | split
    | (refine (foldl_ddr _ _ _ ?_).trans ?_ <;> try intro _ _)
    | (refine (foldl_ddr1 _ _ _ ?_).trans ?_ <;> try intro _ _)

@[simp] theorem Dev.rxCell_ddr (d : Dev) (c : CellHdr) : (Dev.rxCell d c).1.ddr = d.ddr := by
  unfold Dev.rxCell
  repeat' first
    | with_reducible rfl
    | simp only [Dev.ackCells_ddr, Dev.cellErr_ddr, Dev.setLink_ddr]
    | dsimp only
    | split
    | (refine (foldl_ddr _ _ _ ?_).trans ?_ <;> try intro _ _)
    | (refine (foldl_ddr1 _ _ _ ?_).trans ?_ <;> try intro _ _)

@[simp] theorem idleOp_ddr (c : CellHdr) (d : Dev) : (idleOp c d).ddr = d.ddr := by
  unfold idleOp
  repeat' first
    | with_reducible rfl
    | simp only [Dev.rxPlain_ddr]
    | dsimp only
    | split
    | (refine (foldl_ddr _ _ _ ?_).trans ?_ <;> try intro _ _)
    | (refine (foldl_ddr1 _ _ _ ?_).trans ?_ <;> try intro _ _)

@[simp] theorem Dev.resendFrom_ddr (d : Dev) (k : Nat) (from_ : Nat) : (Dev.resendFrom d k from_).ddr = d.ddr := by
  unfold Dev.resendFrom
  repeat' first
    | with_reducible rfl
    | simp only [Dev.flagN_ddr, Dev.flag_ddr, Dev.setLink_ddr]
    | dsimp only
    | split
    | (refine (foldl_ddr _ _ _ ?_).trans ?_ <;> try intro _ _)
    | (refine (foldl_ddr1 _ _ _ ?_).trans ?_ <;> try intro _ _)

@[simp] theorem nakOp_ddr (c : CellHdr) (expected : Nat) (d : Dev) : (nakOp c expected d).ddr = d.ddr := by
  unfold nakOp
  repeat' first
    | with_reducible rfl
    | simp only [Dev.resendFrom_ddr, Dev.rxPlain_ddr]
    | dsimp only
    | split
    | (refine (foldl_ddr _ _ _ ?_).trans ?_ <;> try intro _ _)
    | (refine (foldl_ddr1 _ _ _ ?_).trans ?_ <;> try intro _ _)

@[simp] theorem resendTimeoutOp_ddr (k : Nat) (d : Dev) : (resendTimeoutOp k d).ddr = d.ddr := by
  unfold resendTimeoutOp
  repeat' first
    | with_reducible rfl
    | simp only [Dev.flag_ddr, Dev.resendFrom_ddr, Dev.setLink_ddr]
    | dsimp only
    | split
    | (refine (foldl_ddr _ _ _ ?_).trans ?_ <;> try intro _ _)
    | (refine (foldl_ddr1 _ _ _ ?_).trans ?_ <;> try intro _ _)

@[simp] theorem refreshOp_ddr (c : CellHdr) (vertical : Nat) (horizontal : Nat) (d : Dev) : (refreshOp c vertical horizontal d).ddr = d.ddr := by
  unfold refreshOp
  repeat' first
    | with_reducible rfl
    | simp only [Dev.rxPlain_ddr, Dev.wrs_ddr]
    | dsimp only
    | split
    | (refine (foldl_ddr _ _ _ ?_).trans ?_ <;> try intro _ _)
    | (refine (foldl_ddr1 _ _ _ ?_).trans ?_ <;> try intro _ _)

@[simp] theorem bulkHeadOp_ddr (c : CellHdr) (dst : Nat) (cells : Nat) (addr : Nat) (d : Dev) : (bulkHeadOp c dst cells addr d).ddr = d.ddr := by
  unfold bulkHeadOp
  repeat' first
    | with_reducible rfl
    | simp only [Dev.rxCell_ddr, Dev.setLink_ddr]
    | dsimp only
    | split
    | (refine (foldl_ddr _ _ _ ?_).trans ?_ <;> try intro _ _)
    | (refine (foldl_ddr1 _ _ _ ?_).trans ?_ <;> try intro _ _)

@[simp] theorem dataCellOp_ddr (k : Nat) (good : Bool) (invalid : List Nat) (bytes : List Byte) (d : Dev) : (dataCellOp k good invalid bytes d).ddr = d.ddr := by
  unfold dataCellOp
  repeat' first
    | with_reducible rfl
    | simp only [Dev.cellErr_ddr, Dev.flag_ddr, Dev.setLink_ddr]
    | dsimp only
    | split
    | (refine (foldl_ddr _ _ _ ?_).trans ?_ <;> try intro _ _)
    | (refine (foldl_ddr1 _ _ _ ?_).trans ?_ <;> try intro _ _)

@[simp] theorem peerSignalOp_ddr (k : Nat) (present : Bool) (d : Dev) : (peerSignalOp k present d).ddr = d.ddr := by
  unfold peerSignalOp
  repeat' first
    | with_reducible rfl
    | simp only [Dev.dropLink_ddr, Dev.refreshUnits_ddr, Dev.wr_ddr, Dev.wrs_ddr]
    | dsimp only
    | split
    | (refine (foldl_ddr _ _ _ ?_).trans ?_ <;> try intro _ _)
    | (refine (foldl_ddr1 _ _ _ ?_).trans ?_ <;> try intro _ _)

@[simp] theorem trainOp_ddr (c : CellHdr) (latticeId : Nat) (chip : Nat) (peerLink : Nat) (ready : Bool) (d : Dev) : (trainOp c latticeId chip peerLink ready d).ddr = d.ddr := by
  unfold trainOp
  repeat' first
    | with_reducible rfl
    | simp only [Dev.cellErr_ddr, Dev.setLink_ddr, Dev.wrs_ddr]
    | dsimp only
    | split
    | (refine (foldl_ddr _ _ _ ?_).trans ?_ <;> try intro _ _)
    | (refine (foldl_ddr1 _ _ _ ?_).trans ?_ <;> try intro _ _)

@[simp] theorem trainingCompleteOp_ddr (k : Nat) (d : Dev) : (trainingCompleteOp k d).ddr = d.ddr := by
  unfold trainingCompleteOp
  repeat' first
    | with_reducible rfl
    | simp only [Dev.wr_ddr]
    | dsimp only
    | split
    | (refine (foldl_ddr _ _ _ ?_).trans ?_ <;> try intro _ _)
    | (refine (foldl_ddr1 _ _ _ ?_).trans ?_ <;> try intro _ _)

@[simp] theorem alignOp_ddr (k : Nat) (order : List Nat) (inverted : List Bool) (skew : Nat) (good : Bool) (d : Dev) : (alignOp k order inverted skew good d).ddr = d.ddr := by
  unfold alignOp
  repeat' first
    | with_reducible rfl
    | simp only [Dev.cellErr_ddr, Dev.wrs_ddr]
    | dsimp only
    | split
    | (refine (foldl_ddr _ _ _ ?_).trans ?_ <;> try intro _ _)
    | (refine (foldl_ddr1 _ _ _ ?_).trans ?_ <;> try intro _ _)

@[simp] theorem Dev.trainFailed_ddr (d : Dev) (k : Nat) : (Dev.trainFailed d k).ddr = d.ddr := by
  unfold Dev.trainFailed
  repeat' first
    | with_reducible rfl
    | simp only [Dev.flag_ddr, Dev.retireUnit_ddr, Dev.setLink_ddr, Dev.wr_ddr]
    | dsimp only
    | split
    | (refine (foldl_ddr _ _ _ ?_).trans ?_ <;> try intro _ _)
    | (refine (foldl_ddr1 _ _ _ ?_).trans ?_ <;> try intro _ _)

@[simp] theorem lockCompleteOp_ddr (k : Nat) (skew : Nat) (d : Dev) : (lockCompleteOp k skew d).ddr = d.ddr := by
  unfold lockCompleteOp
  repeat' first
    | with_reducible rfl
    | simp only [Dev.trainFailed_ddr, Dev.wrs_ddr]
    | dsimp only
    | split
    | (refine (foldl_ddr _ _ _ ?_).trans ?_ <;> try intro _ _)
    | (refine (foldl_ddr1 _ _ _ ?_).trans ?_ <;> try intro _ _)

@[simp] theorem verifyCompleteOp_ddr (k : Nat) (errs : List Nat) (d : Dev) : (verifyCompleteOp k errs d).ddr = d.ddr := by
  unfold verifyCompleteOp
  repeat' first
    | with_reducible rfl
    | simp only [Dev.refreshUnits_ddr, Dev.retireUnit_ddr, Dev.setLink_ddr, Dev.trainFailed_ddr, Dev.wr_ddr, Dev.wrs_ddr]
    | dsimp only
    | split
    | (refine (foldl_ddr _ _ _ ?_).trans ?_ <;> try intro _ _)
    | (refine (foldl_ddr1 _ _ _ ?_).trans ?_ <;> try intro _ _)

@[simp] theorem trainFailOp_ddr (k : Nat) (d : Dev) : (trainFailOp k d).ddr = d.ddr := by
  unfold trainFailOp
  repeat' first
    | with_reducible rfl
    | simp only [Dev.trainFailed_ddr]
    | dsimp only
    | split
    | (refine (foldl_ddr _ _ _ ?_).trans ?_ <;> try intro _ _)
    | (refine (foldl_ddr1 _ _ _ ?_).trans ?_ <;> try intro _ _)

@[simp] theorem Dev.retrainLink_ddr (d : Dev) (k : Nat) : (Dev.retrainLink d k).ddr = d.ddr := by
  unfold Dev.retrainLink
  repeat' first
    | with_reducible rfl
    | simp only [Dev.dropLink_ddr, Dev.flag_ddr, Dev.refreshUnits_ddr, Dev.setLane_ddr, Dev.setLink_ddr, Dev.wrs_ddr]
    | dsimp only
    | split
    | (refine (foldl_ddr _ _ _ ?_).trans ?_ <;> try intro _ _)
    | (refine (foldl_ddr1 _ _ _ ?_).trans ?_ <;> try intro _ _)

@[simp] theorem Dev.retrainTick_ddr (d : Dev) : (Dev.retrainTick d).ddr = d.ddr := by
  unfold Dev.retrainTick
  repeat' first
    | with_reducible rfl
    | simp only [Dev.retrainLink_ddr]
    | dsimp only
    | split
    | (refine (foldl_ddr _ _ _ ?_).trans ?_ <;> try intro _ _)
    | (refine (foldl_ddr1 _ _ _ ?_).trans ?_ <;> try intro _ _)

@[simp] theorem linkDownOp_ddr (port : Nat) (d : Dev) : (linkDownOp port d).ddr = d.ddr := by
  unfold linkDownOp
  repeat' first
    | with_reducible rfl
    | simp only [Dev.flag_ddr, Dev.refreshUnits_ddr, Dev.wr_ddr]
    | dsimp only
    | split
    | (refine (foldl_ddr _ _ _ ?_).trans ?_ <;> try intro _ _)
    | (refine (foldl_ddr1 _ _ _ ?_).trans ?_ <;> try intro _ _)

@[simp] theorem Dev.portFound_ddr (d : Dev) (port : Nat) (errs : List Nat) (bers : List W32) (uncorr : Bool) : (Dev.portFound d port errs bers uncorr).ddr = d.ddr := by
  unfold Dev.portFound
  repeat' first
    | with_reducible rfl
    | simp only [Dev.flag_ddr, Dev.wrs_ddr]
    | dsimp only
    | split
    | (refine (foldl_ddr _ _ _ ?_).trans ?_ <;> try intro _ _)
    | (refine (foldl_ddr1 _ _ _ ?_).trans ?_ <;> try intro _ _)

@[simp] theorem linkUpOp_ddr (port : Nat) (errs : List Nat) (bers : List W32) (uncorr : Bool) (d : Dev) : (linkUpOp port errs bers uncorr d).ddr = d.ddr := by
  unfold linkUpOp
  repeat' first
    | with_reducible rfl
    | simp only [Dev.flag_ddr, Dev.portFound_ddr, Dev.refreshUnits_ddr, Dev.retireUnit_ddr, Dev.wr_ddr]
    | dsimp only
    | split
    | (refine (foldl_ddr _ _ _ ?_).trans ?_ <;> try intro _ _)
    | (refine (foldl_ddr1 _ _ _ ?_).trans ?_ <;> try intro _ _)

@[simp] theorem pauseOp_ddr (h : Nat) (d : Dev) : (pauseOp h d).ddr = d.ddr := by
  unfold pauseOp
  repeat' first
    | with_reducible rfl
    | simp only [Dev.flag_ddr]
    | dsimp only
    | split
    | (refine (foldl_ddr _ _ _ ?_).trans ?_ <;> try intro _ _)
    | (refine (foldl_ddr1 _ _ _ ?_).trans ?_ <;> try intro _ _)

@[simp] theorem pauseEndOp_ddr (h : Nat) (d : Dev) : (pauseEndOp h d).ddr = d.ddr := by
  unfold pauseEndOp
  repeat' first
    | with_reducible rfl
    | dsimp only
    | split
    | (refine (foldl_ddr _ _ _ ?_).trans ?_ <;> try intro _ _)
    | (refine (foldl_ddr1 _ _ _ ?_).trans ?_ <;> try intro _ _)

@[simp] theorem frameDropOp_ddr (port : Nat) (d : Dev) : (frameDropOp port d).ddr = d.ddr := by
  unfold frameDropOp
  repeat' first
    | with_reducible rfl
    | simp only [Dev.flag_ddr]
    | dsimp only
    | split
    | (refine (foldl_ddr _ _ _ ?_).trans ?_ <;> try intro _ _)
    | (refine (foldl_ddr1 _ _ _ ?_).trans ?_ <;> try intro _ _)

@[simp] theorem icmpEchoOp_ddr (port : Nat) (v6 : Bool) (d : Dev) : (icmpEchoOp port v6 d).ddr = d.ddr := by
  unfold icmpEchoOp
  repeat' first
    | with_reducible rfl
    | dsimp only
    | split
    | (refine (foldl_ddr _ _ _ ?_).trans ?_ <;> try intro _ _)
    | (refine (foldl_ddr1 _ _ _ ?_).trans ?_ <;> try intro _ _)

@[simp] theorem arpOp_ddr (port : Nat) (v6 : Bool) (d : Dev) : (arpOp port v6 d).ddr = d.ddr := by
  unfold arpOp
  repeat' first
    | with_reducible rfl
    | dsimp only
    | split
    | (refine (foldl_ddr _ _ _ ?_).trans ?_ <;> try intro _ _)
    | (refine (foldl_ddr1 _ _ _ ?_).trans ?_ <;> try intro _ _)

@[simp] theorem densityWindowOp_ddr (lane : Nat) (transitions : Nat) (d : Dev) : (densityWindowOp lane transitions d).ddr = d.ddr := by
  unfold densityWindowOp
  repeat' first
    | with_reducible rfl
    | simp only [Dev.flag_ddr, Dev.setLane_ddr, Dev.wr_ddr]
    | dsimp only
    | split
    | (refine (foldl_ddr _ _ _ ?_).trans ?_ <;> try intro _ _)
    | (refine (foldl_ddr1 _ _ _ ?_).trans ?_ <;> try intro _ _)

@[simp] theorem adaptSnapshotOp_ddr (lane : Nat) (values : List Nat) (d : Dev) : (adaptSnapshotOp lane values d).ddr = d.ddr := by
  unfold adaptSnapshotOp
  repeat' first
    | with_reducible rfl
    | simp only [Dev.setLane_ddr]
    | dsimp only
    | split
    | (refine (foldl_ddr _ _ _ ?_).trans ?_ <;> try intro _ _)
    | (refine (foldl_ddr1 _ _ _ ?_).trans ?_ <;> try intro _ _)

@[simp] theorem restoredOp_ddr (lane : Nat) (values : List Nat) (d : Dev) : (restoredOp lane values d).ddr = d.ddr := by
  unfold restoredOp
  repeat' first
    | with_reducible rfl
    | simp only [Dev.flag_ddr, Dev.setLane_ddr]
    | dsimp only
    | split
    | (refine (foldl_ddr _ _ _ ?_).trans ?_ <;> try intro _ _)
    | (refine (foldl_ddr1 _ _ _ ?_).trans ?_ <;> try intro _ _)

@[simp] theorem Dev.prbsStart_ddr (d : Dev) (lane : Nat) : (Dev.prbsStart d lane).ddr = d.ddr := by
  unfold Dev.prbsStart
  repeat' first
    | with_reducible rfl
    | simp only [Dev.setLane_ddr, Dev.wr_ddr]
    | dsimp only
    | split
    | (refine (foldl_ddr _ _ _ ?_).trans ?_ <;> try intro _ _)
    | (refine (foldl_ddr1 _ _ _ ?_).trans ?_ <;> try intro _ _)

@[simp] theorem Dev.prbsStop_ddr (d : Dev) (lane : Nat) : (Dev.prbsStop d lane).ddr = d.ddr := by
  unfold Dev.prbsStop
  repeat' first
    | with_reducible rfl
    | simp only [Dev.setLane_ddr]
    | dsimp only
    | split
    | (refine (foldl_ddr _ _ _ ?_).trans ?_ <;> try intro _ _)
    | (refine (foldl_ddr1 _ _ _ ?_).trans ?_ <;> try intro _ _)

@[simp] theorem Dev.prbsClear_ddr (d : Dev) (lane : Nat) : (Dev.prbsClear d lane).ddr = d.ddr := by
  unfold Dev.prbsClear
  repeat' first
    | with_reducible rfl
    | simp only [Dev.wrs_ddr]
    | dsimp only
    | split
    | (refine (foldl_ddr _ _ _ ?_).trans ?_ <;> try intro _ _)
    | (refine (foldl_ddr1 _ _ _ ?_).trans ?_ <;> try intro _ _)

@[simp] theorem Dev.injectSingle_ddr (d : Dev) (lane : Nat) : (Dev.injectSingle d lane).ddr = d.ddr := by
  unfold Dev.injectSingle
  repeat' first
    | with_reducible rfl
    | simp only [Dev.setLane_ddr, Dev.wr_ddr]
    | dsimp only
    | split
    | (refine (foldl_ddr _ _ _ ?_).trans ?_ <;> try intro _ _)
    | (refine (foldl_ddr1 _ _ _ ?_).trans ?_ <;> try intro _ _)

@[simp] theorem Dev.gzInject_ddr (d : Dev) (k : Nat) : (Dev.gzInject d k).ddr = d.ddr := by
  unfold Dev.gzInject
  repeat' first
    | with_reducible rfl
    | simp only [Dev.setLink_ddr]
    | dsimp only
    | split
    | (refine (foldl_ddr _ _ _ ?_).trans ?_ <;> try intro _ _)
    | (refine (foldl_ddr1 _ _ _ ?_).trans ?_ <;> try intro _ _)

@[simp] theorem Dev.portReadapt_ddr (d : Dev) (h : Nat) : (Dev.portReadapt d h).ddr = d.ddr := by
  unfold Dev.portReadapt
  repeat' first
    | with_reducible rfl
    | simp only [Dev.flag_ddr, Dev.refreshUnits_ddr, Dev.wr_ddr]
    | dsimp only
    | split
    | (refine (foldl_ddr _ _ _ ?_).trans ?_ <;> try intro _ _)
    | (refine (foldl_ddr1 _ _ _ ?_).trans ?_ <;> try intro _ _)

@[simp] theorem Dev.prbsLane_ddr (d : Dev) (lane : Nat) : (Dev.prbsLane d lane).ddr = d.ddr := by
  unfold Dev.prbsLane
  repeat' first
    | with_reducible rfl
    | simp only [Dev.setLane_ddr, Dev.wrs_ddr]
    | dsimp only
    | split
    | (refine (foldl_ddr _ _ _ ?_).trans ?_ <;> try intro _ _)
    | (refine (foldl_ddr1 _ _ _ ?_).trans ?_ <;> try intro _ _)

@[simp] theorem Dev.prbsTick_ddr (d : Dev) : (Dev.prbsTick d).ddr = d.ddr := by
  unfold Dev.prbsTick
  repeat' first
    | with_reducible rfl
    | simp only [Dev.prbsLane_ddr]
    | dsimp only
    | split
    | (refine (foldl_ddr _ _ _ ?_).trans ?_ <;> try intro _ _)
    | (refine (foldl_ddr1 _ _ _ ?_).trans ?_ <;> try intro _ _)

@[simp] theorem Dev.cellSlot_ddr (d : Dev) (k : Nat) : (Dev.cellSlot d k).ddr = d.ddr := by
  unfold Dev.cellSlot
  repeat' first
    | with_reducible rfl
    | simp only [Dev.setLane_ddr, Dev.setLink_ddr]
    | dsimp only
    | split
    | (refine (foldl_ddr _ _ _ ?_).trans ?_ <;> try intro _ _)
    | (refine (foldl_ddr1 _ _ _ ?_).trans ?_ <;> try intro _ _)

@[simp] theorem Dev.cellTick_ddr (d : Dev) : (Dev.cellTick d).ddr = d.ddr := by
  unfold Dev.cellTick
  repeat' first
    | with_reducible rfl
    | simp only [Dev.cellSlot_ddr, Dev.setLink_ddr]
    | dsimp only
    | split
    | (refine (foldl_ddr _ _ _ ?_).trans ?_ <;> try intro _ _)
    | (refine (foldl_ddr1 _ _ _ ?_).trans ?_ <;> try intro _ _)

@[simp] theorem pllLockOp_ddr (d : Dev) : (pllLockOp d).ddr = d.ddr := by
  unfold pllLockOp
  repeat' first
    | with_reducible rfl
    | simp only [Dev.wrBit_ddr]
    | dsimp only
    | split
    | (refine (foldl_ddr _ _ _ ?_).trans ?_ <;> try intro _ _)
    | (refine (foldl_ddr1 _ _ _ ?_).trans ?_ <;> try intro _ _)

@[simp] theorem pllUnlockOp_ddr (d : Dev) : (pllUnlockOp d).ddr = d.ddr := by
  unfold pllUnlockOp
  repeat' first
    | with_reducible rfl
    | simp only [Dev.enterFaulted_ddr, Dev.flag_ddr, Dev.wrBit_ddr]
    | dsimp only
    | split
    | (refine (foldl_ddr _ _ _ ?_).trans ?_ <;> try intro _ _)
    | (refine (foldl_ddr1 _ _ _ ?_).trans ?_ <;> try intro _ _)

@[simp] theorem refLossOp_ddr (d : Dev) : (refLossOp d).ddr = d.ddr := by
  unfold refLossOp
  repeat' first
    | with_reducible rfl
    | simp only [Dev.flag_ddr, Dev.spoilAll_ddr, Dev.wrBit_ddr]
    | dsimp only
    | split
    | (refine (foldl_ddr _ _ _ ?_).trans ?_ <;> try intro _ _)
    | (refine (foldl_ddr1 _ _ _ ?_).trans ?_ <;> try intro _ _)

@[simp] theorem refToleranceOp_ddr (offset : Int) (d : Dev) : (refToleranceOp offset d).ddr = d.ddr := by
  unfold refToleranceOp
  repeat' first
    | with_reducible rfl
    | simp only [Dev.flag_ddr, Dev.wrBit_ddr, Dev.wr_ddr, refLossOp_ddr]
    | dsimp only
    | split
    | (refine (foldl_ddr _ _ _ ?_).trans ?_ <;> try intro _ _)
    | (refine (foldl_ddr1 _ _ _ ?_).trans ?_ <;> try intro _ _)

@[simp] theorem Dev.loadEpoch_ddr (d : Dev) (new : Nat) : (Dev.loadEpoch d new).ddr = d.ddr := by
  unfold Dev.loadEpoch
  repeat' first
    | with_reducible rfl
    | simp only [Dev.wr_ddr]
    | dsimp only
    | split
    | (refine (foldl_ddr _ _ _ ?_).trans ?_ <;> try intro _ _)
    | (refine (foldl_ddr1 _ _ _ ?_).trans ?_ <;> try intro _ _)

@[simp] theorem syncInOp_ddr (d : Dev) : (syncInOp d).ddr = d.ddr := by
  unfold syncInOp
  repeat' first
    | with_reducible rfl
    | simp only [Dev.flag_ddr, Dev.wr_ddr]
    | dsimp only
    | split
    | (refine (foldl_ddr _ _ _ ?_).trans ?_ <;> try intro _ _)
    | (refine (foldl_ddr1 _ _ _ ?_).trans ?_ <;> try intro _ _)

@[simp] theorem syncOutPulseOp_ddr (d : Dev) : (syncOutPulseOp d).ddr = d.ddr := by
  unfold syncOutPulseOp
  repeat' first
    | with_reducible rfl
    | dsimp only
    | split
    | (refine (foldl_ddr _ _ _ ?_).trans ?_ <;> try intro _ _)
    | (refine (foldl_ddr1 _ _ _ ?_).trans ?_ <;> try intro _ _)

@[simp] theorem Dev.anchor_ddr (d : Dev) (seconds : Nat) (nanos : Nat) : (Dev.anchor d seconds nanos).ddr = d.ddr := by
  unfold Dev.anchor
  repeat' first
    | with_reducible rfl
    | simp only [Dev.wrBit_ddr, Dev.wrs_ddr]
    | dsimp only
    | split
    | (refine (foldl_ddr _ _ _ ?_).trans ?_ <;> try intro _ _)
    | (refine (foldl_ddr1 _ _ _ ?_).trans ?_ <;> try intro _ _)

@[simp] theorem ppsInOp_ddr (d : Dev) : (ppsInOp d).ddr = d.ddr := by
  unfold ppsInOp
  repeat' first
    | with_reducible rfl
    | simp only [Dev.anchor_ddr, Dev.produce_ddr, Dev.wrBit_ddr]
    | dsimp only
    | split
    | (refine (foldl_ddr _ _ _ ?_).trans ?_ <;> try intro _ _)
    | (refine (foldl_ddr1 _ _ _ ?_).trans ?_ <;> try intro _ _)

@[simp] theorem ptpSyncOp_ddr (domain : Nat) (seconds : Nat) (nanos : Nat) (rate : Int) (d : Dev) : (ptpSyncOp domain seconds nanos rate d).ddr = d.ddr := by
  unfold ptpSyncOp
  repeat' first
    | with_reducible rfl
    | simp only [Dev.anchor_ddr, Dev.wr_ddr]
    | dsimp only
    | split
    | (refine (foldl_ddr _ _ _ ?_).trans ?_ <;> try intro _ _)
    | (refine (foldl_ddr1 _ _ _ ?_).trans ?_ <;> try intro _ _)

@[simp] theorem ptpAnnounceOp_ddr (domain : Nat) (utcOffset : Int) (d : Dev) : (ptpAnnounceOp domain utcOffset d).ddr = d.ddr := by
  unfold ptpAnnounceOp
  repeat' first
    | with_reducible rfl
    | simp only [Dev.wrBit_ddr, Dev.wr_ddr]
    | dsimp only
    | split
    | (refine (foldl_ddr _ _ _ ?_).trans ?_ <;> try intro _ _)
    | (refine (foldl_ddr1 _ _ _ ?_).trans ?_ <;> try intro _ _)

@[simp] theorem Dev.setPath_ddr (d : Dev) (sec : Bool) (p : PathSt) : (Dev.setPath d sec p).ddr = d.ddr := by
  unfold Dev.setPath
  repeat' first
    | with_reducible rfl
    | dsimp only
    | split
    | (refine (foldl_ddr _ _ _ ?_).trans ?_ <;> try intro _ _)
    | (refine (foldl_ddr1 _ _ _ ?_).trans ?_ <;> try intro _ _)

@[simp] theorem Dev.clockSource_ddr (d : Dev) (disciplined : Bool) (holdover : Bool) : (Dev.clockSource d disciplined holdover).ddr = d.ddr := by
  unfold Dev.clockSource
  repeat' first
    | with_reducible rfl
    | simp only [Dev.wrBit_ddr]
    | dsimp only
    | split
    | (refine (foldl_ddr _ _ _ ?_).trans ?_ <;> try intro _ _)
    | (refine (foldl_ddr1 _ _ _ ?_).trans ?_ <;> try intro _ _)

@[simp] theorem Dev.enterRoot_ddr (d : Dev) (rank : Nat) : (Dev.enterRoot d rank).ddr = d.ddr := by
  unfold Dev.enterRoot
  repeat' first
    | with_reducible rfl
    | simp only [Dev.clockSource_ddr, Dev.wrs_ddr]
    | dsimp only
    | split
    | (refine (foldl_ddr _ _ _ ?_).trans ?_ <;> try intro _ _)
    | (refine (foldl_ddr1 _ _ _ ?_).trans ?_ <;> try intro _ _)

@[simp] theorem Dev.enterListening_ddr (d : Dev) : (Dev.enterListening d).ddr = d.ddr := by
  unfold Dev.enterListening
  repeat' first
    | with_reducible rfl
    | simp only [Dev.clockSource_ddr, Dev.wr_ddr]
    | dsimp only
    | split
    | (refine (foldl_ddr _ _ _ ?_).trans ?_ <;> try intro _ _)
    | (refine (foldl_ddr1 _ _ _ ?_).trans ?_ <;> try intro _ _)

@[simp] theorem Dev.latticeConfig_ddr (d : Dev) : (Dev.latticeConfig d).ddr = d.ddr := by
  unfold Dev.latticeConfig
  repeat' first
    | with_reducible rfl
    | simp only [Dev.clockSource_ddr, Dev.enterListening_ddr, Dev.enterRoot_ddr]
    | dsimp only
    | split
    | (refine (foldl_ddr _ _ _ ?_).trans ?_ <;> try intro _ _)
    | (refine (foldl_ddr1 _ _ _ ?_).trans ?_ <;> try intro _ _)

@[simp] theorem Dev.oneWay_ddr (d : Dev) (k : Nat) : (Dev.oneWay d k).ddr = d.ddr := by
  unfold Dev.oneWay
  repeat' first
    | with_reducible rfl
    | simp only [Dev.wr_ddr]
    | dsimp only
    | split
    | (refine (foldl_ddr _ _ _ ?_).trans ?_ <;> try intro _ _)
    | (refine (foldl_ddr1 _ _ _ ?_).trans ?_ <;> try intro _ _)

@[simp] theorem Dev.measureLink_ddr (d : Dev) (k : Nat) (rt : Nat) : (Dev.measureLink d k rt).ddr = d.ddr := by
  unfold Dev.measureLink
  repeat' first
    | with_reducible rfl
    | simp only [Dev.oneWay_ddr, Dev.wr_ddr]
    | dsimp only
    | split
    | (refine (foldl_ddr _ _ _ ?_).trans ?_ <;> try intro _ _)
    | (refine (foldl_ddr1 _ _ _ ?_).trans ?_ <;> try intro _ _)

@[simp] theorem Dev.asymmetryChanged_ddr (d : Dev) (k : Nat) : (Dev.asymmetryChanged d k).ddr = d.ddr := by
  unfold Dev.asymmetryChanged
  repeat' first
    | with_reducible rfl
    | simp only [Dev.oneWay_ddr]
    | dsimp only
    | split
    | (refine (foldl_ddr _ _ _ ?_).trans ?_ <;> try intro _ _)
    | (refine (foldl_ddr1 _ _ _ ?_).trans ?_ <;> try intro _ _)

@[simp] theorem Dev.spineLatency_ddr (d : Dev) : (Dev.spineLatency d).ddr = d.ddr := by
  unfold Dev.spineLatency
  repeat' first
    | with_reducible rfl
    | simp only [Dev.wr_ddr]
    | dsimp only
    | split
    | (refine (foldl_ddr _ _ _ ?_).trans ?_ <;> try intro _ _)
    | (refine (foldl_ddr1 _ _ _ ?_).trans ?_ <;> try intro _ _)

@[simp] theorem Dev.remeasure_ddr (d : Dev) (sec : Bool) : (Dev.remeasure d sec).ddr = d.ddr := by
  unfold Dev.remeasure
  repeat' first
    | with_reducible rfl
    | simp only [Dev.setPath_ddr]
    | dsimp only
    | split
    | (refine (foldl_ddr _ _ _ ?_).trans ?_ <;> try intro _ _)
    | (refine (foldl_ddr1 _ _ _ ?_).trans ?_ <;> try intro _ _)

@[simp] theorem listeningCompleteOp_ddr (roundTrips : List (Nat × Nat)) (peerAsym : List (Nat × Int)) (d : Dev) : (listeningCompleteOp roundTrips peerAsym d).ddr = d.ddr := by
  unfold listeningCompleteOp
  repeat' first
    | with_reducible rfl
    | simp only [Dev.clockSource_ddr, Dev.flag_ddr, Dev.measureLink_ddr, Dev.remeasure_ddr, Dev.spineLatency_ddr]
    | dsimp only
    | split
    | (refine (foldl_ddr _ _ _ ?_).trans ?_ <;> try intro _ _)
    | (refine (foldl_ddr1 _ _ _ ?_).trans ?_ <;> try intro _ _)

@[simp] theorem lockingCompleteOp_ddr (d : Dev) : (lockingCompleteOp d).ddr = d.ddr := by
  unfold lockingCompleteOp
  repeat' first
    | with_reducible rfl
    | simp only [Dev.loadEpoch_ddr]
    | dsimp only
    | split
    | (refine (foldl_ddr _ _ _ ?_).trans ?_ <;> try intro _ _)
    | (refine (foldl_ddr1 _ _ _ ?_).trans ?_ <;> try intro _ _)

@[simp] theorem aligningCompleteOp_ddr (offset : Int) (d : Dev) : (aligningCompleteOp offset d).ddr = d.ddr := by
  unfold aligningCompleteOp
  repeat' first
    | with_reducible rfl
    | simp only [Dev.wr_ddr]
    | dsimp only
    | split
    | (refine (foldl_ddr _ _ _ ?_).trans ?_ <;> try intro _ _)
    | (refine (foldl_ddr1 _ _ _ ?_).trans ?_ <;> try intro _ _)

@[simp] theorem beatSendOp_ddr (d : Dev) : (beatSendOp d).ddr = d.ddr := by
  unfold beatSendOp
  repeat' first
    | with_reducible rfl
    | simp only [Dev.sendBeat_ddr, Dev.wr_ddr]
    | dsimp only
    | split
    | (refine (foldl_ddr _ _ _ ?_).trans ?_ <;> try intro _ _)
    | (refine (foldl_ddr1 _ _ _ ?_).trans ?_ <;> try intro _ _)

@[simp] theorem Dev.forwardBeat_ddr (d : Dev) (link : Nat) (b : BeatMsg) : (Dev.forwardBeat d link b).ddr = d.ddr := by
  unfold Dev.forwardBeat
  repeat' first
    | with_reducible rfl
    | simp only [Dev.sendBeat_ddr]
    | dsimp only
    | split
    | (refine (foldl_ddr _ _ _ ?_).trans ?_ <;> try intro _ _)
    | (refine (foldl_ddr1 _ _ _ ?_).trans ?_ <;> try intro _ _)

@[simp] theorem Dev.follow_ddr (d : Dev) (b : BeatMsg) : (Dev.follow d b).ddr = d.ddr := by
  unfold Dev.follow
  repeat' first
    | with_reducible rfl
    | simp only [Dev.wrs_ddr]
    | dsimp only
    | split
    | (refine (foldl_ddr _ _ _ ?_).trans ?_ <;> try intro _ _)
    | (refine (foldl_ddr1 _ _ _ ?_).trans ?_ <;> try intro _ _)

@[simp] theorem Dev.noteSlot_ddr (d : Dev) (b : BeatMsg) : (Dev.noteSlot d b).ddr = d.ddr := by
  unfold Dev.noteSlot
  repeat' first
    | with_reducible rfl
    | dsimp only
    | split
    | (refine (foldl_ddr _ _ _ ?_).trans ?_ <;> try intro _ _)
    | (refine (foldl_ddr1 _ _ _ ?_).trans ?_ <;> try intro _ _)

@[simp] theorem Dev.takeBeat_ddr (d : Dev) (link : Nat) (b : BeatMsg) : (Dev.takeBeat d link b).ddr = d.ddr := by
  unfold Dev.takeBeat
  repeat' first
    | with_reducible rfl
    | simp only [Dev.flag_ddr, Dev.pathState_ddr, Dev.release_ddr, Dev.setPath_ddr, Dev.spineLatency_ddr, Dev.wrs_ddr]
    | dsimp only
    | split
    | (refine (foldl_ddr _ _ _ ?_).trans ?_ <;> try intro _ _)
    | (refine (foldl_ddr1 _ _ _ ?_).trans ?_ <;> try intro _ _)

@[simp] theorem Dev.enterResync_ddr (d : Dev) : (Dev.enterResync d).ddr = d.ddr := by
  unfold Dev.enterResync
  repeat' first
    | with_reducible rfl
    | simp only [Dev.clockSource_ddr, Dev.wr_ddr]
    | dsimp only
    | split
    | (refine (foldl_ddr _ _ _ ?_).trans ?_ <;> try intro _ _)
    | (refine (foldl_ddr1 _ _ _ ?_).trans ?_ <;> try intro _ _)

@[simp] theorem Dev.joinBeat_ddr (d : Dev) (link : Nat) (b : BeatMsg) : (Dev.joinBeat d link b).ddr = d.ddr := by
  unfold Dev.joinBeat
  repeat' first
    | with_reducible rfl
    | simp only [Dev.follow_ddr, Dev.takeBeat_ddr]
    | dsimp only
    | split
    | (refine (foldl_ddr _ _ _ ?_).trans ?_ <;> try intro _ _)
    | (refine (foldl_ddr1 _ _ _ ?_).trans ?_ <;> try intro _ _)

theorem Dev.memberBeat_ddr (d : Dev) (link : Nat) (b : BeatMsg) (same : Dev → Dev) (hs : (same d).ddr = d.ddr) :
    (Dev.memberBeat d link b same).ddr = d.ddr := by
  unfold Dev.memberBeat
  repeat' first
    | with_reducible rfl
    | simp only [Dev.enterResync_ddr, Dev.flag_ddr, Dev.follow_ddr, Dev.takeBeat_ddr, hs]
    | split

@[simp] theorem Dev.useBeat_ddr (d : Dev) (link : Nat) (b : BeatMsg) : (Dev.useBeat d link b).ddr = d.ddr := by
  have same : (Dev.memberBeat d link b id).ddr = d.ddr := Dev.memberBeat_ddr _ _ _ _ rfl
  have back : (Dev.memberBeat d link b Dev.enterResync).ddr = d.ddr :=
    Dev.memberBeat_ddr _ _ _ _ (Dev.enterResync_ddr _)
  unfold Dev.useBeat
  split
  · split
    · simp only [Dev.enterResync_ddr, Dev.flag_ddr, Dev.follow_ddr, Dev.takeBeat_ddr]
    · exact Dev.wr_ddr ..
  · rfl
  · rfl
  · exact Dev.joinBeat_ddr ..
  · exact Dev.joinBeat_ddr ..
  · exact Dev.joinBeat_ddr ..
  · exact same
  · exact back
  · exact same

@[simp] theorem beatOp_ddr (link : Nat) (b : BeatMsg) (d : Dev) : (beatOp link b d).ddr = d.ddr := by
  unfold beatOp
  repeat' first
    | with_reducible rfl
    | simp only [Dev.bump_ddr, Dev.forwardBeat_ddr, Dev.noteSlot_ddr, Dev.setPath_ddr, Dev.useBeat_ddr]
    | dsimp only
    | split
    | (refine (foldl_ddr _ _ _ ?_).trans ?_ <;> try intro _ _)
    | (refine (foldl_ddr1 _ _ _ ?_).trans ?_ <;> try intro _ _)

@[simp] theorem Dev.rootLoss_ddr (d : Dev) : (Dev.rootLoss d).ddr = d.ddr := by
  unfold Dev.rootLoss
  repeat' first
    | with_reducible rfl
    | simp only [Dev.clockSource_ddr, Dev.flag_ddr, Dev.produce_ddr, Dev.spoilAll_ddr]
    | dsimp only
    | split
    | (refine (foldl_ddr _ _ _ ?_).trans ?_ <;> try intro _ _)
    | (refine (foldl_ddr1 _ _ _ ?_).trans ?_ <;> try intro _ _)

@[simp] theorem beatMissOp_ddr (secondary : Bool) (d : Dev) : (beatMissOp secondary d).ddr = d.ddr := by
  unfold beatMissOp
  repeat' first
    | with_reducible rfl
    | simp only [Dev.flag_ddr, Dev.pathOut_ddr, Dev.rootLoss_ddr, Dev.setPath_ddr, Dev.wr_ddr]
    | dsimp only
    | split
    | (refine (foldl_ddr _ _ _ ?_).trans ?_ <;> try intro _ _)
    | (refine (foldl_ddr1 _ _ _ ?_).trans ?_ <;> try intro _ _)

@[simp] theorem takeoverOp_ddr (d : Dev) : (takeoverOp d).ddr = d.ddr := by
  unfold takeoverOp
  repeat' first
    | with_reducible rfl
    | simp only [Dev.enterRoot_ddr, Dev.flag_ddr, Dev.resendDrains_ddr, Dev.wr_ddr]
    | dsimp only
    | split
    | (refine (foldl_ddr _ _ _ ?_).trans ?_ <;> try intro _ _)
    | (refine (foldl_ddr1 _ _ _ ?_).trans ?_ <;> try intro _ _)

@[simp] theorem holdoverLimitOp_ddr (d : Dev) : (holdoverLimitOp d).ddr = d.ddr := by
  unfold holdoverLimitOp
  repeat' first
    | with_reducible rfl
    | simp only [Dev.clockSource_ddr, Dev.flag_ddr, Dev.spoilAll_ddr, Dev.wr_ddr]
    | dsimp only
    | split
    | (refine (foldl_ddr _ _ _ ?_).trans ?_ <;> try intro _ _)
    | (refine (foldl_ddr1 _ _ _ ?_).trans ?_ <;> try intro _ _)

@[simp] theorem resyncCompleteOp_ddr (offset : Int) (d : Dev) : (resyncCompleteOp offset d).ddr = d.ddr := by
  unfold resyncCompleteOp
  repeat' first
    | with_reducible rfl
    | simp only [Dev.clockSource_ddr, Dev.flag_ddr, Dev.resendDrains_ddr, Dev.wrBit_ddr, Dev.wr_ddr]
    | dsimp only
    | split
    | (refine (foldl_ddr _ _ _ ?_).trans ?_ <;> try intro _ _)
    | (refine (foldl_ddr1 _ _ _ ?_).trans ?_ <;> try intro _ _)

@[simp] theorem Dev.markLine_ddr (d : Dev) (old : Dev) (line : Nat) (extra : Nat) : (Dev.markLine d old line extra).ddr = d.ddr := by
  unfold Dev.markLine
  repeat' first
    | with_reducible rfl
    | simp only [Dev.markSlot_ddr]
    | dsimp only
    | split
    | (refine (foldl_ddr _ _ _ ?_).trans ?_ <;> try intro _ _)
    | (refine (foldl_ddr1 _ _ _ ?_).trans ?_ <;> try intro _ _)

@[simp] theorem Dev.setLine_ddr (d : Dev) (n : Nat) (l : LineRx) : (Dev.setLine d n l).ddr = d.ddr := by
  unfold Dev.setLine
  repeat' first
    | with_reducible rfl
    | dsimp only
    | split
    | (refine (foldl_ddr _ _ _ ?_).trans ?_ <;> try intro _ _)
    | (refine (foldl_ddr1 _ _ _ ?_).trans ?_ <;> try intro _ _)

@[simp] theorem Dev.markRaw_ddr (d : Dev) (n : Nat) : (Dev.markRaw d n).ddr = d.ddr := by
  unfold Dev.markRaw
  repeat' first
    | with_reducible rfl
    | simp only [Dev.setLine_ddr]
    | dsimp only
    | split
    | (refine (foldl_ddr _ _ _ ?_).trans ?_ <;> try intro _ _)
    | (refine (foldl_ddr1 _ _ _ ?_).trans ?_ <;> try intro _ _)

@[simp] theorem Dev.darkSlot_ddr (d : Dev) (old : Dev) (on : Bool) (slot : Nat) : (Dev.darkSlot d old on slot).ddr = d.ddr := by
  unfold Dev.darkSlot
  repeat' first
    | with_reducible rfl
    | simp only [Dev.setSlotRx_ddr]
    | dsimp only
    | split
    | (refine (foldl_ddr _ _ _ ?_).trans ?_ <;> try intro _ _)
    | (refine (foldl_ddr1 _ _ _ ?_).trans ?_ <;> try intro _ _)

@[simp] theorem Dev.enableLine_ddr (d : Dev) (old : Dev) (n : Nat) (on : Bool) : (Dev.enableLine d old n on).ddr = d.ddr := by
  unfold Dev.enableLine
  repeat' first
    | with_reducible rfl
    | simp only [Dev.darkSlot_ddr, Dev.markLine_ddr, Dev.markRaw_ddr, Dev.setLine_ddr]
    | dsimp only
    | split
    | (refine (foldl_ddr _ _ _ ?_).trans ?_ <;> try intro _ _)
    | (refine (foldl_ddr1 _ _ _ ?_).trans ?_ <;> try intro _ _)

@[simp] theorem Dev.lineChanged_ddr (d : Dev) (old : Dev) (n : Nat) (sub : Nat) : (Dev.lineChanged d old n sub).ddr = d.ddr := by
  unfold Dev.lineChanged
  repeat' first
    | with_reducible rfl
    | simp only [Dev.enableLine_ddr, Dev.markLine_ddr, Dev.markRaw_ddr]
    | dsimp only
    | split
    | (refine (foldl_ddr _ _ _ ?_).trans ?_ <;> try intro _ _)
    | (refine (foldl_ddr1 _ _ _ ?_).trans ?_ <;> try intro _ _)

@[simp] theorem Dev.chainChanged_ddr (d : Dev) (old : Dev) (q : Nat) (sub : Nat) : (Dev.chainChanged d old q sub).ddr = d.ddr := by
  unfold Dev.chainChanged
  repeat' first
    | with_reducible rfl
    | simp only [Dev.markSlot_ddr]
    | dsimp only
    | split
    | (refine (foldl_ddr _ _ _ ?_).trans ?_ <;> try intro _ _)
    | (refine (foldl_ddr1 _ _ _ ?_).trans ?_ <;> try intro _ _)

@[simp] theorem Dev.portEnabled_ddr (d : Dev) (port : Nat) (on : Bool) : (Dev.portEnabled d port on).ddr = d.ddr := by
  unfold Dev.portEnabled
  repeat' first
    | with_reducible rfl
    | simp only [Dev.refreshUnits_ddr, Dev.wr_ddr, Dev.wrs_ddr]
    | dsimp only
    | split
    | (refine (foldl_ddr _ _ _ ?_).trans ?_ <;> try intro _ _)
    | (refine (foldl_ddr1 _ _ _ ?_).trans ?_ <;> try intro _ _)

@[simp] theorem Dev.applyWord_ddr (d : Dev) (before : Dev) (key : Nat) (v : Nat) : (Dev.applyWord d before key v).ddr = d.ddr := by
  unfold Dev.applyWord
  repeat' first
    | with_reducible rfl
    | simp only [Dev.asymmetryChanged_ddr, Dev.chainChanged_ddr, Dev.dropLink_ddr, Dev.lineChanged_ddr, Dev.portEnabled_ddr, Dev.refreshUnits_ddr, Dev.setFlux_ddr, Dev.setIdle_ddr, Dev.wr_ddr]
    | dsimp only
    | split
    | (refine (foldl_ddr _ _ _ ?_).trans ?_ <;> try intro _ _)
    | (refine (foldl_ddr1 _ _ _ ?_).trans ?_ <;> try intro _ _)

@[simp] theorem Dev.applyWords_ddr (d : Dev) (l : List (Nat × Nat)) : (Dev.applyWords d l).ddr = d.ddr := by
  unfold Dev.applyWords
  repeat' first
    | with_reducible rfl
    | simp only [Dev.applyWord_ddr, Dev.latticeConfig_ddr]
    | dsimp only
    | split
    | (refine (foldl_ddr _ _ _ ?_).trans ?_ <;> try intro _ _)
    | (refine (foldl_ddr1 _ _ _ ?_).trans ?_ <;> try intro _ _)

@[simp] theorem Dev.calRecord_ddr (d : Dev) (routine : Nat) (result : Nat) (ukind : Nat) (unit : Nat) (figure : Int) (old : Int) (new : Int) (job : Nat) (shot : Nat) : (Dev.calRecord d routine result ukind unit figure old new job shot).ddr = d.ddr := by
  unfold Dev.calRecord
  repeat' first
    | with_reducible rfl
    | simp only [Dev.wr_ddr]
    | dsimp only
    | split
    | (refine (foldl_ddr _ _ _ ?_).trans ?_ <;> try intro _ _)
    | (refine (foldl_ddr1 _ _ _ ?_).trans ?_ <;> try intro _ _)

@[simp] theorem Dev.setStage_ddr (d : Dev) (l : List CalWord) : (Dev.setStage d l).ddr = d.ddr := by
  unfold Dev.setStage
  repeat' first
    | with_reducible rfl
    | simp only [Dev.wr_ddr]
    | dsimp only
    | split
    | (refine (foldl_ddr _ _ _ ?_).trans ?_ <;> try intro _ _)
    | (refine (foldl_ddr1 _ _ _ ?_).trans ?_ <;> try intro _ _)

@[simp] theorem Dev.flushStage_ddr (d : Dev) : (Dev.flushStage d).ddr = d.ddr := by
  unfold Dev.flushStage
  repeat' first
    | with_reducible rfl
    | simp only [Dev.applyWord_ddr, Dev.setStage_ddr]
    | dsimp only
    | split
    | (refine (foldl_ddr _ _ _ ?_).trans ?_ <;> try intro _ _)
    | (refine (foldl_ddr1 _ _ _ ?_).trans ?_ <;> try intro _ _)

@[simp] theorem Dev.applyStage_ddr (d : Dev) (seq : Nat) (host : List Nat) : (Dev.applyStage d seq host).ddr = d.ddr := by
  unfold Dev.applyStage
  repeat' first
    | with_reducible rfl
    | simp only [Dev.applyWord_ddr, Dev.calRecord_ddr, Dev.flag_ddr, Dev.setStage_ddr]
    | dsimp only
    | split
    | (refine (foldl_ddr _ _ _ ?_).trans ?_ <;> try intro _ _)
    | (refine (foldl_ddr1 _ _ _ ?_).trans ?_ <;> try intro _ _)

@[simp] theorem Dev.retireNow_ddr (d : Dev) (u : UnitRef) (row : Nat) : (Dev.retireNow d u row).ddr = d.ddr := by
  unfold Dev.retireNow
  repeat' first
    | with_reducible rfl
    | simp only [Dev.flushStage_ddr, Dev.retireUnit_ddr]
    | dsimp only
    | split
    | (refine (foldl_ddr _ _ _ ?_).trans ?_ <;> try intro _ _)
    | (refine (foldl_ddr1 _ _ _ ?_).trans ?_ <;> try intro _ _)

@[simp] theorem Dev.calBusy_ddr (d : Dev) : (Dev.calBusy d).ddr = d.ddr := by
  unfold Dev.calBusy
  repeat' first
    | with_reducible rfl
    | simp only [Dev.wr_ddr]
    | dsimp only
    | split
    | (refine (foldl_ddr _ _ _ ?_).trans ?_ <;> try intro _ _)
    | (refine (foldl_ddr1 _ _ _ ?_).trans ?_ <;> try intro _ _)

@[simp] theorem Dev.markTemps_ddr (d : Dev) (tile : Nat) : (Dev.markTemps d tile).ddr = d.ddr := by
  unfold Dev.markTemps
  repeat' first
    | with_reducible rfl
    | dsimp only
    | split
    | (refine (foldl_ddr _ _ _ ?_).trans ?_ <;> try intro _ _)
    | (refine (foldl_ddr1 _ _ _ ?_).trans ?_ <;> try intro _ _)

@[simp] theorem Dev.startRun_ddr (d : Dev) (routine : Nat) (ukind : Nat) (unit : Nat) : (Dev.startRun d routine ukind unit).ddr = d.ddr := by
  unfold Dev.startRun
  repeat' first
    | with_reducible rfl
    | simp only [Dev.calBusy_ddr, Dev.markTemps_ddr]
    | dsimp only
    | split
    | (refine (foldl_ddr _ _ _ ?_).trans ?_ <;> try intro _ _)
    | (refine (foldl_ddr1 _ _ _ ?_).trans ?_ <;> try intro _ _)

@[simp] theorem Dev.startRuns_ddr (d : Dev) (routine : Nat) (ukind : Nat) (n : Nat) : (Dev.startRuns d routine ukind n).ddr = d.ddr := by
  unfold Dev.startRuns
  repeat' first
    | with_reducible rfl
    | simp only [Dev.startRun_ddr]
    | dsimp only
    | split
    | (refine (foldl_ddr _ _ _ ?_).trans ?_ <;> try intro _ _)
    | (refine (foldl_ddr1 _ _ _ ?_).trans ?_ <;> try intro _ _)

@[simp] theorem Dev.startPhase_ddr (d : Dev) (routine : Nat) : (Dev.startPhase d routine).ddr = d.ddr := by
  unfold Dev.startPhase
  repeat' first
    | with_reducible rfl
    | simp only [Dev.startRuns_ddr]
    | dsimp only
    | split
    | (refine (foldl_ddr _ _ _ ?_).trans ?_ <;> try intro _ _)
    | (refine (foldl_ddr1 _ _ _ ?_).trans ?_ <;> try intro _ _)

@[simp] theorem Dev.nextRuns_ddr (d : Dev) (routine : Nat) : (Dev.nextRuns d routine).ddr = d.ddr := by
  unfold Dev.nextRuns
  repeat' first
    | with_reducible rfl
    | simp only [Dev.startPhase_ddr]
    | dsimp only
    | split
    | (refine (foldl_ddr _ _ _ ?_).trans ?_ <;> try intro _ _)
    | (refine (foldl_ddr1 _ _ _ ?_).trans ?_ <;> try intro _ _)

@[simp] theorem Dev.calCmd_ddr (d : Dev) (routine : Nat) (ukind : Nat) (unit : Nat) : (Dev.calCmd d routine ukind unit).ddr = d.ddr := by
  unfold Dev.calCmd Dev.calStart
  dsimp only
  split
  · exact Dev.conflict_ddr d
  · exact foldl_ddr _ _ _ fun e x => Dev.startRun_ddr ..

@[simp] theorem skewAutoOp_ddr (tile : Nat) (d : Dev) : (skewAutoOp tile d).ddr = d.ddr := by
  unfold skewAutoOp
  repeat' first
    | with_reducible rfl
    | simp only [Dev.startRun_ddr]
    | dsimp only
    | split
    | (refine (foldl_ddr _ _ _ ?_).trans ?_ <;> try intro _ _)
    | (refine (foldl_ddr1 _ _ _ ?_).trans ?_ <;> try intro _ _)

@[simp] theorem Dev.markSeen_ddr (d : Dev) (i : Nat) (good : Bool) : (Dev.markSeen d i good).ddr = d.ddr := by
  unfold Dev.markSeen
  repeat' first
    | with_reducible rfl
    | dsimp only
    | split
    | (refine (foldl_ddr _ _ _ ?_).trans ?_ <;> try intro _ _)
    | (refine (foldl_ddr1 _ _ _ ?_).trans ?_ <;> try intro _ _)

@[simp] theorem Dev.implausible_ddr (d : Dev) (i : Nat) : (Dev.implausible d i).1.ddr = d.ddr := by
  unfold Dev.implausible
  repeat' first
    | with_reducible rfl
    | simp only [Dev.flag_ddr, Dev.markSeen_ddr]
    | dsimp only
    | split
    | (refine (foldl_ddr _ _ _ ?_).trans ?_ <;> try intro _ _)
    | (refine (foldl_ddr1 _ _ _ ?_).trans ?_ <;> try intro _ _)

@[simp] theorem Dev.foTarget_ddr (d : Dev) (c : Nat) (t : Nat) : (Dev.foTarget d c t).ddr = d.ddr := by
  unfold Dev.foTarget
  repeat' first
    | with_reducible rfl
    | simp only [Dev.wr_ddr]
    | dsimp only
    | split
    | (refine (foldl_ddr _ _ _ ?_).trans ?_ <;> try intro _ _)
    | (refine (foldl_ddr1 _ _ _ ?_).trans ?_ <;> try intro _ _)

@[simp] theorem Dev.foTargets_ddr (d : Dev) (i : Nat) : (Dev.foTargets d i).ddr = d.ddr := by
  unfold Dev.foTargets
  repeat' first
    | with_reducible rfl
    | simp only [Dev.foTarget_ddr]
    | dsimp only
    | split
    | (refine (foldl_ddr _ _ _ ?_).trans ?_ <;> try intro _ _)
    | (refine (foldl_ddr1 _ _ _ ?_).trans ?_ <;> try intro _ _)

@[simp] theorem Dev.setSliceTrim_ddr (d : Dev) (n : Nat) (s : Nat) (ofs : Int) (gain : Int) (skew : Int) : (Dev.setSliceTrim d n s ofs gain skew).ddr = d.ddr := by
  unfold Dev.setSliceTrim
  repeat' first
    | with_reducible rfl
    | simp only [Dev.wr_ddr]
    | dsimp only
    | split
    | (refine (foldl_ddr _ _ _ ?_).trans ?_ <;> try intro _ _)
    | (refine (foldl_ddr1 _ _ _ ?_).trans ?_ <;> try intro _ _)

/-- Taking a slice out of the interleave leaves the bytes of DDR4. -/
theorem Dev.outOfInterleave_ddr {d e : Dev} {n s : Nat} (h : d.outOfInterleave n s = some e) : e.ddr = d.ddr := by
  unfold Dev.outOfInterleave at h
  dsimp only at h
  split at h
  · exact (Option.some.inj h) ▸ Dev.setLine_ddr ..
  · split at h
    · cases h
    · exact (Option.some.inj h) ▸ (Dev.setLine_ddr ..).trans (Dev.wr_ddr ..)

@[simp] theorem Dev.rotateSlice_ddr (d : Dev) (n : Nat) : (Dev.rotateSlice d n).ddr = d.ddr := by
  unfold Dev.rotateSlice
  extract_lets l
  split
  · rfl
  · extract_lets d1
    split
    · exact Dev.setLine_ddr ..
    · rename_i h
      exact (Dev.calBusy_ddr _).trans ((Dev.setLine_ddr ..).trans ((Dev.outOfInterleave_ddr h).trans (Dev.setLine_ddr ..)))

@[simp] theorem sliceRotateOp_ddr (n : Nat) (d : Dev) : (sliceRotateOp n d).ddr = d.ddr := by
  unfold sliceRotateOp
  repeat' first
    | with_reducible rfl
    | simp only [Dev.rotateSlice_ddr, Dev.setLine_ddr]
    | dsimp only
    | split
    | (refine (foldl_ddr _ _ _ ?_).trans ?_ <;> try intro _ _)
    | (refine (foldl_ddr1 _ _ _ ?_).trans ?_ <;> try intro _ _)

@[simp] theorem Dev.rotateTick_ddr (d : Dev) : (Dev.rotateTick d).ddr = d.ddr := by
  unfold Dev.rotateTick
  repeat' first
    | with_reducible rfl
    | simp only [Dev.rotateSlice_ddr, Dev.setLine_ddr]
    | dsimp only
    | split
    | (refine (foldl_ddr _ _ _ ?_).trans ?_ <;> try intro _ _)
    | (refine (foldl_ddr1 _ _ _ ?_).trans ?_ <;> try intro _ _)

@[simp] theorem Dev.glitch_ddr (d : Dev) (n : Nat) (s : Nat) : (Dev.glitch d n s).1.ddr = d.ddr := by
  unfold Dev.glitch
  repeat' first
    | with_reducible rfl
    | simp only [Dev.flag_ddr, Dev.implausible_ddr, Dev.noteFault_ddr]
    | dsimp only
    | split
    | (refine (foldl_ddr _ _ _ ?_).trans ?_ <;> try intro _ _)
    | (refine (foldl_ddr1 _ _ _ ?_).trans ?_ <;> try intro _ _)

@[simp] theorem Dev.benchSlice_ddr (d : Dev) (n : Nat) (s : Nat) : (Dev.benchSlice d n s).ddr = d.ddr := by
  unfold Dev.benchSlice
  split
  · rfl
  · rename_i h
    exact (Dev.setLine_ddr ..).trans (Dev.outOfInterleave_ddr h)

@[simp] theorem Dev.trimSlice_ddr (d : Dev) (n : Nat) (s : Nat) (ofs : Int) (gain : Int) (skew : Int) :
    (Dev.trimSlice d n s ofs gain skew).ddr = d.ddr := by
  unfold Dev.trimSlice
  split
  · rfl
  · rename_i h
    exact (Dev.setLine_ddr ..).trans ((Dev.markSeen_ddr ..).trans ((Dev.setSliceTrim_ddr ..).trans (Dev.outOfInterleave_ddr h)))

@[simp] theorem sliceCheckOp_ddr (n : Nat) (ofs : Int) (gain : Int) (skew : Int) (spur : Nat) (d : Dev) : (sliceCheckOp n ofs gain skew spur d).ddr = d.ddr := by
  unfold sliceCheckOp
  repeat' first
    | with_reducible rfl
    | simp only [Dev.calBusy_ddr, Dev.calRecord_ddr, Dev.flag_ddr, Dev.glitch_ddr, Dev.markSeen_ddr, Dev.retireNow_ddr, Dev.setLine_ddr, Dev.setSliceTrim_ddr, Dev.wr_ddr]
    | dsimp only
    | split
    | (refine (foldl_ddr _ _ _ ?_).trans ?_ <;> try intro _ _)
    | (refine (foldl_ddr1 _ _ _ ?_).trans ?_ <;> try intro _ _)

@[simp] theorem Dev.calFigure_ddr (d : Dev) (routine : Nat) (ukind : Nat) (unit : Nat) (figure : Int) : (Dev.calFigure d routine ukind unit figure).ddr = d.ddr := by
  unfold Dev.calFigure
  repeat' first
    | with_reducible rfl
    | simp only [Dev.wr_ddr]
    | dsimp only
    | split
    | (refine (foldl_ddr _ _ _ ?_).trans ?_ <;> try intro _ _)
    | (refine (foldl_ddr1 _ _ _ ?_).trans ?_ <;> try intro _ _)

@[simp] theorem Dev.varnish_ddr (d : Dev) (routine : Nat) (ukind : Nat) (unit : Nat) (figure : Int) (old : Int) (new : Int) (vs : List (Nat × Nat)) : (Dev.varnish d routine ukind unit figure old new vs).1.ddr = d.ddr := by
  unfold Dev.varnish
  repeat' first
    | with_reducible rfl
    | simp only [Dev.applyWords_ddr, Dev.setStage_ddr]
    | dsimp only
    | split
    | (refine (foldl_ddr _ _ _ ?_).trans ?_ <;> try intro _ _)
    | (refine (foldl_ddr1 _ _ _ ?_).trans ?_ <;> try intro _ _)

@[simp] theorem Dev.calApply_ddr (d : Dev) (routine : Nat) (ukind : Nat) (unit : Nat) (vs : List (Nat × Int)) (figure : Int) (old : Int) (new : Int) : (Dev.calApply d routine ukind unit vs figure old new).1.ddr = d.ddr := by
  unfold Dev.calApply
  repeat' first
    | with_reducible rfl
    | simp only [Dev.foTarget_ddr, Dev.markSeen_ddr, Dev.setSliceTrim_ddr, Dev.varnish_ddr, Dev.wrs_ddr]
    | dsimp only
    | split
    | (refine (foldl_ddr _ _ _ ?_).trans ?_ <;> try intro _ _)
    | (refine (foldl_ddr1 _ _ _ ?_).trans ?_ <;> try intro _ _)

@[simp] theorem Dev.applySlices_ddr (d : Dev) (n : Nat) (vs : List (Nat × Int)) : (Dev.applySlices d n vs).ddr = d.ddr := by
  unfold Dev.applySlices
  repeat' first
    | with_reducible rfl
    | simp only [Dev.benchSlice_ddr, Dev.glitch_ddr, Dev.retireNow_ddr, Dev.trimSlice_ddr]
    | dsimp only
    | split
    | (refine (foldl_ddr _ _ _ ?_).trans ?_ <;> try intro _ _)
    | (refine (foldl_ddr1 _ _ _ ?_).trans ?_ <;> try intro _ _)

@[simp] theorem calResultOp_ddr (routine : Nat) (ukind : Nat) (unit : Nat) (vs : List (Nat × Int)) (principal : Int) (figure : Int) (aborted : Bool) (d : Dev) : (calResultOp routine ukind unit vs principal figure aborted d).ddr = d.ddr := by
  unfold calResultOp
  repeat' first
    | with_reducible rfl
    | simp only [Dev.applySlices_ddr, Dev.calApply_ddr, Dev.calBusy_ddr, Dev.calFigure_ddr, Dev.calRecord_ddr, Dev.flag_ddr, Dev.implausible_ddr, Dev.markSeen_ddr, Dev.nextRuns_ddr]
    | dsimp only
    | split
    | (refine (foldl_ddr _ _ _ ?_).trans ?_ <;> try intro _ _)
    | (refine (foldl_ddr1 _ _ _ ?_).trans ?_ <;> try intro _ _)

@[simp] theorem Dev.abortRuns_ddr (d : Dev) : (Dev.abortRuns d).ddr = d.ddr := by
  unfold Dev.abortRuns
  repeat' first
    | with_reducible rfl
    | simp only [Dev.calBusy_ddr, Dev.calRecord_ddr, Dev.flag_ddr]
    | dsimp only
    | split
    | (refine (foldl_ddr _ _ _ ?_).trans ?_ <;> try intro _ _)
    | (refine (foldl_ddr1 _ _ _ ?_).trans ?_ <;> try intro _ _)

@[simp] theorem discFitOp_ddr (q : Nat) (ground : List (Int × Int)) (excited : List (Int × Int)) (fidelity : Nat) (d : Dev) : (discFitOp q ground excited fidelity d).ddr = d.ddr := by
  unfold discFitOp
  repeat' first
    | with_reducible rfl
    | simp only [Dev.calRecord_ddr, Dev.implausible_ddr, Dev.markSeen_ddr, Dev.varnish_ddr]
    | dsimp only
    | split
    | (refine (foldl_ddr _ _ _ ?_).trans ?_ <;> try intro _ _)
    | (refine (foldl_ddr1 _ _ _ ?_).trans ?_ <;> try intro _ _)

@[simp] theorem Dev.glaze_ddr (d : Dev) (key : Nat) (target : Nat) : (Dev.glaze d key target).ddr = d.ddr := by
  unfold Dev.glaze
  repeat' first
    | with_reducible rfl
    | simp only [Dev.wr_ddr]
    | dsimp only
    | split
    | (refine (foldl_ddr _ _ _ ?_).trans ?_ <;> try intro _ _)
    | (refine (foldl_ddr1 _ _ _ ?_).trans ?_ <;> try intro _ _)

@[simp] theorem glazeStepOp_ddr (d : Dev) : (glazeStepOp d).ddr = d.ddr := by
  unfold glazeStepOp
  repeat' first
    | with_reducible rfl
    | simp only [Dev.glaze_ddr]
    | dsimp only
    | split
    | (refine (foldl_ddr _ _ _ ?_).trans ?_ <;> try intro _ _)
    | (refine (foldl_ddr1 _ _ _ ?_).trans ?_ <;> try intro _ _)

@[simp] theorem Dev.beginScan_ddr (d : Dev) (at_ : Nat) : (Dev.beginScan d at_).ddr = d.ddr := by
  unfold Dev.beginScan
  repeat' first
    | with_reducible rfl
    | dsimp only
    | split
    | (refine (foldl_ddr _ _ _ ?_).trans ?_ <;> try intro _ _)
    | (refine (foldl_ddr1 _ _ _ ?_).trans ?_ <;> try intro _ _)

@[simp] theorem Dev.hkTrigger_ddr (d : Dev) (source : Nat) : (Dev.hkTrigger d source).ddr = d.ddr := by
  unfold Dev.hkTrigger
  repeat' first
    | with_reducible rfl
    | simp only [Dev.beginScan_ddr, Dev.flag_ddr]
    | dsimp only
    | split
    | (refine (foldl_ddr _ _ _ ?_).trans ?_ <;> try intro _ _)
    | (refine (foldl_ddr1 _ _ _ ?_).trans ?_ <;> try intro _ _)

@[simp] theorem Dev.convTick_ddr (d : Dev) : (Dev.convTick d).ddr = d.ddr := by
  unfold Dev.convTick
  repeat' first
    | with_reducible rfl
    | simp only [Dev.beginScan_ddr, Dev.routine_ddr]
    | dsimp only
    | split
    | (refine (foldl_ddr _ _ _ ?_).trans ?_ <;> try intro _ _)
    | (refine (foldl_ddr1 _ _ _ ?_).trans ?_ <;> try intro _ _)

@[simp] theorem hkTimerOp_ddr (d : Dev) : (hkTimerOp d).ddr = d.ddr := by
  unfold hkTimerOp
  repeat' first
    | with_reducible rfl
    | simp only [Dev.hkTrigger_ddr]
    | dsimp only
    | split
    | (refine (foldl_ddr _ _ _ ?_).trans ?_ <;> try intro _ _)
    | (refine (foldl_ddr1 _ _ _ ?_).trans ?_ <;> try intro _ _)

@[simp] theorem hkCmdOp_ddr (d : Dev) : (hkCmdOp d).ddr = d.ddr := by
  unfold hkCmdOp
  repeat' first
    | with_reducible rfl
    | simp only [Dev.hkTrigger_ddr]
    | dsimp only
    | split
    | (refine (foldl_ddr _ _ _ ?_).trans ?_ <;> try intro _ _)
    | (refine (foldl_ddr1 _ _ _ ?_).trans ?_ <;> try intro _ _)

@[simp] theorem Dev.scanNext_ddr (d : Dev) (s : Scan) : (Dev.scanNext d s).ddr = d.ddr := by
  unfold Dev.scanNext
  repeat' first
    | with_reducible rfl
    | simp only [Dev.beginScan_ddr]
    | dsimp only
    | split
    | (refine (foldl_ddr _ _ _ ?_).trans ?_ <;> try intro _ _)
    | (refine (foldl_ddr1 _ _ _ ?_).trans ?_ <;> try intro _ _)

@[simp] theorem Dev.hkStore_ddr (d : Dev) (k : Nat) (i : Nat) (code : Nat) (at_ : Nat) : (Dev.hkStore d k i code at_).ddr = d.ddr := by
  unfold Dev.hkStore
  repeat' first
    | with_reducible rfl
    | simp only [Dev.flag_ddr, Dev.produce_ddr, Dev.wrs_ddr]
    | dsimp only
    | split
    | (refine (foldl_ddr _ _ _ ?_).trans ?_ <;> try intro _ _)
    | (refine (foldl_ddr1 _ _ _ ?_).trans ?_ <;> try intro _ _)

@[simp] theorem hkResultOp_ddr (k : Nat) (code : BitVec 12) (d : Dev) : (hkResultOp k code d).ddr = d.ddr := by
  unfold hkResultOp
  repeat' first
    | with_reducible rfl
    | simp only [Dev.foTargets_ddr, Dev.hkStore_ddr, Dev.scanNext_ddr, Dev.wr_ddr]
    | dsimp only
    | split
    | (refine (foldl_ddr _ _ _ ?_).trans ?_ <;> try intro _ _)
    | (refine (foldl_ddr1 _ _ _ ?_).trans ?_ <;> try intro _ _)

@[simp] theorem adcOverrangeOp_ddr (n : Nat) (code : Int) (d : Dev) : (adcOverrangeOp n code d).ddr = d.ddr := by
  unfold adcOverrangeOp
  repeat' first
    | with_reducible rfl
    | simp only [Dev.flag_ddr]
    | dsimp only
    | split
    | (refine (foldl_ddr _ _ _ ?_).trans ?_ <;> try intro _ _)
    | (refine (foldl_ddr1 _ _ _ ?_).trans ?_ <;> try intro _ _)

@[simp] theorem dacFaultOp_ddr (u : UnitRef) (d : Dev) : (dacFaultOp u d).ddr = d.ddr := by
  unfold dacFaultOp
  repeat' first
    | with_reducible rfl
    | simp only [Dev.flag_ddr, Dev.retireNow_ddr]
    | dsimp only
    | split
    | (refine (foldl_ddr _ _ _ ?_).trans ?_ <;> try intro _ _)
    | (refine (foldl_ddr1 _ _ _ ?_).trans ?_ <;> try intro _ _)

end Sys2Proof.Machine
end

