-- ==== Sys2Proof/Laws/MemG.lean ====
section
/-! SUPPORT. What each operation does to the bytes of DDR4 (events, shots, jobs): most leave them, the few that store keep
their canonical form. One lemma per operation, cited by the laws of the step. -/

set_option linter.all false
set_option linter.unreachableTactic false
set_option linter.unusedTactic false

namespace Sys2Proof.Machine

@[simp] theorem Dev.wakeCause_ddr (d : Dev) (line : Option Nat) : (Dev.wakeCause d line).ddr = d.ddr := by
  unfold Dev.wakeCause
  repeat' first
    | with_reducible rfl
    | simp only [Dev.flag_ddr, Dev.startPhase_ddr, Dev.wr_ddr]
    | dsimp only
    | split
    | (refine (foldl_ddr _ _ _ ?_).trans ?_ <;> try intro _ _)
    | (refine (foldl_ddr1 _ _ _ ?_).trans ?_ <;> try intro _ _)

@[simp] theorem Dev.spreadEvent_ddr (d : Dev) (fireEpoch : Nat) (origin : Nat) (line : Nat) (path : Bool) (hops : Nat) (not_ : Option Nat) : (Dev.spreadEvent d fireEpoch origin line path hops not_).ddr = d.ddr := by
  unfold Dev.spreadEvent
  repeat' first
    | with_reducible rfl
    | simp only [Dev.sendCell_ddr]
    | dsimp only
    | split
    | (refine (foldl_ddr _ _ _ ?_).trans ?_ <;> try intro _ _)
    | (refine (foldl_ddr1 _ _ _ ?_).trans ?_ <;> try intro _ _)

@[simp] theorem Dev.exportEvent_ddr (d : Dev) (k : Nat) (t : Nat) : (Dev.exportEvent d k t).ddr = d.ddr := by
  unfold Dev.exportEvent
  repeat' first
    | with_reducible rfl
    | simp only [Dev.spreadEvent_ddr]
    | dsimp only
    | split
    | (refine (foldl_ddr _ _ _ ?_).trans ?_ <;> try intro _ _)
    | (refine (foldl_ddr1 _ _ _ ?_).trans ?_ <;> try intro _ _)

@[simp] theorem Dev.wakeThreads_ddr (d : Dev) (k : Nat) (t : Nat) : (Dev.wakeThreads d k t).ddr = d.ddr := by
  unfold Dev.wakeThreads
  repeat' first
    | with_reducible rfl
    | dsimp only
    | split
    | (refine (foldl_ddr _ _ _ ?_).trans ?_ <;> try intro _ _)
    | (refine (foldl_ddr1 _ _ _ ?_).trans ?_ <;> try intro _ _)

@[simp] theorem Dev.consume__ddr (d : Dev) (k : Nat) (t : Nat) (export_ : Bool) : (Dev.consume_ d k t export_).ddr = d.ddr := by
  unfold Dev.consume_
  repeat' first
    | with_reducible rfl
    | simp only [Dev.addCond_ddr, Dev.exportEvent_ddr, Dev.hkTrigger_ddr, Dev.trigCause_ddr, Dev.wakeCause_ddr, Dev.wakeThreads_ddr]
    | dsimp only
    | split
    | (refine (foldl_ddr _ _ _ ?_).trans ?_ <;> try intro _ _)
    | (refine (foldl_ddr1 _ _ _ ?_).trans ?_ <;> try intro _ _)

@[simp] theorem Dev.joinFiring_ddr (d : Dev) (k : Nat) (t : Nat) (n : Nat) (chain : List Nat) (hops : Nat) : (Dev.joinFiring d k t n chain hops).ddr = d.ddr := by
  unfold Dev.joinFiring
  repeat' first
    | with_reducible rfl
    | simp only [Dev.flagN_ddr, Dev.flag_ddr]
    | dsimp only
    | split
    | (refine (foldl_ddr _ _ _ ?_).trans ?_ <;> try intro _ _)
    | (refine (foldl_ddr1 _ _ _ ?_).trans ?_ <;> try intro _ _)

@[simp] theorem Dev.fire_ddr (d : Dev) (k : Nat) (t : Nat) (n : Nat) (chain : List Nat) (hops : Nat) (export_ : Bool) : (Dev.fire d k t n chain hops export_).ddr = d.ddr := by
  unfold Dev.fire
  repeat' first
    | with_reducible rfl
    | simp only [Dev.consume__ddr, Dev.flagN_ddr, Dev.flag_ddr, Dev.joinFiring_ddr, Dev.trace_ddr, Dev.wr_ddr]
    | dsimp only
    | split
    | (refine (foldl_ddr _ _ _ ?_).trans ?_ <;> try intro _ _)
    | (refine (foldl_ddr1 _ _ _ ?_).trans ?_ <;> try intro _ _)

@[simp] theorem Dev.expireArm_ddr (d : Dev) (k : Nat) (t : Nat) : (Dev.expireArm d k t).ddr = d.ddr := by
  unfold Dev.expireArm
  repeat' first
    | with_reducible rfl
    | simp only [Dev.flag_ddr, Dev.wr_ddr]
    | dsimp only
    | split
    | (refine (foldl_ddr _ _ _ ?_).trans ?_ <;> try intro _ _)
    | (refine (foldl_ddr1 _ _ _ ?_).trans ?_ <;> try intro _ _)

@[simp] theorem andExpiredOp_ddr (k : Nat) (d : Dev) : (andExpiredOp k d).ddr = d.ddr := by
  unfold andExpiredOp
  repeat' first
    | with_reducible rfl
    | simp only [Dev.expireArm_ddr]
    | dsimp only
    | split
    | (refine (foldl_ddr _ _ _ ?_).trans ?_ <;> try intro _ _)
    | (refine (foldl_ddr1 _ _ _ ?_).trans ?_ <;> try intro _ _)

@[simp] theorem Dev.suppress_ddr (d : Dev) (k : Nat) (t : Nat) (cs : List Cause) : (Dev.suppress d k t cs).1.ddr = d.ddr := by
  unfold Dev.suppress
  repeat' first
    | with_reducible rfl
    | simp only [Dev.flagN_ddr]
    | dsimp only
    | split
    | (refine (foldl_ddr _ _ _ ?_).trans ?_ <;> try intro _ _)
    | (refine (foldl_ddr1 _ _ _ ?_).trans ?_ <;> try intro _ _)

@[simp] theorem Dev.fireOr_ddr (d : Dev) (k : Nat) (t : Nat) (nat : List Cause) (dels : List Cause) : (Dev.fireOr d k t nat dels).ddr = d.ddr := by
  unfold Dev.fireOr
  repeat' first
    | with_reducible rfl
    | simp only [Dev.fire_ddr, Dev.flag_ddr, Dev.suppress_ddr]
    | dsimp only
    | split
    | (refine (foldl_ddr _ _ _ ?_).trans ?_ <;> try intro _ _)
    | (refine (foldl_ddr1 _ _ _ ?_).trans ?_ <;> try intro _ _)

@[simp] theorem Dev.fireAnd_ddr (d : Dev) (k : Nat) (t : Nat) (nat : List Cause) (dels : List Cause) : (Dev.fireAnd d k t nat dels).ddr = d.ddr := by
  unfold Dev.fireAnd
  repeat' first
    | with_reducible rfl
    | simp only [Dev.expireArm_ddr, Dev.fire_ddr, Dev.flag_ddr, Dev.suppress_ddr, Dev.wr_ddr]
    | dsimp only
    | split
    | (refine (foldl_ddr _ _ _ ?_).trans ?_ <;> try intro _ _)
    | (refine (foldl_ddr1 _ _ _ ?_).trans ?_ <;> try intro _ _)

@[simp] theorem eventLineFireOp_ddr (k : Nat) (d : Dev) : (eventLineFireOp k d).ddr = d.ddr := by
  unfold eventLineFireOp
  repeat' first
    | with_reducible rfl
    | simp only [Dev.fireAnd_ddr, Dev.fireOr_ddr]
    | dsimp only
    | split
    | (refine (foldl_ddr _ _ _ ?_).trans ?_ <;> try intro _ _)
    | (refine (foldl_ddr1 _ _ _ ?_).trans ?_ <;> try intro _ _)

@[simp] theorem latticeEventOp_ddr (c : CellHdr) (fireEpoch : Nat) (origin : Nat) (line : Nat) (path : Bool) (hops : Nat) (latticeId : Nat) (d : Dev) : (latticeEventOp c fireEpoch origin line path hops latticeId d).ddr = d.ddr := by
  unfold latticeEventOp
  repeat' first
    | with_reducible rfl
    | simp only [Dev.rxCell_ddr, Dev.spreadEvent_ddr]
    | dsimp only
    | split
    | (refine (foldl_ddr _ _ _ ?_).trans ?_ <;> try intro _ _)
    | (refine (foldl_ddr1 _ _ _ ?_).trans ?_ <;> try intro _ _)

@[simp] theorem notificationFrameOp_ddr (d : Dev) : (notificationFrameOp d).ddr = d.ddr := by
  unfold notificationFrameOp
  repeat' first
    | with_reducible rfl
    | simp only [Dev.flag_ddr, Dev.wr_ddr]
    | dsimp only
    | split
    | (refine (foldl_ddr _ _ _ ?_).trans ?_ <;> try intro _ _)
    | (refine (foldl_ddr1 _ _ _ ?_).trans ?_ <;> try intro _ _)

@[simp] theorem notificationSendOp_ddr (d : Dev) : (notificationSendOp d).ddr = d.ddr := by
  unfold notificationSendOp
  repeat' first
    | with_reducible rfl
    | dsimp only
    | split
    | (refine (foldl_ddr _ _ _ ?_).trans ?_ <;> try intro _ _)
    | (refine (foldl_ddr1 _ _ _ ?_).trans ?_ <;> try intro _ _)

@[simp] theorem Dev.resetThread_ddr (d : Dev) (j : Job) (p : CanvasPlace) (kept : List (Nat × Nat × Nat)) (shot : Nat) : (Dev.resetThread d j p kept shot).ddr = d.ddr := by
  unfold Dev.resetThread
  repeat' first
    | with_reducible rfl
    | simp only [Dev.setThread_ddr, Dev.squashAll_ddr]
    | dsimp only
    | split
    | (refine (foldl_ddr _ _ _ ?_).trans ?_ <;> try intro _ _)
    | (refine (foldl_ddr1 _ _ _ ?_).trans ?_ <;> try intro _ _)

@[simp] theorem Dev.startThread_ddr (d : Dev) (j : Job) (p : CanvasPlace) (start : Nat) (shot : Nat) : (Dev.startThread d j p start shot).ddr = d.ddr := by
  unfold Dev.startThread
  repeat' first
    | with_reducible rfl
    | simp only [Dev.resetThread_ddr, Dev.setThread_ddr]
    | dsimp only
    | split
    | (refine (foldl_ddr _ _ _ ?_).trans ?_ <;> try intro _ _)
    | (refine (foldl_ddr1 _ _ _ ?_).trans ?_ <;> try intro _ _)

@[simp] theorem Dev.restThread_ddr (d : Dev) (n : Nat) : (Dev.restThread d n).ddr = d.ddr := by
  unfold Dev.restThread
  repeat' first
    | with_reducible rfl
    | simp only [Dev.setThread_ddr, Dev.squashAll_ddr]
    | dsimp only
    | split
    | (refine (foldl_ddr _ _ _ ?_).trans ?_ <;> try intro _ _)
    | (refine (foldl_ddr1 _ _ _ ?_).trans ?_ <;> try intro _ _)

@[simp] theorem Dev.placeStart_ddr (d : Dev) (seq : Nat) (start : Nat) (shot : Nat) : (Dev.placeStart d seq start shot).ddr = d.ddr := by
  unfold Dev.placeStart
  repeat' first
    | with_reducible rfl
    | simp only [Dev.modJob_ddr, Dev.startThread_ddr]
    | dsimp only
    | split
    | (refine (foldl_ddr _ _ _ ?_).trans ?_ <;> try intro _ _)
    | (refine (foldl_ddr1 _ _ _ ?_).trans ?_ <;> try intro _ _)

@[simp] theorem Dev.fixStart_ddr (d : Dev) (seq : Nat) (start : Nat) (shot : Nat) : (Dev.fixStart d seq start shot).ddr = d.ddr := by
  unfold Dev.fixStart
  repeat' first
    | with_reducible rfl
    | simp only [Dev.flag_ddr, Dev.placeStart_ddr]
    | dsimp only
    | split
    | (refine (foldl_ddr _ _ _ ?_).trans ?_ <;> try intro _ _)
    | (refine (foldl_ddr1 _ _ _ ?_).trans ?_ <;> try intro _ _)

@[simp] theorem Dev.dropStart_ddr (d : Dev) (seq : Nat) : (Dev.dropStart d seq).ddr = d.ddr := by
  unfold Dev.dropStart
  repeat' first
    | with_reducible rfl
    | simp only [Dev.modJob_ddr, Dev.restThread_ddr]
    | dsimp only
    | split
    | (refine (foldl_ddr _ _ _ ?_).trans ?_ <;> try intro _ _)
    | (refine (foldl_ddr1 _ _ _ ?_).trans ?_ <;> try intro _ _)

@[simp] theorem Dev.resultGate_ddr (d : Dev) (j : Job) : (Dev.resultGate d j).1.ddr = d.ddr := by
  unfold Dev.resultGate
  repeat' first
    | with_reducible rfl
    | simp only [Dev.flag_ddr, Dev.modJob_ddr]
    | dsimp only
    | split
    | (refine (foldl_ddr _ _ _ ?_).trans ?_ <;> try intro _ _)
    | (refine (foldl_ddr1 _ _ _ ?_).trans ?_ <;> try intro _ _)

@[simp] theorem Dev.setTrigIn_ddr (d : Dev) (i : Nat) (t : TrigIn) : (Dev.setTrigIn d i t).ddr = d.ddr := by
  unfold Dev.setTrigIn
  repeat' first
    | with_reducible rfl
    | dsimp only
    | split
    | (refine (foldl_ddr _ _ _ ?_).trans ?_ <;> try intro _ _)
    | (refine (foldl_ddr1 _ _ _ ?_).trans ?_ <;> try intro _ _)

@[simp] theorem Dev.reportDrain_ddr (d : Dev) (j : Job) : (Dev.reportDrain d j).ddr = d.ddr := by
  unfold Dev.reportDrain
  repeat' first
    | with_reducible rfl
    | simp only [Dev.modJob_ddr, Dev.sendDrain_ddr]
    | dsimp only
    | split
    | (refine (foldl_ddr _ _ _ ?_).trans ?_ <;> try intro _ _)
    | (refine (foldl_ddr1 _ _ _ ?_).trans ?_ <;> try intro _ _)

theorem Dev.takeTrigger_ddr {d : Dev} {i : Nat} {r : Nat × Dev} (h : d.takeTrigger i = some r) : r.2.ddr = d.ddr := by
  unfold Dev.takeTrigger at h
  revert h
  repeat' first
    | (intro h; cases h; done)
    | (intro h; cases h; rfl)
    | (intro h; cases h; simp; done)
    | dsimp only
    | split

@[simp] theorem Dev.putDrain_ddr (d : Dev) (ljob : Nat) (chip : Nat) (shot : Nat) : (Dev.putDrain d ljob chip shot).ddr = d.ddr := by
  unfold Dev.putDrain
  repeat' first
    | with_reducible rfl
    | dsimp only
    | split
    | (refine (foldl_ddr _ _ _ ?_).trans ?_ <;> try intro _ _)
    | (refine (foldl_ddr1 _ _ _ ?_).trans ?_ <;> try intro _ _)

@[simp] theorem Dev.noteTrigger_ddr (d : Dev) (ljob : Nat) (t : Nat) : (Dev.noteTrigger d ljob t).ddr = d.ddr := by
  unfold Dev.noteTrigger
  repeat' first
    | with_reducible rfl
    | simp only [Dev.putDrain_ddr]
    | dsimp only
    | split
    | (refine (foldl_ddr _ _ _ ?_).trans ?_ <;> try intro _ _)
    | (refine (foldl_ddr1 _ _ _ ?_).trans ?_ <;> try intro _ _)

@[simp] theorem Dev.sendTrigger_ddr (d : Dev) (j : Job) (t : Nat) : (Dev.sendTrigger d j t).ddr = d.ddr := by
  unfold Dev.sendTrigger
  repeat' first
    | with_reducible rfl
    | simp only [Dev.modJob_ddr, Dev.noteTrigger_ddr, Dev.sendMsg_ddr]
    | dsimp only
    | split
    | (refine (foldl_ddr _ _ _ ?_).trans ?_ <;> try intro _ _)
    | (refine (foldl_ddr1 _ _ _ ?_).trans ?_ <;> try intro _ _)

@[simp] theorem Dev.seek_ddr (d : Dev) (seq : Nat) : (Dev.seek d seq).ddr = d.ddr := by
  unfold Dev.seek
  repeat' first
    | with_reducible rfl
    | simp only [Dev.fixStart_ddr, Dev.reportDrain_ddr, Dev.resultGate_ddr, Dev.sendTrigger_ddr]
    | dsimp only
    | split
    | (refine (foldl_ddr _ _ _ ?_).trans ?_ <;> try intro _ _)
    | (refine (foldl_ddr1 _ _ _ ?_).trans ?_ <;> try intro _ _)
    | (rename_i h; exact (Dev.takeTrigger_ddr h).trans (by simp))

@[simp] theorem Dev.dropDrain_ddr (d : Dev) (ljob : Nat) (p : Nat → Bool) : (Dev.dropDrain d ljob p).ddr = d.ddr := by
  unfold Dev.dropDrain
  repeat' first
    | with_reducible rfl
    | dsimp only
    | split
    | (refine (foldl_ddr _ _ _ ?_).trans ?_ <;> try intro _ _)
    | (refine (foldl_ddr1 _ _ _ ?_).trans ?_ <;> try intro _ _)

@[simp] theorem Dev.discardTentative_ddr (d : Dev) (j : Job) (a : Attempt) : (Dev.discardTentative d j a).ddr = d.ddr := by
  unfold Dev.discardTentative
  repeat' first
    | with_reducible rfl
    | simp only [Dev.bbWrite_ddr, Dev.flag_ddr, Dev.modJob_ddr]
    | dsimp only
    | split
    | (refine (foldl_ddr _ _ _ ?_).trans ?_ <;> try intro _ _)
    | (refine (foldl_ddr1 _ _ _ ?_).trans ?_ <;> try intro _ _)

@[simp] theorem Dev.dropTriggers_ddr (d : Dev) (j : Job) : (Dev.dropTriggers d j).ddr = d.ddr := by
  unfold Dev.dropTriggers
  repeat' first
    | with_reducible rfl
    | simp only [Dev.flagN_ddr, Dev.setTrigIn_ddr]
    | dsimp only
    | split
    | (refine (foldl_ddr _ _ _ ?_).trans ?_ <;> try intro _ _)
    | (refine (foldl_ddr1 _ _ _ ?_).trans ?_ <;> try intro _ _)

@[simp] theorem Dev.finishJob_ddr (d : Dev) (j : Job) : (Dev.finishJob d j).ddr = d.ddr := by
  unfold Dev.finishJob
  repeat' first
    | with_reducible rfl
    | simp only [Dev.dropTriggers_ddr, Dev.endJob_ddr]
    | dsimp only
    | split
    | (refine (foldl_ddr _ _ _ ?_).trans ?_ <;> try intro _ _)
    | (refine (foldl_ddr1 _ _ _ ?_).trans ?_ <;> try intro _ _)

@[simp] theorem Dev.leaveResidence_ddr (d : Dev) (seq : Nat) : (Dev.leaveResidence d seq).ddr = d.ddr := by
  unfold Dev.leaveResidence
  repeat' first
    | with_reducible rfl
    | simp only [Dev.flushStage_ddr, Dev.leaveIfDone_ddr, Dev.release_ddr]
    | dsimp only
    | split
    | (refine (foldl_ddr _ _ _ ?_).trans ?_ <;> try intro _ _)
    | (refine (foldl_ddr1 _ _ _ ?_).trans ?_ <;> try intro _ _)

@[simp] theorem Dev.takeShotStart_ddr (d : Dev) (m : LatMsg) : (Dev.takeShotStart d m).ddr = d.ddr := by
  unfold Dev.takeShotStart
  repeat' first
    | with_reducible rfl
    | simp only [Dev.discardTentative_ddr, Dev.finishJob_ddr, Dev.fixStart_ddr, Dev.flushStage_ddr, Dev.leaveResidence_ddr, Dev.modJob_ddr, Dev.stopJob_ddr]
    | dsimp only
    | split
    | (refine (foldl_ddr _ _ _ ?_).trans ?_ <;> try intro _ _)
    | (refine (foldl_ddr1 _ _ _ ?_).trans ?_ <;> try intro _ _)

@[simp] theorem Dev.toChips_ddr (d : Dev) (ljob : Nat) (kind : Nat) (m : LatMsg) : (Dev.toChips d ljob kind m).ddr = d.ddr := by
  unfold Dev.toChips
  repeat' first
    | with_reducible rfl
    | simp only [Dev.sendMsg_ddr]
    | dsimp only
    | split
    | (refine (foldl_ddr _ _ _ ?_).trans ?_ <;> try intro _ _)
    | (refine (foldl_ddr1 _ _ _ ?_).trans ?_ <;> try intro _ _)

@[simp] theorem Dev.rootTry_ddr (d : Dev) (ljob : Nat) : (Dev.rootTry d ljob).ddr = d.ddr := by
  unfold Dev.rootTry
  repeat' first
    | with_reducible rfl
    | simp only [Dev.dropDrain_ddr, Dev.takeShotStart_ddr, Dev.toChips_ddr]
    | dsimp only
    | split
    | (refine (foldl_ddr _ _ _ ?_).trans ?_ <;> try intro _ _)
    | (refine (foldl_ddr1 _ _ _ ?_).trans ?_ <;> try intro _ _)

@[simp] theorem Dev.rootAll_ddr (d : Dev) : (Dev.rootAll d).ddr = d.ddr := by
  unfold Dev.rootAll
  repeat' first
    | with_reducible rfl
    | simp only [Dev.rootTry_ddr]
    | dsimp only
    | split
    | (refine (foldl_ddr _ _ _ ?_).trans ?_ <;> try intro _ _)
    | (refine (foldl_ddr1 _ _ _ ?_).trans ?_ <;> try intro _ _)

@[simp] theorem Dev.seekStart_ddr (d : Dev) (seq : Nat) : (Dev.seekStart d seq).ddr = d.ddr := by
  unfold Dev.seekStart
  repeat' first
    | with_reducible rfl
    | simp only [Dev.rootAll_ddr, Dev.seek_ddr]
    | dsimp only
    | split
    | (refine (foldl_ddr _ _ _ ?_).trans ?_ <;> try intro _ _)
    | (refine (foldl_ddr1 _ _ _ ?_).trans ?_ <;> try intro _ _)

@[simp] theorem Dev.drainTick_ddr (d : Dev) : (Dev.drainTick d).ddr = d.ddr := by
  unfold Dev.drainTick
  repeat' first
    | with_reducible rfl
    | simp only [Dev.modJob_ddr, Dev.reportDrain_ddr, Dev.rootAll_ddr, Dev.seekStart_ddr]
    | dsimp only
    | split
    | (refine (foldl_ddr _ _ _ ?_).trans ?_ <;> try intro _ _)
    | (refine (foldl_ddr1 _ _ _ ?_).trans ?_ <;> try intro _ _)

@[simp] theorem Dev.beginShot_ddr (d : Dev) (j : Job) (t : Nat) : (Dev.beginShot d j t).ddr = d.ddr := by
  unfold Dev.beginShot
  repeat' first
    | with_reducible rfl
    | simp only [Dev.acqBegin_ddr, Dev.addCond_ddr, Dev.produce_ddr, Dev.syncState_ddr, Dev.trigCause_ddr, Dev.wr_ddr]
    | dsimp only
    | split
    | (refine (foldl_ddr _ _ _ ?_).trans ?_ <;> try intro _ _)
    | (refine (foldl_ddr1 _ _ _ ?_).trans ?_ <;> try intro _ _)

@[simp] theorem shotStartOp_ddr (seq : Nat) (d : Dev) : (shotStartOp seq d).ddr = d.ddr := by
  unfold shotStartOp
  repeat' first
    | with_reducible rfl
    | simp only [Dev.beginShot_ddr, Dev.dropStart_ddr, Dev.flag_ddr, Dev.modJob_ddr, Dev.noteStamp_ddr, Dev.placeStart_ddr, Dev.reportDrain_ddr, Dev.restartPeaks_ddr]
    | dsimp only
    | split
    | (refine (foldl_ddr _ _ _ ?_).trans ?_ <;> try intro _ _)
    | (refine (foldl_ddr1 _ _ _ ?_).trans ?_ <;> try intro _ _)

@[simp] theorem Dev.closeCore_ddr (d : Dev) (c : Nat) : (Dev.closeCore d c).ddr = d.ddr := by
  unfold Dev.closeCore
  repeat' first
    | with_reducible rfl
    | simp only [Dev.bump_ddr, Dev.setCore_ddr, Dev.wr_ddr]
    | dsimp only
    | split
    | (refine (foldl_ddr _ _ _ ?_).trans ?_ <;> try intro _ _)
    | (refine (foldl_ddr1 _ _ _ ?_).trans ?_ <;> try intro _ _)

@[simp] theorem Dev.closeChannel_ddr (d : Dev) (c : Nat) : (Dev.closeChannel d c).ddr = d.ddr := by
  unfold Dev.closeChannel
  repeat' first
    | with_reducible rfl
    | simp only [Dev.setAcq_ddr, Dev.wr_ddr]
    | dsimp only
    | split
    | (refine (foldl_ddr _ _ _ ?_).trans ?_ <;> try intro _ _)
    | (refine (foldl_ddr1 _ _ _ ?_).trans ?_ <;> try intro _ _)

@[simp] theorem Dev.settleAttempt_ddr (d : Dev) (j : Job) : (Dev.settleAttempt d j).ddr = d.ddr := by
  unfold Dev.settleAttempt
  repeat' first
    | with_reducible rfl
    | simp only [Dev.modJob_ddr, Dev.noteStamp_ddr]
    | dsimp only
    | split
    | (refine (foldl_ddr _ _ _ ?_).trans ?_ <;> try intro _ _)
    | (refine (foldl_ddr1 _ _ _ ?_).trans ?_ <;> try intro _ _)

@[simp] theorem Dev.afterDrain_ddr (d : Dev) (j : Job) : (Dev.afterDrain d j).ddr = d.ddr := by
  unfold Dev.afterDrain
  repeat' first
    | with_reducible rfl
    | simp only [Dev.dropTriggers_ddr, Dev.endJob_ddr, Dev.finishJob_ddr, Dev.modJob_ddr, Dev.syncState_ddr]
    | dsimp only
    | split
    | (refine (foldl_ddr _ _ _ ?_).trans ?_ <;> try intro _ _)
    | (refine (foldl_ddr1 _ _ _ ?_).trans ?_ <;> try intro _ _)

@[simp] theorem drainCompleteOp_ddr (seq : Nat) (d : Dev) : (drainCompleteOp seq d).ddr = d.ddr := by
  unfold drainCompleteOp
  repeat' first
    | with_reducible rfl
    | simp only [Dev.afterDrain_ddr, Dev.closeChannel_ddr, Dev.closeCore_ddr, Dev.modJob_ddr, Dev.produce_ddr, Dev.settleAttempt_ddr]
    | dsimp only
    | split
    | (refine (foldl_ddr _ _ _ ?_).trans ?_ <;> try intro _ _)
    | (refine (foldl_ddr1 _ _ _ ?_).trans ?_ <;> try intro _ _)

@[simp] theorem Dev.commitDone_ddr (d : Dev) : (Dev.commitDone d).ddr = d.ddr := by
  unfold Dev.commitDone
  repeat' first
    | with_reducible rfl
    | simp only [Dev.wrs_ddr]
    | dsimp only
    | split
    | (refine (foldl_ddr _ _ _ ?_).trans ?_ <;> try intro _ _)
    | (refine (foldl_ddr1 _ _ _ ?_).trans ?_ <;> try intro _ _)

@[simp] theorem Dev.applyJobWords_ddr (d : Dev) (j : Job) : (Dev.applyJobWords d j).ddr = d.ddr := by
  unfold Dev.applyJobWords
  repeat' first
    | with_reducible rfl
    | simp only [Dev.applyWords_ddr, Dev.commitDone_ddr, Dev.flag_ddr, Dev.wrs_ddr]
    | dsimp only
    | split
    | (refine (foldl_ddr _ _ _ ?_).trans ?_ <;> try intro _ _)
    | (refine (foldl_ddr1 _ _ _ ?_).trans ?_ <;> try intro _ _)

@[simp] theorem Dev.resetFrames_ddr (d : Dev) (j : Job) (p : CanvasPlace) : (Dev.resetFrames d j p).ddr = d.ddr := by
  unfold Dev.resetFrames
  repeat' first
    | with_reducible rfl
    | simp only [Dev.receiveChange_ddr, Dev.setFrame_ddr, Dev.setSlotRx_ddr]
    | dsimp only
    | split
    | (refine (foldl_ddr _ _ _ ?_).trans ?_ <;> try intro _ _)
    | (refine (foldl_ddr1 _ _ _ ?_).trans ?_ <;> try intro _ _)

@[simp] theorem Dev.resetHolds_ddr (d : Dev) (j : Job) : (Dev.resetHolds d j).ddr = d.ddr := by
  unfold Dev.resetHolds
  repeat' first
    | with_reducible rfl
    | simp only [Dev.setHold_ddr, Dev.setIdle_ddr]
    | dsimp only
    | split
    | (refine (foldl_ddr _ _ _ ?_).trans ?_ <;> try intro _ _)
    | (refine (foldl_ddr1 _ _ _ ?_).trans ?_ <;> try intro _ _)

@[simp] theorem Dev.restartStreams_ddr (d : Dev) (j : Job) : (Dev.restartStreams d j).ddr = d.ddr := by
  unfold Dev.restartStreams
  repeat' first
    | with_reducible rfl
    | simp only [Dev.setStream_ddr, Dev.wrs_ddr]
    | dsimp only
    | split
    | (refine (foldl_ddr _ _ _ ?_).trans ?_ <;> try intro _ _)
    | (refine (foldl_ddr1 _ _ _ ?_).trans ?_ <;> try intro _ _)

@[simp] theorem Dev.restartCores_ddr (d : Dev) (j : Job) : (Dev.restartCores d j).ddr = d.ddr := by
  unfold Dev.restartCores
  repeat' first
    | with_reducible rfl
    | simp only [Dev.setCore_ddr, Dev.wrs_ddr]
    | dsimp only
    | split
    | (refine (foldl_ddr _ _ _ ?_).trans ?_ <;> try intro _ _)
    | (refine (foldl_ddr1 _ _ _ ?_).trans ?_ <;> try intro _ _)

@[simp] theorem Dev.idleMarkers_ddr (d : Dev) (j : Job) : (Dev.idleMarkers d j).ddr = d.ddr := by
  unfold Dev.idleMarkers
  repeat' first
    | with_reducible rfl
    | simp only [Dev.setMarker_ddr]
    | dsimp only
    | split
    | (refine (foldl_ddr _ _ _ ?_).trans ?_ <;> try intro _ _)
    | (refine (foldl_ddr1 _ _ _ ?_).trans ?_ <;> try intro _ _)

@[simp] theorem Dev.boundaryThreads_ddr (d : Dev) (j : Job) : (Dev.boundaryThreads d j).ddr = d.ddr := by
  unfold Dev.boundaryThreads
  repeat' first
    | with_reducible rfl
    | simp only [Dev.resetFrames_ddr, Dev.resetThread_ddr, Dev.restThread_ddr]
    | dsimp only
    | split
    | (refine (foldl_ddr _ _ _ ?_).trans ?_ <;> try intro _ _)
    | (refine (foldl_ddr1 _ _ _ ?_).trans ?_ <;> try intro _ _)

@[simp] theorem Dev.boundaryResets_ddr (d : Dev) (j : Job) : (Dev.boundaryResets d j).ddr = d.ddr := by
  unfold Dev.boundaryResets
  repeat' first
    | with_reducible rfl
    | simp only [Dev.boundaryThreads_ddr, Dev.idleMarkers_ddr, Dev.resetHolds_ddr, Dev.restartCores_ddr, Dev.restartStreams_ddr]
    | dsimp only
    | split
    | (refine (foldl_ddr _ _ _ ?_).trans ?_ <;> try intro _ _)
    | (refine (foldl_ddr1 _ _ _ ?_).trans ?_ <;> try intro _ _)

@[simp] theorem Dev.boundaryRoutes_ddr (d : Dev) (j : Job) : (Dev.boundaryRoutes d j).ddr = d.ddr := by
  unfold Dev.boundaryRoutes
  repeat' first
    | with_reducible rfl
    | simp only [Dev.flag_ddr, Dev.report_ddr, Dev.setRoutes_ddr]
    | dsimp only
    | split
    | (refine (foldl_ddr _ _ _ ?_).trans ?_ <;> try intro _ _)
    | (refine (foldl_ddr1 _ _ _ ?_).trans ?_ <;> try intro _ _)

@[simp] theorem shotBoundaryOp_ddr (seq : Nat) (d : Dev) : (shotBoundaryOp seq d).ddr = d.ddr := by
  unfold shotBoundaryOp
  repeat' first
    | with_reducible rfl
    | simp only [Dev.applyJobWords_ddr, Dev.applyStage_ddr, Dev.boundaryResets_ddr, Dev.boundaryRoutes_ddr, Dev.flushStage_ddr, Dev.hkTrigger_ddr, Dev.leaveResidence_ddr, Dev.modJob_ddr, Dev.reportDrain_ddr, Dev.rootAll_ddr, Dev.seekStart_ddr, Dev.stopJob_ddr]
    | dsimp only
    | split
    | (refine (foldl_ddr _ _ _ ?_).trans ?_ <;> try intro _ _)
    | (refine (foldl_ddr1 _ _ _ ?_).trans ?_ <;> try intro _ _)

@[simp] theorem Dev.queueTrigger_ddr (d : Dev) (i : Nat) (t : Nat) : (Dev.queueTrigger d i t).ddr = d.ddr := by
  unfold Dev.queueTrigger
  repeat' first
    | with_reducible rfl
    | simp only [Dev.flag_ddr, Dev.setTrigIn_ddr]
    | dsimp only
    | split
    | (refine (foldl_ddr _ _ _ ?_).trans ?_ <;> try intro _ _)
    | (refine (foldl_ddr1 _ _ _ ?_).trans ?_ <;> try intro _ _)

@[simp] theorem Dev.shotTrigger_ddr (d : Dev) (i : Nat) (c : Nat) (j : Job) : (Dev.shotTrigger d i c j).ddr = d.ddr := by
  unfold Dev.shotTrigger
  repeat' first
    | with_reducible rfl
    | simp only [Dev.flag_ddr, Dev.queueTrigger_ddr, Dev.seek_ddr, Dev.sendTrigger_ddr, Dev.setTrigIn_ddr]
    | dsimp only
    | split
    | (refine (foldl_ddr _ _ _ ?_).trans ?_ <;> try intro _ _)
    | (refine (foldl_ddr1 _ _ _ ?_).trans ?_ <;> try intro _ _)

@[simp] theorem trigInOp_ddr (i : Nat) (rising : Bool) (edge : Nat) (d : Dev) : (trigInOp i rising edge d).ddr = d.ddr := by
  unfold trigInOp
  repeat' first
    | with_reducible rfl
    | simp only [Dev.addCond_ddr, Dev.produceAt_ddr, Dev.rootAll_ddr, Dev.setTrigIn_ddr, Dev.shotTrigger_ddr, Dev.trigCause_ddr, Dev.wr_ddr]
    | dsimp only
    | split
    | (refine (foldl_ddr _ _ _ ?_).trans ?_ <;> try intro _ _)
    | (refine (foldl_ddr1 _ _ _ ?_).trans ?_ <;> try intro _ _)

@[simp] theorem Dev.enterHalted_ddr (d : Dev) (j : Job) : (Dev.enterHalted d j).ddr = d.ddr := by
  unfold Dev.enterHalted
  repeat' first
    | with_reducible rfl
    | simp only [Dev.dropStart_ddr, Dev.modJob_ddr, Dev.resetHolds_ddr, Dev.syncState_ddr]
    | dsimp only
    | split
    | (refine (foldl_ddr _ _ _ ?_).trans ?_ <;> try intro _ _)
    | (refine (foldl_ddr1 _ _ _ ?_).trans ?_ <;> try intro _ _)

@[simp] theorem Dev.localHalt_ddr (d : Dev) (seq : Nat) : (Dev.localHalt d seq).ddr = d.ddr := by
  unfold Dev.localHalt
  repeat' first
    | with_reducible rfl
    | simp only [Dev.enterHalted_ddr, Dev.modJob_ddr, Dev.syncState_ddr]
    | dsimp only
    | split
    | (refine (foldl_ddr _ _ _ ?_).trans ?_ <;> try intro _ _)
    | (refine (foldl_ddr1 _ _ _ ?_).trans ?_ <;> try intro _ _)

@[simp] theorem Dev.localResume_ddr (d : Dev) (seq : Nat) : (Dev.localResume d seq).ddr = d.ddr := by
  unfold Dev.localResume
  repeat' first
    | with_reducible rfl
    | simp only [Dev.fixStart_ddr, Dev.modJob_ddr, Dev.resetHolds_ddr, Dev.resultGate_ddr, Dev.seekStart_ddr, Dev.syncState_ddr]
    | dsimp only
    | split
    | (refine (foldl_ddr _ _ _ ?_).trans ?_ <;> try intro _ _)
    | (refine (foldl_ddr1 _ _ _ ?_).trans ?_ <;> try intro _ _)

@[simp] theorem Dev.localCancel_ddr (d : Dev) (seq : Nat) : (Dev.localCancel d seq).ddr = d.ddr := by
  unfold Dev.localCancel
  repeat' first
    | with_reducible rfl
    | simp only [Dev.dropStart_ddr, Dev.dropTriggers_ddr, Dev.endJob_ddr, Dev.leaveResidence_ddr, Dev.leave_ddr, Dev.modJob_ddr, Dev.syncState_ddr]
    | dsimp only
    | split
    | (refine (foldl_ddr _ _ _ ?_).trans ?_ <;> try intro _ _)
    | (refine (foldl_ddr1 _ _ _ ?_).trans ?_ <;> try intro _ _)

@[simp] theorem Dev.localStart_ddr (d : Dev) (seq : Nat) : (Dev.localStart d seq).ddr = d.ddr := by
  unfold Dev.localStart
  repeat' first
    | with_reducible rfl
    | simp only [Dev.modJob_ddr, Dev.seekStart_ddr]
    | dsimp only
    | split
    | (refine (foldl_ddr _ _ _ ?_).trans ?_ <;> try intro _ _)
    | (refine (foldl_ddr1 _ _ _ ?_).trans ?_ <;> try intro _ _)

theorem Dev.receiveMsg_ddr (d : Dev) (kind : Nat) (m : LatMsg) (use : Dev → Dev) (hu : ∀ e, (use e).ddr = e.ddr) :
    (d.receiveMsg kind m use).ddr = d.ddr := by
  unfold Dev.receiveMsg
  repeat' first
    | with_reducible rfl
    | simp only [hu, Dev.sendMsg_ddr]
    | simp
    | dsimp only
    | split

@[simp] theorem Dev.jobCommand_ddr (d : Dev) (kind : Nat) (m : LatMsg) : (Dev.jobCommand d kind m).ddr = d.ddr := by
  unfold Dev.jobCommand
  repeat' first
    | with_reducible rfl
    | simp only [Dev.dropDrain_ddr, Dev.localCancel_ddr, Dev.localHalt_ddr, Dev.localResume_ddr, Dev.putDrain_ddr, Dev.rootTry_ddr, Dev.toChips_ddr]
    | dsimp only
    | split
    | (refine (foldl_ddr _ _ _ ?_).trans ?_ <;> try intro _ _)
    | (refine (foldl_ddr1 _ _ _ ?_).trans ?_ <;> try intro _ _)

@[simp] theorem drainDoneOp_ddr (m : LatMsg) (d : Dev) : (drainDoneOp m d).ddr = d.ddr := by
  unfold drainDoneOp
  repeat' first
    | with_reducible rfl
    | simp only [Dev.rootTry_ddr, Dev.takeDrain_ddr]
    | dsimp only
    | split
    | (refine (foldl_ddr _ _ _ ?_).trans ?_ <;> try intro _ _)
    | (refine (foldl_ddr1 _ _ _ ?_).trans ?_ <;> try intro _ _)
    | (refine Dev.receiveMsg_ddr _ _ _ _ ?_ <;> try intro _)

@[simp] theorem shotStartMsgOp_ddr (m : LatMsg) (d : Dev) : (shotStartMsgOp m d).ddr = d.ddr := by
  unfold shotStartMsgOp
  repeat' first
    | with_reducible rfl
    | simp only [Dev.takeShotStart_ddr]
    | dsimp only
    | split
    | (refine (foldl_ddr _ _ _ ?_).trans ?_ <;> try intro _ _)
    | (refine (foldl_ddr1 _ _ _ ?_).trans ?_ <;> try intro _ _)
    | (refine Dev.receiveMsg_ddr _ _ _ _ ?_ <;> try intro _)

@[simp] theorem triggerMsgOp_ddr (m : LatMsg) (d : Dev) : (triggerMsgOp m d).ddr = d.ddr := by
  unfold triggerMsgOp
  repeat' first
    | with_reducible rfl
    | simp only [Dev.noteTrigger_ddr, Dev.rootTry_ddr]
    | dsimp only
    | split
    | (refine (foldl_ddr _ _ _ ?_).trans ?_ <;> try intro _ _)
    | (refine (foldl_ddr1 _ _ _ ?_).trans ?_ <;> try intro _ _)
    | (refine Dev.receiveMsg_ddr _ _ _ _ ?_ <;> try intro _)

@[simp] theorem haltMsgOp_ddr (m : LatMsg) (d : Dev) : (haltMsgOp m d).ddr = d.ddr := by
  unfold haltMsgOp
  repeat' first
    | with_reducible rfl
    | simp only [Dev.jobCommand_ddr]
    | dsimp only
    | split
    | (refine (foldl_ddr _ _ _ ?_).trans ?_ <;> try intro _ _)
    | (refine (foldl_ddr1 _ _ _ ?_).trans ?_ <;> try intro _ _)
    | (refine Dev.receiveMsg_ddr _ _ _ _ ?_ <;> try intro _)

@[simp] theorem resumeMsgOp_ddr (m : LatMsg) (d : Dev) : (resumeMsgOp m d).ddr = d.ddr := by
  unfold resumeMsgOp
  repeat' first
    | with_reducible rfl
    | simp only [Dev.jobCommand_ddr]
    | dsimp only
    | split
    | (refine (foldl_ddr _ _ _ ?_).trans ?_ <;> try intro _ _)
    | (refine (foldl_ddr1 _ _ _ ?_).trans ?_ <;> try intro _ _)
    | (refine Dev.receiveMsg_ddr _ _ _ _ ?_ <;> try intro _)

@[simp] theorem cancelMsgOp_ddr (m : LatMsg) (d : Dev) : (cancelMsgOp m d).ddr = d.ddr := by
  unfold cancelMsgOp
  repeat' first
    | with_reducible rfl
    | simp only [Dev.jobCommand_ddr]
    | dsimp only
    | split
    | (refine (foldl_ddr _ _ _ ?_).trans ?_ <;> try intro _ _)
    | (refine (foldl_ddr1 _ _ _ ?_).trans ?_ <;> try intro _ _)
    | (refine Dev.receiveMsg_ddr _ _ _ _ ?_ <;> try intro _)

@[simp] theorem Dev.commandToRoot_ddr (d : Dev) (kind : Nat) (j : Job) : (Dev.commandToRoot d kind j).ddr = d.ddr := by
  unfold Dev.commandToRoot
  repeat' first
    | with_reducible rfl
    | simp only [Dev.jobCommand_ddr]
    | dsimp only
    | split
    | (refine (foldl_ddr _ _ _ ?_).trans ?_ <;> try intro _ _)
    | (refine (foldl_ddr1 _ _ _ ?_).trans ?_ <;> try intro _ _)
    | (refine Dev.receiveMsg_ddr _ _ _ _ ?_ <;> try intro _)

@[simp] theorem Dev.seekAll_ddr (d : Dev) : (Dev.seekAll d).ddr = d.ddr := by
  unfold Dev.seekAll
  repeat' first
    | with_reducible rfl
    | simp only [Dev.seekStart_ddr]
    | dsimp only
    | split
    | (refine (foldl_ddr _ _ _ ?_).trans ?_ <;> try intro _ _)
    | (refine (foldl_ddr1 _ _ _ ?_).trans ?_ <;> try intro _ _)

@[simp] theorem takeoverAllOp_ddr (d : Dev) : (takeoverAllOp d).ddr = d.ddr := by
  unfold takeoverAllOp
  repeat' first
    | with_reducible rfl
    | simp only [Dev.rootAll_ddr, Dev.seekAll_ddr, takeoverOp_ddr]
    | dsimp only
    | split
    | (refine (foldl_ddr _ _ _ ?_).trans ?_ <;> try intro _ _)
    | (refine (foldl_ddr1 _ _ _ ?_).trans ?_ <;> try intro _ _)

@[simp] theorem resyncAllOp_ddr (offset : Int) (d : Dev) : (resyncAllOp offset d).ddr = d.ddr := by
  unfold resyncAllOp
  repeat' first
    | with_reducible rfl
    | simp only [Dev.seekStart_ddr, resyncCompleteOp_ddr]
    | dsimp only
    | split
    | (refine (foldl_ddr _ _ _ ?_).trans ?_ <;> try intro _ _)
    | (refine (foldl_ddr1 _ _ _ ?_).trans ?_ <;> try intro _ _)

@[simp] theorem Dev.refuseJob_ddr (d : Dev) (j : Job) (fs : List Failure) : (Dev.refuseJob d j fs).ddr = d.ddr := by
  unfold Dev.refuseJob
  repeat' first
    | with_reducible rfl
    | simp only [Dev.flag_ddr, Dev.modJob_ddr, Dev.report_ddr]
    | dsimp only
    | split
    | (refine (foldl_ddr _ _ _ ?_).trans ?_ <;> try intro _ _)
    | (refine (foldl_ddr1 _ _ _ ?_).trans ?_ <;> try intro _ _)

@[simp] theorem placementOp_ddr (d : Dev) : (placementOp d).ddr = d.ddr := by
  unfold placementOp
  repeat' first
    | with_reducible rfl
    | simp only [Dev.modJob_ddr, Dev.refuseJob_ddr, Dev.report_ddr, Dev.resetFrames_ddr, Dev.resetHolds_ddr, Dev.seekStart_ddr, Dev.settle_ddr, Dev.syncState_ddr]
    | dsimp only
    | split
    | (refine (foldl_ddr _ _ _ ?_).trans ?_ <;> try intro _ _)
    | (refine (foldl_ddr1 _ _ _ ?_).trans ?_ <;> try intro _ _)

@[simp] theorem Dev.noteMove_ddr (d : Dev) (u : UnitRef) (js : List Job) (es : Job → List (List Byte)) : (Dev.noteMove d u js es).ddr = d.ddr := by
  unfold Dev.noteMove
  repeat' first
    | with_reducible rfl
    | simp only [Dev.bbWrite_ddr, Dev.flag_ddr, Dev.report_ddr, Dev.wr_ddr]
    | dsimp only
    | split
    | (refine (foldl_ddr _ _ _ ?_).trans ?_ <;> try intro _ _)
    | (refine (foldl_ddr1 _ _ _ ?_).trans ?_ <;> try intro _ _)

@[simp] theorem Dev.sproutEasel_ddr (d : Dev) (e : Nat) (s : Nat) (js : List Job) : (Dev.sproutEasel d e s js).ddr = d.ddr := by
  unfold Dev.sproutEasel
  repeat' first
    | with_reducible rfl
    | simp only [Dev.flag_ddr, Dev.noteMove_ddr, Dev.wrBit_ddr, Dev.wr_ddr, Dev.wrs_ddr]
    | dsimp only
    | split
    | (refine (foldl_ddr _ _ _ ?_).trans ?_ <;> try intro _ _)
    | (refine (foldl_ddr1 _ _ _ ?_).trans ?_ <;> try intro _ _)

@[simp] theorem Dev.moveBindings_ddr (d : Dev) (p : CanvasPlace) (m : Nat) : (Dev.moveBindings d p m).ddr = d.ddr := by
  unfold Dev.moveBindings
  repeat' first
    | with_reducible rfl
    | simp only [Dev.setFrame_ddr, Dev.setThread_ddr, Dev.unwr_ddr, Dev.wr_ddr]
    | dsimp only
    | split
    | (refine (foldl_ddr _ _ _ ?_).trans ?_ <;> try intro _ _)
    | (refine (foldl_ddr1 _ _ _ ?_).trans ?_ <;> try intro _ _)

@[simp] theorem Dev.moveCanvases_ddr (d : Dev) (seq : Nat) (e : Nat) : (Dev.moveCanvases d seq e).1.ddr = d.ddr := by
  unfold Dev.moveCanvases
  repeat' first
    | with_reducible rfl
    | simp only [Dev.loadTable_ddr, Dev.modJob_ddr, Dev.moveBindings_ddr]
    | dsimp only
    | split
    | (refine (foldl_ddr _ _ _ ?_).trans ?_ <;> try intro _ _)
    | (refine (foldl_ddr1 _ _ _ ?_).trans ?_ <;> try intro _ _)

@[simp] theorem Dev.sproutCore_ddr (d : Dev) (c : Nat) (js : List Job) : (Dev.sproutCore d c js).ddr = d.ddr := by
  unfold Dev.sproutCore
  repeat' first
    | with_reducible rfl
    | simp only [Dev.flag_ddr, Dev.modJob_ddr, Dev.noteMove_ddr, Dev.setCore_ddr, Dev.wrBit_ddr, Dev.wrs_ddr]
    | dsimp only
    | split
    | (refine (foldl_ddr _ _ _ ?_).trans ?_ <;> try intro _ _)
    | (refine (foldl_ddr1 _ _ _ ?_).trans ?_ <;> try intro _ _)

@[simp] theorem Dev.settleDue_ddr (d : Dev) (u : UnitRef) : (Dev.settleDue d u).ddr = d.ddr := by
  unfold Dev.settleDue
  repeat' first
    | with_reducible rfl
    | dsimp only
    | split
    | (refine (foldl_ddr _ _ _ ?_).trans ?_ <;> try intro _ _)
    | (refine (foldl_ddr1 _ _ _ ?_).trans ?_ <;> try intro _ _)

@[simp] theorem sproutOp_ddr (u : UnitRef) (d : Dev) : (sproutOp u d).ddr = d.ddr := by
  unfold sproutOp
  repeat' first
    | with_reducible rfl
    | simp only [Dev.flag_ddr, Dev.moveCanvases_ddr, Dev.noSpare_ddr, Dev.noteMove_ddr, Dev.refreshUnits_ddr, Dev.seekStart_ddr, Dev.settleDue_ddr, Dev.sproutCore_ddr, Dev.sproutEasel_ddr]
    | dsimp only
    | split
    | (refine (foldl_ddr _ _ _ ?_).trans ?_ <;> try intro _ _)
    | (refine (foldl_ddr1 _ _ _ ?_).trans ?_ <;> try intro _ _)

@[simp] theorem retireOp_ddr (u : UnitRef) (d : Dev) : (retireOp u d).ddr = d.ddr := by
  unfold retireOp
  repeat' first
    | with_reducible rfl
    | simp only [Dev.retireNow_ddr]
    | dsimp only
    | split
    | (refine (foldl_ddr _ _ _ ?_).trans ?_ <;> try intro _ _)
    | (refine (foldl_ddr1 _ _ _ ?_).trans ?_ <;> try intro _ _)

@[simp] theorem flowMoveOp_ddr (h : Nat) (d : Dev) : (flowMoveOp h d).ddr = d.ddr := by
  unfold flowMoveOp
  repeat' first
    | with_reducible rfl
    | simp only [Dev.flag_ddr, Dev.modJob_ddr, Dev.report_ddr]
    | dsimp only
    | split
    | (refine (foldl_ddr _ _ _ ?_).trans ?_ <;> try intro _ _)
    | (refine (foldl_ddr1 _ _ _ ?_).trans ?_ <;> try intro _ _)

@[simp] theorem csRestoreCompleteOp_ddr (x : CtxRef) (ok : Bool) (d : Dev) : (csRestoreCompleteOp x ok d).ddr = d.ddr := by
  unfold csRestoreCompleteOp
  repeat' first
    | with_reducible rfl
    | simp only [Dev.retireNow_ddr, Dev.setCtx_ddr]
    | dsimp only
    | split
    | (refine (foldl_ddr _ _ _ ?_).trans ?_ <;> try intro _ _)
    | (refine (foldl_ddr1 _ _ _ ?_).trans ?_ <;> try intro _ _)

@[simp] theorem dspPmRestoreCompleteOp_ddr (c : Nat) (ok : Bool) (d : Dev) : (dspPmRestoreCompleteOp c ok d).ddr = d.ddr := by
  unfold dspPmRestoreCompleteOp
  repeat' first
    | with_reducible rfl
    | simp only [Dev.retireNow_ddr, Dev.setCore_ddr]
    | dsimp only
    | split
    | (refine (foldl_ddr _ _ _ ?_).trans ?_ <;> try intro _ _)
    | (refine (foldl_ddr1 _ _ _ ?_).trans ?_ <;> try intro _ _)

@[simp] theorem decisionBlockOp_ddr (c : CellHdr) (dest : W64) (w0 : W64) (w1 : W64) (d : Dev) : (decisionBlockOp c dest w0 w1 d).ddr = d.ddr := by
  unfold decisionBlockOp
  repeat' first
    | with_reducible rfl
    | simp only [Dev.rxCell_ddr, Dev.takeBlock_ddr]
    | dsimp only
    | split
    | (refine (foldl_ddr _ _ _ ?_).trans ?_ <;> try intro _ _)
    | (refine (foldl_ddr1 _ _ _ ?_).trans ?_ <;> try intro _ _)

@[simp] theorem Dev.afterAck_ddr (d : Dev) : (Dev.afterAck d).ddr = d.ddr := by
  unfold Dev.afterAck
  repeat' first
    | with_reducible rfl
    | simp only [Dev.seekStart_ddr]
    | dsimp only
    | split
    | (refine (foldl_ddr _ _ _ ?_).trans ?_ <;> try intro _ _)
    | (refine (foldl_ddr1 _ _ _ ?_).trans ?_ <;> try intro _ _)

end Sys2Proof.Machine
end

