-- ==== Sys2Proof/Laws/MemH.lean ====
section
/-! SUPPORT. What each operation does to the bytes of DDR4 (checks, replies, power, QOP, requests, ticks): most leave them, the few that store keep
their canonical form. One lemma per operation, cited by the laws of the step. -/

set_option linter.all false
set_option linter.unreachableTactic false
set_option linter.unusedTactic false

namespace Sys2Proof.Machine

@[simp] theorem custImageOp_ddr (len : Nat) (img : List W192) (d : Dev) : (custImageOp len img d).ddr = d.ddr := by
  unfold custImageOp
  repeat' first
    | with_reducible rfl
    | simp only [Dev.conflict_ddr, Dev.wr_ddr, Dev.wrs_ddr]
    | dsimp only
    | split
    | (refine (foldl_ddr _ _ _ ?_).trans ?_ <;> try intro _ _)
    | (refine (foldl_ddr1 _ _ _ ?_).trans ?_ <;> try intro _ _)

@[simp] theorem custClearOp_ddr (d : Dev) : (custClearOp d).ddr = d.ddr := by
  unfold custClearOp
  repeat' first
    | with_reducible rfl
    | simp only [Dev.conflict_ddr, Dev.wrs_ddr]
    | dsimp only
    | split
    | (refine (foldl_ddr _ _ _ ?_).trans ?_ <;> try intro _ _)
    | (refine (foldl_ddr1 _ _ _ ?_).trans ?_ <;> try intro _ _)

@[simp] theorem cfgSaveOp_ddr (d : Dev) : (cfgSaveOp d).ddr = d.ddr := by
  unfold cfgSaveOp
  repeat' first
    | with_reducible rfl
    | simp only [Dev.conflict_ddr, Dev.wr_ddr]
    | dsimp only
    | split
    | (refine (foldl_ddr _ _ _ ?_).trans ?_ <;> try intro _ _)
    | (refine (foldl_ddr1 _ _ _ ?_).trans ?_ <;> try intro _ _)

@[simp] theorem cfgSaveCompleteOp_ddr (d : Dev) : (cfgSaveCompleteOp d).ddr = d.ddr := by
  unfold cfgSaveCompleteOp
  repeat' first
    | with_reducible rfl
    | simp only [Dev.noteStamp_ddr, Dev.wrs_ddr]
    | dsimp only
    | split
    | (refine (foldl_ddr _ _ _ ?_).trans ?_ <;> try intro _ _)
    | (refine (foldl_ddr1 _ _ _ ?_).trans ?_ <;> try intro _ _)

@[simp] theorem cfgEraseOp_ddr (d : Dev) : (cfgEraseOp d).ddr = d.ddr := by
  unfold cfgEraseOp
  repeat' first
    | with_reducible rfl
    | simp only [Dev.conflict_ddr, Dev.wrs_ddr]
    | dsimp only
    | split
    | (refine (foldl_ddr _ _ _ ?_).trans ?_ <;> try intro _ _)
    | (refine (foldl_ddr1 _ _ _ ?_).trans ?_ <;> try intro _ _)

@[simp] theorem hostSecondsOp_ddr (v : Nat) (d : Dev) : (hostSecondsOp v d).ddr = d.ddr := by
  unfold hostSecondsOp
  repeat' first
    | with_reducible rfl
    | dsimp only
    | split
    | (refine (foldl_ddr _ _ _ ?_).trans ?_ <;> try intro _ _)
    | (refine (foldl_ddr1 _ _ _ ?_).trans ?_ <;> try intro _ _)

@[simp] theorem prbsStartOp_ddr (lane : Nat) (d : Dev) : (prbsStartOp lane d).ddr = d.ddr := by
  unfold prbsStartOp
  repeat' first
    | with_reducible rfl
    | simp only [Dev.conflict_ddr, Dev.prbsStart_ddr]
    | dsimp only
    | split
    | (refine (foldl_ddr _ _ _ ?_).trans ?_ <;> try intro _ _)
    | (refine (foldl_ddr1 _ _ _ ?_).trans ?_ <;> try intro _ _)

@[simp] theorem gzInjectOp_ddr (k : Nat) (d : Dev) : (gzInjectOp k d).ddr = d.ddr := by
  unfold gzInjectOp
  repeat' first
    | with_reducible rfl
    | simp only [Dev.conflict_ddr, Dev.gzInject_ddr]
    | dsimp only
    | split
    | (refine (foldl_ddr _ _ _ ?_).trans ?_ <;> try intro _ _)
    | (refine (foldl_ddr1 _ _ _ ?_).trans ?_ <;> try intro _ _)

@[simp] theorem Dev.act_ddr (d : Dev) (idx : Nat) (sub : Nat) (v : Nat) : (Dev.act d idx sub v).ddr = d.ddr := by
  unfold Dev.act
  repeat' first
    | with_reducible rfl
    | with_reducible refine ite_ddr ?_ ?_
    | simp

@[simp] theorem Dev.setDraft_ddr (d : Dev) (l : List Staged) : (Dev.setDraft d l).ddr = d.ddr := by
  unfold Dev.setDraft
  repeat' first
    | with_reducible rfl
    | simp only [Dev.wr_ddr]
    | dsimp only
    | split
    | (refine (foldl_ddr _ _ _ ?_).trans ?_ <;> try intro _ _)
    | (refine (foldl_ddr1 _ _ _ ?_).trans ?_ <;> try intro _ _)

@[simp] theorem Dev.setIdent_ddr (d : Dev) (i : Nat) (x : Ident) : (Dev.setIdent d i x).ddr = d.ddr := by
  unfold Dev.setIdent
  repeat' first
    | with_reducible rfl
    | dsimp only
    | split
    | (refine (foldl_ddr _ _ _ ?_).trans ?_ <;> try intro _ _)
    | (refine (foldl_ddr1 _ _ _ ?_).trans ?_ <;> try intro _ _)

@[simp] theorem Dev.applyRw_ddr (d : Dev) (who : Nat) (idx : Nat) (sub : Nat) (v : Nat) : (Dev.applyRw d who idx sub v).ddr = d.ddr := by
  unfold Dev.applyRw
  repeat' first
    | with_reducible rfl
    | simp only [Dev.injectSingle_ddr, Dev.setIdent_ddr, Dev.wr_ddr]
    | dsimp only
    | split
    | (refine (foldl_ddr _ _ _ ?_).trans ?_ <;> try intro _ _)
    | (refine (foldl_ddr1 _ _ _ ?_).trans ?_ <;> try intro _ _)

@[simp] theorem Dev.applyItem_ddr (d : Dev) (who : Nat) (i : WItem) : (Dev.applyItem d who i).ddr = d.ddr := by
  unfold Dev.applyItem
  repeat' first
    | with_reducible rfl
    | simp only [Dev.act_ddr, Dev.applyRw_ddr, Dev.hostClear_ddr]
    | dsimp only
    | split
    | (refine (foldl_ddr _ _ _ ?_).trans ?_ <;> try intro _ _)
    | (refine (foldl_ddr1 _ _ _ ?_).trans ?_ <;> try intro _ _)

@[simp] theorem Dev.applyItems_ddr (d : Dev) (who : Nat) (l : List WItem) : (Dev.applyItems d who l).ddr = d.ddr := by
  unfold Dev.applyItems
  repeat' first
    | with_reducible rfl
    | simp only [Dev.applyItem_ddr, Dev.setDraft_ddr]
    | dsimp only
    | split
    | (refine (foldl_ddr _ _ _ ?_).trans ?_ <;> try intro _ _)
    | (refine (foldl_ddr1 _ _ _ ?_).trans ?_ <;> try intro _ _)

@[simp] theorem Dev.sendReply_ddr (d : Dev) (r : Reply) : (Dev.sendReply d r).ddr = d.ddr := by
  unfold Dev.sendReply
  repeat' first
    | with_reducible rfl
    | dsimp only
    | split
    | (refine (foldl_ddr _ _ _ ?_).trans ?_ <;> try intro _ _)
    | (refine (foldl_ddr1 _ _ _ ?_).trans ?_ <;> try intro _ _)

@[simp] theorem Dev.storeReply_ddr (d : Dev) (r : Reply) : (Dev.storeReply d r).ddr = d.ddr := by
  unfold Dev.storeReply
  repeat' first
    | with_reducible rfl
    | simp only [Dev.setIdent_ddr]
    | dsimp only
    | split
    | (refine (foldl_ddr _ _ _ ?_).trans ?_ <;> try intro _ _)
    | (refine (foldl_ddr1 _ _ _ ?_).trans ?_ <;> try intro _ _)

@[simp] theorem Dev.finishReply_ddr (d : Dev) (r : Reply) : (Dev.finishReply d r).ddr = d.ddr := by
  unfold Dev.finishReply
  repeat' first
    | with_reducible rfl
    | simp only [Dev.sendReply_ddr, Dev.storeReply_ddr]
    | dsimp only
    | split
    | (refine (foldl_ddr _ _ _ ?_).trans ?_ <;> try intro _ _)
    | (refine (foldl_ddr1 _ _ _ ?_).trans ?_ <;> try intro _ _)

@[simp] theorem Dev.releaseReplies_ddr (d : Dev) : (Dev.releaseReplies d).ddr = d.ddr := by
  unfold Dev.releaseReplies
  repeat' first
    | with_reducible rfl
    | simp only [Dev.finishReply_ddr]
    | dsimp only
    | split
    | (refine (foldl_ddr _ _ _ ?_).trans ?_ <;> try intro _ _)
    | (refine (foldl_ddr1 _ _ _ ?_).trans ?_ <;> try intro _ _)

@[simp] theorem Dev.releaseReset_ddr (d : Dev) : (Dev.releaseReset d).ddr = d.ddr := by
  unfold Dev.releaseReset
  repeat' first
    | with_reducible rfl
    | simp only [Dev.sendReply_ddr]
    | dsimp only
    | split
    | (refine (foldl_ddr _ _ _ ?_).trans ?_ <;> try intro _ _)
    | (refine (foldl_ddr1 _ _ _ ?_).trans ?_ <;> try intro _ _)

@[simp] theorem powerupTimeoutOp_ddr (d : Dev) : (powerupTimeoutOp d).ddr = d.ddr := by
  unfold powerupTimeoutOp
  repeat' first
    | with_reducible rfl
    | dsimp only
    | split
    | (refine (foldl_ddr _ _ _ ?_).trans ?_ <;> try intro _ _)
    | (refine (foldl_ddr1 _ _ _ ?_).trans ?_ <;> try intro _ _)

@[simp] theorem Dev.setRails_ddr (d : Dev) (p : Nat → Bool) (v : Nat) : (Dev.setRails d p v).ddr = d.ddr := by
  unfold Dev.setRails
  repeat' first
    | with_reducible rfl
    | simp only [Dev.wr_ddr]
    | dsimp only
    | split
    | (refine (foldl_ddr _ _ _ ?_).trans ?_ <;> try intro _ _)
    | (refine (foldl_ddr1 _ _ _ ?_).trans ?_ <;> try intro _ _)

@[simp] theorem Dev.enterPriming_ddr (d : Dev) (cause : Nat) : (Dev.enterPriming d cause).ddr = d.ddr := by
  unfold Dev.enterPriming
  repeat' first
    | with_reducible rfl
    | simp only [Dev.setState_ddr, Dev.wr_ddr]
    | dsimp only
    | split
    | (refine (foldl_ddr _ _ _ ?_).trans ?_ <;> try intro _ _)
    | (refine (foldl_ddr1 _ _ _ ?_).trans ?_ <;> try intro _ _)

@[simp] theorem Dev.resetRecord_ddr (d : Dev) (kind : Nat) : (Dev.resetRecord d kind).ddr = d.ddr := by
  unfold Dev.resetRecord
  repeat' first
    | with_reducible rfl
    | simp only [Dev.bbWrite_ddr, Dev.wr_ddr]
    | dsimp only
    | split
    | (refine (foldl_ddr _ _ _ ?_).trans ?_ <;> try intro _ _)
    | (refine (foldl_ddr1 _ _ _ ?_).trans ?_ <;> try intro _ _)

@[simp] theorem bootCompleteOp_ddr (fallback : Bool) (d : Dev) : (bootCompleteOp fallback d).ddr = d.ddr := by
  unfold bootCompleteOp
  repeat' first
    | with_reducible rfl
    | simp only [Dev.enterPriming_ddr, Dev.flag_ddr, Dev.releaseReset_ddr, Dev.resetRecord_ddr, Dev.setRails_ddr, Dev.wrs_ddr]
    | dsimp only
    | split
    | (refine (foldl_ddr _ _ _ ?_).trans ?_ <;> try intro _ _)
    | (refine (foldl_ddr1 _ _ _ ?_).trans ?_ <;> try intro _ _)

@[simp] theorem Dev.endDue_ddr (d : Dev) (seq : Nat) : (Dev.endDue d seq).ddr = d.ddr := by
  unfold Dev.endDue
  repeat' first
    | with_reducible rfl
    | simp only [Dev.endJob_ddr, Dev.stopJob_ddr]
    | dsimp only
    | split
    | (refine (foldl_ddr _ _ _ ?_).trans ?_ <;> try intro _ _)
    | (refine (foldl_ddr1 _ _ _ ?_).trans ?_ <;> try intro _ _)

@[simp] theorem Dev.strip_ddr (d : Dev) (seq : Nat) : (Dev.strip d seq).ddr = d.ddr := by
  unfold Dev.strip
  repeat' first
    | with_reducible rfl
    | simp only [Dev.freeChannel_ddr, Dev.release_ddr]
    | dsimp only
    | split
    | (refine (foldl_ddr _ _ _ ?_).trans ?_ <;> try intro _ _)
    | (refine (foldl_ddr1 _ _ _ ?_).trans ?_ <;> try intro _ _)

@[simp] theorem Dev.warmReset_ddr (d : Dev) (cause : Nat) : (Dev.warmReset d cause).ddr = d.ddr := by
  unfold Dev.warmReset
  repeat' first
    | with_reducible rfl
    | simp only [Dev.discard_ddr, Dev.endDue_ddr, Dev.enterPriming_ddr, Dev.flushStage_ddr, Dev.report_ddr, Dev.resetRecord_ddr, Dev.setState_ddr, Dev.strip_ddr, Dev.wr_ddr, Dev.wrs_ddr]
    | dsimp only
    | split
    | (refine (foldl_ddr _ _ _ ?_).trans ?_ <;> try intro _ _)
    | (refine (foldl_ddr1 _ _ _ ?_).trans ?_ <;> try intro _ _)

@[simp] theorem Dev.mgmtReset_ddr (d : Dev) : (Dev.mgmtReset d).ddr = d.ddr := by
  unfold Dev.mgmtReset
  repeat' first
    | with_reducible rfl
    | simp only [Dev.resetRecord_ddr, Dev.setDraft_ddr]
    | dsimp only
    | split
    | (refine (foldl_ddr _ _ _ ?_).trans ?_ <;> try intro _ _)
    | (refine (foldl_ddr1 _ _ _ ?_).trans ?_ <;> try intro _ _)

@[simp] theorem Dev.fluxReset_ddr (d : Dev) : (Dev.fluxReset d).ddr = d.ddr := by
  unfold Dev.fluxReset
  repeat' first
    | with_reducible rfl
    | simp only [Dev.bbWrite_ddr, Dev.wr_ddr]
    | dsimp only
    | split
    | (refine (foldl_ddr _ _ _ ?_).trans ?_ <;> try intro _ _)
    | (refine (foldl_ddr1 _ _ _ ?_).trans ?_ <;> try intro _ _)

@[simp] theorem Dev.recover_ddr (d : Dev) : (Dev.recover d).ddr = d.ddr := by
  unfold Dev.recover
  repeat' first
    | with_reducible rfl
    | simp only [Dev.abortRuns_ddr, Dev.discard_ddr, Dev.endDue_ddr, Dev.enterPriming_ddr, Dev.strip_ddr]
    | dsimp only
    | split
    | (refine (foldl_ddr _ _ _ ?_).trans ?_ <;> try intro _ _)
    | (refine (foldl_ddr1 _ _ _ ?_).trans ?_ <;> try intro _ _)

@[simp] theorem thermalTripOp_ddr (d : Dev) : (thermalTripOp d).ddr = d.ddr := by
  unfold thermalTripOp
  repeat' first
    | with_reducible rfl
    | simp only [Dev.flag_ddr, Dev.warmReset_ddr]
    | dsimp only
    | split
    | (refine (foldl_ddr _ _ _ ?_).trans ?_ <;> try intro _ _)
    | (refine (foldl_ddr1 _ _ _ ?_).trans ?_ <;> try intro _ _)

@[simp] theorem thermWarnOp_ddr (code : Nat) (d : Dev) : (thermWarnOp code d).ddr = d.ddr := by
  unfold thermWarnOp
  repeat' first
    | with_reducible rfl
    | simp only [Dev.flag_ddr, Dev.wr_ddr]
    | dsimp only
    | split
    | (refine (foldl_ddr _ _ _ ?_).trans ?_ <;> try intro _ _)
    | (refine (foldl_ddr1 _ _ _ ?_).trans ?_ <;> try intro _ _)

/-- The tests of steps other than 5 leave DDR4; step 5 leaves it, or empties it on a POWER_ON reset. -/
theorem Dev.marched_ddr (d : Dev) {step : Nat} (h : step = 4 ∨ d.pwr.resetKind ≠ 0) : (Dev.marched d step).ddr = d.ddr := by
  unfold Dev.marched
  rcases h with rfl | h
  · rfl
  · rw [if_neg h]; split <;> rfl

theorem Dev.memoryTest_ddr (d : Dev) (step : Nat) : (Dev.memoryTest d step).ddr = (Dev.marched d step).ddr := by
  unfold Dev.memoryTest
  split
  · rfl
  · exact Dev.bbWrite_ddr ..

@[simp] theorem Dev.trainPorts_ddr (d : Dev) : (Dev.trainPorts d).ddr = d.ddr := by
  unfold Dev.trainPorts
  repeat' first
    | with_reducible rfl
    | simp only [Dev.enterFaulted_ddr, Dev.portEnabled_ddr]
    | dsimp only
    | split
    | (refine (foldl_ddr _ _ _ ?_).trans ?_ <;> try intro _ _)
    | (refine (foldl_ddr1 _ _ _ ?_).trans ?_ <;> try intro _ _)

/-- A step of PRIMING other than 5 leaves the bytes of DDR4. -/
theorem primingOp_ddr {step : Nat} (d : Dev) (h : step ≠ 5) : (primingOp step d).ddr = d.ddr := by
  unfold primingOp
  split
  · extract_lets d1 p d2
    have h2 : d2.ddr = d.ddr := Dev.wr_ddr d 0x7C0003 step
    clear_value d2
    split
    · exact ite_ddr (by simp only [Dev.releaseReplies_ddr, Dev.enterFaulted_ddr, h2]) h2
    · exact ite_ddr h2 (by simp only [Dev.wrs_ddr, h2])
    · exact ((Dev.memoryTest_ddr ..).trans (Dev.marched_ddr _ (.inl rfl))).trans h2
    · exact absurd rfl h
    · exact (Dev.trainPorts_ddr _).trans h2
    · exact (Dev.startPhase_ddr _ _).trans h2
    · exact h2
  · rfl

@[simp] theorem primingTimeoutOp_ddr (d : Dev) : (primingTimeoutOp d).ddr = d.ddr := by
  unfold primingTimeoutOp
  repeat' first
    | with_reducible rfl
    | simp only [Dev.enterFaulted_ddr, Dev.releaseReplies_ddr]
    | dsimp only
    | split
    | (refine (foldl_ddr _ _ _ ?_).trans ?_ <;> try intro _ _)
    | (refine (foldl_ddr1 _ _ _ ?_).trans ?_ <;> try intro _ _)

@[simp] theorem Dev.loseHold_ddr (d : Dev) : (Dev.loseHold d).ddr = d.ddr := by
  unfold Dev.loseHold
  repeat' first
    | with_reducible rfl
    | simp only [Dev.bbWrite_ddr, Dev.endJob_ddr, Dev.flag_ddr, Dev.modJob_ddr]
    | dsimp only
    | split
    | (refine (foldl_ddr _ _ _ ?_).trans ?_ <;> try intro _ _)
    | (refine (foldl_ddr1 _ _ _ ?_).trans ?_ <;> try intro _ _)

@[simp] theorem Dev.recoverJobs_ddr (d : Dev) : (Dev.recoverJobs d).ddr = d.ddr := by
  unfold Dev.recoverJobs
  repeat' first
    | with_reducible rfl
    | simp only [Dev.bbWrite_ddr, Dev.flag_ddr, Dev.modJob_ddr, Dev.requeue_ddr, Dev.wr_ddr]
    | dsimp only
    | split
    | (refine (foldl_ddr _ _ _ ?_).trans ?_ <;> try intro _ _)
    | (refine (foldl_ddr1 _ _ _ ?_).trans ?_ <;> try intro _ _)

@[simp] theorem Dev.applyConfig_ddr (d : Dev) : (Dev.applyConfig d).ddr = d.ddr := by
  unfold Dev.applyConfig
  repeat' first
    | with_reducible rfl
    | simp only [Dev.applyWords_ddr, Dev.wr_ddr]
    | dsimp only
    | split
    | (refine (foldl_ddr _ _ _ ?_).trans ?_ <;> try intro _ _)
    | (refine (foldl_ddr1 _ _ _ ?_).trans ?_ <;> try intro _ _)

@[simp] theorem primingCompleteOp_ddr (ms : Nat) (d : Dev) : (primingCompleteOp ms d).ddr = d.ddr := by
  unfold primingCompleteOp
  repeat' first
    | with_reducible rfl
    | simp only [Dev.applyConfig_ddr, Dev.loseHold_ddr, Dev.recoverJobs_ddr, Dev.refreshUnits_ddr, Dev.releaseReplies_ddr, Dev.setState_ddr, Dev.wr_ddr]
    | dsimp only
    | split
    | (refine (foldl_ddr _ _ _ ?_).trans ?_ <;> try intro _ _)
    | (refine (foldl_ddr1 _ _ _ ?_).trans ?_ <;> try intro _ _)

@[simp] theorem Dev.beginSleep_ddr (d : Dev) : (Dev.beginSleep d).ddr = d.ddr := by
  unfold Dev.beginSleep
  repeat' first
    | with_reducible rfl
    | dsimp only
    | split
    | (refine (foldl_ddr _ _ _ ?_).trans ?_ <;> try intro _ _)
    | (refine (foldl_ddr1 _ _ _ ?_).trans ?_ <;> try intro _ _)

@[simp] theorem Dev.portsOff_ddr (d : Dev) : (Dev.portsOff d).ddr = d.ddr := by
  unfold Dev.portsOff
  repeat' first
    | with_reducible rfl
    | simp only [Dev.dropLink_ddr, Dev.portEnabled_ddr, Dev.refreshUnits_ddr]
    | dsimp only
    | split
    | (refine (foldl_ddr _ _ _ ?_).trans ?_ <;> try intro _ _)
    | (refine (foldl_ddr1 _ _ _ ?_).trans ?_ <;> try intro _ _)

@[simp] theorem asleepEntryOp_ddr (d : Dev) : (asleepEntryOp d).ddr = d.ddr := by
  unfold asleepEntryOp
  repeat' first
    | with_reducible rfl
    | simp only [Dev.abortRuns_ddr, Dev.clockSource_ddr, Dev.portsOff_ddr, Dev.setRails_ddr, Dev.setState_ddr, Dev.startPhase_ddr, Dev.wrBit_ddr]
    | dsimp only
    | split
    | (refine (foldl_ddr _ _ _ ?_).trans ?_ <;> try intro _ _)
    | (refine (foldl_ddr1 _ _ _ ?_).trans ?_ <;> try intro _ _)

@[simp] theorem wakeCompleteOp_ddr (ms : Nat) (d : Dev) : (wakeCompleteOp ms d).ddr = d.ddr := by
  unfold wakeCompleteOp
  repeat' first
    | with_reducible rfl
    | simp only [Dev.enterListening_ddr, Dev.setRails_ddr, Dev.setState_ddr, Dev.trainPorts_ddr, Dev.wrBit_ddr, Dev.wr_ddr]
    | dsimp only
    | split
    | (refine (foldl_ddr _ _ _ ?_).trans ?_ <;> try intro _ _)
    | (refine (foldl_ddr1 _ _ _ ?_).trans ?_ <;> try intro _ _)

@[simp] theorem Dev.feedBand_ddr (d : Dev) (die : Nat) (sideB : Bool) (good : Bool) : (Dev.feedBand d die sideB good).ddr = d.ddr := by
  unfold Dev.feedBand
  repeat' first
    | with_reducible rfl
    | simp only [Dev.wrBit_ddr]
    | dsimp only
    | split
    | (refine (foldl_ddr _ _ _ ?_).trans ?_ <;> try intro _ _)
    | (refine (foldl_ddr1 _ _ _ ?_).trans ?_ <;> try intro _ _)

@[simp] theorem feedTransferCompleteOp_ddr (die : Nat) (ticks : Nat) (d : Dev) : (feedTransferCompleteOp die ticks d).ddr = d.ddr := by
  unfold feedTransferCompleteOp
  repeat' first
    | with_reducible rfl
    | simp only [Dev.bbWrite_ddr, Dev.wr_ddr]
    | dsimp only
    | split
    | (refine (foldl_ddr _ _ _ ?_).trans ?_ <;> try intro _ _)
    | (refine (foldl_ddr1 _ _ _ ?_).trans ?_ <;> try intro _ _)

@[simp] theorem feedRestoredOp_ddr (die : Nat) (sideB : Bool) (d : Dev) : (feedRestoredOp die sideB d).ddr = d.ddr := by
  unfold feedRestoredOp
  repeat' first
    | with_reducible rfl
    | simp only [Dev.feedBand_ddr, Dev.flag_ddr, Dev.wrBit_ddr]
    | dsimp only
    | split
    | (refine (foldl_ddr _ _ _ ?_).trans ?_ <;> try intro _ _)
    | (refine (foldl_ddr1 _ _ _ ?_).trans ?_ <;> try intro _ _)

@[simp] theorem pmbAlertOp_ddr (sideB : Bool) (d : Dev) : (pmbAlertOp sideB d).ddr = d.ddr := by
  unfold pmbAlertOp
  repeat' first
    | with_reducible rfl
    | dsimp only
    | split
    | (refine (foldl_ddr _ _ _ ?_).trans ?_ <;> try intro _ _)
    | (refine (foldl_ddr1 _ _ _ ?_).trans ?_ <;> try intro _ _)

@[simp] theorem ddrEccErrorOp_ddr (channel : Nat) (uncorrectable : Bool) (d : Dev) : (ddrEccErrorOp channel uncorrectable d).ddr = d.ddr := by
  unfold ddrEccErrorOp
  repeat' first
    | with_reducible rfl
    | simp only [Dev.flag_ddr, Dev.noteFault_ddr, Dev.setStream_ddr]
    | dsimp only
    | split
    | (refine (foldl_ddr _ _ _ ?_).trans ?_ <;> try intro _ _)
    | (refine (foldl_ddr1 _ _ _ ?_).trans ?_ <;> try intro _ _)

@[simp] theorem Dev.answer_ddr (d : Dev) (r : Req) (cmd : Nat) (a : Ans) : (Dev.answer d r cmd a).ddr = d.ddr := by
  unfold Dev.answer
  repeat' first
    | with_reducible rfl
    | simp only [Dev.finishReply_ddr, Dev.sendReply_ddr]
    | dsimp only
    | split
    | (refine (foldl_ddr _ _ _ ?_).trans ?_ <;> try intro _ _)
    | (refine (foldl_ddr1 _ _ _ ?_).trans ?_ <;> try intro _ _)

@[simp] theorem Dev.take_ddr (d : Dev) (r : Req) : (Dev.take d r).ddr = d.ddr := by
  unfold Dev.take
  repeat' first
    | with_reducible rfl
    | simp only [Dev.setIdent_ddr]
    | dsimp only
    | split
    | (refine (foldl_ddr _ _ _ ?_).trans ?_ <;> try intro _ _)
    | (refine (foldl_ddr1 _ _ _ ?_).trans ?_ <;> try intro _ _)

@[simp] theorem Dev.again_ddr (d : Dev) (r : Req) : (Dev.again d r).ddr = d.ddr := by
  unfold Dev.again
  repeat' first
    | with_reducible rfl
    | simp only [Dev.sendReply_ddr]
    | dsimp only
    | split
    | (refine (foldl_ddr _ _ _ ?_).trans ?_ <;> try intro _ _)
    | (refine (foldl_ddr1 _ _ _ ?_).trans ?_ <;> try intro _ _)

@[simp] theorem Dev.settleAnswer_ddr (d : Dev) (r : Req) (cmd : Nat) (a : Ans) : (Dev.settleAnswer d r cmd a).ddr = d.ddr := by
  unfold Dev.settleAnswer
  repeat' first
    | with_reducible rfl
    | simp only [Dev.answer_ddr, Dev.conflict_ddr]
    | dsimp only
    | split
    | (refine (foldl_ddr _ _ _ ?_).trans ?_ <;> try intro _ _)
    | (refine (foldl_ddr1 _ _ _ ?_).trans ?_ <;> try intro _ _)

@[simp] theorem Dev.defer_ddr (d : Dev) (r : Req) (cmd : Nat) : (Dev.defer d r cmd).ddr = d.ddr := by
  unfold Dev.defer
  repeat' first
    | with_reducible rfl
    | dsimp only
    | split
    | (refine (foldl_ddr _ _ _ ?_).trans ?_ <;> try intro _ _)
    | (refine (foldl_ddr1 _ _ _ ?_).trans ?_ <;> try intro _ _)

/-- The gate, the checks and the reply of a request leave the bytes of DDR4: only its command can change them. -/
theorem Dev.serve_ddr (d : Dev) (r : Req) (cmd : Nat) (payload : List Byte) (formOk : Bool)
    (run : Dev → Dev × Option Ans) (hr : ∀ e, (run e).1.ddr = e.ddr) :
    (d.serve r cmd payload formOk run).ddr = d.ddr := by
  unfold Dev.serve
  repeat' first
    | with_reducible rfl
    | simp only [hr, Dev.inStep1_ddr, Dev.hostFlag_ddr, Dev.sendReply_ddr, Dev.again_ddr, Dev.settleAnswer_ddr, Dev.take_ddr]
    | dsimp only
    | split

@[simp] theorem pingOp_ddr (r : Req) (d : Dev) : (pingOp r d).ddr = d.ddr := by
  unfold pingOp
  repeat' first
    | (with_reducible refine Dev.serve_ddr _ _ _ _ _ _ ?_ <;> try intro _)
    | (with_reducible refine Dev.jobRequest_ddr _ _ _ _ ?_ <;> try intro _ _)
    | with_reducible rfl
    | dsimp only
    | split
    | (refine (foldl_ddr _ _ _ ?_).trans ?_ <;> try intro _ _)
    | (refine (foldl_ddr1 _ _ _ ?_).trans ?_ <;> try intro _ _)

@[simp] theorem readOp_ddr (last : Dev) (r : Req) (items : List (Nat × Nat)) (d : Dev) : (readOp last r items d).ddr = d.ddr := by
  unfold readOp
  repeat' first
    | (with_reducible refine Dev.serve_ddr _ _ _ _ _ _ ?_ <;> try intro _)
    | (with_reducible refine Dev.jobRequest_ddr _ _ _ _ ?_ <;> try intro _ _)
    | with_reducible rfl
    | dsimp only
    | split
    | (refine (foldl_ddr _ _ _ ?_).trans ?_ <;> try intro _ _)
    | (refine (foldl_ddr1 _ _ _ ?_).trans ?_ <;> try intro _ _)

@[simp] theorem readPartOp_ddr (last : Dev) (r : Req) (idx : Nat) (sub : Nat) (off : Nat) (len : Nat) (d : Dev) : (readPartOp last r idx sub off len d).ddr = d.ddr := by
  unfold readPartOp
  repeat' first
    | (with_reducible refine Dev.serve_ddr _ _ _ _ _ _ ?_ <;> try intro _)
    | (with_reducible refine Dev.jobRequest_ddr _ _ _ _ ?_ <;> try intro _ _)
    | with_reducible rfl
    | simp only [Dev.take_ddr]
    | dsimp only
    | split
    | (refine (foldl_ddr _ _ _ ?_).trans ?_ <;> try intro _ _)
    | (refine (foldl_ddr1 _ _ _ ?_).trans ?_ <;> try intro _ _)

@[simp] theorem writeOp_ddr (r : Req) (items : List WItem) (d : Dev) : (writeOp r items d).ddr = d.ddr := by
  unfold writeOp
  repeat' first
    | (with_reducible refine Dev.serve_ddr _ _ _ _ _ _ ?_ <;> try intro _)
    | (with_reducible refine Dev.jobRequest_ddr _ _ _ _ ?_ <;> try intro _ _)
    | with_reducible rfl
    | simp only [Dev.applyItems_ddr]
    | dsimp only
    | split
    | (refine (foldl_ddr _ _ _ ?_).trans ?_ <;> try intro _ _)
    | (refine (foldl_ddr1 _ _ _ ?_).trans ?_ <;> try intro _ _)

@[simp] theorem registerWriteOp_ddr (ident : Nat) (idx : Nat) (sub : Nat) (val : Nat) (d : Dev) : (registerWriteOp ident idx sub val d).ddr = d.ddr := by
  unfold registerWriteOp
  repeat' first
    | with_reducible rfl
    | simp only [Dev.applyItems_ddr, Dev.conflict_ddr]
    | dsimp only
    | split
    | (refine (foldl_ddr _ _ _ ?_).trans ?_ <;> try intro _ _)
    | (refine (foldl_ddr1 _ _ _ ?_).trans ?_ <;> try intro _ _)

@[simp] theorem Dev.beginCommit_ddr (d : Dev) (p : Pending) : (Dev.beginCommit d p).ddr = d.ddr := by
  unfold Dev.beginCommit
  repeat' first
    | with_reducible rfl
    | simp only [Dev.commitDone_ddr, Dev.setDraft_ddr, Dev.wrs_ddr]
    | dsimp only
    | split
    | (refine (foldl_ddr _ _ _ ?_).trans ?_ <;> try intro _ _)
    | (refine (foldl_ddr1 _ _ _ ?_).trans ?_ <;> try intro _ _)

@[simp] theorem commitOp_ddr (r : Req) (refuse : Bool) (d : Dev) : (commitOp r refuse d).ddr = d.ddr := by
  unfold commitOp
  repeat' first
    | (with_reducible refine Dev.serve_ddr _ _ _ _ _ _ ?_ <;> try intro _)
    | (with_reducible refine Dev.jobRequest_ddr _ _ _ _ ?_ <;> try intro _ _)
    | with_reducible rfl
    | simp only [Dev.beginCommit_ddr]
    | dsimp only
    | split
    | (refine (foldl_ddr _ _ _ ?_).trans ?_ <;> try intro _ _)
    | (refine (foldl_ddr1 _ _ _ ?_).trans ?_ <;> try intro _ _)

@[simp] theorem discardOp_ddr (r : Req) (d : Dev) : (discardOp r d).ddr = d.ddr := by
  unfold discardOp
  repeat' first
    | (with_reducible refine Dev.serve_ddr _ _ _ _ _ _ ?_ <;> try intro _)
    | (with_reducible refine Dev.jobRequest_ddr _ _ _ _ ?_ <;> try intro _ _)
    | with_reducible rfl
    | simp only [Dev.setDraft_ddr]
    | dsimp only
    | split
    | (refine (foldl_ddr _ _ _ ?_).trans ?_ <;> try intro _ _)
    | (refine (foldl_ddr1 _ _ _ ?_).trans ?_ <;> try intro _ _)

@[simp] theorem commitApplyCompleteOp_ddr (d : Dev) : (commitApplyCompleteOp d).ddr = d.ddr := by
  unfold commitApplyCompleteOp
  repeat' first
    | with_reducible rfl
    | simp only [Dev.applyWords_ddr, Dev.commitDone_ddr]
    | dsimp only
    | split
    | (refine (foldl_ddr _ _ _ ?_).trans ?_ <;> try intro _ _)
    | (refine (foldl_ddr1 _ _ _ ?_).trans ?_ <;> try intro _ _)

@[simp] theorem Dev.putLoad_ddr (d : Dev) (l : Load) : (Dev.putLoad d l).ddr = d.ddr := by
  unfold Dev.putLoad
  repeat' first
    | with_reducible rfl
    | dsimp only
    | split
    | (refine (foldl_ddr _ _ _ ?_).trans ?_ <;> try intro _ _)
    | (refine (foldl_ddr1 _ _ _ ?_).trans ?_ <;> try intro _ _)

@[simp] theorem Dev.dropLoad_ddr (d : Dev) (h : Nat) : (Dev.dropLoad d h).ddr = d.ddr := by
  unfold Dev.dropLoad
  repeat' first
    | with_reducible rfl
    | dsimp only
    | split
    | (refine (foldl_ddr _ _ _ ?_).trans ?_ <;> try intro _ _)
    | (refine (foldl_ddr1 _ _ _ ?_).trans ?_ <;> try intro _ _)

@[simp] theorem loadOpenOp_ddr (r : Req) (kind : Nat) (len : Nat) (target : Nat) (d : Dev) : (loadOpenOp r kind len target d).ddr = d.ddr := by
  unfold loadOpenOp
  repeat' first
    | (with_reducible refine Dev.serve_ddr _ _ _ _ _ _ ?_ <;> try intro _)
    | (with_reducible refine Dev.jobRequest_ddr _ _ _ _ ?_ <;> try intro _ _)
    | with_reducible rfl
    | dsimp only
    | split
    | (refine (foldl_ddr _ _ _ ?_).trans ?_ <;> try intro _ _)
    | (refine (foldl_ddr1 _ _ _ ?_).trans ?_ <;> try intro _ _)

@[simp] theorem loadPartOp_ddr (r : Req) (handle : Nat) (off : Nat) (bytes : List Byte) (d : Dev) : (loadPartOp r handle off bytes d).ddr = d.ddr := by
  unfold loadPartOp
  repeat' first
    | (with_reducible refine Dev.serve_ddr _ _ _ _ _ _ ?_ <;> try intro _)
    | (with_reducible refine Dev.jobRequest_ddr _ _ _ _ ?_ <;> try intro _ _)
    | with_reducible rfl
    | simp only [Dev.putLoad_ddr]
    | dsimp only
    | split
    | (refine (foldl_ddr _ _ _ ?_).trans ?_ <;> try intro _ _)
    | (refine (foldl_ddr1 _ _ _ ?_).trans ?_ <;> try intro _ _)

@[simp] theorem Dev.writeLoad_ddr (d : Dev) (who : Nat) (l : Load) : (Dev.writeLoad d who l).1.ddr = d.ddr := by
  unfold Dev.writeLoad
  repeat' first
    | with_reducible rfl
    | simp only [Dev.applyItems_ddr, Dev.take_ddr, custImageOp_ddr]
    | dsimp only
    | split
    | (refine (foldl_ddr _ _ _ ?_).trans ?_ <;> try intro _ _)
    | (refine (foldl_ddr1 _ _ _ ?_).trans ?_ <;> try intro _ _)

@[simp] theorem loadAbortOp_ddr (r : Req) (handle : Nat) (d : Dev) : (loadAbortOp r handle d).ddr = d.ddr := by
  unfold loadAbortOp
  repeat' first
    | (with_reducible refine Dev.serve_ddr _ _ _ _ _ _ ?_ <;> try intro _)
    | (with_reducible refine Dev.jobRequest_ddr _ _ _ _ ?_ <;> try intro _ _)
    | with_reducible rfl
    | simp only [Dev.dropLoad_ddr]
    | dsimp only
    | split
    | (refine (foldl_ddr _ _ _ ?_).trans ?_ <;> try intro _ _)
    | (refine (foldl_ddr1 _ _ _ ?_).trans ?_ <;> try intro _ _)

@[simp] theorem loadTimeoutOp_ddr (handle : Nat) (d : Dev) : (loadTimeoutOp handle d).ddr = d.ddr := by
  unfold loadTimeoutOp
  repeat' first
    | with_reducible rfl
    | simp only [Dev.dropLoad_ddr]
    | dsimp only
    | split
    | (refine (foldl_ddr _ _ _ ?_).trans ?_ <;> try intro _ _)
    | (refine (foldl_ddr1 _ _ _ ?_).trans ?_ <;> try intro _ _)

@[simp] theorem primeOp_ddr (r : Req) (d : Dev) : (primeOp r d).ddr = d.ddr := by
  unfold primeOp
  repeat' first
    | (with_reducible refine Dev.serve_ddr _ _ _ _ _ _ ?_ <;> try intro _)
    | (with_reducible refine Dev.jobRequest_ddr _ _ _ _ ?_ <;> try intro _ _)
    | with_reducible rfl
    | simp only [Dev.defer_ddr, Dev.enterPriming_ddr]
    | dsimp only
    | split
    | (refine (foldl_ddr _ _ _ ?_).trans ?_ <;> try intro _ _)
    | (refine (foldl_ddr1 _ _ _ ?_).trans ?_ <;> try intro _ _)

@[simp] theorem recoverOp_ddr (r : Req) (d : Dev) : (recoverOp r d).ddr = d.ddr := by
  unfold recoverOp
  repeat' first
    | (with_reducible refine Dev.serve_ddr _ _ _ _ _ _ ?_ <;> try intro _)
    | (with_reducible refine Dev.jobRequest_ddr _ _ _ _ ?_ <;> try intro _ _)
    | with_reducible rfl
    | simp only [Dev.defer_ddr, Dev.recover_ddr]
    | dsimp only
    | split
    | (refine (foldl_ddr _ _ _ ?_).trans ?_ <;> try intro _ _)
    | (refine (foldl_ddr1 _ _ _ ?_).trans ?_ <;> try intro _ _)

@[simp] theorem sleepOp_ddr (r : Req) (d : Dev) : (sleepOp r d).ddr = d.ddr := by
  unfold sleepOp
  repeat' first
    | (with_reducible refine Dev.serve_ddr _ _ _ _ _ _ ?_ <;> try intro _)
    | (with_reducible refine Dev.jobRequest_ddr _ _ _ _ ?_ <;> try intro _ _)
    | with_reducible rfl
    | simp only [Dev.beginSleep_ddr]
    | dsimp only
    | split
    | (refine (foldl_ddr _ _ _ ?_).trans ?_ <;> try intro _ _)
    | (refine (foldl_ddr1 _ _ _ ?_).trans ?_ <;> try intro _ _)

@[simp] theorem wakeOp_ddr (r : Req) (d : Dev) : (wakeOp r d).ddr = d.ddr := by
  unfold wakeOp
  repeat' first
    | (with_reducible refine Dev.serve_ddr _ _ _ _ _ _ ?_ <;> try intro _)
    | (with_reducible refine Dev.jobRequest_ddr _ _ _ _ ?_ <;> try intro _ _)
    | with_reducible rfl
    | simp only [Dev.wakeCause_ddr]
    | dsimp only
    | split
    | (refine (foldl_ddr _ _ _ ?_).trans ?_ <;> try intro _ _)
    | (refine (foldl_ddr1 _ _ _ ?_).trans ?_ <;> try intro _ _)

@[simp] theorem resetWarmOp_ddr (r : Req) (d : Dev) : (resetWarmOp r d).ddr = d.ddr := by
  unfold resetWarmOp
  repeat' first
    | (with_reducible refine Dev.serve_ddr _ _ _ _ _ _ ?_ <;> try intro _)
    | (with_reducible refine Dev.jobRequest_ddr _ _ _ _ ?_ <;> try intro _ _)
    | with_reducible rfl
    | simp only [Dev.warmReset_ddr]
    | dsimp only
    | split
    | (refine (foldl_ddr _ _ _ ?_).trans ?_ <;> try intro _ _)
    | (refine (foldl_ddr1 _ _ _ ?_).trans ?_ <;> try intro _ _)

@[simp] theorem resetMgmtOp_ddr (r : Req) (d : Dev) : (resetMgmtOp r d).ddr = d.ddr := by
  unfold resetMgmtOp
  repeat' first
    | (with_reducible refine Dev.serve_ddr _ _ _ _ _ _ ?_ <;> try intro _)
    | (with_reducible refine Dev.jobRequest_ddr _ _ _ _ ?_ <;> try intro _ _)
    | with_reducible rfl
    | simp only [Dev.mgmtReset_ddr]
    | dsimp only
    | split
    | (refine (foldl_ddr _ _ _ ?_).trans ?_ <;> try intro _ _)
    | (refine (foldl_ddr1 _ _ _ ?_).trans ?_ <;> try intro _ _)

@[simp] theorem resetFluxStateOp_ddr (r : Req) (d : Dev) : (resetFluxStateOp r d).ddr = d.ddr := by
  unfold resetFluxStateOp
  repeat' first
    | (with_reducible refine Dev.serve_ddr _ _ _ _ _ _ ?_ <;> try intro _)
    | (with_reducible refine Dev.jobRequest_ddr _ _ _ _ ?_ <;> try intro _ _)
    | with_reducible rfl
    | simp only [Dev.fluxReset_ddr]
    | dsimp only
    | split
    | (refine (foldl_ddr _ _ _ ?_).trans ?_ <;> try intro _ _)
    | (refine (foldl_ddr1 _ _ _ ?_).trans ?_ <;> try intro _ _)

@[simp] theorem counterClearOp_ddr (r : Req) (first : Nat) (last : Nat) (d : Dev) : (counterClearOp r first last d).ddr = d.ddr := by
  unfold counterClearOp
  repeat' first
    | (with_reducible refine Dev.serve_ddr _ _ _ _ _ _ ?_ <;> try intro _)
    | (with_reducible refine Dev.jobRequest_ddr _ _ _ _ ?_ <;> try intro _ _)
    | with_reducible rfl
    | dsimp only
    | split
    | (refine (foldl_ddr _ _ _ ?_).trans ?_ <;> try intro _ _)
    | (refine (foldl_ddr1 _ _ _ ?_).trans ?_ <;> try intro _ _)

@[simp] theorem keySetOp_ddr (r : Req) (target : Nat) (wrapped : BitVec 320) (d : Dev) : (keySetOp r target wrapped d).ddr = d.ddr := by
  unfold keySetOp
  repeat' first
    | (with_reducible refine Dev.serve_ddr _ _ _ _ _ _ ?_ <;> try intro _)
    | (with_reducible refine Dev.jobRequest_ddr _ _ _ _ ?_ <;> try intro _ _)
    | with_reducible rfl
    | simp only [Dev.setIdent_ddr]
    | dsimp only
    | split
    | (refine (foldl_ddr _ _ _ ?_).trans ?_ <;> try intro _ _)
    | (refine (foldl_ddr1 _ _ _ ?_).trans ?_ <;> try intro _ _)

@[simp] theorem Dev.recordJob_ddr (d : Dev) (h : JobHead) (cs : Sections) : (Dev.recordJob d h cs).ddr = d.ddr := by
  unfold Dev.recordJob
  repeat' first
    | with_reducible rfl
    | simp only [Dev.wrs_ddr]
    | dsimp only
    | split
    | (refine (foldl_ddr _ _ _ ?_).trans ?_ <;> try intro _ _)
    | (refine (foldl_ddr1 _ _ _ ?_).trans ?_ <;> try intro _ _)

@[simp] theorem submitOp_ddr (r : Req) (handle : Nat) (content : Sections) (d : Dev) : (submitOp r handle content d).ddr = d.ddr := by
  unfold submitOp
  repeat' first
    | (with_reducible refine Dev.serve_ddr _ _ _ _ _ _ ?_ <;> try intro _)
    | (with_reducible refine Dev.jobRequest_ddr _ _ _ _ ?_ <;> try intro _ _)
    | with_reducible rfl
    | simp only [Dev.dropLoad_ddr, Dev.putLoad_ddr, Dev.recordJob_ddr]
    | dsimp only
    | split
    | (refine (foldl_ddr _ _ _ ?_).trans ?_ <;> try intro _ _)
    | (refine (foldl_ddr1 _ _ _ ?_).trans ?_ <;> try intro _ _)

theorem Dev.jobRequest_ddr (d : Dev) (seq : Nat) (takes : Job → Bool) (run : Dev → Job → Dev)
    (hr : ∀ e j, (run e j).ddr = e.ddr) : (d.jobRequest seq takes run).1.ddr = d.ddr := by
  unfold Dev.jobRequest
  repeat' first
    | with_reducible rfl
    | simp only [hr]
    | split

@[simp] theorem startOp_ddr (r : Req) (seq : Nat) (d : Dev) : (startOp r seq d).ddr = d.ddr := by
  unfold startOp
  repeat' first
    | (with_reducible refine Dev.serve_ddr _ _ _ _ _ _ ?_ <;> try intro _)
    | (with_reducible refine Dev.jobRequest_ddr _ _ _ _ ?_ <;> try intro _ _)
    | with_reducible rfl
    | simp only [Dev.localStart_ddr]
    | dsimp only
    | split
    | (refine (foldl_ddr _ _ _ ?_).trans ?_ <;> try intro _ _)
    | (refine (foldl_ddr1 _ _ _ ?_).trans ?_ <;> try intro _ _)

@[simp] theorem Dev.haltJob_ddr (d : Dev) (j : Job) : (Dev.haltJob d j).ddr = d.ddr := by
  unfold Dev.haltJob
  repeat' first
    | with_reducible rfl
    | simp only [Dev.commandToRoot_ddr, Dev.localHalt_ddr]
    | dsimp only
    | split
    | (refine (foldl_ddr _ _ _ ?_).trans ?_ <;> try intro _ _)
    | (refine (foldl_ddr1 _ _ _ ?_).trans ?_ <;> try intro _ _)

@[simp] theorem Dev.resumeJob_ddr (d : Dev) (j : Job) : (Dev.resumeJob d j).ddr = d.ddr := by
  unfold Dev.resumeJob
  repeat' first
    | with_reducible rfl
    | simp only [Dev.commandToRoot_ddr, Dev.localResume_ddr]
    | dsimp only
    | split
    | (refine (foldl_ddr _ _ _ ?_).trans ?_ <;> try intro _ _)
    | (refine (foldl_ddr1 _ _ _ ?_).trans ?_ <;> try intro _ _)

@[simp] theorem Dev.cancelJob_ddr (d : Dev) (j : Job) : (Dev.cancelJob d j).ddr = d.ddr := by
  unfold Dev.cancelJob
  repeat' first
    | with_reducible rfl
    | simp only [Dev.commandToRoot_ddr, Dev.localCancel_ddr]
    | dsimp only
    | split
    | (refine (foldl_ddr _ _ _ ?_).trans ?_ <;> try intro _ _)
    | (refine (foldl_ddr1 _ _ _ ?_).trans ?_ <;> try intro _ _)

@[simp] theorem haltOp_ddr (r : Req) (seq : Nat) (d : Dev) : (haltOp r seq d).ddr = d.ddr := by
  unfold haltOp
  repeat' first
    | (with_reducible refine Dev.serve_ddr _ _ _ _ _ _ ?_ <;> try intro _)
    | (with_reducible refine Dev.jobRequest_ddr _ _ _ _ ?_ <;> try intro _ _)
    | with_reducible rfl
    | simp only [Dev.haltJob_ddr]
    | dsimp only
    | split
    | (refine (foldl_ddr _ _ _ ?_).trans ?_ <;> try intro _ _)
    | (refine (foldl_ddr1 _ _ _ ?_).trans ?_ <;> try intro _ _)

@[simp] theorem resumeOp_ddr (r : Req) (seq : Nat) (d : Dev) : (resumeOp r seq d).ddr = d.ddr := by
  unfold resumeOp
  repeat' first
    | (with_reducible refine Dev.serve_ddr _ _ _ _ _ _ ?_ <;> try intro _)
    | (with_reducible refine Dev.jobRequest_ddr _ _ _ _ ?_ <;> try intro _ _)
    | with_reducible rfl
    | simp only [Dev.resumeJob_ddr]
    | dsimp only
    | split
    | (refine (foldl_ddr _ _ _ ?_).trans ?_ <;> try intro _ _)
    | (refine (foldl_ddr1 _ _ _ ?_).trans ?_ <;> try intro _ _)

@[simp] theorem cancelOp_ddr (r : Req) (seq : Nat) (d : Dev) : (cancelOp r seq d).ddr = d.ddr := by
  unfold cancelOp
  repeat' first
    | (with_reducible refine Dev.serve_ddr _ _ _ _ _ _ ?_ <;> try intro _)
    | (with_reducible refine Dev.jobRequest_ddr _ _ _ _ ?_ <;> try intro _ _)
    | with_reducible rfl
    | simp only [Dev.cancelJob_ddr]
    | dsimp only
    | split
    | (refine (foldl_ddr _ _ _ ?_).trans ?_ <;> try intro _ _)
    | (refine (foldl_ddr1 _ _ _ ?_).trans ?_ <;> try intro _ _)

@[simp] theorem jobStatusOp_ddr (r : Req) (seq : Nat) (d : Dev) : (jobStatusOp r seq d).ddr = d.ddr := by
  unfold jobStatusOp
  repeat' first
    | (with_reducible refine Dev.serve_ddr _ _ _ _ _ _ ?_ <;> try intro _)
    | (with_reducible refine Dev.jobRequest_ddr _ _ _ _ ?_ <;> try intro _ _)
    | with_reducible rfl
    | dsimp only
    | split
    | (refine (foldl_ddr _ _ _ ?_).trans ?_ <;> try intro _ _)
    | (refine (foldl_ddr1 _ _ _ ?_).trans ?_ <;> try intro _ _)

@[simp] theorem qrsAckOp_ddr (r : Req) (count : Nat) (pairs : List (Nat × Nat)) (d : Dev) : (qrsAckOp r count pairs d).ddr = d.ddr := by
  unfold qrsAckOp
  repeat' first
    | with_reducible rfl
    | simp only [Dev.ackPair_ddr, Dev.afterAck_ddr, Dev.hostFlag_ddr]
    | dsimp only
    | split
    | (refine (foldl_ddr _ _ _ ?_).trans ?_ <;> try intro _ _)
    | (refine (foldl_ddr1 _ _ _ ?_).trans ?_ <;> try intro _ _)

@[simp] theorem Dev.takeStreams_ddr (d : Dev) : (Dev.takeStreams d).ddr = d.ddr := by
  unfold Dev.takeStreams
  repeat' first
    | with_reducible rfl
    | simp only [Dev.setStream_ddr, Dev.setStroke_ddr, Dev.take_ddr, Dev.wr_ddr]
    | dsimp only
    | split
    | (refine (foldl_ddr _ _ _ ?_).trans ?_ <;> try intro _ _)
    | (refine (foldl_ddr1 _ _ _ ?_).trans ?_ <;> try intro _ _)

@[simp] theorem Dev.renderPort_ddr (d : Dev) (port : Nat) (l : List (Target × Stroke)) : (Dev.renderPort d port l).ddr = d.ddr := by
  unfold Dev.renderPort
  repeat' first
    | with_reducible rfl
    | simp only [Dev.flagN_ddr]
    | dsimp only
    | split
    | (refine (foldl_ddr _ _ _ ?_).trans ?_ <;> try intro _ _)
    | (refine (foldl_ddr1 _ _ _ ?_).trans ?_ <;> try intro _ _)

@[simp] theorem Dev.renderPorts_ddr (d : Dev) : (Dev.renderPorts d).ddr = d.ddr := by
  unfold Dev.renderPorts
  repeat' first
    | with_reducible rfl
    | simp only [Dev.renderPort_ddr]
    | dsimp only
    | split
    | (refine (foldl_ddr _ _ _ ?_).trans ?_ <;> try intro _ _)
    | (refine (foldl_ddr1 _ _ _ ?_).trans ?_ <;> try intro _ _)

@[simp] theorem Dev.strokeTick_ddr (d : Dev) (x : Target × Stroke) : (Dev.strokeTick d x).ddr = d.ddr := by
  unfold Dev.strokeTick
  repeat' first
    | with_reducible rfl
    | simp only [Dev.flagN_ddr, Dev.flag_ddr]
    | dsimp only
    | split
    | (refine (foldl_ddr _ _ _ ?_).trans ?_ <;> try intro _ _)
    | (refine (foldl_ddr1 _ _ _ ?_).trans ?_ <;> try intro _ _)

@[simp] theorem Dev.fluxTick_ddr (d : Dev) (c : Nat) (s : Option Stroke) : (Dev.fluxTick d c s).ddr = d.ddr := by
  unfold Dev.fluxTick
  repeat' first
    | with_reducible rfl
    | simp only [Dev.flagN_ddr, Dev.setFlux_ddr]
    | dsimp only
    | split
    | (refine (foldl_ddr _ _ _ ?_).trans ?_ <;> try intro _ _)
    | (refine (foldl_ddr1 _ _ _ ?_).trans ?_ <;> try intro _ _)

@[simp] theorem Dev.fluxTicks_ddr (d : Dev) (l : List (Target × Stroke)) : (Dev.fluxTicks d l).ddr = d.ddr := by
  unfold Dev.fluxTicks
  repeat' first
    | with_reducible rfl
    | simp only [Dev.fluxTick_ddr]
    | dsimp only
    | split
    | (refine (foldl_ddr _ _ _ ?_).trans ?_ <;> try intro _ _)
    | (refine (foldl_ddr1 _ _ _ ?_).trans ?_ <;> try intro _ _)

@[simp] theorem Dev.markerTick_ddr (d : Dev) : (Dev.markerTick d).ddr = d.ddr := by
  unfold Dev.markerTick
  repeat' first
    | with_reducible rfl
    | simp only [Dev.movedEdges_ddr]
    | dsimp only
    | split
    | (refine (foldl_ddr _ _ _ ?_).trans ?_ <;> try intro _ _)
    | (refine (foldl_ddr1 _ _ _ ?_).trans ?_ <;> try intro _ _)

@[simp] theorem Dev.pageTick_ddr (d : Dev) : (Dev.pageTick d).ddr = d.ddr := by
  unfold Dev.pageTick
  repeat' first
    | with_reducible rfl
    | simp only [Dev.setThread_ddr]
    | dsimp only
    | split
    | (refine (foldl_ddr _ _ _ ?_).trans ?_ <;> try intro _ _)
    | (refine (foldl_ddr1 _ _ _ ?_).trans ?_ <;> try intro _ _)

@[simp] theorem Dev.freePages_ddr (d : Dev) : (Dev.freePages d).ddr = d.ddr := by
  unfold Dev.freePages
  repeat' first
    | with_reducible rfl
    | simp only [Dev.setThread_ddr]
    | dsimp only
    | split
    | (refine (foldl_ddr _ _ _ ?_).trans ?_ <;> try intro _ _)
    | (refine (foldl_ddr1 _ _ _ ?_).trans ?_ <;> try intro _ _)

@[simp] theorem Dev.render_ddr (d : Dev) : (Dev.render d).ddr = d.ddr := by
  unfold Dev.render
  repeat' first
    | with_reducible rfl
    | simp only [Dev.fluxTicks_ddr, Dev.freePages_ddr, Dev.markerTick_ddr, Dev.pageTick_ddr, Dev.renderPorts_ddr, Dev.strokeTick_ddr, Dev.takeStreams_ddr]
    | dsimp only
    | split
    | (refine (foldl_ddr _ _ _ ?_).trans ?_ <;> try intro _ _)
    | (refine (foldl_ddr1 _ _ _ ?_).trans ?_ <;> try intro _ _)

@[simp] theorem Dev.applyTick_ddr (d : Dev) : (Dev.applyTick d).ddr = d.ddr := by
  unfold Dev.applyTick
  repeat' first
    | with_reducible rfl
    | simp only [Dev.applyWords_ddr, Dev.commitDone_ddr]
    | dsimp only
    | split
    | (refine (foldl_ddr _ _ _ ?_).trans ?_ <;> try intro _ _)
    | (refine (foldl_ddr1 _ _ _ ?_).trans ?_ <;> try intro _ _)

@[simp] theorem Dev.retireTick_ddr (d : Dev) : (Dev.retireTick d).ddr = d.ddr := by
  unfold Dev.retireTick
  repeat' first
    | with_reducible rfl
    | simp only [Dev.retireNow_ddr]
    | dsimp only
    | split
    | (refine (foldl_ddr _ _ _ ?_).trans ?_ <;> try intro _ _)
    | (refine (foldl_ddr1 _ _ _ ?_).trans ?_ <;> try intro _ _)

@[simp] theorem Dev.traceTick_ddr (d : Dev) : (Dev.traceTick d).ddr = d.ddr := by
  unfold Dev.traceTick
  repeat' first
    | with_reducible rfl
    | simp only [Dev.trace_ddr]
    | dsimp only
    | split
    | (refine (foldl_ddr _ _ _ ?_).trans ?_ <;> try intro _ _)
    | (refine (foldl_ddr1 _ _ _ ?_).trans ?_ <;> try intro _ _)

@[simp] theorem Dev.endTick_ddr (d : Dev) : (Dev.endTick d).ddr = d.ddr := by
  unfold Dev.endTick
  repeat' first
    | with_reducible rfl
    | simp only [Dev.cellTick_ddr, Dev.chainTick_ddr, Dev.drainTick_ddr, Dev.flushStage_ddr, Dev.integrateTick_ddr, Dev.prbsTick_ddr, Dev.releaseReplies_ddr, Dev.render_ddr, Dev.retireTick_ddr, Dev.retrainTick_ddr, Dev.traceTick_ddr]
    | dsimp only
    | split
    | (refine (foldl_ddr _ _ _ ?_).trans ?_ <;> try intro _ _)
    | (refine (foldl_ddr1 _ _ _ ?_).trans ?_ <;> try intro _ _)

@[simp] theorem Dev.countTick_ddr (d : Dev) : (Dev.countTick d).ddr = d.ddr := by
  unfold Dev.countTick
  repeat' first
    | with_reducible rfl
    | simp only [Dev.flagN_ddr, Dev.loadEpoch_ddr]
    | dsimp only
    | split
    | (refine (foldl_ddr _ _ _ ?_).trans ?_ <;> try intro _ _)
    | (refine (foldl_ddr1 _ _ _ ?_).trans ?_ <;> try intro _ _)

@[simp] theorem Dev.beginTick_ddr (d : Dev) : (Dev.beginTick d).ddr = d.ddr := by
  unfold Dev.beginTick
  repeat' first
    | with_reducible rfl
    | simp only [Dev.acqTick_ddr, Dev.applyTick_ddr, Dev.convTick_ddr, Dev.countTick_ddr, Dev.produce_ddr, Dev.rotateTick_ddr]
    | dsimp only
    | split
    | (refine (foldl_ddr _ _ _ ?_).trans ?_ <;> try intro _ _)
    | (refine (foldl_ddr1 _ _ _ ?_).trans ?_ <;> try intro _ _)

end Sys2Proof.Machine
end

