-- ==== Sys2Proof/Laws/State.lean ====
section
/-! SUPPORT. What the elementary updates of the device leave: one lemma per field per update, true by unfolding. The bytes
of DDR4 have lemmas of their own in the files Mem. -/

set_option linter.all false

namespace Sys2Proof.Machine

/-! `Dev.wr` changes `objs` alone. -/

@[simp] theorem Dev.wr_epoch (d : Dev) (key : Nat) (v : Nat) : (Dev.wr d key v).epoch = d.epoch := rfl
@[simp] theorem Dev.wr_counting (d : Dev) (key : Nat) (v : Nat) : (Dev.wr d key v).counting = d.counting := rfl
@[simp] theorem Dev.wr_state (d : Dev) (key : Nat) (v : Nat) : (Dev.wr d key v).state = d.state := rfl
@[simp] theorem Dev.wr_counters (d : Dev) (key : Nat) (v : Nat) : (Dev.wr d key v).counters = d.counters := rfl
@[simp] theorem Dev.wr_inTick (d : Dev) (key : Nat) (v : Nat) : (Dev.wr d key v).inTick = d.inTick := rfl
@[simp] theorem Dev.wr_agg (d : Dev) (key : Nat) (v : Nat) : (Dev.wr d key v).agg = d.agg := rfl
@[simp] theorem Dev.wr_ev (d : Dev) (key : Nat) (v : Nat) : (Dev.wr d key v).ev = d.ev := rfl
@[simp] theorem Dev.wr_lat (d : Dev) (key : Nat) (v : Nat) : (Dev.wr d key v).lat = d.lat := rfl
@[simp] theorem Dev.wr_ser (d : Dev) (key : Nat) (v : Nat) : (Dev.wr d key v).ser = d.ser := rfl
@[simp] theorem Dev.wr_qop (d : Dev) (key : Nat) (v : Nat) : (Dev.wr d key v).qop = d.qop := rfl
@[simp] theorem Dev.wr_hub (d : Dev) (key : Nat) (v : Nat) : (Dev.wr d key v).hub = d.hub := rfl
@[simp] theorem Dev.wr_pwr (d : Dev) (key : Nat) (v : Nat) : (Dev.wr d key v).pwr = d.pwr := rfl
@[simp] theorem Dev.wr_eas (d : Dev) (key : Nat) (v : Nat) : (Dev.wr d key v).eas = d.eas := rfl
@[simp] theorem Dev.wr_out (d : Dev) (key : Nat) (v : Nat) : (Dev.wr d key v).out = d.out := rfl
@[simp] theorem Dev.wr_rx (d : Dev) (key : Nat) (v : Nat) : (Dev.wr d key v).rx = d.rx := rfl
@[simp] theorem Dev.wr_acq (d : Dev) (key : Nat) (v : Nat) : (Dev.wr d key v).acq = d.acq := rfl
@[simp] theorem Dev.wr_dsp (d : Dev) (key : Nat) (v : Nat) : (Dev.wr d key v).dsp = d.dsp := rfl
@[simp] theorem Dev.wr_cal (d : Dev) (key : Nat) (v : Nat) : (Dev.wr d key v).cal = d.cal := rfl

/-! `Dev.addCtr` changes `counters` alone. -/

@[simp] theorem Dev.addCtr_epoch (d : Dev) (key : Nat) (n : Nat) : (Dev.addCtr d key n).epoch = d.epoch := rfl
@[simp] theorem Dev.addCtr_counting (d : Dev) (key : Nat) (n : Nat) : (Dev.addCtr d key n).counting = d.counting := rfl
@[simp] theorem Dev.addCtr_state (d : Dev) (key : Nat) (n : Nat) : (Dev.addCtr d key n).state = d.state := rfl
@[simp] theorem Dev.addCtr_objs (d : Dev) (key : Nat) (n : Nat) : (Dev.addCtr d key n).objs = d.objs := rfl
@[simp] theorem Dev.addCtr_inTick (d : Dev) (key : Nat) (n : Nat) : (Dev.addCtr d key n).inTick = d.inTick := rfl
@[simp] theorem Dev.addCtr_agg (d : Dev) (key : Nat) (n : Nat) : (Dev.addCtr d key n).agg = d.agg := rfl
@[simp] theorem Dev.addCtr_ev (d : Dev) (key : Nat) (n : Nat) : (Dev.addCtr d key n).ev = d.ev := rfl
@[simp] theorem Dev.addCtr_lat (d : Dev) (key : Nat) (n : Nat) : (Dev.addCtr d key n).lat = d.lat := rfl
@[simp] theorem Dev.addCtr_ser (d : Dev) (key : Nat) (n : Nat) : (Dev.addCtr d key n).ser = d.ser := rfl
@[simp] theorem Dev.addCtr_qop (d : Dev) (key : Nat) (n : Nat) : (Dev.addCtr d key n).qop = d.qop := rfl
@[simp] theorem Dev.addCtr_hub (d : Dev) (key : Nat) (n : Nat) : (Dev.addCtr d key n).hub = d.hub := rfl
@[simp] theorem Dev.addCtr_pwr (d : Dev) (key : Nat) (n : Nat) : (Dev.addCtr d key n).pwr = d.pwr := rfl
@[simp] theorem Dev.addCtr_eas (d : Dev) (key : Nat) (n : Nat) : (Dev.addCtr d key n).eas = d.eas := rfl
@[simp] theorem Dev.addCtr_out (d : Dev) (key : Nat) (n : Nat) : (Dev.addCtr d key n).out = d.out := rfl
@[simp] theorem Dev.addCtr_rx (d : Dev) (key : Nat) (n : Nat) : (Dev.addCtr d key n).rx = d.rx := rfl
@[simp] theorem Dev.addCtr_acq (d : Dev) (key : Nat) (n : Nat) : (Dev.addCtr d key n).acq = d.acq := rfl
@[simp] theorem Dev.addCtr_dsp (d : Dev) (key : Nat) (n : Nat) : (Dev.addCtr d key n).dsp = d.dsp := rfl
@[simp] theorem Dev.addCtr_cal (d : Dev) (key : Nat) (n : Nat) : (Dev.addCtr d key n).cal = d.cal := rfl

/-! `Dev.noteCounted` changes `inTick` alone. -/

@[simp] theorem Dev.noteCounted_epoch (d : Dev) (key : Nat) (n : Nat) : (Dev.noteCounted d key n).epoch = d.epoch := rfl
@[simp] theorem Dev.noteCounted_counting (d : Dev) (key : Nat) (n : Nat) : (Dev.noteCounted d key n).counting = d.counting := rfl
@[simp] theorem Dev.noteCounted_state (d : Dev) (key : Nat) (n : Nat) : (Dev.noteCounted d key n).state = d.state := rfl
@[simp] theorem Dev.noteCounted_objs (d : Dev) (key : Nat) (n : Nat) : (Dev.noteCounted d key n).objs = d.objs := rfl
@[simp] theorem Dev.noteCounted_counters (d : Dev) (key : Nat) (n : Nat) : (Dev.noteCounted d key n).counters = d.counters := rfl
@[simp] theorem Dev.noteCounted_agg (d : Dev) (key : Nat) (n : Nat) : (Dev.noteCounted d key n).agg = d.agg := rfl
@[simp] theorem Dev.noteCounted_ev (d : Dev) (key : Nat) (n : Nat) : (Dev.noteCounted d key n).ev = d.ev := rfl
@[simp] theorem Dev.noteCounted_lat (d : Dev) (key : Nat) (n : Nat) : (Dev.noteCounted d key n).lat = d.lat := rfl
@[simp] theorem Dev.noteCounted_ser (d : Dev) (key : Nat) (n : Nat) : (Dev.noteCounted d key n).ser = d.ser := rfl
@[simp] theorem Dev.noteCounted_qop (d : Dev) (key : Nat) (n : Nat) : (Dev.noteCounted d key n).qop = d.qop := rfl
@[simp] theorem Dev.noteCounted_hub (d : Dev) (key : Nat) (n : Nat) : (Dev.noteCounted d key n).hub = d.hub := rfl
@[simp] theorem Dev.noteCounted_pwr (d : Dev) (key : Nat) (n : Nat) : (Dev.noteCounted d key n).pwr = d.pwr := rfl
@[simp] theorem Dev.noteCounted_eas (d : Dev) (key : Nat) (n : Nat) : (Dev.noteCounted d key n).eas = d.eas := rfl
@[simp] theorem Dev.noteCounted_out (d : Dev) (key : Nat) (n : Nat) : (Dev.noteCounted d key n).out = d.out := rfl
@[simp] theorem Dev.noteCounted_rx (d : Dev) (key : Nat) (n : Nat) : (Dev.noteCounted d key n).rx = d.rx := rfl
@[simp] theorem Dev.noteCounted_acq (d : Dev) (key : Nat) (n : Nat) : (Dev.noteCounted d key n).acq = d.acq := rfl
@[simp] theorem Dev.noteCounted_dsp (d : Dev) (key : Nat) (n : Nat) : (Dev.noteCounted d key n).dsp = d.dsp := rfl
@[simp] theorem Dev.noteCounted_cal (d : Dev) (key : Nat) (n : Nat) : (Dev.noteCounted d key n).cal = d.cal := rfl

/-! `Dev.noteRaised` changes `inTick` alone. -/

@[simp] theorem Dev.noteRaised_epoch (d : Dev) (key : Nat) (bit : Nat) : (Dev.noteRaised d key bit).epoch = d.epoch := rfl
@[simp] theorem Dev.noteRaised_counting (d : Dev) (key : Nat) (bit : Nat) : (Dev.noteRaised d key bit).counting = d.counting := rfl
@[simp] theorem Dev.noteRaised_state (d : Dev) (key : Nat) (bit : Nat) : (Dev.noteRaised d key bit).state = d.state := rfl
@[simp] theorem Dev.noteRaised_objs (d : Dev) (key : Nat) (bit : Nat) : (Dev.noteRaised d key bit).objs = d.objs := rfl
@[simp] theorem Dev.noteRaised_counters (d : Dev) (key : Nat) (bit : Nat) : (Dev.noteRaised d key bit).counters = d.counters := rfl
@[simp] theorem Dev.noteRaised_agg (d : Dev) (key : Nat) (bit : Nat) : (Dev.noteRaised d key bit).agg = d.agg := rfl
@[simp] theorem Dev.noteRaised_ev (d : Dev) (key : Nat) (bit : Nat) : (Dev.noteRaised d key bit).ev = d.ev := rfl
@[simp] theorem Dev.noteRaised_lat (d : Dev) (key : Nat) (bit : Nat) : (Dev.noteRaised d key bit).lat = d.lat := rfl
@[simp] theorem Dev.noteRaised_ser (d : Dev) (key : Nat) (bit : Nat) : (Dev.noteRaised d key bit).ser = d.ser := rfl
@[simp] theorem Dev.noteRaised_qop (d : Dev) (key : Nat) (bit : Nat) : (Dev.noteRaised d key bit).qop = d.qop := rfl
@[simp] theorem Dev.noteRaised_hub (d : Dev) (key : Nat) (bit : Nat) : (Dev.noteRaised d key bit).hub = d.hub := rfl
@[simp] theorem Dev.noteRaised_pwr (d : Dev) (key : Nat) (bit : Nat) : (Dev.noteRaised d key bit).pwr = d.pwr := rfl
@[simp] theorem Dev.noteRaised_eas (d : Dev) (key : Nat) (bit : Nat) : (Dev.noteRaised d key bit).eas = d.eas := rfl
@[simp] theorem Dev.noteRaised_out (d : Dev) (key : Nat) (bit : Nat) : (Dev.noteRaised d key bit).out = d.out := rfl
@[simp] theorem Dev.noteRaised_rx (d : Dev) (key : Nat) (bit : Nat) : (Dev.noteRaised d key bit).rx = d.rx := rfl
@[simp] theorem Dev.noteRaised_acq (d : Dev) (key : Nat) (bit : Nat) : (Dev.noteRaised d key bit).acq = d.acq := rfl
@[simp] theorem Dev.noteRaised_dsp (d : Dev) (key : Nat) (bit : Nat) : (Dev.noteRaised d key bit).dsp = d.dsp := rfl
@[simp] theorem Dev.noteRaised_cal (d : Dev) (key : Nat) (bit : Nat) : (Dev.noteRaised d key bit).cal = d.cal := rfl

/-! `Dev.software` changes `ev` alone. -/

@[simp] theorem Dev.software_epoch (d : Dev) (line : Nat) : (Dev.software d line).epoch = d.epoch := rfl
@[simp] theorem Dev.software_counting (d : Dev) (line : Nat) : (Dev.software d line).counting = d.counting := rfl
@[simp] theorem Dev.software_state (d : Dev) (line : Nat) : (Dev.software d line).state = d.state := rfl
@[simp] theorem Dev.software_objs (d : Dev) (line : Nat) : (Dev.software d line).objs = d.objs := rfl
@[simp] theorem Dev.software_counters (d : Dev) (line : Nat) : (Dev.software d line).counters = d.counters := rfl
@[simp] theorem Dev.software_inTick (d : Dev) (line : Nat) : (Dev.software d line).inTick = d.inTick := rfl
@[simp] theorem Dev.software_agg (d : Dev) (line : Nat) : (Dev.software d line).agg = d.agg := rfl
@[simp] theorem Dev.software_lat (d : Dev) (line : Nat) : (Dev.software d line).lat = d.lat := rfl
@[simp] theorem Dev.software_ser (d : Dev) (line : Nat) : (Dev.software d line).ser = d.ser := rfl
@[simp] theorem Dev.software_qop (d : Dev) (line : Nat) : (Dev.software d line).qop = d.qop := rfl
@[simp] theorem Dev.software_hub (d : Dev) (line : Nat) : (Dev.software d line).hub = d.hub := rfl
@[simp] theorem Dev.software_pwr (d : Dev) (line : Nat) : (Dev.software d line).pwr = d.pwr := rfl
@[simp] theorem Dev.software_eas (d : Dev) (line : Nat) : (Dev.software d line).eas = d.eas := rfl
@[simp] theorem Dev.software_out (d : Dev) (line : Nat) : (Dev.software d line).out = d.out := rfl
@[simp] theorem Dev.software_rx (d : Dev) (line : Nat) : (Dev.software d line).rx = d.rx := rfl
@[simp] theorem Dev.software_acq (d : Dev) (line : Nat) : (Dev.software d line).acq = d.acq := rfl
@[simp] theorem Dev.software_dsp (d : Dev) (line : Nat) : (Dev.software d line).dsp = d.dsp := rfl
@[simp] theorem Dev.software_cal (d : Dev) (line : Nat) : (Dev.software d line).cal = d.cal := rfl

/-! `Dev.modJob` changes `hub` alone. -/

@[simp] theorem Dev.modJob_epoch (d : Dev) (seq : Nat) (f : Job → Job) : (Dev.modJob d seq f).epoch = d.epoch := rfl
@[simp] theorem Dev.modJob_counting (d : Dev) (seq : Nat) (f : Job → Job) : (Dev.modJob d seq f).counting = d.counting := rfl
@[simp] theorem Dev.modJob_state (d : Dev) (seq : Nat) (f : Job → Job) : (Dev.modJob d seq f).state = d.state := rfl
@[simp] theorem Dev.modJob_objs (d : Dev) (seq : Nat) (f : Job → Job) : (Dev.modJob d seq f).objs = d.objs := rfl
@[simp] theorem Dev.modJob_counters (d : Dev) (seq : Nat) (f : Job → Job) : (Dev.modJob d seq f).counters = d.counters := rfl
@[simp] theorem Dev.modJob_inTick (d : Dev) (seq : Nat) (f : Job → Job) : (Dev.modJob d seq f).inTick = d.inTick := rfl
@[simp] theorem Dev.modJob_agg (d : Dev) (seq : Nat) (f : Job → Job) : (Dev.modJob d seq f).agg = d.agg := rfl
@[simp] theorem Dev.modJob_ev (d : Dev) (seq : Nat) (f : Job → Job) : (Dev.modJob d seq f).ev = d.ev := rfl
@[simp] theorem Dev.modJob_lat (d : Dev) (seq : Nat) (f : Job → Job) : (Dev.modJob d seq f).lat = d.lat := rfl
@[simp] theorem Dev.modJob_ser (d : Dev) (seq : Nat) (f : Job → Job) : (Dev.modJob d seq f).ser = d.ser := rfl
@[simp] theorem Dev.modJob_qop (d : Dev) (seq : Nat) (f : Job → Job) : (Dev.modJob d seq f).qop = d.qop := rfl
@[simp] theorem Dev.modJob_pwr (d : Dev) (seq : Nat) (f : Job → Job) : (Dev.modJob d seq f).pwr = d.pwr := rfl
@[simp] theorem Dev.modJob_eas (d : Dev) (seq : Nat) (f : Job → Job) : (Dev.modJob d seq f).eas = d.eas := rfl
@[simp] theorem Dev.modJob_out (d : Dev) (seq : Nat) (f : Job → Job) : (Dev.modJob d seq f).out = d.out := rfl
@[simp] theorem Dev.modJob_rx (d : Dev) (seq : Nat) (f : Job → Job) : (Dev.modJob d seq f).rx = d.rx := rfl
@[simp] theorem Dev.modJob_acq (d : Dev) (seq : Nat) (f : Job → Job) : (Dev.modJob d seq f).acq = d.acq := rfl
@[simp] theorem Dev.modJob_dsp (d : Dev) (seq : Nat) (f : Job → Job) : (Dev.modJob d seq f).dsp = d.dsp := rfl
@[simp] theorem Dev.modJob_cal (d : Dev) (seq : Nat) (f : Job → Job) : (Dev.modJob d seq f).cal = d.cal := rfl

/-! `Dev.setThread` changes `eas` alone. -/

@[simp] theorem Dev.setThread_epoch (d : Dev) (n : Nat) (t : Thread) : (Dev.setThread d n t).epoch = d.epoch := rfl
@[simp] theorem Dev.setThread_counting (d : Dev) (n : Nat) (t : Thread) : (Dev.setThread d n t).counting = d.counting := rfl
@[simp] theorem Dev.setThread_state (d : Dev) (n : Nat) (t : Thread) : (Dev.setThread d n t).state = d.state := rfl
@[simp] theorem Dev.setThread_objs (d : Dev) (n : Nat) (t : Thread) : (Dev.setThread d n t).objs = d.objs := rfl
@[simp] theorem Dev.setThread_counters (d : Dev) (n : Nat) (t : Thread) : (Dev.setThread d n t).counters = d.counters := rfl
@[simp] theorem Dev.setThread_inTick (d : Dev) (n : Nat) (t : Thread) : (Dev.setThread d n t).inTick = d.inTick := rfl
@[simp] theorem Dev.setThread_agg (d : Dev) (n : Nat) (t : Thread) : (Dev.setThread d n t).agg = d.agg := rfl
@[simp] theorem Dev.setThread_ev (d : Dev) (n : Nat) (t : Thread) : (Dev.setThread d n t).ev = d.ev := rfl
@[simp] theorem Dev.setThread_lat (d : Dev) (n : Nat) (t : Thread) : (Dev.setThread d n t).lat = d.lat := rfl
@[simp] theorem Dev.setThread_ser (d : Dev) (n : Nat) (t : Thread) : (Dev.setThread d n t).ser = d.ser := rfl
@[simp] theorem Dev.setThread_qop (d : Dev) (n : Nat) (t : Thread) : (Dev.setThread d n t).qop = d.qop := rfl
@[simp] theorem Dev.setThread_hub (d : Dev) (n : Nat) (t : Thread) : (Dev.setThread d n t).hub = d.hub := rfl
@[simp] theorem Dev.setThread_pwr (d : Dev) (n : Nat) (t : Thread) : (Dev.setThread d n t).pwr = d.pwr := rfl
@[simp] theorem Dev.setThread_out (d : Dev) (n : Nat) (t : Thread) : (Dev.setThread d n t).out = d.out := rfl
@[simp] theorem Dev.setThread_rx (d : Dev) (n : Nat) (t : Thread) : (Dev.setThread d n t).rx = d.rx := rfl
@[simp] theorem Dev.setThread_acq (d : Dev) (n : Nat) (t : Thread) : (Dev.setThread d n t).acq = d.acq := rfl
@[simp] theorem Dev.setThread_dsp (d : Dev) (n : Nat) (t : Thread) : (Dev.setThread d n t).dsp = d.dsp := rfl
@[simp] theorem Dev.setThread_cal (d : Dev) (n : Nat) (t : Thread) : (Dev.setThread d n t).cal = d.cal := rfl

/-! `Dev.setMarker` changes `out` alone. -/

@[simp] theorem Dev.setMarker_epoch (d : Dev) (m : Nat) (k : Marker) : (Dev.setMarker d m k).epoch = d.epoch := rfl
@[simp] theorem Dev.setMarker_counting (d : Dev) (m : Nat) (k : Marker) : (Dev.setMarker d m k).counting = d.counting := rfl
@[simp] theorem Dev.setMarker_state (d : Dev) (m : Nat) (k : Marker) : (Dev.setMarker d m k).state = d.state := rfl
@[simp] theorem Dev.setMarker_objs (d : Dev) (m : Nat) (k : Marker) : (Dev.setMarker d m k).objs = d.objs := rfl
@[simp] theorem Dev.setMarker_counters (d : Dev) (m : Nat) (k : Marker) : (Dev.setMarker d m k).counters = d.counters := rfl
@[simp] theorem Dev.setMarker_inTick (d : Dev) (m : Nat) (k : Marker) : (Dev.setMarker d m k).inTick = d.inTick := rfl
@[simp] theorem Dev.setMarker_agg (d : Dev) (m : Nat) (k : Marker) : (Dev.setMarker d m k).agg = d.agg := rfl
@[simp] theorem Dev.setMarker_ev (d : Dev) (m : Nat) (k : Marker) : (Dev.setMarker d m k).ev = d.ev := rfl
@[simp] theorem Dev.setMarker_lat (d : Dev) (m : Nat) (k : Marker) : (Dev.setMarker d m k).lat = d.lat := rfl
@[simp] theorem Dev.setMarker_ser (d : Dev) (m : Nat) (k : Marker) : (Dev.setMarker d m k).ser = d.ser := rfl
@[simp] theorem Dev.setMarker_qop (d : Dev) (m : Nat) (k : Marker) : (Dev.setMarker d m k).qop = d.qop := rfl
@[simp] theorem Dev.setMarker_hub (d : Dev) (m : Nat) (k : Marker) : (Dev.setMarker d m k).hub = d.hub := rfl
@[simp] theorem Dev.setMarker_pwr (d : Dev) (m : Nat) (k : Marker) : (Dev.setMarker d m k).pwr = d.pwr := rfl
@[simp] theorem Dev.setMarker_eas (d : Dev) (m : Nat) (k : Marker) : (Dev.setMarker d m k).eas = d.eas := rfl
@[simp] theorem Dev.setMarker_rx (d : Dev) (m : Nat) (k : Marker) : (Dev.setMarker d m k).rx = d.rx := rfl
@[simp] theorem Dev.setMarker_acq (d : Dev) (m : Nat) (k : Marker) : (Dev.setMarker d m k).acq = d.acq := rfl
@[simp] theorem Dev.setMarker_dsp (d : Dev) (m : Nat) (k : Marker) : (Dev.setMarker d m k).dsp = d.dsp := rfl
@[simp] theorem Dev.setMarker_cal (d : Dev) (m : Nat) (k : Marker) : (Dev.setMarker d m k).cal = d.cal := rfl

/-! `Dev.setStroke` changes `out` alone. -/

@[simp] theorem Dev.setStroke_epoch (d : Dev) (t : Target) (s : Option Stroke) : (Dev.setStroke d t s).epoch = d.epoch := rfl
@[simp] theorem Dev.setStroke_counting (d : Dev) (t : Target) (s : Option Stroke) : (Dev.setStroke d t s).counting = d.counting := rfl
@[simp] theorem Dev.setStroke_state (d : Dev) (t : Target) (s : Option Stroke) : (Dev.setStroke d t s).state = d.state := rfl
@[simp] theorem Dev.setStroke_objs (d : Dev) (t : Target) (s : Option Stroke) : (Dev.setStroke d t s).objs = d.objs := rfl
@[simp] theorem Dev.setStroke_counters (d : Dev) (t : Target) (s : Option Stroke) : (Dev.setStroke d t s).counters = d.counters := rfl
@[simp] theorem Dev.setStroke_inTick (d : Dev) (t : Target) (s : Option Stroke) : (Dev.setStroke d t s).inTick = d.inTick := rfl
@[simp] theorem Dev.setStroke_agg (d : Dev) (t : Target) (s : Option Stroke) : (Dev.setStroke d t s).agg = d.agg := rfl
@[simp] theorem Dev.setStroke_ev (d : Dev) (t : Target) (s : Option Stroke) : (Dev.setStroke d t s).ev = d.ev := rfl
@[simp] theorem Dev.setStroke_lat (d : Dev) (t : Target) (s : Option Stroke) : (Dev.setStroke d t s).lat = d.lat := rfl
@[simp] theorem Dev.setStroke_ser (d : Dev) (t : Target) (s : Option Stroke) : (Dev.setStroke d t s).ser = d.ser := rfl
@[simp] theorem Dev.setStroke_qop (d : Dev) (t : Target) (s : Option Stroke) : (Dev.setStroke d t s).qop = d.qop := rfl
@[simp] theorem Dev.setStroke_hub (d : Dev) (t : Target) (s : Option Stroke) : (Dev.setStroke d t s).hub = d.hub := rfl
@[simp] theorem Dev.setStroke_pwr (d : Dev) (t : Target) (s : Option Stroke) : (Dev.setStroke d t s).pwr = d.pwr := rfl
@[simp] theorem Dev.setStroke_eas (d : Dev) (t : Target) (s : Option Stroke) : (Dev.setStroke d t s).eas = d.eas := rfl
@[simp] theorem Dev.setStroke_rx (d : Dev) (t : Target) (s : Option Stroke) : (Dev.setStroke d t s).rx = d.rx := rfl
@[simp] theorem Dev.setStroke_acq (d : Dev) (t : Target) (s : Option Stroke) : (Dev.setStroke d t s).acq = d.acq := rfl
@[simp] theorem Dev.setStroke_dsp (d : Dev) (t : Target) (s : Option Stroke) : (Dev.setStroke d t s).dsp = d.dsp := rfl
@[simp] theorem Dev.setStroke_cal (d : Dev) (t : Target) (s : Option Stroke) : (Dev.setStroke d t s).cal = d.cal := rfl

/-! `Dev.setSlotRx` changes `rx` alone. -/

@[simp] theorem Dev.setSlotRx_epoch (d : Dev) (slot : Nat) (r : SlotRx) : (Dev.setSlotRx d slot r).epoch = d.epoch := rfl
@[simp] theorem Dev.setSlotRx_counting (d : Dev) (slot : Nat) (r : SlotRx) : (Dev.setSlotRx d slot r).counting = d.counting := rfl
@[simp] theorem Dev.setSlotRx_state (d : Dev) (slot : Nat) (r : SlotRx) : (Dev.setSlotRx d slot r).state = d.state := rfl
@[simp] theorem Dev.setSlotRx_objs (d : Dev) (slot : Nat) (r : SlotRx) : (Dev.setSlotRx d slot r).objs = d.objs := rfl
@[simp] theorem Dev.setSlotRx_counters (d : Dev) (slot : Nat) (r : SlotRx) : (Dev.setSlotRx d slot r).counters = d.counters := rfl
@[simp] theorem Dev.setSlotRx_inTick (d : Dev) (slot : Nat) (r : SlotRx) : (Dev.setSlotRx d slot r).inTick = d.inTick := rfl
@[simp] theorem Dev.setSlotRx_agg (d : Dev) (slot : Nat) (r : SlotRx) : (Dev.setSlotRx d slot r).agg = d.agg := rfl
@[simp] theorem Dev.setSlotRx_ev (d : Dev) (slot : Nat) (r : SlotRx) : (Dev.setSlotRx d slot r).ev = d.ev := rfl
@[simp] theorem Dev.setSlotRx_lat (d : Dev) (slot : Nat) (r : SlotRx) : (Dev.setSlotRx d slot r).lat = d.lat := rfl
@[simp] theorem Dev.setSlotRx_ser (d : Dev) (slot : Nat) (r : SlotRx) : (Dev.setSlotRx d slot r).ser = d.ser := rfl
@[simp] theorem Dev.setSlotRx_qop (d : Dev) (slot : Nat) (r : SlotRx) : (Dev.setSlotRx d slot r).qop = d.qop := rfl
@[simp] theorem Dev.setSlotRx_hub (d : Dev) (slot : Nat) (r : SlotRx) : (Dev.setSlotRx d slot r).hub = d.hub := rfl
@[simp] theorem Dev.setSlotRx_pwr (d : Dev) (slot : Nat) (r : SlotRx) : (Dev.setSlotRx d slot r).pwr = d.pwr := rfl
@[simp] theorem Dev.setSlotRx_eas (d : Dev) (slot : Nat) (r : SlotRx) : (Dev.setSlotRx d slot r).eas = d.eas := rfl
@[simp] theorem Dev.setSlotRx_out (d : Dev) (slot : Nat) (r : SlotRx) : (Dev.setSlotRx d slot r).out = d.out := rfl
@[simp] theorem Dev.setSlotRx_acq (d : Dev) (slot : Nat) (r : SlotRx) : (Dev.setSlotRx d slot r).acq = d.acq := rfl
@[simp] theorem Dev.setSlotRx_dsp (d : Dev) (slot : Nat) (r : SlotRx) : (Dev.setSlotRx d slot r).dsp = d.dsp := rfl
@[simp] theorem Dev.setSlotRx_cal (d : Dev) (slot : Nat) (r : SlotRx) : (Dev.setSlotRx d slot r).cal = d.cal := rfl

/-! `Dev.setFlux` changes `out` alone. -/

@[simp] theorem Dev.setFlux_epoch (d : Dev) (c : Nat) (f : FluxSt) : (Dev.setFlux d c f).epoch = d.epoch := rfl
@[simp] theorem Dev.setFlux_counting (d : Dev) (c : Nat) (f : FluxSt) : (Dev.setFlux d c f).counting = d.counting := rfl
@[simp] theorem Dev.setFlux_state (d : Dev) (c : Nat) (f : FluxSt) : (Dev.setFlux d c f).state = d.state := rfl
@[simp] theorem Dev.setFlux_objs (d : Dev) (c : Nat) (f : FluxSt) : (Dev.setFlux d c f).objs = d.objs := rfl
@[simp] theorem Dev.setFlux_counters (d : Dev) (c : Nat) (f : FluxSt) : (Dev.setFlux d c f).counters = d.counters := rfl
@[simp] theorem Dev.setFlux_inTick (d : Dev) (c : Nat) (f : FluxSt) : (Dev.setFlux d c f).inTick = d.inTick := rfl
@[simp] theorem Dev.setFlux_agg (d : Dev) (c : Nat) (f : FluxSt) : (Dev.setFlux d c f).agg = d.agg := rfl
@[simp] theorem Dev.setFlux_ev (d : Dev) (c : Nat) (f : FluxSt) : (Dev.setFlux d c f).ev = d.ev := rfl
@[simp] theorem Dev.setFlux_lat (d : Dev) (c : Nat) (f : FluxSt) : (Dev.setFlux d c f).lat = d.lat := rfl
@[simp] theorem Dev.setFlux_ser (d : Dev) (c : Nat) (f : FluxSt) : (Dev.setFlux d c f).ser = d.ser := rfl
@[simp] theorem Dev.setFlux_qop (d : Dev) (c : Nat) (f : FluxSt) : (Dev.setFlux d c f).qop = d.qop := rfl
@[simp] theorem Dev.setFlux_hub (d : Dev) (c : Nat) (f : FluxSt) : (Dev.setFlux d c f).hub = d.hub := rfl
@[simp] theorem Dev.setFlux_pwr (d : Dev) (c : Nat) (f : FluxSt) : (Dev.setFlux d c f).pwr = d.pwr := rfl
@[simp] theorem Dev.setFlux_eas (d : Dev) (c : Nat) (f : FluxSt) : (Dev.setFlux d c f).eas = d.eas := rfl
@[simp] theorem Dev.setFlux_rx (d : Dev) (c : Nat) (f : FluxSt) : (Dev.setFlux d c f).rx = d.rx := rfl
@[simp] theorem Dev.setFlux_acq (d : Dev) (c : Nat) (f : FluxSt) : (Dev.setFlux d c f).acq = d.acq := rfl
@[simp] theorem Dev.setFlux_dsp (d : Dev) (c : Nat) (f : FluxSt) : (Dev.setFlux d c f).dsp = d.dsp := rfl
@[simp] theorem Dev.setFlux_cal (d : Dev) (c : Nat) (f : FluxSt) : (Dev.setFlux d c f).cal = d.cal := rfl

/-! `Dev.setFrame` changes `out` alone. -/

@[simp] theorem Dev.setFrame_epoch (d : Dev) (i : Nat) (f : Frame) : (Dev.setFrame d i f).epoch = d.epoch := rfl
@[simp] theorem Dev.setFrame_counting (d : Dev) (i : Nat) (f : Frame) : (Dev.setFrame d i f).counting = d.counting := rfl
@[simp] theorem Dev.setFrame_state (d : Dev) (i : Nat) (f : Frame) : (Dev.setFrame d i f).state = d.state := rfl
@[simp] theorem Dev.setFrame_objs (d : Dev) (i : Nat) (f : Frame) : (Dev.setFrame d i f).objs = d.objs := rfl
@[simp] theorem Dev.setFrame_counters (d : Dev) (i : Nat) (f : Frame) : (Dev.setFrame d i f).counters = d.counters := rfl
@[simp] theorem Dev.setFrame_inTick (d : Dev) (i : Nat) (f : Frame) : (Dev.setFrame d i f).inTick = d.inTick := rfl
@[simp] theorem Dev.setFrame_agg (d : Dev) (i : Nat) (f : Frame) : (Dev.setFrame d i f).agg = d.agg := rfl
@[simp] theorem Dev.setFrame_ev (d : Dev) (i : Nat) (f : Frame) : (Dev.setFrame d i f).ev = d.ev := rfl
@[simp] theorem Dev.setFrame_lat (d : Dev) (i : Nat) (f : Frame) : (Dev.setFrame d i f).lat = d.lat := rfl
@[simp] theorem Dev.setFrame_ser (d : Dev) (i : Nat) (f : Frame) : (Dev.setFrame d i f).ser = d.ser := rfl
@[simp] theorem Dev.setFrame_qop (d : Dev) (i : Nat) (f : Frame) : (Dev.setFrame d i f).qop = d.qop := rfl
@[simp] theorem Dev.setFrame_hub (d : Dev) (i : Nat) (f : Frame) : (Dev.setFrame d i f).hub = d.hub := rfl
@[simp] theorem Dev.setFrame_pwr (d : Dev) (i : Nat) (f : Frame) : (Dev.setFrame d i f).pwr = d.pwr := rfl
@[simp] theorem Dev.setFrame_eas (d : Dev) (i : Nat) (f : Frame) : (Dev.setFrame d i f).eas = d.eas := rfl
@[simp] theorem Dev.setFrame_rx (d : Dev) (i : Nat) (f : Frame) : (Dev.setFrame d i f).rx = d.rx := rfl
@[simp] theorem Dev.setFrame_acq (d : Dev) (i : Nat) (f : Frame) : (Dev.setFrame d i f).acq = d.acq := rfl
@[simp] theorem Dev.setFrame_dsp (d : Dev) (i : Nat) (f : Frame) : (Dev.setFrame d i f).dsp = d.dsp := rfl
@[simp] theorem Dev.setFrame_cal (d : Dev) (i : Nat) (f : Frame) : (Dev.setFrame d i f).cal = d.cal := rfl

/-! `Dev.setAcq` changes `acq` alone. -/

@[simp] theorem Dev.setAcq_epoch (d : Dev) (c : Nat) (a : AcqSt) : (Dev.setAcq d c a).epoch = d.epoch := rfl
@[simp] theorem Dev.setAcq_counting (d : Dev) (c : Nat) (a : AcqSt) : (Dev.setAcq d c a).counting = d.counting := rfl
@[simp] theorem Dev.setAcq_state (d : Dev) (c : Nat) (a : AcqSt) : (Dev.setAcq d c a).state = d.state := rfl
@[simp] theorem Dev.setAcq_objs (d : Dev) (c : Nat) (a : AcqSt) : (Dev.setAcq d c a).objs = d.objs := rfl
@[simp] theorem Dev.setAcq_counters (d : Dev) (c : Nat) (a : AcqSt) : (Dev.setAcq d c a).counters = d.counters := rfl
@[simp] theorem Dev.setAcq_inTick (d : Dev) (c : Nat) (a : AcqSt) : (Dev.setAcq d c a).inTick = d.inTick := rfl
@[simp] theorem Dev.setAcq_agg (d : Dev) (c : Nat) (a : AcqSt) : (Dev.setAcq d c a).agg = d.agg := rfl
@[simp] theorem Dev.setAcq_ev (d : Dev) (c : Nat) (a : AcqSt) : (Dev.setAcq d c a).ev = d.ev := rfl
@[simp] theorem Dev.setAcq_lat (d : Dev) (c : Nat) (a : AcqSt) : (Dev.setAcq d c a).lat = d.lat := rfl
@[simp] theorem Dev.setAcq_ser (d : Dev) (c : Nat) (a : AcqSt) : (Dev.setAcq d c a).ser = d.ser := rfl
@[simp] theorem Dev.setAcq_qop (d : Dev) (c : Nat) (a : AcqSt) : (Dev.setAcq d c a).qop = d.qop := rfl
@[simp] theorem Dev.setAcq_hub (d : Dev) (c : Nat) (a : AcqSt) : (Dev.setAcq d c a).hub = d.hub := rfl
@[simp] theorem Dev.setAcq_pwr (d : Dev) (c : Nat) (a : AcqSt) : (Dev.setAcq d c a).pwr = d.pwr := rfl
@[simp] theorem Dev.setAcq_eas (d : Dev) (c : Nat) (a : AcqSt) : (Dev.setAcq d c a).eas = d.eas := rfl
@[simp] theorem Dev.setAcq_out (d : Dev) (c : Nat) (a : AcqSt) : (Dev.setAcq d c a).out = d.out := rfl
@[simp] theorem Dev.setAcq_rx (d : Dev) (c : Nat) (a : AcqSt) : (Dev.setAcq d c a).rx = d.rx := rfl
@[simp] theorem Dev.setAcq_dsp (d : Dev) (c : Nat) (a : AcqSt) : (Dev.setAcq d c a).dsp = d.dsp := rfl
@[simp] theorem Dev.setAcq_cal (d : Dev) (c : Nat) (a : AcqSt) : (Dev.setAcq d c a).cal = d.cal := rfl

/-! `Dev.setCore` changes `dsp` alone. -/

@[simp] theorem Dev.setCore_epoch (d : Dev) (c : Nat) (k : DspCore) : (Dev.setCore d c k).epoch = d.epoch := rfl
@[simp] theorem Dev.setCore_counting (d : Dev) (c : Nat) (k : DspCore) : (Dev.setCore d c k).counting = d.counting := rfl
@[simp] theorem Dev.setCore_state (d : Dev) (c : Nat) (k : DspCore) : (Dev.setCore d c k).state = d.state := rfl
@[simp] theorem Dev.setCore_objs (d : Dev) (c : Nat) (k : DspCore) : (Dev.setCore d c k).objs = d.objs := rfl
@[simp] theorem Dev.setCore_counters (d : Dev) (c : Nat) (k : DspCore) : (Dev.setCore d c k).counters = d.counters := rfl
@[simp] theorem Dev.setCore_inTick (d : Dev) (c : Nat) (k : DspCore) : (Dev.setCore d c k).inTick = d.inTick := rfl
@[simp] theorem Dev.setCore_agg (d : Dev) (c : Nat) (k : DspCore) : (Dev.setCore d c k).agg = d.agg := rfl
@[simp] theorem Dev.setCore_ev (d : Dev) (c : Nat) (k : DspCore) : (Dev.setCore d c k).ev = d.ev := rfl
@[simp] theorem Dev.setCore_lat (d : Dev) (c : Nat) (k : DspCore) : (Dev.setCore d c k).lat = d.lat := rfl
@[simp] theorem Dev.setCore_ser (d : Dev) (c : Nat) (k : DspCore) : (Dev.setCore d c k).ser = d.ser := rfl
@[simp] theorem Dev.setCore_qop (d : Dev) (c : Nat) (k : DspCore) : (Dev.setCore d c k).qop = d.qop := rfl
@[simp] theorem Dev.setCore_hub (d : Dev) (c : Nat) (k : DspCore) : (Dev.setCore d c k).hub = d.hub := rfl
@[simp] theorem Dev.setCore_pwr (d : Dev) (c : Nat) (k : DspCore) : (Dev.setCore d c k).pwr = d.pwr := rfl
@[simp] theorem Dev.setCore_eas (d : Dev) (c : Nat) (k : DspCore) : (Dev.setCore d c k).eas = d.eas := rfl
@[simp] theorem Dev.setCore_out (d : Dev) (c : Nat) (k : DspCore) : (Dev.setCore d c k).out = d.out := rfl
@[simp] theorem Dev.setCore_rx (d : Dev) (c : Nat) (k : DspCore) : (Dev.setCore d c k).rx = d.rx := rfl
@[simp] theorem Dev.setCore_acq (d : Dev) (c : Nat) (k : DspCore) : (Dev.setCore d c k).acq = d.acq := rfl
@[simp] theorem Dev.setCore_cal (d : Dev) (c : Nat) (k : DspCore) : (Dev.setCore d c k).cal = d.cal := rfl

/-! `Dev.busSend` changes `eas` alone. -/

@[simp] theorem Dev.busSend_epoch (d : Dev) (hs : List (Nat × Nat)) (word : W64) (due : Nat → Nat) : (Dev.busSend d hs word due).epoch = d.epoch := rfl
@[simp] theorem Dev.busSend_counting (d : Dev) (hs : List (Nat × Nat)) (word : W64) (due : Nat → Nat) : (Dev.busSend d hs word due).counting = d.counting := rfl
@[simp] theorem Dev.busSend_state (d : Dev) (hs : List (Nat × Nat)) (word : W64) (due : Nat → Nat) : (Dev.busSend d hs word due).state = d.state := rfl
@[simp] theorem Dev.busSend_objs (d : Dev) (hs : List (Nat × Nat)) (word : W64) (due : Nat → Nat) : (Dev.busSend d hs word due).objs = d.objs := rfl
@[simp] theorem Dev.busSend_counters (d : Dev) (hs : List (Nat × Nat)) (word : W64) (due : Nat → Nat) : (Dev.busSend d hs word due).counters = d.counters := rfl
@[simp] theorem Dev.busSend_inTick (d : Dev) (hs : List (Nat × Nat)) (word : W64) (due : Nat → Nat) : (Dev.busSend d hs word due).inTick = d.inTick := rfl
@[simp] theorem Dev.busSend_agg (d : Dev) (hs : List (Nat × Nat)) (word : W64) (due : Nat → Nat) : (Dev.busSend d hs word due).agg = d.agg := rfl
@[simp] theorem Dev.busSend_ev (d : Dev) (hs : List (Nat × Nat)) (word : W64) (due : Nat → Nat) : (Dev.busSend d hs word due).ev = d.ev := rfl
@[simp] theorem Dev.busSend_lat (d : Dev) (hs : List (Nat × Nat)) (word : W64) (due : Nat → Nat) : (Dev.busSend d hs word due).lat = d.lat := rfl
@[simp] theorem Dev.busSend_ser (d : Dev) (hs : List (Nat × Nat)) (word : W64) (due : Nat → Nat) : (Dev.busSend d hs word due).ser = d.ser := rfl
@[simp] theorem Dev.busSend_qop (d : Dev) (hs : List (Nat × Nat)) (word : W64) (due : Nat → Nat) : (Dev.busSend d hs word due).qop = d.qop := rfl
@[simp] theorem Dev.busSend_hub (d : Dev) (hs : List (Nat × Nat)) (word : W64) (due : Nat → Nat) : (Dev.busSend d hs word due).hub = d.hub := rfl
@[simp] theorem Dev.busSend_pwr (d : Dev) (hs : List (Nat × Nat)) (word : W64) (due : Nat → Nat) : (Dev.busSend d hs word due).pwr = d.pwr := rfl
@[simp] theorem Dev.busSend_out (d : Dev) (hs : List (Nat × Nat)) (word : W64) (due : Nat → Nat) : (Dev.busSend d hs word due).out = d.out := rfl
@[simp] theorem Dev.busSend_rx (d : Dev) (hs : List (Nat × Nat)) (word : W64) (due : Nat → Nat) : (Dev.busSend d hs word due).rx = d.rx := rfl
@[simp] theorem Dev.busSend_acq (d : Dev) (hs : List (Nat × Nat)) (word : W64) (due : Nat → Nat) : (Dev.busSend d hs word due).acq = d.acq := rfl
@[simp] theorem Dev.busSend_dsp (d : Dev) (hs : List (Nat × Nat)) (word : W64) (due : Nat → Nat) : (Dev.busSend d hs word due).dsp = d.dsp := rfl
@[simp] theorem Dev.busSend_cal (d : Dev) (hs : List (Nat × Nat)) (word : W64) (due : Nat → Nat) : (Dev.busSend d hs word due).cal = d.cal := rfl

/-! `Dev.setTrigOut` changes `out` alone. -/

@[simp] theorem Dev.setTrigOut_epoch (d : Dev) (i : Nat) (t : TrigOut) : (Dev.setTrigOut d i t).epoch = d.epoch := rfl
@[simp] theorem Dev.setTrigOut_counting (d : Dev) (i : Nat) (t : TrigOut) : (Dev.setTrigOut d i t).counting = d.counting := rfl
@[simp] theorem Dev.setTrigOut_state (d : Dev) (i : Nat) (t : TrigOut) : (Dev.setTrigOut d i t).state = d.state := rfl
@[simp] theorem Dev.setTrigOut_objs (d : Dev) (i : Nat) (t : TrigOut) : (Dev.setTrigOut d i t).objs = d.objs := rfl
@[simp] theorem Dev.setTrigOut_counters (d : Dev) (i : Nat) (t : TrigOut) : (Dev.setTrigOut d i t).counters = d.counters := rfl
@[simp] theorem Dev.setTrigOut_inTick (d : Dev) (i : Nat) (t : TrigOut) : (Dev.setTrigOut d i t).inTick = d.inTick := rfl
@[simp] theorem Dev.setTrigOut_agg (d : Dev) (i : Nat) (t : TrigOut) : (Dev.setTrigOut d i t).agg = d.agg := rfl
@[simp] theorem Dev.setTrigOut_ev (d : Dev) (i : Nat) (t : TrigOut) : (Dev.setTrigOut d i t).ev = d.ev := rfl
@[simp] theorem Dev.setTrigOut_lat (d : Dev) (i : Nat) (t : TrigOut) : (Dev.setTrigOut d i t).lat = d.lat := rfl
@[simp] theorem Dev.setTrigOut_ser (d : Dev) (i : Nat) (t : TrigOut) : (Dev.setTrigOut d i t).ser = d.ser := rfl
@[simp] theorem Dev.setTrigOut_qop (d : Dev) (i : Nat) (t : TrigOut) : (Dev.setTrigOut d i t).qop = d.qop := rfl
@[simp] theorem Dev.setTrigOut_hub (d : Dev) (i : Nat) (t : TrigOut) : (Dev.setTrigOut d i t).hub = d.hub := rfl
@[simp] theorem Dev.setTrigOut_pwr (d : Dev) (i : Nat) (t : TrigOut) : (Dev.setTrigOut d i t).pwr = d.pwr := rfl
@[simp] theorem Dev.setTrigOut_eas (d : Dev) (i : Nat) (t : TrigOut) : (Dev.setTrigOut d i t).eas = d.eas := rfl
@[simp] theorem Dev.setTrigOut_rx (d : Dev) (i : Nat) (t : TrigOut) : (Dev.setTrigOut d i t).rx = d.rx := rfl
@[simp] theorem Dev.setTrigOut_acq (d : Dev) (i : Nat) (t : TrigOut) : (Dev.setTrigOut d i t).acq = d.acq := rfl
@[simp] theorem Dev.setTrigOut_dsp (d : Dev) (i : Nat) (t : TrigOut) : (Dev.setTrigOut d i t).dsp = d.dsp := rfl
@[simp] theorem Dev.setTrigOut_cal (d : Dev) (i : Nat) (t : TrigOut) : (Dev.setTrigOut d i t).cal = d.cal := rfl

/-! `Dev.putPacket` changes `hub` alone. -/

@[simp] theorem Dev.putPacket_epoch (d : Dev) (p : Packet) : (Dev.putPacket d p).epoch = d.epoch := rfl
@[simp] theorem Dev.putPacket_counting (d : Dev) (p : Packet) : (Dev.putPacket d p).counting = d.counting := rfl
@[simp] theorem Dev.putPacket_state (d : Dev) (p : Packet) : (Dev.putPacket d p).state = d.state := rfl
@[simp] theorem Dev.putPacket_objs (d : Dev) (p : Packet) : (Dev.putPacket d p).objs = d.objs := rfl
@[simp] theorem Dev.putPacket_counters (d : Dev) (p : Packet) : (Dev.putPacket d p).counters = d.counters := rfl
@[simp] theorem Dev.putPacket_inTick (d : Dev) (p : Packet) : (Dev.putPacket d p).inTick = d.inTick := rfl
@[simp] theorem Dev.putPacket_agg (d : Dev) (p : Packet) : (Dev.putPacket d p).agg = d.agg := rfl
@[simp] theorem Dev.putPacket_ev (d : Dev) (p : Packet) : (Dev.putPacket d p).ev = d.ev := rfl
@[simp] theorem Dev.putPacket_lat (d : Dev) (p : Packet) : (Dev.putPacket d p).lat = d.lat := rfl
@[simp] theorem Dev.putPacket_ser (d : Dev) (p : Packet) : (Dev.putPacket d p).ser = d.ser := rfl
@[simp] theorem Dev.putPacket_qop (d : Dev) (p : Packet) : (Dev.putPacket d p).qop = d.qop := rfl
@[simp] theorem Dev.putPacket_pwr (d : Dev) (p : Packet) : (Dev.putPacket d p).pwr = d.pwr := rfl
@[simp] theorem Dev.putPacket_eas (d : Dev) (p : Packet) : (Dev.putPacket d p).eas = d.eas := rfl
@[simp] theorem Dev.putPacket_out (d : Dev) (p : Packet) : (Dev.putPacket d p).out = d.out := rfl
@[simp] theorem Dev.putPacket_rx (d : Dev) (p : Packet) : (Dev.putPacket d p).rx = d.rx := rfl
@[simp] theorem Dev.putPacket_acq (d : Dev) (p : Packet) : (Dev.putPacket d p).acq = d.acq := rfl
@[simp] theorem Dev.putPacket_dsp (d : Dev) (p : Packet) : (Dev.putPacket d p).dsp = d.dsp := rfl
@[simp] theorem Dev.putPacket_cal (d : Dev) (p : Packet) : (Dev.putPacket d p).cal = d.cal := rfl

/-! `Dev.requeue` changes `hub` alone. -/

@[simp] theorem Dev.requeue_epoch (d : Dev) (p : Packet → Bool) : (Dev.requeue d p).epoch = d.epoch := rfl
@[simp] theorem Dev.requeue_counting (d : Dev) (p : Packet → Bool) : (Dev.requeue d p).counting = d.counting := rfl
@[simp] theorem Dev.requeue_state (d : Dev) (p : Packet → Bool) : (Dev.requeue d p).state = d.state := rfl
@[simp] theorem Dev.requeue_objs (d : Dev) (p : Packet → Bool) : (Dev.requeue d p).objs = d.objs := rfl
@[simp] theorem Dev.requeue_counters (d : Dev) (p : Packet → Bool) : (Dev.requeue d p).counters = d.counters := rfl
@[simp] theorem Dev.requeue_inTick (d : Dev) (p : Packet → Bool) : (Dev.requeue d p).inTick = d.inTick := rfl
@[simp] theorem Dev.requeue_agg (d : Dev) (p : Packet → Bool) : (Dev.requeue d p).agg = d.agg := rfl
@[simp] theorem Dev.requeue_ev (d : Dev) (p : Packet → Bool) : (Dev.requeue d p).ev = d.ev := rfl
@[simp] theorem Dev.requeue_lat (d : Dev) (p : Packet → Bool) : (Dev.requeue d p).lat = d.lat := rfl
@[simp] theorem Dev.requeue_ser (d : Dev) (p : Packet → Bool) : (Dev.requeue d p).ser = d.ser := rfl
@[simp] theorem Dev.requeue_qop (d : Dev) (p : Packet → Bool) : (Dev.requeue d p).qop = d.qop := rfl
@[simp] theorem Dev.requeue_pwr (d : Dev) (p : Packet → Bool) : (Dev.requeue d p).pwr = d.pwr := rfl
@[simp] theorem Dev.requeue_eas (d : Dev) (p : Packet → Bool) : (Dev.requeue d p).eas = d.eas := rfl
@[simp] theorem Dev.requeue_out (d : Dev) (p : Packet → Bool) : (Dev.requeue d p).out = d.out := rfl
@[simp] theorem Dev.requeue_rx (d : Dev) (p : Packet → Bool) : (Dev.requeue d p).rx = d.rx := rfl
@[simp] theorem Dev.requeue_acq (d : Dev) (p : Packet → Bool) : (Dev.requeue d p).acq = d.acq := rfl
@[simp] theorem Dev.requeue_dsp (d : Dev) (p : Packet → Bool) : (Dev.requeue d p).dsp = d.dsp := rfl
@[simp] theorem Dev.requeue_cal (d : Dev) (p : Packet → Bool) : (Dev.requeue d p).cal = d.cal := rfl

/-! `Dev.setLane` changes `ser` alone. -/

@[simp] theorem Dev.setLane_epoch (d : Dev) (n : Nat) (l : Lane) : (Dev.setLane d n l).epoch = d.epoch := rfl
@[simp] theorem Dev.setLane_counting (d : Dev) (n : Nat) (l : Lane) : (Dev.setLane d n l).counting = d.counting := rfl
@[simp] theorem Dev.setLane_state (d : Dev) (n : Nat) (l : Lane) : (Dev.setLane d n l).state = d.state := rfl
@[simp] theorem Dev.setLane_objs (d : Dev) (n : Nat) (l : Lane) : (Dev.setLane d n l).objs = d.objs := rfl
@[simp] theorem Dev.setLane_counters (d : Dev) (n : Nat) (l : Lane) : (Dev.setLane d n l).counters = d.counters := rfl
@[simp] theorem Dev.setLane_inTick (d : Dev) (n : Nat) (l : Lane) : (Dev.setLane d n l).inTick = d.inTick := rfl
@[simp] theorem Dev.setLane_agg (d : Dev) (n : Nat) (l : Lane) : (Dev.setLane d n l).agg = d.agg := rfl
@[simp] theorem Dev.setLane_ev (d : Dev) (n : Nat) (l : Lane) : (Dev.setLane d n l).ev = d.ev := rfl
@[simp] theorem Dev.setLane_lat (d : Dev) (n : Nat) (l : Lane) : (Dev.setLane d n l).lat = d.lat := rfl
@[simp] theorem Dev.setLane_qop (d : Dev) (n : Nat) (l : Lane) : (Dev.setLane d n l).qop = d.qop := rfl
@[simp] theorem Dev.setLane_hub (d : Dev) (n : Nat) (l : Lane) : (Dev.setLane d n l).hub = d.hub := rfl
@[simp] theorem Dev.setLane_pwr (d : Dev) (n : Nat) (l : Lane) : (Dev.setLane d n l).pwr = d.pwr := rfl
@[simp] theorem Dev.setLane_eas (d : Dev) (n : Nat) (l : Lane) : (Dev.setLane d n l).eas = d.eas := rfl
@[simp] theorem Dev.setLane_out (d : Dev) (n : Nat) (l : Lane) : (Dev.setLane d n l).out = d.out := rfl
@[simp] theorem Dev.setLane_rx (d : Dev) (n : Nat) (l : Lane) : (Dev.setLane d n l).rx = d.rx := rfl
@[simp] theorem Dev.setLane_acq (d : Dev) (n : Nat) (l : Lane) : (Dev.setLane d n l).acq = d.acq := rfl
@[simp] theorem Dev.setLane_dsp (d : Dev) (n : Nat) (l : Lane) : (Dev.setLane d n l).dsp = d.dsp := rfl
@[simp] theorem Dev.setLane_cal (d : Dev) (n : Nat) (l : Lane) : (Dev.setLane d n l).cal = d.cal := rfl

/-! `Dev.setLine` changes `rx` alone. -/

@[simp] theorem Dev.setLine_epoch (d : Dev) (n : Nat) (l : LineRx) : (Dev.setLine d n l).epoch = d.epoch := rfl
@[simp] theorem Dev.setLine_counting (d : Dev) (n : Nat) (l : LineRx) : (Dev.setLine d n l).counting = d.counting := rfl
@[simp] theorem Dev.setLine_state (d : Dev) (n : Nat) (l : LineRx) : (Dev.setLine d n l).state = d.state := rfl
@[simp] theorem Dev.setLine_objs (d : Dev) (n : Nat) (l : LineRx) : (Dev.setLine d n l).objs = d.objs := rfl
@[simp] theorem Dev.setLine_counters (d : Dev) (n : Nat) (l : LineRx) : (Dev.setLine d n l).counters = d.counters := rfl
@[simp] theorem Dev.setLine_inTick (d : Dev) (n : Nat) (l : LineRx) : (Dev.setLine d n l).inTick = d.inTick := rfl
@[simp] theorem Dev.setLine_agg (d : Dev) (n : Nat) (l : LineRx) : (Dev.setLine d n l).agg = d.agg := rfl
@[simp] theorem Dev.setLine_ev (d : Dev) (n : Nat) (l : LineRx) : (Dev.setLine d n l).ev = d.ev := rfl
@[simp] theorem Dev.setLine_lat (d : Dev) (n : Nat) (l : LineRx) : (Dev.setLine d n l).lat = d.lat := rfl
@[simp] theorem Dev.setLine_ser (d : Dev) (n : Nat) (l : LineRx) : (Dev.setLine d n l).ser = d.ser := rfl
@[simp] theorem Dev.setLine_qop (d : Dev) (n : Nat) (l : LineRx) : (Dev.setLine d n l).qop = d.qop := rfl
@[simp] theorem Dev.setLine_hub (d : Dev) (n : Nat) (l : LineRx) : (Dev.setLine d n l).hub = d.hub := rfl
@[simp] theorem Dev.setLine_pwr (d : Dev) (n : Nat) (l : LineRx) : (Dev.setLine d n l).pwr = d.pwr := rfl
@[simp] theorem Dev.setLine_eas (d : Dev) (n : Nat) (l : LineRx) : (Dev.setLine d n l).eas = d.eas := rfl
@[simp] theorem Dev.setLine_out (d : Dev) (n : Nat) (l : LineRx) : (Dev.setLine d n l).out = d.out := rfl
@[simp] theorem Dev.setLine_acq (d : Dev) (n : Nat) (l : LineRx) : (Dev.setLine d n l).acq = d.acq := rfl
@[simp] theorem Dev.setLine_dsp (d : Dev) (n : Nat) (l : LineRx) : (Dev.setLine d n l).dsp = d.dsp := rfl
@[simp] theorem Dev.setLine_cal (d : Dev) (n : Nat) (l : LineRx) : (Dev.setLine d n l).cal = d.cal := rfl

/-! `Dev.markTemps` changes `cal` alone. -/

@[simp] theorem Dev.markTemps_epoch (d : Dev) (tile : Nat) : (Dev.markTemps d tile).epoch = d.epoch := rfl
@[simp] theorem Dev.markTemps_counting (d : Dev) (tile : Nat) : (Dev.markTemps d tile).counting = d.counting := rfl
@[simp] theorem Dev.markTemps_state (d : Dev) (tile : Nat) : (Dev.markTemps d tile).state = d.state := rfl
@[simp] theorem Dev.markTemps_objs (d : Dev) (tile : Nat) : (Dev.markTemps d tile).objs = d.objs := rfl
@[simp] theorem Dev.markTemps_counters (d : Dev) (tile : Nat) : (Dev.markTemps d tile).counters = d.counters := rfl
@[simp] theorem Dev.markTemps_inTick (d : Dev) (tile : Nat) : (Dev.markTemps d tile).inTick = d.inTick := rfl
@[simp] theorem Dev.markTemps_agg (d : Dev) (tile : Nat) : (Dev.markTemps d tile).agg = d.agg := rfl
@[simp] theorem Dev.markTemps_ev (d : Dev) (tile : Nat) : (Dev.markTemps d tile).ev = d.ev := rfl
@[simp] theorem Dev.markTemps_lat (d : Dev) (tile : Nat) : (Dev.markTemps d tile).lat = d.lat := rfl
@[simp] theorem Dev.markTemps_ser (d : Dev) (tile : Nat) : (Dev.markTemps d tile).ser = d.ser := rfl
@[simp] theorem Dev.markTemps_qop (d : Dev) (tile : Nat) : (Dev.markTemps d tile).qop = d.qop := rfl
@[simp] theorem Dev.markTemps_hub (d : Dev) (tile : Nat) : (Dev.markTemps d tile).hub = d.hub := rfl
@[simp] theorem Dev.markTemps_pwr (d : Dev) (tile : Nat) : (Dev.markTemps d tile).pwr = d.pwr := rfl
@[simp] theorem Dev.markTemps_eas (d : Dev) (tile : Nat) : (Dev.markTemps d tile).eas = d.eas := rfl
@[simp] theorem Dev.markTemps_out (d : Dev) (tile : Nat) : (Dev.markTemps d tile).out = d.out := rfl
@[simp] theorem Dev.markTemps_rx (d : Dev) (tile : Nat) : (Dev.markTemps d tile).rx = d.rx := rfl
@[simp] theorem Dev.markTemps_acq (d : Dev) (tile : Nat) : (Dev.markTemps d tile).acq = d.acq := rfl
@[simp] theorem Dev.markTemps_dsp (d : Dev) (tile : Nat) : (Dev.markTemps d tile).dsp = d.dsp := rfl

/-! `Dev.markSeen` changes `cal` alone. -/

@[simp] theorem Dev.markSeen_epoch (d : Dev) (i : Nat) (good : Bool) : (Dev.markSeen d i good).epoch = d.epoch := rfl
@[simp] theorem Dev.markSeen_counting (d : Dev) (i : Nat) (good : Bool) : (Dev.markSeen d i good).counting = d.counting := rfl
@[simp] theorem Dev.markSeen_state (d : Dev) (i : Nat) (good : Bool) : (Dev.markSeen d i good).state = d.state := rfl
@[simp] theorem Dev.markSeen_objs (d : Dev) (i : Nat) (good : Bool) : (Dev.markSeen d i good).objs = d.objs := rfl
@[simp] theorem Dev.markSeen_counters (d : Dev) (i : Nat) (good : Bool) : (Dev.markSeen d i good).counters = d.counters := rfl
@[simp] theorem Dev.markSeen_inTick (d : Dev) (i : Nat) (good : Bool) : (Dev.markSeen d i good).inTick = d.inTick := rfl
@[simp] theorem Dev.markSeen_agg (d : Dev) (i : Nat) (good : Bool) : (Dev.markSeen d i good).agg = d.agg := rfl
@[simp] theorem Dev.markSeen_ev (d : Dev) (i : Nat) (good : Bool) : (Dev.markSeen d i good).ev = d.ev := rfl
@[simp] theorem Dev.markSeen_lat (d : Dev) (i : Nat) (good : Bool) : (Dev.markSeen d i good).lat = d.lat := rfl
@[simp] theorem Dev.markSeen_ser (d : Dev) (i : Nat) (good : Bool) : (Dev.markSeen d i good).ser = d.ser := rfl
@[simp] theorem Dev.markSeen_qop (d : Dev) (i : Nat) (good : Bool) : (Dev.markSeen d i good).qop = d.qop := rfl
@[simp] theorem Dev.markSeen_hub (d : Dev) (i : Nat) (good : Bool) : (Dev.markSeen d i good).hub = d.hub := rfl
@[simp] theorem Dev.markSeen_pwr (d : Dev) (i : Nat) (good : Bool) : (Dev.markSeen d i good).pwr = d.pwr := rfl
@[simp] theorem Dev.markSeen_eas (d : Dev) (i : Nat) (good : Bool) : (Dev.markSeen d i good).eas = d.eas := rfl
@[simp] theorem Dev.markSeen_out (d : Dev) (i : Nat) (good : Bool) : (Dev.markSeen d i good).out = d.out := rfl
@[simp] theorem Dev.markSeen_rx (d : Dev) (i : Nat) (good : Bool) : (Dev.markSeen d i good).rx = d.rx := rfl
@[simp] theorem Dev.markSeen_acq (d : Dev) (i : Nat) (good : Bool) : (Dev.markSeen d i good).acq = d.acq := rfl
@[simp] theorem Dev.markSeen_dsp (d : Dev) (i : Nat) (good : Bool) : (Dev.markSeen d i good).dsp = d.dsp := rfl

/-! `Dev.setTrigIn` changes `out` alone. -/

@[simp] theorem Dev.setTrigIn_epoch (d : Dev) (i : Nat) (t : TrigIn) : (Dev.setTrigIn d i t).epoch = d.epoch := rfl
@[simp] theorem Dev.setTrigIn_counting (d : Dev) (i : Nat) (t : TrigIn) : (Dev.setTrigIn d i t).counting = d.counting := rfl
@[simp] theorem Dev.setTrigIn_state (d : Dev) (i : Nat) (t : TrigIn) : (Dev.setTrigIn d i t).state = d.state := rfl
@[simp] theorem Dev.setTrigIn_objs (d : Dev) (i : Nat) (t : TrigIn) : (Dev.setTrigIn d i t).objs = d.objs := rfl
@[simp] theorem Dev.setTrigIn_counters (d : Dev) (i : Nat) (t : TrigIn) : (Dev.setTrigIn d i t).counters = d.counters := rfl
@[simp] theorem Dev.setTrigIn_inTick (d : Dev) (i : Nat) (t : TrigIn) : (Dev.setTrigIn d i t).inTick = d.inTick := rfl
@[simp] theorem Dev.setTrigIn_agg (d : Dev) (i : Nat) (t : TrigIn) : (Dev.setTrigIn d i t).agg = d.agg := rfl
@[simp] theorem Dev.setTrigIn_ev (d : Dev) (i : Nat) (t : TrigIn) : (Dev.setTrigIn d i t).ev = d.ev := rfl
@[simp] theorem Dev.setTrigIn_lat (d : Dev) (i : Nat) (t : TrigIn) : (Dev.setTrigIn d i t).lat = d.lat := rfl
@[simp] theorem Dev.setTrigIn_ser (d : Dev) (i : Nat) (t : TrigIn) : (Dev.setTrigIn d i t).ser = d.ser := rfl
@[simp] theorem Dev.setTrigIn_qop (d : Dev) (i : Nat) (t : TrigIn) : (Dev.setTrigIn d i t).qop = d.qop := rfl
@[simp] theorem Dev.setTrigIn_hub (d : Dev) (i : Nat) (t : TrigIn) : (Dev.setTrigIn d i t).hub = d.hub := rfl
@[simp] theorem Dev.setTrigIn_pwr (d : Dev) (i : Nat) (t : TrigIn) : (Dev.setTrigIn d i t).pwr = d.pwr := rfl
@[simp] theorem Dev.setTrigIn_eas (d : Dev) (i : Nat) (t : TrigIn) : (Dev.setTrigIn d i t).eas = d.eas := rfl
@[simp] theorem Dev.setTrigIn_rx (d : Dev) (i : Nat) (t : TrigIn) : (Dev.setTrigIn d i t).rx = d.rx := rfl
@[simp] theorem Dev.setTrigIn_acq (d : Dev) (i : Nat) (t : TrigIn) : (Dev.setTrigIn d i t).acq = d.acq := rfl
@[simp] theorem Dev.setTrigIn_dsp (d : Dev) (i : Nat) (t : TrigIn) : (Dev.setTrigIn d i t).dsp = d.dsp := rfl
@[simp] theorem Dev.setTrigIn_cal (d : Dev) (i : Nat) (t : TrigIn) : (Dev.setTrigIn d i t).cal = d.cal := rfl

/-! `Dev.dropDrain` changes `lat` alone. -/

@[simp] theorem Dev.dropDrain_epoch (d : Dev) (ljob : Nat) (p : Nat → Bool) : (Dev.dropDrain d ljob p).epoch = d.epoch := rfl
@[simp] theorem Dev.dropDrain_counting (d : Dev) (ljob : Nat) (p : Nat → Bool) : (Dev.dropDrain d ljob p).counting = d.counting := rfl
@[simp] theorem Dev.dropDrain_state (d : Dev) (ljob : Nat) (p : Nat → Bool) : (Dev.dropDrain d ljob p).state = d.state := rfl
@[simp] theorem Dev.dropDrain_objs (d : Dev) (ljob : Nat) (p : Nat → Bool) : (Dev.dropDrain d ljob p).objs = d.objs := rfl
@[simp] theorem Dev.dropDrain_counters (d : Dev) (ljob : Nat) (p : Nat → Bool) : (Dev.dropDrain d ljob p).counters = d.counters := rfl
@[simp] theorem Dev.dropDrain_inTick (d : Dev) (ljob : Nat) (p : Nat → Bool) : (Dev.dropDrain d ljob p).inTick = d.inTick := rfl
@[simp] theorem Dev.dropDrain_agg (d : Dev) (ljob : Nat) (p : Nat → Bool) : (Dev.dropDrain d ljob p).agg = d.agg := rfl
@[simp] theorem Dev.dropDrain_ev (d : Dev) (ljob : Nat) (p : Nat → Bool) : (Dev.dropDrain d ljob p).ev = d.ev := rfl
@[simp] theorem Dev.dropDrain_ser (d : Dev) (ljob : Nat) (p : Nat → Bool) : (Dev.dropDrain d ljob p).ser = d.ser := rfl
@[simp] theorem Dev.dropDrain_qop (d : Dev) (ljob : Nat) (p : Nat → Bool) : (Dev.dropDrain d ljob p).qop = d.qop := rfl
@[simp] theorem Dev.dropDrain_hub (d : Dev) (ljob : Nat) (p : Nat → Bool) : (Dev.dropDrain d ljob p).hub = d.hub := rfl
@[simp] theorem Dev.dropDrain_pwr (d : Dev) (ljob : Nat) (p : Nat → Bool) : (Dev.dropDrain d ljob p).pwr = d.pwr := rfl
@[simp] theorem Dev.dropDrain_eas (d : Dev) (ljob : Nat) (p : Nat → Bool) : (Dev.dropDrain d ljob p).eas = d.eas := rfl
@[simp] theorem Dev.dropDrain_out (d : Dev) (ljob : Nat) (p : Nat → Bool) : (Dev.dropDrain d ljob p).out = d.out := rfl
@[simp] theorem Dev.dropDrain_rx (d : Dev) (ljob : Nat) (p : Nat → Bool) : (Dev.dropDrain d ljob p).rx = d.rx := rfl
@[simp] theorem Dev.dropDrain_acq (d : Dev) (ljob : Nat) (p : Nat → Bool) : (Dev.dropDrain d ljob p).acq = d.acq := rfl
@[simp] theorem Dev.dropDrain_dsp (d : Dev) (ljob : Nat) (p : Nat → Bool) : (Dev.dropDrain d ljob p).dsp = d.dsp := rfl
@[simp] theorem Dev.dropDrain_cal (d : Dev) (ljob : Nat) (p : Nat → Bool) : (Dev.dropDrain d ljob p).cal = d.cal := rfl

/-! `Dev.setIdent` changes `qop` alone. -/

@[simp] theorem Dev.setIdent_epoch (d : Dev) (i : Nat) (x : Ident) : (Dev.setIdent d i x).epoch = d.epoch := rfl
@[simp] theorem Dev.setIdent_counting (d : Dev) (i : Nat) (x : Ident) : (Dev.setIdent d i x).counting = d.counting := rfl
@[simp] theorem Dev.setIdent_state (d : Dev) (i : Nat) (x : Ident) : (Dev.setIdent d i x).state = d.state := rfl
@[simp] theorem Dev.setIdent_objs (d : Dev) (i : Nat) (x : Ident) : (Dev.setIdent d i x).objs = d.objs := rfl
@[simp] theorem Dev.setIdent_counters (d : Dev) (i : Nat) (x : Ident) : (Dev.setIdent d i x).counters = d.counters := rfl
@[simp] theorem Dev.setIdent_inTick (d : Dev) (i : Nat) (x : Ident) : (Dev.setIdent d i x).inTick = d.inTick := rfl
@[simp] theorem Dev.setIdent_agg (d : Dev) (i : Nat) (x : Ident) : (Dev.setIdent d i x).agg = d.agg := rfl
@[simp] theorem Dev.setIdent_ev (d : Dev) (i : Nat) (x : Ident) : (Dev.setIdent d i x).ev = d.ev := rfl
@[simp] theorem Dev.setIdent_lat (d : Dev) (i : Nat) (x : Ident) : (Dev.setIdent d i x).lat = d.lat := rfl
@[simp] theorem Dev.setIdent_ser (d : Dev) (i : Nat) (x : Ident) : (Dev.setIdent d i x).ser = d.ser := rfl
@[simp] theorem Dev.setIdent_hub (d : Dev) (i : Nat) (x : Ident) : (Dev.setIdent d i x).hub = d.hub := rfl
@[simp] theorem Dev.setIdent_pwr (d : Dev) (i : Nat) (x : Ident) : (Dev.setIdent d i x).pwr = d.pwr := rfl
@[simp] theorem Dev.setIdent_eas (d : Dev) (i : Nat) (x : Ident) : (Dev.setIdent d i x).eas = d.eas := rfl
@[simp] theorem Dev.setIdent_out (d : Dev) (i : Nat) (x : Ident) : (Dev.setIdent d i x).out = d.out := rfl
@[simp] theorem Dev.setIdent_rx (d : Dev) (i : Nat) (x : Ident) : (Dev.setIdent d i x).rx = d.rx := rfl
@[simp] theorem Dev.setIdent_acq (d : Dev) (i : Nat) (x : Ident) : (Dev.setIdent d i x).acq = d.acq := rfl
@[simp] theorem Dev.setIdent_dsp (d : Dev) (i : Nat) (x : Ident) : (Dev.setIdent d i x).dsp = d.dsp := rfl
@[simp] theorem Dev.setIdent_cal (d : Dev) (i : Nat) (x : Ident) : (Dev.setIdent d i x).cal = d.cal := rfl

/-! `Dev.defer` changes `qop` alone. -/

@[simp] theorem Dev.defer_epoch (d : Dev) (r : Req) (cmd : Nat) : (Dev.defer d r cmd).epoch = d.epoch := rfl
@[simp] theorem Dev.defer_counting (d : Dev) (r : Req) (cmd : Nat) : (Dev.defer d r cmd).counting = d.counting := rfl
@[simp] theorem Dev.defer_state (d : Dev) (r : Req) (cmd : Nat) : (Dev.defer d r cmd).state = d.state := rfl
@[simp] theorem Dev.defer_objs (d : Dev) (r : Req) (cmd : Nat) : (Dev.defer d r cmd).objs = d.objs := rfl
@[simp] theorem Dev.defer_counters (d : Dev) (r : Req) (cmd : Nat) : (Dev.defer d r cmd).counters = d.counters := rfl
@[simp] theorem Dev.defer_inTick (d : Dev) (r : Req) (cmd : Nat) : (Dev.defer d r cmd).inTick = d.inTick := rfl
@[simp] theorem Dev.defer_agg (d : Dev) (r : Req) (cmd : Nat) : (Dev.defer d r cmd).agg = d.agg := rfl
@[simp] theorem Dev.defer_ev (d : Dev) (r : Req) (cmd : Nat) : (Dev.defer d r cmd).ev = d.ev := rfl
@[simp] theorem Dev.defer_lat (d : Dev) (r : Req) (cmd : Nat) : (Dev.defer d r cmd).lat = d.lat := rfl
@[simp] theorem Dev.defer_ser (d : Dev) (r : Req) (cmd : Nat) : (Dev.defer d r cmd).ser = d.ser := rfl
@[simp] theorem Dev.defer_hub (d : Dev) (r : Req) (cmd : Nat) : (Dev.defer d r cmd).hub = d.hub := rfl
@[simp] theorem Dev.defer_pwr (d : Dev) (r : Req) (cmd : Nat) : (Dev.defer d r cmd).pwr = d.pwr := rfl
@[simp] theorem Dev.defer_eas (d : Dev) (r : Req) (cmd : Nat) : (Dev.defer d r cmd).eas = d.eas := rfl
@[simp] theorem Dev.defer_out (d : Dev) (r : Req) (cmd : Nat) : (Dev.defer d r cmd).out = d.out := rfl
@[simp] theorem Dev.defer_rx (d : Dev) (r : Req) (cmd : Nat) : (Dev.defer d r cmd).rx = d.rx := rfl
@[simp] theorem Dev.defer_acq (d : Dev) (r : Req) (cmd : Nat) : (Dev.defer d r cmd).acq = d.acq := rfl
@[simp] theorem Dev.defer_dsp (d : Dev) (r : Req) (cmd : Nat) : (Dev.defer d r cmd).dsp = d.dsp := rfl
@[simp] theorem Dev.defer_cal (d : Dev) (r : Req) (cmd : Nat) : (Dev.defer d r cmd).cal = d.cal := rfl

/-! `Dev.putLoad` changes `qop` alone. -/

@[simp] theorem Dev.putLoad_epoch (d : Dev) (l : Load) : (Dev.putLoad d l).epoch = d.epoch := rfl
@[simp] theorem Dev.putLoad_counting (d : Dev) (l : Load) : (Dev.putLoad d l).counting = d.counting := rfl
@[simp] theorem Dev.putLoad_state (d : Dev) (l : Load) : (Dev.putLoad d l).state = d.state := rfl
@[simp] theorem Dev.putLoad_objs (d : Dev) (l : Load) : (Dev.putLoad d l).objs = d.objs := rfl
@[simp] theorem Dev.putLoad_counters (d : Dev) (l : Load) : (Dev.putLoad d l).counters = d.counters := rfl
@[simp] theorem Dev.putLoad_inTick (d : Dev) (l : Load) : (Dev.putLoad d l).inTick = d.inTick := rfl
@[simp] theorem Dev.putLoad_agg (d : Dev) (l : Load) : (Dev.putLoad d l).agg = d.agg := rfl
@[simp] theorem Dev.putLoad_ev (d : Dev) (l : Load) : (Dev.putLoad d l).ev = d.ev := rfl
@[simp] theorem Dev.putLoad_lat (d : Dev) (l : Load) : (Dev.putLoad d l).lat = d.lat := rfl
@[simp] theorem Dev.putLoad_ser (d : Dev) (l : Load) : (Dev.putLoad d l).ser = d.ser := rfl
@[simp] theorem Dev.putLoad_hub (d : Dev) (l : Load) : (Dev.putLoad d l).hub = d.hub := rfl
@[simp] theorem Dev.putLoad_pwr (d : Dev) (l : Load) : (Dev.putLoad d l).pwr = d.pwr := rfl
@[simp] theorem Dev.putLoad_eas (d : Dev) (l : Load) : (Dev.putLoad d l).eas = d.eas := rfl
@[simp] theorem Dev.putLoad_out (d : Dev) (l : Load) : (Dev.putLoad d l).out = d.out := rfl
@[simp] theorem Dev.putLoad_rx (d : Dev) (l : Load) : (Dev.putLoad d l).rx = d.rx := rfl
@[simp] theorem Dev.putLoad_acq (d : Dev) (l : Load) : (Dev.putLoad d l).acq = d.acq := rfl
@[simp] theorem Dev.putLoad_dsp (d : Dev) (l : Load) : (Dev.putLoad d l).dsp = d.dsp := rfl
@[simp] theorem Dev.putLoad_cal (d : Dev) (l : Load) : (Dev.putLoad d l).cal = d.cal := rfl

/-! `Dev.dropLoad` changes `qop` alone. -/

@[simp] theorem Dev.dropLoad_epoch (d : Dev) (h : Nat) : (Dev.dropLoad d h).epoch = d.epoch := rfl
@[simp] theorem Dev.dropLoad_counting (d : Dev) (h : Nat) : (Dev.dropLoad d h).counting = d.counting := rfl
@[simp] theorem Dev.dropLoad_state (d : Dev) (h : Nat) : (Dev.dropLoad d h).state = d.state := rfl
@[simp] theorem Dev.dropLoad_objs (d : Dev) (h : Nat) : (Dev.dropLoad d h).objs = d.objs := rfl
@[simp] theorem Dev.dropLoad_counters (d : Dev) (h : Nat) : (Dev.dropLoad d h).counters = d.counters := rfl
@[simp] theorem Dev.dropLoad_inTick (d : Dev) (h : Nat) : (Dev.dropLoad d h).inTick = d.inTick := rfl
@[simp] theorem Dev.dropLoad_agg (d : Dev) (h : Nat) : (Dev.dropLoad d h).agg = d.agg := rfl
@[simp] theorem Dev.dropLoad_ev (d : Dev) (h : Nat) : (Dev.dropLoad d h).ev = d.ev := rfl
@[simp] theorem Dev.dropLoad_lat (d : Dev) (h : Nat) : (Dev.dropLoad d h).lat = d.lat := rfl
@[simp] theorem Dev.dropLoad_ser (d : Dev) (h : Nat) : (Dev.dropLoad d h).ser = d.ser := rfl
@[simp] theorem Dev.dropLoad_hub (d : Dev) (h : Nat) : (Dev.dropLoad d h).hub = d.hub := rfl
@[simp] theorem Dev.dropLoad_pwr (d : Dev) (h : Nat) : (Dev.dropLoad d h).pwr = d.pwr := rfl
@[simp] theorem Dev.dropLoad_eas (d : Dev) (h : Nat) : (Dev.dropLoad d h).eas = d.eas := rfl
@[simp] theorem Dev.dropLoad_out (d : Dev) (h : Nat) : (Dev.dropLoad d h).out = d.out := rfl
@[simp] theorem Dev.dropLoad_rx (d : Dev) (h : Nat) : (Dev.dropLoad d h).rx = d.rx := rfl
@[simp] theorem Dev.dropLoad_acq (d : Dev) (h : Nat) : (Dev.dropLoad d h).acq = d.acq := rfl
@[simp] theorem Dev.dropLoad_dsp (d : Dev) (h : Nat) : (Dev.dropLoad d h).dsp = d.dsp := rfl
@[simp] theorem Dev.dropLoad_cal (d : Dev) (h : Nat) : (Dev.dropLoad d h).cal = d.cal := rfl

/-! Shared operations: the fields that they leave. -/

@[simp] theorem Dev.wrs_epoch (d : Dev) (l : List (Nat × Nat)) : (Dev.wrs d l).epoch = d.epoch := by
  unfold Dev.wrs
  induction l generalizing d with
  | nil => rfl
  | cons p l ih => exact (ih _).trans rfl
@[simp] theorem Dev.wrs_counting (d : Dev) (l : List (Nat × Nat)) : (Dev.wrs d l).counting = d.counting := by
  unfold Dev.wrs
  induction l generalizing d with
  | nil => rfl
  | cons p l ih => exact (ih _).trans rfl
@[simp] theorem Dev.wrs_state (d : Dev) (l : List (Nat × Nat)) : (Dev.wrs d l).state = d.state := by
  unfold Dev.wrs
  induction l generalizing d with
  | nil => rfl
  | cons p l ih => exact (ih _).trans rfl
@[simp] theorem Dev.wrs_counters (d : Dev) (l : List (Nat × Nat)) : (Dev.wrs d l).counters = d.counters := by
  unfold Dev.wrs
  induction l generalizing d with
  | nil => rfl
  | cons p l ih => exact (ih _).trans rfl
@[simp] theorem Dev.wrs_inTick (d : Dev) (l : List (Nat × Nat)) : (Dev.wrs d l).inTick = d.inTick := by
  unfold Dev.wrs
  induction l generalizing d with
  | nil => rfl
  | cons p l ih => exact (ih _).trans rfl
@[simp] theorem Dev.wrs_agg (d : Dev) (l : List (Nat × Nat)) : (Dev.wrs d l).agg = d.agg := by
  unfold Dev.wrs
  induction l generalizing d with
  | nil => rfl
  | cons p l ih => exact (ih _).trans rfl
@[simp] theorem Dev.wrs_ev (d : Dev) (l : List (Nat × Nat)) : (Dev.wrs d l).ev = d.ev := by
  unfold Dev.wrs
  induction l generalizing d with
  | nil => rfl
  | cons p l ih => exact (ih _).trans rfl
@[simp] theorem Dev.wrs_lat (d : Dev) (l : List (Nat × Nat)) : (Dev.wrs d l).lat = d.lat := by
  unfold Dev.wrs
  induction l generalizing d with
  | nil => rfl
  | cons p l ih => exact (ih _).trans rfl
@[simp] theorem Dev.wrs_ser (d : Dev) (l : List (Nat × Nat)) : (Dev.wrs d l).ser = d.ser := by
  unfold Dev.wrs
  induction l generalizing d with
  | nil => rfl
  | cons p l ih => exact (ih _).trans rfl
@[simp] theorem Dev.wrs_qop (d : Dev) (l : List (Nat × Nat)) : (Dev.wrs d l).qop = d.qop := by
  unfold Dev.wrs
  induction l generalizing d with
  | nil => rfl
  | cons p l ih => exact (ih _).trans rfl
@[simp] theorem Dev.wrs_hub (d : Dev) (l : List (Nat × Nat)) : (Dev.wrs d l).hub = d.hub := by
  unfold Dev.wrs
  induction l generalizing d with
  | nil => rfl
  | cons p l ih => exact (ih _).trans rfl
@[simp] theorem Dev.wrs_pwr (d : Dev) (l : List (Nat × Nat)) : (Dev.wrs d l).pwr = d.pwr := by
  unfold Dev.wrs
  induction l generalizing d with
  | nil => rfl
  | cons p l ih => exact (ih _).trans rfl
@[simp] theorem Dev.wrs_eas (d : Dev) (l : List (Nat × Nat)) : (Dev.wrs d l).eas = d.eas := by
  unfold Dev.wrs
  induction l generalizing d with
  | nil => rfl
  | cons p l ih => exact (ih _).trans rfl
@[simp] theorem Dev.wrs_out (d : Dev) (l : List (Nat × Nat)) : (Dev.wrs d l).out = d.out := by
  unfold Dev.wrs
  induction l generalizing d with
  | nil => rfl
  | cons p l ih => exact (ih _).trans rfl
@[simp] theorem Dev.wrs_rx (d : Dev) (l : List (Nat × Nat)) : (Dev.wrs d l).rx = d.rx := by
  unfold Dev.wrs
  induction l generalizing d with
  | nil => rfl
  | cons p l ih => exact (ih _).trans rfl
@[simp] theorem Dev.wrs_acq (d : Dev) (l : List (Nat × Nat)) : (Dev.wrs d l).acq = d.acq := by
  unfold Dev.wrs
  induction l generalizing d with
  | nil => rfl
  | cons p l ih => exact (ih _).trans rfl
@[simp] theorem Dev.wrs_dsp (d : Dev) (l : List (Nat × Nat)) : (Dev.wrs d l).dsp = d.dsp := by
  unfold Dev.wrs
  induction l generalizing d with
  | nil => rfl
  | cons p l ih => exact (ih _).trans rfl
@[simp] theorem Dev.wrs_cal (d : Dev) (l : List (Nat × Nat)) : (Dev.wrs d l).cal = d.cal := by
  unfold Dev.wrs
  induction l generalizing d with
  | nil => rfl
  | cons p l ih => exact (ih _).trans rfl

@[simp] theorem Dev.trace_epoch (d : Dev) (src data : Nat) : (Dev.trace d src data).epoch = d.epoch := by
  unfold Dev.trace
  repeat' first | rfl | (simp; done) | dsimp only | split
@[simp] theorem Dev.trace_counting (d : Dev) (src data : Nat) : (Dev.trace d src data).counting = d.counting := by
  unfold Dev.trace
  repeat' first | rfl | (simp; done) | dsimp only | split
@[simp] theorem Dev.trace_state (d : Dev) (src data : Nat) : (Dev.trace d src data).state = d.state := by
  unfold Dev.trace
  repeat' first | rfl | (simp; done) | dsimp only | split
@[simp] theorem Dev.trace_objs (d : Dev) (src data : Nat) : (Dev.trace d src data).objs = d.objs := by
  unfold Dev.trace
  repeat' first | rfl | (simp; done) | dsimp only | split
@[simp] theorem Dev.trace_counters (d : Dev) (src data : Nat) : (Dev.trace d src data).counters = d.counters := by
  unfold Dev.trace
  repeat' first | rfl | (simp; done) | dsimp only | split
@[simp] theorem Dev.trace_inTick (d : Dev) (src data : Nat) : (Dev.trace d src data).inTick = d.inTick := by
  unfold Dev.trace
  repeat' first | rfl | (simp; done) | dsimp only | split
@[simp] theorem Dev.trace_ev (d : Dev) (src data : Nat) : (Dev.trace d src data).ev = d.ev := by
  unfold Dev.trace
  repeat' first | rfl | (simp; done) | dsimp only | split
@[simp] theorem Dev.trace_lat (d : Dev) (src data : Nat) : (Dev.trace d src data).lat = d.lat := by
  unfold Dev.trace
  repeat' first | rfl | (simp; done) | dsimp only | split
@[simp] theorem Dev.trace_ser (d : Dev) (src data : Nat) : (Dev.trace d src data).ser = d.ser := by
  unfold Dev.trace
  repeat' first | rfl | (simp; done) | dsimp only | split
@[simp] theorem Dev.trace_qop (d : Dev) (src data : Nat) : (Dev.trace d src data).qop = d.qop := by
  unfold Dev.trace
  repeat' first | rfl | (simp; done) | dsimp only | split
@[simp] theorem Dev.trace_hub (d : Dev) (src data : Nat) : (Dev.trace d src data).hub = d.hub := by
  unfold Dev.trace
  repeat' first | rfl | (simp; done) | dsimp only | split
@[simp] theorem Dev.trace_pwr (d : Dev) (src data : Nat) : (Dev.trace d src data).pwr = d.pwr := by
  unfold Dev.trace
  repeat' first | rfl | (simp; done) | dsimp only | split
@[simp] theorem Dev.trace_eas (d : Dev) (src data : Nat) : (Dev.trace d src data).eas = d.eas := by
  unfold Dev.trace
  repeat' first | rfl | (simp; done) | dsimp only | split
@[simp] theorem Dev.trace_out (d : Dev) (src data : Nat) : (Dev.trace d src data).out = d.out := by
  unfold Dev.trace
  repeat' first | rfl | (simp; done) | dsimp only | split
@[simp] theorem Dev.trace_rx (d : Dev) (src data : Nat) : (Dev.trace d src data).rx = d.rx := by
  unfold Dev.trace
  repeat' first | rfl | (simp; done) | dsimp only | split
@[simp] theorem Dev.trace_acq (d : Dev) (src data : Nat) : (Dev.trace d src data).acq = d.acq := by
  unfold Dev.trace
  repeat' first | rfl | (simp; done) | dsimp only | split
@[simp] theorem Dev.trace_dsp (d : Dev) (src data : Nat) : (Dev.trace d src data).dsp = d.dsp := by
  unfold Dev.trace
  repeat' first | rfl | (simp; done) | dsimp only | split
@[simp] theorem Dev.trace_cal (d : Dev) (src data : Nat) : (Dev.trace d src data).cal = d.cal := by
  unfold Dev.trace
  repeat' first | rfl | (simp; done) | dsimp only | split

@[simp] theorem Dev.raise_epoch (d : Dev) (s bit : Nat) : (Dev.raise d s bit).epoch = d.epoch := by
  unfold Dev.raise
  repeat' first | rfl | (simp; done) | dsimp only | split
@[simp] theorem Dev.raise_counting (d : Dev) (s bit : Nat) : (Dev.raise d s bit).counting = d.counting := by
  unfold Dev.raise
  repeat' first | rfl | (simp; done) | dsimp only | split
@[simp] theorem Dev.raise_state (d : Dev) (s bit : Nat) : (Dev.raise d s bit).state = d.state := by
  unfold Dev.raise
  repeat' first | rfl | (simp; done) | dsimp only | split
@[simp] theorem Dev.raise_objs (d : Dev) (s bit : Nat) : (Dev.raise d s bit).objs = d.objs := by
  unfold Dev.raise
  repeat' first | rfl | (simp; done) | dsimp only | split
@[simp] theorem Dev.raise_counters (d : Dev) (s bit : Nat) : (Dev.raise d s bit).counters = d.counters := by
  unfold Dev.raise
  repeat' first | rfl | (simp; done) | dsimp only | split
@[simp] theorem Dev.raise_inTick (d : Dev) (s bit : Nat) : (Dev.raise d s bit).inTick = d.inTick := by
  unfold Dev.raise
  repeat' first | rfl | (simp; done) | dsimp only | split
@[simp] theorem Dev.raise_ev (d : Dev) (s bit : Nat) : (Dev.raise d s bit).ev = d.ev := by
  unfold Dev.raise
  repeat' first | rfl | (simp; done) | dsimp only | split
@[simp] theorem Dev.raise_lat (d : Dev) (s bit : Nat) : (Dev.raise d s bit).lat = d.lat := by
  unfold Dev.raise
  repeat' first | rfl | (simp; done) | dsimp only | split
@[simp] theorem Dev.raise_ser (d : Dev) (s bit : Nat) : (Dev.raise d s bit).ser = d.ser := by
  unfold Dev.raise
  repeat' first | rfl | (simp; done) | dsimp only | split
@[simp] theorem Dev.raise_qop (d : Dev) (s bit : Nat) : (Dev.raise d s bit).qop = d.qop := by
  unfold Dev.raise
  repeat' first | rfl | (simp; done) | dsimp only | split
@[simp] theorem Dev.raise_hub (d : Dev) (s bit : Nat) : (Dev.raise d s bit).hub = d.hub := by
  unfold Dev.raise
  repeat' first | rfl | (simp; done) | dsimp only | split
@[simp] theorem Dev.raise_pwr (d : Dev) (s bit : Nat) : (Dev.raise d s bit).pwr = d.pwr := by
  unfold Dev.raise
  repeat' first | rfl | (simp; done) | dsimp only | split
@[simp] theorem Dev.raise_eas (d : Dev) (s bit : Nat) : (Dev.raise d s bit).eas = d.eas := by
  unfold Dev.raise
  repeat' first | rfl | (simp; done) | dsimp only | split
@[simp] theorem Dev.raise_out (d : Dev) (s bit : Nat) : (Dev.raise d s bit).out = d.out := by
  unfold Dev.raise
  repeat' first | rfl | (simp; done) | dsimp only | split
@[simp] theorem Dev.raise_rx (d : Dev) (s bit : Nat) : (Dev.raise d s bit).rx = d.rx := by
  unfold Dev.raise
  repeat' first | rfl | (simp; done) | dsimp only | split
@[simp] theorem Dev.raise_acq (d : Dev) (s bit : Nat) : (Dev.raise d s bit).acq = d.acq := by
  unfold Dev.raise
  repeat' first | rfl | (simp; done) | dsimp only | split
@[simp] theorem Dev.raise_dsp (d : Dev) (s bit : Nat) : (Dev.raise d s bit).dsp = d.dsp := by
  unfold Dev.raise
  repeat' first | rfl | (simp; done) | dsimp only | split
@[simp] theorem Dev.raise_cal (d : Dev) (s bit : Nat) : (Dev.raise d s bit).cal = d.cal := by
  unfold Dev.raise
  repeat' first | rfl | (simp; done) | dsimp only | split

@[simp] theorem Dev.bump_epoch (d : Dev) (key n : Nat) : (Dev.bump d key n).epoch = d.epoch := by
  unfold Dev.bump
  repeat' first | rfl | (simp; done) | dsimp only | split
@[simp] theorem Dev.bump_counting (d : Dev) (key n : Nat) : (Dev.bump d key n).counting = d.counting := by
  unfold Dev.bump
  repeat' first | rfl | (simp; done) | dsimp only | split
@[simp] theorem Dev.bump_state (d : Dev) (key n : Nat) : (Dev.bump d key n).state = d.state := by
  unfold Dev.bump
  repeat' first | rfl | (simp; done) | dsimp only | split
@[simp] theorem Dev.bump_objs (d : Dev) (key n : Nat) : (Dev.bump d key n).objs = d.objs := by
  unfold Dev.bump
  repeat' first | rfl | (simp; done) | dsimp only | split
@[simp] theorem Dev.bump_agg (d : Dev) (key n : Nat) : (Dev.bump d key n).agg = d.agg := by
  unfold Dev.bump
  repeat' first | rfl | (simp; done) | dsimp only | split
@[simp] theorem Dev.bump_ev (d : Dev) (key n : Nat) : (Dev.bump d key n).ev = d.ev := by
  unfold Dev.bump
  repeat' first | rfl | (simp; done) | dsimp only | split
@[simp] theorem Dev.bump_lat (d : Dev) (key n : Nat) : (Dev.bump d key n).lat = d.lat := by
  unfold Dev.bump
  repeat' first | rfl | (simp; done) | dsimp only | split
@[simp] theorem Dev.bump_ser (d : Dev) (key n : Nat) : (Dev.bump d key n).ser = d.ser := by
  unfold Dev.bump
  repeat' first | rfl | (simp; done) | dsimp only | split
@[simp] theorem Dev.bump_qop (d : Dev) (key n : Nat) : (Dev.bump d key n).qop = d.qop := by
  unfold Dev.bump
  repeat' first | rfl | (simp; done) | dsimp only | split
@[simp] theorem Dev.bump_hub (d : Dev) (key n : Nat) : (Dev.bump d key n).hub = d.hub := by
  unfold Dev.bump
  repeat' first | rfl | (simp; done) | dsimp only | split
@[simp] theorem Dev.bump_pwr (d : Dev) (key n : Nat) : (Dev.bump d key n).pwr = d.pwr := by
  unfold Dev.bump
  repeat' first | rfl | (simp; done) | dsimp only | split
@[simp] theorem Dev.bump_eas (d : Dev) (key n : Nat) : (Dev.bump d key n).eas = d.eas := by
  unfold Dev.bump
  repeat' first | rfl | (simp; done) | dsimp only | split
@[simp] theorem Dev.bump_out (d : Dev) (key n : Nat) : (Dev.bump d key n).out = d.out := by
  unfold Dev.bump
  repeat' first | rfl | (simp; done) | dsimp only | split
@[simp] theorem Dev.bump_rx (d : Dev) (key n : Nat) : (Dev.bump d key n).rx = d.rx := by
  unfold Dev.bump
  repeat' first | rfl | (simp; done) | dsimp only | split
@[simp] theorem Dev.bump_acq (d : Dev) (key n : Nat) : (Dev.bump d key n).acq = d.acq := by
  unfold Dev.bump
  repeat' first | rfl | (simp; done) | dsimp only | split
@[simp] theorem Dev.bump_dsp (d : Dev) (key n : Nat) : (Dev.bump d key n).dsp = d.dsp := by
  unfold Dev.bump
  repeat' first | rfl | (simp; done) | dsimp only | split
@[simp] theorem Dev.bump_cal (d : Dev) (key n : Nat) : (Dev.bump d key n).cal = d.cal := by
  unfold Dev.bump
  repeat' first | rfl | (simp; done) | dsimp only | split

@[simp] theorem Dev.setFlag_epoch (d : Dev) (key bit n : Nat) : (Dev.setFlag d key bit n).epoch = d.epoch := by
  unfold Dev.setFlag
  repeat' first | rfl | (simp; done) | dsimp only | split
@[simp] theorem Dev.setFlag_counting (d : Dev) (key bit n : Nat) : (Dev.setFlag d key bit n).counting = d.counting := by
  unfold Dev.setFlag
  repeat' first | rfl | (simp; done) | dsimp only | split
@[simp] theorem Dev.setFlag_state (d : Dev) (key bit n : Nat) : (Dev.setFlag d key bit n).state = d.state := by
  unfold Dev.setFlag
  repeat' first | rfl | (simp; done) | dsimp only | split
@[simp] theorem Dev.setFlag_inTick (d : Dev) (key bit n : Nat) : (Dev.setFlag d key bit n).inTick = d.inTick := by
  unfold Dev.setFlag
  repeat' first | rfl | (simp; done) | dsimp only | split
@[simp] theorem Dev.setFlag_ev (d : Dev) (key bit n : Nat) : (Dev.setFlag d key bit n).ev = d.ev := by
  unfold Dev.setFlag
  repeat' first | rfl | (simp; done) | dsimp only | split
@[simp] theorem Dev.setFlag_lat (d : Dev) (key bit n : Nat) : (Dev.setFlag d key bit n).lat = d.lat := by
  unfold Dev.setFlag
  repeat' first | rfl | (simp; done) | dsimp only | split
@[simp] theorem Dev.setFlag_ser (d : Dev) (key bit n : Nat) : (Dev.setFlag d key bit n).ser = d.ser := by
  unfold Dev.setFlag
  repeat' first | rfl | (simp; done) | dsimp only | split
@[simp] theorem Dev.setFlag_qop (d : Dev) (key bit n : Nat) : (Dev.setFlag d key bit n).qop = d.qop := by
  unfold Dev.setFlag
  repeat' first | rfl | (simp; done) | dsimp only | split
@[simp] theorem Dev.setFlag_hub (d : Dev) (key bit n : Nat) : (Dev.setFlag d key bit n).hub = d.hub := by
  unfold Dev.setFlag
  repeat' first | rfl | (simp; done) | dsimp only | split
@[simp] theorem Dev.setFlag_pwr (d : Dev) (key bit n : Nat) : (Dev.setFlag d key bit n).pwr = d.pwr := by
  unfold Dev.setFlag
  repeat' first | rfl | (simp; done) | dsimp only | split
@[simp] theorem Dev.setFlag_eas (d : Dev) (key bit n : Nat) : (Dev.setFlag d key bit n).eas = d.eas := by
  unfold Dev.setFlag
  repeat' first | rfl | (simp; done) | dsimp only | split
@[simp] theorem Dev.setFlag_out (d : Dev) (key bit n : Nat) : (Dev.setFlag d key bit n).out = d.out := by
  unfold Dev.setFlag
  repeat' first | rfl | (simp; done) | dsimp only | split
@[simp] theorem Dev.setFlag_rx (d : Dev) (key bit n : Nat) : (Dev.setFlag d key bit n).rx = d.rx := by
  unfold Dev.setFlag
  repeat' first | rfl | (simp; done) | dsimp only | split
@[simp] theorem Dev.setFlag_acq (d : Dev) (key bit n : Nat) : (Dev.setFlag d key bit n).acq = d.acq := by
  unfold Dev.setFlag
  repeat' first | rfl | (simp; done) | dsimp only | split
@[simp] theorem Dev.setFlag_dsp (d : Dev) (key bit n : Nat) : (Dev.setFlag d key bit n).dsp = d.dsp := by
  unfold Dev.setFlag
  repeat' first | rfl | (simp; done) | dsimp only | split
@[simp] theorem Dev.setFlag_cal (d : Dev) (key bit n : Nat) : (Dev.setFlag d key bit n).cal = d.cal := by
  unfold Dev.setFlag
  repeat' first | rfl | (simp; done) | dsimp only | split

@[simp] theorem Dev.noteFlag_epoch (d : Dev) (key bit n : Nat) (again : Bool) : (Dev.noteFlag d key bit n again).epoch = d.epoch := by
  unfold Dev.noteFlag
  repeat' first | rfl | (simp; done) | dsimp only | split
@[simp] theorem Dev.noteFlag_counting (d : Dev) (key bit n : Nat) (again : Bool) : (Dev.noteFlag d key bit n again).counting = d.counting := by
  unfold Dev.noteFlag
  repeat' first | rfl | (simp; done) | dsimp only | split
@[simp] theorem Dev.noteFlag_state (d : Dev) (key bit n : Nat) (again : Bool) : (Dev.noteFlag d key bit n again).state = d.state := by
  unfold Dev.noteFlag
  repeat' first | rfl | (simp; done) | dsimp only | split
@[simp] theorem Dev.noteFlag_objs (d : Dev) (key bit n : Nat) (again : Bool) : (Dev.noteFlag d key bit n again).objs = d.objs := by
  unfold Dev.noteFlag
  repeat' first | rfl | (simp; done) | dsimp only | split
@[simp] theorem Dev.noteFlag_counters (d : Dev) (key bit n : Nat) (again : Bool) : (Dev.noteFlag d key bit n again).counters = d.counters := by
  unfold Dev.noteFlag
  repeat' first | rfl | (simp; done) | dsimp only | split
@[simp] theorem Dev.noteFlag_agg (d : Dev) (key bit n : Nat) (again : Bool) : (Dev.noteFlag d key bit n again).agg = d.agg := by
  unfold Dev.noteFlag
  repeat' first | rfl | (simp; done) | dsimp only | split
@[simp] theorem Dev.noteFlag_ev (d : Dev) (key bit n : Nat) (again : Bool) : (Dev.noteFlag d key bit n again).ev = d.ev := by
  unfold Dev.noteFlag
  repeat' first | rfl | (simp; done) | dsimp only | split
@[simp] theorem Dev.noteFlag_lat (d : Dev) (key bit n : Nat) (again : Bool) : (Dev.noteFlag d key bit n again).lat = d.lat := by
  unfold Dev.noteFlag
  repeat' first | rfl | (simp; done) | dsimp only | split
@[simp] theorem Dev.noteFlag_ser (d : Dev) (key bit n : Nat) (again : Bool) : (Dev.noteFlag d key bit n again).ser = d.ser := by
  unfold Dev.noteFlag
  repeat' first | rfl | (simp; done) | dsimp only | split
@[simp] theorem Dev.noteFlag_qop (d : Dev) (key bit n : Nat) (again : Bool) : (Dev.noteFlag d key bit n again).qop = d.qop := by
  unfold Dev.noteFlag
  repeat' first | rfl | (simp; done) | dsimp only | split
@[simp] theorem Dev.noteFlag_hub (d : Dev) (key bit n : Nat) (again : Bool) : (Dev.noteFlag d key bit n again).hub = d.hub := by
  unfold Dev.noteFlag
  repeat' first | rfl | (simp; done) | dsimp only | split
@[simp] theorem Dev.noteFlag_pwr (d : Dev) (key bit n : Nat) (again : Bool) : (Dev.noteFlag d key bit n again).pwr = d.pwr := by
  unfold Dev.noteFlag
  repeat' first | rfl | (simp; done) | dsimp only | split
@[simp] theorem Dev.noteFlag_eas (d : Dev) (key bit n : Nat) (again : Bool) : (Dev.noteFlag d key bit n again).eas = d.eas := by
  unfold Dev.noteFlag
  repeat' first | rfl | (simp; done) | dsimp only | split
@[simp] theorem Dev.noteFlag_out (d : Dev) (key bit n : Nat) (again : Bool) : (Dev.noteFlag d key bit n again).out = d.out := by
  unfold Dev.noteFlag
  repeat' first | rfl | (simp; done) | dsimp only | split
@[simp] theorem Dev.noteFlag_rx (d : Dev) (key bit n : Nat) (again : Bool) : (Dev.noteFlag d key bit n again).rx = d.rx := by
  unfold Dev.noteFlag
  repeat' first | rfl | (simp; done) | dsimp only | split
@[simp] theorem Dev.noteFlag_acq (d : Dev) (key bit n : Nat) (again : Bool) : (Dev.noteFlag d key bit n again).acq = d.acq := by
  unfold Dev.noteFlag
  repeat' first | rfl | (simp; done) | dsimp only | split
@[simp] theorem Dev.noteFlag_dsp (d : Dev) (key bit n : Nat) (again : Bool) : (Dev.noteFlag d key bit n again).dsp = d.dsp := by
  unfold Dev.noteFlag
  repeat' first | rfl | (simp; done) | dsimp only | split
@[simp] theorem Dev.noteFlag_cal (d : Dev) (key bit n : Nat) (again : Bool) : (Dev.noteFlag d key bit n again).cal = d.cal := by
  unfold Dev.noteFlag
  repeat' first | rfl | (simp; done) | dsimp only | split

@[simp] theorem Dev.flagN_epoch (d : Dev) (key bit n : Nat) : (Dev.flagN d key bit n).epoch = d.epoch := by
  unfold Dev.flagN
  repeat' first | rfl | (simp; done) | dsimp only | split
@[simp] theorem Dev.flagN_counting (d : Dev) (key bit n : Nat) : (Dev.flagN d key bit n).counting = d.counting := by
  unfold Dev.flagN
  repeat' first | rfl | (simp; done) | dsimp only | split
@[simp] theorem Dev.flagN_state (d : Dev) (key bit n : Nat) : (Dev.flagN d key bit n).state = d.state := by
  unfold Dev.flagN
  repeat' first | rfl | (simp; done) | dsimp only | split
@[simp] theorem Dev.flagN_ev (d : Dev) (key bit n : Nat) : (Dev.flagN d key bit n).ev = d.ev := by
  unfold Dev.flagN
  repeat' first | rfl | (simp; done) | dsimp only | split
@[simp] theorem Dev.flagN_lat (d : Dev) (key bit n : Nat) : (Dev.flagN d key bit n).lat = d.lat := by
  unfold Dev.flagN
  repeat' first | rfl | (simp; done) | dsimp only | split
@[simp] theorem Dev.flagN_ser (d : Dev) (key bit n : Nat) : (Dev.flagN d key bit n).ser = d.ser := by
  unfold Dev.flagN
  repeat' first | rfl | (simp; done) | dsimp only | split
@[simp] theorem Dev.flagN_qop (d : Dev) (key bit n : Nat) : (Dev.flagN d key bit n).qop = d.qop := by
  unfold Dev.flagN
  repeat' first | rfl | (simp; done) | dsimp only | split
@[simp] theorem Dev.flagN_hub (d : Dev) (key bit n : Nat) : (Dev.flagN d key bit n).hub = d.hub := by
  unfold Dev.flagN
  repeat' first | rfl | (simp; done) | dsimp only | split
@[simp] theorem Dev.flagN_pwr (d : Dev) (key bit n : Nat) : (Dev.flagN d key bit n).pwr = d.pwr := by
  unfold Dev.flagN
  repeat' first | rfl | (simp; done) | dsimp only | split
@[simp] theorem Dev.flagN_eas (d : Dev) (key bit n : Nat) : (Dev.flagN d key bit n).eas = d.eas := by
  unfold Dev.flagN
  repeat' first | rfl | (simp; done) | dsimp only | split
@[simp] theorem Dev.flagN_out (d : Dev) (key bit n : Nat) : (Dev.flagN d key bit n).out = d.out := by
  unfold Dev.flagN
  repeat' first | rfl | (simp; done) | dsimp only | split
@[simp] theorem Dev.flagN_rx (d : Dev) (key bit n : Nat) : (Dev.flagN d key bit n).rx = d.rx := by
  unfold Dev.flagN
  repeat' first | rfl | (simp; done) | dsimp only | split
@[simp] theorem Dev.flagN_acq (d : Dev) (key bit n : Nat) : (Dev.flagN d key bit n).acq = d.acq := by
  unfold Dev.flagN
  repeat' first | rfl | (simp; done) | dsimp only | split
@[simp] theorem Dev.flagN_dsp (d : Dev) (key bit n : Nat) : (Dev.flagN d key bit n).dsp = d.dsp := by
  unfold Dev.flagN
  repeat' first | rfl | (simp; done) | dsimp only | split
@[simp] theorem Dev.flagN_cal (d : Dev) (key bit n : Nat) : (Dev.flagN d key bit n).cal = d.cal := by
  unfold Dev.flagN
  repeat' first | rfl | (simp; done) | dsimp only | split

@[simp] theorem Dev.hostFlag_epoch (d : Dev) (key bit : Nat) : (Dev.hostFlag d key bit).epoch = d.epoch := by
  unfold Dev.hostFlag
  repeat' first | rfl | (simp; done) | dsimp only | split
@[simp] theorem Dev.hostFlag_counting (d : Dev) (key bit : Nat) : (Dev.hostFlag d key bit).counting = d.counting := by
  unfold Dev.hostFlag
  repeat' first | rfl | (simp; done) | dsimp only | split
@[simp] theorem Dev.hostFlag_state (d : Dev) (key bit : Nat) : (Dev.hostFlag d key bit).state = d.state := by
  unfold Dev.hostFlag
  repeat' first | rfl | (simp; done) | dsimp only | split
@[simp] theorem Dev.hostFlag_inTick (d : Dev) (key bit : Nat) : (Dev.hostFlag d key bit).inTick = d.inTick := by
  unfold Dev.hostFlag
  repeat' first | rfl | (simp; done) | dsimp only | split
@[simp] theorem Dev.hostFlag_ev (d : Dev) (key bit : Nat) : (Dev.hostFlag d key bit).ev = d.ev := by
  unfold Dev.hostFlag
  repeat' first | rfl | (simp; done) | dsimp only | split
@[simp] theorem Dev.hostFlag_lat (d : Dev) (key bit : Nat) : (Dev.hostFlag d key bit).lat = d.lat := by
  unfold Dev.hostFlag
  repeat' first | rfl | (simp; done) | dsimp only | split
@[simp] theorem Dev.hostFlag_ser (d : Dev) (key bit : Nat) : (Dev.hostFlag d key bit).ser = d.ser := by
  unfold Dev.hostFlag
  repeat' first | rfl | (simp; done) | dsimp only | split
@[simp] theorem Dev.hostFlag_qop (d : Dev) (key bit : Nat) : (Dev.hostFlag d key bit).qop = d.qop := by
  unfold Dev.hostFlag
  repeat' first | rfl | (simp; done) | dsimp only | split
@[simp] theorem Dev.hostFlag_hub (d : Dev) (key bit : Nat) : (Dev.hostFlag d key bit).hub = d.hub := by
  unfold Dev.hostFlag
  repeat' first | rfl | (simp; done) | dsimp only | split
@[simp] theorem Dev.hostFlag_pwr (d : Dev) (key bit : Nat) : (Dev.hostFlag d key bit).pwr = d.pwr := by
  unfold Dev.hostFlag
  repeat' first | rfl | (simp; done) | dsimp only | split
@[simp] theorem Dev.hostFlag_eas (d : Dev) (key bit : Nat) : (Dev.hostFlag d key bit).eas = d.eas := by
  unfold Dev.hostFlag
  repeat' first | rfl | (simp; done) | dsimp only | split
@[simp] theorem Dev.hostFlag_out (d : Dev) (key bit : Nat) : (Dev.hostFlag d key bit).out = d.out := by
  unfold Dev.hostFlag
  repeat' first | rfl | (simp; done) | dsimp only | split
@[simp] theorem Dev.hostFlag_rx (d : Dev) (key bit : Nat) : (Dev.hostFlag d key bit).rx = d.rx := by
  unfold Dev.hostFlag
  repeat' first | rfl | (simp; done) | dsimp only | split
@[simp] theorem Dev.hostFlag_acq (d : Dev) (key bit : Nat) : (Dev.hostFlag d key bit).acq = d.acq := by
  unfold Dev.hostFlag
  repeat' first | rfl | (simp; done) | dsimp only | split
@[simp] theorem Dev.hostFlag_dsp (d : Dev) (key bit : Nat) : (Dev.hostFlag d key bit).dsp = d.dsp := by
  unfold Dev.hostFlag
  repeat' first | rfl | (simp; done) | dsimp only | split
@[simp] theorem Dev.hostFlag_cal (d : Dev) (key bit : Nat) : (Dev.hostFlag d key bit).cal = d.cal := by
  unfold Dev.hostFlag
  repeat' first | rfl | (simp; done) | dsimp only | split

@[simp] theorem Dev.flag_epoch (d : Dev) (key bit : Nat) : (Dev.flag d key bit).epoch = d.epoch := by
  unfold Dev.flag
  repeat' first | rfl | (simp; done) | dsimp only | split
@[simp] theorem Dev.flag_counting (d : Dev) (key bit : Nat) : (Dev.flag d key bit).counting = d.counting := by
  unfold Dev.flag
  repeat' first | rfl | (simp; done) | dsimp only | split
@[simp] theorem Dev.flag_state (d : Dev) (key bit : Nat) : (Dev.flag d key bit).state = d.state := by
  unfold Dev.flag
  repeat' first | rfl | (simp; done) | dsimp only | split
@[simp] theorem Dev.flag_ev (d : Dev) (key bit : Nat) : (Dev.flag d key bit).ev = d.ev := by
  unfold Dev.flag
  repeat' first | rfl | (simp; done) | dsimp only | split
@[simp] theorem Dev.flag_lat (d : Dev) (key bit : Nat) : (Dev.flag d key bit).lat = d.lat := by
  unfold Dev.flag
  repeat' first | rfl | (simp; done) | dsimp only | split
@[simp] theorem Dev.flag_ser (d : Dev) (key bit : Nat) : (Dev.flag d key bit).ser = d.ser := by
  unfold Dev.flag
  repeat' first | rfl | (simp; done) | dsimp only | split
@[simp] theorem Dev.flag_qop (d : Dev) (key bit : Nat) : (Dev.flag d key bit).qop = d.qop := by
  unfold Dev.flag
  repeat' first | rfl | (simp; done) | dsimp only | split
@[simp] theorem Dev.flag_hub (d : Dev) (key bit : Nat) : (Dev.flag d key bit).hub = d.hub := by
  unfold Dev.flag
  repeat' first | rfl | (simp; done) | dsimp only | split
@[simp] theorem Dev.flag_pwr (d : Dev) (key bit : Nat) : (Dev.flag d key bit).pwr = d.pwr := by
  unfold Dev.flag
  repeat' first | rfl | (simp; done) | dsimp only | split
@[simp] theorem Dev.flag_eas (d : Dev) (key bit : Nat) : (Dev.flag d key bit).eas = d.eas := by
  unfold Dev.flag
  repeat' first | rfl | (simp; done) | dsimp only | split
@[simp] theorem Dev.flag_out (d : Dev) (key bit : Nat) : (Dev.flag d key bit).out = d.out := by
  unfold Dev.flag
  repeat' first | rfl | (simp; done) | dsimp only | split
@[simp] theorem Dev.flag_rx (d : Dev) (key bit : Nat) : (Dev.flag d key bit).rx = d.rx := by
  unfold Dev.flag
  repeat' first | rfl | (simp; done) | dsimp only | split
@[simp] theorem Dev.flag_acq (d : Dev) (key bit : Nat) : (Dev.flag d key bit).acq = d.acq := by
  unfold Dev.flag
  repeat' first | rfl | (simp; done) | dsimp only | split
@[simp] theorem Dev.flag_dsp (d : Dev) (key bit : Nat) : (Dev.flag d key bit).dsp = d.dsp := by
  unfold Dev.flag
  repeat' first | rfl | (simp; done) | dsimp only | split
@[simp] theorem Dev.flag_cal (d : Dev) (key bit : Nat) : (Dev.flag d key bit).cal = d.cal := by
  unfold Dev.flag
  repeat' first | rfl | (simp; done) | dsimp only | split

@[simp] theorem Dev.produce_epoch (d : Dev) (line : Nat) : (Dev.produce d line).epoch = d.epoch := by
  unfold Dev.produce
  repeat' first | rfl | (simp; done) | dsimp only | split
@[simp] theorem Dev.produce_counting (d : Dev) (line : Nat) : (Dev.produce d line).counting = d.counting := by
  unfold Dev.produce
  repeat' first | rfl | (simp; done) | dsimp only | split
@[simp] theorem Dev.produce_state (d : Dev) (line : Nat) : (Dev.produce d line).state = d.state := by
  unfold Dev.produce
  repeat' first | rfl | (simp; done) | dsimp only | split
@[simp] theorem Dev.produce_objs (d : Dev) (line : Nat) : (Dev.produce d line).objs = d.objs := by
  unfold Dev.produce
  repeat' first | rfl | (simp; done) | dsimp only | split
@[simp] theorem Dev.produce_counters (d : Dev) (line : Nat) : (Dev.produce d line).counters = d.counters := by
  unfold Dev.produce
  repeat' first | rfl | (simp; done) | dsimp only | split
@[simp] theorem Dev.produce_inTick (d : Dev) (line : Nat) : (Dev.produce d line).inTick = d.inTick := by
  unfold Dev.produce
  repeat' first | rfl | (simp; done) | dsimp only | split
@[simp] theorem Dev.produce_agg (d : Dev) (line : Nat) : (Dev.produce d line).agg = d.agg := by
  unfold Dev.produce
  repeat' first | rfl | (simp; done) | dsimp only | split
@[simp] theorem Dev.produce_lat (d : Dev) (line : Nat) : (Dev.produce d line).lat = d.lat := by
  unfold Dev.produce
  repeat' first | rfl | (simp; done) | dsimp only | split
@[simp] theorem Dev.produce_ser (d : Dev) (line : Nat) : (Dev.produce d line).ser = d.ser := by
  unfold Dev.produce
  repeat' first | rfl | (simp; done) | dsimp only | split
@[simp] theorem Dev.produce_qop (d : Dev) (line : Nat) : (Dev.produce d line).qop = d.qop := by
  unfold Dev.produce
  repeat' first | rfl | (simp; done) | dsimp only | split
@[simp] theorem Dev.produce_hub (d : Dev) (line : Nat) : (Dev.produce d line).hub = d.hub := by
  unfold Dev.produce
  repeat' first | rfl | (simp; done) | dsimp only | split
@[simp] theorem Dev.produce_pwr (d : Dev) (line : Nat) : (Dev.produce d line).pwr = d.pwr := by
  unfold Dev.produce
  repeat' first | rfl | (simp; done) | dsimp only | split
@[simp] theorem Dev.produce_eas (d : Dev) (line : Nat) : (Dev.produce d line).eas = d.eas := by
  unfold Dev.produce
  repeat' first | rfl | (simp; done) | dsimp only | split
@[simp] theorem Dev.produce_out (d : Dev) (line : Nat) : (Dev.produce d line).out = d.out := by
  unfold Dev.produce
  repeat' first | rfl | (simp; done) | dsimp only | split
@[simp] theorem Dev.produce_rx (d : Dev) (line : Nat) : (Dev.produce d line).rx = d.rx := by
  unfold Dev.produce
  repeat' first | rfl | (simp; done) | dsimp only | split
@[simp] theorem Dev.produce_acq (d : Dev) (line : Nat) : (Dev.produce d line).acq = d.acq := by
  unfold Dev.produce
  repeat' first | rfl | (simp; done) | dsimp only | split
@[simp] theorem Dev.produce_dsp (d : Dev) (line : Nat) : (Dev.produce d line).dsp = d.dsp := by
  unfold Dev.produce
  repeat' first | rfl | (simp; done) | dsimp only | split
@[simp] theorem Dev.produce_cal (d : Dev) (line : Nat) : (Dev.produce d line).cal = d.cal := by
  unfold Dev.produce
  repeat' first | rfl | (simp; done) | dsimp only | split

@[simp] theorem Dev.setState_epoch (d : Dev) (st : DState) (cause : Nat) : (Dev.setState d st cause).epoch = d.epoch := by
  unfold Dev.setState
  repeat' first | rfl | (simp; done) | dsimp only | split
@[simp] theorem Dev.setState_counting (d : Dev) (st : DState) (cause : Nat) : (Dev.setState d st cause).counting = d.counting := by
  unfold Dev.setState
  repeat' first | rfl | (simp; done) | dsimp only | split
@[simp] theorem Dev.setState_counters (d : Dev) (st : DState) (cause : Nat) : (Dev.setState d st cause).counters = d.counters := by
  unfold Dev.setState
  repeat' first | rfl | (simp; done) | dsimp only | split
@[simp] theorem Dev.setState_inTick (d : Dev) (st : DState) (cause : Nat) : (Dev.setState d st cause).inTick = d.inTick := by
  unfold Dev.setState
  repeat' first | rfl | (simp; done) | dsimp only | split
@[simp] theorem Dev.setState_lat (d : Dev) (st : DState) (cause : Nat) : (Dev.setState d st cause).lat = d.lat := by
  unfold Dev.setState
  repeat' first | rfl | (simp; done) | dsimp only | split
@[simp] theorem Dev.setState_ser (d : Dev) (st : DState) (cause : Nat) : (Dev.setState d st cause).ser = d.ser := by
  unfold Dev.setState
  repeat' first | rfl | (simp; done) | dsimp only | split
@[simp] theorem Dev.setState_qop (d : Dev) (st : DState) (cause : Nat) : (Dev.setState d st cause).qop = d.qop := by
  unfold Dev.setState
  repeat' first | rfl | (simp; done) | dsimp only | split
@[simp] theorem Dev.setState_hub (d : Dev) (st : DState) (cause : Nat) : (Dev.setState d st cause).hub = d.hub := by
  unfold Dev.setState
  repeat' first | rfl | (simp; done) | dsimp only | split
@[simp] theorem Dev.setState_pwr (d : Dev) (st : DState) (cause : Nat) : (Dev.setState d st cause).pwr = d.pwr := by
  unfold Dev.setState
  repeat' first | rfl | (simp; done) | dsimp only | split
@[simp] theorem Dev.setState_eas (d : Dev) (st : DState) (cause : Nat) : (Dev.setState d st cause).eas = d.eas := by
  unfold Dev.setState
  repeat' first | rfl | (simp; done) | dsimp only | split
@[simp] theorem Dev.setState_out (d : Dev) (st : DState) (cause : Nat) : (Dev.setState d st cause).out = d.out := by
  unfold Dev.setState
  repeat' first | rfl | (simp; done) | dsimp only | split
@[simp] theorem Dev.setState_rx (d : Dev) (st : DState) (cause : Nat) : (Dev.setState d st cause).rx = d.rx := by
  unfold Dev.setState
  repeat' first | rfl | (simp; done) | dsimp only | split
@[simp] theorem Dev.setState_acq (d : Dev) (st : DState) (cause : Nat) : (Dev.setState d st cause).acq = d.acq := by
  unfold Dev.setState
  repeat' first | rfl | (simp; done) | dsimp only | split
@[simp] theorem Dev.setState_dsp (d : Dev) (st : DState) (cause : Nat) : (Dev.setState d st cause).dsp = d.dsp := by
  unfold Dev.setState
  repeat' first | rfl | (simp; done) | dsimp only | split
@[simp] theorem Dev.setState_cal (d : Dev) (st : DState) (cause : Nat) : (Dev.setState d st cause).cal = d.cal := by
  unfold Dev.setState
  repeat' first | rfl | (simp; done) | dsimp only | split

@[simp] theorem Dev.conflict_epoch (d : Dev) : (Dev.conflict d).epoch = d.epoch := by
  unfold Dev.conflict
  repeat' first | rfl | (simp; done) | dsimp only | split
@[simp] theorem Dev.conflict_counting (d : Dev) : (Dev.conflict d).counting = d.counting := by
  unfold Dev.conflict
  repeat' first | rfl | (simp; done) | dsimp only | split
@[simp] theorem Dev.conflict_state (d : Dev) : (Dev.conflict d).state = d.state := by
  unfold Dev.conflict
  repeat' first | rfl | (simp; done) | dsimp only | split
@[simp] theorem Dev.conflict_objs (d : Dev) : (Dev.conflict d).objs = d.objs := by
  unfold Dev.conflict
  repeat' first | rfl | (simp; done) | dsimp only | split
@[simp] theorem Dev.conflict_inTick (d : Dev) : (Dev.conflict d).inTick = d.inTick := by
  unfold Dev.conflict
  repeat' first | rfl | (simp; done) | dsimp only | split
@[simp] theorem Dev.conflict_agg (d : Dev) : (Dev.conflict d).agg = d.agg := by
  unfold Dev.conflict
  repeat' first | rfl | (simp; done) | dsimp only | split
@[simp] theorem Dev.conflict_ev (d : Dev) : (Dev.conflict d).ev = d.ev := by
  unfold Dev.conflict
  repeat' first | rfl | (simp; done) | dsimp only | split
@[simp] theorem Dev.conflict_lat (d : Dev) : (Dev.conflict d).lat = d.lat := by
  unfold Dev.conflict
  repeat' first | rfl | (simp; done) | dsimp only | split
@[simp] theorem Dev.conflict_ser (d : Dev) : (Dev.conflict d).ser = d.ser := by
  unfold Dev.conflict
  repeat' first | rfl | (simp; done) | dsimp only | split
@[simp] theorem Dev.conflict_qop (d : Dev) : (Dev.conflict d).qop = d.qop := by
  unfold Dev.conflict
  repeat' first | rfl | (simp; done) | dsimp only | split
@[simp] theorem Dev.conflict_hub (d : Dev) : (Dev.conflict d).hub = d.hub := by
  unfold Dev.conflict
  repeat' first | rfl | (simp; done) | dsimp only | split
@[simp] theorem Dev.conflict_pwr (d : Dev) : (Dev.conflict d).pwr = d.pwr := by
  unfold Dev.conflict
  repeat' first | rfl | (simp; done) | dsimp only | split
@[simp] theorem Dev.conflict_eas (d : Dev) : (Dev.conflict d).eas = d.eas := by
  unfold Dev.conflict
  repeat' first | rfl | (simp; done) | dsimp only | split
@[simp] theorem Dev.conflict_out (d : Dev) : (Dev.conflict d).out = d.out := by
  unfold Dev.conflict
  repeat' first | rfl | (simp; done) | dsimp only | split
@[simp] theorem Dev.conflict_rx (d : Dev) : (Dev.conflict d).rx = d.rx := by
  unfold Dev.conflict
  repeat' first | rfl | (simp; done) | dsimp only | split
@[simp] theorem Dev.conflict_acq (d : Dev) : (Dev.conflict d).acq = d.acq := by
  unfold Dev.conflict
  repeat' first | rfl | (simp; done) | dsimp only | split
@[simp] theorem Dev.conflict_dsp (d : Dev) : (Dev.conflict d).dsp = d.dsp := by
  unfold Dev.conflict
  repeat' first | rfl | (simp; done) | dsimp only | split
@[simp] theorem Dev.conflict_cal (d : Dev) : (Dev.conflict d).cal = d.cal := by
  unfold Dev.conflict
  repeat' first | rfl | (simp; done) | dsimp only | split

@[simp] theorem Dev.wrBit_epoch (d : Dev) (key b : Nat) (v : Bool) : (Dev.wrBit d key b v).epoch = d.epoch := by
  unfold Dev.wrBit
  repeat' first | rfl | (simp; done) | dsimp only | split
@[simp] theorem Dev.wrBit_counting (d : Dev) (key b : Nat) (v : Bool) : (Dev.wrBit d key b v).counting = d.counting := by
  unfold Dev.wrBit
  repeat' first | rfl | (simp; done) | dsimp only | split
@[simp] theorem Dev.wrBit_state (d : Dev) (key b : Nat) (v : Bool) : (Dev.wrBit d key b v).state = d.state := by
  unfold Dev.wrBit
  repeat' first | rfl | (simp; done) | dsimp only | split
@[simp] theorem Dev.wrBit_counters (d : Dev) (key b : Nat) (v : Bool) : (Dev.wrBit d key b v).counters = d.counters := by
  unfold Dev.wrBit
  repeat' first | rfl | (simp; done) | dsimp only | split
@[simp] theorem Dev.wrBit_inTick (d : Dev) (key b : Nat) (v : Bool) : (Dev.wrBit d key b v).inTick = d.inTick := by
  unfold Dev.wrBit
  repeat' first | rfl | (simp; done) | dsimp only | split
@[simp] theorem Dev.wrBit_agg (d : Dev) (key b : Nat) (v : Bool) : (Dev.wrBit d key b v).agg = d.agg := by
  unfold Dev.wrBit
  repeat' first | rfl | (simp; done) | dsimp only | split
@[simp] theorem Dev.wrBit_ev (d : Dev) (key b : Nat) (v : Bool) : (Dev.wrBit d key b v).ev = d.ev := by
  unfold Dev.wrBit
  repeat' first | rfl | (simp; done) | dsimp only | split
@[simp] theorem Dev.wrBit_lat (d : Dev) (key b : Nat) (v : Bool) : (Dev.wrBit d key b v).lat = d.lat := by
  unfold Dev.wrBit
  repeat' first | rfl | (simp; done) | dsimp only | split
@[simp] theorem Dev.wrBit_ser (d : Dev) (key b : Nat) (v : Bool) : (Dev.wrBit d key b v).ser = d.ser := by
  unfold Dev.wrBit
  repeat' first | rfl | (simp; done) | dsimp only | split
@[simp] theorem Dev.wrBit_qop (d : Dev) (key b : Nat) (v : Bool) : (Dev.wrBit d key b v).qop = d.qop := by
  unfold Dev.wrBit
  repeat' first | rfl | (simp; done) | dsimp only | split
@[simp] theorem Dev.wrBit_hub (d : Dev) (key b : Nat) (v : Bool) : (Dev.wrBit d key b v).hub = d.hub := by
  unfold Dev.wrBit
  repeat' first | rfl | (simp; done) | dsimp only | split
@[simp] theorem Dev.wrBit_pwr (d : Dev) (key b : Nat) (v : Bool) : (Dev.wrBit d key b v).pwr = d.pwr := by
  unfold Dev.wrBit
  repeat' first | rfl | (simp; done) | dsimp only | split
@[simp] theorem Dev.wrBit_eas (d : Dev) (key b : Nat) (v : Bool) : (Dev.wrBit d key b v).eas = d.eas := by
  unfold Dev.wrBit
  repeat' first | rfl | (simp; done) | dsimp only | split
@[simp] theorem Dev.wrBit_out (d : Dev) (key b : Nat) (v : Bool) : (Dev.wrBit d key b v).out = d.out := by
  unfold Dev.wrBit
  repeat' first | rfl | (simp; done) | dsimp only | split
@[simp] theorem Dev.wrBit_rx (d : Dev) (key b : Nat) (v : Bool) : (Dev.wrBit d key b v).rx = d.rx := by
  unfold Dev.wrBit
  repeat' first | rfl | (simp; done) | dsimp only | split
@[simp] theorem Dev.wrBit_acq (d : Dev) (key b : Nat) (v : Bool) : (Dev.wrBit d key b v).acq = d.acq := by
  unfold Dev.wrBit
  repeat' first | rfl | (simp; done) | dsimp only | split
@[simp] theorem Dev.wrBit_dsp (d : Dev) (key b : Nat) (v : Bool) : (Dev.wrBit d key b v).dsp = d.dsp := by
  unfold Dev.wrBit
  repeat' first | rfl | (simp; done) | dsimp only | split
@[simp] theorem Dev.wrBit_cal (d : Dev) (key b : Nat) (v : Bool) : (Dev.wrBit d key b v).cal = d.cal := by
  unfold Dev.wrBit
  repeat' first | rfl | (simp; done) | dsimp only | split

@[simp] theorem Dev.setDraft_epoch (d : Dev) (l : List Staged) : (Dev.setDraft d l).epoch = d.epoch := by
  unfold Dev.setDraft
  repeat' first | rfl | (simp; done) | dsimp only | split
@[simp] theorem Dev.setDraft_counting (d : Dev) (l : List Staged) : (Dev.setDraft d l).counting = d.counting := by
  unfold Dev.setDraft
  repeat' first | rfl | (simp; done) | dsimp only | split
@[simp] theorem Dev.setDraft_state (d : Dev) (l : List Staged) : (Dev.setDraft d l).state = d.state := by
  unfold Dev.setDraft
  repeat' first | rfl | (simp; done) | dsimp only | split
@[simp] theorem Dev.setDraft_counters (d : Dev) (l : List Staged) : (Dev.setDraft d l).counters = d.counters := by
  unfold Dev.setDraft
  repeat' first | rfl | (simp; done) | dsimp only | split
@[simp] theorem Dev.setDraft_inTick (d : Dev) (l : List Staged) : (Dev.setDraft d l).inTick = d.inTick := by
  unfold Dev.setDraft
  repeat' first | rfl | (simp; done) | dsimp only | split
@[simp] theorem Dev.setDraft_agg (d : Dev) (l : List Staged) : (Dev.setDraft d l).agg = d.agg := by
  unfold Dev.setDraft
  repeat' first | rfl | (simp; done) | dsimp only | split
@[simp] theorem Dev.setDraft_ev (d : Dev) (l : List Staged) : (Dev.setDraft d l).ev = d.ev := by
  unfold Dev.setDraft
  repeat' first | rfl | (simp; done) | dsimp only | split
@[simp] theorem Dev.setDraft_lat (d : Dev) (l : List Staged) : (Dev.setDraft d l).lat = d.lat := by
  unfold Dev.setDraft
  repeat' first | rfl | (simp; done) | dsimp only | split
@[simp] theorem Dev.setDraft_ser (d : Dev) (l : List Staged) : (Dev.setDraft d l).ser = d.ser := by
  unfold Dev.setDraft
  repeat' first | rfl | (simp; done) | dsimp only | split
@[simp] theorem Dev.setDraft_hub (d : Dev) (l : List Staged) : (Dev.setDraft d l).hub = d.hub := by
  unfold Dev.setDraft
  repeat' first | rfl | (simp; done) | dsimp only | split
@[simp] theorem Dev.setDraft_pwr (d : Dev) (l : List Staged) : (Dev.setDraft d l).pwr = d.pwr := by
  unfold Dev.setDraft
  repeat' first | rfl | (simp; done) | dsimp only | split
@[simp] theorem Dev.setDraft_eas (d : Dev) (l : List Staged) : (Dev.setDraft d l).eas = d.eas := by
  unfold Dev.setDraft
  repeat' first | rfl | (simp; done) | dsimp only | split
@[simp] theorem Dev.setDraft_out (d : Dev) (l : List Staged) : (Dev.setDraft d l).out = d.out := by
  unfold Dev.setDraft
  repeat' first | rfl | (simp; done) | dsimp only | split
@[simp] theorem Dev.setDraft_rx (d : Dev) (l : List Staged) : (Dev.setDraft d l).rx = d.rx := by
  unfold Dev.setDraft
  repeat' first | rfl | (simp; done) | dsimp only | split
@[simp] theorem Dev.setDraft_acq (d : Dev) (l : List Staged) : (Dev.setDraft d l).acq = d.acq := by
  unfold Dev.setDraft
  repeat' first | rfl | (simp; done) | dsimp only | split
@[simp] theorem Dev.setDraft_dsp (d : Dev) (l : List Staged) : (Dev.setDraft d l).dsp = d.dsp := by
  unfold Dev.setDraft
  repeat' first | rfl | (simp; done) | dsimp only | split
@[simp] theorem Dev.setDraft_cal (d : Dev) (l : List Staged) : (Dev.setDraft d l).cal = d.cal := by
  unfold Dev.setDraft
  repeat' first | rfl | (simp; done) | dsimp only | split

@[simp] theorem Dev.take_epoch (d : Dev) (r : Req) : (Dev.take d r).epoch = d.epoch := by
  unfold Dev.take
  repeat' first | rfl | (simp; done) | dsimp only | split
@[simp] theorem Dev.take_counting (d : Dev) (r : Req) : (Dev.take d r).counting = d.counting := by
  unfold Dev.take
  repeat' first | rfl | (simp; done) | dsimp only | split
@[simp] theorem Dev.take_state (d : Dev) (r : Req) : (Dev.take d r).state = d.state := by
  unfold Dev.take
  repeat' first | rfl | (simp; done) | dsimp only | split
@[simp] theorem Dev.take_objs (d : Dev) (r : Req) : (Dev.take d r).objs = d.objs := by
  unfold Dev.take
  repeat' first | rfl | (simp; done) | dsimp only | split
@[simp] theorem Dev.take_counters (d : Dev) (r : Req) : (Dev.take d r).counters = d.counters := by
  unfold Dev.take
  repeat' first | rfl | (simp; done) | dsimp only | split
@[simp] theorem Dev.take_inTick (d : Dev) (r : Req) : (Dev.take d r).inTick = d.inTick := by
  unfold Dev.take
  repeat' first | rfl | (simp; done) | dsimp only | split
@[simp] theorem Dev.take_agg (d : Dev) (r : Req) : (Dev.take d r).agg = d.agg := by
  unfold Dev.take
  repeat' first | rfl | (simp; done) | dsimp only | split
@[simp] theorem Dev.take_ev (d : Dev) (r : Req) : (Dev.take d r).ev = d.ev := by
  unfold Dev.take
  repeat' first | rfl | (simp; done) | dsimp only | split
@[simp] theorem Dev.take_lat (d : Dev) (r : Req) : (Dev.take d r).lat = d.lat := by
  unfold Dev.take
  repeat' first | rfl | (simp; done) | dsimp only | split
@[simp] theorem Dev.take_ser (d : Dev) (r : Req) : (Dev.take d r).ser = d.ser := by
  unfold Dev.take
  repeat' first | rfl | (simp; done) | dsimp only | split
@[simp] theorem Dev.take_hub (d : Dev) (r : Req) : (Dev.take d r).hub = d.hub := by
  unfold Dev.take
  repeat' first | rfl | (simp; done) | dsimp only | split
@[simp] theorem Dev.take_pwr (d : Dev) (r : Req) : (Dev.take d r).pwr = d.pwr := by
  unfold Dev.take
  repeat' first | rfl | (simp; done) | dsimp only | split
@[simp] theorem Dev.take_eas (d : Dev) (r : Req) : (Dev.take d r).eas = d.eas := by
  unfold Dev.take
  repeat' first | rfl | (simp; done) | dsimp only | split
@[simp] theorem Dev.take_out (d : Dev) (r : Req) : (Dev.take d r).out = d.out := by
  unfold Dev.take
  repeat' first | rfl | (simp; done) | dsimp only | split
@[simp] theorem Dev.take_rx (d : Dev) (r : Req) : (Dev.take d r).rx = d.rx := by
  unfold Dev.take
  repeat' first | rfl | (simp; done) | dsimp only | split
@[simp] theorem Dev.take_acq (d : Dev) (r : Req) : (Dev.take d r).acq = d.acq := by
  unfold Dev.take
  repeat' first | rfl | (simp; done) | dsimp only | split
@[simp] theorem Dev.take_dsp (d : Dev) (r : Req) : (Dev.take d r).dsp = d.dsp := by
  unfold Dev.take
  repeat' first | rfl | (simp; done) | dsimp only | split
@[simp] theorem Dev.take_cal (d : Dev) (r : Req) : (Dev.take d r).cal = d.cal := by
  unfold Dev.take
  repeat' first | rfl | (simp; done) | dsimp only | split

@[simp] theorem Dev.sendReply_epoch (d : Dev) (r : Reply) : (Dev.sendReply d r).epoch = d.epoch := by
  unfold Dev.sendReply
  repeat' first | rfl | (simp; done) | dsimp only | split
@[simp] theorem Dev.sendReply_counting (d : Dev) (r : Reply) : (Dev.sendReply d r).counting = d.counting := by
  unfold Dev.sendReply
  repeat' first | rfl | (simp; done) | dsimp only | split
@[simp] theorem Dev.sendReply_state (d : Dev) (r : Reply) : (Dev.sendReply d r).state = d.state := by
  unfold Dev.sendReply
  repeat' first | rfl | (simp; done) | dsimp only | split
@[simp] theorem Dev.sendReply_objs (d : Dev) (r : Reply) : (Dev.sendReply d r).objs = d.objs := by
  unfold Dev.sendReply
  repeat' first | rfl | (simp; done) | dsimp only | split
@[simp] theorem Dev.sendReply_counters (d : Dev) (r : Reply) : (Dev.sendReply d r).counters = d.counters := by
  unfold Dev.sendReply
  repeat' first | rfl | (simp; done) | dsimp only | split
@[simp] theorem Dev.sendReply_inTick (d : Dev) (r : Reply) : (Dev.sendReply d r).inTick = d.inTick := by
  unfold Dev.sendReply
  repeat' first | rfl | (simp; done) | dsimp only | split
@[simp] theorem Dev.sendReply_agg (d : Dev) (r : Reply) : (Dev.sendReply d r).agg = d.agg := by
  unfold Dev.sendReply
  repeat' first | rfl | (simp; done) | dsimp only | split
@[simp] theorem Dev.sendReply_ev (d : Dev) (r : Reply) : (Dev.sendReply d r).ev = d.ev := by
  unfold Dev.sendReply
  repeat' first | rfl | (simp; done) | dsimp only | split
@[simp] theorem Dev.sendReply_lat (d : Dev) (r : Reply) : (Dev.sendReply d r).lat = d.lat := by
  unfold Dev.sendReply
  repeat' first | rfl | (simp; done) | dsimp only | split
@[simp] theorem Dev.sendReply_ser (d : Dev) (r : Reply) : (Dev.sendReply d r).ser = d.ser := by
  unfold Dev.sendReply
  repeat' first | rfl | (simp; done) | dsimp only | split
@[simp] theorem Dev.sendReply_hub (d : Dev) (r : Reply) : (Dev.sendReply d r).hub = d.hub := by
  unfold Dev.sendReply
  repeat' first | rfl | (simp; done) | dsimp only | split
@[simp] theorem Dev.sendReply_pwr (d : Dev) (r : Reply) : (Dev.sendReply d r).pwr = d.pwr := by
  unfold Dev.sendReply
  repeat' first | rfl | (simp; done) | dsimp only | split
@[simp] theorem Dev.sendReply_eas (d : Dev) (r : Reply) : (Dev.sendReply d r).eas = d.eas := by
  unfold Dev.sendReply
  repeat' first | rfl | (simp; done) | dsimp only | split
@[simp] theorem Dev.sendReply_out (d : Dev) (r : Reply) : (Dev.sendReply d r).out = d.out := by
  unfold Dev.sendReply
  repeat' first | rfl | (simp; done) | dsimp only | split
@[simp] theorem Dev.sendReply_rx (d : Dev) (r : Reply) : (Dev.sendReply d r).rx = d.rx := by
  unfold Dev.sendReply
  repeat' first | rfl | (simp; done) | dsimp only | split
@[simp] theorem Dev.sendReply_acq (d : Dev) (r : Reply) : (Dev.sendReply d r).acq = d.acq := by
  unfold Dev.sendReply
  repeat' first | rfl | (simp; done) | dsimp only | split
@[simp] theorem Dev.sendReply_dsp (d : Dev) (r : Reply) : (Dev.sendReply d r).dsp = d.dsp := by
  unfold Dev.sendReply
  repeat' first | rfl | (simp; done) | dsimp only | split
@[simp] theorem Dev.sendReply_cal (d : Dev) (r : Reply) : (Dev.sendReply d r).cal = d.cal := by
  unfold Dev.sendReply
  repeat' first | rfl | (simp; done) | dsimp only | split

@[simp] theorem Dev.storeReply_epoch (d : Dev) (r : Reply) : (Dev.storeReply d r).epoch = d.epoch := by
  unfold Dev.storeReply
  repeat' first | rfl | (simp; done) | dsimp only | split
@[simp] theorem Dev.storeReply_counting (d : Dev) (r : Reply) : (Dev.storeReply d r).counting = d.counting := by
  unfold Dev.storeReply
  repeat' first | rfl | (simp; done) | dsimp only | split
@[simp] theorem Dev.storeReply_state (d : Dev) (r : Reply) : (Dev.storeReply d r).state = d.state := by
  unfold Dev.storeReply
  repeat' first | rfl | (simp; done) | dsimp only | split
@[simp] theorem Dev.storeReply_objs (d : Dev) (r : Reply) : (Dev.storeReply d r).objs = d.objs := by
  unfold Dev.storeReply
  repeat' first | rfl | (simp; done) | dsimp only | split
@[simp] theorem Dev.storeReply_counters (d : Dev) (r : Reply) : (Dev.storeReply d r).counters = d.counters := by
  unfold Dev.storeReply
  repeat' first | rfl | (simp; done) | dsimp only | split
@[simp] theorem Dev.storeReply_inTick (d : Dev) (r : Reply) : (Dev.storeReply d r).inTick = d.inTick := by
  unfold Dev.storeReply
  repeat' first | rfl | (simp; done) | dsimp only | split
@[simp] theorem Dev.storeReply_agg (d : Dev) (r : Reply) : (Dev.storeReply d r).agg = d.agg := by
  unfold Dev.storeReply
  repeat' first | rfl | (simp; done) | dsimp only | split
@[simp] theorem Dev.storeReply_ev (d : Dev) (r : Reply) : (Dev.storeReply d r).ev = d.ev := by
  unfold Dev.storeReply
  repeat' first | rfl | (simp; done) | dsimp only | split
@[simp] theorem Dev.storeReply_lat (d : Dev) (r : Reply) : (Dev.storeReply d r).lat = d.lat := by
  unfold Dev.storeReply
  repeat' first | rfl | (simp; done) | dsimp only | split
@[simp] theorem Dev.storeReply_ser (d : Dev) (r : Reply) : (Dev.storeReply d r).ser = d.ser := by
  unfold Dev.storeReply
  repeat' first | rfl | (simp; done) | dsimp only | split
@[simp] theorem Dev.storeReply_hub (d : Dev) (r : Reply) : (Dev.storeReply d r).hub = d.hub := by
  unfold Dev.storeReply
  repeat' first | rfl | (simp; done) | dsimp only | split
@[simp] theorem Dev.storeReply_pwr (d : Dev) (r : Reply) : (Dev.storeReply d r).pwr = d.pwr := by
  unfold Dev.storeReply
  repeat' first | rfl | (simp; done) | dsimp only | split
@[simp] theorem Dev.storeReply_eas (d : Dev) (r : Reply) : (Dev.storeReply d r).eas = d.eas := by
  unfold Dev.storeReply
  repeat' first | rfl | (simp; done) | dsimp only | split
@[simp] theorem Dev.storeReply_out (d : Dev) (r : Reply) : (Dev.storeReply d r).out = d.out := by
  unfold Dev.storeReply
  repeat' first | rfl | (simp; done) | dsimp only | split
@[simp] theorem Dev.storeReply_rx (d : Dev) (r : Reply) : (Dev.storeReply d r).rx = d.rx := by
  unfold Dev.storeReply
  repeat' first | rfl | (simp; done) | dsimp only | split
@[simp] theorem Dev.storeReply_acq (d : Dev) (r : Reply) : (Dev.storeReply d r).acq = d.acq := by
  unfold Dev.storeReply
  repeat' first | rfl | (simp; done) | dsimp only | split
@[simp] theorem Dev.storeReply_dsp (d : Dev) (r : Reply) : (Dev.storeReply d r).dsp = d.dsp := by
  unfold Dev.storeReply
  repeat' first | rfl | (simp; done) | dsimp only | split
@[simp] theorem Dev.storeReply_cal (d : Dev) (r : Reply) : (Dev.storeReply d r).cal = d.cal := by
  unfold Dev.storeReply
  repeat' first | rfl | (simp; done) | dsimp only | split

@[simp] theorem Dev.finishReply_epoch (d : Dev) (r : Reply) : (Dev.finishReply d r).epoch = d.epoch := by
  unfold Dev.finishReply
  repeat' first | rfl | (simp; done) | dsimp only | split
@[simp] theorem Dev.finishReply_counting (d : Dev) (r : Reply) : (Dev.finishReply d r).counting = d.counting := by
  unfold Dev.finishReply
  repeat' first | rfl | (simp; done) | dsimp only | split
@[simp] theorem Dev.finishReply_state (d : Dev) (r : Reply) : (Dev.finishReply d r).state = d.state := by
  unfold Dev.finishReply
  repeat' first | rfl | (simp; done) | dsimp only | split
@[simp] theorem Dev.finishReply_objs (d : Dev) (r : Reply) : (Dev.finishReply d r).objs = d.objs := by
  unfold Dev.finishReply
  repeat' first | rfl | (simp; done) | dsimp only | split
@[simp] theorem Dev.finishReply_counters (d : Dev) (r : Reply) : (Dev.finishReply d r).counters = d.counters := by
  unfold Dev.finishReply
  repeat' first | rfl | (simp; done) | dsimp only | split
@[simp] theorem Dev.finishReply_inTick (d : Dev) (r : Reply) : (Dev.finishReply d r).inTick = d.inTick := by
  unfold Dev.finishReply
  repeat' first | rfl | (simp; done) | dsimp only | split
@[simp] theorem Dev.finishReply_agg (d : Dev) (r : Reply) : (Dev.finishReply d r).agg = d.agg := by
  unfold Dev.finishReply
  repeat' first | rfl | (simp; done) | dsimp only | split
@[simp] theorem Dev.finishReply_ev (d : Dev) (r : Reply) : (Dev.finishReply d r).ev = d.ev := by
  unfold Dev.finishReply
  repeat' first | rfl | (simp; done) | dsimp only | split
@[simp] theorem Dev.finishReply_lat (d : Dev) (r : Reply) : (Dev.finishReply d r).lat = d.lat := by
  unfold Dev.finishReply
  repeat' first | rfl | (simp; done) | dsimp only | split
@[simp] theorem Dev.finishReply_ser (d : Dev) (r : Reply) : (Dev.finishReply d r).ser = d.ser := by
  unfold Dev.finishReply
  repeat' first | rfl | (simp; done) | dsimp only | split
@[simp] theorem Dev.finishReply_hub (d : Dev) (r : Reply) : (Dev.finishReply d r).hub = d.hub := by
  unfold Dev.finishReply
  repeat' first | rfl | (simp; done) | dsimp only | split
@[simp] theorem Dev.finishReply_pwr (d : Dev) (r : Reply) : (Dev.finishReply d r).pwr = d.pwr := by
  unfold Dev.finishReply
  repeat' first | rfl | (simp; done) | dsimp only | split
@[simp] theorem Dev.finishReply_eas (d : Dev) (r : Reply) : (Dev.finishReply d r).eas = d.eas := by
  unfold Dev.finishReply
  repeat' first | rfl | (simp; done) | dsimp only | split
@[simp] theorem Dev.finishReply_out (d : Dev) (r : Reply) : (Dev.finishReply d r).out = d.out := by
  unfold Dev.finishReply
  repeat' first | rfl | (simp; done) | dsimp only | split
@[simp] theorem Dev.finishReply_rx (d : Dev) (r : Reply) : (Dev.finishReply d r).rx = d.rx := by
  unfold Dev.finishReply
  repeat' first | rfl | (simp; done) | dsimp only | split
@[simp] theorem Dev.finishReply_acq (d : Dev) (r : Reply) : (Dev.finishReply d r).acq = d.acq := by
  unfold Dev.finishReply
  repeat' first | rfl | (simp; done) | dsimp only | split
@[simp] theorem Dev.finishReply_dsp (d : Dev) (r : Reply) : (Dev.finishReply d r).dsp = d.dsp := by
  unfold Dev.finishReply
  repeat' first | rfl | (simp; done) | dsimp only | split
@[simp] theorem Dev.finishReply_cal (d : Dev) (r : Reply) : (Dev.finishReply d r).cal = d.cal := by
  unfold Dev.finishReply
  repeat' first | rfl | (simp; done) | dsimp only | split

@[simp] theorem Dev.noteFault_epoch (d : Dev) (u : UnitRef) (kind : Nat) : (Dev.noteFault d u kind).epoch = d.epoch := by
  unfold Dev.noteFault
  repeat' first | rfl | (simp; done) | dsimp only | split
@[simp] theorem Dev.noteFault_counting (d : Dev) (u : UnitRef) (kind : Nat) : (Dev.noteFault d u kind).counting = d.counting := by
  unfold Dev.noteFault
  repeat' first | rfl | (simp; done) | dsimp only | split
@[simp] theorem Dev.noteFault_state (d : Dev) (u : UnitRef) (kind : Nat) : (Dev.noteFault d u kind).state = d.state := by
  unfold Dev.noteFault
  repeat' first | rfl | (simp; done) | dsimp only | split
@[simp] theorem Dev.noteFault_objs (d : Dev) (u : UnitRef) (kind : Nat) : (Dev.noteFault d u kind).objs = d.objs := by
  unfold Dev.noteFault
  repeat' first | rfl | (simp; done) | dsimp only | split
@[simp] theorem Dev.noteFault_counters (d : Dev) (u : UnitRef) (kind : Nat) : (Dev.noteFault d u kind).counters = d.counters := by
  unfold Dev.noteFault
  repeat' first | rfl | (simp; done) | dsimp only | split
@[simp] theorem Dev.noteFault_inTick (d : Dev) (u : UnitRef) (kind : Nat) : (Dev.noteFault d u kind).inTick = d.inTick := by
  unfold Dev.noteFault
  repeat' first | rfl | (simp; done) | dsimp only | split
@[simp] theorem Dev.noteFault_agg (d : Dev) (u : UnitRef) (kind : Nat) : (Dev.noteFault d u kind).agg = d.agg := by
  unfold Dev.noteFault
  repeat' first | rfl | (simp; done) | dsimp only | split
@[simp] theorem Dev.noteFault_ev (d : Dev) (u : UnitRef) (kind : Nat) : (Dev.noteFault d u kind).ev = d.ev := by
  unfold Dev.noteFault
  repeat' first | rfl | (simp; done) | dsimp only | split
@[simp] theorem Dev.noteFault_lat (d : Dev) (u : UnitRef) (kind : Nat) : (Dev.noteFault d u kind).lat = d.lat := by
  unfold Dev.noteFault
  repeat' first | rfl | (simp; done) | dsimp only | split
@[simp] theorem Dev.noteFault_ser (d : Dev) (u : UnitRef) (kind : Nat) : (Dev.noteFault d u kind).ser = d.ser := by
  unfold Dev.noteFault
  repeat' first | rfl | (simp; done) | dsimp only | split
@[simp] theorem Dev.noteFault_qop (d : Dev) (u : UnitRef) (kind : Nat) : (Dev.noteFault d u kind).qop = d.qop := by
  unfold Dev.noteFault
  repeat' first | rfl | (simp; done) | dsimp only | split
@[simp] theorem Dev.noteFault_pwr (d : Dev) (u : UnitRef) (kind : Nat) : (Dev.noteFault d u kind).pwr = d.pwr := by
  unfold Dev.noteFault
  repeat' first | rfl | (simp; done) | dsimp only | split
@[simp] theorem Dev.noteFault_eas (d : Dev) (u : UnitRef) (kind : Nat) : (Dev.noteFault d u kind).eas = d.eas := by
  unfold Dev.noteFault
  repeat' first | rfl | (simp; done) | dsimp only | split
@[simp] theorem Dev.noteFault_out (d : Dev) (u : UnitRef) (kind : Nat) : (Dev.noteFault d u kind).out = d.out := by
  unfold Dev.noteFault
  repeat' first | rfl | (simp; done) | dsimp only | split
@[simp] theorem Dev.noteFault_rx (d : Dev) (u : UnitRef) (kind : Nat) : (Dev.noteFault d u kind).rx = d.rx := by
  unfold Dev.noteFault
  repeat' first | rfl | (simp; done) | dsimp only | split
@[simp] theorem Dev.noteFault_acq (d : Dev) (u : UnitRef) (kind : Nat) : (Dev.noteFault d u kind).acq = d.acq := by
  unfold Dev.noteFault
  repeat' first | rfl | (simp; done) | dsimp only | split
@[simp] theorem Dev.noteFault_dsp (d : Dev) (u : UnitRef) (kind : Nat) : (Dev.noteFault d u kind).dsp = d.dsp := by
  unfold Dev.noteFault
  repeat' first | rfl | (simp; done) | dsimp only | split
@[simp] theorem Dev.noteFault_cal (d : Dev) (u : UnitRef) (kind : Nat) : (Dev.noteFault d u kind).cal = d.cal := by
  unfold Dev.noteFault
  repeat' first | rfl | (simp; done) | dsimp only | split

@[simp] theorem Dev.spoilAll_epoch (d : Dev) : (Dev.spoilAll d).epoch = d.epoch := by
  unfold Dev.spoilAll
  repeat' first | rfl | (simp; done) | dsimp only | split
@[simp] theorem Dev.spoilAll_counting (d : Dev) : (Dev.spoilAll d).counting = d.counting := by
  unfold Dev.spoilAll
  repeat' first | rfl | (simp; done) | dsimp only | split
@[simp] theorem Dev.spoilAll_state (d : Dev) : (Dev.spoilAll d).state = d.state := by
  unfold Dev.spoilAll
  repeat' first | rfl | (simp; done) | dsimp only | split
@[simp] theorem Dev.spoilAll_objs (d : Dev) : (Dev.spoilAll d).objs = d.objs := by
  unfold Dev.spoilAll
  repeat' first | rfl | (simp; done) | dsimp only | split
@[simp] theorem Dev.spoilAll_counters (d : Dev) : (Dev.spoilAll d).counters = d.counters := by
  unfold Dev.spoilAll
  repeat' first | rfl | (simp; done) | dsimp only | split
@[simp] theorem Dev.spoilAll_inTick (d : Dev) : (Dev.spoilAll d).inTick = d.inTick := by
  unfold Dev.spoilAll
  repeat' first | rfl | (simp; done) | dsimp only | split
@[simp] theorem Dev.spoilAll_agg (d : Dev) : (Dev.spoilAll d).agg = d.agg := by
  unfold Dev.spoilAll
  repeat' first | rfl | (simp; done) | dsimp only | split
@[simp] theorem Dev.spoilAll_ev (d : Dev) : (Dev.spoilAll d).ev = d.ev := by
  unfold Dev.spoilAll
  repeat' first | rfl | (simp; done) | dsimp only | split
@[simp] theorem Dev.spoilAll_lat (d : Dev) : (Dev.spoilAll d).lat = d.lat := by
  unfold Dev.spoilAll
  repeat' first | rfl | (simp; done) | dsimp only | split
@[simp] theorem Dev.spoilAll_ser (d : Dev) : (Dev.spoilAll d).ser = d.ser := by
  unfold Dev.spoilAll
  repeat' first | rfl | (simp; done) | dsimp only | split
@[simp] theorem Dev.spoilAll_qop (d : Dev) : (Dev.spoilAll d).qop = d.qop := by
  unfold Dev.spoilAll
  repeat' first | rfl | (simp; done) | dsimp only | split
@[simp] theorem Dev.spoilAll_pwr (d : Dev) : (Dev.spoilAll d).pwr = d.pwr := by
  unfold Dev.spoilAll
  repeat' first | rfl | (simp; done) | dsimp only | split
@[simp] theorem Dev.spoilAll_eas (d : Dev) : (Dev.spoilAll d).eas = d.eas := by
  unfold Dev.spoilAll
  repeat' first | rfl | (simp; done) | dsimp only | split
@[simp] theorem Dev.spoilAll_out (d : Dev) : (Dev.spoilAll d).out = d.out := by
  unfold Dev.spoilAll
  repeat' first | rfl | (simp; done) | dsimp only | split
@[simp] theorem Dev.spoilAll_rx (d : Dev) : (Dev.spoilAll d).rx = d.rx := by
  unfold Dev.spoilAll
  repeat' first | rfl | (simp; done) | dsimp only | split
@[simp] theorem Dev.spoilAll_acq (d : Dev) : (Dev.spoilAll d).acq = d.acq := by
  unfold Dev.spoilAll
  repeat' first | rfl | (simp; done) | dsimp only | split
@[simp] theorem Dev.spoilAll_dsp (d : Dev) : (Dev.spoilAll d).dsp = d.dsp := by
  unfold Dev.spoilAll
  repeat' first | rfl | (simp; done) | dsimp only | split
@[simp] theorem Dev.spoilAll_cal (d : Dev) : (Dev.spoilAll d).cal = d.cal := by
  unfold Dev.spoilAll
  repeat' first | rfl | (simp; done) | dsimp only | split

@[simp] theorem Dev.setLink_epoch (d : Dev) (k : Nat) (l : Link) : (Dev.setLink d k l).epoch = d.epoch := by
  unfold Dev.setLink
  repeat' first | rfl | (simp; done) | dsimp only | split
@[simp] theorem Dev.setLink_counting (d : Dev) (k : Nat) (l : Link) : (Dev.setLink d k l).counting = d.counting := by
  unfold Dev.setLink
  repeat' first | rfl | (simp; done) | dsimp only | split
@[simp] theorem Dev.setLink_state (d : Dev) (k : Nat) (l : Link) : (Dev.setLink d k l).state = d.state := by
  unfold Dev.setLink
  repeat' first | rfl | (simp; done) | dsimp only | split
@[simp] theorem Dev.setLink_counters (d : Dev) (k : Nat) (l : Link) : (Dev.setLink d k l).counters = d.counters := by
  unfold Dev.setLink
  repeat' first | rfl | (simp; done) | dsimp only | split
@[simp] theorem Dev.setLink_inTick (d : Dev) (k : Nat) (l : Link) : (Dev.setLink d k l).inTick = d.inTick := by
  unfold Dev.setLink
  repeat' first | rfl | (simp; done) | dsimp only | split
@[simp] theorem Dev.setLink_agg (d : Dev) (k : Nat) (l : Link) : (Dev.setLink d k l).agg = d.agg := by
  unfold Dev.setLink
  repeat' first | rfl | (simp; done) | dsimp only | split
@[simp] theorem Dev.setLink_ev (d : Dev) (k : Nat) (l : Link) : (Dev.setLink d k l).ev = d.ev := by
  unfold Dev.setLink
  repeat' first | rfl | (simp; done) | dsimp only | split
@[simp] theorem Dev.setLink_lat (d : Dev) (k : Nat) (l : Link) : (Dev.setLink d k l).lat = d.lat := by
  unfold Dev.setLink
  repeat' first | rfl | (simp; done) | dsimp only | split
@[simp] theorem Dev.setLink_qop (d : Dev) (k : Nat) (l : Link) : (Dev.setLink d k l).qop = d.qop := by
  unfold Dev.setLink
  repeat' first | rfl | (simp; done) | dsimp only | split
@[simp] theorem Dev.setLink_hub (d : Dev) (k : Nat) (l : Link) : (Dev.setLink d k l).hub = d.hub := by
  unfold Dev.setLink
  repeat' first | rfl | (simp; done) | dsimp only | split
@[simp] theorem Dev.setLink_pwr (d : Dev) (k : Nat) (l : Link) : (Dev.setLink d k l).pwr = d.pwr := by
  unfold Dev.setLink
  repeat' first | rfl | (simp; done) | dsimp only | split
@[simp] theorem Dev.setLink_eas (d : Dev) (k : Nat) (l : Link) : (Dev.setLink d k l).eas = d.eas := by
  unfold Dev.setLink
  repeat' first | rfl | (simp; done) | dsimp only | split
@[simp] theorem Dev.setLink_out (d : Dev) (k : Nat) (l : Link) : (Dev.setLink d k l).out = d.out := by
  unfold Dev.setLink
  repeat' first | rfl | (simp; done) | dsimp only | split
@[simp] theorem Dev.setLink_rx (d : Dev) (k : Nat) (l : Link) : (Dev.setLink d k l).rx = d.rx := by
  unfold Dev.setLink
  repeat' first | rfl | (simp; done) | dsimp only | split
@[simp] theorem Dev.setLink_acq (d : Dev) (k : Nat) (l : Link) : (Dev.setLink d k l).acq = d.acq := by
  unfold Dev.setLink
  repeat' first | rfl | (simp; done) | dsimp only | split
@[simp] theorem Dev.setLink_dsp (d : Dev) (k : Nat) (l : Link) : (Dev.setLink d k l).dsp = d.dsp := by
  unfold Dev.setLink
  repeat' first | rfl | (simp; done) | dsimp only | split
@[simp] theorem Dev.setLink_cal (d : Dev) (k : Nat) (l : Link) : (Dev.setLink d k l).cal = d.cal := by
  unfold Dev.setLink
  repeat' first | rfl | (simp; done) | dsimp only | split

@[simp] theorem Dev.sendCell_epoch (d : Dev) (k : Nat) (b : CellBody) : (Dev.sendCell d k b).epoch = d.epoch := by
  unfold Dev.sendCell
  repeat' first | rfl | (simp; done) | dsimp only | split
@[simp] theorem Dev.sendCell_counting (d : Dev) (k : Nat) (b : CellBody) : (Dev.sendCell d k b).counting = d.counting := by
  unfold Dev.sendCell
  repeat' first | rfl | (simp; done) | dsimp only | split
@[simp] theorem Dev.sendCell_state (d : Dev) (k : Nat) (b : CellBody) : (Dev.sendCell d k b).state = d.state := by
  unfold Dev.sendCell
  repeat' first | rfl | (simp; done) | dsimp only | split
@[simp] theorem Dev.sendCell_counters (d : Dev) (k : Nat) (b : CellBody) : (Dev.sendCell d k b).counters = d.counters := by
  unfold Dev.sendCell
  repeat' first | rfl | (simp; done) | dsimp only | split
@[simp] theorem Dev.sendCell_inTick (d : Dev) (k : Nat) (b : CellBody) : (Dev.sendCell d k b).inTick = d.inTick := by
  unfold Dev.sendCell
  repeat' first | rfl | (simp; done) | dsimp only | split
@[simp] theorem Dev.sendCell_agg (d : Dev) (k : Nat) (b : CellBody) : (Dev.sendCell d k b).agg = d.agg := by
  unfold Dev.sendCell
  repeat' first | rfl | (simp; done) | dsimp only | split
@[simp] theorem Dev.sendCell_ev (d : Dev) (k : Nat) (b : CellBody) : (Dev.sendCell d k b).ev = d.ev := by
  unfold Dev.sendCell
  repeat' first | rfl | (simp; done) | dsimp only | split
@[simp] theorem Dev.sendCell_lat (d : Dev) (k : Nat) (b : CellBody) : (Dev.sendCell d k b).lat = d.lat := by
  unfold Dev.sendCell
  repeat' first | rfl | (simp; done) | dsimp only | split
@[simp] theorem Dev.sendCell_qop (d : Dev) (k : Nat) (b : CellBody) : (Dev.sendCell d k b).qop = d.qop := by
  unfold Dev.sendCell
  repeat' first | rfl | (simp; done) | dsimp only | split
@[simp] theorem Dev.sendCell_hub (d : Dev) (k : Nat) (b : CellBody) : (Dev.sendCell d k b).hub = d.hub := by
  unfold Dev.sendCell
  repeat' first | rfl | (simp; done) | dsimp only | split
@[simp] theorem Dev.sendCell_pwr (d : Dev) (k : Nat) (b : CellBody) : (Dev.sendCell d k b).pwr = d.pwr := by
  unfold Dev.sendCell
  repeat' first | rfl | (simp; done) | dsimp only | split
@[simp] theorem Dev.sendCell_eas (d : Dev) (k : Nat) (b : CellBody) : (Dev.sendCell d k b).eas = d.eas := by
  unfold Dev.sendCell
  repeat' first | rfl | (simp; done) | dsimp only | split
@[simp] theorem Dev.sendCell_out (d : Dev) (k : Nat) (b : CellBody) : (Dev.sendCell d k b).out = d.out := by
  unfold Dev.sendCell
  repeat' first | rfl | (simp; done) | dsimp only | split
@[simp] theorem Dev.sendCell_rx (d : Dev) (k : Nat) (b : CellBody) : (Dev.sendCell d k b).rx = d.rx := by
  unfold Dev.sendCell
  repeat' first | rfl | (simp; done) | dsimp only | split
@[simp] theorem Dev.sendCell_acq (d : Dev) (k : Nat) (b : CellBody) : (Dev.sendCell d k b).acq = d.acq := by
  unfold Dev.sendCell
  repeat' first | rfl | (simp; done) | dsimp only | split
@[simp] theorem Dev.sendCell_dsp (d : Dev) (k : Nat) (b : CellBody) : (Dev.sendCell d k b).dsp = d.dsp := by
  unfold Dev.sendCell
  repeat' first | rfl | (simp; done) | dsimp only | split
@[simp] theorem Dev.sendCell_cal (d : Dev) (k : Nat) (b : CellBody) : (Dev.sendCell d k b).cal = d.cal := by
  unfold Dev.sendCell
  repeat' first | rfl | (simp; done) | dsimp only | split

@[simp] theorem Dev.sendBeat_epoch (d : Dev) (b : BeatMsg) (k : Nat) : (Dev.sendBeat d b k).epoch = d.epoch := by
  unfold Dev.sendBeat
  repeat' first | rfl | (simp; done) | dsimp only | split
@[simp] theorem Dev.sendBeat_counting (d : Dev) (b : BeatMsg) (k : Nat) : (Dev.sendBeat d b k).counting = d.counting := by
  unfold Dev.sendBeat
  repeat' first | rfl | (simp; done) | dsimp only | split
@[simp] theorem Dev.sendBeat_state (d : Dev) (b : BeatMsg) (k : Nat) : (Dev.sendBeat d b k).state = d.state := by
  unfold Dev.sendBeat
  repeat' first | rfl | (simp; done) | dsimp only | split
@[simp] theorem Dev.sendBeat_counters (d : Dev) (b : BeatMsg) (k : Nat) : (Dev.sendBeat d b k).counters = d.counters := by
  unfold Dev.sendBeat
  repeat' first | rfl | (simp; done) | dsimp only | split
@[simp] theorem Dev.sendBeat_inTick (d : Dev) (b : BeatMsg) (k : Nat) : (Dev.sendBeat d b k).inTick = d.inTick := by
  unfold Dev.sendBeat
  repeat' first | rfl | (simp; done) | dsimp only | split
@[simp] theorem Dev.sendBeat_agg (d : Dev) (b : BeatMsg) (k : Nat) : (Dev.sendBeat d b k).agg = d.agg := by
  unfold Dev.sendBeat
  repeat' first | rfl | (simp; done) | dsimp only | split
@[simp] theorem Dev.sendBeat_ev (d : Dev) (b : BeatMsg) (k : Nat) : (Dev.sendBeat d b k).ev = d.ev := by
  unfold Dev.sendBeat
  repeat' first | rfl | (simp; done) | dsimp only | split
@[simp] theorem Dev.sendBeat_lat (d : Dev) (b : BeatMsg) (k : Nat) : (Dev.sendBeat d b k).lat = d.lat := by
  unfold Dev.sendBeat
  repeat' first | rfl | (simp; done) | dsimp only | split
@[simp] theorem Dev.sendBeat_qop (d : Dev) (b : BeatMsg) (k : Nat) : (Dev.sendBeat d b k).qop = d.qop := by
  unfold Dev.sendBeat
  repeat' first | rfl | (simp; done) | dsimp only | split
@[simp] theorem Dev.sendBeat_hub (d : Dev) (b : BeatMsg) (k : Nat) : (Dev.sendBeat d b k).hub = d.hub := by
  unfold Dev.sendBeat
  repeat' first | rfl | (simp; done) | dsimp only | split
@[simp] theorem Dev.sendBeat_pwr (d : Dev) (b : BeatMsg) (k : Nat) : (Dev.sendBeat d b k).pwr = d.pwr := by
  unfold Dev.sendBeat
  repeat' first | rfl | (simp; done) | dsimp only | split
@[simp] theorem Dev.sendBeat_eas (d : Dev) (b : BeatMsg) (k : Nat) : (Dev.sendBeat d b k).eas = d.eas := by
  unfold Dev.sendBeat
  repeat' first | rfl | (simp; done) | dsimp only | split
@[simp] theorem Dev.sendBeat_out (d : Dev) (b : BeatMsg) (k : Nat) : (Dev.sendBeat d b k).out = d.out := by
  unfold Dev.sendBeat
  repeat' first | rfl | (simp; done) | dsimp only | split
@[simp] theorem Dev.sendBeat_rx (d : Dev) (b : BeatMsg) (k : Nat) : (Dev.sendBeat d b k).rx = d.rx := by
  unfold Dev.sendBeat
  repeat' first | rfl | (simp; done) | dsimp only | split
@[simp] theorem Dev.sendBeat_acq (d : Dev) (b : BeatMsg) (k : Nat) : (Dev.sendBeat d b k).acq = d.acq := by
  unfold Dev.sendBeat
  repeat' first | rfl | (simp; done) | dsimp only | split
@[simp] theorem Dev.sendBeat_dsp (d : Dev) (b : BeatMsg) (k : Nat) : (Dev.sendBeat d b k).dsp = d.dsp := by
  unfold Dev.sendBeat
  repeat' first | rfl | (simp; done) | dsimp only | split
@[simp] theorem Dev.sendBeat_cal (d : Dev) (b : BeatMsg) (k : Nat) : (Dev.sendBeat d b k).cal = d.cal := by
  unfold Dev.sendBeat
  repeat' first | rfl | (simp; done) | dsimp only | split

end Sys2Proof.Machine
end

