-- ==== Sys2Proof/Laws/Ops.lean ====
section
/-! SUPPORT. What the shared operations do: objects, counters, easel threads, DSP cores, the bytes of DDR4. -/

namespace Sys2Proof.Machine

/-- An object reads what was written to it. -/
@[simp] theorem Dev.rd_wr_self (d : Dev) (k v : Nat) : (d.wr k v).rd k = v := tabGet_set_self ..

/-- A write of an object leaves every other object. -/
theorem Dev.rd_wr_other (d : Dev) (k j v : Nat) (h : j ≠ k) : (d.wr k v).rd j = d.rd j := tabGet_set_other _ _ _ _ _ _ h

/-- A write of a list of objects leaves an object that it does not list. -/
theorem Dev.rd_wrs_other (d : Dev) (l : List (Nat × Nat)) (j : Nat) (h : ∀ p ∈ l, j ≠ p.1) : (d.wrs l).rd j = d.rd j := by
  unfold Dev.wrs
  induction l generalizing d with
  | nil => rfl
  | cons p l ih =>
    rw [List.foldl_cons, ih _ fun q hq => h q (List.mem_cons_of_mem _ hq)]
    exact Dev.rd_wr_other _ _ _ _ (h p List.mem_cons_self)

/-- What an object reads does not depend on another field. -/
theorem Dev.rd_congr {d e : Dev} (h : d.objs = e.objs) (k : Nat) : d.rd k = e.rd k := by unfold Dev.rd; rw [h]

/-- A thread reads what was written to it, and a write of one thread leaves the others. -/
@[simp] theorem Dev.thread_setThread_self (d : Dev) (n : Nat) (t : Thread) : (d.setThread n t).thread n = t :=
  tabGet_set_self ..

theorem Dev.thread_setThread_other (d : Dev) (n m : Nat) (t : Thread) (h : m ≠ n) :
    (d.setThread n t).thread m = d.thread m := tabGet_set_other _ _ _ _ _ _ h

/-- A core reads what was written to it, and a write of one core leaves the others. -/
@[simp] theorem Dev.core_setCore_self (d : Dev) (c : Nat) (k : DspCore) : (d.setCore c k).core c = k := tabGet_set_self ..

theorem Dev.core_setCore_other (d : Dev) (c b : Nat) (k : DspCore) (h : b ≠ c) : (d.setCore c k).core b = d.core b :=
  tabGet_set_other _ _ _ _ _ _ h

/-- Bytes written are read back, and the others stand; both writes keep the canonical form. -/
theorem ddrGet_ddrWrite_self (m : List Host.Cell) (a k : Nat) (l : List Byte) (h : k < l.length) :
    ddrGet (ddrWrite m a l) (a + k) = l[k] := tabGet_fill_self _ _ _ _ _ h

theorem ddrGet_ddrWrite_other (m : List Host.Cell) (a b : Nat) (l : List Byte) (h : b < a ∨ a + l.length ≤ b) :
    ddrGet (ddrWrite m a l) b = ddrGet m b := tabGet_fill_other _ _ _ _ _ _ h

theorem ddrPut_wf {m : List Host.Cell} (a : Nat) (v : Byte) (h : Memory.wf m) : Memory.wf (ddrPut m a v) := tabSet_wf a v h

theorem ddrWrite_wf {m : List Host.Cell} (a : Nat) (l : List Byte) (h : Memory.wf m) : Memory.wf (ddrWrite m a l) :=
  tabFill_wf a l h

end Sys2Proof.Machine
end

