-- ==== Sys2Proof/Laws/Qop.lean ====
section
/-! SUPPORT. The QOP server: what a request does at each of its gates, said once for every command. -/

namespace Sys2Proof.Machine

@[simp] theorem Dev.take_role (d : Dev) (r : Req) (i : Nat) : (d.take r).role i = d.role i := rfl

@[simp] theorem Dev.take_rd (d : Dev) (r : Req) (k : Nat) : (d.take r).rd k = d.rd k := rfl

/-- Of the QOP server, taking a request changes the records of its identity alone. -/
@[simp] theorem Dev.take_draft (d : Dev) (r : Req) : (d.take r).qop.draft = d.qop.draft := rfl
@[simp] theorem Dev.take_loads (d : Dev) (r : Req) : (d.take r).qop.loads = d.qop.loads := rfl
@[simp] theorem Dev.take_commit (d : Dev) (r : Req) : (d.take r).qop.commit = d.qop.commit := rfl
@[simp] theorem Dev.take_deferred (d : Dev) (r : Req) : (d.take r).qop.deferred = d.qop.deferred := rfl
@[simp] theorem Dev.take_last (d : Dev) (r : Req) : (d.take r).qop.last = d.qop.last := rfl
@[simp] theorem Dev.take_nextHandle (d : Dev) (r : Req) : (d.take r).qop.nextHandle = d.qop.nextHandle := rfl
@[simp] theorem Dev.take_load? (d : Dev) (r : Req) (h : Nat) : (d.take r).load? h = d.load? h := rfl
@[simp] theorem Dev.take_job (d : Dev) (r : Req) (q : Nat) : (d.take r).job q = d.job q := rfl

/-- An identity reads what was written to it, and a write of one identity leaves the others. -/
@[simp] theorem Dev.ident_setIdent_self (d : Dev) (i : Nat) (x : Ident) : (d.setIdent i x).ident i = x := tabGet_set_self ..

theorem Dev.ident_setIdent_other (d : Dev) (i j : Nat) (x : Ident) (h : j ≠ i) : (d.setIdent i x).ident j = d.ident j :=
  tabGet_set_other _ _ _ _ _ _ h

/-- A request that was taken is not above the highest accepted. -/
theorem Dev.take_high (d : Dev) (r : Req) : r.seq ≤ ((d.take r).ident r.ident).high := by
  unfold Dev.take
  rw [Dev.ident_setIdent_self]
  exact Nat.le_max_right ..

@[simp] theorem Dev.take_key (d : Dev) (r : Req) (i : Nat) : ((d.take r).ident i).key = (d.ident i).key := by
  unfold Dev.take
  by_cases h : i = r.ident
  · subst h; simp
  · rw [Dev.ident_setIdent_other _ _ _ _ h]

/-- A new, authentic request is accepted. -/
theorem Dev.gate_accept {d : Dev} {r : Req} {cmd : Nat} {payload : List Byte} (hd : d.drops r cmd payload = false)
    (hw : r.waiting < 64) (hs : (d.ident r.ident).high < r.seq) : d.gate r cmd payload = .accept := by
  unfold Dev.gate
  simp [hd, hs, Nat.not_le.mpr hw]

/-- An accepted request whose checks of form, role and state pass runs its command on the device with the request taken;
its answer, if it has one now, leaves. -/
theorem Dev.serve_accept {d : Dev} {r : Req} {cmd : Nat} {payload : List Byte} {formOk : Bool}
    {run : Dev → Dev × Option Ans} (ha : d.available = true) (hd : d.drops r cmd payload = false)
    (hw : r.waiting < 64) (hs : (d.ident r.ident).high < r.seq) (hl : r.layoutOk = true)
    (hr : roleAllows (d.role r.ident) r.ident cmd = true) (hst : stateAllows d.state cmd = true) (hf : formOk = true) :
    d.serve r cmd payload formOk run = match (run (d.take r)).2 with
      | some a => ((run (d.take r)).1.inStep1 (d.take r)).settleAnswer r cmd a
      | none => (run (d.take r)).1.inStep1 (d.take r) := by
  have hp : (d.take r).precheck r cmd formOk = stOk := by
    unfold Dev.precheck
    simp [hl, hf, hr, hst, Dev.take_role]
  unfold Dev.serve
  simp only [ha, Dev.gate_accept hd hw hs, hp]
  rfl

/-- An answer that is no STATE_CONFLICT is kept and leaves. -/
theorem Dev.settleAnswer_keep {d : Dev} {r : Req} {cmd : Nat} {a : Ans} (ha : a.status ≠ stStateConflict)
    (hh : r.seq ≤ (d.ident r.ident).high) : d.settleAnswer r cmd a = d.finishReply (d.replyTo r cmd a) := by
  unfold Dev.settleAnswer Dev.answer
  simp [ha, hh]

/-- A reply that leaves while MGMT is up is the last one, tagged with the key of its identity. -/
theorem Dev.finishReply_last {d : Dev} {p : Reply} (h : d.rd 0x281001 = 3) :
    (d.finishReply p).qop.last = some ((d.storeReply p).tagged p) := by
  unfold Dev.finishReply Dev.sendReply
  have : (d.storeReply p).mgmtUp = true := by
    unfold Dev.mgmtUp; rw [Dev.rd_congr (Dev.storeReply_objs ..), h]; rfl
  simp [this]

end Sys2Proof.Machine
end

