-- ==== Sys2Proof/Tests/Slice0.lean ====
section
/-! SUPPORT. Tests: the checks of WellFormed refuse an ill-formed command each; small steps with results worked out by
hand from the manual; and for every statement with hypotheses a theorem wit_<its name>, which shows a concrete state and
operands that meet the hypotheses of each of its clauses. -/

namespace Sys2Proof.Tests

set_option Elab.async false

open Sys2Proof Sys2Proof.Machine Config

/-- A powered, booted device in a state, with MGMT up and objects at values. -/
def dv (st : DState) (o : List (Nat × Nat)) : Dev :=
  o.foldl (fun d p => d.wr p.1 p.2) (({ Dev.reset with state := st, pwr := { up := true, booted := true } } : Dev).wr 0x281001 3)

/-- A machine with a device and no command waiting. -/
def st (d : Dev) : State := { now := d, last := d, pending := [] }

/-- A well-formed, authentic request. -/
def rq (d : Dev) (i q cmd : Nat) (payload : List Byte) : Req :=
  { waiting := 0, ident := i, seq := q, magic := 0x5150, version := 1, lenOk := true, layoutOk := true,
    tag := hmac (d.ident i).key (qopHeader 1 i payload.length q cmd 0 0 0 ++ payload) }

theorem rq_kept {d : Dev} {i q cmd : Nat} {payload : List Byte} (h : (d.role i != 0xFF && q != 0) = true) :
    d.drops (rq d i q cmd payload) cmd payload = false := by
  simp only [Bool.and_eq_true, bne_iff_ne] at h
  simp [Dev.drops, rq, requestFrame, h.1, h.2]

/-- Such a request is served where its role and the device state allow its command. -/
theorem rq_served {d : Dev} {i q cmd : Nat} {payload : List Byte} (h : (d.available && (d.role i != 0xFF && q != 0) &&
    decide ((d.ident i).high < q) && roleAllows (d.role i) i cmd && stateAllows d.state cmd) = true) :
    Served d (rq d i q cmd payload) cmd payload := by
  simp only [Bool.and_eq_true, decide_eq_true_eq] at h
  obtain ⟨⟨⟨⟨h1, h2⟩, h3⟩, h4⟩, h5⟩ := h
  exact ⟨h1, rq_kept (by simpa using h2), Nat.zero_lt_succ 63, h3, rfl, h4, h5⟩

/-- A job's header. -/
def hd : JobHead :=
  { shots := 2, shotLimit := 1000, spoilRetry := 1, startMode := 0, trigInput := 0, calibration := false,
    multiChip := false, gap := 0, startEpoch := 0, window := 0, ljob := 0, chips := 1 }

/-- The sections of a job without content. -/
def noContent : Sections :=
  { canvases := [], program := [], segments := [], pulses := [], samples := [], kernels := [], genDefs := [],
    genBinds := [], streams := [], decisions := [], dsp := [], acq := [], pins := [], calib := [] }

/-- A canvas of a job on a thread. -/
def cp (n : Nat) : CanvasPlace :=
  { canvas := 0, thread := n, tile := n / 64, qubit := 0, driveSlot := some 0, readSlot := some 0, flux := [], mask := 0 }

/-- A resident job in state `s` on thread 0. -/
def jb (s : JobState) (ph : Phase) : Job :=
  { slot := 0, seq := 1, st := s, head := hd, content := noContent, phase := ph, held := { canvases := [cp 0] } }

/-- The device with jobs. -/
def withJobs (d : Dev) (l : List Job) : Dev := { d with hub := { d.hub with jobs := l } }

/-! ### Witnesses: the machine and QOP -/

/-- A request of identity 0 with a command and a payload is served. -/
abbrev Sv (d : Dev) (cmd : Nat) (p : List Byte) : Prop := Served d (rq d 0 1 cmd p) cmd p

/-- A device that serves identity 0 in the state of a command. -/
def svs (d : Dev) (cmd : Nat) : Bool :=
  d.available && (d.role 0 != 0xFF && 1 != 0) && decide ((d.ident 0).high < 1) && roleAllows (d.role 0) 0 cmd &&
    stateAllows d.state cmd

theorem sv {d : Dev} {cmd : Nat} {p : List Byte} (h : svs d cmd = true) : Sv d cmd p := rq_served h

/-- A WRITE of one item and a REGISTER_WRITE of it pass their checks. -/
def writeFits (d : Dev) (i : WItem) (w : Row) : Bool :=
  decide (objRow i.idx i.sub = some w) && decide (i.len = w.ty.bytes) && decide (d.writeFault 0 [i] = none) &&
    decide ((d.take (rq d 0 1 0x12 (Machine.WItem.bytes i))).writeFault 0 [i] = none) && svs d 0x12

/-- An open load of 4 bytes, all written. -/
def ld4 (kind target : Nat) : Load :=
  { handle := 7, kind := kind, len := 4, target := target, data := [(0, 1), (1, 2), (2, 3), (3, 4)], closed := kind == 2, used := 0 }

/-- The device with loads. -/
def withLoads (d : Dev) (l : List Load) : Dev := { d with qop := { d.qop with loads := l } }

/-- A container: 64 bytes of header and one directory entry, of no operations. -/
def box : List Byte :=
  le 4 0x424A5A43 ++ le 2 1 ++ le 2 1 ++ le 8 1 ++ le 8 96 ++ [0, 0, 0, 0] ++ le 4 96 ++ le 8 0 ++ le 4 0 ++ le 4 0 ++
    le 8 0 ++ le 8 0 ++ le 2 2 ++ le 2 0 ++ le 4 0 ++ le 8 0 ++ le 8 0

/-- The device with thread 0. -/
def withThread (d : Dev) (t : Thread) : Dev := { d with eas := { d.eas with threads := [(0, t)] } }

/-- The device with acquisition channel 0. -/
def withAcq (d : Dev) (a : AcqSt) : Dev := { d with acq := [(0, a)] }

/-- A black-box record that is kept. -/
def bb1 : BBRec :=
  { btype := 1, frozen := true, ukind := 0, no := 1, epoch := 0, wall := none, uidx := 0, cause := 0, job := 0, shot := 0,
    payload := [], dstate := 1, boot := 1 }

/-- An operation header of zeros. -/
def h0 : Hdr := { tm := 0, adv := false, vdt := false, vix := 0, dt := 0 }

/-- Thread 0. -/
def x0 : CtxRef := { n := 0, path := none }

/-- A context that stands at an operation. -/
def cAt (op : COp) : Ctx := { queue := [(0, encodeOp op)] }

/-- Thread 0 stands at an operation. -/
def dAt (op : COp) (t : Thread := {}) : Dev := withThread (dv .running []) { t with active := true, main := cAt op }

theorem at_op (op : COp) : AtOp (dAt op) x0 op (cAt op) :=
  ⟨rfl, by simp [Dev.canIssue, dAt, withThread, Dev.thread, tabGet, x0, cAt, Dev.shotTick, Dev.jobOfThread]; rfl, rfl, rfl, rfl,
    rfl, rfl, rfl, Nat.zero_le _, Nat.zero_lt_succ _, (show (0 : Nat) < 2 ^ 63 from Nat.zero_lt_succ _)⟩

/-- A context in a micro-routine at word 0x3000. -/
def cW : Ctx := { running := true, mic := { mpc := 0x3000, s := [(0, 5), (1, 3)] } }

/-- Thread 0 runs a micro-routine at a word of the customer store. -/
def dW (w : W192) (c : Ctx := cW) : Dev :=
  { withThread (dv .running []) { active := true, main := c } with
    eas := { threads := [(0, { active := true, main := c })], cust := [(0, w)] } }

/-- A microword from its fields, as (lowest bit, value). -/
def mw (l : List (Nat × Nat)) : W192 := BitVec.ofNat 192 ((l.map fun p => p.2 * 2 ^ p.1).sum)

/-- An entry of the launch queue that is due now. -/
def le0 (k : LKind) (op : COp) : LEntry :=
  { kind := k, w := entryBody k (encodeOp op), req := 1000, tick := 1000, late := false, path := none, ord := 0 }

/-- A job that plays on thread 0, and an entry of thread 0 that is due. -/
def dL (e : LEntry) (o : List (Nat × Nat) := []) : Dev :=
  withJobs (withThread { dv .running o with epoch := 1000 } { active := true, launch := [e] })
    [{ jb .running .shot with held := { canvases := [{ cp 0 with flux := [767] }] } }]

/-- A stroke of thread 0 from tick 900 to 1100, of two plays of 100 ticks. -/
def sk0 : Stroke :=
  { n := 0, start := 900, fine := 0, plays := [(900, 0, 2, 100)], endTick := 1100, amp := 0x4000, pofs := 0, frame := 0,
    isRead := false, jump := none, muted := none, ord := 0 }

/-- The device with a stroke on drive slot 0. -/
def withStroke (d : Dev) (k : Stroke) : Dev := d.setStroke (.drive 0) (some k)

/-- A window of thread 0 of two samples at time 0. -/
def wn0 : Win :=
  { n := 0, launch := 0, job := 1, shot := 0, ksel := 0, dtag := 0, seq := 0, first := 0, count := 2, taps := 0 }

/-- The device at a tick with windows on readout slot 0. -/
def withWins (d : Dev) (l : List Win) : Dev := { d with epoch := 1000, rx := { slots := [(0, { wins := l })] } }

/-- A cell that arrives in order on link 11 without error. -/
def ce : CellHdr := { link := 11, cseq := 0, ackSeq := 0, ackValid := false, good := true }

/-- A device whose link 11 is up, with the link's own state. -/
def withLink (l : Link) (o : List (Nat × Nat) := []) : Dev :=
  { dv .running ((unitKey 0x240001 11, 4) :: o) with ser := { links := [(11, l)] } }

/-- Core 0 runs with an instruction word at PC, from its fields as (lowest bit, value). -/
def dC (l : List (Nat × Nat)) (k : DspCore := {}) (o : List (Nat × Nat) := []) : Dev :=
  { dv .running ((unitKey 0x580001 0, 1) :: o) with
    dsp := [(0, { k with pm := [(k.pc, BitVec.ofNat 64 ((l.map fun p => p.2 * 2 ^ p.1).sum))] })] }

/-- The operand fields of that word. -/
def wC (l : List (Nat × Nat)) : DWord := dspWord (BitVec.ofNat 64 ((l.map fun p => p.2 * 2 ^ p.1).sum))

/-- A window entry of kind DECIDE. -/
def en0 : WEntry := { slot := 0, launch := 0, i := 5, q := 7, tag := BitVec.ofNat 192 (2 ^ 56), job := 1, shot := 0 }

/-- An authentic acknowledgement of identity 0. -/
def ack (d : Dev) (count : Nat) (pairs : List (Nat × Nat)) : Req :=
  let r : Req := { waiting := 0, ident := 0, seq := 0, magic := 0x5152, version := 1, lenOk := true, layoutOk := true, tag := 0 }
  { r with tag := hmac (d.ident 0).key (ackPacket r count pairs) }

theorem ack_kept {d : Dev} {p : Nat × Nat} (h : (d.role 0 != 0xFF) = true) : d.dropsAck (ack d 1 [p]) 1 [p] = false := by
  simp only [bne_iff_ne] at h
  simp [Dev.dropsAck, ack, ackPacket, h]

/-- A final attempt of shot 0, sent on flow 8. -/
def at0 : Attempt :=
  { shot := 0, attempt := 1, start := 0, spoiled := false, rerun := false, cancelled := false, wall := none, recs := [],
    flows := [8], sentFlows := [8], sentAt := some 0 }

/-- A multi-chip job of chips 0 and 1. -/
def jm (s : JobState) (ph : Phase) : Job :=
  { jb s ph with head := { hd with multiChip := true, ljob := 9, chips := 3 } }

/-- A beat of term 5 of rank 1. -/
def bt : BeatMsg :=
  { slot := 1500, term := 5, root := 3, rank := 1, path := false, release := false, hops := 0, lease := 9000, accDelay := 0, latticeId := 0 }

/-- A device with link 11 up, as its primary spine link, in a lattice state. -/
def dLat (l : Machine.Lat) (o : List (Nat × Nat) := []) : Dev :=
  { dv .primed ([(unitKey 0x240001 11, 4), (0x201003, 11), (0x201004, 0xFF)] ++ o) with lat := l, epoch := 1500 }

theorem wit_StepKeepsMemoryCanonical : ∃ t, (st { dv .primed [] with ddr := [(5, 7)] }).wf ∧
    step (st { dv .primed [] with ddr := [(5, 7)] }) = .next t :=
  ⟨_, by unfold State.wf; decide +kernel, rfl⟩

theorem wit_StepRunsTheFrontCommand : State.reset.pending = [] := rfl

theorem wit_MemoryFrame : ∃ t, touchesDdr .pllLock = false ∧ exec .pllLock State.reset = .next t := ⟨_, rfl, rfl⟩

theorem wit_RequestsNotServed :
    (dv .primed []).available = true ∧ (dv .primed []).drops { rq (dv .primed []) 0 1 1 [] with magic := 0 } 1 [] = true ∧
    (dv .primed []).drops { rq (dv .primed []) 0 1 1 [] with waiting := 64 } 1 [] = false ∧
    (∃ d : Dev, d.available = true ∧ d.drops (rq d 0 1 1 []) 1 [] = false ∧ 1 + 64 < (d.ident 0).high) ∧
    (∃ (d : Dev) (p : Reply), d.available = true ∧ d.drops (rq d 0 1 1 []) 1 [] = false ∧ 1 ≤ (d.ident 0).high ∧
      (d.ident 0).high ≤ 1 + 64 ∧ (d.ident 0).stored.find? (fun q => q.seq == 1) = some p) :=
  ⟨by decide +kernel, by simp [Dev.drops, rq],
    by simpa [Dev.drops, rq, requestFrame] using
      rq_kept (d := dv .primed []) (i := 0) (q := 1) (cmd := 1) (payload := []) (by decide +kernel),
    ⟨(dv .primed []).setIdent 0 { high := 66 }, by decide +kernel, rq_kept (by decide +kernel), by decide +kernel⟩,
    ⟨(dv .primed []).setIdent 0 { high := 65, stored := [{ ident := 0, seq := 1, cmd := 1, status := 0, dstate := 1, epoch := 0, payload := [] }] }, _,
      by decide +kernel, rq_kept (by decide +kernel), by decide +kernel, by decide +kernel, rfl⟩⟩

theorem wit_QueriesAnswer :
    Sv (dv .cold []) 0x01 [] ∧
    (([(0x1001, 1)].all fun i => readable (dv .primed []).state i.1) = true ∧
      Sv (dv .primed []) 0x10 ([(0x1001, 1)].flatMap fun i => le 2 i.1 ++ le 1 i.2 ++ le 1 0)) ∧
    (readable (dv .primed []).state 0x1001 = true ∧ objRow 0x1001 1 = some ⟨0x1001, 0x1001, 1, 1, .u8, .ro, 0, none⟩ ∧
      0 < ((dv .primed []).readBytes 0 0 0x1001 1 ⟨0x1001, 0x1001, 1, 1, .u8, .ro, 0, none⟩).length ∧
      Sv (dv .primed []) 0x11 (le 2 0x1001 ++ le 1 1 ++ le 4 0 ++ le 2 1392)) ∧
    Sv (dv .primed []) 0x24 (le 8 0 ++ le 2 1392) ∧
    (∃ j, (withJobs (dv .running []) [jb .running .shot]).job 1 = some j ∧
      Sv (withJobs (dv .running []) [jb .running .shot]) 0x35 (le 8 1)) :=
  ⟨sv (by decide +kernel), ⟨by decide +kernel, sv (by decide +kernel)⟩,
    ⟨by decide +kernel, by decide +kernel, by decide +kernel, sv (by decide +kernel)⟩, sv (by decide +kernel),
    ⟨_, rfl, sv (by decide +kernel)⟩⟩

/-- An RW, an RS, a set and a WO object. -/
theorem wit_WritesTakeEffect :
    writeFits (dv .primed []) ⟨0x2000, 5, 1, 1⟩ ⟨0x2000, 0x2000, 5, 5, .bool, .rw, 0, some (0, 1)⟩ = true ∧
    writeFits (dv .primed []) ⟨0x2000, 2, 1, 1⟩ ⟨0x2000, 0x2000, 2, 2, .u8, .rs, 0, some (0, 1)⟩ = true ∧
    writeFits (dv .primed [(0x200004, 3)]) ⟨0x2000, 4, 4, 1⟩ ⟨0x2000, 0x2000, 4, 4, .u32, .set, 0, none⟩ = true ∧
    writeFits (dv .primed []) ⟨0x7100, 1, 1, 5⟩ ⟨0x7100, 0x7100, 1, 1, .u8, .wo, 0, none⟩ = true ∧
    writeMask (objKey 0x2000 5) = none ∧ (Machine.WItem.bytes ⟨0x2000, 5, 1, 1⟩).length ≤ 1404 ∧ Sv (dv .primed []) 0x12 (Machine.WItem.bytes ⟨0x2000, 5, 1, 1⟩) :=
  ⟨by decide +kernel, by decide +kernel, by decide +kernel, by decide +kernel, by decide +kernel, by decide, sv (by decide +kernel)⟩

/-- The device with an open draft. -/
def withDraft (d : Dev) (l : List Staged) : Dev := { d with qop := { d.qop with draft := l } }

/-- A staged word of flux channel 767. -/
def sf : Staged := { key := unitKey 0x340002 767, val := 1, len := 2 }

/-- A running job holds that channel, and the draft has 4,097 words for it. -/
def dBig : Dev := withDraft (withJobs (dv .running []) [{ jb .running .shot with held := { flux := [767] } }]) [{ sf with len := 32776 }]

theorem draft_too_large : ((dBig.splitDraft dBig.qop.draft).jobs.any fun w => decide (4096 < draftWords w.items)) = true := by
  have e : ((dBig.holderOf sf.key).bind fun j => if j.st = .running ∨ j.st = .draining then some j.slot else none) = some 0 := by
    decide +kernel
  have l : dBig.qop.draft = [{ sf with len := 32776 }] := rfl
  simp [Dev.splitDraft, l, e, draftWords, Staged.words, ceilDiv]

/-- An empty draft, one of a word, one too large for a running job, and a commit that is pending. -/
theorem wit_DraftCommands :
    (∀ l ∈ [[], [sf]], let d := withDraft (dv .primed []) l;
      d.qop.commit = none ∧ d.commitBreach d.qop.draft = none ∧
        ((d.splitDraft d.qop.draft).jobs.any fun w => decide (4096 < draftWords w.items)) = false ∧ svs d 0x13 = true) ∧
    (dBig.qop.commit = none ∧ dBig.commitBreach dBig.qop.draft = none ∧ svs dBig 0x13 = true) ∧
    (let d : Dev := { dv .primed [] with qop := { commit := some { refuse := false, others := [sf], jobs := [] } } };
      d.qop.commit = some { refuse := false, others := [sf], jobs := [] } ∧ svs d 0x13 = true ∧ svs d 0x14 = true ∧
        (objRow (sf.key / 256) (sf.key % 256)).map (·.acc) = some .rs) ∧
    (∀ d : Dev, ∀ p : List Byte, svs d 0x13 = true → Sv d 0x13 p) :=
  ⟨by decide +kernel, by decide +kernel, by decide +kernel, fun _ _ => sv⟩

theorem wit_LoadCommands :
    ((dv .primed []).qop.loads.length < 8 ∧ ((dv .primed []).qop.loads.map (·.len)).sum + 2 ^ 29 ≤ 2 ^ 29 ∧
      Sv (dv .primed []) 0x20 (le 1 3 ++ le 8 (2 ^ 29) ++ loadTarget 3 0)) ∧
    (∃ l, (withLoads (dv .primed []) [ld4 3 0]).load? 7 = some l ∧ l.closed = false ∧ 3 + 1 ≤ l.len ∧
      Sv (withLoads (dv .primed []) [ld4 3 0]) 0x21 (le 2 7 ++ le 4 3 ++ [9])) ∧
    (∃ l, (withLoads (dv .primed []) [ld4 3 0]).load? 7 = some l ∧ Sv (withLoads (dv .primed []) [ld4 3 0]) 0x23 (le 2 7)) ∧
    (∃ l, (withLoads { dv .primed [] with epoch := 7500000000 } [ld4 3 0]).load? 7 = some l ∧ l.used + 7500000000 ≤ 7500000000) :=
  ⟨⟨by decide +kernel, by decide +kernel, sv (by decide +kernel)⟩, ⟨_, rfl, rfl, by decide, sv (by decide +kernel)⟩,
    ⟨_, rfl, sv (by decide +kernel)⟩, ⟨_, rfl, by decide⟩⟩

theorem wit_StoresToDdr :
    ((withLoads (dv .primed []) [ld4 3 4096]).load? 7 = some (ld4 3 4096) ∧ (ld4 3 4096).complete = true ∧
      crc32 (ld4 3 4096).bytes = 0xB63CFBCD ∧ (withLoads (dv .primed []) [ld4 3 4096]).streamOverlap 4096 4 = false ∧
      Sv (withLoads (dv .primed []) [ld4 3 4096]) 0x22 (le 2 7 ++ le 4 0xB63CFBCD)) ∧
    ((dv .primed []).chip ≤ 63 ∧ (dv .primed []).streamOverlap 64 32 = false ∧
      Sv (dv .primed []) 0x51 (le 1 (dv .primed []).chip ++ le 8 0 ++ le 8 64 ++ le 8 32)) :=
  ⟨⟨rfl, by decide +kernel, by decide +kernel, by decide +kernel, sv (by decide +kernel)⟩, by decide +kernel,
    by decide +kernel, sv (by decide +kernel)⟩

/-- A container; a job in mode HOST, without a start and with one. -/
theorem wit_JobRequests :
    (∃ l, (withLoads (dv .primed []) [{ ld4 2 0 with len := 88, data := tabFill 0 [] 0 (box.map (·.toNat)) }]).load? 7 = some l ∧
      l.kind = 2 ∧ l.closed = true ∧ containerOk l.bytes = true ∧
      Sv (withLoads (dv .primed []) [{ ld4 2 0 with len := 88, data := tabFill 0 [] 0 (box.map (·.toNat)) }]) 0x30 (le 2 7)) ∧
    (∀ a ∈ [none, some 45], let j := { jb .armed .waiting with head := { hd with startMode := 1 }, nextStart := a };
      let d := withJobs (dv .armed []) [j];
      (d.job 1 = some j ∧ j.st = .armed ∧ j.head.startMode = 1 ∧ j.head.multiChip = false ∧ d.lat.st ≠ .root ∧
        (d.canSeek j = true ↔ a = none) ∧ j.windowOpen = true ∧ j.phase = .waiting) ∧
        d.rd 0x18000C < Config.resultSpace ∧ Sv d 0x31 (le 8 1)) :=
  ⟨⟨_, rfl, rfl, rfl, by decide +kernel, sv (by decide +kernel)⟩, fun a h => ⟨by revert a; decide +kernel,
    Nat.lt_of_le_of_lt (Nat.le_of_eq (by revert a; decide +kernel)) (Nat.succ_pos _), sv (by revert a; decide +kernel)⟩⟩

/-- HALT and CANCEL in a shot, after it and between shots; RESUME of a HALTED job that has started and that has not; CANCEL before
placement; HALT of every job; commands for a job of two chips. -/
theorem wit_JobRequests_commands :
    (∀ ph ∈ [Phase.shot, .drained, .boundary], let j := jb .running ph; let d := withJobs (dv .running []) [j];
      (d.job 1 = some j ∧ j.st = .running ∧ j.takesCancel = true ∧ j.st.resident = true ∧ j.head.multiChip = false ∧ j.phase = ph ∧
        d.resident.filter Job.takesHalt = [j]) ∧ Sv d 0x32 (le 8 1) ∧ Sv d 0x34 (le 8 1) ∧ Sv d 0x32 (le 8 (2 ^ 64 - 1))) ∧
    (∀ b ∈ [true, false], let j := { jb .halted .waiting with started := b }; let d := withJobs (dv .halted []) [j];
      (d.job 1 = some j ∧ j.st = .halted ∧ j.head.multiChip = false ∧ j.head.startMode ≠ 2 ∧ d.canSeek { j with st := .armed } = true ∧
        j.windowOpen = true) ∧ d.rd 0x18000C < Config.resultSpace ∧ Sv d 0x33 (le 8 1)) ∧
    (let j := jb .accepted .waiting; let d := withJobs (dv .primed []) [j];
      (d.job 1 = some j ∧ j.takesCancel = true ∧ j.head.multiChip = false ∧ j.st = .accepted) ∧ Sv d 0x34 (le 8 1)) ∧
    (let j := jm .running .shot; let d := withJobs (dv .running []) [j];
      (d.job 1 = some j ∧ j.head.multiChip = true ∧ j.takesHalt = true ∧ j.takesCancel = true) ∧ Sv d 0x32 (le 8 1) ∧ Sv d 0x34 (le 8 1)) ∧
    (let j := jm .halted .waiting; let d := withJobs (dv .halted []) [j];
      (d.job 1 = some j ∧ j.head.multiChip = true ∧ j.takesResume = true) ∧ Sv d 0x33 (le 8 1)) :=
  ⟨fun ph h => ⟨by revert ph; decide +kernel, sv (by revert ph; decide +kernel), sv (by revert ph; decide +kernel),
      sv (by revert ph; decide +kernel)⟩,
    fun b h => ⟨by revert b; decide +kernel, Nat.lt_of_le_of_lt (Nat.le_of_eq (by revert b; decide +kernel)) (Nat.succ_pos _),
      sv (by revert b; decide +kernel)⟩,
    ⟨by decide +kernel, sv (by decide +kernel)⟩, ⟨by decide +kernel, sv (by decide +kernel), sv (by decide +kernel)⟩,
    ⟨by decide +kernel, sv (by decide +kernel)⟩⟩

theorem wit_CountersAndKeys : Sv (dv .primed []) 0x45 (le 2 0xF000 ++ le 2 0xFFFF) ∧
    Sv (dv .primed []) 0x50 (le 1 3 ++ le 7 0 ++ le 40 1) :=
  ⟨sv (by decide +kernel), sv (by decide +kernel)⟩

theorem wit_StateRequests :
    ((dv .cold []).pwr.upFail = false ∧ Sv (dv .cold []) 0x40 []) ∧ Sv (dv .faulted []) 0x41 [] ∧ Sv (dv .primed []) 0x42 [] ∧
    Sv (dv .asleep []) 0x43 [] ∧ (∀ k ∈ [0, 1, 2, 3], Sv (dv .cold []) 0x44 (le 1 k)) ∧
    (((dv .cold []).resident.flatMap fun j => j.held.flux).contains 767 = false) :=
  ⟨⟨rfl, sv (by decide +kernel)⟩, sv (by decide +kernel), sv (by decide +kernel), sv (by decide +kernel),
    fun _ _ => sv (by decide +kernel), by decide +kernel⟩

theorem wit_CustomerStoreLoads :
    (dv .primed []).state = .primed ∧ custCheck 98304 (List.replicate 4096 0) = none ∧ custCheck 98304 [] = some (0, 1) ∧
      (dv .armed []).state ≠ .primed :=
  ⟨rfl, by decide +kernel, by decide +kernel, by decide⟩

theorem wit_AcquisitionCommands :
    (dv .primed [(unitKey 0x510001 127, 2)]).armStatus 127 = 0 ∧
    (let d := withAcq (dv .primed []) {}; d.rd (unitKey 0x510015 0) = 0xFFFF ∧ (d.acqSt 0).run = none) ∧
    (let d := withAcq (dv .primed []) { run := some { idx := 0, causes := [], disarm := false } };
      d.rd (unitKey 0x510015 0) = 0xFFFF ∧ (d.acqSt 0).run = some { idx := 0, causes := [], disarm := false }) ∧
    (let d := dv .primed [(unitKey 0x51000A 0, 2 ^ 13), (unitKey 0x510013 0, 1)];
      d.rd (unitKey 0x510015 0) = 0xFFFF ∧ d.bit (unitKey 0x51000A 0) 13 = true ∧ d.acqState 0 = 1) ∧
    (dv .primed [(unitKey 0x510015 0, 0)]).rd (unitKey 0x510015 0) ≠ 0xFFFF := by decide +kernel

theorem wit_HostWritesOfUnits : (let t := (withThread (dv .running []) { active := true }).thread 0;
    t.active = true ∧ t.ended = false ∧ t.traps.contains 2 = false) := by decide +kernel

theorem wit_LaneCommands :
    (dv .primed []).prbsOk 64 = false ∧ (dv .primed [(0x281002, 0)]).prbsOk 64 = true ∧
    (dv .primed [(unitKey 0x240001 11, 4)]).gzInjectOk 11 = true ∧ (dv .primed []).gzInjectOk 11 = false ∧
    (dv .primed [(unitKey 0x240001 11, 4)]).rd (unitKey 0x240001 11) = 4 ∧ ∀ k ∈ [1, 2, 3], (dv .primed [(portKey 3 1, k)]).rd (portKey 3 1) = k := by
  decide +kernel

theorem wit_StoredConfiguration : ((dv .primed []).state = .primed ∧ (dv .primed []).qop.commit = none ∧
      (dv .primed []).rd 0x101003 ≠ 3) ∧ (dv .armed []).state ≠ .primed ∧
    ({ dv .primed [] with qop := { commit := some { refuse := true, others := [], jobs := [] } } } : Dev).qop.commit ≠ none ∧
    (dv .primed [(0x101003, 3)]).rd 0x101003 = 3 ∧
    (∃ l, ({ dv .primed [] with qop := { cfgSaving := some [] } } : Dev).qop.cfgSaving = some l) :=
  ⟨by decide +kernel, by decide +kernel, by decide +kernel, by decide +kernel, ⟨_, rfl⟩⟩

theorem wit_LedgerAndBlackBoxRelease :
    (let d := withJobs (dv .primed []) [jb .stopped .waiting]; ∃ j, d.job 1 = some j ∧ j.st = .stopped) ∧
    (((withJobs (dv .primed []) []).job 1).map (·.st)) ≠ some .stopped ∧
    (({ dv .primed [] with hub := { bb := [bb1] } } : Dev).hub.bb.any fun r => r.no == 1 && r.frozen) = true :=
  ⟨⟨_, rfl, rfl⟩, by decide +kernel, by decide +kernel⟩

theorem wit_RegisterOperations :
    AtOp (dAt (.nop h0)) x0 (.nop h0) (cAt (.nop h0)) ∧ AtOp (dAt (.setv h0 15 1)) x0 (.setv h0 15 1) (cAt (.setv h0 15 1)) ∧
    AtOp (dAt (.addv h0 15 1)) x0 (.addv h0 15 1) (cAt (.addv h0 15 1)) ∧
    AtOp (dAt (.greset h0 31)) x0 (.greset h0 31) (cAt (.greset h0 31)) ∧
    AtOp (dAt (.goto h0 9)) x0 (.goto h0 9) (cAt (.goto h0 9)) ∧
    AtOp (dAt (.loop h0 15 0xFFFF)) x0 (.loop h0 15 0xFFFF) (cAt (.loop h0 15 0xFFFF)) ∧
    (cAt (.loop h0 15 0xFFFF)).vr 15 ≠ 1 ∧ ({ cAt (.loop h0 15 0xFFFF) with v := [(15, 1)] } : Ctx).vr 15 = 1 :=
  ⟨at_op _, at_op _, at_op _, at_op _, at_op _, at_op _, by decide, by decide⟩

theorem wit_TimeAndHoldOperations :
    AtOp (dAt (.wait h0)) x0 (.wait h0) (cAt (.wait h0)) ∧
    AtOp (dAt (.waituntil h0 9)) x0 (.waituntil h0 9) (cAt (.waituntil h0 9)) ∧
    (AtOp (dAt (.barrier h0 3)) x0 (.barrier h0 3) (cAt (.barrier h0 3)) ∧ 1 ∈ maskThreads 0 3 ∧
      ((dAt (.barrier h0 3)).thread 1).arrived = false) ∧
    (AtOp (dAt (.barrier h0 1)) x0 (.barrier h0 1) (cAt (.barrier h0 1)) ∧ maskThreads 0 1 = [0] ∧
      ((dAt (.barrier h0 1)).thread 0).paths = []) ∧
    (AtOp (dAt (.waitev h0 15)) x0 (.waitev h0 15) (cAt (.waitev h0 15)) ∧
      ((dAt (.waitev h0 15)).lineSt (canvasLine 0 15)).lastFire ≠ some 0) ∧
    (let d := { dAt (.waitev h0 0) with ev := { lines := [(canvasLine 0 0, { lastFire := some 0 })] } };
      AtOp d x0 (.waitev h0 0) (cAt (.waitev h0 0)) ∧ (d.lineSt (canvasLine 0 0)).lastFire = some d.epoch) ∧
    AtOp (dAt (.branch h0 15 false 0 1 2 3)) x0 (.branch h0 15 false 0 1 2 3) (cAt (.branch h0 15 false 0 1 2 3)) ∧
    AtOp (dAt (.endc h0)) x0 (.endc h0) (cAt (.endc h0)) ∧
    (let d := (dAt (.customer h0 63 0)).wr (0x444101 + 63) 0x3000;
      d.rd (0x444101 + 63) ≠ 0 ∧ AtOp d x0 (.customer h0 63 0) (cAt (.customer h0 63 0))) ∧
    (let d := withJobs (dAt (.nop h0)) [{ jb .running .shot with held := { canvases := [cp 0], regions := [(0, 0, 0, 9)] } }];
      (d.thread 0).ctx none = some (cAt (.nop h0)) ∧ (d.thread 0).active = true ∧ (d.thread 0).ended = false ∧
        d.shotTick 0 ≤ d.epoch + 96 ∧ (d.thread 0).hasPlace (cAt (.nop h0)) 1 (tabGet 0 d.eas.desc 1) = true ∧ (cAt (.nop h0)).wanted.contains 1 = true ∧
        (cAt (.nop h0)).opAt 1 = none ∧ d.inRegion 0 0 1 = true) :=
  ⟨at_op _, at_op _, ⟨at_op _, by decide, by decide +kernel⟩, ⟨at_op _, by decide, rfl⟩, ⟨at_op _, by decide +kernel⟩,
    by unfold AtOp; decide +kernel, at_op _, at_op _, by unfold AtOp; decide +kernel, by decide +kernel⟩

theorem wit_SketchBranch :
    AtOp (dAt (.branch h0 0 true 1 1 2 3)) x0 (.branch h0 0 true 1 1 2 3) (cAt (.branch h0 0 true 1 1 2 3)) ∧
    ((dAt (.branch h0 0 true 1 1 2 3)).thread 0).full (cAt (.branch h0 0 true 1 1 2 3)) 0 = none ∧
    ((dAt (.branch h0 0 true 1 1 2 3)).thread 0).branches.length < 2 ∧
    ((dAt (.branch h0 0 true 1 1 2 3)).thread 0).paths.length +
      ((([1, 1, 2, 3] : List (BitVec 16)).map (cAt (.branch h0 0 true 1 1 2 3)).target).dedup).length ≤ 4 ∧
    (let d := dAt (.branch h0 0 true 1 1 2 3) { handles := [(0, some { outcome := 3, seq := 0, forced := false, dsp := false, at_ := 0 })] };
      AtOp d x0 (.branch h0 0 true 1 1 2 3) (cAt (.branch h0 0 true 1 1 2 3)) ∧
        (d.thread 0).full (cAt (.branch h0 0 true 1 1 2 3)) 0 = some { outcome := 3, seq := 0, forced := false, dsp := false, at_ := 0 }) ∧
    (let p : SPath := { id := 1, branch := 0, parent := none, outs := [0], ctx := cAt (.branch h0 0 true 1 1 2 3) };
      let d := dAt (.branch h0 0 true 1 1 2 3) { paths := [p, { p with id := 2 }]
                                                 branches := [{ id := 0, h := 1, tb := 0, targets := [0, 1], parent := none, saved := {} }] } ;
      AtOp d { n := 0, path := some 1 } (.branch h0 0 true 1 1 2 3) (cAt (.branch h0 0 true 1 1 2 3)) ∧
        (d.thread 0).full (cAt (.branch h0 0 true 1 1 2 3)) 0 = none ∧ 4 < (d.thread 0).paths.length +
          ((([1, 1, 2, 3] : List (BitVec 16)).map (cAt (.branch h0 0 true 1 1 2 3)).target).dedup).length) :=
  ⟨at_op _, by decide +kernel, by decide +kernel, by decide +kernel, by unfold AtOp; decide +kernel,
    by unfold AtOp; decide +kernel⟩

/-- An operation of each kind that issues one launch entry. -/
def launchOps : List (COp × LKind) :=
  [(.play h0 15 false 0 1 2 3 1 31, .stroke), (.read h0 false 0 1 2 64 1 15 255, .read), (.fluxhold h0 15 1, .fluxhold),
   (.fshift h0 3 true 1, .frame), (.ffreq h0 3 true 1, .frame), (.fphase h0 3 true 1, .frame), (.acqtrig h0 7, .acqtrig),
   (.mark h0 7 7 true, .mark), (.event h0 15, .event), (.jseg h0 15 1, .segjump), (.fshiftv h0 3 true 15, .frame)]

theorem wit_LaunchOperations :
    Issues x0 (cAt (.event h0 15)) h0 (.opEvent x0 h0 15) (.event h0 15) .event (entryBody .event (encodeOp (.event h0 15))) ∧
    ∀ p ∈ launchOps, AtOp (dAt p.1) x0 p.1 (cAt p.1) ∧
      (dAt p.1).launchHold 0 ((dAt p.1).launchTick 0 (cAt p.1) h0) = none ∧
      (cAt p.1).issued.contains (p.2, (dAt p.1).launchTick 0 (cAt p.1) h0, entryBody p.2 (encodeOp p.1)) = false :=
  ⟨by simp [Issues], fun p h => ⟨at_op _, by revert p; decide +kernel, rfl⟩⟩

theorem wit_GeneratedAddress : ∃ df, (let o : COp := .play h0 15 true 31 0 2 3 1 31;
    let d := (dAt o).wrs [(unitKey 0x4A0001 0 + 31, 0), (unitKey 0x4C0001 0, 1), (unitKey 0x4C0003 0, 8)];
    d.genDef 0 31 = some df ∧ AtOp d x0 o (cAt o) ∧ d.launchHold 0 (d.launchTick 0 (cAt o) h0) = none ∧
      (cAt o).issued.contains (.stroke, d.launchTick 0 (cAt o) h0, 0) = false) :=
  ⟨{ kind := 1, base := 0, p1 := 8, p2 := 0, p3 := 0, p4 := 0, mode := 0 }, by unfold AtOp; decide +kernel⟩

/-- A bit-field of a stored word below its ECC field. -/
theorem mf_ecc (e : BitVec 9) (v : BitVec 183) (hi lo : Nat) (h : hi < 183) : mf (e ++ v) hi lo = bits v.toNat hi lo := by
  unfold mf bits
  apply Nat.eq_of_testBit_eq
  intro i
  simp only [Nat.testBit_mod_two_pow, Nat.testBit_div_two_pow, BitVec.testBit_toNat, BitVec.getLsbD_append]
  by_cases hi' : i < hi + 1 - lo
  · rw [if_pos (by omega)]
  · simp [hi']

/-- The word at which the thread stands, as the store gives it with its ECC field. -/
def sw (l : List (Nat × Nat)) : W192 := (dW (mw l)).storeWord 0x3000

/-- Its fields are those of the word that was written. -/
theorem sw_field (l : List (Nat × Nat)) {hi lo n : Nat} (h : hi < 183) (e : bits ((mw l).setWidth 183 : BitVec 183).toNat hi lo = n) :
    mf (sw l) hi lo = n := (mf_ecc _ _ hi lo h).trans e

theorem sw_plain {l : List (Nat × Nat)} (h : bits ((mw l).setWidth 183 : BitVec 183).toNat 85 82 = 0 ∧
    bits ((mw l).setWidth 183 : BitVec 183).toNat 99 96 = 0 ∧ bits ((mw l).setWidth 183 : BitVec 183).toNat 113 110 = 0) :
    Plain (sw l) := ⟨sw_field l (by decide) h.1, sw_field l (by decide) h.2.1, sw_field l (by decide) h.2.2⟩

theorem at_word (l : List (Nat × Nat)) : AtWord (dW (mw l)) x0 (sw l) cW :=
  ⟨rfl, rfl, rfl, rfl, rfl, rfl, rfl, rfl, fun _ => rfl⟩

/-- ADD S2, S0, S1 with FW; CMP; and an ADD to V15; and a fetched word with two wrong bits. -/
theorem wit_MicrowordAlu : ∀ l ∈ [[(28, 2), (34, 0), (39, 1), (44, 2), (49, 1)], [(28, 0x10), (34, 0), (39, 1)], [(28, 2), (44, 0x17)]],
    AtWord (dW (mw l)) x0 (sw l) cW ∧ Plain (sw l) ∧ mf (sw l) 19 16 = 0 ∧
      (∀ a b o : W64, (aluResult (mf (sw l) 33 28) a b o).isSome = true) ∧ 1 < microDiff (sw l ^^^ 3) (sw l) := by
  intro l hl
  have e : bits ((mw l).setWidth 183 : BitVec 183).toNat 33 28 = 2 ∨ bits ((mw l).setWidth 183 : BitVec 183).toNat 33 28 = 16 := by
    revert l; decide +kernel
  refine ⟨at_word l, sw_plain (by revert l; decide +kernel), sw_field l (by decide) (by revert l; decide +kernel), ?_, ?_⟩
  · intro a b o
    rcases e with e | e <;> (rw [sw_field l (by decide) e]; rfl)
  · unfold microDiff
    rw [show (sw l ^^^ 3) ^^^ sw l = 3 by rw [BitVec.xor_comm, ← BitVec.xor_assoc, BitVec.xor_self, BitVec.zero_xor]]
    decide +kernel

/-- GOTO, BR on Z, CALL, RET, LOOP, DISPATCH, CALLS, and WAITC. -/
theorem wit_MicrowordSequence :
    (∀ l ∈ [[(16, 1), (2, 0x3001)], [(16, 2), (20, 1), (2, 0x3001)], [(16, 3), (2, 0x3001)], [(16, 5), (2, 0x3001), (26, 3)],
        [(16, 6)], [(16, 7)], [(16, 8), (20, 8), (2, 0x3001)]],
      AtWord (dW (mw l)) x0 (sw l) cW ∧ Plain (sw l) ∧ mf (sw l) 33 28 = 0 ∧
        mf (sw l) 19 16 = bits ((mw l).setWidth 183 : BitVec 183).toNat 19 16 ∧ cW.mic.rstack.length < 2 ∧
        ((dW (mw l)).thread 0).full cW ((cW.sr 3).toNat % 16) = none) ∧
    (let w := mw [(16, 8), (20, 8), (2, 0x3001)]; let c : Ctx := { running := true, waitc := some w };
      let d := withThread (dv .running []) { active := true, main := c, handles := [(0, some { outcome := 1, seq := 0, forced := false, dsp := false, at_ := 0 })] };
      (d.thread 0).ctx none = some c ∧ d.canIssue x0 c = true ∧ mf w 19 16 = 8 ∧ mf w 24 20 = 8 ∧
        ((d.thread 0).full c ((c.sr 3).toNat % 16)).isSome = true) :=
  ⟨fun l hl => ⟨at_word l, sw_plain (by revert l; decide +kernel), sw_field l (by decide) (by revert l; decide +kernel),
    sw_field l (by decide) rfl, by decide, rfl⟩, by decide +kernel⟩

/-- A return address in the stack, and a CALL at depth 2. -/
theorem wit_MicrowordSequence_depth : ∀ l ∈ [[(16, 4)], [(16, 3), (2, 0x3001)]],
    let c : Ctx := { running := true, mic := { mpc := 0x3000, rstack := [0x3005, 0x3006] } };
    AtWord (dW (mw l) c) x0 (sw l) c ∧ Plain (sw l) ∧ mf (sw l) 33 28 = 0 ∧
      mf (sw l) 19 16 = bits ((mw l).setWidth 183 : BitVec 183).toNat 19 16 ∧ 2 ≤ c.mic.rstack.length :=
  fun l hl => ⟨⟨rfl, rfl, rfl, rfl, rfl, rfl, rfl, rfl, fun _ => rfl⟩, sw_plain (by revert l; decide +kernel),
    sw_field l (by decide) (by revert l; decide +kernel), sw_field l (by decide) rfl, by decide⟩

/-- A vendor routine's word with one wrong bit. -/
theorem wit_VendorServices_fetch : let d := withThread (dv .running []) { active := true };
    (d.thread 0).ctx none = some {} ∧ d.canIssue x0 {} = true ∧ ({} : Ctx).running = false ∧ ({} : Ctx).mic.mpc < 0x3000 ∧
      microDiff (d.storeWord 0 ^^^ 1) (d.storeWord 0) = 1 := by
  refine ⟨rfl, by decide +kernel, rfl, by decide, ?_⟩
  unfold microDiff
  rw [show ∀ w : W192, (w ^^^ 1) ^^^ w = 1 from fun w => by
    rw [BitVec.xor_comm, ← BitVec.xor_assoc, BitVec.xor_self, BitVec.zero_xor]]
  decide +kernel

theorem wit_VendorServices :
    (∀ k ∈ [0, 1, 2, 3], let c : Ctx := { running := true, svc := some k, mic := { s := [(3, 15)] } };
      let d := withThread (dv .running []) { active := true, main := c };
      (d.thread 0).ctx none = some c ∧ d.canIssue x0 c = true ∧ (d.thread 0).full c ((c.sr 3).toNat % 16) = none) ∧
    (let c : Ctx := { running := true, svc := some 0, mic := { s := [(3, 15)] } };
      let r : DReg := { outcome := 1, seq := 0, forced := false, dsp := false, at_ := 0 };
      let d := withThread (dv .running []) { active := true, main := c, handles := [(15, some r)] };
      (d.thread 0).ctx none = some c ∧ d.canIssue x0 c = true ∧ (d.thread 0).full c ((c.sr 3).toNat % 16) = some r) := by
  decide +kernel

/-- One wrong bit, and two, in the fetched word of an ADD. -/
theorem wit_MicrowordFetched : microDiff (mw [(28, 2)]) (mw [(28, 2)]) = 0 ∧ microDiff (mw [(28, 3)]) (mw [(28, 2)]) = 1 ∧
    1 < microDiff (mw [(28, 1)]) (mw [(28, 2)]) := by decide +kernel

/-- A trap frame of cause 2. -/
def fr2 : InTrap := { cause := 2 }

/-- A SNAPSHOT at a trap point; TRET in the thread's own context and in a path's, with nothing waiting, with a DRAIN, and with both;
a DATAPATH in a handler. -/
theorem wit_Traps :
    (let d := withThread (dv .running []) { active := true, main := { entry := true }, traps := [2] };
      (d.thread 0).active = true ∧ (d.thread 0).ended = false ∧ (d.thread 0).inTrap = none ∧ (d.thread 0).trapDue = true ∧
        (d.thread 0).main.csBlock = false ∧ d.atTrapPoint 0 = true ∧ (d.thread 0).traps ≠ []) ∧
    (∀ f ∈ [fr2, { fr2 with path := some 1 }],
      let t : Thread := { active := true, inTrap := some f, paths := [{ id := 1, branch := 0, parent := none, outs := [0], ctx := {} }] };
      let d := withThread (dv .running []) t;
      (d.thread 0).inTrap = some f ∧ (d.thread 0).ctx f.path = some {} ∧ ({} : Ctx).csBlock = false ∧ (d.thread 0).traps = [] ∧
        (d.thread 0).active = true ∧ (d.thread 0).ended = false ∧ 0x10 ∉ (d.thread 0).traps) ∧
    (∀ l ∈ [[1], [1, 2]], let d := withThread (dv .running []) { active := true, inTrap := some fr2, main := { entry := true }, traps := l };
      (d.thread 0).inTrap = some fr2 ∧ fr2.path = none ∧ (d.thread 0).main.csBlock = false ∧ (d.thread 0).traps = l ∧
        (d.thread 0).branches = [] ∧ d.atPoint { (d.thread 0).main with mic := fr2.mic } = true) :=
  ⟨by decide +kernel, by decide +kernel, by decide +kernel⟩

/-- A DATAPATH away from a trap point and at one, and in a path; a word under restore; a thread at its SHOT_LIMIT, with and without a
SNAPSHOT that it stands at. -/
theorem wit_Traps_faults :
    (let c : Ctx := { running := true, svc := some 0, chk := some ({}, []) }; let d := withThread (dv .running []) { active := true, main := c };
      (d.thread 0).active = true ∧ (d.thread 0).ended = false ∧ (d.thread 0).inTrap = none ∧ d.atPoint (d.thread 0).main = false ∧
        (d.thread 0).main.running = true ∧ (d.thread 0).main.chk = some ({}, []) ∧ (d.thread 0).main.csBlock = false) ∧
    (let c : Ctx := { running := true, entry := true }; let d := withThread (dv .running []) { active := true, main := c };
      d.atPoint (d.thread 0).main = true ∧ (d.thread 0).main.running = true ∧ (d.thread 0).inTrap = none) ∧
    (let c : Ctx := { entry := true };
      let d := withThread (dv .running []) { active := true, paths := [{ id := 1, branch := 0, parent := none, outs := [0], ctx := c }] };
      (d.thread 0).active = true ∧ (d.thread 0).ended = false ∧ (d.thread 0).inTrap = none ∧ (d.thread 0).ctx (some 1) = some c ∧
        d.atPoint c = true) ∧
    (let t := (withThread (dv .running []) { active := true, main := { csBlock := true } }).thread 0;
      t.ctx none = some { csBlock := true } ∧ t.main.csBlock = true) ∧
    (∀ l ∈ [[], [2]],
      let d := withJobs (withThread { dv .running [] with epoch := 1000 } { active := true, main := { entry := true }, traps := l }) [jb .running .shot];
      d.jobOfThread 0 = some (jb .running .shot) ∧ (d.thread 0).active = true ∧ (d.thread 0).ended = false ∧
        (d.thread 0).inTrap = none ∧ (jb .running .shot).phase = .shot ∧ ((d.thread 0).trapDue && d.atTrapPoint 0) = (l == [2]) ∧
        (jb .running .shot).shotStart + (jb .running .shot).head.shotLimit ≤ d.epoch) :=
  ⟨by decide +kernel, by decide +kernel, by decide +kernel, by decide +kernel, by decide +kernel⟩
theorem wit_StrokeAndReadLaunch :
    (let e := le0 .stroke (.play h0 0 false 0 1 2 3 1 31);
      EntryDue (dL e) 0 .stroke e ∧ (dL e).targetOf 0 (fld e.w 35 32) = some (.drive 0) ∧ (dL e).stroke (.drive 0) = none) ∧
    (let e := le0 .read (.read h0 false 0 1 2 65535 1 15 255);
      EntryDue (dL e) 0 .read e ∧ (dL e).targetOf 0 1 = some (.rtone 0) ∧ ((dL e).jobOfThread 0).isSome = true ∧
        (dL e).stroke (.rtone 0) = none) := by
  unfold EntryDue; decide +kernel

theorem wit_OtherLaunches :
    (let e := le0 .fluxhold (.fluxhold h0 2 0x8000); EntryDue (dL e) 0 .fluxhold e ∧ (dL e).targetOf 0 (fld e.w 35 32) = some (.flux 767)) ∧
    (∀ op ∈ [COp.fshift h0 3 true 1, .ffreq h0 3 true 1, .fphase h0 3 true 1], EntryDue (dL (le0 .frame op)) 0 .frame (le0 .frame op)) ∧
    (let e := le0 .mark (.mark h0 7 7 true); let c : MChange := { step := 0, level := true, n := 0, ord := 0, path := none };
      ∀ l ∈ [[c], List.replicate 8 { c with n := 1 }],
        EntryDue { dL e with out := { markers := [(8 * tileOf 0 + 7, { changes := l })] } } 0 .mark e) ∧
    (∀ lv ∈ [true, false], let e := le0 .mark (.mark h0 7 7 lv); EntryDue (dL e) 0 .mark e ∧ ((dL e).marker (8 * tileOf 0 + fld e.w 34 32)).changes.length < 8) ∧
    (let e := le0 .event (.event h0 15); let d := dL e [(objKey (0x7000 + 15) 5, 1)];
      EntryDue d 0 .event e ∧ d.rdB (objKey (0x7000 + canvasLine 0 (fld e.w 35 32)) 5) = true ∧ d.state ≠ .asleep) ∧
    (let e := le0 .acqtrig (.acqtrig h0 7); let d := dL e [(unitKey 0x51000A 15, 2 ^ 7), (unitKey 0x510013 15, 1)];
      EntryDue d 0 .acqtrig e ∧ 15 / 16 = tileOf 0 ∧ d.bit (unitKey 0x51000A 15) (fld e.w 34 32) = true ∧ d.acqState 15 = 1) := by
  unfold EntryDue; decide +kernel

theorem wit_StrokesGoOn :
    (let e := le0 .segjump (.jseg h0 0 9); let d := withStroke (dL e) { sk0 with endTick := 1100, plays := [(900, 0, 2, 150)] };
      EntryDue d 0 .segjump e ∧ d.targetOf 0 (fld e.w 35 32) = some (.drive 0) ∧ e.tick < 1100 ∧
        Stroke.nextBoundary { sk0 with plays := [(900, 0, 2, 150)] } (e.tick + 12) = some 1050) ∧
    (let e := le0 .segjump (.jseg h0 0 9); let d := withStroke (dL e) { sk0 with endTick := 1000 };
      EntryDue d 0 .segjump e ∧ d.targetOf 0 (fld e.w 35 32) = some (.drive 0) ∧ d.stroke (.drive 0) = some { sk0 with endTick := 1000 }) ∧
    (let k := { sk0 with jump := some { daddr := 9, at_ := 950, boundary := 1000 } };
      (withStroke { dv .running [] with epoch := 1000 } k).stroke (.drive 0) = some k) ∧
    (let d := withStroke { dv .running [] with epoch := 1100 } sk0; d.stroke (.drive 0) = some sk0 ∧ sk0.endTick ≤ d.epoch) := by
  unfold EntryDue; decide +kernel

theorem wit_MarkerEdges :
    (∀ step ∈ [127999, 127952, 127951], let c : MChange := { step := step, level := true, n := 0, ord := 0, path := none };
      let d : Dev := { dv .running [] with epoch := 1000, out := { markers := [(63, { changes := [c], lastEdge := some 127904 })] } };
      (d.marker 63).changes = [c] ∧ c.step / 128 ≤ d.epoch ∧ (d.marker 63).lastChange = none ∧
        (d.marker 63).moved = [] ∧ d.markerLevel 63 ≠ c.level ∧ (d.marker 63).lastEdge = some 127904) ∧
    (let d : Dev := { dv .running [] with epoch := 1000, out := { markers := [(63, { idleAt := [(128127, [0]), (130000, [1])] })] } };
      (d.marker 63).idleAt = (128127, [0]) :: [(130000, [1])] ∧ (d.marker 63).moved = [] ∧ (d.marker 63).changes = [] ∧
        max 128127 (((d.marker 63).lastEdge.map (· + 48)).getD 0) / 128 ≤ d.epoch) := by
  decide +kernel

/-- A stroke that plays a segment of stream 63, of which the ring holds nothing, and one past the end of its stream; a
shot of a job that holds the stream. -/
theorem wit_Streams :
    (let d := withJobs (dv .running [(unitKey 0x488001 63, 1), (unitKey 0x488004 63, 100), (unitKey 0x488005 63, 100)])
        [{ jb .running .shot with held := { streams := [63] } }]; d.streamRuns 63 = true ∧ d.refillBytes 63 500 = 100) ∧
    (let d := { withStroke (dv .running [(unitKey 0x488004 63, 100)]) sk0 with epoch := 1030 };
      let d := { d with eas := { d.eas with desc := [(0, BitVec.ofNat 128 (2 ^ 22 + 63 * 2 ^ 23 + 100 * 2 ^ 32))] } };
      d.stroke (.drive 0) = some sk0 ∧ (d.missing (.drive 0)).isSome = true ∧ sk0.muted = none) ∧
    (let d := { withStroke (dv .running [(unitKey 0x488004 63, 100), (unitKey 0x488008 63, 100)]) sk0 with epoch := 1030 };
      let d := { d with eas := { d.eas with desc := [(0, BitVec.ofNat 128 (2 ^ 22 + 63 * 2 ^ 23 + 100 * 2 ^ 32))] } };
      d.stroke (.drive 0) = some sk0 ∧ (d.pastEnd (.drive 0)).isSome = true ∧ sk0.muted = none) := by decide +kernel

/-- A window that opens, one that is refused behind two open ones, a FIR output of its span at its ends, and the dump of each. -/
theorem wit_Windows :
    (let d := withWins (dv .running []) [wn0];
      (d.slotRx 0).wins = [] ++ wn0 :: [] ∧ wn0.opened = false ∧ wn0.refused = false ∧ wn0.arrive ≤ d.epoch ∧
        (([wn0] : List Win).filter fun v => v.opened && decide (wn0.arrive ≤ v.dump)).length < 2) ∧
    (let o := { wn0 with opened := true }; let d := withWins (dv .running []) [o, o, wn0];
      (d.slotRx 0).wins = [o, o] ++ wn0 :: [] ∧ (∀ v ∈ [o, o], v.opened = true ∨ v.refused = true) ∧ wn0.arrive ≤ d.epoch ∧
        2 ≤ (([o, o, wn0] : List Win).filter fun v => v.opened && decide (wn0.arrive ≤ v.dump)).length) ∧
    (∀ y ∈ [((wn0.first, 3, -4) : Nat × Int × Int), (wn0.last, 3, -4)], let d := withWins (dv .running []) [wn0];
      wn0.refused = false ∧ wn0.iq = none ∧ wn0.first ≤ y.1 ∧ y.1 ≤ wn0.last ∧ d.coreOf 0 = none) ∧
    (∀ w ∈ [{ wn0 with refused := true }, { wn0 with opened := true }, { wn0 with opened := true, invalid := true }], ∀ m ∈ [0, 3],
      let d := withWins (dv .running [(unitKey 0x300046 0, m)]) [w];
      (d.slotRx 0).wins = [] ++ w :: [] ∧ w.iq = none ∧ w.dump ≤ d.epoch ∧ (w.refused = true ∨ w.opened = true) ∧ w.sat = false ∧
        d.rd (unitKey 0x300046 (d.slotQubit 0)) = m) := by
  decide +kernel

/-- A LINEAR qubit: sums above, below and within the guard. -/
theorem wit_Windows_linear : let d := withWins (dv .running [(unitKey 0x300047 0, 2 ^ 14), (unitKey 0x30004A 0, 1)]) [{ wn0 with opened := true }];
    let p : Int → Int := fun i => divRound (i * sext 16 (d.rd (unitKey 0x300047 (d.slotQubit 0))) +
      0 * sext 16 (d.rd (unitKey 0x300048 (d.slotQubit 0)))) (2 ^ 14);
    let th := sext 32 (d.rd (unitKey 0x300049 (d.slotQubit 0))); let g : Int := d.rd (unitKey 0x30004A (d.slotQubit 0));
    d.rd (unitKey 0x300046 (d.slotQubit 0)) = 0 ∧ th + g < p 2 ∧ p (-2) < th - g ∧ th - g ≤ p 1 ∧ p 1 ≤ th + g := by decide +kernel

theorem wit_DecisionProduced : let w := { wn0 with opened := true, iq := some (5, 7, false, false), decision := some (1, false, false) };
    let d := withWins (dv .running []) [w];
    (d.slotRx 0).wins = [w] ∧ w.iq = some (5, 7, false, false) ∧ w.produced = false ∧ w.decision = some (1, false, false) ∧
      w.due ≤ d.epoch ∧ d.rd (unitKey 0x400045 w.n) = 0 ∧ w.n < 512 := by
  decide +kernel

/-- The handle clauses: a bound handle of the source, on a free bus and on a segment that 64 words have. -/
theorem wit_DecisionProduced_bus : let d := dv .running [(unitKey 0x400030 0, 2 ^ 31 + 3 * 2 ^ 15)];
    d.handlesOf 0 0 3 = [(0, 0)] ∧ d.eas.carried = [] ∧
      (let e : Dev := { d with eas := { carried := [(32 * d.epoch, 64)] } };
        tabGet 0 e.eas.carried (0 + 32 * e.epoch) = 64 ∧ tabGet 0 e.eas.carried (0 + 32 * (e.epoch + 1)) < 64) := by
  decide +kernel

/-- A word before its tick and in it; a branch whose decision is there. -/
theorem wit_DecisionsTaken :
    (∀ due ∈ [0, 1], let b : BusWord := { n := 0, h := 15, word := 3, due := due };
      let d : Dev := { dv .running [] with eas := { bus := [b] } };
      (d.eas.bus.find? fun b => b.n == 0 && b.h == 15) = some b ∧ (d.epoch < b.due ↔ due = 1) ∧ tabGet none (d.thread 0).handles 15 = none) ∧
    (let r : DReg := { outcome := 3, seq := 0, forced := false, dsp := false, at_ := 0 };
      let d := withThread (dv .running []) { active := true, handles := [(15, some r)], main := { wait := .branch 15 2 [1, 2, 3, 4] none } };
      tabGet none (d.thread 0).handles 15 = some r ∧ (d.thread 0).ended = false ∧ (d.thread 0).inTrap = none ∧
        (d.thread 0).paths = [] ∧ (d.thread 0).main.wait = .branch 15 2 [1, 2, 3, 4] none) := by decide +kernel

/-- Blocks of one word, of two to the same chips, of the first of two to other chips, and none yet; a word that waited; a received word
that fits its job, and one of another shot. -/
theorem wit_DecisionBlocks :
    (∀ l ∈ [[((0, 5, 0) : Nat × W64 × W64)], [(0, 5, 0), (0, 5, 1)], [(0, 5, 0), (7, 6, 1)]],
      let d := { withLink { decisions := l } with epoch := 7 };
      (d.link 11).decisions = l ∧ (∀ w ∈ l, w.1 ≤ d.epoch) ∧ d.linkUp 11 = true ∧ (d.link 11).blockAt = none ∧ 0 + 6 < d.epoch) ∧
    (∀ w ∈ ((withLink { decisions := [(8, 5, 0)] }).link 11).decisions, (withLink { decisions := [(8, 5, 0)] }).epoch < w.1) ∧
    (∀ x ∈ [0, 1], let w0 : W64 := BitVec.ofNat 64 (2 ^ 31 + 48 + x * 2 ^ 48); let j := jm .running .shot;
      let d := withJobs (withLink {} [(unitKey 0x400030 0, 2 ^ 31 + 3 * 2 ^ 15)]) [j];
      (d.rxCell ce).2 = true ∧ (d.rxCell ce).1.chip < 64 ∧ w0.toNat.testBit 31 = true ∧ (0 : W64).toNat.testBit 31 = false ∧
        (d.rxCell ce).1.handlesOf (bits w0.toNat 26 21) (bits w0.toNat 20 12) (bits w0.toNat 11 4) = [(0, 0)] ∧
        (d.rxCell ce).1.resident = [j] ∧ (j.held.canvases.any fun x => x.thread == 0) = true ∧ j.head.multiChip = true ∧
        j.head.chips.testBit (bits w0.toNat 26 21) = true ∧ (j.shot % 256 = bits w0.toNat 55 48 ↔ x = 0)) := by decide +kernel
/-- Channel 0 of the raw tap, from its other objects and the rest of its state. -/
def dAcq (o : List (Nat × Nat)) (a : AcqSt) : Dev := { withAcq (dv .running ((unitKey 0x510002 0, 0) :: o)) { a with legs := [{ since := 0 }] } with epoch := 1000 }

/-- A trigger of two conditions, one within HOLDOFF, one in a run. -/
theorem wit_AcquisitionRuns :
    (let d := dAcq [(unitKey 0x510013 0, 1)] { conds := [(13, 0), (12, 0)] };
      d.metConds 0 = ([13, 12].map (·, 0)) ∧ [13, 12].Nodup ∧ Arrived d 0 0 ∧ d.acqState 0 = 1 ∧ (d.acqSt 0).runEnd = none ∧
        (d.acqSt 0).lastIdx = none ∧ (d.acqSt 0).legAt (sampleTick (d.acqTap 0) (d.acqTaps 0) 0) = some { since := 0 }) ∧
    (let d := dAcq [(unitKey 0x510013 0, 1), (unitKey 0x510011 0, 1)] { conds := [(13, 0)], lastIdx := some 0 };
      d.metConds 0 = [(13, 0)] ∧ Arrived d 0 0 ∧ d.acqState 0 = 1 ∧ 0 < 0 + d.rd (unitKey 0x510011 0) ∧
        (d.acqSt 0).legAt (sampleTick (d.acqTap 0) (d.acqTaps 0) 0) = some { since := 0 } ∧ (d.acqSt 0).lastIdx = some 0) ∧
    (let d := dAcq [(unitKey 0x510013 0, 2)] { conds := [(13, 0)], lastIdx := some 0, runEnd := some 0 };
      d.metConds 0 = [(13, 0)] ∧ Arrived d 0 0 ∧ d.acqState 0 = 2 ∧ (d.acqSt 0).runEnd = some 0 ∧
        0 + d.rd (unitKey 0x510011 0) ≤ 0 ∧ (d.acqSt 0).legAt (sampleTick (d.acqTap 0) (d.acqTaps 0) 0) = some { since := 0 }) := by
  unfold Arrived; decide +kernel

/-- A unit of two bytes. -/
def un0 (i : Nat) : AcqUnit := { idx := i, bytes := [1, 2], valid := true }

/-- A run whose units have come, with a DISARM noted, at COUNT and below it; a block of a streaming channel with and without room. -/
theorem wit_AcquisitionRuns_units :
    (∀ b ∈ [true, false], ∀ n ∈ [0, 1, 2], let r : AcqRun := { idx := 0, causes := [13], disarm := b };
      let d := dAcq [(unitKey 0x510013 0, 2), (unitKey 0x510005 0, 3), (unitKey 0x510006 0, 1), (unitKey 0x510007 0, n)]
        { run := some r, units := [un0 0] };
      (d.acqSt 0).run = some r ∧ (d.acqSt 0).legs.getLast? = some { since := 0 } ∧ d.acqState 0 = 2 ∧
        (d.recordUnits 0 r.idx).2.length = d.acqPost 0 ∧ (d.recordUnits 0 r.idx).1.length < d.acqPre 0) ∧
    (∀ n ∈ [0, 4096], let d := dAcq [(unitKey 0x510013 0, 3), (unitKey 0x510001 0, 1), (unitKey 0x510009 0, n)] { units := [un0 0, un0 1] };
      let l : AcqLeg := { since := 0 };
      d.acqState 0 = 3 ∧ d.rd (unitKey 0x510001 0) = 1 ∧ (d.acqSt 0).legs = [l] ∧ l.seq = 0 ∧ l.stop = none ∧
        (d.acqSt 0).units = [] ++ un0 0 :: [un0 1] ∧ d.inLeg 0 0 l = true ∧ 0 + 1 ≤ blockUnits (d.acqTap 0) (d.acqK 0) ∧
        d.metConds 0 = [] ∧ d.condsKnown 0 (d.unitTick 0 (0 + 2 ^ d.acqK 0 - 1)) = true ∧
        (d.acqWaiting 0 + (d.blockBytes 0 (d.acqSt 0).gap l false false false [un0 0]).length ≤ d.rd (unitKey 0x510009 0) ↔ n = 4096)) := by
  decide +kernel

/-- A rising edge that has held, one that is too young, of the other kind, or seen already; a pulse that begins and one that ends. -/
theorem wit_TriggerLands :
    (let d := { dv .primed [(objKey (0x7000 + (0x80 + 7)) 5, 1), (unitKey 0x3A4002 7, 3)] with epoch := 10 };
      (d.trigInOf 7).last ≠ some 7 ∧ d.rd (unitKey 0x3A4001 7) = 0 ∧ 7 + d.rd (unitKey 0x3A4002 7) ≤ d.epoch ∧ d.resident = [] ∧
        d.rdB (objKey (0x7000 + (0x80 + 7)) 5) = true ∧ d.epoch < 8 + d.rd (unitKey 0x3A4002 7)) ∧
    (dv .primed [(unitKey 0x3A4001 7, 1)]).rd (unitKey 0x3A4001 7) = 1 ∧
    (let d : Dev := { dv .primed [] with out := { trigIn := [(7, { last := some 0 })] } }; (d.trigInOf 7).last = some d.epoch) ∧
    (let d : Dev := { dv .primed [] with out := { trigOut := [(7, { due := [0] })] } };
      (d.trigOut 7).due = [0] ∧ 0 ≤ d.epoch ∧ (d.trigOut 7).active = false) ∧
    (let d : Dev := { dv .primed [] with out := { trigOut := [(7, { active := true })] } };
      (d.trigOut 7).active = true ∧ (d.trigOut 7).until_ ≤ d.epoch ∧ (d.trigOut 7).due = []) := by decide +kernel
/-- An instruction of each scalar opcode at PC; LDI; a MULQ within its range, above it and below it. -/
theorem wit_DspScalarInstructions :
    (∀ op ∈ [0x00, 0x11, 0x12, 0x13, 0x14, 0x15, 0x16, 0x17, 0x18, 0x19, 0x1A, 0x1B, 0x1C, 0x1D],
      AtDsp (dC [(0, op), (8, 1), (12, 2), (16, 15)]) 0 op (wC [(0, op), (8, 1), (12, 2), (16, 15)])) ∧
    ((1 : W32).toInt * (1 : W32).toInt + 8192) / 16384 = 0 ∧
    2147483648 ≤ ((0x7FFFFFFF : W32).toInt * (0x7FFFFFFF : W32).toInt + 8192) / 16384 ∧
    ((0x80000000 : W32).toInt * (0x7FFFFFFF : W32).toInt + 8192) / 16384 < -2147483648 ∧
    (let d := dC [(0, 0x10), (8, 15), (20, 0xFFFFFFFF)];
      d.coreRuns 0 = true ∧ bits (d.core 0).fetch.toNat 7 0 = 0x10 ∧ bits (d.core 0).fetch.toNat 11 8 = (15 : BitVec 4).toNat ∧
        bits (d.core 0).fetch.toNat 51 20 = (0xFFFFFFFF : W32).toNat) := by
  unfold AtDsp; decide +kernel

/-- A core whose accumulator 1 stands at the ends of its range. -/
def kA : DspCore := { ac := [(1, (549755813887, -549755813888))], x := [(2, 0x7FFF7FFF), (3, 0x7FFF7FFF)] }

/-- An instruction of each complex opcode, with sums within and beyond 40 bits, and conversions within and beyond their
width. -/
theorem wit_DspComplexInstructions :
    (∀ op ∈ [0x01, 0x02, 0x03, 0x04, 0x05, 0x06, 0x07, 0x08, 0x09, 0x0A, 0x0B], ∀ k ∈ [{}, kA],
      AtDsp (dC [(0, op), (8, 1), (12, 2), (16, 3)] k) 0 op (wC [(0, op), (8, 1), (12, 2), (16, 3)])) ∧
    549755813888 ≤ (kA.acr 1).1 + ((kA.xc 2).1 * (kA.xc 3).1 + (kA.xc 2).2 * (kA.xc 3).2) ∧
    (({} : DspCore).acr 1).1 + ((({} : DspCore).xc 2).1 * (({} : DspCore).xc 3).1) = 0 ∧
    32768 ≤ ((kA.acr 1).1 + 16384) / 32768 ∧ 2147483648 ≤ (kA.acr 1).1 ∧ (kA.acr 0).1 = 0 := by
  unfold AtDsp; decide +kernel

/-- Flow instructions at PC, with a full and an empty stack, under REPEAT, before a branch and at the end of a loop; a
load and a store in parallel. -/
theorem wit_DspPointersAndFlow :
    (∀ op ∈ [0x00, 0x1E, 0x1F, 0x20, 0x21, 0x28, 0x29, 0x2A, 0x2B, 0x2C, 0x2D, 0x2E, 0x2F],
      ∀ k ∈ [({} : DspCore), { stack := List.replicate 8 (5, {}) }, { repeat_ := 2 }, { branch := some (9, 2) }, { branch := some (9, 1) },
        { loops := [{ first := 0, last := 0, left := 2 }] }],
      AtDsp (dC [(0, op), (49, 1)] k) 0 op (wC [(0, op), (49, 1)])) ∧
    (let l := [(20, 1), (21, 3), (23, 1), (24, 2), (41, 1), (42, 7), (46, 5)];
      AtDsp (dC l) 0 0 (wC l) ∧ 
        wC l = { d := 0, a := 0, b := 0, fx := some { pt := 3, post := true, x := 2 }, fy := none, fk := none, st := some { pt := 7, post := false, x := 5 }, imm := 0 }) := by
  unfold AtDsp; decide +kernel

/-- Stores to XM in a tick in which a FIR output of a window of a FED slot comes. -/
theorem wit_DspPointersAndFlow_stall : ∀ l ∈ [[(20, 0), (41, 1), (42, 3)], [(0, 0x1F), (12, 3)]],
    let d0 := dC l {} [(unitKey 0x580005 0, 1)];
    let d : Dev := { d0 with epoch := 44, rx := { slots := [(0, { wins := [wn0], fir := [(0, 0, 1, 2)] })] } };
    d.coreRuns 0 = true ∧ bits (d.core 0).fetch.toNat 7 0 = (l.head?.map (·.2)).getD 0 ∧ dspWord (d.core 0).fetch = wC l ∧
      d.feedsNow 0 = true ∧ (d.core 0).stalled = none ∧ d.stalls 0 ((l.head?.map (·.2)).getD 0) (wC l) = true := by
  decide +kernel

theorem wit_DspWindowsAndRecords :
    (∀ op ∈ [0x30, 0x31, 0x32, 0x33, 0x34, 0x35, 0x36, 0x37, 0x38, 0x39, 0x3A],
      ∀ k ∈ [({} : DspCore), { fifo := [en0] }, { wt := some en0 }, { wt := some { en0 with tag := 0 } }, { mbox := true, imask := 7 },
        { rec_ := some { rtag := 0, cont := false, words := [] } }, { rec_ := some { rtag := 0, cont := false, words := List.replicate 254 0 } },
        { rec_ := some { rtag := 0, cont := false, words := List.replicate 255 0 }, job := 1 },
        { rec_ := some { rtag := 0, cont := false, words := [] }, job := 1, boundary := true, bshot := (0, 0) },
        { rec_ := some { rtag := 0, cont := false, words := [] }, job := 1, done := true }],
      AtDsp (withJobs (dC [(0, op), (49, 7)] k) [jb .running .shot]) 0 op (wC [(0, op), (49, 7)])) ∧
    (let v := { wn0 with opened := true }; let d := { (withWins (dC [(0, 0x31)] { wt := some en0 } [(unitKey 0x580008 0, 2000)]) [v]) with epoch := 46 };
      AtDsp d 0 0x31 (wC [(0, 0x31)]) ∧ (d.core 0).wt = some en0 ∧ en0.decide_ = true ∧ en0.rflags.testBit 5 = false ∧
        (d.slotRx en0.slot).wins = [v] ∧ v.launch = en0.launch ∧ v.job = en0.job ∧ v.decision = none ∧
        d.epoch + 1 ≤ v.dump + d.rd (unitKey 0x580008 0)) ∧
    (let j := { jb .running .shot with shotStart := 5 }; let k : DspCore := { job := 1, boundary := true, boundaryAt := 5 };
      let d := withJobs (dC [(0, 0x35)] k) [j];
      AtDsp d 0 0x35 (wC [(0, 0x35)]) ∧ d.job (d.core 0).job = some j ∧ (d.core 0).boundary = true ∧ j.inShot = true ∧
        j.shotStart ≤ (d.core 0).boundaryAt ∧ 0 < (d.core 0).boundaryAt) ∧
    ({ imask := 7 } : DspCore).source = none ∧ ({ mbox := true, imask := 7 } : DspCore).source ≠ none := by
  unfold AtDsp; decide +kernel

theorem wit_DspEvents :
    (∀ k ∈ [({ boundary := true, imask := 1 } : DspCore), { fifo := [en0], imask := 2 }, { mbox := true, imask := 4 },
        { mbox := true, imask := 4, stack := List.replicate 8 (0, {}) }],
      (dC [] k).coreRuns 0 = true ∧ k.branch = none ∧ k.slots = 0 ∧ k.repeat_ = 0 ∧ k.di = none ∧ k.source ≠ none) ∧
    (let d := { dC [] { di := some (7, 0) } with epoch := 64 }; (d.core 0).di = some (7, 0) ∧ 0 + 64 ≤ d.epoch ∧ (d.core 0).repeat_ = 0) ∧
    (∀ inv ∈ [true, false], ∀ n ∈ [0, 31, 32], let w := { wn0 with opened := true, core := some 0, dsp := true, iq := some (5, 7, false, inv) };
      let d := withWins (dC [] { fifo := List.replicate n en0 }) [w];
      d.toEnter 0 = [(w.dump, 0)] ∧ (d.slotRx 0).wins = [w] ∧ w.entered = false ∧ w.produced = false ∧ w.decision = none ∧
        w.dump + 2 ≤ d.epoch ∧ (d.core 0).fifo.length = n ∧ w.dump + d.rd (unitKey 0x580008 0) ≤ d.epoch) ∧
    (let j := { jb .running .shot with shotStart := 5, held := { canvases := [cp 0], cores := [0] } };
      let d := withJobs (withThread (dC [] {}) { active := true, ended := true }) [j];
      d.job 1 = some j ∧ j.inShot = true ∧ d.windowsDone j = true ∧ 0 ∈ j.held.cores ∧ (d.core 0).boundaryAt < j.shotStart) ∧
    (let j := { jb .running .shot with shotStart := 5 };
      let d := { withJobs (dC [] { job := 1, boundaryAt := 5 }) [j] with epoch := 2 ^ 40 };
      d.job (d.core 0).job = some j ∧ j.inShot = true ∧ j.shotStart ≤ (d.core 0).boundaryAt ∧ 0 < (d.core 0).boundaryAt ∧
        (d.core 0).done = false ∧ (d.core 0).boundaryAt + d.rd (unitKey 0x580009 0) ≤ d.epoch ∧ d.rd (unitKey 0x580001 0) ≠ 2) ∧
    (dC [] { restore := some 8191 } |>.core 0).restore = some 8191 := by
  decide +kernel

/-- A job refused, one placed, a start, drains (discarded, run again, final), a boundary. -/
theorem wit_PlacementAndShots :
    (let j := { jb .accepted .waiting with held := {}, content := { noContent with acq := [{ channel := 0, settings := [] }] } };
      let d := withJobs (dv .primed [(unitKey 0x510013 0, 1)]) [j]; d.nextJob = some j ∧ d.failures j.head (d.withFits j.content) ≠ []) ∧
    (let j := { jb .accepted .waiting with held := {} }; let d := withJobs (dv .primed []) [j];
      d.nextJob = some j ∧ d.failures j.head (d.withFits j.content) = [] ∧ d.lat.st ≠ .root) ∧
    (∀ ph ∈ [Phase.waiting, .boundary], let j := { jb .running ph with nextStart := some 0 }; let d := withJobs (dv .running []) [j];
      d.job 1 = some j ∧ j.st.resident = true ∧ j.st ≠ .halted ∧ d.noNewShot = false ∧ j.head.multiChip = false ∧
        0 = d.epoch ∧ 0 < ({ d with epoch := 1 } : Dev).epoch) ∧
    (∀ j ∈ [{ jb .running .shot with discarded := true }, { jb .running .shot with spoiled := true }, jb .running .shot],
      let d := withJobs (withThread (dv .running []) { active := true, ended := true }) [j];
      d.job 1 = some j ∧ j.inShot = true ∧ d.drained j = true ∧ j.spoiledRuns < j.head.spoilRetry ∧ j.cancelDue = false) ∧
    (let j := { jb .running .drained with drainAt := 0 }; let d := { withJobs (dv .running []) [j] with epoch := 1 };
      d.job 1 = some j ∧ j.drainAt < d.epoch ∧ d.qop.commit = none ∧ d.cal.stage = [] ∧ d.lat.st ≠ .root ∧ j.st.resident = true ∧ j.stopDue = false ∧ j.st ≠ .halted) := by
  decide +kernel

theorem wit_UnitsAndSpares :
    (∀ u ∈ [UnitRef.slice 31 51, .xyPort 63, .rlTx 31, .rlLine 31, .flux 767, .easel 33, .dsp 16, .link 11, .host 3, .ddr 3, .sram 7 4095],
      (dv .primed []).isRetired u = false) ∧
    (({ dv .primed [] with hub := { units := { retired := [.host 3] } } } : Dev).isRetired (.host 3) = true) ∧
    (let j := { jb .running .boundary with held := { canvases := [cp 0], cores := [15] } };
      let d : Dev := { dv .running [] with hub := { jobs := [j], units := { due := [.easel 0, .dsp 15] } } };
      let d := d.wr 0x600003 7;
      d.hub.units.due.contains (.easel 0) = true ∧ d.readyUsers (.easel 0) ≠ [] ∧ d.spareFor 0 = some 32 ∧
        d.hub.units.due.contains (.dsp 15) = true ∧ d.readyUsers (.dsp 15) ≠ [] ∧ d.lat.st ≠ .root) ∧
    (let j := { jb .running .boundary with held := { flows := [(8, 3, 100)] } };
      let d := withJobs (dv .running [(unitKey 0x280001 0, 3)]) [j];
      d.rd (unitKey 0x280001 3) ≠ 3 ∧ (∀ k ∈ [0, 1, 2, 3], d.rd (unitKey 0x280001 k) = 3 ↔ k = 0) ∧ j ∈ d.hub.jobs ∧
        (∀ k ∈ d.hub.jobs, k.seq = j.seq → k = j) ∧ (j.held.flows.map (·.1)).Nodup ∧ (∃ f ∈ j.held.flows, f.2.1 = 3)) := by
  decide +kernel

theorem wit_ResultsDelivered :
    (let j := { jb .running .boundary with queued := [at0] }; let d := withJobs (dv .running []) [j];
      d.job 1 = some j ∧ d.streamOwed j at0 = false) ∧
    (let i : QItem := { flow := 8, job := 1, shot := 0, bytes := [1, 2], summary := true };
      let d : Dev := { dv .running [(unitKey 0x280001 0, 3)] with hub := { jobs := [jb .running .boundary], qrs := [i] } };
      d.hub.resend.find? (fun p => p.flow == 8) = none ∧ d.hub.qrs.filter (fun x => x.flow == 8) = [i] ∧
        d.portSends (d.portOfFlow 1 8) = true ∧ 0 < d.payloadMax (d.portOfFlow 1 8)) ∧
    (let p : Packet := { flow := 8, cont := false, resent := false, seq := 0, job := 1, first := 0, last := 0, epoch := 0, port := 0, payload := [], sentAt := 0 };
      let d : Dev := { dv .running [(unitKey 0x280001 0, 3)] with hub := { jobs := [jb .running .boundary], resend := [p] } };
      d.hub.resend.find? (fun x => x.flow == 8) = some p ∧ d.portSends (d.portOfFlow 1 8) = true) ∧
    (let j := { jb .running .boundary with final := [at0] }; let d := { withJobs (dv .running []) [j] with epoch := 2 ^ 40 };
      d.job 1 = some j ∧ at0.sentFlows.length = at0.flows.length ∧ at0.sentAt = some 0 ∧ 0 + d.rd 0x18000B ≤ d.epoch) := by
  decide +kernel

theorem wit_ResultsDelivered_ack :
    (∀ s ∈ [JobState.running, .ended], let j := { jb s .boundary with final := [at0] };
      let d := withJobs (dv .running [(unitKey 0x280001 0, 3)]) [j];
      d.job 1 = some j ∧ d.pwr.booted = true ∧ d.anyPortUp = true ∧
        (j.final.filter fun a => decide (a.shot ≤ 0)).length = 0 + 1 - 0 ∧ (∀ a ∈ j.final, ∀ f ∈ a.flows, f ∈ a.sentFlows) ∧
        d.dropsAck (ack d 1 [(1, 0)]) 1 [(1, 0)] = false ∧ d.dropsAck (ack d 0 []) 0 [] = true) := by
  intro s h
  refine ⟨by revert s; decide +kernel, rfl, rfl, rfl, by simp [at0], ack_kept rfl, by simp [Dev.dropsAck]⟩

theorem wit_CalibrationEngine :
    (∀ s ∈ [DState.primed, .halted], (dv s []).cal.runs = [] ∧ (dv s []).calHeld 3 63 = false ∧ (dv s []).calHeld 4 31 = false ∧
      (dv s []).calHeld 5 767 = false ∧ (dv s []).calHeld 1 31 = false ∧ (dv s []).state = s) ∧
    (∀ u ∈ calUnits 4 0xFFF, (dv .halted []).calHeld 4 u = false) ∧ (dv .running []).state ≠ .primed ∧
    (let r : CalRun := { routine := 2, ukind := 2, unit := 7, at_ := 0 };
      let d : Dev := { dv .primed [] with cal := { runs := [r] } }; r ∈ d.cal.runs ∧ 7 ∈ calUnits 2 0xFFF) ∧
    (withJobs (dv .halted []) [{ jb .halted .boundary with held := { rl := [31] } }]).calHeld 4 31 = true ∧
    (let d := dv .primed [(0x68000A, 1), (unitKey 0x6D0001 0, 2000)];
      d.state ≠ .cold ∧ d.state ≠ .asleep ∧ d.cal.runs = [] ∧ d.rd 0x68000A + tabGet 0 d.cal.temps 0 ≤ d.tempCode 0) ∧
    (let d : Dev := { dv .primed [(0x68000A, 1)] with cal := { temps := [(15, 4000)] } };
      d.rd 0x68000A + d.tempCode 15 ≤ tabGet 0 d.cal.temps 15) ∧
    (let d := dv .primed [(0x68000A, 1)]; ∀ i ∈ [14, 15], d.tempCode i < d.rd 0x68000A + tabGet 0 d.cal.temps i ∧
      tabGet 0 d.cal.temps i < d.rd 0x68000A + d.tempCode i) ∧
    (let r : CalRun := { routine := 5, ukind := 1, unit := 31, at_ := 5 };
      let d : Dev := { dv .primed [(0x200003, 1)] with cal := { runs := [r] } };
      d.cal.runs = [r] ∧ r.lost = false ∧ d.rd 0x100102 ≤ r.at_ ∧ d.calHeld 1 31 = false ∧ d.bit 0x200003 0 = true ∧ d.cal.phase = 0) ∧
    (∀ k ∈ [1, 2, 3, 4], let r : CalRun := { routine := k, ukind := 1, unit := 31, at_ := 5 };
      ∀ s ∈ [DState.priming, .asleep], let d : Dev := { dv s [] with cal := { runs := [r], phase := k } };
        d.cal.runs = [r] ∧ d.cal.phase = k ∧ d.state = s ∧ d.bit 0x200003 0 = false) ∧
    (∀ g ∈ [List.replicate 64 ((0 : Int), (0 : Int)), []], let f : Fit := { qubit := 511, job := 1, shot := 0, groups := [g, g] };
      let d : Dev := { dv .primed [] with cal := { fits := [f] } };
      d.cal.fits = [f] ∧ f.qubit = 511 ∧ d.resident = [] ∧ (64 ≤ g.length ∨ g.length < 64)) ∧
    (let d := { dv .primed [(0x680006, 1000)] with epoch := 1000 };
      d.state ≠ .asleep ∧ d.rdB 0x680007 = false ∧ d.rd 0x680006 ≠ 0 ∧ d.epoch % d.rd 0x680006 = 0 ∧ d.cal.lastGlaze ≠ some d.epoch) ∧
    (let d := { dv .primed [(unitKey 0x384025 31, 1)] with epoch := 2 ^ 40 };
      (d.lineRx 31).checking = none ∧ d.rd (unitKey 0x384025 31) ≠ 0 ∧ (d.lineRx 31).lastTurn + d.rd 0x680008 ≤ d.epoch ∧
        d.state ≠ .cold ∧ d.state ≠ .asleep ∧ d.cal.phase ≠ 1 ∧ d.epoch % 3 = 1 ∧ ({ d with epoch := 2 ^ 40 + 2 } : Dev).epoch % 3 = 0 ∧
        d.nextSlice 31 = some 0 ∧ (List.range 48).find? (fun i => d.sliceAt 31 i == 0) = some 0 ∧ (d.lineRx 31).spares = 48 :: [49, 50, 51]) ∧
    (∀ ref ∈ [0, 1], let d : Dev := { dv .primed [(0x200003, ref)] with epoch := 6000, rx := { lines := [(31, { checking := some 51 })] } };
      (d.bit 0x200003 0 = true ↔ ref = 1) ∧ (d.lineRx 31).checking = some 51 ∧ (d.lineRx 31).lastTurn + 6000 ≤ d.epoch ∧ d.sliceOk 31 51 0 0 0 = true ∧
        d.sliceOk 31 51 (2 ^ 20) 0 0 = false ∧ tabGet 0 d.cal.bad (calIndex 1 1 (52 * 31 + 51)) < 2) :=
  by and_intros <;> decide +kernel

theorem wit_HousekeepingScans :
    (let d := { dv .primed [(0x6C0401, 7)] with epoch := 2 ^ 40 };
      d.state ≠ .asleep ∧ d.cal.timerAt + d.rd 0x6C0402 ≤ d.epoch ∧ d.bit 0x6C0401 0 = true ∧ d.bit 0x6C0401 2 = true ∧
        d.cal.trigAt ≠ some d.epoch ∧ d.cal.scan = none ∧ d.cal.conv = none) ∧
    (∀ held ∈ [true, false], let d : Dev := { dv .primed [(0x6C0401, 7)] with epoch := 9, cal := { conv := some 11, held := held } };
      d.cal.conv = some 11 ∧ d.epoch + 1 < 11 ∧ d.cal.held = held ∧ d.bit 0x6C0401 2 = true) ∧
    (∀ held ∈ [true, false], let sc : Scan := { step := 0, at_ := 0, low := 8, got := 0 };
      let d : Dev := { dv .primed [(0x6C0401, 7)] with epoch := 2 ^ 40, cal := { scan := some sc, held := held } };
      d.cal.scan = some sc ∧ d.cal.held = held ∧ d.bit 0x6C0401 2 = true ∧ sc.got.testBit 3 = false ∧ sc.at_ + 6000 ≤ d.epoch ∧
        bits (d.rd (unitKey 0x6C0002 3)) 7 0 = 0) ∧
    (dv .primed [(0x6C0401, 0)]).bit 0x6C0401 2 = false := by decide +kernel

/-- A firing of an OR line; an AND line that completes its mask, and one that does not; an expired bit; a lattice event. -/
theorem wit_EventLines :
    (let c : Cause := { line := 255, tick := 0 }; let d : Dev := { dv .primed [(unitKey 0x700002 255, 0)] with ev := { causes := [c] } };
      d.state ≠ .asleep ∧ d.ev.causes = [c] ∧ c.tick ≤ d.epoch ∧ (d.lineSt 255).lastFire ≠ some c.tick ∧ d.rd (unitKey 0x700002 255) ≠ 1) ∧
    (∀ mask ∈ [2 ^ 254, 2 ^ 254 + 1], let c : Cause := { line := 255, tick := 0, src := some 254, chain := [254] };
      let d : Dev := { dv .primed [(unitKey 0x700002 255, 1), (unitKey 0x700001 255, mask)] with ev := { causes := [c] } };
      d.ev.causes = [c] ∧ d.rd (unitKey 0x700002 255) = 1 ∧ c.chain.contains 255 = false ∧ d.rd (unitKey 0x700003 255) = 0 ∧
        (d.rd (unitKey 0x700004 255)).testBit 254 = false ∧ d.rd (unitKey 0x700001 255) = mask ∧
        ((Nat.land (Nat.lor (d.rd (unitKey 0x700004 255)) (2 ^ 254)) mask = mask) ↔ mask = 2 ^ 254)) ∧
    (let d : Dev := { dv .primed [(unitKey 0x700003 255, 5)] with epoch := 5, ev := { lines := [(255, { armTicks := [(3, 0)] })] } };
      (d.lineSt 255).armTicks = [(3, 0)] ∧ (d.lineSt 255).lastFire = none ∧ d.rd (unitKey 0x700003 255) ≠ 0 ∧ 0 + d.rd (unitKey 0x700003 255) ≤ d.epoch) ∧
    (let d := withLink {} [(objKey (0x70F8 + 7) 5, 1)];
      (d.rxCell ce).2 = true ∧ 1 ≠ d.chip ∧ tabGet 0 d.lat.evSeen (evIndex 1 7 true) ≤ 5 ∧
        tabGet 0 d.lat.evSeen (evIndex 1 7 false) ≤ 5 ∧ d.rdB (objKey (0x70F8 + 7) 5) = true) := by decide +kernel

theorem wit_NotificationFrames :
    (let d : Dev := { dv .primed [(0x740005, 1)] with agg := { queue := List.replicate 64 { slot := 0, at_ := 0 } } };
      d.frameDue = true) ∧ (dv .primed []).frameDue = false ∧
    (let f : NFrame := { seq := 1, epoch := 0, overflow := false, afterWake := false, queued := 0, entries := [] };
      ({ dv .primed [] with agg := { formed := [f] } } : Dev).agg.formed = [f]) := by decide +kernel

/-- A reference within 20 ppm, at its ends, and beyond; one that leaves 20 ppm while it is present and while it is not. -/
theorem wit_TimeReferences_offset :
    (∀ o ∈ [(-2000 : Int), 2000, 2001], let d := dv .primed [(0x200003, 2 ^ 16 * toU 16 o)]; sext 16 (d.rd 0x200003 / 2 ^ 16) = o) ∧
    (∀ p ∈ [0, 1], let d := dv .primed [(0x200003, p)]; d.lat.refOut = false ∧ (d.bit 0x200003 0 = true ↔ p = 1)) := by decide +kernel

theorem wit_TimeReferences :
    ((dv .primed [(0x200103, 2)]).rd 0x200103 = 2 ∧ (dv .primed []).epoch % 750 = 0) ∧
    (let d := { dv .primed [(0x200103, 1), (0x200105, 10), (0x200104, 15)] with epoch := 25 };
      d.rd 0x200103 = 1 ∧ d.rd 0x200105 ≤ d.epoch ∧ (d.epoch - d.rd 0x200105) % d.rd 0x200104 = 0) ∧
    (let d : Dev := { dv .primed [(0x203001, 3)] with lat := { ppsSecond := some 7 } }; d.rd 0x203001 = 3 ∧ d.lat.ppsSecond = some 7) ∧
    (let d : Dev := { dv .primed [(0x203001, 2)] with lat := { ptpTime := some (7, 0) } }; d.rd 0x203001 = 2 ∧ d.lat.ptpTime = some (7, 0)) ∧
    (dv .primed [(0x203001, 1)]).rd 0x203001 = 1 ∧
    (let d := dv .primed [(0x203002, 24), (0x203003, 1)]; 24 = d.rd 0x203002 ∧ d.bit 0x203003 0 = true) ∧
    (dv .primed []).bit 0x203003 0 = false ∧
    ((dv .primed [(0x200101, 1)]).rd 0x200101 = 1 ∧ (dv .primed [(0x200101, 1)]).syncLoadOk = true ∧
      (dv .armed [(0x200101, 1)]).syncLoadOk = false) ∧
    (∀ s ∈ [DState.primed, .armed], let d : Dev := { dv s [] with counting := true, epoch := 14, lat := { syncLoads := [15] } };
      d.counting = true ∧ d.epoch + 1 ∈ d.lat.syncLoads ∧ (d.syncLoadOk = true ↔ s = .primed)) := by decide +kernel

/-- The root's beat; beats of the root that a chip follows, of a higher rank, on an excluded link, and a second copy;
misses; a takeover; the end of HOLDOVER. -/
theorem wit_SpineAndLease :
    (∀ r ∈ [true, false], let d := { dLat { st := .root, beating := true, releaseDue := r } with epoch := 1500 };
      d.lat.st = .root ∧ d.lat.beating = true ∧ d.epoch % 750 = 0 ∧ d.lat.beatSlot ≠ some d.epoch) ∧
    (let d := dLat { st := .joined, rank := 1, prim := { seen := [(5, 750)] } } [(0x201103, 5)];
      d.linkUp 11 = true ∧ d.lat.excluded.contains 11 = false ∧ bt.latticeId = d.rd 0x201002 ∧
        (d.lat.path bt.path).seen.contains (bt.term, bt.slot) = false ∧
        d.lat.st = .joined ∧ bt.term = d.rd 0x201103 ∧ bt.rank = d.lat.rank) ∧
    (∀ st ∈ [LatState.joined, .holdover, .resync, .root], let d := dLat { st := st, rank := 2 } [(0x201103, 5)];
      d.linkUp 11 = true ∧ d.lat.excluded.contains 11 = false ∧ (d.lat.path bt.path).seen.contains (bt.term, bt.slot) = false ∧
        d.lat.st = st ∧ bt.term = d.rd 0x201103 ∧ bt.rank < d.lat.rank) ∧
    (let d := dLat { st := .joined, excluded := [11], prim := { seen := [(5, 1500)] } };
      d.linkUp 11 = true ∧ bt.latticeId = d.rd 0x201002 ∧ { bt with latticeId := 1 }.latticeId ≠ d.rd 0x201002 ∧ d.lat.excluded.contains 11 = true ∧ (d.lat.path bt.path).seen.contains (bt.term, bt.slot) = true) ∧
    (∀ st ∈ [LatState.locking, .aligning, .joined, .holdover, .resync],
      let d := dLat { st := st, prim := { expect := 750, got := some (11, 750, 0, 0) } } [(0x201105, 2)];
      d.lat.st = st ∧ d.rd 0x201003 < 12 ∧ (d.lat.path false).expect + (d.lat.path false).latency + 75 ≤ d.rootEpoch (d.lat.path false) ∧
        12 ≤ d.rd 0x201004 ∧ 2 ≤ d.rd 0x201105) ∧
    (let d := { dLat { st := .holdover, lastSlot := some 750 } [(0x201005, 4)] with epoch := 2 ^ 40 };
      1 ≤ d.rd 0x201005 ∧ d.rd 0x201005 ≤ 4 ∧ takeoverAt d.lat (d.rd 0x201005) = some 17250 ∧ 17250 ≤ d.epoch ∧
        d.resident.filter (·.head.multiChip) = [] ∧ d.lat.holdStart + d.rd 0x201007 ≤ d.epoch) := by
  decide +kernel

/-- RESYNC after 4 beats and after a slew; LISTENING with 64 beats and a round trip, within 8 links and beyond; LOCKING. -/
theorem wit_SpineAndLease_join :
    (∀ sl ∈ [none, some (-64, 0)], let d := { dLat { st := .resync, resyncSlots := [0, 750, 1500, 2250], slew := sl } with epoch := 47250 };
      d.lat.st = .resync ∧ 4 ≤ d.lat.resyncSlots.length ∧ slewDone d.lat.slew d.epoch = true) ∧
    (∀ h ∈ [8, 9], let d := dLat { st := .listening, excluded := List.range 11, prim := { heard := 64, hops := h, got := some (11, 1500, 191999, 1500) } };
      d.lat.st = .listening ∧ d.spineLinks = [(11, false)] ∧ d.onSpine 11 = true ∧ ((List.range 12).all fun k => !d.onSpine k || k == 11) = true ∧ 64 ≤ (d.lat.path false).heard ∧
        ((d.lat.path false).hops ≤ 8 ↔ h = 8) ∧ 191999 + (d.measureLink 11 2).rd (unitKey 0x202003 11) = 128 * 1500 ∧
        128 * 1500 < 191999 + (d.measureLink 11 4).rd (unitKey 0x202003 11) ∧
        (1 : Int) + sext 16 (d.rd (unitKey 0x202002 11)) ≠ 0) ∧
    (let d := dLat { st := .locking, prim := { got := some (11, 750, 256, 760) } };
      d.lat.st = .locking ∧ d.state = .primed ∧ d.usedPath.got = some (11, 750, 256, 760)) ∧
    (dLat { st := .aligning }).lat.st = .aligning := by
  decide +kernel

/-- A message of a multi-chip job. -/
def lm (dst : Nat) : LatMsg := { src := 1, dst := dst, jobSlot := 0, shot := 1, jobSeq := 9, epoch := 2000 }

theorem wit_LatticeMessages :
    ((lm 63).dst ≠ (dv .primed [(0x24F001 + 63, 11)]).chip ∧ (dv .primed [(0x24F001 + 63, 11)]).route 63 < 12 ∧
      12 ≤ (dv .primed [(0x24F001 + 63, 0xFF)]).route 63) ∧
    (let d := { withJobs (dv .running []) [jm .running .boundary] with lat := { st := .root } };
      (lm 0).dst = d.chip ∧ d.lat.st = .root ∧ (d.takeDrain (lm 0)).rootStart 9 = none ∧ (d.noteTrigger 9 2000).rootStart 9 = none) ∧
    (let j := { jm .running .boundary with held := {} }; let d := { withJobs (dv .running []) [j] with lat := { st := .joined } };
      (lm 0).dst = d.chip ∧ d.lat.st ≠ .root ∧ d.ljob 9 = some j ∧ (d.localHalt 1).lat.st ≠ .root ∧ (d.localCancel 1).lat.st ≠ .root ∧
        (d.localResume 1).lat.st ≠ .root) ∧
    (let j := jm .running .boundary; let d := { withJobs (dv .running []) [j] with lat := { st := .joined } };
      d.ljob 9 = some j ∧ d.job j.seq = some j ∧ j.st.resident = true ∧ j.tentative = none ∧ j.stopDue = false ∧
        d.awaitsUnit j = false ∧ nearIndex j.nextShot (lm 0).shot < j.head.shots ∧
        (∀ k ∈ d.hub.jobs, k.head.multiChip = true → k.head.ljob = 9 → k.st.resident = true → k = j)) := by decide +kernel

/-- Three cells held on a link. -/
def held3 : List HeldCell := [3, 4, 5].map fun q => { cseq := q, body := .bulkTail 0, at_ := 0 }

/-- A bulk transfer of one data cell, complete. -/
def bulk1 : BulkRx := { head := 0, dst := 0, addr := 64, cells := 1, data := List.replicate 32 1 }

theorem wit_CellsReceived :
    (let c := { ce with ackSeq := 4, ackValid := true }; let d := withLink { held := held3 };
      d.linkUp c.link = true ∧ c.good = true ∧ (d.link c.link).held.findIdx? (fun h => h.cseq == c.ackSeq) = some 1 ∧
        (d.link c.link).waiting = []) ∧
    (let d := withLink { held := held3 }; d.linkUp 11 = true ∧ ce.ackValid = false ∧
      (d.link 11).held.findIdx? (fun h => h.cseq == 5) = some 2) ∧
    (∀ a ∈ [false, true], let h := { cseq := 2, body := .bulkHead 0 0 1 0, at_ := 0, acked := a } :: held3;
      let d := { withLink { held := h } with epoch := 2 ^ 20 }; (d.link 11).unacked = (if a then held3 else h) ∧
        h.findIdx? (fun x => x.cseq == if a then 3 else 2) = some (if a then 1 else 0) ∧
        (0 : Nat) + d.rd (unitKey 0x240008 11) ≤ d.epoch) ∧
    (ce.cseq = ((withLink {}).link 11).rxExpect ∧ ce.ackValid = false) ∧ (List.replicate 32 (0 : Byte)).length = 32 ∧
    (let b := { bulk1 with data := [] }; ((withLink { bulk := some b }).link 11).bulk = some b ∧ b.data.length < 32 * b.cells) ∧
    (let d := withLink { bulk := some bulk1 };
      (d.link 11).bulk = some bulk1 ∧ ce.cseq = (d.link 11).rxExpect ∧ bulk1.data.length = 32 * bulk1.cells ∧
        crc32 bulk1.data = (BitVec.ofNat 32 (crc32 bulk1.data)).toNat ∧ crc32 bulk1.data ≠ (0 : W32).toNat ∧ bulk1.dst = d.chip ∧
        d.streamOverlap bulk1.addr bulk1.data.length = false) ∧
    (let j := { jb .running .shot with content := { noContent with streams := [{ addr := 95, len := 1, tile := 0 }] } };
      let d := withJobs (withLink { bulk := some bulk1 }) [j]; d.streamOverlap bulk1.addr bulk1.data.length = true) := by
  decide +kernel

/-- Each state of a link, with and without two failures and a retraining. -/
theorem wit_LinkTraining :
    (∀ k ∈ [0, 1, 2, 3, 4], (dv .primed [(unitKey 0x240001 11, k)]).rd (unitKey 0x240001 11) = k) ∧
    (dv .primed [(unitKey 0x240002 11, 1)]).rdB (unitKey 0x240002 11) = true ∧
    ((withLink { ready := true }).link 11).ready = true ∧ ((withLink { trainFails := 2 }).link 11).trainFails = 2 ∧
    ((withLink { retrained := true }).link 11).retrained = true ∧ ((withLink {}).link 11).retrained = false ∧
    (∀ e ∈ ([4, 4, 4, 4] : List Nat).take 4, e ≤ 4) ∧ (∃ e ∈ ([0, 0, 0, 5] : List Nat).take 4, 4 < e) := by decide +kernel

/-- With GUARD_RANGE 0 a value that has moved by 1 has left its range, and one that has not moved has not (R537). -/
theorem wit_guard (d : Dev) (h : d.rd (laneKey 64 4) = 0) :
    d.leftGuard 64 [7] [7] = false ∧ d.leftGuard 64 [7] [8] = true := by
  constructor <;> simp [Dev.leftGuard, h]

theorem wit_PortsAndAdaptation :
    (∀ k ∈ [0, 1, 2, 3], (dv .primed [(portKey 3 1, k)]).rd (portKey 3 1) = k) ∧
    (∀ k ∈ [1, 2, 3], (dv .primed [(0x281001, k)]).rd 0x281001 = k) ∧ (dv .primed [(0x281001, 1)]).rd 0x281001 ≠ 3 ∧
    (∃ r, ({ dv .primed [(0x281001, 2)] with qop := { held := [r] } } : Dev).qop.held = [r]) ∧
    ((∀ b ∈ [(0x397BA882 : W32)].take 4, b.toNat ≤ 0x397BA882) ∧ ∃ b ∈ [(0x397BA883 : W32)].take 4, 0x397BA882 < b.toNat) ∧
    (dv .primed [(portKey 3 9, 1)]).rdB (portKey 3 9) = true ∧
    (∀ k ∈ [5, 6], (dv .primed [(portKey 3 1, 3), (portKey 3 k, 1)]).rdB (portKey 3 k) = true) ∧
    (∀ l ∈ [0, 47, 48, 63, 64], (dv .primed [(laneKey l 1, 1)]).rd (laneKey l 1) = 1 ∧ (dv .primed [(laneKey l 1, 0)]).rd (laneKey l 1) = 0) ∧
    (({ dv .primed [] with ser := { lanes := [(64, { goodWins := 1, snap := some [] })] } } : Dev).lane 64).goodWins = 1 ∧
    (({ dv .primed [] with ser := { lanes := [(64, { goodWins := 1, snap := some [7] })] } } : Dev).lane 64).snap = some [7] := by
  refine ⟨by decide +kernel, by decide +kernel, by decide +kernel, ⟨{ ident := 0, seq := 1, cmd := 1, status := 0, dstate := 0, epoch := 0, payload := [] }, rfl⟩, by simp, ?_⟩
  decide +kernel

theorem wit_ResetsPrimingAndSleep :
    (Dev.reset.pwr.up = false ∧ Dev.reset.pwr.powered = true) ∧ (dv .primed []).pwr.up = true ∧
    ((dv .cold []).state = .cold ∧ (dv .cold []).pwr.up = true) ∧
    (let d : Dev := { Dev.reset with pwr := { up := true } };
      d.pwr.powered = true ∧ d.pwr.up = true ∧ d.pwr.booted = false ∧ d.state = .cold) ∧
    (∀ k ∈ [2, 3, 4, 5, 6, 7, 8], let d := dv .priming []; let e : Dev := { d with pwr := { d.pwr with steps := d.primeSteps.filter (· != k) } };
      d.primeSteps.contains k = true → e.stepReady k = true) ∧ (dv .priming []).primeSteps.contains 8 = true ∧
    (dv .priming []).stepReady 1 = true ∧
    (∀ h ∈ [0, 1, 2, 3], (dv .priming [(unitKey 0x280001 0, 4), (unitKey 0x280001 1, 4), (unitKey 0x280001 2, 4),
      (unitKey 0x280001 3, 4)]).rd (unitKey 0x280001 h) = 4) ∧ (dv .priming []).rd (unitKey 0x280001 3) ≠ 4 ∧
    (let d := dv .priming []; let e : Dev := { d with pwr := { d.pwr with steps := d.primeSteps } };
      e.state = .priming ∧ ∀ x ∈ e.primeSteps, x ∈ e.pwr.steps) ∧
    (let d := dv .primed []; ({ d with pwr := { d.pwr with sleeping := true } } : Dev).state = .primed) ∧
    (let d := dv .asleep []; let e : Dev := { d with pwr := { d.pwr with waking := some 0 } };
      e.state = .asleep ∧ e.pwr.waking ≠ none ∧ e.cal.phase = 0 ∧ e.rd (unitKey 0x280001 0) ≠ 4) ∧ (dv .primed []).pwr.booted = true := by
  decide +kernel

theorem wit_FeedsAndSupplies :
    (let d := dv .primed [(unitKey 0x783001 8, 3)]; d.bit (unitKey 0x783001 8) 0 = true ∧ d.bit (unitKey 0x783001 8) 1 = true) ∧
    (let d := dv .primed [(unitKey 0x783001 8, 2)]; d.bit (unitKey 0x783001 8) 1 = true ∧ d.rd (unitKey 0x783001 8) % 4 = 2 ^ 1 ∧
      d.bit (unitKey 0x783001 8) 0 = false) ∧
    (({ dv .primed [] with hub := { transfers := [(8, 1)] } } : Dev).hub.transfers = [(8, 1)]) ∧
    (let d := dv .primed [(unitKey (0x7C1001 + 1) 31, 1)];
      d.pwr.powered = true ∧ d.rd (unitKey (0x7C1001 + 1) 31) ≠ 0 ∧ d.pwr.pollDue.testBit 1 = false) := by decide +kernel

/-! ### Well-formed commands -/

/-- A request. -/
def r0 : Req := rq Dev.reset 0 1 1 []

/-- WellFormed refuses an ill-formed command for each check (writes): what is out of range is the first value beyond it. -/
theorem test_wf_writes : ∀ i ∈ ([.ping { r0 with ident := 256 }, .ping { r0 with seq := 2 ^ 64 }, .read r0 [(2 ^ 16, 0)], .read r0 [(0, 256)],
   .readPart r0 (2 ^ 16) 0 0 0, .readPart r0 0 256 0 0, .readPart r0 0 0 (2 ^ 32) 0, .readPart r0 0 0 0 (2 ^ 16),
   .write r0 [⟨2 ^ 16, 0, 1, 0⟩], .write r0 [⟨0, 256, 1, 0⟩], .write r0 [⟨0, 0, 2 ^ 16, 0⟩], .write r0 [⟨0, 0, 1, 256⟩],
   .registerWrite 256 0 0 0, .registerWrite 0 (2 ^ 16) 0 0, .registerWrite 0 0 256 0] : List Instr), i.wf = false := by
  decide +kernel

/-- WellFormed refuses an ill-formed command for each check (requests): what is out of range is the first value beyond it. -/
theorem test_wf_requests : ∀ i ∈ ([.loadOpen r0 256 0 0, .loadOpen r0 0 (2 ^ 64) 0, .loadOpen r0 0 0 (2 ^ 64), .loadPart r0 (2 ^ 16) 0 [], .loadPart r0 0 (2 ^ 32) [],
   .loadClose r0 (2 ^ 16) 0, .loadAbort r0 (2 ^ 16), .loadTimeout (2 ^ 16), .ddrRead r0 (2 ^ 64) 0, .ddrRead r0 0 (2 ^ 16),
   .submit r0 (2 ^ 16) noContent, .start r0 (2 ^ 64), .halt r0 (2 ^ 64), .resume r0 (2 ^ 64), .cancel r0 (2 ^ 64), .jobStatus r0 (2 ^ 64),
   .counterClear r0 (2 ^ 16) 0, .counterClear r0 0 (2 ^ 16), .keySet r0 256 0, .bulkCopy r0 256 0 0 0, .bulkCopy r0 0 (2 ^ 64) 0 0,
   .bulkCopy r0 0 0 (2 ^ 64) 0, .bulkCopy r0 0 0 0 (2 ^ 64)] : List Instr), i.wf = false := by
  decide +kernel

/-- WellFormed refuses an ill-formed command for each check (objects): what is out of range is the first value beyond it. -/
theorem test_wf_objects : ∀ i ∈ ([.custImage 0 (List.replicate 4097 0), .hostSeconds (2 ^ 64), .ledgerRelease (2 ^ 64), .bbRelease (2 ^ 32), .snapshot 512, .arm 128,
   .disarm 128, .force 128, .evFire 256, .mboxIn 17 0, .calSkew 8, .calLevel 3 64, .calLevel 4 32, .calLevel 2 0, .calFluxOfs 768,
   .calLoopback 32, .prbsStart 65, .gzRetrain 12, .gzInject 12, .portReadapt 5, .opNop { n := 512, path := none } h0, .strokeEnd (.drive 512),
   .strokeEnd (.rtone 512), .strokeEnd (.flux 768), .streamRefill 64 0, .windowOpen 512, .decisionArrival 0 16, .decisionCommit 512 0] : List Instr), i.wf = false := by
  decide +kernel

/-- WellFormed refuses an ill-formed command for each check (units): what is out of range is the first value beyond it. -/
theorem test_wf_units : ∀ i ∈ ([.sprout (.slice 32 0), .sprout (.slice 0 52), .sprout (.xyPort 64), .sprout (.rlTx 32), .sprout (.rlLine 32), .sprout (.flux 768),
   .sprout (.easel 34), .sprout (.dsp 17), .sprout (.link 12), .sprout (.host 4), .sprout (.ddr 4), .sprout (.sram 8 0), .sprout (.sram 0 4096)] : List Instr), i.wf = false := by
  decide +kernel

/-- WellFormed refuses an ill-formed command for each check (cells): what is out of range is the first value beyond it. -/
theorem test_wf_cells : ∀ i ∈ ([.idle { ce with link := 12 }, .idle { ce with cseq := 256 }, .idle { ce with ackSeq := 256 }, .dspNop 17 (dspWord 0),
   .dspNop 0 { dspWord 0 with fx := some { pt := 4, post := false, x := 0 } }, .dspNop 0 { dspWord 0 with fy := some { pt := 3, post := false, x := 0 } },
   .dspNop 0 { dspWord 0 with fk := some { pt := 5, post := false, x := 0 } }, .dspNop 0 { dspWord 0 with st := some { pt := 8, post := false, x := 0 } },
   .trigIn 8 false 0, .markerEdge 64, .decisionBlockSend 12, .dspBoundary (2 ^ 64), .qrsPacketSend 10, .resultResend (some (2 ^ 64)),
   .calResult 0 0 0 [] 0 0 false, .calResult 7 0 0 [] 0 0 false, .skewAuto 8, .discFit 512 [] [] 0, .ptpSync 256 0 0 0, .underrun (.drive 512), .hkResult 4 0,
   .latticeEvent ce 0 0 8 false 0 0, .beat 12 bt, .dataCell 12 false [] [], .dataCell 0 false [4] [], .pause 4, .linkDown 5,
   .adcOverrange 32 0, .feedLoss 9 false, .pmbusPoll false 32 0 false, .priming 0, .priming 9, .ddrEccError 4 false, .flowMove 4, .restored 65 [],
   .linkUp 5 [] [] false, .linkUp 0 [] [] false] : List Instr), i.wf = false := by
  decide +kernel

theorem test_wf_accepts : ∀ i ∈ [Instr.ping (rq Dev.reset 3 1 1 []), .snapshot 511, .arm 127, .calLevel 3 63, .calLevel 4 31,
    .strokeEnd (.flux 767), .decisionArrival 511 15, .dspNop 16 (dspWord 0xFFFFFFFFFFFFFFFF), .sprout (.sram 7 4095), .priming 8],
    i.wf = true := by decide +kernel

theorem test_no_table_bits : decodeTableWord 128 0 = none ∧ State.reset.withFetchWord 128 0 = State.reset := ⟨rfl, rfl⟩

/-! ### Worked examples of the manual -/

/-- Chapter 04, "duration of a three-segment stroke": segments A, B, C at descriptors 0, 1, 2 last 320 ticks; with C
lengthened to 64 samples 304. -/
def prxLong (c : Nat) : Tab W128 :=
  [(0, BitVec.ofNat 128 (2 ^ 32 * 64 + 2 ^ 80 * 1)), (1, BitVec.ofNat 128 (2 ^ 32 * 160 + 2 ^ 64 * 2 + 2 ^ 80 * 2)),
   (2, BitVec.ofNat 128 (2 ^ 32 * c + 2 ^ 102))]

theorem test_stroke_duration : (chainFrom (fun _ => true) (prxLong 40) 4 0 0).2 = 320 ∧ (chainFrom (fun _ => true) (prxLong 64) 4 0 0).2 = 304 := by decide +kernel

/-- Chapter 04, "a jump on the last sample": latched at 5,031, it takes effect at 5,112; one at 5,300 at 5,320; one at 5,312
at none. -/
theorem test_jump_boundaries : let k := { sk0 with start := 5000, endTick := 5320, plays := (chainFrom (fun _ => true) (prxLong 40) 4 0 5000).1 };
    k.nextBoundary (5031 + 12) = some 5112 ∧ k.nextBoundary (5300 + 12) = some 5320 ∧ k.nextBoundary (5312 + 12) = none := by
  decide +kernel

/-- Chapter 04, "a randomized-benchmarking draw": LFSR addresses and GRAY offsets. -/
theorem test_generators :
    let g : GenDef := { kind := 4, base := 0x120400, p1 := 5, p2 := 0x14, p3 := 1, p4 := 24, mode := 0 };
    ([1, 20, 10, 5, 22, 11, 17].map (genAddr g 0) = [0x120400, 0x12040F, 0x120407, 0x120403, 0x120410, 0x120408, 0x12040C]) ∧
    ([1, 20, 10, 5, 22, 11].map (genNext g) = [20, 10, 5, 22, 11, 17]) ∧
    ((List.range 8).map (fun i => genAddr { kind := 3, base := 0, p1 := 3, p2 := 4, p3 := 0, p4 := 0, mode := 0 } i 0) =
      [0, 4, 12, 8, 24, 28, 20, 16]) := by decide +kernel

/-- Chapter 03, "an alternating train": word 0x3008 reads as its fields. -/
theorem test_microword_fields : let w := mw [(2, 0x3007), (16, 5), (28, 2), (34, 3), (39, 5), (44, 3)];
    mf w 15 0 = 0xC01C ∧ mf w 19 16 = 5 ∧ mf w 33 28 = 2 ∧ mf w 38 34 = 3 ∧ mf w 43 39 = 5 ∧ mf w 48 44 = 3 ∧
    w = 0x0000328C2005C01C#192 := by decide +kernel

/-- Chapter 07, "conditional reset on one chip": the decision word 0x002A_0D08_806A_5071. -/
theorem test_decision_word : (let d : Dev := { dv .running [(0x201001, 3)] with epoch := 4001032 };
    d.decisionWord { wn0 with n := 165, dtag := 7, seq := 0, shot := 42 } 1 false false) = 0x002A0D08806A5071#64 := by decide +kernel

/-- Chapter 02, "takeover after loss of the root": C1 assumes the token at S + 9,750. -/
theorem test_takeover_tick : takeoverAt { lastSlot := some 7500000000 } 1 = some 7500009750 := by decide +kernel

/-- The CRC-32 of IEEE 802.3 over the digits 1 to 9. -/
theorem test_crc32 : crc32 ([0x31, 0x32, 0x33, 0x34, 0x35, 0x36, 0x37, 0x38, 0x39] : List Byte) = 0xCBF43926 := by decide +kernel

/-! ### Single steps -/

/-- A part of the device after a command. -/
def after {α : Type} (c : Instr) (d : Dev) (f : Dev → α) : Option α :=
  match exec c (st d) with
  | .next t => some (f t.now)
  | _ => none

/-- R105: V15 holds the value, at the next entry. -/
theorem test_setv : after (.opSetv x0 h0 15 0x80000000) (dAt (.setv h0 15 0x80000000)) (fun d => ((d.thread 0).main.vr 15, (d.thread 0).main.cpc)) =
    some (0x80000000, 1) := by decide +kernel

/-- R105: LOOP with V[VC] = 1 falls through. -/
theorem test_loop_last : after (.opLoop x0 h0 0 0xFFFF) (let d := dAt (.loop h0 0 0xFFFF); d.setThread 0 { d.thread 0 with
    main := { (d.thread 0).main with v := [(0, 1)] } }) (fun d => ((d.thread 0).main.vr 0, (d.thread 0).main.cpc)) = some (0, 1) := by
  decide +kernel

/-- R118: a stroke entry arrives for the tick it asks for when that is 60 ticks ahead. -/
theorem test_play_lead : after (.opPlay x0 { h0 with dt := 60 } 0 false 0 0 1 0 0 0) (dAt (.play { h0 with dt := 60 } 0 false 0 0 1 0 0 0))
    (fun d => (d.thread 0).launch.map fun e => (e.tick, e.late)) = some [(60, false)] := by decide +kernel

/-- R118: one tick later it is late, and launches at its arrival plus its lead. -/
theorem test_play_late : after (.opPlay x0 { h0 with dt := 59 } 0 false 0 0 1 0 0 0) (dAt (.play { h0 with dt := 59 } 0 false 0 0 1 0 0 0))
    (fun d => (d.thread 0).launch.map fun e => (e.tick, e.late)) = some [(60, true)] := by decide +kernel

/-- R127: SUB of 5 − 3 in S0 and S1 writes S2 and sets no flag without FW. -/
theorem test_microword_sub : let w := mw [(28, 3), (39, 1), (44, 2)]; let d := (dW w).microEffects x0 cW w;
    ((d.thread 0).main.sr 2, (d.thread 0).main.mic.mpc, (d.thread 0).main.mic.z) = (2, 0x3001, false) := by
  decide +kernel

/-- R378: 0x8000 · 0x4000 in Q1.14 is 0x8000; ADD sets C and Z at a wrap. -/
theorem test_dsp_add_wraps : after (.dspAdd 0 (wC [(0, 0x12), (8, 2), (16, 1)])) (dC [(0, 0x12), (8, 2), (16, 1)] { g := [(0, 1), (1, 0xFFFFFFFF)] })
    (fun d => ((d.core 0).gr 2, (d.core 0).fl.z, (d.core 0).fl.c, (d.core 0).fl.v, (d.core 0).pc)) = some (0, true, true, false, 1) := by
  decide +kernel

/-- R378: MULQ rounds half up and shifts by 14. -/
theorem test_dsp_mulq : after (.mulq 0 (wC [(0, 0x19), (8, 2), (16, 1)])) (dC [(0, 0x19), (8, 2), (16, 1)] { g := [(0, 0x4000), (1, 0x12345)] })
    (fun d => (d.core 0).gr 2) = some 0x12345 := by decide +kernel

/-- R377: (1 + 2i)(3 + 4i) = −5 + 10i. -/
theorem test_dsp_cmul : after (.cmul 0 (wC [(0, 4), (16, 1)])) (dC [(0, 4), (16, 1)] { x := [(0, 0x00020001), (1, 0x00040003)] })
    (fun d => (d.core 0).acr 0) = some (-5, 10) := by decide +kernel

/-- R484: a write of EV_FIRE is a cause at its line in the tick of the write. -/
theorem test_ev_fire : after (.evFire 5) (dv .primed []) (fun d => d.ev.causes.map fun c => (c.line, c.tick)) = some [(5, 0)] := by
  decide +kernel

/-- R56, R57: the PLL lock starts the epoch counter. -/
theorem test_pll_lock : after .pllLock Dev.reset (·.counting) = some true := by decide +kernel

/-- R556: a request without a TAG that verifies is dropped and flagged. -/
theorem test_drop : after (.ping { rq (dv .primed []) 0 1 1 [] with magic := 0 }) (dv .primed []) (fun d => (d.bit 0x180001 0, d.qop.last)) =
    some (true, none) := by decide +kernel

/-- R679: RESET_N rises after power-on. -/
theorem test_reset_n : after (.resetN false) Dev.reset (·.pwr.up) = some true := by decide +kernel

/-- R479, R482: a firing is delivered one tick later to the line that it feeds. -/
theorem test_delivery : after (.eventLineFire 5) ({ dv .primed [(unitKey 0x700001 6, 2 ^ 5)] with ev := { causes := [{ line := 5, tick := 0 }] } })
    (fun d => d.ev.causes.map fun c => (c.line, c.tick, c.src)) = some [(6, 1, some 5)] := by decide +kernel

/-- Chapter 02, Takeover: the first beat of the new term carries the token's tick. -/
theorem test_beat_send : after .beatSend { dLat { st := .root, beating := true } [(0x201103, 42)] with epoch := 7500009750 }
    (fun d => d.lat.sentBeats.map fun b => (b.1.term, b.1.slot, b.1.lease, b.1.path)) =
    some [(42, 7500009750, 9000, false), (42, 7500009750, 9000, true)] := by decide +kernel

end Sys2Proof.Tests
end

section
/-! The host's writes to units: the lines' software causes, a thread's snapshot, a core's mailbox and the second of the
next 1PPS edge (R90, R130, R386, R484). -/

namespace Sys2Proof.Machine

/-- A command that runs `g` on the device does `f` wherever the two agree. -/
theorem does_of_onNow {i : Instr} {s : State} {f g : Dev → Dev} (hexec : exec i s = .next (s.onNow g))
    (hfg : g s.now = f s.now) : Does i s f := by
  unfold Does
  rw [hexec, State.onNow, hfg]

theorem exec_hostSeconds (v : Nat) (s : State) : exec (.hostSeconds v) s = .next (s.onNow (hostSecondsOp v)) := rfl

theorem exec_snapshot (n : Nat) (s : State) : exec (.snapshot n) s = .next (s.onNow (·.raiseSnapshot n)) := rfl

theorem exec_evFire (k : Nat) (s : State) : exec (.evFire k) s = .next (s.onNow (·.software k)) := rfl

theorem exec_mboxIn (c : Nat) (v : W32) (s : State) : exec (.mboxIn c v) s = .next (s.onNow (mboxInOp c v)) := rfl

/-- On an active thread that has not ended and whose trap 2 is not pending yet, SNAPSHOT leaves it pending (R130). -/
theorem Dev.raiseSnapshot_of_active {d : Dev} {n : Nat} (hactive : (d.thread n).active = true)
    (hended : (d.thread n).ended = false) (hfree : (d.thread n).traps.contains 2 = false) :
    d.raiseSnapshot n = d.setThread n { d.thread n with traps := (d.thread n).traps ++ [2] } := by
  have hguard : ((d.thread n).active && !(d.thread n).ended && !(d.thread n).traps.contains 2) = true := by
    rw [hactive, hended, hfree]
    rfl
  unfold Dev.raiseSnapshot
  exact if_pos hguard

/-- Of the core it names, a write of MBOX_IN changes the mailbox alone (R386). -/
@[simp] theorem mboxInOp_core_self (c : Nat) (v : W32) (d : Dev) :
    (mboxInOp c v d).core c = { d.core c with mboxIn := v, mbox := true } := Dev.core_setCore_self ..

theorem mboxInOp_core_other (c b : Nat) (v : W32) (d : Dev) (h : b ≠ c) : (mboxInOp c v d).core b = d.core b :=
  Dev.core_setCore_other _ _ _ _ h

@[simp] theorem mboxInOp_rd_self (c : Nat) (v : W32) (d : Dev) : (mboxInOp c v d).rd (unitKey 0x58000C c) = v.toNat :=
  Dev.rd_wr_self d _ _

@[simp] theorem mboxInOp_hub (c : Nat) (v : W32) (d : Dev) : (mboxInOp c v d).hub = d.hub := rfl

/-- Settles O17: each write is one operation of the device. Only SNAPSHOT's has a guard, which the clause's hypotheses meet;
MBOX_IN's changes one object and one core's mailbox. -/
theorem hostWritesOfUnits : Obligations.HostWritesOfUnits := by
  unfold Obligations.HostWritesOfUnits
  intro s
  refine ⟨fun v => ?hostSeconds, fun n hactive hended hfree => ?snapshot, fun k => ?evFire, fun c v => ?mboxIn⟩
  case hostSeconds => exact does_of_onNow (exec_hostSeconds v s) rfl
  case snapshot => exact does_of_onNow (exec_snapshot n s) (Dev.raiseSnapshot_of_active hactive hended hfree)
  case evFire => exact does_of_onNow (exec_evFire k s) rfl
  case mboxIn =>
    refine ⟨s.onNow (mboxInOp c v), exec_mboxIn c v s, ?_⟩
    simp +contextual [State.onNow, mboxInOp_core_other]

end Sys2Proof.Machine
end

section
/-! What the objects read after a flag, a list of writes and the unit counts, and which fields these leave. -/

namespace Sys2Proof.Machine

/-- Of the objects, a flag changes its own alone. -/
theorem Dev.setFlag_objs (d : Dev) (key bit n : Nat) :
    (d.setFlag key bit n).objs = (d.wr key (Nat.lor (d.rd key) (2 ^ bit))).objs := by
  unfold Dev.setFlag
  dsimp only
  cases slotOf key with
  | none => rfl
  | some slot => dsimp only; split_ifs <;> simp

theorem Dev.flag_objs (d : Dev) (key bit : Nat) :
    (d.flag key bit).objs = (d.wr key (Nat.lor (d.rd key) (2 ^ bit))).objs :=
  (Dev.noteFlag_objs ..).trans (Dev.setFlag_objs ..)

@[simp] theorem Dev.rd_flag_self (d : Dev) (key bit : Nat) :
    (d.flag key bit).rd key = Nat.lor (d.rd key) (2 ^ bit) :=
  (Dev.rd_congr (d.flag_objs key bit) key).trans (Dev.rd_wr_self ..)

theorem Dev.rd_flag_other (d : Dev) (key bit j : Nat) (h : j ≠ key) : (d.flag key bit).rd j = d.rd j :=
  (Dev.rd_congr (d.flag_objs key bit) j).trans (Dev.rd_wr_other _ _ _ _ h)

/-- A flag's bit is set after it. -/
@[simp] theorem Dev.bit_flag_self (d : Dev) (key b : Nat) : (d.flag key b).bit key b = true := by
  unfold Dev.bit
  rw [Dev.rd_flag_self]
  exact (Nat.testBit_or ..).trans (by simp)

/-- A flag clears no bit. -/
theorem Dev.bit_flag_of_bit (d : Dev) (key b c : Nat) (h : d.bit key c = true) : (d.flag key b).bit key c = true := by
  unfold Dev.bit at h ⊢
  rw [Dev.rd_flag_self]
  exact (Nat.testBit_or ..).trans (by simp [h])

/-- An object reads the value that a list of writes gives it, where the list does not give it another one. -/
theorem Dev.rd_wrs_of_mem (d : Dev) {l : List (Nat × Nat)} {k v : Nat} (hmem : (k, v) ∈ l)
    (hsame : ∀ p ∈ l, p.1 = k → p.2 = v) : (d.wrs l).rd k = v := by
  induction l generalizing d with
  | nil => simp at hmem
  | cons q l ih =>
    by_cases hlater : ∃ p ∈ l, p.1 = k
    · obtain ⟨p, hp, rfl⟩ := hlater
      obtain rfl := hsame p (List.mem_cons_of_mem _ hp) rfl
      exact ih _ hp fun r hr => hsame r (List.mem_cons_of_mem _ hr)
    · have hnot : ∀ p ∈ l, k ≠ p.1 := fun p hp hk => hlater ⟨p, hp, hk.symm⟩
      obtain rfl : (k, v) = q := (List.mem_cons.1 hmem).resolve_right fun hl => hnot _ hl rfl
      exact (Dev.rd_wrs_other _ _ _ hnot).trans (Dev.rd_wr_self ..)

/-- The unit counts are the objects 0x100201 to 0x100209 (R613). -/
theorem Dev.rd_refreshUnits (d : Dev) (j : Nat) (h : 0x100209 < j) : d.refreshUnits.rd j = d.rd j := by
  refine Dev.rd_wrs_other _ _ _ ?_
  simp only [List.forall_mem_cons, List.not_mem_nil, false_implies, implies_true, and_true]
  omega

theorem Dev.bit_refreshUnits (d : Dev) (j b : Nat) (h : 0x100209 < j) : d.refreshUnits.bit j b = d.bit j b := by
  unfold Dev.bit
  rw [Dev.rd_refreshUnits d j h]

@[simp] theorem Dev.refreshUnits_state (d : Dev) : d.refreshUnits.state = d.state := Dev.wrs_state ..
@[simp] theorem Dev.refreshUnits_ser (d : Dev) : d.refreshUnits.ser = d.ser := Dev.wrs_ser ..
@[simp] theorem Dev.refreshUnits_qop (d : Dev) : d.refreshUnits.qop = d.qop := Dev.wrs_qop ..
@[simp] theorem Dev.refreshUnits_hub (d : Dev) : d.refreshUnits.hub = d.hub := Dev.wrs_hub ..
@[simp] theorem Dev.refreshUnits_eas (d : Dev) : d.refreshUnits.eas = d.eas := Dev.wrs_eas ..

end Sys2Proof.Machine
end

section
/-! The retirement of a host port (R630, R632). -/

namespace Sys2Proof.Machine

@[simp] theorem Dev.noteStamp_hub (d : Dev) (e : Nat) : (d.noteStamp e).hub = d.hub := by
  unfold Dev.noteStamp
  split <;> simp

/-- A black-box record changes nothing about the units. -/
@[simp] theorem Dev.bbWrite_units (d : Dev) (btype ukind uidx cause job shot : Nat) (payload : List Byte) :
    (d.bbWrite btype ukind uidx cause job shot payload).hub.units = d.hub.units := by
  unfold Dev.bbWrite
  dsimp only
  split_ifs <;> simp [Dev.bbObjects]

theorem Dev.isRetired_iff_mem (d : Dev) (u : UnitRef) : d.isRetired u = true ↔ u ∈ d.hub.units.retired :=
  List.contains_iff_mem

@[simp] theorem Dev.recordRetired_retired (d : Dev) (u : UnitRef) (row : Nat) :
    (d.recordRetired u row).hub.units.retired = d.hub.units.retired ++ [u] := by
  rw [Dev.recordRetired, Dev.refreshUnits_hub, Dev.bbWrite_units, Dev.produce_hub, Dev.flag_hub]

/-- A second retirement of a unit does nothing (R630). -/
theorem Dev.retireUnit_of_retired {d : Dev} {u : UnitRef} (row : Nat) (hret : d.isRetired u = true) :
    d.retireUnit u row = d := by
  unfold Dev.retireUnit
  exact if_pos hret

/-- A host port that is not retired yet is recorded, and its state becomes 4 (R550). -/
theorem Dev.retireUnit_host {d : Dev} {h : Nat} (row : Nat) (hlive : d.isRetired (.host h) = false) :
    d.retireUnit (.host h) row =
      (((d.recordRetired (.host h) row).wr (unitKey 0x280001 h) 4).flag (unitKey 0x28000A h) 2).refreshUnits := by
  unfold Dev.retireUnit
  exact if_neg (by simp [hlive])

theorem Dev.retireUnit_host_isRetired (d : Dev) (h row : Nat) :
    (d.retireUnit (.host h) row).isRetired (.host h) = true := by
  cases hret : d.isRetired (.host h) with
  | true => rwa [Dev.retireUnit_of_retired row hret]
  | false =>
    rw [Dev.retireUnit_host row hret, Dev.isRetired_iff_mem, Dev.refreshUnits_hub, Dev.flag_hub, Dev.wr_hub,
      Dev.recordRetired_retired]
    exact List.mem_append_right _ List.mem_cons_self

/-- A port in state 4 stays there when it is retired, for the first time or again. -/
theorem Dev.retireUnit_host_rd {d : Dev} {h : Nat} (row : Nat) (hstate : d.rd (unitKey 0x280001 h) = 4) :
    (d.retireUnit (.host h) row).rd (unitKey 0x280001 h) = 4 := by
  cases hret : d.isRetired (.host h) with
  | true => rwa [Dev.retireUnit_of_retired row hret]
  | false =>
    rw [Dev.retireUnit_host row hret, Dev.rd_refreshUnits _ _ (by unfold unitKey; omega),
      Dev.rd_flag_other _ _ _ _ (by unfold unitKey; omega)]
    exact Dev.rd_wr_self ..

end Sys2Proof.Machine
end

section
/-! Ports that go down and up (R549, R593), PAUSE and network requests (R512 to R514). -/

namespace Sys2Proof.Machine

theorem portKey_eq_unitKey {h : Nat} (hh : h < 4) (sub : Nat) : portKey h sub = unitKey (0x280000 + sub) h := by
  unfold portKey objKey unitKey
  rw [if_neg (by omega)]
  omega

@[simp] theorem portKey_inj (port a b : Nat) : portKey port a = portKey port b ↔ a = b := by
  unfold portKey objKey
  split <;> omega

/-- No object of a port is a unit count. -/
theorem unitCounts_lt_portKey (port sub : Nat) : 0x100209 < portKey port sub := by
  unfold portKey objKey
  split <;> omega

theorem exec_linkDown (port : Nat) (s : State) : exec (.linkDown port) s = .next (s.onNow (linkDownOp port)) := rfl

theorem exec_linkUp (port : Nat) (errs : List Nat) (bers : List W32) (uncorr : Bool) (s : State) :
    exec (.linkUp port errs bers uncorr) s = .next (s.onNow (linkUpOp port errs bers uncorr)) := rfl

theorem exec_pause (h : Nat) (s : State) : exec (.pause h) s = .next (s.onNow (pauseOp h)) := rfl

theorem exec_pauseEnd (h : Nat) (s : State) : exec (.pauseEnd h) s = .next (s.onNow (pauseEndOp h)) := rfl

theorem exec_frameDrop (port : Nat) (s : State) : exec (.frameDrop port) s = .next (s.onNow (frameDropOp port)) := rfl

theorem exec_icmpEcho (port : Nat) (v6 : Bool) (s : State) :
    exec (.icmpEcho port v6) s = .next (s.onNow (icmpEchoOp port v6)) := rfl

theorem exec_arp (port : Nat) (v6 : Bool) (s : State) : exec (.arp port v6) s = .next (s.onNow (arpOp port v6)) := rfl

variable {d : Dev} {h : Nat}

/-- A host port in VERIFY or UP re-adapts when it loses its link. -/
theorem linkDownOp_host (hh : h < 4) (hst : d.rd (portKey h 1) = 2 ∨ d.rd (portKey h 1) = 3) :
    linkDownOp h d = (((d.wr (portKey h 1) 1).flag (portKey h 0x0A) 0).flag (portKey h 0x0A) 1).refreshUnits := by
  unfold linkDownOp
  rw [if_pos ⟨by omega, hst⟩]
  dsimp only
  rw [if_neg (by omega)]

/-- So does MGMT, without the flag RETRAIN. -/
theorem linkDownOp_mgmt (hst : d.rd 0x281001 = 2 ∨ d.rd 0x281001 = 3) :
    linkDownOp 4 d = ((d.wr 0x281001 1).flag 0x28100A 0).refreshUnits := by
  unfold linkDownOp
  exact if_pos ⟨Nat.le_refl 4, hst⟩

theorem linkDownOp_host_spec (hh : h < 4) (hst : d.rd (portKey h 1) = 2 ∨ d.rd (portKey h 1) = 3) :
    (linkDownOp h d).rd (portKey h 1) = 1 ∧ (linkDownOp h d).bit (portKey h 0x0A) 0 = true ∧
      (linkDownOp h d).bit (portKey h 0x0A) 1 = true ∧ (linkDownOp h d).hub = d.hub ∧ (linkDownOp h d).ddr = d.ddr := by
  rw [linkDownOp_host hh hst]
  have hcount := unitCounts_lt_portKey h
  refine ⟨?_, ?_, ?_, by simp, by simp⟩
  · simp [Dev.rd_refreshUnits, hcount, Dev.rd_flag_other]
  · simp [Dev.bit_refreshUnits, hcount, Dev.bit_flag_of_bit]
  · simp [Dev.bit_refreshUnits, hcount]

/-- A host port sends as before where its state and what PAUSE holds are as before. -/
theorem Dev.portSends_congr {e : Dev} (hstate : d.rd (unitKey 0x280001 h) = e.rd (unitKey 0x280001 h))
    (hser : d.ser = e.ser) : d.portSends h = e.portSends h := by
  unfold Dev.portSends
  rw [hstate, hser]

/-- A loss of MGMT leaves jobs, results, the draft, the commit, the state and the host ports (R593). -/
theorem linkDownOp_mgmt_spec (hst : d.rd 0x281001 = 2 ∨ d.rd 0x281001 = 3) :
    (linkDownOp 4 d).rd 0x281001 = 1 ∧ (linkDownOp 4 d).hub.jobs = d.hub.jobs ∧
      (linkDownOp 4 d).hub.qrs = d.hub.qrs ∧ (linkDownOp 4 d).qop = d.qop ∧ (linkDownOp 4 d).state = d.state ∧
      (∀ k, k < 4 → (linkDownOp 4 d).portSends k = d.portSends k) ∧ (linkDownOp 4 d).eas = d.eas ∧
      (linkDownOp 4 d).ddr = d.ddr := by
  rw [linkDownOp_mgmt hst]
  refine ⟨?state, by simp, by simp, by simp, by simp, fun k hk => Dev.portSends_congr ?port (by simp), by simp, by simp⟩
  case state => simp [Dev.rd_refreshUnits, Dev.rd_flag_other]
  case port =>
    unfold unitKey
    rw [Dev.rd_refreshUnits _ _ (by omega), Dev.rd_flag_other _ _ _ _ (by omega), Dev.rd_wr_other _ _ _ _ (by omega)]

/-! The end of a verification. -/

theorem portPasses_eq_true_iff (bers : List W32) (uncorr : Bool) :
    portPasses bers uncorr = true ↔ uncorr = false ∧ ∀ b ∈ bers, b.toNat ≤ 0x397BA882 := by
  simp [portPasses]

@[simp] theorem Dev.portFound_hub (d : Dev) (port : Nat) (errs : List Nat) (bers : List W32) (uncorr : Bool) :
    (d.portFound port errs bers uncorr).hub = d.hub := by
  unfold Dev.portFound
  dsimp only
  split_ifs <;> simp

/-- Without an uncorrectable codeword, a lane reads the bit error ratio that the verification found on it (R551). -/
theorem Dev.portFound_rd_ber (d : Dev) (h : Nat) (errs : List Nat) {bers : List W32} {l : Nat} {b : W32} (hl : l < 4)
    (hb : bers[l]? = some b) :
    (d.portFound h errs bers false).rd (objKey (0x2820 + 4 * h + l) 0x0E) = b.toNat := by
  have htake : (bers.take 4)[l]? = some b := by rwa [List.getElem?_take_of_lt hl]
  have hmem : (b, l) ∈ (bers.take 4).zipIdx := List.mk_mem_zipIdx_iff_getElem?.2 htake
  refine Dev.rd_wrs_of_mem _ (List.mem_append_right _ (List.mem_map.2 ⟨(b, l), hmem, rfl⟩)) fun p hp hkey => ?_
  rcases List.mem_append.1 hp with herr | hber
  · obtain ⟨x, -, rfl⟩ := List.mem_map.1 herr
    unfold objKey at hkey
    omega
  · obtain ⟨⟨x, i⟩, hx, rfl⟩ := List.mem_map.1 hber
    unfold objKey at hkey
    obtain rfl : i = l := by omega
    rw [List.mk_mem_zipIdx_iff_getElem?, htake, Option.some.injEq] at hx
    exact congrArg BitVec.toNat hx.symm

/-- A host port in ADAPTING or VERIFY ends its verification. -/
theorem linkUpOp_host (hh : h < 4) (hst : d.rd (portKey h 1) = 1 ∨ d.rd (portKey h 1) = 2) (errs : List Nat)
    (bers : List W32) (uncorr : Bool) :
    linkUpOp h errs bers uncorr d =
      if portPasses (bers.take 4) uncorr then ((d.portFound h errs bers uncorr).wr (portKey h 1) 3).refreshUnits
      else (((d.portFound h errs bers uncorr).wr (portKey h 1) 4).flag (portKey h 0x0A) 2).retireUnit (.host h) 7 := by
  unfold linkUpOp
  rw [if_neg (by omega), if_neg (by omega), if_pos ⟨hh, hst⟩]

theorem linkUpOp_host_passes (hh : h < 4) (hst : d.rd (portKey h 1) = 1 ∨ d.rd (portKey h 1) = 2) (errs : List Nat)
    {bers : List W32} (hbers : ∀ b ∈ bers.take 4, b.toNat ≤ 0x397BA882) :
    (linkUpOp h errs bers false d).rd (portKey h 1) = 3 ∧
      (∀ (l : Nat) (b : W32), l < 4 → bers[l]? = some b →
        (linkUpOp h errs bers false d).rd (objKey (0x2820 + 4 * h + l) 0x0E) = b.toNat) ∧
      (linkUpOp h errs bers false d).hub = d.hub ∧ (linkUpOp h errs bers false d).ddr = d.ddr := by
  rw [linkUpOp_host hh hst, if_pos ((portPasses_eq_true_iff ..).2 ⟨rfl, hbers⟩)]
  refine ⟨?state, fun l b hl hb => ?ber, by simp, by simp⟩
  case state => simp [Dev.rd_refreshUnits, unitCounts_lt_portKey]
  case ber =>
    have hother : objKey (0x2820 + 4 * h + l) 0x0E ≠ portKey h 1 := by
      rw [portKey_eq_unitKey hh]
      unfold objKey unitKey
      omega
    rw [Dev.rd_refreshUnits _ _ (by unfold objKey; omega), Dev.rd_wr_other _ _ _ _ hother]
    exact Dev.portFound_rd_ber d h errs hl hb

theorem linkUpOp_host_fails (hh : h < 4) (hst : d.rd (portKey h 1) = 1 ∨ d.rd (portKey h 1) = 2) (errs : List Nat)
    {bers : List W32} {uncorr : Bool} (hbad : uncorr = true ∨ ∃ b ∈ bers.take 4, 0x397BA882 < b.toNat) :
    (linkUpOp h errs bers uncorr d).rd (portKey h 1) = 4 ∧
      (linkUpOp h errs bers uncorr d).isRetired (.host h) = true ∧ (linkUpOp h errs bers uncorr d).ddr = d.ddr := by
  have hfail : ¬ portPasses (bers.take 4) uncorr = true := by
    rw [portPasses_eq_true_iff]
    rintro ⟨hok, hle⟩
    rcases hbad with huncorr | ⟨b, hb, hlt⟩
    · simp [huncorr] at hok
    · exact absurd (hle b hb) (Nat.not_le.2 hlt)
  rw [linkUpOp_host hh hst, if_neg hfail]
  refine ⟨?state, Dev.retireUnit_host_isRetired .., by simp⟩
  case state =>
    rw [portKey_eq_unitKey hh 1]
    refine Dev.retireUnit_host_rd 7 ?_
    rw [← portKey_eq_unitKey hh 1, Dev.rd_flag_other _ _ _ _ (by simp)]
    exact Dev.rd_wr_self ..

/-- MGMT regains block lock, and the last of the replies that it held is the last one sent (R593). -/
theorem linkUpOp_mgmt_spec {r : Reply} (hheld : d.qop.held = [r]) (hst : d.rd 0x281001 = 1 ∨ d.rd 0x281001 = 2)
    (errs : List Nat) (bers : List W32) (uncorr : Bool) :
    (linkUpOp 4 errs bers uncorr d).rd 0x281001 = 3 ∧ (linkUpOp 4 errs bers uncorr d).qop.held = [] ∧
      (linkUpOp 4 errs bers uncorr d).qop.last = some r ∧ (linkUpOp 4 errs bers uncorr d).hub = d.hub ∧
      (linkUpOp 4 errs bers uncorr d).ddr = d.ddr := by
  unfold linkUpOp
  rw [if_neg (by omega), if_pos rfl]
  refine ⟨(Dev.rd_congr rfl _).trans (Dev.rd_wr_self d 0x281001 3), rfl, ?_, rfl, rfl⟩
  simp [hheld]

/-- While MGMT is not UP, a reply waits (R593). -/
theorem Dev.sendReply_mgmt_down (hst : d.rd 0x281001 ≠ 3) (r : Reply) :
    (d.sendReply r).qop.last = d.qop.last ∧ (d.sendReply r).qop.held = d.qop.held ++ [d.tagged r] := by
  have hdown : ¬ d.mgmtUp = true := by simpa [Dev.mgmtUp] using hst
  unfold Dev.sendReply
  rw [if_neg hdown]
  exact ⟨rfl, rfl⟩

/-! PAUSE, dropped frames and network requests. -/

theorem Dev.portSends_of_paused (hpaused : h ∈ d.ser.paused) : d.portSends h = false := by
  simp [Dev.portSends, hpaused]

theorem pauseOp_of_rx (hh : h < 4) (hrx : d.rdB (portKey h 9) = true) :
    pauseOp h d = ({ d with ser := { d.ser with
      paused := if d.ser.paused.contains h then d.ser.paused else h :: d.ser.paused } }).flag (portKey h 0x0A) 5 :=
  if_pos ⟨hh, hrx⟩

/-- A received PAUSE holds the port, whether or not an earlier one holds it already. -/
theorem pauseOp_holds (hh : h < 4) (hrx : d.rdB (portKey h 9) = true) : h ∈ (pauseOp h d).ser.paused := by
  rw [pauseOp_of_rx hh hrx, Dev.flag_ser]
  dsimp only
  split_ifs with hmem
  · exact List.contains_iff_mem.1 hmem
  · exact List.mem_cons_self

theorem pauseOp_spec (hh : h < 4) (hrx : d.rdB (portKey h 9) = true) :
    h ∈ (pauseOp h d).ser.paused ∧ (pauseOp h d).portSends h = false ∧
      (pauseOp h d).bit (portKey h 0x0A) 5 = true ∧ (pauseOp h d).hub = d.hub ∧ (pauseOp h d).ddr = d.ddr := by
  have hheld := pauseOp_holds hh hrx
  refine ⟨hheld, Dev.portSends_of_paused hheld, ?flag, ?hub, pauseOp_ddr ..⟩ <;> rw [pauseOp_of_rx hh hrx]
  case flag => exact Dev.bit_flag_self ..
  case hub => exact Dev.flag_hub ..

theorem pauseEndOp_spec (h : Nat) (d : Dev) :
    h ∉ (pauseEndOp h d).ser.paused ∧ (pauseEndOp h d).objs = d.objs ∧ (pauseEndOp h d).hub = d.hub ∧
      (pauseEndOp h d).ddr = d.ddr := by
  refine ⟨?_, rfl, rfl, rfl⟩
  simp [pauseEndOp]

theorem Dev.portAnswers_of_up {v6 : Bool} (hh : h ≤ 4) (hup : d.rd (portKey h 1) = 3)
    (haddr : d.rdB (portKey h (if v6 then 6 else 5)) = true) : d.portAnswers h v6 = true := by
  cases v6 <;> simpa [Dev.portAnswers, hh, hup] using haddr

end Sys2Proof.Machine
end

section
/-! Adaptation: density windows, snapshots and restores (R534 to R537). -/

namespace Sys2Proof.Machine

@[simp] theorem Dev.lane_setLane_self (d : Dev) (n : Nat) (l : Lane) : (d.setLane n l).lane n = l := tabGet_set_self ..

theorem Dev.lane_congr {d e : Dev} (h : d.ser = e.ser) (n : Nat) : d.lane n = e.lane n := by
  unfold Dev.lane
  rw [h]

@[simp] theorem Dev.lane_flag (d : Dev) (key bit n : Nat) : (d.flag key bit).lane n = d.lane n :=
  Dev.lane_congr (Dev.flag_ser ..) n

@[simp] theorem Dev.rd_setLane (d : Dev) (n : Nat) (l : Lane) (key : Nat) : (d.setLane n l).rd key = d.rd key := rfl

@[simp] theorem laneKey_inj (lane a b : Nat) : laneKey lane a = laneKey lane b ↔ a = b := by
  unfold laneKey objKey
  split_ifs <;> omega

/-- No object of a lane is a flags object of its link or port. -/
theorem laneKey_ne_laneFlags (lane sub : Nat) : laneKey lane sub ≠ (laneFlags lane).1 := by
  unfold laneKey laneFlags objKey unitKey
  split_ifs <;> dsimp only <;> omega

theorem exec_densityWindow (lane n : Nat) (s : State) :
    exec (.densityWindow lane n) s = .next (s.onNow (densityWindowOp lane n)) := rfl

theorem exec_adaptSnapshot (lane : Nat) (vs : List Nat) (s : State) :
    exec (.adaptSnapshot lane vs) s = .next (s.onNow (adaptSnapshotOp lane vs)) := rfl

theorem exec_restored (lane : Nat) (vs : List Nat) (s : State) :
    exec (.restored lane vs) s = .next (s.onNow (restoredOp lane vs)) := rfl

variable {d : Dev} {lane n : Nat}

/-! A window of 4,096 symbols, for a lane that is not frozen and for a frozen one. -/

theorem densityWindowOp_dense (hl : lane ≤ 64) (hlive : d.rd (laneKey lane 1) = 0) (hn : 512 ≤ n) :
    densityWindowOp lane n d = d.wr (laneKey lane 2) (min n 4095) := by
  unfold densityWindowOp
  simp [hl, hlive, Nat.not_lt.2 hn]

theorem densityWindowOp_sparse (hl : lane ≤ 64) (hlive : d.rd (laneKey lane 1) = 0) (hn : n < 512) :
    densityWindowOp lane n d = (((d.wr (laneKey lane 2) n).wr (laneKey lane 1) 1).setLane lane
      { d.lane lane with goodWins := 0, dirty := true }).flag (laneFlags lane).1 (8 + (laneFlags lane).2) := by
  unfold densityWindowOp
  have hmin : min n 4095 = n := by omega
  simp [hl, hlive, hn, hmin]

theorem densityWindowOp_thaw (hl : lane ≤ 64) (hfrozen : d.rd (laneKey lane 1) = 1) (hn : 768 ≤ n)
    (hgood : (d.lane lane).goodWins = 1) :
    densityWindowOp lane n d = ((d.wr (laneKey lane 2) (min n 4095)).wr (laneKey lane 1) 0).setLane lane
      { d.lane lane with goodWins := 0, dirty := true } := by
  unfold densityWindowOp
  simp [hl, hfrozen, hn, hgood]

theorem densityWindowOp_stays_frozen (hl : lane ≤ 64) (hfrozen : d.rd (laneKey lane 1) = 1) (hn : n < 768) :
    densityWindowOp lane n d = (d.wr (laneKey lane 2) (min n 4095)).setLane lane
      { d.lane lane with goodWins := 0, dirty := true } := by
  unfold densityWindowOp
  simp [hl, hfrozen, Nat.not_le.2 hn]

theorem densityWindowOp_dense_spec (hl : lane ≤ 64) (hlive : d.rd (laneKey lane 1) = 0) (hn : 512 ≤ n) :
    (densityWindowOp lane n d).rd (laneKey lane 2) = min n 4095 ∧ (densityWindowOp lane n d).rd (laneKey lane 1) = 0 ∧
      (densityWindowOp lane n d).ser = d.ser ∧ (densityWindowOp lane n d).ddr = d.ddr := by
  rw [densityWindowOp_dense hl hlive hn]
  simp [Dev.rd_wr_other, hlive]

theorem densityWindowOp_sparse_spec (hl : lane ≤ 64) (hlive : d.rd (laneKey lane 1) = 0) (hn : n < 512) :
    (densityWindowOp lane n d).rd (laneKey lane 2) = n ∧ (densityWindowOp lane n d).rd (laneKey lane 1) = 1 ∧
      ((densityWindowOp lane n d).lane lane).goodWins = 0 ∧
      (densityWindowOp lane n d).bit (laneFlags lane).1 (8 + (laneFlags lane).2) = true ∧
      (densityWindowOp lane n d).ddr = d.ddr := by
  rw [densityWindowOp_sparse hl hlive hn]
  simp [Dev.rd_flag_other, laneKey_ne_laneFlags, Dev.rd_wr_other]

theorem densityWindowOp_thaw_spec (hl : lane ≤ 64) (hfrozen : d.rd (laneKey lane 1) = 1) (hn : 768 ≤ n)
    (hgood : (d.lane lane).goodWins = 1) :
    (densityWindowOp lane n d).rd (laneKey lane 1) = 0 ∧ (densityWindowOp lane n d).ddr = d.ddr := by
  rw [densityWindowOp_thaw hl hfrozen hn hgood]
  simp

theorem densityWindowOp_stays_frozen_spec (hl : lane ≤ 64) (hfrozen : d.rd (laneKey lane 1) = 1) (hn : n < 768) :
    (densityWindowOp lane n d).rd (laneKey lane 1) = 1 ∧ ((densityWindowOp lane n d).lane lane).goodWins = 0 ∧
      (densityWindowOp lane n d).ddr = d.ddr := by
  rw [densityWindowOp_stays_frozen hl hfrozen hn]
  simp [Dev.rd_wr_other, hfrozen]

/-! Snapshots and restores. -/

theorem adaptSnapshotOp_spec (hl : lane ≤ 64) (vs : List Nat) :
    ((adaptSnapshotOp lane vs d).lane lane).snap =
        (if (d.lane lane).dirty = true ∨ d.rd (laneKey lane 1) = 1 then (d.lane lane).snap else some vs) ∧
      ((adaptSnapshotOp lane vs d).lane lane).dirty = false ∧ (adaptSnapshotOp lane vs d).objs = d.objs ∧
      (adaptSnapshotOp lane vs d).ddr = d.ddr := by
  unfold adaptSnapshotOp
  simp [hl]

theorem restoredOp_left_spec (hl : lane ≤ 64) {vs now : List Nat} (hsnap : (d.lane lane).snap = some vs)
    (hleft : d.leftGuard lane vs now = true) :
    ((restoredOp lane now d).lane lane).vals = vs ∧
      (restoredOp lane now d).bit (laneFlags lane).1 (12 + (laneFlags lane).2) = true ∧
      (restoredOp lane now d).ddr = d.ddr := by
  unfold restoredOp
  simp [hl, hsnap, hleft]

theorem restoredOp_within (hl : lane ≤ 64) {vs now : List Nat} (hsnap : (d.lane lane).snap = some vs)
    (hin : d.leftGuard lane vs now = false) : restoredOp lane now d = d := by
  unfold restoredOp
  simp [hl, hsnap, hin]

end Sys2Proof.Machine
end

section
/-! What ports and lanes do (R512 to R514, R534 to R537, R549, R593). -/

namespace Sys2Proof.Machine

/-- Settles O58: each clause is what one operation does to the device in the case that its hypotheses name. -/
theorem portsAndAdaptation : Obligations.PortsAndAdaptation := by
  unfold Obligations.PortsAndAdaptation
  intro s h hh
  refine ⟨fun hst => ⟨_, exec_linkDown h s, linkDownOp_host_spec hh hst⟩,
    fun hst errs bers uncorr => ⟨?passes, ?fails⟩,
    fun hst => ⟨_, exec_linkDown 4 s, linkDownOp_mgmt_spec hst⟩,
    fun r hst => Dev.sendReply_mgmt_down hst r,
    fun r errs bers uncorr hheld hst =>
      ⟨_, exec_linkUp 4 errs bers uncorr s, linkUpOp_mgmt_spec hheld hst errs bers uncorr⟩,
    fun hrx => ⟨_, exec_pause h s, pauseOp_spec hh hrx⟩,
    ⟨_, exec_pauseEnd h s, pauseEndOp_spec h s.now⟩, ?frameDrop,
    fun v6 hup haddr => ⟨?echo, ?arp⟩,
    fun lane n hl => ⟨?dense, ?sparse, ?thaw, ?staysFrozen, ?snapshot, ?restored⟩⟩
  case passes =>
    rintro rfl hbers
    exact ⟨_, exec_linkUp h errs bers false s, linkUpOp_host_passes hh hst errs hbers⟩
  case fails => exact fun hbad => ⟨_, exec_linkUp h errs bers uncorr s, linkUpOp_host_fails hh hst errs hbad⟩
  case frameDrop => exact does_of_onNow (exec_frameDrop h s) (if_pos (Nat.le_of_lt hh))
  case echo => exact does_of_onNow (exec_icmpEcho h v6 s) (if_pos (Dev.portAnswers_of_up (Nat.le_of_lt hh) hup haddr))
  case arp => exact does_of_onNow (exec_arp h v6 s) (if_pos (Dev.portAnswers_of_up (Nat.le_of_lt hh) hup haddr))
  case dense => exact fun hlive hn => ⟨_, exec_densityWindow lane n s, densityWindowOp_dense_spec hl hlive hn⟩
  case sparse => exact fun hlive hn => ⟨_, exec_densityWindow lane n s, densityWindowOp_sparse_spec hl hlive hn⟩
  case thaw =>
    exact fun hfrozen hn hgood => ⟨_, exec_densityWindow lane n s, densityWindowOp_thaw_spec hl hfrozen hn hgood⟩
  case staysFrozen =>
    exact fun hfrozen hn => ⟨_, exec_densityWindow lane n s, densityWindowOp_stays_frozen_spec hl hfrozen hn⟩
  case snapshot => exact fun vs => ⟨_, exec_adaptSnapshot lane vs s, adaptSnapshotOp_spec hl vs⟩
  case restored =>
    exact fun vs now hsnap => ⟨fun hleft => ⟨_, exec_restored lane now s, restoredOp_left_spec hl hsnap hleft⟩,
      fun hin => does_of_onNow (exec_restored lane now s) (restoredOp_within hl hsnap hin)⟩

end Sys2Proof.Machine
end

section
/-! The stored configuration: what a save, its end and an erase do, and where CFG_SAVE is accepted (R617 to R619). -/

namespace Sys2Proof.Machine

theorem exec_cfgSave (s : State) : exec .cfgSave s = .next (s.onNow cfgSaveOp) := rfl

theorem exec_cfgErase (s : State) : exec .cfgErase s = .next (s.onNow cfgEraseOp) := rfl

theorem exec_cfgSaveComplete (s : State) : exec .cfgSaveComplete s = .next (s.onNow cfgSaveCompleteOp) := rfl

/-! A stamp touches WALL_STATUS alone (R92). -/

theorem Dev.rd_setQop (d : Dev) (q : Qop) (key : Nat) : ({ d with qop := q } : Dev).rd key = d.rd key := rfl

theorem Dev.rd_wrBit_other (d : Dev) (key b j : Nat) (v : Bool) (h : j ≠ key) : (d.wrBit key b v).rd j = d.rd j :=
  Dev.rd_wr_other _ _ _ _ h

theorem Dev.rd_noteStamp_other (d : Dev) (e j : Nat) (h : j ≠ 0x203003) : (d.noteStamp e).rd j = d.rd j := by
  unfold Dev.noteStamp
  split
  · exact Dev.rd_wrBit_other _ _ _ _ _ h
  · rfl

@[simp] theorem Dev.noteStamp_eas (d : Dev) (e : Nat) : (d.noteStamp e).eas = d.eas := by
  unfold Dev.noteStamp
  split <;> simp

section
variable {d : Dev}

/-! Where CFG_SAVE is accepted (R617). -/

theorem Dev.cfgOk_iff : d.cfgOk = true ↔ d.state = .primed ∧ d.qop.commit = none ∧ d.rd 0x101003 ≠ 3 := by
  simp [Dev.cfgOk, and_assoc]

theorem Dev.cfgOk_eq_false_iff :
    d.cfgOk = false ↔ d.state ≠ .primed ∨ d.qop.commit ≠ none ∨ d.rd 0x101003 = 3 := by
  rw [← Bool.not_eq_true, Dev.cfgOk_iff]
  tauto

theorem objRow_cfgSave : objRow 0x1010 1 = some ⟨0x1010, 0x1010, 1, 1, .u8, .wo, 0, some (1, 2)⟩ := by decide +kernel

theorem rangeOk_cfgSave {v : Nat} (hv : v = 1 ∨ v = 2) : rangeOk (objKey 0x1010 1) v = true := by
  rcases hv with rfl | rfl <;> decide +kernel

/-- An item that writes a save or an erase passes every check before the one on the state of the device. -/
theorem Dev.itemStatus_cfgSave (d : Dev) {v : Nat} (hv : v = 1 ∨ v = 2) :
    d.itemStatus { idx := 0x1010, sub := 1, len := 1, val := v } = if d.cfgOk = false then stStateConflict else stOk := by
  have hbyte : v % 256 = v := Nat.mod_eq_of_lt (by omega)
  have hact : d.actStatus 0x1010 1 v = if !d.cfgOk then stStateConflict else stOk := rfl
  unfold Dev.itemStatus
  rw [objRow_cfgSave]
  simp [Ty.bytes, primedOnly, Dev.heldConfig, hbyte, rangeOk_cfgSave hv, hact]

/-! What a save records (R618). -/

theorem Dev.mem_savedFields {x : Staged} : x ∈ d.savedFields ↔
    ∃ p ∈ d.objs, savedIdx (p.1 / 256) = true ∧ ∃ w, objRow (p.1 / 256) (p.1 % 256) = some w ∧
      (w.acc = .rs ∨ w.acc = .rw) ∧ x = { key := p.1, val := p.2, len := w.ty.bytes } := by
  simp only [Dev.savedFields, List.mem_filterMap, List.mem_filter, Option.bind_eq_some_iff, Option.ite_none_right_eq_some,
    Option.some.injEq, and_assoc, eq_comm (a := x)]

theorem Dev.savedFields_of_listed {p : Nat × Nat} (hp : p ∈ d.objs) {w : Row} (hidx : savedIdx (p.1 / 256) = true)
    (hrow : objRow (p.1 / 256) (p.1 % 256) = some w) (hacc : w.acc = .rs ∨ w.acc = .rw) :
    { key := p.1, val := p.2, len := w.ty.bytes } ∈ d.savedFields :=
  Dev.mem_savedFields.2 ⟨p, hp, hidx, w, hrow, hacc, rfl⟩

theorem Dev.listed_of_savedFields {x : Staged} (hx : x ∈ d.savedFields) :
    savedIdx (x.key / 256) = true ∧ (x.key, x.val) ∈ d.objs := by
  obtain ⟨p, hp, hidx, w, -, -, rfl⟩ := Dev.mem_savedFields.1 hx
  exact ⟨hidx, hp⟩

/-! The three operations, each where its guard holds. -/

theorem cfgSaveOp_of_ok (hok : d.cfgOk = true) :
    cfgSaveOp d = { d.wr 0x101003 3 with qop := { d.qop with cfgSaving := some d.savedFields } } := if_pos hok

theorem cfgSaveOp_rejected (hno : d.cfgOk = false) : cfgSaveOp d = d.conflict := if_neg (by simp [hno])

theorem cfgEraseOp_of_ok (hok : d.cfgOk = true) :
    cfgEraseOp d = { d.wrs [(0x101003, 0), (0x101004, 0), (0x101005, 0), (0x101006, 0)] with
      qop := { d.qop with cfg := none } } := if_pos hok

theorem cfgEraseOp_rejected (hno : d.cfgOk = false) : cfgEraseOp d = d.conflict := if_neg (by simp [hno])

theorem cfgSaveOp_spec (hok : d.cfgOk = true) :
    (cfgSaveOp d).rd 0x101003 = 3 ∧ (cfgSaveOp d).qop.cfgSaving = some d.savedFields ∧
      (∀ key, key ≠ 0x101003 → (cfgSaveOp d).rd key = d.rd key) ∧ (cfgSaveOp d).qop.cfg = d.qop.cfg ∧
      (cfgSaveOp d).hub = d.hub ∧ (cfgSaveOp d).eas = d.eas := by
  rw [cfgSaveOp_of_ok hok]
  exact ⟨(Dev.rd_setQop ..).trans (Dev.rd_wr_self ..), rfl, fun key hkey => (Dev.rd_setQop ..).trans (Dev.rd_wr_other _ _ _ _ hkey), rfl, rfl, rfl⟩

theorem cfgEraseOp_spec (hok : d.cfgOk = true) :
    (cfgEraseOp d).rd 0x101003 = 0 ∧ (cfgEraseOp d).qop.cfg = none ∧ (cfgEraseOp d).rd 0x101005 = 0 ∧
      (cfgEraseOp d).qop.cfgSaving = d.qop.cfgSaving ∧ (cfgEraseOp d).hub = d.hub ∧ (cfgEraseOp d).eas = d.eas := by
  rw [cfgEraseOp_of_ok hok]
  refine ⟨?state, rfl, ?words, rfl, ?hub, ?eas⟩
  case state => exact (Dev.rd_setQop ..).trans (Dev.rd_wrs_of_mem d (by simp) (by simp))
  case words => exact (Dev.rd_setQop ..).trans (Dev.rd_wrs_of_mem d (by simp) (by simp))
  case hub => simp
  case eas => simp

/-- The end of a save writes the objects of the table of R616 and makes a stamp, which changes none of these. -/
theorem cfgSaveCompleteOp_spec {l : List Staged} (hsaving : d.qop.cfgSaving = some l) :
    (cfgSaveCompleteOp d).rd 0x101003 = 1 ∧ (cfgSaveCompleteOp d).qop.cfg = some l ∧
      (cfgSaveCompleteOp d).qop.cfgSaving = none ∧ (cfgSaveCompleteOp d).rd 0x101005 = savedWordCount ∧
      (cfgSaveCompleteOp d).hub = d.hub ∧ (cfgSaveCompleteOp d).eas = d.eas := by
  unfold cfgSaveCompleteOp
  rw [hsaving]
  refine ⟨?state, rfl, rfl, ?words, ?hub, ?eas⟩
  case state =>
    rw [Dev.rd_setQop, Dev.rd_noteStamp_other _ _ _ (by decide)]
    exact Dev.rd_wrs_of_mem d (by simp) (by simp)
  case words =>
    rw [Dev.rd_setQop, Dev.rd_noteStamp_other _ _ _ (by decide)]
    exact Dev.rd_wrs_of_mem d (by simp) (by simp)
  case hub => simp
  case eas => simp

end

/-- Settles O19: the hypotheses of the first two clauses are the guard of CFG_SAVE and its negation, and the list that a
save takes is that of the applied values of the Saved fields. -/
theorem storedConfiguration : Obligations.StoredConfiguration := by
  unfold Obligations.StoredConfiguration
  intro s
  refine ⟨fun hprimed hcommit hstate => ?accepted, fun hbusy => ?rejected, fun l hsaving => ?complete⟩
  case accepted =>
    have hok := Dev.cfgOk_iff.2 ⟨hprimed, hcommit, hstate⟩
    constructor
    · obtain ⟨hshows, hsaving, hothers, hcfg, hhub, heas⟩ := cfgSaveOp_spec hok
      exact ⟨_, _, exec_cfgSave s, hshows, hsaving, fun p hp w hidx hrow hacc => Dev.savedFields_of_listed hp hidx hrow hacc,
        fun x hx => Dev.listed_of_savedFields hx, hothers, hcfg, hhub, heas, cfgSaveOp_ddr _⟩
    · obtain ⟨hshows, hcfg, hwords, hsaving, hhub, heas⟩ := cfgEraseOp_spec hok
      exact ⟨_, exec_cfgErase s, hshows, hcfg, hwords, hsaving, hhub, heas, cfgEraseOp_ddr _⟩
  case rejected =>
    have hno := Dev.cfgOk_eq_false_iff.2 hbusy
    refine ⟨does_of_onNow (exec_cfgSave s) (cfgSaveOp_rejected hno),
      does_of_onNow (exec_cfgErase s) (cfgEraseOp_rejected hno), fun v hv => ?_⟩
    rw [Dev.itemStatus_cfgSave _ hv, if_pos hno]
  case complete =>
    obtain ⟨hshows, hcfg, hidle, hwords, hhub, heas⟩ := cfgSaveCompleteOp_spec hsaving
    exact ⟨_, exec_cfgSaveComplete s, hshows, hcfg, hidle, hwords, hhub, heas, cfgSaveCompleteOp_ddr _⟩

end Sys2Proof.Machine
end

section
/-! Housekeeping: triggers and the scans that they start, the results of a scan, and dies at or above 100 °C (R467 to R474,
R698). -/

namespace Sys2Proof.Machine

theorem exec_hkTimer (s : State) : exec .hkTimer s = .next (s.onNow hkTimerOp) := rfl

theorem exec_hkCmd (s : State) : exec .hkCmd s = .next (s.onNow hkCmdOp) := rfl

theorem exec_hkResult (k : Nat) (code : BitVec 12) (s : State) :
    exec (.hkResult k code) s = .next (s.onNow (hkResultOp k code)) := rfl

theorem exec_thermWarn (code : Nat) (s : State) : exec (.thermWarn code) s = .next (s.onNow (thermWarnOp code)) := rfl

/-! A trigger (R471, R472). -/

/-- HK_TIMER's period counts from `t`. -/
def Dev.timedFrom (d : Dev) (t : Nat) : Dev := { d with cal := { d.cal with timerAt := t } }

/-- The timer that is due and a write of HK_CMD do the same: each is a trigger of its source, before which HK_TIMER notes
its tick. -/
theorem exec_trigger {i : Instr} {source : Nat} {s : State}
    (h : (i = .hkTimer ∧ source = 0 ∧ s.now.state ≠ .asleep ∧ s.now.cal.timerAt + s.now.rd 0x6C0402 ≤ s.now.epoch) ∨
      (i = .hkCmd ∧ source = 2)) :
    ∃ t, exec i s = .next { s with now := (s.now.timedFrom t).hkTrigger source } := by
  rcases h with ⟨rfl, rfl, -, hdue⟩ | ⟨rfl, rfl⟩
  · refine ⟨s.now.epoch, ?_⟩
    rw [exec_hkTimer, State.onNow, hkTimerOp, if_neg fun hearly => Nat.not_lt.2 hdue hearly.2]
    rfl
  · exact ⟨s.now.cal.timerAt, rfl⟩

section
variable {d : Dev} {source : Nat}

theorem Dev.hkTrigger_disabled (hoff : d.bit 0x6C0401 source = false) : d.hkTrigger source = d := by
  simp [Dev.hkTrigger, hoff]

/-- The converters are free in the next tick: no scan runs, and no conversion of the calibration engine lasts longer. -/
def Dev.hkFree (d : Dev) : Bool := d.cal.scan.isNone && (d.cal.conv.all fun t => decide (t ≤ d.epoch + 1))

theorem Dev.hkFree_iff : d.hkFree = true ↔ d.cal.scan = none ∧ ∀ c, d.cal.conv = some c → c ≤ d.epoch + 1 := by
  simp [Dev.hkFree, Option.all_eq_true]

theorem Dev.hkFree_eq_false_iff :
    d.hkFree = false ↔ d.cal.scan ≠ none ∨ ∃ c, d.cal.conv = some c ∧ d.epoch + 1 < c := by
  rw [← Bool.not_eq_true, Dev.hkFree_iff]
  push Not
  tauto

/-- What the first trigger in a tick does, from an enabled source. -/
theorem Dev.hkTrigger_first (hon : d.bit 0x6C0401 source = true) (hfirst : d.cal.trigAt ≠ some d.epoch) :
    d.hkTrigger source =
      let d1 : Dev := { d with cal := { d.cal with trigAt := some d.epoch } }
      if d.hkFree then
        ({ d1 with cal := { d1.cal with
          conv := none, runs := if d.cal.conv.isSome then countConv d1.cal.runs else d1.cal.runs } }).beginScan (d.epoch + 1)
      else if d.cal.held then d1.flag 0x6C0406 1
      else { d1 with cal := { d1.cal with held := true } } := by
  unfold Dev.hkTrigger
  rw [if_neg (by simp [hon]), if_neg fun hsame => hfirst hsame.1]
  rfl

theorem Dev.hkTrigger_starts (hon : d.bit 0x6C0401 source = true) (hfirst : d.cal.trigAt ≠ some d.epoch)
    (hfree : d.hkFree = true) :
    ∃ sc, (d.hkTrigger source).cal.scan = some sc ∧ sc.step = 0 ∧ sc.at_ = d.epoch + 1 ∧ sc.got = 0 ∧
      (d.hkTrigger source).objs = d.objs ∧ (d.hkTrigger source).hub = d.hub ∧ (d.hkTrigger source).ddr = d.ddr := by
  rw [Dev.hkTrigger_first hon hfirst]
  rw [hfree]
  exact ⟨_, rfl, rfl, rfl, rfl, rfl, rfl, Dev.beginScan_ddr ..⟩

theorem Dev.hkTrigger_waits (hon : d.bit 0x6C0401 source = true) (hfirst : d.cal.trigAt ≠ some d.epoch)
    (hbusy : d.hkFree = false) (hheld : d.cal.held = false) :
    (d.hkTrigger source).cal.held = true ∧ (d.hkTrigger source).cal.scan = d.cal.scan ∧
      (d.hkTrigger source).objs = d.objs ∧ (d.hkTrigger source).hub = d.hub ∧ (d.hkTrigger source).ddr = d.ddr := by
  rw [Dev.hkTrigger_first hon hfirst]
  simp [hbusy, hheld]

theorem Dev.hkTrigger_merges (hon : d.bit 0x6C0401 source = true) (hfirst : d.cal.trigAt ≠ some d.epoch)
    (hbusy : d.hkFree = false) (hheld : d.cal.held = true) :
    (d.hkTrigger source).cal.scan = d.cal.scan ∧ (d.hkTrigger source).bit 0x6C0406 1 = true ∧
      (d.hkTrigger source).hub = d.hub ∧ (d.hkTrigger source).ddr = d.ddr := by
  rw [Dev.hkTrigger_first hon hfirst]
  simp [hbusy, hheld]

end

/-! The value of an input, its tick and its limits (R469, R474). -/

theorem Dev.rd_produce (d : Dev) (line key : Nat) : (d.produce line).rd key = d.rd key :=
  Dev.rd_congr (Dev.produce_objs ..) key

section
variable (d : Dev) (k i code at_ : Nat)

/-- HK_VALUE of an input as a result gives it: the code, the bits of the limits it is outside of, and VALID. -/
def Dev.hkValue (d : Dev) (k i code : Nat) : Nat :=
  code + bitAt (decide (code < d.rd (unitKey 0x6D0002 (32 * k + i)))) 12 +
    bitAt (decide (d.rd (unitKey 0x6D0003 (32 * k + i)) < code)) 13 + 2 ^ 14

theorem Dev.hkValue_eq : d.hkValue k i code = code + 2 ^ 14 +
    (if code < d.rd (unitKey 0x6D0002 (32 * k + i)) then 2 ^ 12 else 0) +
    (if d.rd (unitKey 0x6D0003 (32 * k + i)) < code then 2 ^ 13 else 0) := by
  simp only [Dev.hkValue, bitAt, decide_eq_true_eq]
  omega

/-- A result changes HK_VALUE and HK_EPOCH of its input; outside its limits it also sets a flag and is a cause. -/
theorem Dev.hkStore_eq : d.hkStore k i code at_ =
    let d1 := d.wrs [(unitKey 0x6D0001 (32 * k + i), d.hkValue k i code), (unitKey 0x6D0006 (32 * k + i), at_)]
    if code < d.rd (unitKey 0x6D0002 (32 * k + i)) ∨ d.rd (unitKey 0x6D0003 (32 * k + i)) < code then
      (d1.flag (unitKey 0x6C0003 k) i).produce (0x88 + k)
    else d1 := by
  have hkeys : ∀ sub, unitKey 0x6D0000 (32 * k + i) + sub = unitKey (0x6D0000 + sub) (32 * k + i) := fun sub => by
    unfold unitKey
    omega
  simp [Dev.hkStore, Dev.hkValue, hkeys]

/-- Of the objects other than the flags of its converter, a result changes the two of its input. -/
theorem Dev.rd_hkStore {key : Nat} (h : key ≠ unitKey 0x6C0003 k) : (d.hkStore k i code at_).rd key =
    (d.wrs [(unitKey 0x6D0001 (32 * k + i), d.hkValue k i code), (unitKey 0x6D0006 (32 * k + i), at_)]).rd key := by
  rw [Dev.hkStore_eq]
  dsimp only
  split
  · rw [Dev.rd_produce, Dev.rd_flag_other _ _ _ _ h]
  · rfl

theorem Dev.rd_hkStore_value :
    (d.hkStore k i code at_).rd (unitKey 0x6D0001 (32 * k + i)) = d.hkValue k i code := by
  rw [Dev.rd_hkStore _ _ _ _ _ (by unfold unitKey; omega)]
  exact Dev.rd_wrs_of_mem d (by simp) (by simp)

theorem Dev.rd_hkStore_epoch :
    (d.hkStore k i code at_).rd (unitKey 0x6D0006 (32 * k + i)) = at_ := by
  rw [Dev.rd_hkStore _ _ _ _ _ (by unfold unitKey; omega)]
  exact Dev.rd_wrs_of_mem d (by simp) (by simp)

theorem Dev.bit_hkStore_limit
    (hout : code < d.rd (unitKey 0x6D0002 (32 * k + i)) ∨ d.rd (unitKey 0x6D0003 (32 * k + i)) < code) :
    (d.hkStore k i code at_).bit (unitKey 0x6C0003 k) i = true := by
  rw [Dev.hkStore_eq]
  simp only [hout, if_true]
  unfold Dev.bit
  rw [Dev.rd_produce]
  exact Dev.bit_flag_self ..

@[simp] theorem Dev.hkStore_hub : (d.hkStore k i code at_).hub = d.hub := by
  rw [Dev.hkStore_eq]
  dsimp only
  split <;> simp

end

/-! The targets that follow a temperature (R458), and DIE_TEMP_MAX (R707). -/

/-- Whatever a write of FO_TARGET leaves, the new targets of an input's channels leave. -/
theorem Dev.foTargets_leaves {α : Type} {f : Dev → α} (h : ∀ e c v, f (e.wr (unitKey 0x690005 c) v) = f e) (d : Dev)
    (i : Nat) : f (d.foTargets i) = f d := by
  refine List.foldlRecOn (motive := fun e => f e = f d) _ _ rfl fun e he c _ => ?_
  split
  · exact (h ..).trans he
  · exact he

@[simp] theorem Dev.foTargets_hub (d : Dev) (i : Nat) : (d.foTargets i).hub = d.hub :=
  Dev.foTargets_leaves (fun _ _ _ => rfl) d i

theorem Dev.rd_foTargets (d : Dev) (i : Nat) {key : Nat} (h : ∀ c, key ≠ unitKey 0x690005 c) :
    (d.foTargets i).rd key = d.rd key :=
  Dev.foTargets_leaves (f := (·.rd key)) (fun _ c _ => Dev.rd_wr_other _ _ _ _ (h c)) d i

/-- What a temperature of HK0 sets besides HK_VALUE: the maximum of the dies, and the targets of the channels. -/
def Dev.hkFollow (d : Dev) (k i code : Nat) : Dev :=
  if k = 0 ∧ i ≤ 21 then (if i ≤ 19 then d.wr 0x7C0007 (max (d.rd 0x7C0007) code) else d).foTargets i else d

@[simp] theorem Dev.hkFollow_hub (d : Dev) (k i code : Nat) : (d.hkFollow k i code).hub = d.hub := by
  unfold Dev.hkFollow
  split_ifs <;> simp

theorem Dev.rd_hkFollow (d : Dev) (k i code : Nat) {key : Nat} (hmax : key ≠ 0x7C0007)
    (htarget : ∀ c, key ≠ unitKey 0x690005 c) : (d.hkFollow k i code).rd key = d.rd key := by
  unfold Dev.hkFollow
  split_ifs
  · rw [Dev.rd_foTargets _ _ htarget, Dev.rd_wr_other _ _ _ _ hmax]
  · exact Dev.rd_foTargets _ _ htarget
  · rfl

/-! A result of the present step (R469 to R473). -/

/-- The scan after a result: its next step begins when every converter has given its result. -/
def Dev.hkStepDone (d : Dev) (sc : Scan) : Dev :=
  if sc.got = 15 then d.scanNext sc else { d with cal := { d.cal with scan := some sc } }

@[simp] theorem Dev.hkStepDone_objs (d : Dev) (sc : Scan) : (d.hkStepDone sc).objs = d.objs := by
  unfold Dev.hkStepDone Dev.scanNext
  dsimp only
  split_ifs <;> rfl

@[simp] theorem Dev.hkStepDone_hub (d : Dev) (sc : Scan) : (d.hkStepDone sc).hub = d.hub := by
  unfold Dev.hkStepDone Dev.scanNext
  dsimp only
  split_ifs <;> rfl

section
variable {d : Dev} {k i : Nat} {sc : Scan}

/-- The result of a converter whose conversion has ended is stored for the input of the step, and the scan goes on. -/
theorem hkResultOp_due (code : BitVec 12) (hscan : d.cal.scan = some sc) (hk : k < 4) (hnew : sc.got.testBit k = false)
    (hdue : sc.at_ + sc.time k ≤ d.epoch)
    (hi : bits (d.rd (unitKey 0x6C0002 k)) (8 * sc.step + 7) (8 * sc.step) = i) :
    hkResultOp k code d = ((d.hkStore k i code.toNat sc.at_).hkFollow k i code.toNat).hkStepDone
      { sc with got := sc.got + 2 ^ k } := by
  subst hi
  unfold hkResultOp
  rw [hscan]
  dsimp only
  rw [if_neg]
  · rfl
  · rintro (hbig | hgiven | ⟨-, hearly⟩)
    · exact Nat.not_lt.2 hbig hk
    · simp [hnew] at hgiven
    · exact Nat.not_lt.2 hdue hearly

theorem hkResultOp_spec (code : BitVec 12) (hscan : d.cal.scan = some sc) (hk : k < 4)
    (hnew : sc.got.testBit k = false) (hdue : sc.at_ + sc.time k ≤ d.epoch)
    (hi : bits (d.rd (unitKey 0x6C0002 k)) (8 * sc.step + 7) (8 * sc.step) = i) :
    (hkResultOp k code d).rd (unitKey 0x6D0001 (32 * k + i)) = d.hkValue k i code.toNat ∧
      (hkResultOp k code d).rd (unitKey 0x6D0006 (32 * k + i)) = sc.at_ ∧
      (code.toNat < d.rd (unitKey 0x6D0002 (32 * k + i)) ∨ d.rd (unitKey 0x6D0003 (32 * k + i)) < code.toNat →
        (hkResultOp k code d).bit (unitKey 0x6C0003 k) i = true) ∧
      (hkResultOp k code d).hub = d.hub := by
  have hstored : ∀ key, key ≠ 0x7C0007 → (∀ c, key ≠ unitKey 0x690005 c) →
      (hkResultOp k code d).rd key = (d.hkStore k i code.toNat sc.at_).rd key := fun key hmax htarget => by
    rw [hkResultOp_due code hscan hk hnew hdue hi, Dev.rd_congr (Dev.hkStepDone_objs ..),
      Dev.rd_hkFollow _ _ _ _ hmax htarget]
  refine ⟨?value, ?epoch, fun hout => ?limit, ?hub⟩
  case value =>
    rw [hstored _ (by unfold unitKey; omega) (by unfold unitKey; omega)]
    exact Dev.rd_hkStore_value ..
  case epoch =>
    rw [hstored _ (by unfold unitKey; omega) (by unfold unitKey; omega)]
    exact Dev.rd_hkStore_epoch ..
  case limit =>
    unfold Dev.bit
    rw [hstored _ (by unfold unitKey; omega) (by unfold unitKey; omega)]
    exact Dev.bit_hkStore_limit d k i _ _ hout
  case hub =>
    rw [hkResultOp_due code hscan hk hnew hdue hi]
    simp

end

/-! Dies at or above 100 °C (R698). -/

theorem thermWarnOp_hot {code : Nat} (hhot : 2624 ≤ code) (d : Dev) :
    thermWarnOp code d = (d.wr 0x7C0007 (max (d.rd 0x7C0007) code)).flag 0x7C0001 0 := if_pos hhot

theorem thermWarnOp_cool {code : Nat} (hcool : code < 2624) (d : Dev) : thermWarnOp code d = d :=
  if_neg (Nat.not_le.2 hcool)

theorem thermWarnOp_hot_spec {code : Nat} (hhot : 2624 ≤ code) (d : Dev) :
    (thermWarnOp code d).bit 0x7C0001 0 = true ∧ (thermWarnOp code d).rd 0x7C0007 = max (d.rd 0x7C0007) code ∧
      (thermWarnOp code d).state = d.state ∧ (thermWarnOp code d).hub = d.hub ∧ (thermWarnOp code d).eas = d.eas ∧
      (thermWarnOp code d).dsp = d.dsp ∧ (thermWarnOp code d).pwr = d.pwr ∧ (thermWarnOp code d).ddr = d.ddr := by
  rw [thermWarnOp_hot hhot]
  simp [Dev.rd_flag_other]

/-- Settles O50: HK_TIMER and HK_CMD are triggers of their source, of which the first in a tick does what the converters'
state asks for; a result that is due is stored for its input, and what follows it touches neither object nor the flags. -/
theorem housekeepingScans : Obligations.HousekeepingScans := by
  unfold Obligations.HousekeepingScans
  intro s
  refine ⟨fun i source hi hon hfirst => ?trigger, fun hoff => ?disabled,
    fun k code sc i hscan hk hnew hdue hinput => ?result, fun code => ⟨fun hhot => ?hot, fun hcool => ?cool⟩⟩
  case trigger =>
    obtain ⟨t, hexec⟩ := exec_trigger hi
    have hon' : (s.now.timedFrom t).bit 0x6C0401 source = true := hon
    refine ⟨fun hidle hconv => ?starts, fun hbusy hheld => ?waits, fun hbusy hheld => ?merges⟩
    case starts =>
      obtain ⟨sc, hscan⟩ := Dev.hkTrigger_starts hon' hfirst (Dev.hkFree_iff.2 ⟨hidle, hconv⟩)
      exact ⟨_, sc, hexec, hscan⟩
    case waits => exact ⟨_, hexec, Dev.hkTrigger_waits hon' hfirst (Dev.hkFree_eq_false_iff.2 hbusy) hheld⟩
    case merges => exact ⟨_, hexec, Dev.hkTrigger_merges hon' hfirst (Dev.hkFree_eq_false_iff.2 hbusy) hheld⟩
  case disabled => exact does_of_onNow (exec_hkCmd s) (Dev.hkTrigger_disabled hoff)
  case result =>
    obtain ⟨hvalue, hepoch, hlimit, hhub⟩ := hkResultOp_spec code hscan hk hnew hdue hinput
    exact ⟨_, exec_hkResult k code s, hvalue.trans (Dev.hkValue_eq ..), hepoch, hlimit, hhub, hkResultOp_ddr ..⟩
  case hot => exact ⟨_, exec_thermWarn code s, thermWarnOp_hot_spec hhot s.now⟩
  case cool => exact does_of_onNow (exec_thermWarn code s) (thermWarnOp_cool hcool s.now)

end Sys2Proof.Machine
end

section
/-! Commands and the bytes of DDR4: every command changes the device alone, which commands leave the bytes, and that the
others keep their canonical form (log entries 1, 2 and 6). -/

namespace Sys2Proof.Machine

/-- Every command is a change of the device. -/
theorem exec_eq_onNow (i : Instr) (s : State) : ∃ f : Dev → Dev, exec i s = .next (s.onNow f) := by
  cases i with
  | _ => exact ⟨_, rfl⟩

/-- Settles O1: a step is defined as its front command or a tick, and a command is a change of the device alone. -/
theorem stepRunsTheFrontCommand : Obligations.StepRunsTheFrontCommand := by
  unfold Obligations.StepRunsTheFrontCommand
  refine ⟨fun _ _ => rfl, fun s hempty => ?_, fun s => by simp only [State.tick], fun c s => ?_⟩
  · unfold step
    rw [hempty]
  · obtain ⟨f, hexec⟩ := exec_eq_onNow c s
    exact ⟨_, hexec, rfl, rfl⟩

theorem memory_wf_nil : Memory.wf [] := ⟨List.Pairwise.nil, fun _ hmem => absurd hmem List.not_mem_nil⟩

/-- Settles O3: nothing is written in DDR4 after power-on reset. -/
theorem resetMemoryCanonical : Obligations.ResetMemoryCanonical := by
  unfold Obligations.ResetMemoryCanonical State.wf
  exact ⟨memory_wf_nil, memory_wf_nil⟩

@[simp] theorem ddrReadOp_ddr (r : Req) (addr len : Nat) (d : Dev) : (ddrReadOp r addr len d).ddr = d.ddr :=
  Dev.serve_ddr _ _ _ _ _ _ fun _ => rfl

/-- The commands that touch no byte of DDR4 leave it as it is: each by the law of its own operation. -/
theorem exec_ddr {i : Instr} {s t : State} (hq : touchesDdr i = false) (h : exec i s = .next t) :
    t.now.ddr = s.now.ddr := by
  cases i with
  | loadClose | bulkCopy | bulkTail | resetPowerOn | resetN | powerRemoval | feedLoss | pmbusPoll => cases hq
  | priming step =>
    cases h
    exact primingOp_ddr _ (by simpa [touchesDdr] using hq)
  | opNop x hdr =>
    cases h
    exact Dev.dispatch_ddr _ _ _ _ _ _ fun _ _ _ => rfl
  | _ =>
    cases h
    simp [State.onNow]

/-- Settles O4. -/
theorem memoryFrame : Obligations.MemoryFrame := by
  unfold Obligations.MemoryFrame
  intro c s t hq hexec a
  rw [exec_ddr hq hexec]

/-! The commands that store, remove power or test. -/

/-- A request keeps the canonical form where what it runs does. -/
theorem Dev.serve_ddr_wf {d : Dev} (hd : Memory.wf d.ddr) (r : Req) (cmd : Nat) (payload : List Byte) (formOk : Bool)
    {run : Dev → Dev × Option Ans} (hrun : ∀ e : Dev, Memory.wf e.ddr → Memory.wf (run e).1.ddr) :
    Memory.wf (d.serve r cmd payload formOk run).ddr := by
  have htaken : Memory.wf (run (d.take r)).1.ddr := hrun _ (by simpa using hd)
  unfold Dev.serve
  dsimp only
  split
  · exact hd
  · split
    case h_5 =>
      split
      · simpa using hd
      · split <;> simpa using htaken
    all_goals simpa using hd

theorem loadCloseOp_ddr_wf {d : Dev} (hd : Memory.wf d.ddr) (r : Req) (handle : Nat) (crc : W32) :
    Memory.wf (loadCloseOp r handle crc d).ddr := by
  refine Dev.serve_ddr_wf hd _ _ _ _ fun e he => ?_
  dsimp only
  split
  · exact he
  · next l _ =>
    have hstored := ddrWrite_wf l.target l.bytes he
    split_ifs
    all_goals simp
    all_goals assumption

theorem bulkCopyOp_ddr_wf {d : Dev} (hd : Memory.wf d.ddr) (r : Req) (chip src dst len : Nat) :
    Memory.wf (bulkCopyOp r chip src dst len d).ddr := by
  refine Dev.serve_ddr_wf hd _ _ _ _ fun e he => ?_
  have hstored := ddrWrite_wf dst (Machine.ddrRead e.ddr src len) he
  split_ifs
  all_goals simp
  all_goals assumption

theorem bulkTailOp_ddr_wf {d : Dev} (hd : Memory.wf d.ddr) (c : CellHdr) (crc : W32) :
    Memory.wf (bulkTailOp c crc d).ddr := by
  unfold bulkTailOp
  dsimp only
  split
  · simpa using hd
  · next b _ =>
    have hstored := ddrWrite_wf b.addr b.data hd
    split_ifs
    all_goals simp
    all_goals assumption

/-- Removing power leaves no byte. -/
@[simp] theorem Dev.wiped_ddr (d : Dev) : d.wiped.ddr = [] := Dev.wr_ddr ..

@[simp] theorem Dev.powerOn_ddr (d : Dev) : d.powerOn.ddr = [] := (Dev.wr_ddr ..).trans d.wiped_ddr

theorem powerRemovalOp_ddr (d : Dev) : (powerRemovalOp d).ddr = [] := d.wiped_ddr

theorem resetPowerOnOp_ddr_wf {d : Dev} (hd : Memory.wf d.ddr) (r : Req) : Memory.wf (resetPowerOnOp r d).ddr :=
  Dev.serve_ddr_wf hd _ _ _ _ fun e _ => by simpa using memory_wf_nil

theorem resetNOp_ddr_wf {d : Dev} (hd : Memory.wf d.ddr) (cfgDefaultLow : Bool) :
    Memory.wf (resetNOp cfgDefaultLow d).ddr := by
  unfold resetNOp
  have hnone := memory_wf_nil
  dsimp only
  split_ifs
  all_goals simp
  all_goals assumption

theorem feedLossOp_ddr_wf {d : Dev} (hd : Memory.wf d.ddr) (die : Nat) (sideB : Bool) :
    Memory.wf (feedLossOp die sideB d).ddr := by
  unfold feedLossOp
  have hnone := memory_wf_nil
  extract_lets side key d1 hub d2 d3
  have hd2 : d2.ddr = d.ddr := by simp [d2, d1]
  have hd3 : d3.ddr = d.ddr := by
    unfold d3
    split <;> simp [hd2]
  split_ifs
  · exact hd
  · rwa [hd3]
  · rwa [powerRemovalOp_ddr]
  · rwa [foldl_ddr _ _ _ fun _ _ => Dev.retireNow_ddr .., hd3]

theorem pmbusPollOp_ddr_wf {d : Dev} (hd : Memory.wf d.ddr) (sideB : Bool) (rail attemptsFailed : Nat)
    (faultBit : Bool) : Memory.wf (pmbusPollOp sideB rail attemptsFailed faultBit d).ddr := by
  unfold pmbusPollOp
  extract_lets side pwr d1
  have hd1 : Memory.wf d1.ddr := hd
  split
  · exact hd1
  · split
    · simpa using hd1
    · split
      · exact feedLossOp_ddr_wf hd1 _ _
      · exact hd1

/-- The memory test of step 5 leaves the bytes, or none of them. -/
theorem primingOp_ddr_wf {d : Dev} (hd : Memory.wf d.ddr) (step : Nat) : Memory.wf (primingOp step d).ddr := by
  by_cases hstep : step = 5
  · subst hstep
    unfold primingOp
    split
    · show Memory.wf (Dev.memoryTest _ 5).ddr
      rw [Dev.memoryTest_ddr]
      unfold Dev.marched
      rw [if_neg (by decide)]
      split
      · exact memory_wf_nil
      · simpa using hd
    · exact hd
  · rwa [primingOp_ddr _ hstep]

theorem exec_ddr_wf {i : Instr} {s t : State} (hs : Memory.wf s.now.ddr) (h : exec i s = .next t) :
    Memory.wf t.now.ddr := by
  cases hq : touchesDdr i with
  | false => rwa [exec_ddr hq h]
  | true =>
    cases i with
    | loadClose => cases h; exact loadCloseOp_ddr_wf hs ..
    | bulkCopy => cases h; exact bulkCopyOp_ddr_wf hs ..
    | bulkTail => cases h; exact bulkTailOp_ddr_wf hs ..
    | resetPowerOn => cases h; exact resetPowerOnOp_ddr_wf hs _
    | resetN => cases h; exact resetNOp_ddr_wf hs _
    | powerRemoval => cases h; exact (powerRemovalOp_ddr s.now).symm ▸ memory_wf_nil
    | feedLoss => cases h; exact feedLossOp_ddr_wf hs ..
    | pmbusPoll => cases h; exact pmbusPollOp_ddr_wf hs ..
    | priming => cases h; exact primingOp_ddr_wf hs _
    | _ => cases hq

/-- A tick leaves the bytes of DDR4. -/
theorem State.tick_wf {s : State} (hs : Memory.wf s.now.ddr) : s.tick.wf := by
  unfold State.tick State.wf
  rw [Dev.beginTick_ddr, Dev.endTick_ddr]
  exact ⟨hs, hs⟩

/-- Settles O2: a command changes the present device alone, and a tick leaves the bytes of DDR4. -/
theorem stepKeepsMemoryCanonical : Obligations.StepKeepsMemoryCanonical := by
  unfold Obligations.StepKeepsMemoryCanonical
  intro s t ⟨hnow, hlast⟩ hstep
  unfold step at hstep
  cases hpending : s.pending with
  | nil =>
    rw [hpending] at hstep
    exact Host.Outcome.next.inj hstep ▸ State.tick_wf hnow
  | cons c rest =>
    rw [hpending] at hstep
    obtain ⟨f, hexec⟩ := exec_eq_onNow c { s with pending := rest }
    have hsame : t.last = s.last := (Host.Outcome.next.inj (hexec.symm.trans hstep)) ▸ rfl
    exact ⟨exec_ddr_wf (s := { s with pending := rest }) hnow hstep, hsame ▸ hlast⟩

end Sys2Proof.Machine
end

section
/-! What power-on reset leaves (R44, R571, R683). -/

namespace Sys2Proof.Machine

/-- Settles O5: the state after reset lists nothing, so each object, thread and core reads what an unlisted one does. -/
theorem resetState : Obligations.ResetState := by
  unfold Obligations.ResetState
  exact ⟨rfl, rfl, rfl, rfl, fun _ => rfl, fun _ => rfl, rfl, rfl, rfl, fun _ => rfl, fun _ => rfl⟩

end Sys2Proof.Machine
end

section
/-! The QOP server's gates (R556 to R558, R563): what a request that is not served does, and what one that is served and
its reply leave. -/

namespace Sys2Proof.Machine

/-! What a host flag and step 1 of the tick change. -/

theorem Dev.rd_hostFlag_other (d : Dev) (key bit j : Nat) (h : j ≠ key) : (d.hostFlag key bit).rd j = d.rd j :=
  (Dev.rd_congr (Dev.setFlag_objs ..) j).trans (Dev.rd_wr_other _ _ _ _ h)

@[simp] theorem Dev.bit_hostFlag_self (d : Dev) (key b : Nat) : (d.hostFlag key b).bit key b = true := by
  unfold Dev.bit Dev.hostFlag
  rw [Dev.rd_congr (d.setFlag_objs key b 1), Dev.rd_wr_self]
  exact (Nat.testBit_or ..).trans (by simp)

theorem Dev.bit_congr {d e : Dev} (h : d.objs = e.objs) (key b : Nat) : d.bit key b = e.bit key b := by
  unfold Dev.bit
  rw [Dev.rd_congr h]

@[simp] theorem Dev.inStep1_objs (d b : Dev) : (d.inStep1 b).objs = d.objs := rfl
@[simp] theorem Dev.inStep1_epoch (d b : Dev) : (d.inStep1 b).epoch = d.epoch := rfl
@[simp] theorem Dev.inStep1_counting (d b : Dev) : (d.inStep1 b).counting = d.counting := rfl
@[simp] theorem Dev.inStep1_state (d b : Dev) : (d.inStep1 b).state = d.state := rfl
@[simp] theorem Dev.inStep1_counters (d b : Dev) : (d.inStep1 b).counters = d.counters := rfl
@[simp] theorem Dev.inStep1_qop (d b : Dev) : (d.inStep1 b).qop = d.qop := rfl
@[simp] theorem Dev.inStep1_hub (d b : Dev) : (d.inStep1 b).hub = d.hub := rfl
@[simp] theorem Dev.inStep1_eas (d b : Dev) : (d.inStep1 b).eas = d.eas := rfl
@[simp] theorem Dev.inStep1_out (d b : Dev) : (d.inStep1 b).out = d.out := rfl
@[simp] theorem Dev.inStep1_pwr (d b : Dev) : (d.inStep1 b).pwr = d.pwr := rfl
@[simp] theorem Dev.inStep1_lat (d b : Dev) : (d.inStep1 b).lat = d.lat := rfl
@[simp] theorem Dev.inStep1_rd (d b : Dev) (key : Nat) : (d.inStep1 b).rd key = d.rd key := rfl

/-! A reply: what it changes of the QOP server, and the last one sent while MGMT is up. -/

theorem Dev.sendReply_last {d : Dev} (p : Reply) (hmgmt : d.rd 0x281001 = 3) :
    (d.sendReply p).qop.last = some (d.tagged p) := by
  unfold Dev.sendReply
  rw [if_pos (by simpa [Dev.mgmtUp] using hmgmt)]

@[simp] theorem Dev.sendReply_idents (d : Dev) (p : Reply) : (d.sendReply p).qop.idents = d.qop.idents := by
  unfold Dev.sendReply
  split <;> rfl

@[simp] theorem Dev.sendReply_draft (d : Dev) (p : Reply) : (d.sendReply p).qop.draft = d.qop.draft := by
  unfold Dev.sendReply
  split <;> rfl

@[simp] theorem Dev.sendReply_commit (d : Dev) (p : Reply) : (d.sendReply p).qop.commit = d.qop.commit := by
  unfold Dev.sendReply
  split <;> rfl

@[simp] theorem Dev.sendReply_loads (d : Dev) (p : Reply) : (d.sendReply p).qop.loads = d.qop.loads := by
  unfold Dev.sendReply
  split <;> rfl

@[simp] theorem Dev.sendReply_deferred (d : Dev) (p : Reply) : (d.sendReply p).qop.deferred = d.qop.deferred := by
  unfold Dev.sendReply
  split <;> rfl

@[simp] theorem Dev.finishReply_draft (d : Dev) (p : Reply) : (d.finishReply p).qop.draft = d.qop.draft :=
  Dev.sendReply_draft ..

@[simp] theorem Dev.finishReply_commit (d : Dev) (p : Reply) : (d.finishReply p).qop.commit = d.qop.commit :=
  Dev.sendReply_commit ..

@[simp] theorem Dev.finishReply_loads (d : Dev) (p : Reply) : (d.finishReply p).qop.loads = d.qop.loads :=
  Dev.sendReply_loads ..

@[simp] theorem Dev.finishReply_deferred (d : Dev) (p : Reply) : (d.finishReply p).qop.deferred = d.qop.deferred :=
  Dev.sendReply_deferred ..

/-- Whatever a reply kept and a reply sent leave, and the count of rejections, an answer leaves. -/
theorem Dev.settleAnswer_leaves {α : Type} {f : Dev → α} (hconflict : ∀ e, f (Dev.conflict e) = f e)
    (hfinish : ∀ e p, f (Dev.finishReply e p) = f e) (hsend : ∀ e p, f (Dev.sendReply e p) = f e) (d : Dev) (r : Req)
    (cmd : Nat) (a : Ans) : f (d.settleAnswer r cmd a) = f d := by
  unfold Dev.settleAnswer Dev.answer
  dsimp only
  split_ifs <;> simp [hconflict, hfinish, hsend]

@[simp] theorem Dev.settleAnswer_objs (d : Dev) (r : Req) (cmd : Nat) (a : Ans) :
    (d.settleAnswer r cmd a).objs = d.objs :=
  Dev.settleAnswer_leaves (f := Dev.objs) (by simp) (by simp) (by simp) ..

@[simp] theorem Dev.settleAnswer_rd (d : Dev) (r : Req) (cmd : Nat) (a : Ans) (key : Nat) :
    (d.settleAnswer r cmd a).rd key = d.rd key := Dev.rd_congr (Dev.settleAnswer_objs ..) key

@[simp] theorem Dev.settleAnswer_hub (d : Dev) (r : Req) (cmd : Nat) (a : Ans) : (d.settleAnswer r cmd a).hub = d.hub :=
  Dev.settleAnswer_leaves (f := Dev.hub) (by simp) (by simp) (by simp) ..

@[simp] theorem Dev.settleAnswer_eas (d : Dev) (r : Req) (cmd : Nat) (a : Ans) : (d.settleAnswer r cmd a).eas = d.eas :=
  Dev.settleAnswer_leaves (f := Dev.eas) (by simp) (by simp) (by simp) ..

@[simp] theorem Dev.settleAnswer_out (d : Dev) (r : Req) (cmd : Nat) (a : Ans) : (d.settleAnswer r cmd a).out = d.out :=
  Dev.settleAnswer_leaves (f := Dev.out) (by simp) (by simp) (by simp) ..

@[simp] theorem Dev.settleAnswer_pwr (d : Dev) (r : Req) (cmd : Nat) (a : Ans) : (d.settleAnswer r cmd a).pwr = d.pwr :=
  Dev.settleAnswer_leaves (f := Dev.pwr) (by simp) (by simp) (by simp) ..

@[simp] theorem Dev.settleAnswer_state (d : Dev) (r : Req) (cmd : Nat) (a : Ans) :
    (d.settleAnswer r cmd a).state = d.state :=
  Dev.settleAnswer_leaves (f := Dev.state) (by simp) (by simp) (by simp) ..

@[simp] theorem Dev.settleAnswer_epoch (d : Dev) (r : Req) (cmd : Nat) (a : Ans) :
    (d.settleAnswer r cmd a).epoch = d.epoch :=
  Dev.settleAnswer_leaves (f := Dev.epoch) (by simp) (by simp) (by simp) ..

@[simp] theorem Dev.settleAnswer_draft (d : Dev) (r : Req) (cmd : Nat) (a : Ans) :
    (d.settleAnswer r cmd a).qop.draft = d.qop.draft :=
  Dev.settleAnswer_leaves (f := (·.qop.draft)) (by simp) (by simp) (by simp) ..

@[simp] theorem Dev.settleAnswer_commit (d : Dev) (r : Req) (cmd : Nat) (a : Ans) :
    (d.settleAnswer r cmd a).qop.commit = d.qop.commit :=
  Dev.settleAnswer_leaves (f := (·.qop.commit)) (by simp) (by simp) (by simp) ..

@[simp] theorem Dev.settleAnswer_loads (d : Dev) (r : Req) (cmd : Nat) (a : Ans) :
    (d.settleAnswer r cmd a).qop.loads = d.qop.loads :=
  Dev.settleAnswer_leaves (f := (·.qop.loads)) (by simp) (by simp) (by simp) ..

@[simp] theorem Dev.settleAnswer_job (d : Dev) (r : Req) (cmd : Nat) (a : Ans) (seq : Nat) :
    (d.settleAnswer r cmd a).job seq = d.job seq := by
  unfold Dev.job
  rw [Dev.settleAnswer_hub]

@[simp] theorem Dev.settleAnswer_load? (d : Dev) (r : Req) (cmd : Nat) (a : Ans) (h : Nat) :
    (d.settleAnswer r cmd a).load? h = d.load? h := by
  unfold Dev.load?
  rw [Dev.settleAnswer_loads]

theorem Dev.answer_last {d : Dev} (hmgmt : d.rd 0x281001 = 3) (r : Req) (cmd : Nat) (a : Ans) :
    ∃ p, (d.answer r cmd a).qop.last = some p ∧ p.seq = r.seq ∧ p.status = a.status ∧ p.payload = a.bytes ∧
      p.dstate = a.dstate.getD d.state.code := by
  unfold Dev.answer
  dsimp only
  split
  · exact ⟨_, Dev.finishReply_last hmgmt, rfl, rfl, rfl, rfl⟩
  · exact ⟨_, Dev.sendReply_last _ hmgmt, rfl, rfl, rfl, rfl⟩

/-- While MGMT is up an answer is the last reply, with its sequence number, status, bytes and device state. -/
theorem Dev.settleAnswer_last {d : Dev} (hmgmt : d.rd 0x281001 = 3) (r : Req) (cmd : Nat) (a : Ans) :
    ∃ p, (d.settleAnswer r cmd a).qop.last = some p ∧ p.seq = r.seq ∧ p.status = a.status ∧ p.payload = a.bytes ∧
      p.dstate = a.dstate.getD d.state.code := by
  unfold Dev.settleAnswer
  split
  · exact Dev.answer_last (d := d.conflict) hmgmt r cmd a
  · exact Dev.answer_last hmgmt r cmd a

/-! Requests that are served. -/

section
variable {d : Dev} {r : Req} {cmd : Nat} {payload : List Byte} {formOk : Bool} {run : Dev → Dev × Option Ans}

theorem Dev.available_mgmt (h : d.available = true) : d.rd 0x281001 = 3 := by
  simp [Dev.available, Dev.mgmtUp] at h
  exact h.2

/-- A served request is answered by what its command answers. -/
theorem Dev.serve_answers {e : Dev} {a : Ans} (h : Served d r cmd payload) (hform : formOk = true)
    (hrun : run (d.take r) = (e, some a)) :
    d.serve r cmd payload formOk run = (e.inStep1 (d.take r)).settleAnswer r cmd a := by
  obtain ⟨havail, hdrop, hwait, hseq, hlayout, hrole, hstate⟩ := h
  rw [Dev.serve_accept havail hdrop hwait hseq hlayout hrole hstate hform, hrun]

/-- A served request whose answer comes on completion has only its command's effect now. -/
theorem Dev.serve_waits {e : Dev} (h : Served d r cmd payload) (hform : formOk = true)
    (hrun : run (d.take r) = (e, none)) : d.serve r cmd payload formOk run = e.inStep1 (d.take r) := by
  obtain ⟨havail, hdrop, hwait, hseq, hlayout, hrole, hstate⟩ := h
  rw [Dev.serve_accept havail hdrop hwait hseq hlayout hrole hstate hform, hrun]

theorem served_mgmt (h : Served d r cmd payload) : d.rd 0x281001 = 3 := by
  obtain ⟨havail, -⟩ := h
  exact Dev.available_mgmt havail

theorem Dev.ident_congr {d e : Dev} (h : d.qop.idents = e.qop.idents) (i : Nat) : d.ident i = e.ident i := by
  unfold Dev.ident
  rw [h]

/-- A served request whose command keeps the identities' records and succeeds is answered with its payload, which is kept
and leaves. -/
theorem answers_of_run {i : Instr} {s : State} {f : Dev → Dev} {a : Ans} {ds : Nat}
    (hexec : exec i s = .next (s.onNow fun d => d.serve r cmd payload formOk run)) (h : Served s.now r cmd payload)
    (hform : formOk = true) (hrun : run (s.now.take r) = (f (s.now.take r), some a)) (hstatus : a.status = 0)
    (hidents : (f (s.now.take r)).qop.idents = (s.now.take r).qop.idents)
    (hds : a.dstate.getD (f (s.now.take r)).state.code = ds) : Answers i s r cmd 0 ds a.payload f := by
  unfold Answers Does
  rw [hexec, State.onNow, Dev.serve_answers h hform hrun, Dev.settleAnswer_keep (by simp [hstatus, stStateConflict])]
  · simp [Dev.replyTo, Ans.bytes, hstatus, hds]
  · have hsame : ((f (s.now.take r)).inStep1 (s.now.take r)).ident r.ident = (s.now.take r).ident r.ident :=
      Dev.ident_congr hidents _
    rw [hsame]
    exact Dev.take_high ..

/-- A served request's next state, where its command answers at once: the command's effect, and the last reply. -/
theorem exec_served {i : Instr} {s : State} {e : Dev} {a : Ans}
    (hexec : exec i s = .next (s.onNow fun d => d.serve r cmd payload formOk run)) (h : Served s.now r cmd payload)
    (hform : formOk = true) (hrun : run (s.now.take r) = (e, some a)) (hmgmt : e.rd 0x281001 = 3) :
    ∃ t p, exec i s = .next t ∧ t.now = (e.inStep1 (s.now.take r)).settleAnswer r cmd a ∧ t.now.qop.last = some p ∧
      p.seq = r.seq ∧ p.status = a.status ∧ p.payload = a.bytes ∧ p.dstate = a.dstate.getD e.state.code := by
  obtain ⟨p, hlast, hp⟩ := Dev.settleAnswer_last (d := e.inStep1 (s.now.take r)) hmgmt r cmd a
  have hserve := Dev.serve_answers h hform hrun
  exact ⟨_, p, hexec, hserve, (congrArg (·.qop.last) hserve).trans hlast, hp⟩

theorem exec_answered {i : Instr} {s : State} {e : Dev} {a : Ans}
    (hexec : exec i s = .next (s.onNow fun d => d.serve r cmd payload formOk run)) (h : Served s.now r cmd payload)
    (hform : formOk = true) (hrun : run (s.now.take r) = (e, some a)) :
    ∃ t, exec i s = .next t ∧ t.now = (e.inStep1 (s.now.take r)).settleAnswer r cmd a :=
  ⟨_, hexec, Dev.serve_answers h hform hrun⟩

end

/-! Requests that are not served. -/

section
variable {d : Dev} {r : Req} {cmd : Nat} {payload : List Byte} (formOk : Bool) (run : Dev → Dev × Option Ans)

theorem Dev.serve_drop (ha : d.available = true) (hd : d.drops r cmd payload = true) :
    d.serve r cmd payload formOk run = d.hostFlag 0x180001 0 := by
  unfold Dev.serve
  simp [ha, Dev.gate, hd]

theorem Dev.serve_busy (ha : d.available = true) (hd : d.drops r cmd payload = false) (hw : 64 ≤ r.waiting) :
    d.serve r cmd payload formOk run =
      (d.hostFlag 0x180001 2).sendReply (d.replyTo r cmd { status := stBusy }) := by
  unfold Dev.serve
  simp [ha, Dev.gate, hd, hw]

theorem Dev.serve_stale (ha : d.available = true) (hd : d.drops r cmd payload = false) (hw : r.waiting < 64)
    (hs : r.seq + 64 < (d.ident r.ident).high) :
    d.serve r cmd payload formOk run =
      (d.hostFlag 0x180001 1).sendReply (d.replyTo r cmd { status := stStaleSeq }) := by
  unfold Dev.serve
  have hgate : d.gate r cmd payload = .stale := by
    simp [Dev.gate, hd, Nat.not_le.2 hw, hs, show ¬ (d.ident r.ident).high < r.seq by omega]
  simp [ha, hgate]

theorem Dev.serve_again {p : Reply} (ha : d.available = true) (hd : d.drops r cmd payload = false) (hw : r.waiting < 64)
    (hs : r.seq ≤ (d.ident r.ident).high) (hold : (d.ident r.ident).high ≤ r.seq + 64)
    (hp : (d.ident r.ident).stored.find? (fun q => q.seq == r.seq) = some p) :
    d.serve r cmd payload formOk run = d.sendReply p := by
  have hany : (d.ident r.ident).stored.any (fun q => q.seq == r.seq) = true :=
    List.any_eq_true.2 ⟨p, List.mem_of_find?_eq_some hp, by simpa using List.find?_some hp⟩
  have hgate : d.gate r cmd payload = .accepted := by
    simp [Dev.gate, hd, Nat.not_le.2 hw, Nat.not_lt.2 hs, Nat.not_lt.2 hold, hany]
  have hagain : d.again r = d.sendReply p := by
    unfold Dev.again
    rw [hp]
  unfold Dev.serve
  simp [ha, hgate, hagain]

end

theorem exec_ping (r : Req) (s : State) : exec (.ping r) s = .next (s.onNow (pingOp r)) := rfl

/-- A flag and a reply that the server sends instead of running a request. -/
theorem Dev.hostFlag_sendReply_spec {d : Dev} (hmgmt : d.rd 0x281001 = 3) (bit : Nat) (p : Reply) :
    ((d.hostFlag 0x180001 bit).sendReply p).qop.idents = d.qop.idents ∧
      ((d.hostFlag 0x180001 bit).sendReply p).bit 0x180001 bit = true ∧
      ∃ q, ((d.hostFlag 0x180001 bit).sendReply p).qop.last = some q ∧ q.seq = p.seq ∧ q.status = p.status := by
  refine ⟨by simp, ?_, _, Dev.sendReply_last _ ((Dev.rd_hostFlag_other _ _ _ _ (by decide)).trans hmgmt), rfl, rfl⟩
  rw [Dev.bit_congr (Dev.sendReply_objs ..), Dev.bit_hostFlag_self]

/-- Settles O6: each clause is one gate of the server. -/
theorem requestsNotServed : Obligations.RequestsNotServed := by
  unfold Obligations.RequestsNotServed
  intro r s havail
  have hmgmt := Dev.available_mgmt havail
  refine ⟨fun hdrop => ?dropped, fun hdrop hwait => ?busy, fun hdrop hwait hstale => ?stale,
    fun p hdrop hwait hseq hold hp => ?again⟩
  case dropped => exact does_of_onNow (exec_ping r s) (Dev.serve_drop _ _ havail hdrop)
  case busy =>
    have hserve : pingOp r s.now = _ := Dev.serve_busy _ _ havail hdrop hwait
    obtain ⟨hidents, hbit, hlast⟩ := Dev.hostFlag_sendReply_spec hmgmt 2 (s.now.replyTo r 1 { status := stBusy })
    refine ⟨_, exec_ping r s, ?_⟩
    simp only [State.onNow, hserve]
    exact ⟨hidents, hbit, hlast⟩
  case stale =>
    have hserve : pingOp r s.now = _ := Dev.serve_stale _ _ havail hdrop hwait hstale
    obtain ⟨hidents, hbit, hlast⟩ := Dev.hostFlag_sendReply_spec hmgmt 1 (s.now.replyTo r 1 { status := stStaleSeq })
    refine ⟨_, exec_ping r s, ?_⟩
    simp only [State.onNow, hserve]
    exact ⟨hidents, hbit, hlast⟩
  case again => exact does_of_onNow (exec_ping r s) (Dev.serve_again _ _ havail hdrop hwait hseq hold hp)

end Sys2Proof.Machine
end

section
/-! Requests that answer and change nothing else (R564, R605, R607, R714). -/

namespace Sys2Proof.Machine

theorem exec_read (r : Req) (items : List (Nat × Nat)) (s : State) :
    exec (.read r items) s = .next (s.onNow (readOp s.last r items)) := rfl

theorem exec_readPart (r : Req) (idx sub off len : Nat) (s : State) :
    exec (.readPart r idx sub off len) s = .next (s.onNow (readPartOp s.last r idx sub off len)) := rfl

theorem exec_ddrRead (r : Req) (addr len : Nat) (s : State) :
    exec (.ddrRead r addr len) s = .next (s.onNow (ddrReadOp r addr len)) := rfl

theorem exec_jobStatus (r : Req) (seq : Nat) (s : State) :
    exec (.jobStatus r seq) s = .next (s.onNow (jobStatusOp r seq)) := rfl

/-- No item of a READ whose items may all be read is refused. -/
theorem find?_zipIdx_readable {st : DState} {items : List (Nat × Nat)}
    (h : (items.all fun i => readable st i.1) = true) :
    items.zipIdx.find? (fun p => !readable st p.1.1) = none := by
  refine List.find?_eq_none.2 fun p hp => ?_
  have hmem : p.1 ∈ items := List.fst_mem_of_mem_zipIdx hp
  simpa using List.all_eq_true.1 h _ hmem

theorem tabRead_eq_map_range {α : Type} (d : α) (t : Tab α) (a n : Nat) :
    tabRead d t a n = (List.range n).map fun k => tabGet d t (a + k) := rfl

/-- Settles O7: each command answers at once and leaves the device with the request taken. -/
theorem queriesAnswer : Obligations.QueriesAnswer := by
  unfold Obligations.QueriesAnswer
  intro r s
  refine ⟨fun h => ?ping, fun items hmin hmax hread h => ?read, fun idx sub off len w hmin hmax hread hrow hoff h => ?part,
    fun addr len hmin hmax h => ?ddr, fun seq j hjob h => ?status⟩
  case ping => exact answers_of_run (a := {}) (exec_ping r s) h rfl rfl rfl rfl rfl
  case read =>
    refine answers_of_run (exec_read r items s) h (decide_eq_true ⟨hmin, hmax⟩) (f := id)
      (a := { payload := s.last.readFill s.now.epoch r.ident items 0, dstate := some s.last.state.code }) ?_ rfl rfl rfl
    rw [Dev.take_state, find?_zipIdx_readable hread]
    rfl
  case part =>
    refine answers_of_run (exec_readPart r idx sub off len s) h (decide_eq_true ⟨hmin, hmax⟩) (f := id)
      (a := { payload := ((s.last.readBytes s.now.epoch r.ident idx sub w).drop off).take len
              dstate := some s.last.state.code }) ?_ rfl rfl rfl
    simp [hread, hrow, Nat.not_le.2 hoff]
  case ddr =>
    exact answers_of_run (exec_ddrRead r addr len s) h (decide_eq_true ⟨hmin, hmax⟩) (f := id)
      (a := { payload := ddrRead s.now.ddr addr len }) (by rw [Dev.take_ddr]; rfl) rfl rfl rfl
  case status =>
    refine answers_of_run (exec_jobStatus r seq s) h rfl (f := id)
      (a := { payload := s.now.slotObjects j.slot }) ?_ rfl rfl rfl
    rw [Dev.take_job, hjob]
    rfl

end Sys2Proof.Machine
end

section
/-! Loads (R190, R567) and what is stored in DDR4 (R568). -/

namespace Sys2Proof.Machine

theorem exec_loadOpen (r : Req) (kind len target : Nat) (s : State) :
    exec (.loadOpen r kind len target) s = .next (s.onNow (loadOpenOp r kind len target)) := rfl

theorem exec_loadPart (r : Req) (handle off : Nat) (bytes : List Byte) (s : State) :
    exec (.loadPart r handle off bytes) s = .next (s.onNow (loadPartOp r handle off bytes)) := rfl

theorem exec_loadAbort (r : Req) (handle : Nat) (s : State) :
    exec (.loadAbort r handle) s = .next (s.onNow (loadAbortOp r handle)) := rfl

theorem exec_loadTimeout (handle : Nat) (s : State) :
    exec (.loadTimeout handle) s = .next (s.onNow (loadTimeoutOp handle)) := rfl

theorem exec_loadClose (r : Req) (handle : Nat) (crc : W32) (s : State) :
    exec (.loadClose r handle crc) s = .next (s.onNow (loadCloseOp r handle crc)) := rfl

theorem exec_bulkCopy (r : Req) (chip src dst len : Nat) (s : State) :
    exec (.bulkCopy r chip src dst len) s = .next (s.onNow (bulkCopyOp r chip src dst len)) := rfl

@[simp] theorem Dev.dropLoad_idents (d : Dev) (h : Nat) : (d.dropLoad h).qop.idents = d.qop.idents := rfl

@[simp] theorem Dev.putLoad_idents (d : Dev) (l : Load) : (d.putLoad l).qop.idents = d.qop.idents := rfl

@[simp] theorem Dev.dropLoad_load?_self (d : Dev) (h : Nat) : (d.dropLoad h).load? h = none :=
  List.find?_eq_none.2 fun _ hl hh => by simp_all [Dev.dropLoad]

/-- Settles O10: LOAD_OPEN adds an open load and answers its handle; the other commands change one load. -/
theorem loadCommands : Obligations.LoadCommands := by
  unfold Obligations.LoadCommands
  intro r s
  refine ⟨fun kind len target hmin hmax hfew hroom h => ?opens,
    fun handle off bytes l hmin hmax hload hopen hfits h => ?part, fun handle l hload h => ?abort,
    fun handle l hload hold => ?timeout⟩
  case opens =>
    have hmgmt := served_mgmt h
    have hlen : ¬ 2 ^ 29 < len := by omega
    have hroom' : ¬ (8 ≤ s.now.qop.loads.length ∨ 2 ^ 29 < (s.now.qop.loads.map (·.len)).sum + len) := by omega
    obtain ⟨t, p, hexec, hnow, hlast, -, hstatus, hpayload, -⟩ := exec_served (exec_loadOpen r kind len target s) h
      (decide_eq_true ⟨hmin, hmax⟩) ((if_neg hlen).trans (if_neg hroom')) (by exact hmgmt)
    refine ⟨t, p, hexec, ?_, hlast, hstatus, hpayload, ?_⟩ <;> simp [hnow]
  case part =>
    refine answers_of_run (exec_loadPart r handle off bytes s) h (decide_eq_true ⟨hmin, hmax⟩) (a := {})
      (f := fun d => d.putLoad { l with data := tabFill unwrittenByte l.data off (bytes.map (·.toNat)), used := d.epoch })
      ?_ rfl rfl rfl
    simp [hload, hopen, Nat.not_lt.2 hfits]
  case abort =>
    refine answers_of_run (exec_loadAbort r handle s) h rfl (a := {}) (f := fun d => d.dropLoad handle) ?_ rfl rfl rfl
    simp [hload]
  case timeout =>
    refine does_of_onNow (exec_loadTimeout handle s) ?_
    simp [loadTimeoutOp, hload, hold]

@[simp] theorem Load.length_bytes (l : Load) : l.bytes.length = l.len := by
  simp [Load.bytes, tabRead]

@[simp] theorem length_ddrRead (m : List Host.Cell) (a n : Nat) : (ddrRead m a n).length = n := by
  simp [ddrRead, tabRead]

theorem getElem_ddrRead (m : List Host.Cell) (a n k : Nat) (h : k < (ddrRead m a n).length) :
    (ddrRead m a n)[k] = ddrGet m (a + k) := by
  simp [ddrRead, tabRead, ddrGet]

/-- Settles O11: both commands are one write of consecutive bytes, and drop the load or nothing. -/
theorem storesToDdr : Obligations.StoresToDdr := by
  unfold Obligations.StoresToDdr
  intro r s
  refine ⟨fun handle crc l hload hcomplete hcrc hkind hfree h => ?load, fun src dst len hchip hfree h => ?copy⟩
  case load =>
    have hfree' : (s.now.take r).streamOverlap l.target l.len = false := hfree
    obtain ⟨t, hexec, hnow⟩ := exec_answered (exec_loadClose r handle crc s) h rfl (a := {})
      (e := ({ s.now.take r with ddr := ddrWrite (s.now.take r).ddr l.target l.bytes } : Dev).dropLoad handle)
      (by simp [hload, hcomplete, hcrc, hkind, hfree'])
    refine ⟨t, hexec, ?_, fun a ha => ?_, fun k hk => ?_⟩
    · rw [hnow, Dev.settleAnswer_load?]
      exact Dev.dropLoad_load?_self ..
    · simpa [hnow] using ddrGet_ddrWrite_other _ _ _ _ ha
    · simpa [hnow] using ddrGet_ddrWrite_self _ _ _ _ hk
  case copy =>
    have hfree' : (s.now.take r).streamOverlap dst len = false := hfree
    have hself : (s.now.take r).chip = s.now.chip := rfl
    obtain ⟨t, hexec, hnow⟩ := exec_answered (exec_bulkCopy r s.now.chip src dst len s) h rfl (a := {})
      (e := { s.now.take r with ddr := ddrWrite (s.now.take r).ddr dst (ddrRead (s.now.take r).ddr src len) })
      (by simp [Nat.not_lt.2 hchip, hself, hfree'])
    refine ⟨t, hexec, fun a ha => ?_, fun k hk => ?_⟩
    · simpa [hnow] using ddrGet_ddrWrite_other s.now.ddr dst a (ddrRead s.now.ddr src len) (by simpa using ha)
    · have hk' : k < (ddrRead s.now.ddr src len).length := by simpa using hk
      simpa [hnow, getElem_ddrRead] using ddrGet_ddrWrite_self s.now.ddr dst k (ddrRead s.now.ddr src len) hk'

end Sys2Proof.Machine
end

section
/-! Observation counters and keys (R560, R569). -/

namespace Sys2Proof.Machine

theorem exec_counterClear (r : Req) (first last : Nat) (s : State) :
    exec (.counterClear r first last) s = .next (s.onNow (counterClearOp r first last)) := rfl

theorem exec_keySet (r : Req) (target : Nat) (wrapped : BitVec 320) (s : State) :
    exec (.keySet r target wrapped) s = .next (s.onNow (keySetOp r target wrapped)) := rfl

/-- An index that a filter drops reads as unlisted. -/
theorem tabGet_filter_out {α : Type} (d : α) (t : Tab α) (j : Nat) (P : Nat → Bool) (h : P j = false) :
    tabGet d (t.filter fun q => P q.1) j = d := by
  induction t with
  | nil => rfl
  | cons q t ih =>
    obtain ⟨k, v⟩ := q
    cases hk : P k with
    | false => simpa [List.filter, hk] using ih
    | true =>
      have hne : k ≠ j := fun e => by simp_all
      simp only [List.filter, hk, tabGet, hne, if_false]
      exact ih

/-- A table written over another one, its first entries last: an index reads it where it lists the index. -/
theorem tabGet_foldr_tabSet {α : Type} [DecidableEq α] (d : α) (l t : Tab α) (j : Nat) (ht : tabGet d t j = d) :
    tabGet d (l.foldr (fun p m => tabSet d m p.1 p.2) t) j = tabGet d l j := by
  induction l with
  | nil => exact ht
  | cons q l ih =>
    obtain ⟨k, v⟩ := q
    by_cases hk : k = j
    · subst hk
      simp [tabGet]
    · simp only [List.foldr_cons, tabGet, hk, if_false]
      rw [tabGet_set_other _ _ _ _ _ _ (Ne.symm hk), ih]

theorem tabGet_foldr_tabSet_other {α : Type} [DecidableEq α] (d : α) (l t : Tab α) (j : Nat)
    (hl : ∀ p ∈ l, p.1 ≠ j) : tabGet d (l.foldr (fun p m => tabSet d m p.1 p.2) t) j = tabGet d t j := by
  induction l with
  | nil => rfl
  | cons q l ih =>
    rw [List.foldr_cons, tabGet_set_other _ _ _ _ _ _ (hl q List.mem_cons_self).symm]
    exact ih fun p hp => hl p (List.mem_cons_of_mem _ hp)

/-- Whether an index of counters is in a range. -/
def ctrIn (first last key : Nat) : Bool := decide (first ≤ key / 256 ∧ key / 256 ≤ last)

/-- The counters after COUNTER_CLEAR. -/
def Dev.clearedCounters (d : Dev) (first last : Nat) : Tab Nat :=
  (d.inTick.counted.filter fun p => ctrIn first last p.1).foldr (fun p t => tabSet 0 t p.1 p.2)
    (d.counters.filter fun p => !ctrIn first last p.1)

theorem Dev.clearedCounters_in (d : Dev) {first last key : Nat} (h : ctrIn first last key = true) :
    tabGet 0 (d.clearedCounters first last) key = tabGet 0 d.inTick.counted key := by
  unfold Dev.clearedCounters
  rw [tabGet_foldr_tabSet _ _ _ _ (tabGet_filter_out 0 _ _ (fun k => !ctrIn first last k) (by simp [h])),
    tabGet_filter 0 _ _ (ctrIn first last) h]

theorem Dev.clearedCounters_out (d : Dev) {first last key : Nat} (h : ctrIn first last key = false) :
    tabGet 0 (d.clearedCounters first last) key = d.ctr key := by
  unfold Dev.clearedCounters
  rw [tabGet_foldr_tabSet_other, tabGet_filter 0 _ _ (fun k => !ctrIn first last k) (by simp [h])]
  · rfl
  · intro p hp hkey
    simp [hkey, h] at hp

theorem Dev.settleAnswer_counters {d : Dev} {r : Req} {cmd : Nat} {a : Ans} (h : a.status ≠ stStateConflict) :
    (d.settleAnswer r cmd a).counters = d.counters := by
  unfold Dev.settleAnswer Dev.answer
  dsimp only
  rw [if_neg h]
  split <;> simp

/-- Keeping a reply changes neither the key nor the highest sequence number of any identity. -/
theorem Dev.storeReply_ident (d : Dev) (p : Reply) (i : Nat) :
    ((d.storeReply p).ident i).key = (d.ident i).key ∧ ((d.storeReply p).ident i).high = (d.ident i).high := by
  unfold Dev.storeReply
  by_cases h : i = p.ident
  · subst h
    simp
  · rw [Dev.ident_setIdent_other _ _ _ _ h]
    exact ⟨rfl, rfl⟩

theorem Dev.finishReply_ident (d : Dev) (p : Reply) (i : Nat) :
    ((d.finishReply p).ident i).key = (d.ident i).key ∧ ((d.finishReply p).ident i).high = (d.ident i).high := by
  unfold Dev.finishReply
  rw [Dev.ident_congr (Dev.sendReply_idents ..)]
  exact Dev.storeReply_ident ..

theorem Dev.settleAnswer_ident (d : Dev) (r : Req) (cmd : Nat) (a : Ans) (i : Nat) :
    ((d.settleAnswer r cmd a).ident i).key = (d.ident i).key ∧
      ((d.settleAnswer r cmd a).ident i).high = (d.ident i).high := by
  have hfinish := fun (e : Dev) p => Dev.finishReply_ident e p i
  have hsend := fun (e : Dev) p => Dev.ident_congr (Dev.sendReply_idents e p) i
  constructor
  · exact Dev.settleAnswer_leaves (f := fun e => (e.ident i).key) (fun _ => rfl) (fun e p => (hfinish e p).1)
      (fun e p => by rw [hsend]) ..
  · exact Dev.settleAnswer_leaves (f := fun e => (e.ident i).high) (fun _ => rfl) (fun e p => (hfinish e p).2)
      (fun e p => by rw [hsend]) ..

/-- Settles O13: what COUNTER_CLEAR leaves of a counter depends on whether its index is in the range; KEY_SET changes one
identity's records, and its reply no key. -/
theorem countersAndKeys : Obligations.CountersAndKeys := by
  unfold Obligations.CountersAndKeys
  intro r s
  refine ⟨fun first last hmin hle hmax h => ?clear, fun target wrapped htarget h => ?key⟩
  case clear =>
    have hrange : ¬ (first < 0xF000 ∨ 0xFFFF < first ∨ last < 0xF000 ∨ 0xFFFF < last ∨ last < first) := by omega
    obtain ⟨t, hexec, hnow⟩ := exec_answered (exec_counterClear r first last s) h rfl (if_neg hrange)
    have hctr : ∀ key, t.now.ctr key = tabGet 0 (s.now.clearedCounters first last) key := fun key => by
      unfold Dev.ctr
      rw [hnow, Dev.settleAnswer_counters (by simp [stStateConflict])]
      rfl
    refine ⟨t, hexec, by simp [hnow], by simp [hnow], fun key hlow hhigh => ?_, fun key hout => ?_⟩
    · rw [hctr, Dev.clearedCounters_in _ (by simp [ctrIn, hlow, hhigh])]
    · rw [hctr, Dev.clearedCounters_out _ (by simp [ctrIn]; omega)]
  case key =>
    have hmax : ¬ 3 < target := Nat.not_lt.2 htarget
    cases hkey : Config.keyUnwrap (s.now.ident 0).key wrapped with
    | none =>
      obtain ⟨t, hexec, hnow⟩ := exec_answered (exec_keySet r target wrapped s) h rfl (e := s.now.take r)
        (a := { status := stBadPayload }) (by simp [hmax, hkey])
      have hident : ∀ i, (t.now.ident i).key = (s.now.ident i).key := fun i => by
        rw [hnow, (Dev.settleAnswer_ident ..).1]
        exact Dev.take_key ..
      exact ⟨t, hexec, hident target, by simp [hnow], by simp [hnow], fun i _ => hident i⟩
    | some k =>
      obtain ⟨t, hexec, hnow⟩ := exec_answered (exec_keySet r target wrapped s) h rfl (a := {})
        (e := (s.now.take r).setIdent target { (s.now.take r).ident target with key := k, high := 0, stored := [] })
        (by simp [hmax, hkey])
      obtain ⟨hk, hhigh⟩ := hnow ▸ Dev.settleAnswer_ident _ r 0x50 {} target
      refine ⟨t, hexec, ⟨hk.trans ?_, hhigh.trans ?_⟩, by simp [hnow], by simp [hnow], fun i hi => ?_⟩
      · exact congrArg Ident.key (Dev.ident_setIdent_self ..)
      · exact congrArg Ident.high (Dev.ident_setIdent_self ..)
      · rw [hnow, (Dev.settleAnswer_ident ..).1]
        exact (congrArg Ident.key (Dev.ident_setIdent_other _ _ _ _ hi)).trans (Dev.take_key ..)

end Sys2Proof.Machine
end

section
/-! What objects read after writes, as conditions on the key. -/

namespace Sys2Proof.Machine

theorem Dev.rd_wr (d : Dev) (k v j : Nat) : (d.wr k v).rd j = if j = k then v else d.rd j := by
  split
  · next h =>
    subst h
    exact Dev.rd_wr_self ..
  · next h => exact Dev.rd_wr_other _ _ _ _ h

theorem Dev.wrs_cons (d : Dev) (p : Nat × Nat) (l : List (Nat × Nat)) : d.wrs (p :: l) = (d.wr p.1 p.2).wrs l := rfl

theorem Dev.wrs_nil (d : Dev) : d.wrs [] = d := rfl

theorem Dev.rd_setDraft (d : Dev) (l : List Staged) (j : Nat) :
    (d.setDraft l).rd j = if j = 0x180005 then draftWords l else d.rd j := Dev.rd_wr ..

/-- Whatever each step of a fold leaves, the fold leaves. -/
theorem foldl_leaves {α β : Type} {f : Dev → β} {g : Dev → α → Dev} (l : List α) (d : Dev)
    (h : ∀ e, ∀ x ∈ l, f (g e x) = f e) : f (l.foldl g d) = f d :=
  List.foldlRecOn (motive := fun e => f e = f d) l g rfl fun e he x hx => (h e x hx).trans he

end Sys2Proof.Machine
end

section
/-! Changes that leave the epoch and the objects of a set of keys: one lemma per elementary change, with the keys that it
writes. -/

namespace Sys2Proof.Machine

/-- A change of the device that leaves the epoch and every object of a set. -/
def Dev.Keeps (P : Nat → Bool) (d e : Dev) : Prop := e.epoch = d.epoch ∧ ∀ key, P key = true → e.rd key = d.rd key

namespace Dev.Keeps

variable {P : Nat → Bool}

theorem refl (d : Dev) : Dev.Keeps P d d := ⟨rfl, fun _ _ => rfl⟩

theorem trans {d e f : Dev} (h : Dev.Keeps P d e) (g : Dev.Keeps P e f) : Dev.Keeps P d f :=
  ⟨g.1.trans h.1, fun key hkey => (g.2 key hkey).trans (h.2 key hkey)⟩

theorem of_objs {d e : Dev} (hepoch : e.epoch = d.epoch) (hobjs : e.objs = d.objs) : Dev.Keeps P d e :=
  ⟨hepoch, fun key _ => Dev.rd_congr hobjs key⟩

theorem wr {k : Nat} (hk : P k = false) (d : Dev) (v : Nat) : Dev.Keeps P d (d.wr k v) :=
  ⟨rfl, fun key hkey => Dev.rd_wr_other _ _ _ _ fun h => by simp_all⟩

theorem foldl {α : Type} {g : Dev → α → Dev} (l : List α) (d : Dev) (h : ∀ (e : Dev), ∀ x ∈ l, Dev.Keeps P e (g e x)) :
    Dev.Keeps P d (l.foldl g d) :=
  List.foldlRecOn (motive := fun e => Dev.Keeps P d e) l g (refl d) fun e he x hx => he.trans (h e x hx)

theorem wrs {l : List (Nat × Nat)} (hl : ∀ k ∈ l.map (·.1), P k = false) (d : Dev) : Dev.Keeps P d (d.wrs l) :=
  foldl l d fun e p hp => wr (hl p.1 (List.mem_map_of_mem hp)) e p.2

theorem wrBit {k : Nat} (hk : P k = false) (d : Dev) (b : Nat) (v : Bool) : Dev.Keeps P d (d.wrBit k b v) := wr hk d _

theorem flag {k : Nat} (hk : P k = false) (d : Dev) (b : Nat) : Dev.Keeps P d (d.flag k b) :=
  ⟨Dev.flag_epoch .., fun key hkey => Dev.rd_flag_other _ _ _ _ fun h => by simp_all⟩

theorem noteStamp (hP : P 0x203003 = false) (d : Dev) (t : Nat) : Dev.Keeps P d (d.noteStamp t) := by
  unfold Dev.noteStamp
  split
  · exact wrBit hP ..
  · exact refl d

theorem bbWrite (hP : ∀ k ∈ [0x203003, 0x782001, 0x782002, 0x782003, 0x782007], P k = false) (d : Dev)
    (btype ukind uidx cause job shot : Nat) (payload : List Byte) :
    Dev.Keeps P d (d.bbWrite btype ukind uidx cause job shot payload) := by
  simp only [List.forall_mem_cons, List.not_mem_nil, false_implies, implies_true, and_true] at hP
  obtain ⟨hwall, hfirst, hlast, hfrozen, hflags⟩ := hP
  unfold Dev.bbWrite
  extract_lets no wantFrozen pl roomy r all trimmed hub d1 d2 d3 d4
  have h1 : Dev.Keeps P d d1 := of_objs rfl rfl
  have h2 : Dev.Keeps P d1 d2 := (wr hlast d1 no).trans (wrs (by simp [hfirst, hfrozen]) _)
  have h3 : Dev.Keeps P d2 d3 := by
    unfold d3
    split
    · exact flag hflags ..
    · exact refl d2
  have h4 : Dev.Keeps P d3 d4 := by
    unfold d4
    split
    · exact (flag hflags ..).trans (noteStamp hwall ..)
    · exact noteStamp hwall ..
  exact h1.trans (h2.trans (h3.trans (h4.trans (of_objs (by simp) (by simp)))))

theorem refreshUnits (hP : ∀ k, 0x100201 ≤ k → k ≤ 0x100209 → P k = false) (d : Dev) :
    Dev.Keeps P d d.refreshUnits := by
  refine wrs (fun k hk => ?_) d
  simp only [List.map_cons, List.map_nil, List.mem_cons, List.not_mem_nil, or_false] at hk
  exact hP k (by omega) (by omega)

end Dev.Keeps

end Sys2Proof.Machine
end

section
/-! Words that take effect (R579): what else they change is no field that a draft stages, nor the epoch. -/

namespace Sys2Proof.Machine

/-- Whether an object is staged by a draft: its access code is RS (R575). -/
def stagedKey (key : Nat) : Bool := (objRow (key / 256) (key % 256)).map (·.acc) == some .rs

theorem stagedKey_iff (key : Nat) : stagedKey key = true ↔ (objRow (key / 256) (key % 256)).map (·.acc) = some .rs :=
  beq_iff_eq

theorem stagedKey_bb : ∀ k ∈ [0x203003, 0x782001, 0x782002, 0x782003, 0x782007], stagedKey k = false := by
  decide +kernel

theorem stagedKey_unitCount : ∀ k, 0x100201 ≤ k → k ≤ 0x100209 → stagedKey k = false := by
  intro k hlow hhigh
  obtain ⟨j, rfl⟩ := Nat.exists_eq_add_of_le hlow
  exact (by decide +kernel : ∀ j < 9, stagedKey (0x100201 + j) = false) j (by omega)

theorem stagedKey_link : ∀ k < 12, stagedKey (unitKey 0x240001 k) = false ∧ stagedKey (unitKey 0x240009 k) = false ∧
    stagedKey (unitKey 0x202003 k) = false := by decide +kernel

theorem stagedKey_lane : ∀ l < 48, stagedKey (unitKey 0x241001 l) = false := by decide +kernel

theorem stagedKey_port : ∀ p < 5, stagedKey (portKey p 1) = false := by decide +kernel

theorem stagedKey_portLane : ∀ l < 17, stagedKey (laneKey (48 + l) 1) = false := by decide +kernel

theorem stagedKey_lattice : ∀ k ∈ [0x200003, 0x201102, 0x201103, 0x201109, 0x781001, 0x781002], stagedKey k = false := by
  decide +kernel

/-- A change that leaves what a draft stages. -/
abbrev Dev.KeepsStaged : Dev → Dev → Prop := Dev.Keeps stagedKey

namespace Dev.KeepsStaged

theorem pathOut (d : Dev) (sec : Bool) : d.KeepsStaged (d.pathOut sec) :=
  (Keeps.flag (stagedKey_lattice _ (by simp)) d 3).trans
    ((Keeps.wr (stagedKey_lattice _ (by simp)) _ _).trans (Keeps.bbWrite stagedKey_bb ..))

theorem spineLinkLost (d : Dev) (k : Nat) : d.KeepsStaged (d.spineLinkLost k) := by
  unfold Dev.spineLinkLost
  extract_lets lat prim d1 lat1 sec
  have h1 : d.KeepsStaged d1 := by
    unfold d1
    split
    · refine Keeps.trans ?_ (pathOut ..)
      exact Keeps.of_objs rfl rfl
    · exact Keeps.refl d
  split
  · refine h1.trans (Keeps.trans ?_ (pathOut ..))
    exact Keeps.of_objs rfl rfl
  · exact h1

theorem dropLink {k : Nat} (hk : k < 12) (d : Dev) (st : Nat) : d.KeepsStaged (d.dropLink k st) := by
  obtain ⟨hstate, hcount, -⟩ := stagedKey_link k hk
  unfold Dev.dropLink
  extract_lets l d1 d2
  have h1 : d.KeepsStaged d1 := (Keeps.wr hstate d st).trans ((Keeps.wr hcount _ _).trans (Keeps.of_objs rfl rfl))
  have h2 : d1.KeepsStaged d2 := by
    unfold d2
    split
    · exact Keeps.refl d1
    · refine Keeps.wrs (fun key hkey => ?_) d1
      simp only [List.map_map, List.mem_map, List.mem_range, Function.comp_apply] at hkey
      obtain ⟨l, hl, rfl⟩ := hkey
      exact stagedKey_lane _ (by omega)
  split
  · exact (h1.trans h2).trans (spineLinkLost ..)
  · exact h1.trans h2

theorem portEnabled {p : Nat} (hp : p < 5) (d : Dev) (on : Bool) : d.KeepsStaged (d.portEnabled p on) := by
  unfold Dev.portEnabled
  extract_lets st lanes
  have hlanes : ∀ k ∈ lanes, stagedKey k = false := by
    intro k hk
    unfold lanes at hk
    split at hk
    · obtain rfl := List.mem_singleton.1 hk
      exact stagedKey_portLane 16 (by omega)
    · simp only [List.mem_map, List.mem_range] at hk
      obtain ⟨l, hl, rfl⟩ := hk
      exact (Nat.add_assoc ..).symm ▸ stagedKey_portLane (4 * p + l) (by omega)
  split
  · exact Keeps.refl d
  · refine (Keeps.wr (stagedKey_port p hp) d _).trans ((Keeps.wrs ?_ _).trans (Keeps.refreshUnits stagedKey_unitCount _))
    simpa using hlanes

theorem clockSource (d : Dev) (a b : Bool) : d.KeepsStaged (d.clockSource a b) :=
  have h : stagedKey 0x200003 = false := stagedKey_lattice _ (by simp)
  (Keeps.wrBit h ..).trans ((Keeps.wrBit h ..).trans (Keeps.wrBit h ..))

theorem latticeConfig (d : Dev) : d.KeepsStaged d.latticeConfig := by
  have hrank : ∀ k ∈ [(0x201102, d.chip), (0x201109, 2 ^ d.chip)].map (·.1), stagedKey k = false :=
    fun k hk => stagedKey_lattice k (by simp at hk ⊢; omega)
  unfold Dev.latticeConfig Dev.enterRoot Dev.enterListening
  dsimp only
  split_ifs
  · exact (Keeps.wrs hrank d).trans ((clockSource ..).trans (Keeps.of_objs rfl rfl))
  · have hterm : stagedKey 0x201103 = false := stagedKey_lattice _ (by simp)
    refine ((clockSource d false false).trans (Keeps.wr hterm _ 0)).trans ?_
    exact Keeps.of_objs rfl rfl
  · exact (clockSource d ..).trans (Keeps.of_objs rfl rfl)

/-- The marks of the receive chains are no objects. -/
theorem markLine (d old : Dev) (line extra : Nat) : d.KeepsStaged (d.markLine old line extra) :=
  Keeps.foldl _ d fun _ _ _ => Keeps.of_objs rfl rfl

theorem enableLine (d old : Dev) (n : Nat) (on : Bool) : d.KeepsStaged (d.enableLine old n on) := by
  have hdark : ∀ e : Dev, ∀ s, e.KeepsStaged (e.darkSlot old on s) := fun e s => by
    unfold Dev.darkSlot
    dsimp only
    split <;> exact Keeps.of_objs rfl rfl
  have hraw : (d.markLine old n 8).KeepsStaged ((d.markLine old n 8).markRaw n) := Keeps.of_objs rfl rfl
  exact (markLine d old n 8).trans (hraw.trans ((Keeps.foldl _ _ fun e s _ => hdark e s).trans (Keeps.of_objs rfl rfl)))

theorem lineChanged (d old : Dev) (n sub : Nat) : d.KeepsStaged (d.lineChanged old n sub) := by
  unfold Dev.lineChanged
  split
  · exact enableLine ..
  · exact (markLine ..).trans (Keeps.of_objs rfl rfl)
  · exact (markLine ..).trans (Keeps.of_objs rfl rfl)
  · exact markLine ..
  · exact Keeps.refl d

theorem chainChanged (d old : Dev) (q sub : Nat) : d.KeepsStaged (d.chainChanged old q sub) := by
  unfold Dev.chainChanged
  dsimp only
  split
  · exact Keeps.of_objs rfl rfl
  · exact Keeps.refl d

/-- Beside its own field a word that takes effect changes no staged one. -/
theorem applyWord (d before : Dev) (key v : Nat) : (d.wr key v).KeepsStaged (d.applyWord before key v) := by
  unfold Dev.applyWord
  extract_lets old idx sub d1
  split_ifs with hsame hline hchain hflux hswitch hidle hasym hlink hoff hport hmgmt
  · exact Keeps.refl d1
  · exact lineChanged ..
  · exact chainChanged ..
  · exact Keeps.of_objs rfl rfl
  · exact Keeps.of_objs rfl rfl
  · exact Keeps.refl d1
  · obtain ⟨-, -, hone⟩ := stagedKey_link (idx - 0x2020) (by omega)
    unfold Dev.asymmetryChanged
    split
    · exact Keeps.refl d1
    · exact Keeps.wr hone ..
  · exact (dropLink (by omega) d1 0).trans (Keeps.refreshUnits stagedKey_unitCount _)
  · exact Keeps.refl d1
  · exact portEnabled (by omega) ..
  · exact portEnabled (by omega) ..
  · exact Keeps.refl d1

end Dev.KeepsStaged

theorem Dev.applyWord_epoch (d before : Dev) (key v : Nat) : (d.applyWord before key v).epoch = d.epoch :=
  (Dev.KeepsStaged.applyWord d before key v).1

theorem Dev.rd_applyWord_self (d before : Dev) {key : Nat} (v : Nat) (hkey : stagedKey key = true) :
    (d.applyWord before key v).rd key = v :=
  ((Dev.KeepsStaged.applyWord d before key v).2 key hkey).trans (Dev.rd_wr_self ..)

theorem Dev.rd_applyWord_other (d before : Dev) {key k : Nat} (v : Nat) (hkey : stagedKey key = true) (hne : key ≠ k) :
    (d.applyWord before k v).rd key = d.rd key :=
  ((Dev.KeepsStaged.applyWord d before k v).2 key hkey).trans (Dev.rd_wr_other _ _ _ _ hne)

/-- The order in which words take effect: sets of taps first. -/
def tapsFirst (l : List (Nat × Nat)) : List (Nat × Nat) := (l.filter fun w => isTaps w.1) ++ l.filter fun w => !isTaps w.1

theorem Dev.applyWords_eq (d : Dev) (l : List (Nat × Nat)) : d.applyWords l =
    let d1 := (tapsFirst l).foldl (fun e w => e.applyWord d w.1 w.2) d
    if l.any fun w => w.1 / 256 == 0x2010 && d.rd w.1 != w.2 then d1.latticeConfig else d1 := rfl

/-- After the last word for a staged field, it holds that word. -/
theorem Dev.rd_foldl_applyWord (d before : Dev) {l a b : List (Nat × Nat)} {key v : Nat} (hl : l = a ++ (key, v) :: b)
    (hkey : stagedKey key = true) (hlast : ∀ w ∈ b, w.1 ≠ key) :
    (l.foldl (fun e w => e.applyWord before w.1 w.2) d).rd key = v := by
  subst hl
  rw [List.foldl_append, List.foldl_cons,
    foldl_leaves (f := (·.rd key)) b _ fun e w hw => e.rd_applyWord_other before w.2 hkey (hlast w hw).symm]
  exact Dev.rd_applyWord_self _ _ _ hkey

/-- The word that is the last for its field is so in the order in which words take effect, too. -/
theorem tapsFirst_split {l a b : List (Nat × Nat)} {key v : Nat} (hl : l = a ++ (key, v) :: b)
    (hlast : ∀ w ∈ b, w.1 ≠ key) : ∃ a' b', tapsFirst l = a' ++ (key, v) :: b' ∧ ∀ w ∈ b', w.1 ≠ key := by
  subst hl
  cases htaps : isTaps key with
  | true =>
    refine ⟨a.filter fun w => isTaps w.1, (b.filter fun w => isTaps w.1) ++ (a ++ (key, v) :: b).filter fun w => !isTaps w.1,
      by simp [tapsFirst, htaps], fun w hw hk => ?_⟩
    rcases List.mem_append.1 hw with hw | hw
    · exact hlast w (List.mem_filter.1 hw).1 hk
    · simpa [hk, htaps] using (List.mem_filter.1 hw).2
  | false =>
    refine ⟨((a ++ (key, v) :: b).filter fun w => isTaps w.1) ++ a.filter fun w => !isTaps w.1,
      b.filter fun w => !isTaps w.1, by simp [tapsFirst, htaps], fun w hw hk => ?_⟩
    exact hlast w (List.mem_filter.1 hw).1 hk

theorem Dev.rd_applyWords (d : Dev) {l a b : List (Nat × Nat)} {key v : Nat} (hl : l = a ++ (key, v) :: b)
    (hkey : stagedKey key = true) (hlast : ∀ w ∈ b, w.1 ≠ key) : (d.applyWords l).rd key = v := by
  obtain ⟨a', b', htaps, hlast'⟩ := tapsFirst_split hl hlast
  have hfold := Dev.rd_foldl_applyWord d d htaps hkey hlast'
  rw [Dev.applyWords_eq]
  dsimp only
  split
  · exact ((Dev.KeepsStaged.latticeConfig _).2 key hkey).trans hfold
  · exact hfold

theorem Dev.applyWords_epoch (d : Dev) (l : List (Nat × Nat)) : (d.applyWords l).epoch = d.epoch := by
  have hfold : ((tapsFirst l).foldl (fun e w => e.applyWord d w.1 w.2) d).epoch = d.epoch :=
    foldl_leaves (f := Dev.epoch) _ _ fun e w _ => e.applyWord_epoch d w.1 w.2
  rw [Dev.applyWords_eq]
  dsimp only
  split
  · exact (Dev.KeepsStaged.latticeConfig _).1.trans hfold
  · exact hfold

end Sys2Proof.Machine
end

section
/-! Drafts and commits (R577, R578, R580, R581). -/

namespace Sys2Proof.Machine

theorem exec_commit (r : Req) (refuse : Bool) (s : State) :
    exec (.commit r refuse) s = .next (s.onNow (commitOp r refuse)) := rfl

theorem exec_discard (r : Req) (s : State) : exec (.discard r) s = .next (s.onNow (discardOp r)) := rfl

theorem exec_commitApplyComplete (s : State) :
    exec .commitApplyComplete s = .next (s.onNow commitApplyCompleteOp) := rfl

/-- A split draft has no word left exactly when the draft was empty. -/
theorem Dev.splitDraft_empty_iff (d : Dev) (l : List Staged) :
    ((d.splitDraft l).others = [] ∧ (d.splitDraft l).jobs = []) ↔ l = [] := by
  constructor
  · rintro ⟨hothers, hjobs⟩
    unfold Dev.splitDraft at hothers hjobs
    extract_lets owner slots at hothers hjobs
    refine List.eq_nil_iff_forall_not_mem.2 fun x hx => ?_
    have howner : owner x ≠ none := by
      simpa using List.filter_eq_nil_iff.1 hothers x hx
    obtain ⟨k, hk⟩ := Option.ne_none_iff_exists'.1 howner
    have hslot : k ∈ slots := by
      unfold slots
      rw [List.mem_mergeSort, List.mem_dedup]
      exact List.mem_filterMap.2 ⟨x, hx, hk⟩
    simp [List.map_eq_nil_iff.1 hjobs] at hslot
  · rintro rfl
    exact ⟨rfl, by simp [Dev.splitDraft]⟩

theorem Dev.commitDone_of_words {d : Dev} {p : Pending} (hp : d.qop.commit = some p)
    (hwords : ¬ (p.others = [] ∧ p.jobs = [])) : d.commitDone = d := by
  unfold Dev.commitDone
  rw [hp]
  exact if_neg hwords

/-- A commit without a word left is complete with the present tick. -/
theorem Dev.commitDone_of_empty {d : Dev} {p : Pending} (hp : d.qop.commit = some p) (hothers : p.others = [])
    (hjobs : p.jobs = []) :
    d.commitDone = ({ d with qop := { d.qop with commit := none } } : Dev).wrs [(0x180006, 2), (0x180008, d.epoch)] := by
  unfold Dev.commitDone
  rw [hp]
  exact if_pos ⟨hothers, hjobs⟩

/-- The device when a commit is pending with its words: the draft empty, COMMIT_STATE 1 and the next COMMIT_ID. -/
def Dev.pendCommit (d : Dev) (p : Pending) : Dev :=
  let d1 := (d.setDraft []).wrs [(0x180006, 1), (0x180007, (d.rd 0x180007 + 1) % 2 ^ 32)]
  { d1 with qop := { d1.qop with commit := some p } }

theorem Dev.beginCommit_eq (d : Dev) (p : Pending) : d.beginCommit p = (d.pendCommit p).commitDone := rfl

theorem Dev.rd_pendCommit (d : Dev) (p : Pending) (key : Nat) : (d.pendCommit p).rd key =
    if key = 0x180007 then (d.rd 0x180007 + 1) % 2 ^ 32 else if key = 0x180006 then 1
    else if key = 0x180005 then 0 else d.rd key := by
  show (((d.setDraft []).wr 0x180006 1).wr 0x180007 ((d.rd 0x180007 + 1) % 2 ^ 32)).rd key = _
  rw [Dev.rd_wr, Dev.rd_wr, Dev.rd_setDraft]
  rfl

theorem Dev.rd_commitDone_of_empty {d : Dev} {p : Pending} (hp : d.qop.commit = some p) (hothers : p.others = [])
    (hjobs : p.jobs = []) (key : Nat) : d.commitDone.rd key =
      if key = 0x180008 then d.epoch else if key = 0x180006 then 2 else d.rd key := by
  rw [Dev.commitDone_of_empty hp hothers hjobs, Dev.wrs_cons, Dev.wrs_cons, Dev.wrs_nil, Dev.rd_wr, Dev.rd_wr]
  rfl

@[simp] theorem Dev.commitDone_draft (d : Dev) : d.commitDone.qop.draft = d.qop.draft := by
  unfold Dev.commitDone
  split
  · rfl
  · split
    · simp
    · rfl

@[simp] theorem Dev.commitDone_eas (d : Dev) : d.commitDone.eas = d.eas := by
  unfold Dev.commitDone
  split
  · rfl
  · split
    · simp
    · rfl

@[simp] theorem Dev.commitDone_hub (d : Dev) : d.commitDone.hub = d.hub := by
  unfold Dev.commitDone
  split
  · rfl
  · split
    · simp
    · rfl

/-- What COMMIT leaves of the objects, by whether its draft has words. -/
theorem Dev.rd_beginCommit (d : Dev) (p : Pending) (key : Nat) : (d.beginCommit p).rd key =
    if key = 0x180008 ∧ p.others = [] ∧ p.jobs = [] then d.epoch
    else if key = 0x180006 then (if p.others = [] ∧ p.jobs = [] then 2 else 1)
    else if key = 0x180007 then (d.rd 0x180007 + 1) % 2 ^ 32 else if key = 0x180005 then 0 else d.rd key := by
  rw [Dev.beginCommit_eq]
  by_cases hempty : p.others = [] ∧ p.jobs = []
  · rw [Dev.rd_commitDone_of_empty (p := p) rfl hempty.1 hempty.2, Dev.rd_pendCommit]
    split_ifs <;> simp_all [Dev.pendCommit]
  · rw [Dev.commitDone_of_words (p := p) rfl hempty, Dev.rd_pendCommit]
    split_ifs <;> simp_all

theorem Dev.beginCommit_commit (d : Dev) (p : Pending) :
    (d.beginCommit p).qop.commit = if p.others = [] ∧ p.jobs = [] then none else some p := by
  rw [Dev.beginCommit_eq]
  split
  · next hempty =>
    rw [Dev.commitDone_of_empty (p := p) rfl hempty.1 hempty.2]
    simp
  · next hempty =>
    rw [Dev.commitDone_of_words (p := p) rfl hempty]
    rfl

/-- The words of a commit as pairs of a key and a value. -/
def Pending.words (p : Pending) : List (Nat × Nat) := p.others.map fun (i : Staged) => (i.key, i.val)

/-- A commit with its waiting words in force, and none left. -/
def Dev.applyCommit (d : Dev) (p : Pending) : Dev :=
  { d.applyWords p.words with qop := { (d.applyWords p.words).qop with commit := some { p with others := [], part := 0 } } }

section
variable {d : Dev} {p : Pending} (hp : d.qop.commit = some p) (hjobs : p.jobs = [])
include hp hjobs

theorem commitApplyCompleteOp_eq : commitApplyCompleteOp d = (d.applyCommit p).commitDone := by
  unfold commitApplyCompleteOp
  rw [hp]
  exact if_pos hjobs

theorem commitApplyCompleteOp_rd (key : Nat) : (commitApplyCompleteOp d).rd key =
    if key = 0x180008 then d.epoch else if key = 0x180006 then 2 else (d.applyWords p.words).rd key := by
  rw [commitApplyCompleteOp_eq hp hjobs, Dev.rd_commitDone_of_empty (d := d.applyCommit p) rfl rfl hjobs,
    show (d.applyCommit p).epoch = d.epoch from Dev.applyWords_epoch ..]
  rfl

theorem commitApplyCompleteOp_epoch : (commitApplyCompleteOp d).epoch = d.epoch := by
  rw [commitApplyCompleteOp_eq hp hjobs, Dev.commitDone_of_empty (d := d.applyCommit p) rfl rfl hjobs, Dev.wrs_epoch]
  exact Dev.applyWords_epoch ..

theorem commitApplyCompleteOp_commit : (commitApplyCompleteOp d).qop.commit = none := by
  rw [commitApplyCompleteOp_eq hp hjobs, Dev.commitDone_of_empty (d := d.applyCommit p) rfl rfl hjobs, Dev.wrs_qop]

/-- Each field holds the word staged for it last. -/
theorem commitApplyCompleteOp_staged {a b : List Staged} {x : Staged} (hsplit : p.others = a ++ x :: b)
    (hkey : stagedKey x.key = true) (hlast : ∀ y ∈ b, y.key ≠ x.key) : (commitApplyCompleteOp d).rd x.key = x.val := by
  have hnot : ∀ k ∈ [0x180006, 0x180008], x.key ≠ k := fun k hk hx => by
    have hk' : stagedKey k = false := (by decide +kernel : ∀ k ∈ [0x180006, 0x180008], stagedKey k = false) k hk
    simp [← hx, hkey] at hk'
  rw [commitApplyCompleteOp_rd hp hjobs, if_neg (hnot _ (by simp)), if_neg (hnot _ (by simp))]
  refine Dev.rd_applyWords d (a := a.map fun (i : Staged) => (i.key, i.val))
    (b := b.map fun (i : Staged) => (i.key, i.val)) (by simp [Pending.words, hsplit]) hkey fun w hw => ?_
  obtain ⟨y, hy, rfl⟩ := List.mem_map.1 hw
  exact hlast y hy

end

/-- Settles O9: COMMIT and DISCARD by what they do with the draft, and the end of applying by the last word of each field. -/
theorem draftCommands : Obligations.DraftCommands := by
  unfold Obligations.DraftCommands
  intro r s
  refine ⟨fun refuse hidle hbreach hfits h => ?commit, fun refuse p hpending h => ?pending,
    fun hidle hbreach hlarge h => ?tooLarge, fun h => ?discard, fun p hpending hjobs => ?complete⟩
  case commit =>
    have hmgmt := served_mgmt h
    have hbreach' : (s.now.take r).commitBreach s.now.qop.draft = none := hbreach
    have hfits' : (refuse && (s.now.splitDraft s.now.qop.draft).jobs.any fun w => decide (4096 < draftWords w.items)) =
        false := by
      cases refuse
      · rfl
      · exact hfits rfl
    have hempty := s.now.splitDraft_empty_iff s.now.qop.draft
    obtain ⟨t, p, hexec, hnow, hlast, hseq, hstatus, hpayload, -⟩ := exec_served (exec_commit r refuse s) h rfl
      (e := (s.now.take r).beginCommit { s.now.splitDraft s.now.qop.draft with refuse := refuse })
      (a := { payload := le 4 ((s.now.rd 0x180007 + 1) % 2 ^ 32) ++ le 4 (draftWords s.now.qop.draft) })
      (by
        have hsplit : (s.now.take r).splitDraft s.now.qop.draft = s.now.splitDraft s.now.qop.draft := rfl
        simp [hidle, hbreach', hsplit, hfits', Dev.rd_beginCommit])
      ((Dev.rd_beginCommit ..).trans hmgmt)
    have hrd : ∀ key, t.now.rd key = ((s.now.take r).beginCommit
        { s.now.splitDraft s.now.qop.draft with refuse := refuse }).rd key := fun key => by simp [hnow]
    refine ⟨t, p, hexec, by simp [hnow, Dev.beginCommit_eq, Dev.pendCommit, Dev.setDraft], by simp [hrd, Dev.rd_beginCommit],
      by simp [hrd, Dev.rd_beginCommit], hlast, hseq, hstatus, hpayload, fun hdraft => ⟨?_, ?_⟩, fun hdraft => ⟨?_, ?_, ?_⟩,
      fun key h5 h6 h7 h8 => ?_, by simp [hnow], ?_, ?_⟩
    · rw [hrd, Dev.rd_beginCommit]
      simp [hempty, hdraft]
    · rw [hnow, Dev.settleAnswer_commit, Dev.inStep1_qop, Dev.beginCommit_commit]
      exact if_neg fun hnone => hdraft (hempty.1 hnone)
    · rw [hrd, Dev.rd_beginCommit]
      simp [hempty.2 hdraft]
    · rw [hrd, Dev.rd_beginCommit]
      simp [hempty.2 hdraft]
    · rw [hnow, Dev.settleAnswer_commit, Dev.inStep1_qop, Dev.beginCommit_commit]
      exact if_pos (hempty.2 hdraft)
    · simp [hrd, Dev.rd_beginCommit, h5, h6, h7, h8]
    · simp [hnow, Dev.beginCommit_eq, Dev.pendCommit]
    · simp [hnow, Dev.beginCommit_eq, Dev.pendCommit]
  case pending =>
    have hmgmt := served_mgmt h
    obtain ⟨t, q, hexec, hnow, hlast, -, hstatus, -⟩ := exec_served (exec_commit r refuse s) h rfl (e := s.now.take r)
      (a := { status := stStateConflict }) (by simp [hpending]) hmgmt
    exact ⟨t, q, hexec, hlast, hstatus, by simp [hnow], by simp [hnow, hpending], by simp [hnow]⟩
  case tooLarge =>
    have hmgmt := served_mgmt h
    have hbreach' : (s.now.take r).commitBreach s.now.qop.draft = none := hbreach
    have hlarge' : ((s.now.take r).splitDraft s.now.qop.draft).jobs.any
        (fun w => decide (4096 < draftWords w.items)) = true := hlarge
    obtain ⟨t, q, hexec, hnow, hlast, -, hstatus, -⟩ := exec_served (exec_commit r true s) h rfl (e := s.now.take r)
      (a := { status := stDraftTooLarge }) (by simp [hidle, hbreach', hlarge']) hmgmt
    exact ⟨t, q, hexec, hlast, hstatus, by simp [hnow], by simp [hnow, hidle], by simp [hnow]⟩
  case discard =>
    exact answers_of_run (exec_discard r s) h rfl (f := fun d => d.setDraft [])
      (a := { payload := le 4 (draftWords s.now.qop.draft) }) rfl rfl rfl rfl
  case complete =>
    have hepoch := commitApplyCompleteOp_epoch hpending hjobs
    have hrd := commitApplyCompleteOp_rd hpending hjobs
    refine ⟨_, exec_commitApplyComplete s, commitApplyCompleteOp_commit hpending hjobs, hrd 0x180006,
      (hrd 0x180008).trans hepoch.symm, hepoch, commitApplyCompleteOp_ddr _, fun hall a x b hsplit hlast => ?_⟩
    have hkey : stagedKey x.key = true := (stagedKey_iff _).2 (hall x (by simp [hsplit]))
    exact commitApplyCompleteOp_staged hpending hjobs hsplit hkey hlast

end Sys2Proof.Machine
end

section
/-! What one item of a WRITE does, by the access code of its object (R14, R15, R575, R609). -/

namespace Sys2Proof.Machine

theorem exec_write (r : Req) (items : List WItem) (s : State) :
    exec (.write r items) s = .next (s.onNow (writeOp r items)) := rfl

theorem exec_registerWrite (ident idx sub val : Nat) (s : State) :
    exec (.registerWrite ident idx sub val) s = .next (s.onNow (registerWriteOp ident idx sub val)) := rfl

section
variable {i : WItem} {w : Row} (hrow : objRow i.idx i.sub = some w)
include hrow

theorem Dev.draftAfter_other (hacc : w.acc ≠ .rs) (d : Dev) : d.draftAfter [i] = d.qop.draft := by
  simp [Dev.draftAfter, hrow, hacc]

/-- Of an object with another access code, the draft stays as it was. -/
theorem Dev.applyItems_rw (hacc : w.acc = .rw) (d : Dev) (who : Nat) :
    d.applyItems who [i] = (d.setDraft d.qop.draft).applyRw who i.idx i.sub (i.val % 256 ^ w.ty.bytes) := by
  simp [Dev.applyItems, Dev.draftAfter_other hrow (w := w) (by simp [hacc]), Dev.applyItem, hrow, hacc]

theorem Dev.applyItems_set (hacc : w.acc = .set) (d : Dev) (who : Nat) :
    d.applyItems who [i] = (d.setDraft d.qop.draft).hostClear (objKey i.idx i.sub) (i.val % 256 ^ w.ty.bytes) := by
  simp [Dev.applyItems, Dev.draftAfter_other hrow (w := w) (by simp [hacc]), Dev.applyItem, hrow, hacc]

theorem Dev.applyItems_wo (hacc : w.acc = .wo) (d : Dev) (who : Nat) :
    d.applyItems who [i] = (d.setDraft d.qop.draft).act i.idx i.sub (i.val % 256 ^ w.ty.bytes) := by
  simp [Dev.applyItems, Dev.draftAfter_other hrow (w := w) (by simp [hacc]), Dev.applyItem, hrow, hacc]

theorem Dev.applyItems_ro (hacc : w.acc = .ro) (d : Dev) (who : Nat) :
    d.applyItems who [i] = d.setDraft d.qop.draft := by
  simp [Dev.applyItems, Dev.draftAfter_other hrow (w := w) (by simp [hacc]), Dev.applyItem, hrow, hacc]

/-- An RS item is staged, and no object but DRAFT_WORDS changes. -/
theorem Dev.applyItems_rs (hacc : w.acc = .rs) (d : Dev) (who : Nat) :
    d.applyItems who [i] = d.setDraft (stageField d.qop.draft
      { key := objKey i.idx i.sub
        val := (i.val % 256 ^ w.ty.bytes) &&& ((writeMask (objKey i.idx i.sub)).getD (256 ^ w.ty.bytes - 1))
        len := w.ty.bytes }) := by
  simp [Dev.applyItems, Dev.draftAfter, Dev.applyItem, hrow, hacc]

end

theorem mem_stageField (l : List Staged) (x : Staged) : x ∈ stageField l x := by
  unfold stageField
  split
  · next h =>
    obtain ⟨y, hy, hkey⟩ := List.any_eq_true.1 h
    exact List.mem_map.2 ⟨y, hy, if_pos hkey⟩
  · exact List.mem_append_right _ List.mem_cons_self

/-! The frame of each effect: jobs, easels and the bytes of DDR4. -/

theorem Dev.againBits_leaves {α : Type} {f : Dev → α} (h : ∀ e k n, f (Dev.bump e k n) = f e) (d : Dev) (key v : Nat) :
    f (d.againBits key v) = f d := by
  unfold Dev.againBits
  split
  · rfl
  · exact foldl_leaves _ _ fun e b _ => h ..

@[simp] theorem Dev.hostClear_hub (d : Dev) (key v : Nat) : (d.hostClear key v).hub = d.hub :=
  Dev.againBits_leaves (f := Dev.hub) (by simp) ..

@[simp] theorem Dev.hostClear_eas (d : Dev) (key v : Nat) : (d.hostClear key v).eas = d.eas :=
  Dev.againBits_leaves (f := Dev.eas) (by simp) ..

theorem Dev.rd_hostClear_self (d : Dev) (key v : Nat) : (d.hostClear key v).rd key =
    Nat.xor (d.rd key) (Nat.xor (Nat.land (d.rd key) v)
      (Nat.land (Nat.land (d.rd key) v) (tabGet 0 d.inTick.raised key))) :=
  (Dev.againBits_leaves (f := (·.rd key)) (fun e k n => Dev.rd_congr (Dev.bump_objs e k n) key) ..).trans
    (Dev.rd_wr_self ..)

/-- A bit stays where the host does not clear it, or hardware has set it in this tick. -/
theorem Dev.testBit_rd_hostClear (d : Dev) (key v b : Nat) : ((d.hostClear key v).rd key).testBit b =
    ((d.rd key).testBit b && (!v.testBit b || (tabGet 0 d.inTick.raised key).testBit b)) := by
  have hbits : ∀ x y r : Nat, (Nat.xor x (Nat.xor (Nat.land x y) (Nat.land (Nat.land x y) r))).testBit b =
      (x.testBit b && (!y.testBit b || r.testBit b)) := fun x y r => by
    show (x ^^^ ((x &&& y) ^^^ ((x &&& y) &&& r))).testBit b = _
    rw [Nat.testBit_xor, Nat.testBit_xor, Nat.testBit_and, Nat.testBit_and, Nat.testBit_and]
    cases x.testBit b <;> cases y.testBit b <;> cases r.testBit b <;> rfl
  rw [Dev.rd_hostClear_self]
  exact hbits ..

@[simp] theorem Dev.applyRw_hub (d : Dev) (who idx sub v : Nat) : (d.applyRw who idx sub v).hub = d.hub := by
  unfold Dev.applyRw Dev.injectSingle
  dsimp only
  split_ifs <;> simp

@[simp] theorem Dev.applyRw_eas (d : Dev) (who idx sub v : Nat) : (d.applyRw who idx sub v).eas = d.eas := by
  unfold Dev.applyRw Dev.injectSingle
  dsimp only
  split_ifs <;> simp

theorem Dev.rd_applyRw {d : Dev} {who idx sub v : Nat} (hdesc : idx ≠ 0x1008) (hledger : idx ≠ 0x7800)
    (hlane : ¬ (0x2410 ≤ idx ∧ idx ≤ 0x2830)) (hmask : writeMask (objKey idx sub) = none) :
    (d.applyRw who idx sub v).rd (objKey idx sub) = v := by
  unfold Dev.applyRw
  rw [if_neg (by omega), if_neg (by omega), if_neg (by omega)]
  simp [hmask]

/-- A WRITE of an item of any code but WO leaves jobs and easels. -/
theorem Dev.applyItems_frame {i : WItem} {w : Row} (hrow : objRow i.idx i.sub = some w) (hacc : w.acc ≠ .wo) (d : Dev)
    (who : Nat) : (d.applyItems who [i]).hub = d.hub ∧ (d.applyItems who [i]).eas = d.eas := by
  cases h : w.acc with
  | ro => simp [Dev.applyItems_ro hrow h]
  | rs => simp [Dev.applyItems_rs hrow h]
  | rw => simp [Dev.applyItems_rw hrow h]
  | set => simp [Dev.applyItems_set hrow h]
  | wo => exact absurd h hacc

/-- A REGISTER_WRITE that passes its checks applies its item. -/
theorem registerWriteOp_applies {d : Dev} {who : Nat} {i : WItem} {w : Row} (hrow : objRow i.idx i.sub = some w)
    (hlen : i.len = w.ty.bytes) (havail : d.available = true) (hknown : d.role who ≠ 0xFF)
    (hrole : roleAllows (d.role who) who 0x12 = true) (hstate : stateAllows d.state 0x12 = true)
    (hfault : d.writeFault who [i] = none) : registerWriteOp who i.idx i.sub i.val d = d.applyItems who [i] := by
  have hitem : ({ idx := i.idx, sub := i.sub, len := ((objRow i.idx i.sub).map (·.ty.bytes)).getD 0, val := i.val } :
      WItem) = i := by
    rw [hrow, Option.map_some, Option.getD_some, ← hlen]
  unfold registerWriteOp
  simp only [hitem, hfault]
  simp [havail, hknown, hrole, hstate]

/-- A WRITE and a REGISTER_WRITE that pass their checks apply the item, to the device as it is but for QOP's records; a reply
changes nothing of what the item does. -/
theorem writes_apply {c : Instr} {r : Req} {s : State} {i : WItem} {w : Row} (hrow : objRow i.idx i.sub = some w)
    (h : (c = .write r [i] ∧ (Machine.WItem.bytes i).length ≤ 1404 ∧ Served s.now r 0x12 (Machine.WItem.bytes i) ∧
        (s.now.take r).writeFault r.ident [i] = none) ∨
      (c = .registerWrite r.ident i.idx i.sub i.val ∧ i.len = w.ty.bytes ∧ s.now.available = true ∧
        s.now.role r.ident ≠ 0xFF ∧ roleAllows (s.now.role r.ident) r.ident 0x12 = true ∧
        stateAllows s.now.state 0x12 = true ∧ s.now.writeFault r.ident [i] = none)) :
    ∃ (t : State) (d : Dev), exec c s = .next t ∧ d.objs = s.now.objs ∧ d.inTick = s.now.inTick ∧
      d.qop.draft = s.now.qop.draft ∧ d.hub = s.now.hub ∧ d.eas = s.now.eas ∧ d.ddr = s.now.ddr ∧
      t.now.objs = (d.applyItems r.ident [i]).objs ∧ t.now.qop.draft = (d.applyItems r.ident [i]).qop.draft ∧
      t.now.hub = (d.applyItems r.ident [i]).hub ∧ t.now.eas = (d.applyItems r.ident [i]).eas ∧
      t.now.ddr = (d.applyItems r.ident [i]).ddr := by
  rcases h with ⟨rfl, hlen, hserved, hfault⟩ | ⟨rfl, hlen, havail, hknown, hrole, hstate, hfault⟩
  · have hserved' : Served s.now r 0x12 ([i].flatMap Machine.WItem.bytes) := by simpa using hserved
    have hop : writeOp r [i] s.now = (((s.now.take r).applyItems r.ident [i]).inStep1 (s.now.take r)).settleAnswer r 0x12 {} := by
      unfold writeOp
      exact Dev.serve_answers hserved' (by simpa using hlen) (by simp [hfault])
    refine ⟨_, s.now.take r, exec_write .., ?_⟩
    simp [State.onNow, hop]
  · have hop := registerWriteOp_applies hrow hlen havail hknown hrole hstate hfault
    refine ⟨_, s.now, exec_registerWrite .., rfl, rfl, rfl, rfl, rfl, rfl, ?_⟩
    simp [State.onNow, hop]

/-- Settles O8: a WRITE of one item is the effect of its access code, applied to the device with the draft as it is staged. -/
theorem writesTakeEffect : Obligations.WritesTakeEffect := by
  unfold Obligations.WritesTakeEffect
  intro r s i w hrow
  refine ⟨fun c hacc hwrite => ?write, fun hacc hlen havail hknown hrole hstate hfault => ?act⟩
  case write =>
    obtain ⟨t, d, hexec, hobjs, htick, hdraft, hhub, heas, hddr, tobjs, tdraft, thub, teas, tddr⟩ :=
      writes_apply hrow hwrite
    obtain ⟨hhub', heas'⟩ := Dev.applyItems_frame hrow hacc d r.ident
    have hrd : ∀ key, t.now.rd key = (d.applyItems r.ident [i]).rd key := Dev.rd_congr tobjs
    have hrd' : ∀ key, d.rd key = s.now.rd key := Dev.rd_congr hobjs
    refine ⟨t, hexec, by simp [tddr, hddr], by rw [thub, hhub', hhub], by rw [teas, heas', heas],
      fun hrw hdesc hledger hlane hmask => ?_, fun hrs hkey => ⟨?_, ?_⟩, fun hset hkey b => ?_⟩
    · rw [hrd, Dev.applyItems_rw hrow hrw, Dev.rd_applyRw hdesc hledger hlane hmask]
    · rw [hrd, Dev.applyItems_rs hrow hrs, Dev.rd_setDraft, if_neg hkey, hrd']
    · rw [tdraft, Dev.applyItems_rs hrow hrs]
      exact ⟨_, mem_stageField .., rfl, rfl⟩
    · rw [hrd, Dev.applyItems_set hrow hset, Dev.testBit_rd_hostClear, Dev.rd_setDraft, if_neg hkey, hrd',
        Dev.setDraft_inTick, htick]
  case act =>
    refine does_of_onNow (exec_registerWrite ..) ?_
    rw [registerWriteOp_applies hrow hlen havail hknown hrole hstate hfault, Dev.applyItems_wo hrow hacc]

end Sys2Proof.Machine
end

section
/-! The customer control store (R141 to R143, R147). -/

namespace Sys2Proof.Machine

theorem exec_custImage (len : Nat) (img : List W192) (s : State) :
    exec (.custImage len img) s = .next (s.onNow (custImageOp len img)) := rfl

theorem exec_custClear (s : State) : exec .custClear s = .next (s.onNow custClearOp) := rfl

section
variable {d : Dev} {len : Nat} {img : List W192}

theorem custImageOp_rejected (hst : d.state ≠ .primed) : custImageOp len img d = d.conflict := if_pos hst

theorem custImageOp_fails {a why : Nat} (hst : d.state = .primed) (hcheck : custCheck len img = some (a, why)) :
    custImageOp len img d = d.wr 0x444004 (a + 2 ^ 16 * why) := by
  unfold custImageOp
  rw [if_neg (by simp [hst]), hcheck]

theorem custImageOp_loads (hst : d.state = .primed) (hcheck : custCheck len img = none) :
    custImageOp len img d =
      { d.wrs [(0x444002, crc32 (custBytes img)), (0x444003, 1), (0x444004, 0)] with
        eas := { d.eas with cust := tabFill 0 [] 0 img, custHeld := true } } := by
  unfold custImageOp
  rw [if_neg (by simp [hst]), hcheck]

theorem custClearOp_rejected (hst : d.state ≠ .primed) : custClearOp d = d.conflict := if_pos hst

/-- The objects that CUST_CLEAR writes, each to 0. -/
def custClearWrites : List (Nat × Nat) := [(0x444002, 0), (0x444003, 0)] ++ (List.range 64).map fun k => (0x444101 + k, 0)

theorem custClearOp_clears (hst : d.state = .primed) :
    custClearOp d = { d.wrs custClearWrites with eas := { d.eas with cust := [], custHeld := false } } := by
  unfold custClearOp
  rw [if_neg (by simp [hst])]
  simp [custClearWrites]

end

theorem Dev.rd_custClearWrites (d : Dev) {key : Nat} (h : (key, 0) ∈ custClearWrites) :
    (d.wrs custClearWrites).rd key = 0 := by
  refine Dev.rd_wrs_of_mem d h fun p hp _ => ?_
  simp only [custClearWrites, List.cons_append, List.nil_append, List.mem_cons, List.mem_map] at hp
  rcases hp with rfl | rfl | ⟨k, -, rfl⟩ <;> rfl

/-- Settles O15. -/
theorem customerStoreLoads : Obligations.CustomerStoreLoads := by
  unfold Obligations.CustomerStoreLoads
  intro s len img
  refine ⟨fun hst hcheck => ?loads, fun a why hst hcheck => ?fails, fun hst => ?clears, fun hst => ⟨?image, ?clear⟩⟩
  case loads =>
    have hop := custImageOp_loads hst hcheck
    have hrd : ∀ key, (custImageOp len img s.now).rd key = (s.now.wrs
        [(0x444002, crc32 (custBytes img)), (0x444003, 1), (0x444004, 0)]).rd key := Dev.rd_congr (by simp only [hop])
    refine ⟨_, exec_custImage len img s, fun k hk => ?_, ?_⟩
    · have hread := tabGet_fill_self (0 : W192) [] 0 k img hk
      simpa [State.onNow, hop] using hread
    · simp only [State.onNow, hrd, Dev.wrs_cons, Dev.wrs_nil, Dev.rd_wr]
      simp [hop]
  case fails => exact does_of_onNow (exec_custImage len img s) (custImageOp_fails hst hcheck)
  case clears =>
    have hop := custClearOp_clears hst
    have hrd : ∀ key, (custClearOp s.now).rd key = (s.now.wrs custClearWrites).rd key := Dev.rd_congr (by simp only [hop])
    have hzero : ∀ key, (key, 0) ∈ custClearWrites → (custClearOp s.now).rd key = 0 := fun key hkey =>
      (hrd key).trans (Dev.rd_custClearWrites _ hkey)
    refine ⟨_, exec_custClear s, ?_⟩
    simp only [State.onNow]
    refine ⟨by simp [hop], by simp [hop], hzero _ (by simp [custClearWrites]),
      fun k hk => hzero _ (by simp [custClearWrites, hk]), by simp [hop], by simp [hop], by simp⟩
  case image => exact does_of_onNow (exec_custImage len img s) (custImageOp_rejected hst)
  case clear => exact does_of_onNow (exec_custClear s) (custClearOp_rejected hst)

end Sys2Proof.Machine
end

section
/-! ARM, DISARM and FORCE of an acquisition channel (R331, R349, R366). -/

namespace Sys2Proof.Machine

theorem exec_arm (c : Nat) (s : State) : exec (.arm c) s = .next (s.onNow (armOp c)) := rfl

theorem exec_disarm (c : Nat) (s : State) : exec (.disarm c) s = .next (s.onNow (disarmOp c)) := rfl

theorem exec_force (c : Nat) (s : State) : exec (.force c) s = .next (s.onNow (forceOp c)) := rfl

@[simp] theorem Dev.acqSt_setAcq_self (d : Dev) (c : Nat) (a : AcqSt) : (d.setAcq c a).acqSt c = a := tabGet_set_self ..

theorem Dev.acqSt_setAcq_other (d : Dev) (c b : Nat) (a : AcqSt) (h : b ≠ c) : (d.setAcq c a).acqSt b = d.acqSt b :=
  tabGet_set_other _ _ _ _ _ _ h

@[simp] theorem Dev.rd_setAcq (d : Dev) (c : Nat) (a : AcqSt) (key : Nat) : (d.setAcq c a).rd key = d.rd key := rfl

theorem Dev.acqSt_congr {d e : Dev} (h : d.acq = e.acq) (c : Nat) : d.acqSt c = e.acqSt c := by
  unfold Dev.acqSt
  rw [h]

section
variable {d : Dev} {c : Nat}

theorem Dev.armStatus_held (hheld : d.rd (unitKey 0x510015 c) ≠ 0xFFFF) : d.armStatus c = 7 := if_pos (.inl hheld)

theorem armOp_held (hheld : d.rd (unitKey 0x510015 c) ≠ 0xFFFF) : armOp c d = d.conflict := by
  unfold armOp
  rw [Dev.armStatus_held hheld]
  rfl

theorem armOp_begins (hst : d.armStatus c = 0) : armOp c d = d.acqBegin c { since := d.epoch } := if_pos hst

/-- What the beginning of a stretch leaves of its channel. -/
theorem Dev.acqBegin_spec (d : Dev) (c : Nat) (l : AcqLeg) :
    ((d.acqBegin c l).acqSt c).legs.getLast? = some l ∧ ((d.acqBegin c l).acqSt c).run = none ∧
      ((d.acqBegin c l).acqSt c).lastIdx = (d.acqSt c).lastIdx ∧
      ((d.acqSt c).legs = [] → ((d.acqBegin c l).acqSt c).conds = [] ∧ ((d.acqBegin c l).acqSt c).units = []) := by
  unfold Dev.acqBegin
  refine ⟨by simp, by simp, by simp, fun hnone => ?_⟩
  simp [hnone]

theorem Dev.rd_acqBegin (d : Dev) (c : Nat) (l : AcqLeg) :
    (d.acqBegin c l).rd (unitKey 0x510016 c) = 0 ∧ (d.acqBegin c l).rd (unitKey 0x510017 c) = 0 ∧
      (d.acqBegin c l).rd (unitKey 0x510013 c) = if d.rd (unitKey 0x510001 c) = 1 then 3 else 1 := by
  unfold Dev.acqBegin
  simp [Dev.wrs_cons, Dev.wrs_nil, Dev.rd_wr]

theorem Dev.acqBegin_frame (d : Dev) (c : Nat) (l : AcqLeg) :
    (∀ b, b ≠ c → (d.acqBegin c l).acqSt b = d.acqSt b) ∧ (d.acqBegin c l).hub = d.hub := by
  unfold Dev.acqBegin
  refine ⟨fun b hb => (Dev.acqSt_setAcq_other _ _ _ _ hb).trans (Dev.acqSt_congr (Dev.wrs_acq ..) b), by simp⟩

/-- A channel that stops without a run keeps its units where it streams. -/
theorem Dev.stopped_spec (d : Dev) (c : Nat) (hrun : (d.acqSt c).run = none) :
    (d.stopped c).conds = [] ∧ (d.stopped c).crossings = [] ∧ (d.stopped c).run = none ∧
      (d.stopped c).units = (if d.acqState c = 3 then (d.acqSt c).units else []) ∧
      (d.stopped c).lastIdx = (d.acqSt c).lastIdx := by
  unfold Dev.stopped
  dsimp only
  split
  · split
    · simp [hrun]
    · simp
  · next hnone => simp [List.getLast?_eq_none_iff.1 hnone]

theorem disarmOp_held (hheld : d.rd (unitKey 0x510015 c) ≠ 0xFFFF) : disarmOp c d = d.conflict := if_pos hheld

theorem disarmOp_idle (hfree : d.rd (unitKey 0x510015 c) = 0xFFFF) (hrun : (d.acqSt c).run = none) :
    disarmOp c d = (d.wr (unitKey 0x510013 c) 0).setAcq c (d.stopped c) := by
  unfold disarmOp
  rw [if_neg (by simp [hfree])]
  simp only [hrun]

theorem disarmOp_noted {r : AcqRun} (hfree : d.rd (unitKey 0x510015 c) = 0xFFFF) (hrun : (d.acqSt c).run = some r) :
    disarmOp c d = d.setAcq c { d.acqSt c with run := some { r with disarm := true } } := by
  unfold disarmOp
  rw [if_neg (by simp [hfree])]
  simp only [hrun]

theorem forceOp_held (hheld : d.rd (unitKey 0x510015 c) ≠ 0xFFFF) : forceOp c d = d.conflict := if_pos hheld

theorem forceOp_free (hfree : d.rd (unitKey 0x510015 c) = 0xFFFF) (hon : d.bit (unitKey 0x51000A c) 13 = true)
    (harmed : d.acqState c = 1) :
    forceOp c d = d.setAcq c { d.acqSt c with conds := (d.acqSt c).conds ++ [(13, d.epoch)] } := by
  unfold forceOp
  rw [if_neg (by simp [hfree])]
  unfold Dev.addCond
  simp [hon, harmed]

end

/-- Settles O16: the commands by what holds the channel, and whether it has a run. -/
theorem acquisitionCommands : Obligations.AcquisitionCommands := by
  unfold Obligations.AcquisitionCommands
  intro s c
  refine ⟨fun hst => ?arm, fun hfree hrun => ?idle, fun r hfree hrun => ?noted, fun hfree hon harmed => ?force,
    fun hheld => ⟨?armHeld, ?disarmHeld, ?forceHeld⟩⟩
  case arm =>
    have hop := armOp_begins hst
    obtain ⟨hcount, hunits, hstate⟩ := s.now.rd_acqBegin c { since := s.now.epoch }
    obtain ⟨hlegs, hrun, hidx, hnew⟩ := s.now.acqBegin_spec c { since := s.now.epoch }
    obtain ⟨hothers, hhub⟩ := s.now.acqBegin_frame c { since := s.now.epoch }
    refine ⟨_, exec_arm c s, ?_⟩
    simp only [State.onNow, hop]
    exact ⟨hcount, hunits, hstate, hlegs, hrun, hidx, hnew, hothers, hhub, Dev.acqBegin_ddr ..⟩
  case idle =>
    obtain ⟨hconds, hcross, hrun', hunits, hidx⟩ := s.now.stopped_spec c hrun
    refine ⟨_, exec_disarm c s, ?_⟩
    simp only [State.onNow, disarmOp_idle hfree hrun, Dev.acqSt_setAcq_self, Dev.rd_setAcq, Dev.rd_wr_self]
    refine ⟨trivial, hconds, hcross, hrun', hunits, hidx, fun b hb => Dev.acqSt_setAcq_other _ _ _ _ hb, rfl, by simp⟩
  case noted => exact does_of_onNow (exec_disarm c s) (disarmOp_noted hfree hrun)
  case force => exact does_of_onNow (exec_force c s) (forceOp_free hfree hon harmed)
  case armHeld => exact does_of_onNow (exec_arm c s) (armOp_held hheld)
  case disarmHeld => exact does_of_onNow (exec_disarm c s) (disarmOp_held hheld)
  case forceHeld => exact does_of_onNow (exec_force c s) (forceOp_held hheld)

end Sys2Proof.Machine
end

section
/-! A WARM reset whose reply waits: words of varnish that are staged take effect in it, whatever object they name. -/

namespace Sys2Proof.Machine

theorem exec_resetWarm (r : Req) (s : State) : exec (.resetWarm r) s = .next (s.onNow (resetWarmOp r)) := rfl

theorem Dev.sendReply_waits {d : Dev} (p : Reply) (hmgmt : d.rd 0x281001 ≠ 3) :
    (d.sendReply p).qop.last = d.qop.last := by
  unfold Dev.sendReply
  rw [if_neg (by simpa [Dev.mgmtUp] using hmgmt)]

/-- While MGMT is down an answer is no last reply. -/
theorem Dev.settleAnswer_waits {d : Dev} (hmgmt : d.rd 0x281001 ≠ 3) (r : Req) (cmd : Nat) (a : Ans) :
    (d.settleAnswer r cmd a).qop.last = d.qop.last := by
  have hanswer : ∀ e : Dev, e.rd 0x281001 ≠ 3 → (e.answer r cmd a).qop.last = e.qop.last := fun e he => by
    unfold Dev.answer
    dsimp only
    split
    · exact Dev.sendReply_waits _ he
    · exact Dev.sendReply_waits _ he
  unfold Dev.settleAnswer
  split
  · exact hanswer d.conflict hmgmt
  · exact hanswer d hmgmt

/-- A device in COLD with MGMT up, and a staged word of varnish for the state of MGMT. -/
def mgmtStagedDev : Dev :=
  { Dev.reset with
    pwr := { up := true, booted := true }, objs := [(0x281001, 3)]
    cal := { stage := [{ key := 0x281001, val := 0, at_ := 0, routine := 0, ukind := 0, unit := 0, figure := 0, old := 0, new := 0 }] } }

/-- An authentic RESET of kind WARM by identity 0. -/
def warmReq : Req :=
  { waiting := 0, ident := 0, seq := 1, magic := 0x5150, version := 1, lenOk := true, layoutOk := true
    tag := Config.hmac Config.factoryKey (qopHeader 1 0 1 1 0x44 0 0 0 ++ le 1 1) }

theorem warmReq_served : Served mgmtStagedDev warmReq 0x44 (le 1 1) := by
  refine ⟨by decide +kernel, ?_, by decide, by decide +kernel, rfl, by decide +kernel, by decide⟩
  have hkey : (mgmtStagedDev.ident warmReq.ident).key = Config.factoryKey := rfl
  have hrole : mgmtStagedDev.role warmReq.ident = 0 := by decide +kernel
  unfold Dev.drops
  rw [hkey, hrole]
  simp [warmReq, requestFrame, show (le 1 1).length = 1 by decide]

/-- Refutes O14: a WARM reset lets the staged words of free units take effect, and a word for the state of MGMT, which no
unit holds, takes MGMT down, so that the reply is held and is not the last one sent. -/
theorem not_stateRequests : ¬ Obligations.StateRequests := by
  unfold Obligations.StateRequests
  intro h
  obtain ⟨-, -, -, -, hwarm, -⟩ := h warmReq { now := mgmtStagedDev, last := mgmtStagedDev, pending := [] }
  obtain ⟨t, p, hexec, -, hlast, -⟩ := hwarm warmReq_served
  have hop : resetWarmOp warmReq mgmtStagedDev =
      (((mgmtStagedDev.take warmReq).warmReset 1).inStep1 (mgmtStagedDev.take warmReq)).settleAnswer warmReq 0x44
        { dstate := some 0 } := Dev.serve_answers warmReq_served rfl rfl
  have hdown : ((mgmtStagedDev.take warmReq).warmReset 1).rd 0x281001 ≠ 3 := by decide +kernel
  have hnone : ((mgmtStagedDev.take warmReq).warmReset 1).qop.last = none := by decide +kernel
  have hwaits : (resetWarmOp warmReq mgmtStagedDev).qop.last = none := by
    rw [hop, Dev.settleAnswer_waits (by rwa [Dev.inStep1_rd]), Dev.inStep1_qop]
    exact hnone
  rw [← Host.Outcome.next.inj ((exec_resetWarm ..).symm.trans hexec)] at hlast
  exact absurd (hwaits.symm.trans hlast) (by simp)

end Sys2Proof.Machine
end

section
/-! PRBS, error injection and retraining of lanes, links and ports (R540 to R543). -/

namespace Sys2Proof.Machine

theorem exec_prbsStart (l : Nat) (s : State) : exec (.prbsStart l) s = .next (s.onNow (prbsStartOp l)) := rfl
theorem exec_prbsStop (l : Nat) (s : State) : exec (.prbsStop l) s = .next (s.onNow (·.prbsStop l)) := rfl
theorem exec_prbsClear (l : Nat) (s : State) : exec (.prbsClear l) s = .next (s.onNow (·.prbsClear l)) := rfl
theorem exec_injectSingle (l : Nat) (s : State) : exec (.injectSingle l) s = .next (s.onNow (·.injectSingle l)) := rfl
theorem exec_gzInject (k : Nat) (s : State) : exec (.gzInject k) s = .next (s.onNow (gzInjectOp k)) := rfl
theorem exec_gzRetrain (k : Nat) (s : State) : exec (.gzRetrain k) s = .next (s.onNow (·.retrainLink k)) := rfl
theorem exec_portReadapt (h : Nat) (s : State) : exec (.portReadapt h) s = .next (s.onNow (·.portReadapt h)) := rfl

@[simp] theorem Dev.link_setLink_self (d : Dev) (k : Nat) (l : Link) : (d.setLink k l).link k = l := tabGet_set_self ..

theorem Dev.link_setLink_other (d : Dev) (k j : Nat) (l : Link) (h : j ≠ k) : (d.setLink k l).link j = d.link j :=
  tabGet_set_other _ _ _ _ _ _ h

theorem Dev.link_congr {d e : Dev} (h : d.ser = e.ser) (k : Nat) : d.link k = e.link k := by
  unfold Dev.link
  rw [h]

/-- Of the objects, a link's record changes the count of its cells alone. -/
theorem Dev.rd_setLink (d : Dev) (k : Nat) (l : Link) (key : Nat) :
    (d.setLink k l).rd key = if key = unitKey 0x240009 k then l.unacked.length else d.rd key := Dev.rd_wr ..

theorem Dev.retrainLink_of_up {d : Dev} {k : Nat} (hup : d.rd (unitKey 0x240001 k) = 4) : d.retrainLink k =
    let d1 := ((d.dropLink k 1).wrs ((List.range 4).map fun l => (unitKey 0x241001 (4 * k + l), 0))).flag
      (unitKey 0x24000A k) 3
    ((List.range 4).foldl (fun e l => e.setLane (4 * k + l) { e.lane (4 * k + l) with restores := [] })
      (d1.setLink k { d1.link k with retrained := true, ready := false })).refreshUnits := if_pos hup

/-- What retraining leaves of the state of its link is what the drop of the link leaves of it. -/
theorem Dev.rd_retrainLink_state {d : Dev} {k : Nat} (hup : d.rd (unitKey 0x240001 k) = 4) :
    (d.retrainLink k).rd (unitKey 0x240001 k) = (d.dropLink k 1).rd (unitKey 0x240001 k) := by
  rw [Dev.retrainLink_of_up hup]
  dsimp only
  refine (Dev.rd_refreshUnits _ _ (by unfold unitKey; omega)).trans
    ((foldl_leaves (f := (·.rd (unitKey 0x240001 k))) _ _ fun _ _ _ => by rfl).trans ?_)
  rw [Dev.rd_setLink, if_neg (by unfold unitKey; omega), Dev.rd_flag_other _ _ _ _ (by unfold unitKey; omega)]
  refine Dev.rd_wrs_other _ _ _ fun p hp => ?_
  obtain ⟨l, -, rfl⟩ := List.mem_map.1 hp
  unfold unitKey
  omega

/-- A device whose primary spine link is number 0x5410, which no chip has: the state of that link would be the object of the
spine's flags, 0x781001, here 4. -/
def noLinkDev : Dev := { Dev.reset with objs := [(0x201003, 0x5410), (0x781001, 4)] }

/-- Refutes O18: the link's number is any number, and for 0x5410 the key of the link's state is that of the spine's flags;
the loss of the primary spine link sets bit 3 there, and GZ_RETRAIN leaves 9 where the clause has 1. -/
theorem not_laneCommands : ¬ Obligations.LaneCommands := by
  unfold Obligations.LaneCommands
  intro h
  obtain ⟨-, -, -, -, -, -, hretrain, -⟩ := h { now := noLinkDev, last := noLinkDev, pending := [] } 0 0x5410 0
  have hup : noLinkDev.rd (unitKey 0x240001 0x5410) = 4 := by decide +kernel
  obtain ⟨t, hexec, hstate, -⟩ := hretrain hup
  have hflags : (noLinkDev.dropLink 0x5410 1).rd (unitKey 0x240001 0x5410) = 9 := by decide +kernel
  rw [← Host.Outcome.next.inj ((exec_gzRetrain ..).symm.trans hexec)] at hstate
  simp only [State.onNow] at hstate
  rw [Dev.rd_retrainLink_state hup, hflags] at hstate
  exact absurd hstate (by decide)

end Sys2Proof.Machine
end

section
/-! LEDGER_RELEASE and BB_RELEASE (R661, R666). -/

namespace Sys2Proof.Machine

theorem exec_ledgerRelease (q : Nat) (s : State) :
    exec (.ledgerRelease q) s = .next (s.onNow (ledgerReleaseOp q)) := rfl

theorem exec_bbRelease (no : Nat) (s : State) : exec (.bbRelease no) s = .next (s.onNow (bbReleaseOp no)) := rfl

theorem ledgerReleaseOp_stopped {d : Dev} {q : Nat} {j : Job} (hjob : d.job q = some j) (hst : j.st = .stopped) :
    ledgerReleaseOp q d = d.leave q := by
  unfold ledgerReleaseOp
  rw [hjob]
  exact if_pos hst

theorem ledgerReleaseOp_other {d : Dev} {q : Nat} (hst : (d.job q).map (·.st) ≠ some .stopped) :
    ledgerReleaseOp q d = d.conflict := by
  unfold ledgerReleaseOp
  cases hjob : d.job q with
  | none => rfl
  | some j => exact if_neg fun h => hst (by simp [hjob, h])

theorem bbReleaseOp_held {d : Dev} {no : Nat} (hheld : (d.hub.bb.any fun r => r.no == no && r.frozen) = true) :
    (bbReleaseOp no d).hub = { d.hub with bb := d.hub.bb.filter fun r => !(r.no == no && r.frozen) } := by
  unfold bbReleaseOp Dev.bbObjects
  dsimp only
  rw [if_pos hheld, Dev.wrs_hub]

/-- Settles O20. -/
theorem ledgerAndBlackBoxRelease : Obligations.LedgerAndBlackBoxRelease := by
  unfold Obligations.LedgerAndBlackBoxRelease
  intro s
  refine ⟨fun q j hjob hst => ?_, fun q hst => ?_, fun no hheld => ⟨_, exec_bbRelease no s, ?_⟩⟩
  · exact does_of_onNow (exec_ledgerRelease q s) (ledgerReleaseOp_stopped hjob hst)
  · exact does_of_onNow (exec_ledgerRelease q s) (ledgerReleaseOp_other hst)
  · simp [State.onNow, bbReleaseOp_held hheld]

end Sys2Proof.Machine
end

section
/-! A CANCEL whose reply waits: a job that leaves frees its units, and the words of varnish staged for free units take
effect, whatever object they name. -/

namespace Sys2Proof.Machine

theorem exec_cancel (r : Req) (seq : Nat) (s : State) : exec (.cancel r seq) s = .next (s.onNow (cancelOp r seq)) := rfl

/-- An ARMED job on one chip that waits for its start. -/
def waitingJob : Job :=
  { slot := 0, seq := 1, st := .armed
    head := { shots := 1, shotLimit := 0, spoilRetry := 0, startMode := 1, trigInput := 0, calibration := false
              multiChip := false, gap := 0, startEpoch := 0, window := 0, ljob := 0, chips := 0 }
    content := { canvases := [], program := [], segments := [], pulses := [], samples := [], kernels := [], genDefs := []
                 genBinds := [], streams := [], decisions := [], dsp := [], acq := [], pins := [], calib := [] } }

/-- The staged word of `mgmtStagedDev` in a device that holds `waitingJob`. -/
def armedStagedDev : Dev := { mgmtStagedDev with state := .armed, hub := { jobs := [waitingJob] } }

/-- An authentic CANCEL of `waitingJob` by identity 0. -/
def cancelReq : Req :=
  { waiting := 0, ident := 0, seq := 1, magic := 0x5150, version := 1, lenOk := true, layoutOk := true
    tag := Config.hmac Config.factoryKey (qopHeader 1 0 8 1 0x34 0 0 0 ++ le 8 1) }

theorem cancelReq_served : Served armedStagedDev cancelReq 0x34 (le 8 1) := by
  refine ⟨by decide +kernel, ?_, by decide, by decide +kernel, rfl, by decide +kernel, by decide⟩
  have hkey : (armedStagedDev.ident cancelReq.ident).key = Config.factoryKey := rfl
  have hrole : armedStagedDev.role cancelReq.ident = 0 := by decide +kernel
  unfold Dev.drops
  rw [hkey, hrole]
  simp [cancelReq, requestFrame, show (le 8 1).length = 8 by decide]

/-- The run of the CANCEL, without its reply. -/
def cancelRun : Dev × Option Ans := (armedStagedDev.take cancelReq).jobRequest 1 Job.takesCancel Dev.cancelJob

theorem cancelOp_eq : cancelOp cancelReq 1 armedStagedDev =
    (cancelRun.1.inStep1 (armedStagedDev.take cancelReq)).settleAnswer cancelReq 0x34 {} := by
  have hans : cancelRun.2 = some {} := by decide +kernel
  have hrun : cancelRun = (cancelRun.1, some {}) := by rw [← hans]
  unfold cancelOp
  exact Dev.serve_answers (run := fun e => e.jobRequest 1 Job.takesCancel Dev.cancelJob) cancelReq_served rfl hrun

theorem cancelReq_waits : (cancelOp cancelReq 1 armedStagedDev).qop.last = none := by
  have hdown : cancelRun.1.rd 0x281001 ≠ 3 := by decide +kernel
  have hnone : cancelRun.1.qop.last = none := by decide +kernel
  rw [cancelOp_eq, Dev.settleAnswer_waits (by rwa [Dev.inStep1_rd]), Dev.inStep1_qop]
  exact hnone

/-- Refutes O12: a CANCEL of a job between shots frees its units, the words staged for free units take effect, and one for
the state of MGMT takes MGMT down, so that the reply is held and is not the last one sent. -/
theorem not_jobRequests : ¬ Obligations.JobRequests := by
  unfold Obligations.JobRequests
  intro h
  obtain ⟨-, -, -, -, hcancel, -⟩ := h cancelReq { now := armedStagedDev, last := armedStagedDev, pending := [] }
  obtain ⟨t, p, hexec, hlast, -⟩ := hcancel 1 waitingJob (by decide +kernel) (by decide) cancelReq_served
  have hwaits := cancelReq_waits
  rw [← Host.Outcome.next.inj ((exec_cancel ..).symm.trans hexec)] at hlast
  exact absurd (hwaits.symm.trans hlast) (by simp)

end Sys2Proof.Machine
end

section
/-! A thread that stands at an operation dispatches it and runs its routine at once (R102, R112, R115, R129): what the routine
finds in its context. -/

namespace Sys2Proof.Machine

/-! ### The opcode of an operation's word -/

/-- The opcode of an operation (R105). -/
def opcodeOf : COp → Nat
  | .nop .. => 0x00
  | .play .. => 0x01
  | .read .. => 0x02
  | .fluxhold .. => 0x04
  | .fshift .. => 0x08
  | .ffreq .. => 0x09
  | .fphase .. => 0x0A
  | .fshiftv .. => 0x0B
  | .wait .. => 0x10
  | .waituntil .. => 0x11
  | .barrier .. => 0x12
  | .waitev .. => 0x13
  | .acqtrig .. => 0x19
  | .mark .. => 0x20
  | .event .. => 0x21
  | .branch .. => 0x28
  | .goto .. => 0x29
  | .loop .. => 0x2A
  | .jseg .. => 0x2C
  | .setv .. => 0x30
  | .addv .. => 0x31
  | .greset .. => 0x38
  | .endc .. => 0x3F
  | .customer _ k _ => 0xC0 + k.toNat

theorem hdrBits_mod (opc : Nat) (h : Hdr) : hdrBits opc h % 256 = opc % 256 := by
  unfold hdrBits
  split <;> split <;> omega

theorem bitAt_mod (b : Bool) (i : Nat) : bitAt b (8 + i) % 256 = 0 := by
  unfold bitAt
  split
  · rw [Nat.pow_add]
    exact Nat.mul_mod_right ..
  · rfl

theorem fld_ofNat_low (n : Nat) : fld (BitVec.ofNat 128 n) 7 0 = n % 256 := by
  simp only [fld, bits, BitVec.toNat_ofNat]
  omega

/-- The opcode is bits 7 to 0 of the word. -/
theorem fld_encodeOp (op : COp) : fld (encodeOp op) 7 0 = opcodeOf op := by
  have hb34 : ∀ b, bitAt b 34 % 256 = 0 := fun b => bitAt_mod b 26
  have hb36 : ∀ b, bitAt b 36 % 256 = 0 := fun b => bitAt_mod b 28
  have hb38 : ∀ b, bitAt b 38 % 256 = 0 := fun b => bitAt_mod b 30
  cases op with
  | customer h k f =>
    have := hdrBits_mod (0xC0 + k.toNat) h; have := k.isLt
    simp only [encodeOp, fld_ofNat_low, opcodeOf]; omega
  | _ =>
    simp [encodeOp, fld_ofNat_low, playBits, readBits, frameBits, opcodeOf, Nat.add_mod, Nat.mul_mod, hdrBits_mod,
      hb34, hb36, hb38]

/-- The operation takes its address from a generator: PLAY or READ with GEN = 1. -/
def stepsGen (op : COp) : Bool :=
  fld (encodeOp op) 36 36 == 1 && (fld (encodeOp op) 7 0 == 1 || fld (encodeOp op) 7 0 == 2)

theorem stepsGen_of_opcode {op : COp} (h1 : opcodeOf op ≠ 1) (h2 : opcodeOf op ≠ 2) : stepsGen op = false := by
  simp [stepsGen, fld_encodeOp, h1, h2]

/-! ### Dispatch -/

/-- The context in which the routine of an operation runs. -/
def Dev.loaded (d : Dev) (x : CtxRef) (c : Ctx) (op : COp) (h : Hdr) : Ctx :=
  { d.loadOp x.n c (encodeOp op) (d.launchTick x.n c h) with entry := false }

section
variable {s : State} {d : Dev} {x : CtxRef} {op : COp} {c : Ctx} {h : Hdr} {body : Dev → Ctx → Nat → Dev × Ctx}

theorem genStep_leaves (d : Dev) (n : Nat) (c : Ctx) (g : Nat) :
    ∃ gens, (d.genStep n c g).2 = { c with gens := gens } := by
  unfold Dev.genStep
  cases d.genDef n g with
  | none => exact ⟨c.gens, rfl⟩
  | some df => exact ⟨_, rfl⟩

/-- Dispatch changes the micro-state and what a generator steps. -/
theorem loaded_leaves (d : Dev) (x : CtxRef) (c : Ctx) (op : COp) (h : Hdr) : ∃ mic chk gens,
    d.loaded x c op h = { c with mic := mic, chk := chk, gens := gens, entry := false, wait := .ready } := by
  unfold Dev.loaded Dev.loadOp
  dsimp only
  split
  · obtain ⟨gens, hgen⟩ := genStep_leaves d x.n c (fld (encodeOp op) 41 37)
    rw [hgen]
    exact ⟨_, _, _, rfl⟩
  · exact ⟨_, _, _, rfl⟩

@[simp] theorem loaded_cpc : (d.loaded x c op h).cpc = c.cpc := by
  obtain ⟨_, _, _, e⟩ := loaded_leaves d x c op h; rw [e]
@[simp] theorem loaded_cursor : (d.loaded x c op h).cursor = c.cursor := by
  obtain ⟨_, _, _, e⟩ := loaded_leaves d x c op h; rw [e]
@[simp] theorem loaded_v : (d.loaded x c op h).v = c.v := by
  obtain ⟨_, _, _, e⟩ := loaded_leaves d x c op h; rw [e]
@[simp] theorem loaded_queue : (d.loaded x c op h).queue = c.queue := by
  obtain ⟨_, _, _, e⟩ := loaded_leaves d x c op h; rw [e]
@[simp] theorem loaded_issued : (d.loaded x c op h).issued = c.issued := by
  obtain ⟨_, _, _, e⟩ := loaded_leaves d x c op h; rw [e]
@[simp] theorem loaded_flags : (d.loaded x c op h).flags = c.flags := by
  obtain ⟨_, _, _, e⟩ := loaded_leaves d x c op h; rw [e]
@[simp] theorem loaded_consumed : (d.loaded x c op h).consumed = c.consumed := by
  obtain ⟨_, _, _, e⟩ := loaded_leaves d x c op h; rw [e]
@[simp] theorem loaded_wait : (d.loaded x c op h).wait = .ready := by
  obtain ⟨_, _, _, e⟩ := loaded_leaves d x c op h; rw [e]
@[simp] theorem loaded_vr (i : Nat) : (d.loaded x c op h).vr i = c.vr i := by simp [Ctx.vr]
@[simp] theorem loaded_target (t : BitVec 16) : (d.loaded x c op h).target t = c.target t := by simp [Ctx.target]

theorem loaded_eq_load (hgen : stepsGen op = false) : d.loaded x c op h =
    { c.load (encodeOp op) (d.launchTick x.n c h) (d.opEntry (opcodeOf op)) with entry := false } := by
  simp only [stepsGen, fld_encodeOp] at hgen
  simp only [Dev.loaded, Dev.loadOp, hgen, fld_encodeOp, Bool.false_eq_true, if_false]

theorem loaded_gens (hgen : stepsGen op = false) : (d.loaded x c op h).gens = c.gens := by
  rw [loaded_eq_load hgen]; rfl

theorem Ctx.load_sr2 (c : Ctx) (w : W128) (t mpc : Nat) : (c.load w t mpc).sr 2 = BitVec.ofNat 64 t :=
  tabGet_set_self ..

/-- S0 and S1 hold the operation's word. -/
theorem Ctx.load_pair (c : Ctx) (w : W128) (t mpc : Nat) : (c.load w t mpc).pair 0 = w := by
  have h0 : (c.load w t mpc).sr 0 = w.setWidth 64 := by
    unfold Ctx.sr Ctx.load
    rw [tabGet_set_other _ _ _ _ _ _ (by decide), tabGet_set_other _ _ _ _ _ _ (by decide)]
    exact tabGet_set_self ..
  have h1 : (c.load w t mpc).sr 1 = (w >>> 64).setWidth 64 := by
    unfold Ctx.sr Ctx.load
    rw [tabGet_set_other _ _ _ _ _ _ (by decide)]
    exact tabGet_set_self ..
  unfold Ctx.pair
  rw [h0, h1]
  ext i hi
  simp only [BitVec.getElem_append, BitVec.getElem_setWidth, BitVec.getLsbD_ushiftRight]
  split
  · rw [BitVec.getLsbD_eq_getElem]
  · rw [Nat.add_sub_cancel' (by omega), BitVec.getLsbD_eq_getElem]

theorem loaded_sr2 : (d.loaded x c op h).sr 2 = BitVec.ofNat 64 (d.launchTick x.n c h) := by
  unfold Dev.loaded Dev.loadOp
  exact Ctx.load_sr2 ..

/-- The launch tick fits the 64 bits of S2. -/
theorem launchTick_lt (hat : AtOp d x op c) : d.launchTick x.n c h < 2 ^ 64 := by
  obtain ⟨-, -, -, -, -, -, -, -, -, hcursor, hshot⟩ := hat
  have hv := (c.vr h.vix.toNat).isLt
  have hdt := h.dt.isLt
  unfold Dev.launchTick
  split <;> split <;> omega

theorem loaded_tick (hat : AtOp d x op c) : ((d.loaded x c op h).sr 2).toNat = d.launchTick x.n c h := by
  rw [loaded_sr2, BitVec.toNat_ofNat, Nat.mod_eq_of_lt (launchTick_lt hat)]

theorem dispatch_routine (hat : AtOp d x op c) (launches : Bool) : d.dispatch x op h launches body =
    d.routine x (d.loadOp x.n c (encodeOp op) (d.launchTick x.n c h)) launches body := by
  obtain ⟨hctx, hissue, hrun, hopen, hentry, htrap, hbranch, hop, hcursor, -, -⟩ := hat
  unfold Dev.dispatch
  simp [hctx, hissue, hrun, hopen, hentry, htrap, hbranch, hop, Nat.not_lt.mpr hcursor]

/-- The routine of an operation that nothing holds runs in the loaded context at its launch tick. -/
theorem dispatch_body (hat : AtOp d x op c) {launches : Bool}
    (hhold : launches = true → d.launchHold x.n (d.launchTick x.n c h) = none) :
    d.dispatch x op h launches body =
      (body d (d.loaded x c op h) (d.launchTick x.n c h)).1.setCtx x
        (body d (d.loaded x c op h) (d.launchTick x.n c h)).2 := by
  have htick : ((d.loadOp x.n c (encodeOp op) (d.launchTick x.n c h)).sr 2).toNat = d.launchTick x.n c h :=
    loaded_tick hat
  rw [dispatch_routine hat]
  unfold Dev.routine
  simp only [htick]
  cases launches with
  | false => rfl
  | true => simp only [hhold rfl, if_true]; rfl

/-- An operation that launches nothing and works in its context alone. -/
theorem dispatch_ctx (hat : AtOp d x op c) (f : Ctx → Nat → Ctx) :
    d.dispatch x op h false (fun e c lt => (e, f c lt)) =
      d.setCtx x (f (d.loaded x c op h) (d.launchTick x.n c h)) := dispatch_body hat (by simp)

theorem fell_fall (c' : Ctx) (hcpc : c'.cpc = c.cpc) (hqueue : c'.queue = c.queue) : Fell c c'.fall := by
  simp [Fell, Ctx.fall, hcpc, hqueue]

theorem doesCtx_of_dispatch {i : Instr} {f : Dev → Dev} {c' : Ctx} (hexec : exec i s = .next (s.onNow f))
    (hop : f s.now = s.now.setCtx x c') : DoesCtx i s x c' := by
  rw [DoesCtx, Does, hexec, State.onNow, hop]

end

/-! ### Registers -/

@[simp] theorem Ctx.fall_v (c : Ctx) : c.fall.v = c.v := rfl
@[simp] theorem Ctx.fall_cursor (c : Ctx) : c.fall.cursor = c.cursor := rfl
@[simp] theorem Ctx.fall_gens (c : Ctx) : c.fall.gens = c.gens := rfl
@[simp] theorem Ctx.fall_issued (c : Ctx) : c.fall.issued = c.issued := rfl
@[simp] theorem Ctx.fall_vr (c : Ctx) (i : Nat) : c.fall.vr i = c.vr i := rfl
@[simp] theorem Ctx.setV_cursor (c : Ctx) (i : Nat) (v : W32) : (c.setV i v).cursor = c.cursor := rfl
@[simp] theorem Ctx.setV_gens (c : Ctx) (i : Nat) (v : W32) : (c.setV i v).gens = c.gens := rfl
@[simp] theorem Ctx.setV_cpc (c : Ctx) (i : Nat) (v : W32) : (c.setV i v).cpc = c.cpc := rfl
@[simp] theorem Ctx.setV_queue (c : Ctx) (i : Nat) (v : W32) : (c.setV i v).queue = c.queue := rfl
@[simp] theorem Ctx.jumpTo_v (c : Ctx) (a : Nat) : (c.jumpTo a).v = c.v := rfl
@[simp] theorem Ctx.jumpTo_cursor (c : Ctx) (a : Nat) : (c.jumpTo a).cursor = c.cursor := rfl
@[simp] theorem Ctx.jumpTo_gens (c : Ctx) (a : Nat) : (c.jumpTo a).gens = c.gens := rfl
@[simp] theorem Ctx.jumpTo_cpc (c : Ctx) (a : Nat) : (c.jumpTo a).cpc = a := rfl
@[simp] theorem Ctx.jumpTo_wait (c : Ctx) (a : Nat) : (c.jumpTo a).wait = .ready := rfl
@[simp] theorem Ctx.jumpTo_vr (c : Ctx) (a i : Nat) : (c.jumpTo a).vr i = c.vr i := rfl
@[simp] theorem Ctx.setV_vr_self (c : Ctx) (i : Nat) (v : W32) : (c.setV i v).vr i = v := tabGet_set_self ..
theorem Ctx.setV_vr_other (c : Ctx) {i k : Nat} (v : W32) (h : k ≠ i) : (c.setV i v).vr k = c.vr k :=
  tabGet_set_other _ _ _ _ _ _ h

/-- Settles O21: each operation's routine runs in the loaded context, whose registers are those of the thread. -/
theorem registerOperations : Obligations.RegisterOperations := by
  unfold Obligations.RegisterOperations
  intro s x c h
  refine ⟨fun hat => ?nop, fun vd v hat => ?setv, fun vd v hat => ?addv, fun g hat => ?greset, fun a hat => ?goto,
    fun vc ofs hat => ?loop⟩
  case nop =>
    refine ⟨_, doesCtx_of_dispatch (by rfl) (dispatch_ctx hat fun c _ => c.fall), fell_fall _ (by simp) (by simp), ?_⟩
    simp [loaded_gens (stepsGen_of_opcode (op := .nop h) (by simp [opcodeOf]) (by simp [opcodeOf]))]
  case setv =>
    refine ⟨_, doesCtx_of_dispatch (by rfl) (dispatch_ctx hat fun c _ => (c.setV vd.toNat v).fall),
      fell_fall _ (by simp) (by simp), by simp, fun k hk => ?_, by simp, ?_⟩
    · simp [Ctx.setV_vr_other _ _ hk]
    · simp [loaded_gens (stepsGen_of_opcode (op := .setv h vd v) (by simp [opcodeOf]) (by simp [opcodeOf]))]
  case addv =>
    refine ⟨_, doesCtx_of_dispatch (by rfl) (dispatch_ctx hat fun c _ => (c.setV vd.toNat (c.vr vd.toNat + v)).fall),
      fell_fall _ (by simp) (by simp), by simp, fun k hk => ?_, by simp, ?_⟩
    · simp [Ctx.setV_vr_other _ _ hk]
    · simp [loaded_gens (stepsGen_of_opcode (op := .addv h vd v) (by simp [opcodeOf]) (by simp [opcodeOf]))]
  case greset =>
    have hgens := loaded_gens (d := s.now) (x := x) (c := c) (h := h)
      (stepsGen_of_opcode (op := .greset h g) (by simp [opcodeOf]) (by simp [opcodeOf]))
    refine ⟨_, doesCtx_of_dispatch (by rfl) (dispatch_ctx hat fun c _ => (Ctx.fall { c with
      gens := tabSet (0, 0) c.gens g.toNat (tabGet (0, 0) (s.now.thread x.n).genStart g.toNat) })),
      fell_fall _ (by simp) (by simp), by simp, by simp, fun k hk => ?_, by simp⟩
    simp [tabGet_set_other _ _ _ _ _ _ hk, hgens]
  case goto =>
    refine ⟨_, doesCtx_of_dispatch (by rfl) (dispatch_ctx hat fun c _ => c.jumpTo a.toNat), ?_⟩
    simp [loaded_gens (stepsGen_of_opcode (op := .goto h a) (by simp [opcodeOf]) (by simp [opcodeOf]))]
  case loop =>
    refine ⟨_, doesCtx_of_dispatch (by rfl) (dispatch_ctx hat fun c _ => (c.setV vc.toNat (c.vr vc.toNat - 1)).jumpTo
      (if c.vr vc.toNat - 1 ≠ 0 then (c.setV vc.toNat (c.vr vc.toNat - 1)).target ofs else (c.cpc + 1) % 2 ^ 22)),
      by simp, fun k hk => ?_, by simp, fun hone => ?_, fun hone => ?_⟩
    · simp [Ctx.setV_vr_other _ _ hk]
    · simp [hone]
    · have hne : c.vr vc.toNat - 1 ≠ 0 := fun h0 => hone (sub_eq_zero.mp h0)
      simp only [Ctx.jumpTo_cpc, loaded_vr, if_pos hne]
      simp [Ctx.target, toU]

end Sys2Proof.Machine
end

section
/-! The thread's own context, barriers and the end of a canvas (R95, R98, R105). -/

namespace Sys2Proof.Machine

section
variable {s : State} {d : Dev} {x : CtxRef} {op : COp} {c c' : Ctx} {h : Hdr}

/-! ### A thread's own context -/

@[simp] theorem setCtx_hub : (d.setCtx x c).hub = d.hub := rfl
@[simp] theorem setCtx_objs : (d.setCtx x c).objs = d.objs := rfl
@[simp] theorem setCtx_out : (d.setCtx x c).out = d.out := rfl
@[simp] theorem setCtx_rd (k : Nat) : (d.setCtx x c).rd k = d.rd k := rfl

theorem Thread.setCtx_none (t : Thread) {p : Option Nat} (hp : p = none) (c : Ctx) :
    t.setCtx p c = { t with main := c } := by rw [hp]; rfl

theorem Dev.setCtx_main (hp : x.path = none) :
    d.setCtx x c = d.setThread x.n { d.thread x.n with main := c } := by
  rw [Dev.setCtx, Thread.setCtx_none _ hp]

theorem thread_setCtx_main (hp : x.path = none) : (d.setCtx x c).thread x.n = { d.thread x.n with main := c } := by
  rw [Dev.setCtx_main hp, Dev.thread_setThread_self]

theorem thread_setCtx_other {m : Nat} (h : m ≠ x.n) : (d.setCtx x c).thread m = d.thread m :=
  Dev.thread_setThread_other _ _ _ _ h

theorem atOp_main (hat : AtOp d x op c) (hp : x.path = none) : (d.thread x.n).main = c := by
  obtain ⟨hctx, -⟩ := hat
  rw [hp] at hctx
  exact Option.some.inj hctx

/-- A thread that issues in its own context has no live path. -/
theorem atOp_paths (hat : AtOp d x op c) (hp : x.path = none) : (d.thread x.n).paths = [] := by
  obtain ⟨-, hissue, -⟩ := hat
  simp only [Dev.canIssue, Bool.and_eq_true, Bool.or_eq_true, hp] at hissue
  simpa using hissue.2

/-! ### Barriers -/

theorem releaseBarrier_of_all {n mask : Nat} (h : ((maskThreads n mask).all fun m => (d.thread m).arrived) = true) :
    d.releaseBarrier n mask = (maskThreads n mask).foldl (fun e m => e.setThread m { e.thread m with
      main := ((e.thread m).main.advance (((maskThreads n mask).map fun m => (d.thread m).main.cursor).foldl max 0)).fall }) d :=
  if_pos h

/-- A barrier that a thread has still to reach releases none. -/
theorem releaseBarrier_waits {n m mask : Nat} (hm : m ∈ maskThreads n mask) (hnot : (d.thread m).arrived = false) :
    d.releaseBarrier n mask = d :=
  if_neg fun h => by simp [List.all_eq_true.mp h m hm] at hnot

/-- A barrier of one thread that has reached it releases it. -/
theorem releaseBarrier_single {n mask : Nat} (hmask : maskThreads n mask = [n]) (harr : (d.thread n).arrived = true) :
    d.releaseBarrier n mask = d.setThread n { d.thread n with
      main := ((d.thread n).main.advance (d.thread n).main.cursor).fall } := by
  rw [releaseBarrier_of_all (by simp [hmask, harr]), hmask]
  simp

theorem opBarrierOp_own (hat : AtOp d x op c) (mask : BitVec 16) (hop : op = .barrier h mask) (hp : x.path = none) :
    opBarrierOp x h mask d =
      (d.setCtx x { d.loaded x c op h with wait := .barrier mask.toNat }).releaseBarrier x.n mask.toNat := by
  subst hop
  have harr : ((d.setCtx x { d.loaded x c (.barrier h mask) h with wait := .barrier mask.toNat }).thread x.n).arrived = true := by
    rw [thread_setCtx_main hp]
    simp [Thread.arrived, atOp_paths hat hp]
  unfold opBarrierOp
  rw [dispatch_ctx hat fun c _ => { c with wait := .barrier mask.toNat }]
  simp only [hp, harr, Option.isNone_none, Bool.and_true, if_true]

/-! ### Events -/

/-- What WAITEV adds to the tick of the firing. -/
def waitOffset (c : Ctx) (h : Hdr) : Nat := if h.vdt then (c.vr h.vix.toNat).toNat else h.dt.toNat

theorem opWaitevOp_waits {e : BitVec 4} (hat : AtOp d x (.waitev h e) c)
    (hfire : (d.lineSt (canvasLine x.n e.toNat)).lastFire ≠ some d.epoch) :
    opWaitevOp x h e d = d.setCtx x { d.loaded x c (.waitev h e) h with
      wait := .event (canvasLine x.n e.toNat) d.epoch (waitOffset c h) } := by
  unfold opWaitevOp
  rw [dispatch_body hat (by simp)]
  simp only [if_neg hfire, loaded_vr, waitOffset]

theorem opWaitevOp_fired {e : BitVec 4} (hat : AtOp d x (.waitev h e) c)
    (hfire : (d.lineSt (canvasLine x.n e.toNat)).lastFire = some d.epoch) :
    opWaitevOp x h e d =
      d.setCtx x ((d.loaded x c (.waitev h e) h).advance (d.epoch + waitOffset c h)).fall := by
  unfold opWaitevOp
  rw [dispatch_body hat (by simp)]
  simp only [if_pos hfire, loaded_vr, waitOffset]

theorem opBranchWaitOp_eq {dh : BitVec 4} {t0 t1 t2 t3 : BitVec 16} (hat : AtOp d x (.branch h dh false t0 t1 t2 t3) c) :
    opBranchWaitOp x h dh t0 t1 t2 t3 d = d.setCtx x { d.loaded x c (.branch h dh false t0 t1 t2 t3) h with
      wait := .branch dh.toNat (waitOffset c h) ([t0, t1, t2, t3].map c.target) none } := by
  unfold opBranchWaitOp
  rw [dispatch_body hat (by simp)]
  simp only [loaded_vr, List.map_cons, loaded_target, List.map_nil, waitOffset]

/-! ### The end of a canvas -/

theorem thread_pathMarks (n m : Nat) (f : Nat → Option (Option Nat)) : (d.pathMarks n f).thread m = d.thread m := rfl

theorem thread_squashAll (n : Nat) : (d.squashAll n).thread n = { d.thread n with
    paths := [], pages := (d.thread n).pages ++ deadPages (d.thread n).paths, branches := []
    launch := (d.thread n).launch.filter fun e => e.path.isNone } := by
  unfold Dev.squashAll
  rw [thread_pathMarks, Dev.thread_setThread_self]

theorem thread_endCanvas (n : Nat) : (d.endCanvas n).thread n = { (d.squashAll n).thread n with
    ended := true
    main := { ((d.squashAll n).thread n).main with
      queue := [], running := false, wait := .ready, waitc := none, svc := none, chk := none } } := by
  unfold Dev.endCanvas
  rw [Dev.thread_setThread_self]

theorem endCanvas_hub (n : Nat) : (d.endCanvas n).hub = d.hub := rfl

theorem opEndOp_own (hat : AtOp d x (.endc h) c) (hp : x.path = none) :
    opEndOp x h d = (d.setCtx x { d.loaded x c (.endc h) h with wait := .done }).endCanvas x.n := by
  unfold opEndOp
  rw [dispatch_ctx hat fun c _ => { c with wait := .done }]
  simp [hp, thread_setCtx_main hp]

/-! ### Customer opcodes and the prefetcher -/

theorem customerOp_of_entry {k : BitVec 6} {f : BitVec 96} (hentry : d.rd (0x444101 + k.toNat) ≠ 0) :
    customerOp x h k f d = d.dispatch x (.customer h k f) h false fun e c _ =>
      (e, { c with entry := true, running := true }.fall) := if_neg hentry

/-- The customer routine begins at the entry that CUST_ENTRY names, with the operation's word and tick. -/
theorem loaded_customer {k : BitVec 6} {f : BitVec 96} :
    (d.loaded x c (.customer h k f) h).mic.mpc = d.rd (0x444101 + k.toNat) ∧
    (d.loaded x c (.customer h k f) h).pair 0 = encodeOp (.customer h k f) := by
  have hgen : stepsGen (.customer h k f) = false := stepsGen_of_opcode (by simp [opcodeOf]; omega) (by simp [opcodeOf]; omega)
  rw [loaded_eq_load hgen]
  refine ⟨?_, Ctx.load_pair ..⟩
  simp [Ctx.load, Dev.opEntry, opcodeOf]

/-- The context in which the routine of a customer opcode begins. -/
def begins (c : Ctx) : Ctx := { c with entry := true, running := true }.fall

theorem customerOp_eq {k : BitVec 6} {f : BitVec 96} (hentry : d.rd (0x444101 + k.toNat) ≠ 0)
    (hat : AtOp d x (.customer h k f) c) :
    customerOp x h k f d = d.setCtx x (begins (d.loaded x c (.customer h k f) h)) :=
  (customerOp_of_entry hentry).trans (dispatch_ctx hat fun c _ => begins c)

theorem begins_fell (hcpc : c'.cpc = c.cpc) (hqueue : c'.queue = c.queue) : Fell c (begins c') :=
  fell_fall _ hcpc hqueue

theorem begins_leaves (c : Ctx) : (begins c).running = true ∧ (begins c).mic = c.mic ∧ (begins c).v = c.v ∧
    (begins c).cursor = c.cursor := ⟨rfl, rfl, rfl, rfl⟩

theorem begins_sr (c : Ctx) (i : Nat) : (begins c).sr i = c.sr i := rfl

theorem begins_pair (c : Ctx) (i : Nat) : (begins c).pair i = c.pair i := rfl

theorem prefetchOp_wanted {a : BitVec 22} (hctx : (d.thread x.n).ctx x.path = some c)
    (hactive : (d.thread x.n).active = true) (hended : (d.thread x.n).ended = false)
    (hshot : d.shotTick x.n ≤ d.epoch + 96)
    (hplace : (d.thread x.n).hasPlace c a.toNat (tabGet 0 d.eas.desc a.toNat) = true)
    (hwanted : c.wanted.contains a.toNat = true) (hnone : c.opAt a.toNat = none)
    (hregion : d.inRegion x.n 0 a.toNat = true) :
    prefetchOp x a d = d.setCtx x { c with
      queue := c.queue ++ [(a.toNat, tabGet 0 d.eas.desc a.toNat)]
      wait := if c.wait = .queue ∧ a.toNat = c.cpc then .ready else c.wait } := by
  unfold prefetchOp
  simp only [hctx, hactive, hended, hshot, hplace, hwanted, hnone, hregion]
  rfl

end

@[simp] theorem Ctx.advance_v (c : Ctx) (t : Nat) : (c.advance t).v = c.v := rfl
@[simp] theorem Ctx.advance_cpc (c : Ctx) (t : Nat) : (c.advance t).cpc = c.cpc := rfl
@[simp] theorem Ctx.advance_queue (c : Ctx) (t : Nat) : (c.advance t).queue = c.queue := rfl
@[simp] theorem Ctx.advance_cursor (c : Ctx) (t : Nat) : (c.advance t).cursor = max c.cursor t := rfl

/-- Settles O22: the routine of each operation, and what the barrier, the end of the canvas and the prefetcher add. -/
theorem timeAndHoldOperations : Obligations.TimeAndHoldOperations := by
  unfold Obligations.TimeAndHoldOperations
  intro s x c h
  refine ⟨fun hat => ?wait, fun t48 hat => ?waituntil, fun mask m hat hp hm hne hnot => ?barrier,
    fun mask hat hp hmask hpaths => ?alone, fun e hat hfire => ?waitev, fun e hat hfire => ?fired,
    fun dh t0 t1 t2 t3 hat => ?branch, fun hat hp => ?endc, fun k f hentry hat => ?customer,
    fun a hctx hactive hended hshot hplace hwanted hnone hregion => ?prefetch⟩
  case wait =>
    exact ⟨_, doesCtx_of_dispatch (by rfl) (dispatch_ctx hat fun c lt => (c.advance lt).fall),
      fell_fall _ (by simp) (by simp), by simp, by simp⟩
  case waituntil =>
    exact ⟨_, doesCtx_of_dispatch (by rfl)
      (dispatch_ctx hat fun c _ => (c.advance (s.now.shotTick x.n + t48.toNat)).fall),
      fell_fall _ (by simp) (by simp), by simp, by simp⟩
  case barrier =>
    refine ⟨_, doesCtx_of_dispatch (f := opBarrierOp x h mask) (by rfl) ((opBarrierOp_own hat mask rfl hp).trans
      (releaseBarrier_waits hm ?_)), rfl, by simp, by simp⟩
    rw [thread_setCtx_other hne, hnot]
  case alone =>
    have harr : ((s.now.setCtx x { s.now.loaded x c (.barrier h mask) h with wait := .barrier mask.toNat }).thread x.n).arrived =
        true := by
      rw [thread_setCtx_main hp]
      simp [Thread.arrived, hpaths]
    have hop := (opBarrierOp_own hat mask rfl hp).trans (releaseBarrier_single hmask harr)
    refine ⟨s.onNow (opBarrierOp x h mask), by rfl, ?_⟩
    simp only [State.onNow, hop, Dev.thread_setThread_self, thread_setCtx_main hp]
    refine ⟨by simp [Ctx.fall], by simp, rfl, fun m hm => ?_⟩
    rw [Dev.thread_setThread_other _ _ _ _ hm, thread_setCtx_other hm]
  case waitev =>
    exact ⟨_, _, doesCtx_of_dispatch (by rfl) (opWaitevOp_waits hat hfire), rfl, rfl, by simp, by simp⟩
  case fired =>
    exact ⟨_, doesCtx_of_dispatch (by rfl) (opWaitevOp_fired hat hfire), fell_fall _ (by simp) (by simp),
      by simp [waitOffset]⟩
  case branch =>
    exact ⟨_, _, doesCtx_of_dispatch (by rfl) (opBranchWaitOp_eq hat), rfl, by simp, by simp⟩
  case endc =>
    refine ⟨s.onNow (opEndOp x h), by rfl, ?_⟩
    simp only [State.onNow, opEndOp_own hat hp, thread_endCanvas, thread_squashAll, thread_setCtx_main hp]
    exact ⟨trivial, trivial, trivial, trivial, by rw [endCanvas_hub, setCtx_hub], by simp⟩
  case customer =>
    obtain ⟨hmpc, hpair⟩ := loaded_customer (d := s.now) (x := x) (c := c) (h := h) (k := k) (f := f)
    obtain ⟨hrun, hmic, hv, hcursor⟩ := begins_leaves (s.now.loaded x c (.customer h k f) h)
    refine ⟨_, doesCtx_of_dispatch (f := customerOp x h k f) (by rfl) (customerOp_eq hentry hat),
      begins_fell loaded_cpc loaded_queue, hrun, ?_, ?_, ?_, by rw [hv, loaded_v], by rw [hcursor, loaded_cursor]⟩
    · rw [hmic, hmpc]
    · rw [begins_pair, hpair]
    · rw [begins_sr, loaded_sr2]
  case prefetch =>
    exact ⟨_, doesCtx_of_dispatch (by rfl) (prefetchOp_wanted hctx hactive hended hshot hplace hwanted hnone hregion),
      rfl, rfl, rfl, rfl⟩

end Sys2Proof.Machine
end

section
/-! BRANCH with SK = 1 (R106, R309, R310). -/

namespace Sys2Proof.Machine

section
variable {s : State} {d : Dev} {x : CtxRef} {c c' : Ctx} {h : Hdr} {dh : BitVec 4} {t0 t1 t2 t3 : BitVec 16}

theorem find?_map_setCtx (l : List SPath) (i : Nat) (c : Ctx) :
    (l.map fun q => if q.id == i then { q with ctx := c } else q).find? (·.id == i) =
      (l.find? (·.id == i)).map fun q => { q with ctx := c } := by
  induction l with
  | nil => rfl
  | cons q l ih =>
    rw [List.map_cons, List.find?_cons, List.find?_cons, ih]
    by_cases hq : (q.id == i) = true
    · simp only [hq, if_true, Option.map_some]
    · simp only [hq, Bool.false_eq_true, if_false]

/-- A context that is there reads what was written to it. -/
theorem Thread.ctx_setCtx {t : Thread} {p : Option Nat} (hctx : t.ctx p = some c) : (t.setCtx p c').ctx p = some c' := by
  cases p with
  | none => rfl
  | some i =>
    obtain ⟨q, hq, -⟩ := Option.map_eq_some_iff.mp hctx
    simp only [Thread.ctx, Thread.setCtx, find?_map_setCtx, hq, Option.map_some]

theorem Thread.setCtx_paths_length (t : Thread) (p : Option Nat) (c : Ctx) :
    (t.setCtx p c).paths.length = t.paths.length := by
  cases p with
  | none => rfl
  | some i => simp [Thread.setCtx]

theorem Thread.setCtx_branches (t : Thread) (p : Option Nat) (c : Ctx) : (t.setCtx p c).branches = t.branches := by
  cases p <;> rfl

theorem thread_setCtx : (d.setCtx x c).thread x.n = (d.thread x.n).setCtx x.path c := Dev.thread_setThread_self ..

theorem ctxFlag_path {i key bit : Nat} (hp : x.path = some i) :
    d.ctxFlag x c key bit = (d, { c with flags := c.flags ++ [(key, bit, 1)] }) := if_pos (by rw [hp]; rfl)

/-! ### The three outcomes -/

/-- The tick of a sketch branch. -/
def branchTick (d : Dev) (x : CtxRef) (c : Ctx) (h : Hdr) : Nat := max (d.launchTick x.n c h) c.cursor

theorem full_loaded {op : COp} : (d.thread x.n).full (d.loaded x c op h) dh.toNat = (d.thread x.n).full c dh.toNat := by
  simp [Thread.full]

/-- A branch that holds its decision goes on at its target, and consumes the decision. -/
theorem opBranchSketchOp_full {r : DReg} (hat : AtOp d x (.branch h dh true t0 t1 t2 t3) c) (hp : x.path = none)
    (hfull : (d.thread x.n).full c dh.toNat = some r) :
    opBranchSketchOp x h dh t0 t1 t2 t3 d =
      ((d.setThread x.n { d.thread x.n with handles := tabSet none (d.thread x.n).handles dh.toNat none }).wr
          (unitKey 0x400046 x.n) (toU 32 ((branchTick d x c h : Int) - d.epoch))).setCtx x
        (((d.loaded x c (.branch h dh true t0 t1 t2 t3) h).advance (branchTick d x c h)).jumpTo
          ((([t0, t1, t2, t3]).map c.target).getD r.outcome 0)) := by
  unfold opBranchSketchOp
  rw [dispatch_body hat (by simp)]
  simp only [full_loaded, hfull, Dev.consume, Dev.commitMargin, hp, Option.isSome_none, Bool.false_eq_true, if_false,
    loaded_cursor, List.map_cons, List.map_nil, loaded_target, branchTick]
  rfl

/-- A branch without its decision opens its paths where there is room for them. -/
theorem opBranchSketchOp_opens (hat : AtOp d x (.branch h dh true t0 t1 t2 t3) c)
    (hfull : (d.thread x.n).full c dh.toNat = none)
    (hroom : ¬(2 ≤ (d.thread x.n).branches.length ∨
      4 < (d.thread x.n).paths.length + ((([t0, t1, t2, t3]).map c.target).dedup).length)) :
    opBranchSketchOp x h dh t0 t1 t2 t3 d =
      (d.openPaths x (d.loaded x c (.branch h dh true t0 t1 t2 t3) h) dh.toNat (branchTick d x c h)
          (([t0, t1, t2, t3]).map c.target)).setCtx x
        { d.loaded x c (.branch h dh true t0 t1 t2 t3) h with queue := [] } := by
  have htargets : ([t0, t1, t2, t3]).map (d.loaded x c (.branch h dh true t0 t1 t2 t3) h).target =
      ([t0, t1, t2, t3]).map c.target := by simp
  unfold opBranchSketchOp
  rw [dispatch_body hat (by simp)]
  simp only [full_loaded, hfull, htargets, if_neg hroom, loaded_cursor, branchTick]

/-- A context of a path that waits for room at a branch. -/
def waitsForRoom (x : CtxRef) (l : Ctx) (k lt : Nat) (targets : List Nat) : Ctx :=
  { l with
    flags := l.flags ++ [(unitKey 0x400041 x.n, 0, 1)]
    wait := .branch k 0 targets (some (max lt l.cursor)) }

theorem ctxFlag_waits {i : Nat} (hp : x.path = some i) (l : Ctx) (k lt : Nat) (targets : List Nat) :
    (d.ctxFlag x l (unitKey 0x400041 x.n) 0).1.setCtx x { (d.ctxFlag x l (unitKey 0x400041 x.n) 0).2 with
      wait := .branch k 0 targets (some (max lt l.cursor)) } = d.setCtx x (waitsForRoom x l k lt targets) := by
  rw [ctxFlag_path hp, waitsForRoom]

/-- In a path, a branch without its decision and without room waits, and its flag is held with the path. -/
theorem opBranchSketchOp_waits {i : Nat} (hat : AtOp d x (.branch h dh true t0 t1 t2 t3) c) (hp : x.path = some i)
    (hfull : (d.thread x.n).full c dh.toNat = none)
    (hroom : 2 ≤ (d.thread x.n).branches.length ∨
      4 < (d.thread x.n).paths.length + ((([t0, t1, t2, t3]).map c.target).dedup).length) :
    opBranchSketchOp x h dh t0 t1 t2 t3 d = 
      d.setCtx x (waitsForRoom x (d.loaded x c (.branch h dh true t0 t1 t2 t3) h) dh.toNat (d.launchTick x.n c h)
        (([t0, t1, t2, t3]).map c.target)) := by
  have htargets : ([t0, t1, t2, t3]).map (d.loaded x c (.branch h dh true t0 t1 t2 t3) h).target =
      ([t0, t1, t2, t3]).map c.target := by simp
  unfold opBranchSketchOp
  rw [dispatch_body hat (by simp)]
  simp only [full_loaded, hfull, htargets, if_pos hroom]
  exact ctxFlag_waits hp _ _ _ _

/-! ### Paths that open -/

theorem openPaths_thread (d : Dev) (x : CtxRef) (c : Ctx) (h tb : Nat) (targets : List Nat) :
    ∃ ps b, (d.openPaths x c h tb targets).thread x.n = { d.thread x.n with
        paths := (d.thread x.n).paths ++ ps, branches := (d.thread x.n).branches ++ [b]
        nextId := (d.thread x.n).nextId + 1 + targets.dedup.length } ∧
      ps.length = targets.dedup.length ∧ b.h = h ∧ b.tb = tb ∧ b.targets = targets := by
  unfold Dev.openPaths
  rw [Dev.thread_setThread_self]
  exact ⟨_, _, rfl, by simp, rfl, rfl, rfl⟩

theorem openPaths_thread_other {m tb k : Nat} {targets : List Nat} (hm : m ≠ x.n) :
    (d.openPaths x c k tb targets).thread m = d.thread m := Dev.thread_setThread_other _ _ _ _ hm

theorem openPaths_hub (tb k : Nat) (targets : List Nat) : (d.openPaths x c k tb targets).hub = d.hub := rfl

/-- Settles O23: a held decision, room for paths, and no room in a path. -/
theorem sketchBranch : Obligations.SketchBranch := by
  unfold Obligations.SketchBranch
  intro s x c h dh t0 t1 t2 t3 hat
  refine ⟨fun r hp hfull => ?held, fun hfull hbranches hpaths => ?opens, fun i hp hfull hroom => ?waits⟩
  all_goals have hctx := hat.1
  case held =>
    refine ⟨s.onNow (opBranchSketchOp x h dh t0 t1 t2 t3), by rfl, ?_⟩
    have hthread : ∀ (t : Thread) (k v : Nat), ((s.now.setThread x.n t).wr k v).thread x.n = t := fun t k v =>
      Dev.thread_setThread_self ..
    simp only [State.onNow, opBranchSketchOp_full hat hp hfull, thread_setCtx_main hp, hthread]
    refine ⟨by simp, ?_, by simp, trivial⟩
    simp only [Ctx.jumpTo_cursor, Ctx.advance_cursor, loaded_cursor, branchTick]
    omega
  case opens =>
    obtain ⟨ps, b, hthread, hps, hbh, hbtb, hbt⟩ := openPaths_thread s.now x
      (s.now.loaded x c (.branch h dh true t0 t1 t2 t3) h) dh.toNat (branchTick s.now x c h) (([t0, t1, t2, t3]).map c.target)
    refine ⟨s.onNow (opBranchSketchOp x h dh t0 t1 t2 t3), b, by rfl, ?_⟩
    simp only [State.onNow, opBranchSketchOp_opens hat hfull (by omega), thread_setCtx, hthread]
    refine ⟨by rw [Thread.setCtx_branches], hbh, hbtb, hbt, ?_, ?_, ?_, fun m hm => ?_, ?_, ?_⟩
    · rw [Thread.setCtx_paths_length, hbt]
      simp [hps]
    · cases hp : x.path with
      | none => simp [Thread.setCtx, atOp_main hat hp]
      | some i => rfl
    · cases hp : x.path with
      | none => simp [Thread.setCtx, atOp_main hat hp]
      | some i => rfl
    · rw [thread_setCtx_other hm, openPaths_thread_other hm]
    · rw [setCtx_hub, openPaths_hub]
    · rw [Dev.setCtx_ddr, Dev.openPaths_ddr]
  case waits =>
    refine ⟨s.onNow (opBranchSketchOp x h dh t0 t1 t2 t3), waitsForRoom x (s.now.loaded x c (.branch h dh true t0 t1 t2 t3) h)
      dh.toNat (s.now.launchTick x.n c h) (([t0, t1, t2, t3]).map c.target), by rfl, ?_⟩
    simp only [State.onNow, opBranchSketchOp_waits hat hp hfull hroom, thread_setCtx]
    refine ⟨Thread.ctx_setCtx hctx, by simp [waitsForRoom], by simp [waitsForRoom], by simp [waitsForRoom],
      by simp [waitsForRoom], Thread.setCtx_branches .., ?_, Thread.setCtx_paths_length ..,
      fun m hm => thread_setCtx_other hm, by simp⟩
    rw [hp]
    rfl

end

end Sys2Proof.Machine
end

section
/-! Operations that launch (R102, R103, R116 to R119, R177): what enters the launch queue. -/

namespace Sys2Proof.Machine

/-! ### The fields that a PLAY and a READ share -/

/-- The word of a PLAY or a READ by its low 36 bits, its generator fields and its high half. -/
def genWord (lo : Nat) (gen : Bool) (gsel daddr hi : Nat) : W128 :=
  BitVec.ofNat 128 (lo + bitAt gen 36 + 2 ^ 37 * gsel + 2 ^ 42 * daddr + 2 ^ 64 * hi)

theorem hdrBits_lt {opc : Nat} (h : Hdr) (hopc : opc < 256) : hdrBits opc h < 2 ^ 32 := by
  have htm := h.tm.isLt; have hvix := h.vix.isLt; have hdt := h.dt.isLt
  unfold hdrBits
  split <;> split <;> omega

section
variable {lo gsel daddr hi : Nat} {gen : Bool}

theorem genWord_toNat (hlo : lo < 2 ^ 36) (hgsel : gsel < 2 ^ 5) (hdaddr : daddr < 2 ^ 22) (hhi : hi < 2 ^ 64) :
    (genWord lo gen gsel daddr hi).toNat = lo + bitAt gen 36 + 2 ^ 37 * gsel + 2 ^ 42 * daddr + 2 ^ 64 * hi := by
  rw [genWord, BitVec.toNat_ofNat, Nat.mod_eq_of_lt]
  cases gen <;> simp only [bitAt, Bool.false_eq_true, if_false, if_true] <;> omega

theorem genWord_fields (hlo : lo < 2 ^ 36) (hgsel : gsel < 2 ^ 5) (hdaddr : daddr < 2 ^ 22) (hhi : hi < 2 ^ 64) :
    fld (genWord lo gen gsel daddr hi) 36 36 = gen.toNat ∧ fld (genWord lo gen gsel daddr hi) 41 37 = gsel ∧
      fld (genWord lo gen gsel daddr hi) 63 42 = daddr := by
  simp only [fld, bits, genWord_toNat hlo hgsel hdaddr hhi]
  cases gen <;> simp only [bitAt, Bool.false_eq_true, if_false, if_true, Bool.toNat_false, Bool.toNat_true] <;> omega

/-- The word loaded in place of one with GEN = 1 is that with GEN = 0 and the generated address. -/
theorem genWord_replace {a : Nat} (hlo : lo < 2 ^ 36) (hgsel : gsel < 2 ^ 5) (hdaddr : daddr < 2 ^ 22) (hhi : hi < 2 ^ 64) :
    BitVec.ofNat 128 ((genWord lo true gsel daddr hi).toNat - 2 ^ 36 -
      2 ^ 42 * fld (genWord lo true gsel daddr hi) 63 42 + 2 ^ 42 * a) = genWord lo false gsel a hi := by
  rw [(genWord_fields hlo hgsel hdaddr hhi).2.2, genWord_toNat hlo hgsel hdaddr hhi]
  unfold genWord
  congr 1
  simp only [bitAt, Bool.false_eq_true, if_false, if_true]
  omega

end

section
variable (h : Hdr) (tgt : BitVec 4) (gen : Bool) (gsel : BitVec 5) (daddr : BitVec 22) (amp pofs wlen : BitVec 16)
  (frame : BitVec 2) (fine : BitVec 5) (ksel : BitVec 4) (dtag : BitVec 8)

/-- The high half of a PLAY's word. -/
def playHigh : Nat := amp.toNat + 2 ^ 16 * pofs.toNat + 2 ^ 32 * frame.toNat + 2 ^ 34 * fine.toNat

/-- The high half of a READ's word. -/
def readHigh : Nat := amp.toNat + 2 ^ 16 * wlen.toNat + 2 ^ 32 * frame.toNat + 2 ^ 34 * ksel.toNat + 2 ^ 38 * dtag.toNat

theorem encodeOp_play : encodeOp (.play h tgt gen gsel daddr amp pofs frame fine) =
    genWord (hdrBits 1 h + 2 ^ 32 * tgt.toNat) gen gsel.toNat daddr.toNat (playHigh amp pofs frame fine) := by
  unfold encodeOp playBits genWord playHigh
  refine congrArg (BitVec.ofNat 128) ?_
  ring

theorem encodeOp_read : encodeOp (.read h gen gsel daddr amp wlen frame ksel dtag) =
    genWord (hdrBits 2 h) gen gsel.toNat daddr.toNat (readHigh amp wlen frame ksel dtag) := by
  unfold encodeOp readBits genWord readHigh
  refine congrArg (BitVec.ofNat 128) ?_
  ring

theorem playLow_lt : hdrBits 1 h + 2 ^ 32 * tgt.toNat < 2 ^ 36 := by
  have := hdrBits_lt h (show 1 < 256 by decide); have := tgt.isLt; omega

theorem readLow_lt : hdrBits 2 h < 2 ^ 36 := by
  have := hdrBits_lt h (show 2 < 256 by decide); omega

theorem playHigh_lt : playHigh amp pofs frame fine < 2 ^ 64 := by
  unfold playHigh; have := amp.isLt; have := pofs.isLt; have := frame.isLt; have := fine.isLt; omega

theorem readHigh_lt : readHigh amp wlen frame ksel dtag < 2 ^ 64 := by
  unfold readHigh; have := amp.isLt; have := wlen.isLt; have := frame.isLt; have := ksel.isLt; have := dtag.isLt; omega

theorem fields_play : fld (encodeOp (.play h tgt gen gsel daddr amp pofs frame fine)) 36 36 = gen.toNat ∧
    fld (encodeOp (.play h tgt gen gsel daddr amp pofs frame fine)) 41 37 = gsel.toNat := by
  obtain ⟨hgen, hgsel, -⟩ := genWord_fields (gen := gen) (playLow_lt h tgt) gsel.isLt daddr.isLt (playHigh_lt amp pofs frame fine)
  rw [encodeOp_play]
  exact ⟨hgen, hgsel⟩

theorem fields_read : fld (encodeOp (.read h gen gsel daddr amp wlen frame ksel dtag)) 36 36 = gen.toNat ∧
    fld (encodeOp (.read h gen gsel daddr amp wlen frame ksel dtag)) 41 37 = gsel.toNat := by
  obtain ⟨hgen, hgsel, -⟩ := genWord_fields (gen := gen) (readLow_lt h) gsel.isLt daddr.isLt (readHigh_lt amp wlen frame ksel dtag)
  rw [encodeOp_read]
  exact ⟨hgen, hgsel⟩

theorem stepsGen_play : stepsGen (.play h tgt gen gsel daddr amp pofs frame fine) = gen := by
  rw [stepsGen, fld_encodeOp, (fields_play ..).1]
  cases gen <;> rfl

theorem stepsGen_read : stepsGen (.read h gen gsel daddr amp wlen frame ksel dtag) = gen := by
  rw [stepsGen, fld_encodeOp, (fields_read ..).1]
  cases gen <;> rfl

end

/-! ### A launch from a thread's own context -/

/-- The entry that a thread's own context issues now (R116, R118). -/
def ownEntry (d : Dev) (n : Nat) (k : LKind) (w : W128) (req : Nat) : LEntry :=
  { kind := k, w := w, req := req, tick := if req < d.epoch + k.lead then d.epoch + k.lead else req
    late := decide (req < d.epoch + k.lead), path := none, ord := (d.thread n).nextOrd }

/-- The device with that entry in the launch queue. -/
def enters (d : Dev) (n : Nat) (k : LKind) (w : W128) (req : Nat) : Dev :=
  d.setThread n { d.thread n with
    launch := (d.thread n).launch ++ [ownEntry d n k w req], nextOrd := (d.thread n).nextOrd + 1 }

/-- The context with the launch among those it has issued. -/
def withIssued (c : Ctx) (k : LKind) (req : Nat) (w : W128) : Ctx := { c with issued := c.issued ++ [(k, req, w)] }

section
variable {s : State} {d : Dev} {x : CtxRef} {op : COp} {c l c' : Ctx} {h : Hdr} {k : LKind} {w : W128} {req : Nat}

@[simp] theorem withIssued_cpc : (withIssued l k req w).cpc = l.cpc := rfl
@[simp] theorem withIssued_queue : (withIssued l k req w).queue = l.queue := rfl
@[simp] theorem withIssued_v : (withIssued l k req w).v = l.v := rfl
@[simp] theorem withIssued_cursor : (withIssued l k req w).cursor = l.cursor := rfl
@[simp] theorem withIssued_gens : (withIssued l k req w).gens = l.gens := rfl

theorem issue_own (hp : x.path = none) (hmain : (d.thread x.n).main.issued.contains (k, req, w) = false)
    (hfresh : l.issued.contains (k, req, w) = false) :
    d.issue x l k w req = (enters d x.n k w req, withIssued l k req w) := by
  have hpage : ∀ tick tb, pageFor k none tick tb = none := fun tick tb => by unfold pageFor; split <;> rfl
  have hhist : (d.thread x.n).history 3 none = (d.thread x.n).main.issued := rfl
  unfold Dev.issue
  simp only [hp, hhist, hmain, hfresh, hpage, Option.isSome_none, Bool.false_and, Bool.false_eq_true, or_self, if_false,
    and_false, Dev.takePage, decide_eq_true_eq]
  rfl

theorem issue_loaded (hat : AtOp d x op c) (hp : x.path = none) (hfresh : c.issued.contains (k, req, w) = false) :
    d.issue x (d.loaded x c op h) k w req = (enters d x.n k w req, withIssued (d.loaded x c op h) k req w) :=
  issue_own hp (by rwa [atOp_main hat hp]) (by rwa [loaded_issued])

theorem loaded_pair (hgen : stepsGen op = false) : (d.loaded x c op h).pair 0 = encodeOp op := by
  rw [loaded_eq_load hgen]
  exact Ctx.load_pair ..

theorem withIssued_fell (hcpc : l.cpc = c.cpc) (hqueue : l.queue = c.queue) : Fell c (withIssued l k req w).fall :=
  fell_fall _ hcpc hqueue

/-- An operation that issues one entry and falls through. -/
theorem launchOp_own (hat : AtOp d x op c) (hp : x.path = none) (hgen : stepsGen op = false)
    (hhold : d.launchHold x.n (d.launchTick x.n c h) = none)
    (hfresh : c.issued.contains (k, d.launchTick x.n c h, entryBody k (encodeOp op)) = false) :
    d.launchOp x op h k = (enters d x.n k (entryBody k (encodeOp op)) (d.launchTick x.n c h)).setCtx x
      (withIssued (d.loaded x c op h) k (d.launchTick x.n c h) (entryBody k (encodeOp op))).fall := by
  unfold Dev.launchOp
  rw [dispatch_body hat fun _ => hhold]
  simp only [loaded_pair hgen, issue_loaded hat hp hfresh]

/-- FSHIFTV issues the entry of an FSHIFT whose PINC is read now. -/
theorem opFshiftvOp_own {fr : BitVec 2} {fk : Bool} {vs : BitVec 4} (hat : AtOp d x (.fshiftv h fr fk vs) c) (hp : x.path = none)
    (hhold : d.launchHold x.n (d.launchTick x.n c h) = none)
    (hw : w = entryBody .frame (encodeOp (.fshift h fr fk (BitVec.ofNat 48 ((c.vr vs.toNat).toNat * 2 ^ 16)))))
    (hfresh : c.issued.contains (.frame, d.launchTick x.n c h, w) = false) :
    opFshiftvOp x h fr fk vs d = (enters d x.n .frame w (d.launchTick x.n c h)).setCtx x
      (withIssued (d.loaded x c (.fshiftv h fr fk vs) h) .frame (d.launchTick x.n c h) w).fall := by
  subst hw
  unfold opFshiftvOp
  rw [dispatch_body hat fun _ => hhold]
  simp only [loaded_vr, issue_loaded hat hp hfresh]

/-- The context after a PLAY or READ in the context `l`: with ADV, CURSOR moves on. -/
def playsOn (h : Hdr) (l : Ctx) (lt len : Nat) : Ctx :=
  (if h.adv then ((l.testAdv.setS 4 (BitVec.ofNat 64 len)).setS 3 (BitVec.ofNat 64 (lt + len))).advance (lt + len)
    else l.testAdv).fall

def readsOn (h : Hdr) (l : Ctx) (stop : Nat) : Ctx := (if h.adv then l.advance stop else l).fall

/-- A context with the same place and queue falls through alike. -/
theorem Fell.congr (hfell : Fell l c') (hcpc : l.cpc = c.cpc) (hqueue : l.queue = c.queue) : Fell c c' := by
  unfold Fell at hfell ⊢
  rwa [hcpc, hqueue] at hfell

theorem playsOn_leaves (h : Hdr) (l : Ctx) (lt len : Nat) : Fell l (playsOn h l lt len) ∧ (playsOn h l lt len).v = l.v ∧
    (playsOn h l lt len).gens = l.gens ∧ l.cursor ≤ (playsOn h l lt len).cursor := by
  unfold playsOn
  split
  · exact ⟨fell_fall _ rfl rfl, rfl, rfl, Nat.le_max_left ..⟩
  · exact ⟨fell_fall _ rfl rfl, rfl, rfl, Nat.le_refl _⟩

theorem readsOn_leaves (h : Hdr) (l : Ctx) (stop : Nat) : Fell l (readsOn h l stop) ∧ (readsOn h l stop).v = l.v ∧
    (readsOn h l stop).gens = l.gens ∧ l.cursor ≤ (readsOn h l stop).cursor := by
  unfold readsOn
  split
  · exact ⟨fell_fall _ rfl rfl, rfl, rfl, Nat.le_max_left ..⟩
  · exact ⟨fell_fall _ rfl rfl, rfl, rfl, Nat.le_refl _⟩

section
variable {tgt : BitVec 4} {gen : Bool} {gsel : BitVec 5} {daddr : BitVec 22} {amp pofs wlen : BitVec 16}
  {frame : BitVec 2} {fine : BitVec 5} {ksel : BitVec 4} {dtag : BitVec 8}

theorem opPlayOp_own (hat : AtOp d x (.play h tgt gen gsel daddr amp pofs frame fine) c) (hp : x.path = none)
    (hhold : d.launchHold x.n (d.launchTick x.n c h) = none)
    (hw : entryBody .stroke ((d.loaded x c (.play h tgt gen gsel daddr amp pofs frame fine) h).pair 0) = w)
    (hfresh : c.issued.contains (.stroke, d.launchTick x.n c h, w) = false) :
    ∃ len, opPlayOp x h tgt gen gsel daddr amp pofs frame fine d =
      (enters d x.n .stroke w (d.launchTick x.n c h)).setCtx x (playsOn h
        (withIssued (d.loaded x c (.play h tgt gen gsel daddr amp pofs frame fine) h) .stroke (d.launchTick x.n c h) w)
        (d.launchTick x.n c h) len) := by
  unfold opPlayOp
  rw [dispatch_body hat fun _ => hhold]
  simp only [hw, issue_loaded hat hp hfresh]
  exact ⟨_, rfl⟩

theorem opReadOp_own (hat : AtOp d x (.read h gen gsel daddr amp wlen frame ksel dtag) c) (hp : x.path = none)
    (hhold : d.launchHold x.n (d.launchTick x.n c h) = none)
    (hw : entryBody .read ((d.loaded x c (.read h gen gsel daddr amp wlen frame ksel dtag) h).pair 0) = w)
    (hfresh : c.issued.contains (.read, d.launchTick x.n c h, w) = false) :
    ∃ stop, opReadOp x h gen gsel daddr amp wlen frame ksel dtag d =
      (enters d x.n .read w (d.launchTick x.n c h)).setCtx x (readsOn h
        (withIssued (d.loaded x c (.read h gen gsel daddr amp wlen frame ksel dtag) h) .read (d.launchTick x.n c h) w) stop) := by
  unfold opReadOp
  rw [dispatch_body hat fun _ => hhold]
  simp only [hw, issue_loaded hat hp hfresh]
  exact ⟨_, rfl⟩

end

/-! ### What stands after a launch -/

theorem enters_leaves (d : Dev) (n : Nat) (k : LKind) (w : W128) (req : Nat) : (enters d n k w req).out = d.out ∧
    (enters d n k w req).objs = d.objs ∧ (enters d n k w req).hub = d.hub ∧ (enters d n k w req).ddr = d.ddr :=
  ⟨rfl, rfl, rfl, Dev.setThread_ddr ..⟩

theorem enters_thread (n : Nat) : (enters d n k w req).thread n = { d.thread n with
    launch := (d.thread n).launch ++ [ownEntry d n k w req], nextOrd := (d.thread n).nextOrd + 1 } :=
  Dev.thread_setThread_self ..

/-- After a launch from a thread's own context the thread is as the context left it, with the entry; the rest stands. -/
theorem launched_thread (hp : x.path = none) : ((enters d x.n k w req).setCtx x c').thread x.n = { d.thread x.n with
    main := c', launch := (d.thread x.n).launch ++ [ownEntry d x.n k w req], nextOrd := (d.thread x.n).nextOrd + 1 } := by
  rw [thread_setCtx_main hp, enters_thread]

theorem launched_leaves : ((enters d x.n k w req).setCtx x c').out = d.out ∧
    ((enters d x.n k w req).setCtx x c').objs = d.objs ∧ ((enters d x.n k w req).setCtx x c').hub = d.hub ∧
    ((enters d x.n k w req).setCtx x c').ddr = d.ddr ∧
    ∀ m, m ≠ x.n → ((enters d x.n k w req).setCtx x c').thread m = d.thread m := by
  obtain ⟨hout, hobjs, hhub, hddr⟩ := enters_leaves d x.n k w req
  refine ⟨by rw [setCtx_out, hout], by rw [setCtx_objs, hobjs], by rw [setCtx_hub, hhub], by rw [Dev.setCtx_ddr, hddr],
    fun m hm => ?_⟩
  rw [thread_setCtx_other hm]
  exact Dev.thread_setThread_other _ _ _ _ hm

/-- An instruction launches one entry from a thread's own context, which it leaves as `c'`. -/
def Launches (i : Instr) (s : State) (x : CtxRef) (c : Ctx) (k : LKind) (w : W128) (req : Nat) : Prop :=
  ∃ c', exec i s = .next { s with now := (enters s.now x.n k w req).setCtx x c' } ∧ Fell c c' ∧ c'.v = c.v ∧
    c.cursor ≤ c'.cursor ∧ (k ≠ .stroke → k ≠ .read → c'.cursor = c.cursor)

theorem launches_of {i : Instr} {f : Dev → Dev} (hexec : exec i s = .next (s.onNow f))
    (hop : f s.now = (enters s.now x.n k w req).setCtx x c') (hfell : Fell c c') (hv : c'.v = c.v)
    (hle : c.cursor ≤ c'.cursor) (hcursor : k ≠ .stroke → k ≠ .read → c'.cursor = c.cursor) :
    Launches i s x c k w req := ⟨c', by rw [hexec, State.onNow, hop], hfell, hv, hle, hcursor⟩

theorem launches_launchOp {i : Instr} (hexec : exec i s = .next (s.onNow fun d => d.launchOp x op h k))
    (hat : AtOp s.now x op c) (hp : x.path = none) (h1 : opcodeOf op ≠ 1) (h2 : opcodeOf op ≠ 2)
    (hhold : s.now.launchHold x.n (s.now.launchTick x.n c h) = none)
    (hfresh : c.issued.contains (k, s.now.launchTick x.n c h, entryBody k (encodeOp op)) = false) :
    Launches i s x c k (entryBody k (encodeOp op)) (s.now.launchTick x.n c h) :=
  launches_of hexec (launchOp_own hat hp (stepsGen_of_opcode h1 h2) hhold hfresh) (withIssued_fell (by simp) (by simp))
    (by simp) (by simp) fun _ _ => by simp

/-- Every operation that issues an entry launches it. -/
theorem launches_of_issues {i : Instr} (hissues : Issues x c h i op k w) (hp : x.path = none) (hat : AtOp s.now x op c)
    (hhold : s.now.launchHold x.n (s.now.launchTick x.n c h) = none)
    (hfresh : c.issued.contains (k, s.now.launchTick x.n c h, w) = false) :
    Launches i s x c k w (s.now.launchTick x.n c h) := by
  obtain ⟨rfl, hcase⟩ | ⟨fr, fk, vs, rfl, rfl, rfl, hw⟩ := hissues
  · obtain ⟨tgt, gs, a, am, po, fr, fi, rfl, rfl, rfl⟩ | ⟨gs, a, am, wl, fr, ks, dt, rfl, rfl, rfl⟩ | hcase := hcase
    · obtain ⟨len, hop⟩ := opPlayOp_own hat hp hhold (by rw [loaded_pair (stepsGen_play ..)]) hfresh
      obtain ⟨hfell, hv, -, hle⟩ := playsOn_leaves h (withIssued (s.now.loaded x c (.play h tgt false gs a am po fr fi) h)
        .stroke (s.now.launchTick x.n c h) (entryBody .stroke (encodeOp (.play h tgt false gs a am po fr fi))))
        (s.now.launchTick x.n c h) len
      exact launches_of (by rfl) hop (Fell.congr hfell (withIssued_cpc.trans loaded_cpc) (withIssued_queue.trans loaded_queue)) (by simpa using hv)
        (by simpa using hle) (by simp)
    · obtain ⟨stop, hop⟩ := opReadOp_own hat hp hhold (by rw [loaded_pair (stepsGen_read ..)]) hfresh
      obtain ⟨hfell, hv, -, hle⟩ := readsOn_leaves h (withIssued (s.now.loaded x c (.read h false gs a am wl fr ks dt) h)
        .read (s.now.launchTick x.n c h) (entryBody .read (encodeOp (.read h false gs a am wl fr ks dt)))) stop
      exact launches_of (by rfl) hop (Fell.congr hfell (withIssued_cpc.trans loaded_cpc) (withIssued_queue.trans loaded_queue)) (by simpa using hv)
        (by simpa using hle) (by simp)
    · obtain ⟨tgt, v, rfl, rfl, rfl⟩ | ⟨fr, fk, v, rfl, rfl, rfl⟩ | ⟨fr, fk, v, rfl, rfl, rfl⟩ | ⟨fr, fk, v, rfl, rfl, rfl⟩ |
        ⟨sw, rfl, rfl, rfl⟩ | ⟨m, ts, lv, rfl, rfl, rfl⟩ | ⟨e, rfl, rfl, rfl⟩ | ⟨tgt, a, rfl, rfl, rfl⟩ := hcase
      all_goals exact launches_launchOp (by rfl) hat hp (by simp [opcodeOf]) (by simp [opcodeOf]) hhold hfresh
  · exact launches_of (by rfl) (opFshiftvOp_own hat hp hhold hw hfresh) (withIssued_fell (by simp) (by simp))
      (by simp) (by simp) fun _ _ => by simp

/-- Settles O24: the entry enters the launch queue, and only the thread's own context changes besides. -/
theorem launchOperations : Obligations.LaunchOperations := by
  unfold Obligations.LaunchOperations
  intro s x c h i op k w hissues hp hat hhold hfresh
  obtain ⟨c', hexec, hfell, hv, hle, hcursor⟩ := launches_of_issues hissues hp hat hhold hfresh
  obtain ⟨hout, hobjs, hhub, hddr, hother⟩ := launched_leaves (d := s.now) (x := x) (k := k) (w := w)
    (req := s.now.launchTick x.n c h) (c' := c')
  refine ⟨_, ownEntry s.now x.n k w (s.now.launchTick x.n c h), hexec, ?_⟩
  simp only [launched_thread hp]
  exact ⟨trivial, rfl, rfl, rfl, rfl, rfl, hfell, hv, hle, hcursor, hother, hout, hobjs, hhub, hddr⟩

/-! ### Generated addresses -/

theorem loaded_gen {g : Nat} {df : GenDef} (hgen : stepsGen op = true) (hsel : fld (encodeOp op) 41 37 = g)
    (hdef : d.genDef x.n g = some df) :
    (d.loaded x c op h).gens = tabSet (0, 0) c.gens g
        (((tabGet (0, 0) c.gens g).1 + 1) % 2 ^ 32, genNext df (tabGet (0, 0) c.gens g).2) ∧
      (d.loaded x c op h).pair 0 = BitVec.ofNat 128 ((encodeOp op).toNat - 2 ^ 36 - 2 ^ 42 * fld (encodeOp op) 63 42 +
        2 ^ 42 * genAddr df (tabGet (0, 0) c.gens g).1 (tabGet (0, 0) c.gens g).2) := by
  subst hsel
  unfold stepsGen at hgen
  unfold Dev.loaded Dev.loadOp
  simp only [hgen, if_true, Dev.genStep, hdef]
  exact ⟨rfl, Ctx.load_pair ..⟩

theorem toU_lt (n : Nat) (v : Int) : toU n v < 2 ^ n := by
  unfold toU
  have hpos : (0 : Int) < (2 ^ n : Nat) := by positivity
  have := Int.emod_lt_of_pos v hpos
  have := Int.emod_nonneg v (ne_of_gt hpos)
  omega

theorem genAddr_lt (df : GenDef) (i st : Nat) : genAddr df i st < 2 ^ 22 := by
  exact toU_lt ..

/-- What O25 says of the thread after a launch with a generated address. -/
theorem generated_thread {i : Instr} {f : Dev → Dev} {g : Nat} {p : Nat × Nat} (hp : x.path = none)
    (hexec : exec i s = .next (s.onNow f)) (hop : f s.now = (enters s.now x.n k w req).setCtx x c') (hfell : Fell c c')
    (hgens : c'.gens = tabSet (0, 0) c.gens g p) :
    ∃ t e, exec i s = .next t ∧ (t.now.thread x.n).launch = (s.now.thread x.n).launch ++ [e] ∧ e.w = w ∧ e.kind = k ∧
      Fell c (t.now.thread x.n).main ∧ tabGet (0, 0) (t.now.thread x.n).main.gens g = p ∧
      (∀ j, j ≠ g → tabGet (0, 0) (t.now.thread x.n).main.gens j = tabGet (0, 0) c.gens j) ∧
      t.now.objs = s.now.objs ∧ t.now.hub = s.now.hub ∧ t.now.ddr = s.now.ddr := by
  obtain ⟨-, hobjs, hhub, hddr, -⟩ := launched_leaves (d := s.now) (x := x) (k := k) (w := w) (req := req) (c' := c')
  refine ⟨_, ownEntry s.now x.n k w req, hexec, ?_⟩
  simp only [State.onNow, hop, launched_thread hp, hgens]
  exact ⟨trivial, rfl, rfl, hfell, tabGet_set_self .., fun j hj => tabGet_set_other _ _ _ _ _ _ hj, hobjs, hhub, hddr⟩

/-- Settles O25: the word loaded is that of the operation with the generated address in its field. -/
theorem generatedAddress : Obligations.GeneratedAddress := by
  unfold Obligations.GeneratedAddress
  intro s x c h g df i op op' k hdef hp hat hcase hhold hfresh
  have haddr := genAddr_lt df (tabGet (0, 0) c.gens g.toNat).1 (tabGet (0, 0) c.gens g.toNat).2
  obtain ⟨tgt, a, am, po, fr, fi, rfl, rfl, rfl, rfl⟩ | ⟨a, am, wl, fr, ks, dt, rfl, rfl, rfl, rfl⟩ := hcase
  · obtain ⟨hgens, hpair⟩ := loaded_gen (x := x) (c := c) (h := h) (stepsGen_play h tgt true g a am po fr fi)
      (fields_play ..).2 hdef
    rw [encodeOp_play, genWord_replace (playLow_lt ..) g.isLt a.isLt (playHigh_lt ..)] at hpair
    obtain ⟨len, hop⟩ := opPlayOp_own hat hp hhold (by
      rw [hpair, encodeOp_play, BitVec.toNat_ofNat, Nat.mod_eq_of_lt haddr]) hfresh
    obtain ⟨hfell, -, hgens', -⟩ := playsOn_leaves h _ (s.now.launchTick x.n c h) len
    exact generated_thread hp (by rfl) hop (Fell.congr hfell (withIssued_cpc.trans loaded_cpc) (withIssued_queue.trans loaded_queue)) (hgens'.trans (withIssued_gens.trans hgens))
  · obtain ⟨hgens, hpair⟩ := loaded_gen (x := x) (c := c) (h := h) (stepsGen_read h true g a am wl fr ks dt)
      (fields_read ..).2 hdef
    rw [encodeOp_read, genWord_replace (readLow_lt ..) g.isLt a.isLt (readHigh_lt ..)] at hpair
    obtain ⟨stop, hop⟩ := opReadOp_own hat hp hhold (by
      rw [hpair, encodeOp_read, BitVec.toNat_ofNat, Nat.mod_eq_of_lt haddr]) hfresh
    obtain ⟨hfell, -, hgens', -⟩ := readsOn_leaves h _ stop
    exact generated_thread hp (by rfl) hop (Fell.congr hfell (withIssued_cpc.trans loaded_cpc) (withIssued_queue.trans loaded_queue)) (hgens'.trans (withIssued_gens.trans hgens))

end

end Sys2Proof.Machine
end

section
/-! A context that stands at a word of the control store issues it (R113 to R116, R121 to R127, R139). -/

namespace Sys2Proof.Machine

section
variable {s : State} {d : Dev} {x : CtxRef} {c : Ctx} {w f : W192}

/-! ### The fetch -/

/-- The context that issues a word: at a trap point with its checkpoint, and no longer before an entry word. -/
def issuing (c : Ctx) (w : W192) : Ctx :=
  { c with entry := false, chk := if mf w 115 115 == 1 || c.entry then some (c.mic, c.gens) else c.chk }

theorem corrected_leaves (d : Dev) (n k : Nat) : (d.corrected n k).eas = d.eas ∧ (d.corrected n k).hub = d.hub ∧
    (d.corrected n k).ev = d.ev ∧ (d.corrected n k).epoch = d.epoch := by
  unfold Dev.corrected
  split <;> simp

theorem operand_congr {e : Dev} (hhub : e.hub = d.hub) (hepoch : e.epoch = d.epoch) (n : Nat) (c : Ctx) (w : W192) (sel : Nat) :
    e.operand n c w sel = d.operand n c w sel := by
  simp only [Dev.operand, Dev.shotTick, Dev.jobOfThread, Dev.resident, hhub, hepoch]

theorem aluStep_corrected (n k : Nat) (c : Ctx) (w : W192) :
    (d.corrected n k).aluStep n c w = d.aluStep n c w := by
  obtain ⟨-, hhub, -, hepoch⟩ := corrected_leaves d n k
  simp only [Dev.aluStep, operand_congr hhub hepoch]

theorem thread_congr {e : Dev} (heas : e.eas = d.eas) (n : Nat) : e.thread n = d.thread n := by
  unfold Dev.thread; rw [heas]

theorem microCond_corrected (k : Nat) (a b : Ctx) (w : W192) :
    (d.corrected x.n k).microCond x a b w = d.microCond x a b w := by
  obtain ⟨heas, hhub, hev, -⟩ := corrected_leaves d x.n k
  have hline : ∀ j, (d.corrected x.n k).lineSt j = d.lineSt j := fun j => by unfold Dev.lineSt; rw [hev]
  have hshot : (d.corrected x.n k).shotTick x.n = d.shotTick x.n := by
    simp only [Dev.shotTick, Dev.jobOfThread, Dev.resident, hhub]
  simp only [Dev.microCond, thread_congr heas, hline, hshot]

/-- A WAITC whose condition does not hold. -/
def Blocks (d : Dev) (x : CtxRef) (c : Ctx) (w : W192) : Prop :=
  mf w 19 16 = 8 ∧ d.microCond x (issuing c w) (d.aluStep x.n (issuing c w) w).1 w = false

theorem microwordOp_fetched (hat : AtWord d x w c) (hlch : mf w 99 96 = 0) (hdiff : microDiff f w ≤ 1) :
    microwordOp x f d =
      if mf w 19 16 = 8 ∧ (!d.microCond x (issuing c w) (d.aluStep x.n (issuing c w) w).1 w) = true then
        (d.corrected x.n (microDiff f w)).setCtx x { issuing c w with
          waitc := some w
          wait := if mf w 24 20 = 8 then .service (((issuing c w).sr 3).toNat % 16) else .mem }
      else (d.corrected x.n (microDiff f w)).microEffects x (issuing c w) w := by
  obtain ⟨hctx, hissue, hrun, hsvc, hwaitc, hopen, hbranch, hw, htrap⟩ := hat
  have hpoint : ((mf w 115 115 == 1 || c.entry) && (d.thread x.n).trapDue) = false := by
    cases hp : (mf w 115 115 == 1 || c.entry) with
    | false => rfl
    | true => rw [htrap (by simpa using hp)]; rfl
  have hfetch : microDiff f (d.storeWord c.mic.mpc) ≤ 1 := hw ▸ hdiff
  have hstore := hw.symm
  unfold microwordOp
  simp only [hctx, hstore]
  rw [if_neg (by simp [hrun]), if_neg (by simp [hissue, hrun, hsvc, hwaitc, hopen, hbranch, hpoint, hdiff])]
  simp only [hlch, launchKind, aluStep_corrected, microCond_corrected]
  rfl

/-- A word with more than one wrong bit does not issue. -/
theorem microwordOp_uncorrectable (hat : AtWord d x w c) (hdiff : 1 < microDiff f w) : microwordOp x f d = d := by
  obtain ⟨hctx, hissue, hrun, -, -, -, -, hw, -⟩ := hat
  have hstore := hw.symm
  unfold microwordOp
  simp only [hctx, hrun, hstore, hdiff]
  simp

/-! ### The effects of a plain word -/

/-- The context after the ALU result of a word and the counter of LOOP. -/
def computed (d : Dev) (x : CtxRef) (c : Ctx) (w : W192) : Ctx :=
  if mf w 19 16 = 5 then
    (d.aluStep x.n c w).1.put (0x18 + mf w 27 26) ((tabGet 0 c.mic.ml (mf w 27 26) - 1).zeroExtend 64)
  else (d.aluStep x.n c w).1

/-- The context after a plain word. -/
def afterWord (d : Dev) (x : CtxRef) (c : Ctx) (w : W192) : Ctx :=
  ({ computed d x c w with waitc := none, wait := .ready }).sequence w (tabGet 0 c.mic.ml (mf w 27 26) - 1 == 0)
    (d.microCond x c (d.aluStep x.n c w).1 w)

/-- A CALL or CALLS with a full return stack. -/
def CallTooDeep (c : Ctx) (w : W192) : Prop := (mf w 19 16 = 3 ∨ mf w 19 16 = 7) ∧ 2 ≤ c.mic.rstack.length

theorem microEffects_plain (hplain : Plain w) (hcall : ¬CallTooDeep c w) :
    d.microEffects x c w = d.setCtx x (afterWord d x c w) := by
  obtain ⟨hmem, hlch, hcur⟩ := hplain
  unfold CallTooDeep at hcall
  unfold Dev.microEffects
  simp only [if_neg hcall, hmem, hlch, hcur, launchKind]
  rfl

theorem afterWord_corrected (k : Nat) : afterWord (d.corrected x.n k) x c w = afterWord d x c w := by
  simp only [afterWord, computed, aluStep_corrected, microCond_corrected]

theorem doesFetched_of {c' : Ctx}
    (h : ∀ f, microDiff f w ≤ 1 → microwordOp x f s.now = (s.now.corrected x.n (microDiff f w)).setCtx x c') :
    DoesFetched s x w c' := by
  refine fun f => ⟨fun hzero => ?_, fun hone => ?_⟩
  · have hop := h f (by omega)
    rw [hzero] at hop
    exact doesCtx_of_dispatch (f := microwordOp x f) rfl hop
  · have hop := h f (by omega)
    rw [hone] at hop
    exact congrArg (fun d => Host.Outcome.next { s with now := d }) hop

/-- A plain word that does not block changes one context. -/
theorem doesFetched_plain (hat : AtWord s.now x w c) (hplain : Plain w) (hcall : ¬CallTooDeep c w)
    (hblock : ¬Blocks s.now x c w) : DoesFetched s x w (afterWord s.now x (issuing c w) w) := by
  refine doesFetched_of fun f hdiff => ?_
  rw [microwordOp_fetched hat hplain.2.1 hdiff, if_neg (by simpa [Blocks] using hblock),
    microEffects_plain hplain (show ¬CallTooDeep (issuing c w) w from hcall),
    afterWord_corrected]

/-! ### The ALU -/

/-- The result goes to DST, and CMP has none. -/
def stored (c : Ctx) (w : W192) (r : W64) : Ctx := if mf w 33 28 = 0x10 then c else c.put (mf w 48 44) r

/-- FW or CMP writes the flags. -/
def flagged (c : Ctx) (w : W192) (r a b : W64) : Ctx :=
  if mf w 49 49 = 1 ∨ mf w 33 28 = 0x10 then
    { c with mic := { c.mic with z := r == 0, n := r.msb, cy := aluCarry (mf w 33 28) a b, ov := aluOverflow (mf w 33 28) a b } }
  else c

theorem aluStep_some {n : Nat} {r : W64} (h : aluResult (mf w 33 28) (d.operand n c w (mf w 38 34))
    (d.operand n c w (mf w 43 39)) (d.operand n c w (mf w 48 44)) = some r) :
    d.aluStep n c w = (flagged (stored c w r) w r (d.operand n c w (mf w 38 34)) (d.operand n c w (mf w 43 39)), some r) := by
  unfold Dev.aluStep
  simp only [h]
  rfl

theorem aluStep_none {n : Nat} (h : mf w 33 28 = 0) : d.aluStep n c w = (c, none) := by
  unfold Dev.aluStep
  simp only [h, aluResult]

theorem operand_issuing (n sel : Nat) : d.operand n (issuing c w) w sel = d.operand n c w sel := rfl

/-- A result that goes to no register. -/
theorem put_of_ge {sel : Nat} (v : W64) (h : 0x1C ≤ sel) : c.put sel v = c := by
  unfold Ctx.put
  rw [if_neg (by omega), if_neg (by omega), if_neg (by omega)]

theorem put_s {sel : Nat} (v : W64) (h : sel < 8) : c.put sel v = c.setS sel v := if_pos h

theorem put_v {sel : Nat} (v : W64) (h : 8 ≤ sel) (h' : sel < 0x18) : c.put sel v = c.setV (sel - 8) (v.setWidth 32) := by
  unfold Ctx.put
  rw [if_neg (by omega), if_pos h']

theorem put_ml {sel : Nat} (v : W64) (h : 0x18 ≤ sel) (h' : sel < 0x1C) :
    c.put sel v = { c with mic := { c.mic with ml := tabSet 0 c.mic.ml (sel - 0x18) (v.setWidth 16) } } := by
  unfold Ctx.put
  rw [if_neg (by omega), if_neg (by omega), if_pos h']

/-- A write by selector changes registers alone. -/
theorem put_leaves (c : Ctx) (sel : Nat) (v : W64) : ∃ vs ss mls,
    c.put sel v = { c with v := vs, mic := { c.mic with s := ss, ml := mls } } := by
  unfold Ctx.put
  split
  · exact ⟨_, _, _, rfl⟩
  · split
    · exact ⟨_, _, _, rfl⟩
    · split
      · exact ⟨_, _, _, rfl⟩
      · exact ⟨c.v, c.mic.s, c.mic.ml, rfl⟩

theorem stored_leaves (c : Ctx) (w : W192) (r : W64) : ∃ vs ss mls,
    stored c w r = { c with v := vs, mic := { c.mic with s := ss, ml := mls } } := by
  unfold stored
  split
  · exact ⟨c.v, c.mic.s, c.mic.ml, rfl⟩
  · exact put_leaves ..

/-- Flags change nothing else of the context. -/
theorem flagged_leaves (c : Ctx) (w : W192) (r a b : W64) : ∃ z n cy ov,
    flagged c w r a b = { c with mic := { c.mic with z := z, n := n, cy := cy, ov := ov } } := by
  unfold flagged
  split
  · exact ⟨_, _, _, _, rfl⟩
  · exact ⟨c.mic.z, c.mic.n, c.mic.cy, c.mic.ov, rfl⟩

/-- The context after a plain word with SEQ STEP. -/
theorem afterWord_step (hseq : mf w 19 16 = 0) : afterWord d x c w =
    { (d.aluStep x.n c w).1 with
      waitc := none, wait := .ready
      mic := { (d.aluStep x.n c w).1.mic with mpc := mpcNext (d.aluStep x.n c w).1.mic.mpc % 2 ^ 14 } } := by
  simp only [afterWord, computed, hseq, Ctx.sequence]
  rfl

end

/-- Settles O26: DST names one kind of register, and the flags are written apart. -/
theorem microwordAlu : Obligations.MicrowordAlu := by
  unfold Obligations.MicrowordAlu
  intro s x c w r hat hplain hseq halu
  refine ⟨fun f hdiff => ?_, afterWord s.now x (issuing c w) w, doesFetched_plain hat hplain (by simp [CallTooDeep, hseq])
    (by simp [Blocks, hseq]), ?_⟩
  · exact congrArg (fun d => Host.Outcome.next { s with now := d }) (microwordOp_uncorrectable hat hdiff)
  have hrun : c.running = true := hat.2.2.1
  rw [afterWord_step hseq, aluStep_some (c := issuing c w) halu]
  obtain ⟨z, n, cy, ov, hflagged⟩ := flagged_leaves (stored (issuing c w) w r) w r (s.now.operand x.n c w (mf w 38 34))
    (s.now.operand x.n c w (mf w 43 39))
  obtain ⟨vs, ss, mls, hstored⟩ := stored_leaves (issuing c w) w r
  simp only [operand_issuing]
  refine ⟨?_, ?_, ?_, ?_, ?_, ?_, ?_, fun hcmp hdst => ?_, fun hcmp hlo hhi => ?_, fun hcmp hlo hhi => ?_, fun hnone => ?_,
    fun hfw => ?_, fun hcmp hfw => ?_⟩
  · rw [hflagged, hstored]; rfl
  · rw [hflagged, hstored]; exact hrun
  · rw [hflagged, hstored]; rfl
  · rw [hflagged, hstored]; rfl
  · rw [hflagged, hstored]; rfl
  · rw [hflagged, hstored]; rfl
  · rw [hflagged, hstored]; rfl
  · rw [hflagged, stored, if_neg hcmp, put_s r hdst]
    exact ⟨tabGet_set_self .., rfl, rfl, fun k hk => tabGet_set_other _ _ _ _ _ _ hk⟩
  · rw [hflagged, stored, if_neg hcmp, put_v r hlo hhi]
    exact ⟨tabGet_set_self .., rfl, rfl, fun k hk => tabGet_set_other _ _ _ _ _ _ hk⟩
  · rw [hflagged, stored, if_neg hcmp, put_ml r hlo hhi]
    exact ⟨tabGet_set_self .., rfl, rfl, fun k hk => tabGet_set_other _ _ _ _ _ _ hk⟩
  · have hsame : stored (issuing c w) w r = issuing c w := by
      unfold stored
      split
      · rfl
      · exact put_of_ge r (hnone.resolve_left (by assumption))
    rw [hflagged, hsame]
    exact ⟨rfl, rfl, rfl⟩
  · rw [flagged, if_pos hfw.symm]
    exact ⟨rfl, rfl, rfl, rfl⟩
  · rw [flagged, if_neg (by simp [hcmp, hfw]), hstored]
    exact ⟨rfl, rfl, rfl, rfl⟩

end Sys2Proof.Machine
end

section
/-! The sequence field of a microword (R123, R124), and program faults (R135). -/

namespace Sys2Proof.Machine

section
variable {s : State} {d : Dev} {x : CtxRef} {c : Ctx} {w f : W192}

theorem mf_lt (w : W192) (hi lo : Nat) : mf w hi lo < 2 ^ (hi + 1 - lo) := Nat.mod_lt _ (by positivity)

/-- NEXT is a micro-address. -/
theorem mf_next_mod (w : W192) : mf w 15 2 % 2 ^ 14 = mf w 15 2 := Nat.mod_eq_of_lt (mf_lt w 15 2)

/-! ### The next word without an ALU result -/

/-- COND of a word without an ALU result. -/
def condOf (d : Dev) (x : CtxRef) (c : Ctx) (w : W192) : Bool := d.microCond x (issuing c w) (issuing c w) w

/-- The context that a plain word without an ALU result goes on from. -/
def ongoing (c : Ctx) (w : W192) : Ctx := { issuing c w with waitc := none, wait := .ready }

theorem afterWord_sequence (hnone : mf w 33 28 = 0) (hseq : mf w 19 16 ≠ 5) :
    afterWord d x (issuing c w) w =
      (ongoing c w).sequence w (tabGet 0 c.mic.ml (mf w 27 26) - 1 == 0) (condOf d x c w) := by
  simp only [afterWord, computed, aluStep_none hnone, if_neg hseq]
  rfl

theorem doesFetched_none (hat : AtWord s.now x w c) (hplain : Plain w) (hnone : mf w 33 28 = 0) (hseq : mf w 19 16 ≠ 5)
    (hcall : ¬CallTooDeep c w) (hblock : mf w 19 16 ≠ 8) : DoesFetched s x w
      ((ongoing c w).sequence w (tabGet 0 c.mic.ml (mf w 27 26) - 1 == 0) (condOf s.now x c w)) := by
  rw [← afterWord_sequence hnone hseq]
  exact doesFetched_plain hat hplain hcall fun h => hblock h.1

/-- The context that LOOP goes on from, with its register decremented. -/
def looped (c : Ctx) (w : W192) : Ctx :=
  { (issuing c w).put (0x18 + mf w 27 26) ((tabGet 0 c.mic.ml (mf w 27 26) - 1).zeroExtend 64) with
    waitc := none, wait := .ready }

theorem looped_ml (c : Ctx) (w : W192) :
    tabGet 0 (looped c w).mic.ml (mf w 27 26) = tabGet 0 c.mic.ml (mf w 27 26) - 1 := by
  have hlt := mf_lt w 27 26
  unfold looped
  rw [put_ml _ (by omega) (by omega), Nat.add_sub_cancel_left]
  dsimp only
  rw [tabGet_set_self]
  simp

theorem looped_mpc (c : Ctx) (w : W192) : (looped c w).mic.mpc = c.mic.mpc := by
  have hlt := mf_lt w 27 26
  unfold looped
  rw [put_ml _ (by omega) (by omega)]
  rfl

theorem doesFetched_loop (hat : AtWord s.now x w c) (hplain : Plain w) (hnone : mf w 33 28 = 0) (hseq : mf w 19 16 = 5) :
    DoesFetched s x w ((looped c w).sequence w (tabGet 0 c.mic.ml (mf w 27 26) - 1 == 0) (condOf s.now x c w)) := by
  have hafter : afterWord s.now x (issuing c w) w =
      (looped c w).sequence w (tabGet 0 c.mic.ml (mf w 27 26) - 1 == 0) (condOf s.now x c w) := by
    simp only [afterWord, computed, aluStep_none hnone, if_pos hseq]
    rfl
  rw [← hafter]
  exact doesFetched_plain hat hplain (by simp [CallTooDeep, hseq]) (by simp [Blocks, hseq])

/-! ### What SEQ does -/

section
variable {zero cond : Bool}

theorem sequence_goto (hseq : mf w 19 16 = 1) :
    c.sequence w zero cond = { c with mic := { c.mic with mpc := mf w 15 2 } } := by
  simp only [Ctx.sequence, hseq, mf_next_mod]

theorem sequence_br (hseq : mf w 19 16 = 2) : c.sequence w zero cond =
    { c with mic := { c.mic with mpc := if cond then mf w 15 2 else mpcNext c.mic.mpc % 2 ^ 14 } } := by
  cases cond <;> simp only [Ctx.sequence, hseq, mf_next_mod, if_true, Bool.false_eq_true, if_false]

theorem sequence_call (hseq : mf w 19 16 = 3) : c.sequence w zero cond =
    { c with mic := { c.mic with mpc := mf w 15 2, rstack := mpcNext c.mic.mpc :: c.mic.rstack } } := by
  simp only [Ctx.sequence, hseq]

theorem sequence_ret {a : Nat} {l : List Nat} (hseq : mf w 19 16 = 4) (hstack : c.mic.rstack = a :: l) :
    c.sequence w zero cond = { c with mic := { c.mic with mpc := a, rstack := l } } := by
  simp only [Ctx.sequence, hseq, hstack]

theorem sequence_loop (hseq : mf w 19 16 = 5) : c.sequence w zero cond =
    { c with mic := { c.mic with mpc := if zero then mpcNext c.mic.mpc % 2 ^ 14 else mf w 15 2 } } := by
  cases zero <;> simp only [Ctx.sequence, hseq, mf_next_mod, if_true, Bool.false_eq_true, if_false]

theorem sequence_dispatch (hseq : mf w 19 16 = 6) : c.sequence w zero cond = { c with running := false, wait := .ready } := by
  simp only [Ctx.sequence, hseq]

theorem sequence_calls (hseq : mf w 19 16 = 7) : c.sequence w zero cond =
    { c with svc := some (mf w 15 2 % 64), mic := { c.mic with rstack := mpcNext c.mic.mpc :: c.mic.rstack } } := by
  simp only [Ctx.sequence, hseq]

theorem sequence_waitc (hseq : mf w 19 16 = 8) :
    c.sequence w zero cond = { c with mic := { c.mic with mpc := mf w 15 2 } } := by
  simp only [Ctx.sequence, hseq, mf_next_mod]

end

/-! ### Conditions -/

theorem condOf_zero (hcond : mf w 24 20 = 1) (hneg : mf w 25 25 = 0) : condOf d x c w = c.mic.z := by
  simp only [condOf, Dev.microCond, hcond, hneg]
  rfl

/-- The condition of a decision that WAITC waits for. -/
theorem microCond_decision {a b : Ctx} (hcond : mf w 24 20 = 8) (hneg : mf w 25 25 = 0) :
    d.microCond x a b w = ((d.thread x.n).full a ((a.sr 3).toNat % 16)).isSome := by
  simp only [Dev.microCond, hcond, hneg]
  rfl

theorem doesFetched_blocks (hat : AtWord s.now x w c) (hplain : Plain w) (hseq : mf w 19 16 = 8)
    (hcond : mf w 24 20 = 8) (hneg : mf w 25 25 = 0) (hnone : (s.now.thread x.n).full c ((c.sr 3).toNat % 16) = none) :
    DoesFetched s x w { issuing c w with waitc := some w, wait := .service ((c.sr 3).toNat % 16) } := by
  have hfull : (s.now.thread x.n).full (issuing c w) (((issuing c w).sr 3).toNat % 16) = none := hnone
  refine doesFetched_of fun f hdiff => ?_
  rw [microwordOp_fetched hat hplain.2.1 hdiff, if_pos ⟨hseq, by simp [microCond_decision hcond hneg, hfull]⟩, if_pos hcond]
  rfl

theorem waitcReleaseOp_decision (hctx : (d.thread x.n).ctx x.path = some c) (hwaitc : c.waitc = some w)
    (hissue : d.canIssue x c = true) (hplain : Plain w) (hnone : mf w 33 28 = 0) (hseq : mf w 19 16 = 8)
    (hcond : mf w 24 20 = 8) (hneg : mf w 25 25 = 0) (hfull : ((d.thread x.n).full c ((c.sr 3).toNat % 16)).isSome = true) :
    waitcReleaseOp x d = d.setCtx x { c with waitc := none, wait := .ready, mic := { c.mic with mpc := mf w 15 2 } } := by
  have hafter : afterWord d x c w =
      { c with waitc := none, wait := .ready, mic := { c.mic with mpc := mf w 15 2 } } := by
    simp only [afterWord, computed, hseq, aluStep_none hnone, sequence_waitc hseq]
    rfl
  unfold waitcReleaseOp
  simp only [hctx, hwaitc, hissue, microCond_decision hcond hneg, hfull, hplain.2.1, launchKind]
  rw [← hafter]
  exact microEffects_plain hplain (by simp [CallTooDeep, hseq])

/-! ### Program faults -/

theorem modJob_thread (d : Dev) (q : Nat) (g : Job → Job) (n : Nat) : (d.modJob q g).thread n = d.thread n := rfl

theorem spoilThread_thread (d : Dev) (m n : Nat) : (d.spoilThread m).thread n = d.thread n := by
  unfold Dev.spoilThread; split <;> rfl

theorem spoilThread_objs (d : Dev) (m : Nat) : (d.spoilThread m).objs = d.objs := by
  unfold Dev.spoilThread; split <;> rfl

theorem endCanvas_objs (d : Dev) (n : Nat) : (d.endCanvas n).objs = d.objs := rfl

/-- A program fault ends the canvas and sets its flag. -/
theorem programFault_ends (d : Dev) (n bit : Nat) : ((d.programFault n bit).thread n).ended = true ∧
    (d.programFault n bit).bit (unitKey 0x400007 n) bit = true := by
  unfold Dev.programFault
  refine ⟨by rw [spoilThread_thread, thread_endCanvas], ?_⟩
  rw [Dev.bit_congr ((spoilThread_objs ..).trans (endCanvas_objs ..))]
  exact Dev.bit_flag_self ..

theorem microwordOp_tooDeep (hat : AtWord d x w c) (hplain : Plain w) (hcall : CallTooDeep c w) (hseq : mf w 19 16 ≠ 8)
    (hp : x.path = none) (hdiff : microDiff f w ≤ 1) :
    microwordOp x f d = (d.corrected x.n (microDiff f w)).programFault x.n 6 := by
  rw [microwordOp_fetched hat hplain.2.1 hdiff, if_neg (by simp [hseq])]
  unfold Dev.microEffects
  exact (if_pos hcall).trans (if_neg (by simp [hp]))

end

/-- Settles O27: what each code of SEQ does, on the context that the word goes on from. -/
theorem microwordSequence : Obligations.MicrowordSequence := by
  unfold Obligations.MicrowordSequence
  intro s x c w hplain hnone
  refine ⟨fun hat => ⟨fun hseq => ?goto, fun hseq hcond hneg => ?br, fun hseq hdepth => ?call, fun a l hseq hstack => ?ret,
    fun hseq => ?loop, fun hseq => ?dispatch, fun hseq hdepth => ?calls, fun hseq hp hdepth f hdiff => ?fault,
    fun hseq hcond hneg hfull => ?waitc⟩, fun hctx hwaitc hissue hseq hcond hneg hfull => ?release⟩
  case goto =>
    have hdoes := doesFetched_none hat hplain hnone (by omega) (by simp [CallTooDeep, hseq]) (by omega)
    rw [sequence_goto hseq] at hdoes
    exact ⟨_, hdoes, rfl, rfl⟩
  case br =>
    have hdoes := doesFetched_none hat hplain hnone (by omega) (by simp [CallTooDeep, hseq]) (by omega)
    rw [sequence_br hseq, condOf_zero hcond hneg] at hdoes
    exact ⟨_, hdoes, rfl⟩
  case call =>
    have hdoes := doesFetched_none hat hplain hnone (by omega) (by simp [CallTooDeep, hdepth]) (by omega)
    rw [sequence_call hseq] at hdoes
    exact ⟨_, hdoes, rfl, rfl⟩
  case ret =>
    have hdoes := doesFetched_none hat hplain hnone (by omega) (by simp [CallTooDeep, hseq]) (by omega)
    rw [sequence_ret (c := ongoing c w) hseq hstack] at hdoes
    exact ⟨_, hdoes, rfl, rfl⟩
  case loop =>
    have hdoes := doesFetched_loop hat hplain hnone hseq
    rw [sequence_loop hseq] at hdoes
    refine ⟨_, hdoes, looped_ml c w, ?_⟩
    simp only [looped_mpc, beq_iff_eq, sub_eq_zero]
  case dispatch =>
    have hdoes := doesFetched_none hat hplain hnone (by omega) (by simp [CallTooDeep, hseq]) (by omega)
    rw [sequence_dispatch hseq] at hdoes
    exact ⟨_, hdoes, rfl, rfl, rfl⟩
  case calls =>
    have hdoes := doesFetched_none hat hplain hnone (by omega) (by simp [CallTooDeep, hdepth]) (by omega)
    rw [sequence_calls hseq] at hdoes
    exact ⟨_, hdoes, rfl, rfl⟩
  case fault =>
    obtain ⟨hended, hbit⟩ := programFault_ends (s.now.corrected x.n (microDiff f w)) x.n 6
    refine ⟨s.onNow (microwordOp x f), by rfl, ?_⟩
    simp only [State.onNow, microwordOp_tooDeep hat hplain ⟨.inl hseq, hdepth⟩ (by omega) hp hdiff]
    exact ⟨hended, hbit⟩
  case waitc => exact ⟨_, doesFetched_blocks hat hplain hseq hcond hneg hfull, rfl, rfl, rfl⟩
  case release =>
    exact ⟨_, doesCtx_of_dispatch (f := waitcReleaseOp x) (by rfl)
      (waitcReleaseOp_decision hctx hwaitc hissue hplain hnone hseq hcond hneg hfull), rfl, rfl, rfl⟩

end Sys2Proof.Machine
end

section
/-! Vendor services (R145). -/

namespace Sys2Proof.Machine

section
variable {s : State} {d : Dev} {x : CtxRef} {c : Ctx}

theorem service_runs {k : Nat} {g : Dev → Ctx → Dev × Ctx} (hctx : (d.thread x.n).ctx x.path = some c)
    (hissue : d.canIssue x c = true) (hsvc : c.svc = some k) : d.service x k g = (g d c).1.setCtx x (g d c).2 := by
  unfold Dev.service
  simp [hctx, hissue, hsvc]

theorem serviceReturn_leaves (c : Ctx) (v : W64) : (c.serviceReturn v).svc = none ∧
    (c.serviceReturn v).mic.mpc = c.mic.rstack.headD 0 ∧ (c.serviceReturn v).mic.rstack = c.mic.rstack.drop 1 ∧
    (c.serviceReturn v).v = c.v := ⟨rfl, rfl, rfl, rfl⟩

theorem serviceReturn_sr3 (c : Ctx) (v : W64) : (c.serviceReturn v).sr 3 = v := tabGet_set_self ..

/-- A vendor routine's fetch with one wrong bit shows by its flag alone. -/
theorem microwordOp_vendor {f : W192} (hctx : (d.thread x.n).ctx x.path = some c) (hissue : d.canIssue x c = true)
    (hrun : c.running = false) (hmpc : c.mic.mpc < 0x3000) (hdiff : microDiff f (d.storeWord c.mic.mpc) = 1) :
    microwordOp x f d = d.flag (unitKey 0x440004 (d.runEasel x.n)) 0 := by
  have hlive : (d.thread x.n).active = true ∧ (d.thread x.n).ended = false := by
    simp only [Dev.canIssue, Bool.and_eq_true, Bool.not_eq_true'] at hissue
    obtain ⟨⟨⟨⟨⟨hactive, hended⟩, -⟩, -⟩, -⟩, -⟩ := hissue
    exact ⟨hactive, hended⟩
  unfold microwordOp
  simp only [hctx, hdiff]
  rw [if_pos (by simp [hlive.1, hlive.2, hrun, hmpc])]
  exact if_pos rfl

/-! ### SINCOS at the quarter turns -/

/-- At a quarter turn nothing is rounded. -/
theorem sincosWord_exact {p : W32} (h : p.toNat % 2 ^ 30 = 0) : sincosWord p =
    BitVec.ofNat 64 (toU 16 (cosSin 32 p.toNat 14 (false, false)).1 +
      2 ^ 16 * toU 16 (cosSin 32 p.toNat 14 (false, false)).2) := by
  simp only [sincosWord, cosSin, trigRound, show (p.toNat % 2 ^ (32 - 2) == 0) = true by simpa using h, Bool.not_true,
    Bool.false_and]

theorem sincosWord_quarters : sincosWord 0 = 0x4000 ∧ sincosWord 0x40000000 = 0x40000000 ∧ sincosWord 0x80000000 = 0xC000 ∧
    sincosWord 0xC0000000 = 0xC0000000 := by
  refine ⟨?_, ?_, ?_, ?_⟩
  all_goals rw [sincosWord_exact (by decide)]
  all_goals decide +kernel

/-! ### WAIT_DECISION -/

theorem waitDecisionOp_held {r : DReg} (hctx : (d.thread x.n).ctx x.path = some c) (hissue : d.canIssue x c = true)
    (hsvc : c.svc = some 0) (hp : x.path = none)
    (hfull : (d.thread x.n).full c ((c.sr 3).toNat % 16) = some r) :
    waitDecisionOp x d = (d.setThread x.n { d.thread x.n with
      handles := tabSet none (d.thread x.n).handles ((c.sr 3).toNat % 16) none }).setCtx x
        (c.serviceReturn (BitVec.ofNat 64 r.outcome)) := by
  unfold waitDecisionOp
  rw [service_runs hctx hissue hsvc]
  simp only [hfull, Dev.consume, hp, Option.isSome_none, Bool.false_eq_true, if_false]

theorem waitDecisionOp_waits (hctx : (d.thread x.n).ctx x.path = some c) (hissue : d.canIssue x c = true)
    (hsvc : c.svc = some 0) (hfull : (d.thread x.n).full c ((c.sr 3).toNat % 16) = none) :
    waitDecisionOp x d = d.setCtx x { c with wait := .service ((c.sr 3).toNat % 16) } := by
  unfold waitDecisionOp
  rw [service_runs hctx hissue hsvc]
  simp only [hfull]

theorem recipOp_of_ne (hctx : (d.thread x.n).ctx x.path = some c) (hissue : d.canIssue x c = true)
    (hsvc : c.svc = some 2) : recipOp x d = d.setCtx x (c.serviceReturn
      (if (c.sr 3).toNat % 2 ^ 32 = 0 then Config.recipZero else BitVec.ofNat 64 (2 ^ 32 / ((c.sr 3).toNat % 2 ^ 32)))) :=
  service_runs hctx hissue hsvc

theorem frameReadOp_own (hctx : (d.thread x.n).ctx x.path = some c) (hissue : d.canIssue x c = true)
    (hsvc : c.svc = some 3) (hp : x.path = none) : frameReadOp x d = d.setCtx x (c.serviceReturn
      (((d.frame (8 * x.n + (4 * bits (c.sr 3).toNat 2 2 + (c.sr 3).toNat % 4))).vph).zeroExtend 64)) := by
  unfold frameReadOp
  rw [service_runs hctx hissue hsvc]
  simp only [hp, Option.isSome_none, Bool.false_eq_true, if_false]

end

/-- Settles O28: what each service returns in S3. -/
theorem vendorServices : Obligations.VendorServices := by
  unfold Obligations.VendorServices
  intro s x c hctx hissue
  refine ⟨fun f hrun hmpc hdiff => ?vendor, fun hsvc => ?sincos, fun hsvc => ?recip, fun hsvc hp => ?frame,
    fun r hsvc hp hfull => ?held, fun hsvc hfull => ?waits⟩
  case vendor =>
    exact congrArg (fun d => Host.Outcome.next { s with now := d }) (microwordOp_vendor hctx hissue hrun hmpc hdiff)
  case sincos =>
    obtain ⟨hs, hmpc, hstack, hv⟩ := serviceReturn_leaves c (sincosWord ((c.sr 3).setWidth 32))
    obtain ⟨h0, h1, h2, h3⟩ := sincosWord_quarters
    refine ⟨_, doesCtx_of_dispatch (f := sincosOp x) (by rfl) (service_runs hctx hissue hsvc), hs, hmpc, hstack,
      serviceReturn_sr3 .., hv, fun hq => ?_, fun hq => ?_, fun hq => ?_, fun hq => ?_⟩
    all_goals rw [serviceReturn_sr3, hq]
    · exact h0
    · exact h1
    · exact h2
    · exact h3
  case recip =>
    refine ⟨_, doesCtx_of_dispatch (f := recipOp x) (by rfl) (recipOp_of_ne hctx hissue hsvc), rfl, rfl, rfl, fun hne => ?_⟩
    rw [serviceReturn_sr3, if_neg hne]
  case frame =>
    exact ⟨_, doesCtx_of_dispatch (f := frameReadOp x) (by rfl) (frameReadOp_own hctx hissue hsvc hp), rfl, rfl, rfl,
      serviceReturn_sr3 ..⟩
  case held =>
    refine ⟨s.onNow (waitDecisionOp x), by rfl, ?_⟩
    simp only [State.onNow, waitDecisionOp_held hctx hissue hsvc hp hfull, thread_setCtx_main hp, Dev.thread_setThread_self]
    refine ⟨rfl, serviceReturn_sr3 .., tabGet_set_self .., fun m hm => ?_⟩
    rw [thread_setCtx_other hm, Dev.thread_setThread_other _ _ _ _ hm]
  case waits =>
    exact ⟨_, doesCtx_of_dispatch (f := waitDecisionOp x) (by rfl) (waitDecisionOp_waits hctx hissue hsvc hfull), rfl, hsvc, rfl⟩

end Sys2Proof.Machine
end

section
/-! Traps (R130 to R139, R323). -/

namespace Sys2Proof.Machine

section
variable {s : State} {d : Dev} {x : CtxRef} {c : Ctx} {n i : Nat} {f : InTrap}

/-- A thread's own context. -/
abbrev own (n : Nat) : CtxRef := { n := n, path := none }

/-! ### Entering a handler -/

/-- TRAP_FRAME of a trap of a thread's own context. -/
def ownFrame (d : Dev) (n cause : Nat) (c : Ctx) : Nat :=
  ofLe (trapFrame n (d.runEasel n) cause d.epoch ((d.thread n).trapCount + 1) false c)

theorem enterTrap_own (d : Dev) (n : Nat) (c : Ctx) (cause : Nat) : d.enterTrap (own n) c cause =
    (d.wr (unitKey 0x400008 n) (ownFrame d n cause c)).setThread n { d.thread n with
      traps := (d.thread n).traps.filter (· != cause), inTrap := some { cause := cause, path := none, mic := c.mic }
      trapCount := (d.thread n).trapCount + 1 } := by
  have hheld : (d.thread n).trapsHeld 4 none = 0 := rfl
  unfold Dev.enterTrap ownFrame
  simp only [Option.isNone_none, Option.isSome_none, if_true, hheld, Nat.add_zero]

theorem thread_enterTrap_own (d : Dev) (n : Nat) (c : Ctx) (cause : Nat) : (d.enterTrap (own n) c cause).thread n =
    { d.thread n with
      traps := (d.thread n).traps.filter (· != cause), inTrap := some { cause := cause, path := none, mic := c.mic }
      trapCount := (d.thread n).trapCount + 1 } := by
  rw [enterTrap_own, Dev.thread_setThread_self]

theorem thread_enterTrap_own_other {m : Nat} (cause : Nat) (hm : m ≠ n) :
    (d.enterTrap (own n) c cause).thread m = d.thread m := by
  rw [enterTrap_own, Dev.thread_setThread_other _ _ _ _ hm, thread_congr (Dev.wr_eas ..)]

theorem rd_enterTrap_own (d : Dev) (n : Nat) (c : Ctx) (cause : Nat) :
    (d.enterTrap (own n) c cause).rd (unitKey 0x400008 n) = ownFrame d n cause c := by
  rw [enterTrap_own, Dev.rd_congr (Dev.setThread_objs ..), Dev.rd_wr_self]

theorem hub_enterTrap_own (d : Dev) (n : Nat) (c : Ctx) (cause : Nat) : (d.enterTrap (own n) c cause).hub = d.hub := by
  rw [enterTrap_own, Dev.setThread_hub, Dev.wr_hub]

theorem bit_enterTrap_own_other {k b : Nat} (cause : Nat) (hk : k ≠ unitKey 0x400008 n) :
    (d.enterTrap (own n) c cause).bit k b = d.bit k b := by
  rw [enterTrap_own, Dev.bit_congr (Dev.setThread_objs ..)]
  unfold Dev.bit
  rw [Dev.rd_wr_other _ _ _ _ hk]

/-! ### SNAPSHOT -/

/-- The context with the checkpoint of the trap point at which it stands. -/
def checkpointed (c : Ctx) : Ctx := { c with chk := some (c.mic, c.gens) }

/-- A trap frame holds the micro-state of the context alone. -/
theorem trapFrame_congr {c' : Ctx} (hmic : c'.mic = c.mic) (n easel cause epoch count : Nat) (sketch : Bool) :
    trapFrame n easel cause epoch count sketch c' = trapFrame n easel cause epoch count sketch c := by
  unfold trapFrame Ctx.sr
  simp only [hmic]

theorem takeSnapshot_thread (d : Dev) (n : Nat) : (d.takeSnapshot n).thread n = { d.thread n with
    main := checkpointed (d.thread n).main, traps := (d.thread n).traps.filter (· != 2)
    inTrap := some { cause := 2, path := none, mic := (d.thread n).main.mic }, trapCount := (d.thread n).trapCount + 1 } := by
  unfold Dev.takeSnapshot
  rw [thread_enterTrap_own, thread_setCtx_main rfl]
  rfl

theorem takeSnapshot_thread_other {m : Nat} (hm : m ≠ n) : (d.takeSnapshot n).thread m = d.thread m := by
  unfold Dev.takeSnapshot
  rw [thread_enterTrap_own_other _ hm, thread_setCtx_other hm]

theorem takeSnapshot_frame (d : Dev) (n : Nat) :
    (d.takeSnapshot n).rd (unitKey 0x400008 n) = ownFrame d n 2 (d.thread n).main := by
  unfold Dev.takeSnapshot
  rw [rd_enterTrap_own, ownFrame, thread_setCtx_main rfl]
  exact congrArg ofLe (trapFrame_congr (by rfl) ..)

theorem takeSnapshot_hub (d : Dev) (n : Nat) : (d.takeSnapshot n).hub = d.hub := by
  unfold Dev.takeSnapshot
  rw [hub_enterTrap_own, setCtx_hub]

theorem trapEntryOp_due (hactive : (d.thread n).active = true) (hended : (d.thread n).ended = false)
    (hfree : (d.thread n).inTrap = none) (hdue : (d.thread n).trapDue = true) (hblock : (d.thread n).main.csBlock = false)
    (hpoint : d.atTrapPoint n = true) : trapEntryOp n d = d.takeSnapshot n := by
  unfold trapEntryOp
  simp [hactive, hended, hfree, hdue, hblock, hpoint]

/-! ### TRET -/

/-- The device after the frame of a handler is restored. -/
def restored (d : Dev) (n : Nat) (f : InTrap) (c : Ctx) : Dev :=
  d.setThread n ({ d.thread n with inTrap := none }.setCtx f.path { c with mic := f.mic })

theorem tretOp_returns (htrap : (d.thread n).inTrap = some f) (hctx : (d.thread n).ctx f.path = some c)
    (hblock : c.csBlock = false) :
    tretOp n d = (restored d n f c).nextTrap { n := n, path := f.path } { c with mic := f.mic } := by
  unfold tretOp
  simp only [htrap, hctx]
  exact if_neg (by simp [hblock])

theorem setCtx_traps (t : Thread) (p : Option Nat) (c : Ctx) : (t.setCtx p c).traps = t.traps := by
  cases p <;> rfl

theorem restored_thread (d : Dev) (n : Nat) (f : InTrap) (c : Ctx) : (restored d n f c).thread n =
    { d.thread n with inTrap := none }.setCtx f.path { c with mic := f.mic } := Dev.thread_setThread_self ..

theorem restored_traps (d : Dev) (n : Nat) (f : InTrap) (c : Ctx) :
    ((restored d n f c).thread n).traps = (d.thread n).traps := by
  rw [restored_thread, setCtx_traps]

theorem nextTrap_none (ht : (d.thread x.n).traps = []) : d.nextTrap x c = d := by
  unfold Dev.nextTrap
  simp [ht, Thread.trapDue]

theorem nextTrap_drain (ht : (d.thread x.n).traps = [1]) : d.nextTrap x c = d.drainThread x.n := by
  unfold Dev.nextTrap
  simp [ht, Thread.trapDue]

theorem nextTrap_snapshot (ht : (d.thread x.n).traps = [1, 2]) (hbranches : (d.thread x.n).branches = [])
    (hpoint : d.atTrapPoint x.n = true) : d.nextTrap x c = d.takeSnapshot x.n := by
  unfold Dev.nextTrap
  simp [ht, Thread.trapDue, hbranches, hpoint]

theorem thread_drainThread (d : Dev) (n : Nat) : (d.drainThread n).thread n = { (d.endCanvas n).thread n with
    launch := ((d.endCanvas n).thread n).launch.filter (fun e => decide (e.tick ≤ d.epoch + e.kind.lead)), traps := []
    inTrap := none, main := { ((d.endCanvas n).thread n).main with mic := {}, chk := none, csBlock := false } } := by
  unfold Dev.drainThread
  rw [Dev.thread_setThread_self]

theorem drainThread_hub (d : Dev) (n : Nat) : (d.drainThread n).hub = d.hub := rfl

theorem drainThread_objs (d : Dev) (n : Nat) : (d.drainThread n).objs = d.objs := rfl

/-! ### DATAPATH and CS_UNCORRECTABLE -/

theorem pendTrap_of_not_mem {cause : Nat} (h : cause ∉ (d.thread n).traps) :
    d.pendTrap n cause = d.setThread n { d.thread n with traps := (d.thread n).traps ++ [cause] } := if_neg (by simpa using h)

theorem datapathOp_masked (hactive : (d.thread n).active = true) (hended : (d.thread n).ended = false)
    (htrap : (d.thread n).inTrap = some f) : datapathOp (own n) d = d.pendTrap n 0x10 := by
  unfold datapathOp
  simp [Thread.ctx, hactive, hended, htrap]

theorem datapathOp_taken (hctx : (d.thread x.n).ctx x.path = some c) (hactive : (d.thread x.n).active = true)
    (hended : (d.thread x.n).ended = false) (hfree : (d.thread x.n).inTrap = none) :
    datapathOp x d = d.takeDatapath x c := by
  unfold datapathOp
  simp [hctx, hactive, hended, hfree]

/-- The easel's flag and the fault that a transient fault of it leaves. -/
def faultOf (d : Dev) (n bit kind : Nat) : Dev :=
  (d.flag (unitKey 0x440004 (d.runEasel n)) bit).noteFault (.easel (d.runEasel n)) kind

theorem faultOf_leaves (d : Dev) (n bit kind : Nat) : (faultOf d n bit kind).eas = d.eas ∧
    (faultOf d n bit kind).epoch = d.epoch ∧
    (∀ k, k ≠ unitKey 0x440004 (d.runEasel n) → (faultOf d n bit kind).rd k = d.rd k) ∧
    (faultOf d n bit kind).bit (unitKey 0x440004 (d.runEasel n)) bit = true := by
  have hobjs : (faultOf d n bit kind).objs = (d.flag (unitKey 0x440004 (d.runEasel n)) bit).objs := Dev.noteFault_objs ..
  refine ⟨by simp [faultOf], by simp [faultOf], fun k hk => ?_, ?_⟩
  · rw [Dev.rd_congr hobjs, Dev.rd_flag_other _ _ _ _ hk]
  · rw [Dev.bit_congr hobjs, Dev.bit_flag_self]

theorem faultOf_thread (bit kind m : Nat) : (faultOf d n bit kind).thread m = d.thread m :=
  thread_congr (faultOf_leaves d n bit kind).1 m

/-- Threads' objects stand when an easel's flag is set. -/
theorem threadKey_ne_easelFlags {k : Nat} (n e : Nat) (h : k % 256 ≠ 4) : k + 256 * n ≠ unitKey 0x440004 e := by
  unfold unitKey; omega

theorem takeDatapath_own (d : Dev) (n : Nat) : d.takeDatapath (own n) (d.thread n).main =
    (((faultOf d n 2 0).flag (unitKey 0x400007 n) 2).setCtx (own n) (d.rollback (d.thread n).main)).enterTrap (own n)
      (d.rollback (d.thread n).main) 0x10 := rfl

theorem rollback_point (h : d.atPoint c = true) : d.rollback c = { c with chk := some (c.mic, c.gens), wait := .ready } := if_pos h

theorem rollback_checkpoint {k : Micro × Tab (Nat × Nat)} (h : d.atPoint c = false) (hrun : c.running = true)
    (hchk : c.chk = some k) : d.rollback c =
      { c with mic := k.1, gens := k.2, svc := none, waitc := none, wait := .ready } := by
  unfold Dev.rollback
  simp [h, hrun, hchk]

/-- A running context is restored to the checkpoint of its trap point, or to its last one. -/
theorem rollback_running {k : Micro × Tab (Nat × Nat)} (hlast : d.atPoint c = false → c.running = true → c.chk = some k)
    (hpoint : d.atPoint c = true → k = (c.mic, c.gens)) (hrun : c.running = true) :
    (d.rollback c).mic = k.1 ∧ (d.rollback c).gens = k.2 ∧ (d.rollback c).chk = some k ∧ (d.rollback c).v = c.v ∧
      (d.rollback c).cursor = c.cursor := by
  cases hp : d.atPoint c with
  | true =>
    rw [rollback_point hp, hpoint hp]
    exact ⟨rfl, rfl, rfl, rfl, rfl⟩
  | false =>
    rw [rollback_checkpoint hp hrun (hlast hp hrun)]
    exact ⟨rfl, rfl, hlast hp hrun, rfl, rfl⟩

theorem takeDatapath_own_thread (d : Dev) (n : Nat) : (d.takeDatapath (own n) (d.thread n).main).thread n = { d.thread n with
    main := d.rollback (d.thread n).main, traps := (d.thread n).traps.filter (· != 0x10)
    inTrap := some { cause := 0x10, path := none, mic := (d.rollback (d.thread n).main).mic }
    trapCount := (d.thread n).trapCount + 1 } := by
  rw [takeDatapath_own, thread_enterTrap_own, thread_setCtx_main rfl, thread_congr (Dev.flag_eas ..), faultOf_thread]

theorem takeDatapath_own_bit (d : Dev) (n : Nat) :
    (d.takeDatapath (own n) (d.thread n).main).bit (unitKey 0x400007 n) 2 = true := by
  rw [takeDatapath_own, bit_enterTrap_own_other _ (by unfold unitKey; omega), Dev.bit_congr setCtx_objs]
  exact Dev.bit_flag_self ..

theorem takeCs_own (d : Dev) (n : Nat) : d.takeCs (own n) (d.thread n).main =
    ((faultOf d n 1 1).setCtx (own n) { (d.thread n).main with csBlock := true }).enterTrap (own n)
      { (d.thread n).main with csBlock := true } 0x11 := rfl

theorem takeCs_own_thread (d : Dev) (n : Nat) : (d.takeCs (own n) (d.thread n).main).thread n = { d.thread n with
    main := { (d.thread n).main with csBlock := true }, traps := (d.thread n).traps.filter (· != 0x11)
    inTrap := some { cause := 0x11, path := none, mic := (d.thread n).main.mic }
    trapCount := (d.thread n).trapCount + 1 } := by
  rw [takeCs_own, thread_enterTrap_own, thread_setCtx_main rfl, faultOf_thread]

theorem takeCs_own_bit (d : Dev) (n : Nat) :
    (d.takeCs (own n) (d.thread n).main).bit (unitKey 0x440004 (d.runEasel n)) 1 = true := by
  rw [takeCs_own, bit_enterTrap_own_other _ (by unfold unitKey; omega), Dev.bit_congr setCtx_objs]
  exact (faultOf_leaves d n 1 1).2.2.2

theorem csUncorrectableOp_taken (hactive : (d.thread n).active = true) (hended : (d.thread n).ended = false)
    (hfree : (d.thread n).inTrap = none) (hblock : (d.thread n).main.csBlock = false) :
    csUncorrectableOp (own n) d = d.takeCs (own n) (d.thread n).main := by
  unfold csUncorrectableOp
  simp [Thread.ctx, hactive, hended, hfree, hblock]

/-! ### A trap in a sketch path -/

/-- The traps of a thread as one enters its handler. -/
def entering (t : Thread) (x : CtxRef) (c : Ctx) (cause : Nat) : Thread :=
  { t with traps := t.traps.filter (· != cause), inTrap := some { cause := cause, path := x.path, mic := c.mic } }

/-- TRAP_FRAME of a trap of a path. -/
def pathFrame (d : Dev) (x : CtxRef) (cause : Nat) (c : Ctx) : Nat :=
  ofLe (trapFrame x.n (d.runEasel x.n) cause d.epoch ((d.thread x.n).trapCount + (d.thread x.n).trapsHeld 4 x.path + 1) true c)

theorem enterTrap_path (hp : x.path = some i) (cause : Nat) : d.enterTrap x c cause =
    d.setThread x.n ((entering (d.thread x.n) x c cause).setCtx x.path
      { c with flags := c.flags ++ [(2, pathFrame d x cause c, 1)] }) := by
  have hnone : x.path.isNone = false := by rw [hp]; rfl
  have hsome : x.path.isSome = true := by rw [hp]; rfl
  unfold Dev.enterTrap pathFrame entering
  simp only [hnone, hsome, Bool.false_eq_true, if_false]

theorem setCtx_inTrap (t : Thread) (p : Option Nat) (c : Ctx) : (t.setCtx p c).inTrap = t.inTrap := by
  cases p <;> rfl

theorem setCtx_trapCount (t : Thread) (p : Option Nat) (c : Ctx) : (t.setCtx p c).trapCount = t.trapCount := by
  cases p <;> rfl

theorem ctx_entering (t : Thread) (c : Ctx) (cause : Nat) (p : Option Nat) : (entering t x c cause).ctx p = t.ctx p := by
  cases p <;> rfl

/-- The context of a path as a DATAPATH trap is taken in it. -/
def faulted (d : Dev) (x : CtxRef) (c : Ctx) : Ctx :=
  { d.rollback c with flags := (d.rollback c).flags ++ [(unitKey 0x400007 x.n, 2, 1)] }

theorem takeDatapath_path (hp : x.path = some i) :
    d.takeDatapath x c = ((faultOf d x.n 2 0).setCtx x (faulted d x c)).enterTrap x (faulted d x c) 0x10 := by
  unfold Dev.takeDatapath
  simp only [ctxFlag_path hp]
  rfl

/-- A path of a thread. -/
abbrev inPath (n i : Nat) : CtxRef := { n := n, path := some i }

/-- A path's context after a DATAPATH trap that it takes at a trap point. -/
def pathTrapped (d : Dev) (n i : Nat) (c : Ctx) : Ctx :=
  { faulted d (inPath n i) c with flags := (faulted d (inPath n i) c).flags ++
      [(2, pathFrame ((faultOf d n 2 0).setCtx (inPath n i) (faulted d (inPath n i) c)) (inPath n i) 0x10
        (faulted d (inPath n i) c), 1)] }

/-- The device after it. -/
def afterPathTrap (d : Dev) (n i : Nat) (c : Ctx) : Dev :=
  ((faultOf d n 2 0).setCtx (inPath n i) (faulted d (inPath n i) c)).setThread n
    ((entering (((faultOf d n 2 0).setCtx (inPath n i) (faulted d (inPath n i) c)).thread n) (inPath n i)
      (faulted d (inPath n i) c) 0x10).setCtx (some i) (pathTrapped d n i c))

theorem takeDatapath_inPath : d.takeDatapath (inPath n i) c = afterPathTrap d n i c := by
  rw [takeDatapath_path (x := inPath n i) rfl, enterTrap_path (x := inPath n i) rfl]
  rfl

theorem afterPathTrap_rd (k : Nat) : (afterPathTrap d n i c).rd k = (faultOf d n 2 0).rd k :=
  (Dev.rd_congr (Dev.setThread_objs ..) k).trans (setCtx_rd k)

theorem afterPathTrap_thread : (afterPathTrap d n i c).thread n =
    (entering ((d.thread n).setCtx (some i) (faulted d (inPath n i) c)) (inPath n i) (faulted d (inPath n i) c) 0x10).setCtx
      (some i) (pathTrapped d n i c) := by
  unfold afterPathTrap
  rw [Dev.thread_setThread_self, thread_setCtx (x := inPath n i), faultOf_thread]

theorem faulted_leaves (hpoint : d.atPoint c = true) (x : CtxRef) : (faulted d x c).mic = c.mic ∧
    (faulted d x c).gens = c.gens ∧ (faulted d x c).flags = c.flags ++ [(unitKey 0x400007 x.n, 2, 1)] := by
  unfold faulted
  rw [rollback_point hpoint]
  exact ⟨rfl, rfl, rfl⟩

/-- The frame is that of the context and of the easel that ran it. -/
theorem pathFrame_faulted (hpoint : d.atPoint c = true) : ∃ k,
    pathFrame ((faultOf d n 2 0).setCtx (inPath n i) (faulted d (inPath n i) c)) (inPath n i) 0x10 (faulted d (inPath n i) c) =
      ofLe (trapFrame n (d.runEasel n) 0x10 d.epoch k true c) := by
  obtain ⟨-, hepoch, hrd, -⟩ := faultOf_leaves d n 2 0
  have heasel : (faultOf d n 2 0).runEasel n = d.runEasel n := hrd _ (threadKey_ne_easelFlags n _ (by decide))
  unfold pathFrame
  rw [trapFrame_congr (faulted_leaves hpoint _).1,
    show ((faultOf d n 2 0).setCtx (inPath n i) (faulted d (inPath n i) c)).runEasel n = d.runEasel n from heasel,
    show ((faultOf d n 2 0).setCtx (inPath n i) (faulted d (inPath n i) c)).epoch = d.epoch from hepoch]
  exact ⟨_, rfl⟩

end

/-! ### Draining -/

section
variable {s : State} {d : Dev} {n : Nat}

theorem watchdogOp_pending (hactive : (d.thread n).active = true) (hended : (d.thread n).ended = false)
    (hfree : (d.thread n).inTrap = none) (htraps : (d.thread n).traps ≠ []) : watchdogOp n d = d.programFault n 4 := by
  unfold watchdogOp
  simp [hactive, hended, hfree, htraps]

theorem overrunOp_late {j : Job} (hjob : d.jobOfThread n = some j) (hactive : (d.thread n).active = true)
    (hended : (d.thread n).ended = false) (hphase : j.phase = .shot) (hlate : j.shotStart + j.head.shotLimit ≤ d.epoch) :
    overrunOp n d = ((d.flag (unitKey 0x400007 n) 5).drainTrap n).spoilThread n := by
  unfold overrunOp
  simp [hjob, hactive, hended, hphase, hlate]

theorem drainTrap_drains (hactive : (d.thread n).active = true) (hended : (d.thread n).ended = false)
    (hfree : (d.thread n).inTrap = none) (hpoint : ((d.thread n).trapDue && d.atTrapPoint n) = false) :
    d.drainTrap n = d.drainThread n := by
  unfold Dev.drainTrap
  simp [hactive, hended, hfree, hpoint]

theorem drainTrap_waits (hactive : (d.thread n).active = true) (hended : (d.thread n).ended = false)
    (hpoint : ((d.thread n).trapDue && d.atTrapPoint n) = true) : d.drainTrap n = d.setThread n { d.thread n with
      traps := if (d.thread n).traps.contains 1 then (d.thread n).traps else 1 :: (d.thread n).traps } := by
  unfold Dev.drainTrap
  simp [hactive, hended, hpoint]

theorem drainTrap_objs (d : Dev) (n : Nat) : (d.drainTrap n).objs = d.objs := by
  unfold Dev.drainTrap
  dsimp only
  split
  · rfl
  · split
    · rfl
    · split <;> rfl

end

/-- Settles O29: what a trap saves, what TRET restores and takes next, and what drains a thread. -/
theorem traps : Obligations.Traps := by
  unfold Obligations.Traps
  intro s n
  refine ⟨fun hactive hended hfree hdue hblock hpoint => ?snapshot, fun f c htrap hctx hblock htraps => ?tret,
    fun f htrap hp hblock => ⟨fun htraps => ?drain, fun htraps hbranches hpoint => ?next⟩,
    fun f hactive hended htrap hmem => ?masked, fun k hactive hended hfree hlast hpoint hrun => ?datapath,
    fun i c hactive hended hfree hctx hpoint => ?path, fun hactive hended hfree hblock => ?uncorrectable,
    fun x c hctx hblock => ?released, fun hactive hended hfree htraps => ?watchdog,
    fun j hjob hactive hended hfree hphase hlate => ?overrun⟩
  case snapshot =>
    refine ⟨s.onNow (trapEntryOp n), by rfl, ?_⟩
    simp only [State.onNow, trapEntryOp_due hactive hended hfree hdue hblock hpoint, takeSnapshot_thread]
    exact ⟨trivial, rfl, takeSnapshot_frame .., trivial, by simp, fun m hm => takeSnapshot_thread_other hm,
      takeSnapshot_hub .., by simp⟩
  case tret =>
    have hop := tretOp_returns htrap hctx hblock
    rw [nextTrap_none (by rw [restored_traps, htraps])] at hop
    exact congrArg (fun d => Host.Outcome.next { s with now := d }) hop
  case drain =>
    have hop := tretOp_returns (c := (s.now.thread n).main) htrap (by rw [hp]; rfl) hblock
    rw [nextTrap_drain (by rw [restored_traps, htraps])] at hop
    refine ⟨s.onNow (tretOp n), by rfl, ?_⟩
    simp only [State.onNow, hop, thread_drainThread, thread_endCanvas]
    exact ⟨trivial, trivial, trivial, (drainThread_hub ..).trans rfl, by simp [restored]⟩
  case next =>
    have hop := tretOp_returns (c := (s.now.thread n).main) htrap (by rw [hp]; rfl) hblock
    have hthread : (restored s.now n f (s.now.thread n).main).thread n = { s.now.thread n with
        inTrap := none, main := { (s.now.thread n).main with mic := f.mic } } := by
      rw [restored_thread, hp]
      rfl
    have hat : (restored s.now n f (s.now.thread n).main).atTrapPoint n = true := by
      unfold Dev.atTrapPoint
      rw [hthread]
      exact hpoint
    rw [nextTrap_snapshot (by rw [restored_traps, htraps]) (by rw [hthread, hbranches]) hat] at hop
    refine ⟨s.onNow (tretOp n), by rfl, ?_⟩
    simp only [State.onNow, hop, takeSnapshot_thread, hthread, htraps]
    exact ⟨trivial, trivial, by decide, (takeSnapshot_hub ..).trans rfl, by simp [restored]⟩
  case masked =>
    exact congrArg (fun d => Host.Outcome.next { s with now := d })
      ((datapathOp_masked hactive hended htrap).trans (pendTrap_of_not_mem hmem))
  case datapath =>
    obtain ⟨hmic, hgens, hchk, hv, hcursor⟩ := rollback_running hlast hpoint hrun
    refine ⟨s.onNow (datapathOp (own n)), by rfl, ?_⟩
    simp only [State.onNow, datapathOp_taken (x := own n) rfl hactive hended hfree, takeDatapath_own_thread,
      takeDatapath_own_bit, hmic]
    exact ⟨trivial, trivial, hgens, hchk, hv, hcursor, trivial, by simp⟩
  case path =>
    obtain ⟨-, -, hrd, hbit⟩ := faultOf_leaves s.now n 2 0
    obtain ⟨hmic, hgens, hflags⟩ := faulted_leaves hpoint (inPath n i)
    obtain ⟨count, hframe⟩ := pathFrame_faulted (n := n) (i := i) hpoint
    refine ⟨s.onNow (datapathOp (inPath n i)), pathTrapped s.now n i c, by rfl, ?_⟩
    simp only [State.onNow, datapathOp_taken (x := inPath n i) hctx hactive hended hfree, takeDatapath_inPath,
      afterPathTrap_thread, setCtx_inTrap, setCtx_trapCount]
    refine ⟨Thread.ctx_setCtx ((ctx_entering ..).trans (Thread.ctx_setCtx hctx)), ?_, hmic, hgens, ?_, ?_,
      ⟨_, count, ?_, hframe⟩, ?_, by simp [afterPathTrap, faultOf]⟩
    · rw [← hmic]
      rfl
    · exact setCtx_trapCount ..
    · rw [afterPathTrap_rd, hrd _ (threadKey_ne_easelFlags n _ (by decide))]
    · simp only [pathTrapped, hflags, List.append_assoc, List.singleton_append]
    · unfold Dev.bit at hbit ⊢
      rw [afterPathTrap_rd, hbit]
  case uncorrectable =>
    refine ⟨s.onNow (csUncorrectableOp (own n)), by rfl, ?_⟩
    simp only [State.onNow, csUncorrectableOp_taken hactive hended hfree hblock, takeCs_own_thread, takeCs_own_bit]
    exact ⟨trivial, trivial, trivial, trivial, by simp⟩
  case released =>
    refine doesCtx_of_dispatch (f := csRestoreCompleteOp x true) (by rfl) ?_
    unfold csRestoreCompleteOp
    simp only [hctx, hblock, if_true]
  case watchdog =>
    obtain ⟨hend, hbit⟩ := programFault_ends s.now n 4
    refine ⟨s.onNow (watchdogOp n), by rfl, ?_⟩
    simp only [State.onNow, watchdogOp_pending hactive hended hfree htraps]
    exact ⟨hend, hbit, by simp⟩
  case overrun =>
    have hthread : (s.now.flag (unitKey 0x400007 n) 5).thread n = s.now.thread n := thread_congr (Dev.flag_eas ..) n
    have hpoint : (s.now.flag (unitKey 0x400007 n) 5).atTrapPoint n = s.now.atTrapPoint n := by
      simp only [Dev.atTrapPoint, hthread, Dev.atPoint, Dev.storeWord, Dev.flag_eas]
    refine ⟨s.onNow (overrunOp n), by rfl, ?_⟩
    simp only [State.onNow, overrunOp_late hjob hactive hended hphase hlate]
    refine ⟨?_, by simp, fun hno => ?_, fun hyes => ?_⟩
    · rw [Dev.bit_congr ((spoilThread_objs ..).trans (drainTrap_objs ..)), Dev.bit_flag_self]
    · rw [spoilThread_thread, drainTrap_drains (by rw [hthread, hactive]) (by rw [hthread, hended]) (by rw [hthread, hfree])
        (by rw [hthread, hpoint, hno]), thread_drainThread, thread_endCanvas]
    · rw [spoilThread_thread, drainTrap_waits (by rw [hthread, hactive]) (by rw [hthread, hended])
        (by rw [hthread, hpoint, hyes]), Dev.thread_setThread_self, hthread]
      refine ⟨hended, ?_⟩
      dsimp only
      split
      next hmem => simpa using hmem
      next => exact List.mem_cons_self

end Sys2Proof.Machine
end

section
/-! Launches (R116 to R119, R164 to R167, R203, R261): an entry leaves its queue, and what a stroke's start leaves as it was. -/

namespace Sys2Proof.Machine

/-! ### The due entry -/

/-- The earlier of two entries, by tick and then in program order. -/
theorem foldl_pick_mem {l : List LEntry} {p : LEntry → LEntry → Prop} [DecidableRel p] {b : Option LEntry} {e : LEntry}
    (h : l.foldl (fun b e => match b with
      | none => some e
      | some a => if p e a then some e else some a) b = some e) : b = some e ∨ e ∈ l := by
  induction l generalizing b with
  | nil => exact .inl h
  | cons x l ih =>
    obtain h' | h' := ih h
    · cases b with
      | none => exact .inr (Option.some.inj h' ▸ List.mem_cons_self)
      | some a =>
        simp only at h'
        split at h'
        · exact .inr (Option.some.inj h' ▸ List.mem_cons_self)
        · exact .inl h'
    · exact .inr (List.mem_cons_of_mem _ h')

section
variable {s : State} {d : Dev} {n : Nat} {k : LKind} {e : LEntry}

/-- An entry that launches is in the queue and lies in no path. -/
theorem dueEntry_path (h : (d.thread n).dueEntry k d.epoch = some e) : e.path = none := by
  unfold Thread.dueEntry at h
  obtain h' | h' := foldl_pick_mem (p := fun e a => e.tick < a.tick ∨ (e.tick = a.tick ∧ e.ord < a.ord)) h
  · exact absurd h' (by simp)
  · simp only [List.mem_filter, Bool.and_eq_true, Option.isNone_iff_eq_none] at h'
    exact h'.2.1.2

/-- The device without an entry of a thread's launch queue. -/
def unqueued (d : Dev) (n : Nat) (e : LEntry) : Dev :=
  d.setThread n { d.thread n with launch := (d.thread n).launch.filter (· != e) }

theorem launchEntry_due {f : Dev → LEntry → Dev} (h : EntryDue d n k e) : d.launchEntry n k f = f (unqueued d n e) e := by
  obtain ⟨hdue, hlate⟩ := h
  unfold Dev.launchEntry
  simp only [hdue, hlate, Bool.false_eq_true, if_false]
  rfl

theorem unqueued_leaves (d : Dev) (n : Nat) (e : LEntry) : (unqueued d n e).hub = d.hub ∧ (unqueued d n e).out = d.out ∧
    (unqueued d n e).objs = d.objs ∧ (unqueued d n e).rx = d.rx ∧ (unqueued d n e).epoch = d.epoch ∧
    (unqueued d n e).eas.desc = d.eas.desc ∧ (unqueued d n e).ddr = d.ddr :=
  ⟨rfl, rfl, rfl, rfl, rfl, rfl, Dev.setThread_ddr ..⟩

theorem unqueued_thread (d : Dev) (n : Nat) (e : LEntry) : (unqueued d n e).thread n =
    { d.thread n with launch := (d.thread n).launch.filter (· != e) } := Dev.thread_setThread_self ..

theorem unqueued_thread_other {m : Nat} (hm : m ≠ n) : (unqueued d n e).thread m = d.thread m :=
  Dev.thread_setThread_other _ _ _ _ hm

/-- A launch that leaves the threads as the queue's change left them. -/
theorem launched_of {f : Dev → Dev} (heas : (f s.now).eas = (unqueued s.now n e).eas) (hddr : (f s.now).ddr = s.now.ddr) :
    Launched s (s.onNow f) n e := by
  refine ⟨?_, ?_, fun m hm => ?_, hddr⟩
  · rw [State.onNow, thread_congr heas, unqueued_thread]
  · rw [State.onNow, thread_congr heas, unqueued_thread]
  · rw [State.onNow, thread_congr heas, unqueued_thread_other hm]

/-! ### What does not depend on the launch queue -/

theorem jobOfThread_congr {d' : Dev} (hhub : d'.hub = d.hub) (n : Nat) : d'.jobOfThread n = d.jobOfThread n := by
  simp only [Dev.jobOfThread, Dev.resident, hhub]

theorem targetOf_congr {d' : Dev} (hhub : d'.hub = d.hub) (n tgt : Nat) : d'.targetOf n tgt = d.targetOf n tgt := by
  simp only [Dev.targetOf, Dev.placeOf, jobOfThread_congr hhub]

theorem chain_congr {d' : Dev} (hhub : d'.hub = d.hub) (hdesc : d'.eas.desc = d.eas.desc) (n a start : Nat) :
    d'.chain n a start = d.chain n a start := by
  have hregion : d'.inRegion n 1 = d.inRegion n 1 := by
    funext b
    simp only [Dev.inRegion, jobOfThread_congr hhub]
  simp only [Dev.chain, hregion, hdesc]

theorem stroke_congr {d' : Dev} (h : d'.out.strokes = d.out.strokes) (t : Target) : d'.stroke t = d.stroke t := by
  unfold Dev.stroke; rw [h]

theorem entryStroke_congr {d' : Dev} (hhub : d'.hub = d.hub) (hdesc : d'.eas.desc = d.eas.desc) (n : Nat) (e : LEntry)
    (isRead : Bool) : d'.entryStroke n e isRead = d.entryStroke n e isRead := by
  simp only [Dev.entryStroke, chain_congr hhub hdesc, jobOfThread_congr hhub]

/-! ### Spoiling a shot -/

/-- Spoiling changes jobs alone. -/
theorem spoilThread_jobs (d : Dev) (n : Nat) : ∃ js, d.spoilThread n = { d with hub := { d.hub with jobs := js } } := by
  unfold Dev.spoilThread
  split
  · exact ⟨_, rfl⟩
  · exact ⟨d.hub.jobs, rfl⟩

@[simp] theorem spoilThread_eas (d : Dev) (n : Nat) : (d.spoilThread n).eas = d.eas := by
  obtain ⟨_, h⟩ := spoilThread_jobs d n; rw [h]
@[simp] theorem spoilThread_out (d : Dev) (n : Nat) : (d.spoilThread n).out = d.out := by
  obtain ⟨_, h⟩ := spoilThread_jobs d n; rw [h]
@[simp] theorem spoilThread_rx (d : Dev) (n : Nat) : (d.spoilThread n).rx = d.rx := by
  obtain ⟨_, h⟩ := spoilThread_jobs d n; rw [h]

/-! ### Streams' states and the offset check -/

/-- The states of streams are objects. -/
theorem streamState_objs (d : Dev) (k : Nat) : ∃ o, d.streamState k = { d with objs := o } := by
  unfold Dev.streamState
  split
  · exact ⟨d.objs, rfl⟩
  · exact ⟨_, rfl⟩

theorem streamStates_objs (d : Dev) (plays : List (Nat × Nat × Nat × Nat)) : ∃ o, d.streamStates plays = { d with objs := o } := by
  unfold Dev.streamStates
  generalize d.streamsOf plays = l
  induction l generalizing d with
  | nil => exact ⟨d.objs, rfl⟩
  | cons k l ih =>
    obtain ⟨o, ho⟩ := streamState_objs d k
    obtain ⟨o', ho'⟩ := ih (d.streamState k)
    exact ⟨o', by rw [List.foldl_cons, ho', ho]⟩

@[simp] theorem streamStates_eas (d : Dev) (p : List (Nat × Nat × Nat × Nat)) : (d.streamStates p).eas = d.eas := by
  obtain ⟨_, h⟩ := streamStates_objs d p; rw [h]
@[simp] theorem streamStates_out (d : Dev) (p : List (Nat × Nat × Nat × Nat)) : (d.streamStates p).out = d.out := by
  obtain ⟨_, h⟩ := streamStates_objs d p; rw [h]
@[simp] theorem streamStates_rx (d : Dev) (p : List (Nat × Nat × Nat × Nat)) : (d.streamStates p).rx = d.rx := by
  obtain ⟨_, h⟩ := streamStates_objs d p; rw [h]
@[simp] theorem streamStates_hub (d : Dev) (p : List (Nat × Nat × Nat × Nat)) : (d.streamStates p).hub = d.hub := by
  obtain ⟨_, h⟩ := streamStates_objs d p; rw [h]

/-- The offset check leaves threads, receive chains, strokes and frames. -/
theorem rangeCheck_leaves (d : Dev) (t : Target) (n i : Nat) : (d.rangeCheck t n i).eas = d.eas ∧
    (d.rangeCheck t n i).rx = d.rx ∧ (d.rangeCheck t n i).out.strokes = d.out.strokes ∧
    (d.rangeCheck t n i).out.frames = d.out.frames := by
  unfold Dev.rangeCheck
  split
  · exact ⟨rfl, rfl, rfl, rfl⟩
  · dsimp only
    split
    · split
      · exact ⟨rfl, rfl, rfl, rfl⟩
      · simp
    · exact ⟨rfl, rfl, rfl, rfl⟩

theorem cutTail_leaves (d : Dev) (q : Option Stroke) (t : Nat) : (d.cutTail q t).eas = d.eas ∧ (d.cutTail q t).rx = d.rx ∧
    (d.cutTail q t).hub = d.hub ∧ (d.cutTail q t).out = d.out := by
  unfold Dev.cutTail
  split
  · split <;> simp
  · exact ⟨rfl, rfl, rfl, rfl⟩

/-! ### A stroke starts on a free target -/

theorem outplayed_free {t : Target} (hfree : d.stroke t = none) : d.outplayed t n e = false := by
  unfold Dev.outplayed
  rw [hfree]
  rfl

/-- Whether a stroke's first segment breaks the segment rule. -/
def breaksRule (d : Dev) (q : Stroke) : Bool :=
  match q.plays with
  | p :: _ => !keepsRule (tabGet 0 d.eas.desc p.2.1)
  | [] => false

/-- A stroke on its free target. -/
def placed (d : Dev) (t : Target) (e : LEntry) (q : Stroke) : Dev :=
  Dev.setStroke { d.cutTail (tabGet none d.out.tails (targetKey t)) e.tick with
    out := { d.out with tails := tabSet none d.out.tails (targetKey t) none } } t (some q)

/-- A stroke on its free target, with its flag and the states of its streams. -/
def sounding (d : Dev) (t : Target) (n : Nat) (e : LEntry) (q : Stroke) : Dev :=
  (if breaksRule (placed d t e q) q then (placed d t e q).flag (strokeFlags n) 0 else placed d t e q).streamStates q.plays

/-- The offset check of a tone on its target. -/
def checkRange (d : Dev) (t : Target) (n : Nat) (q : Stroke) : Dev :=
  match t with
  | .drive _ => d.rangeCheck t n (frameIdx n 0 q.frame)
  | .rtone _ => d.rangeCheck t n (frameIdx n 1 q.frame)
  | .flux _ => d

theorem sounding_leaves (d : Dev) (t : Target) (n : Nat) (e : LEntry) (q : Stroke) : (sounding d t n e q).eas = d.eas ∧
    (sounding d t n e q).rx = d.rx ∧ (sounding d t n e q).out.frames = d.out.frames ∧
    (sounding d t n e q).out.strokes = tabSet none d.out.strokes (targetKey t) (some q) := by
  obtain ⟨heas, hrx, -, -⟩ := cutTail_leaves d (tabGet none d.out.tails (targetKey t)) e.tick
  unfold sounding
  split <;> simp [placed, Dev.setStroke, heas, hrx]

theorem checkRange_leaves (d : Dev) (t : Target) (n : Nat) (q : Stroke) : (checkRange d t n q).eas = d.eas ∧
    (checkRange d t n q).rx = d.rx ∧ (checkRange d t n q).out.frames = d.out.frames ∧
    (checkRange d t n q).out.strokes = d.out.strokes := by
  cases t with
  | flux c => exact ⟨rfl, rfl, rfl, rfl⟩
  | drive i =>
    obtain ⟨h1, h2, h3, h4⟩ := rangeCheck_leaves d (.drive i) n (frameIdx n 0 q.frame)
    exact ⟨h1, h2, h4, h3⟩
  | rtone i =>
    obtain ⟨h1, h2, h3, h4⟩ := rangeCheck_leaves d (.rtone i) n (frameIdx n 1 q.frame)
    exact ⟨h1, h2, h4, h3⟩

theorem startStroke_eq {t : Target} (isRead : Bool) (hfree : d.stroke t = none) : d.startStroke t n e isRead =
    checkRange (sounding d t n e (d.entryStroke n e isRead)) t n (d.entryStroke n e isRead) := by
  obtain ⟨heas, -, hhub, hout⟩ := cutTail_leaves d (tabGet none d.out.tails (targetKey t)) e.tick
  have hentry : Dev.entryStroke { d.cutTail (tabGet none d.out.tails (targetKey t)) e.tick with
      out := { d.out with tails := tabSet none d.out.tails (targetKey t) none } } n e isRead = d.entryStroke n e isRead :=
    entryStroke_congr hhub (congrArg Easels.desc heas) n e isRead
  unfold Dev.startStroke
  simp only [outplayed_free hfree, hfree, hout, hentry, Bool.false_eq_true, if_false]
  rfl

/-- The start of a stroke on a free target puts the entry's stroke there; other strokes, threads, frames and receive chains
stand. -/
theorem startStroke_free {t : Target} (isRead : Bool) (hfree : d.stroke t = none) :
    (d.startStroke t n e isRead).eas = d.eas ∧ (d.startStroke t n e isRead).rx = d.rx ∧
    (d.startStroke t n e isRead).out.frames = d.out.frames ∧
    (d.startStroke t n e isRead).out.strokes = tabSet none d.out.strokes (targetKey t) (some (d.entryStroke n e isRead)) := by
  rw [startStroke_eq isRead hfree]
  obtain ⟨h1, h2, h3, h4⟩ := checkRange_leaves (sounding d t n e (d.entryStroke n e isRead)) t n (d.entryStroke n e isRead)
  obtain ⟨h1', h2', h3', h4'⟩ := sounding_leaves d t n e (d.entryStroke n e isRead)
  exact ⟨h1.trans h1', h2.trans h2', h3.trans h3', h4.trans h4'⟩

/-! ### STROKE_LAUNCH -/

theorem strokeLaunchOp_free {t : Target} (hdue : EntryDue d n .stroke e) (ht : d.targetOf n (fld e.w 35 32) = some t) :
    strokeLaunchOp n d = (unqueued d n e).startStroke t n e false := by
  unfold strokeLaunchOp
  rw [launchEntry_due hdue]
  simp only [targetOf_congr (unqueued_leaves d n e).1, ht]

theorem stroke_of_tabSet {d' : Dev} {t u : Target} {q : Option Stroke}
    (h : d'.out.strokes = tabSet none d.out.strokes (targetKey t) q) : d'.stroke t = q ∧
      (targetKey u ≠ targetKey t → d'.stroke u = d.stroke u) := by
  unfold Dev.stroke
  rw [h]
  exact ⟨tabGet_set_self .., fun hu => tabGet_set_other _ _ _ _ _ _ hu⟩

/-! ### READ_LAUNCH -/

/-- A receive frame's change leaves the windows, the frame in use, threads and strokes. -/
theorem receiveChange_leaves (d : Dev) (slot x : Nat) (f : Frame) : (d.receiveChange slot x f).eas = d.eas ∧
    (d.receiveChange slot x f).out = d.out ∧ ((d.receiveChange slot x f).slotRx slot).wins = (d.slotRx slot).wins := by
  unfold Dev.receiveChange
  dsimp only
  split
  · exact ⟨rfl, rfl, rfl⟩
  · split
    · exact ⟨rfl, rfl, by simp [Dev.slotRx, Dev.setSlotRx]⟩
    · exact ⟨rfl, rfl, by simp [Dev.slotRx, Dev.setSlotRx, Dev.markSlot]⟩

/-- The device after the tone of a READ has started and its frame is the receive frame. -/
def toned (d : Dev) (n : Nat) (e : LEntry) (slot : Nat) : Dev :=
  ((unqueued d n e).startStroke (.rtone slot) n e true).receiveChange slot
    (32 * e.tick + ((unqueued d n e).startStroke (.rtone slot) n e true).lineAlign (slot / 16))
    (((unqueued d n e).startStroke (.rtone slot) n e true).frame (frameIdx n 1 (fld e.w 97 96)))

/-- The window of a READ. -/
def readWin (d : Dev) (n : Nat) (e : LEntry) (slot : Nat) (j : Job) : Win :=
  { n := n, launch := e.tick, job := j.seq, shot := j.shot, ksel := fld e.w 101 98, dtag := fld e.w 109 102
    seq := tabGet 0 ((toned d n e slot).thread n).reads (fld e.w 109 102) % 16, taps := (toned d n e slot).slotTaps slot
    first := firstLabel ((toned d n e slot).slotTaps slot) (32 * (e.tick + (toned d n e slot).rd (unitKey 0x300044
      (((unqueued d n e).startStroke (.rtone slot) n e true).slotQubit slot))) +
        ((unqueued d n e).startStroke (.rtone slot) n e true).lineAlign (slot / 16))
    count := ceilDiv (fld e.w 95 80) 2, cut := (unqueued d n e).outplayed (.rtone slot) n e }

theorem readLaunchOp_eq {slot : Nat} {j : Job} (hdue : EntryDue d n .read e) (ht : d.targetOf n 1 = some (.rtone slot))
    (hjob : d.jobOfThread n = some j) : readLaunchOp n d =
      (((toned d n e slot).setSlotRx slot { (toned d n e slot).slotRx slot with
          frame := fld e.w 97 96, wins := ((toned d n e slot).slotRx slot).wins ++ [readWin d n e slot j] }).setThread n
        { (toned d n e slot).thread n with
          reads := tabSet 0 ((toned d n e slot).thread n).reads (fld e.w 109 102)
            (tabGet 0 ((toned d n e slot).thread n).reads (fld e.w 109 102) + 1) }).modJob j.seq
        fun j => { j with windows := j.windows + 1 } := by
  have hhub := (unqueued_leaves d n e).1
  unfold readLaunchOp
  rw [launchEntry_due hdue]
  simp only [targetOf_congr hhub, ht, jobOfThread_congr hhub, hjob]
  rfl

theorem toned_leaves {slot : Nat} (hfree : d.stroke (.rtone slot) = none) : (toned d n e slot).eas = (unqueued d n e).eas ∧
    (toned d n e slot).stroke (.rtone slot) = some (d.entryStroke n e true) ∧
    ((toned d n e slot).slotRx slot).wins = (d.slotRx slot).wins := by
  have hfree' : (unqueued d n e).stroke (.rtone slot) = none := hfree
  obtain ⟨heas, hrx, -, hstrokes⟩ := startStroke_free (d := unqueued d n e) (n := n) (e := e) true hfree'
  obtain ⟨heas', hout, hwins⟩ := receiveChange_leaves ((unqueued d n e).startStroke (.rtone slot) n e true) slot
    (32 * e.tick + ((unqueued d n e).startStroke (.rtone slot) n e true).lineAlign (slot / 16))
    (((unqueued d n e).startStroke (.rtone slot) n e true).frame (frameIdx n 1 (fld e.w 97 96)))
  have hentry : (unqueued d n e).entryStroke n e true = d.entryStroke n e true := entryStroke_congr (by rfl) (by rfl) ..
  refine ⟨heas'.trans heas, ?_, hwins.trans ?_⟩
  · refine (stroke_congr (congrArg _ hout) _).trans ?_
    rw [(stroke_of_tabSet (u := .rtone slot) hstrokes).1, hentry]
  · unfold Dev.slotRx
    rw [hrx]
    rfl

end

/-- Settles O30: the stroke and the window are those of the entry. -/
theorem strokeAndReadLaunch : Obligations.StrokeAndReadLaunch := by
  unfold Obligations.StrokeAndReadLaunch
  intro s n e
  refine ⟨fun tgt hdue ht hfree => ?stroke, fun slot j hdue ht hjob hfree => ?read⟩
  case stroke =>
    have hop := strokeLaunchOp_free hdue ht
    obtain ⟨heas, -, -, hstrokes⟩ := startStroke_free (d := unqueued s.now n e) (n := n) (e := e) (t := tgt) false hfree
    have hentry : (unqueued s.now n e).entryStroke n e false = s.now.entryStroke n e false := entryStroke_congr (by rfl) (by rfl) ..
    rw [hentry, ← hop] at hstrokes
    refine ⟨s.onNow (strokeLaunchOp n), s.now.entryStroke n e false, by rfl,
      launched_of (by rw [hop, heas]) (by simp), (stroke_of_tabSet (u := tgt) hstrokes).1, rfl, rfl, rfl, rfl, rfl, rfl, rfl, rfl,
      rfl, fun u _ hu => (stroke_of_tabSet hstrokes).2 hu⟩
  case read =>
    obtain ⟨heas, hstroke, hwins⟩ := toned_leaves (n := n) (e := e) hfree
    have hthread : (toned s.now n e slot).thread n = { s.now.thread n with
        launch := (s.now.thread n).launch.filter (· != e) } := (thread_congr heas n).trans (unqueued_thread ..)
    have hop := readLaunchOp_eq hdue ht hjob
    refine ⟨s.onNow (readLaunchOp n), s.now.entryStroke n e true, readWin s.now n e slot j, by rfl, ?_⟩
    simp only [State.onNow, hop, modJob_thread, Dev.thread_setThread_self]
    refine ⟨by simp only [hthread], ?_, rfl, rfl, rfl, ?_, rfl, rfl, rfl, rfl, rfl, rfl, rfl, ?_, rfl, ?_, ?_⟩
    · refine (stroke_congr ?_ _).trans hstroke
      simp only [Dev.modJob_out, Dev.setThread_out, Dev.setSlotRx_out]
    · simp only [Dev.slotRx, Dev.modJob_rx, Dev.setThread_rx, Dev.setSlotRx, tabGet_set_self]
      exact congrArg (· ++ _) hwins
    · simp only [readWin, hthread]
    · rw [tabGet_set_self, hthread]
    · simp [toned, unqueued]

end Sys2Proof.Machine
end

section
/-! The launches of holds, frames, markers, events and acquisition triggers (R105, R211, R232, R233, R331, R476). -/

namespace Sys2Proof.Machine

section
variable {s : State} {d : Dev} {n : Nat} {e : LEntry}

/-! ### FLUXHOLD -/

@[simp] theorem fluxSt_setFlux_self (d : Dev) (c : Nat) (f : FluxSt) : (d.setFlux c f).fluxSt c = f := tabGet_set_self ..

theorem fluxSt_setFlux_other {b c : Nat} (f : FluxSt) (h : b ≠ c) : (d.setFlux c f).fluxSt b = d.fluxSt b :=
  tabGet_set_other _ _ _ _ _ _ h

theorem fluxholdLaunchOp_flux {c : Nat} (hdue : EntryDue d n .fluxhold e)
    (ht : d.targetOf n (fld e.w 35 32) = some (.flux c)) :
    fluxholdLaunchOp n d = (unqueued d n e).setHold c (sext 16 (fld e.w 63 48)) := by
  unfold fluxholdLaunchOp
  rw [launchEntry_due hdue]
  simp only [targetOf_congr (unqueued_leaves d n e).1, ht]

theorem setHold_leaves (d : Dev) (c : Nat) (v : Int) : (d.setHold c v).eas = d.eas ∧ (d.setHold c v).ddr = d.ddr ∧
    (d.setHold c v).fluxSt c = { d.fluxSt c with hold := v } ∧ (d.setHold c v).rd (unitKey 0x340004 c) = toU 16 v ∧
    ∀ b, b ≠ c → (d.setHold c v).fluxSt b = d.fluxSt b :=
  ⟨rfl, by simp, fluxSt_setFlux_self .., Dev.rd_wr_self .., fun _ hb => fluxSt_setFlux_other _ hb⟩

/-! ### Frames -/

theorem frame_congr {d' : Dev} (h : d'.out.frames = d.out.frames) (i : Nat) : d'.frame i = d.frame i := by
  unfold Dev.frame; rw [h]

@[simp] theorem frame_setFrame_self (d : Dev) (i : Nat) (f : Frame) : (d.setFrame i f).frame i = f := tabGet_set_self ..

theorem frame_setFrame_other {i j : Nat} (f : Frame) (h : j ≠ i) : (d.setFrame i f).frame j = d.frame j :=
  tabGet_set_other _ _ _ _ _ _ h

/-- The frame of a FRAME entry after its update. -/
def updated (d : Dev) (n : Nat) (e : LEntry) : Frame :=
  let v := frameUpdate e.w ((d.frame (frameIdx n (fld e.w 34 34) (fld e.w 33 32))).freq,
    (d.frame (frameIdx n (fld e.w 34 34) (fld e.w 33 32))).vph)
  { freq := v.1, vph := v.2 }

/-- The device with a thread's frame update. -/
def retuned (d : Dev) (n : Nat) (e : LEntry) : Dev :=
  (unqueued d n e).setFrame (frameIdx n (fld e.w 34 34) (fld e.w 33 32)) (updated d n e)

/-- The offset check of a frame `i` whose stroke plays on a target. -/
def offsetChecked (d : Dev) (t : Target) (n f i : Nat) : Dev :=
  match d.stroke t with
  | some q => if q.frame = f ∧ q.n = n ∧ d.epoch < q.endTick then d.rangeCheck t n i else d
  | none => d

/-- The receive side follows a frame `i` in use. -/
def receiving (d : Dev) (t : Target) (f i tick : Nat) : Dev :=
  match t with
  | .rtone slot =>
    if (d.slotRx slot).frame = f then d.receiveChange slot (32 * tick + d.lineAlign (slot / 16)) (d.frame i) else d
  | _ => d

theorem offsetChecked_leaves (d : Dev) (t : Target) (n f i : Nat) : (offsetChecked d t n f i).eas = d.eas ∧
    (offsetChecked d t n f i).out.frames = d.out.frames := by
  obtain ⟨heas, -, -, hframes⟩ := rangeCheck_leaves d t n i
  unfold offsetChecked
  split
  · split
    · exact ⟨heas, hframes⟩
    · exact ⟨rfl, rfl⟩
  · exact ⟨rfl, rfl⟩

theorem receiving_leaves (d : Dev) (t : Target) (f i tick : Nat) : (receiving d t f i tick).eas = d.eas ∧
    (receiving d t f i tick).out = d.out := by
  unfold receiving
  split
  · split
    · obtain ⟨heas, hout, -⟩ := receiveChange_leaves d _ _ _
      exact ⟨heas, hout⟩
    · exact ⟨rfl, rfl⟩
  · exact ⟨rfl, rfl⟩

/-- Beyond the update, FRAME_LAUNCH leaves threads and frames. -/
theorem frameLaunchOp_leaves (hdue : EntryDue d n .frame e) : (frameLaunchOp n d).eas = (unqueued d n e).eas ∧
    (frameLaunchOp n d).out.frames = (retuned d n e).out.frames := by
  have hop : frameLaunchOp n d = match (retuned d n e).targetOf n (fld e.w 34 34) with
    | none => retuned d n e
    | some t => receiving (offsetChecked (retuned d n e) t n (fld e.w 33 32) (frameIdx n (fld e.w 34 34) (fld e.w 33 32))) t
        (fld e.w 33 32) (frameIdx n (fld e.w 34 34) (fld e.w 33 32)) e.tick := by
    unfold frameLaunchOp
    rw [launchEntry_due hdue]
    rfl
  have hret : (retuned d n e).eas = (unqueued d n e).eas := rfl
  rw [hop, ← hret]
  split
  · exact ⟨rfl, rfl⟩
  next t _ =>
    obtain ⟨heas, hframes⟩ := offsetChecked_leaves (retuned d n e) t n (fld e.w 33 32)
      (frameIdx n (fld e.w 34 34) (fld e.w 33 32))
    obtain ⟨heas', hout⟩ := receiving_leaves _ t (fld e.w 33 32) (frameIdx n (fld e.w 34 34) (fld e.w 33 32)) e.tick
    exact ⟨heas'.trans heas, (congrArg _ hout).trans hframes⟩

/-! ### Markers -/

theorem marker_congr {d' : Dev} (h : d'.out.markers = d.out.markers) (m : Nat) : d'.marker m = d.marker m := by
  unfold Dev.marker; rw [h]

@[simp] theorem marker_setMarker_self (d : Dev) (m : Nat) (k : Marker) : (d.setMarker m k).marker m = k := tabGet_set_self ..

theorem marker_setMarker_other {m b : Nat} (k : Marker) (h : b ≠ m) : (d.setMarker m k).marker b = d.marker b :=
  tabGet_set_other _ _ _ _ _ _ h

theorem markLaunchOp_eq (hdue : EntryDue d n .mark e) : markLaunchOp n d =
    if (d.marker (markPin n e.w)).changes.any fun c => c.n == n && c.ord == e.ord then
      (unqueued d n e).setMarker (markPin n e.w) { d.marker (markPin n e.w) with
        changes := (d.marker (markPin n e.w)).changes.map fun c =>
          if c.n = n ∧ c.ord = e.ord then d.markChange n e else c }
    else if d.marksFull n e.w then
      ((unqueued d n e).flag (objKey (0x3A00 + markPin n e.w) 0x0C) 2).spoilThread n
    else (unqueued d n e).addMark n e := by
  unfold markLaunchOp
  rw [launchEntry_due hdue]
  rfl

/-- No change in the scheduler is the one that the entry's path had scheduled. -/
theorem markScheduled_false {l : List MChange} {o : Nat} (h : ∀ c ∈ l, c.n = n → c.ord ≠ o) :
    (l.any fun c => c.n == n && c.ord == o) = false := by
  simp only [List.any_eq_false, Bool.and_eq_true, beq_iff_eq, not_and]
  exact fun c hc hn => h c hc hn

/-! ### Events and acquisition triggers -/

theorem produce_enabled {k : Nat} (hen : d.rdB (objKey (0x7000 + k) 5) = true) (hawake : d.state ≠ .asleep) :
    d.produce k = { d with ev := { d.ev with causes := d.ev.causes ++ [{ line := k, tick := d.epoch }] } } := by
  unfold Dev.produce
  simp [hen, hawake]

theorem acqSt_addCond_other {b c : Nat} (bit tick : Nat) (h : b ≠ c) : (d.addCond c bit tick).acqSt b = d.acqSt b := by
  unfold Dev.addCond
  dsimp only
  split
  · exact tabGet_set_other _ _ _ _ _ _ h
  · rfl

theorem addCond_leaves (d : Dev) (c bit tick : Nat) : (d.addCond c bit tick).objs = d.objs ∧
    (d.addCond c bit tick).eas = d.eas := by
  unfold Dev.addCond
  dsimp only
  split <;> exact ⟨rfl, rfl⟩

theorem acqSt_addCond_armed {c bit : Nat} (tick : Nat) (hen : d.bit (unitKey 0x51000A c) bit = true) (hst : d.acqState c = 1) :
    (d.addCond c bit tick).acqSt c = { d.acqSt c with conds := (d.acqSt c).conds ++ [(bit, tick)] } := by
  unfold Dev.addCond
  simp only [hen, hst]
  exact tabGet_set_self ..

/-- A condition met on a list of channels, each once. -/
theorem foldl_addCond {l : List Nat} (f : Nat → Nat) (hf : Function.Injective f) (bit tick : Nat) (hnodup : l.Nodup) (d : Dev) :
    (l.foldl (fun g i => g.addCond (f i) bit tick) d).objs = d.objs ∧
    (l.foldl (fun g i => g.addCond (f i) bit tick) d).eas = d.eas ∧
    (∀ i, i ∉ l → (l.foldl (fun g i => g.addCond (f i) bit tick) d).acqSt (f i) = d.acqSt (f i)) ∧
    (∀ i, i ∈ l → d.bit (unitKey 0x51000A (f i)) bit = true → d.acqState (f i) = 1 →
      (l.foldl (fun g i => g.addCond (f i) bit tick) d).acqSt (f i) =
        { d.acqSt (f i) with conds := (d.acqSt (f i)).conds ++ [(bit, tick)] }) := by
  induction l generalizing d with
  | nil => exact ⟨rfl, rfl, fun _ _ => rfl, fun i hi => absurd hi List.not_mem_nil⟩
  | cons a l ih =>
    obtain ⟨ha, hl⟩ := List.nodup_cons.mp hnodup
    obtain ⟨hobjs, heas⟩ := addCond_leaves d (f a) bit tick
    obtain ⟨hobjs', heas', hout, hin⟩ := ih hl (d.addCond (f a) bit tick)
    simp only [List.foldl_cons]
    refine ⟨hobjs'.trans hobjs, heas'.trans heas, fun i hi => ?_, fun i hi hen hst => ?_⟩
    · obtain ⟨hne, hnot⟩ := not_or.mp (mt List.mem_cons.mpr hi)
      rw [hout i hnot, acqSt_addCond_other _ _ fun h => hne (hf h)]
    · obtain rfl | hi := List.mem_cons.mp hi
      · rw [hout i ha, acqSt_addCond_armed tick hen hst]
      · have hne : f i ≠ f a := fun h => ha (hf h ▸ hi)
        rw [hin i hi (by rwa [Dev.bit_congr hobjs]) ((Dev.rd_congr hobjs _).trans hst), acqSt_addCond_other _ _ hne]

theorem acqtrigLaunchOp_eq (hdue : EntryDue d n .acqtrig e) : acqtrigLaunchOp n d =
    (List.range 16).foldl (fun g i => g.addCond (16 * tileOf n + i) (fld e.w 34 32) (e.tick + 18)) (unqueued d n e) := by
  unfold acqtrigLaunchOp
  rw [launchEntry_due hdue]

theorem eventLaunchOp_eq (hdue : EntryDue d n .event e) :
    eventLaunchOp n d = (unqueued d n e).produce (canvasLine n (fld e.w 35 32)) := by
  unfold eventLaunchOp
  rw [launchEntry_due hdue]

end

/-- Settles O31: each launch changes what its kind names. -/
theorem otherLaunches : Obligations.OtherLaunches := by
  unfold Obligations.OtherLaunches
  intro s n e
  refine ⟨fun c hdue ht => ?hold, fun hdue => ?frame, fun m hdue hm => ?mark, fun hdue hen hawake => ?event,
    fun c hdue htile hen hst => ?acqtrig⟩
  case hold =>
    have hop := fluxholdLaunchOp_flux hdue ht
    obtain ⟨heas, -, hst, hrd, hother⟩ := setHold_leaves (unqueued s.now n e) c (sext 16 (fld e.w 63 48))
    refine ⟨s.onNow (fluxholdLaunchOp n), by rfl, launched_of (by rw [hop, heas]) (by simp), ?_⟩
    simp only [State.onNow, hop, hst, hrd]
    exact ⟨trivial, trivial, rfl, fun b hb => hother b hb⟩
  case frame =>
    obtain ⟨heas, hframes⟩ := frameLaunchOp_leaves hdue
    have hother : ∀ i, i ≠ frameIdx n (fld e.w 34 34) (fld e.w 33 32) → (frameLaunchOp n s.now).frame i = s.now.frame i :=
      fun i hi => (frame_congr hframes i).trans (frame_setFrame_other _ hi)
    have hself : (frameLaunchOp n s.now).frame (frameIdx n (fld e.w 34 34) (fld e.w 33 32)) = updated s.now n e :=
      (frame_congr hframes _).trans (frame_setFrame_self ..)
    refine ⟨s.onNow (frameLaunchOp n), by rfl, launched_of heas (by simp), hother, ?_⟩
    simp only [State.onNow, hself, updated]
    refine ⟨fun ho => ?_, fun ho => ?_, fun ho => ?_⟩
    all_goals simp only [frameUpdate, ho, and_self]
  case mark =>
    obtain rfl : m = markPin n e.w := hm
    have hop := markLaunchOp_eq hdue
    refine ⟨fun hnew hroom => ?fits, fun hthere => ?stands, fun hnew hfull => ?dropped⟩
    case fits =>
      rw [markScheduled_false hnew, if_neg (by simp), if_neg (by simpa [Dev.marksFull] using hroom)] at hop
      refine ⟨s.onNow (markLaunchOp n), s.now.markChange n e, by rfl, launched_of (by rw [hop]; rfl) (by simp), ?_⟩
      simp only [State.onNow, hop]
      refine ⟨congrArg Marker.changes (marker_setMarker_self ..), rfl, rfl, rfl, dueEntry_path hdue.1, ?_⟩
      simp [Dev.markChange]
    case stands =>
      rw [if_pos (by simpa using hthere)] at hop
      refine ⟨s.onNow (markLaunchOp n), by rfl, launched_of (by rw [hop]; rfl) (by simp), ?_⟩
      simp only [State.onNow, hop, marker_setMarker_self]
    case dropped =>
      rw [markScheduled_false hnew, if_neg (by simp), if_pos (by simpa [Dev.marksFull] using hfull)] at hop
      refine ⟨s.onNow (markLaunchOp n), by rfl, launched_of (by rw [hop]; simp) (by simp), ?_⟩
      simp only [State.onNow, hop]
      refine ⟨congrArg Marker.changes (marker_congr ?_ _), ?_⟩
      · rw [spoilThread_out, Dev.flag_out]
        rfl
      · rw [Dev.bit_congr (spoilThread_objs ..), Dev.bit_flag_self]
  case event =>
    have hop := (eventLaunchOp_eq hdue).trans (produce_enabled (d := unqueued s.now n e) hen hawake)
    refine ⟨s.onNow (eventLaunchOp n), by rfl, launched_of (by rw [hop]) (by simp), ?_⟩
    simp only [State.onNow, hop]
    rfl
  case acqtrig =>
    have hop := acqtrigLaunchOp_eq hdue
    obtain ⟨-, heas, -, hin⟩ := foldl_addCond (fun i => 16 * tileOf n + i) (fun a b h => by simpa using h) (fld e.w 34 32)
      (e.tick + 18) List.nodup_range (unqueued s.now n e)
    have hc : 16 * tileOf n + c % 16 = c := by omega
    have hcond := hin (c % 16) (List.mem_range.mpr (Nat.mod_lt _ (by decide))) (by rw [hc]; exact hen) (by rw [hc]; exact hst)
    simp only [hc] at hcond
    refine ⟨s.onNow (acqtrigLaunchOp n), by rfl, launched_of (by rw [hop, heas]) (by simp), ?_⟩
    simp only [State.onNow, hop, hcond]
    rfl

end Sys2Proof.Machine
end

section
/-! Strokes that go on (R164, R168 to R171), marker edges (R233 to R237) and streams (R183 to R192, R224). -/

namespace Sys2Proof.Machine

section
variable {s : State} {d : Dev} {n : Nat} {e : LEntry} {t : Target} {q : Stroke}

theorem stroke_setStroke_self (d : Dev) (t : Target) (q : Option Stroke) : (d.setStroke t q).stroke t = q := tabGet_set_self ..

theorem stroke_setStroke_other {u : Target} (q : Option Stroke) (h : targetKey u ≠ targetKey t) :
    (d.setStroke t q).stroke u = d.stroke u := tabGet_set_other _ _ _ _ _ _ h

@[simp] theorem stroke_streamStates (d : Dev) (p : List (Nat × Nat × Nat × Nat)) (u : Target) :
    (d.streamStates p).stroke u = d.stroke u := stroke_congr (by simp) u

@[simp] theorem stroke_flag (d : Dev) (k b : Nat) (u : Target) : (d.flag k b).stroke u = d.stroke u := stroke_congr (by simp) u

/-! ### Segment jumps -/

theorem segjumpLaunchOp_latched {b : Nat} (hdue : EntryDue d n .segjump e) (ht : d.targetOf n (fld e.w 35 32) = some t)
    (hstroke : d.stroke t = some q) (hn : q.n = n) (hlive : e.tick < q.endTick)
    (hb : q.nextBoundary (e.tick + 12) = some b) (hjump : q.jump = none) :
    segjumpLaunchOp n d = (unqueued d n e).setStroke t
      (some { q with jump := some { daddr := fld e.w 63 42, at_ := e.tick, boundary := b } }) := by
  have hstroke' : (unqueued d n e).stroke t = some q := hstroke
  have hplays : ¬(q.n ≠ n ∨ q.endTick ≤ e.tick) := by omega
  unfold segjumpLaunchOp
  rw [launchEntry_due hdue]
  simp only [targetOf_congr (unqueued_leaves d n e).1, ht, hstroke', if_neg hplays, hb, hjump, Option.isSome_none,
    Bool.false_eq_true, if_false]

theorem segjumpLaunchOp_late (hdue : EntryDue d n .segjump e) (ht : d.targetOf n (fld e.w 35 32) = some t)
    (hstroke : d.stroke t = some q) (hlate : q.endTick ≤ e.tick) :
    segjumpLaunchOp n d = (unqueued d n e).flag (strokeFlags n) 4 := by
  have hstroke' : (unqueued d n e).stroke t = some q := hstroke
  unfold segjumpLaunchOp
  rw [launchEntry_due hdue]
  simp only [targetOf_congr (unqueued_leaves d n e).1, ht, hstroke', if_pos (Or.inr hlate)]

theorem afterJump_jump {j : Jump} (hjump : q.jump = some j) : (d.afterJump q).jump = none ∧
    (d.afterJump q).endTick = (d.chain q.n j.daddr j.boundary).2 ∧ (d.afterJump q).start = q.start ∧
    (d.afterJump q).amp = q.amp := by
  unfold Dev.afterJump
  simp only [hjump]
  exact ⟨trivial, trivial, trivial, trivial⟩

theorem jumpEffectOp_due {j : Jump} (hstroke : d.stroke t = some q) (hjump : q.jump = some j) (hdue : j.boundary ≤ d.epoch) :
    (jumpEffectOp t d).stroke t = some (d.afterJump q) ∧ (jumpEffectOp t d).eas = d.eas := by
  unfold jumpEffectOp
  simp only [hstroke, hjump, if_neg (Nat.not_lt.mpr hdue)]
  split
  all_goals
    split <;> simp [stroke_setStroke_self]

theorem strokeEndOp_over (hstroke : d.stroke t = some q) (hjump : q.jump = none) (hend : q.endTick ≤ d.epoch) :
    (strokeEndOp t d).stroke t = none ∧ (∀ u, targetKey u ≠ targetKey t → (strokeEndOp t d).stroke u = d.stroke u) ∧
      (strokeEndOp t d).eas = d.eas := by
  unfold strokeEndOp
  simp only [hstroke, hjump, hend, Option.isNone_none, and_self, if_true]
  split
  · exact ⟨(stroke_streamStates ..).trans (stroke_setStroke_self ..),
      fun u hu => (stroke_streamStates ..).trans (stroke_setStroke_other _ hu), streamStates_eas ..⟩
  · refine ⟨(stroke_streamStates ..).trans ?_, fun u hu => (stroke_streamStates ..).trans ?_, streamStates_eas ..⟩
    · exact (stroke_congr (d := d.setStroke t none) (by rfl) t).trans (stroke_setStroke_self ..)
    · exact (stroke_congr (d := d.setStroke t none) (by rfl) u).trans (stroke_setStroke_other _ hu)

end

/-- Settles O32: jumps latch, take effect, or come late, and a stroke past its end goes. -/
theorem strokesGoOn : Obligations.StrokesGoOn := by
  unfold Obligations.StrokesGoOn
  intro s n e t q hstroke
  refine ⟨fun b hdue ht hn hlive hb hjump => ?latched, fun hdue ht hlate => ?late, fun j hjump hdue => ?effect,
    fun hjump hend => ?ended⟩
  case latched =>
    have hop := segjumpLaunchOp_latched hdue ht hstroke hn hlive hb hjump
    refine ⟨s.onNow (segjumpLaunchOp n), by rfl, launched_of (by rw [hop, Dev.setStroke_eas]) (by simp), ?_⟩
    simp only [State.onNow, hop, stroke_setStroke_self]
  case late =>
    have hop := segjumpLaunchOp_late hdue ht hstroke hlate
    refine ⟨s.onNow (segjumpLaunchOp n), by rfl, launched_of (by rw [hop, Dev.flag_eas]) (by simp), ?_⟩
    simp only [State.onNow, hop, stroke_flag, Dev.bit_flag_self]
    exact ⟨hstroke, trivial⟩
  case effect =>
    obtain ⟨hafter, heas⟩ := jumpEffectOp_due hstroke hjump hdue
    obtain ⟨hj, hend, hstart, hamp⟩ := afterJump_jump (d := s.now) hjump
    exact ⟨s.onNow (jumpEffectOp t), _, by rfl, hafter, hj, hend, hstart, hamp, heas, by simp [State.onNow]⟩
  case ended =>
    obtain ⟨hnone, hother, heas⟩ := strokeEndOp_over hstroke hjump hend
    exact ⟨s.onNow (strokeEndOp t), by rfl, hnone, hother, heas, by simp [State.onNow]⟩

/-! ### Marker edges -/

section
variable {s : State} {d : Dev} {m : Nat}

theorem movedEdges_none {last : Nat} (h : (d.marker m).moved = []) : d.movedEdges m last = d := by
  unfold Dev.movedEdges
  simp [h]

theorem Dev.rd_flagN_other (d : Dev) (key bit k j : Nat) (h : j ≠ key) : (d.flagN key bit k).rd j = d.rd j :=
  (Dev.rd_congr ((Dev.noteFlag_objs ..).trans (Dev.setFlag_objs ..)) j).trans (Dev.rd_wr_other _ _ _ _ h)

/-- The level's object is not the flags object of the marker. -/
theorem markerLevel_flagN (d : Dev) (m bit k : Nat) :
    (d.flagN (objKey (0x3A00 + m) 0x0C) bit k).markerLevel m = d.markerLevel m := by
  unfold Dev.markerLevel Dev.rdB
  rw [Dev.rd_flagN_other _ _ _ _ _ (by unfold objKey; omega)]

theorem markerEdge_moves {step : Nat} {level : Bool} (h : d.markerLevel m ≠ level) :
    (d.markerEdge m step level).markerLevel m = level ∧
    (d.markerEdge m step level).marker m = { d.marker m with lastEdge := some step } ∧
    (∀ b, b ≠ m → (d.markerEdge m step level).marker b = d.marker b) := by
  unfold Dev.markerEdge
  rw [if_neg h]
  refine ⟨?_, marker_setMarker_self .., fun b hb => marker_setMarker_other _ hb⟩
  unfold Dev.markerLevel Dev.rdB
  rw [Dev.rd_congr (Dev.setMarker_objs ..), Dev.rd_wr_self]
  cases level <;> rfl

theorem markerEdge_same {step : Nat} {level : Bool} (h : d.markerLevel m = level) : d.markerEdge m step level = d := if_pos h

theorem markerEdge_leaves (d : Dev) (m step : Nat) (level : Bool) : (d.markerEdge m step level).eas = d.eas ∧
    (d.markerEdge m step level).hub = d.hub := by
  unfold Dev.markerEdge
  split <;> exact ⟨rfl, rfl⟩

/-- How many other threads' changes came at the step of a change that is the only one scheduled. -/
def otherAgain (k : Marker) (c : MChange) : Nat :=
  match k.lastChange with
  | some p => if p.1 = c.step ∧ p.2 ≠ c.n then 1 else 0
  | none => 0

/-- The device as a single change's step has come, with the flag of another thread's change at that step. -/
def landing (d : Dev) (m : Nat) (c : MChange) : Dev :=
  if 0 + otherAgain (d.marker m) c = 0 then d else d.flagN (objKey (0x3A00 + m) 0x0C) 1 (0 + otherAgain (d.marker m) c)

/-- The marker after that change has left the scheduler. -/
def landed (k : Marker) (c : MChange) : Marker := { k with changes := [], moved := [], lastChange := some (c.step, c.n) }

theorem markerEdgeOp_single {c : MChange} (hone : (d.marker m).changes = [c]) (hpath : c.path = none)
    (hstep : c.step / 128 ≤ d.epoch) (hmoved : (d.marker m).moved = []) : markerEdgeOp m d =
      let d2 := (landing d m c).setMarker m (landed (d.marker m) c)
      if d2.markerLevel m = c.level then d2
      else match (d.marker m).lastEdge with
        | some l =>
          if c.step < l + 48 then
            (d2.setMarker m { landed (d.marker m) c with moved := [(l + 48, c.level)] }).flag (objKey (0x3A00 + m) 0x0C) 0
          else d2.markerEdge m c.step c.level
        | none => d2.markerEdge m c.step c.level := by
  unfold markerEdgeOp
  simp only [hone, hpath, List.filter_cons, List.filter_nil, Option.isNone_none, if_true, List.foldl_nil,
    if_neg (Nat.not_lt.mpr hstep), movedEdges_none hmoved, hmoved, List.nil_append]
  simp only [beq_self_eq_true, Bool.and_self, if_true, Bool.not_true, Bool.false_eq_true, if_false, List.headD_cons,
    List.foldl_cons, List.foldl_nil, ite_self, List.filter_cons, List.filter_nil, bne_self_eq_false, List.length_nil]
  rfl

theorem landing_leaves (d : Dev) (m : Nat) (c : MChange) : (landing d m c).out = d.out ∧ (landing d m c).eas = d.eas ∧
    (landing d m c).hub = d.hub ∧ (landing d m c).markerLevel m = d.markerLevel m := by
  unfold landing
  split
  · exact ⟨rfl, rfl, rfl, rfl⟩
  · exact ⟨Dev.flagN_out .., Dev.flagN_eas .., Dev.flagN_hub .., markerLevel_flagN ..⟩

/-- The device after a single change has left the scheduler. -/
def arrived (d : Dev) (m : Nat) (c : MChange) : Dev := (landing d m c).setMarker m (landed (d.marker m) c)

theorem arrived_leaves (d : Dev) (m : Nat) (c : MChange) : (arrived d m c).marker m = landed (d.marker m) c ∧
    (∀ b, b ≠ m → (arrived d m c).marker b = d.marker b) ∧ (arrived d m c).eas = d.eas ∧ (arrived d m c).hub = d.hub ∧
    (arrived d m c).markerLevel m = d.markerLevel m := by
  obtain ⟨hout, heas, hhub, hlevel⟩ := landing_leaves d m c
  refine ⟨marker_setMarker_self .., fun b hb => ?_, heas, hhub, hlevel⟩
  exact (marker_setMarker_other _ hb).trans (marker_congr (congrArg _ hout) b)

/-- An edge that comes too soon, and waits with its flag. -/
def delayed (d : Dev) (m : Nat) (c : MChange) (l : Nat) : Dev :=
  ((arrived d m c).setMarker m { landed (d.marker m) c with moved := [(l + 48, c.level)] }).flag (objKey (0x3A00 + m) 0x0C) 0

theorem delayed_leaves (d : Dev) (m : Nat) (c : MChange) (l : Nat) :
    (delayed d m c l).marker m = { landed (d.marker m) c with moved := [(l + 48, c.level)] } ∧
    (∀ b, b ≠ m → (delayed d m c l).marker b = d.marker b) ∧ (delayed d m c l).eas = d.eas ∧ (delayed d m c l).hub = d.hub ∧
    (delayed d m c l).markerLevel m = d.markerLevel m ∧ (delayed d m c l).bit (objKey (0x3A00 + m) 0x0C) 0 = true := by
  obtain ⟨-, hother, heas, hhub, hlevel⟩ := arrived_leaves d m c
  refine ⟨(marker_congr (by rw [delayed, Dev.flag_out]) m).trans (marker_setMarker_self ..), fun b hb => ?_, ?_, ?_, ?_,
    Dev.bit_flag_self ..⟩
  · exact (marker_congr (by rw [delayed, Dev.flag_out]) b).trans ((marker_setMarker_other _ hb).trans (hother b hb))
  · rw [delayed, Dev.flag_eas]; exact heas
  · rw [delayed, Dev.flag_hub]; exact hhub
  · exact (markerLevel_flagN _ _ _ _).trans hlevel

/-- A single change whose step has come: the level that it finds, an edge, or a wait. -/
theorem markerEdgeOp_cases {c : MChange} (hone : (d.marker m).changes = [c]) (hpath : c.path = none)
    (hstep : c.step / 128 ≤ d.epoch) (hmoved : (d.marker m).moved = []) :
    (d.markerLevel m = c.level → markerEdgeOp m d = arrived d m c) ∧
    (d.markerLevel m ≠ c.level → (∀ l, (d.marker m).lastEdge = some l → l + 48 ≤ c.step) →
      markerEdgeOp m d = (arrived d m c).markerEdge m c.step c.level) ∧
    (∀ l, d.markerLevel m ≠ c.level → (d.marker m).lastEdge = some l → c.step < l + 48 →
      markerEdgeOp m d = delayed d m c l) := by
  obtain ⟨-, -, -, -, hlevel⟩ := arrived_leaves d m c
  have hop := markerEdgeOp_single hone hpath hstep hmoved
  refine ⟨fun hsame => ?_, fun hne hfar => ?_, fun l hne hlast hsoon => ?_⟩
  · exact hop.trans (if_pos (hlevel.trans hsame))
  · refine (hop.trans (if_neg fun h => hne (hlevel.symm.trans h))).trans ?_
    cases hlast : (d.marker m).lastEdge with
    | none => rfl
    | some l => exact if_neg (Nat.not_lt.mpr (hfar l hlast))
  · refine (hop.trans (if_neg fun h => hne (hlevel.symm.trans h))).trans ?_
    simp only [hlast, if_pos hsoon]
    rfl

/-! ### The return to IDLE_LEVEL -/

theorem idleStep_eq (k : Marker) (b : Nat) : k.idleStep b = max b ((k.lastEdge.map (· + 48)).getD 0) := by
  unfold Marker.idleStep
  cases k.lastEdge <;> simp

theorem markerIdleReturnOp_due {b : Nat × List Nat} {bs : List (Nat × List Nat)} (hidle : (d.marker m).idleAt = b :: bs)
    (hmoved : (d.marker m).moved = []) (hchanges : ∀ c ∈ (d.marker m).changes, c.n ∉ b.2)
    (hstep : (d.marker m).idleStep b.1 / 128 ≤ d.epoch) : markerIdleReturnOp m d =
      (d.setMarker m { d.marker m with idleAt := bs }).markerEdge m ((d.marker m).idleStep b.1)
        (d.rdB (objKey (0x3A00 + m) 9)) := by
  have hnone : ((d.marker m).changes.any fun c => b.2.contains c.n) = false := by simpa using hchanges
  have hfind : (b :: bs).find? (fun b => decide ((d.marker m).idleStep b.1 / 128 ≤ d.epoch) &&
      !((d.marker m).changes.any fun c => b.2.contains c.n)) = some b := by
    rw [List.find?_cons, hnone, decide_eq_true hstep]
    rfl
  have hsame : (if (d.marker m).changes.any fun c => c.path.isNone && decide (c.step ≤ 128 * d.epoch + 127) then d
      else d.movedEdges m (128 * d.epoch + 127)) = d := by
    rw [movedEdges_none hmoved]
    exact ite_self d
  unfold markerIdleReturnOp
  simp only [hsame, hidle, hfind, hmoved, List.isEmpty_nil, if_true, List.erase_cons_head]

end

/-- Settles O33: a single change lands as one of three cases, and the return to IDLE_LEVEL is an edge of its own. -/
theorem markerEdges : Obligations.MarkerEdges := by
  unfold Obligations.MarkerEdges
  intro s m
  refine ⟨fun c hone hpath hstep hmoved => ?edge, fun b bs hidle hmoved hchanges hstep => ?idle⟩
  case edge =>
    obtain ⟨hsame, hedge, hwait⟩ := markerEdgeOp_cases hone hpath hstep hmoved
    obtain ⟨hmarker, hother, heas, hhub, hlevel⟩ := arrived_leaves s.now m c
    have hddr : (markerEdgeOp m s.now).ddr = s.now.ddr := by simp
    refine ⟨s.onNow (markerEdgeOp m), by rfl, ?_⟩
    by_cases hlev : s.now.markerLevel m = c.level
    · simp only [State.onNow, hsame hlev] at hddr ⊢
      rw [hmarker]
      exact ⟨rfl, fun _ => ⟨hlevel.trans hlev, rfl, rfl⟩, fun h => absurd hlev h, fun _ h => absurd hlev h, hother, heas, hhub,
        hddr⟩
    by_cases hsoon : ∃ l, (s.now.marker m).lastEdge = some l ∧ c.step < l + 48
    · obtain ⟨l, hlast, hl⟩ := hsoon
      obtain ⟨hmarker', hother', heas', hhub', hlevel', hbit⟩ := delayed_leaves s.now m c l
      simp only [State.onNow, hwait l hlev hlast hl] at hddr ⊢
      rw [hmarker']
      refine ⟨rfl, fun h => absurd h hlev, fun _ h => absurd (h l hlast) (by omega), fun l' _ hlast' _ => ?_, hother', heas',
        hhub', hddr⟩
      obtain rfl : l = l' := Option.some.inj (hlast.symm.trans hlast')
      exact ⟨hbit, hlevel', rfl, hlast⟩
    · have hfar : ∀ l, (s.now.marker m).lastEdge = some l → l + 48 ≤ c.step := fun l hlast =>
        Nat.not_lt.mp fun h => hsoon ⟨l, hlast, h⟩
      obtain ⟨hmoves, hmarker', hother'⟩ := markerEdge_moves (step := c.step) (fun h => hlev (hlevel.symm.trans h))
      obtain ⟨heas', hhub'⟩ := markerEdge_leaves (arrived s.now m c) m c.step c.level
      simp only [State.onNow, hedge hlev hfar] at hddr ⊢
      rw [hmarker', hmarker]
      exact ⟨rfl, fun h => absurd h hlev, fun _ _ => ⟨hmoves, rfl, rfl⟩, fun l _ hlast hl => absurd (hfar l hlast) (by omega),
        fun b hb => (hother' b hb).trans (hother b hb), heas'.trans heas, hhub'.trans hhub, hddr⟩
  case idle =>
    have hddr : (markerIdleReturnOp m s.now).ddr = s.now.ddr := by simp
    have hop := markerIdleReturnOp_due hidle hmoved hchanges (by rwa [idleStep_eq])
    rw [idleStep_eq] at hop
    obtain ⟨heas, hhub⟩ := markerEdge_leaves (s.now.setMarker m { s.now.marker m with idleAt := bs }) m
      (max b.1 (((s.now.marker m).lastEdge.map (· + 48)).getD 0)) (s.now.rdB (objKey (0x3A00 + m) 9))
    refine ⟨s.onNow (markerIdleReturnOp m), by rfl, ?_⟩
    by_cases hlev : s.now.markerLevel m = s.now.rdB (objKey (0x3A00 + m) 9)
    · rw [markerEdge_same (d := s.now.setMarker m { s.now.marker m with idleAt := bs }) hlev] at hop
      simp only [State.onNow, hop, marker_setMarker_self, if_pos hlev] at hddr ⊢
      exact ⟨hlev, trivial, trivial, fun k hk => marker_setMarker_other _ hk, rfl, rfl, hddr⟩
    · obtain ⟨hmoves, hmarker, hother⟩ := markerEdge_moves (d := s.now.setMarker m { s.now.marker m with idleAt := bs })
        (step := max b.1 (((s.now.marker m).lastEdge.map (· + 48)).getD 0)) hlev
      simp only [State.onNow, hop, hmarker, marker_setMarker_self, if_neg hlev] at hddr ⊢
      exact ⟨hmoves, trivial, trivial, fun k hk => (hother k hk).trans (marker_setMarker_other _ hk), heas, hhub, hddr⟩

end Sys2Proof.Machine
end

section
/-! Streams (R183 to R192) and the end of a flux range switch (R224). -/

namespace Sys2Proof.Machine

section
variable {s : State} {d : Dev} {t : Target} {q : Stroke} {u : Due} {k : Nat}

/-! ### Refill -/

/-- What a stream keeps of its ring: the bytes from READ_POS on. -/
def kept (d : Dev) (k : Nat) (v : StreamSt) : StreamSt :=
  { v with
    ring := v.ring.drop (d.rd (unitKey 0x488008 k) - v.ringAt), ringAt := max v.ringAt (d.rd (unitKey 0x488008 k)) }

theorem setStream_leaves (d : Dev) (k : Nat) (v : StreamSt) : (d.setStream k v).streamSt k = kept d k v ∧
    (d.setStream k v).rd (unitKey 0x488009 k) = (kept d k v).ring.length ∧
    (∀ j, j ≠ k → (d.setStream k v).streamSt j = d.streamSt j) ∧ (d.setStream k v).eas = d.eas ∧
    (d.setStream k v).hub = d.hub := by
  refine ⟨tabGet_set_self .., ?_, fun j hj => ?_, ?_, ?_⟩
  · unfold Dev.setStream
    dsimp only
    split
    · exact (Dev.rd_wr_other _ _ _ _ (by unfold unitKey; omega)).trans (Dev.rd_wr_self ..)
    · exact Dev.rd_wr_self ..
  all_goals
    unfold Dev.setStream
    dsimp only
    split
  · exact tabGet_set_other _ _ _ _ _ _ hj
  · exact tabGet_set_other _ _ _ _ _ _ hj
  all_goals rfl

theorem streamRefillOp_runs {bytes : Nat} (h : d.streamRuns k = true) : streamRefillOp k bytes d =
    d.setStream k { d.streamSt k with
      ring := (d.streamSt k).ring ++ ddrRead d.ddr
        (d.rd (unitKey 0x488003 k) + (d.streamSt k).ringAt + (d.streamSt k).ring.length) (d.refillBytes k bytes) } := if_pos h

/-! ### Underrun and the end of a stream -/

/-- Whether a byte of the missing sample was lost to an uncorrectable error. -/
def lostByte (d : Dev) (u : Due) : Bool := (List.range u.bytes).any fun i => (d.streamSt u.stream).isLost (u.pos + i)

/-- The device with an underrun's stroke and flags, without its mark on the shot. -/
def starving (d : Dev) (t : Target) (q : Stroke) (u : Due) : Dev :=
  let d2 := (((d.setStroke t (some { q with muted := some u.at_, starved := true })).streamState u.stream).flag
    (strokeFlags q.n) 8).flag (unitKey 0x48800B u.stream) 0
  if lostByte d u then d2.flag (unitKey 0x48800B u.stream) 2 else d2

theorem underrunOp_missing (hstroke : d.stroke t = some q) (hmissing : d.missing t = some u) (hmuted : q.muted = none) :
    underrunOp t d = (starving d t q u).spoilThread q.n := by
  unfold underrunOp
  simp only [hstroke, hmissing, hmuted, Option.isNone_none, if_true]
  rfl

theorem stroke_streamState (d : Dev) (k : Nat) (t : Target) : (d.streamState k).stroke t = d.stroke t := by
  obtain ⟨_, h⟩ := streamState_objs d k
  rw [h]
  rfl

theorem streamState_leaves (d : Dev) (k : Nat) : (d.streamState k).eas = d.eas ∧ (d.streamState k).hub = d.hub := by
  obtain ⟨_, h⟩ := streamState_objs d k
  rw [h]
  exact ⟨rfl, rfl⟩

theorem bit_flag_of_ne {key key' b b' : Nat} (h : key ≠ key') : (d.flag key' b').bit key b = d.bit key b := by
  unfold Dev.bit
  rw [Dev.rd_flag_other _ _ _ _ h]

theorem strokeFlags_ne (n k : Nat) : strokeFlags n ≠ unitKey 0x48800B k := by
  unfold strokeFlags unitKey
  omega

theorem starving_leaves (d : Dev) (t : Target) (q : Stroke) (u : Due) :
    (starving d t q u).stroke t = some { q with muted := some u.at_, starved := true } ∧
    (starving d t q u).eas = d.eas ∧ (starving d t q u).hub = d.hub ∧
    (starving d t q u).bit (strokeFlags q.n) 8 = true ∧ (starving d t q u).bit (unitKey 0x48800B u.stream) 0 = true ∧
    (lostByte d u = true → (starving d t q u).bit (unitKey 0x48800B u.stream) 2 = true) := by
  obtain ⟨heas, hhub⟩ := streamState_leaves (d.setStroke t (some { q with muted := some u.at_, starved := true })) u.stream
  have hne := strokeFlags_ne q.n u.stream
  unfold starving
  dsimp only
  split
  · next hlost =>
    simp only [stroke_flag, stroke_streamState, stroke_setStroke_self, Dev.flag_eas, Dev.flag_hub, heas, hhub,
      bit_flag_of_ne hne, Dev.bit_flag_self]
    exact ⟨trivial, rfl, rfl, trivial, Dev.bit_flag_of_bit _ _ _ _ (Dev.bit_flag_self ..), fun _ => trivial⟩
  · next hlost =>
    simp only [stroke_flag, stroke_streamState, stroke_setStroke_self, Dev.flag_eas, Dev.flag_hub, heas, hhub,
      bit_flag_of_ne hne, Dev.bit_flag_self]
    exact ⟨trivial, rfl, rfl, trivial, trivial, fun h => absurd h hlost⟩

/-- A thread's job, in a shot, is SPOILED with it. -/
theorem spoilThread_spoils {n : Nat} {j x : Job} (hjob : d.jobOfThread n = some j) (hx : x ∈ (d.spoilThread n).hub.jobs)
    (hseq : x.seq = j.seq) (hshot : x.inShot = true) : x.spoiled = true := by
  have hspoil : d.spoilThread n = d.modJob j.seq fun k =>
      if k.inShot then { k with spoiled := true } else { k with spoilNext := k.spoilNext || k.nextStart.isSome } := by
    unfold Dev.spoilThread
    rw [hjob]
  rw [hspoil] at hx
  obtain ⟨y, -, rfl⟩ := List.mem_map.mp hx
  cases hy : y.inShot with
  | true =>
    simp only [hy, if_true] at hseq ⊢
    split at hseq
    · next heq => rw [if_pos heq]
    · next hne => exact absurd (beq_iff_eq.mpr hseq) hne
  | false =>
    have hsame : Job.inShot { y with spoilNext := y.spoilNext || y.nextStart.isSome } = y.inShot := rfl
    simp only [hy, Bool.false_eq_true, if_false] at hshot
    split at hshot
    · rw [hsame, hy] at hshot
      exact absurd hshot (by simp)
    · rw [hy] at hshot
      exact absurd hshot (by simp)

theorem streamEndOp_past (hstroke : d.stroke t = some q) (hpast : d.pastEnd t = some u) (hmuted : q.muted = none) :
    streamEndOp t d = ((d.setStroke t (some { q with muted := some u.at_ })).flag (strokeFlags q.n) 9).flag
      (unitKey 0x48800B u.stream) 1 := by
  unfold streamEndOp
  simp only [hstroke, hpast, hmuted, Option.isNone_none, if_true]

end

/-- Settles O34: the ring grows by what arrives, and a stroke that lacks samples plays baseline. -/
theorem streams : Obligations.Streams := by
  unfold Obligations.Streams
  intro s k
  refine ⟨fun bytes hruns => ?refill, fun t q u hstroke hmissing hmuted => ?underrun, fun t q u hstroke hpast hmuted => ?ended,
    fun c => by rfl⟩
  case refill =>
    have hddr : (streamRefillOp k bytes s.now).ddr = s.now.ddr := by simp
    obtain ⟨hst, hrd, hother, heas, hhub⟩ := setStream_leaves s.now k { s.now.streamSt k with
      ring := (s.now.streamSt k).ring ++ ddrRead s.now.ddr (s.now.rd (unitKey 0x488003 k) + (s.now.streamSt k).ringAt +
        (s.now.streamSt k).ring.length) (s.now.refillBytes k bytes) }
    refine ⟨s.onNow (streamRefillOp k bytes), by rfl, ?_⟩
    simp only [State.onNow, streamRefillOp_runs hruns] at hddr ⊢
    rw [hst, hrd]
    exact ⟨rfl, rfl, rfl, hother, heas, hhub, hddr⟩
  case underrun =>
    have hddr : (underrunOp t s.now).ddr = s.now.ddr := by simp
    obtain ⟨hst, heas, hhub, hlack, hbit, hlost⟩ := starving_leaves s.now t q u
    have hobjs := spoilThread_objs (starving s.now t q u) q.n
    refine ⟨s.onNow (underrunOp t), by rfl, ?_⟩
    simp only [State.onNow, underrunOp_missing hstroke hmissing hmuted, Dev.bit_congr hobjs, spoilThread_eas] at hddr ⊢
    refine ⟨(stroke_congr (by rw [spoilThread_out]) t).trans hst, hlack, hbit, hlost, fun j hjob x hx hseq hshot => ?_, heas, hddr⟩
    exact spoilThread_spoils ((jobOfThread_congr hhub q.n).trans hjob) hx hseq hshot
  case ended =>
    have hddr : (streamEndOp t s.now).ddr = s.now.ddr := by simp
    refine ⟨s.onNow (streamEndOp t), by rfl, ?_⟩
    simp only [State.onNow, streamEndOp_past hstroke hpast hmuted] at hddr ⊢
    simp only [stroke_flag, stroke_setStroke_self, bit_flag_of_ne (strokeFlags_ne q.n u.stream), Dev.bit_flag_self, Dev.flag_hub,
      Dev.flag_eas, Dev.setStroke_hub, Dev.setStroke_eas]
    exact ⟨trivial, trivial, trivial, trivial, trivial, hddr⟩

end Sys2Proof.Machine
end

section
/-! Integration windows: opening, refusal, sums and dump (R266 to R280). -/

namespace Sys2Proof.Machine

section
variable {s : State} {d : Dev} {slot : Nat} {w : Win} {l r : List Win}

/-! ### The first window that meets a condition -/

theorem slotRx_setSlotRx (d : Dev) (slot : Nat) (v : SlotRx) : (d.setSlotRx slot v).slotRx slot = v := tabGet_set_self ..

theorem slotRx_congr {e d : Dev} (h : e.rx = d.rx) (slot : Nat) : e.slotRx slot = d.slotRx slot := by
  unfold Dev.slotRx
  rw [h]

theorem find_first {p : Win → Bool} (hl : ∀ v ∈ l, p v = false) (hw : p w = true) : (l ++ w :: r).find? p = some w := by
  have hnone : l.find? p = none := List.find?_eq_none.mpr fun v hv => by simp [hl v hv]
  rw [List.find?_append, hnone, List.find?_cons_of_pos hw]
  rfl

theorem findIdx_first {p : Win → Bool} (hl : ∀ v ∈ l, p v = false) (hw : p w = true) :
    (l ++ w :: r).findIdx? p = some l.length := by
  have hnone : l.findIdx? p = none := List.findIdx?_eq_none_iff.mpr hl
  rw [List.findIdx?_append, hnone, List.findIdx?_cons, if_pos hw]
  simp

theorem modify_first (f : Win → Win) : (l ++ w :: r).modify l.length f = l ++ f w :: r := by
  simp [List.modify_eq_take_drop]

/-- Changing the first window that meets a condition changes that window alone. -/
theorem modWin_first {p : Win → Bool} {f : Win → Win} (hwins : (d.slotRx slot).wins = l ++ w :: r)
    (hl : ∀ v ∈ l, p v = false) (hw : p w = true) :
    d.modWin slot p f = d.setSlotRx slot { d.slotRx slot with wins := l ++ f w :: r } := by
  unfold Dev.modWin
  simp only [hwins, findIdx_first hl hw, modify_first]

theorem modWin_wins {p : Win → Bool} {f : Win → Win} (hwins : (d.slotRx slot).wins = l ++ w :: r)
    (hl : ∀ v ∈ l, p v = false) (hw : p w = true) : ((d.modWin slot p f).slotRx slot).wins = l ++ f w :: r := by
  rw [modWin_first hwins hl hw, slotRx_setSlotRx]

theorem modWin_leaves (d : Dev) (slot : Nat) (p : Win → Bool) (f : Win → Win) :
    (d.modWin slot p f).objs = d.objs ∧ (d.modWin slot p f).hub = d.hub ∧ (d.modWin slot p f).eas = d.eas := by
  unfold Dev.modWin
  dsimp only
  split
  · exact ⟨rfl, rfl, rfl⟩
  · exact ⟨rfl, rfl, rfl⟩

/-! ### Opening -/

/-- A window that is neither open nor refused. -/
def Win.fresh (w : Win) : Bool := !w.opened && !w.refused

/-- How many windows are open at the arrival of `w`. -/
def busyWins (ws : List Win) (w : Win) : Nat := (ws.filter fun v => v.opened && decide (w.arrive ≤ v.dump)).length

theorem windowOpenOp_fresh (hwins : (d.slotRx slot).wins = l ++ w :: r) (hl : ∀ v ∈ l, Win.fresh v = false)
    (hw : Win.fresh w = true) (harrive : w.arrive ≤ d.epoch) :
    windowOpenOp slot d = if busyWins (l ++ w :: r) w < 2 then d.modWin slot Win.fresh fun v => { v with opened := true }
      else ((d.modWin slot Win.fresh fun v => { v with refused := true }).flag (d.chainFlags slot) 5).spoil w.job := by
  unfold windowOpenOp
  have hfind := find_first (r := r) hl hw
  unfold Win.fresh at hfind
  simp only [hwins, hfind]
  exact if_neg (Nat.not_lt.mpr harrive)

theorem spoil_leaves (d : Dev) (k : Nat) :
    (d.spoil k).objs = d.objs ∧ (d.spoil k).eas = d.eas ∧ (d.spoil k).rx = d.rx := ⟨rfl, rfl, rfl⟩

/-! ### The sums -/

theorem takeFir_without_core {y : Nat × Int × Int} (hwins : (d.slotRx slot).wins = [w]) (htakes : w.takes y.1 = true)
    (hcore : d.coreOf slot = none) : ((d.takeFir slot y).slotRx slot).wins = [{ w with
      acc := cadd w.acc (cmul (d.kernelWeight (slot / 64) (d.rd (unitKey 0x300060 (d.slotQubit slot) + w.ksel))
        ((y.1 - w.first) / 64)) y.2)
      invalid := w.invalid || !(d.slotRx slot).isValid 2 y.1 }] := by
  unfold Dev.takeFir
  simp only [hwins, List.any_cons, htakes, Bool.true_or, if_true, hcore, Option.bind_none, slotRx_setSlotRx, List.map_cons,
    List.map_nil]

/-! ### The dump -/

/-- A window whose dump is due. -/
def Win.dumps (epoch : Nat) (w : Win) : Bool := (w.opened || w.refused) && w.iq.isNone && decide (w.dump ≤ epoch)

/-- The sums of a window, shifted. -/
def shifted (d : Dev) (slot : Nat) (w : Win) : Int × Int :=
  if w.refused then (0, 0)
  else (rshift w.acc.1 (d.rd (unitKey 0x300045 (d.slotQubit slot))), rshift w.acc.2 (d.rd (unitKey 0x300045 (d.slotQubit slot))))

/-- The result of a window: I and Q, SATURATED and INVALID. -/
def dumpOf (d : Dev) (slot : Nat) (w : Win) : Int × Int × Bool × Bool :=
  let v := shifted d slot w
  (satI 32 v.1, satI 32 v.2, w.sat || decide (0 < changed v (satI 32 v.1, satI 32 v.2)), w.invalid)

/-- Whether a core of the DSP discriminates the slot's windows. -/
def byCore (d : Dev) (slot : Nat) : Bool := d.rd (unitKey 0x300046 (d.slotQubit slot)) == 3

/-- The window after its dump. -/
def dumped (d : Dev) (slot : Nat) (w u : Win) : Win :=
  { u with
    iq := some (dumpOf d slot w), core := d.coreOf slot, dsp := byCore d slot
    decision :=
      if byCore d slot then none
      else some ((d.discriminate slot w (dumpOf d slot w)).1, (d.discriminate slot w (dumpOf d slot w)).2, false)
    due := w.dump + 3 }

/-- The flags that a dump sets: of a saturation, and of an invalid window. -/
def dumpFlags (d : Dev) (slot : Nat) (w : Win) : Dev :=
  let v := shifted d slot w
  let c := changed v (satI 32 v.1, satI 32 v.2)
  let d1 := if c = 0 then d else d.flagN (d.chainFlags slot) 3 c
  if w.invalid then d1.flag (d.chainFlags slot) 4 else d1

theorem windowDumpOp_due (hwins : (d.slotRx slot).wins = l ++ w :: r) (hl : ∀ v ∈ l, Win.dumps d.epoch v = false)
    (hw : Win.dumps d.epoch w = true) :
    windowDumpOp slot d = (dumpFlags d slot w).modWin slot (Win.dumps d.epoch) (dumped d slot w) := by
  unfold windowDumpOp
  have hfind := find_first (r := r) hl hw
  unfold Win.dumps at hfind
  simp only [hwins, hfind]
  rfl

theorem dumpFlags_leaves (d : Dev) (slot : Nat) (w : Win) : (dumpFlags d slot w).rx = d.rx ∧
    (dumpFlags d slot w).hub = d.hub ∧ (dumpFlags d slot w).eas = d.eas := by
  unfold dumpFlags
  dsimp only
  split <;> split <;> simp

theorem dumpFlags_invalid (hinvalid : w.invalid = true) : (dumpFlags d slot w).bit (d.chainFlags slot) 4 = true := by
  unfold dumpFlags
  simp only [hinvalid, if_true]
  exact Dev.bit_flag_self ..

theorem shifted_refused (hrefused : w.refused = true) : shifted d slot w = (0, 0) := if_pos hrefused

theorem changed_zero : changed (0, 0) (satI 32 0, satI 32 0) = 0 := by decide

theorem dumpFlags_refused (hrefused : w.refused = true) (hvalid : w.invalid = false) : dumpFlags d slot w = d := by
  unfold dumpFlags
  simp only [shifted_refused hrefused, changed_zero, if_true, hvalid, Bool.false_eq_true, if_false]

theorem dumpOf_refused (hrefused : w.refused = true) (hvalid : w.invalid = false) (hsat : w.sat = false) :
    dumpOf d slot w = (0, 0, false, false) := by
  unfold dumpOf
  rw [shifted_refused hrefused, hvalid, hsat]
  simp only [changed_zero]
  decide

theorem discriminate_forced {iq : Int × Int × Bool × Bool} (h : w.refused = true ∨ iq.2.2.2 = true) :
    d.discriminate slot w iq = (3, true) := if_pos (Bool.or_eq_true _ _ ▸ h)

theorem byCore_false (h : d.rd (unitKey 0x300046 (d.slotQubit slot)) ≠ 3) : byCore d slot = false := beq_false_of_ne h

theorem dumped_decision (h : d.rd (unitKey 0x300046 (d.slotQubit slot)) ≠ 3) (u : Win) {o : Nat} {f : Bool}
    (hdisc : d.discriminate slot w (dumpOf d slot w) = (o, f)) : (dumped d slot w u).decision = some (o, f, false) := by
  unfold dumped
  simp only [byCore_false h, Bool.false_eq_true, if_false, hdisc]

theorem discriminate_linear {iq : Int × Int × Bool × Bool} (hopen : w.refused = false) (hvalid : iq.2.2.2 = false)
    (hmode : d.rd (unitKey 0x300046 (d.slotQubit slot)) = 0) :
    d.discriminate slot w iq = (d.discLinear (d.slotQubit slot) iq.1 iq.2.1, false) := by
  unfold Dev.discriminate
  simp only [hopen, hvalid, hmode, Bool.or_false, Bool.false_eq_true, if_false]

end

section
variable {d : Dev} {q : Nat} {i qv p th g : Int}

/-- The decision of LINEAR by the place of the projection: above, below or within the guard band of THETA. -/
theorem discLinear_cases
    (hp : p = divRound (i * sext 16 (d.rd (unitKey 0x300047 q)) + qv * sext 16 (d.rd (unitKey 0x300048 q))) (2 ^ 14))
    (hth : th = sext 32 (d.rd (unitKey 0x300049 q))) (hg : g = d.rd (unitKey 0x30004A q)) :
    d.discLinear q i qv = if th + g < p then 1 else if p < th - g then 0 else 3 := by
  unfold Dev.discLinear
  rw [hp, hth, hg]

end

/-- Settles O35: at most two windows open, each integrates its span, and its dump forms I, Q and the decision. -/
theorem windows : Obligations.Windows := by
  unfold Obligations.Windows
  intro s slot w l r hwins
  refine ⟨fun hl hclosed hkept harrive => ?opens, fun y hl hr hkept hiq hfirst hlast hcore => ?sums,
    fun hl hiq hdue => ⟨fun hrefused hvalid hsat hmode => ?refused, fun hopened hkept => ?dumps⟩⟩
  case opens =>
    have hfresh : Win.fresh w = true := by simp [Win.fresh, hclosed, hkept]
    have hothers : ∀ v ∈ l, Win.fresh v = false := fun v hv => by
      rcases hl v hv with h | h <;> simp [Win.fresh, h]
    have hop := windowOpenOp_fresh hwins hothers hfresh harrive
    have hddr : (windowOpenOp slot s.now).ddr = s.now.ddr := by simp
    refine ⟨fun hfew => ?_, fun hmany => ?_⟩
    · rw [if_pos (show busyWins (l ++ w :: r) w < 2 from hfew)] at hop
      obtain ⟨hobjs, hhub, heas⟩ := modWin_leaves s.now slot Win.fresh fun v => { v with opened := true }
      refine ⟨s.onNow (windowOpenOp slot), by rfl, ?_⟩
      simp only [State.onNow, hop] at hddr ⊢
      exact ⟨modWin_wins hwins hothers hfresh, hobjs, hhub, heas, hddr⟩
    · rw [if_neg (show ¬ busyWins (l ++ w :: r) w < 2 from Nat.not_lt.mpr hmany)] at hop
      obtain ⟨-, -, heas⟩ := modWin_leaves s.now slot Win.fresh fun v => { v with refused := true }
      refine ⟨s.onNow (windowOpenOp slot), by rfl, ?_⟩
      simp only [State.onNow, hop] at hddr ⊢
      obtain ⟨hobjs, heas', hrx⟩ := spoil_leaves
        ((s.now.modWin slot Win.fresh fun v => { v with refused := true }).flag (s.now.chainFlags slot) 5) w.job
      rw [slotRx_congr (hrx.trans (Dev.flag_rx ..)), Dev.bit_congr hobjs, heas', Dev.flag_eas, heas]
      exact ⟨modWin_wins hwins hothers hfresh, Dev.bit_flag_self .., rfl, hddr⟩
  case sums =>
    subst hl hr
    have htakes : w.takes y.1 = true := by simp [Win.takes, hkept, hiq, hfirst, hlast]
    exact takeFir_without_core hwins htakes hcore
  case refused =>
    have hready : Win.dumps s.now.epoch w = true := by simp [Win.dumps, hrefused, hiq, hdue]
    have hop := windowDumpOp_due hwins hl hready
    rw [dumpFlags_refused hrefused hvalid] at hop
    have hddr : (windowDumpOp slot s.now).ddr = s.now.ddr := by simp
    obtain ⟨hobjs, hhub, heas⟩ := modWin_leaves s.now slot (Win.dumps s.now.epoch) (dumped s.now slot w)
    refine ⟨s.onNow (windowDumpOp slot), dumped s.now slot w w, by rfl, ?_⟩
    simp only [State.onNow, hop] at hddr ⊢
    exact ⟨modWin_wins hwins hl hready, congrArg some (dumpOf_refused hrefused hvalid hsat),
      dumped_decision hmode w (discriminate_forced (.inl hrefused)), hobjs, hhub, heas, hddr⟩
  case dumps =>
    have hready : Win.dumps s.now.epoch w = true := by simp [Win.dumps, hopened, hiq, hdue]
    have hop := windowDumpOp_due hwins hl hready
    have hddr : (windowDumpOp slot s.now).ddr = s.now.ddr := by simp
    obtain ⟨hrx, hhub, heas⟩ := dumpFlags_leaves s.now slot w
    obtain ⟨hobjs', hhub', heas'⟩ :=
      modWin_leaves (dumpFlags s.now slot w) slot (Win.dumps s.now.epoch) (dumped s.now slot w)
    have hshift : shifted s.now slot w = (rshift w.acc.1 (s.now.rd (unitKey 0x300045 (s.now.slotQubit slot))),
        rshift w.acc.2 (s.now.rd (unitKey 0x300045 (s.now.slotQubit slot)))) := by simp [shifted, hkept]
    refine ⟨s.onNow (windowDumpOp slot), dumped s.now slot w w, (dumpOf s.now slot w).1, (dumpOf s.now slot w).2.1,
      (dumpOf s.now slot w).2.2.1, by rfl, ?_⟩
    simp only [State.onNow, hop] at hddr ⊢
    refine ⟨modWin_wins ((congrArg SlotRx.wins (slotRx_congr hrx slot)).trans hwins) hl hready, rfl, rfl, rfl, ?_, ?_, fun hinvalid => ?_, fun hmode => ?_,
      fun hmode hinvalid => dumped_decision hmode w (discriminate_forced (.inr hinvalid)),
      fun p th g hmode hvalid hp hth hg => ?_, heas'.trans heas, hhub'.trans hhub, hddr⟩
    · exact congrArg (fun v : Int × Int => satI 32 v.1) hshift
    · exact congrArg (fun v : Int × Int => satI 32 v.2) hshift
    · rw [Dev.bit_congr hobjs']
      exact dumpFlags_invalid hinvalid
    · have hcore : byCore s.now slot = true := beq_iff_eq.mpr hmode
      exact ⟨if_pos hcore, hcore⟩
    · have hdec := dumped_decision (by simp [hmode]) w
        (discriminate_linear (iq := dumpOf s.now slot w) hkept hvalid hmode)
      rw [discLinear_cases hp hth hg] at hdec
      refine ⟨fun habove => ?_, fun hbelow => ?_, fun hlow hhigh => ?_⟩
      · rw [hdec, if_pos habove]
      · rw [hdec, if_neg (by omega), if_pos hbelow]
      · rw [hdec, if_neg (by omega), if_neg (by omega)]

end Sys2Proof.Machine
end

section
/-! The decision of a window is produced (R282, R284, R289 to R293). -/

namespace Sys2Proof.Machine

/-! ### The ways of the decision bus -/

section
variable {d : Dev} {tile t : Nat} {others : List Nat} {exported : Bool}

/-- The device with other uses of the ways. -/
def Dev.withCarried (d : Dev) (c : Tab Nat) : Dev := { d with eas := { d.eas with carried := c } }

theorem fromHub_carried (d : Dev) (k t : Nat) : ∃ c, (d.fromHub k t).1 = d.withCarried c := ⟨_, rfl⟩

theorem fromHubTo_fold_carried (t : Nat) : ∀ (l : List Nat) (d : Dev) (x : Tab Nat),
    ∃ c, (l.foldl (fun a k => let x := a.1.fromHub k t; (x.1, tabSet 0 a.2 k x.2)) (d, x)).1 = d.withCarried c
  | [], d, _ => ⟨d.eas.carried, rfl⟩
  | k :: l, d, x => by
    obtain ⟨c, hc⟩ := fromHubTo_fold_carried t l (d.fromHub k t).1 (tabSet 0 x k (d.fromHub k t).2)
    exact ⟨c, hc⟩

theorem fromHubTo_carried (d : Dev) (l : List Nat) (t : Nat) : ∃ c, (d.fromHubTo l t).1 = d.withCarried c :=
  fromHubTo_fold_carried t l d []

theorem carryWord_carried (d : Dev) (tile : Nat) (others : List Nat) (exported : Bool) :
    ∃ c, (d.carryWord tile others exported).1 = d.withCarried c := by
  unfold Dev.carryWord
  dsimp only
  split
  · exact ⟨_, rfl⟩
  · exact fromHubTo_carried ((d.useWay tile 64 d.epoch).1.useWay (8 + tile) 32 (d.useWay tile 64 d.epoch).2).1 others _

theorem carryWord_own (d : Dev) (tile : Nat) (others : List Nat) (exported : Bool) :
    (d.carryWord tile others exported).2.1 = (d.useWay tile 64 d.epoch).2 + 3 := by
  unfold Dev.carryWord
  dsimp only
  split <;> rfl

theorem useWay_unused (hway : tile < 32) (ht : d.epoch ≤ t) {cap : Nat} (hcap : 0 < cap) (h : d.eas.carried = []) :
    (d.useWay tile cap t).2 = t :=
  Dev.useWay_free d tile cap t hway ht (by rw [h]; exact hcap)

/-- A way that is full in its tick and not in the next carries the word in the next. -/
theorem useWay_full {cap : Nat} (hcap : 0 < cap) (hway : tile < 32) (hfull : tabGet 0 d.eas.carried (tile + 32 * d.epoch) = cap)
    (hroom : tabGet 0 d.eas.carried (tile + 32 * (d.epoch + 1)) < cap) : (d.useWay tile cap d.epoch).2 = d.epoch + 1 := by
  let old := d.eas.carried.filter fun p => decide (d.epoch ≤ p.1 / 32)
  have hold : ∀ j, d.epoch ≤ j / 32 → tabGet 0 old j = tabGet 0 d.eas.carried j := fun j hj =>
    tabGet_filter 0 _ j (fun i => decide (d.epoch ≤ i / 32)) (by simpa using hj)
  have h0 := (hold (tile + 32 * d.epoch) (by omega)).trans hfull
  have h1 := (hold (tile + 32 * (d.epoch + 1)) (by omega)).trans_lt hroom
  obtain ⟨p, rest, hcons⟩ : ∃ p rest, old = p :: rest := by
    cases hnil : old with
    | nil =>
      rw [hnil] at h0
      exact absurd h0 (Nat.ne_of_lt hcap)
    | cons p rest => exact ⟨p, rest, rfl⟩
  show d.epoch + (((List.range (old.length + 1)).find? fun k => decide (tabGet 0 old (tile + 32 * (d.epoch + k)) < cap)).getD 0) = _
  rw [show old.length + 1 = rest.length + 1 + 1 by rw [hcons]; rfl, List.range_succ_eq_map, List.range_succ_eq_map]
  simp only [List.map_cons, List.find?_cons, Nat.add_zero, h0, Nat.lt_irrefl, decide_false, Nat.succ_eq_add_one, Nat.zero_add, h1,
    decide_true, Option.getD_some]

/-- A word for other tiles reaches each of them 6 ticks or more after its production. -/
theorem carryWord_other (hnodup : others.Nodup) {k : Nat} (hk : k ∈ others) :
    d.epoch + 6 ≤ tabGet 0 (d.carryWord tile others exported).2.2.2 k := by
  have hne : ¬ (others = [] ∧ exported = false) := fun h => by
    rw [h.1] at hk
    exact absurd hk List.not_mem_nil
  unfold Dev.carryWord
  simp only [if_neg hne]
  have ha := d.useWay_ge tile 64 d.epoch
  have hb := (d.useWay tile 64 d.epoch).1.useWay_ge (8 + tile) 32 (d.useWay tile 64 d.epoch).2
  have h := (Dev.fromHubTo_fold ((d.useWay tile 64 d.epoch).1.useWay (8 + tile) 32 (d.useWay tile 64 d.epoch).2).2 others
    (((d.useWay tile 64 d.epoch).1.useWay (8 + tile) 32 (d.useWay tile 64 d.epoch).2).1, []) hnodup).2.1 k hk
  unfold Dev.fromHubTo
  omega

/-- While nothing else is on its way, a word for other tiles reaches each of them in 6 ticks. -/
theorem carryWord_other_unused (hnodup : others.Nodup) (htile : tile < 8) (hothers : ∀ k ∈ others, k < 8 ∧ k ≠ tile)
    (hunused : d.eas.carried = []) {k : Nat} (hk : k ∈ others) :
    tabGet 0 (d.carryWord tile others exported).2.2.2 k = d.epoch + 6 := by
  have hne : ¬ (others = [] ∧ exported = false) := fun h => by
    rw [h.1] at hk
    exact absurd hk List.not_mem_nil
  have ha : (d.useWay tile 64 d.epoch).2 = d.epoch := useWay_unused (by omega) le_rfl (by omega) hunused
  have hfree : ∀ j, j % 32 ≠ tile → d.epoch ≤ j / 32 → tabGet 0 (d.useWay tile 64 d.epoch).1.eas.carried j = 0 := fun j hj he => by
    rw [Dev.useWay_other _ _ _ _ _ (by omega) hj he, hunused]
    rfl
  have hb : ((d.useWay tile 64 d.epoch).1.useWay (8 + tile) 32 d.epoch).2 = d.epoch :=
    Dev.useWay_free _ _ _ _ (by omega) le_rfl (by rw [hfree _ (by omega) (by omega)]; omega)
  unfold Dev.carryWord
  simp only [if_neg hne]
  rw [ha, hb]
  refine (Dev.fromHubTo_fold d.epoch others (((d.useWay tile 64 d.epoch).1.useWay (8 + tile) 32 d.epoch).1, []) hnodup).2.2
    (fun i hi => (hothers i hi).1) le_rfl (fun i hi => ?_) k hk
  obtain ⟨hi8, hine⟩ := hothers i hi
  constructor
  · rw [Dev.useWay_other _ _ _ _ _ (by omega) (by omega) (by rw [Dev.useWay_epoch]; omega), hfree _ (by omega) (by omega)]
    decide
  · rw [Dev.useWay_other _ _ _ _ _ (by omega) (by omega) (by rw [Dev.useWay_epoch]; omega), hfree _ (by omega) (by omega)]
    decide

end

/-! ### The handles that name a source -/

theorem handlesOf_lt {d : Dev} {chip n dtag : Nat} {p : Nat × Nat} (hp : p ∈ d.handlesOf chip n dtag) : p.1 < 512 := by
  obtain ⟨o, -, ho⟩ := List.mem_filterMap.mp hp
  dsimp only at ho
  split at ho
  · next h =>
    rw [← Option.some.inj ho]
    dsimp only
    omega
  · exact absurd ho (by simp)

theorem handlesOf_congr {e d : Dev} (h : e.objs = d.objs) (chip n dtag : Nat) : e.handlesOf chip n dtag = d.handlesOf chip n dtag := by
  unfold Dev.handlesOf
  rw [h]

/-- The tiles of handles, without the source's own. -/
def otherTiles (hs : List (Nat × Nat)) (tile : Nat) : List Nat := ((hs.map fun p => tileOf p.1).dedup).filter (· != tile)

theorem otherTiles_nodup (hs : List (Nat × Nat)) (tile : Nat) : (otherTiles hs tile).Nodup := (List.nodup_dedup _).filter _

theorem mem_otherTiles {hs : List (Nat × Nat)} {tile k : Nat} :
    k ∈ otherTiles hs tile ↔ (∃ p ∈ hs, tileOf p.1 = k) ∧ k ≠ tile := by simp [otherTiles]

/-! ### A word on its way -/

theorem exportWord_nil (d : Dev) (not_ : Option Nat) (word : W64) (t : Nat) : d.exportWord [] not_ word t = d := by
  unfold Dev.exportWord
  exact List.foldlRecOn (motive := fun e => e = d) (List.range 12) _ rfl fun e he k _ => he

theorem onesOf_zero (n : Nat) : onesOf n 0 = [] := by simp [onesOf]

section
variable {d : Dev} {slot : Nat} {w : Win} {iq : Int × Int × Bool × Bool} {o : Nat} {forced dsp : Bool}

/-- The ticks by which a word of a source reaches threads, from what `Dev.carryWord` answers. -/
def dueOf (d : Dev) (n dtag : Nat) (m : Nat) : Nat :=
  let c := d.carryWord (tileOf n) (otherTiles (d.handlesOf (d.chip % 64) n dtag) (tileOf n)) false
  if tileOf m = tileOf n then c.2.1 else tabGet 0 c.2.2.2 (tileOf m)

/-- The bus after a decision's words join it. -/
def busAfter (d : Dev) (n dtag : Nat) (word : W64) : Dev :=
  (d.carryWord (tileOf n) (otherTiles (d.handlesOf (d.chip % 64) n dtag) (tileOf n)) false).1.busSend
    (d.handlesOf (d.chip % 64) n dtag) word (dueOf d n dtag)

/-- A decision's result, in the result object of a qubit and in the job. -/
def resultStored (d : Dev) (slot q : Nat) (w : Win) (res : List Byte) : Dev :=
  (d.wr (unitKey 0x300054 q) (ofLe res)).modJob w.job fun j => { j with
    windows := j.windows - 1, recs := addResult j.recs (slot / 64) j.seq w.shot res }

theorem resultStored_eas (d : Dev) (slot q : Nat) (w : Win) (res : List Byte) : (resultStored d slot q w res).eas = d.eas := rfl

theorem resultStored_rd (d : Dev) (slot q : Nat) (w : Win) (res : List Byte) :
    (resultStored d slot q w res).rd (unitKey 0x300054 q) = ofLe res := Dev.rd_wr_self d (unitKey 0x300054 q) (ofLe res)

/-- The windows of a slot that are not done with, and the trace of a decision's word. -/
def windowsLeft (d : Dev) (slot : Nat) (word : W64) : Dev :=
  let r := d.slotRx slot
  (d.setSlotRx slot { r with wins := r.wins.filter fun v => !(v.produced && (v.core.isNone || v.entered)) }).trace 1 word.toNat

/-- A window whose decision is due. -/
def Win.decides (epoch : Nat) (w : Win) : Bool := w.iq.isSome && !w.produced && w.decision.isSome && decide (w.due ≤ epoch)

/-- The device with the window's decision marked as produced. -/
def marked (d : Dev) (slot : Nat) : Dev := d.modWin slot (Win.decides d.epoch) fun v => { v with produced := true }

theorem marked_leaves (d : Dev) (slot : Nat) :
    (marked d slot).objs = d.objs ∧ (marked d slot).hub = d.hub ∧ (marked d slot).eas = d.eas := modWin_leaves ..

theorem marked_epoch (d : Dev) (slot : Nat) : (marked d slot).epoch = d.epoch := by
  unfold marked Dev.modWin
  dsimp only
  split <;> rfl

theorem decisionProduceOp_local (hwins : (d.slotRx slot).wins = [w]) (hiq : w.iq = some iq) (hproduced : w.produced = false)
    (hdecision : w.decision = some (o, forced, dsp)) (hdue : w.due ≤ d.epoch) (hmask : d.rd (unitKey 0x400045 w.n) = 0) :
    decisionProduceOp slot d = windowsLeft (resultStored (busAfter (marked d slot) w.n w.dtag (d.decisionWord w o forced dsp)) slot
      (d.slotQubit slot) w (resultBytes w (d.slotQubit slot) o forced iq)) slot (d.decisionWord w o forced dsp) := by
  have hdecides : Win.decides d.epoch w = true := by simp [Win.decides, hiq, hproduced, hdecision, hdue]
  have hfind := find_first (l := []) (r := []) (by simp) hdecides
  have hmask' : (marked d slot).rd (unitKey 0x400045 w.n) = 0 := (Dev.rd_congr (marked_leaves d slot).1 _).trans hmask
  unfold marked at hmask'
  unfold Win.decides at hfind hmask'
  unfold decisionProduceOp
  simp only [hwins, List.nil_append] at hfind ⊢
  simp only [hfind, hiq, hdecision, hmask', bne_self_eq_false, onesOf_zero, List.filter_nil, exportWord_nil]
  rfl

theorem busAfter_leaves (d : Dev) (n dtag : Nat) (word : W64) : (busAfter d n dtag word).objs = d.objs ∧
    (busAfter d n dtag word).hub = d.hub ∧ (busAfter d n dtag word).eas.threads = d.eas.threads ∧
    (busAfter d n dtag word).eas.bus = d.eas.bus ++ (d.handlesOf (d.chip % 64) n dtag).map fun p =>
      { n := p.1, h := p.2, word := word, due := dueOf d n dtag p.1 } := by
  obtain ⟨c, hc⟩ := carryWord_carried d (tileOf n) (otherTiles (d.handlesOf (d.chip % 64) n dtag) (tileOf n)) false
  unfold busAfter
  rw [hc]
  exact ⟨rfl, rfl, rfl, rfl⟩

theorem windowsLeft_leaves (d : Dev) (slot : Nat) (word : W64) : (windowsLeft d slot word).objs = d.objs ∧
    (windowsLeft d slot word).hub = d.hub ∧ (windowsLeft d slot word).eas = d.eas := by simp [windowsLeft]

theorem job_modJob {j : Job} {seq : Nat} {f : Job → Job} (hseq : ∀ i, (f i).seq = i.seq) (hjob : d.job seq = some j) :
    (d.modJob seq f).job seq = some (f j) := by
  have hcomp : ((fun j : Job => j.seq == seq) ∘ fun j => if j.seq == seq then f j else j) = fun j => j.seq == seq := by
    funext i
    simp only [Function.comp_apply]
    split
    · rw [hseq]
    · rfl
  unfold Dev.job at hjob ⊢
  have hmatch : (j.seq == seq) = true := List.find?_some (p := fun k : Job => k.seq == seq) hjob
  unfold Dev.modJob
  simp only [List.find?_map, hcomp, hjob, Option.map_some, hmatch, if_true]

theorem job_congr {e d : Dev} (h : e.hub = d.hub) (seq : Nat) : e.job seq = d.job seq := by
  unfold Dev.job
  rw [h]

theorem resultStored_job {j : Job} {q : Nat} {res : List Byte} (hjob : d.job w.job = some j) :
    ∃ k, (resultStored d slot q w res).job w.job = some k ∧ k.windows = j.windows - 1 :=
  ⟨_, job_modJob (d := d.wr (unitKey 0x300054 q) (ofLe res)) (fun _ => rfl) hjob, rfl⟩

/-! ### When a word reaches the handles -/

theorem dueOf_ge {n dtag : Nat} {p : Nat × Nat} (hp : p ∈ d.handlesOf (d.chip % 64) n dtag) :
    d.epoch + (if tileOf p.1 = tileOf n then 3 else 6) ≤ dueOf d n dtag p.1 := by
  unfold dueOf
  dsimp only
  split
  · have hown := d.useWay_ge (tileOf n) 64 d.epoch
    rw [carryWord_own]
    omega
  · next hne => exact carryWord_other (otherTiles_nodup ..) (mem_otherTiles.mpr ⟨⟨p, hp, rfl⟩, hne⟩)

theorem tileOf_lt {n : Nat} (hn : n < 512) : tileOf n < 8 := by
  unfold tileOf
  omega

theorem dueOf_unused {n dtag : Nat} {p : Nat × Nat} (hp : p ∈ d.handlesOf (d.chip % 64) n dtag) (hn : n < 512)
    (hunused : d.eas.carried = []) : dueOf d n dtag p.1 = d.epoch + (if tileOf p.1 = tileOf n then 3 else 6) := by
  have htile := tileOf_lt hn
  unfold dueOf
  dsimp only
  split
  · rw [carryWord_own, useWay_unused (by omega) le_rfl (by omega) hunused]
  · next hne =>
    refine carryWord_other_unused (otherTiles_nodup ..) htile (fun k hk => ?_) hunused (mem_otherTiles.mpr ⟨⟨p, hp, rfl⟩, hne⟩)
    obtain ⟨⟨x, hx, rfl⟩, hk⟩ := mem_otherTiles.mp hk
    exact ⟨tileOf_lt (handlesOf_lt hx), hk⟩

theorem dueOf_full {n dtag m : Nat} (hn : n < 512) (hm : tileOf m = tileOf n)
    (hfull : tabGet 0 d.eas.carried (tileOf n + 32 * d.epoch) = 64)
    (hroom : tabGet 0 d.eas.carried (tileOf n + 32 * (d.epoch + 1)) < 64) : dueOf d n dtag m = d.epoch + 4 := by
  have htile := tileOf_lt hn
  unfold dueOf
  simp only [if_pos hm]
  rw [carryWord_own, useWay_full (by omega) (by omega) hfull hroom]

end

/-- Settles O36: the result is stored, and the word is on the bus for every handle that names its source. -/
theorem decisionProduced : Obligations.DecisionProduced := by
  unfold Obligations.DecisionProduced
  intro s slot w iq o forced dsp hwins hiq hproduced hdecision hdue hmask hn
  have hop := decisionProduceOp_local hwins hiq hproduced hdecision hdue hmask
  have hddr : (decisionProduceOp slot s.now).ddr = s.now.ddr := by simp
  obtain ⟨hobjs, hhub, heas⟩ := marked_leaves s.now slot
  have hepoch := marked_epoch s.now slot
  have hchip : (marked s.now slot).chip = s.now.chip := Dev.rd_congr hobjs _
  have hhandles : (marked s.now slot).handlesOf ((marked s.now slot).chip % 64) w.n w.dtag =
      s.now.handlesOf (s.now.chip % 64) w.n w.dtag := by rw [hchip, handlesOf_congr hobjs]
  obtain ⟨hobjs', hhub', hthreads, hbus⟩ := busAfter_leaves (marked s.now slot) w.n w.dtag (s.now.decisionWord w o forced dsp)
  obtain ⟨hobjs'', hhub'', heas''⟩ := windowsLeft_leaves
    (resultStored (busAfter (marked s.now slot) w.n w.dtag (s.now.decisionWord w o forced dsp)) slot (s.now.slotQubit slot) w
      (resultBytes w (s.now.slotQubit slot) o forced iq)) slot (s.now.decisionWord w o forced dsp)
  rw [resultStored_eas] at heas''
  rw [← hop] at hobjs'' hhub'' heas''
  refine ⟨s.onNow (decisionProduceOp slot), by rfl, ?_⟩
  simp only [State.onNow]
  generalize decisionProduceOp slot s.now = e at hddr hobjs'' hhub'' heas''
  refine ⟨fun j hj => ?job, ?result, ⟨dueOf (marked s.now slot) w.n w.dtag, ?bus, fun p hp => ?due⟩, ?threads, hddr⟩
  case job =>
    rw [job_congr hhub'']
    exact resultStored_job ((job_congr (hhub'.trans hhub) w.job).trans hj)
  case result => rw [Dev.rd_congr hobjs'', resultStored_rd]
  case bus =>
    rw [hhandles, heas] at hbus
    rw [heas'', hbus]
  case due =>
    rw [← hhandles] at hp
    rw [← hepoch, ← heas]
    exact ⟨dueOf_ge hp, dueOf_unused hp hn, fun hm => dueOf_full hn hm⟩
  case threads => rw [heas'', hthreads, heas]

end Sys2Proof.Machine
end

section
/-! A decision fills its handle, and the thread that waits for it goes on (R292 to R294, R303 to R305). -/

namespace Sys2Proof.Machine

section
variable {d : Dev} {n h : Nat}

/-- What a register holds of a word. -/
def DReg.ofWord (word : W64) (epoch : Nat) : DReg :=
  { outcome := word.toNat % 4
    seq := bits word.toNat 30 27
    forced := word.toNat.testBit 2
    dsp := word.toNat.testBit 3
    at_ := epoch }

theorem decisionArrivalOp_early {b : BusWord} (hb : (d.eas.bus.find? fun b => b.n == n && b.h == h) = some b)
    (hdue : d.epoch < b.due) : decisionArrivalOp n h d = d := by
  unfold decisionArrivalOp
  simp only [hb]
  exact if_pos hdue

/-- The device without the oldest word for a handle. -/
def Dev.wordTaken (d : Dev) (n h : Nat) : Dev :=
  { d with eas := { d.eas with bus := d.eas.bus.eraseP fun c => c.n == n && c.h == h } }

theorem decisionArrivalOp_empty {b : BusWord} (hb : (d.eas.bus.find? fun b => b.n == n && b.h == h) = some b)
    (hdue : b.due ≤ d.epoch) (hempty : tabGet none (d.thread n).handles h = none) :
    decisionArrivalOp n h d = (d.wordTaken n h).setThread n
      { d.thread n with handles := tabSet none (d.thread n).handles h (some (DReg.ofWord b.word d.epoch)) } := by
  have hempty' : tabGet none ((d.wordTaken n h).thread n).handles h = none := hempty
  unfold decisionArrivalOp
  simp only [hb]
  refine (if_neg (Nat.not_lt.mpr hdue)).trans ?_
  unfold Dev.wordTaken at hempty' ⊢
  unfold Dev.fillHandle
  simp only [hempty']
  rfl

/-- The thread at the target of its branch, its handle empty. -/
def Thread.branched (t : Thread) (h target at_ : Nat) : Thread :=
  { t with
    handles := tabSet none t.handles h none
    main := (t.main.advance at_).jumpTo target }

theorem decisionCommitOp_branch {r : DReg} {dt : Nat} {targets : List Nat}
    (hhandle : tabGet none (d.thread n).handles h = some r) (hended : (d.thread n).ended = false)
    (htrap : (d.thread n).inTrap = none) (hpaths : (d.thread n).paths = [])
    (hwait : (d.thread n).main.wait = .branch h dt targets none) :
    ∃ e, decisionCommitOp n h d = e ∧ e.thread n = (d.thread n).branched h (targets.getD r.outcome 0) (d.epoch + dt) ∧
      (∀ m, m ≠ n → e.thread m = d.thread m) ∧ e.objs = d.objs ∧ e.hub = d.hub := by
  have hwaits : (d.thread n).main.waitsFor h = true := by
    unfold Ctx.waitsFor
    rw [hwait]
    exact beq_self_eq_true h
  have hcommit : d.commitWait { n := n, path := none } (d.thread n).main h r =
      (d.setThread n { d.thread n with handles := tabSet none (d.thread n).handles h none }).setCtx { n := n, path := none }
        (((d.thread n).main.advance (d.epoch + dt)).jumpTo (targets.getD r.outcome 0)) := by
    unfold Dev.commitWait
    rw [hwait]
    rfl
  refine ⟨(d.setThread n { d.thread n with handles := tabSet none (d.thread n).handles h none }).setCtx { n := n, path := none }
      (((d.thread n).main.advance (d.epoch + dt)).jumpTo (targets.getD r.outcome 0)), ?_, ?_, fun m hm => ?_, ?_, ?_⟩
  · unfold decisionCommitOp
    simp only [hhandle, hended, htrap, hpaths, hwaits, hcommit, Option.isSome_none, Bool.or_false, Bool.false_eq_true, if_false,
      List.isEmpty_nil, if_true]
  · rw [thread_setCtx_main rfl, Dev.thread_setThread_self]
    rfl
  · exact (thread_setCtx_other hm).trans (Dev.thread_setThread_other _ _ _ _ hm)
  · exact setCtx_objs ..
  · exact setCtx_hub ..

end

/-- Settles O37: a word fills an empty handle in its tick, and a branch that waits takes the decision. -/
theorem decisionsTaken : Obligations.DecisionsTaken := by
  unfold Obligations.DecisionsTaken
  intro s n h
  refine ⟨fun b hb => ⟨fun hdue => ?early, fun hdue hempty => ?arrives⟩, fun r dt targets hhandle hended htrap hpaths hwait => ?commits⟩
  case early =>
    exact congrArg (fun d => Host.Outcome.next { s with now := d }) (decisionArrivalOp_early hb hdue)
  case arrives =>
    have hop := decisionArrivalOp_empty hb hdue hempty
    have hddr : (decisionArrivalOp n h s.now).ddr = s.now.ddr := by simp
    refine ⟨s.onNow (decisionArrivalOp n h), DReg.ofWord b.word s.now.epoch, by rfl, ?_⟩
    simp only [State.onNow, hop] at hddr ⊢
    rw [Dev.thread_setThread_self]
    exact ⟨by simp, rfl, rfl, rfl, rfl, fun m hm => Dev.thread_setThread_other _ _ _ _ hm, rfl, rfl, hddr⟩
  case commits =>
    have hddr : (decisionCommitOp n h s.now).ddr = s.now.ddr := by simp
    obtain ⟨e, hop, hthread, hothers, hobjs, hhub⟩ := decisionCommitOp_branch hhandle hended htrap hpaths hwait
    refine ⟨s.onNow (decisionCommitOp n h), by rfl, ?_⟩
    simp only [State.onNow, hop] at hddr ⊢
    rw [hthread]
    exact ⟨Ctx.jumpTo_cpc .., rfl, rfl, by simp [Thread.branched], rfl, hothers, hobjs, hhub, hddr⟩

end Sys2Proof.Machine
end

section
/-! Decision blocks on a link (R297, R298, R305). -/

namespace Sys2Proof.Machine

section
variable {d : Dev} {k : Nat}

/-! ### Sending -/

theorem rd_flagN_self (d : Dev) (key b n : Nat) : (d.flagN key b n).rd key = Nat.lor (d.rd key) (2 ^ b) :=
  (Dev.rd_congr ((Dev.noteFlag_objs ..).trans (Dev.setFlag_objs ..)) key).trans (Dev.rd_wr_self ..)

theorem bit_flagN_self (d : Dev) (key b n : Nat) : (d.flagN key b n).bit key b = true := by
  unfold Dev.bit
  rw [rd_flagN_self]
  exact (Nat.testBit_or ..).trans (by simp)

/-- The device with a block on a link made of words that leave `ds` behind, and DX_LATE for the `late` of them that waited. -/
def blockSent (d : Dev) (k : Nat) (ds : List (Nat × W64 × W64)) (body : CellBody) (late : Nat) : Dev :=
  let e := (d.setLink k { d.link k with decisions := ds, blockAt := some d.epoch }).sendCell k body
  if late = 0 then e else e.flagN 0x24F101 0 late

/-- One for a word that waited longer than 6 ticks. -/
def lateWord (d : Dev) (w : Nat × W64 × W64) : Nat := if w.1 + 6 < d.epoch then 1 else 0

theorem linkUp_setLink (l : Link) : (d.setLink k l).linkUp k = d.linkUp k := by
  unfold Dev.linkUp
  rw [show (d.setLink k l).rd (unitKey 0x240001 k) = d.rd (unitKey 0x240001 k) from
    Dev.rd_wr_other _ _ _ _ (by unfold unitKey; omega)]

theorem sendCell_up {body : CellBody} (hup : d.linkUp k = true) :
    d.sendCell k body = d.setLink k { d.link k with waiting := (d.link k).waiting ++ [body] } := if_pos hup

theorem blockSent_leaves {ds : List (Nat × W64 × W64)} {body : CellBody} {late : Nat} (hup : d.linkUp k = true) :
    (blockSent d k ds body late).link k =
      { d.link k with
        decisions := ds
        blockAt := some d.epoch
        waiting := (d.link k).waiting ++ [body] } ∧
    (0 < late → (blockSent d k ds body late).bit 0x24F101 0 = true) ∧
    (∀ j, j ≠ k → (blockSent d k ds body late).link j = d.link j) ∧
    (blockSent d k ds body late).eas = d.eas ∧ (blockSent d k ds body late).hub = d.hub := by
  unfold blockSent
  rw [sendCell_up ((linkUp_setLink _).trans hup), Dev.link_setLink_self]
  dsimp only
  split
  · next hlate =>
    refine ⟨Dev.link_setLink_self .., fun h => absurd hlate (Nat.ne_of_gt h), fun j hj => ?_, rfl, rfl⟩
    rw [Dev.link_setLink_other _ _ _ _ hj, Dev.link_setLink_other _ _ _ _ hj]
  · refine ⟨?_, fun _ => bit_flagN_self .., fun j hj => ?_, by simp, by simp⟩
    · exact (Dev.link_congr (Dev.flagN_ser ..) k).trans (Dev.link_setLink_self ..)
    · rw [Dev.link_congr (Dev.flagN_ser ..) j, Dev.link_setLink_other _ _ _ _ hj, Dev.link_setLink_other _ _ _ _ hj]

section
variable {a : Nat × W64 × W64} {rest : List (Nat × W64 × W64)}
variable (hwords : (d.link k).decisions = a :: rest) (hdue : ∀ w ∈ a :: rest, w.1 ≤ d.epoch) (hup : d.linkUp k = true)
variable (hidle : ∀ u, (d.link k).blockAt = some u → u + 2 ≤ d.epoch)
include hwords hdue hup hidle

/-- Whether the second word goes with the first. -/
def goesAlong (a : Nat × W64 × W64) : List (Nat × W64 × W64) → Bool
  | b :: _ => b.2.1 == a.2.1
  | [] => false

theorem decisionBlockSendOp_sends : decisionBlockSendOp k d = blockSent d k
    (if goesAlong a rest then rest.erase (rest.headD a) else rest)
    (.decision a.2.1 a.2.2 (if goesAlong a rest then (rest.headD a).2.2 else 0))
    (lateWord d a + if goesAlong a rest && decide ((rest.headD a).1 + 6 < d.epoch) then 1 else 0) := by
  have hall : (a :: rest).filter (fun w => decide (w.1 ≤ d.epoch)) = a :: rest :=
    List.filter_eq_self.mpr fun w hw => decide_eq_true (hdue w hw)
  unfold decisionBlockSendOp
  dsimp only
  rw [hwords, hall]
  dsimp only
  split
  · next u hu =>
    simp only [hup, decide_eq_true (hidle u hu), Bool.and_self, if_true, List.erase_cons_head]
    rfl
  · simp only [hup, Bool.and_self, if_true, List.erase_cons_head]
    rfl

theorem decisionBlockSendOp_two {b : Nat × W64 × W64} {l : List (Nat × W64 × W64)} (hrest : rest = b :: l)
    (hdest : b.2.1 = a.2.1) : ∃ late, lateWord d a ≤ late ∧
      decisionBlockSendOp k d = blockSent d k l (.decision a.2.1 a.2.2 b.2.2) late := by
  have hsends := decisionBlockSendOp_sends hwords hdue hup hidle
  subst hrest
  have hgoes : goesAlong a (b :: l) = true := beq_iff_eq.mpr hdest
  rw [hgoes, if_pos rfl, if_pos rfl, List.headD_cons, List.erase_cons_head] at hsends
  exact ⟨_, Nat.le_add_right .., hsends⟩

theorem decisionBlockSendOp_one (hdest : ∀ b l, rest = b :: l → b.2.1 ≠ a.2.1) :
    decisionBlockSendOp k d = blockSent d k rest (.decision a.2.1 a.2.2 0) (lateWord d a) := by
  have hsends := decisionBlockSendOp_sends hwords hdue hup hidle
  have hgoes : goesAlong a rest = false := by
    unfold goesAlong
    split
    · next b l => exact beq_false_of_ne (hdest b l rfl)
    · rfl
  simpa only [hgoes, Bool.false_eq_true, if_false, Bool.false_and, Nat.add_zero] using hsends

end

theorem decisionBlockSendOp_none (h : ∀ w ∈ (d.link k).decisions, d.epoch < w.1) : decisionBlockSendOp k d = d := by
  have hnone : (d.link k).decisions.filter (fun w => decide (w.1 ≤ d.epoch)) = [] :=
    List.filter_eq_nil_iff.mpr fun w hw => by
      have := h w hw
      simpa using this
  unfold decisionBlockSendOp
  simp only [hnone]

/-! ### Receiving -/

/-- The chips of a destination, without the chip itself. -/
theorem onesOf_own {c : Nat} (hc : c < 64) : (onesOf 64 (BitVec.ofNat 64 (2 ^ c)).toNat).filter (· != c) = [] := by
  have hval : (BitVec.ofNat 64 (2 ^ c)).toNat = 2 ^ c :=
    Nat.mod_eq_of_lt (Nat.pow_lt_pow_right (by omega) hc)
  rw [hval]
  refine List.filter_eq_nil_iff.mpr fun i hi => ?_
  have hbit : (2 ^ c).testBit i = true := (List.mem_filter.mp hi).2
  rw [Nat.testBit_two_pow] at hbit
  simpa using (of_decide_eq_true hbit).symm

theorem testBit_own {c : Nat} (hc : c < 64) : (BitVec.ofNat 64 (2 ^ c)).toNat.testBit c = true := by
  have hval : (BitVec.ofNat 64 (2 ^ c)).toNat = 2 ^ c :=
    Nat.mod_eq_of_lt (Nat.pow_lt_pow_right (by omega) hc)
  rw [hval, Nat.testBit_two_pow_self]

theorem receiveWord_invalid {w : W64} (h : w.toNat.testBit 31 = false) : d.receiveWord w = d :=
  if_pos (by rw [h]; rfl)

/-- A block of one word for this chip alone is that word received. -/
theorem takeBlock_own {w0 w1 : W64} (hchip : d.chip < 64) (hw1 : w1.toNat.testBit 31 = false)
    (hkeeps : (d.receiveWord w0).chip = d.chip) :
    d.takeBlock k (BitVec.ofNat 64 (2 ^ d.chip)) w0 w1 = d.receiveWord w0 := by
  unfold Dev.takeBlock
  simp only [testBit_own hchip, if_true, receiveWord_invalid hw1, hkeeps, onesOf_own hchip, List.filter_nil, exportWord_nil, hw1,
    Bool.false_eq_true, if_false]

/-- The jobs whose shot a word names. -/
def standsFor (w : W64) (j : Job) : Bool :=
  j.head.multiChip && j.head.chips.testBit (bits w.toNat 26 21) && j.shot % 256 == bits w.toNat 55 48

/-- The handles that name a word's source. -/
def namedBy (d : Dev) (w : W64) : List (Nat × Nat) :=
  d.handlesOf (bits w.toNat 26 21) (bits w.toNat 20 12) (bits w.toNat 11 4)

/-- The handles of the jobs whose shot a word names. -/
def reachedBy (d : Dev) (w : W64) : List (Nat × Nat) :=
  (namedBy d w).filter fun p => d.resident.any fun j => standsFor w j && j.held.canvases.any (·.thread == p.1)

theorem receiveWord_valid {w : W64} (hvalid : w.toNat.testBit 31 = true) : d.receiveWord w =
    if reachedBy d w = [] ∧ (namedBy d w ≠ [] ∨ !d.resident.any (standsFor w)) then d.flag 0x24F101 1
    else (d.fromHubTo ((reachedBy d w).map fun p => tileOf p.1).dedup d.epoch).1.busSend (reachedBy d w) w fun m =>
      tabGet 0 (d.fromHubTo ((reachedBy d w).map fun p => tileOf p.1).dedup d.epoch).2 (tileOf m) := by
  unfold Dev.receiveWord
  simp only [hvalid, Bool.not_true, Bool.false_eq_true, if_false]
  rfl

theorem mem_reachedBy {w : W64} {p : Nat × Nat} {j : Job} (hp : p ∈ namedBy d w) (hj : j ∈ d.resident)
    (hthread : (j.held.canvases.any fun x => x.thread == p.1) = true) (hstands : standsFor w j = true) : p ∈ reachedBy d w :=
  List.mem_filter.mpr ⟨hp, List.any_eq_true.mpr ⟨j, hj, by rw [hstands, hthread]; rfl⟩⟩

theorem reachedBy_nil {w : W64} (h : ∀ p ∈ namedBy d w, ∀ j ∈ d.resident,
    (j.held.canvases.any fun x => x.thread == p.1) = true →
      ¬ (j.head.chips.testBit (bits w.toNat 26 21) = true ∧ j.shot % 256 = bits w.toNat 55 48)) : reachedBy d w = [] := by
  refine List.filter_eq_nil_iff.mpr fun p hp hany => ?_
  obtain ⟨j, hj, hmatch⟩ := List.any_eq_true.mp hany
  obtain ⟨hstands, hthread⟩ := Bool.and_eq_true _ _ ▸ hmatch
  unfold standsFor at hstands
  simp only [Bool.and_eq_true, beq_iff_eq] at hstands
  exact h p hp j hj hthread ⟨hstands.1.2, hstands.2⟩

/-- The ticks by which a word of the hub reaches tiles. -/
theorem fromHubTo_due {l : List Nat} (hnodup : l.Nodup) (hlt : ∀ i ∈ l, i < 8) {i : Nat} (hi : i ∈ l) :
    d.epoch + 6 ≤ tabGet 0 (d.fromHubTo l d.epoch).2 i ∧
    (d.eas.carried = [] → tabGet 0 (d.fromHubTo l d.epoch).2 i = d.epoch + 6) := by
  obtain ⟨-, hge, hfree⟩ := Dev.fromHubTo_fold d.epoch l (d, []) hnodup
  refine ⟨hge i hi, fun hunused => hfree hlt le_rfl (fun j _ => ?_) i hi⟩
  rw [hunused]
  exact ⟨Nat.zero_lt_succ 31, Nat.zero_lt_succ 63⟩

theorem decisionBlockOp_good {c : CellHdr} {e : Dev} {w0 w1 : W64} {dest : W64} (h : d.rxCell c = (e, true)) :
    decisionBlockOp c dest w0 w1 d = e.takeBlock c.link dest w0 w1 := by
  unfold decisionBlockOp
  rw [h]
  rfl

end

section
variable {d : Dev} {w : W64} {p : Nat × Nat}

/-- A valid word that reaches handles is on the bus for each of them. -/
theorem receiveWord_reaches (hvalid : w.toNat.testBit 31 = true) (hp : p ∈ reachedBy d w) :
    ∃ due : Nat → Nat, ∃ c : Tab Nat, d.receiveWord w = (d.withCarried c).busSend (reachedBy d w) w due ∧
      d.epoch + 6 ≤ due p.1 ∧ (d.eas.carried = [] → due p.1 = d.epoch + 6) := by
  let tiles := ((reachedBy d w).map fun q => tileOf q.1).dedup
  have hlt : ∀ i ∈ tiles, i < 8 := fun i hi => by
    obtain ⟨q, hq, rfl⟩ := List.mem_map.mp (List.mem_dedup.mp hi)
    exact tileOf_lt (handlesOf_lt (List.mem_filter.mp hq).1)
  have htile : tileOf p.1 ∈ tiles := List.mem_dedup.mpr (List.mem_map_of_mem hp)
  obtain ⟨hge, hunused⟩ := fromHubTo_due (d := d) (List.nodup_dedup _) hlt htile
  obtain ⟨c, hc⟩ := fromHubTo_carried d tiles d.epoch
  refine ⟨fun m => tabGet 0 (d.fromHubTo tiles d.epoch).2 (tileOf m), c, ?_, hge, hunused⟩
  rw [receiveWord_valid hvalid, if_neg fun h => List.ne_nil_of_mem hp h.1, hc]

end

/-- Settles O38: a link sends a block at most every 2 ticks, and a received word goes to the handles that it reaches. -/
theorem decisionBlocks : Obligations.DecisionBlocks := by
  unfold Obligations.DecisionBlocks
  intro s
  refine ⟨fun k a rest hwords hdue hup hidle => ?sends, fun k hlater => ?waits,
    fun c d w0 w1 p j hcell hchip hw0 hw1 hp hj hthread hmulti hchips hshot => ?reaches,
    fun c d w0 w1 hcell hchip hw0 hw1 hnamed hstale => ?stale⟩
  case sends =>
    have hddr : (decisionBlockSendOp k s.now).ddr = s.now.ddr := by simp
    refine ⟨s.onNow (decisionBlockSendOp k), by rfl, ?_⟩
    simp only [State.onNow]
    by_cases htwo : ∃ b l, rest = b :: l ∧ b.2.1 = a.2.1
    · obtain ⟨b, l, hrest, hdest⟩ := htwo
      obtain ⟨late, hlate, hop⟩ := decisionBlockSendOp_two hwords hdue hup hidle hrest hdest
      rw [hop] at hddr ⊢
      obtain ⟨hlink, hflag, hothers, heas, hhub⟩ := blockSent_leaves (ds := l) (body := .decision a.2.1 a.2.2 b.2.2) (late := late) hup
      rw [hlink]
      refine ⟨rfl, fun b' l' hrest' _ => ?_, fun hnot => absurd hdest (hnot b l hrest), fun h => hflag ?_, hothers, heas, hhub, hddr⟩
      · obtain ⟨rfl, rfl⟩ := List.cons.inj (hrest.symm.trans hrest')
        exact ⟨rfl, rfl⟩
      · exact Nat.lt_of_lt_of_le (by rw [lateWord, if_pos h]; decide) hlate
    · have hone : ∀ b l, rest = b :: l → b.2.1 ≠ a.2.1 := fun b l hrest hdest => htwo ⟨b, l, hrest, hdest⟩
      have hop := decisionBlockSendOp_one hwords hdue hup hidle hone
      rw [hop] at hddr ⊢
      obtain ⟨hlink, hflag, hothers, heas, hhub⟩ := blockSent_leaves (ds := rest) (body := .decision a.2.1 a.2.2 0) (late := lateWord s.now a) hup
      rw [hlink]
      exact ⟨rfl, fun b l hrest hdest => absurd hdest (hone b l hrest), fun _ => ⟨rfl, rfl⟩,
        fun h => hflag (by rw [lateWord, if_pos h]; decide), hothers, heas, hhub, hddr⟩
  case waits =>
    exact congrArg (fun d => Host.Outcome.next { s with now := d }) (decisionBlockSendOp_none hlater)
  case reaches =>
    have hddr : (decisionBlockOp c (BitVec.ofNat 64 (2 ^ d.chip)) w0 w1 s.now).ddr = s.now.ddr := by simp
    have hstands : standsFor w0 j = true := by simp [standsFor, hmulti, hchips, hshot]
    have hin := mem_reachedBy hp hj hthread hstands
    obtain ⟨due, u, hword, hge, hunused⟩ := receiveWord_reaches hw0 hin
    have hop := (decisionBlockOp_good hcell).trans (takeBlock_own (k := c.link) hchip hw1 (by rw [hword]; rfl))
    refine ⟨s.onNow (decisionBlockOp c (BitVec.ofNat 64 (2 ^ d.chip)) w0 w1), by rfl, ?_⟩
    simp only [State.onNow, hop, hword] at hddr ⊢
    refine ⟨fun b hb => List.mem_append_left _ hb, ⟨due p.1, List.mem_append_right _ ?_, hge, hunused⟩, rfl, rfl, hddr⟩
    exact List.mem_map_of_mem (f := fun q : Nat × Nat => ({ n := q.1, h := q.2, word := w0, due := due q.1 } : BusWord)) hin
  case stale =>
    have hddr : (decisionBlockOp c (BitVec.ofNat 64 (2 ^ d.chip)) w0 w1 s.now).ddr = s.now.ddr := by simp
    have hword : d.receiveWord w0 = d.flag 0x24F101 1 := by
      rw [receiveWord_valid hw0, if_pos ⟨reachedBy_nil hstale, .inl hnamed⟩]
    have hop := (decisionBlockOp_good hcell).trans
      (takeBlock_own (k := c.link) hchip hw1 (by rw [hword]; exact Dev.rd_flag_other _ _ _ _ (by decide)))
    refine ⟨s.onNow (decisionBlockOp c (BitVec.ofNat 64 (2 ^ d.chip)) w0 w1), by rfl, ?_⟩
    simp only [State.onNow, hop, hword] at hddr ⊢
    exact ⟨Dev.bit_flag_self .., Dev.flag_eas .., Dev.flag_hub .., hddr⟩

end Sys2Proof.Machine
end

section
/-! The end of an instruction of a DSP core, and its scalar instructions (R371, R378, R379). -/

namespace Sys2Proof.Machine

/-! ### What an instruction of a core does -/

section
variable {i : Instr} {s : State} {d e : Dev} {c opc : Nat} {w : DWord} {k : DspCore}

/-- The device after an instruction whose operation gives `k`, on a device that the operation may have changed. -/
def coreAfter (e : Dev) (c : Nat) (w : DWord) (k0 k : DspCore) : Dev :=
  (e.setCore c (k0.advance (parallel k0 w k))).coreObjects c

theorem setCore_rd (d : Dev) (c : Nat) (k : DspCore) (key : Nat) : (d.setCore c k).rd key = d.rd key := rfl

theorem coreObjects_core (d : Dev) (c b : Nat) : (d.coreObjects c).core b = d.core b := rfl

theorem coreObjects_rd_other {key : Nat} (hpc : key ≠ unitKey 0x58000F c) (hdepth : key ≠ unitKey 0x58000A c) :
    (d.coreObjects c).rd key = d.rd key :=
  (Dev.rd_wr_other _ _ _ _ hdepth).trans (Dev.rd_wr_other _ _ _ _ hpc)

theorem coreObjects_pc (d : Dev) (c : Nat) : (d.coreObjects c).rd (unitKey 0x58000F c) = (d.core c).pc :=
  (Dev.rd_wr_other _ _ _ _ (by unfold unitKey; omega)).trans (Dev.rd_wr_self ..)

theorem coreAfter_leaves (e : Dev) (c : Nat) (w : DWord) (k0 k : DspCore) :
    (coreAfter e c w k0 k).core c = k0.advance (parallel k0 w k) ∧
    (coreAfter e c w k0 k).rd (unitKey 0x58000F c) = ((coreAfter e c w k0 k).core c).pc ∧
    (∀ b, b ≠ c → (coreAfter e c w k0 k).core b = e.core b) ∧
    (∀ key, key ≠ unitKey 0x58000F c → key ≠ unitKey 0x58000A c → (coreAfter e c w k0 k).rd key = e.rd key) ∧
    (coreAfter e c w k0 k).hub = e.hub ∧ (coreAfter e c w k0 k).eas = e.eas ∧ (coreAfter e c w k0 k).rx = e.rx := by
  unfold coreAfter
  refine ⟨?_, ?_, fun b hb => ?_, fun key hpc hdepth => ?_, rfl, rfl, rfl⟩
  · exact Dev.core_setCore_self ..
  · exact coreObjects_pc ..
  · exact Dev.core_setCore_other _ _ _ _ hb
  · exact (coreObjects_rd_other hpc hdepth).trans (setCore_rd ..)

theorem dspAt_of_atDsp (hat : AtDsp d c opc w) : d.dspAt c opc w = true := by
  obtain ⟨hruns, hopc, hword, -⟩ := hat
  unfold Dev.dspAt
  simp [hruns, hopc, hword]

theorem dspRun_some {f : Dev → DspCore → Option (Dev × DspCore)} (hat : AtDsp d c opc w) (hf : f d (d.core c) = some (e, k)) :
    d.dspRun c opc w f = coreAfter e c w (d.core c) k := by
  unfold Dev.dspRun
  rw [if_pos (dspAt_of_atDsp hat), hat.2.2.2, hf]
  rfl

theorem dspRun_none {f : Dev → DspCore → Option (Dev × DspCore)} (hat : AtDsp d c opc w) (hf : f d (d.core c) = none) :
    d.dspRun c opc w f = d.dspFault c := by
  unfold Dev.dspRun
  rw [if_pos (dspAt_of_atDsp hat), hat.2.2.2, hf]
  rfl

theorem dspRun_stalls {f : Dev → DspCore → Option (Dev × DspCore)} (hat : d.dspAt c opc w = true)
    (hstalls : d.stalls c opc w = true) : d.dspRun c opc w f = d.setCore c { d.core c with stalled := some d.epoch } := by
  unfold Dev.dspRun
  rw [if_pos hat, if_pos hstalls]

/-- An operation that changes only the core. -/
theorem coreDoes_of_run {op : Dev → Dev} {f : Dev → DspCore → Option (Dev × DspCore)} (hat : AtDsp s.now c opc w)
    (hexec : exec i s = .next (s.onNow op)) (hrun : op s.now = s.now.dspRun c opc w f)
    (hf : f s.now (s.now.core c) = some (s.now, k)) (hddr : (op s.now).ddr = s.now.ddr) : CoreDoes i s c w k := by
  have hop := hrun.trans (dspRun_some hat hf)
  obtain ⟨hcore, hpc, hothers, hrd, hhub, heas, hrx⟩ := coreAfter_leaves s.now c w (s.now.core c) k
  refine ⟨s.onNow op, hexec, ?_⟩
  simp only [State.onNow, hop] at hddr ⊢
  exact ⟨hcore, hpc, hothers, hrd, hhub, heas, hrx, hddr⟩

theorem coreDoes_of_pure {op : Dev → Dev} {f : DspCore → DspCore} (hat : AtDsp s.now c opc w)
    (hexec : exec i s = .next (s.onNow op)) (hrun : op s.now = s.now.dspPure c opc w f) (hf : f (s.now.core c) = k)
    (hddr : (op s.now).ddr = s.now.ddr) : CoreDoes i s c w k :=
  coreDoes_of_run hat hexec hrun (congrArg (fun k => some (s.now, k)) hf) hddr

/-- An operation that sets a bit of DSP_FLAGS and changes the core. -/
theorem coreFlags_of_run {op : Dev → Dev} {f : Dev → DspCore → Option (Dev × DspCore)} {bit n : Nat} (hat : AtDsp s.now c opc w)
    (hexec : exec i s = .next (s.onNow op)) (hrun : op s.now = s.now.dspRun c opc w f)
    (hf : f s.now (s.now.core c) = some (s.now.flagN (dspFlags c) bit n, k)) (hddr : (op s.now).ddr = s.now.ddr) :
    CoreFlags i s c w bit k := by
  have hop := hrun.trans (dspRun_some hat hf)
  obtain ⟨hcore, -, hothers, hrd, hhub, heas, hrx⟩ := coreAfter_leaves (s.now.flagN (dspFlags c) bit n) c w (s.now.core c) k
  have hflag : (coreAfter (s.now.flagN (dspFlags c) bit n) c w (s.now.core c) k).bit (unitKey 0x580010 c) bit = true := by
    unfold Dev.bit
    rw [hrd _ (by unfold unitKey; omega) (by unfold unitKey; omega)]
    exact bit_flagN_self s.now (dspFlags c) bit n
  refine ⟨s.onNow op, hexec, ?_⟩
  simp only [State.onNow, hop] at hddr ⊢
  refine ⟨hcore, hflag, fun b hb => (hothers b hb).trans ?_, hhub.trans (Dev.flagN_hub ..), heas.trans (Dev.flagN_eas ..),
    hrx.trans (Dev.flagN_rx ..), hddr⟩
  unfold Dev.core
  rw [Dev.flagN_dsp]

theorem ldiOp_runs {rd : BitVec 4} {imm : W32} (hruns : d.coreRuns c = true) (hopc : bits (d.core c).fetch.toNat 7 0 = 0x10)
    (hrd : bits (d.core c).fetch.toNat 11 8 = rd.toNat) (himm : bits (d.core c).fetch.toNat 51 20 = imm.toNat) :
    ldiOp c rd imm d = coreAfter d c { d := 0, a := 0, b := 0, fx := none, fy := none, fk := none, st := none, imm := 0 }
      (d.core c) ((d.core c).setG rd.toNat imm) :=
  if_pos (by simp [hruns, hopc, hrd, himm])

end

/-! ### Saturation of a converted value -/

section
variable {v : Int}

theorem satI_of_mem {n : Nat} (hlo : (-(2 ^ (n - 1) : Nat) : Int) ≤ v) (hhi : v ≤ (2 ^ (n - 1) : Nat) - 1) : satI n v = v := by
  unfold satI clampI
  rw [if_neg (by omega), if_neg (by omega)]

theorem satI_above {n : Nat} (h : ((2 ^ (n - 1) : Nat) : Int) - 1 < v) : satI n v = (2 ^ (n - 1) : Nat) - 1 := by
  have hpos : (0 : Int) < (2 ^ (n - 1) : Nat) := Int.natCast_pos.mpr (Nat.two_pow_pos _)
  unfold satI clampI
  rw [if_neg (by omega), if_pos h]

theorem satI_below {n : Nat} (h : v < (-(2 ^ (n - 1) : Nat) : Int)) : satI n v = -(2 ^ (n - 1) : Nat) := by
  unfold satI clampI
  rw [if_pos h]

theorem satI32_mem (hlo : -2 ^ 31 ≤ v) (hhi : v < 2 ^ 31) : satI 32 v = v :=
  satI_of_mem (by norm_num at hlo ⊢; omega) (by norm_num at hhi ⊢; omega)

theorem satI32_above (h : 2 ^ 31 ≤ v) : satI 32 v = 2 ^ 31 - 1 := satI_above (by norm_num at h ⊢; omega)

theorem satI32_below (h : v < -2 ^ 31) : satI 32 v = -2 ^ 31 := satI_below (by norm_num at h ⊢; omega)

theorem storeSat_exact (d : Dev) (c : Nat) (k : DspCore) : d.storeSat c 0 k = some (d, k) := rfl

theorem storeSat_saturated {d : Dev} {c n : Nat} {k : DspCore} (hn : n ≠ 0) :
    d.storeSat c n k = some (d.flagN (dspFlags c) 1 n, { k with fl := { k.fl with ss := true } }) := if_neg hn

end

/-- Settles O41: the scalar instructions of a core, with the flags that each sets. -/
theorem dspScalarInstructions : Obligations.DspScalarInstructions := by
  unfold Obligations.DspScalarInstructions
  intro s c w k a b hk ha hb
  subst hk ha hb
  refine ⟨fun hat => ?nop, fun hat => ?movg, fun hat => ?add, fun hat => ?sub, fun hat => ?cmp, fun i op opc hi hat => ?logic,
    fun hat => ?shl, fun hat => ?sar, fun hat => ?sgt, fun hat => ?movxg, fun hat => ?movgx, fun v hv hat => ?mulq,
    fun rd imm hruns hopc hrd himm => ?ldi⟩
  case nop => exact coreDoes_of_pure (op := dspNopOp c w) hat (by rfl) rfl rfl (by simp)
  case movg => exact coreDoes_of_pure (op := movgOp c w) hat (by rfl) rfl rfl (by simp)
  case add => exact coreDoes_of_pure (op := dspAddOp c w) hat (by rfl) rfl rfl (by simp)
  case sub => exact coreDoes_of_pure (op := dspSubOp c w) hat (by rfl) rfl rfl (by simp)
  case cmp => exact coreDoes_of_pure (op := cmpOp c w) hat (by rfl) rfl rfl (by simp)
  case logic =>
    obtain ⟨rfl, rfl, rfl⟩ | ⟨rfl, rfl, rfl⟩ | ⟨rfl, rfl, rfl⟩ := hi
    · exact coreDoes_of_pure (op := dspAndOp c w) hat (by rfl) rfl rfl (by simp)
    · exact coreDoes_of_pure (op := dspOrOp c w) hat (by rfl) rfl rfl (by simp)
    · exact coreDoes_of_pure (op := dspXorOp c w) hat (by rfl) rfl rfl (by simp)
  case shl => exact coreDoes_of_pure (op := shlOp c w) hat (by rfl) rfl (by simp [bits]) (by simp)
  case sar => exact coreDoes_of_pure (op := sarOp c w) hat (by rfl) rfl (by simp [bits]) (by simp)
  case sgt => exact coreDoes_of_pure (op := sgtOp c w) hat (by rfl) rfl rfl (by simp)
  case movxg => exact coreDoes_of_pure (op := movxgOp c w) hat (by rfl) rfl rfl (by simp)
  case movgx => exact coreDoes_of_pure (op := movgxOp c w) hat (by rfl) rfl rfl (by simp)
  case mulq =>
    have hshift : rshift (((s.now.core c).gr w.a.toNat).toInt * ((s.now.core c).gr w.b.toNat).toInt) 14 = v := hv
    refine ⟨fun hlo hhi => ?_, fun habove => ?_, fun hbelow => ?_⟩
    · refine coreDoes_of_run (op := mulqOp c w) hat (by rfl) rfl ?_ (by simp)
      dsimp only
      rw [hshift, satI32_mem hlo hhi, if_pos rfl, storeSat_exact]
    · refine coreFlags_of_run (op := mulqOp c w) (n := 1) hat (by rfl) rfl ?_ (by simp)
      dsimp only
      rw [hshift, satI32_above habove, if_neg (by omega), storeSat_saturated (by decide)]
      rfl
    · refine coreFlags_of_run (op := mulqOp c w) (n := 1) hat (by rfl) rfl ?_ (by simp)
      dsimp only
      rw [hshift, satI32_below hbelow, if_neg (by omega), storeSat_saturated (by decide)]
      rfl
  case ldi =>
    have hop := ldiOp_runs hruns hopc hrd himm
    have hddr : (ldiOp c rd imm s.now).ddr = s.now.ddr := by simp
    refine ⟨s.onNow (ldiOp c rd imm), by rfl, ?_⟩
    simp only [State.onNow, hop] at hddr ⊢
    obtain ⟨hcore, hpc, hothers, hkeys, hhub, heas, hrx⟩ := coreAfter_leaves s.now c
      { d := 0, a := 0, b := 0, fx := none, fy := none, fk := none, st := none, imm := 0 } (s.now.core c)
      ((s.now.core c).setG rd.toNat imm)
    exact ⟨hcore, hpc, hothers, hkeys, hhub, heas, hrx, hddr⟩

end Sys2Proof.Machine
end

section
/-! The complex instructions of a DSP core, its accumulators, and the search (R377, R378, R380). -/

namespace Sys2Proof.Machine

section
variable {d : Dev} {c i : Nat} {k : DspCore} {v : Int × Int}

theorem bits_low (v h : Nat) : bits v h 0 = v % 2 ^ (h + 1) := by simp [bits]

/-! ### Accumulators -/

theorem satI_eq_max_min (n : Nat) (v : Int) :
    satI n v = max (-((2 ^ (n - 1) : Nat) : Int)) (min (((2 ^ (n - 1) : Nat) : Int) - 1) v) := by
  have hpos : (0 : Int) < (2 ^ (n - 1) : Nat) := Int.natCast_pos.mpr (Nat.two_pow_pos _)
  unfold satI clampI
  split
  · omega
  · split <;> omega

theorem satI_ne_of_not_mem {n : Nat} {v : Int} (h : ¬ ((-(2 ^ (n - 1) : Nat) : Int) ≤ v ∧ v < (2 ^ (n - 1) : Nat))) :
    v ≠ satI n v := by
  have hpos : (0 : Int) < (2 ^ (n - 1) : Nat) := Int.natCast_pos.mpr (Nat.two_pow_pos _)
  rw [satI_eq_max_min]
  omega

theorem satI_of_mem' {n : Nat} {v : Int} (h : (-(2 ^ (n - 1) : Nat) : Int) ≤ v ∧ v < (2 ^ (n - 1) : Nat)) : satI n v = v :=
  satI_of_mem h.1 (by omega)

theorem changed_self (v : Int × Int) : changed v v = 0 := by simp [changed]

theorem changed_ne_zero {a b : Int × Int} (h : ¬ (a.1 = b.1 ∧ a.2 = b.2)) : changed a b ≠ 0 := by
  unfold changed
  split
  · next h1 =>
    split
    · next h2 => exact absurd ⟨h1, h2⟩ h
    · decide
  · omega

theorem toAcc_exact (hsat : (satI 40 v.1, satI 40 v.2) = v) : d.toAcc c i v k = some (d, k.setAc i v) := by
  unfold Dev.toAcc
  simp only [hsat, changed_self, if_true]

theorem toAcc_saturated (hchanged : changed v (satI 40 v.1, satI 40 v.2) ≠ 0) : d.toAcc c i v k =
    some (d.flagN (dspFlags c) 0 (changed v (satI 40 v.1, satI 40 v.2)),
      { k.setAc i (satI 40 v.1, satI 40 v.2) with fl := { k.fl with acs := true } }) := if_neg hchanged

/-- The part of a value within Q10.30 (R377). -/
theorem satI40 (v : Int) : satI 40 v = max (-2 ^ 39) (min (2 ^ 39 - 1) v) := satI_eq_max_min 40 v

theorem satI16 (v : Int) : satI 16 v = max (-32768) (min 32767 v) := satI_eq_max_min 16 v

theorem satI32 (v : Int) : satI 32 v = max (-2 ^ 31) (min (2 ^ 31 - 1) v) := satI_eq_max_min 32 v

theorem satI40_exact {re im : Int} (hre : -2 ^ 39 ≤ re) (hre' : re < 2 ^ 39) (him : -2 ^ 39 ≤ im) (him' : im < 2 ^ 39) :
    (satI 40 re, satI 40 im) = (re, im) := by
  rw [satI_of_mem' (n := 40) ⟨hre, hre'⟩, satI_of_mem' (n := 40) ⟨him, him'⟩]

theorem satI40_changed {re im : Int} (h : ¬ (-2 ^ 39 ≤ re ∧ re < 2 ^ 39 ∧ -2 ^ 39 ≤ im ∧ im < 2 ^ 39)) :
    changed (re, im) (satI 40 re, satI 40 im) ≠ 0 := by
  refine changed_ne_zero fun hsame => ?_
  rw [satI40, satI40] at hsame
  norm_num at hsame h
  omega

/-! ### Conversion to the X registers -/

theorem satI16_exact {re im : Int} (hre : -32768 ≤ re) (hre' : re < 32768) (him : -32768 ≤ im) (him' : im < 32768) :
    (satI 16 re, satI 16 im) = (re, im) := by
  rw [satI_of_mem' (n := 16) ⟨hre, hre'⟩, satI_of_mem' (n := 16) ⟨him, him'⟩]

theorem satI16_changed {re im : Int} (h : ¬ (-32768 ≤ re ∧ re < 32768 ∧ -32768 ≤ im ∧ im < 32768)) :
    changed (re, im) (satI 16 re, satI 16 im) ≠ 0 := by
  refine changed_ne_zero fun hsame => ?_
  rw [satI16, satI16] at hsame
  dsimp only at hsame
  omega

/-- Two halves of a word of an X register. -/
theorem halves_eq_append (re im : Int) :
    BitVec.ofNat 32 (toU 16 re + 2 ^ 16 * toU 16 im) = BitVec.ofInt 16 im ++ BitVec.ofInt 16 re := by
  have hre : (BitVec.ofInt 16 re).toNat = toU 16 re := BitVec.toNat_ofInt ..
  have him : (BitVec.ofInt 16 im).toNat = toU 16 im := BitVec.toNat_ofInt ..
  have hlow : toU 16 re < 2 ^ 16 := hre ▸ BitVec.isLt _
  have hhigh : toU 16 im < 2 ^ 16 := him ▸ BitVec.isLt _
  apply BitVec.eq_of_toNat_eq
  rw [BitVec.toNat_append, hre, him, ← Nat.shiftLeft_add_eq_or_of_lt hlow, BitVec.toNat_ofNat, Nat.shiftLeft_eq]
  omega

/-! ### Search -/

theorem key_eq (w : DWord) : k.key w = (if w.imm.toNat % 4 = 0 then (k.xc w.a.toNat).1
    else if w.imm.toNat % 4 = 1 then (k.xc w.a.toNat).2
    else (k.xc w.a.toNat).1 * (k.xc w.a.toNat).1 + (k.xc w.a.toNat).2 * (k.xc w.a.toNat).2) := by
  unfold DspCore.key
  rw [show bits w.imm.toNat 1 0 = w.imm.toNat % 4 from bits_low ..]
  dsimp only
  split
  · next h => rw [if_pos h]
  · next h => rw [if_neg (by omega), if_pos h]
  · next h0 h1 => rw [if_neg h0, if_neg h1]

theorem search_eq {key : Int} {better : Prop} [Decidable better] {b : Bool} (h : better ↔ k.sempty = true ∨ b = true) :
    k.search key b = { k with
      sv := if better then key else k.sv
      sx := if better then k.scount else k.sx
      sempty := if better then false else k.sempty
      scount := (k.scount + 1) % 2 ^ 32 } := by
  unfold DspCore.search
  by_cases hb : better
  · have hb' := h.mp hb
    simp only [hb, if_true, Bool.or_eq_true, hb']
  · have hb' := mt h.mpr hb
    simp only [hb, if_false, Bool.or_eq_true, hb']

end

/-- Settles O42: products go to an accumulator, conversions round and saturate, and the search keeps the first extreme. -/
theorem dspComplexInstructions : Obligations.DspComplexInstructions := by
  unfold Obligations.DspComplexInstructions
  intro s c w k a b e hk ha hb he
  subst hk ha hb he
  refine ⟨fun i opc re im hi hat => ?product, fun hat => ?aclr, fun re im sh hsh hre him hat => ?sta,
    fun p v sh hsh hp hv hat => ?stag, fun i opc key better _ hkey hi hat => ?search, fun hat => ?srst, fun hat => ?srd⟩
  case product =>
    have hrun : ∃ op f, exec i s = .next (s.onNow op) ∧ op s.now = s.now.dspRun c opc w f ∧
        f s.now (s.now.core c) = s.now.toAcc c w.d.toNat (re, im) (s.now.core c) ∧ (op s.now).ddr = s.now.ddr := by
      obtain ⟨rfl, rfl, rfl, rfl⟩ | ⟨rfl, rfl, rfl, rfl⟩ | ⟨rfl, rfl, rfl, rfl⟩ | ⟨rfl, rfl, rfl, rfl⟩ := hi
      · exact ⟨cmacOp c w, _, by rfl, rfl, rfl, by simp⟩
      · refine ⟨cmacjOp c w, _, by rfl, rfl, congrArg (fun v => s.now.toAcc c w.d.toNat v _) (Prod.ext ?_ ?_), by simp⟩
        · simp only [cadd, cmul, conj]
          ring
        · simp only [cadd, cmul, conj]
          ring
      · refine ⟨cmsbOp c w, _, by rfl, rfl, congrArg (fun v => s.now.toAcc c w.d.toNat v _) (Prod.ext ?_ ?_), by simp⟩
        · simp only [cadd, cmul, cneg]
          ring
        · simp only [cadd, cmul, cneg]
          ring
      · exact ⟨cmulOp c w, _, by rfl, rfl, rfl, by simp⟩
    obtain ⟨op, f, hexec, hop, hf, hddr⟩ := hrun
    refine ⟨fun hre hre' him him' => ?_, fun hout => ?_⟩
    · exact coreDoes_of_run hat hexec hop (hf.trans (toAcc_exact (satI40_exact hre hre' him him'))) hddr
    · have hsat := hf.trans (toAcc_saturated (satI40_changed hout))
      simp only [satI40] at hsat
      exact coreFlags_of_run hat hexec hop hsat hddr
  case aclr => exact coreDoes_of_pure (op := aclrOp c w) hat (by rfl) rfl rfl (by simp)
  case sta =>
    have hre' : rshift ((s.now.core c).acr w.a.toNat).1 (sh + 15) = re := hre
    have him' : rshift ((s.now.core c).acr w.a.toNat).2 (sh + 15) = im := him
    have hbits : bits w.imm.toNat 4 0 = sh := (bits_low ..).trans hsh
    refine ⟨fun h1 h2 h3 h4 => ?_, fun hout => ?_⟩
    · refine coreDoes_of_run (op := staOp c w) hat (by rfl) rfl ?_ (by simp)
      have hsame := satI16_exact h1 h2 h3 h4
      obtain ⟨hsre, hsim⟩ := Prod.mk.inj hsame
      dsimp only
      rw [hbits, hre', him', hsre, hsim, changed_self, storeSat_exact, halves_eq_append]
    · refine coreFlags_of_run (op := staOp c w) (n := changed (re, im) (satI 16 re, satI 16 im)) hat (by rfl) rfl ?_ (by simp)
      dsimp only
      rw [hbits, hre', him', storeSat_saturated (satI16_changed hout), halves_eq_append, satI16 re, satI16 im]
      rfl
  case stag =>
    have hbits : bits w.imm.toNat 4 0 = sh := (bits_low ..).trans hsh
    have hv' : rshift (if w.imm.toNat.testBit 5 then ((s.now.core c).acr w.a.toNat).2 else ((s.now.core c).acr w.a.toNat).1) sh = v := by
      rw [hp, ← hv]
      unfold rshift
      push_cast
      rfl
    refine ⟨fun hlo hhi => ?_, fun hout => ?_⟩
    · refine coreDoes_of_run (op := stagOp c w) hat (by rfl) rfl ?_ (by simp)
      dsimp only
      rw [hbits, hv', satI32_mem hlo hhi, if_pos rfl, storeSat_exact]
    · refine coreFlags_of_run (op := stagOp c w) (n := 1) hat (by rfl) rfl ?_ (by simp)
      dsimp only
      rw [hbits, hv', if_neg (satI_ne_of_not_mem (n := 32) hout), storeSat_saturated (by decide), satI32]
      rfl
  case search =>
    rw [← key_eq] at hkey
    subst hkey
    obtain ⟨rfl, rfl, hbetter⟩ | ⟨rfl, rfl, hbetter⟩ := hi
    · exact coreDoes_of_pure (op := maxiOp c w) hat (by rfl) rfl (search_eq (by rw [hbetter, decide_eq_true_iff])) (by simp)
    · exact coreDoes_of_pure (op := miniOp c w) hat (by rfl) rfl (search_eq (by rw [hbetter, decide_eq_true_iff])) (by simp)
  case srst => exact coreDoes_of_pure (op := srstOp c w) hat (by rfl) rfl rfl (by simp)
  case srd => exact coreDoes_of_pure (op := srdOp c w) hat (by rfl) rfl rfl (by simp)

end Sys2Proof.Machine
end

section
/-! Pointers, parallel fields and the flow of control of a DSP core (R370 to R375, R382 to R385). -/

namespace Sys2Proof.Machine

section
variable {d : Dev} {c : Nat} {w : DWord} {k k0 : DspCore}

/-! ### Pointers and parallel fields -/

theorem bits_low5 (v : Nat) : bits v 4 0 = v % 32 := bits_low v 4

/-- The post-modify of LDG and STG, by IMM[0]. -/
theorem postModify_pointerField (w : DWord) (k0 k : DspCore) : postModify k0 (pointerField w) k =
    if w.imm.toNat % 2 = 1 then k.setAreg (w.a.toNat % 8) (k0.post (w.a.toNat % 8)) else k := by
  unfold postModify pointerField
  simp [Nat.testBit_zero]

theorem setX_xr (k : DspCore) (i : Nat) (v : W32) : (k.setX i v).xr i = v := tabGet_set_self ..

theorem setAreg_areg_other {i j : Nat} (v : Nat) (h : i % 32 ≠ j % 32) : (k.setAreg i v).areg j = k.areg j :=
  tabGet_set_other _ _ _ _ _ _ (Ne.symm h)

theorem setAreg_areg_pointer {i : Nat} (v : Nat) (h : i < 8) : (k.setAreg i v).areg i = v % 2 ^ 14 := by
  unfold DspCore.setAreg DspCore.areg
  rw [Nat.mod_eq_of_lt (show i < 32 by omega), tabGet_set_self, if_neg (by omega)]

/-- What a store leaves: the word is there, and the registers stand. -/
theorem putAt_leaves {p a : Nat} (v : W32) : (k.putAt p a v).x = k.x ∧ (k.putAt p a v).ar = k.ar ∧
    (if p < 4 then tabGet 0 (k.putAt p a v).xm a else if p < 6 then tabGet 0 (k.putAt p a v).ym a
      else tabGet 0 (k.putAt p a v).km a) = v := by
  unfold DspCore.putAt
  split
  · exact ⟨rfl, rfl, tabGet_set_self ..⟩
  · split
    · exact ⟨rfl, rfl, tabGet_set_self ..⟩
    · exact ⟨rfl, rfl, tabGet_set_self ..⟩

/-- The end of an instruction leaves the registers and the memories. -/
theorem advance_leaves (k0 k : DspCore) : (k0.advance k).g = k.g ∧ (k0.advance k).x = k.x ∧ (k0.advance k).ar = k.ar ∧
    (k0.advance k).xm = k.xm ∧ (k0.advance k).ym = k.ym ∧ (k0.advance k).km = k.km := by
  unfold DspCore.advance
  split
  · exact ⟨rfl, rfl, rfl, rfl, rfl, rfl⟩
  · dsimp only
    split <;> exact ⟨rfl, rfl, rfl, rfl, rfl, rfl⟩

/-- A fetch that moves its pointer on, beside a store that does not. -/
theorem parallel_fetch_store {f g : DFetch} (hpost : f.post = true) (hstay : g.post = false) (dd aa bb : BitVec 4) (imm : BitVec 15)
    (k : DspCore) :
    parallel k { d := dd, a := aa, b := bb, fx := some f, fy := none, fk := none, st := some g, imm := imm } k =
      (((k.setX f.x.toNat (k.atPt f.pt)).putAt g.pt (k.areg g.pt % ptSize g.pt) (k.xr g.x.toNat)).setAreg f.pt (k.post f.pt)) := by
  unfold parallel fetchInto storeFrom postModify
  simp only [hpost, hstay, if_true, Bool.false_eq_true, if_false]

theorem parallel_bare (dd aa bb : BitVec 4) (imm : BitVec 15) (k : DspCore) :
    parallel k { d := dd, a := aa, b := bb, fx := none, fy := none, fk := none, st := none, imm := imm } k = k := rfl

/-- The memories that pointers serve, at the address of a pointer. -/
theorem atPt_eq {j k : DspCore} {p : Nat} (har : j.areg p = k.areg p) : j.atPt p =
    if p < 4 then tabGet 0 j.xm (k.areg p % ptSize p) else if p < 6 then tabGet 0 j.ym (k.areg p % ptSize p)
      else tabGet 0 j.km (k.areg p % ptSize p) := by
  unfold DspCore.atPt
  rw [har]

/-- The pointer of XM after its post-modify (R374). -/
theorem post_xm {p : Nat} (hp : p < 6) : k.post p = if k.areg (24 + p) = 0
    then toU 14 (((k.areg p : Int) + sext 16 (k.areg (8 + p))) % 8192)
    else toU 14 ((k.areg (16 + p) : Int) +
      ((k.areg p : Int) - k.areg (16 + p) + sext 16 (k.areg (8 + p))) % (k.areg (24 + p) : Int)) := by
  unfold DspCore.post ptSize
  rw [if_pos hp]
  rfl

/-! ### Stores that wait for a sample feed -/

theorem stalls_of_feed {opc : Nat} (hstores : storesX opc w = true) (hfeed : d.feedsNow c = true)
    (hstalled : (d.core c).stalled = none) : d.stalls c opc w = true := by
  unfold Dev.stalls
  simp [hstores, hfeed, hstalled]

theorem stgOp_stalls (hat : d.dspAt c 0x1F w = true) (hstalls : d.stalls c 0x1F w = true) :
    stgOp c w d = d.setCore c { d.core c with stalled := some d.epoch } := by
  unfold stgOp Dev.dspPure
  exact dspRun_stalls hat hstalls

theorem dspNopOp_stalls (hat : d.dspAt c 0x00 w = true) (hstalls : d.stalls c 0x00 w = true) :
    dspNopOp c w d = d.setCore c { d.core c with stalled := some d.epoch } := by
  unfold dspNopOp Dev.dspPure
  exact dspRun_stalls hat hstalls

theorem dspAt_of_word {opc : Nat} (hruns : d.coreRuns c = true) (hopc : bits (d.core c).fetch.toNat 7 0 = opc)
    (hword : dspWord (d.core c).fetch = w) : d.dspAt c opc w = true := by
  unfold Dev.dspAt
  simp [hruns, hopc, hword]

/-! ### Branches, the stack, REPEAT and loops -/

theorem branchTo_eq (k : DspCore) (t : Nat) : k.branchTo t = Branches k t := rfl

theorem push_room (h : k.stack.length < 8) (pc : Nat) : k.push pc = some { k with stack := (pc % 8192, k.fl) :: k.stack } := if_pos h

theorem push_full (h : 8 ≤ k.stack.length) (pc : Nat) : k.push pc = none := if_neg (by omega)

theorem startLoop_pos {b count : Nat} (h : 0 < count) : k.startLoop b count =
    k.setLoops ({ first := (k.pc + 1) % 8192, last := (k.pc + b + 1) % 8192, left := count } :: k.loops) := if_neg (by omega)

theorem startLoop_zero {b : Nat} : k.startLoop b 0 =
    { k with branch := some ((loopNext k.loops ((k.pc + b + 1) % 8192)).1, 1) }.setLoops
      (loopNext k.loops ((k.pc + b + 1) % 8192)).2 := rfl

theorem advance_repeat (h : 1 < k0.repeat_) (k : DspCore) : k0.advance k = { k with repeat_ := k0.repeat_ - 1 } := if_pos h

theorem advance_next (hrepeat : k0.repeat_ = 0) (hbranch : k.branch = none) :
    (k0.advance k).pc = (loopNext k.loops k.pc).1 ∧ (k0.advance k).loops = (loopNext k.loops k.pc).2 := by
  unfold DspCore.advance
  rw [if_neg (by omega)]
  simp only [hbranch]
  exact ⟨rfl, rfl⟩

theorem advance_slot {b : Nat} (hrepeat : k0.repeat_ = 0) (hbranch : k.branch = some (b, 2)) :
    (k0.advance k).pc = (loopNext k.loops k.pc).1 ∧ (k0.advance k).branch = some (b, 1) := by
  unfold DspCore.advance
  rw [if_neg (by omega)]
  simp only [hbranch]
  exact ⟨rfl, rfl⟩

theorem advance_branch {b : Nat} (hrepeat : k0.repeat_ = 0) (hbranch : k.branch = some (b, 1)) :
    (k0.advance k).pc = b ∧ (k0.advance k).branch = none := by
  unfold DspCore.advance
  rw [if_neg (by omega)]
  simp only [hbranch]
  exact ⟨trivial, trivial⟩

theorem loopNext_again {l : DLoop} {rest : List DLoop} {pc : Nat} (hpc : pc = l.last) (hleft : 1 < l.left) :
    loopNext (l :: rest) pc = (l.first, { l with left := l.left - 1 } :: rest) := by
  unfold loopNext
  rw [if_pos hpc, if_pos hleft]

end

/-- Settles O43: pointers and parallel fields, stores that wait, branches, calls, REPEAT and loops. -/
theorem dspPointersAndFlow : Obligations.DspPointersAndFlow := by
  unfold Obligations.DspPointersAndFlow
  intro s c w k a hk ha
  subst hk ha
  refine ⟨fun hat => ?ldg, fun hat => ?stg, fun i opc hi hruns hopc hword hfeed hstalled => ?waits, fun hat => ?movp,
    fun hat => ?movpg, fun f g hw hf hg hg' hpost hstay hat => ?parallel, fun hat => ?jmp, fun hat => ?jcc,
    fun hat hroom => ?call, fun p rest hat hstack => ?ret, fun p rest hat hstack => ?rti, fun i hi => ?fault, fun hat => ?again,
    fun i count hi => ?loops, fun hw hat => ?bare⟩
  case ldg =>
    refine coreDoes_of_pure (op := ldgOp c w) hat (by rfl) rfl (postModify_pointerField w _ _) (by simp)
  case stg =>
    refine coreDoes_of_pure (op := stgOp c w) hat (by rfl) rfl (postModify_pointerField w _ _) (by simp)
  case waits =>
    have hat := dspAt_of_word hruns hopc hword
    obtain ⟨rfl, rfl, hst⟩ | ⟨rfl, rfl, hpt⟩ := hi
    · have hstalls := stalls_of_feed (opc := 0x00) (w := w) (by simp [storesX, hst]) hfeed hstalled
      exact congrArg (fun d => Host.Outcome.next { s with now := d }) (dspNopOp_stalls hat hstalls)
    · have hstalls := stalls_of_feed (opc := 0x1F) (w := w) (by simp [storesX, hpt]) hfeed hstalled
      exact congrArg (fun d => Host.Outcome.next { s with now := d }) (stgOp_stalls hat hstalls)
  case movp => exact coreDoes_of_pure (op := movpOp c w) hat (by rfl) rfl (by rw [bits_low5]) (by simp)
  case movpg => exact coreDoes_of_pure (op := movpgOp c w) hat (by rfl) rfl (by dsimp only; rw [bits_low5]) (by simp)
  case parallel =>
    obtain ⟨t, hexec, hcore, -⟩ := coreDoes_of_pure (i := .dspNop c w) (op := dspNopOp c w) hat (by rfl) rfl rfl (by simp)
    simp only [id_eq] at hcore
    rw [hw, parallel_fetch_store hpost hstay] at hcore
    obtain ⟨-, hx, har, hxm, hym, hkm⟩ := advance_leaves (s.now.core c)
      ((((s.now.core c).setX f.x.toNat ((s.now.core c).atPt f.pt)).putAt g.pt ((s.now.core c).areg g.pt % ptSize g.pt)
        ((s.now.core c).xr g.x.toNat)).setAreg f.pt ((s.now.core c).post f.pt))
    obtain ⟨hpx, hpar, hstored⟩ := putAt_leaves (k := (s.now.core c).setX f.x.toNat ((s.now.core c).atPt f.pt)) (p := g.pt)
      (a := (s.now.core c).areg g.pt % ptSize g.pt) ((s.now.core c).xr g.x.toNat)
    rw [← hcore] at hx har hxm hym hkm
    have hareg : ∀ i, (t.now.core c).areg i = ((((s.now.core c).setX f.x.toNat ((s.now.core c).atPt f.pt)).putAt g.pt
        ((s.now.core c).areg g.pt % ptSize g.pt) ((s.now.core c).xr g.x.toNat)).setAreg f.pt ((s.now.core c).post f.pt)).areg i :=
      fun i => congrArg (fun t => tabGet 0 t (i % 32)) har
    refine ⟨t, hexec, ?_, ?_, ?_⟩
    · exact (congrArg (fun t => tabGet 0 t (f.x.toNat % 8)) (hx.trans hpx)).trans (setX_xr ..)
    · rw [hareg, setAreg_areg_pointer _ (by omega), post_xm (by omega)]
    · have hstay' : (t.now.core c).areg g.pt = (s.now.core c).areg g.pt := by
        rw [hareg, setAreg_areg_other _ (by omega)]
        exact congrArg (fun t => tabGet 0 t (g.pt % 32)) hpar
      rw [atPt_eq hstay', hxm, hym, hkm]
      exact hstored
  case jmp => exact coreDoes_of_pure (op := jmpOp c w) hat (by rfl) rfl (by rw [bits_low, branchTo_eq]) (by simp)
  case jcc => exact coreDoes_of_pure (op := jccOp c w) hat (by rfl) rfl (by rw [bits_low, branchTo_eq]) (by simp)
  case call =>
    refine coreDoes_of_run (op := callOp c w) hat (by rfl) rfl ?_ (by simp)
    rw [push_room hroom, Option.map_some, bits_low, branchTo_eq]
  case ret =>
    refine coreDoes_of_run (op := retOp c w) hat (by rfl) rfl ?_ (by simp)
    simp only [hstack, branchTo_eq]
  case rti =>
    refine coreDoes_of_run (op := rtiOp c w) hat (by rfl) rfl ?_ (by simp)
    simp only [hstack]
  case fault =>
    obtain ⟨rfl, hat, hfull⟩ | ⟨rfl, hat, hempty⟩ | ⟨rfl, hat, hempty⟩ := hi
    · exact congrArg (fun d => Host.Outcome.next { s with now := d })
        (show callOp c w s.now = _ from dspRun_none hat (by rw [push_full hfull]; rfl))
    · exact congrArg (fun d => Host.Outcome.next { s with now := d })
        (show retOp c w s.now = _ from dspRun_none hat (by simp only [hempty]))
    · exact congrArg (fun d => Host.Outcome.next { s with now := d })
        (show rtiOp c w s.now = _ from dspRun_none hat (by simp only [hempty]))
  case again => exact coreDoes_of_pure (op := repeatNOp c w) hat (by rfl) rfl rfl (by simp)
  case loops =>
    have hrun : ∃ op f opc, exec i s = .next (s.onNow op) ∧ AtDsp s.now c opc w ∧ op s.now = s.now.dspPure c opc w f ∧
        f (s.now.core c) = (s.now.core c).startLoop w.b.toNat count ∧ (op s.now).ddr = s.now.ddr := by
      obtain ⟨rfl, hat, rfl⟩ | ⟨rfl, hat, rfl⟩ := hi
      · exact ⟨dspLoopOp c w, _, _, by rfl, hat, rfl, by rw [bits_low], by simp⟩
      · exact ⟨loopiOp c w, _, _, by rfl, hat, rfl, rfl, by simp⟩
    obtain ⟨op, f, opc, hexec, hat, hop, hf, hddr⟩ := hrun
    refine ⟨fun hpos => coreDoes_of_pure hat hexec hop (hf.trans (startLoop_pos hpos)) hddr, fun hzero => ?_⟩
    subst hzero
    exact coreDoes_of_pure hat hexec hop (hf.trans startLoop_zero) hddr
  case bare =>
    obtain ⟨t, hexec, hcore, -⟩ := coreDoes_of_pure (i := .dspNop c w) (op := dspNopOp c w) hat (by rfl) rfl rfl (by simp)
    rw [hw] at hcore
    simp only [id_eq, parallel_bare] at hcore
    obtain ⟨hg, hx, -⟩ := advance_leaves (s.now.core c) (s.now.core c)
    refine ⟨t, hexec, ?_⟩
    rw [hcore]
    refine ⟨hg, hx, fun hrepeat hbranch hloops => ?_, fun hrepeat => ?_, fun b hrepeat hbranch hloops => ?_,
      fun b hrepeat hbranch => advance_branch hrepeat hbranch, fun l rest hrepeat hbranch hloops hpc hleft => ?_⟩
    · rw [(advance_next hrepeat hbranch).1, hloops]
      rfl
    · rw [advance_repeat hrepeat]
      exact ⟨rfl, rfl⟩
    · obtain ⟨hpc, hleft⟩ := advance_slot hrepeat hbranch
      rw [hpc, hloops]
      exact ⟨rfl, hleft⟩
    · obtain ⟨hpc', hloops'⟩ := advance_next hrepeat hbranch
      rw [hpc', hloops', hloops, loopNext_again hpc hleft]
      exact ⟨rfl, rfl⟩

end Sys2Proof.Machine
end

section
/-! Windows, records, interrupts and the mailbox of a DSP core (R386 to R390, R393 to R406). -/

namespace Sys2Proof.Machine

section
variable {d e : Dev} {c : Nat} {w : DWord} {k k0 : DspCore} {f : Option DFetch}

/-! ### The record of a core beside its other operations -/

theorem fetchInto_record (k0 : DspCore) (f : Option DFetch) (k : DspCore) :
    (fetchInto k0 f k).rec_ = k.rec_ ∧ (fetchInto k0 f k).contNext = k.contNext := by
  cases f <;> exact ⟨rfl, rfl⟩

theorem storeFrom_record (k0 : DspCore) (f : Option DFetch) (k : DspCore) :
    (storeFrom k0 f k).rec_ = k.rec_ ∧ (storeFrom k0 f k).contNext = k.contNext := by
  unfold storeFrom
  split
  · exact ⟨rfl, rfl⟩
  · unfold DspCore.putAt
    split
    · exact ⟨rfl, rfl⟩
    · split <;> exact ⟨rfl, rfl⟩

theorem postModify_record (k0 : DspCore) (f : Option DFetch) (k : DspCore) :
    (postModify k0 f k).rec_ = k.rec_ ∧ (postModify k0 f k).contNext = k.contNext := by
  unfold postModify
  split
  · exact ⟨rfl, rfl⟩
  · split <;> exact ⟨rfl, rfl⟩

theorem parallel_record (k0 : DspCore) (w : DWord) (k : DspCore) :
    (parallel k0 w k).rec_ = k.rec_ ∧ (parallel k0 w k).contNext = k.contNext := by
  unfold parallel
  simp only [postModify_record, storeFrom_record, fetchInto_record, and_self]

theorem advance_record (k0 k : DspCore) : (k0.advance k).rec_ = k.rec_ ∧ (k0.advance k).contNext = k.contNext := by
  unfold DspCore.advance
  split
  · exact ⟨rfl, rfl⟩
  · dsimp only
    split <;> exact ⟨rfl, rfl⟩

theorem coreAfter_record (e : Dev) (c : Nat) (w : DWord) (k0 k : DspCore) :
    ((coreAfter e c w k0 k).core c).rec_ = k.rec_ ∧ ((coreAfter e c w k0 k).core c).contNext = k.contNext := by
  rw [(coreAfter_leaves e c w k0 k).1, (advance_record ..).1, (advance_record ..).2]
  exact parallel_record ..

/-! ### Decisions and words of a window -/

/-- The window that an entry names, while its decision is open. -/
def Win.openFor (en : WEntry) (epoch budget : Nat) (v : Win) : Bool :=
  v.launch == en.launch && v.job == en.job && v.decision.isNone && decide (epoch + 1 ≤ v.dump + budget)

theorem decSlack_leaves (d : Dev) (c : Nat) (w : Win) (at_ : Nat) :
    (d.decSlack c w at_).rx = d.rx ∧ (d.decSlack c w at_).hub = d.hub ∧
    ((d.decSlack c w at_).core c).fifo = (d.core c).fifo ∧ ((d.decSlack c w at_).core c).g = (d.core c).g := by
  unfold Dev.decSlack
  dsimp only
  split
  · rw [Dev.core_setCore_self]
    exact ⟨rfl, rfl, rfl, rfl⟩
  · exact ⟨rfl, rfl, rfl, rfl⟩

/-- A window with the decision of a core, which is produced in the next tick. -/
def Win.decidedBy (o epoch : Nat) (v : Win) : Win := { v with decision := some (o, false, true), due := epoch + 1 }

theorem outdOp_decides {en : WEntry} {v : Win} (hat : AtDsp d c 0x31 w) (hwt : (d.core c).wt = some en)
    (hkind : en.decide_ = true) (hforced : en.rflags.testBit 5 = false) (hwins : (d.slotRx en.slot).wins = [v])
    (hopen : Win.openFor en d.epoch (d.rd (unitKey 0x580008 c)) v = true) :
    outdOp c w d = coreAfter ((d.modWin en.slot (Win.openFor en d.epoch (d.rd (unitKey 0x580008 c)))
      (Win.decidedBy (((d.core c).gr w.a.toNat).toNat % 4) d.epoch)).decSlack c v (d.epoch + 1)) c w (d.core c)
        { d.core c with slackSet := true } := by
  have hfind := find_first (l := []) (r := []) (by simp) hopen
  unfold Win.openFor at hfind
  unfold outdOp
  refine dspRun_some hat ?_
  simp only [List.nil_append] at hfind
  simp only [hwt, hkind, hforced, hwins, hfind, if_true, Bool.false_eq_true, if_false, bits_low]
  rfl

theorem outdOp_leaves {en : WEntry} {v : Win} (hat : AtDsp d c 0x31 w) (hwt : (d.core c).wt = some en)
    (hkind : en.decide_ = true) (hforced : en.rflags.testBit 5 = false) (hwins : (d.slotRx en.slot).wins = [v])
    (hopen : Win.openFor en d.epoch (d.rd (unitKey 0x580008 c)) v = true) :
    ((outdOp c w d).slotRx en.slot).wins = [v.decidedBy (((d.core c).gr w.a.toNat).toNat % 4) d.epoch] ∧
    (outdOp c w d).hub = d.hub := by
  have hwins' := modWin_wins (l := []) (r := []) (f := Win.decidedBy (((d.core c).gr w.a.toNat).toNat % 4) d.epoch) hwins
    (by simp) hopen
  have hhub'' := (modWin_leaves d en.slot (Win.openFor en d.epoch (d.rd (unitKey 0x580008 c)))
    (Win.decidedBy (((d.core c).gr w.a.toNat).toNat % 4) d.epoch)).2.1
  rw [outdOp_decides hat hwt hkind hforced hwins hopen]
  generalize d.modWin en.slot (Win.openFor en d.epoch (d.rd (unitKey 0x580008 c)))
    (Win.decidedBy (((d.core c).gr w.a.toNat).toNat % 4) d.epoch) = e at hwins' hhub''
  obtain ⟨-, -, -, -, hhub, -, hrx⟩ := coreAfter_leaves (e.decSlack c v (d.epoch + 1)) c w (d.core c)
    { d.core c with slackSet := true }
  obtain ⟨hrx', hhub', -⟩ := decSlack_leaves e c v (d.epoch + 1)
  exact ⟨(congrArg SlotRx.wins (slotRx_congr (hrx.trans hrx') en.slot)).trans hwins', hhub.trans (hhub'.trans hhub'')⟩

/-- A word of a window's tag. -/
theorem tagWord (tag : W192) (i : Nat) :
    BitVec.ofNat 32 (bits tag.toNat (32 * i + 31) (32 * i)) = (tag >>> (32 * i)).truncate 32 := by
  have hwidth : 32 * i + 31 + 1 - 32 * i = 32 := by omega
  apply BitVec.eq_of_toNat_eq
  unfold bits
  rw [hwidth, BitVec.toNat_ofNat, BitVec.truncate_eq_setWidth, BitVec.toNat_setWidth, BitVec.toNat_ushiftRight,
    Nat.shiftRight_eq_div_pow, Nat.mod_mod]

/-! ### Records -/

theorem closeRec_present {j : Job} {r : DRec} (hjob : d.job k.job = some j) (hboundary : k.boundary = false)
    (hdone : k.done = false) : ∃ i, (d.closeRec c k r).job k.job = some i ∧
      i.recs = j.recs ++ [{ flow := 8, bytes := dspRecord c j.seq j.shot r }] ∧ i.recsNext = j.recsNext := by
  unfold Dev.closeRec
  simp only [hboundary, hdone, Bool.false_eq_true, if_false]
  exact ⟨_, job_modJob (fun _ => rfl) hjob, rfl, rfl⟩

theorem closeRec_next {j : Job} {r : DRec} (hjob : d.job k.job = some j) (hboundary : k.boundary = false)
    (hdone : k.done = true) : ∃ i, (d.closeRec c k r).job k.job = some i ∧ i.recs = j.recs ∧
      i.recsNext = j.recsNext ++ [{ flow := 8, bytes := dspRecord c j.seq j.shot r }] := by
  unfold Dev.closeRec
  simp only [hboundary, hdone, Bool.false_eq_true, if_false, if_true]
  exact ⟨_, job_modJob (fun _ => rfl) hjob, rfl, rfl⟩

theorem addRec_seq (j : Job) (shot attempt : Nat) (r : Rec) : (j.addRec shot attempt r).seq = j.seq := by
  unfold Job.addRec
  dsimp only
  split <;> rfl

theorem closeRec_boundary {j : Job} {r : DRec} (hjob : d.job k.job = some j) (hboundary : k.boundary = true)
    (hphase : j.phase = .shot) (hshot : k.bshot = (j.shot, j.attempt)) : ∃ i, (d.closeRec c k r).job k.job = some i ∧
      i.recs = j.recs ++ [{ flow := 8, bytes := dspRecord c j.seq j.shot r }] := by
  unfold Dev.closeRec
  simp only [hboundary, if_true]
  refine ⟨_, job_modJob (fun _ => addRec_seq ..) hjob, ?_⟩
  rw [hshot]
  unfold Job.addRec
  exact congrArg Job.recs (if_pos ⟨hphase, rfl, rfl⟩)

theorem closeRec_eas (d : Dev) (c : Nat) (k : DspCore) (r : DRec) : (d.closeRec c k r).eas = d.eas := rfl

/-- A record that closes leaves the core without one, and is among those of its job. -/
theorem closes {i : Instr} {s : State} {opc : Nat} {op : Dev → Dev} {f : Dev → DspCore → Option (Dev × DspCore)} {r : DRec}
    (hat : AtDsp s.now c opc w) (hexec : exec i s = .next (s.onNow op)) (hop : op s.now = s.now.dspRun c opc w f)
    (hf : f s.now (s.now.core c) = some (s.now.closeRec c (s.now.core c) r, k)) (hddr : (op s.now).ddr = s.now.ddr) :
    ∃ t, exec i s = .next t ∧ (t.now.core c).rec_ = k.rec_ ∧ (t.now.core c).contNext = k.contNext ∧
      (∀ q, t.now.job q = (s.now.closeRec c (s.now.core c) r).job q) ∧ t.now.eas = s.now.eas ∧ t.now.ddr = s.now.ddr := by
  rw [dspRun_some hat hf] at hop
  obtain ⟨hrec, hcont⟩ := coreAfter_record (s.now.closeRec c (s.now.core c) r) c w (s.now.core c) k
  obtain ⟨-, -, -, -, hhub, heas, -⟩ := coreAfter_leaves (s.now.closeRec c (s.now.core c) r) c w (s.now.core c) k
  refine ⟨s.onNow op, hexec, ?_⟩
  simp only [State.onNow, hop] at hddr ⊢
  exact ⟨hrec, hcont, fun q => job_congr hhub q, heas, hddr⟩

end

section
variable {s : State} {c : Nat} {w : DWord} {k : DspCore}

theorem emitOp_opens (hat : AtDsp s.now c 0x33 w) (hrec : (s.now.core c).rec_ = none) :
    CoreDoes (.emit c w) s c w { s.now.core c with
      rec_ := some { rtag := w.imm.toNat, cont := (s.now.core c).contNext, words := [(s.now.core c).gr w.a.toNat] }
      contNext := false } := by
  refine coreDoes_of_run (op := emitOp c w) hat (by rfl) rfl ?_ (by simp)
  simp only [hrec]
  rfl

theorem emitOp_goesOn {r : DRec} (hat : AtDsp s.now c 0x33 w) (hrec : (s.now.core c).rec_ = some r)
    (hroom : r.words.length < 255) : CoreDoes (.emit c w) s c w { s.now.core c with
      rec_ := some { r with words := r.words ++ [(s.now.core c).gr w.a.toNat] }, contNext := false } := by
  refine coreDoes_of_run (op := emitOp c w) hat (by rfl) rfl ?_ (by simp)
  simp only [hrec, List.length_append, List.length_singleton]
  exact if_neg (by omega)

theorem emitOp_fills {r : DRec} (hat : AtDsp s.now c 0x33 w) (hrec : (s.now.core c).rec_ = some r)
    (hfull : r.words.length = 255) : ∃ t, exec (.emit c w) s = .next t ∧ (t.now.core c).rec_ = none ∧
      (t.now.core c).contNext = true ∧ (∀ q, t.now.job q = (s.now.closeRec c (s.now.core c)
        { r with words := r.words ++ [(s.now.core c).gr w.a.toNat] }).job q) ∧
      t.now.eas = s.now.eas ∧ t.now.ddr = s.now.ddr := by
  refine closes (op := emitOp c w) (k := { s.now.core c with rec_ := none, contNext := true }) hat (by rfl) rfl ?_ (by simp)
  simp only [hrec, List.length_append, List.length_singleton]
  exact if_pos (by omega)

theorem ecloseOp_closes {r : DRec} (hat : AtDsp s.now c 0x34 w) (hrec : (s.now.core c).rec_ = some r) :
    ∃ t, exec (.eclose c w) s = .next t ∧ (t.now.core c).rec_ = none ∧ (t.now.core c).contNext = false ∧
      (∀ q, t.now.job q = (s.now.closeRec c (s.now.core c) r).job q) ∧ t.now.eas = s.now.eas ∧ t.now.ddr = s.now.ddr := by
  refine closes (op := ecloseOp c w) (k := { s.now.core c with rec_ := none, contNext := false }) hat (by rfl) rfl ?_ (by simp)
  simp only [hrec]

end

/-- Settles O44: window entries, decisions, records, interrupts and the mailbox of a core. -/
theorem dspWindowsAndRecords : Obligations.DspWindowsAndRecords := by
  unfold Obligations.DspWindowsAndRecords
  intro s c w k a hk ha
  subst hk ha
  refine ⟨fun en rest hat hfifo => ?inw, fun hfifo => ?blocks, fun en v hat hwt hkind hforced hwins hlaunch hjob hopen hdue => ?outd,
    fun en hat hwt hkind => ?observe, fun en i hat hwt hi => ⟨fun hle => ?tag, fun h7 => ?word⟩,
    fun hat => ⟨fun hrec => emitOp_opens hat hrec, fun r hrec hroom => emitOp_goesOn hat hrec hroom,
      fun r j hrec hfull hjob hboundary hdone => ?fills⟩,
    fun hat => ⟨fun hrec => ?none, fun r j hrec hjob hboundary hphase hshot => ?boundary, fun r j hrec hjob hboundary => ?closed⟩,
    fun j hat hjob => ⟨fun hboundary hshot hstart hpos => ?bdone, fun hboundary => ?idle⟩, fun hat hdi => ?di, fun hat => ?ei,
    fun hat => ⟨fun hsource => ?waits, fun hsource => ?waiti⟩, fun hat => ?mboxw, fun hat => ?mboxr⟩
  case inw =>
    refine coreDoes_of_pure (op := inwOp c w) (f := fun k => { (k.setG w.d.toNat (BitVec.ofInt 32 en.i)).setG (w.d.toNat + 1)
      (BitVec.ofInt 32 en.q) with wt := some en, fifo := rest }) hat (by rfl) ?_ rfl (by simp)
    unfold inwOp
    rw [hfifo]
  case blocks =>
    refine congrArg (fun d => Host.Outcome.next { s with now := d }) (?_ : inwOp c w s.now = s.now)
    unfold inwOp
    rw [hfifo]
  case outd =>
    have hmatch : Win.openFor en s.now.epoch (s.now.rd (unitKey 0x580008 c)) v = true := by
      simp [Win.openFor, hlaunch, hjob, hopen, hdue]
    obtain ⟨hwins', hhub⟩ := outdOp_leaves hat hwt hkind hforced hwins hmatch
    exact ⟨s.onNow (outdOp c w), by rfl, hwins', hhub, by simp [State.onNow]⟩
  case observe =>
    refine coreFlags_of_run (op := outdOp c w) (n := 1) hat (by rfl) rfl ?_ (by simp)
    simp only [hwt, hkind, Bool.false_eq_true, if_false]
    rfl
  case tag =>
    refine coreDoes_of_pure (op := movwOp c w) hat (by rfl) rfl ?_ (by simp)
    simp only [hwt, show bits w.imm.toNat 2 0 = i from (bits_low ..).trans hi]
    rw [if_neg (by omega), if_neg (by omega)]
    exact congrArg _ (tagWord en.tag i)
  case word =>
    refine coreDoes_of_pure (op := movwOp c w) hat (by rfl) rfl ?_ (by simp)
    simp only [show bits w.imm.toNat 2 0 = i from (bits_low ..).trans hi]
    rw [if_pos h7]
  case fills =>
    obtain ⟨t, hexec, hnone, hcont, hjobs, heas, hddr⟩ := emitOp_fills hat hrec hfull
    obtain ⟨i, hi, hrecs, -⟩ := closeRec_present (c := c)
      (r := { r with words := r.words ++ [(s.now.core c).gr w.a.toNat] }) hjob hboundary hdone
    refine ⟨t, hexec, hnone, hcont, ?_, heas, hddr⟩
    rw [hjobs, hi, Option.map_some, hrecs]
  case none =>
    refine coreDoes_of_run (op := ecloseOp c w) hat (by rfl) rfl ?_ (by simp)
    simp only [hrec]
  case boundary =>
    obtain ⟨t, hexec, hnone, -, hjobs, heas, hddr⟩ := ecloseOp_closes hat hrec
    obtain ⟨i, hi, hrecs⟩ := closeRec_boundary (c := c) (r := r) hjob hboundary hphase hshot
    refine ⟨t, hexec, hnone, ?_, heas, hddr⟩
    rw [hjobs, hi, Option.map_some, hrecs]
  case closed =>
    obtain ⟨t, hexec, hnone, -, hjobs, heas, hddr⟩ := ecloseOp_closes hat hrec
    cases hdone : (s.now.core c).done with
    | false =>
      obtain ⟨i, hi, hrecs, hnext⟩ := closeRec_present (c := c) (r := r) hjob hboundary hdone
      refine ⟨t, hexec, hnone, ?_, ?_, heas, hddr⟩
      · rw [hjobs, hi, Option.map_some, hrecs]
        rfl
      · rw [hjobs, hi, Option.map_some, hnext]
        simp
    | true =>
      obtain ⟨i, hi, hrecs, hnext⟩ := closeRec_next (c := c) (r := r) hjob hboundary hdone
      refine ⟨t, hexec, hnone, ?_, ?_, heas, hddr⟩
      · rw [hjobs, hi, Option.map_some, hrecs]
        simp
      · rw [hjobs, hi, Option.map_some, hnext]
        rfl
  case bdone =>
    refine coreDoes_of_run (op := bdoneOp c w) hat (by rfl) rfl ?_ (by simp)
    have hof : s.now.boundaryOf (s.now.core c) = true := by
      unfold Dev.boundaryOf
      simp only [hjob, hshot, hstart, hpos, decide_true, Bool.and_self]
    simp only [hboundary, hof, Bool.and_self, Bool.or_true]
  case idle =>
    refine coreDoes_of_run (op := bdoneOp c w) hat (by rfl) rfl ?_ (by simp)
    simp only [hboundary, Bool.false_and, Bool.or_false]
    exact congrArg (fun b => some (s.now, { s.now.core c with boundary := b })) hboundary.symm
  case di =>
    refine coreDoes_of_run (op := diOp c w) hat (by rfl) rfl ?_ (by simp)
    simp only [hdi, Option.isSome_none, Bool.false_eq_true, if_false]
  case ei =>
    exact coreDoes_of_pure (op := eiOp c w) hat (by rfl) rfl (by rw [show bits w.imm.toNat 2 0 = w.imm.toNat % 8 from bits_low ..]) (by simp)
  case waits =>
    refine congrArg (fun d => Host.Outcome.next { s with now := d }) (if_neg ?_ : waitiOp c w s.now = s.now)
    rw [hsource]
    decide
  case waiti =>
    exact coreDoes_of_pure (op := waitiOp c w) hat (by rfl) (if_pos (Option.isSome_iff_ne_none.mpr hsource)) rfl (by simp)
  case mboxw =>
    have hop : mboxwOp c w s.now = coreAfter (s.now.wr (unitKey 0x58000D c) ((s.now.core c).gr w.a.toNat).toNat) c w
        (s.now.core c) (s.now.core c) := dspRun_some hat rfl
    have hddr : (mboxwOp c w s.now).ddr = s.now.ddr := by simp
    obtain ⟨hcore, -, hothers, hrd, hhub, -⟩ := coreAfter_leaves
      (s.now.wr (unitKey 0x58000D c) ((s.now.core c).gr w.a.toNat).toNat) c w (s.now.core c) (s.now.core c)
    refine ⟨s.onNow (mboxwOp c w), by rfl, ?_⟩
    simp only [State.onNow, hop] at hddr ⊢
    refine ⟨?_, hcore, hothers, hhub, hddr⟩
    rw [hrd _ (by unfold unitKey; omega) (by unfold unitKey; omega), Dev.rd_wr_self]
  case mboxr => exact coreDoes_of_pure (op := mboxrOp c w) hat (by rfl) rfl rfl (by simp)

end Sys2Proof.Machine
end

section
/-! Interrupts, window entries, deadlines, boundaries and memory errors of a DSP core (R385 to R402, R408). -/

namespace Sys2Proof.Machine

section
variable {d : Dev} {c v slot : Nat} {k : DspCore}

/-! ### Interrupts -/

theorem dspInterruptOp_enters (hsource : (d.core c).source = some v) (hruns : d.coreRuns c = true)
    (hbranch : (d.core c).branch = none) (hslots : (d.core c).slots = 0) (hrepeat : (d.core c).repeat_ = 0)
    (hdi : (d.core c).di = none) : dspInterruptOp c d =
      match (d.core c).push (d.core c).pc with
      | none => d.dspFault c
      | some k1 => (d.setCore c { k1 with pc := 8 * v, imask := 0 }).coreObjects c := by
  unfold dspInterruptOp
  simp only [hsource, hruns, hbranch, hslots, hrepeat, hdi]
  rfl

theorem source_boundary (hb : k.boundary = true) (hm : k.imask.testBit 0 = true) : k.source = some 0 := by
  unfold DspCore.source
  simp only [hb, hm, Bool.and_self, if_true]

theorem source_window (hb : (k.boundary && k.imask.testBit 0) = false) (hf : k.fifo ≠ []) (hm : k.imask.testBit 1 = true) :
    k.source = some 1 := by
  have hfifo : k.fifo.isEmpty = false := by simpa using hf
  unfold DspCore.source
  simp only [hb, hfifo, hm, Bool.not_false, Bool.and_self, Bool.false_eq_true, if_false, if_true]

theorem source_mailbox (hb : (k.boundary && k.imask.testBit 0) = false)
    (hf : (!k.fifo.isEmpty && k.imask.testBit 1) = false) (hbox : k.mbox = true) (hm : k.imask.testBit 2 = true) :
    k.source = some 2 := by
  unfold DspCore.source
  simp only [hb, hf, hbox, hm, Bool.and_self, Bool.false_eq_true, if_false, if_true]

theorem diExpiredOp_due {m at_ : Nat} (hdi : (d.core c).di = some (m, at_)) (hdue : at_ + 64 ≤ d.epoch)
    (hrepeat : (d.core c).repeat_ = 0) :
    diExpiredOp c d = (d.setCore c { d.core c with imask := m, di := none }).flag (dspFlags c) 5 := by
  unfold diExpiredOp
  simp only [hdi]
  exact if_pos ⟨hdue, hrepeat⟩

/-! ### Deadlines and boundaries -/

/-- A window without a decision after its dump. -/
def Win.undecided (w : Win) : Bool := w.iq.isSome && w.decision.isNone

/-- A window whose decision is forced at a tick. -/
def Win.forcedAt (late : Bool) (epoch : Nat) (w : Win) : Win := { w with decision := some (3, true, late), due := epoch }

theorem budgetCore_own {w : Win} (hcore : w.core = some c) : d.budgetCore slot w = c := by
  unfold Dev.budgetCore
  rw [hcore]
  rfl

theorem dspLateOp_late {w : Win} (hwins : (d.slotRx slot).wins = [w]) (hundecided : Win.undecided w = true)
    (hcore : w.core = some c) (hdue : w.dump + d.rd (unitKey 0x580008 c) ≤ d.epoch) :
    dspLateOp slot d = ((d.modWin slot Win.undecided (Win.forcedAt true d.epoch)).decSlack c w d.epoch).flag (dspFlags c) 2 := by
  have hfind := find_first (l := []) (r := []) (by simp) hundecided
  unfold Win.undecided at hfind
  simp only [List.nil_append] at hfind
  unfold dspLateOp
  simp only [hwins, hfind, budgetCore_own hcore]
  exact if_pos hdue

/-- A core with the BOUNDARY of a job's shot. -/
def DspCore.atBoundary (j : Job) (epoch : Nat) (k : DspCore) : DspCore :=
  { k with
    boundary := true
    boundaryAt := epoch
    bshot := (j.shot, j.attempt)
    bword := BitVec.ofNat 32 (j.shot % 2 ^ 24 + bitAt j.spoiled 24 + bitAt (decide (1 < j.attempt)) 25) }

/-- BOUNDARY raised at a core, unless it was for this shot. -/
def raiseBoundary (j : Job) (e : Dev) (c : Nat) : Dev :=
  if j.shotStart ≤ (e.core c).boundaryAt ∧ 0 < (e.core c).boundaryAt then e
  else e.setCore c ((e.core c).atBoundary j e.epoch)

theorem raiseBoundary_leaves (j : Job) (e : Dev) (c : Nat) : (raiseBoundary j e c).epoch = e.epoch ∧
    (raiseBoundary j e c).hub = e.hub ∧ (raiseBoundary j e c).objs = e.objs ∧
    (∀ b, b ≠ c → (raiseBoundary j e c).core b = e.core b) := by
  unfold raiseBoundary
  split
  · exact ⟨rfl, rfl, rfl, fun _ _ => rfl⟩
  · exact ⟨rfl, rfl, rfl, fun b hb => Dev.core_setCore_other _ _ _ _ hb⟩

theorem foldl_raiseBoundary_leaves (j : Job) : ∀ (l : List Nat) (e : Dev), (l.foldl (raiseBoundary j) e).hub = e.hub ∧
    (l.foldl (raiseBoundary j) e).objs = e.objs
  | [], _ => ⟨rfl, rfl⟩
  | c :: l, e => by
    obtain ⟨hhub, hobjs⟩ := foldl_raiseBoundary_leaves j l (raiseBoundary j e c)
    obtain ⟨-, hhub', hobjs', -⟩ := raiseBoundary_leaves j e c
    exact ⟨hhub.trans hhub', hobjs.trans hobjs'⟩

/-- A core that has its BOUNDARY keeps it. -/
theorem foldl_raiseBoundary_raised {j : Job} : ∀ (l : List Nat) (e : Dev),
    e.core c = k.atBoundary j e.epoch → (l.foldl (raiseBoundary j) e).core c = k.atBoundary j e.epoch
  | [], _, h => h
  | b :: l, e, h => by
    obtain ⟨hepoch, -, -, hothers⟩ := raiseBoundary_leaves j e b
    have hstep : (raiseBoundary j e b).core c = k.atBoundary j (raiseBoundary j e b).epoch := by
      rw [hepoch]
      by_cases hb : c = b
      · subst hb
        unfold raiseBoundary
        split
        · exact h
        · rw [Dev.core_setCore_self, h]
          rfl
      · rw [hothers c hb, h]
    have := foldl_raiseBoundary_raised l _ hstep
    rwa [hepoch] at this

theorem foldl_raiseBoundary_core {j : Job} (l : List Nat) (e : Dev) (hc : c ∈ l) (hearly : (e.core c).boundaryAt < j.shotStart) :
    (l.foldl (raiseBoundary j) e).core c = (e.core c).atBoundary j e.epoch := by
  induction l generalizing e with
  | nil => exact absurd hc List.not_mem_nil
  | cons b l ih =>
    obtain ⟨hepoch, -, -, hothers⟩ := raiseBoundary_leaves j e b
    rw [List.foldl_cons]
    by_cases hb : c = b
    · subst hb
      have hraised : raiseBoundary j e c = e.setCore c ((e.core c).atBoundary j e.epoch) :=
        if_neg fun h => absurd h.1 (Nat.not_le.mpr hearly)
      rw [hraised]
      exact foldl_raiseBoundary_raised l _ (Dev.core_setCore_self ..)
    · have hc' : c ∈ l := (List.mem_cons.mp hc).resolve_left hb
      rw [ih _ hc' (by rwa [hothers c hb]), hothers c hb, hepoch]

theorem dspBoundaryOp_raises {q : Nat} {j : Job} (hjob : d.job q = some j) (hshot : j.inShot = true)
    (hdone : d.windowsDone j = true) : dspBoundaryOp q d = j.held.cores.foldl (raiseBoundary j) d := by
  unfold dspBoundaryOp
  simp only [hjob, hshot, hdone, Bool.and_self, if_true]
  rfl

theorem boundaryOf_raised {j : Job} (hjob : d.job k.job = some j) (hshot : j.inShot = true)
    (hstart : j.shotStart ≤ k.boundaryAt) (hpos : 0 < k.boundaryAt) : d.boundaryOf k = true := by
  unfold Dev.boundaryOf
  simp only [hjob, hshot, hstart, hpos, decide_true, Bool.and_self]

theorem drainLateOp_late (hraised : d.boundaryOf (d.core c) = true) (hdone : (d.core c).done = false)
    (hdue : (d.core c).boundaryAt + d.rd (unitKey 0x580009 c) ≤ d.epoch) (hruns : d.rd (unitKey 0x580001 c) ≠ 2) :
    drainLateOp c d = ((d.setCore c { d.core c with done := true }).flag (dspFlags c) 6).spoil (d.core c).job := by
  refine if_pos ?_
  simp [hraised, hdone, hdue, hruns]

theorem dspPmRestoreCompleteOp_restores {at_ : Nat} (h : (d.core c).restore = some at_) : dspPmRestoreCompleteOp c true d =
    d.setCore c { d.core c with pm := tabSet 0 (d.core c).pm at_ ((d.core c).image.getD at_ 0), restore := none } := by
  unfold dspPmRestoreCompleteOp
  simp only [h, if_true]

/-! ### Window entries -/

/-- A window that a core has not entered. -/
def Win.toEnter (c : Nat) (w : Win) : Bool := w.core == some c && w.iq.isSome && !w.entered

/-- A window that a core has entered, its decision forced at a tick or not. -/
def Win.enter (force : Bool) (epoch : Nat) (w : Win) : Win :=
  { w with
    entered := true
    decision := if force then some (3, true, false) else w.decision
    due := if force then epoch else w.due }

/-- Whether an entry forces the decision of its window. -/
def forces (d : Dev) (c : Nat) (w : Win) : Bool :=
  w.dsp && ((w.refused || (w.iq.getD (0, 0, false, false)).2.2.2) || decide (32 ≤ (d.core c).fifo.length)) && w.decision.isNone

/-- The device with a window entered, before the entry goes to the FIFO. -/
def windowEntered (d : Dev) (c slot : Nat) (w : Win) : Dev :=
  let d1 := d.modWin slot (Win.toEnter c) (Win.enter (forces d c w) d.epoch)
  let d2 := if forces d c w then d1.decSlack c w d1.epoch else d1
  d2.setSlotRx slot { d2.slotRx slot with wins := (d2.slotRx slot).wins.filter fun v => !(v.produced && v.entered) }

/-- The entry of a window. -/
def entryOf (d : Dev) (c slot : Nat) (w : Win) : WEntry :=
  let iq := w.iq.getD (0, 0, false, false)
  { slot := slot, launch := w.launch, i := iq.1, q := iq.2.1
    tag := entryTag slot w iq w.dsp (d.bit (unitKey 0x580005 c) (slot % 64)), job := w.job, shot := w.shot }

/-- An entry goes to a FIFO with room. -/
def fifoEntered (d : Dev) (c : Nat) (en : WEntry) : Dev :=
  let e := (d.setCore c { d.core c with fifo := (d.core c).fifo ++ [en] }).coreObjects c
  if e.rd (unitKey 0x58000B c) < (e.core c).fifo.length then e.wr (unitKey 0x58000B c) (e.core c).fifo.length else e

theorem windowEntryOp_due {w : Win} (henter : d.toEnter c = [(w.dump, slot)]) (hwins : (d.slotRx slot).wins = [w])
    (hw : Win.toEnter c w = true) (hdue : w.dump + (if c = 16 then 8 else 2) ≤ d.epoch) : windowEntryOp c d =
      if 32 ≤ (d.core c).fifo.length then ((windowEntered d c slot w).flag (dspFlags c) 4).spoil w.job
      else fifoEntered (windowEntered d c slot w) c (entryOf d c slot w) := by
  have hfind := find_first (l := []) (r := []) (by simp) hw
  have hepoch : (d.modWin slot (Win.toEnter c) (Win.enter (forces d c w) d.epoch)).epoch = d.epoch := by
    rw [modWin_first (l := []) (r := []) hwins (by simp) hw]
    rfl
  unfold Win.toEnter at hfind
  simp only [List.nil_append] at hfind
  unfold windowEntryOp
  simp only [henter, if_neg (Nat.not_lt.mpr hdue), hwins, hfind, decide_eq_true_eq]
  rfl

theorem setSlotRx_core (d : Dev) (slot : Nat) (r : SlotRx) (c : Nat) : (d.setSlotRx slot r).core c = d.core c := rfl

theorem modWin_core (d : Dev) (slot : Nat) (p : Win → Bool) (f : Win → Win) (c : Nat) : (d.modWin slot p f).core c = d.core c := by
  unfold Dev.modWin
  dsimp only
  split <;> rfl

theorem modWin_epoch (d : Dev) (slot : Nat) (p : Win → Bool) (f : Win → Win) : (d.modWin slot p f).epoch = d.epoch := by
  unfold Dev.modWin
  dsimp only
  split <;> rfl

theorem windowEntered_leaves {w : Win} (hwins : (d.slotRx slot).wins = [w]) (hw : Win.toEnter c w = true)
    (hproduced : w.produced = false) :
    ((windowEntered d c slot w).slotRx slot).wins = [w.enter (forces d c w) d.epoch] := by
  have hmod := modWin_wins (l := []) (r := []) (f := Win.enter (forces d c w) d.epoch) hwins (by simp) hw
  have hkept : ∀ e : Dev, (e.slotRx slot).wins = [w.enter (forces d c w) d.epoch] →
      ((e.setSlotRx slot { e.slotRx slot with
        wins := (e.slotRx slot).wins.filter fun v => !(v.produced && v.entered) }).slotRx slot).wins =
          [w.enter (forces d c w) d.epoch] := fun e he => by
    rw [slotRx_setSlotRx, he]
    simp [Win.enter, hproduced]
  unfold windowEntered
  dsimp only
  split
  · exact hkept _ ((congrArg SlotRx.wins (slotRx_congr (decSlack_leaves ..).1 slot)).trans hmod)
  · exact hkept _ hmod

theorem windowEntered_core (d : Dev) (c slot : Nat) (w : Win) :
    ((windowEntered d c slot w).core c).fifo = (d.core c).fifo ∧ ((windowEntered d c slot w).core c).g = (d.core c).g ∧
    (windowEntered d c slot w).hub = d.hub := by
  obtain ⟨-, hhub, -⟩ := modWin_leaves d slot (Win.toEnter c) (Win.enter (forces d c w) d.epoch)
  have hcore := modWin_core d slot (Win.toEnter c) (Win.enter (forces d c w) d.epoch) c
  unfold windowEntered
  dsimp only
  rw [setSlotRx_core, Dev.setSlotRx_hub]
  split
  · obtain ⟨-, hhub', hfifo, hg⟩ := decSlack_leaves (d.modWin slot (Win.toEnter c) (Win.enter (forces d c w) d.epoch)) c w
      (d.modWin slot (Win.toEnter c) (Win.enter (forces d c w) d.epoch)).epoch
    rw [hfifo, hg, hcore]
    exact ⟨rfl, rfl, hhub'.trans hhub⟩
  · rw [hcore]
    exact ⟨rfl, rfl, hhub⟩

theorem fifoEntered_leaves (d : Dev) (c : Nat) (en : WEntry) : ((fifoEntered d c en).core c).fifo = (d.core c).fifo ++ [en] ∧
    ((fifoEntered d c en).core c).g = (d.core c).g ∧ (fifoEntered d c en).hub = d.hub ∧ (fifoEntered d c en).rx = d.rx := by
  have hcore : ((d.setCore c { d.core c with fifo := (d.core c).fifo ++ [en] }).coreObjects c).core c =
      { d.core c with fifo := (d.core c).fifo ++ [en] } := Dev.core_setCore_self ..
  have hentered : (fifoEntered d c en).core c = { d.core c with fifo := (d.core c).fifo ++ [en] } := by
    unfold fifoEntered
    dsimp only
    split <;> exact hcore
  rw [hentered]
  refine ⟨rfl, rfl, ?_, ?_⟩ <;>
  · unfold fifoEntered
    dsimp only
    split <;> rfl

theorem enter_forced {w : Win} {epoch : Nat} :
    w.enter true epoch = { w with entered := true, decision := some (3, true, false), due := epoch } := rfl

end

/-- Settles O45: interrupts, window entries, deadlines, boundaries and memory errors of a core. -/
theorem dspEvents : Obligations.DspEvents := by
  unfold Obligations.DspEvents
  intro s c k hk
  subst hk
  refine ⟨fun v hruns hbranch hslots hrepeat hdi hsource => ?interrupt, fun m at_ hdi hdue hrepeat => ?expired,
    fun slot w i q sat inv henter hwins hcore hentered hiq hdue => ?entry, fun slot w hwins hiq hdecision hcore hdue => ?late,
    fun q j hjob hshot hdone hc hearly => ?boundary, fun j hjob hshot hstart hpos hdone hdue hruns => ?drain,
    fun m addr => ?single, fun addr => ?pm, fun addr => ?xm, fun addr => ?ym, fun addr => ?km, fun at_ hrestore => ?restored⟩
  case interrupt =>
    have hv : (s.now.core c).source = some v := by
      obtain ⟨rfl, hb, hm⟩ | ⟨rfl, hb, hf, hm⟩ | ⟨rfl, hb, hf, hbox, hm⟩ := hsource
      · exact source_boundary hb hm
      · exact source_window hb hf hm
      · exact source_mailbox hb hf hbox hm
    have hop := dspInterruptOp_enters hv hruns hbranch hslots hrepeat hdi
    have hddr : (dspInterruptOp c s.now).ddr = s.now.ddr := by simp
    refine ⟨fun hroom => ?_, fun hfull => ?_⟩
    · rw [push_room hroom] at hop
      refine ⟨s.onNow (dspInterruptOp c), by rfl, ?_⟩
      simp only [State.onNow, hop] at hddr ⊢
      exact ⟨Dev.core_setCore_self .., fun b hb => Dev.core_setCore_other _ _ _ _ hb, rfl, hddr⟩
    · rw [push_full hfull] at hop
      exact congrArg (fun d => Host.Outcome.next { s with now := d }) hop
  case expired => exact congrArg (fun d => Host.Outcome.next { s with now := d }) (diExpiredOp_due hdi hdue hrepeat)
  case entry =>
    have hw : Win.toEnter c w = true := by simp [Win.toEnter, hcore, hiq, hentered]
    have hop := windowEntryOp_due henter hwins hw hdue
    have hddr : (windowEntryOp c s.now).ddr = s.now.ddr := by simp
    obtain ⟨hfifo, hg, hhub⟩ := windowEntered_core s.now c slot w
    refine ⟨fun hroom => ?_, fun hfull => ?_⟩
    · rw [if_neg (by omega)] at hop
      obtain ⟨hfifo', hg', hhub', hrx'⟩ := fifoEntered_leaves (windowEntered s.now c slot w) c (entryOf s.now c slot w)
      refine ⟨s.onNow (windowEntryOp c), entryOf s.now c slot w, by rfl, ?_⟩
      simp only [State.onNow, hop] at hddr ⊢
      refine ⟨by rw [hfifo', hfifo], ?_, ?_, rfl, rfl, hg'.trans hg, fun hdsp hnone hproduced hforced => ?_, hhub'.trans hhub, hddr⟩
      · simp [entryOf, hiq]
      · simp [entryOf, hiq]
      · have hforces : forces s.now c w = true := by
          unfold forces
          rw [hiq, hdsp, hnone, Option.getD_some, hforced]
          rfl
        rw [slotRx_congr hrx', windowEntered_leaves hwins hw hproduced, hforces, enter_forced]
    · rw [if_pos hfull] at hop
      obtain ⟨hobjs, -, hrx⟩ := spoil_leaves ((windowEntered s.now c slot w).flag (dspFlags c) 4) w.job
      refine ⟨s.onNow (windowEntryOp c), by rfl, ?_⟩
      simp only [State.onNow, hop] at hddr ⊢
      refine ⟨?_, fun hdsp hnone hproduced => ?_, ?_, ?_, hddr⟩
      · have hcores : ((windowEntered s.now c slot w).flag (dspFlags c) 4).dsp = (windowEntered s.now c slot w).dsp := Dev.flag_dsp ..
        exact (congrArg (fun t => (tabGet ({} : DspCore) t c).fifo) hcores).trans hfifo
      · have hforces : forces s.now c w = true := by
          unfold forces
          rw [hdsp, hnone, decide_eq_true hfull, Bool.or_true]
          rfl
        rw [slotRx_congr (hrx.trans (Dev.flag_rx ..)), windowEntered_leaves hwins hw hproduced, hforces, enter_forced]
      · rw [Dev.bit_congr hobjs]
        exact Dev.bit_flag_self ..
      · have hflag : ((windowEntered s.now c slot w).flag (dspFlags c) 4).hub = s.now.hub := (Dev.flag_hub ..).trans hhub
        exact congrArg (fun h : Hub => h.jobs.map _) hflag
  case late =>
    have hundecided : Win.undecided w = true := by simp [Win.undecided, hdecision, Option.isSome_iff_ne_none, hiq]
    have hop := dspLateOp_late hwins hundecided hcore hdue
    have hddr : (dspLateOp slot s.now).ddr = s.now.ddr := by simp
    obtain ⟨hrx, hhub, -⟩ := decSlack_leaves (s.now.modWin slot Win.undecided (Win.forcedAt true s.now.epoch)) c w s.now.epoch
    obtain ⟨-, hhub', -⟩ := modWin_leaves s.now slot Win.undecided (Win.forcedAt true s.now.epoch)
    refine ⟨s.onNow (dspLateOp slot), by rfl, ?_⟩
    simp only [State.onNow, hop] at hddr ⊢
    refine ⟨?_, Dev.bit_flag_self .., (Dev.flag_hub ..).trans (hhub.trans hhub'), hddr⟩
    rw [slotRx_congr ((Dev.flag_rx ..).trans hrx)]
    exact modWin_wins (l := []) (r := []) hwins (by simp) hundecided
  case boundary =>
    have hop := dspBoundaryOp_raises hjob hshot hdone
    have hddr : (dspBoundaryOp q s.now).ddr = s.now.ddr := by simp
    obtain ⟨hhub, hobjs⟩ := foldl_raiseBoundary_leaves j j.held.cores s.now
    have hraised := foldl_raiseBoundary_core j.held.cores s.now hc hearly
    refine ⟨s.onNow (dspBoundaryOp q), by rfl, ?_⟩
    simp only [State.onNow, hop] at hddr ⊢
    rw [hraised]
    refine ⟨rfl, rfl, rfl, ?_, rfl, hhub, hobjs, hddr⟩
    unfold DspCore.atBoundary bitAt
    simp only [decide_eq_true_eq]
  case drain =>
    exact congrArg (fun d => Host.Outcome.next { s with now := d })
      (drainLateOp_late (boundaryOf_raised hjob hshot hstart hpos) hdone hdue hruns)
  case single => rfl
  case pm => rfl
  case xm => rfl
  case ym => rfl
  case km => rfl
  case restored =>
    exact congrArg (fun d => Host.Outcome.next { s with now := d }) (dspPmRestoreCompleteOp_restores hrestore)

end Sys2Proof.Machine
end

section
/-! Trigger inputs and trigger outputs (R352 to R356, R361). -/

namespace Sys2Proof.Machine

section
variable {s : State} {d : Dev} {i edge : Nat} {rising : Bool}

/-! ### What a trigger touches -/

/-- A trigger source reaches the outputs that name it, and nothing but those outputs. -/
theorem trigCause_leaves (d : Dev) (source : Nat) (arg : Option Nat) (t : Nat) : (d.trigCause source arg t).objs = d.objs ∧
    (d.trigCause source arg t).hub = d.hub ∧ (d.trigCause source arg t).ev = d.ev ∧
    (d.trigCause source arg t).out.trigIn = d.out.trigIn := by
  unfold Dev.trigCause
  refine List.foldlRecOn (motive := fun e : Dev => e.objs = d.objs ∧ e.hub = d.hub ∧ e.ev = d.ev ∧ e.out.trigIn = d.out.trigIn)
    (List.range 8) _ ⟨rfl, rfl, rfl, rfl⟩ fun e he k _ => ?_
  cases arg <;>
  · dsimp only
    split
    · split <;> exact he
    · exact he

theorem addCond_keeps (d : Dev) (c bit t : Nat) : (d.addCond c bit t).objs = d.objs ∧ (d.addCond c bit t).hub = d.hub ∧
    (d.addCond c bit t).ev = d.ev ∧ (d.addCond c bit t).out = d.out := by
  unfold Dev.addCond
  dsimp only
  split <;> exact ⟨rfl, rfl, rfl, rfl⟩

/-- The channels that name an input get its condition. -/
def inputConds (i edge : Nat) (d : Dev) : Dev :=
  (List.range 128).foldl (fun e c => if e.rd (unitKey 0x51000B c) = i then e.addCond c 8 edge else e) d

theorem inputConds_leaves (i edge : Nat) (d : Dev) : (inputConds i edge d).objs = d.objs ∧ (inputConds i edge d).hub = d.hub ∧
    (inputConds i edge d).ev = d.ev ∧ (inputConds i edge d).out = d.out := by
  unfold inputConds
  refine List.foldlRecOn (motive := fun e : Dev => e.objs = d.objs ∧ e.hub = d.hub ∧ e.ev = d.ev ∧ e.out = d.out)
    (List.range 128) _ ⟨rfl, rfl, rfl, rfl⟩ fun e he k _ => ?_
  split
  · obtain ⟨hobjs, hhub, hev, hout⟩ := addCond_keeps e k 8 edge
    obtain ⟨hobjs', hhub', hev', hout'⟩ := he
    exact ⟨hobjs.trans hobjs', hhub.trans hhub', hev.trans hev', hout.trans hout'⟩
  · exact he

theorem produceAt_keeps (d : Dev) (line t : Nat) :
    (d.produceAt line t).objs = d.objs ∧ (d.produceAt line t).hub = d.hub ∧ (d.produceAt line t).out = d.out := by
  unfold Dev.produceAt
  split <;> exact ⟨rfl, rfl, rfl⟩

theorem produceAt_causes {line t : Nat} (hen : d.rdB (objKey (0x7000 + line) 5) = true) (hst : d.state ≠ .asleep) :
    (d.produceAt line t).ev.causes = d.ev.causes ++ [{ line := line, tick := t }] := by
  have hawake : (d.state != .asleep) = true := bne_iff_ne.mpr hst
  unfold Dev.produceAt
  rw [if_pos (by rw [hen, hawake]; rfl)]

/-! ### An edge of an input -/

theorem qualifies_of_edge (hkind : d.rd (unitKey 0x3A4001 i) = 2 ∨ d.rd (unitKey 0x3A4001 i) = (if rising then 0 else 1))
    (hheld : edge + d.rd (unitKey 0x3A4002 i) ≤ d.epoch) : d.qualifies i rising edge = true := by
  unfold Dev.qualifies
  rcases hkind with h | h
  · simp [h, hheld]
  · cases rising <;> simp [h, hheld]

theorem qualifies_other_edge (hkind : d.rd (unitKey 0x3A4001 i) = (if rising then 1 else 0)) :
    d.qualifies i rising edge = false := by
  unfold Dev.qualifies
  cases rising <;> simp [hkind]

theorem qualifies_short (hshort : d.epoch < edge + d.rd (unitKey 0x3A4002 i)) : d.qualifies i rising edge = false := by
  unfold Dev.qualifies
  rw [decide_eq_false (Nat.not_le.mpr hshort), Bool.and_false]

/-- The device with an edge of an input captured at its land tick. -/
def captured (d : Dev) (i edge : Nat) : Dev :=
  (d.setTrigIn i { d.trigInOf i with last := some edge }).wr (unitKey 0x3A4004 i) edge

/-- The device with a captured edge's cause, conditions and outputs. -/
def edgeLanded (d : Dev) (i edge : Nat) : Dev :=
  (inputConds i edge ((captured d i edge).produceAt (0x80 + i) edge)).trigCause 4 (some i) edge

theorem edgeLanded_leaves (d : Dev) (i edge : Nat) : (edgeLanded d i edge).hub = d.hub ∧
    (edgeLanded d i edge).objs = (captured d i edge).objs ∧ (edgeLanded d i edge).out.trigIn = (captured d i edge).out.trigIn ∧
    (edgeLanded d i edge).ev = ((captured d i edge).produceAt (0x80 + i) edge).ev := by
  obtain ⟨hobjs, hhub, hev, htrig⟩ := trigCause_leaves (inputConds i edge ((captured d i edge).produceAt (0x80 + i) edge)) 4 (some i) edge
  obtain ⟨hobjs', hhub', hev', hout'⟩ := inputConds_leaves i edge ((captured d i edge).produceAt (0x80 + i) edge)
  obtain ⟨hobjs'', hhub'', hout''⟩ := produceAt_keeps (captured d i edge) (0x80 + i) edge
  unfold edgeLanded
  exact ⟨hhub.trans (hhub'.trans hhub''), hobjs.trans (hobjs'.trans hobjs''), by rw [htrig, hout', hout''], hev.trans hev'⟩

theorem trigInOp_lands (hnew : (d.trigInOf i).last ≠ some edge) (hqual : d.qualifies i rising edge = true)
    (hidle : d.resident = []) : trigInOp i rising edge d = edgeLanded d i edge := by
  have hresident : (edgeLanded d i edge).resident = [] := by
    unfold Dev.resident at hidle ⊢
    rw [(edgeLanded_leaves d i edge).1, hidle]
  unfold edgeLanded captured inputConds at hresident
  unfold trigInOp
  rw [if_neg (by simp [hnew, hqual])]
  dsimp only
  rw [hresident]
  rfl

theorem trigInOp_ignores (h : (d.trigInOf i).last = some edge ∨ d.qualifies i rising edge = false) :
    trigInOp i rising edge d = d := by
  unfold trigInOp
  exact if_pos (h.imp_right fun hq => by rw [hq]; rfl)

end

/-- Settles O40: an edge of the selected kind lands, and a trigger output is active for the pulse length. -/
theorem triggerLands : Obligations.TriggerLands := by
  unfold Obligations.TriggerLands
  intro s i
  refine ⟨fun rising edge hnew hkind hheld hidle hen hst => ?lands, fun rising edge hnot => ?ignored, fun a hdue hripe hidle => ?pulse,
    fun hactive hover hdue => ?pulseEnd⟩
  case lands =>
    have hop := trigInOp_lands hnew (qualifies_of_edge hkind hheld) hidle
    have hddr : (trigInOp i rising edge s.now).ddr = s.now.ddr := by simp
    obtain ⟨hhub, hobjs, htrig, hev⟩ := edgeLanded_leaves s.now i edge
    have hen' : (captured s.now i edge).rdB (objKey (0x7000 + (0x80 + i)) 5) = true := by
      unfold Dev.rdB at hen ⊢
      exact (congrArg (· != 0) (Dev.rd_wr_other _ _ _ _ (by unfold objKey unitKey; omega))).trans hen
    refine ⟨s.onNow (trigInOp i rising edge), by rfl, ?_⟩
    simp only [State.onNow, hop] at hddr ⊢
    refine ⟨?_, ?_, ?_, hhub, hddr⟩
    · have hlast : (captured s.now i edge).trigInOf i = { s.now.trigInOf i with last := some edge } := tabGet_set_self ..
      exact (congrArg (fun t => (tabGet ({} : TrigIn) t i).last) htrig).trans (congrArg TrigIn.last hlast)
    · exact (Dev.rd_congr hobjs _).trans (Dev.rd_wr_self ..)
    · rw [hev, produceAt_causes hen' hst]
      rfl
  case ignored =>
    refine congrArg (fun d => Host.Outcome.next { s with now := d }) (trigInOp_ignores ?_)
    rcases hnot with h | h | h
    · exact .inl h
    · exact .inr (qualifies_other_edge h)
    · exact .inr (qualifies_short h)
  case pulse =>
    refine congrArg (fun d => Host.Outcome.next { s with now := d }) (?_ : trigOutPulseOp i s.now = _)
    unfold trigOutPulseOp
    simp only [hdue, List.filter_cons, List.filter_nil, decide_eq_true hripe, decide_eq_false (Nat.not_lt.mpr hripe), hidle,
      if_true, Bool.false_eq_true, if_false, List.foldl_nil]
  case pulseEnd =>
    exact congrArg (fun d => Host.Outcome.next { s with now := d }) (if_pos (show ((s.now.trigOut i).active && decide ((s.now.trigOut i).until_ ≤ s.now.epoch) && (s.now.trigOut i).due.all fun t => decide (s.now.epoch < t)) = true by simp [hactive, hover, hdue]) : trigOutPulseEndOp i s.now = _)

end Sys2Proof.Machine
end

section
/-! Triggers, capture records and stream blocks of an acquisition channel (R333 to R354). -/

namespace Sys2Proof.Machine

section
variable {d : Dev} {c idx : Nat}

theorem acqSt_setAcq_self (d : Dev) (c : Nat) (a : AcqSt) : (d.setAcq c a).acqSt c = a := tabGet_set_self ..

theorem acqSt_setAcq_other {c e : Nat} (a : AcqSt) (h : e ≠ c) : (d.setAcq c a).acqSt e = d.acqSt e :=
  tabGet_set_other _ _ _ _ _ _ h

theorem acqSt_congr {e d : Dev} (h : e.acq = d.acq) (c : Nat) : e.acqSt c = d.acqSt c := by
  unfold Dev.acqSt
  rw [h]

theorem acqState_congr {e d : Dev} (h : e.objs = d.objs) (c : Nat) : e.acqState c = d.acqState c := Dev.rd_congr h _

/-! ### The conditions met at a sample -/

/-- The conditions that `metConds` pairs with a sample. -/
def causesAt (d : Dev) (c idx : Nat) : List Nat := (((d.metConds c).filter fun p => p.2 == idx).map (·.1)).dedup

theorem causesAt_of_met {cs : List Nat} (hmet : d.metConds c = cs.map (·, idx)) (hnodup : cs.Nodup) : causesAt d c idx = cs := by
  have hall : (cs.map (·, idx)).filter (fun p => p.2 == idx) = cs.map (·, idx) :=
    List.filter_eq_self.mpr fun p hp => by
      obtain ⟨x, -, rfl⟩ := List.mem_map.mp hp
      exact beq_self_eq_true idx
  unfold causesAt
  rw [hmet, hall, List.map_map]
  exact (congrArg List.dedup (List.map_id cs)).trans (List.dedup_eq_self.mpr hnodup)

theorem none_earlier {cs : List Nat} (hmet : d.metConds c = cs.map (·, idx)) :
    (d.metConds c).any (fun p => decide (p.2 < idx)) = false := by
  rw [hmet]
  simp

/-- Where every condition met is met at one sample, judging that sample leaves none. -/
theorem judge_all {cs : List Nat} (hmet : d.metConds c = cs.map (·, idx)) :
    ((d.acqSt c).judge idx (d.chanSample c)).conds = [] ∧ ((d.acqSt c).judge idx (d.chanSample c)).crossings = [] := by
  have hat : ∀ p ∈ d.metConds c, p.2 = idx := fun p hp => by
    rw [hmet] at hp
    obtain ⟨x, -, rfl⟩ := List.mem_map.mp hp
    rfl
  unfold AcqSt.judge
  refine ⟨List.filter_eq_nil_iff.mpr fun p hp => ?_, List.filter_eq_nil_iff.mpr fun i hi => ?_⟩
  · have := hat (p.1, d.chanSample c p.2) (List.mem_append_left _ (List.mem_append_left _ (List.mem_map_of_mem hp)))
    simpa using this
  · have := hat (9, i) (List.mem_append_left _ (List.mem_append_right _ (List.mem_map_of_mem hi)))
    simpa using this

/-- The device with the conditions at a sample judged. -/
def judged (d : Dev) (c idx : Nat) : Dev := d.setAcq c ((d.acqSt c).judge idx (d.chanSample c))

/-- Whether a sample lies in a post-trigger run. -/
def inRunAt (d : Dev) (c idx : Nat) : Bool := (d.acqSt c).runEnd.any fun e => decide (idx ≤ e)

/-- Whether a sample lies within HOLDOFF of the last trigger. -/
def heldOff (d : Dev) (c idx : Nat) : Bool := (d.acqSt c).lastIdx.any fun i => decide (idx < i + d.rd (unitKey 0x510011 c))

theorem acqTriggerOp_judges {cs : List Nat} {l : AcqLeg} (hmet : d.metConds c = cs.map (·, idx)) (hnodup : cs.Nodup) (hne : cs ≠ [])
    (harrived : Arrived d c idx) (hrun : ¬ (d.acqState c = 2 ∧ inRunAt d c idx = false))
    (hleg : (d.acqSt c).legAt (sampleTick (d.acqTap c) (d.acqTaps c) idx) = some l) : acqTriggerOp c idx d =
      if heldOff d c idx then (judged d c idx).flag (acqFlags c) 2
      else
        let d2 := if 2 ≤ cs.length then (judged d c idx).flag (acqFlags c) 3 else judged d c idx
        if inRunAt d c idx then d2.flag (acqFlags c) 1
        else if d.acqState c = 1 ∨ d.acqState c = 3 then d2.acqAccept c idx cs l
        else judged d c idx := by
  obtain ⟨hcome, hlive, hknown⟩ := harrived
  have hcauses := causesAt_of_met hmet hnodup
  have hearlier := none_earlier hmet
  unfold causesAt at hcauses
  unfold inRunAt at hrun
  unfold acqTriggerOp
  dsimp only
  rw [hcauses, hearlier, hlive, hknown, if_neg (by simpa [hne, hcome] using hrun), hleg]
  rfl

/-! ### An accepted trigger -/

theorem trigCause_keeps (d : Dev) (source : Nat) (arg : Option Nat) (t : Nat) :
    (d.trigCause source arg t).acq = d.acq ∧ (d.trigCause source arg t).eas = d.eas := by
  unfold Dev.trigCause
  refine List.foldlRecOn (motive := fun e : Dev => e.acq = d.acq ∧ e.eas = d.eas) (List.range 8) _ ⟨rfl, rfl⟩ fun e he k _ => ?_
  cases arg <;>
  · dsimp only
    split
    · split <;> exact he
    · exact he

/-- The device with a trigger's sample noted and its output pulses and line caused. -/
def noticed (d : Dev) (c idx : Nat) : Dev :=
  ((d.setAcq c { d.acqSt c with lastIdx := some idx }).trigCause 3 (some c) d.epoch).produce (0x90 + c / 16)

theorem noticed_leaves (d : Dev) (c idx : Nat) : (noticed d c idx).objs = d.objs ∧ (noticed d c idx).hub = d.hub ∧
    (noticed d c idx).eas = d.eas ∧ (noticed d c idx).acq = (d.setAcq c { d.acqSt c with lastIdx := some idx }).acq := by
  obtain ⟨hobjs, hhub, -, -⟩ := trigCause_leaves (d.setAcq c { d.acqSt c with lastIdx := some idx }) 3 (some c) d.epoch
  obtain ⟨hacq, heas⟩ := trigCause_keeps (d.setAcq c { d.acqSt c with lastIdx := some idx }) 3 (some c) d.epoch
  unfold noticed
  rw [Dev.produce_objs, Dev.produce_hub, Dev.produce_eas, Dev.produce_acq]
  exact ⟨hobjs, hhub, heas, hacq⟩

theorem acqAccept_capture {cs : List Nat} {l : AcqLeg} (hstate : d.acqState c ≠ 3) : d.acqAccept c idx cs l =
    ((noticed d c idx).wr (unitKey 0x510013 c) 2).setAcq c { d.acqSt c with
      lastIdx := some idx
      run := some { idx := idx, causes := cs, disarm := false }
      runEnd := some ((idx / 2 ^ d.acqK c + d.acqPost c) * 2 ^ d.acqK c - 1) } := by
  obtain ⟨hobjs, -, -, hacq⟩ := noticed_leaves d c idx
  have hst : (noticed d c idx).acqSt c = { d.acqSt c with lastIdx := some idx } := (acqSt_congr hacq c).trans (acqSt_setAcq_self ..)
  have hk : (noticed d c idx).acqK c = d.acqK c := Dev.rd_congr hobjs _
  have hpost : (noticed d c idx).rd (unitKey 0x510006 c) = d.acqPost c := Dev.rd_congr hobjs _
  have hidle : (noticed d c idx).acqState c ≠ 3 := by rwa [acqState_congr hobjs]
  unfold noticed at hst hk hpost hidle
  unfold Dev.acqAccept
  dsimp only
  rw [if_neg hidle, hst, hk, hpost]
  rfl

theorem acqAccept_leaves {cs : List Nat} {l : AcqLeg} (hstate : d.acqState c ≠ 3) : (d.acqAccept c idx cs l).acqState c = 2 ∧
    (d.acqAccept c idx cs l).acqSt c = { d.acqSt c with
      lastIdx := some idx
      run := some { idx := idx, causes := cs, disarm := false }
      runEnd := some ((idx / 2 ^ d.acqK c + d.acqPost c) * 2 ^ d.acqK c - 1) } ∧
    (∀ e, e ≠ c → (d.acqAccept c idx cs l).acqSt e = d.acqSt e) ∧
    (∀ b, (d.acqAccept c idx cs l).bit (acqFlags c) b = d.bit (acqFlags c) b) ∧
    (d.acqAccept c idx cs l).hub = d.hub ∧ (d.acqAccept c idx cs l).eas = d.eas := by
  obtain ⟨hobjs, hhub, heas, hacq⟩ := noticed_leaves d c idx
  rw [acqAccept_capture hstate]
  generalize noticed d c idx = n at hobjs hhub heas hacq
  refine ⟨Dev.rd_wr_self .., acqSt_setAcq_self .., fun e he => ?_, fun b => ?_, hhub, heas⟩
  · rw [acqSt_setAcq_other _ he]
    exact (acqSt_congr hacq e).trans (acqSt_setAcq_other _ he)
  · have hrd : (n.wr (unitKey 0x510013 c) 2).rd (acqFlags c) = d.rd (acqFlags c) :=
      (Dev.rd_wr_other _ _ _ _ (by unfold acqFlags unitKey; omega)).trans (Dev.rd_congr hobjs _)
    exact congrArg (fun v => Nat.testBit v b) hrd

/-- The flags of a channel are not its state. -/
theorem acqState_flag (d : Dev) (c b : Nat) : (d.flag (acqFlags c) b).acqState c = d.acqState c :=
  Dev.rd_flag_other _ _ _ _ (by unfold acqFlags unitKey; omega)

theorem acqSt_flag (d : Dev) (key b c : Nat) : (d.flag key b).acqSt c = d.acqSt c := acqSt_congr (Dev.flag_acq ..) c

/-! ### Delivery -/

theorem acqDeliver_leaves (d : Dev) (c : Nat) (l : AcqLeg) (b : List Byte) : (d.acqDeliver c l b).objs = d.objs ∧
    (d.acqDeliver c l b).acq = d.acq ∧ (d.acqDeliver c l b).eas = d.eas := by
  unfold Dev.acqDeliver
  dsimp only
  split <;> exact ⟨rfl, rfl, rfl⟩

/-- A record of a channel without a job. -/
def freeRecord (c : Nat) (b : List Byte) : QItem := { flow := c / 16, job := 0, shot := 0, summary := false, bytes := padTo 8 b }

theorem acqDeliver_free {l : AcqLeg} (b : List Byte) (hfree : l.seq = 0) :
    (d.acqDeliver c l b).hub = { d.hub with qrs := d.hub.qrs ++ [freeRecord c b] } := by
  unfold Dev.acqDeliver
  dsimp only
  rw [if_pos hfree]
  rfl

theorem foldl_acqDeliver_leaves (c : Nat) (l : AcqLeg) (f : Nat → List Byte) (is : List Nat) (d : Dev) :
    (is.foldl (fun e i => e.acqDeliver c l (f i)) d).objs = d.objs ∧ (is.foldl (fun e i => e.acqDeliver c l (f i)) d).acq = d.acq ∧
    (is.foldl (fun e i => e.acqDeliver c l (f i)) d).eas = d.eas ∧
    (l.seq = 0 → (is.foldl (fun e i => e.acqDeliver c l (f i)) d).hub.qrs = d.hub.qrs ++ is.map fun i => freeRecord c (f i)) := by
  induction is generalizing d with
  | nil => exact ⟨rfl, rfl, rfl, fun _ => (List.append_nil _).symm⟩
  | cons a is ih =>
    obtain ⟨hobjs, hacq, heas⟩ := acqDeliver_leaves d c l (f a)
    obtain ⟨hobjs', hacq', heas', hqrs⟩ := ih (d.acqDeliver c l (f a))
    refine ⟨hobjs'.trans hobjs, hacq'.trans hacq, heas'.trans heas, fun hfree => ?_⟩
    rw [List.foldl_cons, hqrs hfree, acqDeliver_free _ hfree]
    simp

/-! ### Capture records -/

/-- The device with a run ended: its count, its state and its flags. -/
def runEnded (d : Dev) (c : Nat) (r : AcqRun) : Dev :=
  let d1 := (d.wrs [(unitKey 0x510016 c, d.rd (unitKey 0x510016 c) + 1),
    (unitKey 0x510013 c, d.afterRecord c (d.rd (unitKey 0x510016 c) + 1) r.disarm)]).setAcq c { d.acqSt c with run := none }
  let d2 := if (d.recordUnits c r.idx).1.length < d.acqPre c then d1.flag (acqFlags c) 4 else d1
  if d.acqLong c then d2.flag (acqFlags c) 5 else d2

/-- The bytes of a record's block. -/
def recordBlock (d : Dev) (c : Nat) (r : AcqRun) (l : AcqLeg) (i : Nat) : List Byte :=
  let n := blockUnits (d.acqTap c) (d.acqK c)
  d.blockBytes c 0 l false (d.acqLong c && decide (d.rd (unitKey 0x510009 c) < ((i + 1) * n) * unitBytes (d.acqTap c) (d.acqK c)))
    true ((((d.recordUnits c r.idx).1 ++ (d.recordUnits c r.idx).2).drop (i * n)).take n)

/-- How many blocks a record has. -/
def recordBlocks (d : Dev) (c : Nat) (r : AcqRun) : Nat :=
  ceilDiv ((d.recordUnits c r.idx).1 ++ (d.recordUnits c r.idx).2).length (blockUnits (d.acqTap c) (d.acqK c))

theorem captureRecordCompleteOp_due {r : AcqRun} {l : AcqLeg} (hrun : (d.acqSt c).run = some r)
    (hleg : (d.acqSt c).legs.getLast? = some l) (hstate : d.acqState c = 2)
    (hunits : (d.recordUnits c r.idx).2.length = d.acqPost c) : captureRecordCompleteOp c d =
      (List.range (recordBlocks d c r)).foldl (fun e i => e.acqDeliver c l (recordBlock d c r l i))
        ((runEnded d c r).acqDeliver c l (d.recordHead c (d.rd (unitKey 0x510016 c) + 1) r l (d.recordUnits c r.idx).1
          (d.recordUnits c r.idx).2)) := by
  unfold captureRecordCompleteOp
  simp only [hrun, hleg, if_pos (And.intro hstate hunits)]
  rfl

theorem runEnded_leaves (d : Dev) (c : Nat) (r : AcqRun) : ((runEnded d c r).acqSt c).run = none ∧
    (runEnded d c r).rd (unitKey 0x510016 c) = d.rd (unitKey 0x510016 c) + 1 ∧
    (runEnded d c r).acqState c = d.afterRecord c (d.rd (unitKey 0x510016 c) + 1) r.disarm ∧
    ((d.recordUnits c r.idx).1.length < d.acqPre c → (runEnded d c r).bit (acqFlags c) 4 = true) ∧
    (runEnded d c r).hub = d.hub ∧ (runEnded d c r).eas = d.eas := by
  let d1 := (d.wrs [(unitKey 0x510016 c, d.rd (unitKey 0x510016 c) + 1),
    (unitKey 0x510013 c, d.afterRecord c (d.rd (unitKey 0x510016 c) + 1) r.disarm)]).setAcq c { d.acqSt c with run := none }
  have hrun : (d1.acqSt c).run = none := congrArg AcqSt.run (acqSt_setAcq_self ..)
  have hcount : d1.rd (unitKey 0x510016 c) = d.rd (unitKey 0x510016 c) + 1 :=
    (Dev.rd_wr_other _ _ _ _ (by unfold unitKey; omega)).trans (Dev.rd_wr_self ..)
  have hstate : d1.acqState c = d.afterRecord c (d.rd (unitKey 0x510016 c) + 1) r.disarm := Dev.rd_wr_self ..
  have hne : unitKey 0x510016 c ≠ acqFlags c := by unfold acqFlags unitKey; omega
  have hshort : ∀ e : Dev, e = (if (d.recordUnits c r.idx).1.length < d.acqPre c then d1.flag (acqFlags c) 4 else d1) →
      (e.acqSt c).run = none ∧ e.rd (unitKey 0x510016 c) = d.rd (unitKey 0x510016 c) + 1 ∧
      e.acqState c = d.afterRecord c (d.rd (unitKey 0x510016 c) + 1) r.disarm ∧
      ((d.recordUnits c r.idx).1.length < d.acqPre c → e.bit (acqFlags c) 4 = true) ∧ e.hub = d.hub ∧ e.eas = d.eas := by
    rintro e rfl
    split
    · rw [acqSt_flag, Dev.rd_flag_other _ _ _ _ hne, acqState_flag, Dev.flag_hub, Dev.flag_eas]
      exact ⟨hrun, hcount, hstate, fun _ => Dev.bit_flag_self .., rfl, rfl⟩
    · next hlong => exact ⟨hrun, hcount, hstate, fun h => absurd h hlong, rfl, rfl⟩
  obtain ⟨hrun', hcount', hstate', hflag, hhub, heas⟩ := hshort _ rfl
  unfold runEnded
  dsimp only
  split
  · rw [acqSt_flag, Dev.rd_flag_other _ _ _ _ hne, acqState_flag, Dev.flag_hub, Dev.flag_eas]
    exact ⟨hrun', hcount', hstate', fun h => Dev.bit_flag_of_bit _ _ _ _ (hflag h), hhub, heas⟩
  · exact ⟨hrun', hcount', hstate', hflag, hhub, heas⟩

/-! ### Stream blocks -/

section
variable {l : AcqLeg} {us rest : List AcqUnit} {u : AcqUnit}

theorem legOwes_open (hstop : l.stop = none) : d.legOwes c l = true := by
  unfold Dev.legOwes
  rw [hstop]
  rfl

theorem nextUnits (hleg : ∀ x ∈ us ++ [u], d.inLeg c x.idx l = true) :
    ((us ++ u :: rest).takeWhile fun x => d.inLeg c x.idx l).take (us.length + 1) = us ++ [u] := by
  rw [show us ++ u :: rest = (us ++ [u]) ++ rest by simp, List.takeWhile_append_of_pos hleg]
  exact List.take_left' (by simp)

/-- The block of a streaming channel's next units. -/
def nextBlock (d : Dev) (c : Nat) (l : AcqLeg) (bs : List AcqUnit) : List Byte :=
  d.blockBytes c (d.acqSt c).gap l false false false bs

theorem streamBlockOp_hands (hstate : d.acqState c = 3) (hkind : d.rd (unitKey 0x510001 c) = 1) (hlegs : (d.acqSt c).legs = [l])
    (hfree : l.seq = 0) (hstop : l.stop = none) (hunits : (d.acqSt c).units = us ++ u :: rest)
    (hleg : ∀ x ∈ us ++ [u], d.inLeg c x.idx l = true) (hroom : us.length + 1 ≤ blockUnits (d.acqTap c) (d.acqK c))
    (hjudged : ∀ p ∈ d.metConds c, u.idx + 2 ^ d.acqK c ≤ p.2)
    (hknown : d.condsKnown c (d.unitTick c (u.idx + 2 ^ d.acqK c - 1)) = true) : streamBlockOp c (us.length + 1) d =
      if d.acqWaiting c + (nextBlock d c l (us ++ [u])).length ≤ d.rd (unitKey 0x510009 c) then
        (d.setAcq c { d.acqSt c with units := rest, gap := 0 }).acqDeliver c l (nextBlock d c l (us ++ [u]))
      else (d.setAcq c { d.acqSt c with units := rest, gap := (d.acqSt c).gap + (us.length + 1) }).flag (acqFlags c) 0 := by
  have hfind : [l].find? (d.legOwes c) = some l := List.find?_cons_of_pos (legOwes_open hstop)
  have hnext := nextUnits (rest := rest) hleg
  have hdrop : (us ++ u :: rest).drop (us.length + 1) = rest := by
    rw [show us ++ u :: rest = (us ++ [u]) ++ rest by simp]
    exact List.drop_left' (by simp)
  have hall : (d.metConds c).all (fun p => decide (u.idx + 2 ^ d.acqK c ≤ p.2)) = true := by simpa using hjudged
  unfold streamBlockOp nextBlock
  simp only [hlegs, hfind, hunits, hnext, hdrop, hstop, hfree]
  rw [if_pos ⟨.inl hstate, hkind, by simp, by simp, hroom, by simpa using hjudged, by simpa using hknown⟩]
  rfl

end

end
/-- Settles O39: an armed channel takes its trigger, a run ends in its record, and a stream hands over its blocks. -/
theorem acquisitionRuns : Obligations.AcquisitionRuns := by
  unfold Obligations.AcquisitionRuns
  intro s c idx
  refine ⟨fun b cs l hmet hnodup harrived hstate hover hhold hleg => ?taken, fun b l a hmet harrived hstate hleg hlast hheld => ?held,
    fun b l e hmet harrived hstate hleg hrun hin hhold => ?again, fun r l hrun hleg hstate hunits => ?record,
    fun l us rest u hstate hkind hlegs hfree hstop hunits hin hroom hjudged hknown => ?block⟩
  case taken =>
    have hnoRun : inRunAt s.now c idx = false := by
      unfold inRunAt
      rw [Option.any_eq_false]
      exact fun e he => by simpa using hover e he
    have hnotHeld : heldOff s.now c idx = false := by
      unfold heldOff
      rw [Option.any_eq_false]
      exact fun a ha => by simpa using hhold a ha
    have hop := acqTriggerOp_judges hmet hnodup (List.cons_ne_nil b cs) harrived (fun h => absurd (hstate.symm.trans h.1) (by decide)) hleg
    rw [hnotHeld, hnoRun] at hop
    simp only [hstate, Bool.false_eq_true, if_false, true_or, if_true] at hop
    have hddr : (acqTriggerOp c idx s.now).ddr = s.now.ddr := by simp
    obtain ⟨hconds, hcross⟩ := judge_all hmet
    have hbefore : ∀ e : Dev, e = (if 2 ≤ (b :: cs).length then (judged s.now c idx).flag (acqFlags c) 3 else judged s.now c idx) →
        e.acqState c = 1 ∧ e.acqSt c = (s.now.acqSt c).judge idx (s.now.chanSample c) ∧ (∀ i, i ≠ c → e.acqSt i = s.now.acqSt i) ∧
        (cs ≠ [] → e.bit (acqFlags c) 3 = true) ∧ e.acqK c = s.now.acqK c ∧ e.acqPost c = s.now.acqPost c ∧
        e.hub = s.now.hub ∧ e.eas = s.now.eas := by
      rintro e rfl
      split
      · refine ⟨(acqState_flag ..).trans hstate, (acqSt_flag ..).trans (acqSt_setAcq_self ..),
          fun i hi => (acqSt_flag ..).trans (acqSt_setAcq_other _ hi), fun _ => Dev.bit_flag_self .., ?_, ?_, Dev.flag_hub ..,
          Dev.flag_eas ..⟩
        · exact Dev.rd_flag_other _ _ _ _ (by unfold acqFlags unitKey; omega)
        · exact Dev.rd_flag_other _ _ _ _ (by unfold acqFlags unitKey; omega)
      · next hone =>
        have hsingle : cs = [] := by
          cases cs with
          | nil => rfl
          | cons x xs => exact absurd (by simp) hone
        exact ⟨hstate, acqSt_setAcq_self .., fun i hi => acqSt_setAcq_other _ hi, fun h => absurd hsingle h, rfl, rfl, rfl, rfl⟩
    obtain ⟨hstate', hst, hothers, hflag, hk, hpost, hhub, heas⟩ := hbefore _ rfl
    generalize (if 2 ≤ (b :: cs).length then (judged s.now c idx).flag (acqFlags c) 3 else judged s.now c idx) = e at *
    obtain ⟨hstate'', hst', hothers', hbits, hhub', heas'⟩ := acqAccept_leaves (d := e) (c := c) (idx := idx) (cs := b :: cs) (l := l)
      (by rw [hstate']; decide)
    refine ⟨s.onNow (acqTriggerOp c idx), by rfl, ?_⟩
    simp only [State.onNow, hop] at hddr ⊢
    rw [hst', hst, hk, hpost]
    exact ⟨hstate'', hconds, hcross, rfl, rfl, rfl, fun h => (hbits 3).trans (hflag h), fun i hi => (hothers' i hi).trans (hothers i hi),
      hhub'.trans hhub, heas'.trans heas, hddr⟩
  case held =>
    have hheldOff : heldOff s.now c idx = true := by
      unfold heldOff
      rw [hlast]
      simpa using hheld
    have hop := acqTriggerOp_judges (cs := [b]) hmet (List.nodup_singleton b) (List.cons_ne_nil b []) harrived
      (fun h => absurd (hstate.symm.trans h.1) (by decide)) hleg
    rw [hheldOff, if_pos rfl] at hop
    have hddr : (acqTriggerOp c idx s.now).ddr = s.now.ddr := by simp
    refine ⟨s.onNow (acqTriggerOp c idx), by rfl, ?_⟩
    simp only [State.onNow, hop] at hddr ⊢
    rw [acqSt_flag, judged, acqSt_setAcq_self]
    exact ⟨(acqState_flag ..).trans hstate, (judge_all (cs := [b]) hmet).1, rfl, hlast, Dev.bit_flag_self .., Dev.flag_hub ..,
      Dev.flag_eas .., hddr⟩
  case again =>
    have hinRun : inRunAt s.now c idx = true := by
      unfold inRunAt
      rw [hrun]
      simpa using hin
    have hnotHeld : heldOff s.now c idx = false := by
      unfold heldOff
      rw [Option.any_eq_false]
      exact fun a ha => by simpa using hhold a ha
    have hop := acqTriggerOp_judges (cs := [b]) hmet (List.nodup_singleton b) (List.cons_ne_nil b []) harrived
      (fun h => absurd (hinRun.symm.trans h.2) (by decide)) hleg
    rw [hnotHeld, hinRun] at hop
    simp only [Bool.false_eq_true, if_false, List.length_singleton, Nat.reduceLeDiff, if_true] at hop
    have hddr : (acqTriggerOp c idx s.now).ddr = s.now.ddr := by simp
    refine ⟨s.onNow (acqTriggerOp c idx), by rfl, ?_⟩
    simp only [State.onNow, hop] at hddr ⊢
    rw [acqSt_flag, judged, acqSt_setAcq_self]
    exact ⟨(acqState_flag ..).trans hstate, (judge_all (cs := [b]) hmet).1, rfl, Dev.bit_flag_self .., Dev.flag_hub ..,
      Dev.flag_eas .., hddr⟩
  case record =>
    have hop := captureRecordCompleteOp_due hrun hleg hstate hunits
    have hddr : (captureRecordCompleteOp c s.now).ddr = s.now.ddr := by simp
    obtain ⟨hnone, hcount, hstate', hshort, hhub, heas⟩ := runEnded_leaves s.now c r
    let head := s.now.recordHead c (s.now.rd (unitKey 0x510016 c) + 1) r l (s.now.recordUnits c r.idx).1 (s.now.recordUnits c r.idx).2
    obtain ⟨hobjs', hacq', heas'⟩ := acqDeliver_leaves (runEnded s.now c r) c l head
    obtain ⟨hobjs'', hacq'', heas'', hqrs⟩ := foldl_acqDeliver_leaves c l (recordBlock s.now c r l)
      (List.range (recordBlocks s.now c r)) ((runEnded s.now c r).acqDeliver c l head)
    have hobjs := hobjs''.trans hobjs'
    refine ⟨s.onNow (captureRecordCompleteOp c), by rfl, ?_⟩
    simp only [State.onNow, hop] at hddr ⊢
    refine ⟨?_, (Dev.rd_congr hobjs _).trans hcount, (acqState_congr hobjs c).trans hstate',
      fun h => (Dev.bit_congr hobjs _ _).trans (hshort h), fun hfree => ?_, heas''.trans (heas'.trans heas), hddr⟩
    · rw [acqSt_congr (hacq''.trans hacq')]
      exact hnone
    · refine ⟨(List.range (recordBlocks s.now c r)).map fun i => freeRecord c (recordBlock s.now c r l i), ?_, ?_, fun x hx => ?_⟩
      · rw [hqrs hfree, acqDeliver_free _ hfree, hhub, List.append_assoc]
        rfl
      · rw [List.length_map, List.length_range, recordBlocks, List.length_append]
      · obtain ⟨i, -, rfl⟩ := List.mem_map.mp hx
        exact ⟨rfl, rfl⟩
  case block =>
    have hop := streamBlockOp_hands hstate hkind hlegs hfree hstop hunits hin hroom hjudged hknown
    have hddr : (streamBlockOp c (us.length + 1) s.now).ddr = s.now.ddr := by simp
    refine ⟨s.onNow (streamBlockOp c (us.length + 1)), by rfl, ?_⟩
    simp only [State.onNow]
    by_cases hfits : s.now.acqWaiting c + (nextBlock s.now c l (us ++ [u])).length ≤ s.now.rd (unitKey 0x510009 c)
    · rw [if_pos hfits] at hop
      rw [hop] at hddr ⊢
      obtain ⟨hobjs, hacq, heas⟩ := acqDeliver_leaves (s.now.setAcq c { s.now.acqSt c with units := rest, gap := 0 }) c l
        (nextBlock s.now c l (us ++ [u]))
      rw [acqSt_congr hacq, acqSt_setAcq_self, acqDeliver_free _ hfree]
      exact ⟨rfl, hlegs, (acqState_congr hobjs c).trans hstate, rfl, heas, hddr, fun _ => ⟨rfl, hobjs, rfl⟩,
        fun h => absurd hfits (Nat.not_le.mpr h)⟩
    · rw [if_neg hfits] at hop
      rw [hop] at hddr ⊢
      rw [acqSt_flag, acqSt_setAcq_self, Dev.flag_hub, Dev.flag_eas]
      exact ⟨rfl, hlegs, (acqState_flag ..).trans hstate, rfl, rfl, hddr, fun h => absurd h hfits,
        fun _ => ⟨rfl, rfl, Dev.bit_flag_self ..⟩⟩

end Sys2Proof.Machine
end

section
/-! Feeds, PMBus polls and alerts, and DDR4 errors (R652, R663, R696 to R704). -/

namespace Sys2Proof.Machine

section
variable {d : Dev} {die side : Nat} {b : Bool}

/-- A bit below 2 of a value from which the other one, which it has, is taken. -/
theorem testBit_sub_other {x side : Nat} (hside : side < 2) (hset : x.testBit side = true) :
    (x - 2 ^ side).testBit (1 - side) = x.testBit (1 - side) := by
  obtain rfl | rfl : side = 0 ∨ side = 1 := by omega
  all_goals
    simp only [Nat.testBit_eq_decide_div_mod_eq, decide_eq_true_eq, decide_eq_decide] at hset ⊢
    omega

theorem testBit_sub_self {x side : Nat} (hside : side < 2) (hset : x.testBit side = true) :
    (x - 2 ^ side).testBit side = false := by
  obtain rfl | rfl : side = 0 ∨ side = 1 := by omega
  all_goals
    simp only [Nat.testBit_eq_decide_div_mod_eq, decide_eq_true_eq, decide_eq_false_iff_not] at hset ⊢
    omega

theorem Dev.bit_wrBit_set (d : Dev) (key n : Nat) : (d.wrBit key n true).bit key n = true := by
  have hrd : (d.wrBit key n true).rd key = Nat.lor (d.rd key) (2 ^ n) := Dev.rd_wr_self ..
  unfold Dev.bit
  rw [hrd]
  exact (Nat.testBit_or ..).trans (by simp)

theorem Dev.rd_wrBit_clear {key n : Nat} (hset : d.bit key n = true) : (d.wrBit key n false).rd key = d.rd key - 2 ^ n :=
  (Dev.rd_wr_self ..).trans (if_pos hset)

/-! ### What a feed's loss and return leave -/

theorem feedBand_leaves (d : Dev) (die : Nat) (b good : Bool) : (d.feedBand die b good).hub = d.hub ∧
    (d.feedBand die b good).eas = d.eas ∧ ∀ side, (d.feedBand die b good).rd (unitKey 0x783001 side) = d.rd (unitKey 0x783001 side) := by
  unfold Dev.feedBand
  induction dieRails die generalizing d with
  | nil => exact ⟨rfl, rfl, fun _ => rfl⟩
  | cons r rs ih =>
    obtain ⟨hhub, heas, hrd⟩ := ih (d.wrBit (unitKey 0x7C1004 r) (if b then 1 else 0) good)
    refine ⟨hhub.trans (Dev.wrBit_hub ..), heas.trans (Dev.wrBit_eas ..), fun side => (hrd side).trans ?_⟩
    exact Dev.rd_wrBit_other _ _ _ _ _ (by unfold unitKey; omega)

/-- The feed `side` of a die is down: its band and flag show it. -/
def feedDown (d : Dev) (die side : Nat) (b : Bool) : Dev :=
  (((d.wrBit (unitKey 0x783001 die) side false).feedBand die b false).flag (unitKey 0x783002 die) side)

/-- The shots that the transfer of a die's load spoils. -/
def transferred (d : Dev) (die side : Nat) (b : Bool) : Dev :=
  let d1 := feedDown d die side b
  let d2 : Dev := { d1 with hub := { d1.hub with transfers := d1.hub.transfers ++ [(die, side)] } }
  if die = 8 then d2.spoilAll else d2.spoilWhere (Job.onTile die)

theorem feedDown_leaves (d : Dev) (die side : Nat) (b : Bool) : (feedDown d die side b).hub = d.hub ∧
    (feedDown d die side b).eas = d.eas ∧ (feedDown d die side b).bit (unitKey 0x783002 die) side = true ∧
    (feedDown d die side b).rd (unitKey 0x783001 die) = (d.wrBit (unitKey 0x783001 die) side false).rd (unitKey 0x783001 die) := by
  unfold feedDown
  obtain ⟨hhub, heas, hrd⟩ := feedBand_leaves (d.wrBit (unitKey 0x783001 die) side false) die b false
  refine ⟨?hub, ?eas, Dev.bit_flag_self .., ?rd⟩
  case hub => rw [Dev.flag_hub, hhub, Dev.wrBit_hub]
  case eas => rw [Dev.flag_eas, heas, Dev.wrBit_eas]
  case rd => rw [Dev.rd_flag_other _ _ _ _ (by unfold unitKey; omega), hrd]

theorem transferred_leaves (d : Dev) (die side : Nat) (b : Bool) :
    (transferred d die side b).hub.transfers = d.hub.transfers ++ [(die, side)] ∧ (transferred d die side b).eas = d.eas ∧
    (transferred d die side b).objs = (feedDown d die side b).objs := by
  obtain ⟨hhub, heas, -, -⟩ := feedDown_leaves d die side b
  unfold transferred
  generalize feedDown d die side b = e at *
  dsimp only
  split_ifs with h8
  · exact ⟨by rw [← hhub]; rfl, heas, rfl⟩
  · exact ⟨by rw [← hhub]; rfl, heas, rfl⟩

theorem transferred_ddr (d : Dev) (die side : Nat) (b : Bool) : (transferred d die side b).ddr = d.ddr := by
  unfold transferred feedDown
  dsimp only
  split_ifs <;> simp

theorem feedLossOp_dead (hb : side = if b then 1 else 0) (hdead : d.bit (unitKey 0x783001 die) side = false) :
    feedLossOp die b d = d := by
  subst hb
  exact if_pos (.inr (by rw [hdead]; rfl))

theorem feedLossOp_live (hb : side = if b then 1 else 0) (hdie : die ≤ 8) (hlive : d.bit (unitKey 0x783001 die) side = true) :
    feedLossOp die b d = if (transferred d die side b).rd (unitKey 0x783001 die) % 4 ≠ 0 then transferred d die side b
      else if die = 8 then powerRemovalOp (transferred d die side b)
      else (tileUnits die).foldl (fun e u => e.retireNow u 0) (transferred d die side b) := by
  subst hb
  have hguard : ¬ (8 < die ∨ (!d.bit (unitKey 0x783001 die) (if b then 1 else 0)) = true) := by
    rw [hlive]
    simp only [Bool.not_true, Bool.false_eq_true, or_false]
    omega
  exact if_neg hguard

theorem transferred_rd (hlive : d.bit (unitKey 0x783001 die) side = true) :
    (transferred d die side b).rd (unitKey 0x783001 die) = d.rd (unitKey 0x783001 die) - 2 ^ side := by
  obtain ⟨-, -, hobjs⟩ := transferred_leaves d die side b
  obtain ⟨-, -, -, hrd⟩ := feedDown_leaves d die side b
  rw [Dev.rd_congr hobjs, hrd, Dev.rd_wrBit_clear hlive]

theorem feedRestoredOp_dead (hb : side = if b then 1 else 0) (hdie : die ≤ 8)
    (hdead : d.bit (unitKey 0x783001 die) side = false) : feedRestoredOp die b d =
      (((d.wrBit (unitKey 0x783001 die) side true).feedBand die b true).flag (unitKey 0x783002 die) 2) := by
  subst hb
  exact if_neg (by rw [hdead]; simp only [Bool.false_eq_true, or_false]; omega)

/-! ### Records and polls -/

theorem rd_bbWrite_other (d : Dev) (btype ukind uidx cause job shot : Nat) (payload : List Byte) {k : Nat}
    (h : k ≠ 0x782001 ∧ k ≠ 0x782002 ∧ k ≠ 0x782003 ∧ k ≠ 0x782007 ∧ k ≠ 0x203003) :
    (d.bbWrite btype ukind uidx cause job shot payload).rd k = d.rd k := by
  obtain ⟨h1, h2, h3, h7, hw⟩ := h
  have hobjects : ∀ e : Dev, e.bbObjects.rd k = e.rd k := fun e => Dev.rd_wrs_other _ _ _ (by simp [h1, h3])
  unfold Dev.bbWrite
  dsimp only
  rw [Dev.rd_congr (Dev.trace_objs ..), Dev.rd_noteStamp_other _ _ _ hw]
  split_ifs <;> simp only [Dev.rd_flag_other _ _ _ _ h7, hobjects, Dev.rd_wr_other _ _ _ _ h2] <;> rfl

/-- A record changes nothing of the hub but the records. -/
theorem bbWrite_leaves (d : Dev) (btype ukind uidx cause job shot : Nat) (payload : List Byte) :
    ∃ bb, (d.bbWrite btype ukind uidx cause job shot payload).hub = { d.hub with bb := bb } ∧
      (d.bbWrite btype ukind uidx cause job shot payload).eas = d.eas := by
  unfold Dev.bbWrite
  dsimp only
  rw [Dev.trace_hub, Dev.noteStamp_hub, Dev.trace_eas, Dev.noteStamp_eas]
  split_ifs <;> simp only [Dev.flag_hub, Dev.bbObjects, Dev.wrs_hub, Dev.wr_hub, Dev.flag_eas, Dev.wrs_eas, Dev.wr_eas] <;>
    exact ⟨_, rfl, trivial⟩

theorem feedTransferCompleteOp_due {ticks : Nat} (hdue : d.hub.transfers = [(die, side)]) :
    feedTransferCompleteOp die ticks d =
      (({ d with hub := { d.hub with transfers := [] } } : Dev).wr (unitKey 0x783003 die) ticks).bbWrite 4 14 (2 * die + side)
        0 0 0 (Dev.railReadings { d with hub := { d.hub with transfers := [] } } die side ++ le 4 ticks) := by
  unfold feedTransferCompleteOp
  simp only [hdue, List.find?_cons_of_pos (p := fun t : Nat × Nat => t.1 == die) (a := (die, side)) (l := []) (beq_self_eq_true die),
    List.erase_cons_head]
  rfl

theorem pmbusPollOp_polls {rail n : Nat} {f : Bool} (hb : side = if b then 1 else 0) (hrail : rail < 32)
    (hpow : d.pwr.powered = true) (hset : d.rd (unitKey (0x7C1001 + side) rail) ≠ 0) (hdue : d.pwr.pollDue.testBit side = false) :
    pmbusPollOp b rail n f d = if 3 ≤ n then d.flag 0x7C0001 2 else if f then feedLossOp (railDie rail) b d else d := by
  subst hb
  have hguard : ¬ (32 ≤ rail ∨ (!d.pwr.powered) = true ∨ d.rd (unitKey (0x7C1001 + if b = true then 1 else 0) rail) = 0) := by
    rw [hpow]
    simp only [Bool.not_true, Bool.false_eq_true, false_or, not_or]
    exact ⟨by omega, hset⟩
  have hkeep : (if d.pwr.pollDue.testBit (if b = true then 1 else 0) = true
      then d.pwr.pollDue - 2 ^ (if b = true then 1 else 0) else d.pwr.pollDue) = d.pwr.pollDue := if_neg (by rw [hdue]; decide)
  unfold pmbusPollOp
  dsimp only
  rw [if_neg hguard, hkeep]

end

section
variable (s : State)
theorem exec_feedLoss (die : Nat) (b : Bool) : exec (.feedLoss die b) s = .next (s.onNow (feedLossOp die b)) := rfl
theorem exec_feedRestored (die : Nat) (b : Bool) : exec (.feedRestored die b) s = .next (s.onNow (feedRestoredOp die b)) := rfl
theorem exec_feedTransferComplete (die n : Nat) :
    exec (.feedTransferComplete die n) s = .next (s.onNow (feedTransferCompleteOp die n)) := rfl
theorem exec_pmbusPoll (b : Bool) (rail n : Nat) (f : Bool) :
    exec (.pmbusPoll b rail n f) s = .next (s.onNow (pmbusPollOp b rail n f)) := rfl
theorem exec_pmbAlert (b : Bool) : exec (.pmbAlert b) s = .next (s.onNow (pmbAlertOp b)) := rfl
theorem exec_ddrEccError (ch : Nat) (u : Bool) : exec (.ddrEccError ch u) s = .next (s.onNow (ddrEccErrorOp ch u)) := rfl
end

/-- Settles O60: a lost feed clears its own bit of FEED_STATE alone, so what stays of the two decides between the transfer
of the load and the loss of power; the other clauses are each one operation's case. -/
theorem feedsAndSupplies : Obligations.FeedsAndSupplies := by
  unfold Obligations.FeedsAndSupplies
  intro s die side b hb hdie
  have hside : side < 2 := by rw [hb]; split_ifs <;> decide
  refine ⟨fun hlive hother => ?loses, fun h8 hlive honly => ?removes, fun hdead => ⟨?dead, ?restored⟩, fun ticks hdue => ?transfer,
    fun rail n hrail hpow hset hdue => ⟨fun hn f => ?silent, fun hn => ⟨?quiet, ?fault⟩⟩, ?alert, fun ch => ⟨?corrected, ?uncorrected⟩⟩
  case loses =>
    have hrd := transferred_rd (b := b) hlive
    have hstays : (transferred s.now die side b).bit (unitKey 0x783001 die) (1 - side) = true := by
      unfold Dev.bit at hother ⊢
      rw [hrd, testBit_sub_other hside hlive, hother]
    have hsome : (transferred s.now die side b).rd (unitKey 0x783001 die) % 4 ≠ 0 := by
      unfold Dev.bit at hstays
      intro hnone
      obtain rfl | rfl : side = 0 ∨ side = 1 := by omega
      all_goals
        simp only [Nat.testBit_eq_decide_div_mod_eq, decide_eq_true_eq] at hstays
        omega
    have hop := (feedLossOp_live hb hdie hlive).trans (if_pos hsome)
    obtain ⟨htr, heas, hobjs⟩ := transferred_leaves s.now die side b
    obtain ⟨-, -, hflag, -⟩ := feedDown_leaves s.now die side b
    refine ⟨s.onNow (feedLossOp die b), exec_feedLoss s die b, ?_⟩
    simp only [State.onNow, hop]
    refine ⟨?_, hstays, (Dev.bit_congr hobjs _ _).trans hflag, htr, heas, transferred_ddr ..⟩
    unfold Dev.bit at hlive ⊢
    rw [hrd, testBit_sub_self hside hlive]
  case removes =>
    subst h8
    have hnone : ¬ (transferred s.now 8 side b).rd (unitKey 0x783001 8) % 4 ≠ 0 := by
      rw [transferred_rd hlive]
      obtain rfl | rfl : side = 0 ∨ side = 1 := by omega
      all_goals omega
    have hop := ((feedLossOp_live hb hdie hlive).trans (if_neg hnone)).trans (if_pos rfl)
    obtain ⟨-, heas, -⟩ := transferred_leaves s.now 8 side b
    refine ⟨s.onNow (feedLossOp 8 b), exec_feedLoss s 8 b, ?_⟩
    simp only [State.onNow, hop]
    exact ⟨rfl, rfl, congrArg (·.cust) heas⟩
  case dead => exact congrArg (fun d => Host.Outcome.next { s with now := d }) (feedLossOp_dead hb hdead)
  case restored =>
    have hddr : (feedRestoredOp die b s.now).ddr = s.now.ddr := by simp
    have hop := feedRestoredOp_dead hb hdie hdead
    obtain ⟨hhub, heas, hrd⟩ := feedBand_leaves (s.now.wrBit (unitKey 0x783001 die) side true) die b true
    refine ⟨s.onNow (feedRestoredOp die b), exec_feedRestored s die b, ?_⟩
    simp only [State.onNow, hop] at hddr ⊢
    refine ⟨?bit, Dev.bit_flag_self .., ?hub, ?eas, hddr⟩
    case bit =>
      unfold Dev.bit
      rw [Dev.rd_flag_other _ _ _ _ (by unfold unitKey; omega), hrd]
      exact Dev.bit_wrBit_set ..
    case hub => rw [Dev.flag_hub, hhub, Dev.wrBit_hub]
    case eas => rw [Dev.flag_eas, heas, Dev.wrBit_eas]
  case transfer =>
    have hddr : (feedTransferCompleteOp die ticks s.now).ddr = s.now.ddr := by simp
    have hop := feedTransferCompleteOp_due (ticks := ticks) hdue
    refine ⟨s.onNow (feedTransferCompleteOp die ticks), exec_feedTransferComplete s die ticks, ?_⟩
    simp only [State.onNow, hop] at hddr ⊢
    generalize Dev.railReadings _ die side ++ le 4 ticks = payload at hddr ⊢
    obtain ⟨bb, hhub, heas⟩ := bbWrite_leaves (({ s.now with hub := { s.now.hub with transfers := [] } } : Dev).wr
      (unitKey 0x783003 die) ticks) 4 14 (2 * die + side) 0 0 0 payload
    refine ⟨?ticks, ?transfers, ?jobs, heas.trans (Dev.wr_eas ..), hddr⟩
    case ticks =>
      rw [rd_bbWrite_other _ _ _ _ _ _ _ _ (by unfold unitKey; omega)]
      exact Dev.rd_wr_self ..
    case transfers => rw [hhub]; rfl
    case jobs => rw [hhub]; rfl
  case silent =>
    exact congrArg (fun d => Host.Outcome.next { s with now := d }) ((pmbusPollOp_polls hb hrail hpow hset hdue).trans (if_pos hn))
  case quiet =>
    exact congrArg (fun d => Host.Outcome.next { s with now := d })
      (((pmbusPollOp_polls hb hrail hpow hset hdue).trans (if_neg (Nat.not_le.mpr hn))).trans (if_neg Bool.false_ne_true))
  case fault =>
    rw [exec_pmbusPoll, exec_feedLoss]
    exact congrArg (fun d => Host.Outcome.next { s with now := d })
      (((pmbusPollOp_polls hb hrail hpow hset hdue).trans (if_neg (Nat.not_le.mpr hn))).trans (if_pos rfl))
  case alert =>
    refine ⟨s.onNow (pmbAlertOp b), exec_pmbAlert s b, ?_⟩
    have hbits : ∀ n, (Nat.lor s.now.pwr.pollDue (if b then 2 else 1)).testBit n =
        (s.now.pwr.pollDue.testBit n || (if b then 2 else 1).testBit n) := fun n => Nat.testBit_or ..
    refine ⟨(hbits side).trans ?_, (hbits (1 - side)).trans ?_, rfl, rfl⟩
    · subst hb
      cases b <;> simp [Nat.testBit_succ]
    · subst hb
      cases b <;> simp [Nat.testBit_succ]
  case corrected => exact rfl
  case uncorrected => exact rfl

end Sys2Proof.Machine
end

section
/-! Acknowledgement, NAK, resending, REFRESH and bulk transfers of a link (R518, R529 to R533, R538). -/

namespace Sys2Proof.Machine

section
variable {d : Dev} {c : CellHdr} {k : Nat}

/-! ### Cells that stand -/

/-- An acknowledgement changes the sender's side of its link alone. -/
theorem ackCells_leaves (d : Dev) (c : CellHdr) : (d.ackCells c).hub = d.hub ∧ (d.ackCells c).eas = d.eas ∧
    (d.ackCells c).ddr = d.ddr ∧ ((d.ackCells c).link c.link).rxExpect = (d.link c.link).rxExpect ∧
    ((d.ackCells c).link c.link).bulk = (d.link c.link).bulk := by
  unfold Dev.ackCells
  split
  · dsimp only
    split
    · exact ⟨rfl, rfl, rfl, rfl, rfl⟩
    · exact ⟨rfl, rfl, rfl, by rw [Dev.link_setLink_self], by rw [Dev.link_setLink_self]⟩
  · exact ⟨rfl, rfl, rfl, rfl, rfl⟩

theorem ackCells_none (h : c.ackValid = false) : d.ackCells c = d := if_neg (by simp [h])

theorem rxPlain_stands (hup : d.linkUp c.link = true) (hgood : c.good = true) : d.rxPlain c = (d.ackCells c, true) :=
  (if_pos hup).trans (if_pos hgood)

/-- The device after the next cell in order of its link. -/
def accepted (d : Dev) (c : CellHdr) : Dev :=
  (d.ackCells c).setLink c.link { (d.ackCells c).link c.link with
    rxExpect := (((d.ackCells c).link c.link).rxExpect + 1) % 256
    rxAny := true
    nakRun := false }

theorem rxCell_stands (hup : d.linkUp c.link = true) (hgood : c.good = true) (hseq : c.cseq = (d.link c.link).rxExpect) :
    d.rxCell c = (accepted d c, true) := by
  obtain ⟨-, -, -, hexpect, -⟩ := ackCells_leaves d c
  have hstand : (c.good && c.cseq == ((d.ackCells c).link c.link).rxExpect) = true := by
    rw [hgood, hexpect, hseq, beq_self_eq_true]
    rfl
  unfold Dev.rxCell
  rw [if_pos hup]
  dsimp only
  simp only [if_pos hgood, if_pos hstand]
  rfl

theorem accepted_leaves (d : Dev) (c : CellHdr) : (accepted d c).hub = d.hub ∧ (accepted d c).eas = d.eas ∧
    (accepted d c).ddr = d.ddr ∧ ((accepted d c).link c.link).rxExpect = ((d.link c.link).rxExpect + 1) % 256 := by
  obtain ⟨hhub, heas, hddr, hexpect, -⟩ := ackCells_leaves d c
  exact ⟨hhub, heas, hddr, by unfold accepted; rw [Dev.link_setLink_self, hexpect]⟩

theorem idleOp_acks {i : Nat} (hup : d.linkUp c.link = true) (hgood : c.good = true) (hack : c.ackValid = true)
    (hheld : (d.link c.link).held.findIdx? (fun h => h.cseq == c.ackSeq) = some i) :
    idleOp c d = d.setLink c.link { d.link c.link with
        held := stayHeld (d.link c.link).held i
        resent := stillHeld (stayHeld (d.link c.link).held i) true (d.link c.link).resent
        expired := 0 } := by
  unfold idleOp
  rw [rxPlain_stands hup hgood]
  unfold Dev.ackCells
  rw [if_pos hack]
  dsimp only
  rw [hheld]

/-! ### Sending again -/

/-- The cells that are ready again from the held one at a place on. -/
def againFrom (d : Dev) (k i : Nat) : List (Nat × CellBody) := ((d.link k).held.drop i).flatMap HeldCell.again

theorem resendFrom_leaves {seq i : Nat} (hheld : (d.link k).held.findIdx? (fun h => h.cseq == seq) = some i) :
    ((d.resendFrom k seq).link k).resent = againFrom d k i ∧ ((d.resendFrom k seq).link k).expired = (d.link k).expired ∧
    (d.resendFrom k seq).bit (unitKey 0x24000A k) 1 = true ∧
    (d.bit (unitKey 0x24000A k) 2 = true → (d.resendFrom k seq).bit (unitKey 0x24000A k) 2 = true) ∧
    (d.resendFrom k seq).hub = d.hub := by
  have hkey : unitKey 0x24000A k ≠ 0x24F101 := by unfold unitKey; omega
  have hown : unitKey 0x24000A k ≠ unitKey 0x240009 k := by unfold unitKey; omega
  unfold Dev.resendFrom
  dsimp only
  rw [hheld]
  dsimp only
  generalize hl : ({ d.link k with
    held := _
    resent := _
    ahead := _ } : Link) = l
  have hresent : l.resent = againFrom d k i := by rw [← hl]; rfl
  have hexpired : l.expired = (d.link k).expired := by rw [← hl]
  have hlink : ∀ e : Dev, e.ser = (d.setLink k l).ser → (e.link k).resent = againFrom d k i ∧
      (e.link k).expired = (d.link k).expired := fun e he => by
    rw [Dev.link_congr he, Dev.link_setLink_self]
    exact ⟨hresent, hexpired⟩
  have hold : d.bit (unitKey 0x24000A k) 2 = true → (d.setLink k l).bit (unitKey 0x24000A k) 2 = true := fun h => by
    unfold Dev.bit at h ⊢
    rwa [Dev.rd_setLink, if_neg hown]
  clear hl
  split
  · obtain ⟨h1, h2⟩ := hlink ((d.setLink k l).flag (unitKey 0x24000A k) 1) (Dev.flag_ser ..)
    exact ⟨h1, h2, Dev.bit_flag_self .., fun h => Dev.bit_flag_of_bit _ _ _ _ (hold h), Dev.flag_hub ..⟩
  · obtain ⟨h1, h2⟩ := hlink (((d.setLink k l).flag (unitKey 0x24000A k) 1).flagN 0x24F101 0
      (((d.link k).held.drop i).map (·.body.words)).sum) ((Dev.flagN_ser ..).trans (Dev.flag_ser ..))
    refine ⟨h1, h2, ?_, fun h => ?_, (Dev.flagN_hub ..).trans (Dev.flag_hub ..)⟩
    · unfold Dev.bit
      rw [Dev.rd_flagN_other _ _ _ _ _ hkey]
      exact Dev.bit_flag_self ..
    · unfold Dev.bit
      rw [Dev.rd_flagN_other _ _ _ _ _ hkey]
      exact Dev.bit_flag_of_bit _ _ _ _ (hold h)

/-- The device when the oldest cell has waited too long. -/
def timedOut (d : Dev) (k : Nat) : Dev :=
  let d1 := d.flag (unitKey 0x24000A k) 2
  d1.setLink k { d1.link k with expired := (d1.link k).expired + 1 }

theorem timedOut_leaves (d : Dev) (k : Nat) : ((timedOut d k).link k).held = (d.link k).held ∧
    ((timedOut d k).link k).expired = (d.link k).expired + 1 ∧ (timedOut d k).bit (unitKey 0x24000A k) 2 = true ∧
    (timedOut d k).hub = d.hub := by
  have hlink : (d.flag (unitKey 0x24000A k) 2).link k = d.link k := Dev.link_congr (Dev.flag_ser ..) k
  unfold timedOut
  dsimp only
  rw [Dev.link_setLink_self, hlink]
  refine ⟨rfl, rfl, ?_, Dev.flag_hub ..⟩
  unfold Dev.bit
  rw [Dev.rd_setLink, if_neg (by unfold unitKey; omega)]
  exact Dev.bit_flag_self ..

theorem resendTimeoutOp_due {h : HeldCell} {l : List HeldCell} (hup : d.linkUp k = true) (hold : (d.link k).unacked = h :: l)
    (hdue : h.at_ + d.rd (unitKey 0x240008 k) ≤ d.epoch) : resendTimeoutOp k d = (timedOut d k).resendFrom k h.cseq := by
  unfold resendTimeoutOp
  rw [hold]
  exact if_pos ⟨hdue, hup⟩

/-! ### Errored cells, bulk transfers -/

theorem cellErr_leaves (d : Dev) (k : Nat) : (d.cellErr k).hub = d.hub ∧ (d.cellErr k).eas = d.eas ∧
    (d.cellErr k).bit (unitKey 0x24000A k) 0 = true ∧ ((d.cellErr k).link k).bulk = (d.link k).bulk := by
  have hlink : (d.flag (unitKey 0x24000A k) 0).link k = d.link k := Dev.link_congr (Dev.flag_ser ..) k
  unfold Dev.cellErr
  dsimp only
  rw [hlink]
  generalize hl : ({ d.link k with bad := _ } : Link) = l
  have hbulk : l.bulk = (d.link k).bulk := by rw [← hl]
  refine ⟨?hub, ?eas, ?bit, ?bulk⟩
  case hub => exact (foldl_leaves (f := (·.hub)) _ _ fun _ _ _ => by rfl).trans ((Dev.setLink_hub ..).trans (Dev.flag_hub ..))
  case eas => exact (foldl_leaves (f := (·.eas)) _ _ fun _ _ _ => by rfl).trans ((Dev.setLink_eas ..).trans (Dev.flag_eas ..))
  case bit =>
    refine (foldl_leaves (f := (·.bit (unitKey 0x24000A k) 0)) _ _ fun _ _ _ => by rfl).trans ?_
    unfold Dev.bit
    rw [Dev.rd_setLink, if_neg (by unfold unitKey; omega)]
    exact Dev.bit_flag_self ..
  case bulk =>
    refine (congrArg Link.bulk (foldl_leaves (f := (·.link k)) _ _ fun _ _ _ => by rfl)).trans ?_
    rw [Dev.link_setLink_self, hbulk]

theorem dataCellOp_joins {b : BulkRx} {bytes : List Byte} (hup : d.linkUp k = true) (hbulk : (d.link k).bulk = some b)
    (hroom : b.data.length < 32 * b.cells) (hlen : bytes.length = 32) :
    dataCellOp k true [] bytes d = d.setLink k { d.link k with bulk := some { b with data := b.data ++ bytes } } := by
  have hpad : (padTo 32 bytes).take 32 = bytes := by
    unfold padTo
    rw [hlen]
    exact List.take_left' hlen
  unfold dataCellOp
  rw [if_pos hup, if_pos (by rfl), hbulk]
  dsimp only
  rw [if_pos hroom, hpad]

theorem dataCellOp_invalid {l : Nat} {good : Bool} {bytes : List Byte} (hup : d.linkUp k = true) (hl : l < 4) :
    dataCellOp k good [l] bytes d = (d.cellErr k).flag (unitKey 0x24000A k) (16 + l) := by
  have hlane : ([l].filter (· < 4)).dedup = [l] := by simp [hl]
  unfold dataCellOp
  rw [if_pos hup, if_neg (by simp), hlane]
  rfl

theorem bulkTailOp_stands {b : BulkRx} {crc : W32} (hup : d.linkUp c.link = true) (hgood : c.good = true)
    (hbulk : (d.link c.link).bulk = some b) (hseq : c.cseq = (d.link c.link).rxExpect) (hlen : b.data.length = 32 * b.cells)
    (hcrc : crc32 b.data = crc.toNat) (hdst : b.dst = d.chip) :
    bulkTailOp c crc d =
      let d1 := (accepted d c).setLink c.link { (accepted d c).link c.link with bulk := none }
      if d.streamOverlap b.addr b.data.length then d1.conflict else { d1 with ddr := ddrWrite d1.ddr b.addr b.data } := by
  obtain ⟨hhub, -, -, -⟩ := accepted_leaves d c
  have hmatch : ¬ (d.linkUp c.link && c.good && c.cseq == (d.link c.link).rxExpect
      && (b.data.length != 32 * b.cells || crc32 b.data != crc.toNat)) = true := by
    rw [hlen, hcrc, bne_self_eq_false, bne_self_eq_false]
    simp
  have hoverlap : ((accepted d c).setLink c.link { (accepted d c).link c.link with bulk := none }).streamOverlap b.addr b.data.length =
      d.streamOverlap b.addr b.data.length := by
    unfold Dev.streamOverlap
    rw [Dev.setLink_hub, hhub]
  unfold bulkTailOp
  dsimp only
  rw [hbulk]
  dsimp only
  rw [if_neg hmatch, rxCell_stands hup hgood hseq]
  dsimp only
  rw [if_pos rfl, if_pos hdst, hoverlap]

theorem bulkTailOp_errs {b : BulkRx} {crc : W32} (hup : d.linkUp c.link = true) (hgood : c.good = true)
    (hbulk : (d.link c.link).bulk = some b) (hseq : c.cseq = (d.link c.link).rxExpect) (hcrc : crc32 b.data ≠ crc.toNat) :
    bulkTailOp c crc d = ((d.ackCells c).cellErr c.link).setLink c.link { ((d.ackCells c).cellErr c.link).link c.link with
        bulk := none
        rxExpect := b.head
        nakRun := true
        nakOut := some b.head } := by
  have hbad : (d.linkUp c.link && c.good && c.cseq == (d.link c.link).rxExpect
      && (b.data.length != 32 * b.cells || crc32 b.data != crc.toNat)) = true := by
    rw [hup, hgood, hseq, bne_iff_ne.mpr hcrc]
    simp
  unfold bulkTailOp
  dsimp only
  rw [hbulk]
  exact if_pos hbad

theorem refreshOp_stands {v h : Nat} (hup : d.linkUp c.link = true) (hgood : c.good = true) (hack : c.ackValid = false) :
    refreshOp c v h d = d.wrs ((List.range 4).map fun l =>
      (unitKey 0x241003 (4 * c.link + l), v % 2 ^ 16 + 2 ^ 16 * (h % 2 ^ 16))) := by
  unfold refreshOp
  rw [rxPlain_stands hup hgood, ackCells_none hack]
  exact if_pos rfl

end

section
variable (s : State) (c : CellHdr)
theorem exec_idle : exec (.idle c) s = .next (s.onNow (idleOp c)) := rfl
theorem exec_nak (n : Nat) : exec (.nak c n) s = .next (s.onNow (nakOp c n)) := rfl
theorem exec_resendTimeout (k : Nat) : exec (.resendTimeout k) s = .next (s.onNow (resendTimeoutOp k)) := rfl
theorem exec_refresh (v h : Nat) : exec (.refresh c v h) s = .next (s.onNow (refreshOp c v h)) := rfl
theorem exec_bulkHead (dst src n a : Nat) : exec (.bulkHead c dst src n a) s = .next (s.onNow (bulkHeadOp c dst n a)) := rfl
theorem exec_dataCell (k : Nat) (g : Bool) (i : List Nat) (b : List Byte) :
    exec (.dataCell k g i b) s = .next (s.onNow (dataCellOp k g i b)) := rfl
theorem exec_bulkTail (crc : W32) : exec (.bulkTail c crc) s = .next (s.onNow (bulkTailOp c crc)) := rfl
end

/-- Settles O56: a cell that stands acknowledges first, which changes the sender's side of its link alone, so what each kind of
cell does on the receiver's side is as before it; a transfer that ends here is one write of consecutive bytes. -/
theorem cellsReceived : Obligations.CellsReceived := by
  unfold Obligations.CellsReceived
  intro s c hup hgood
  refine ⟨fun i hack hheld => ?idle, fun n i hack hheld => ?nak, fun h l i hold hheld hdue => ?timeout, fun v h hack => ?refresh,
    fun dst src cells addr hseq hack => ?head, fun b bytes hbulk hroom hlen => ?joins, fun l good bytes hl => ?invalid,
    fun b crc hbulk hseq => ⟨fun hlen hcrc hdst hfree => ?stored, fun hlen hcrc hdst hover => ?refused, fun hcrc => ?again⟩⟩
  case idle => exact does_of_onNow (exec_idle s c) (idleOp_acks hup hgood hack hheld)
  case nak =>
    have hddr : (nakOp c n s.now).ddr = s.now.ddr := by simp
    have hop : nakOp c n s.now = s.now.resendFrom c.link n := by
      unfold nakOp
      rw [rxPlain_stands hup hgood, ackCells_none hack]
      exact if_pos rfl
    obtain ⟨hresent, -, hbit, -, hhub⟩ := resendFrom_leaves hheld
    refine ⟨s.onNow (nakOp c n), exec_nak s c n, ?_⟩
    simp only [State.onNow, hop] at hddr ⊢
    exact ⟨hresent, hbit, hhub, hddr⟩
  case timeout =>
    have hddr : (resendTimeoutOp c.link s.now).ddr = s.now.ddr := by simp
    have hop := resendTimeoutOp_due hup hold hdue
    obtain ⟨hsame, hcount, hflag, hhub⟩ := timedOut_leaves s.now c.link
    rw [← hsame] at hheld
    obtain ⟨hresent, hexpired, -, hbit, hhub'⟩ := resendFrom_leaves hheld
    refine ⟨s.onNow (resendTimeoutOp c.link), exec_resendTimeout s c.link, ?_⟩
    simp only [State.onNow, hop] at hddr ⊢
    rw [againFrom, hsame] at hresent
    exact ⟨hresent, hexpired.trans hcount, hbit hflag, hhub'.trans hhub, hddr⟩
  case refresh =>
    have hop := refreshOp_stands (v := v) (h := h) hup hgood hack
    refine ⟨s.onNow (refreshOp c v h), exec_refresh s c v h, ?_⟩
    simp only [State.onNow, hop]
    refine ⟨fun l hl => Dev.rd_wrs_of_mem _ ?_ ?_, by simp, by simp, by simp⟩
    · exact List.mem_map_of_mem (List.mem_range.mpr hl)
    · exact fun p hp _ => by
        obtain ⟨j, -, rfl⟩ := List.mem_map.mp hp
        rfl
  case head =>
    have hop : bulkHeadOp c dst cells addr s.now = (accepted s.now c).setLink c.link { (accepted s.now c).link c.link with
        bulk := some
          { head := c.cseq
            dst := dst
            addr := addr
            cells := cells
            data := [] } } := by
      unfold bulkHeadOp
      rw [rxCell_stands hup hgood hseq]
      exact if_pos rfl
    obtain ⟨hhub, -, hddr, hexpect⟩ := accepted_leaves s.now c
    refine ⟨s.onNow (bulkHeadOp c dst cells addr), exec_bulkHead s c dst src cells addr, ?_⟩
    simp only [State.onNow, hop, Dev.link_setLink_self]
    exact ⟨trivial, by rw [hexpect, hseq], hhub, hddr⟩
  case joins => exact does_of_onNow (exec_dataCell s c.link true [] bytes) (dataCellOp_joins hup hbulk hroom hlen)
  case invalid =>
    have hddr : (dataCellOp c.link good [l] bytes s.now).ddr = s.now.ddr := by simp
    have hop := dataCellOp_invalid (good := good) (bytes := bytes) hup hl
    obtain ⟨hhub, -, hbit, hbulk⟩ := cellErr_leaves s.now c.link
    refine ⟨s.onNow (dataCellOp c.link good [l] bytes), exec_dataCell s c.link good [l] bytes, ?_⟩
    simp only [State.onNow, hop] at hddr ⊢
    refine ⟨Dev.bit_flag_of_bit _ _ _ _ hbit, Dev.bit_flag_self .., ?_, (Dev.flag_hub ..).trans hhub, hddr⟩
    rw [Dev.link_congr (Dev.flag_ser ..), hbulk]
  case stored =>
    have hop := (bulkTailOp_stands hup hgood hbulk hseq hlen hcrc hdst).trans (if_neg (by simp [hfree]))
    obtain ⟨hhub, heas, hddr, -⟩ := accepted_leaves s.now c
    refine ⟨s.onNow (bulkTailOp c crc), exec_bulkTail s c crc, ?_⟩
    simp only [State.onNow, hop]
    refine ⟨congrArg Link.bulk (Dev.link_setLink_self ..), fun n hn => ddrGet_ddrWrite_self _ _ _ _ hn, fun a ha => ?_, hhub, heas⟩
    rw [ddrGet_ddrWrite_other _ _ _ _ ha, Dev.setLink_ddr, hddr]
  case refused =>
    have hop := (bulkTailOp_stands hup hgood hbulk hseq hlen hcrc hdst).trans (if_pos hover)
    obtain ⟨hhub, heas, hddr, -⟩ := accepted_leaves s.now c
    refine ⟨s.onNow (bulkTailOp c crc), exec_bulkTail s c crc, ?_⟩
    simp only [State.onNow, hop]
    refine ⟨?_, (Dev.conflict_ddr _).trans hddr, (Dev.conflict_hub _).trans hhub, (Dev.conflict_eas _).trans heas⟩
    rw [Dev.link_congr (Dev.conflict_ser _), Dev.link_setLink_self]
  case again =>
    have hop := bulkTailOp_errs hup hgood hbulk hseq hcrc
    obtain ⟨hhub, heas, hddr, -, -⟩ := ackCells_leaves s.now c
    obtain ⟨hhub', heas', hbit, -⟩ := cellErr_leaves (s.now.ackCells c) c.link
    refine ⟨s.onNow (bulkTailOp c crc), exec_bulkTail s c crc, ?_⟩
    simp only [State.onNow, hop, Dev.link_setLink_self]
    refine ⟨trivial, trivial, trivial, ?_, ?_, hhub'.trans hhub, heas'.trans heas⟩
    · unfold Dev.bit at hbit ⊢
      rwa [Dev.rd_setLink, if_neg (by unfold unitKey; omega)]
    · exact (Dev.setLink_ddr ..).trans ((Dev.cellErr_ddr ..).trans hddr)

end Sys2Proof.Machine
end

section
/-! Notification frames: their forming, entries and sending (R499 to R505, R555). -/

namespace Sys2Proof.Machine

section
variable {d : Dev}

/-! ### What a flag does to the aggregator -/

theorem trace_keeps (d : Dev) (src data : Nat) : (d.trace src data).agg.queue = d.agg.queue ∧
    (d.trace src data).agg.formed = d.agg.formed ∧ (d.trace src data).agg.lastFrame = d.agg.lastFrame := by
  unfold Dev.trace
  split
  · split
    · split_ifs <;> exact ⟨rfl, rfl, rfl⟩
    · exact ⟨rfl, rfl, rfl⟩
  · exact ⟨rfl, rfl, rfl⟩

/-- A slot that is raised may join the queue; the frames stand. -/
theorem raise_keeps (d : Dev) (slot b : Nat) : (∀ x ∈ (d.raise slot b).agg.queue, x ∈ d.agg.queue ∨ x.slot = slot) ∧
    (d.raise slot b).agg.formed = d.agg.formed ∧ (d.raise slot b).agg.lastFrame = d.agg.lastFrame := by
  have hqueue : ∀ c : Bool, ∀ x ∈ (if c then d.agg.queue ++ [{ slot := slot, at_ := d.epoch }] else d.agg.queue),
      x ∈ d.agg.queue ∨ x.slot = slot := fun c x hx => by
    cases c with
    | false => exact .inl hx
    | true =>
      rcases List.mem_append.mp hx with h | h
      · exact .inl h
      · exact .inr (by rw [List.mem_singleton.mp h])
  unfold Dev.raise
  dsimp only
  generalize (d.bit (slotCtrlKey slot) 0 && decide (d.slotClass slot < 2) && !d.agg.queue.any fun q => q.slot == slot) = c
  split
  · refine ⟨fun x hx => hqueue c x ?_, (trace_keeps ..).2.1, (trace_keeps ..).2.2⟩
    rwa [(trace_keeps ..).1] at hx
  · exact ⟨hqueue c, rfl, rfl⟩

/-- A flag may put its own slot into the queue; the frames stand. -/
theorem flag_queue (d : Dev) (key b : Nat) : (∀ x ∈ (d.flag key b).agg.queue, x ∈ d.agg.queue ∨ slotOf key = some x.slot) ∧
    (d.flag key b).agg.formed = d.agg.formed ∧ (d.flag key b).agg.lastFrame = d.agg.lastFrame := by
  have hnote : (d.flag key b).agg = (d.setFlag key b 1).agg := Dev.noteFlag_agg ..
  rw [hnote]
  unfold Dev.setFlag
  cases hslot : slotOf key with
  | none => exact ⟨fun x hx => .inl hx, rfl, rfl⟩
  | some slot =>
    dsimp only
    generalize he : (if d.againDue key b = true then _ else _) = e
    have hagg : e.agg = d.agg := by
      rw [← he]
      split_ifs <;> simp
    clear he
    split
    · obtain ⟨hqueue, hformed, hlast⟩ := raise_keeps e slot b
      rw [hagg] at hqueue hformed hlast
      exact ⟨fun x hx => (hqueue x hx).imp id fun h => congrArg some h.symm, hformed, hlast⟩
    · rw [hagg]
      exact ⟨fun x hx => .inl hx, rfl, rfl⟩

/-! ### Forming -/

/-- The slots that a frame takes from the queue (R502). -/
def frameSlots (d : Dev) : List Nat :=
  ((d.agg.queue.mergeSort fun a b =>
    decide (d.slotClass a.slot * 4096 + a.slot ≤ d.slotClass b.slot * 4096 + b.slot)).take 64).map (·.slot)

/-- What stays in the queue. -/
def unframed (d : Dev) : List QEntry := d.agg.queue.filter fun e => !(frameSlots d).contains e.slot

/-- The frame. -/
def nextFrame (d : Dev) : NFrame :=
  { seq := (d.rd 0x740001 + 1) % 2 ^ 32
    epoch := d.epoch
    overflow := unframed d != []
    afterWake := d.agg.afterWake
    queued := (unframed d).length
    entries := (frameSlots d).map d.entryOf }

/-- The device with the frame formed. -/
def framed (d : Dev) : Dev :=
  { d.wr 0x740001 (nextFrame d).seq with agg := { d.agg with
      queue := unframed d
      acc := (frameSlots d).foldl (fun a s => tabErase s a) d.agg.acc
      lastFrame := some d.epoch
      afterWake := false
      formed := d.agg.formed ++ [nextFrame d] } }

theorem notificationFrameOp_due (hdue : d.frameDue = true) :
    notificationFrameOp d = if unframed d = [] then framed d else (framed d).flag 0x740004 0 := if_pos hdue

theorem notificationFrameOp_early (hdue : d.frameDue = false) : notificationFrameOp d = d := if_neg (by simp [hdue])

theorem frameSlots_length (d : Dev) : (frameSlots d).length = min 64 d.agg.queue.length := by
  unfold frameSlots
  rw [List.length_map, List.length_take, List.length_mergeSort]

theorem mem_frameSlots {s : Nat} (h : s ∈ frameSlots d) : ∃ x ∈ d.agg.queue, x.slot = s := by
  obtain ⟨x, hx, rfl⟩ := List.mem_map.mp h
  exact ⟨x, List.mem_mergeSort.mp (List.mem_of_mem_take hx), rfl⟩

theorem slot_unframed {x : QEntry} (h : x ∈ unframed d) : x.slot ∉ frameSlots d := by
  have hout := (List.mem_filter.mp h).2
  simpa using hout

/-- A frame that has formed, with FRAME_OVERFLOW or without it. -/
theorem frame_leaves (d : Dev) {e : Dev} (he : e = framed d ∨ unframed d ≠ [] ∧ e = (framed d).flag 0x740004 0) :
    e.agg.formed = d.agg.formed ++ [nextFrame d] ∧ e.rd 0x740001 = (nextFrame d).seq ∧
    (unframed d = [] → e.agg.queue = []) ∧
    (∀ x ∈ e.agg.queue, x ∈ unframed d ∨ slotOf 0x740004 = some x.slot) ∧
    e.agg.lastFrame = some d.epoch ∧ e.hub = d.hub := by
  have hrd : (framed d).rd 0x740001 = (nextFrame d).seq := Dev.rd_wr_self d _ _
  rcases he with rfl | ⟨hrest, rfl⟩
  · exact ⟨rfl, hrd, fun h => h, fun x hx => .inl hx, rfl, rfl⟩
  · obtain ⟨hqueue, hformed, hlast⟩ := flag_queue (framed d) 0x740004 0
    exact ⟨hformed, (Dev.rd_flag_other _ _ _ _ (by decide)).trans hrd, fun h => absurd h hrest, hqueue, hlast, Dev.flag_hub ..⟩

/-! ### Sending -/

theorem notificationSendOp_sends {f : NFrame} {l : List NFrame} (hformed : d.agg.formed = f :: l) (haddr : d.rd 0x180002 ≠ 0) :
    notificationSendOp d = { d with agg := { d.agg with
      formed := l
      sent := some f
      sentTag := Config.hmac (d.ident (d.rd 0x180004)).key
        (qopHeader 3 (d.rd 0x180004) f.bytes.length f.seq 0 0 d.state.code f.epoch ++ f.bytes) } } := by
  unfold notificationSendOp
  rw [hformed]
  exact if_neg haddr

theorem notificationSendOp_nowhere {f : NFrame} {l : List NFrame} (hformed : d.agg.formed = f :: l) (haddr : d.rd 0x180002 = 0) :
    notificationSendOp d = { d with agg := { d.agg with formed := l } } := by
  unfold notificationSendOp
  rw [hformed]
  exact if_pos haddr

end

section
variable (s : State)
theorem exec_notificationFrame : exec .notificationFrame s = .next (s.onNow notificationFrameOp) := rfl
theorem exec_notificationSend : exec .notificationSend s = .next (s.onNow notificationSendOp) := rfl
end

/-- Settles O52: a frame takes the slots of the first 64 entries, and every entry with one of these slots leaves the queue;
FRAME_OVERFLOW, which follows when entries stay, can put no slot but its own there. -/
theorem notificationFrames : Obligations.NotificationFrames := by
  unfold Obligations.NotificationFrames
  intro s
  refine ⟨fun hdue => ?forms, fun hdue => ?early, fun f l hformed => ?sends⟩
  case forms =>
    have hddr : (notificationFrameOp s.now).ddr = s.now.ddr := by simp
    have hop := notificationFrameOp_due hdue
    have hcases : notificationFrameOp s.now = framed s.now ∨
        unframed s.now ≠ [] ∧ notificationFrameOp s.now = (framed s.now).flag 0x740004 0 := by
      rw [hop]
      split_ifs with hrest
      · exact .inl rfl
      · exact .inr ⟨hrest, rfl⟩
    obtain ⟨hformed, hseq, hempty, hqueue, hlast, hhub⟩ := frame_leaves s.now hcases
    refine ⟨s.onNow notificationFrameOp, nextFrame s.now, exec_notificationFrame s, hformed, rfl, hseq, rfl, ?length,
      fun hnone => hempty (List.length_eq_zero_iff.mp hnone), fun e he hslot x hx hsame => ?left, fun e he => ?entries, hlast,
      hhub, hddr⟩
    case length => exact (List.length_map ..).trans (frameSlots_length _)
    case left =>
      obtain ⟨slot, hmem, rfl⟩ := List.mem_map.mp he
      rcases hqueue x hx with hin | hown
      · exact slot_unframed hin (by rw [hsame]; exact hmem)
      · exact hslot (by rw [hown, hsame])
    case entries =>
      obtain ⟨slot, hmem, rfl⟩ := List.mem_map.mp he
      exact ⟨mem_frameSlots hmem, rfl⟩
  case early => exact does_of_onNow (exec_notificationFrame s) (notificationFrameOp_early hdue)
  case sends =>
    refine ⟨s.onNow notificationSendOp, exec_notificationSend s, ?_⟩
    by_cases haddr : s.now.rd 0x180002 = 0
    · simp only [State.onNow, notificationSendOp_nowhere hformed haddr]
      exact ⟨trivial, fun h => absurd haddr h, fun _ => trivial, trivial, trivial⟩
    · simp only [State.onNow, notificationSendOp_sends hformed haddr]
      exact ⟨trivial, fun _ => ⟨trivial, trivial⟩, fun h => absurd h haddr, trivial, trivial⟩

end Sys2Proof.Machine
end

section
/-! Event lines, AND gates and lattice events (R479 to R482, R485 to R487, R493). -/

namespace Sys2Proof.Machine

section
variable {d e : Dev} {k t : Nat}

/-! ### What a firing starts leaves the lines as they are -/

/-- The lines, the causes, the hub and the objects AND_ARM and LAST_FIRE of every line are as they were. -/
structure LinesKept (d e : Dev) : Prop where
  ev : e.ev = d.ev
  hub : e.hub = d.hub
  rd : ∀ key, key % 256 = 4 ∨ key % 256 = 8 → e.rd key = d.rd key

theorem LinesKept.refl (d : Dev) : LinesKept d d := ⟨rfl, rfl, fun _ _ => rfl⟩

theorem LinesKept.trans {c : Dev} (h : LinesKept d e) (h' : LinesKept c d) : LinesKept c e :=
  ⟨h.ev.trans h'.ev, h.hub.trans h'.hub, fun key hkey => (h.rd key hkey).trans (h'.rd key hkey)⟩

theorem LinesKept.of_objs (hev : e.ev = d.ev) (hhub : e.hub = d.hub) (hobjs : e.objs = d.objs) : LinesKept d e :=
  ⟨hev, hhub, fun _ _ => Dev.rd_congr hobjs _⟩

theorem LinesKept.foldl {α : Type} (f : Dev → α → Dev) (hf : ∀ e a, LinesKept e (f e a)) (l : List α) (d : Dev) :
    LinesKept d (l.foldl f d) := by
  induction l generalizing d with
  | nil => exact .refl d
  | cons a l ih => exact (ih _).trans (hf d a)

theorem flag_linesKept (d : Dev) (key b : Nat) (hkey : key % 256 ≠ 4 ∧ key % 256 ≠ 8) : LinesKept d (d.flag key b) :=
  ⟨Dev.flag_ev .., Dev.flag_hub .., fun _ hother => Dev.rd_flag_other _ _ _ _ (by omega)⟩

theorem wr_linesKept (d : Dev) (key v : Nat) (hkey : key % 256 ≠ 4 ∧ key % 256 ≠ 8) : LinesKept d (d.wr key v) :=
  ⟨rfl, rfl, fun _ hother => Dev.rd_wr_other _ _ _ _ (by omega)⟩

theorem wakeCause_linesKept (hst : d.state ≠ .asleep) (line : Option Nat) : LinesKept d (d.wakeCause line) := by
  unfold Dev.wakeCause
  rw [if_neg hst]
  split
  · split
    · exact (flag_linesKept _ _ _ (by decide)).trans (wr_linesKept _ _ _ (by decide))
    · have hwr := fun v => wr_linesKept d 0x7C0006 v (by decide)
      exact ⟨rfl, rfl, (hwr _).rd⟩
  · exact .refl d

theorem hkTrigger_linesKept (d : Dev) (source : Nat) : LinesKept d (d.hkTrigger source) := by
  have hflag : ∀ (c : Cal) (b : Nat), LinesKept d (({ d with cal := c } : Dev).flag 0x6C0406 b) := fun c b =>
    (flag_linesKept _ _ _ (by decide)).trans (.of_objs rfl rfl rfl)
  unfold Dev.hkTrigger
  dsimp only
  split_ifs
  · exact .refl d
  · exact .refl d
  · exact hflag _ _
  · exact .of_objs rfl rfl rfl
  · exact .of_objs rfl rfl rfl
  · exact hflag _ _
  · exact .of_objs rfl rfl rfl

theorem exportEvent_linesKept (d : Dev) (k t : Nat) : LinesKept d (d.exportEvent k t) := by
  have hcell : ∀ (e : Dev) (l : Nat) (b : CellBody), LinesKept e (e.sendCell l b) := fun e l b => by
    refine ⟨Dev.sendCell_ev .., Dev.sendCell_hub .., fun key hkey => ?_⟩
    unfold Dev.sendCell
    split
    · rw [Dev.rd_setLink, if_neg (by unfold unitKey; omega)]
    · rfl
  have hspread : ∀ (e : Dev) (o l h : Nat) (p : Bool), LinesKept e (e.spreadEvent t o l p h none) := fun e o l h p =>
    LinesKept.foldl _ (fun e l => hcell e l _) _ e
  unfold Dev.exportEvent
  exact (hspread _ _ _ _ _).trans ((hspread _ _ _ _ _).trans (.of_objs rfl rfl rfl))

theorem consume_linesKept (hst : d.state ≠ .asleep) (k t : Nat) (x : Bool) : LinesKept d (d.consume_ k t x) := by
  unfold Dev.consume_
  extract_lets d1 d2 d3 d4
  have h1 : LinesKept d d1 := by
    unfold d1
    split
    · exact wakeCause_linesKept hst _
    · exact .refl d
  have h2 : LinesKept d d2 := by
    refine .trans ?_ h1
    unfold d2
    split
    · exact hkTrigger_linesKept _ _
    · exact .refl _
  have h3 : LinesKept d d3 := by
    refine .trans ?_ h2
    obtain ⟨hobjs, hhub, hev, -⟩ := trigCause_leaves (d2.wakeThreads k t) 5 (some k) t
    have hwake : ∀ e : Dev, (e.wakeThreads k t).objs = e.objs ∧ (e.wakeThreads k t).hub = e.hub ∧ (e.wakeThreads k t).ev = e.ev :=
      fun e => by
        unfold Dev.wakeThreads
        dsimp only
        split <;> exact ⟨rfl, rfl, rfl⟩
    obtain ⟨hobjs', hhub', hev'⟩ := hwake d2
    exact .of_objs (hev.trans hev') (hhub.trans hhub') (hobjs.trans hobjs')
  have h4 : LinesKept d d4 := by
    refine .trans (LinesKept.foldl _ (fun e c => ?_) _ _) h3
    split
    · obtain ⟨hobjs, hhub, hev, -⟩ := addCond_keeps e c 11 t
      exact .of_objs hev hhub hobjs
    · exact .refl e
  split
  · exact h2
  · split
    · exact (exportEvent_linesKept _ _ _).trans h4
    · exact h4

/-! ### A line fires -/

/-- The device with a firing of a line on one cause noted. -/
def firedAt (d : Dev) (k t hops : Nat) : Dev :=
  (({ d with ev := { d.ev with lines := tabSet {} d.ev.lines k { d.lineSt k with
      lastFire := some t
      prevFire := (d.lineSt k).lastFire
      count := 1 } } } : Dev).wr (unitKey 0x700008 k) t).trace 3 (k + 2 ^ 8 * hops)

/-- The deliveries of a firing to the lines that it feeds. -/
def delivered (d : Dev) (k t : Nat) (chain : List Nat) (hops : Nat) : Dev :=
  if 6 ≤ hops then (if d.fedBy k = [] then d else d.flagN (unitKey 0x700009 k) 1 (d.fedBy k).length)
  else { d with ev := { d.ev with causes := d.ev.causes ++ (d.fedBy k).map fun j =>
    { line := j
      tick := t + 1
      src := some k
      chain := chain
      hops := hops } } }

theorem fired_false (hfresh : (d.lineSt k).lastFire ≠ some t) : d.fired k t = false := by
  unfold Dev.fired
  rw [beq_eq_false_iff_ne.mpr hfresh, Bool.and_false]

theorem fire_once (hfresh : (d.lineSt k).lastFire ≠ some t) (hst : d.state ≠ .asleep) (chain : List Nat) (hops : Nat) (x : Bool) :
    d.fire k t 1 chain hops x = (delivered (firedAt d k t hops) k t chain hops).consume_ k t x := by
  unfold Dev.fire
  rw [if_neg (by rw [fired_false hfresh]; exact Bool.false_ne_true)]
  dsimp only
  simp only [if_neg (show ¬ 2 ≤ 1 by decide), if_neg hst]
  rfl

theorem lineSt_congr (h : e.ev = d.ev) (k : Nat) : e.lineSt k = d.lineSt k := by
  unfold Dev.lineSt
  rw [h]

theorem mem_tabSet_of_ne {α : Type} [DecidableEq α] {z v : α} {m : Tab α} {i : Nat} {p : Nat × α} (hp : p ∈ m) (hne : p.1 ≠ i) :
    p ∈ tabSet z m i v := by
  have herase : p ∈ tabErase i m := by
    induction m with
    | nil => exact hp
    | cons q m ih =>
      obtain ⟨j, w⟩ := q
      rcases List.mem_cons.mp hp with rfl | hp
      · rw [tabErase, if_neg hne]
        exact List.mem_cons_self
      · rw [tabErase]
        split
        · exact ih hp
        · exact List.mem_cons_of_mem _ (ih hp)
  have hinsert : p ∈ tabInsert i v m := by
    clear herase
    induction m with
    | nil => exact List.mem_cons_of_mem _ hp
    | cons q m ih =>
      obtain ⟨j, w⟩ := q
      rw [tabInsert]
      split_ifs with _ heq
      · exact List.mem_cons_of_mem _ hp
      · rcases List.mem_cons.mp hp with rfl | hp
        · exact absurd heq.symm hne
        · exact List.mem_cons_of_mem _ hp
      · rcases List.mem_cons.mp hp with rfl | hp
        · exact List.mem_cons_self
        · exact List.mem_cons_of_mem _ (ih hp)
  unfold tabSet
  split
  · exact herase
  · exact hinsert

/-- A write of another object than IN_MASK stops no feed. -/
theorem mem_fedBy_wr {key v j : Nat} (hkey : key % 256 ≠ 1) (hj : j ∈ d.fedBy k) : j ∈ (d.wr key v).fedBy k := by
  obtain ⟨p, hp, hfeeds⟩ := List.mem_filterMap.mp hj
  refine List.mem_filterMap.mpr ⟨p, mem_tabSet_of_ne hp fun h => ?_, hfeeds⟩
  rw [if_neg (by omega)] at hfeeds
  cases hfeeds

theorem fedBy_congr (h : e.objs = d.objs) : e.fedBy k = d.fedBy k := by
  unfold Dev.fedBy
  rw [h]

theorem mem_fedBy_flag {key b j : Nat} (hkey : key % 256 ≠ 1) (hj : j ∈ d.fedBy k) : j ∈ (d.flag key b).fedBy k := by
  rw [fedBy_congr (d.flag_objs key b)]
  exact mem_fedBy_wr hkey hj

theorem firedAt_leaves (d : Dev) (k t hops : Nat) : ((firedAt d k t hops).lineSt k).lastFire = some t ∧
    (firedAt d k t hops).rd (unitKey 0x700008 k) = t ∧
    (firedAt d k t hops).rd (unitKey 0x700004 k) = d.rd (unitKey 0x700004 k) ∧
    (∀ j ∈ d.fedBy k, j ∈ (firedAt d k t hops).fedBy k) ∧ (firedAt d k t hops).hub = d.hub ∧
    (firedAt d k t hops).state = d.state := by
  unfold firedAt
  generalize hl : (tabSet ({} : LineSt) d.ev.lines k _) = lines
  have hline : tabGet {} lines k = { d.lineSt k with
      lastFire := some t
      prevFire := (d.lineSt k).lastFire
      count := 1 } := by rw [← hl]; exact tabGet_set_self ..
  refine ⟨?line, ?fire, ?arm, fun j hj => ?feeds, Dev.trace_hub .., Dev.trace_state ..⟩
  case line =>
    rw [lineSt_congr (Dev.trace_ev ..)]
    exact congrArg LineSt.lastFire hline
  case fire =>
    rw [Dev.rd_congr (Dev.trace_objs ..)]
    exact Dev.rd_wr_self ..
  case arm =>
    rw [Dev.rd_congr (Dev.trace_objs ..)]
    exact Dev.rd_wr_other _ _ _ _ (by unfold unitKey; omega)
  case feeds =>
    rw [fedBy_congr (Dev.trace_objs ..)]
    exact mem_fedBy_wr (by unfold unitKey; omega) hj

theorem delivered_leaves (d : Dev) (k t : Nat) (chain : List Nat) (hops : Nat) :
    (delivered d k t chain hops).lineSt k = d.lineSt k ∧
    (∀ key, key % 256 = 4 ∨ key % 256 = 8 → (delivered d k t chain hops).rd key = d.rd key) ∧
    (delivered d k t chain hops).hub = d.hub ∧ (delivered d k t chain hops).state = d.state := by
  unfold delivered
  split_ifs
  · exact ⟨rfl, fun _ _ => rfl, rfl, rfl⟩
  · exact ⟨lineSt_congr (Dev.flagN_ev ..) k, fun key hkey => Dev.rd_flagN_other _ _ _ _ _ (by unfold unitKey; omega),
      Dev.flagN_hub .., Dev.flagN_state ..⟩
  · exact ⟨rfl, fun _ _ => rfl, rfl, rfl⟩

/-- What a firing on one cause leaves at its line. -/
theorem fire_leaves (hfresh : (d.lineSt k).lastFire ≠ some t) (hst : d.state ≠ .asleep) (chain : List Nat) (hops : Nat) (x : Bool) :
    ((d.fire k t 1 chain hops x).lineSt k).lastFire = some t ∧ (d.fire k t 1 chain hops x).rd (unitKey 0x700008 k) = t ∧
    (d.fire k t 1 chain hops x).rd (unitKey 0x700004 k) = d.rd (unitKey 0x700004 k) ∧
    (d.fire k t 1 chain hops x).hub = d.hub := by
  obtain ⟨hline, hfire, harm, -, hhub, hstate⟩ := firedAt_leaves d k t hops
  obtain ⟨hline', hrd', hhub', hstate'⟩ := delivered_leaves (firedAt d k t hops) k t chain hops
  have hkept := consume_linesKept (by rw [hstate', hstate]; exact hst : (delivered (firedAt d k t hops) k t chain hops).state ≠ .asleep) k t x
  rw [fire_once hfresh hst, lineSt_congr hkept.ev, hkept.rd _ (by unfold unitKey; omega), hkept.rd _ (by unfold unitKey; omega),
    hkept.hub, hline', hrd' _ (by unfold unitKey; omega), hrd' _ (by unfold unitKey; omega), hhub']
  exact ⟨hline, hfire, harm, hhub⟩

/-- A firing without a hop behind it is delivered to every line that it feeds. -/
theorem fire_delivers (hfresh : (d.lineSt k).lastFire ≠ some t) (hst : d.state ≠ .asleep) (chain : List Nat) (x : Bool) {j : Nat}
    (hj : j ∈ d.fedBy k) : ∃ c ∈ (d.fire k t 1 chain 0 x).ev.causes,
      c.line = j ∧ c.tick = t + 1 ∧ c.src = some k ∧ c.hops = 0 ∧ c.chain = chain := by
  obtain ⟨-, -, -, hfeeds, -, hstate⟩ := firedAt_leaves d k t 0
  obtain ⟨-, -, -, hstate'⟩ := delivered_leaves (firedAt d k t 0) k t chain 0
  have hkept := consume_linesKept (by rw [hstate', hstate]; exact hst : (delivered (firedAt d k t 0) k t chain 0).state ≠ .asleep) k t x
  rw [fire_once hfresh hst, hkept.ev]
  exact ⟨_, List.mem_append_right _ (List.mem_map_of_mem (hfeeds j hj)), rfl, rfl, rfl, rfl, rfl⟩

/-! ### The causes of a tick -/

/-- The device with the cause of a line taken. -/
def causeTaken (d : Dev) : Dev := { d with ev := { d.ev with causes := [] } }

theorem eventLineFireOp_one {c : Cause} (hline : c.line = k) (hcauses : d.ev.causes = [c]) (hdue : c.tick ≤ d.epoch) :
    eventLineFireOp k d =
      if d.rd (unitKey 0x700002 k) = 1 then
        (causeTaken d).fireAnd k c.tick ([c].filter (·.src.isNone)) ([c].filter (·.src.isSome))
      else (causeTaken d).fireOr k c.tick ([c].filter (·.src.isNone)) ([c].filter (·.src.isSome)) := by
  have hmine : (d.ev.causes.filter fun c => c.line == k && (d.state == .asleep || decide (c.tick ≤ d.epoch))) = [c] := by
    rw [hcauses]
    simp [hline, hdue]
  have hrest : (d.ev.causes.filter fun x => !(x.line == k && x.tick == c.tick)) = [] := by
    rw [hcauses]
    simp [hline]
  unfold eventLineFireOp
  dsimp only
  rw [hmine]
  dsimp only [List.foldl]
  rw [hrest, show [c].filter (fun x => x.tick == c.tick) = [c] from by simp]
  rfl

theorem suppress_nil (d : Dev) (k t : Nat) : d.suppress k t [] = (d, []) := rfl

theorem suppress_other {c : Cause} (hchain : c.chain.contains k = false) : d.suppress k t [c] = (d, [c]) := by
  have hnot : k ∉ c.chain := by simpa using hchain
  simp [Dev.suppress, hnot]

theorem fireOr_natural {c : Cause} (d : Dev) (k t : Nat) : d.fireOr k t [c] [] = d.fire k t 1 [k] 0 (!c.lattice) := by
  unfold Dev.fireOr
  rw [suppress_nil]
  dsimp only
  rw [if_neg (by simp), if_pos rfl]
  simp

/-- The record of a gate with no bit armed. -/
def emptiedLine (st : LineSt) : LineSt :=
  { st with
    armChain := []
    armHops := 0
    armTicks := [] }

/-- The device whose gate of a line has lost its armed bits. -/
def armExpired (d : Dev) (k : Nat) : Dev :=
  ({ d.wr (unitKey 0x700004 k) 0 with ev := { d.ev with
      lines := tabSet {} d.ev.lines k (emptiedLine (d.lineSt k)) } } : Dev).flag (unitKey 0x700009 k) 3

theorem expireArm_cases (d : Dev) (k t : Nat) : d.expireArm k t = armExpired d k ∨ d.expireArm k t = d := by
  unfold Dev.expireArm
  dsimp only
  split_ifs
  · exact .inl rfl
  · exact .inr rfl

theorem armExpired_line (d : Dev) (k : Nat) : (armExpired d k).lineSt k = emptiedLine (d.lineSt k) := by
  unfold armExpired
  rw [lineSt_congr (Dev.flag_ev ..)]
  exact tabGet_set_self ..

/-- What the expiry of AND_ARM leaves. -/
theorem expireArm_leaves (d : Dev) (k t : Nat) : ((d.expireArm k t).lineSt k).lastFire = (d.lineSt k).lastFire ∧
    (∀ j ∈ d.fedBy k, j ∈ (d.expireArm k t).fedBy k) ∧ (d.expireArm k t).hub = d.hub ∧ (d.expireArm k t).state = d.state := by
  rcases expireArm_cases d k t with h | h
  · rw [h, armExpired_line]
    refine ⟨rfl, fun j hj => ?_, Dev.flag_hub .., Dev.flag_state ..⟩
    exact mem_fedBy_flag (by unfold unitKey; omega) (mem_fedBy_wr (v := 0) (by unfold unitKey; omega) hj)
  · rw [h]
    exact ⟨rfl, fun _ hj => hj, rfl, rfl⟩

theorem expireArm_never (hwin : d.rd (unitKey 0x700003 k) = 0) : d.expireArm k t = d := by
  unfold Dev.expireArm
  exact if_neg fun h => h.1 hwin

/-- The device whose gate of a line holds some armed bits. -/
def armedWith (d : Dev) (k arm : Nat) (st : LineSt) : Dev :=
  { d.wr (unitKey 0x700004 k) arm with ev := { d.ev with lines := tabSet {} d.ev.lines k st } }

theorem armedWith_leaves (d : Dev) (k arm : Nat) (st : LineSt) : (armedWith d k arm st).lineSt k = st ∧
    (armedWith d k arm st).rd (unitKey 0x700004 k) = arm ∧ (∀ j ∈ d.fedBy k, j ∈ (armedWith d k arm st).fedBy k) ∧
    (armedWith d k arm st).hub = d.hub ∧ (armedWith d k arm st).state = d.state :=
  ⟨tabGet_set_self .., Dev.rd_wr_self d _ _, fun _ hj => mem_fedBy_wr (by unfold unitKey; omega) hj, rfl, rfl⟩

/-- The record of a gate that deliveries arm. -/
def armedLine (st : LineSt) (cs : List Cause) (t : Nat) : LineSt :=
  { st with
    armChain := (st.armChain ++ unionOf cs).dedup
    armHops := max st.armHops (mostHops cs)
    armTicks := st.armTicks ++ cs.map fun c => (c.src.getD 0, t) }

theorem fireAnd_natural {c : Cause} (d : Dev) (k t : Nat) : ∃ arm st, st.lastFire = ((d.expireArm k t).lineSt k).lastFire ∧
    d.fireAnd k t [c] [] = (armedWith (d.expireArm k t) k arm st).fire k t 1 [k] 0 (!c.lattice) := by
  unfold Dev.fireAnd
  simp only [suppress_nil, List.filter_nil, ne_eq, not_true_eq_false, false_and, if_false, if_neg (List.cons_ne_nil c []),
    List.length_singleton, List.length_nil, Nat.add_zero, List.any_cons, List.any_nil, Bool.or_false]
  exact ⟨(d.expireArm k t).rd (unitKey 0x700004 k), armedLine ((d.expireArm k t).lineSt k) [] t, rfl, rfl⟩

theorem fireAnd_arms {c : Cause} {m : Nat} (hwin : d.rd (unitKey 0x700003 k) = 0) (hsrc : c.src = some m)
    (hchain : c.chain.contains k = false) (hclear : (d.rd (unitKey 0x700004 k)).testBit m = false) :
    let arm := Nat.lor (d.rd (unitKey 0x700004 k)) (2 ^ m)
    ∃ st chain hops, st.lastFire = (d.lineSt k).lastFire ∧
    d.fireAnd k t [] [c] = if Nat.land arm (d.rd (unitKey 0x700001 k)) = d.rd (unitKey 0x700001 k)
      then (armedWith d k 0 st).fire k t 1 chain hops true else armedWith d k arm st := by
  intro arm
  have hfresh : [c].filter (fun c => !(d.rd (unitKey 0x700004 k)).testBit (c.src.getD 0)) = [c] := by simp [hsrc, hclear]
  have harm : [c].foldl (fun m c => Nat.lor m (2 ^ c.src.getD 0)) (d.rd (unitKey 0x700004 k)) = arm := by simp [hsrc, arm]
  unfold Dev.fireAnd
  simp only [expireArm_never hwin, suppress_other hchain, hfresh, harm, ne_eq, List.cons_ne_nil, not_false_eq_true, true_and,
    List.length_singleton, List.length_nil, Nat.zero_add, if_true]
  by_cases hfull : Nat.land arm (d.rd (unitKey 0x700001 k)) = d.rd (unitKey 0x700001 k)
  · simp only [if_pos hfull]
    exact ⟨emptiedLine (d.lineSt k), _, _, rfl, rfl⟩
  · simp only [if_neg hfull]
    exact ⟨armedLine (d.lineSt k) [c] t, [], 0, rfl, rfl⟩

/-! ### Lattice events -/

/-- A cell that stands and is next in order leaves what a lattice event reads. -/
theorem rxCell_stood {h : CellHdr} (hstands : (d.rxCell h).2 = true) : d.rxCell h = (accepted d h, true) := by
  have hup : d.linkUp h.link = true := by
    by_contra hno
    unfold Dev.rxCell at hstands
    rw [if_neg hno] at hstands
    cases hstands
  have hexpect : ∀ e : Dev, e = d.ackCells h → (e.link h.link).rxExpect = (d.link h.link).rxExpect := fun e he => by
    obtain ⟨-, -, -, hexpect, -⟩ := ackCells_leaves d h
    rw [he, hexpect]
  unfold Dev.rxCell at hstands
  rw [if_pos hup] at hstands
  dsimp only at hstands
  by_cases hgood : h.good = true
  · by_cases hseq : h.cseq = (d.link h.link).rxExpect
    · exact rxCell_stands hup hgood hseq
    · rw [if_pos hgood, hexpect _ rfl, beq_eq_false_iff_ne.mpr hseq, Bool.and_false, if_neg Bool.false_ne_true] at hstands
      split at hstands <;> cases hstands
  · rw [Bool.eq_false_iff.mpr hgood, Bool.false_and, if_neg Bool.false_ne_true, if_neg Bool.false_ne_true] at hstands
    split at hstands <;> cases hstands

/-- The device with an event's copy seen and sent on. -/
def eventSeen (d : Dev) (h : CellHdr) (fired origin line hops : Nat) (path : Bool) : Dev :=
  ({ d with lat := { d.lat with evSeen := tabSet 0 d.lat.evSeen (evIndex origin line path) (fired + 1) } } : Dev).spreadEvent fired
    origin line path (hops + 1) (some h.link)

/-- A cell that stands leaves the lines, the hub, what the lattice has seen and the objects that a lattice event reads. -/
theorem accepted_keeps (d : Dev) (h : CellHdr) : (accepted d h).ev = d.ev ∧ (accepted d h).hub = d.hub ∧
    (accepted d h).lat = d.lat ∧ (accepted d h).state = d.state ∧ (accepted d h).epoch = d.epoch ∧
    ∀ key, key % 256 ≠ 9 → (accepted d h).rd key = d.rd key := by
  have hset : ∀ (e : Dev) (l : Link) (key : Nat), key % 256 ≠ 9 → (e.setLink h.link l).rd key = e.rd key := fun e l key hkey => by
    rw [Dev.rd_setLink, if_neg (by unfold unitKey; omega)]
  have hack : (d.ackCells h).ev = d.ev ∧ (d.ackCells h).hub = d.hub ∧ (d.ackCells h).lat = d.lat ∧ (d.ackCells h).state = d.state ∧
      (d.ackCells h).epoch = d.epoch ∧ ∀ key, key % 256 ≠ 9 → (d.ackCells h).rd key = d.rd key := by
    unfold Dev.ackCells
    split
    · dsimp only
      split
      · exact ⟨rfl, rfl, rfl, rfl, rfl, fun _ _ => rfl⟩
      · exact ⟨rfl, rfl, rfl, rfl, rfl, hset _ _⟩
    · exact ⟨rfl, rfl, rfl, rfl, rfl, fun _ _ => rfl⟩
  obtain ⟨hev, hhub, hlat, hst, hep, hrd⟩ := hack
  exact ⟨hev, hhub, hlat, hst, hep, fun key hkey => (hset _ _ key hkey).trans (hrd key hkey)⟩

/-- Sending a cell on leaves the objects but the counts of held cells. -/
theorem spreadEvent_leaves (d : Dev) (f o l h : Nat) (p : Bool) (n : Option Nat) : (d.spreadEvent f o l p h n).ev = d.ev ∧
    (d.spreadEvent f o l p h n).hub = d.hub ∧ (d.spreadEvent f o l p h n).lat = d.lat ∧
    (d.spreadEvent f o l p h n).state = d.state ∧ (d.spreadEvent f o l p h n).epoch = d.epoch ∧
    ∀ key, key % 256 ≠ 9 → (d.spreadEvent f o l p h n).rd key = d.rd key := by
  unfold Dev.spreadEvent
  refine List.foldlRecOn (motive := fun e : Dev => e.ev = d.ev ∧ e.hub = d.hub ∧ e.lat = d.lat ∧ e.state = d.state ∧
    e.epoch = d.epoch ∧ ∀ key, key % 256 ≠ 9 → e.rd key = d.rd key) _ _ ⟨rfl, rfl, rfl, rfl, rfl, fun _ _ => rfl⟩ fun e he k _ => ?_
  obtain ⟨hev, hhub, hlat, hst, hep, hrd⟩ := he
  refine ⟨(Dev.sendCell_ev ..).trans hev, (Dev.sendCell_hub ..).trans hhub, (Dev.sendCell_lat ..).trans hlat,
    (Dev.sendCell_state ..).trans hst, (Dev.sendCell_epoch ..).trans hep, fun key hkey => ?_⟩
  rw [← hrd key hkey]
  unfold Dev.sendCell
  split
  · rw [Dev.rd_setLink, if_neg (by unfold unitKey; omega)]
  · rfl

theorem eventSeen_leaves (d : Dev) (h : CellHdr) (fired origin line hops : Nat) (path : Bool) :
    (eventSeen d h fired origin line hops path).lat.evSeen = tabSet 0 d.lat.evSeen (evIndex origin line path) (fired + 1) ∧
    (eventSeen d h fired origin line hops path).ev = d.ev ∧ (eventSeen d h fired origin line hops path).hub = d.hub := by
  unfold eventSeen
  generalize hl : ({ d.lat with evSeen := _ } : Lat) = l
  obtain ⟨hev, hhub, hlat, -⟩ := spreadEvent_leaves ({ d with lat := l } : Dev) fired origin line (hops + 1) path (some h.link)
  exact ⟨by rw [hlat, ← hl], hev, hhub⟩

theorem latticeEventOp_first {h : CellHdr} {fired origin line hops : Nat} {path : Bool} (hst : d.state ≠ .asleep)
    (hstands : (d.rxCell h).2 = true) (horigin : origin ≠ d.chip) (hl : line < 8)
    (hhere : tabGet 0 d.lat.evSeen (evIndex origin line path) ≤ fired)
    (hother : tabGet 0 d.lat.evSeen (evIndex origin line (!path)) ≤ fired) (hen : d.rdB (objKey (0x70F8 + line) 5) = true) :
    latticeEventOp h fired origin line path hops (d.rd 0x201002) d =
      { eventSeen (accepted d h) h fired origin line hops path with
        ev := { (eventSeen (accepted d h) h fired origin line hops path).ev with
          causes := (eventSeen (accepted d h) h fired origin line hops path).ev.causes ++
            [{ line := 0xF8 + line
               tick := d.epoch
               lattice := true }] } } := by
  obtain ⟨-, -, hlat, hst', hep, hrd⟩ := accepted_keeps d h
  have hguard : ¬ ((!true) = true ∨ d.rd 0x201002 ≠ (accepted d h).rd 0x201002 ∨ origin = (accepted d h).chip ∨ 8 ≤ line) := by
    rw [hrd 0x201002 (by decide), show (accepted d h).chip = d.chip from hrd 0x201001 (by decide)]
    simp [horigin, hl]
  have hhere' : ¬ fired < tabGet 0 (accepted d h).lat.evSeen (evIndex origin line path) := by rw [hlat]; omega
  have hother' : ¬ fired < tabGet 0 (accepted d h).lat.evSeen (evIndex origin line (!path)) := by rw [hlat]; omega
  have hawake : ((eventSeen (accepted d h) h fired origin line hops path).rdB (objKey (0x70F8 + line) 5) &&
      (eventSeen (accepted d h) h fired origin line hops path).state != .asleep) = true := by
    obtain ⟨-, -, -, hstate, -, hrd'⟩ := spreadEvent_leaves ({ accepted d h with lat := { (accepted d h).lat with
      evSeen := tabSet 0 (accepted d h).lat.evSeen (evIndex origin line path) (fired + 1) } } : Dev) fired origin line (hops + 1)
      path (some h.link)
    have hkey : objKey (0x70F8 + line) 5 % 256 ≠ 9 := by unfold objKey; omega
    have hst2 : (eventSeen (accepted d h) h fired origin line hops path).state = d.state := hstate.trans hst'
    unfold Dev.rdB at hen ⊢
    rw [show (eventSeen (accepted d h) h fired origin line hops path).rd _ = d.rd _ from (hrd' _ hkey).trans (hrd _ hkey), hen, hst2,
      bne_iff_ne.mpr hst]
    rfl
  have hep' : (eventSeen (accepted d h) h fired origin line hops path).epoch = d.epoch := by
    obtain ⟨-, -, -, -, hepoch, -⟩ := spreadEvent_leaves ({ accepted d h with lat := { (accepted d h).lat with
      evSeen := tabSet 0 (accepted d h).lat.evSeen (evIndex origin line path) (fired + 1) } } : Dev) fired origin line (hops + 1)
      path (some h.link)
    exact hepoch.trans hep
  rw [← hep']
  unfold latticeEventOp
  rw [rxCell_stood hstands]
  dsimp only
  rw [if_neg hguard, if_neg hhere', if_neg hother']
  exact if_pos hawake

end

section
variable (s : State)
theorem exec_eventLineFire (k : Nat) : exec (.eventLineFire k) s = .next (s.onNow (eventLineFireOp k)) := rfl
theorem exec_andExpired (k : Nat) : exec (.andExpired k) s = .next (s.onNow (andExpiredOp k)) := rfl
theorem exec_latticeEvent (c : CellHdr) (f o l : Nat) (p : Bool) (h i : Nat) :
    exec (.latticeEvent c f o l p h i) s = .next (s.onNow (latticeEventOp c f o l p h i)) := rfl
end

/-- Settles O51: a firing is noted before what it starts, which leaves the lines, their causes and AND_ARM alone; so each clause
is what the one cause of the tick makes of its line, in OR mode or at an AND gate. -/
theorem eventLines : Obligations.EventLines := by
  unfold Obligations.EventLines
  intro s k c hline hst
  refine ⟨fun hcauses hdue hfresh => ⟨fun hsrc => ?natural, fun m hand hsrc hchain hwin hclear => ⟨fun hfull => ?full, fun hpart => ?part⟩⟩,
    fun m at_ hticks hlast hwin hdue => ?expires, fun h fired origin line hops path hstands horigin hl hhere hother hen => ?lattice⟩
  case natural =>
    have hddr : (eventLineFireOp k s.now).ddr = s.now.ddr := by simp
    have hnat : [c].filter (·.src.isNone) = [c] := by simp [hsrc]
    have hdel : [c].filter (·.src.isSome) = [] := by simp [hsrc]
    have hop := eventLineFireOp_one hline hcauses hdue
    rw [hnat, hdel] at hop
    have hfire : ∃ e : Dev, eventLineFireOp k s.now = e.fire k c.tick 1 [k] 0 (!c.lattice) ∧
        (e.lineSt k).lastFire = (s.now.lineSt k).lastFire ∧ e.state = s.now.state ∧ e.hub = s.now.hub ∧
        ∀ j ∈ s.now.fedBy k, j ∈ e.fedBy k := by
      by_cases hand : s.now.rd (unitKey 0x700002 k) = 1
      · rw [if_pos hand] at hop
        obtain ⟨arm, st, hlast, hgate⟩ := fireAnd_natural (c := c) (causeTaken s.now) k c.tick
        obtain ⟨hlast', hfeeds', hhub', hst'⟩ := expireArm_leaves (causeTaken s.now) k c.tick
        obtain ⟨hst2, -, hfeeds, hhub, hstate⟩ := armedWith_leaves ((causeTaken s.now).expireArm k c.tick) k arm st
        exact ⟨_, hop.trans hgate, by rw [hst2, hlast, hlast']; rfl, hstate.trans hst', hhub.trans hhub',
          fun j hj => hfeeds j (hfeeds' j hj)⟩
      · rw [if_neg hand, fireOr_natural] at hop
        exact ⟨_, hop, rfl, rfl, rfl, fun _ hj => hj⟩
    obtain ⟨e, hop, hlast, hstate, hhub, hfeeds⟩ := hfire
    have hfresh' : (e.lineSt k).lastFire ≠ some c.tick := by rwa [hlast]
    have hst' : e.state ≠ .asleep := by rwa [hstate]
    obtain ⟨hfired, hrd, -, hhub'⟩ := fire_leaves hfresh' hst' [k] 0 (!c.lattice)
    refine ⟨s.onNow (eventLineFireOp k), exec_eventLineFire s k, ?_⟩
    simp only [State.onNow, hop] at hddr ⊢
    exact ⟨hfired, hrd, fun j hj => fire_delivers hfresh' hst' [k] _ (hfeeds j hj), hhub'.trans hhub, hddr⟩
  case full =>
    have hddr : (eventLineFireOp k s.now).ddr = s.now.ddr := by simp
    have hop := (eventLineFireOp_one hline hcauses hdue).trans (if_pos hand)
    rw [show [c].filter (·.src.isNone) = [] from by simp [hsrc], show [c].filter (·.src.isSome) = [c] from by simp [hsrc]] at hop
    obtain ⟨st, chain, hops, hlast, hgate⟩ := fireAnd_arms (d := causeTaken s.now) (t := c.tick) hwin hsrc hchain hclear
    rw [hgate] at hop
    replace hop := hop.trans (if_pos hfull)
    obtain ⟨hline', harm, -, hhub, -⟩ := armedWith_leaves (causeTaken s.now) k 0 st
    have hfresh' : ((armedWith (causeTaken s.now) k 0 st).lineSt k).lastFire ≠ some c.tick := by rw [hline', hlast]; exact hfresh
    obtain ⟨hfired, -, harm', hhub'⟩ := fire_leaves hfresh' hst chain hops true
    refine ⟨s.onNow (eventLineFireOp k), exec_eventLineFire s k, ?_⟩
    simp only [State.onNow, hop] at hddr ⊢
    exact ⟨hfired, harm'.trans harm, hhub'.trans hhub, hddr⟩
  case part =>
    have hddr : (eventLineFireOp k s.now).ddr = s.now.ddr := by simp
    have hop := (eventLineFireOp_one hline hcauses hdue).trans (if_pos hand)
    rw [show [c].filter (·.src.isNone) = [] from by simp [hsrc], show [c].filter (·.src.isSome) = [c] from by simp [hsrc]] at hop
    obtain ⟨st, chain, hops, hlast, hgate⟩ := fireAnd_arms (d := causeTaken s.now) (t := c.tick) hwin hsrc hchain hclear
    rw [hgate] at hop
    replace hop := hop.trans (if_neg hpart)
    obtain ⟨hline', harm, -, hhub, -⟩ := armedWith_leaves (causeTaken s.now) k
      (Nat.lor (s.now.rd (unitKey 0x700004 k)) (2 ^ m)) st
    refine ⟨s.onNow (eventLineFireOp k), exec_eventLineFire s k, ?_⟩
    simp only [State.onNow, hop] at hddr ⊢
    exact ⟨(congrArg LineSt.lastFire hline').trans hlast, harm, rfl, hhub, hddr⟩
  case expires =>
    have hddr : (andExpiredOp k s.now).ddr = s.now.ddr := by simp
    have hop : andExpiredOp k s.now = armExpired s.now k := by
      unfold andExpiredOp Dev.expireArm
      dsimp only
      refine if_pos ⟨hwin, ?_⟩
      rw [hticks]
      cases hf : (s.now.lineSt k).lastFire with
      | none => simp [hdue]
      | some f => simp [hdue, hlast f hf]
    refine ⟨s.onNow (andExpiredOp k), exec_andExpired s k, ?_⟩
    simp only [State.onNow, hop, armExpired_line] at hddr ⊢
    refine ⟨?_, Dev.bit_flag_self .., rfl, rfl, Dev.flag_hub .., hddr⟩
    exact (Dev.rd_flag_other _ _ _ _ (by unfold unitKey; omega)).trans (Dev.rd_wr_self s.now _ _)
  case lattice =>
    have hddr : (latticeEventOp h fired origin line path hops (s.now.rd 0x201002) s.now).ddr = s.now.ddr := by simp
    have hop := latticeEventOp_first (hops := hops) hst hstands horigin hl hhere hother hen
    obtain ⟨hlat, hev, hhub⟩ := eventSeen_leaves (accepted s.now h) h fired origin line hops path
    refine ⟨s.onNow (latticeEventOp h fired origin line path hops (s.now.rd 0x201002)),
      exec_latticeEvent s h fired origin line path hops _, ?_⟩
    simp only [State.onNow, hop] at hddr ⊢
    obtain ⟨hev', hhub', -⟩ := accepted_keeps s.now h
    refine ⟨?seen, ?causes, hhub.trans hhub', hddr⟩
    case seen =>
      rw [hlat]
      exact tabGet_set_self ..
    case causes => rw [hev, hev']

end Sys2Proof.Machine
end

section
/-! The fabric clock, the reference, SYNC_IN and SYNC_OUT, 1PPS and PTP (R42 to R44, R54 to R57, R79, R89 to R91). -/

namespace Sys2Proof.Machine

section
variable {d e : Dev}

/-! ### Bits of status objects -/

theorem rd_wrBit_set (d : Dev) (key n : Nat) : (d.wrBit key n true).rd key = Nat.lor (d.rd key) (2 ^ n) := Dev.rd_wr_self ..

theorem bit_wrBit_set_other (d : Dev) (key : Nat) {n m : Nat} (h : m ≠ n) : (d.wrBit key n true).bit key m = d.bit key m := by
  unfold Dev.bit
  rw [rd_wrBit_set]
  exact (Nat.testBit_or ..).trans (by rw [Nat.testBit_two_pow_of_ne h.symm, Bool.or_false])

theorem bit_wrBit_set_of_bit (d : Dev) (key n : Nat) {m : Nat} (h : d.bit key m = true) : (d.wrBit key n true).bit key m = true := by
  unfold Dev.bit at h ⊢
  rw [rd_wrBit_set]
  exact (Nat.testBit_or ..).trans (by rw [h, Bool.true_or])

theorem rd_wrBit_cleared (d : Dev) (key n : Nat) :
    (d.wrBit key n false).rd key = if (d.rd key).testBit n then d.rd key - 2 ^ n else d.rd key := Dev.rd_wr_self ..

theorem bit_wrBit_cleared (d : Dev) (key : Nat) {n : Nat} (hn : n < 2) : (d.wrBit key n false).bit key n = false := by
  unfold Dev.bit
  rw [rd_wrBit_cleared]
  split
  · next hset => exact testBit_sub_self hn hset
  · next hclear => exact Bool.eq_false_iff.mpr hclear

theorem lor_one_div (x : Nat) : Nat.lor x (2 ^ 0) / 2 ^ 16 = x / 2 ^ 16 := by
  have h := Nat.shiftRight_or_distrib (a := x) (b := 1) (i := 16)
  rw [Nat.shiftRight_eq_div_pow, Nat.shiftRight_eq_div_pow, Nat.shiftRight_eq_div_pow] at h
  exact h.trans (Nat.or_zero _)

/-! ### The fabric PLL and the reference -/

theorem setState_state (d : Dev) (st : DState) (cause : Nat) : (d.setState st cause).state = st := by
  unfold Dev.setState
  split
  · next h => exact h
  · exact (Dev.produce_state ..).trans (Dev.trace_state ..)

theorem rd_setState (d : Dev) (st : DState) (cause : Nat) {key : Nat} (hkey : key ≠ 0x100102 ∧ key ≠ 0x100103 ∧ key ≠ 0x100104) :
    (d.setState st cause).rd key = d.rd key := by
  obtain ⟨h2, h3, h4⟩ := hkey
  unfold Dev.setState
  split
  · rfl
  · dsimp only
    rw [Dev.rd_congr (Dev.produce_objs ..), Dev.rd_congr (Dev.trace_objs ..)]
    exact Dev.rd_wrs_other d _ _ (by simp [h2, h3, h4])

theorem bbWrite_state (d : Dev) (btype ukind uidx cause job shot : Nat) (payload : List Byte) :
    (d.bbWrite btype ukind uidx cause job shot payload).state = d.state := by
  have hnote : ∀ e : Dev, ∀ n, (e.noteStamp n).state = e.state := fun e n => by
    unfold Dev.noteStamp
    split <;> simp
  unfold Dev.bbWrite
  dsimp only
  rw [Dev.trace_state, hnote]
  split_ifs <;> simp [Dev.bbObjects]

/-- FAULTED is entered from PRIMING, with its record. -/
theorem enterFaulted_leaves (hst : d.state = .priming) : d.enterFaulted.state = .faulted ∧
    d.enterFaulted.rd 0x200003 = d.rd 0x200003 ∧ d.enterFaulted.rd 0x200004 = d.rd 0x200004 := by
  unfold Dev.enterFaulted
  rw [if_neg (by simp [hst]), bbWrite_state, setState_state, rd_bbWrite_other _ _ _ _ _ _ _ _ (by decide), rd_setState _ _ _ (by decide),
    rd_bbWrite_other _ _ _ _ _ _ _ _ (by decide), rd_setState _ _ _ (by decide)]
  exact ⟨rfl, rfl, rfl⟩

/-- The device with the loss of lock flagged. -/
def unlocked (d : Dev) : Dev := (d.wrBit 0x200003 1 false).flag 0x200004 1

theorem unlocked_leaves (d : Dev) : (unlocked d).bit 0x200003 1 = false ∧ (unlocked d).bit 0x200004 1 = true ∧
    (unlocked d).state = d.state := by
  unfold unlocked
  refine ⟨?_, Dev.bit_flag_self .., (Dev.flag_state ..).trans (Dev.wrBit_state ..)⟩
  rw [Dev.bit, Dev.rd_flag_other _ _ _ _ (by decide)]
  exact bit_wrBit_cleared d 0x200003 (by decide)

/-- The device with the loss of the reference flagged. -/
def refGone (d : Dev) : Dev :=
  { (d.wrBit 0x200003 0 false).flag 0x200004 0 with
    cal := { ((d.wrBit 0x200003 0 false).flag 0x200004 0).cal with
      runs := ((d.wrBit 0x200003 0 false).flag 0x200004 0).cal.runs.map fun r => { r with lost := true } } }

theorem refGone_leaves (d : Dev) : (refGone d).bit 0x200003 0 = false ∧ (refGone d).rd 0x200003 / 2 ^ 16 = d.rd 0x200003 / 2 ^ 16 ∧
    (refGone d).bit 0x200004 0 = true ∧ (∀ r ∈ (refGone d).cal.runs, r.lost = true) ∧ (refGone d).lat = d.lat ∧
    (refGone d).hub = d.hub := by
  have hrd : (refGone d).rd 0x200003 = (d.wrBit 0x200003 0 false).rd 0x200003 := Dev.rd_flag_other _ _ _ _ (by decide)
  refine ⟨?_, ?_, Dev.bit_flag_self .., fun r hr => ?_, (Dev.flag_lat ..).trans (Dev.wrBit_lat ..),
    (Dev.flag_hub ..).trans (Dev.wrBit_hub ..)⟩
  · rw [Dev.bit, hrd]
    exact bit_wrBit_cleared d 0x200003 (by decide)
  · rw [hrd, rd_wrBit_cleared]
    split
    · next hset =>
      simp only [Nat.testBit_eq_decide_div_mod_eq, decide_eq_true_eq] at hset
      omega
    · rfl
  · obtain ⟨q, -, rfl⟩ := List.mem_map.mp hr
    rfl

/-- What REF_LOSS does beyond that depends on the role of the chip. -/
theorem refLossOp_leaves (d : Dev) : (refLossOp d).objs = (refGone d).objs ∧ (refLossOp d).cal = (refGone d).cal ∧
    (d.lat.st = .root → (refLossOp d).lat.releaseDue = d.lat.beating) ∧ (refLossOp d).lat.refOut = d.lat.refOut ∧
    (d.lat.st ≠ .holdover → (refLossOp d).hub = d.hub) ∧ (d.lat.st = .holdover → (refLossOp d).hub = d.spoilAll.hub) := by
  obtain ⟨-, -, -, -, hlat, hhub⟩ := refGone_leaves d
  have hop : refLossOp d = match (refGone d).lat.st with
    | .root => { refGone d with lat := { (refGone d).lat with releaseDue := (refGone d).lat.beating } }
    | .holdover => (refGone d).spoilAll
    | _ => refGone d := rfl
  rw [hop]
  generalize refGone d = e at *
  cases hst : d.lat.st <;> simp [hlat, hhub, hst, Dev.spoilAll]

/-! ### REF_TOLERANCE -/

/-- The device with a measured offset noted. -/
def measured (d : Dev) (o : Int) : Dev :=
  { d.wr 0x200003 (d.rd 0x200003 % 2 ^ 16 + 2 ^ 16 * toU 16 o) with
    lat := { d.lat with refOut := decide (o < -2000 ∨ 2000 < o) } }

theorem measured_rd (d : Dev) (o : Int) : (measured d o).rd 0x200003 = d.rd 0x200003 % 2 ^ 16 + 2 ^ 16 * toU 16 o := Dev.rd_wr_self d _ _

theorem measured_offset (d : Dev) (o : Int) : (measured d o).rd 0x200003 / 2 ^ 16 = toU 16 o := by
  rw [measured_rd]
  omega

theorem measured_bit (d : Dev) (o : Int) : (measured d o).bit 0x200003 0 = d.bit 0x200003 0 := by
  unfold Dev.bit
  rw [measured_rd, Nat.testBit_eq_decide_div_mod_eq, Nat.testBit_eq_decide_div_mod_eq, decide_eq_decide]
  omega

theorem refToleranceOp_cases (d : Dev) (o : Int) : refToleranceOp o d =
    if o < -5000 ∨ 5000 < o then (if d.bit 0x200003 0 then refLossOp (measured d o) else measured d o)
    else if !decide (o < -2000 ∨ 2000 < o) then (measured d o).wrBit 0x200003 0 true
    else if !d.lat.refOut && d.bit 0x200003 0 then (measured d o).flag 0x200004 13
    else measured d o := rfl

/-! ### SYNC_IN, anchors -/

theorem syncInOp_loads (hmode : d.rd 0x200101 = 1) (hok : d.syncLoadOk = true) :
    syncInOp d = { d.wr 0x200106 d.epoch with
      lat := { d.lat with syncLoads := d.lat.syncLoads ++ [alignUp (d.epoch + 15)] } } := (if_pos hmode).trans (if_pos hok)

theorem syncInOp_cannot (hmode : d.rd 0x200101 = 1) (hok : d.syncLoadOk = false) :
    syncInOp d = (d.wr 0x200106 d.epoch).flag 0x200004 2 := (if_pos hmode).trans (if_neg (by simp [hok]))

theorem syncInOp_captures (hmode : d.rd 0x200101 ≠ 1) : syncInOp d = d.wr 0x200106 d.epoch := if_neg hmode

/-- The device when the epoch of some loads has come. -/
def loadsDue (d : Dev) : Dev :=
  { d with
    epoch := d.epoch + 1
    lat := { d.lat with syncLoads := d.lat.syncLoads.filter (· != d.epoch + 1) } }

theorem countTick_loads (hcount : d.counting = true) (hdue : d.epoch + 1 ∈ d.lat.syncLoads) : ∃ n, d.countTick =
    if d.syncLoadOk then (loadsDue d).loadEpoch (d.rd 0x200102) else (loadsDue d).flagN 0x200004 2 n := by
  have hsome : (d.lat.syncLoads.filter (· == d.epoch + 1)).length ≠ 0 := fun h => by
    have hmem : d.epoch + 1 ∈ d.lat.syncLoads.filter (· == d.epoch + 1) := List.mem_filter.mpr ⟨hdue, beq_self_eq_true _⟩
    rw [List.length_eq_zero_iff.mp h] at hmem
    cases hmem
  refine ⟨(d.lat.syncLoads.filter (· == d.epoch + 1)).length, ?_⟩
  unfold Dev.countTick
  rw [if_neg (by simp [hcount])]
  exact if_neg hsome

/-- An anchor notes its epoch and wall time, and changes no other object but WALL_STATUS. -/
theorem anchor_leaves (d : Dev) (sec ns : Nat) : (d.anchor sec ns).rd 0x203004 = d.epoch ∧
    (d.anchor sec ns).rd 0x203005 = sec % 2 ^ 48 ∧ (d.anchor sec ns).rd 0x203006 = ns % 10 ^ 9 ∧
    (d.anchor sec ns).lat = { d.lat with anchored := true } ∧ (d.anchor sec ns).hub = d.hub ∧
    (d.anchor sec ns).rd 0x203007 = d.rd 0x203007 ∧
    (d.bit 0x203003 1 = true → (d.anchor sec ns).bit 0x203003 1 = true) := by
  have hrd : ∀ key, key ≠ 0x203003 → (d.anchor sec ns).rd key =
      (d.wrs [(0x203004, d.epoch), (0x203005, sec % 2 ^ 48), (0x203006, ns % 10 ^ 9)]).rd key := fun key hkey =>
    Dev.rd_wrBit_other _ _ _ _ _ hkey
  refine ⟨?_, ?_, ?_, ?_, ?_, ?_, fun h => ?_⟩
  · rw [hrd _ (by decide)]
    exact Dev.rd_wrs_of_mem d (by simp) (by simp)
  · rw [hrd _ (by decide)]
    exact Dev.rd_wrs_of_mem d (by simp) (by simp)
  · rw [hrd _ (by decide)]
    exact Dev.rd_wrs_of_mem d (by simp) (by simp)
  · unfold Dev.anchor
    simp
  · exact Dev.wrs_hub ..
  · rw [hrd _ (by decide)]
    exact Dev.rd_wrs_other d _ _ (by simp)
  · have hold : (d.wrs [(0x203004, d.epoch), (0x203005, sec % 2 ^ 48), (0x203006, ns % 10 ^ 9)]).rd 0x203003 = d.rd 0x203003 :=
      Dev.rd_wrs_other d _ _ (by simp)
    unfold Dev.bit at h ⊢
    refine (congrArg (·.testBit 1) (rd_wrBit_cleared ..)).trans ?_
    rw [hold]
    split
    · next hset =>
      simp only [Nat.testBit_eq_decide_div_mod_eq, decide_eq_true_eq] at hset h ⊢
      omega
    · exact h

/-- The device with a 1PPS edge captured. -/
def ppsCaptured (d : Dev) : Dev := (d.wrBit 0x203003 1 true).produce 0x98

theorem ppsCaptured_leaves (d : Dev) : (ppsCaptured d).bit 0x203003 1 = true ∧ (ppsCaptured d).epoch = d.epoch ∧
    (ppsCaptured d).lat = d.lat ∧ (ppsCaptured d).hub = d.hub := by
  unfold ppsCaptured
  refine ⟨?_, (Dev.produce_epoch ..).trans (Dev.wrBit_epoch ..), (Dev.produce_lat ..).trans (Dev.wrBit_lat ..),
    (Dev.produce_hub ..).trans (Dev.wrBit_hub ..)⟩
  rw [Dev.bit_congr (Dev.produce_objs ..)]
  exact Dev.bit_wrBit_set ..

theorem ppsInOp_host {sec : Nat} (hsrc : d.rd 0x203001 = 3) (hsec : d.lat.ppsSecond = some sec) :
    ppsInOp d = ({ ppsCaptured d with lat := { (ppsCaptured d).lat with ppsSecond := some (sec + 1) } } : Dev).anchor sec 0 := by
  unfold ppsInOp
  rw [hsrc, hsec]
  rfl

theorem ppsInOp_ptp {ns : Nat} {at_ : Int} (hsrc : d.rd 0x203001 = 2) (htime : d.lat.ptpTime = some (ns, at_)) :
    ppsInOp d = (ppsCaptured d).anchor (divRound (3 * ns + 4 * ((d.epoch : Int) - at_)) (3 * 10 ^ 9)).toNat 0 := by
  unfold ppsInOp
  rw [hsrc, htime]
  rfl

/-- The device with a PTP time noted. -/
def synced (d : Dev) (sec ns : Nat) (rate : Int) : Dev :=
  { d.wr 0x203007 (toU 32 rate) with lat := { d.lat with ptpTime := some (10 ^ 9 * sec + ns, d.epoch) } }

theorem ptpSyncOp_own {sec ns domain : Nat} {rate : Int} (hdom : domain = d.rd 0x203002) (hsel : d.bit 0x203003 0 = true) :
    ptpSyncOp domain sec ns rate d =
      if d.rd 0x203001 = 1 then (synced d sec ns rate).anchor sec ns else synced d sec ns rate := by
  have hsrc : (synced d sec ns rate).rd 0x203001 = d.rd 0x203001 := Dev.rd_wr_other d _ _ _ (by decide)
  unfold ptpSyncOp
  rw [if_pos ⟨hdom, hsel⟩]
  rfl

end

section
variable (s : State)
theorem exec_pllLock : exec .pllLock s = .next (s.onNow pllLockOp) := rfl
theorem exec_pllUnlock : exec .pllUnlock s = .next (s.onNow pllUnlockOp) := rfl
theorem exec_refLoss : exec .refLoss s = .next (s.onNow refLossOp) := rfl
theorem exec_refTolerance (o : Int) : exec (.refTolerance o) s = .next (s.onNow (refToleranceOp o)) := rfl
theorem exec_syncIn : exec .syncIn s = .next (s.onNow syncInOp) := rfl
theorem exec_syncOutPulse : exec .syncOutPulse s = .next (s.onNow syncOutPulseOp) := rfl
theorem exec_ppsIn : exec .ppsIn s = .next (s.onNow ppsInOp) := rfl
theorem exec_ptpSync (a b c : Nat) (r : Int) : exec (.ptpSync a b c r) s = .next (s.onNow (ptpSyncOp a b c r)) := rfl
theorem exec_ptpAnnounce (a : Nat) (u : Int) : exec (.ptpAnnounce a u) s = .next (s.onNow (ptpAnnounceOp a u)) := rfl
end

/-- Settles O53: each clause is one operation's case; the status bits and objects that a clause names are written by its own
writes alone, and the flags that follow are other objects. -/
theorem timeReferences : Obligations.TimeReferences := by
  unfold Obligations.TimeReferences
  intro s
  refine ⟨?lock, ?unlock, ?loss, fun o => ?tolerance, ?syncIn, fun hcount hdue => ?load, fun hmode => ?out,
    fun sec hsrc hsec => ?pps, fun ns at_ hsrc htime => ?ppsPtp,
    fun domain sec ns rate => ⟨fun hdom hsel => ?ptp, fun hnot => ?ptpOther⟩,
    fun domain utc => ⟨fun hdom => ?announce, fun hdom => ?announceOther⟩⟩
  case lock =>
    refine ⟨s.onNow pllLockOp, exec_pllLock s, ?_⟩
    have hop : pllLockOp s.now = { (if -2000 ≤ s.now.refOffset ∧ s.now.refOffset ≤ 2000 then s.now.wrBit 0x200003 0 true
        else s.now).wrBit 0x200003 1 true with counting := true } := rfl
    simp only [State.onNow, hop]
    refine ⟨trivial, Dev.bit_wrBit_set .., fun o ho => ⟨fun hlow hhigh => ?_, fun hfar => ?_⟩, ?_, ?_, ?_⟩
    · have hin : -2000 ≤ s.now.refOffset ∧ s.now.refOffset ≤ 2000 := by
        rw [show s.now.refOffset = o from ho]
        exact ⟨hlow, hhigh⟩
      rw [if_pos hin]
      exact bit_wrBit_set_of_bit _ _ _ (Dev.bit_wrBit_set ..)
    · have hout : ¬ (-2000 ≤ s.now.refOffset ∧ s.now.refOffset ≤ 2000) := by
        rw [show s.now.refOffset = o from ho]
        omega
      rw [if_neg hout]
      exact bit_wrBit_set_other _ _ (by decide)
    · split <;> simp
    · split <;> simp
    · split <;> simp
  case unlock =>
    have hddr : (pllUnlockOp s.now).ddr = s.now.ddr := by simp
    have hop : pllUnlockOp s.now = if s.now.state = .priming then (unlocked s.now).enterFaulted else unlocked s.now := rfl
    obtain ⟨hlock, hflag, hstate⟩ := unlocked_leaves s.now
    refine ⟨s.onNow pllUnlockOp, exec_pllUnlock s, ?_⟩
    simp only [State.onNow, hop] at hddr ⊢
    split
    · next hpriming =>
      obtain ⟨hfaulted, h3, h4⟩ := enterFaulted_leaves (hstate.trans hpriming)
      rw [if_pos hpriming] at hddr
      exact ⟨(congrArg (·.testBit 1) h3).trans hlock, (congrArg (·.testBit 1) h4).trans hflag, hfaulted, hddr⟩
    · next hother =>
      rw [if_neg hother] at hddr
      exact ⟨hlock, hflag, hstate, hddr⟩
  case loss =>
    have hddr : (refLossOp s.now).ddr = s.now.ddr := by simp
    obtain ⟨hobjs, hcal, hroot, -, hkeep, hspoil⟩ := refLossOp_leaves s.now
    obtain ⟨hbit, -, hflag, hruns, -, -⟩ := refGone_leaves s.now
    exact ⟨s.onNow refLossOp, exec_refLoss s, (Dev.bit_congr hobjs _ _).trans hbit, (Dev.bit_congr hobjs _ _).trans hflag,
      fun r hr => hruns r (by rw [← hcal]; exact hr), hroot, hkeep, hspoil, hddr⟩
  case tolerance =>
    have hddr : (refToleranceOp o s.now).ddr = s.now.ddr := by simp
    have hop := refToleranceOp_cases s.now o
    have hoff := measured_offset s.now o
    have hbit := measured_bit s.now o
    refine ⟨s.onNow (refToleranceOp o), exec_refTolerance s o, ?_⟩
    simp only [State.onNow]
    by_cases hlost : o < -5000 ∨ 5000 < o
    · rw [if_pos hlost] at hop
      cases hpresent : s.now.bit 0x200003 0 with
      | true =>
        rw [hpresent, if_pos rfl] at hop
        rw [hop] at hddr ⊢
        obtain ⟨hobjs, -, -, hout, hkeep, -⟩ := refLossOp_leaves (measured s.now o)
        obtain ⟨hclear, hsame, hflag, -, -, -⟩ := refGone_leaves (measured s.now o)
        refine ⟨by rw [Dev.rd_congr hobjs, hsame, hoff], fun _ => ⟨(Dev.bit_congr hobjs _ _).trans hclear,
          fun _ => (Dev.bit_congr hobjs _ _).trans hflag⟩, by omega, by omega, fun _ h => absurd h (by decide), hout,
          fun h => hkeep (h.resolve_right (by omega)), hddr⟩
      | false =>
        rw [hpresent, if_neg (by decide)] at hop
        rw [hop] at hddr ⊢
        exact ⟨hoff, fun _ => ⟨hbit.trans hpresent, fun h => absurd h (by decide)⟩, by omega, by omega, by omega, rfl,
          fun _ => rfl, hddr⟩
    · rw [if_neg hlost] at hop
      by_cases hin : o < -2000 ∨ 2000 < o
      · rw [if_neg (by simp [hin])] at hop
        by_cases hfirst : (!s.now.lat.refOut && s.now.bit 0x200003 0) = true
        · rw [if_pos hfirst] at hop
          rw [hop] at hddr ⊢
          rw [Bool.and_eq_true] at hfirst
          refine ⟨?_, fun h => absurd h hlost, by omega, fun _ _ _ => Dev.bit_flag_self .., fun _ h => ?_, ?_, fun _ => Dev.flag_hub ..,
            hddr⟩
          · rw [Dev.rd_flag_other _ _ _ _ (by decide), hoff]
          · exact absurd (hfirst.2.symm.trans h) (by decide)
          · rw [Dev.flag_lat]
            rfl
        · rw [if_neg hfirst] at hop
          rw [hop] at hddr ⊢
          refine ⟨hoff, fun h => absurd h hlost, by omega, fun _ hnew hpresent => ?_, fun _ _ key hkey => ?_, rfl, fun _ => rfl, hddr⟩
          · exact absurd (by rw [hnew, hpresent]; rfl) hfirst
          · exact Dev.rd_wr_other s.now _ _ _ hkey
      · rw [if_pos (by simp [hin])] at hop
        rw [hop] at hddr ⊢
        refine ⟨?_, fun h => absurd h hlost, fun _ _ => Dev.bit_wrBit_set .., by omega, by omega, rfl, fun _ => Dev.wrBit_hub .., hddr⟩
        rw [rd_wrBit_set, lor_one_div, hoff]
  case syncIn =>
    have hddr : (syncInOp s.now).ddr = s.now.ddr := by simp
    refine ⟨s.onNow syncInOp, exec_syncIn s, ?_⟩
    by_cases hmode : s.now.rd 0x200101 = 1
    · cases hok : s.now.syncLoadOk with
      | true =>
        simp only [State.onNow, syncInOp_loads hmode hok] at hddr ⊢
        exact ⟨Dev.rd_wr_self s.now _ _, fun _ _ => rfl, fun _ h => absurd h (by decide), fun h => absurd hmode h, rfl, hddr⟩
      | false =>
        simp only [State.onNow, syncInOp_cannot hmode hok] at hddr ⊢
        refine ⟨(Dev.rd_flag_other _ _ _ _ (by decide)).trans (Dev.rd_wr_self s.now _ _), fun _ h => absurd h (by decide),
          fun _ _ => Dev.bit_flag_self .., fun h => absurd hmode h, Dev.flag_hub .., hddr⟩
    · simp only [State.onNow, syncInOp_captures hmode] at hddr ⊢
      exact ⟨Dev.rd_wr_self s.now _ _, fun h => absurd h hmode, fun h => absurd h hmode, fun _ => rfl, rfl, hddr⟩
  case load =>
    obtain ⟨n, hop⟩ := countTick_loads hcount hdue
    refine ⟨fun hok => ?_, fun hok => ?_⟩
    · rw [hop, if_pos hok]
      rfl
    · rw [hop, if_neg (by simp [hok])]
      exact ⟨Dev.flagN_epoch .., bit_flagN_self ..⟩
  case out =>
    refine does_of_onNow (exec_syncOutPulse s) (if_pos ?_)
    unfold Dev.syncOutDue
    rcases hmode with ⟨hmode, hdue⟩ | ⟨hmode, hstart, hdue⟩
    · simp [hmode, hdue]
    · simp [hmode, hstart, hdue]
  case pps =>
    have hddr : (ppsInOp s.now).ddr = s.now.ddr := by simp
    have hop := ppsInOp_host hsrc hsec
    obtain ⟨hpresent, hepoch, hlat, hhub⟩ := ppsCaptured_leaves s.now
    obtain ⟨h4, h5, h6, hlat', hhub', -, hbit⟩ := anchor_leaves
      ({ ppsCaptured s.now with lat := { (ppsCaptured s.now).lat with ppsSecond := some (sec + 1) } } : Dev) sec 0
    refine ⟨s.onNow ppsInOp, exec_ppsIn s, ?_⟩
    simp only [State.onNow, hop] at hddr ⊢
    exact ⟨h4.trans hepoch, h5, h6, by rw [hlat'], by rw [hlat'], hbit hpresent, hhub'.trans hhub, hddr⟩
  case ppsPtp =>
    have hddr : (ppsInOp s.now).ddr = s.now.ddr := by simp
    have hop := ppsInOp_ptp hsrc htime
    obtain ⟨hpresent, hepoch, hlat, hhub⟩ := ppsCaptured_leaves s.now
    obtain ⟨h4, h5, h6, hlat', hhub', -, hbit⟩ := anchor_leaves (ppsCaptured s.now)
      (divRound (3 * ns + 4 * ((s.now.epoch : Int) - at_)) (3 * 10 ^ 9)).toNat 0
    refine ⟨s.onNow ppsInOp, exec_ppsIn s, ?_⟩
    simp only [State.onNow, hop] at hddr ⊢
    exact ⟨h4.trans hepoch, h5, h6, by rw [hlat'], hbit hpresent, hhub'.trans hhub, hddr⟩
  case ptp =>
    have hddr : (ptpSyncOp domain sec ns rate s.now).ddr = s.now.ddr := by simp
    have hop := ptpSyncOp_own (ns := ns) (sec := sec) (rate := rate) hdom hsel
    have hrate : (synced s.now sec ns rate).rd 0x203007 = toU 32 rate := Dev.rd_wr_self s.now _ _
    refine ⟨s.onNow (ptpSyncOp domain sec ns rate), exec_ptpSync s domain sec ns rate, ?_⟩
    simp only [State.onNow, hop] at hddr ⊢
    split
    · next hsrc =>
      rw [if_pos hsrc] at hddr
      obtain ⟨h4, h5, h6, hlat, hhub, h7, -⟩ := anchor_leaves (synced s.now sec ns rate) sec ns
      exact ⟨h7.trans hrate, by rw [hlat]; rfl, fun _ => ⟨h4, h5, h6, by rw [hlat]⟩, hhub, hddr⟩
    · next hsrc =>
      rw [if_neg hsrc] at hddr
      exact ⟨hrate, rfl, fun h => absurd h hsrc, rfl, hddr⟩
  case ptpOther =>
    refine does_of_onNow (exec_ptpSync s domain sec ns rate) (if_neg fun h => ?_)
    rcases hnot with hdom | hsel
    · exact hdom h.1
    · exact absurd (hsel.symm.trans h.2) (by decide)
  case announce =>
    have hddr : (ptpAnnounceOp domain utc s.now).ddr = s.now.ddr := by simp
    have hop : ptpAnnounceOp domain utc s.now = (s.now.wrBit 0x203003 0 true).wr 0x203009 (toU 16 utc) := if_pos hdom
    refine ⟨s.onNow (ptpAnnounceOp domain utc), exec_ptpAnnounce s domain utc, ?_⟩
    simp only [State.onNow, hop] at hddr ⊢
    refine ⟨Dev.rd_wr_self .., ?_, (Dev.wr_hub ..).trans (Dev.wrBit_hub ..), hddr⟩
    rw [Dev.bit, Dev.rd_wr_other _ _ _ _ (by decide)]
    exact Dev.bit_wrBit_set ..
  case announceOther => exact does_of_onNow (exec_ptpAnnounce s domain utc) (if_neg hdom)

end Sys2Proof.Machine
end

section
/-! Messages along ROUTE, and what the root and the addressed chip do with them (R53, R82, R357, R523, R592, R654, R655). -/

namespace Sys2Proof.Machine

section
variable {d e : Dev} {m : LatMsg}

/-! ### Addressed elsewhere, and at the root -/

theorem receiveMsg_own {kind : Nat} {use : Dev → Dev} (hdst : m.dst = d.chip) : d.receiveMsg kind m use = use d := if_pos hdst

theorem receiveMsg_other {kind : Nat} {use : Dev → Dev} (hdst : m.dst ≠ d.chip) :
    d.receiveMsg kind m use = if d.route m.dst < 12 then d.sendCell (d.route m.dst) (.msg kind m) else d := if_neg hdst

theorem rootTry_none {l : Nat} (h : d.rootStart l = none) : d.rootTry l = d := by
  unfold Dev.rootTry
  rw [h]

theorem takeDrain_leaves (d : Dev) (m : LatMsg) : (d.takeDrain m).hub = d.hub ∧ (d.takeDrain m).eas = d.eas ∧
    (∃ r ∈ (d.takeDrain m).lat.drains, r.ljob = m.jobSeq ∧ r.chip = m.src ∧ r.shot = m.shot ∧ r.at_ = d.epoch) ∧
    (d.lat.st = .root → m.src ≠ d.chip → (d.takeDrain m).bit 0x201109 m.src = true) := by
  have hother : (if d.lat.st = .root ∧ m.src ≠ d.chip then d.wr 0x201109 (Nat.lor (d.rd 0x201109) (2 ^ m.src)) else d).hub = d.hub ∧
      (if d.lat.st = .root ∧ m.src ≠ d.chip then d.wr 0x201109 (Nat.lor (d.rd 0x201109) (2 ^ m.src)) else d).eas = d.eas := by
    split <;> exact ⟨rfl, rfl⟩
  refine ⟨hother.1, hother.2, ⟨_, List.mem_append_right _ List.mem_cons_self, rfl, rfl, rfl, rfl⟩, fun hroot hsrc => ?_⟩
  have hrd : (d.takeDrain m).rd 0x201109 = Nat.lor (d.rd 0x201109) (2 ^ m.src) := by
    unfold Dev.takeDrain
    rw [if_pos ⟨hroot, hsrc⟩]
    exact Dev.rd_wr_self d _ _
  unfold Dev.bit
  rw [hrd]
  exact (Nat.testBit_or ..).trans (by simp)

theorem noteTrigger_leaves (d : Dev) (l t : Nat) : (d.noteTrigger l t).hub = d.hub ∧ (d.noteTrigger l t).eas = d.eas ∧
    (d.noteTrigger l t).ddr = d.ddr ∧ ∃ r ∈ (d.noteTrigger l t).lat.drains, r.ljob = l ∧ r.chip = 64 := by
  unfold Dev.noteTrigger
  split
  · next hnoted =>
    obtain ⟨r, hr, hsame⟩ := List.any_eq_true.mp hnoted
    rw [Bool.and_eq_true, beq_iff_eq, beq_iff_eq] at hsame
    exact ⟨rfl, rfl, rfl, r, hr, hsame⟩
  · exact ⟨rfl, rfl, rfl, _, List.mem_append_right _ List.mem_cons_self, rfl, rfl⟩

/-- A command for a job of a chip that is no root is applied to the job, and goes nowhere else. -/
theorem jobCommand_member {kind : Nat} {j : Job} (hmember : d.lat.st ≠ .root) (hjob : d.ljob m.jobSeq = some j)
    (he : e = if kind = 4 then d.localHalt j.seq else if kind = 5 then d.localResume j.seq else d.localCancel j.seq)
    (hstays : e.lat.st ≠ .root) : d.jobCommand kind m = e := by
  unfold Dev.jobCommand
  simp only [if_neg hmember, hjob, ← he, if_neg hstays]

/-! ### SHOT_START of a chip -/

/-- The resident job of a message is the one that the chip's ledger gives first. -/
theorem ljob_resident {l : Nat} {j : Job} (hjob : d.ljob l = some j) (hres : j.st.resident = true) :
    d.hub.jobs.find? (fun j => j.head.multiChip && j.head.ljob == l && j.st.resident) = some j := by
  unfold Dev.ljob at hjob
  rw [List.find?_eq_some_iff_append] at hjob ⊢
  obtain ⟨hown, as, bs, hsplit, hbefore⟩ := hjob
  refine ⟨?_, as, bs, hsplit, fun a ha => ?_⟩
  · rw [hres] at hown ⊢
    simpa using hown
  · have hnot := hbefore a ha
    cases hr : a.st.resident with
    | false => simp
    | true =>
      rw [hr] at hnot
      simpa using hnot

theorem squashAll_leaves (d : Dev) (n : Nat) : (d.squashAll n).objs = d.objs ∧ (d.squashAll n).hub = d.hub := ⟨rfl, rfl⟩

/-- A thread set anew is the only one that changes; the objects and the hub are as they were. -/
theorem resetThread_leaves (d : Dev) (j : Job) (p : CanvasPlace) (kept : List (Nat × Nat × Nat)) (shot : Nat) :
    (d.resetThread j p kept shot).objs = d.objs ∧ (d.resetThread j p kept shot).hub = d.hub ∧
    ∀ n, n ≠ p.thread → (d.resetThread j p kept shot).thread n = d.thread n := by
  have hbus : ∀ (e : Dev) (b : List BusWord), ({ e with eas := { e.eas with bus := b } } : Dev).objs = e.objs ∧
      ({ e with eas := { e.eas with bus := b } } : Dev).hub = e.hub ∧
      ∀ n, ({ e with eas := { e.eas with bus := b } } : Dev).thread n = e.thread n := fun _ _ => ⟨rfl, rfl, fun _ => rfl⟩
  obtain ⟨hobjs, hhub⟩ := squashAll_leaves d p.thread
  unfold Dev.resetThread
  dsimp only
  generalize hu : ({ nextId := _
                     nextOrd := _
                     main := _
                     genStart := _ } : Thread) = u
  obtain ⟨hobjs', hhub', hthread⟩ := hbus ((d.squashAll p.thread).setThread p.thread u) _
  refine ⟨hobjs'.trans ((Dev.setThread_objs ..).trans hobjs), hhub'.trans ((Dev.setThread_hub ..).trans hhub), fun n hn => ?_⟩
  refine (hthread n).trans ?_
  rw [Dev.thread_setThread_other _ _ _ _ hn]
  unfold Dev.squashAll
  rw [thread_pathMarks, Dev.thread_setThread_other _ _ _ _ hn]

/-- A thread set at the start of a shot; the objects and the hub are as they were. -/
theorem startThread_leaves (d : Dev) (j : Job) (p : CanvasPlace) (start shot : Nat) :
    (d.startThread j p start shot).objs = d.objs ∧ (d.startThread j p start shot).hub = d.hub ∧
    ((d.startThread j p start shot).thread p.thread).active = true ∧
    ((d.startThread j p start shot).thread p.thread).main.cursor = start ∧
    ∀ n, n ≠ p.thread → (d.startThread j p start shot).thread n = d.thread n := by
  obtain ⟨hobjs, hhub, hother⟩ := resetThread_leaves d j p j.contGens shot
  unfold Dev.startThread
  dsimp only
  generalize d.resetThread j p j.contGens shot = e at *
  refine ⟨(Dev.setThread_objs ..).trans hobjs, (Dev.setThread_hub ..).trans hhub, ?_, ?_, fun n hn => ?_⟩
  · rw [Dev.thread_setThread_self]
  · rw [Dev.thread_setThread_self]
  · rw [Dev.thread_setThread_other _ _ _ _ hn, hother n hn]

theorem startThreads_leaves (j : Job) (start shot : Nat) (ps : List CanvasPlace) (d : Dev) :
    (ps.foldl (fun e p => e.startThread j p start shot) d).objs = d.objs ∧
    (ps.foldl (fun e p => e.startThread j p start shot) d).hub = d.hub ∧
    ∀ n, (((d.thread n).active = true ∧ (d.thread n).main.cursor = start) ∨ ∃ p ∈ ps, p.thread = n) →
      ((ps.foldl (fun e p => e.startThread j p start shot) d).thread n).active = true ∧
      ((ps.foldl (fun e p => e.startThread j p start shot) d).thread n).main.cursor = start := by
  induction ps generalizing d with
  | nil => exact ⟨rfl, rfl, fun n h => h.resolve_right fun ⟨p, hp, _⟩ => by cases hp⟩
  | cons q ps ih =>
    obtain ⟨hobjs', hhub', hactive, hcursor, hother⟩ := startThread_leaves d j q start shot
    rw [List.foldl_cons]
    generalize d.startThread j q start shot = e at *
    obtain ⟨hobjs, hhub, hstands⟩ := ih e
    refine ⟨hobjs.trans hobjs', hhub.trans hhub', fun n hn => hstands n ?_⟩
    by_cases hq : q.thread = n
    · subst hq
      exact .inl ⟨hactive, hcursor⟩
    · rcases hn with hold | ⟨p, hp, hpn⟩
      · rw [hother n (Ne.symm hq)]
        exact .inl hold
      · rcases List.mem_cons.mp hp with rfl | hp
        · exact absurd hpn hq
        · exact .inr ⟨p, hp, hpn⟩

/-- The start of a job's shot is placed. -/
theorem placeStart_leaves {seq start shot : Nat} {j : Job} (hjob : d.job seq = some j) :
    (∃ j', (d.placeStart seq start shot).job seq = some j' ∧ j'.nextStart = some start ∧ j'.shot = shot) ∧
    (d.placeStart seq start shot).objs = d.objs ∧
    ∀ p ∈ j.held.canvases, ((d.placeStart seq start shot).thread p.thread).active = true ∧
      ((d.placeStart seq start shot).thread p.thread).main.cursor = start := by
  obtain ⟨hobjs, hhub, hstands⟩ := startThreads_leaves j start shot j.held.canvases d
  have hop : d.placeStart seq start shot =
      (j.held.canvases.foldl (fun e p => e.startThread j p start shot) d).modJob seq fun k => { k with
        nextStart := some start
        trigSent := false
        shot := shot
        shotGens := j.contGens
        ackWait := false
        spoilNext := false } := by
    unfold Dev.placeStart
    rw [hjob]
  rw [hop]
  exact ⟨⟨_, job_modJob (fun _ => rfl) ((job_congr hhub seq).trans hjob), rfl, rfl⟩, hobjs,
    fun p hp => hstands _ (.inr ⟨p, hp, rfl⟩)⟩

/-- SHOT_START of a chip between shots with nothing to settle fixes the next start. -/
theorem takeShotStart_fixes {j : Job} (hjob : d.ljob m.jobSeq = some j) (hseq : d.job j.seq = some j)
    (hres : j.st.resident = true) (hphase : j.phase = .waiting ∨ j.phase = .boundary) (hnone : j.tentative = none)
    (hstop : j.stopDue = false) (hunit : d.awaitsUnit j = false) (hmore : nearIndex j.nextShot m.shot < j.head.shots)
    (hsoon : d.epoch ≤ m.epoch) : d.takeShotStart m =
      (d.modJob j.seq fun x => { x with drainSent := none }).placeStart j.seq m.epoch (nearIndex j.nextShot m.shot) := by
  have hjob2 : (d.modJob j.seq fun x => { x with drainSent := none }).job j.seq = some { j with drainSent := none } :=
    job_modJob (fun _ => rfl) hseq
  have hbusy : ¬ (j.phase = .shot ∨ j.phase = .drained) := by rcases hphase with h | h <;> simp [h]
  have hunit' : (d.modJob j.seq fun x => { x with drainSent := none }).awaitsUnit { j with drainSent := none } = false := hunit
  unfold Dev.takeShotStart
  rw [ljob_resident hjob hres]
  dsimp only
  rw [if_neg hbusy, hnone]
  dsimp only
  rw [hjob2]
  dsimp only
  rw [if_neg (Nat.not_le.mpr hmore), if_neg (by simp [hstop]), if_neg (by simp [hunit'])]
  exact if_neg (Nat.not_lt.mpr hsoon)

end
section
variable (s : State) (m : LatMsg)
theorem exec_drainDone : exec (.drainDone m) s = .next (s.onNow (drainDoneOp m)) := rfl
theorem exec_shotStartMsg : exec (.shotStartMsg m) s = .next (s.onNow (shotStartMsgOp m)) := rfl
theorem exec_triggerMsg : exec (.triggerMsg m) s = .next (s.onNow (triggerMsgOp m)) := rfl
theorem exec_haltMsg : exec (.haltMsg m) s = .next (s.onNow (haltMsgOp m)) := rfl
theorem exec_resumeMsg : exec (.resumeMsg m) s = .next (s.onNow (resumeMsgOp m)) := rfl
theorem exec_cancelMsg : exec (.cancelMsg m) s = .next (s.onNow (cancelMsgOp m)) := rfl

/-- Each of the six messages of a job is received with its own kind. -/
theorem exec_message {i : Instr} {kind : Nat} (h : (i = .drainDone m ∧ kind = 1) ∨ (i = .shotStartMsg m ∧ kind = 2) ∨
    (i = .triggerMsg m ∧ kind = 3) ∨ (i = .haltMsg m ∧ kind = 4) ∨ (i = .resumeMsg m ∧ kind = 5) ∨ (i = .cancelMsg m ∧ kind = 6)) :
    ∃ use, exec i s = .next (s.onNow fun d => d.receiveMsg kind m use) := by
  rcases h with ⟨rfl, rfl⟩ | ⟨rfl, rfl⟩ | ⟨rfl, rfl⟩ | ⟨rfl, rfl⟩ | ⟨rfl, rfl⟩ | ⟨rfl, rfl⟩
  · exact ⟨_, exec_drainDone s m⟩
  · exact ⟨_, exec_shotStartMsg s m⟩
  · exact ⟨_, exec_triggerMsg s m⟩
  · exact ⟨_, exec_haltMsg s m⟩
  · exact ⟨_, exec_resumeMsg s m⟩
  · exact ⟨_, exec_cancelMsg s m⟩

end

/-- Settles O55: a message for another chip is sent on whatever its kind; at its own chip a report or trigger that completes no
start is only noted, a command is applied to its job, and a SHOT_START with nothing to settle places the start. -/
theorem latticeMessages : Obligations.LatticeMessages := by
  unfold Obligations.LatticeMessages
  intro s m
  refine ⟨fun i kind hi hdst => ⟨fun hroute => ?along, fun hroute => ?nowhere⟩, fun hdst hroot => ⟨fun hnone => ?report, fun hnone => ?trigger⟩,
    fun j hdst hmember hjob i d hi hstays => ?command, fun j hdst hjob hseq hres hphase htent hstop hunit hmore hsoon _ => ?start⟩
  case along =>
    obtain ⟨use, hexec⟩ := exec_message s m hi
    exact does_of_onNow hexec ((receiveMsg_other hdst).trans (if_pos hroute))
  case nowhere =>
    obtain ⟨use, hexec⟩ := exec_message s m hi
    exact does_of_onNow hexec ((receiveMsg_other hdst).trans (if_neg (Nat.not_lt.mpr hroute)))
  case report =>
    have hddr : (drainDoneOp m s.now).ddr = s.now.ddr := by simp
    have hop : drainDoneOp m s.now = s.now.takeDrain m := (receiveMsg_own hdst).trans ((if_pos hroot).trans (rootTry_none hnone))
    obtain ⟨hhub, heas, hreport, hmember⟩ := takeDrain_leaves s.now m
    refine ⟨s.onNow (drainDoneOp m), exec_drainDone s m, ?_⟩
    simp only [State.onNow, hop] at hddr ⊢
    exact ⟨hreport, hmember hroot, hhub, heas, hddr⟩
  case trigger =>
    have hop : triggerMsgOp m s.now = s.now.noteTrigger m.jobSeq m.epoch :=
      (receiveMsg_own hdst).trans ((if_pos hroot).trans (rootTry_none hnone))
    obtain ⟨hhub, heas, hddr, hnoted⟩ := noteTrigger_leaves s.now m.jobSeq m.epoch
    refine ⟨s.onNow (triggerMsgOp m), exec_triggerMsg s m, ?_⟩
    simp only [State.onNow, hop]
    exact ⟨hnoted, hhub, heas, hddr⟩
  case command =>
    rcases hi with ⟨rfl, hd⟩ | ⟨rfl, hd⟩ | ⟨rfl, hd⟩
    · have hop : haltMsgOp m s.now = d := (receiveMsg_own hdst).trans (jobCommand_member hmember hjob (hd.trans rfl) hstays)
      rw [exec_haltMsg, State.onNow, hop]
    · have hop : resumeMsgOp m s.now = d := (receiveMsg_own hdst).trans (jobCommand_member hmember hjob (hd.trans rfl) hstays)
      rw [exec_resumeMsg, State.onNow, hop]
    · have hop : cancelMsgOp m s.now = d := (receiveMsg_own hdst).trans (jobCommand_member hmember hjob (hd.trans rfl) hstays)
      rw [exec_cancelMsg, State.onNow, hop]
  case start =>
    have hddr : (shotStartMsgOp m s.now).ddr = s.now.ddr := by simp
    have hop : shotStartMsgOp m s.now = (s.now.modJob j.seq fun x => { x with drainSent := none }).placeStart j.seq m.epoch
        (nearIndex j.nextShot m.shot) :=
      (receiveMsg_own hdst).trans (takeShotStart_fixes hjob hseq hres hphase htent hstop hunit hmore hsoon)
    have hjob2 : (s.now.modJob j.seq fun x => { x with drainSent := none }).job j.seq = some { j with drainSent := none } :=
      job_modJob (fun _ => rfl) hseq
    obtain ⟨⟨j', hjob', hnext, hshot⟩, hobjs, hthreads⟩ := placeStart_leaves (start := m.epoch)
      (shot := nearIndex j.nextShot m.shot) hjob2
    refine ⟨s.onNow (shotStartMsgOp m), j', exec_shotStartMsg s m, ?_⟩
    simp only [State.onNow, hop] at hddr ⊢
    exact ⟨hjob', hnext, hshot, hthreads, hobjs, hddr⟩

end Sys2Proof.Machine
end

section
/-! The states of a link, failed training and retraining (R525, R526, R544 to R548). -/

namespace Sys2Proof.Machine

section
variable {d e : Dev} {k : Nat}

/-! ### A spine path that goes out of service with its link -/

theorem bbWrite_ser (d : Dev) (btype ukind uidx cause job shot : Nat) (payload : List Byte) :
    (d.bbWrite btype ukind uidx cause job shot payload).ser = d.ser := by
  have hnote : ∀ e : Dev, ∀ n, (e.noteStamp n).ser = e.ser := fun e n => by
    unfold Dev.noteStamp
    split <;> simp
  unfold Dev.bbWrite
  dsimp only
  rw [Dev.trace_ser, hnote]
  split_ifs <;> simp [Dev.bbObjects]

theorem pathOut_leaves (d : Dev) (sec : Bool) : (d.pathOut sec).ser = d.ser ∧ (d.pathOut sec).hub.units = d.hub.units ∧
    ∀ key, key < 0x300000 → 0x210000 ≤ key → (d.pathOut sec).rd key = d.rd key := by
  unfold Dev.pathOut
  dsimp only
  generalize (le 1 d.lat.st.code ++ le 4 (d.rd 0x201103) ++ le 1 (d.rd 0x201105) ++ le 1 (d.rd 0x201106)) = payload
  refine ⟨?_, ?_, fun key hhigh hlow => ?_⟩
  · rw [bbWrite_ser, Dev.pathState, Dev.wr_ser, Dev.flag_ser]
  · rw [Dev.bbWrite_units, Dev.pathState, Dev.wr_hub, Dev.flag_hub]
  · rw [rd_bbWrite_other _ _ _ _ _ _ _ _ (by omega), Dev.pathState, Dev.rd_wr_other _ _ _ _ (by omega),
      Dev.rd_flag_other _ _ _ _ (by omega)]

/-- The primary spine path goes out of service when its link is lost. -/
def primLost (d : Dev) (k : Nat) : Dev :=
  if d.rd 0x201003 = k ∧ !d.lat.prim.out then
    ({ d with lat := { d.lat with prim := { d.lat.prim with
      out := true
      goodRun := 0 } } } : Dev).pathOut false
  else d

/-- The secondary spine path goes out of service when its link is lost. -/
def secLost (d : Dev) (k : Nat) : Dev :=
  if d.rd 0x201004 = k ∧ !d.lat.sec.out then
    ({ d with lat := { d.lat with sec := { d.lat.sec with
      out := true
      goodRun := 0 } } } : Dev).pathOut true
  else d

theorem spineLinkLost_eq (d : Dev) (k : Nat) : d.spineLinkLost k = secLost (primLost d k) k := rfl

/-- What a lost path leaves of the links and the units. -/
def PathLeaves (d e : Dev) : Prop := e.ser = d.ser ∧ e.hub.units = d.hub.units ∧
  ∀ key, key < 0x300000 → 0x210000 ≤ key → e.rd key = d.rd key

theorem PathLeaves.trans {c : Dev} (h : PathLeaves d e) (h' : PathLeaves c d) : PathLeaves c e :=
  ⟨h.1.trans h'.1, h.2.1.trans h'.2.1, fun key hhigh hlow => (h.2.2 key hhigh hlow).trans (h'.2.2 key hhigh hlow)⟩

theorem primLost_leaves (d : Dev) (k : Nat) : PathLeaves d (primLost d k) := by
  unfold primLost
  split
  · exact pathOut_leaves _ false
  · exact ⟨rfl, rfl, fun _ _ _ => rfl⟩

theorem secLost_leaves (d : Dev) (k : Nat) : PathLeaves d (secLost d k) := by
  unfold secLost
  split
  · exact pathOut_leaves _ true
  · exact ⟨rfl, rfl, fun _ _ _ => rfl⟩

theorem spineLinkLost_leaves (d : Dev) (k : Nat) : PathLeaves d (d.spineLinkLost k) := by
  rw [spineLinkLost_eq]
  exact (secLost_leaves _ k).trans (primLost_leaves d k)

/-! ### What a link loses -/

/-- The device with a link in a state in which it carries nothing. -/
def emptied (d : Dev) (k st : Nat) : Dev :=
  (d.wr (unitKey 0x240001 k) st).setLink k { d.link k with
    held := []
    waiting := []
    bulk := none
    decisions := []
    resent := []
    ahead := 0
    beats := []
    wire := []
    bad := []
    expired := 0 }

/-- Its lanes are off, but in TRAINING. -/
def lanesOff (d : Dev) (k st : Nat) : Dev :=
  if st = 1 then emptied d k st else (emptied d k st).wrs ((List.range 4).map fun l => (unitKey 0x241001 (4 * k + l), 2))

theorem dropLink_eq (d : Dev) (k st : Nat) :
    d.dropLink k st = if d.linkUp k then (lanesOff d k st).spineLinkLost k else lanesOff d k st := rfl

theorem emptied_leaves (d : Dev) (k st : Nat) : (emptied d k st).rd (unitKey 0x240001 k) = st ∧
    ((emptied d k st).link k).held = [] ∧ ((emptied d k st).link k).bulk = none ∧ (emptied d k st).hub.units = d.hub.units := by
  unfold emptied
  rw [Dev.link_setLink_self, Dev.rd_setLink, if_neg (by unfold unitKey; omega), Dev.rd_wr_self]
  exact ⟨rfl, rfl, rfl, rfl⟩

theorem lanesOff_leaves (hk : k < 12) (st : Nat) : (lanesOff d k st).rd (unitKey 0x240001 k) = st ∧
    ((lanesOff d k st).link k).held = [] ∧ ((lanesOff d k st).link k).bulk = none ∧ (lanesOff d k st).hub.units = d.hub.units := by
  have hother : ∀ p ∈ (List.range 4).map fun l => (unitKey 0x241001 (4 * k + l), 2), unitKey 0x240001 k ≠ p.1 := fun p hp => by
    obtain ⟨l, hl, rfl⟩ := List.mem_map.mp hp
    have := List.mem_range.mp hl
    unfold unitKey
    omega
  unfold lanesOff
  split
  · exact emptied_leaves d k st
  · rw [Dev.link_congr (Dev.wrs_ser ..), Dev.wrs_hub, Dev.rd_wrs_other _ _ _ hother]
    exact emptied_leaves d k st

/-- A link that leaves UP or a training step holds nothing; its state is the one given. -/
theorem dropLink_leaves (hk : k < 12) (st : Nat) : (d.dropLink k st).rd (unitKey 0x240001 k) = st ∧
    ((d.dropLink k st).link k).held = [] ∧ ((d.dropLink k st).link k).bulk = none ∧
    (d.dropLink k st).hub.units = d.hub.units := by
  rw [dropLink_eq]
  split
  · obtain ⟨hser, hunits, hrd⟩ := spineLinkLost_leaves (lanesOff d k st) k
    rw [Dev.link_congr hser, hrd _ (by unfold unitKey; omega) (by unfold unitKey; omega), hunits]
    exact lanesOff_leaves hk st
  · exact lanesOff_leaves hk st

/-! ### Retirement of a link -/

theorem reroute_units (d : Dev) (k : Nat) : (d.reroute k).hub.units.retired = d.hub.units.retired := by
  unfold Dev.reroute
  split
  · rfl
  · rw [Dev.flag_hub]
    have hroutes : ∀ (l : List Nat) (e : Dev), (l.foldl (fun e c => e.wr (0x24F001 + c) (d.routeFor c)) e).hub = e.hub := fun l => by
      induction l with
      | nil => exact fun _ => rfl
      | cons c l ih => exact fun e => ih _
    exact congrArg (·.units.retired) (hroutes _ d)

theorem retireUnit_link (hk : k < 12) (row : Nat) : (d.retireUnit (.link k) row).isRetired (.link k) = true := by
  cases hret : d.isRetired (.link k) with
  | true => rwa [Dev.retireUnit_of_retired row hret]
  | false =>
    have hop : d.retireUnit (.link k) row = (((d.recordRetired (.link k) row).retireEffect (.link k))).refreshUnits := by
      unfold Dev.retireUnit
      exact if_neg (by simp [hret])
    obtain ⟨-, -, -, hunits⟩ := dropLink_leaves (d := d.recordRetired (.link k) row) hk 5
    rw [hop, Dev.isRetired_iff_mem, Dev.refreshUnits_hub, Dev.retireEffect, reroute_units, Dev.flag_hub, hunits,
      Dev.recordRetired_retired]
    exact List.mem_append_right _ List.mem_cons_self

/-! ### A step that fails -/

/-- The device with a training step of a link failed. -/
def stepFailed (d : Dev) (k : Nat) : Dev :=
  let d1 := (d.wr (unitKey 0x240001 k) 1).flag (unitKey 0x24000A k) 4
  d1.setLink k { d1.link k with
    trainFails := (d.link k).trainFails + 1
    ready := false }

theorem stepFailed_leaves (d : Dev) (k : Nat) : (stepFailed d k).rd (unitKey 0x240001 k) = 1 ∧
    ((stepFailed d k).link k).trainFails = (d.link k).trainFails + 1 ∧ (stepFailed d k).bit (unitKey 0x24000A k) 4 = true ∧
    (stepFailed d k).hub = d.hub := by
  unfold stepFailed
  dsimp only
  rw [Dev.link_setLink_self, Dev.bit, Dev.rd_setLink, Dev.rd_setLink, if_neg (by unfold unitKey; omega), if_neg (by unfold unitKey; omega),
    Dev.rd_flag_other _ _ _ _ (by unfold unitKey; omega), Dev.rd_wr_self]
  exact ⟨rfl, rfl, Dev.bit_flag_self .., Dev.flag_hub ..⟩

theorem trainFailed_cases (d : Dev) (k : Nat) : d.trainFailed k =
    if 3 ≤ (d.link k).trainFails + 1 then (stepFailed d k).retireUnit (.link k) 6 else stepFailed d k := rfl

/-- The device with the errors of VERIFY noted on the lanes. -/
def errsNoted (d : Dev) (k : Nat) (errs : List Nat) : Dev :=
  d.wrs ((errs.take 4).zipIdx.map fun p => (unitKey 0x24100D (4 * k + p.2), min p.1 0xFFFFFFFF))

theorem errsNoted_leaves (d : Dev) (k : Nat) (errs : List Nat) : (errsNoted d k errs).ser = d.ser ∧ (errsNoted d k errs).hub = d.hub :=
  ⟨Dev.wrs_ser .., Dev.wrs_hub ..⟩

/-- A link that has passed VERIFY. -/
def verified (d : Dev) (k : Nat) : Dev :=
  let d2 := d.wr (unitKey 0x240001 k) 4
  (d2.setLink k { d2.link k with
    trainFails := 0
    retrained := false
    rxExpect := 0
    rxAny := false
    nakRun := false
    nakOut := none
    txSeq := 0
    held := []
    waiting := []
    bulk := none
    phase := Config.slotPhase k % 132
    cells := 0
    aligns := 0
    refreshes := 0 }).refreshUnits

theorem verifyCompleteOp_cases {errs : List Nat} (hst : d.rd (unitKey 0x240001 k) = 3) : verifyCompleteOp k errs d =
    if (errs.take 4).all (· ≤ 4) then verified (errsNoted d k errs) k
    else if (d.link k).retrained then (errsNoted d k errs).retireUnit (.link k) 6 else (errsNoted d k errs).trainFailed k :=
  if_pos hst

theorem verifyCompleteOp_fails {errs : List Nat} (hst : d.rd (unitKey 0x240001 k) = 3) (hbad : ∃ e ∈ errs.take 4, 4 < e) :
    verifyCompleteOp k errs d =
      if (d.link k).retrained then (errsNoted d k errs).retireUnit (.link k) 6 else (errsNoted d k errs).trainFailed k := by
  obtain ⟨e, he, hmany⟩ := hbad
  refine (verifyCompleteOp_cases hst).trans (if_neg fun hall => ?_)
  have := List.all_eq_true.mp hall e he
  simp only [decide_eq_true_eq] at this
  omega

theorem verified_leaves (d : Dev) (k : Nat) : (verified d k).rd (unitKey 0x240001 k) = 4 ∧ ((verified d k).link k).trainFails = 0 ∧
    ((verified d k).link k).retrained = false ∧ ((verified d k).link k).rxExpect = 0 ∧ ((verified d k).link k).txSeq = 0 ∧
    ((verified d k).link k).held = [] := by
  unfold verified
  dsimp only
  rw [Dev.link_congr (Dev.refreshUnits_ser ..), Dev.link_setLink_self, Dev.rd_refreshUnits _ _ (by unfold unitKey; omega),
    Dev.rd_setLink, if_neg (by unfold unitKey; omega), Dev.rd_wr_self]
  exact ⟨rfl, rfl, rfl, rfl, rfl, rfl⟩

theorem setLanes_leaves (n : Nat → Nat) (f : Dev → Nat → Lane) (ls : List Nat) (e : Dev) :
    (ls.foldl (fun e l => e.setLane (n l) (f e l)) e).objs = e.objs ∧
    ∀ k, (ls.foldl (fun e l => e.setLane (n l) (f e l)) e).link k = e.link k := by
  induction ls generalizing e with
  | nil => exact ⟨rfl, fun _ => rfl⟩
  | cons l ls ih =>
    obtain ⟨hobjs, hlink⟩ := ih (e.setLane (n l) (f e l))
    exact ⟨hobjs, hlink⟩

/-- A link that retrains is in TRAINING, with its flag. -/
theorem retrainLink_leaves (hk : k < 12) (hup : d.rd (unitKey 0x240001 k) = 4) : (d.retrainLink k).rd (unitKey 0x240001 k) = 1 ∧
    ((d.retrainLink k).link k).retrained = true ∧ (d.retrainLink k).bit (unitKey 0x24000A k) 3 = true := by
  obtain ⟨hst, -, -, -⟩ := dropLink_leaves (d := d) hk 1
  refine ⟨(Dev.rd_retrainLink_state hup).trans hst, ?_⟩
  rw [Dev.retrainLink_of_up hup]
  dsimp only
  rw [Dev.link_congr (Dev.refreshUnits_ser ..), Dev.bit, Dev.rd_refreshUnits _ _ (by unfold unitKey; omega)]
  generalize ((d.dropLink k 1).wrs ((List.range 4).map fun l => (unitKey 0x241001 (4 * k + l), 0))) = e
  generalize hl : ({ (e.flag (unitKey 0x24000A k) 3).link k with
    retrained := true
    ready := false } : Link) = l
  have hretr : l.retrained = true := by rw [← hl]
  obtain ⟨hobjs, hlink⟩ := setLanes_leaves (4 * k + ·) (fun e l => { e.lane (4 * k + l) with restores := [] }) (List.range 4)
    ((e.flag (unitKey 0x24000A k) 3).setLink k l)
  rw [hlink, Dev.link_setLink_self, Dev.rd_congr hobjs, Dev.rd_setLink, if_neg (by unfold unitKey; omega)]
  exact ⟨hretr, Dev.bit_flag_self ..⟩

end

section
variable (s : State) (k : Nat)
theorem exec_peerSignal (b : Bool) : exec (.peerSignal k b) s = .next (s.onNow (peerSignalOp k b)) := rfl
theorem exec_train (c : CellHdr) (a b p : Nat) (r : Bool) : exec (.train c a b p r) s = .next (s.onNow (trainOp c a b p r)) := rfl
theorem exec_trainingComplete : exec (.trainingComplete k) s = .next (s.onNow (trainingCompleteOp k)) := rfl
theorem exec_align (o : List Nat) (i : List Bool) (n : Nat) (g : Bool) :
    exec (.align k o i n g) s = .next (s.onNow (alignOp k o i n g)) := rfl
theorem exec_lockComplete (n : Nat) : exec (.lockComplete k n) s = .next (s.onNow (lockCompleteOp k n)) := rfl
theorem exec_verifyComplete (l : List Nat) : exec (.verifyComplete k l) s = .next (s.onNow (verifyCompleteOp k l)) := rfl
theorem exec_trainFail : exec (.trainFail k) s = .next (s.onNow (trainFailOp k)) := rfl
theorem exec_retrain : exec (.retrain k) s = .next (s.onNow (·.retrainLink k)) := rfl

/-- Each way in which a step fails is a failed step of a device that differs from the present one in lane errors at most. -/
theorem exec_stepFails {i : Instr} {st : Nat} (hst : s.now.rd (unitKey 0x240001 k) = st)
    (hi : (∃ errs : List Nat, i = .verifyComplete k errs ∧ (∃ e ∈ errs.take 4, 4 < e) ∧ st = 3 ∧ (s.now.link k).retrained = false) ∨
      (i = .trainFail k ∧ (st = 1 ∨ st = 2 ∨ st = 3)) ∨ (∃ skew : Nat, i = .lockComplete k skew ∧ 264 < skew ∧ st = 2)) :
    ∃ e : Dev, exec i s = .next { s with now := e.trainFailed k } ∧ e.ser = s.now.ser ∧ e.hub = s.now.hub ∧ e.ddr = s.now.ddr := by
  subst hst
  rcases hi with ⟨errs, rfl, hbad, hst, hfirst⟩ | ⟨rfl, hst⟩ | ⟨skew, rfl, hskew, hst⟩
  · obtain ⟨hser, hhub⟩ := errsNoted_leaves s.now k errs
    have hop : verifyCompleteOp k errs s.now = (errsNoted s.now k errs).trainFailed k :=
      (verifyCompleteOp_fails hst hbad).trans (if_neg (by simp [hfirst]))
    exact ⟨errsNoted s.now k errs, by rw [exec_verifyComplete, State.onNow, hop], hser, hhub, Dev.wrs_ddr ..⟩
  · have hop : trainFailOp k s.now = s.now.trainFailed k := if_pos hst
    exact ⟨s.now, by rw [exec_trainFail, State.onNow, hop], rfl, rfl, rfl⟩
  · have hop : lockCompleteOp k skew s.now = s.now.trainFailed k := (if_pos hst).trans (if_neg (Nat.not_le.mpr hskew))
    exact ⟨s.now, by rw [exec_lockComplete, State.onNow, hop], rfl, rfl, rfl⟩

end

/-- Settles O57: below twelve the objects of the links are apart from all that a lost spine path and a retirement write, so a
link's state is the last one that its own step gave it. -/
theorem linkTraining : Obligations.LinkTraining := by
  unfold Obligations.LinkTraining
  intro s k st hk hst
  refine ⟨fun h0 hen => ?appears, fun h5 => ?gone, fun c id chip peer ready hc hgood h1 => ?train, fun h1 hready => ?trained,
    fun order inv skew h24 => ?align, fun skew hskew h2 => ?locked, fun errs hfew h3 => ?verified,
    fun i hi => ⟨fun hfew => ?again, fun hmany => ?third⟩, fun errs hbad h3 hretrained => ?retired, fun h4 => ?retrain⟩
  case appears =>
    have hddr : (peerSignalOp k true s.now).ddr = s.now.ddr := by simp
    have hop : peerSignalOp k true s.now = ((s.now.wr (unitKey 0x240001 k) 1).wrs
        ((List.range 4).map fun l => (unitKey 0x241001 (4 * k + l), 0))).refreshUnits := by
      unfold peerSignalOp
      rw [hst, if_neg (by omega), if_pos rfl, if_pos ⟨h0, hen⟩]
    refine ⟨s.onNow (peerSignalOp k true), exec_peerSignal s k true, ?_⟩
    simp only [State.onNow, hop] at hddr ⊢
    refine ⟨?_, (Dev.refreshUnits_ser ..).trans (Dev.wrs_ser ..), hddr⟩
    rw [Dev.rd_refreshUnits _ _ (by unfold unitKey; omega), Dev.rd_wrs_other _ _ _ ?_, Dev.rd_wr_self]
    intro p hp
    obtain ⟨l, hl, rfl⟩ := List.mem_map.mp hp
    unfold unitKey
    have := List.mem_range.mp hl
    omega
  case gone =>
    have hddr : (peerSignalOp k false s.now).ddr = s.now.ddr := by simp
    have hop : peerSignalOp k false s.now = (s.now.dropLink k 0).refreshUnits := by
      unfold peerSignalOp
      rw [hst, if_neg h5, if_neg Bool.false_ne_true]
    obtain ⟨hst', hheld, hbulk, -⟩ := dropLink_leaves (d := s.now) hk 0
    refine ⟨s.onNow (peerSignalOp k false), exec_peerSignal s k false, ?_⟩
    simp only [State.onNow, hop] at hddr ⊢
    rw [Dev.link_congr (Dev.refreshUnits_ser ..), Dev.rd_refreshUnits _ _ (by unfold unitKey; omega)]
    exact ⟨hst', hheld, hbulk, hddr⟩
  case train =>
    subst hc
    have hddr : (trainOp c id chip peer ready s.now).ddr = s.now.ddr := by simp
    have hop : trainOp c id chip peer ready s.now = (s.now.wrs [(unitKey 0x240003 c.link, chip % 64 + 64 * (peer % 16)),
        (unitKey 0x240004 c.link, id % 2 ^ 32)]).setLink c.link { s.now.link c.link with ready := ready } := by
      unfold trainOp
      rw [if_pos (hst.trans h1), if_pos hgood]
    refine ⟨s.onNow (trainOp c id chip peer ready), exec_train s c id chip peer ready, ?_⟩
    simp only [State.onNow, hop] at hddr ⊢
    refine ⟨by rw [Dev.link_setLink_self], ?_, ?_, (Dev.setLink_hub ..).trans (Dev.wrs_hub ..), hddr⟩
    · rw [Dev.rd_setLink, if_neg (by unfold unitKey; omega)]
      exact Dev.rd_wrs_of_mem _ (by simp) (by simp [unitKey])
    · rw [Dev.rd_setLink, if_neg (by unfold unitKey; omega)]
      exact Dev.rd_wrs_of_mem _ (by simp) (by simp [unitKey])
  case trained => exact does_of_onNow (exec_trainingComplete s k) (if_pos ⟨hst.trans h1, hready⟩)
  case align =>
    have hop : alignOp k order inv skew true s.now = s.now.wrs
        [(unitKey 0x240005 k, (order.take 4).zipIdx.foldl (fun n p => n + (p.1 % 4) * 4 ^ p.2) 0),
        (unitKey 0x240006 k, (inv.take 4).zipIdx.foldl (fun n p => n + (if p.1 then 2 ^ p.2 else 0)) 0),
        (unitKey 0x240007 k, min skew 264)] := by
      unfold alignOp
      rw [hst]
      exact if_pos h24
    refine ⟨s.onNow (alignOp k order inv skew true), exec_align s k order inv skew true, ?_⟩
    simp only [State.onNow, hop]
    exact ⟨Dev.rd_wrs_of_mem _ (by simp) (by simp [unitKey]), Dev.rd_wrs_of_mem _ (by simp) (by simp [unitKey]), Dev.wrs_ser ..,
      Dev.wrs_hub .., Dev.wrs_ddr ..⟩
  case locked =>
    have hop : lockCompleteOp k skew s.now = s.now.wrs [(unitKey 0x240001 k, 3), (unitKey 0x240007 k, skew)] :=
      (if_pos (hst.trans h2)).trans (if_pos hskew)
    refine ⟨s.onNow (lockCompleteOp k skew), exec_lockComplete s k skew, ?_⟩
    simp only [State.onNow, hop]
    exact ⟨Dev.rd_wrs_of_mem _ (by simp) (by simp [unitKey]), Dev.rd_wrs_of_mem _ (by simp) (by simp [unitKey]), Dev.wrs_ser ..,
      Dev.wrs_hub .., Dev.wrs_ddr ..⟩
  case verified =>
    have hddr : (verifyCompleteOp k errs s.now).ddr = s.now.ddr := by simp
    have hop : verifyCompleteOp k errs s.now = verified (errsNoted s.now k errs) k :=
      (verifyCompleteOp_cases (hst.trans h3)).trans (if_pos (List.all_eq_true.mpr fun e he => decide_eq_true (hfew e he)))
    obtain ⟨hup, hfails, hretr, hexp, hseq, hheld⟩ := verified_leaves (errsNoted s.now k errs) k
    refine ⟨s.onNow (verifyCompleteOp k errs), exec_verifyComplete s k errs, ?_⟩
    simp only [State.onNow, hop] at hddr ⊢
    exact ⟨hup, hfails, hretr, hexp, hseq, hheld, hddr⟩
  case again =>
    obtain ⟨e, hexec, hser, hhub, hddr⟩ := exec_stepFails s k hst hi
    rw [← Dev.link_congr hser] at hfew ⊢
    have hop : e.trainFailed k = stepFailed e k := (trainFailed_cases e k).trans (if_neg (by omega))
    have hddr' : (e.trainFailed k).ddr = e.ddr := by simp
    obtain ⟨h1, hcount, hflag, hhub'⟩ := stepFailed_leaves e k
    refine ⟨_, hexec, ?_⟩
    rw [hop] at hddr' ⊢
    exact ⟨h1, hcount, hflag, hhub'.trans hhub, hddr'.trans hddr⟩
  case third =>
    obtain ⟨e, hexec, hser, -, hddr⟩ := exec_stepFails s k hst hi
    rw [← Dev.link_congr hser] at hmany
    have hop : e.trainFailed k = (stepFailed e k).retireUnit (.link k) 6 := (trainFailed_cases e k).trans (if_pos (by omega))
    have hddr' : (e.trainFailed k).ddr = e.ddr := by simp
    refine ⟨_, hexec, ?_⟩
    rw [hop] at hddr' ⊢
    exact ⟨retireUnit_link hk 6, hddr'.trans hddr⟩
  case retired =>
    have hddr : (verifyCompleteOp k errs s.now).ddr = s.now.ddr := by simp
    have hop := (verifyCompleteOp_fails (hst.trans h3) hbad).trans (if_pos hretrained)
    refine ⟨s.onNow (verifyCompleteOp k errs), exec_verifyComplete s k errs, ?_⟩
    simp only [State.onNow, hop] at hddr ⊢
    exact ⟨retireUnit_link hk 6, hddr⟩
  case retrain =>
    obtain ⟨hst', hretr, hflag⟩ := retrainLink_leaves hk (hst.trans h4)
    exact ⟨s.onNow (·.retrainLink k), exec_retrain s k, hst', hretr, hflag, Dev.retrainLink_ddr ..⟩

end Sys2Proof.Machine
end

section
/-! RESET_N, boot, PRIMING, sleep, wake and the thermal trip (R679 to R696, R699). -/

namespace Sys2Proof.Machine

section
variable {d e : Dev}

/-! ### Operations that write objects alone -/

/-- The devices differ in their objects at most. -/
def OnlyObjs (d e : Dev) : Prop := e = { d with objs := e.objs }

theorem OnlyObjs.refl (d : Dev) : OnlyObjs d d := rfl

theorem OnlyObjs.trans {c : Dev} (h : OnlyObjs d e) (h' : OnlyObjs c d) : OnlyObjs c e := by
  unfold OnlyObjs at *
  rw [h, h']

theorem onlyObjs_wr (d : Dev) (key v : Nat) : OnlyObjs d (d.wr key v) := rfl

theorem onlyObjs_wrs (d : Dev) (l : List (Nat × Nat)) : OnlyObjs d (d.wrs l) := by
  unfold Dev.wrs
  induction l generalizing d with
  | nil => rfl
  | cons p l ih => exact (ih _).trans (onlyObjs_wr d p.1 p.2)

theorem OnlyObjs.foldl {α : Type} (f : Dev → α → Dev) (hf : ∀ e a, OnlyObjs e (f e a)) (l : List α) (d : Dev) :
    OnlyObjs d (l.foldl f d) := by
  induction l generalizing d with
  | nil => exact .refl d
  | cons a l ih => exact (ih _).trans (hf d a)

theorem onlyObjs_setRails (d : Dev) (p : Nat → Bool) (v : Nat) : OnlyObjs d (d.setRails p v) :=
  OnlyObjs.foldl _ (fun _ _ => onlyObjs_wr _ _ _) _ d

theorem onlyObjs_refreshUnits (d : Dev) : OnlyObjs d d.refreshUnits := onlyObjs_wrs d _

theorem onlyObjs_portEnabled (d : Dev) (port : Nat) (on : Bool) : OnlyObjs d (d.portEnabled port on) := by
  unfold Dev.portEnabled
  dsimp only
  split
  · exact .refl d
  · exact (onlyObjs_refreshUnits _).trans ((onlyObjs_wrs _ _).trans (onlyObjs_wr _ _ _))

theorem onlyObjs_clockSource (d : Dev) (a b : Bool) : OnlyObjs d (d.clockSource a b) := rfl

theorem rd_setRails (d : Dev) (p : Nat → Bool) (v : Nat) {key : Nat} (hkey : ∀ r, r < 32 → key ≠ unitKey 0x7C1004 r) :
    (d.setRails p v).rd key = d.rd key :=
  foldl_leaves (f := (·.rd key)) _ _ fun _ r hr =>
    Dev.rd_wr_other _ _ _ _ (hkey r (List.mem_range.mp (List.mem_filter.mp hr).1))

/-! ### Records, states and replies -/

theorem bbWrite_keeps (d : Dev) (btype ukind uidx cause job shot : Nat) (payload : List Byte) :
    (d.bbWrite btype ukind uidx cause job shot payload).pwr = d.pwr ∧
    (d.bbWrite btype ukind uidx cause job shot payload).qop = d.qop := by
  have hnote : ∀ e : Dev, ∀ n, (e.noteStamp n).pwr = e.pwr ∧ (e.noteStamp n).qop = e.qop := fun e n => by
    unfold Dev.noteStamp
    split <;> simp
  unfold Dev.bbWrite
  dsimp only
  rw [Dev.trace_pwr, Dev.trace_qop, (hnote _ _).1, (hnote _ _).2]
  split_ifs <;> simp [Dev.bbObjects]

theorem trace_afterWake (d : Dev) (src data : Nat) : (d.trace src data).agg.afterWake = d.agg.afterWake := by
  unfold Dev.trace
  split
  · split
    · split_ifs <;> rfl
    · rfl
  · rfl

theorem setState_afterWake (d : Dev) (st : DState) (cause : Nat) : (d.setState st cause).agg.afterWake = d.agg.afterWake := by
  unfold Dev.setState
  split
  · rfl
  · dsimp only
    rw [Dev.produce_agg, trace_afterWake]
    exact congrArg Agg.afterWake (Dev.wrs_agg ..)

/-- Replies that leave change the QOP records alone. -/
theorem releaseReplies_leaves (d : Dev) : d.releaseReplies.objs = d.objs ∧ d.releaseReplies.state = d.state ∧
    d.releaseReplies.pwr = d.pwr := by
  unfold Dev.releaseReplies
  exact ⟨foldl_leaves (f := (·.objs)) _ _ fun _ _ _ => Dev.finishReply_objs .., foldl_leaves (f := (·.state)) _ _ fun _ _ _ =>
    Dev.finishReply_state .., foldl_leaves (f := (·.pwr)) _ _ fun _ _ _ => Dev.finishReply_pwr ..⟩

theorem releaseReset_leaves (d : Dev) : d.releaseReset.objs = d.objs ∧ d.releaseReset.state = d.state ∧
    d.releaseReset.pwr = d.pwr := by
  unfold Dev.releaseReset
  exact ⟨foldl_leaves (f := (·.objs)) _ _ fun _ _ _ => Dev.sendReply_objs .., foldl_leaves (f := (·.state)) _ _ fun _ _ _ =>
    Dev.sendReply_state .., foldl_leaves (f := (·.pwr)) _ _ fun _ _ _ => Dev.sendReply_pwr ..⟩

theorem enterFaulted_pwr (d : Dev) : d.enterFaulted.pwr = d.pwr := by
  unfold Dev.enterFaulted
  split
  · rfl
  · rw [(bbWrite_keeps ..).1, Dev.setState_pwr]

theorem enterPriming_leaves (d : Dev) (cause : Nat) : (d.enterPriming cause).state = .priming ∧
    (d.enterPriming cause).eas = d.eas ∧ (d.enterPriming cause).qop = d.qop ∧ (d.enterPriming cause).pwr = { d.pwr with steps := [] } ∧
    ∀ key, key ≠ 0x100102 ∧ key ≠ 0x100103 ∧ key ≠ 0x100104 ∧ key ≠ 0x7C0003 → (d.enterPriming cause).rd key = d.rd key := by
  have hst := setState_state d .priming cause
  have heas := Dev.setState_eas d .priming cause
  have hqop := Dev.setState_qop d .priming cause
  have hpwr := Dev.setState_pwr d .priming cause
  have hrd : ∀ key, key ≠ 0x100102 ∧ key ≠ 0x100103 ∧ key ≠ 0x100104 → (d.setState .priming cause).rd key = d.rd key :=
    fun _ hkey => rd_setState d .priming cause hkey
  unfold Dev.enterPriming
  generalize d.setState .priming cause = e at *
  dsimp only
  refine ⟨?_, ?_, ?_, ?_, fun key hkey => ?_⟩
  · rw [Dev.wr_state, hst]
  · rw [Dev.wr_eas, heas]
  · rw [Dev.wr_qop, hqop]
  · rw [Dev.wr_pwr, hpwr]
  · obtain ⟨h2, h3, h4, hstep⟩ := hkey
    have hpwr : ∀ (c : Dev) (p : Pwr), ({ c with pwr := p } : Dev).rd key = c.rd key := fun _ _ => rfl
    refine (hpwr (e.wr 0x7C0003 0) _).trans ?_
    rw [Dev.rd_wr_other e _ _ _ hstep, hrd key ⟨h2, h3, h4⟩]

theorem resetRecord_leaves (d : Dev) (kind : Nat) : (d.resetRecord kind).state = d.state ∧ (d.resetRecord kind).eas = d.eas ∧
    (d.resetRecord kind).qop = d.qop ∧ (d.resetRecord kind).pwr = d.pwr ∧ (d.resetRecord kind).rd 0x100106 = kind ∧
    ∀ key, key ≠ 0x100106 → key ≠ 0x782001 ∧ key ≠ 0x782002 ∧ key ≠ 0x782003 ∧ key ≠ 0x782007 ∧ key ≠ 0x203003 →
      (d.resetRecord kind).rd key = d.rd key := by
  unfold Dev.resetRecord
  obtain ⟨hpwr, hqop⟩ := bbWrite_keeps (d.wr 0x100106 kind) 6 0 0 0 0 0 (le 1 kind)
  obtain ⟨-, -, heas⟩ := bbWrite_leaves (d.wr 0x100106 kind) 6 0 0 0 0 0 (le 1 kind)
  refine ⟨bbWrite_state .., heas, hqop, hpwr, ?_, fun key hkey hrec => ?_⟩
  · rw [rd_bbWrite_other _ _ _ _ _ _ _ _ (by decide), Dev.rd_wr_self]
  · rw [rd_bbWrite_other _ _ _ _ _ _ _ _ hrec, Dev.rd_wr_other _ _ _ _ hkey]

/-! ### Resets -/

theorem wiped_rd (d : Dev) {key : Nat} (hkey : storedKey key = false) : d.wiped.rd key = resetOf key := by
  have hne : key ≠ 0x101003 := fun h => by rw [h] at hkey; exact absurd hkey (by decide)
  refine (Dev.rd_wr_other _ _ _ _ hne).trans ?_
  exact tabGet_filter_out (resetOf key) d.objs key storedKey hkey

theorem wiped_boots (d : Dev) : d.wiped.rd 0x100105 = d.rd 0x100105 :=
  (Dev.rd_wr_other _ _ _ _ (by decide)).trans (tabGet_filter _ d.objs 0x100105 storedKey (by decide))

theorem powerOn_leaves (d : Dev) : d.powerOn.rd 0x100105 = (d.rd 0x100105 + 1) % 2 ^ 32 ∧
    ∀ key, storedKey key = false → d.powerOn.rd key = resetOf key := by
  refine ⟨?_, fun key hkey => ?_⟩
  · have hrd : d.powerOn.rd 0x100105 = (d.wiped.rd 0x100105 + 1) % 2 ^ 32 := Dev.rd_wr_self ..
    rw [hrd, wiped_boots]
  · have hne : key ≠ 0x100105 := fun h => by rw [h] at hkey; exact absurd hkey (by decide)
    exact (Dev.rd_wr_other _ _ _ _ hne).trans (wiped_rd d hkey)

theorem resetNOp_running (hup : d.pwr.up = true ∨ d.pwr.powered = false) :
    resetNOp false d = { d.powerOn with pwr := { d.powerOn.pwr with up := true } } := by
  have hrun : (d.pwr.up || !d.pwr.powered) = true := by rcases hup with h | h <;> simp [h]
  unfold resetNOp
  rw [hrun]
  rfl

theorem resetNOp_rising (hup : d.pwr.up = false) (hpow : d.pwr.powered = true) :
    resetNOp false d = { d with pwr := { d.pwr with up := true } } := by
  have hrun : (d.pwr.up || !d.pwr.powered) = false := by rw [hup, hpow]; rfl
  unfold resetNOp
  rw [hrun]
  rfl

/-- The default addresses and key of R685 on a device. -/
def defaulted (d : Dev) : Dev :=
  let d3 := d.wrs [(0x180010, 0), (0x180011, 0xFF), (0x180012, 0xFF), (0x180013, 0xFF)]
  let d4 := d3.setIdent 0 { d3.ident 0 with key := Config.factoryKey }
  { d4 with qop := { d4.qop with cfgDefault := true } }

theorem resetNOp_defaults (d : Dev) : ∃ e, resetNOp true d = defaulted e := by
  unfold resetNOp
  rw [if_pos rfl]
  exact ⟨_, rfl⟩

theorem defaulted_leaves (d : Dev) : (defaulted d).rd 0x180010 = 0 ∧ (defaulted d).rd 0x180011 = 0xFF ∧
    (defaulted d).rd 0x180012 = 0xFF ∧ (defaulted d).rd 0x180013 = 0xFF ∧ ((defaulted d).ident 0).key = Config.factoryKey ∧
    (defaulted d).qop.cfgDefault = true := by
  have hrd : ∀ key, (defaulted d).rd key = (d.wrs [(0x180010, 0), (0x180011, 0xFF), (0x180012, 0xFF), (0x180013, 0xFF)]).rd key :=
    fun _ => rfl
  refine ⟨?_, ?_, ?_, ?_, ?_, rfl⟩
  · rw [hrd]
    exact Dev.rd_wrs_of_mem d (by simp) (by simp)
  · rw [hrd]
    exact Dev.rd_wrs_of_mem d (by simp) (by simp)
  · rw [hrd]
    exact Dev.rd_wrs_of_mem d (by simp) (by simp)
  · rw [hrd]
    exact Dev.rd_wrs_of_mem d (by simp) (by simp)
  · exact congrArg Ident.key (tabGet_set_self ..)

/-- A WARM reset ends in PRIMING with the micro-state and the draft gone. -/
theorem warmReset_leaves (d : Dev) (cause : Nat) : (d.warmReset cause).state = .priming ∧ (d.warmReset cause).eas.threads = [] ∧
    (d.warmReset cause).qop.draft = [] := by
  have hend : ∀ e : Dev, e.eas.threads = [] → e.qop.draft = [] →
      (((e.setState .cold cause).resetRecord 1).enterPriming cause).state = .priming ∧
      (((e.setState .cold cause).resetRecord 1).enterPriming cause).eas.threads = [] ∧
      (((e.setState .cold cause).resetRecord 1).enterPriming cause).qop.draft = [] := fun e heas hqop => by
    obtain ⟨hst, heas', hqop', -, -⟩ := enterPriming_leaves ((e.setState .cold cause).resetRecord 1) cause
    obtain ⟨-, heas2, hqop2, -, -, -⟩ := resetRecord_leaves (e.setState .cold cause) 1
    refine ⟨hst, ?_, ?_⟩
    · rw [heas', heas2, Dev.setState_eas, heas]
    · rw [hqop', hqop2, Dev.setState_qop, hqop]
  unfold Dev.warmReset
  dsimp only
  refine hend _ ?_ ?_
  · rw [Dev.wrs_eas]
  · rw [Dev.wrs_qop]

/-! ### Boot and PRIMING -/

/-- A device whose firmware has started, before its replies leave. -/
def booted (d : Dev) (fallback : Bool) : Dev :=
  let d1 : Dev := { d with pwr := { d.pwr with booted := true } }
  let d2 := (d1.wrs [(0x281001, 3), (0x283001, 0)]).setRails (fun r => !d.pwr.upFail || r == 28 || r == 29 || r == 31) 7
  (if fallback then d2.flag 0x7C0001 4 else d2).resetRecord 0

theorem bootCompleteOp_boots {fallback : Bool} (hpow : d.pwr.powered = true) (hup : d.pwr.up = true) (hboot : d.pwr.booted = false) :
    bootCompleteOp fallback d =
      let d3 := (booted d fallback).releaseReset
      if d3.rdB 0x7C0002 && !d3.pwr.upFail then d3.enterPriming 0 else d3 := by
  unfold bootCompleteOp
  rw [hpow, hup, hboot]
  rfl

theorem booted_leaves (d : Dev) (fallback : Bool) : (booted d fallback).pwr = { d.pwr with booted := true } ∧
    (booted d fallback).state = d.state ∧ (booted d fallback).rd 0x281001 = 3 ∧ (booted d fallback).rd 0x100106 = 0 ∧
    (booted d fallback).rd 0x7C0002 = d.rd 0x7C0002 := by
  unfold booted
  dsimp only
  generalize hd2 : Dev.setRails _ _ 7 = d2
  have hfields : d2.pwr = { d.pwr with booted := true } ∧ d2.state = d.state ∧ d2.rd 0x281001 = 3 ∧ d2.rd 0x7C0002 = d.rd 0x7C0002 := by
    have honly := (onlyObjs_setRails (({ d with pwr := { d.pwr with booted := true } } : Dev).wrs [(0x281001, 3), (0x283001, 0)])
      (fun r => !d.pwr.upFail || r == 28 || r == 29 || r == 31) 7).trans (onlyObjs_wrs _ _)
    rw [hd2] at honly
    refine ⟨by rw [honly], by rw [honly], ?_, ?_⟩
    · rw [← hd2, rd_setRails _ _ _ fun r hr => by unfold unitKey; omega]
      exact Dev.rd_wrs_of_mem _ (by simp) (by simp)
    · rw [← hd2, rd_setRails _ _ _ fun r hr => by unfold unitKey; omega]
      exact Dev.rd_wrs_other _ _ _ (by simp)
  clear hd2
  obtain ⟨hpwr, hst, h28, h7c⟩ := hfields
  have hflag : ∀ e : Dev, e = (if fallback then d2.flag 0x7C0001 4 else d2) → e.pwr = d2.pwr ∧ e.state = d2.state ∧
      e.rd 0x281001 = d2.rd 0x281001 ∧ e.rd 0x7C0002 = d2.rd 0x7C0002 := fun e he => by
    rw [he]
    split
    · exact ⟨Dev.flag_pwr .., Dev.flag_state .., Dev.rd_flag_other _ _ _ _ (by decide), Dev.rd_flag_other _ _ _ _ (by decide)⟩
    · exact ⟨rfl, rfl, rfl, rfl⟩
  obtain ⟨hpwr', hst', h28', h7c'⟩ := hflag _ rfl
  generalize (if fallback then d2.flag 0x7C0001 4 else d2) = e at *
  obtain ⟨hst2, -, -, hpwr2, hkind, hrd⟩ := resetRecord_leaves e 0
  exact ⟨by rw [hpwr2, hpwr', hpwr], by rw [hst2, hst', hst], by rw [hrd _ (by decide) (by decide), h28', h28], hkind,
    by rw [hrd _ (by decide) (by decide), h7c', h7c]⟩

/-- A step of PRIMING noted. -/
def stepNoted (d : Dev) (step : Nat) : Dev := { d.wr 0x7C0003 step with pwr := { d.pwr with steps := d.pwr.steps ++ [step] } }

theorem stepReady_spec {step : Nat} (h : d.stepReady step = true) : d.state = .priming ∧ step ∈ d.primeSteps := by
  unfold Dev.stepReady at h
  simp only [Bool.and_eq_true, beq_iff_eq, List.contains_iff_mem] at h
  obtain ⟨⟨⟨⟨hst, -⟩, hin⟩, -⟩, -⟩ := h
  exact ⟨hst, hin⟩

/-- What a step that has begun keeps: the steps, the object that shows it, and the state. -/
def StepKept (d e : Dev) : Prop := e.pwr = d.pwr ∧ e.rd 0x7C0003 = d.rd 0x7C0003 ∧ e.state = d.state

theorem memoryTest_kept (d : Dev) (step : Nat) : StepKept d (d.memoryTest step) := by
  have hmarched : StepKept d (d.marched step) := by
    unfold Dev.marched
    split_ifs <;> exact ⟨rfl, rfl, rfl⟩
  unfold Dev.memoryTest
  split
  · exact hmarched
  · obtain ⟨hpwr, hrd, hst⟩ := hmarched
    refine ⟨(bbWrite_keeps ..).1.trans hpwr, ?_, (bbWrite_state ..).trans hst⟩
    rw [rd_bbWrite_other _ _ _ _ _ _ _ _ (by decide), hrd]

theorem startRuns_leaves (routine ukind n : Nat) (d : Dev) :
    (d.startRuns routine ukind n).pwr = d.pwr ∧ (d.startRuns routine ukind n).state = d.state ∧
    (d.startRuns routine ukind n).eas = d.eas ∧ (d.startRuns routine ukind n).dsp = d.dsp ∧
    (d.startRuns routine ukind n).counting = d.counting ∧
    (d.startRuns routine ukind n).rd 0x7C0003 = d.rd 0x7C0003 := by
  unfold Dev.startRuns
  refine List.foldlRecOn (motive := fun e : Dev => e.pwr = d.pwr ∧ e.state = d.state ∧ e.eas = d.eas ∧ e.dsp = d.dsp ∧
    e.counting = d.counting ∧ e.rd 0x7C0003 = d.rd 0x7C0003) (List.range n) _ ⟨rfl, rfl, rfl, rfl, rfl, rfl⟩ fun e he u _ => ?_
  obtain ⟨hpwr, hst, heas, hdsp, hcount, hrd⟩ := he
  have hrun : (e.startRun routine ukind u).pwr = e.pwr ∧ (e.startRun routine ukind u).state = e.state ∧
      (e.startRun routine ukind u).eas = e.eas ∧ (e.startRun routine ukind u).dsp = e.dsp ∧
      (e.startRun routine ukind u).counting = e.counting ∧
      (e.startRun routine ukind u).rd 0x7C0003 = e.rd 0x7C0003 := by
    unfold Dev.startRun Dev.calBusy
    dsimp only
    refine ⟨?_, ?_, ?_, ?_, ?_, (Dev.rd_wr_other _ _ _ _ (by decide)).trans ?_⟩ <;> split <;> rfl
  obtain ⟨hpwr', hst', heas', hdsp', hcount', hrd'⟩ := hrun
  exact ⟨hpwr'.trans hpwr, hst'.trans hst, heas'.trans heas, hdsp'.trans hdsp, hcount'.trans hcount, hrd'.trans hrd⟩

/-! ### Host ports train -/

theorem portEnabled_state (d : Dev) (port : Nat) {h : Nat} (hh : h < 4) (hp : port < 4) :
    (d.portEnabled port true).rd (unitKey 0x280001 h) = d.rd (unitKey 0x280001 h) ∨
    (d.portEnabled port true).rd (unitKey 0x280001 h) = 1 := by
  unfold Dev.portEnabled
  dsimp only
  split
  · exact .inl rfl
  · rw [Dev.rd_refreshUnits _ _ (by unfold unitKey; omega), Dev.rd_wrs_other _ _ _ ?_]
    · rw [portKey_eq_unitKey hp, Dev.rd_wr]
      split
      · exact .inr rfl
      · exact .inl rfl
    · intro p hmem
      obtain ⟨key, hkey, rfl⟩ := List.mem_map.mp hmem
      rw [if_neg (by omega)] at hkey
      obtain ⟨l, hl, rfl⟩ := List.mem_map.mp hkey
      have := List.mem_range.mp hl
      unfold unitKey laneKey objKey
      rw [if_neg (by omega), if_pos (by omega)]
      dsimp only
      omega

/-- The host ports that are enabled and off train. -/
def portsTrained (d : Dev) : Dev :=
  (List.range 4).foldl (fun e h =>
    if e.rd (unitKey 0x280001 h) = 0 ∧ e.rdB (unitKey 0x280002 h) then e.portEnabled h true else e) d

theorem trainPorts_eq (d : Dev) : d.trainPorts =
    if (List.range 4).all fun h => (portsTrained d).rd (unitKey 0x280001 h) == 4 then (portsTrained d).enterFaulted
    else portsTrained d := rfl

theorem onlyObjs_portsTrained (d : Dev) : OnlyObjs d (portsTrained d) := by
  refine OnlyObjs.foldl _ (fun e h => ?_) _ d
  split
  · exact onlyObjs_portEnabled _ _ _
  · exact .refl e

theorem portsTrained_live {h : Nat} (hh : h < 4) (hlive : d.rd (unitKey 0x280001 h) ≠ 4) :
    (portsTrained d).rd (unitKey 0x280001 h) ≠ 4 := by
  unfold portsTrained
  refine List.foldlRecOn (motive := fun e : Dev => e.rd (unitKey 0x280001 h) ≠ 4) (List.range 4) _ hlive fun e he p hp => ?_
  split
  · rcases portEnabled_state e p hh (List.mem_range.mp hp) with h1 | h1
    · rwa [h1]
    · rw [h1]
      decide
  · exact he

theorem portsTrained_retired (hall : ∀ h, h < 4 → d.rd (unitKey 0x280001 h) = 4) : portsTrained d = d := by
  unfold portsTrained
  refine List.foldlRecOn (motive := fun e : Dev => e = d) (List.range 4) _ rfl fun e he p hp => ?_
  rw [he, if_neg]
  rw [hall p (List.mem_range.mp hp)]
  exact fun h => absurd h.1 (by decide)

/-- With a port that is not retired, training changes objects alone. -/
theorem trainPorts_live {h : Nat} (hh : h < 4) (hlive : d.rd (unitKey 0x280001 h) ≠ 4) : d.trainPorts = portsTrained d := by
  rw [trainPorts_eq]
  refine if_neg fun hall => portsTrained_live hh hlive ?_
  exact beq_iff_eq.mp (List.all_eq_true.mp hall h (List.mem_range.mpr hh))

theorem trainPorts_retired (hall : ∀ h, h < 4 → d.rd (unitKey 0x280001 h) = 4) : d.trainPorts = d.enterFaulted := by
  rw [trainPorts_eq, portsTrained_retired hall]
  exact if_pos (List.all_eq_true.mpr fun h hh => beq_iff_eq.mpr (hall h (List.mem_range.mp hh)))

theorem portsTrained_rd (d : Dev) {key : Nat} (hkey : 0x300000 ≤ key) : (portsTrained d).rd key = d.rd key := by
  unfold portsTrained
  refine List.foldlRecOn (motive := fun e : Dev => e.rd key = d.rd key) (List.range 4) _ rfl fun e he p hp => ?_
  have hp4 := List.mem_range.mp hp
  rw [← he]
  split
  · unfold Dev.portEnabled
    dsimp only
    split
    · rfl
    · rw [Dev.rd_refreshUnits _ _ (by omega), Dev.rd_wrs_other _ _ _ ?_, portKey_eq_unitKey hp4,
        Dev.rd_wr_other _ _ _ _ (by unfold unitKey; omega)]
      intro p hmem
      obtain ⟨k, hk, rfl⟩ := List.mem_map.mp hmem
      rw [if_neg (by omega)] at hk
      obtain ⟨l, hl, rfl⟩ := List.mem_map.mp hk
      have := List.mem_range.mp hl
      unfold laneKey objKey
      rw [if_neg (by omega), if_pos (by omega)]
      dsimp only
      omega
  · rfl

/-! ### The end of PRIMING, sleep and wake -/

theorem recoverJobs_leaves (d : Dev) : d.recoverJobs.rd 0x7C0004 = d.rd 0x7C0004 ∧
    d.recoverJobs.rd 0x780007 = d.rd 0x780007 + 1 ∧ d.recoverJobs.bit 0x780003 0 = true := by
  have hobjs : ∀ (js : List Job) (e : Dev), ((js.foldl (fun e (j : Job) => e.modJob j.seq fun k => { k with
      recoveries := k.recoveries + 1 }) e).requeue fun _ => true).objs = e.objs := fun js e =>
    foldl_leaves (f := (·.objs)) js e fun _ _ _ => rfl
  unfold Dev.recoverJobs
  dsimp only
  generalize (List.flatMap _ _) = payload
  generalize (List.mergeSort _ _) = js
  rw [Dev.bit, Dev.rd_congr (hobjs js _), Dev.rd_congr (hobjs js _), Dev.rd_congr (hobjs js _),
    rd_bbWrite_other _ _ _ _ _ _ _ _ (by decide), rd_bbWrite_other _ _ _ _ _ _ _ _ (by decide),
    rd_bbWrite_other _ _ _ _ _ _ _ _ (by decide), Dev.rd_flag_other _ _ _ _ (by decide), Dev.rd_flag_other _ _ _ _ (by decide),
    Dev.rd_wr_self, Dev.rd_wr_other _ _ _ _ (by decide)]
  exact ⟨rfl, rfl, Dev.bit_flag_self ..⟩

/-- The device that PRIMING leaves, before its state changes. -/
def primedWith (d : Dev) (ms : Nat) : Dev :=
  let d1 := (d.wr 0x7C0004 ms).refreshUnits
  let d2 := if d.pwr.resetKind = 0 then d1.loseHold.applyConfig else d1.recoverJobs
  { d2 with out := { d2.out with flux := d2.out.flux.map fun p => (p.1, { p.2 with ramp := none }) } }

theorem primingCompleteOp_ends {ms : Nat} (hst : d.state = .priming) (hall : ∀ x ∈ d.primeSteps, x ∈ d.pwr.steps) :
    primingCompleteOp ms d = ((primedWith d ms).setState .primed 2).releaseReplies := by
  unfold primingCompleteOp
  exact if_pos ⟨hst, List.all_eq_true.mpr fun x hx => List.contains_iff_mem.mpr (hall x hx)⟩

theorem primedWith_recovered {ms : Nat} (hkind : d.pwr.resetKind ≠ 0) : (primedWith d ms).rd 0x7C0004 = ms ∧
    (primedWith d ms).rd 0x780007 = d.rd 0x780007 + 1 ∧ (primedWith d ms).bit 0x780003 0 = true := by
  obtain ⟨hms, hcount, hflag⟩ := recoverJobs_leaves (d.wr 0x7C0004 ms).refreshUnits
  have hobjs : (primedWith d ms).objs = (d.wr 0x7C0004 ms).refreshUnits.recoverJobs.objs := by
    unfold primedWith
    dsimp only
    rw [if_neg hkind]
  rw [Dev.bit_congr hobjs, Dev.rd_congr hobjs, Dev.rd_congr hobjs, hms, hcount, Dev.rd_refreshUnits _ _ (by decide),
    Dev.rd_refreshUnits _ _ (by decide), Dev.rd_wr_self, Dev.rd_wr_other _ _ _ _ (by decide)]
  exact ⟨rfl, rfl, hflag⟩

theorem asleepEntryOp_sleeps (hsleep : d.pwr.sleeping = true) (hst : d.state = .primed) : (asleepEntryOp d).state = .asleep ∧
    (asleepEntryOp d).counting = false ∧ (asleepEntryOp d).eas.desc = [] ∧ (asleepEntryOp d).eas.store = [] ∧
    (asleepEntryOp d).dsp = [] ∧ (asleepEntryOp d).pwr.sleeping = false := by
  have hphase : ∀ e : Dev, (e.startPhase 1).state = e.state ∧ (e.startPhase 1).counting = e.counting ∧
      (e.startPhase 1).eas = e.eas ∧ (e.startPhase 1).dsp = e.dsp ∧ (e.startPhase 1).pwr = e.pwr := fun e => by
    obtain ⟨hpwr, hst, heas, hdsp, hcount, -⟩ := startRuns_leaves 1 1 32 ({ e with cal := { e.cal with phase := 1 } } : Dev)
    exact ⟨hst, hcount, heas, hdsp, hpwr⟩
  unfold asleepEntryOp
  rw [if_pos ⟨hsleep, hst⟩]
  dsimp only
  generalize hd3 : Dev.setState _ .asleep 1 = d3
  have hst3 : d3.state = .asleep := by rw [← hd3]; exact setState_state ..
  clear hd3
  split
  · generalize hd4 : ({ d3 with
      counting := _
      lat := _
      eas := _
      dsp := _
      pwr := _ } : Dev) = d4
    obtain ⟨hstate, hcount, heas, hdsp, hpwr⟩ := hphase d4
    rw [hstate, hcount, heas, hdsp, hpwr, ← hd4]
    exact ⟨hst3, rfl, rfl, rfl, rfl, rfl⟩
  · exact ⟨hst3, rfl, rfl, rfl, rfl, rfl⟩

/-- A waking device before its ports train. -/
def awake (d : Dev) (ms : Nat) : Dev :=
  let d1 := (d.setRails (fun _ => true) 7).wrBit 0x200003 1 true
  let d2 : Dev := { d1 with
    counting := true
    pwr := { d1.pwr with waking := none }
    agg := { d1.agg with afterWake := true } }
  ((if decide (d.rd 0x201003 < 12 ∨ d.rd 0x201004 < 12) then d2.enterListening else d2).setState .primed 5).wr 0x7C0005 ms

theorem wakeCompleteOp_wakes {ms : Nat} (hst : d.state = .asleep) (hwaking : d.pwr.waking ≠ none) (hphase : d.cal.phase = 0) :
    wakeCompleteOp ms d = (awake d ms).trainPorts := by
  unfold wakeCompleteOp
  exact if_pos ⟨hst, Option.isSome_iff_ne_none.mpr hwaking, hphase⟩

theorem enterListening_leaves (d : Dev) : d.enterListening.counting = d.counting ∧ d.enterListening.pwr = d.pwr ∧
    d.enterListening.agg = d.agg ∧ ∀ key, key ≠ 0x200003 ∧ key ≠ 0x201103 → d.enterListening.rd key = d.rd key := by
  unfold Dev.enterListening Dev.clockSource
  refine ⟨rfl, rfl, rfl, fun key ⟨h3, h103⟩ => ?_⟩
  have hlat : ∀ (e : Dev) (l : Lat), ({ e with lat := l } : Dev).rd key = e.rd key := fun _ _ => rfl
  refine (hlat _ _).trans ?_
  rw [Dev.rd_wr_other _ _ _ _ h103, Dev.rd_wrBit_other _ _ _ _ _ h3, Dev.rd_wrBit_other _ _ _ _ _ h3,
    Dev.rd_wrBit_other _ _ _ _ _ h3]

theorem awake_leaves (d : Dev) (ms : Nat) : (awake d ms).state = .primed ∧ (awake d ms).counting = true ∧
    (awake d ms).rd 0x7C0005 = ms ∧ (awake d ms).pwr.waking = none ∧ (awake d ms).agg.afterWake = true ∧
    ∀ h, h < 4 → (awake d ms).rd (unitKey 0x280001 h) = d.rd (unitKey 0x280001 h) := by
  have hlisten : ∀ (b : Bool) (e : Dev), (if b then e.enterListening else e).counting = e.counting ∧
      (if b then e.enterListening else e).pwr = e.pwr ∧ (if b then e.enterListening else e).agg = e.agg ∧
      ∀ key, key ≠ 0x200003 ∧ key ≠ 0x201103 → (if b then e.enterListening else e).rd key = e.rd key := fun b e => by
    cases b with
    | false => exact ⟨rfl, rfl, rfl, fun _ _ => rfl⟩
    | true => exact enterListening_leaves e
  unfold awake
  dsimp only
  generalize hd2 : ({ (d.setRails (fun _ => true) 7).wrBit 0x200003 1 true with
    counting := _
    pwr := _
    agg := _ } : Dev) = d2
  have hfields : d2.counting = true ∧ d2.pwr.waking = none ∧ d2.agg.afterWake = true ∧
      ∀ h, h < 4 → d2.rd (unitKey 0x280001 h) = d.rd (unitKey 0x280001 h) := by
    refine ⟨by rw [← hd2], by rw [← hd2], by rw [← hd2], fun h hh => ?_⟩
    have hobjs : d2.objs = ((d.setRails (fun _ => true) 7).wrBit 0x200003 1 true).objs := by rw [← hd2]
    rw [Dev.rd_congr hobjs, Dev.rd_wrBit_other _ _ _ _ _ (by unfold unitKey; omega),
      rd_setRails _ _ _ fun r hr => by unfold unitKey; omega]
  clear hd2
  obtain ⟨hcount, hwaking, hafter, hports⟩ := hfields
  obtain ⟨hcount', hpwr', hagg', hrd'⟩ := hlisten (decide (d.rd 0x201003 < 12 ∨ d.rd 0x201004 < 12)) d2
  generalize (if decide (d.rd 0x201003 < 12 ∨ d.rd 0x201004 < 12) then d2.enterListening else d2) = e at *
  refine ⟨(Dev.wr_state ..).trans (setState_state ..), ?_, Dev.rd_wr_self .., ?_, ?_, fun h hh => ?_⟩
  · rw [Dev.wr_counting, Dev.setState_counting, hcount', hcount]
  · rw [Dev.wr_pwr, Dev.setState_pwr, hpwr', hwaking]
  · rw [Dev.wr_agg, setState_afterWake, hagg', hafter]
  · rw [Dev.rd_wr_other _ _ _ _ (by unfold unitKey; omega), rd_setState _ _ _ (by unfold unitKey; omega),
      hrd' _ (by unfold unitKey; omega), hports h hh]

end

section
variable (s : State)
theorem exec_resetN (b : Bool) : exec (.resetN b) s = .next (s.onNow (resetNOp b)) := rfl
theorem exec_powerupTimeout : exec .powerupTimeout s = .next (s.onNow powerupTimeoutOp) := rfl
theorem exec_powerRemoval : exec .powerRemoval s = .next (s.onNow powerRemovalOp) := rfl
theorem exec_bootComplete (b : Bool) : exec (.bootComplete b) s = .next (s.onNow (bootCompleteOp b)) := rfl
theorem exec_priming (n : Nat) : exec (.priming n) s = .next (s.onNow (primingOp n)) := rfl
theorem exec_primingComplete (n : Nat) : exec (.primingComplete n) s = .next (s.onNow (primingCompleteOp n)) := rfl
theorem exec_primingTimeout : exec .primingTimeout s = .next (s.onNow primingTimeoutOp) := rfl
theorem exec_asleepEntry : exec .asleepEntry s = .next (s.onNow asleepEntryOp) := rfl
theorem exec_wakeComplete (n : Nat) : exec (.wakeComplete n) s = .next (s.onNow (wakeCompleteOp n)) := rfl
theorem exec_thermalTrip : exec .thermalTrip s = .next (s.onNow thermalTripOp) := rfl
end

end Sys2Proof.Machine
end

section
/-! The steps of PRIMING (R688), and the resets, PRIMING and sleep as a whole. -/

namespace Sys2Proof.Machine

section
variable {d : Dev} {step : Nat}

theorem stepNoted_leaves (d : Dev) (step : Nat) : (stepNoted d step).state = d.state ∧
    (stepNoted d step).pwr = { d.pwr with steps := d.pwr.steps ++ [step] } ∧ (stepNoted d step).ddr = d.ddr ∧
    (stepNoted d step).rd 0x7C0003 = step ∧ ∀ key, key ≠ 0x7C0003 → (stepNoted d step).rd key = d.rd key := by
  have hpwr : ∀ (e : Dev) (p : Pwr), ({ e with pwr := p } : Dev).state = e.state ∧ ({ e with pwr := p } : Dev).pwr = p ∧
      ({ e with pwr := p } : Dev).ddr = e.ddr ∧ ∀ key, ({ e with pwr := p } : Dev).rd key = e.rd key :=
    fun _ _ => ⟨rfl, rfl, rfl, fun _ => rfl⟩
  obtain ⟨hst, hp, hddr, hrd⟩ := hpwr (d.wr 0x7C0003 step) { d.pwr with steps := d.pwr.steps ++ [step] }
  unfold stepNoted
  rw [hst, hp, hddr, hrd, Dev.rd_wr_self]
  exact ⟨Dev.wr_state .., rfl, Dev.wr_ddr .., rfl, fun key hkey => by rw [hrd, Dev.rd_wr_other _ _ _ _ hkey]⟩

theorem startPhase_kept (e : Dev) : StepKept e (e.startPhase 1) := by
  obtain ⟨hpwr, hst, -, -, -, hrd⟩ := startRuns_leaves 1 1 32 ({ e with cal := { e.cal with phase := 1 } } : Dev)
  exact ⟨hpwr, hrd, hst⟩

theorem stepKept_refl (d : Dev) : StepKept d d := ⟨rfl, rfl, rfl⟩

theorem primingOp_step (hready : d.stepReady step = true) (h1 : step ≠ 1) (h6 : step ≠ 6) :
    StepKept (stepNoted d step) (primingOp step d) := by
  have hop : ∀ e, (if d.stepReady step = true then e else d) = e := fun e => if_pos hready
  obtain ⟨-, hin⟩ := stepReady_spec hready
  have hstep : step = 2 ∨ step = 3 ∨ step = 4 ∨ step = 5 ∨ step = 7 ∨ step = 8 := by
    unfold Dev.primeSteps at hin
    split at hin <;> simp at hin <;> omega
  rcases hstep with rfl | rfl | rfl | rfl | rfl | rfl
  · have hloads : primingOp 2 d = if !(stepNoted d 2).eas.custHeld then stepNoted d 2 else (stepNoted d 2).wrs [(0x444003, 1), (0x444002,
        crc32 ((tabRead 0 (stepNoted d 2).eas.cust 0 4096).flatMap fun w => le 24 w.toNat))] := hop _
    rw [hloads]
    split
    · exact stepKept_refl _
    · exact ⟨Dev.wrs_pwr .., Dev.rd_wrs_other _ _ _ (by simp), Dev.wrs_state ..⟩
  · have hnone : primingOp 3 d = stepNoted d 3 := hop _
    rw [hnone]
    exact stepKept_refl _
  · have htest : primingOp 4 d = (stepNoted d 4).memoryTest 4 := hop _
    rw [htest]
    exact memoryTest_kept _ 4
  · have htest : primingOp 5 d = (stepNoted d 5).memoryTest 5 := hop _
    rw [htest]
    exact memoryTest_kept _ 5
  · have hruns : primingOp 7 d = (stepNoted d 7).startPhase 1 := hop _
    rw [hruns]
    exact startPhase_kept _
  · have hnone : primingOp 8 d = stepNoted d 8 := hop _
    rw [hnone]
    exact stepKept_refl _

/-- The memory test of DDR4 after another reset than POWER_ON keeps it. -/
theorem primingOp_ddr_kept (hkind : step ≠ 5 ∨ d.pwr.resetKind ≠ 0) : (primingOp step d).ddr = d.ddr := by
  by_cases h5 : step = 5
  · subst h5
    have hkept := hkind.resolve_left (fun h => h rfl)
    obtain ⟨-, hpwr, hddr, -, -⟩ := stepNoted_leaves d 5
    by_cases hready : d.stepReady 5 = true
    · have htest : primingOp 5 d = (stepNoted d 5).memoryTest 5 := if_pos hready
      rw [htest, Dev.memoryTest_ddr, Dev.marched_ddr _ (.inr (by rw [hpwr]; exact hkept)), hddr]
    · exact congrArg Dev.ddr (show primingOp 5 d = d from if_neg hready)
  · exact primingOp_ddr d h5

theorem primingOp_temps (hready : d.stepReady 1 = true) :
    primingOp 1 d = if d.dieHot then (stepNoted d 1).enterFaulted.releaseReplies else stepNoted d 1 := by
  obtain ⟨-, -, -, -, hrd⟩ := stepNoted_leaves d 1
  have htemp : ∀ i, (stepNoted d 1).tempCode i = d.tempCode i := fun i => by
    unfold Dev.tempCode
    rw [hrd _ (by unfold unitKey; omega)]
  have hhot : (stepNoted d 1).dieHot = d.dieHot := by
    unfold Dev.dieHot
    simp only [htemp]
  rw [← hhot]
  exact if_pos hready

theorem primingOp_ports (hready : d.stepReady 6 = true) : primingOp 6 d = (stepNoted d 6).trainPorts := if_pos hready

end

/-- Settles O59: what a reset, a boot and a wake write last is what their clauses name, and a step of PRIMING leaves its own
record, the object that shows it and the state unless it faults. -/
theorem resetsPrimingAndSleep : Obligations.ResetsPrimingAndSleep := by
  unfold Obligations.ResetsPrimingAndSleep
  intro s
  refine ⟨fun hup hpow => ?rises, fun hrun => ?low, ?defaults, fun hst hup => ?upFails, ?removed, fun fallback hpow hup hboot hst => ?boots,
    fun step hready h1 h6 => ?step, fun hready => ?temps, fun hready => ?ports, fun ms hst hall => ?primed, fun hst => ?late,
    fun hsleep hst => ?sleeps, fun ms hst hwaking hphase hport => ?wakes, fun hboot => ?trips⟩
  case rises => exact does_of_onNow (exec_resetN s false) (resetNOp_rising hup hpow)
  case low =>
    obtain ⟨hboots, hreset⟩ := powerOn_leaves s.now
    refine ⟨s.onNow (resetNOp false), exec_resetN s false, ?_⟩
    simp only [State.onNow, resetNOp_running hrun]
    exact ⟨rfl, rfl, trivial, hboots, hreset, rfl, rfl, rfl, rfl, rfl⟩
  case defaults =>
    obtain ⟨e, hop⟩ := resetNOp_defaults s.now
    refine ⟨s.onNow (resetNOp true), exec_resetN s true, ?_⟩
    simp only [State.onNow, hop]
    exact defaulted_leaves e
  case upFails => exact does_of_onNow (exec_powerupTimeout s) (if_pos ⟨hst, hup⟩)
  case removed =>
    exact ⟨s.onNow powerRemovalOp, exec_powerRemoval s, rfl, rfl, rfl, fun key hkey => wiped_rd s.now hkey, rfl, rfl, rfl⟩
  case boots =>
    have hddr : (bootCompleteOp fallback s.now).ddr = s.now.ddr := by simp
    have hop := bootCompleteOp_boots (fallback := fallback) hpow hup hboot
    obtain ⟨hpwr, hstate, hmgmt, hkind, hauto⟩ := booted_leaves s.now fallback
    obtain ⟨hobjs, hstate', hpwr'⟩ := releaseReset_leaves (booted s.now fallback)
    refine ⟨s.onNow (bootCompleteOp fallback), exec_bootComplete s fallback, ?_⟩
    simp only [State.onNow, hop] at hddr ⊢
    generalize (booted s.now fallback).releaseReset = e at *
    have hauto' : e.rdB 0x7C0002 = s.now.rdB 0x7C0002 := by
      unfold Dev.rdB
      rw [Dev.rd_congr hobjs, hauto]
    have hfail : e.pwr.upFail = s.now.pwr.upFail := by rw [hpwr', hpwr]
    rw [hauto', hfail] at hddr ⊢
    by_cases hgo : s.now.rdB 0x7C0002 = true ∧ s.now.pwr.upFail = false
    · obtain ⟨hpriming, -, -, hsteps, hrd⟩ := enterPriming_leaves e 0
      have hcond : (s.now.rdB 0x7C0002 && !s.now.pwr.upFail) = true := by rw [hgo.1, hgo.2]; rfl
      rw [if_pos hcond] at hddr ⊢
      rw [if_pos hgo, hpriming, hsteps, hrd _ (by decide), hrd _ (by decide), Dev.rd_congr hobjs, Dev.rd_congr hobjs, hpwr', hpwr]
      exact ⟨rfl, hmgmt, hkind, rfl, hddr⟩
    · have hcond : ¬ (s.now.rdB 0x7C0002 && !s.now.pwr.upFail) = true := by simpa using hgo
      rw [if_neg hcond] at hddr ⊢
      rw [if_neg hgo, Dev.rd_congr hobjs, Dev.rd_congr hobjs, hpwr', hpwr, hstate', hstate]
      exact ⟨rfl, hmgmt, hkind, hst, hddr⟩
  case step =>
    obtain ⟨hst, -⟩ := stepReady_spec hready
    obtain ⟨hpwr, hrd, hstate⟩ := primingOp_step hready h1 h6
    obtain ⟨hst', hpwr', -, hshown, -⟩ := stepNoted_leaves s.now step
    exact ⟨s.onNow (primingOp step), exec_priming s step, by simp only [State.onNow, hpwr, hpwr'], hrd.trans hshown,
      (hstate.trans hst').trans hst, primingOp_ddr_kept⟩
  case temps =>
    have hddr : (primingOp 1 s.now).ddr = s.now.ddr := primingOp_ddr s.now (by decide)
    obtain ⟨hst, -⟩ := stepReady_spec hready
    have hop := primingOp_temps hready
    obtain ⟨hst', hpwr', -, -, -⟩ := stepNoted_leaves s.now 1
    refine ⟨s.onNow (primingOp 1), exec_priming s 1, ?_⟩
    simp only [State.onNow, hop] at hddr ⊢
    generalize stepNoted s.now 1 = e at *
    cases hhot : s.now.dieHot with
    | true =>
      rw [hhot, if_pos rfl] at hddr
      obtain ⟨hfaulted, -, -⟩ := enterFaulted_leaves (hst'.trans hst)
      obtain ⟨-, hstate, hpwr⟩ := releaseReplies_leaves e.enterFaulted
      simp only [if_true]
      exact ⟨by rw [hpwr, enterFaulted_pwr, hpwr'], hstate.trans hfaulted, hddr⟩
    | false =>
      rw [hhot, if_neg Bool.false_ne_true] at hddr
      simp only [if_neg Bool.false_ne_true]
      exact ⟨by rw [hpwr'], hst'.trans hst, hddr⟩
  case ports =>
    have hddr : (primingOp 6 s.now).ddr = s.now.ddr := primingOp_ddr s.now (by decide)
    obtain ⟨hst, -⟩ := stepReady_spec hready
    have hop := primingOp_ports hready
    obtain ⟨hst', hpwr', -, -, hrd⟩ := stepNoted_leaves s.now 6
    have hsame : ∀ h, h < 4 → (stepNoted s.now 6).rd (unitKey 0x280001 h) = s.now.rd (unitKey 0x280001 h) := fun h hh =>
      hrd _ (by unfold unitKey; omega)
    refine ⟨s.onNow (primingOp 6), exec_priming s 6, ?_⟩
    simp only [State.onNow, hop] at hddr ⊢
    clear hop
    generalize stepNoted s.now 6 = e at *
    by_cases hall : ∀ h, h < 4 → s.now.rd (unitKey 0x280001 h) = 4
    · have htrain := trainPorts_retired (d := e) fun h hh => (hsame h hh).trans (hall h hh)
      obtain ⟨hfaulted, -, -⟩ := enterFaulted_leaves (hst'.trans hst)
      rw [htrain] at hddr ⊢
      exact ⟨by rw [enterFaulted_pwr, hpwr'], fun _ => hfaulted, fun ⟨h, hh, hlive⟩ => absurd (hall h hh) hlive, hddr⟩
    · obtain ⟨h, hh, hlive⟩ : ∃ h, h < 4 ∧ s.now.rd (unitKey 0x280001 h) ≠ 4 := by
        push Not at hall
        exact hall
      have htrain := trainPorts_live (d := e) hh (by rw [hsame h hh]; exact hlive)
      have honly := onlyObjs_portsTrained e
      rw [htrain] at hddr ⊢
      generalize portsTrained e = c at *
      refine ⟨?_, fun h' => absurd h' hall, fun _ => ?_, hddr⟩
      · rw [honly, hpwr']
      · rw [honly]
        exact hst'.trans hst
  case primed =>
    have hddr : (primingCompleteOp ms s.now).ddr = s.now.ddr := by simp
    have hop := primingCompleteOp_ends (ms := ms) hst hall
    obtain ⟨hobjs, hstate, -⟩ := releaseReplies_leaves ((primedWith s.now ms).setState .primed 2)
    refine ⟨s.onNow (primingCompleteOp ms), exec_primingComplete s ms, ?_⟩
    simp only [State.onNow, hop] at hddr ⊢
    refine ⟨hstate.trans (setState_state ..), fun hkind => ?_, hddr⟩
    obtain ⟨hms, hcount, hflag⟩ := primedWith_recovered (ms := ms) hkind
    rw [Dev.bit, Dev.rd_congr hobjs, Dev.rd_congr hobjs, Dev.rd_congr hobjs, rd_setState _ _ _ (by decide), rd_setState _ _ _ (by decide),
      rd_setState _ _ _ (by decide)]
    exact ⟨hms, hcount, hflag⟩
  case late =>
    have hddr : (primingTimeoutOp s.now).ddr = s.now.ddr := by simp
    have hop : primingTimeoutOp s.now = s.now.enterFaulted.releaseReplies := if_pos hst
    obtain ⟨hfaulted, -, -⟩ := enterFaulted_leaves hst
    obtain ⟨-, hstate, -⟩ := releaseReplies_leaves s.now.enterFaulted
    refine ⟨s.onNow primingTimeoutOp, exec_primingTimeout s, ?_⟩
    simp only [State.onNow, hop] at hddr ⊢
    exact ⟨hstate.trans hfaulted, hddr⟩
  case sleeps =>
    have hddr : (asleepEntryOp s.now).ddr = s.now.ddr := by simp
    obtain ⟨hasleep, hcount, hdesc, hstore, hdsp, hdone⟩ := asleepEntryOp_sleeps hsleep hst
    exact ⟨s.onNow asleepEntryOp, exec_asleepEntry s, hasleep, hcount, hdesc, hstore, hdsp, hdone, hddr⟩
  case wakes =>
    have hddr : (wakeCompleteOp ms s.now).ddr = s.now.ddr := by simp
    obtain ⟨h, hh, hlive⟩ := hport
    obtain ⟨hprimed, hcount, hms, hdone, hafter, hports⟩ := awake_leaves s.now ms
    have hop := (wakeCompleteOp_wakes (ms := ms) hst hwaking hphase).trans
      (trainPorts_live hh (by rw [hports h hh]; exact hlive))
    have honly := onlyObjs_portsTrained (awake s.now ms)
    have hms' := (portsTrained_rd (awake s.now ms) (key := 0x7C0005) (by decide)).trans hms
    refine ⟨s.onNow (wakeCompleteOp ms), exec_wakeComplete s ms, ?_⟩
    simp only [State.onNow, hop] at hddr ⊢
    generalize portsTrained (awake s.now ms) = e at *
    rw [honly]
    rw [honly] at hms' hddr
    exact ⟨hprimed, hcount, hms', hdone, hafter, hddr⟩
  case trips =>
    have hddr : (thermalTripOp s.now).ddr = s.now.ddr := by simp
    have hop : thermalTripOp s.now = (s.now.warmReset 4).flag 0x7C0001 1 := if_pos hboot
    obtain ⟨hpriming, hthreads, hdraft⟩ := warmReset_leaves s.now 4
    refine ⟨s.onNow thermalTripOp, exec_thermalTrip s, ?_⟩
    simp only [State.onNow, hop] at hddr ⊢
    rw [Dev.flag_state, Dev.flag_eas, Dev.flag_qop]
    exact ⟨hpriming, Dev.bit_flag_self .., hthreads, hdraft, hddr⟩

end Sys2Proof.Machine
end

section
/-! What a job that seeks its next start leaves of the ledger, the units and the objects of units (R588, R589, R600). -/

namespace Sys2Proof.Machine

/-- What a job is beside the marks of a start that is sought, and the start itself. -/
def Job.standing (j : Job) : Job :=
  { j with
    nextStart := none, trigSent := false, shot := 0, shotGens := [], ackWait := false, spoilNext := false, drainSent := none
    drainWait := false }

/-- Between two states at most starts were sought: every job stands but for its start, and so do units, cores and their objects. -/
structure Dev.Sought (d e : Dev) : Prop where
  jobs : e.hub.jobs.map Job.standing = d.hub.jobs.map Job.standing
  units : e.hub.units = d.hub.units
  lat : { e.lat with drains := d.lat.drains } = d.lat
  dsp : e.dsp = d.dsp
  rd : ∀ key, key ≠ 0x180001 → key ≠ 0x200004 → key ≠ 0x201109 → key < 0x240000 ∨ 0x241000 ≤ key → e.rd key = d.rd key
  bit : ∀ n, d.bit 0x200004 n = true → e.bit 0x200004 n = true

namespace Dev.Sought

theorem refl (d : Dev) : d.Sought d := ⟨rfl, rfl, rfl, rfl, fun _ _ _ _ _ => rfl, fun _ h => h⟩

/-- What leaves objects and hub, and of the lattice all but the drain reports, seeks at most. -/
theorem of_objs {d e : Dev} (hobjs : e.objs = d.objs) (hhub : e.hub = d.hub) (hlat : { e.lat with drains := d.lat.drains } = d.lat)
    (hdsp : e.dsp = d.dsp) : d.Sought e :=
  ⟨by rw [hhub], by rw [hhub], hlat, hdsp, fun key _ _ _ _ => Dev.rd_congr hobjs key,
    fun n h => (Dev.bit_congr hobjs 0x200004 n).trans h⟩

theorem st {d e : Dev} (h : d.Sought e) : e.lat.st = d.lat.st := by
  rw [← h.lat]

theorem slew {d e : Dev} (h : d.Sought e) : e.lat.slew = d.lat.slew := by
  rw [← h.lat]

theorem rd_unit {d e : Dev} (h : d.Sought e) {key : Nat} (hkey : 0x400000 ≤ key) : e.rd key = d.rd key :=
  h.rd key (by omega) (by omega) (by omega) (by omega)

theorem trans {d e f : Dev} (h : d.Sought e) (g : e.Sought f) : d.Sought f :=
  ⟨g.jobs.trans h.jobs, g.units.trans h.units,
    (congrArg (fun l : Lat => { l with drains := d.lat.drains }) g.lat).trans h.lat, g.dsp.trans h.dsp,
    fun key h1 h2 h3 h4 => (g.rd key h1 h2 h3 h4).trans (h.rd key h1 h2 h3 h4), fun n hn => g.bit n (h.bit n hn)⟩

theorem foldl {α : Type} (f : Dev → α → Dev) (l : List α) (d : Dev) (h : ∀ (e : Dev) x, e.Sought (f e x)) : d.Sought (l.foldl f d) :=
  List.foldlRecOn (motive := fun e : Dev => d.Sought e) l f (refl d) fun e he x _ => he.trans (h e x)

/-- Each job of the one state is found in the other, and stands. -/
theorem job {d e : Dev} (h : d.Sought e) (q : Nat) : (e.job q).map Job.standing = (d.job q).map Job.standing := by
  have hfind : ∀ x : Dev, (x.job q).map Job.standing = (x.hub.jobs.map Job.standing).find? fun j => j.seq == q := by
    intro x
    rw [List.find?_map]
    rfl
  rw [hfind, hfind, h.jobs]

theorem job_some {d e : Dev} (h : d.Sought e) {q : Nat} {j : Job} (hjob : d.job q = some j) :
    ∃ j', e.job q = some j' ∧ j'.standing = j.standing := by
  have hq := h.job q
  rw [hjob] at hq
  obtain ⟨j', hj', hstand⟩ := Option.map_eq_some_iff.mp hq
  exact ⟨j', hj', hstand⟩

theorem job_none {d e : Dev} (h : d.Sought e) {q : Nat} (hjob : d.job q = none) : e.job q = none := by
  have hq := h.job q
  rw [hjob] at hq
  exact Option.map_eq_none_iff.mp hq

end Dev.Sought

section
variable (d : Dev)

theorem sought_modJob (q : Nat) (f : Job → Job) (hf : ∀ k, (f k).standing = k.standing) : d.Sought (d.modJob q f) := by
  refine ⟨?_, rfl, rfl, rfl, fun _ _ _ _ _ => rfl, fun _ h => h⟩
  refine List.map_map.trans (List.map_congr_left fun j _ => ?_)
  show (if j.seq == q then f j else j).standing = j.standing
  split
  · exact hf j
  · rfl

theorem sought_flag {key : Nat} (bit : Nat) (hkey : key = 0x180001 ∨ key = 0x200004) : d.Sought (d.flag key bit) := by
  refine ⟨by rw [Dev.flag_hub], by rw [Dev.flag_hub], by rw [Dev.flag_lat], Dev.flag_dsp ..,
    fun k _ _ _ _ => Dev.rd_flag_other _ _ _ _ (by omega), fun n hn => ?_⟩
  rcases hkey with rfl | rfl
  · unfold Dev.bit at hn ⊢
    rw [Dev.rd_flag_other _ _ _ _ (by decide), hn]
  · exact Dev.bit_flag_of_bit _ _ _ _ hn

theorem sought_sendMsg (kind : Nat) (m : LatMsg) : d.Sought (d.sendMsg kind m) := by
  unfold Dev.sendMsg
  split
  · next hroute =>
    have hrd : ∀ key, key < 0x240000 ∨ 0x241000 ≤ key → (d.sendCell (d.route m.dst) (.msg kind m)).rd key = d.rd key := by
      intro key hkey
      unfold Dev.sendCell
      split
      · rw [Dev.rd_setLink, if_neg]
        unfold unitKey
        omega
      · rfl
    refine ⟨by rw [Dev.sendCell_hub], by rw [Dev.sendCell_hub], by rw [Dev.sendCell_lat], Dev.sendCell_dsp ..,
      fun key _ _ _ hkey => hrd key hkey, fun n hn => ?_⟩
    unfold Dev.bit at hn ⊢
    rw [hrd _ (by decide), hn]
  · exact .refl d

theorem sought_takeDrain (m : LatMsg) : d.Sought (d.takeDrain m) := by
  have hwr : d.Sought (if d.lat.st = .root ∧ m.src ≠ d.chip then d.wr 0x201109 (Nat.lor (d.rd 0x201109) (2 ^ m.src)) else d) := by
    split
    · refine ⟨rfl, rfl, rfl, rfl, fun key _ _ hkey _ => Dev.rd_wr_other _ _ _ _ hkey, fun n hn => ?_⟩
      unfold Dev.bit at hn ⊢
      rw [Dev.rd_wr_other _ _ _ _ (by decide), hn]
    · exact .refl d
  exact hwr.trans (.of_objs rfl rfl rfl rfl)

theorem sought_sendDrain (m : LatMsg) : d.Sought (d.sendDrain m) := by
  unfold Dev.sendDrain
  dsimp only
  split
  · exact sought_takeDrain ..
  · exact sought_sendMsg ..

theorem sought_reportDrain (j : Job) : d.Sought (d.reportDrain j) := by
  unfold Dev.reportDrain
  split
  · exact sought_modJob d j.seq (fun k => { k with drainWait := true }) fun _ => rfl
  · exact (sought_modJob d j.seq (fun k => { k with drainSent := some (d.drainReport j), drainWait := false, ackWait := false })
      fun _ => rfl).trans (sought_sendDrain _ _)

theorem sought_noteTrigger (l t : Nat) : d.Sought (d.noteTrigger l t) := by
  unfold Dev.noteTrigger
  split
  · exact .refl d
  · exact .of_objs rfl rfl rfl rfl

theorem sought_sendTrigger (j : Job) (t : Nat) : d.Sought (d.sendTrigger j t) := by
  refine (sought_modJob d j.seq (fun k => { k with trigSent := true }) fun _ => rfl).trans ?_
  unfold Dev.sendTrigger
  dsimp only
  split
  · exact sought_noteTrigger ..
  · exact sought_sendMsg ..

theorem resetThread_stands (j : Job) (p : CanvasPlace) (kept : List (Nat × Nat × Nat)) (shot : Nat) :
    (d.resetThread j p kept shot).lat = d.lat ∧ (d.resetThread j p kept shot).dsp = d.dsp := by
  have hbus : ∀ (e : Dev) (b : List BusWord), ({ e with eas := { e.eas with bus := b } } : Dev).lat = e.lat ∧
      ({ e with eas := { e.eas with bus := b } } : Dev).dsp = e.dsp := fun _ _ => ⟨rfl, rfl⟩
  unfold Dev.resetThread
  dsimp only
  generalize hu : ({ nextId := _
                     nextOrd := _
                     main := _
                     genStart := _ } : Thread) = u
  exact ⟨(hbus ((d.squashAll p.thread).setThread p.thread u) _).1, (hbus ((d.squashAll p.thread).setThread p.thread u) _).2⟩

theorem sought_startThread (j : Job) (p : CanvasPlace) (start shot : Nat) : d.Sought (d.startThread j p start shot) := by
  obtain ⟨hobjs, hhub, -⟩ := startThread_leaves d j p start shot
  obtain ⟨hlat, hdsp⟩ := resetThread_stands d j p j.contGens shot
  refine .of_objs hobjs hhub ?_ ?_
  · unfold Dev.startThread
    dsimp only
    rw [Dev.setThread_lat, hlat]
  · unfold Dev.startThread
    dsimp only
    rw [Dev.setThread_dsp, hdsp]

theorem sought_placeStart (q start shot : Nat) : d.Sought (d.placeStart q start shot) := by
  unfold Dev.placeStart
  split
  · exact .refl d
  · next j _ =>
    refine (Dev.Sought.foldl (fun e p => e.startThread j p start shot) j.held.canvases d fun e p =>
      sought_startThread e j p start shot).trans ?_
    generalize j.held.canvases.foldl (fun e p => e.startThread j p start shot) d = e
    exact sought_modJob e q (fun k => { k with
      nextStart := some start, trigSent := false, shot := shot, shotGens := j.contGens, ackWait := false, spoilNext := false })
      fun _ => rfl

theorem sought_fixStart (q start shot : Nat) : d.Sought (d.fixStart q start shot) := by
  unfold Dev.fixStart
  split
  · exact (sought_flag d 11 (by decide)).trans (sought_placeStart ..)
  · exact sought_placeStart ..

theorem sought_resultGate (j : Job) : d.Sought (d.resultGate j).1 := by
  have hwait : ∀ bit, d.Sought (if j.ackWait then d else (d.flag 0x180001 bit).modJob j.seq fun k => { k with ackWait := true }) := by
    intro bit
    split
    · exact .refl d
    · exact (sought_flag d bit (by decide)).trans
        (sought_modJob (d.flag 0x180001 bit) j.seq (fun k => { k with ackWait := true }) fun _ => rfl)
  unfold Dev.resultGate
  split
  · exact hwait 5
  · split
    · exact hwait 6
    · exact .refl d

theorem sought_takeTrigger {i t : Nat} {e : Dev} (h : d.takeTrigger i = some (t, e)) : d.Sought e := by
  unfold Dev.takeTrigger at h
  dsimp only at h
  split at h
  · cases h
    exact .of_objs rfl rfl rfl rfl
  · cases h
    exact .of_objs rfl rfl rfl rfl
  · cases h

/-- A job that seeks its start leaves every job standing, its own among them. -/
theorem sought_seek (q : Nat) : d.Sought (d.seek q) := by
  unfold Dev.seek
  split
  · exact .refl d
  split
  · exact .refl d
  dsimp only
  split
  · exact sought_resultGate ..
  split
  · split
    · exact .refl d
    split
    · split
      · exact sought_reportDrain ..
      · next t e htake => exact (sought_reportDrain d _).trans ((sought_takeTrigger _ htake).trans (sought_sendTrigger ..))
    · exact sought_reportDrain ..
  split
  · split
    · exact .refl d
    · next t e htake => exact (sought_takeTrigger d htake).trans (sought_fixStart ..)
  split
  · exact sought_fixStart ..
  · exact .refl d

/-- At a chip that is not the root nothing more comes of it. -/
theorem seekStart_member {d : Dev} (hmember : d.lat.st ≠ .root) (q : Nat) : d.seekStart q = d.seek q := by
  unfold Dev.seekStart
  exact if_neg (by rw [(sought_seek d q).st]; exact hmember)

theorem sought_seekStart {d : Dev} (hmember : d.lat.st ≠ .root) (q : Nat) : d.Sought (d.seekStart q) := by
  rw [seekStart_member hmember]
  exact sought_seek d q

theorem sought_seekStarts {α : Type} (f : α → Nat) (l : List α) {d : Dev} (hmember : d.lat.st ≠ .root) :
    d.Sought (l.foldl (fun e x => e.seekStart (f x)) d) := by
  refine List.foldlRecOn (motive := fun e : Dev => d.Sought e) l _ (.refl d) fun e he x _ => he.trans (sought_seekStart ?_ _)
  rw [he.st]
  exact hmember

end
end Sys2Proof.Machine
end

section
/-! What the operations on jobs and units keep of the ledger: none but SUBMIT brings a job in, and none but a reset puts a retired
unit back in service (R413, R630, R661). -/

namespace Sys2Proof.Machine

/-- No job is new to the ledger, and no retired unit is back in service. -/
structure Dev.LedgerKept (d e : Dev) : Prop where
  jobs : ∀ j ∈ e.hub.jobs, ∃ i ∈ d.hub.jobs, i.seq = j.seq
  retired : ∀ u ∈ d.hub.units.retired, u ∈ e.hub.units.retired

namespace Dev.LedgerKept

theorem of_hub {d e : Dev} (hjobs : e.hub.jobs = d.hub.jobs) (hunits : e.hub.units = d.hub.units) : d.LedgerKept e :=
  ⟨fun j hj => ⟨j, hjobs ▸ hj, rfl⟩, fun u hu => by rw [hunits]; exact hu⟩

theorem refl (d : Dev) : d.LedgerKept d := of_hub rfl rfl

theorem trans {d e f : Dev} (h : d.LedgerKept e) (g : e.LedgerKept f) : d.LedgerKept f := by
  refine ⟨fun j hj => ?_, fun u hu => g.retired u (h.retired u hu)⟩
  obtain ⟨i, hi, hseq⟩ := g.jobs j hj
  obtain ⟨k, hk, hseq'⟩ := h.jobs i hi
  exact ⟨k, hk, hseq'.trans hseq⟩

theorem foldl {α : Type} (f : Dev → α → Dev) (l : List α) (d : Dev) (h : ∀ (e : Dev) x, e.LedgerKept (f e x)) :
    d.LedgerKept (l.foldl f d) :=
  List.foldlRecOn (motive := fun e : Dev => d.LedgerKept e) l f (refl d) fun e he x _ => he.trans (h e x)

theorem job_none {d e : Dev} (h : d.LedgerKept e) {q : Nat} (hjob : d.job q = none) : e.job q = none := by
  refine List.find?_eq_none.mpr fun j hj => ?_
  obtain ⟨i, hi, hseq⟩ := h.jobs j hj
  rw [← hseq]
  exact List.find?_eq_none.mp hjob i hi

theorem isRetired {d e : Dev} (h : d.LedgerKept e) {u : UnitRef} (hu : d.isRetired u = true) : e.isRetired u = true :=
  (Dev.isRetired_iff_mem e u).mpr (h.retired u ((Dev.isRetired_iff_mem d u).mp hu))

end Dev.LedgerKept

section
variable (d : Dev)

/-! ### Objects, flags, records and messages -/

theorem ledgerKept_wr (key v : Nat) : d.LedgerKept (d.wr key v) := .of_hub rfl rfl

theorem ledgerKept_wrs (l : List (Nat × Nat)) : d.LedgerKept (d.wrs l) := by
  refine .of_hub ?_ ?_ <;> rw [Dev.wrs_hub]

theorem ledgerKept_wrBit (key bit : Nat) (v : Bool) : d.LedgerKept (d.wrBit key bit v) := by
  refine .of_hub ?_ ?_ <;> rw [Dev.wrBit_hub]

theorem ledgerKept_unwr (key : Nat) : d.LedgerKept (d.unwr key) := .of_hub rfl rfl

theorem ledgerKept_setIdle (c : Nat) (v : Int) : d.LedgerKept (d.setIdle c v) := .of_hub rfl rfl

theorem ledgerKept_unwrs (keys : List Nat) : d.LedgerKept (keys.foldl Dev.unwr d) := .foldl _ _ _ fun e _ => ledgerKept_unwr e _

theorem ledgerKept_flagN (key bit n : Nat) : d.LedgerKept (d.flagN key bit n) := by
  refine .of_hub ?_ ?_ <;> rw [Dev.flagN_hub]

theorem ledgerKept_flag (key bit : Nat) : d.LedgerKept (d.flag key bit) := ledgerKept_flagN d key bit 1

theorem ledgerKept_setState (st : DState) (cause : Nat) : d.LedgerKept (d.setState st cause) := by
  refine .of_hub ?_ ?_ <;> rw [Dev.setState_hub]

theorem ledgerKept_refreshUnits : d.LedgerKept d.refreshUnits := by
  refine .of_hub ?_ ?_ <;> rw [Dev.refreshUnits_hub]

theorem ledgerKept_setLink (k : Nat) (l : Link) : d.LedgerKept (d.setLink k l) := by
  refine .of_hub ?_ ?_ <;> rw [Dev.setLink_hub]

theorem ledgerKept_bbWrite (btype ukind uidx cause job shot : Nat) (payload : List Byte) :
    d.LedgerKept (d.bbWrite btype ukind uidx cause job shot payload) := by
  obtain ⟨bb, hhub, -⟩ := bbWrite_leaves d btype ukind uidx cause job shot payload
  refine .of_hub ?_ ?_ <;> rw [hhub]

theorem ledgerKept_report (verdict slot q shot reason : Nat) (es : List (List Byte)) :
    d.LedgerKept (d.report verdict slot q shot reason es) := .of_hub rfl rfl

theorem ledgerKept_sendMsg (kind : Nat) (m : LatMsg) : d.LedgerKept (d.sendMsg kind m) := by
  unfold Dev.sendMsg
  split
  · refine .of_hub ?_ ?_ <;> rw [Dev.sendCell_hub]
  · exact .refl d

/-! ### Jobs -/

theorem ledgerKept_modJob (q : Nat) (f : Job → Job) (hf : ∀ k, k.seq = q → (f k).seq = q) : d.LedgerKept (d.modJob q f) := by
  refine ⟨fun j hj => ?_, fun _ hu => hu⟩
  obtain ⟨i, hi, hij⟩ := List.mem_map.mp hj
  refine ⟨i, hi, ?_⟩
  rw [← hij]
  split
  · next hq => rw [hf i (beq_iff_eq.mp hq), beq_iff_eq.mp hq]
  · rfl

theorem ledgerKept_sought {d e : Dev} (h : d.Sought e) : d.LedgerKept e := by
  refine ⟨fun j hj => ?_, fun u hu => by rw [h.units]; exact hu⟩
  have hmem : j.standing ∈ d.hub.jobs.map Job.standing := h.jobs ▸ List.mem_map_of_mem hj
  obtain ⟨i, hi, hij⟩ := List.mem_map.mp hmem
  exact ⟨i, hi, (congrArg Job.seq hij : i.standing.seq = j.standing.seq)⟩

theorem ledgerKept_syncState : d.LedgerKept d.syncState := by
  unfold Dev.syncState
  dsimp only
  split
  · exact ledgerKept_wrs ..
  · exact (ledgerKept_wrs ..).trans (ledgerKept_setState ..)

theorem ledgerKept_endJob (q : Nat) (st : JobState) (cause : Nat) : d.LedgerKept (d.endJob q st cause) := by
  unfold Dev.endJob
  split
  · exact .refl d
  · next j hjob =>
    have hseq : j.seq = q := beq_iff_eq.mp (List.find?_some (p := fun j : Job => j.seq == q) hjob)
    refine (ledgerKept_modJob d q _ fun k _ => ?_).trans (ledgerKept_syncState _)
    dsimp only
    split
    · unfold Job.cancelSummary
      dsimp only
      split <;> exact hseq
    · exact hseq

/-! ### The units of a job that leaves residence -/

theorem ledgerKept_unbindCanvas (p : CanvasPlace) : d.LedgerKept (d.unbindCanvas p) := by
  unfold Dev.unbindCanvas
  dsimp only
  refine (ledgerKept_unwrs d _).trans ((Dev.LedgerKept.foldl _ p.flux _ fun e c => ?_).trans (.of_hub rfl rfl))
  exact (ledgerKept_unwr e _).trans (ledgerKept_setIdle ..)

theorem ledgerKept_setStream (k : Nat) (v : StreamSt) : d.LedgerKept (d.setStream k v) := by
  have hput : ∀ (e : Dev) (t : Tab StreamSt), e.LedgerKept { e with out := { e.out with streams := t } } :=
    fun _ _ => .of_hub rfl rfl
  unfold Dev.setStream
  dsimp only
  refine .trans ?_ (hput _ _)
  split
  · exact (ledgerKept_wr ..).trans (ledgerKept_wr ..)
  · exact ledgerKept_wr ..

theorem ledgerKept_setAcq (c : Nat) (a : AcqSt) : d.LedgerKept (d.setAcq c a) := .of_hub rfl rfl

theorem ledgerKept_setCore (c : Nat) (k : DspCore) : d.LedgerKept (d.setCore c k) := .of_hub rfl rfl

theorem ledgerKept_freeChannel (q c : Nat) : d.LedgerKept (d.freeChannel q c) := by
  unfold Dev.freeChannel
  exact (((ledgerKept_wr d _ _).trans (ledgerKept_wr ..)).trans (ledgerKept_setAcq ..)).trans (ledgerKept_modJob _ _ _ fun _ h => h)

theorem ledgerKept_backToSpares (u : UnitRef) (key v bit : Nat) : d.LedgerKept (d.backToSpares u key v bit) := by
  unfold Dev.backToSpares
  split
  · exact .refl d
  · exact (ledgerKept_wr ..).trans (ledgerKept_wrBit ..)

theorem ledgerKept_orRefreshed {d e : Dev} {c : Prop} [Decidable c] (h : d.LedgerKept e) :
    d.LedgerKept (if c then e else e.refreshUnits) := by
  split
  · exact h
  · exact h.trans (ledgerKept_refreshUnits e)

/-- What a sprouted spare that serves no job any more gives back. -/
theorem ledgerKept_returnSpares : d.LedgerKept d.returnSpares := by
  have hsprouts : ∀ (e : Dev) (l : List (UnitRef × UnitRef × Nat)),
      e.LedgerKept { e with hub := { e.hub with units := { e.hub.units with sprouts := l } } } :=
    fun e _ => ⟨fun j hj => ⟨j, hj, rfl⟩, fun _ hu => hu⟩
  unfold Dev.returnSpares
  dsimp only
  refine ledgerKept_orRefreshed ((hsprouts d _).trans (Dev.LedgerKept.foldl _ _ _ fun e p => ?_))
  split
  · refine .trans ?_ (ledgerKept_backToSpares ..)
    refine .trans ?_ (ledgerKept_wr ..)
    split
    · exact (Dev.LedgerKept.foldl _ _ _ fun e _ => ledgerKept_wr e _ _).trans (ledgerKept_wr ..)
    · exact .foldl _ _ _ fun e _ => ledgerKept_wr e _ _
  · exact (ledgerKept_wrs ..).trans (ledgerKept_backToSpares ..)
  · exact .refl e

end
end Sys2Proof.Machine
end

section
/-! What of the ledger the end of a job, a word of calibration that takes effect, and the root's starts keep (R65, R462, R590,
R654, R655, R661). -/

namespace Sys2Proof.Machine

section
variable (d : Dev)

/-! ### The end of a job -/

theorem ledgerKept_release (j : Job) : d.LedgerKept (d.release j) := by
  have hstream : ∀ (e : Dev) (k : Nat), e.LedgerKept (((List.range 10).foldl (fun f i => f.unwr (unitKey 0x488001 k + i)) e).setStream k {}) :=
    fun e k => (Dev.LedgerKept.foldl _ _ _ fun f _ => ledgerKept_unwr f _).trans (ledgerKept_setStream ..)
  have hdef : ∀ (e : Dev) (g : Nat), e.LedgerKept ((List.range 7).foldl (fun f i => f.unwr (unitKey 0x4C0001 g + i)) e) :=
    fun e g => .foldl _ _ _ fun f _ => ledgerKept_unwr f _
  have hcore : ∀ (e : Dev) (c : Nat), e.LedgerKept
      (let e1 := ([unitKey 0x580003 c, unitKey 0x580004 c, unitKey 0x580005 c, unitKey 0x580006 c, unitKey 0x580007 c,
        unitKey 0x58000A c, unitKey 0x58000F c]).foldl Dev.unwr e
       let k : DspCore := { mbox := (e.core c).mbox, mboxIn := (e.core c).mboxIn }
       if e1.rd (unitKey 0x580001 c) = 5 ∨ c = 16 then e1.setCore c k else (e1.wr (unitKey 0x580001 c) 0).setCore c k) := by
    intro e c
    dsimp only
    split
    · exact (ledgerKept_unwrs e _).trans (ledgerKept_setCore ..)
    · exact ((ledgerKept_unwrs e _).trans (ledgerKept_wr ..)).trans (ledgerKept_setCore ..)
  unfold Dev.release
  dsimp only
  refine .trans ?_ (ledgerKept_returnSpares _)
  refine .trans ?_ (ledgerKept_modJob _ _ _ fun _ h => h)
  have hunits := ((((Dev.LedgerKept.foldl Dev.unbindCanvas j.held.canvases d fun e p => ledgerKept_unbindCanvas e p).trans
    (Dev.LedgerKept.foldl (fun e r => e.unwr (0x480101 + r.1)) j.held.regions _ fun e r =>
      ledgerKept_unwr e _)).trans
    (.foldl _ j.held.streams _ hstream)).trans (.foldl _ j.held.defs _ hdef))
  split
  · exact ((hunits.trans (.foldl _ _ _ fun e c => ledgerKept_freeChannel e _ c)).trans (.foldl _ _ _ hcore)).trans (ledgerKept_unwr ..)
  · exact (hunits.trans (.foldl _ _ _ fun e c => ledgerKept_freeChannel e _ c)).trans (.foldl _ _ _ hcore)

theorem ledgerKept_stopJob (q : Nat) : d.LedgerKept (d.stopJob q) := by
  unfold Dev.stopJob
  split
  · exact .refl d
  · exact ((ledgerKept_endJob ..).trans (ledgerKept_release ..)).trans (ledgerKept_report ..)

theorem ledgerKept_leave (q : Nat) : d.LedgerKept (d.leave q) := by
  have hgone : ∀ (e : Dev) (p : Job → Bool) (a b : List Packet), e.LedgerKept
      { e with hub := { e.hub with jobs := e.hub.jobs.filter p, sent := a, resend := b } } :=
    fun e p _ _ => ⟨fun j hj => ⟨j, List.mem_of_mem_filter hj, rfl⟩, fun _ hu => hu⟩
  unfold Dev.leave
  dsimp only
  exact ((hgone d _ _ _).trans (ledgerKept_wr ..)).trans (ledgerKept_wr ..)

theorem ledgerKept_leaveIfDone (q : Nat) : d.LedgerKept (d.leaveIfDone q) := by
  unfold Dev.leaveIfDone
  split
  · exact .refl d
  · split
    · exact ledgerKept_leave ..
    · exact .refl d

theorem ledgerKept_dropTriggers (j : Job) : d.LedgerKept (d.dropTriggers j) := by
  have hset : ∀ i t, d.LedgerKept (d.setTrigIn i t) := fun _ _ => .of_hub rfl rfl
  have hcounted : ∀ i t n, d.LedgerKept (if n = 0 then d.setTrigIn i t else (d.setTrigIn i t).flagN (trigFlags i) 3 n) := by
    intro i t n
    split
    · exact hset i t
    · exact (hset i t).trans (ledgerKept_flagN ..)
  unfold Dev.dropTriggers
  split
  · exact .refl d
  · exact hcounted _ _ _

theorem ledgerKept_finishJob (j : Job) : d.LedgerKept (d.finishJob j) := by
  have hfits : ∀ (e : Dev) (l : List Fit), e.LedgerKept { e with cal := { e.cal with fits := l } } := fun _ _ => .of_hub rfl rfl
  unfold Dev.finishJob
  dsimp only
  split
  · exact ((ledgerKept_endJob ..).trans (ledgerKept_dropTriggers ..)).trans (hfits _ _)
  · exact (ledgerKept_endJob ..).trans (ledgerKept_dropTriggers ..)

theorem ledgerKept_discardTentative (j : Job) (a : Attempt) : d.LedgerKept (d.discardTentative j a) := by
  unfold Dev.discardTentative
  dsimp only
  have hgone := ((ledgerKept_modJob d j.seq (fun k => { k with tentative := none, discards := j.discards + 1 }) fun _ h => h).trans
    (ledgerKept_flag _ 0x781001 1)).trans (ledgerKept_bbWrite _ 3 0 0 0 j.seq a.shot (le 2 0))
  split
  · exact ((hgone.trans (ledgerKept_modJob _ j.seq (fun k => { k with stopDue := true, endCause := 5 }) fun _ h => h)).trans
      (ledgerKept_flag ..)).trans (ledgerKept_bbWrite ..)
  · exact hgone

/-! ### Links -/

theorem ledgerKept_pathOut (sec : Bool) : d.LedgerKept (d.pathOut sec) := by
  unfold Dev.pathOut Dev.pathState
  exact ((ledgerKept_flag ..).trans (ledgerKept_wr ..)).trans (ledgerKept_bbWrite ..)

theorem ledgerKept_spineLinkLost (k : Nat) : d.LedgerKept (d.spineLinkLost k) := by
  have hlat : ∀ (e : Dev) (l : Lat), e.LedgerKept { e with lat := l } := fun _ _ => .of_hub rfl rfl
  have hprim : d.LedgerKept (if d.rd 0x201003 = k ∧ !d.lat.prim.out then
      ({ d with lat := { d.lat with prim := { d.lat.prim with out := true, goodRun := 0 } } }).pathOut false else d) := by
    split
    · exact (hlat _ _).trans (ledgerKept_pathOut ..)
    · exact .refl d
  unfold Dev.spineLinkLost
  refine hprim.trans ?_
  dsimp only
  generalize (if d.rd 0x201003 = k ∧ !d.lat.prim.out then
      ({ d with lat := { d.lat with prim := { d.lat.prim with out := true, goodRun := 0 } } }).pathOut false else d) = e
  split
  · exact (hlat _ _).trans (ledgerKept_pathOut ..)
  · exact .refl e

theorem ledgerKept_dropLink (k st : Nat) : d.LedgerKept (d.dropLink k st) := by
  have hoff : d.LedgerKept (lanesOff d k st) := by
    unfold lanesOff
    split
    · exact (ledgerKept_wr ..).trans (ledgerKept_setLink ..)
    · exact ((ledgerKept_wr ..).trans (ledgerKept_setLink ..)).trans (ledgerKept_wrs ..)
  rw [dropLink_eq]
  split
  · exact hoff.trans (ledgerKept_spineLinkLost ..)
  · exact hoff

/-! ### Words that take effect -/

theorem ledgerKept_markLine (old : Dev) (n extra : Nat) : d.LedgerKept (d.markLine old n extra) :=
  .foldl _ _ _ fun _ _ => .of_hub rfl rfl

theorem ledgerKept_lineChanged (old : Dev) (n sub : Nat) : d.LedgerKept (d.lineChanged old n sub) := by
  have hraw : ∀ e : Dev, e.LedgerKept (e.markRaw n) := fun e => .of_hub rfl rfl
  have hline : ∀ (e : Dev) l, e.LedgerKept (e.setLine n l) := fun _ _ => .of_hub rfl rfl
  have hdark : ∀ (e : Dev) on s, e.LedgerKept (e.darkSlot old on s) := by
    intro e on s
    unfold Dev.darkSlot
    dsimp only
    split <;> exact .of_hub rfl rfl
  unfold Dev.lineChanged
  split
  · unfold Dev.enableLine
    dsimp only
    exact (((ledgerKept_markLine d old n 8).trans (hraw _)).trans (.foldl _ _ _ fun e s => hdark e _ s)).trans (hline _ _)
  · exact (ledgerKept_markLine ..).trans (hraw _)
  · exact (ledgerKept_markLine ..).trans (hraw _)
  · exact ledgerKept_markLine ..
  · exact .refl d

theorem ledgerKept_chainChanged (old : Dev) (q sub : Nat) : d.LedgerKept (d.chainChanged old q sub) := by
  unfold Dev.chainChanged
  dsimp only
  split
  · exact .of_hub rfl rfl
  · exact .refl d

theorem ledgerKept_portEnabled (port : Nat) (on : Bool) : d.LedgerKept (d.portEnabled port on) := by
  unfold Dev.portEnabled
  dsimp only
  split
  · exact .refl d
  · exact ((ledgerKept_wr ..).trans (ledgerKept_wrs ..)).trans (ledgerKept_refreshUnits _)

theorem ledgerKept_applyWord (old : Dev) (key v : Nat) : d.LedgerKept (d.applyWord old key v) := by
  have hwr := ledgerKept_wr d key v
  unfold Dev.applyWord
  dsimp only
  generalize d.wr key v = e at *
  split
  · exact hwr
  split
  · exact hwr.trans (ledgerKept_lineChanged ..)
  split
  · exact hwr.trans (ledgerKept_chainChanged ..)
  split
  · split
    · exact hwr.trans (.of_hub rfl rfl)
    split
    · exact hwr.trans (ledgerKept_setIdle ..)
    · exact hwr
  split
  · refine hwr.trans ?_
    unfold Dev.asymmetryChanged
    split
    · exact .refl e
    · exact ledgerKept_wr ..
  split
  · split
    · exact (hwr.trans (ledgerKept_dropLink ..)).trans (ledgerKept_refreshUnits _)
    · exact hwr
  split
  · exact hwr.trans (ledgerKept_portEnabled ..)
  split
  · exact hwr.trans (ledgerKept_portEnabled ..)
  · exact hwr

theorem ledgerKept_flushStage : d.LedgerKept d.flushStage := by
  have hstage : ∀ (e : Dev) l, e.LedgerKept (e.setStage l) := fun _ _ => .of_hub rfl rfl
  unfold Dev.flushStage
  dsimp only
  split
  · exact (Dev.LedgerKept.foldl _ _ _ fun e (w : CalWord) => ledgerKept_applyWord e d w.key w.val).trans (hstage _ _)
  · exact .refl d

theorem ledgerKept_leaveResidence (q : Nat) : d.LedgerKept (d.leaveResidence q) := by
  unfold Dev.leaveResidence
  split
  · exact .refl d
  · exact ((ledgerKept_release ..).trans (ledgerKept_flushStage _)).trans (ledgerKept_leaveIfDone ..)

/-! ### The root -/

/-- What SHOT_START of an index leaves of a tentatively final attempt. -/
def tentativeSettled (d : Dev) (j : Job) (k : Nat) : Dev :=
  match j.tentative with
  | none => d
  | some a =>
    if a.shot < k then d.modJob j.seq fun x => { x.finish a with tentative := none, contGens := x.contEnd }
    else d.discardTentative j a

/-- What a job does with the index and the tick that the root has set. -/
def startTaken (d : Dev) (q k tick : Nat) : Dev :=
  match d.job q with
  | none => d
  | some j =>
    if j.head.shots ≤ k then (d.finishJob j).leaveResidence q
    else if j.stopDue then (d.stopJob q).flushStage
    else if d.awaitsUnit j then d
    else d.fixStart q tick k

theorem takeShotStart_eq (m : LatMsg) : d.takeShotStart m =
    match d.hub.jobs.find? fun j => j.head.multiChip && j.head.ljob == m.jobSeq && j.st.resident with
    | none => d
    | some j =>
      if j.phase = .shot ∨ j.phase = .drained then d
      else startTaken ((tentativeSettled d j (nearIndex j.nextShot m.shot)).modJob j.seq fun x => { x with drainSent := none })
        j.seq (nearIndex j.nextShot m.shot) m.epoch := rfl

theorem ledgerKept_tentativeSettled (j : Job) (k : Nat) : d.LedgerKept (tentativeSettled d j k) := by
  unfold tentativeSettled
  split
  · exact .refl d
  split
  · next a _ _ =>
    exact ledgerKept_modJob d j.seq (fun x => { x.finish a with tentative := none, contGens := x.contEnd }) fun _ h => h
  · exact ledgerKept_discardTentative ..

theorem ledgerKept_startTaken (q k tick : Nat) : d.LedgerKept (startTaken d q k tick) := by
  unfold startTaken
  split
  · exact .refl d
  split
  · exact (ledgerKept_finishJob ..).trans (ledgerKept_leaveResidence ..)
  split
  · exact (ledgerKept_stopJob ..).trans (ledgerKept_flushStage _)
  split
  · exact .refl d
  · exact ledgerKept_sought (sought_fixStart ..)

theorem ledgerKept_takeShotStart (m : LatMsg) : d.LedgerKept (d.takeShotStart m) := by
  rw [takeShotStart_eq]
  split
  · exact .refl d
  split
  · exact .refl d
  · next j _ _ =>
    exact ((ledgerKept_tentativeSettled d j _).trans (ledgerKept_modJob _ j.seq (fun x => { x with drainSent := none })
      fun _ h => h)).trans (ledgerKept_startTaken ..)

theorem ledgerKept_toChips (l kind : Nat) (m : LatMsg) : d.LedgerKept (d.toChips l kind m) :=
  .foldl _ _ _ fun e _ => ledgerKept_sendMsg e kind _

theorem ledgerKept_rootTry (l : Nat) : d.LedgerKept (d.rootTry l) := by
  have hdrop : ∀ e : Dev, e.LedgerKept (e.dropDrain l fun _ => true) := fun e => .of_hub rfl rfl
  unfold Dev.rootTry
  split
  · exact .refl d
  · exact ((ledgerKept_toChips ..).trans (hdrop _)).trans (ledgerKept_takeShotStart ..)

theorem ledgerKept_rootAll : d.LedgerKept d.rootAll := .foldl _ _ _ ledgerKept_rootTry

/-- A job that seeks its start at the root brings no job in either. -/
theorem ledgerKept_seekStart (q : Nat) : d.LedgerKept (d.seekStart q) := by
  have hseek := ledgerKept_sought (sought_seek d q)
  unfold Dev.seekStart
  dsimp only
  split
  · exact hseek.trans (ledgerKept_rootAll _)
  · exact hseek

theorem ledgerKept_afterAck : d.LedgerKept d.afterAck := .foldl _ _ _ fun e j => ledgerKept_seekStart e j.seq

end
end Sys2Proof.Machine
end

section
/-! Final attempts, packets, acknowledgements and resending (R594 to R599, R651, R652, R658, R661). -/

namespace Sys2Proof.Machine

section
variable {d : Dev} {q : Nat} {j : Job}

/-! ### Final attempts -/

theorem ledgerFinal_eq {a : Attempt} {rest : List Attempt} (hjob : d.job q = some j) (hqueue : j.queued = a :: rest)
    (howed : d.streamOwed j a = false) : ledgerFinalOp q d =
      ({ d.modJob q fun k => { k with queued := rest, final := k.final ++ [a] } with
        hub := { (d.modJob q fun k => { k with queued := rest, final := k.final ++ [a] }).hub with
          qrs := d.hub.qrs ++ a.items q } } : Dev).refreshHeld := by
  unfold ledgerFinalOp
  rw [hjob]
  dsimp only
  rw [hqueue]
  dsimp only
  rw [if_neg (by simp [howed])]
  rfl

/-! ### Packets -/

/-- What is packed fits: it was within the payload, and each record joins it only where it fits, a first one cut. -/
theorem packFrom_length (limit fuel job shot : Nat) (acc : List Byte) (done l : List QItem) (hacc : acc.length ≤ limit) :
    (packFrom limit fuel job shot acc done l).1.length ≤ limit := by
  induction fuel generalizing acc done l with
  | zero => exact hacc
  | succ fuel ih =>
    cases l with
    | nil => exact hacc
    | cons i l =>
      unfold packFrom
      split
      · exact hacc
      split
      · next hfits => exact ih _ _ _ (by rw [List.length_append]; exact hfits)
      split
      · exact (List.length_take_le ..)
      · exact hacc

/-- The packet that a flow sends next, of the records that wait on it. -/
def nextPacket (d : Dev) (flow : Nat) (i : QItem) (mine : List QItem) : Packet :=
  let r := packFrom (d.payloadMax (d.portOfFlow i.job flow)) mine.length i.job i.shot [] [] mine
  { flow := flow, cont := r.2.2.2, resent := false, seq := tabGet 0 d.hub.pktSeq flow, job := i.job, first := i.shot
    last := i.shot, epoch := d.epoch, port := d.portOfFlow i.job flow, payload := r.1, sentAt := d.epoch }

/-- The device once that packet has taken its number and its records. -/
def packetTaken (d : Dev) (flow : Nat) (i : QItem) (mine : List QItem) : Dev :=
  { d with hub := { d.hub with
      qrs := (d.hub.qrs.filter fun (x : QItem) => x.flow != flow) ++
        (packFrom (d.payloadMax (d.portOfFlow i.job flow)) mine.length i.job i.shot [] [] mine).2.2.1
      pktSeq := tabSet 0 d.hub.pktSeq flow (tabGet 0 d.hub.pktSeq flow + 1)
      sent := if i.job = 0 ∧ flow ≠ 9 then d.hub.sent else d.hub.sent ++ [nextPacket d flow i mine] } }

theorem qrsPacketSend_next {flow : Nat} {i : QItem} {l : List QItem}
    (hnone : d.hub.resend.find? (fun p => p.flow == flow) = none) (hmine : d.hub.qrs.filter (fun x => x.flow == flow) = i :: l)
    (hsends : d.portSends (d.portOfFlow i.job flow) = true) (hroom : 0 < d.payloadMax (d.portOfFlow i.job flow)) :
    qrsPacketSendOp flow d =
      (if (packFrom (d.payloadMax (d.portOfFlow i.job flow)) (i :: l).length i.job i.shot [] [] (i :: l)).2.1.any (·.summary) then
        (packetTaken d flow i (i :: l)).modJob i.job fun j => j.summarySent flow i.shot d.epoch
      else packetTaken d flow i (i :: l)).putPacket (nextPacket d flow i (i :: l)) := by
  unfold qrsPacketSendOp
  rw [hnone, hmine]
  dsimp only
  rw [hsends, if_pos (by simpa using hroom)]
  rfl

theorem qrsPacketSend_again {flow : Nat} {p : Packet} (hfind : d.hub.resend.find? (fun x => x.flow == flow) = some p)
    (hsends : d.portSends (d.portOfFlow p.job flow) = true) :
    (qrsPacketSendOp flow d).hub.lastPkt = some { p with resent := true, port := d.portOfFlow p.job flow, sentAt := d.epoch } ∧
    (qrsPacketSendOp flow d).hub.qrs = d.hub.qrs ∧ (qrsPacketSendOp flow d).objs = d.objs := by
  unfold qrsPacketSendOp
  rw [hfind]
  dsimp only
  rw [if_pos hsends]
  exact ⟨rfl, rfl, rfl⟩

/-! ### Resends -/

/-- The attempts of a job from one on count as sent now. -/
def sentNow (d : Dev) (q shot : Nat) : Dev :=
  d.modJob q fun k => { k with final := k.final.map fun b =>
    if shot ≤ b.shot ∧ b.sentAt.isSome then { b with sentAt := some d.epoch } else b }

theorem resultResend_late {a : Attempt} {l : List Attempt} {sent : Nat} (hjob : d.job q = some j) (hfinal : j.final = a :: l)
    (hall : a.sentFlows.length = a.flows.length) (hat : a.sentAt = some sent) (hlate : sent + d.rd 0x18000B ≤ d.epoch) :
    resultResendOp (some q) d =
      sentNow (d.requeue fun x => x.job == q && x.flow != 9 && decide (a.shot ≤ x.last)) q a.shot := by
  unfold resultResendOp
  dsimp only
  rw [hjob]
  dsimp only
  rw [hfinal, List.find?_cons_of_pos (by simp [hall, hat, hlate])]
  rfl

/-! ### Acknowledgements -/

/-- The first index that no acknowledgement of the job has covered. -/
def Job.unackedFrom (j : Job) : Nat := match j.acked with
  | some a => a + 1
  | none => 0

/-- The job's results up to an index are acknowledged, and the packets that carried them freed. -/
def ackTaken (d : Dev) (q last : Nat) : Dev :=
  let d1 := d.modJob q fun k => { k with acked := some last, final := k.final.filter fun a => decide (last < a.shot) }
  let stays : Packet → Bool := fun p => p.job != q || p.flow == 9 || decide (last < p.last)
  ({ d1 with hub := { d1.hub with sent := d1.hub.sent.filter stays, resend := d1.hub.resend.filter stays } }).refreshHeld

theorem ackPair_covers {last : Nat} (hq : q ≠ 0) (hjob : d.job q = some j) (hnew : j.unackedFrom ≤ last)
    (hcount : (j.final.filter fun a => decide (a.shot ≤ last)).length = last + 1 - j.unackedFrom)
    (hsent : ∀ a ∈ j.final, a.shot ≤ last → ∀ f ∈ a.flows, f ∈ a.sentFlows) :
    d.ackPair q last = (ackTaken d q last).leaveIfDone q := by
  have hall : (j.final.filter fun a => decide (a.shot ≤ last)).all (fun a => a.flows.all a.sentFlows.contains) = true := by
    refine List.all_eq_true.mpr fun a ha => List.all_eq_true.mpr fun f hf => ?_
    obtain ⟨ha, hshot⟩ := List.mem_filter.mp ha
    rw [List.contains_iff_mem]
    exact hsent a ha (of_decide_eq_true hshot) f hf
  unfold Job.unackedFrom at hnew hcount
  unfold Dev.ackPair
  rw [if_neg hq, hjob]
  dsimp only
  rw [if_neg (by cases hacked : j.acked <;> simp [hacked] at hnew ⊢; omega), if_pos ⟨hcount, hall⟩]
  rfl

theorem ackTaken_job (last : Nat) (hjob : d.job q = some j) : (ackTaken d q last).job q =
    some { j with acked := some last, final := j.final.filter fun a => decide (last < a.shot) } :=
  (job_congr (e := ackTaken d q last) (d := ackTaken d q last) rfl q).trans
    (job_modJob (f := fun k => { k with acked := some last, final := k.final.filter fun a => decide (last < a.shot) })
      (fun _ => rfl) hjob)

theorem qrsAck_takes {r : Req} {last : Nat} (hbooted : d.pwr.booted = true) (hup : d.anyPortUp = true)
    (hdrop : d.dropsAck r 1 [(q, last)] = false) : qrsAckOp r 1 [(q, last)] d = (d.ackPair q last).afterAck := by
  unfold qrsAckOp
  rw [hbooted, hup, hdrop]
  rfl

theorem job_leave (d : Dev) (q : Nat) : (d.leave q).job q = none := by
  refine List.find?_eq_none.mpr fun j hj => ?_
  have hmem : j ∈ d.hub.jobs.filter (·.seq != q) := hj
  simpa using (List.mem_filter.mp hmem).2

/-- A job that has not ended keeps its place in the ledger. -/
theorem leaveIfDone_stays (hjob : d.job q = some j) (hended : j.st ≠ .ended) (hcancelled : j.st ≠ .cancelled) :
    d.leaveIfDone q = d := by
  unfold Dev.leaveIfDone
  rw [hjob]
  exact if_neg (by simp [hended, hcancelled])

theorem leaveIfDone_leaves (hjob : d.job q = some j) (hended : j.st = .ended) (hqueue : j.queued = []) (hfinal : j.final = [])
    (htent : j.tentative = none) : d.leaveIfDone q = d.leave q := by
  unfold Dev.leaveIfDone
  rw [hjob]
  exact if_pos ⟨.inl hended, hqueue, hfinal, by simp [htent]⟩

end
section
variable (s : State)
theorem exec_ledgerFinal (q : Nat) : exec (.ledgerFinal q) s = .next (s.onNow (ledgerFinalOp q)) := rfl
theorem exec_qrsPacketSend (flow : Nat) : exec (.qrsPacketSend flow) s = .next (s.onNow (qrsPacketSendOp flow)) := rfl
theorem exec_resultResend (q : Option Nat) : exec (.resultResend q) s = .next (s.onNow (resultResendOp q)) := rfl
theorem exec_qrsAck (r : Req) (n : Nat) (l : List (Nat × Nat)) : exec (.qrsAck r n l) s = .next (s.onNow (qrsAckOp r n l)) := rfl
end

/-- Settles O48: what a packet packs never passes what its port carries; an acknowledgement that covers a job's results leaves the
job with the rest, and no start that it lets be sought, at the root or elsewhere, brings a job back that has left. -/
theorem resultsDelivered : Obligations.ResultsDelivered := by
  unfold Obligations.ResultsDelivered
  intro s q j hjob
  refine ⟨fun a rest hqueue howed => ?final, fun flow i l hnone hmine hsends hroom => ?packet,
    fun flow p hfind hsends => ?again, fun a l sent hfinal hall hat hlate => ?resend,
    fun r last first hq hbooted hup hdrop hfirst hnew hcount hsent => ?ack, fun r pairs hbooted hup hdrop => ?dropped⟩
  case final =>
    have hddr : (ledgerFinalOp q s.now).ddr = s.now.ddr := by simp
    have hop := ledgerFinal_eq hjob hqueue howed
    have hjob' : (s.now.modJob q fun k => { k with queued := rest, final := k.final ++ [a] }).job q =
        some { j with queued := rest, final := j.final ++ [a] } := job_modJob (fun _ => rfl) hjob
    refine ⟨s.onNow (ledgerFinalOp q), { j with queued := rest, final := j.final ++ [a] }, exec_ledgerFinal s q, ?_⟩
    simp only [State.onNow, hop] at hddr ⊢
    exact ⟨hjob', trivial, trivial, rfl, rfl, hddr⟩
  case packet =>
    have hddr : (qrsPacketSendOp flow s.now).ddr = s.now.ddr := by simp
    have hop := qrsPacketSend_next hnone hmine hsends hroom
    refine ⟨s.onNow (qrsPacketSendOp flow), nextPacket s.now flow i (i :: l), exec_qrsPacketSend s flow, ?_⟩
    simp only [State.onNow, hop] at hddr ⊢
    refine ⟨rfl, rfl, rfl, rfl, rfl, rfl, rfl, rfl, rfl, packFrom_length _ _ _ _ _ _ _ (Nat.zero_le _), ?_, ?_, hddr⟩
    · refine .trans ?_ (tabGet_set_self 0 s.now.hub.pktSeq flow _)
      split <;> rfl
    · split <;> rfl
  case again =>
    have hddr : (qrsPacketSendOp flow s.now).ddr = s.now.ddr := by simp
    obtain ⟨hlast, hqrs, hobjs⟩ := qrsPacketSend_again hfind hsends
    exact ⟨s.onNow (qrsPacketSendOp flow), exec_qrsPacketSend s flow, hlast, hqrs, hobjs, hddr⟩
  case resend =>
    have hddr : (resultResendOp (some q) s.now).ddr = s.now.ddr := by simp
    have hop := resultResend_late hjob hfinal hall hat hlate
    refine ⟨s.onNow (resultResendOp (some q)), exec_resultResend s _, ?_⟩
    simp only [State.onNow, hop] at hddr ⊢
    exact ⟨rfl, rfl, rfl, hddr⟩
  case ack =>
    have hfirst' : first = j.unackedFrom := hfirst
    subst hfirst'
    have hddr : (qrsAckOp r 1 [(q, last)] s.now).ddr = s.now.ddr := by simp
    have hop := (qrsAck_takes hbooted hup hdrop).trans
      (congrArg Dev.afterAck (ackPair_covers hq hjob hnew hcount hsent))
    have htaken := ackTaken_job last hjob
    refine ⟨fun hended hcancelled hmember => ?_, fun hended hqueue htent hcovers => ?_⟩
    · rw [leaveIfDone_stays htaken hended hcancelled] at hop
      have hsought : (ackTaken s.now q last).Sought (ackTaken s.now q last).afterAck :=
        sought_seekStarts (fun j : Job => j.seq) _ (d := ackTaken s.now q last) hmember
      obtain ⟨j', hjob', hstands⟩ := hsought.job_some htaken
      refine ⟨s.onNow (qrsAckOp r 1 [(q, last)]), j', exec_qrsAck s r 1 _, ?_⟩
      simp only [State.onNow, hop] at hddr ⊢
      exact ⟨hjob', congrArg Job.acked hstands, congrArg Job.final hstands, hddr⟩
    · have hnothing : j.final.filter (fun a => decide (last < a.shot)) = [] :=
        List.filter_eq_nil_iff.mpr fun a ha => by simpa using hcovers a ha
      rw [leaveIfDone_leaves htaken hended hqueue hnothing htent] at hop
      refine ⟨s.onNow (qrsAckOp r 1 [(q, last)]), exec_qrsAck s r 1 _, ?_⟩
      simp only [State.onNow, hop] at hddr ⊢
      exact ⟨(ledgerKept_afterAck _).job_none (job_leave _ q), hddr⟩
  case dropped =>
    refine does_of_onNow (exec_qrsAck s r _ pairs) ?_
    unfold qrsAckOp
    rw [hbooted, hup, hdrop]
    rfl

end Sys2Proof.Machine
end

section
/-! Beats: what a root sends, and what a chip does with one that it receives (R59 to R64, R68, R73, R77, R79). -/

namespace Sys2Proof.Machine

section
variable {d e : Dev}

/-! ### Beats on their links -/

theorem mem_beats_sendBeat (b c : BeatMsg) (k n : Nat) (h : c ∈ (d.link n).beats) : c ∈ ((d.sendBeat b k).link n).beats := by
  unfold Dev.sendBeat
  split
  · by_cases hn : n = k
    · subst hn
      rw [Dev.link_setLink_self]
      exact List.mem_append_left _ h
    · rw [Dev.link_setLink_other _ _ _ _ hn]
      exact h
  · exact h

theorem linkUp_sendBeat (b : BeatMsg) (k n : Nat) : (d.sendBeat b k).linkUp n = d.linkUp n := by
  unfold Dev.sendBeat
  split
  · unfold Dev.linkUp
    rw [Dev.rd_setLink, if_neg (by unfold unitKey; omega)]
  · rfl

theorem beat_mem_sendBeat (b : BeatMsg) (k : Nat) (hup : d.linkUp k = true) : b ∈ ((d.sendBeat b k).link k).beats := by
  unfold Dev.sendBeat
  rw [if_pos hup, Dev.link_setLink_self]
  exact List.mem_append_right _ List.mem_cons_self

theorem mem_beats_sendBeats (b c : BeatMsg) (l : List Nat) (n : Nat) (h : c ∈ (d.link n).beats) :
    c ∈ ((l.foldl (fun f k => f.sendBeat b k) d).link n).beats :=
  List.foldlRecOn (motive := fun f : Dev => c ∈ (f.link n).beats) l _ h fun _ hf k _ => mem_beats_sendBeat b c k n hf

theorem linkUp_sendBeats (b : BeatMsg) (l : List Nat) (n : Nat) :
    (l.foldl (fun f k => f.sendBeat b k) d).linkUp n = d.linkUp n :=
  List.foldlRecOn (motive := fun f : Dev => f.linkUp n = d.linkUp n) l _ rfl fun _ hf k _ => (linkUp_sendBeat b k n).trans hf

theorem beat_mem_sendBeats (b : BeatMsg) (l : List Nat) {k : Nat} (hk : k ∈ l) (hup : d.linkUp k = true) :
    b ∈ ((l.foldl (fun f k => f.sendBeat b k) d).link k).beats := by
  induction l generalizing d with
  | nil => cases hk
  | cons i l ih =>
    rw [List.foldl_cons]
    rcases List.mem_cons.mp hk with rfl | hk
    · exact mem_beats_sendBeats b b l k (beat_mem_sendBeat b k hup)
    · exact ih hk ((linkUp_sendBeat b i k).trans hup)

/-- Beats that are sent leave the hub, the lattice's state and every object but those of the links. -/
theorem sendBeats_leaves (b : BeatMsg) (l : List Nat) :
    (l.foldl (fun f k => f.sendBeat b k) d).hub = d.hub ∧ (l.foldl (fun f k => f.sendBeat b k) d).lat = d.lat ∧
    (l.foldl (fun f k => f.sendBeat b k) d).epoch = d.epoch ∧
    ∀ key, key < 0x240000 → (l.foldl (fun f k => f.sendBeat b k) d).rd key = d.rd key := by
  refine List.foldlRecOn (motive := fun f : Dev => f.hub = d.hub ∧ f.lat = d.lat ∧ f.epoch = d.epoch ∧
    ∀ key, key < 0x240000 → f.rd key = d.rd key) l _ ⟨rfl, rfl, rfl, fun _ _ => rfl⟩ fun f ⟨hhub, hlat, hepoch, hrd⟩ k hk => ?_
  refine ⟨(Dev.sendBeat_hub ..).trans hhub, (Dev.sendBeat_lat ..).trans hlat, (Dev.sendBeat_epoch ..).trans hepoch, fun key hkey => ?_⟩
  refine .trans ?_ (hrd key hkey)
  unfold Dev.sendBeat
  split
  · rw [Dev.rd_setLink, if_neg]
    unfold unitKey
    omega
  · rfl

/-! ### The beats of a root -/

/-- The device once the beats of both trees are on their links. -/
def beatsSent (d : Dev) : Dev :=
  [false, true].foldl (fun e x => (d.treeLinks x).foldl (fun f k => f.sendBeat (d.makeBeat x) k) e) d

theorem beatSend_eq (hroot : d.lat.st = .root) (hbeating : d.lat.beating = true) (hslot : d.epoch % 750 = 0)
    (hnew : d.lat.beatSlot ≠ some d.epoch) : beatSendOp d =
      ({ beatsSent d with lat := { d.lat with
          sentBeats := [false, true].map fun x => (d.makeBeat x, d.treeLinks x)
          beatSlot := some d.epoch, lastSlot := some d.epoch
          leaseEnd := d.epoch + (if d.lat.releaseDue then 0 else 9000), beating := !d.lat.releaseDue, releaseDue := false } } : Dev).wr
        0x201104 (if d.lat.releaseDue then 0 else 9000) := by
  unfold beatSendOp
  rw [if_pos ⟨hroot, hbeating, hslot, hnew⟩]
  rfl

theorem beatsSent_hub (d : Dev) : (beatsSent d).hub = d.hub :=
  (sendBeats_leaves (d.makeBeat true) (d.treeLinks true)).1.trans
    (sendBeats_leaves (d.makeBeat false) (d.treeLinks false)).1

theorem beatsSent_beats {x : Bool} {k : Nat} (hk : k ∈ d.treeLinks x) (hup : d.linkUp k = true) :
    d.makeBeat x ∈ ((beatsSent d).link k).beats := by
  cases x with
  | false => exact mem_beats_sendBeats _ _ _ _ (beat_mem_sendBeats _ _ hk hup)
  | true => exact beat_mem_sendBeats _ _ hk ((linkUp_sendBeats _ _ k).trans hup)

/-! ### A beat of the followed root -/

/-- The state of a path after a beat. -/
def pathBeaten (d : Dev) (link : Nat) (b : BeatMsg) : PathSt :=
  let p := d.lat.path b.path
  let run := p.goodRun + 1
  let delay := if d.lat.st = .listening then b.accDelay else d.beatDelay link b
  { p with
    lastSlot := some b.slot, expect := b.slot + 750, goodRun := run, out := p.out && !(p.out && decide (750 ≤ run))
    latency := delay / 128, hops := b.hops + 1, got := some (link, b.slot, delay, d.epoch)
    heard := if d.lat.st = .listening then p.heard + 1 else p.heard }

/-- The device once the path and its objects follow the beat. -/
def pathFollows (d : Dev) (link : Nat) (b : BeatMsg) : Dev :=
  ((d.wrs [(if b.path then 0x201106 else 0x201105, 0), (0x201104, b.lease)]).setPath b.path (pathBeaten d link b)).spineLatency

/-- The device once the lease follows the beat too. -/
def leaseFollows (d : Dev) (link : Nat) (b : BeatMsg) : Dev :=
  let d2 := pathFollows d link b
  { d2 with lat := { d2.lat with
    leaseEnd := b.slot + b.lease, releaseSlot := if b.release then some b.slot else d2.lat.releaseSlot
    resyncSlots := if d2.lat.st = .resync ∧ !d2.lat.resyncSlots.contains b.slot then d2.lat.resyncSlots ++ [b.slot]
      else d2.lat.resyncSlots } }

theorem takeBeat_eq (d : Dev) (link : Nat) (b : BeatMsg) : d.takeBeat link b =
    if (d.lat.path b.path).out && decide (750 ≤ (d.lat.path b.path).goodRun + 1) then
      ((leaseFollows d link b).flag 0x781001 4).pathState
    else leaseFollows d link b := rfl

theorem setPath_lat (d : Dev) (sec : Bool) (p : PathSt) : (d.setPath sec p).lat.st = d.lat.st ∧
    (d.setPath sec p).lat.rank = d.lat.rank ∧ (d.setPath sec p).lat.sentBeats = d.lat.sentBeats ∧
    (d.setPath sec p).lat.excluded = d.lat.excluded ∧ (d.setPath sec p).lat.path sec = p := by
  cases sec <;> exact ⟨rfl, rfl, rfl, rfl, rfl⟩

/-- What a beat of the followed root leaves, and where it stands afterwards. -/
structure BeatTaken (d e : Dev) (b : BeatMsg) : Prop where
  st : e.lat.st = d.lat.st
  rank : e.lat.rank = d.lat.rank
  sent : e.lat.sentBeats = d.lat.sentBeats
  hub : e.hub = d.hub
  lease : e.lat.leaseEnd = b.slot + b.lease
  seen : (e.lat.path b.path).seen = (d.lat.path b.path).seen
  missed : e.rd (if b.path then 0x201106 else 0x201105) = 0
  granted : e.rd 0x201104 = b.lease
  rd : ∀ key, key < 0x201104 → e.rd key = d.rd key

theorem leaseFollows_taken (d : Dev) (link : Nat) (b : BeatMsg) : BeatTaken d (leaseFollows d link b) b := by
  obtain ⟨hst, hrank, hsent, -, hpath⟩ := setPath_lat (d.wrs [(if b.path then 0x201106 else 0x201105, 0), (0x201104, b.lease)])
    b.path (pathBeaten d link b)
  have hrd : ∀ key, key ≠ 0x20110A → (leaseFollows d link b).rd key =
      (d.wrs [(if b.path then 0x201106 else 0x201105, 0), (0x201104, b.lease)]).rd key :=
    fun key hkey => Dev.rd_wr_other _ _ _ _ hkey
  refine ⟨hst, hrank, hsent, rfl, rfl, ?_, ?_, ?_, fun key hkey => ?_⟩
  · have hsame : (leaseFollows d link b).lat.path b.path = pathBeaten d link b := by
      refine .trans ?_ hpath
      unfold leaseFollows pathFollows Dev.spineLatency Lat.path
      cases b.path <;> rfl
    rw [hsame]
    rfl
  · rw [hrd _ (by split <;> decide), Dev.wrs_cons, Dev.rd_wrs_other _ _ _ (by cases b.path <;> simp), Dev.rd_wr_self]
  · rw [hrd _ (by decide)]
    exact Dev.rd_wr_self ..
  · rw [hrd _ (by omega)]
    refine Dev.rd_wrs_other _ _ _ fun p hp => ?_
    rcases List.mem_cons.mp hp with rfl | hp
    · dsimp only
      split <;> omega
    · rw [List.mem_singleton.mp hp]
      dsimp only
      omega

theorem takeBeat_taken (d : Dev) (link : Nat) (b : BeatMsg) : BeatTaken d (d.takeBeat link b) b := by
  obtain ⟨hst, hrank, hsent, hhub, hlease, hseen, hmissed, hgranted, hrd⟩ := leaseFollows_taken d link b
  rw [takeBeat_eq]
  generalize leaseFollows d link b = e at *
  split
  · have hback : ∀ key, key < 0x300000 → ((e.flag 0x781001 4).pathState).rd key = e.rd key := fun key hkey => by
      unfold Dev.pathState
      rw [Dev.rd_wr_other _ _ _ _ (by omega), Dev.rd_flag_other _ _ _ _ (by omega)]
    have hlat : ((e.flag 0x781001 4).pathState).lat = e.lat := Dev.flag_lat ..
    refine ⟨by rw [hlat, hst], by rw [hlat, hrank], by rw [hlat, hsent], (Dev.flag_hub ..).trans hhub, by rw [hlat, hlease],
      by rw [hlat, hseen], ?_, ?_, fun key hkey => ?_⟩
    · rw [hback _ (by split <;> decide), hmissed]
    · rw [hback _ (by decide), hgranted]
    · rw [hback _ (by omega), hrd _ hkey]
  · exact ⟨hst, hrank, hsent, hhub, hlease, hseen, hmissed, hgranted, hrd⟩

/-! ### A beat that is received -/

/-- The first copy of a beat is noted, and goes on along its tree. -/
def beatForwarded (d : Dev) (link : Nat) (b : BeatMsg) : Dev :=
  ((d.setPath b.path { d.lat.path b.path with seen := (d.lat.path b.path).seen ++ [(b.term, b.slot)] }).forwardBeat link b).noteSlot b

theorem beatOp_first {link : Nat} {b : BeatMsg} (hup : d.linkUp link = true) (hid : b.latticeId = d.rd 0x201002)
    (hin : d.lat.excluded.contains link = false) (hnew : (d.lat.path b.path).seen.contains (b.term, b.slot) = false) :
    beatOp link b d = (beatForwarded d link b).useBeat link b := by
  unfold beatOp
  rw [hup, if_neg (by simp), if_neg (by simp [hid]), hin, if_neg (by simp)]
  dsimp only
  rw [hnew, if_neg (by simp)]
  rfl

/-- What a beat that goes on leaves: the root that the chip follows, and all but the slot, the path's copies and the links. -/
structure BeatNoted (d e : Dev) (link : Nat) (b : BeatMsg) : Prop where
  st : e.lat.st = d.lat.st
  rank : e.lat.rank = d.lat.rank
  hub : e.hub = d.hub
  seen : (b.term, b.slot) ∈ (e.lat.path b.path).seen
  sent : ∃ out, e.lat.sentBeats = [(out, (d.treeLinks b.path).filter (· != link))] ∧ out.hops = b.hops + 1 ∧ out.slot = b.slot
  rd : ∀ key, key < 0x240000 → e.rd key = d.rd key

theorem noteSlot_lat (d : Dev) (b : BeatMsg) : ∃ l, d.noteSlot b = { d with lat := { d.lat with lastSlot := l } } := by
  unfold Dev.noteSlot
  split
  · exact ⟨_, rfl⟩
  · exact ⟨d.lat.lastSlot, rfl⟩

theorem treeLinks_setPath (d : Dev) (sec x : Bool) (p : PathSt) : (d.setPath sec p).treeLinks x = d.treeLinks x := by
  cases sec <;> rfl

theorem beatForwarded_noted (d : Dev) (link : Nat) (b : BeatMsg) : BeatNoted d (beatForwarded d link b) link b := by
  unfold beatForwarded
  obtain ⟨hst, hrank, -, -, hpath⟩ := setPath_lat d b.path
    { d.lat.path b.path with seen := (d.lat.path b.path).seen ++ [(b.term, b.slot)] }
  have htree := treeLinks_setPath d b.path b.path { d.lat.path b.path with seen := (d.lat.path b.path).seen ++ [(b.term, b.slot)] }
  have hhub' : (d.setPath b.path { d.lat.path b.path with seen := (d.lat.path b.path).seen ++ [(b.term, b.slot)] }).hub = d.hub := rfl
  have hrd' : ∀ key, (d.setPath b.path { d.lat.path b.path with
    seen := (d.lat.path b.path).seen ++ [(b.term, b.slot)] }).rd key = d.rd key := fun _ => rfl
  generalize d.setPath b.path { d.lat.path b.path with seen := (d.lat.path b.path).seen ++ [(b.term, b.slot)] } = f at *
  obtain ⟨l, hslot⟩ := noteSlot_lat (f.forwardBeat link b) b
  rw [hslot]
  unfold Dev.forwardBeat
  dsimp only
  rw [htree]
  obtain ⟨hhub, hlat, -, hrd⟩ := sendBeats_leaves (d := f)
    { b with hops := b.hops + 1, accDelay := f.beatDelay link b + Config.forwardDelay link }
    ((d.treeLinks b.path).filter (· != link))
  have hlatkept : ∀ (e : Dev) (t : Lat), ({ e with lat := t } : Dev).hub = e.hub ∧ ∀ key, ({ e with lat := t } : Dev).rd key = e.rd key :=
    fun _ _ => ⟨rfl, fun _ => rfl⟩
  generalize ((d.treeLinks b.path).filter (· != link)).foldl (fun e k =>
    e.sendBeat { b with hops := b.hops + 1, accDelay := f.beatDelay link b + Config.forwardDelay link } k) f = e at *
  rw [hlat]
  refine ⟨hst, hrank, hhub.trans hhub', ?_, ⟨_, rfl, rfl, rfl⟩, fun key hkey => (hrd key hkey).trans (hrd' key)⟩
  have hsame : ∀ (t : Lat) s n, Lat.path { t with sentBeats := s, lastSlot := n } b.path = t.path b.path :=
    fun t s n => by cases b.path <;> rfl
  show (b.term, b.slot) ∈ (Lat.path { f.lat with sentBeats := _, lastSlot := l } b.path).seen
  rw [hsame, hpath]
  exact List.mem_append_right _ List.mem_cons_self

/-- The chip goes to a new root through RESYNC. -/
def rootChanged (d : Dev) (bit : Nat) (b : BeatMsg) : Dev := ((d.flag 0x200004 bit).follow b).enterResync

theorem clockSource_leaves (d : Dev) (disciplined holdover : Bool) : (d.clockSource disciplined holdover).lat = d.lat ∧
    (d.clockSource disciplined holdover).hub = d.hub ∧ (d.clockSource disciplined holdover).eas = d.eas ∧
    (d.clockSource disciplined holdover).epoch = d.epoch ∧
    ∀ key, key ≠ 0x200003 → (d.clockSource disciplined holdover).rd key = d.rd key := by
  unfold Dev.clockSource
  refine ⟨?_, ?_, ?_, ?_, fun key hkey => ?_⟩
  · rw [Dev.wrBit_lat, Dev.wrBit_lat, Dev.wrBit_lat]
  · rw [Dev.wrBit_hub, Dev.wrBit_hub, Dev.wrBit_hub]
  · rw [Dev.wrBit_eas, Dev.wrBit_eas, Dev.wrBit_eas]
  · rw [Dev.wrBit_epoch, Dev.wrBit_epoch, Dev.wrBit_epoch]
  · rw [Dev.rd_wrBit_other _ _ _ _ _ hkey, Dev.rd_wrBit_other _ _ _ _ _ hkey, Dev.rd_wrBit_other _ _ _ _ _ hkey]

theorem enterResync_leaves (d : Dev) : d.enterResync.lat.st = .resync ∧ d.enterResync.lat.rank = d.lat.rank ∧
    d.enterResync.hub = d.hub ∧ ∀ key, key ≠ 0x200003 → key ≠ 0x201108 → d.enterResync.rd key = d.rd key := by
  obtain ⟨hlat, hhub, -, -, hrd⟩ := clockSource_leaves d true false
  refine ⟨rfl, ?_, hhub, fun key hkey hlen => (Dev.rd_wr_other _ _ _ _ hlen).trans (hrd key hkey)⟩
  show (d.clockSource true false).lat.rank = d.lat.rank
  rw [hlat]

theorem follow_leaves (d : Dev) (b : BeatMsg) : (d.follow b).lat.rank = b.rank ∧ (d.follow b).hub = d.hub ∧
    (d.follow b).rd 0x201103 = b.term ∧ (d.follow b).rd 0x201102 = b.root ∧ (d.follow b).rd 0x200004 = d.rd 0x200004 := by
  refine ⟨rfl, rfl, Dev.rd_wr_self .., ?_, ?_⟩
  · exact (Dev.rd_wr_other _ _ _ _ (show 0x201102 ≠ 0x201103 by decide)).trans (Dev.rd_wr_self ..)
  · exact (Dev.rd_wr_other _ _ _ _ (show 0x200004 ≠ 0x201103 by decide)).trans
      (Dev.rd_wr_other _ _ _ _ (show 0x200004 ≠ 0x201102 by decide))

theorem rootChanged_leaves (d : Dev) (bit : Nat) (b : BeatMsg) : (rootChanged d bit b).lat.st = .resync ∧
    (rootChanged d bit b).lat.rank = b.rank ∧ (rootChanged d bit b).rd 0x201103 = b.term ∧
    (rootChanged d bit b).rd 0x201102 = b.root ∧ (rootChanged d bit b).bit 0x200004 bit = true ∧
    (rootChanged d bit b).hub = d.hub := by
  have hflag := Dev.bit_flag_self d 0x200004 bit
  have hhub := Dev.flag_hub d 0x200004 bit
  unfold rootChanged
  generalize d.flag 0x200004 bit = e at *
  obtain ⟨hrank, hhub', hterm, hroot, hflags⟩ := follow_leaves e b
  generalize e.follow b = f at *
  obtain ⟨hst, hrank', hhub'', hrd⟩ := enterResync_leaves f
  refine ⟨hst, hrank'.trans hrank, (hrd _ (by decide) (by decide)).trans hterm, (hrd _ (by decide) (by decide)).trans hroot, ?_,
    (hhub''.trans hhub').trans hhub⟩
  unfold Dev.bit at hflag ⊢
  rw [hrd _ (by decide) (by decide), hflags, hflag]

theorem outranks_iff {b : BeatMsg} : d.outranks b = true ↔
    d.rd 0x201103 < b.term ∨ (b.term = d.rd 0x201103 ∧ b.rank < d.lat.rank) := by
  unfold Dev.outranks
  simp

/-- A member takes a beat of its root as it is. -/
theorem useBeat_own {link : Nat} {b : BeatMsg} (hst : d.lat.st = .joined) (hterm : b.term = d.rd 0x201103)
    (hrank : b.rank = d.lat.rank) : d.useBeat link b = d.takeBeat link b := by
  have hno : d.outranks b = false := by
    rw [Bool.eq_false_iff]
    intro h
    rcases outranks_iff.mp h with h | ⟨-, h⟩ <;> omega
  unfold Dev.useBeat
  rw [hst]
  dsimp only
  unfold Dev.memberBeat
  rw [hno, if_neg (by simp), if_pos ⟨hterm, hrank⟩]
  rfl

/-- A beat that outranks the root takes a member, or the root itself, to the new one. -/
theorem useBeat_outranked {link : Nat} {b : BeatMsg} (hst : d.lat.st = .joined ∨ d.lat.st = .holdover ∨ d.lat.st = .resync ∨
    d.lat.st = .root) (hout : d.outranks b = true) : d.useBeat link b =
      (rootChanged d (if d.lat.st = .root then 10 else 7) b).takeBeat link b := by
  unfold Dev.useBeat
  rcases hst with h | h | h | h
  · rw [h]
    exact if_pos hout
  · rw [h]
    exact if_pos hout
  · rw [h]
    exact if_pos hout
  · rw [h]
    exact if_pos hout

end
end Sys2Proof.Machine
end

section
/-! Missed beats, the root token, holdover, resynchronisation and the join (R47, R63 to R69, R74 to R88, R644). -/

namespace Sys2Proof.Machine

section
variable {d e : Dev}

/-! ### Missed beats and root loss -/

theorem bbWrite_lat (d : Dev) (btype ukind uidx cause job shot : Nat) (payload : List Byte) :
    (d.bbWrite btype ukind uidx cause job shot payload).lat = d.lat := by
  have hnote : ∀ (e : Dev) n, (e.noteStamp n).lat = e.lat := fun e n => by
    unfold Dev.noteStamp
    split <;> simp
  unfold Dev.bbWrite
  dsimp only
  rw [Dev.trace_lat, hnote]
  split_ifs <;> simp [Dev.bbObjects]

theorem bbWrite_epoch (d : Dev) (btype ukind uidx cause job shot : Nat) (payload : List Byte) :
    (d.bbWrite btype ukind uidx cause job shot payload).epoch = d.epoch := by
  have hnote : ∀ (e : Dev) n, (e.noteStamp n).epoch = e.epoch := fun e n => by
    unfold Dev.noteStamp
    split <;> simp
  unfold Dev.bbWrite
  dsimp only
  rw [Dev.trace_epoch, hnote]
  split_ifs <;> simp [Dev.bbObjects]

/-- What the lattice's part of the device shows of a change: its paths, its clock and the objects of the time base. -/
structure PathsKept (d e : Dev) : Prop where
  path : ∀ x, e.lat.path x = d.lat.path x
  eas : e.eas = d.eas
  rd : ∀ key, 0x201000 ≤ key → key < 0x202000 → e.rd key = d.rd key
  bit : ∀ n, d.bit 0x200004 n = true → e.bit 0x200004 n = true

theorem pathOut_keeps (d : Dev) (sec : Bool) : PathsKept d (d.pathOut sec) ∧ (d.pathOut sec).lat = d.lat ∧
    (d.pathOut sec).epoch = d.epoch := by
  unfold Dev.pathOut Dev.pathState
  dsimp only
  generalize (le 1 d.lat.st.code ++ le 4 (d.rd 0x201103) ++ le 1 (d.rd 0x201105) ++ le 1 (d.rd 0x201106)) = payload
  have hrd : ∀ key, key < 0x203000 → ∀ v, (((d.flag 0x781001 3).wr 0x781002 v).bbWrite 5 13 (if sec then 1 else 0) 8 0 0 payload).rd key =
      d.rd key := fun key hkey v => by
    rw [rd_bbWrite_other _ _ _ _ _ _ _ _ (by omega), Dev.rd_wr_other _ _ _ _ (by omega), Dev.rd_flag_other _ _ _ _ (by omega)]
  refine ⟨⟨fun x => ?_, ?_, fun key _ hkey => hrd key (by omega) _, fun n hn => ?_⟩, ?_, ?_⟩
  · rw [bbWrite_lat, Dev.wr_lat, Dev.flag_lat]
  · obtain ⟨_, -, heas⟩ := bbWrite_leaves ((d.flag 0x781001 3).wr 0x781002 (match d.lat.prim.out, d.lat.sec.out with
      | false, false => 0
      | false, true => 1
      | true, false => 2
      | true, true => 3)) 5 13 (if sec then 1 else 0) 8 0 0 payload
    rw [Dev.flag_lat]
    exact heas.trans (by rw [Dev.wr_eas, Dev.flag_eas])
  · unfold Dev.bit at hn ⊢
    rw [hrd _ (by decide), hn]
  · rw [bbWrite_lat, Dev.wr_lat, Dev.flag_lat]
  · rw [bbWrite_epoch, Dev.wr_epoch, Dev.flag_epoch]

theorem spoilAll_leaves (d : Dev) : d.spoilAll.lat = d.lat ∧ d.spoilAll.eas = d.eas ∧ d.spoilAll.objs = d.objs := ⟨rfl, rfl, rfl⟩

/-- Root loss takes the chip to HOLDOVER, its paths as they were. -/
theorem rootLoss_leaves (d : Dev) : d.rootLoss.lat.st = .holdover ∧ d.rootLoss.lat.holdStart = d.epoch ∧
    d.rootLoss.bit 0x200004 5 = true ∧ PathsKept d d.rootLoss := by
  have hflag := Dev.bit_flag_self d 0x200004 5
  have hbits := fun n hn => Dev.bit_flag_of_bit d 0x200004 5 n hn
  have hrd : ∀ key, 0x201000 ≤ key → (d.flag 0x200004 5).rd key = d.rd key := fun key hkey =>
    Dev.rd_flag_other _ _ _ _ (by omega)
  have hlat := Dev.flag_lat d 0x200004 5
  have heas := Dev.flag_eas d 0x200004 5
  have hspoil : ∀ (f : Dev) (t : Lat) (c : Prop) [Decidable c],
      (if c then ({ f with lat := t } : Dev) else ({ f with lat := t } : Dev).spoilAll).lat = t ∧
      (if c then ({ f with lat := t } : Dev) else ({ f with lat := t } : Dev).spoilAll).eas = f.eas ∧
      (if c then ({ f with lat := t } : Dev) else ({ f with lat := t } : Dev).spoilAll).objs = f.objs := by
    intro f t c _
    split <;> exact ⟨rfl, rfl, rfl⟩
  unfold Dev.rootLoss
  dsimp only
  generalize d.flag 0x200004 5 = f at *
  have hobjs := Dev.produce_objs f 0x9A
  have hlat' := Dev.produce_lat f 0x9A
  have heas' := Dev.produce_eas f 0x9A
  generalize f.produce 0x9A = g at *
  obtain ⟨hclat, -, hceas, -, hcrd⟩ := clockSource_leaves g false true
  generalize g.clockSource false true = c at *
  obtain ⟨hl, he, ho⟩ := hspoil c { c.lat with st := .holdover, holdStart := d.epoch, resyncSlots := [], slew := none }
    (({ c with lat := { c.lat with st := .holdover, holdStart := d.epoch, resyncSlots := [], slew := none } } : Dev).bit 0x200003 0 = true)
  have hword : ∀ key, key ≠ 0x200003 → c.rd key = f.rd key := fun key hkey => (hcrd key hkey).trans (Dev.rd_congr hobjs key)
  rw [hl]
  refine ⟨rfl, rfl, ?_, fun x => ?_, he.trans (hceas.trans (heas'.trans heas)), fun key hlow hhigh => ?_, fun n hn => ?_⟩
  · rw [Dev.bit_congr ho]
    unfold Dev.bit at hflag ⊢
    rw [hword _ (by decide), hflag]
  · rw [hl, hclat, hlat', hlat]
    cases x <;> rfl
  · rw [Dev.rd_congr ho, hword _ (by omega), hrd _ hlow]
  · have hn' := hbits n hn
    rw [Dev.bit_congr ho]
    unfold Dev.bit at hn' ⊢
    rw [hword _ (by decide), hn']

/-- The objects and the flag of a path's missed beat, and a state for the path. -/
def missCounted (d : Dev) (sec : Bool) (p : PathSt) : Dev :=
  ((d.wr (if sec then 0x201106 else 0x201105) (min (d.rd (if sec then 0x201106 else 0x201105) + 1) 255)).flag 0x200004
    (if sec then 4 else 3)).setPath sec p

/-- The ticks of a path's misses that still count. -/
def missTicks (d : Dev) (sec : Bool) : List Nat :=
  ((d.lat.path sec).missTicks.filter fun t => d.epoch < t + 750000) ++ [d.epoch]

/-- Whether a path leaves service with a missed beat (R644). -/
def pathGoes (d : Dev) (sec : Bool) : Bool :=
  !(d.lat.path sec).out && decide (8 ≤ (missTicks d sec).length)
    && decide ((if sec then d.rd 0x201003 else d.rd 0x201004) < 12) && d.rd (if sec then 0x201105 else 0x201106) == 0

/-- The device once a path's miss is counted. -/
def missNoted (d : Dev) (sec : Bool) : Dev :=
  let d2 := missCounted d sec { d.lat.path sec with
    expect := (d.lat.path sec).expect + 750, goodRun := 0, missTicks := missTicks d sec
    out := (d.lat.path sec).out || pathGoes d sec }
  if pathGoes d sec then d2.pathOut sec else d2

theorem beatMiss_eq {sec : Bool} (hexpects : d.expectsBeats = true)
    (hlink : (if sec then d.rd 0x201004 else d.rd 0x201003) < 12)
    (hdue : (d.lat.path sec).expect + (d.lat.path sec).latency + 75 ≤ d.rootEpoch (d.lat.path sec)) :
    beatMissOp sec d =
      if (missNoted d sec).lat.st ≠ .holdover ∧ 3 ≤ min (d.rd (if sec then 0x201106 else 0x201105) + 1) 255 ∧
          (3 ≤ d.rd (if sec then 0x201105 else 0x201106) ∨
            !decide ((if sec then d.rd 0x201003 else d.rd 0x201004) < 12)) then (missNoted d sec).rootLoss
      else missNoted d sec := by
  unfold beatMissOp
  dsimp only
  rw [hexpects, decide_eq_true hlink, decide_eq_true hdue]
  rfl

theorem missCounted_leaves (d : Dev) (sec : Bool) (p : PathSt) : (missCounted d sec p).lat.st = d.lat.st ∧
    (missCounted d sec p).epoch = d.epoch ∧
    (missCounted d sec p).rd (if sec then 0x201106 else 0x201105) = min (d.rd (if sec then 0x201106 else 0x201105) + 1) 255 ∧
    (missCounted d sec p).lat.path sec = p ∧ (missCounted d sec p).bit 0x200004 (if sec then 4 else 3) = true ∧
    (missCounted d sec p).eas = d.eas := by
  obtain ⟨hst, -, -, -, hpath⟩ := setPath_lat ((d.wr (if sec then 0x201106 else 0x201105)
    (min (d.rd (if sec then 0x201106 else 0x201105) + 1) 255)).flag 0x200004 (if sec then 4 else 3)) sec p
  refine ⟨hst.trans (by rw [Dev.flag_lat, Dev.wr_lat]), (Dev.flag_epoch ..).trans (Dev.wr_epoch ..), ?_, hpath, ?_,
    (Dev.flag_eas ..).trans (Dev.wr_eas ..)⟩
  · exact (Dev.rd_flag_other _ _ _ _ (by split <;> decide)).trans (Dev.rd_wr_self ..)
  · exact Dev.bit_flag_self ..

theorem missNoted_leaves (d : Dev) (sec : Bool) : (missNoted d sec).lat.st = d.lat.st ∧ (missNoted d sec).epoch = d.epoch ∧
    (missNoted d sec).rd (if sec then 0x201106 else 0x201105) = min (d.rd (if sec then 0x201106 else 0x201105) + 1) 255 ∧
    ((missNoted d sec).lat.path sec).expect = (d.lat.path sec).expect + 750 ∧
    (missNoted d sec).bit 0x200004 (if sec then 4 else 3) = true ∧ (missNoted d sec).eas = d.eas := by
  unfold missNoted
  dsimp only
  obtain ⟨hst, hepoch, hrd, hpath, hbit, heas⟩ := missCounted_leaves d sec { d.lat.path sec with
    expect := (d.lat.path sec).expect + 750, goodRun := 0, missTicks := missTicks d sec
    out := (d.lat.path sec).out || pathGoes d sec }
  have hexpect := congrArg PathSt.expect hpath
  generalize missCounted d sec _ = e at *
  split
  · obtain ⟨hkept, hlat, hepoch'⟩ := pathOut_keeps e sec
    refine ⟨(congrArg Lat.st hlat).trans hst, hepoch'.trans hepoch, (hkept.rd _ (by split <;> decide) (by split <;> decide)).trans hrd, ?_,
      hkept.bit _ hbit, hkept.eas.trans heas⟩
    rw [hkept.path]
    exact hexpect
  · exact ⟨hst, hepoch, hrd, hexpect, hbit, heas⟩

end
end Sys2Proof.Machine
end

section
/-! The root token, holdover and resynchronisation (R75 to R88). -/

namespace Sys2Proof.Machine

section
variable {d e : Dev}

/-! ### Starts sought on a chip that runs no multi-chip job -/

theorem job_mem {q : Nat} {j : Job} (hjob : d.job q = some j) : j ∈ d.hub.jobs := List.mem_of_find?_eq_some hjob

/-- No job that is resident runs on several chips. -/
def RunsAlone (d : Dev) : Prop := ∀ j ∈ d.hub.jobs, j.st.resident = true → j.head.multiChip = false

theorem runsAlone_iff : RunsAlone d ↔ d.resident.filter (·.head.multiChip) = [] := by
  unfold RunsAlone Dev.resident
  simp only [List.filter_eq_nil_iff, List.mem_filter, and_imp, Bool.not_eq_true]

theorem runsAlone_sought (halone : RunsAlone d) (hsought : d.Sought e) : RunsAlone e := by
  intro j hj hres
  have hmem : j.standing ∈ d.hub.jobs.map Job.standing := hsought.jobs ▸ List.mem_map_of_mem hj
  obtain ⟨i, hi, hij⟩ := List.mem_map.mp hmem
  have hst : i.st = j.st := (congrArg Job.st hij : i.standing.st = j.standing.st)
  have hhead : i.head = j.head := (congrArg Job.head hij : i.standing.head = j.standing.head)
  rw [← hhead]
  exact halone i hi (by rw [hst]; exact hres)

theorem startThread_lat (d : Dev) (j : Job) (p : CanvasPlace) (start shot : Nat) : (d.startThread j p start shot).lat = d.lat := by
  unfold Dev.startThread
  dsimp only
  rw [Dev.setThread_lat]
  exact (resetThread_stands d j p j.contGens shot).1

theorem placeStart_lat (d : Dev) (q start shot : Nat) : (d.placeStart q start shot).lat = d.lat := by
  unfold Dev.placeStart
  split
  · rfl
  · next j _ =>
    have hfold : (j.held.canvases.foldl (fun e p => e.startThread j p start shot) d).lat = d.lat :=
      List.foldlRecOn (motive := fun e : Dev => e.lat = d.lat) j.held.canvases _ rfl fun e he p _ => (startThread_lat e j p start shot).trans he
    dsimp only
    generalize j.held.canvases.foldl (fun e p => e.startThread j p start shot) d = e at *
    exact hfold

theorem fixStart_lat (d : Dev) (q start shot : Nat) : (d.fixStart q start shot).lat = d.lat := by
  unfold Dev.fixStart
  split
  · rw [placeStart_lat, Dev.flag_lat]
  · exact placeStart_lat ..

theorem resultGate_lat (d : Dev) (j : Job) : (d.resultGate j).1.lat = d.lat := by
  have hmod : ∀ (e : Dev) q f, (e.modJob q f).lat = e.lat := fun _ _ _ => rfl
  unfold Dev.resultGate
  split_ifs
  · rfl
  · rw [hmod, Dev.flag_lat]
  · rfl
  · rw [hmod, Dev.flag_lat]
  · rfl

theorem takeTrigger_lat {i t : Nat} (h : d.takeTrigger i = some (t, e)) : e.lat = d.lat := by
  unfold Dev.takeTrigger at h
  dsimp only at h
  split at h <;> cases h <;> rfl

theorem canSeek_resident {j : Job} (h : d.canSeek j = true) : j.st.resident = true := by
  unfold Dev.canSeek at h
  simp only [Bool.and_eq_true] at h
  obtain ⟨⟨⟨⟨⟨hst, -⟩, -⟩, -⟩, -⟩, -⟩ := h
  cases hs : j.st <;> simp [hs] at hst ⊢ <;> rfl

/-- A start that is sought where no job runs on several chips reports nothing to the root. -/
theorem seek_lat (halone : RunsAlone d) (q : Nat) : (d.seek q).lat = d.lat := by
  unfold Dev.seek
  split
  · rfl
  next j hjob =>
    split
    · rfl
    next hseek =>
      have hone : j.head.multiChip = false := halone j (job_mem hjob) (canSeek_resident (by simpa using hseek))
      dsimp only
      split
      · exact resultGate_lat ..
      rw [hone, if_neg (by simp)]
      split
      · split
        · rfl
        · next htake => rw [fixStart_lat, takeTrigger_lat htake]
      split
      · exact fixStart_lat ..
      · rfl

theorem rootAll_idle (h : d.lat.drains = []) : d.rootAll = d := by
  unfold Dev.rootAll
  rw [h]
  rfl

/-- All jobs seek their starts where none runs on several chips: the lattice is as it was. -/
theorem seekAll_alone (halone : RunsAlone d) (hdrains : d.lat.drains = []) : d.Sought d.seekAll ∧ d.seekAll.lat = d.lat := by
  unfold Dev.seekAll
  refine List.foldlRecOn (motive := fun e : Dev => d.Sought e ∧ e.lat = d.lat) _ _ ⟨.refl d, rfl⟩ fun e ⟨hsought, hlat⟩ j _ => ?_
  have hlat' : (e.seek j.seq).lat = d.lat := (seek_lat (runsAlone_sought halone hsought) j.seq).trans hlat
  have hstart : e.seekStart j.seq = e.seek j.seq := by
    unfold Dev.seekStart
    dsimp only
    split
    · exact rootAll_idle (by rw [hlat', hdrains])
    · rfl
  rw [hstart]
  exact ⟨hsought.trans (sought_seek e j.seq), hlat'⟩

theorem sought_seekAll (hmember : d.lat.st ≠ .root) : d.Sought d.seekAll := sought_seekStarts (fun j : Job => j.seq) _ hmember

theorem sought_resendDrains (d : Dev) : d.Sought d.resendDrains := by
  refine .foldl _ _ _ fun e j => ?_
  split
  · exact sought_sendDrain ..
  · exact .refl e

/-! ### The root token -/

/-- A standby has assumed the root token. -/
def tokenTaken (d : Dev) : Dev :=
  let d1 := ((d.wr 0x201103 ((d.rd 0x201103 + 1) % 2 ^ 32)).flag 0x200004 6).enterRoot (d.rd 0x201005)
  { d1 with lat := { d1.lat with drains := [] } }

theorem takeoverAll_alone {a : Nat} (hmember : d.lat.st = .joined ∨ d.lat.st = .resync ∨ d.lat.st = .holdover)
    (hrank : 1 ≤ d.rd 0x201005) (hrank' : d.rd 0x201005 ≤ 4) (hat : takeoverAt d.lat (d.rd 0x201005) = some a)
    (hdue : a ≤ d.epoch) (hnone : (tokenTaken d).resident.filter (·.head.multiChip) = []) :
    takeoverAllOp d = (tokenTaken d).seekAll := by
  have hop : takeoverOp d = tokenTaken d := by
    have hdrains : (tokenTaken d).resendDrains = tokenTaken d := by
      unfold Dev.resendDrains
      rw [hnone]
      rfl
    refine .trans ?_ hdrains
    unfold takeoverOp
    dsimp only
    rw [hat]
    dsimp only
    refine if_pos ?_
    rcases hmember with h | h | h <;> simp [h, hrank, hrank', hdue]
  have hroot : (tokenTaken d).lat.st = .root := rfl
  unfold takeoverAllOp
  rw [hop]
  dsimp only
  rw [if_pos ⟨by rcases hmember with h | h | h <;> simp [h], hroot⟩, rootAll_idle rfl]

theorem tokenTaken_leaves (d : Dev) : (tokenTaken d).lat.rank = d.rd 0x201005 ∧ (tokenTaken d).lat.beating = true ∧
    (tokenTaken d).rd 0x201103 = (d.rd 0x201103 + 1) % 2 ^ 32 ∧ (tokenTaken d).rd 0x201102 = d.chip ∧
    (tokenTaken d).bit 0x200004 6 = true ∧ (tokenTaken d).hub = d.hub := by
  have hflag := Dev.bit_flag_self (d.wr 0x201103 ((d.rd 0x201103 + 1) % 2 ^ 32)) 0x200004 6
  have hterm : ((d.wr 0x201103 ((d.rd 0x201103 + 1) % 2 ^ 32)).flag 0x200004 6).rd 0x201103 = (d.rd 0x201103 + 1) % 2 ^ 32 :=
    (Dev.rd_flag_other _ _ _ _ (by decide)).trans (Dev.rd_wr_self ..)
  have hchip : ((d.wr 0x201103 ((d.rd 0x201103 + 1) % 2 ^ 32)).flag 0x200004 6).chip = d.chip :=
    (Dev.rd_flag_other _ _ _ _ (by decide)).trans (Dev.rd_wr_other _ _ _ _ (by decide))
  have hhub : ((d.wr 0x201103 ((d.rd 0x201103 + 1) % 2 ^ 32)).flag 0x200004 6).hub = d.hub := (Dev.flag_hub ..).trans rfl
  unfold tokenTaken Dev.enterRoot
  dsimp only
  generalize (d.wr 0x201103 ((d.rd 0x201103 + 1) % 2 ^ 32)).flag 0x200004 6 = f at *
  obtain ⟨-, hhub', -, -, hrd⟩ := clockSource_leaves (f.wrs [(0x201102, f.chip), (0x201109, 2 ^ f.chip)]) false false
  generalize (f.wrs [(0x201102, f.chip), (0x201109, 2 ^ f.chip)]).clockSource false false = c at *
  have hkeep : ∀ key, key ≠ 0x200003 → key ≠ 0x201102 → key ≠ 0x201109 → c.rd key = f.rd key := fun key h1 h2 h3 =>
    (hrd key h1).trans ((Dev.rd_wr_other _ _ _ _ h3).trans (Dev.rd_wr_other _ _ _ _ h2))
  refine ⟨rfl, rfl, (hkeep _ (by decide) (by decide) (by decide)).trans hterm, ?_, ?_, hhub'.trans hhub⟩
  · rw [← hchip]
    exact (hrd 0x201102 (by decide)).trans ((Dev.rd_wr_other _ _ _ _ (show 0x201102 ≠ 0x201109 by decide)).trans (Dev.rd_wr_self ..))
  · unfold Dev.bit at hflag ⊢
    exact (congrArg (·.testBit 6) (hkeep 0x200004 (by decide) (by decide) (by decide))).trans hflag

/-! ### The end of holdover -/

theorem holdoverLimit_leaves (hst : d.lat.st = .holdover) (hdue : d.lat.holdStart + d.rd 0x201007 ≤ d.epoch) :
    (holdoverLimitOp d).lat.st = .isolated ∧ (holdoverLimitOp d).bit 0x200004 8 = true ∧
    (holdoverLimitOp d).rd 0x201108 = d.epoch - d.lat.holdStart ∧ (holdoverLimitOp d).hub = d.spoilAll.hub := by
  have hflag := Dev.bit_flag_self d 0x200004 8
  have hhub := Dev.flag_hub d 0x200004 8
  have hspoil : ∀ (f : Dev) (t : Lat), (({ f with lat := t } : Dev).spoilAll).lat = t ∧
      (({ f with lat := t } : Dev).spoilAll).objs = f.objs := fun _ _ => ⟨rfl, rfl⟩
  unfold holdoverLimitOp
  rw [if_pos ⟨hst, hdue⟩]
  dsimp only
  generalize d.flag 0x200004 8 = f at *
  obtain ⟨-, hhub', -, -, hrd⟩ := clockSource_leaves (f.wr 0x201108 (d.epoch - d.lat.holdStart)) false false
  generalize (f.wr 0x201108 (d.epoch - d.lat.holdStart)).clockSource false false = c at *
  obtain ⟨hlat, hobjs⟩ := hspoil c { c.lat with st := .isolated }
  refine ⟨by rw [hlat], ?_, ?_, ?_⟩
  · rw [Dev.bit_congr hobjs]
    unfold Dev.bit at hflag ⊢
    rw [hrd _ (by decide), Dev.rd_wr_other _ _ _ _ (by decide), hflag]
  · rw [Dev.rd_congr hobjs, hrd _ (by decide), Dev.rd_wr_self]
  · have hsame : c.hub = d.hub := hhub'.trans hhub
    unfold Dev.spoilAll
    dsimp only
    rw [hsame]

/-! ### An offset measured in RESYNC -/

/-- The chip that has measured an offset is an epoch fault away, joined again, or slews. -/
theorem resyncAll_leaves {o : Int} (hst : d.lat.st = .resync) (hbeats : 4 ≤ d.lat.resyncSlots.length)
    (hslew : slewDone d.lat.slew d.epoch = true) : (resyncAllOp o d).rd 0x201107 = toU 32 o ∧
    (resyncAllOp o d).lat.st = (if o < -64 ∨ 64 < o then .isolated else if -1 ≤ o ∧ o ≤ 1 then .joined else .resync) ∧
    (resyncAllOp o d).lat.slew = (if -64 ≤ o ∧ o ≤ 64 ∧ (o < -1 ∨ 1 < o) then some (o, d.epoch) else none) ∧
    (o < -64 ∨ 64 < o → (resyncAllOp o d).bit 0x200004 9 = true) := by
  have hcond : d.lat.st = .resync ∧ 4 ≤ d.lat.resyncSlots.length ∧ slewDone d.lat.slew d.epoch = true := ⟨hst, hbeats, hslew⟩
  have hput : ∀ (f : Dev) (t : Lat), (({ f with lat := t } : Dev)).lat = t ∧ ({ f with lat := t } : Dev).objs = f.objs :=
    fun _ _ => ⟨rfl, rfl⟩
  by_cases hfar : o < -64 ∨ 64 < o
  · have hop : resyncCompleteOp o d =
        { ((d.wr 0x201107 (toU 32 o)).flag 0x200004 9).clockSource false false with
          lat := { (((d.wr 0x201107 (toU 32 o)).flag 0x200004 9).clockSource false false).lat with st := .isolated, slew := none } } := by
      unfold resyncCompleteOp
      rw [if_pos hcond]
      exact if_pos hfar
    have hflag := Dev.bit_flag_self (d.wr 0x201107 (toU 32 o)) 0x200004 9
    have hphase : ((d.wr 0x201107 (toU 32 o)).flag 0x200004 9).rd 0x201107 = toU 32 o :=
      (Dev.rd_flag_other _ _ _ _ (by decide)).trans (Dev.rd_wr_self ..)
    have hall : resyncAllOp o d = resyncCompleteOp o d := by
      unfold resyncAllOp
      rw [hop]
      exact if_neg fun h => by cases h.2
    rw [hall, hop, if_pos hfar, if_neg (by omega)]
    generalize (d.wr 0x201107 (toU 32 o)).flag 0x200004 9 = f at *
    obtain ⟨-, -, -, -, hrd⟩ := clockSource_leaves f false false
    refine ⟨(hrd _ (by decide)).trans hphase, rfl, rfl, fun _ => ?_⟩
    unfold Dev.bit at hflag ⊢
    exact (congrArg (·.testBit 9) (hrd 0x200004 (by decide))).trans hflag
  by_cases hnear : -1 ≤ o ∧ o ≤ 1
  · have hop : resyncCompleteOp o d = ({ (d.wr 0x201107 (toU 32 o)).wrBit 0x200003 4 false with
        lat := { (d.wr 0x201107 (toU 32 o)).lat with st := .joined, slew := none } } : Dev).resendDrains := by
      unfold resyncCompleteOp
      rw [if_pos hcond]
      exact (if_neg hfar).trans (if_pos hnear)
    have hphase : ((d.wr 0x201107 (toU 32 o)).wrBit 0x200003 4 false).rd 0x201107 = toU 32 o :=
      (Dev.rd_wrBit_other _ _ _ _ _ (by decide)).trans (Dev.rd_wr_self ..)
    obtain ⟨hlat, hobjs⟩ := hput ((d.wr 0x201107 (toU 32 o)).wrBit 0x200003 4 false)
      { (d.wr 0x201107 (toU 32 o)).lat with st := .joined, slew := none }
    have hresent := sought_resendDrains ({ (d.wr 0x201107 (toU 32 o)).wrBit 0x200003 4 false with
        lat := { (d.wr 0x201107 (toU 32 o)).lat with st := .joined, slew := none } } : Dev)
    rw [← hop] at hresent
    have hjoined : (resyncCompleteOp o d).lat.st = .joined := by rw [hresent.st]
    have hall : resyncAllOp o d = (resyncCompleteOp o d).seekAll := by
      unfold resyncAllOp
      exact if_pos ⟨hst, hjoined⟩
    have hsought := hresent.trans (sought_seekAll (by rw [hjoined]; simp))
    rw [hall, if_neg hfar, if_pos hnear, if_neg (by omega)]
    refine ⟨(hsought.rd _ (by decide) (by decide) (by decide) (by decide)).trans ((Dev.rd_congr hobjs _).trans hphase),
      by rw [hsought.st], ?_, fun h => absurd h hfar⟩
    rw [hsought.slew]
  · have hop : resyncCompleteOp o d = { (d.wr 0x201107 (toU 32 o)).wrBit 0x200003 4 true with
        lat := { (d.wr 0x201107 (toU 32 o)).lat with slew := some (o, d.epoch) } } := by
      unfold resyncCompleteOp
      rw [if_pos hcond]
      exact (if_neg hfar).trans (if_neg hnear)
    have hall : resyncAllOp o d = resyncCompleteOp o d := by
      unfold resyncAllOp
      rw [hop]
      exact if_neg fun h => by
        have hjoined : d.lat.st = .joined := h.2
        rw [hst] at hjoined
        cases hjoined
    rw [hall, hop, if_neg hfar, if_neg hnear, if_pos (by omega)]
    exact ⟨(Dev.rd_wrBit_other _ _ _ _ _ (by decide)).trans (Dev.rd_wr_self ..), hst, rfl, fun h => absurd h hfar⟩

end
end Sys2Proof.Machine
end

section
/-! The join: round trips, the loaded epoch and the phase (R47, R63, R66 to R69). -/

namespace Sys2Proof.Machine

section
variable {d e : Dev}

/-! ### Round trips -/

theorem measureLink_eq (d : Dev) (k rt : Nat) : d.measureLink k rt = (d.wr (unitKey 0x202001 k) (rt % 2 ^ 32)).wr (unitKey 0x202003 k)
    (toU 32 (divRound (((rt % 2 ^ 32 : Nat) : Int) + sext 16 (d.rd (unitKey 0x202002 k))) 2)) := by
  unfold Dev.measureLink Dev.oneWay
  rw [Dev.rd_wr_self, Dev.rd_wr_other _ _ _ _ (by unfold unitKey; omega)]

theorem rd_measureLink_other {k rt key : Nat} (h1 : key ≠ unitKey 0x202001 k) (h3 : key ≠ unitKey 0x202003 k) :
    (d.measureLink k rt).rd key = d.rd key := by
  rw [measureLink_eq, Dev.rd_wr_other _ _ _ _ h3, Dev.rd_wr_other _ _ _ _ h1]

/-- The device once the round trips of some links are measured. -/
def linksMeasured (d : Dev) (l : List (Nat × Nat)) : Dev := l.foldl (fun e r => e.measureLink r.1 r.2) d

theorem linksMeasured_objs (d : Dev) (l : List (Nat × Nat)) : OnlyObjs d (linksMeasured d l) :=
  OnlyObjs.foldl _ (fun e r => by rw [measureLink_eq]; exact (onlyObjs_wr _ _ _).trans (onlyObjs_wr e _ _)) l d

/-- Only ROUND_TRIP and ONE_WAY of the links measured change. -/
theorem rd_linksMeasured_other {key : Nat} (l : List (Nat × Nat)) (d : Dev)
    (h : ∀ r ∈ l, key ≠ unitKey 0x202001 r.1 ∧ key ≠ unitKey 0x202003 r.1) : (linksMeasured d l).rd key = d.rd key :=
  List.foldlRecOn (motive := fun e : Dev => e.rd key = d.rd key) l _ rfl fun _ he r hr =>
    (rd_measureLink_other (h r hr).1 (h r hr).2).trans he

theorem rd_linksMeasured_low (l : List (Nat × Nat)) (d : Dev) {key : Nat} (hkey : key < 0x202001) :
    (linksMeasured d l).rd key = d.rd key :=
  rd_linksMeasured_other l d fun r _ => by unfold unitKey; omega

theorem rd_linksMeasured {k rt : Nat} (l : List (Nat × Nat)) (d : Dev) (hmem : (k, rt) ∈ l) (hnodup : (l.map (·.1)).Nodup) :
    (linksMeasured d l).rd (unitKey 0x202001 k) = rt % 2 ^ 32 ∧ (linksMeasured d l).rd (unitKey 0x202003 k) =
      toU 32 (divRound (((rt % 2 ^ 32 : Nat) : Int) + sext 16 (d.rd (unitKey 0x202002 k))) 2) := by
  induction l generalizing d with
  | nil => cases hmem
  | cons r l ih =>
    rw [List.map_cons, List.nodup_cons] at hnodup
    obtain ⟨hnew, hnodup⟩ := hnodup
    have hstep : linksMeasured d (r :: l) = linksMeasured (d.measureLink r.1 r.2) l := rfl
    rw [hstep]
    rcases List.mem_cons.mp hmem with rfl | hmem
    · have hothers : ∀ p ∈ l, p.1 ≠ k := fun p hp heq => hnew (List.mem_map.mpr ⟨p, hp, heq⟩)
      rw [rd_linksMeasured_other l _ fun p hp => by have := hothers p hp; unfold unitKey; omega,
        rd_linksMeasured_other l _ fun p hp => by have := hothers p hp; unfold unitKey; omega, measureLink_eq,
        Dev.rd_wr_other _ _ _ _ (by unfold unitKey; omega), Dev.rd_wr_self, Dev.rd_wr_self]
      exact ⟨rfl, rfl⟩
    · have hpeer : (d.measureLink r.1 r.2).rd (unitKey 0x202002 k) = d.rd (unitKey 0x202002 k) :=
        rd_measureLink_other (by unfold unitKey; omega) (by unfold unitKey; omega)
      rw [← hpeer]
      exact ih _ hmem hnodup

/-! ### What the beats of a path give once its link is measured -/

/-- A path with the latency of its last beat by the ONE_WAY of the link that brought it. -/
def pathMeasured (d : Dev) (p : PathSt) : PathSt :=
  match p.got with
  | none => p
  | some (link, slot, acc, at_) =>
    { p with got := some (link, slot, acc + d.rd (unitKey 0x202003 link), at_), latency := (acc + d.rd (unitKey 0x202003 link)) / 128 }

theorem remeasure_eq (d : Dev) (sec : Bool) : d.remeasure sec = d.setPath sec (pathMeasured d (d.lat.path sec)) := by
  unfold Dev.remeasure pathMeasured
  dsimp only
  cases h : (d.lat.path sec).got with
  | none => cases sec <;> rfl
  | some g => rfl

theorem pathMeasured_congr (h : e.objs = d.objs) (p : PathSt) : pathMeasured e p = pathMeasured d p := by
  unfold pathMeasured
  split
  · rfl
  · rw [Dev.rd_congr h]

/-- What a measurement leaves beside the paths. -/
structure PathsMeasured (d e : Dev) : Prop where
  objs : e.objs = d.objs
  hub : e.hub = d.hub
  st : e.lat.st = d.lat.st
  excluded : e.lat.excluded = d.lat.excluded

theorem remeasure_leaves (d : Dev) (sec : Bool) : PathsMeasured d (d.remeasure sec) := by
  rw [remeasure_eq]
  obtain ⟨hst, -, -, hexcluded, -⟩ := setPath_lat d sec (pathMeasured d (d.lat.path sec))
  exact ⟨rfl, rfl, hst, hexcluded⟩

theorem remeasures_leaves (l : List Bool) (d : Dev) : PathsMeasured d (l.foldl Dev.remeasure d) :=
  List.foldlRecOn (motive := fun e : Dev => PathsMeasured d e) l _ ⟨rfl, rfl, rfl, rfl⟩ fun e ⟨hobjs, hhub, hst, hexcluded⟩ x _ => by
    obtain ⟨hobjs', hhub', hst', hexcluded'⟩ := remeasure_leaves e x
    exact ⟨hobjs'.trans hobjs, hhub'.trans hhub, hst'.trans hst, hexcluded'.trans hexcluded⟩

theorem spineLinks_congr (hobjs : e.objs = d.objs) (hexcluded : e.lat.excluded = d.lat.excluded) : e.spineLinks = d.spineLinks := by
  unfold Dev.spineLinks
  rw [Dev.rd_congr hobjs, Dev.rd_congr hobjs, hexcluded]

theorem paths_cases (d : Dev) : d.paths = [] ∨ d.paths = [false] ∨ d.paths = [true] ∨ d.paths = [false, true] := by
  unfold Dev.paths Dev.spineLinks
  dsimp only
  split <;> split <;> simp

/-- Each path on which beats are heard is measured once. -/
theorem remeasures_path {x : Bool} (hx : x ∈ d.paths) : (d.paths.foldl Dev.remeasure d).lat.path x = pathMeasured d (d.lat.path x) := by
  have hobjs := (remeasure_leaves d false).objs
  have hother : (d.remeasure false).lat.path true = d.lat.path true := by
    rw [remeasure_eq]
    rfl
  rcases paths_cases d with h | h | h | h
  · rw [h] at hx
    cases hx
  · rw [h, List.mem_singleton] at hx
    rw [h, hx]
    exact congrArg (Lat.path · false) (congrArg Dev.lat (remeasure_eq d false))
  · rw [h, List.mem_singleton] at hx
    rw [h, hx]
    exact congrArg (Lat.path · true) (congrArg Dev.lat (remeasure_eq d true))
  · rw [h]
    simp only [List.foldl_cons, List.foldl_nil]
    rw [remeasure_eq (d.remeasure false), pathMeasured_congr hobjs]
    cases x with
    | true => exact congrArg (pathMeasured d) hother
    | false => exact congrArg (Lat.path · false) (congrArg Dev.lat (remeasure_eq d false))

theorem pathMeasured_within {p : PathSt} : (pathMeasured d p).withinSpine = true ↔
    p.hops ≤ 8 ∧ ∀ link slot acc at_, p.got = some (link, slot, acc, at_) → acc + d.rd (unitKey 0x202003 link) ≤ 128 * 1500 := by
  unfold pathMeasured PathSt.withinSpine
  cases h : p.got with
  | none => simp [h]
  | some g =>
    obtain ⟨link, slot, acc, at_⟩ := g
    simp only [Option.map_some, Option.getD_some, Bool.and_eq_true, decide_eq_true_eq, Option.some.injEq, Prod.mk.injEq]
    refine and_congr_right fun _ => ⟨fun hacc _ _ _ _ ⟨hlink, _, hsame, _⟩ => ?_, fun hall => hall _ _ _ _ ⟨rfl, rfl, rfl, rfl⟩⟩
    rw [← hlink, ← hsame]
    exact hacc

/-! ### The end of the measurements -/

/-- Whether every spine link has been measured and 64 beats heard on each path (R67). -/
def joinMeasured (d : Dev) (rts : List (Nat × Nat)) : Bool :=
  ((List.range 12).all fun k => !d.onSpine k || rts.any fun r => r.1 == k) && d.paths.all fun x => decide (64 ≤ (d.lat.path x).heard)

theorem joinMeasured_of {rts : List (Nat × Nat)} (hlinks : ∀ k, k < 12 → d.onSpine k = true → ∃ r ∈ rts, r.1 = k)
    (hheard : ∀ x ∈ d.spineLinks, 64 ≤ (d.lat.path x.2).heard) : joinMeasured d rts = true := by
  unfold joinMeasured
  rw [Bool.and_eq_true]
  refine ⟨List.all_eq_true.mpr fun k hk => ?_, List.all_eq_true.mpr fun x hx => ?_⟩
  · cases hspine : d.onSpine k with
    | false => rfl
    | true =>
      obtain ⟨r, hr, hrk⟩ := hlinks k (List.mem_range.mp hk) hspine
      exact List.any_eq_true.mpr ⟨r, hr, beq_iff_eq.mpr hrk⟩
  · obtain ⟨y, hy, rfl⟩ := List.mem_map.mp hx
    exact decide_eq_true (hheard y hy)

/-- The chip with some links excluded, each with the flag. -/
def linksExcluded (d : Dev) (l : List Nat) : Dev :=
  l.foldl (fun e k => ({ e with lat := { e.lat with excluded := k :: e.lat.excluded } }).flag 0x200004 12) d

/-- What the end of the measurements comes to: LOCKING, or LISTENING on. -/
def joinJudged (d : Dev) : Dev :=
  let d3 := d.paths.foldl Dev.remeasure d
  if d3.spineLinks = [] then d
  else if d3.paths.all fun x => (d3.lat.path x).withinSpine then
    { d3.spineLatency.clockSource true false with lat := { (d3.spineLatency.clockSource true false).lat with st := .locking } }
  else d.flag 0x200004 12

theorem listeningComplete_eq {rts : List (Nat × Nat)} (peer : List (Nat × Int)) (hst : d.lat.st = .listening)
    (hmeasured : joinMeasured d rts = true) : listeningCompleteOp rts peer d =
      joinJudged (linksExcluded (linksMeasured d (rts.filter fun r => d.onSpine r.1)) ((peer.filter fun a =>
        d.onSpine a.1 && decide (a.2 + sext 16 (d.rd (unitKey 0x202002 a.1)) ≠ 0)).map (·.1))) := by
  unfold listeningCompleteOp
  exact if_pos ⟨hst, hmeasured⟩

/-- The end of the measurements keeps the hub and the links excluded, and a flag once set; but for the clock's source and SPINE_LATENCY
it changes no object of the time base. -/
theorem joinJudged_leaves (d : Dev) : (joinJudged d).hub = d.hub ∧ (joinJudged d).lat.excluded = d.lat.excluded ∧
    (∀ n, d.bit 0x200004 n = true → (joinJudged d).bit 0x200004 n = true) ∧
    ∀ key, 0x202000 ≤ key → (joinJudged d).rd key = d.rd key := by
  obtain ⟨hobjs, hhub, hst, hexcluded⟩ := remeasures_leaves d.paths d
  have hput : ∀ (f : Dev) (t : Lat), ({ f with lat := t } : Dev).hub = f.hub ∧ (∀ key, ({ f with lat := t } : Dev).rd key = f.rd key) :=
    fun _ _ => ⟨rfl, fun _ => rfl⟩
  have hwr : ∀ f : Dev, f.spineLatency.hub = f.hub ∧ f.spineLatency.lat = f.lat ∧ ∀ key, key ≠ 0x20110A → f.spineLatency.rd key = f.rd key :=
    fun f => ⟨rfl, rfl, fun key hkey => Dev.rd_wr_other _ _ _ _ hkey⟩
  unfold joinJudged
  dsimp only
  generalize d.paths.foldl Dev.remeasure d = e at *
  split
  · exact ⟨rfl, rfl, fun _ h => h, fun _ _ => rfl⟩
  split
  · obtain ⟨hhub', hlat', hrd'⟩ := hwr e
    generalize e.spineLatency = f at *
    obtain ⟨hclat, hchub, -, -, hcrd⟩ := clockSource_leaves f true false
    generalize f.clockSource true false = c at *
    have hrd : ∀ key, key ≠ 0x200003 → key ≠ 0x20110A → c.rd key = d.rd key := fun key h1 h2 =>
      (hcrd key h1).trans ((hrd' key h2).trans (Dev.rd_congr hobjs key))
    refine ⟨hchub.trans (hhub'.trans hhub), ?_, fun n hn => ?_, fun key hkey => hrd key (by omega) (by omega)⟩
    · show c.lat.excluded = d.lat.excluded
      rw [hclat, hlat', hexcluded]
    · unfold Dev.bit at hn ⊢
      exact (congrArg (·.testBit n) (hrd 0x200004 (by decide) (by decide))).trans hn
  · exact ⟨Dev.flag_hub .., by rw [Dev.flag_lat], fun n hn => Dev.bit_flag_of_bit _ _ _ _ hn,
      fun key hkey => Dev.rd_flag_other _ _ _ _ (by omega)⟩

theorem bit_wrBit_cleared_above (d : Dev) (key : Nat) {n : Nat} (hn : n = 3 ∨ n = 4) :
    (d.wrBit key n false).bit key 2 = d.bit key 2 := by
  unfold Dev.bit
  rw [rd_wrBit_cleared]
  split
  · next hset =>
    rw [Nat.testBit_eq_decide_div_mod_eq] at hset ⊢
    rw [Nat.testBit_eq_decide_div_mod_eq]
    refine decide_eq_decide.mpr ?_
    have hset' := of_decide_eq_true hset
    rcases hn with rfl | rfl <;> omega
  · rfl

theorem clockSource_disciplined (d : Dev) : (d.clockSource true false).bit 0x200003 2 = true := by
  unfold Dev.clockSource
  rw [bit_wrBit_cleared_above _ _ (.inr rfl), bit_wrBit_cleared_above _ _ (.inl rfl)]
  exact Dev.bit_wrBit_set ..

theorem joinJudged_locks (hspine : d.spineLinks ≠ []) (hwithin : ∀ x ∈ d.spineLinks, (pathMeasured d (d.lat.path x.2)).withinSpine = true) :
    (joinJudged d).lat.st = .locking ∧ (joinJudged d).bit 0x200003 2 = true := by
  obtain ⟨hobjs, -, -, hexcluded⟩ := remeasures_leaves d.paths d
  have hlinks := spineLinks_congr hobjs hexcluded
  have hpath := fun x (hx : x ∈ d.paths) => remeasures_path hx
  unfold joinJudged
  dsimp only
  have hpaths : (d.paths.foldl Dev.remeasure d).paths = d.paths := congrArg (List.map fun x : Nat × Bool => x.2) hlinks
  rw [if_neg (by rw [hlinks]; exact hspine), if_pos]
  · refine ⟨rfl, ?_⟩
    generalize (d.paths.foldl Dev.remeasure d).spineLatency = f
    exact clockSource_disciplined f
  · rw [hpaths]
    refine List.all_eq_true.mpr fun x hx => ?_
    obtain ⟨y, hy, rfl⟩ := List.mem_map.mp hx
    rw [hpath _ hx]
    exact hwithin y hy

theorem joinJudged_refuses {x : Nat × Bool} (hx : x ∈ d.spineLinks) (hout : (pathMeasured d (d.lat.path x.2)).withinSpine = false) :
    joinJudged d = d.flag 0x200004 12 := by
  obtain ⟨hobjs, -, -, hexcluded⟩ := remeasures_leaves d.paths d
  have hlinks := spineLinks_congr hobjs hexcluded
  have hmem : x.2 ∈ d.paths := List.mem_map_of_mem hx
  have hpath := remeasures_path hmem
  have hpaths : (d.paths.foldl Dev.remeasure d).paths = d.paths := congrArg (List.map fun x : Nat × Bool => x.2) hlinks
  unfold joinJudged
  dsimp only
  rw [if_neg (by rw [hlinks]; exact List.ne_nil_of_mem hx), if_neg]
  rw [hpaths]
  intro hall
  have hwithin := List.all_eq_true.mp hall _ hmem
  rw [hpath, hout] at hwithin
  cases hwithin

/-! ### The loaded epoch -/

theorem loadEpoch_leaves (d : Dev) (new : Nat) : (d.loadEpoch new).epoch = new ∧ (d.loadEpoch new).eas = d.eas ∧
    ∀ key, key ≠ 0x203004 → (d.loadEpoch new).rd key = d.rd key :=
  ⟨rfl, rfl, fun _ hkey => Dev.rd_wr_other _ _ _ _ hkey⟩

end
end Sys2Proof.Machine
end

section
/-! The spine, the root lease and the join: the statement (R59 to R88). -/

namespace Sys2Proof.Machine

section
variable (s : State)
theorem exec_beatSend : exec .beatSend s = .next (s.onNow beatSendOp) := rfl
theorem exec_beat (k : Nat) (b : BeatMsg) : exec (.beat k b) s = .next (s.onNow (beatOp k b)) := rfl
theorem exec_beatMiss (sec : Bool) : exec (.beatMiss sec) s = .next (s.onNow (beatMissOp sec)) := rfl
theorem exec_takeover : exec .takeover s = .next (s.onNow takeoverAllOp) := rfl
theorem exec_holdoverLimit : exec .holdoverLimit s = .next (s.onNow holdoverLimitOp) := rfl
theorem exec_resyncComplete (o : Int) : exec (.resyncComplete o) s = .next (s.onNow (resyncAllOp o)) := rfl
theorem exec_listeningComplete (rts : List (Nat × Nat)) (peer : List (Nat × Int)) :
    exec (.listeningComplete rts peer) s = .next (s.onNow (listeningCompleteOp rts peer)) := rfl
theorem exec_lockingComplete : exec .lockingComplete s = .next (s.onNow lockingCompleteOp) := rfl
theorem exec_aligningComplete (o : Int) : exec (.aligningComplete o) s = .next (s.onNow (aligningCompleteOp o)) := rfl
end

section
variable {d : Dev}

theorem expectsBeats_of {st : LatState} (h : d.lat.st = st) (hst : st = .locking ∨ st = .aligning ∨ st = .joined ∨ st = .resync ∨
    st = .holdover) : d.expectsBeats = true := by
  unfold Dev.expectsBeats
  rw [h]
  rcases hst with rfl | rfl | rfl | rfl | rfl <;> rfl

/-- A missed beat is counted; the third in a row on the only path is root loss. -/
theorem beatMiss_cases {sec : Bool} (hexpects : d.expectsBeats = true) (hlink : d.rd (if sec then 0x201004 else 0x201003) < 12)
    (hdue : (d.lat.path sec).expect + (d.lat.path sec).latency + 75 ≤ d.rootEpoch (d.lat.path sec)) :
    beatMissOp sec d = (missNoted d sec).rootLoss ∨ (beatMissOp sec d = missNoted d sec ∧
      (d.lat.st ≠ .holdover → 12 ≤ d.rd (if sec then 0x201003 else 0x201004) → 2 ≤ d.rd (if sec then 0x201106 else 0x201105) → False)) := by
  have hop := beatMiss_eq hexpects (by rw [← apply_ite d.rd]; exact hlink) hdue
  have hother : (if sec then d.rd 0x201003 else d.rd 0x201004) = d.rd (if sec then 0x201003 else 0x201004) := (apply_ite d.rd ..).symm
  rw [hother, (missNoted_leaves d sec).1] at hop
  generalize d.rd (if sec then 0x201106 else 0x201105) = run at *
  generalize d.rd (if sec then 0x201105 else 0x201106) = other at *
  generalize d.rd (if sec then 0x201003 else 0x201004) = link at *
  split_ifs at hop with hlost
  · exact .inl hop
  · refine .inr ⟨hop, fun hserves hone hrun => hlost ⟨hserves, ?_, .inr ?_⟩⟩
    · omega
    · simpa using hone

theorem linksExcluded_one (d : Dev) (k : Nat) : k ∈ (linksExcluded d [k]).lat.excluded ∧
    (linksExcluded d [k]).bit 0x200004 12 = true ∧ (linksExcluded d [k]).hub = d.hub := by
  have hop : linksExcluded d [k] = ({ d with lat := { d.lat with excluded := k :: d.lat.excluded } } : Dev).flag 0x200004 12 := rfl
  rw [hop, Dev.flag_lat, Dev.flag_hub]
  exact ⟨List.mem_cons_self, Dev.bit_flag_self .., rfl⟩

/-- What the beats' measurements are judged by is the state before, but for the objects measured. -/
theorem linksMeasured_lat (d : Dev) (l : List (Nat × Nat)) : (linksMeasured d l).lat = d.lat ∧ (linksMeasured d l).hub = d.hub ∧
    (linksMeasured d l).spineLinks = d.spineLinks := by
  have honly := linksMeasured_objs d l
  have hlat : (linksMeasured d l).lat = d.lat := by rw [honly]
  refine ⟨hlat, by rw [honly], ?_⟩
  unfold Dev.spineLinks
  rw [rd_linksMeasured_low l d (by decide), rd_linksMeasured_low l d (by decide), hlat]

end

/-- Settles O54: a beat is sent, discarded, forwarded and taken by the chip's state and the beat's term and rank; starts that the new
root or a joined chip seeks change the lattice's drain reports alone; what the join measures is judged path by path. -/
theorem spineAndLease : Obligations.SpineAndLease := by
  unfold Obligations.SpineAndLease
  intro s
  refine ⟨fun hroot hbeating hslot hnew => ?send, fun k b hup => ?beat, fun sec hst hlink hdue => ?miss,
    fun a hst hrank hrank' hat hdue hnone => ?takeover, fun hst hdue => ?holdover, fun o hst hbeats hslew => ?resync,
    fun rts d hst hspine hlinks hheard hd => ?listening, fun link slot acc at_ hst hstate hgot => ?locking,
    fun o hst => ?aligning⟩
  case send =>
    have hddr : (beatSendOp s.now).ddr = s.now.ddr := by simp
    have hop := beatSend_eq hroot hbeating hslot hnew
    refine ⟨s.onNow beatSendOp, exec_beatSend s, fun x => ⟨s.now.makeBeat x, ?_, rfl, rfl, rfl, rfl, rfl, rfl, rfl, rfl, fun k hk hup => ?_⟩,
      ?_, ?_, ?_⟩
    · simp only [State.onNow, hop]
      cases x
      · exact List.mem_cons_self
      · exact List.mem_cons_of_mem _ List.mem_cons_self
    · simp only [State.onNow, hop]
      exact beatsSent_beats hk hup
    · simp only [State.onNow, hop]
      rfl
    · simp only [State.onNow, hop]
      exact beatsSent_hub s.now
    · exact hddr
  case beat =>
    refine ⟨fun hid => does_of_onNow (exec_beat s k b) ?_, fun hid hout => does_of_onNow (exec_beat s k b) ?_,
      fun hin => ⟨fun hid hseen => does_of_onNow (exec_beat s k b) ?_, fun hid hnew => ⟨fun hst hterm hrank => ?_, fun hst hout => ?_⟩⟩⟩
    · unfold beatOp
      rw [hup, if_neg (by simp), if_pos hid]
    · unfold beatOp
      rw [hup, if_neg (by simp), if_neg (by simp [hid]), if_pos hout]
      rfl
    · unfold beatOp
      rw [hup, if_neg (by simp), if_neg (by simp [hid]), hin, if_neg (by simp)]
      exact if_pos hseen
    · have hddr : (beatOp k b s.now).ddr = s.now.ddr := by simp
      have hop := beatOp_first hup hid hin hnew
      obtain ⟨hst', hrank', hhub, hseen, ⟨out, hsent, hhops, hslot⟩, hrd⟩ := beatForwarded_noted s.now k b
      rw [useBeat_own (hst'.trans hst) (by rw [hrd _ (by decide)]; exact hterm) (by rw [hrank']; exact hrank)] at hop
      obtain ⟨tst, -, tsent, thub, tlease, tseen, tmissed, tgranted, -⟩ := takeBeat_taken (beatForwarded s.now k b) k b
      refine ⟨s.onNow (beatOp k b), out, exec_beat s k b, ?_⟩
      simp only [State.onNow, hop] at hddr ⊢
      exact ⟨tst.trans (hst'.trans hst), tlease, tgranted, tmissed, tsent.trans hsent, hhops, hslot, tseen ▸ hseen,
        thub.trans hhub, hddr⟩
    · have hddr : (beatOp k b s.now).ddr = s.now.ddr := by simp
      have hop := beatOp_first hup hid hin hnew
      obtain ⟨hst', hrank', hhub, -, -, hrd⟩ := beatForwarded_noted s.now k b
      have houtranks : (beatForwarded s.now k b).outranks b = true := by
        rw [outranks_iff, hrd _ (by decide), hrank']
        exact hout
      rw [useBeat_outranked (by rw [hst']; tauto) houtranks, hst'] at hop
      obtain ⟨cst, crank, cterm, croot, cbit, chub⟩ := rootChanged_leaves (beatForwarded s.now k b)
        (if s.now.lat.st = .root then 10 else 7) b
      generalize rootChanged (beatForwarded s.now k b) (if s.now.lat.st = .root then 10 else 7) b = c at *
      obtain ⟨tst, trank, -, thub, -, -, -, -, trd⟩ := takeBeat_taken c k b
      refine ⟨s.onNow (beatOp k b), exec_beat s k b, ?_⟩
      simp only [State.onNow, hop] at hddr ⊢
      refine ⟨tst.trans cst, (trd _ (by decide)).trans cterm, (trd _ (by decide)).trans croot, trank.trans crank, ?_,
        thub.trans (chub.trans hhub), hddr⟩
      unfold Dev.bit at cbit ⊢
      rw [trd _ (by decide), cbit]
  case miss =>
    have hddr : (beatMissOp sec s.now).ddr = s.now.ddr := by simp
    obtain ⟨mst, mepoch, mrd, mexpect, mbit, meas⟩ := missNoted_leaves s.now sec
    rcases beatMiss_cases (expectsBeats_of rfl hst) hlink hdue with hop | ⟨hop, hstays⟩
    · generalize missNoted s.now sec = e at *
      obtain ⟨lst, lstart, lbit, lkept⟩ := rootLoss_leaves e
      refine ⟨s.onNow (beatMissOp sec), exec_beatMiss s sec, ?_⟩
      simp only [State.onNow, hop] at hddr ⊢
      refine ⟨(lkept.rd _ (by split <;> decide) (by split <;> decide)).trans mrd, ?_, lkept.bit _ mbit,
        fun _ _ _ => ⟨lst, lbit, lstart.trans mepoch⟩, lkept.eas.trans meas, hddr⟩
      rw [lkept.path, mexpect]
    · refine ⟨s.onNow (beatMissOp sec), exec_beatMiss s sec, ?_⟩
      simp only [State.onNow, hop] at hddr ⊢
      exact ⟨mrd, mexpect, mbit, fun hserves hone hrun => (hstays hserves hone hrun).elim, meas, hddr⟩
  case takeover =>
    have hddr : (takeoverAllOp s.now).ddr = s.now.ddr := by simp
    obtain ⟨trank, tbeating, tterm, troot, tbit, thub⟩ := tokenTaken_leaves s.now
    have hresident : (tokenTaken s.now).resident = s.now.resident := by
      unfold Dev.resident
      rw [thub]
    have hop := takeoverAll_alone hst hrank hrank' hat hdue (by rw [hresident]; exact hnone)
    have halone : RunsAlone (tokenTaken s.now) := runsAlone_iff.mpr (by rw [hresident]; exact hnone)
    have htoken : (tokenTaken s.now).lat.st = .root := rfl
    have hdrains : (tokenTaken s.now).lat.drains = [] := rfl
    obtain ⟨hsought, hlat⟩ := seekAll_alone halone hdrains
    have hnothing : s.now.resident = [] → (tokenTaken s.now).seekAll = tokenTaken s.now := fun h => by
      unfold Dev.seekAll
      rw [hresident, h]
      rfl
    generalize tokenTaken s.now = e at *
    refine ⟨s.onNow takeoverAllOp, exec_takeover s, ?_⟩
    simp only [State.onNow, hop] at hddr ⊢
    rw [hlat]
    refine ⟨htoken, trank, tbeating, (hsought.rd _ (by decide) (by decide) (by decide) (by decide)).trans tterm,
      (hsought.rd _ (by decide) (by decide) (by decide) (by decide)).trans troot, hsought.bit _ tbit, fun h => ?_, hddr⟩
    rw [hnothing h, thub]
  case holdover =>
    have hddr : (holdoverLimitOp s.now).ddr = s.now.ddr := by simp
    obtain ⟨lst, lbit, llen, lhub⟩ := holdoverLimit_leaves hst hdue
    exact ⟨s.onNow holdoverLimitOp, exec_holdoverLimit s, lst, lbit, llen, lhub, hddr⟩
  case resync =>
    have hddr : (resyncAllOp o s.now).ddr = s.now.ddr := by simp
    obtain ⟨hphase, hst', hslew', hbit⟩ := resyncAll_leaves (o := o) hst hbeats hslew
    exact ⟨s.onNow (resyncAllOp o), exec_resyncComplete s o, hphase, hst', hslew', hbit, hddr⟩
  case listening =>
    have hmeasured := joinMeasured_of hlinks hheard
    have hd' : d = linksMeasured s.now (rts.filter fun r => s.now.onSpine r.1) := hd
    obtain ⟨hlat, hhub, hspine'⟩ := linksMeasured_lat s.now (rts.filter fun r => s.now.onSpine r.1)
    rw [← hd'] at hlat hhub hspine'
    have hop : listeningCompleteOp rts [] s.now = joinJudged d := by
      rw [listeningComplete_eq [] hst hmeasured, ← hd']
      rfl
    refine ⟨fun hwithin => ?_, fun hout => ?_, fun k a hk hsum => ?_⟩
    · have hddr : (listeningCompleteOp rts [] s.now).ddr = s.now.ddr := by simp
      obtain ⟨jst, jbit⟩ := joinJudged_locks (d := d) (by rw [hspine']; exact hspine) fun x hx => by
        rw [hlat]
        exact pathMeasured_within.mpr (hwithin x (hspine' ▸ hx))
      obtain ⟨jhub, -, -, jrd⟩ := joinJudged_leaves d
      refine ⟨s.onNow (listeningCompleteOp rts []), exec_listeningComplete s rts [], ?_⟩
      simp only [State.onNow, hop] at hddr ⊢
      refine ⟨jst, jbit, fun k rt hmem hnodup hk => ?_, jhub.trans hhub, hddr⟩
      rw [jrd _ (by unfold unitKey; omega), jrd _ (by unfold unitKey; omega), hd']
      exact rd_linksMeasured _ _ (List.mem_filter.mpr ⟨hmem, hk⟩) (hnodup.sublist (List.filter_sublist.map _))
    · have hddr : (listeningCompleteOp rts [] s.now).ddr = s.now.ddr := by simp
      obtain ⟨x, hx, hwhy⟩ := hout
      have hnot : (pathMeasured d (d.lat.path x.2)).withinSpine = false := by
        rw [Bool.eq_false_iff, ne_eq, pathMeasured_within, hlat]
        rintro ⟨hhops, hall⟩
        rcases hwhy with hfar | ⟨link, slot, acc, at_, hgot, hlate⟩
        · omega
        · have := hall link slot acc at_ hgot
          omega
      have hrefuses := joinJudged_refuses (d := d) (x := x) (hspine' ▸ hx) hnot
      refine ⟨s.onNow (listeningCompleteOp rts []), exec_listeningComplete s rts [], ?_⟩
      simp only [State.onNow, hop, hrefuses] at hddr ⊢
      refine ⟨?_, Dev.bit_flag_self .., (Dev.flag_hub ..).trans hhub, hddr⟩
      rw [Dev.flag_lat, hlat]
      exact hst
    · have hddr : (listeningCompleteOp rts [(k, a)] s.now).ddr = s.now.ddr := by simp
      have hop' : listeningCompleteOp rts [(k, a)] s.now = joinJudged (linksExcluded d [k]) := by
        rw [listeningComplete_eq [(k, a)] hst hmeasured, ← hd', List.filter_cons_of_pos (by simp [hk, hsum])]
        rfl
      obtain ⟨xmem, xbit, xhub⟩ := linksExcluded_one d k
      obtain ⟨jhub, jexcluded, jbit, -⟩ := joinJudged_leaves (linksExcluded d [k])
      generalize linksExcluded d [k] = e at *
      refine ⟨s.onNow (listeningCompleteOp rts [(k, a)]), exec_listeningComplete s rts _, ?_⟩
      simp only [State.onNow, hop'] at hddr ⊢
      exact ⟨jexcluded ▸ xmem, jbit _ xbit, jhub.trans (xhub.trans hhub), hddr⟩
  case locking =>
    have hddr : (lockingCompleteOp s.now).ddr = s.now.ddr := by simp
    have hop : lockingCompleteOp s.now = { s.now.loadEpoch (slot + acc / 128 + (s.now.epoch - at_)) with
        counting := true, lat := { (s.now.loadEpoch (slot + acc / 128 + (s.now.epoch - at_))).lat with st := .aligning } } := by
      unfold lockingCompleteOp
      rw [if_pos ⟨hst, hstate⟩, hgot]
    obtain ⟨hepoch, heas, hrd⟩ := loadEpoch_leaves s.now (slot + acc / 128 + (s.now.epoch - at_))
    generalize s.now.loadEpoch (slot + acc / 128 + (s.now.epoch - at_)) = e at *
    refine ⟨s.onNow lockingCompleteOp, exec_lockingComplete s, ?_⟩
    simp only [State.onNow, hop] at hddr ⊢
    exact ⟨hepoch, trivial, trivial, hrd, heas, hddr⟩
  case aligning =>
    have hddr : (aligningCompleteOp o s.now).ddr = s.now.ddr := by simp
    have hput : ∀ (f : Dev) (t : Lat), ({ f with lat := t } : Dev).rd 0x201107 = f.rd 0x201107 := fun _ _ => rfl
    refine ⟨s.onNow (aligningCompleteOp o), exec_aligningComplete s o, ?_⟩
    simp only [State.onNow]
    refine ⟨?_, ?_, ?_, hddr⟩
    all_goals
      unfold aligningCompleteOp
      rw [if_pos hst]
      dsimp only
    · split
      · exact (hput _ _).trans (Dev.rd_wr_self ..)
      · exact Dev.rd_wr_self ..
    · split
      · rfl
      · exact hst
    · split <;> rfl

end Sys2Proof.Machine
end

section
/-! Runs of the calibration engine: their start, their end and the order of a phase's routines (R444, R445, R448, R454, R466,
R695). -/

namespace Sys2Proof.Machine

section
variable {d e : Dev}

/-! ### Runs that start -/

/-- What the runs of the engine leave of the device. -/
structure RunsOnly (d e : Dev) : Prop where
  hub : e.hub = d.hub
  eas : e.eas = d.eas
  epoch : e.epoch = d.epoch
  state : e.state = d.state
  phase : e.cal.phase = d.cal.phase
  stage : e.cal.stage = d.cal.stage
  rd : ∀ key, key ≠ 0x680002 → e.rd key = d.rd key

theorem RunsOnly.refl (d : Dev) : RunsOnly d d := ⟨rfl, rfl, rfl, rfl, rfl, rfl, fun _ _ => rfl⟩

theorem RunsOnly.trans {c : Dev} (h : RunsOnly d e) (g : RunsOnly e c) : RunsOnly d c :=
  ⟨g.hub.trans h.hub, g.eas.trans h.eas, g.epoch.trans h.epoch, g.state.trans h.state, g.phase.trans h.phase,
    g.stage.trans h.stage, fun key hkey => (g.rd key hkey).trans (h.rd key hkey)⟩

/-- A run that starts now. -/
def newRun (d : Dev) (routine ukind unit : Nat) : CalRun := { routine := routine, ukind := ukind, unit := unit, at_ := d.epoch }

theorem testBit_foldl_lor {n : Nat} (l : List Nat) (m : Nat) (h : n ∈ l ∨ m.testBit n = true) :
    (l.foldl (fun m r => Nat.lor m (2 ^ r)) m).testBit n = true := by
  induction l generalizing m with
  | nil => exact h.resolve_left (List.not_mem_nil)
  | cons r l ih =>
    rw [List.foldl_cons]
    refine ih _ ?_
    have hor : (Nat.lor m (2 ^ r)).testBit n = (m.testBit n || (2 ^ r).testBit n) := Nat.testBit_or ..
    rcases h with h | h
    · rcases List.mem_cons.mp h with rfl | h
      · exact .inr (by rw [hor, Nat.testBit_two_pow_self, Bool.or_true])
      · exact .inl h
    · exact .inr (by rw [hor, h, Bool.true_or])

/-- A routine that runs is shown in CAL_BUSY. -/
theorem bit_calBusy {r : CalRun} (hr : r ∈ d.cal.runs) : d.calBusy.bit 0x680002 r.routine = true := by
  unfold Dev.bit Dev.calBusy
  dsimp only
  rw [Dev.rd_wr_self]
  exact testBit_foldl_lor _ _ (.inl (List.mem_append_left _ (List.mem_map_of_mem hr)))

theorem calBusy_only (d : Dev) : RunsOnly d d.calBusy ∧ d.calBusy.cal = d.cal ∧ d.calBusy.rx = d.rx :=
  ⟨⟨rfl, rfl, rfl, rfl, rfl, rfl, fun _ hkey => Dev.rd_wr_other _ _ _ _ hkey⟩, rfl, rfl⟩

theorem startRun_only (d : Dev) (routine ukind unit : Nat) : RunsOnly d (d.startRun routine ukind unit) ∧
    (d.startRun routine ukind unit).cal.runs = d.cal.runs ++ [newRun d routine ukind unit] ∧
    (d.startRun routine ukind unit).bit 0x680002 routine = true := by
  have hmarked : ∀ f : Dev, RunsOnly f (if routine = 2 then f.markTemps unit else f) ∧
      (if routine = 2 then f.markTemps unit else f).cal.runs = f.cal.runs := by
    intro f
    split
    · exact ⟨⟨rfl, rfl, rfl, rfl, rfl, rfl, fun _ _ => rfl⟩, rfl⟩
    · exact ⟨.refl f, rfl⟩
  have hput : ∀ l, RunsOnly d ({ d with cal := { d.cal with runs := l } }) := fun _ => ⟨rfl, rfl, rfl, rfl, rfl, rfl, fun _ _ => rfl⟩
  unfold Dev.startRun
  dsimp only
  obtain ⟨honly, hruns⟩ := hmarked { d with cal := { d.cal with runs := d.cal.runs ++ [newRun d routine ukind unit] } }
  have honly' := (hput _).trans honly
  unfold newRun at hruns honly' ⊢
  generalize (if routine = 2 then ({ d with cal := { d.cal with
    runs := d.cal.runs ++ [{ routine := routine, ukind := ukind, unit := unit, at_ := d.epoch }] } } : Dev).markTemps unit
    else { d with cal := { d.cal with runs := d.cal.runs ++ [{ routine := routine, ukind := ukind, unit := unit, at_ := d.epoch }] } }) = f at *
  obtain ⟨hbusy, hcal, -⟩ := calBusy_only f
  refine ⟨honly'.trans hbusy, (congrArg Cal.runs hcal).trans hruns, ?_⟩
  exact bit_calBusy (r := { routine := routine, ukind := ukind, unit := unit, at_ := d.epoch })
    (by rw [hruns]; exact List.mem_append_right _ List.mem_cons_self)

/-- A routine starts on each of some units, in their order. -/
theorem startedOn (routine ukind : Nat) (l : List Nat) (d : Dev) :
    RunsOnly d (l.foldl (fun e u => e.startRun routine ukind u) d) ∧
    (l.foldl (fun e u => e.startRun routine ukind u) d).cal.runs = d.cal.runs ++ l.map (newRun d routine ukind) ∧
    (l ≠ [] → (l.foldl (fun e u => e.startRun routine ukind u) d).bit 0x680002 routine = true) := by
  induction l generalizing d with
  | nil => exact ⟨.refl d, (List.append_nil _).symm, fun h => absurd rfl h⟩
  | cons u l ih =>
    obtain ⟨honly, hruns, hbit⟩ := startRun_only d routine ukind u
    obtain ⟨honly', hruns', hbit'⟩ := ih (d.startRun routine ukind u)
    refine ⟨honly.trans honly', ?_, fun _ => ?_⟩
    · refine hruns'.trans ?_
      unfold newRun at hruns ⊢
      rw [hruns, honly.epoch, List.map_cons, List.append_assoc, List.singleton_append]
    · cases l with
      | nil => exact hbit
      | cons v l => exact hbit' (List.cons_ne_nil v l)

/-! ### CAL_CMD and SKEW_AUTO -/

theorem calRunning_iff {routine ukind : Nat} {us : List Nat} :
    (d.cal.runs.any fun r => r.routine == routine && r.ukind == ukind && us.contains r.unit) = true ↔
      ∃ r ∈ d.cal.runs, r.routine = routine ∧ r.ukind = ukind ∧ r.unit ∈ us := by
  simp [and_assoc]

/-- A routine that no unit named runs, and that no state and no job bars, starts on each. -/
theorem calCmd_starts {routine ukind unit : Nat}
    (hfree : ∀ r ∈ d.cal.runs, ¬ (r.routine = routine ∧ r.ukind = ukind ∧ r.unit ∈ calUnits ukind unit))
    (hallowed : routine ≠ 2 → (d.state = .primed ∨ d.state = .halted) ∧ ∀ u ∈ calUnits ukind unit, d.calHeld ukind u = false) :
    d.calCmd routine ukind unit = (calUnits ukind unit).foldl (fun e u => e.startRun routine ukind u) d := by
  have hrun : (d.cal.runs.any fun r => r.routine == routine && r.ukind == ukind && (calUnits ukind unit).contains r.unit) = false := by
    rw [Bool.eq_false_iff, ne_eq, calRunning_iff]
    exact fun ⟨r, hr, h⟩ => hfree r hr h
  have hbar : ((routine == 3 || routine == 4 || routine == 5) &&
      (!(d.state == .primed || d.state == .halted) || (calUnits ukind unit).any (d.calHeld ukind))) = false := by
    by_cases hskew : routine = 2
    · rw [hskew]
      rfl
    · obtain ⟨hstate, hheld⟩ := hallowed hskew
      have hnone : (calUnits ukind unit).any (d.calHeld ukind) = false := by
        rw [List.any_eq_false]
        exact fun u hu => by simp [hheld u hu]
      rw [hnone]
      rcases hstate with h | h <;> simp [h]
  unfold Dev.calCmd Dev.calStart
  dsimp only
  rw [hrun, hbar]
  rfl

theorem calCmd_rejected {routine ukind unit : Nat} (hroutine : routine = 2 ∨ routine = 3 ∨ routine = 4 ∨ routine = 5)
    (hwhy : (∃ r ∈ d.cal.runs, r.routine = routine ∧ r.ukind = ukind ∧ r.unit ∈ calUnits ukind unit) ∨
      (routine ≠ 2 ∧ ((d.state ≠ .primed ∧ d.state ≠ .halted) ∨ ∃ u ∈ calUnits ukind unit, d.calHeld ukind u = true))) :
    d.calCmd routine ukind unit = d.conflict := by
  unfold Dev.calCmd Dev.calStart
  dsimp only
  rw [if_pos]
  · rfl
  rw [Bool.or_eq_true]
  refine hwhy.imp calRunning_iff.mpr fun ⟨hskew, hbarred⟩ => ?_
  rw [Bool.and_eq_true]
  refine ⟨?_, ?_⟩
  · rcases hroutine with rfl | rfl | rfl | rfl
    · exact absurd rfl hskew
    all_goals rfl
  · rw [Bool.or_eq_true]
    refine hbarred.imp (fun ⟨hprimed, hhalted⟩ => ?_) fun ⟨u, hu, hheld⟩ => List.any_eq_true.mpr ⟨u, hu, hheld⟩
    simp [hprimed, hhalted]

/-- Whether a sensor has moved by SKEW_DT since the last run (R444). -/
def sensorMoved (d : Dev) (i : Nat) : Bool :=
  decide (d.rd 0x68000A + tabGet 0 d.cal.temps i ≤ d.tempCode i ∨ d.rd 0x68000A + d.tempCode i ≤ tabGet 0 d.cal.temps i)

theorem skewAuto_eq {tile : Nat} (hcold : d.state ≠ .cold) (hasleep : d.state ≠ .asleep)
    (hfree : ∀ r ∈ d.cal.runs, ¬ (r.routine = 2 ∧ r.unit = tile)) : skewAutoOp tile d =
      if sensorMoved d (2 * tile) || sensorMoved d (2 * tile + 1) then d.startRun 2 2 tile else d := by
  have hrun : (d.cal.runs.any fun r => r.routine == 2 && r.unit == tile) = false := by
    rw [List.any_eq_false]
    intro r hr
    simpa using hfree r hr
  have hmoved : ∀ i, decide (d.rd 0x68000A ≤ d.tempCode i - tabGet 0 d.cal.temps i + (tabGet 0 d.cal.temps i - d.tempCode i)) =
      sensorMoved d i := fun i => decide_eq_decide.mpr (by omega)
  unfold skewAutoOp
  dsimp only
  rw [if_neg (by simp [hcold, hasleep, hrun])]
  exact if_congr (by rw [hmoved, hmoved]) rfl rfl

end
end Sys2Proof.Machine
end

section
/-! Results of the calibration engine, fits and glaze steps (R444, R448 to R460, R466, R695). -/

namespace Sys2Proof.Machine

section
variable {d e : Dev}

/-! ### Records, and the phase that goes on -/

/-- What a calibration record leaves: everything but the record, its number and the queue of flow 9. -/
theorem calRecord_leaves (d : Dev) (routine result ukind unit : Nat) (figure old new : Int) (job shot : Nat) :
    (d.calRecord routine result ukind unit figure old new job shot).eas = d.eas ∧
    (d.calRecord routine result ukind unit figure old new job shot).epoch = d.epoch ∧
    (d.calRecord routine result ukind unit figure old new job shot).state = d.state ∧
    (d.calRecord routine result ukind unit figure old new job shot).rx = d.rx ∧
    (∃ n, (d.calRecord routine result ukind unit figure old new job shot).cal = { d.cal with calNo := n }) ∧
    ∀ key, key ≠ 0x68000B → (d.calRecord routine result ukind unit figure old new job shot).rd key = d.rd key := by
  unfold Dev.calRecord
  lift_lets
  intro no b d1
  clear_value b
  exact ⟨rfl, rfl, rfl, rfl, ⟨no, rfl⟩, fun _ hkey => Dev.rd_wr_other _ _ _ _ hkey⟩

/-- The device in a phase of PRIMING or of the wake sequence. -/
def inPhase (d : Dev) (routine : Nat) : Dev := { d with cal := { d.cal with phase := routine } }

/-- What the start of a phase leaves, and the runs that it starts. -/
theorem startPhase_only (d : Dev) (routine : Nat) : RunsOnly (inPhase d routine) (d.startPhase routine) ∧
    (routine = 0 → (d.startPhase routine).cal.runs = d.cal.runs) ∧
    (routine = 2 → ∀ u, u < 8 → ∃ x ∈ (d.startPhase routine).cal.runs, x.routine = 2 ∧ x.unit = u) ∧
    (routine = 3 → ∀ u, u < 64 → ∃ x ∈ (d.startPhase routine).cal.runs, x.routine = 3 ∧ x.ukind = 3 ∧ x.unit = u) ∧
    (routine = 4 → ∀ u, u < 768 → ∃ x ∈ (d.startPhase routine).cal.runs, x.routine = 4 ∧ x.unit = u) := by
  have hstart : ∀ (f : Dev) (r k n : Nat), RunsOnly f (f.startRuns r k n) ∧
      (f.startRuns r k n).cal.runs = f.cal.runs ++ (List.range n).map (newRun f r k) := fun f r k n =>
    ⟨(startedOn r k (List.range n) f).1, (startedOn r k (List.range n) f).2.1⟩
  have hmem : ∀ (f : Dev) (r k n u : Nat), u < n → newRun f r k u ∈ (f.startRuns r k n).cal.runs := fun f r k n u hu => by
    rw [(hstart f r k n).2]
    exact List.mem_append_right _ (List.mem_map_of_mem (List.mem_range.mpr hu))
  unfold Dev.startPhase
  dsimp only
  rw [show ({ d with cal := { d.cal with phase := routine } } : Dev) = inPhase d routine from rfl]
  split
  · exact ⟨(hstart _ _ _ _).1, nofun, nofun, nofun, nofun⟩
  · exact ⟨(hstart _ _ _ _).1, nofun, fun _ u hu => ⟨newRun (inPhase d 2) 2 2 u, hmem _ _ _ _ u hu, rfl, rfl⟩, nofun, nofun⟩
  · refine ⟨(hstart _ _ _ _).1.trans (hstart _ _ _ _).1, nofun, nofun, fun _ u hu => ⟨newRun (inPhase d 3) 3 3 u, ?_, rfl, rfl, rfl⟩, nofun⟩
    rw [(hstart _ 3 4 32).2]
    exact List.mem_append_left _ (hmem _ _ _ _ u hu)
  · exact ⟨(hstart _ _ _ _).1, nofun, nofun, nofun, fun _ u hu => ⟨newRun (inPhase d 4) 4 5 u, hmem _ _ _ _ u hu, rfl, rfl⟩⟩
  · next h2 h3 h4 => exact ⟨.refl _, fun _ => rfl, fun h => absurd h h2, fun h => absurd h h3, fun h => absurd h h4⟩

/-! ### A run that ends without a result -/

/-- The device without its only run. -/
def runOver (d : Dev) : Dev := ({ d with cal := { d.cal with runs := [] } } : Dev).calBusy

theorem runOver_leaves (d : Dev) : (runOver d).eas = d.eas ∧ (runOver d).epoch = d.epoch ∧ (runOver d).state = d.state ∧
    (runOver d).hub = d.hub ∧ (runOver d).rx = d.rx ∧ (runOver d).cal = { d.cal with runs := [] } ∧
    ∀ key, key ≠ 0x680002 → (runOver d).rd key = d.rd key :=
  ⟨rfl, rfl, rfl, rfl, rfl, rfl, fun _ hkey => Dev.rd_wr_other _ _ _ _ hkey⟩

/-- The record of a run that could not complete. -/
def runAborted (d : Dev) (routine ukind unit : Nat) (figure old new : Int) : Dev :=
  ((runOver d).flag 0x680003 2).calRecord routine 3 ukind unit figure old new 0 0

theorem runAborted_leaves (d : Dev) (routine ukind unit : Nat) (figure old new : Int) :
    (runAborted d routine ukind unit figure old new).eas = d.eas ∧
    (runAborted d routine ukind unit figure old new).state = d.state ∧
    (runAborted d routine ukind unit figure old new).cal.runs = [] ∧
    (runAborted d routine ukind unit figure old new).cal.phase = d.cal.phase ∧
    (runAborted d routine ukind unit figure old new).cal.stage = d.cal.stage ∧
    (runAborted d routine ukind unit figure old new).bit 0x680003 2 = true ∧
    ∀ key, key ≠ 0x680002 → key ≠ 0x680003 → key ≠ 0x68000B →
      (runAborted d routine ukind unit figure old new).rd key = d.rd key := by
  unfold runAborted
  obtain ⟨heas, -, hst, -, -, hcal, hrd⟩ := runOver_leaves d
  generalize runOver d = f at *
  have hflag := Dev.bit_flag_self f 0x680003 2
  have heas' := Dev.flag_eas f 0x680003 2
  have hst' := Dev.flag_state f 0x680003 2
  have hcal' := Dev.flag_cal f 0x680003 2
  have hrd' := fun key (h : key ≠ 0x680003) => Dev.rd_flag_other f 0x680003 2 key h
  generalize f.flag 0x680003 2 = g at *
  obtain ⟨heas'', -, hst'', -, ⟨n, hcal''⟩, hrd''⟩ := calRecord_leaves g routine 3 ukind unit figure old new 0 0
  refine ⟨heas''.trans (heas'.trans heas), hst''.trans (hst'.trans hst), ?_, ?_, ?_, ?_, fun key h2 h3 hB =>
    (hrd'' key hB).trans ((hrd' key h3).trans (hrd key h2))⟩
  · rw [hcal'', hcal', hcal]
  · rw [hcal'', hcal', hcal]
  · rw [hcal'', hcal', hcal]
  · unfold Dev.bit at hflag ⊢
    rw [hrd'' _ (by decide), hflag]

/-- A run that is aborted, or whose reference was lost, ends with its record alone, and the phase goes on. -/
theorem calResult_aborted {routine ukind unit : Nat} {vs : List (Nat × Int)} {p f : Int} {aborted : Bool} {r : CalRun}
    (hruns : d.cal.runs = [r]) (hroutine : r.routine = routine) (hkind : r.ukind = ukind) (hunit : r.unit = unit)
    (hwhy : aborted = true ∨ r.lost = true ∨ d.bit 0x200003 0 = false) :
    ∃ old new, calResultOp routine ukind unit vs p f aborted d = (runAborted d routine ukind unit f old new).nextRuns routine := by
  have hmine : (r.routine == routine && r.ukind == ukind && r.unit == unit) = true := by simp [hroutine, hkind, hunit]
  refine ⟨d.principalOld routine ukind unit, principalNew routine ukind unit vs p, ?_⟩
  unfold calResultOp
  rw [hruns]
  dsimp only
  rw [List.find?_cons_of_pos (p := fun r : CalRun => r.routine == routine && r.ukind == ukind && r.unit == unit) hmine]
  dsimp only
  rw [if_pos, List.filter_cons_of_neg (by simp [hmine])]
  · rfl
  · rcases hwhy with h | h | h <;> simp [h]

/-- What the next routine of a phase comes to, once a routine has no run any more. -/
theorem nextRuns_of_none {routine : Nat} (hnone : d.cal.runs = []) : d.nextRuns routine =
    if d.cal.phase = routine then d.startPhase (if routine < 3 ∨ routine = 3 ∧ d.state = .priming then routine + 1 else 0)
    else d := by
  unfold Dev.nextRuns
  rw [hnone, List.any_nil]
  by_cases h : d.cal.phase = routine
  · rw [if_neg (by simp [h]), if_pos h]
  · rw [if_pos (.inl h), if_neg h]

/-! ### LOOPBACK -/

theorem calApply_loopback (d : Dev) (ukind unit : Nat) (vs : List (Nat × Int)) (figure old new : Int) :
    d.calApply 5 ukind unit vs figure old new =
      (d.wrs ((vs.filter fun v => v.1 == unitKey 0x681003 unit).map fun v => (v.1, toU 32 v.2)), false) := rfl

/-- The result of a LOOPBACK run that is plausible, or not. -/
theorem calResult_loopback {unit : Nat} {v p f : Int} {r : CalRun} (hruns : d.cal.runs = [r]) (hroutine : r.routine = 5)
    (hkind : r.ukind = 1) (hunit : r.unit = unit) (hlost : r.lost = false) (hat : d.rd 0x100102 ≤ r.at_)
    (hheld : d.calHeld 1 unit = false) (href : d.bit 0x200003 0 = true) :
    ∃ old new, calResultOp 5 1 unit [(unitKey 0x681003 unit, v)] p f false d =
      if 576 ≤ v ∧ v ≤ 262143 then
        ((((runOver d).markSeen (calIndex 5 1 unit) true).wrs [(unitKey 0x681003 unit, toU 32 v)]).calRecord 5 0 1 unit f old new
          0 0).nextRuns 5
      else ((((runOver d).implausible (calIndex 5 1 unit)).1).calRecord 5 2 1 unit f old new 0 0).nextRuns 5 := by
  have hmine : (r.routine == 5 && r.ukind == 1 && r.unit == unit) = true := by simp [hroutine, hkind, hunit]
  refine ⟨d.principalOld 5 1 unit, principalNew 5 1 unit [(unitKey 0x681003 unit, v)] p, ?_⟩
  have hok : ∀ e : Dev, ([(unitKey 0x681003 unit, v)].all (e.calOk 5 1 unit)) = decide (576 ≤ v ∧ v ≤ 262143) := fun e => by
    unfold Dev.calOk
    simp
  unfold calResultOp
  rw [hruns]
  dsimp only
  rw [List.find?_cons_of_pos (p := fun r : CalRun => r.routine == 5 && r.ukind == 1 && r.unit == unit) hmine, List.filter_cons_of_neg (by simp [hmine])]
  dsimp only
  rw [if_neg (by simp [hlost, hheld, href]; omega), if_neg (by decide), hok]
  refine if_congr (by simp) ?_ rfl
  rw [calApply_loopback, List.filter_cons_of_pos (by simp)]
  rfl

theorem implausible_leaves (d : Dev) (i : Nat) : (d.implausible i).1.eas = d.eas ∧ (d.implausible i).1.state = d.state ∧
    (d.implausible i).1.rx = d.rx ∧ (d.implausible i).1.cal.runs = d.cal.runs ∧ (d.implausible i).1.cal.phase = d.cal.phase ∧
    (d.implausible i).1.cal.fits = d.cal.fits ∧ (d.implausible i).1.bit 0x680003 0 = true ∧
    ((d.implausible i).2 = true ↔ 3 ≤ tabGet 0 d.cal.bad i + 1) ∧
    ∀ key, key ≠ 0x680003 → (d.implausible i).1.rd key = d.rd key := by
  have hflag := Dev.bit_flag_self d 0x680003 0
  have hcal := Dev.flag_cal d 0x680003 0
  have heas := Dev.flag_eas d 0x680003 0
  have hst := Dev.flag_state d 0x680003 0
  have hrx := Dev.flag_rx d 0x680003 0
  have hrd := fun key (h : key ≠ 0x680003) => Dev.rd_flag_other d 0x680003 0 key h
  have hcount : tabGet 0 ((d.flag 0x680003 0).markSeen i false).cal.bad i = tabGet 0 d.cal.bad i + 1 := by
    have hbad : ∀ e : Dev, tabGet 0 (e.markSeen i false).cal.bad i = tabGet 0 e.cal.bad i + 1 := fun e => by
      unfold Dev.markSeen
      simp
    rw [hbad, hcal]
  have hput : ∀ (e : Dev) t, ({ e with cal := { e.cal with bad := t } } : Dev).eas = e.eas ∧
      ({ e with cal := { e.cal with bad := t } } : Dev).state = e.state ∧ ({ e with cal := { e.cal with bad := t } } : Dev).rx = e.rx ∧
      ({ e with cal := { e.cal with bad := t } } : Dev).objs = e.objs ∧
      ({ e with cal := { e.cal with bad := t } } : Dev).cal = { e.cal with bad := t } := fun _ _ => ⟨rfl, rfl, rfl, rfl, rfl⟩
  unfold Dev.implausible
  dsimp only
  rw [hcount]
  have hseen : ((d.flag 0x680003 0).markSeen i false).eas = d.eas ∧ ((d.flag 0x680003 0).markSeen i false).state = d.state ∧
      ((d.flag 0x680003 0).markSeen i false).rx = d.rx ∧ ((d.flag 0x680003 0).markSeen i false).cal.runs = d.cal.runs ∧
      ((d.flag 0x680003 0).markSeen i false).cal.phase = d.cal.phase ∧ ((d.flag 0x680003 0).markSeen i false).cal.fits = d.cal.fits ∧
      ((d.flag 0x680003 0).markSeen i false).bit 0x680003 0 = true ∧
      ∀ key, key ≠ 0x680003 → ((d.flag 0x680003 0).markSeen i false).rd key = d.rd key := by
    have hmark : ∀ f : Dev, (f.markSeen i false).cal.runs = f.cal.runs ∧ (f.markSeen i false).cal.phase = f.cal.phase ∧
        (f.markSeen i false).cal.fits = f.cal.fits ∧ ∀ key, (f.markSeen i false).rd key = f.rd key :=
      fun _ => ⟨rfl, rfl, rfl, fun _ => rfl⟩
    obtain ⟨hruns, hphase, hfits, hrd'⟩ := hmark (d.flag 0x680003 0)
    rw [hruns, hphase, hfits, hcal]
    refine ⟨heas, hst, hrx, rfl, rfl, rfl, ?_, fun key hkey => (hrd' key).trans (hrd key hkey)⟩
    unfold Dev.bit at hflag ⊢
    rw [hrd', hflag]
  obtain ⟨heas', hst', hrx', hruns, hphase, hfits, hbit, hrd'⟩ := hseen
  generalize (d.flag 0x680003 0).markSeen i false = g at *
  split
  · next hthird =>
    obtain ⟨heas'', hst'', hrx'', hobjs, hcal''⟩ := hput g (tabSet 0 g.cal.bad i 0)
    generalize ({ g with cal := { g.cal with bad := tabSet 0 g.cal.bad i 0 } } : Dev) = c at *
    dsimp only
    rw [Dev.flag_eas, Dev.flag_state, Dev.flag_rx, Dev.flag_cal, hcal'']
    refine ⟨heas''.trans heas', hst''.trans hst', hrx''.trans hrx', hruns, hphase, hfits, Dev.bit_flag_of_bit _ _ _ _ ?_,
      iff_of_true rfl hthird, fun key hkey => (Dev.rd_flag_other _ _ _ _ hkey).trans ((Dev.rd_congr hobjs key).trans (hrd' key hkey))⟩
    rw [Dev.bit_congr hobjs]
    exact hbit
  · next hfew => exact ⟨heas', hst', hrx', hruns, hphase, hfits, hbit, iff_of_false (by simp) hfew, hrd'⟩

end
end Sys2Proof.Machine
end

section
/-! Fits and glaze steps (R450, R455 to R462). -/

namespace Sys2Proof.Machine

section
variable {d e : Dev}

/-! ### Words of a qubit that no job holds -/

theorem holderOf_none (h : d.resident = []) (key : Nat) : d.holderOf key = none := by
  unfold Dev.holderOf
  dsimp only
  rw [h]
  simp only [List.find?_nil, ite_self]

/-- A key of the discriminator of a qubit: it is no tap and changes no chain. -/
def discKey (key : Nat) : Prop := 0x3000 ≤ key / 256 ∧ key / 256 ≤ 0x31FF ∧ 0x44 ≤ key % 256 ∧ key % 256 < 0x80

theorem applyWord_disc (d old : Dev) {key : Nat} (v : Nat) (h : discKey key) : d.applyWord old key v = d.wr key v := by
  obtain ⟨hlow, hhigh, hsub, hsub'⟩ := h
  unfold Dev.applyWord
  dsimp only
  split
  · rfl
  rw [if_neg (by omega), if_pos ⟨hlow, hhigh⟩]
  unfold Dev.chainChanged
  dsimp only
  refine if_neg ?_
  rw [Bool.and_eq_true, Bool.and_eq_true, not_and]
  rintro ⟨hmarks, -⟩
  simp only [Bool.or_eq_true, beq_iff_eq, decide_eq_true_eq, Bool.and_eq_true] at hmarks
  omega

theorem applyWords_disc (d : Dev) {l : List (Nat × Nat)} (h : ∀ w ∈ l, discKey w.1) : d.applyWords l = d.wrs l := by
  have hplain : ∀ w ∈ l, isTaps w.1 = false := fun w hw => by
    obtain ⟨-, -, hsub, -⟩ := h w hw
    unfold isTaps
    rw [Bool.and_eq_false_iff]
    exact .inr (beq_eq_false_iff_ne.mpr (by omega))
  have hnone : l.filter (fun w => isTaps w.1) = [] := List.filter_eq_nil_iff.mpr fun w hw => by simp [hplain w hw]
  have hall : l.filter (fun w => !isTaps w.1) = l := List.filter_eq_self.mpr fun w hw => by simp [hplain w hw]
  have hlattice : (l.any fun w => w.1 / 256 == 0x2010 && d.rd w.1 != w.2) = false := by
    rw [List.any_eq_false]
    intro w hw
    obtain ⟨hlow, -, -, -⟩ := h w hw
    rw [Bool.and_eq_true, not_and]
    intro hidx
    have := beq_iff_eq.mp hidx
    omega
  unfold Dev.applyWords
  rw [hnone, hall, hlattice]
  dsimp only
  rw [if_neg (by simp), List.nil_append]
  have hfold : ∀ (l : List (Nat × Nat)) (e : Dev), (∀ w ∈ l, discKey w.1) →
      l.foldl (fun e w => e.applyWord d w.1 w.2) e = e.wrs l := by
    intro l
    induction l with
    | nil => exact fun e _ => rfl
    | cons w l ih =>
      intro e hl
      rw [List.foldl_cons, applyWord_disc e d w.2 (hl w List.mem_cons_self), ih _ fun x hx => hl x (List.mem_cons_of_mem _ hx)]
      rfl
  exact hfold l d h

theorem varnish_disc (h : d.resident = []) (routine ukind unit : Nat) (figure old new : Int) {l : List (Nat × Nat)}
    (hl : ∀ w ∈ l, discKey w.1) : d.varnish routine ukind unit figure old new l = (d.wrs l, false) := by
  have hheld : l.filter (fun v => (d.holderOf v.1).isSome) = [] :=
    List.filter_eq_nil_iff.mpr fun w _ => by simp [holderOf_none h]
  have hfree : l.filter (fun v => (d.holderOf v.1).isNone) = l := List.filter_eq_self.mpr fun w _ => by simp [holderOf_none h]
  unfold Dev.varnish
  rw [hheld, hfree, applyWords_disc d hl]
  rfl

/-! ### DISC_FIT -/

/-- The words of a fit of two groups: the centres, and the threshold's where the discriminator is linear. -/
def fitWords (d : Dev) (q : Nat) (ga gb : List (Int × Int)) : List (Nat × Nat) :=
  let c0 := meanOf ga
  let c1 := meanOf gb
  let rot := rotation c0 c1
  [(unitKey 0x30004B q, toU 32 c0.1), (unitKey 0x30004C q, toU 32 c0.2), (unitKey 0x30004B q + 2, toU 32 c1.1),
    (unitKey 0x30004C q + 2, toU 32 c1.2)] ++
  (if d.rd (unitKey 0x300046 q) = 0 then
    [(unitKey 0x300047 q, toU 16 rot.1), (unitKey 0x300048 q, toU 16 rot.2),
      (unitKey 0x300049 q, toU 32 (divRound ((c0.1 + c1.1) * rot.1 + (c0.2 + c1.2) * rot.2) (2 ^ 15)))]
  else [])

theorem fitWords_cons (d : Dev) (q : Nat) (ga gb : List (Int × Int)) : fitWords d q ga gb =
    (unitKey 0x30004B q, toU 32 (meanOf ga).1) :: (unitKey 0x30004C q, toU 32 (meanOf ga).2) ::
      (unitKey 0x30004B q + 2, toU 32 (meanOf gb).1) :: (unitKey 0x30004C q + 2, toU 32 (meanOf gb).2) ::
      if d.rd (unitKey 0x300046 q) = 0 then
        [(unitKey 0x300047 q, toU 16 (rotation (meanOf ga) (meanOf gb)).1),
          (unitKey 0x300048 q, toU 16 (rotation (meanOf ga) (meanOf gb)).2),
          (unitKey 0x300049 q, toU 32 (divRound (((meanOf ga).1 + (meanOf gb).1) * (rotation (meanOf ga) (meanOf gb)).1 +
            ((meanOf ga).2 + (meanOf gb).2) * (rotation (meanOf ga) (meanOf gb)).2) (2 ^ 15)))]
      else [] := rfl

theorem fitWords_disc {q : Nat} (hq : q < 512) (ga gb : List (Int × Int)) : ∀ w ∈ fitWords d q ga gb, discKey w.1 := by
  intro w hw
  unfold fitWords at hw
  unfold discKey
  rcases List.mem_append.mp hw with hw | hw
  · simp only [List.mem_cons, List.not_mem_nil, or_false] at hw
    rcases hw with rfl | rfl | rfl | rfl <;> (dsimp only [unitKey]; omega)
  · split at hw
    · simp only [List.mem_cons, List.not_mem_nil, or_false] at hw
      rcases hw with rfl | rfl | rfl <;> (dsimp only [unitKey]; omega)
    · cases hw

theorem fitWords_nodup (q : Nat) (ga gb : List (Int × Int)) : ((fitWords d q ga gb).map (·.1)).Nodup := by
  unfold fitWords
  dsimp only [unitKey]
  split <;> simp <;> omega

/-- A fit gives a centre's coordinate to its object. -/
theorem rd_fitWords {q : Nat} (ga gb : List (Int × Int)) (e : Dev) :
    (e.wrs (fitWords d q ga gb)).rd (unitKey 0x30004B q) = toU 32 (meanOf ga).1 ∧
    (e.wrs (fitWords d q ga gb)).rd (unitKey 0x30004C q) = toU 32 (meanOf ga).2 ∧
    (e.wrs (fitWords d q ga gb)).rd (unitKey 0x30004D q) = toU 32 (meanOf gb).1 ∧
    (e.wrs (fitWords d q ga gb)).rd (unitKey 0x30004E q) = toU 32 (meanOf gb).2 := by
  have hword : ∀ k v, (k, v) ∈ fitWords d q ga gb → (e.wrs (fitWords d q ga gb)).rd k = v := fun k v hmem =>
    Dev.rd_wrs_of_mem e hmem fun p hp hpk =>
      congrArg (fun x : Nat × Nat => x.2) (List.inj_on_of_nodup_map (fitWords_nodup q ga gb) hp hmem hpk)
  refine ⟨hword _ _ ?_, hword _ _ ?_, hword _ _ ?_, hword _ _ ?_⟩ <;> refine List.mem_append_left _ ?_
  · exact List.mem_cons_self
  · exact List.mem_cons_of_mem _ List.mem_cons_self
  · rw [show unitKey 0x30004D q = unitKey 0x30004B q + 2 by unfold unitKey; omega]
    exact List.mem_cons_of_mem _ (List.mem_cons_of_mem _ List.mem_cons_self)
  · rw [show unitKey 0x30004E q = unitKey 0x30004C q + 2 by unfold unitKey; omega]
    exact List.mem_cons_of_mem _ (List.mem_cons_of_mem _ (List.mem_cons_of_mem _ List.mem_cons_self))

/-- The device without the fit that has ended. -/
def fitOver (d : Dev) (q : Nat) : Dev := { d with cal := { d.cal with fits := d.cal.fits.filter fun x => x.qubit != q } }

/-- A fit that has kernels, or none. -/
def kernelKept (e : Dev) (q : Nat) (k : List W32) : Dev :=
  if k = [] then e else { e with cal := { e.cal with kernels := tabSet [] e.cal.kernels q k } }

theorem discFit_eq {q fid : Nat} {ga gb ground excited : List (Int × Int)} {f : Fit} (hq : q < 512) (hfits : d.cal.fits = [f])
    (hqubit : f.qubit = q) (hgroups : f.groups = [ga, gb]) (hres : d.resident = []) :
    ∃ old new, discFitOp q ground excited fid d =
      if 64 ≤ ga.length ∧ 64 ≤ gb.length ∧ 5000 ≤ fid then
        (kernelKept (((fitOver d q).markSeen (calIndex 6 7 q) true).wrs (fitWords d q ga gb)) q
          (if f.capture.isSome then fitKernel ground excited else [])).calRecord 6 0 7 q fid old new f.job f.shot
      else (((fitOver d q).implausible (calIndex 6 7 q)).1).calRecord 6 2 7 q fid old new f.job f.shot := by
  refine ⟨sext 32 (d.rd (if d.rd (unitKey 0x300046 q) = 0 then unitKey 0x300049 q else unitKey 0x30004D q)),
    if d.rd (unitKey 0x300046 q) = 0 then
      divRound (((meanOf ga).1 + (meanOf gb).1) * (rotation (meanOf ga) (meanOf gb)).1 +
        ((meanOf ga).2 + (meanOf gb).2) * (rotation (meanOf ga) (meanOf gb)).2) (2 ^ 15)
    else (meanOf gb).1, ?_⟩
  have hvarnish := fun old new => varnish_disc (d := (fitOver d q).markSeen (calIndex 6 7 q) true) hres 6 7 q fid old new
    (fitWords_disc (d := d) hq ga gb)
  have hfind : d.cal.fits.find? (fun f => f.qubit == q) = some f := by
    rw [hfits]
    exact List.find?_cons_of_pos (by simp [hqubit])
  have hcond : (([ga, gb].all fun g => decide (64 ≤ g.length)) && decide (5000 ≤ fid)) = true ↔
      64 ≤ ga.length ∧ 64 ≤ gb.length ∧ 5000 ≤ fid := by simp [and_assoc]
  unfold discFitOp
  rw [hfind]
  dsimp only
  rw [hgroups]
  simp only [List.take_succ_cons, List.take_nil, List.map_cons, List.map_nil, List.getD_cons_zero,
    List.getD_cons_succ, List.zipIdx_cons, List.zipIdx_nil, List.flatMap_cons, List.flatMap_nil, List.append_nil,
    List.cons_append, List.nil_append, Nat.mul_zero, Nat.add_zero, Nat.zero_add, Nat.mul_one]
  rw [← fitWords_cons]
  unfold fitOver at hvarnish ⊢
  rw [hvarnish]
  refine if_congr hcond ?_ rfl
  rfl

/-! ### Glaze -/

/-- Glazed values step one after another. -/
def glazed (d : Dev) (key target : Nat → Nat) (l : List Nat) : Dev := l.foldl (fun e u => e.glaze (key u) (target u)) d

theorem glazed_objs (d : Dev) (key target : Nat → Nat) (l : List Nat) : OnlyObjs d (glazed d key target l) :=
  OnlyObjs.foldl _ (fun e _ => onlyObjs_wr e _ _) l d

theorem rd_glazed_other {key target : Nat → Nat} {k : Nat} (l : List Nat) (d : Dev) (h : ∀ u ∈ l, k ≠ key u) :
    (glazed d key target l).rd k = d.rd k :=
  List.foldlRecOn (motive := fun e : Dev => e.rd k = d.rd k) l _ rfl fun _ he u hu => (Dev.rd_wr_other _ _ _ _ (h u hu)).trans he

/-- Each value takes its own step from where it and its target stood, when no step touches another's value or target. -/
theorem rd_glazed {key target : Nat → Nat} (l : List Nat) (d : Dev) (hnodup : l.Nodup) (hkey : ∀ u v, key u = key v → u = v)
    (htarget : ∀ u ∈ l, ∀ v ∈ l, target u ≠ key v) (hstep : ∀ u ∈ l, 0x680005 ≠ key u) {u : Nat} (hu : u ∈ l) :
    (glazed d key target l).rd (key u) = toU 16 (glazeTo (d.rd 0x680005) (d.rd16 (key u)) (d.rd16 (target u))) := by
  induction l generalizing d with
  | nil => cases hu
  | cons v l ih =>
    obtain ⟨hnew, hnodup⟩ := List.nodup_cons.mp hnodup
    have hcons : glazed d key target (v :: l) = glazed (d.glaze (key v) (target v)) key target l := rfl
    rw [hcons]
    rcases List.mem_cons.mp hu with rfl | hu
    · rw [rd_glazed_other l _ fun w hw heq => hnew ((hkey u w heq).symm ▸ hw)]
      exact Dev.rd_wr_self ..
    · have hother : ∀ k, k ≠ key v → (d.glaze (key v) (target v)).rd k = d.rd k := fun k hk => Dev.rd_wr_other _ _ _ _ hk
      rw [ih (d.glaze (key v) (target v)) hnodup (fun a ha b hb => htarget a (List.mem_cons_of_mem _ ha) b (List.mem_cons_of_mem _ hb))
        (fun a ha => hstep a (List.mem_cons_of_mem _ ha)) hu]
      unfold Dev.rd16
      rw [hother _ (hstep v List.mem_cons_self), hother _ fun heq => hnew (hkey _ _ heq ▸ hu),
        hother _ (htarget u (List.mem_cons_of_mem _ hu) v List.mem_cons_self)]

/-- The device once every DC level, port bias and flux offset has taken its step. -/
def allGlazed (d : Dev) : Dev :=
  glazed (glazed (glazed d (unitKey 0x684003) (unitKey 0x684004) (List.range 64)) (unitKey 0x688003) (unitKey 0x688004)
    (List.range 32)) (unitKey 0x340005) (unitKey 0x690005) (List.range 768)

theorem glazeStep_eq (hasleep : d.state ≠ .asleep) (hhold : d.rdB 0x680007 = false) (hperiod : d.rd 0x680006 ≠ 0)
    (hinstant : d.epoch % d.rd 0x680006 = 0) (honce : d.cal.lastGlaze ≠ some d.epoch) :
    glazeStepOp d = allGlazed { d with cal := { d.cal with lastGlaze := some d.epoch } } := by
  unfold glazeStepOp
  dsimp only
  rw [if_neg (by simp [hasleep, hhold, hperiod, hinstant, honce])]
  rfl

theorem rd_allGlazed (d : Dev) {key target u : Nat}
    (h : (key = unitKey 0x684003 u ∧ target = unitKey 0x684004 u ∧ u < 64) ∨
      (key = unitKey 0x688003 u ∧ target = unitKey 0x688004 u ∧ u < 32) ∨
      (key = unitKey 0x340005 u ∧ target = unitKey 0x690005 u ∧ u < 768)) :
    (allGlazed d).rd key = toU 16 (glazeTo (d.rd 0x680005) (d.rd16 key) (d.rd16 target)) := by
  have hinj : ∀ base u v, unitKey base u = unitKey base v → u = v := fun base u v h => by
    unfold unitKey at h
    omega
  have hfirst : ∀ k, (∀ u < 64, k ≠ unitKey 0x684003 u) →
      (glazed d (unitKey 0x684003) (unitKey 0x684004) (List.range 64)).rd k = d.rd k :=
    fun k hk => rd_glazed_other _ _ fun u hu => hk u (List.mem_range.mp hu)
  have hsecond : ∀ (e : Dev) k, (∀ u < 32, k ≠ unitKey 0x688003 u) →
      (glazed e (unitKey 0x688003) (unitKey 0x688004) (List.range 32)).rd k = e.rd k :=
    fun e k hk => rd_glazed_other _ _ fun u hu => hk u (List.mem_range.mp hu)
  have hthird : ∀ (e : Dev) k, (∀ u < 768, k ≠ unitKey 0x340005 u) →
      (glazed e (unitKey 0x340005) (unitKey 0x690005) (List.range 768)).rd k = e.rd k :=
    fun e k hk => rd_glazed_other _ _ fun u hu => hk u (List.mem_range.mp hu)
  unfold allGlazed
  rcases h with ⟨rfl, rfl, hu⟩ | ⟨rfl, rfl, hu⟩ | ⟨rfl, rfl, hu⟩
  · rw [hthird _ _ (by unfold unitKey; omega), hsecond _ _ (by unfold unitKey; omega)]
    exact rd_glazed _ d List.nodup_range (hinj _) (by unfold unitKey; omega) (by unfold unitKey; omega) (List.mem_range.mpr hu)
  · rw [hthird _ _ (by unfold unitKey; omega), rd_glazed _ _ List.nodup_range (hinj _) (by unfold unitKey; omega)
      (by unfold unitKey; omega) (List.mem_range.mpr hu)]
    unfold Dev.rd16
    rw [hfirst _ (by unfold unitKey; omega), hfirst _ (by unfold unitKey; omega), hfirst _ (by unfold unitKey; omega)]
  · rw [rd_glazed _ _ List.nodup_range (hinj _)
      (fun a ha b hb => by have := List.mem_range.mp ha; have := List.mem_range.mp hb; unfold unitKey; omega)
      (fun a ha => by have := List.mem_range.mp ha; unfold unitKey; omega) (List.mem_range.mpr hu)]
    unfold Dev.rd16
    rw [hsecond _ _ (by unfold unitKey; omega), hsecond _ _ (by unfold unitKey; omega), hsecond _ _ (by unfold unitKey; omega),
      hfirst _ (by unfold unitKey; omega), hfirst _ (by unfold unitKey; omega), hfirst _ (by unfold unitKey; omega)]

end
end Sys2Proof.Machine
end

section
/-! The slices of a line: their rotation and their check (R243 to R246, R442, R447, R451 to R454). -/

namespace Sys2Proof.Machine

/-! ### Fields of a word -/

/-- A field that is taken out of a word and put back with another value has that value. -/
theorem field_replaced (m : Nat) {b w new : Nat} (hb : 0 < b) (hnew : new < w) : (m - m / b % w * b + new * b) / b % w = new := by
  have hdiv := Nat.div_add_mod m b
  have hfield := Nat.div_add_mod (m / b) w
  have hrest := Nat.mod_lt m hb
  generalize m / b % w = x at *
  generalize m / b / w = h at *
  generalize m % b = r at *
  have hm : m - x * b + new * b = b * (w * h + new) + r := by
    rw [← hdiv, ← hfield, Nat.mul_add, Nat.mul_add, Nat.mul_comm b x, Nat.mul_comm b new]
    omega
  rw [hm, Nat.mul_add_div hb, Nat.div_eq_of_lt hrest, Nat.add_zero, Nat.mul_add_mod, Nat.mod_eq_of_lt hnew]

theorem sext_toU {v : Int} (hlow : -512 ≤ v) (hhigh : v < 512) : sext 10 (toU 10 v) = v := by
  unfold sext toU
  dsimp only
  split <;> omega

section
variable {d e : Dev} {n : Nat}

theorem lineRx_setLine (d : Dev) (n : Nat) (l : LineRx) : (d.setLine n l).lineRx n = l := tabGet_set_self ({} : LineRx) ..

theorem sliceAt_eq (d : Dev) (n p : Nat) : d.sliceAt n p = d.rd (unitKey 0x384024 n) / 256 ^ p % 256 := by
  unfold Dev.sliceAt bits
  rw [show 8 * p + 7 + 1 - 8 * p = 8 by omega, Nat.pow_mul]
  rfl

/-! ### Rotation -/

/-- A line whose next slice goes to its check. -/
def lineTurned (d : Dev) (n x : Nat) : LineRx := { d.lineRx n with turn := (x + 1) % 52, lastTurn := d.epoch, rotateDue := false }

/-- The device with a slice under check and a spare in its position. -/
def sliceSwapped (d : Dev) (n x p y : Nat) (rest : List Nat) : Dev :=
  (((((d.setLine n (lineTurned d n x)).wr (unitKey 0x384024 n)
    (d.rd (unitKey 0x384024 n) - x * 256 ^ p + y * 256 ^ p)).setLine n { lineTurned d n x with spares := rest }).setLine n
    { lineTurned d n x with spares := rest, checking := some x })).calBusy

theorem rotateSlice_eq {x p y : Nat} {rest : List Nat} (hnext : d.nextSlice n = some x)
    (hpos : (List.range 48).find? (fun i => d.sliceAt n i == x) = some p) (hspare : (d.lineRx n).spares = y :: rest) :
    d.rotateSlice n = sliceSwapped d n x p y rest := by
  have hpos' : (List.range 48).find? (fun i => (d.setLine n (lineTurned d n x)).sliceAt n i == x) = some p := hpos
  have hout : (d.setLine n (lineTurned d n x)).outOfInterleave n x =
      some (((d.setLine n (lineTurned d n x)).wr (unitKey 0x384024 n)
        (d.rd (unitKey 0x384024 n) - x * 256 ^ p + y * 256 ^ p)).setLine n { lineTurned d n x with spares := rest }) := by
    unfold Dev.outOfInterleave
    rw [lineRx_setLine, hpos']
    dsimp only
    rw [show (lineTurned d n x).spares = y :: rest from hspare]
    rfl
  unfold Dev.rotateSlice
  rw [hnext]
  dsimp only
  rw [show ({ d.lineRx n with turn := (x + 1) % 52, lastTurn := d.epoch, rotateDue := false } : LineRx) = lineTurned d n x from rfl, hout]
  dsimp only
  rw [lineRx_setLine]
  rfl

theorem canRotate_of (hcold : d.state ≠ .cold) (hasleep : d.state ≠ .asleep) (hphase : d.cal.phase ≠ 1)
    (hfree : (d.lineRx n).checking = none) (hleft : d.rd (unitKey 0x384025 n) ≠ 0)
    (hperiod : (d.lineRx n).lastTurn + d.rd 0x680008 ≤ d.epoch) : d.canRotate n = true := by
  unfold Dev.canRotate
  simp [hcold, hasleep, hphase, hfree, hleft, hperiod]

theorem sliceSwapped_leaves {x p y : Nat} {rest : List Nat}
    (hpos : (List.range 48).find? (fun i => d.sliceAt n i == x) = some p) (hy : y < 256) :
    (sliceSwapped d n x p y rest).lineRx n = { lineTurned d n x with spares := rest, checking := some x } ∧
    (sliceSwapped d n x p y rest).sliceAt n p = y ∧ (sliceSwapped d n x p y rest).hub = d.hub := by
  have hat : d.sliceAt n p = x := beq_iff_eq.mp (List.find?_some (p := fun i => d.sliceAt n i == x) hpos)
  have hmap : (sliceSwapped d n x p y rest).rd (unitKey 0x384024 n) = d.rd (unitKey 0x384024 n) - x * 256 ^ p + y * 256 ^ p :=
    (Dev.rd_wr_other _ _ _ _ (by unfold unitKey; omega)).trans (Dev.rd_wr_self ..)
  refine ⟨lineRx_setLine .., ?_, rfl⟩
  rw [sliceAt_eq, hmap, ← hat, sliceAt_eq]
  exact field_replaced _ (Nat.pow_pos (by decide)) hy

/-! ### The check of a slice -/

theorem rd_sliceTrim_congr (h : e.rd (unitKey 0x681001 n) = d.rd (unitKey 0x681001 n)) (s f : Nat) : e.sliceTrim n s f = d.sliceTrim n s f := by
  unfold Dev.sliceTrim
  rw [h]

/-- The trims put into a slice's place are what the place gives. -/
theorem sliceTrim_set (d : Dev) (n s : Nat) {ofs gain skew : Int} (ho : -512 ≤ ofs ∧ ofs < 512) (hg : -512 ≤ gain ∧ gain < 512)
    (hs : -512 ≤ skew ∧ skew < 512) : (d.setSliceTrim n s ofs gain skew).sliceTrim n s 0 = ofs ∧
    (d.setSliceTrim n s ofs gain skew).sliceTrim n s 1 = gain ∧ (d.setSliceTrim n s ofs gain skew).sliceTrim n s 2 = skew := by
  have hob := toU_lt 10 ofs
  have hgb := toU_lt 10 gain
  have hsb := toU_lt 10 skew
  have hword : (d.setSliceTrim n s ofs gain skew).rd (unitKey 0x681001 n) / 2 ^ (32 * s) % 2 ^ 32 =
      toU 10 ofs + 2 ^ 10 * toU 10 gain + 2 ^ 20 * toU 10 skew := by
    unfold Dev.setSliceTrim bits
    dsimp only
    rw [Dev.rd_wr_self, show 32 * s + 31 + 1 - 32 * s = 32 by omega]
    exact field_replaced _ (Nat.two_pow_pos _) (by omega)
  have hfield : ∀ f, (d.setSliceTrim n s ofs gain skew).sliceTrim n s f =
      sext 10 ((d.setSliceTrim n s ofs gain skew).rd (unitKey 0x681001 n) / 2 ^ (32 * s) / 2 ^ (10 * f) % 2 ^ 10) := fun f => by
    unfold Dev.sliceTrim bits
    rw [show 32 * s + 10 * f + 9 + 1 - (32 * s + 10 * f) = 10 by omega, Nat.pow_add, ← Nat.div_div_eq_div_mul]
  rw [hfield, hfield, hfield]
  generalize (d.setSliceTrim n s ofs gain skew).rd (unitKey 0x681001 n) / 2 ^ (32 * s) = m at *
  have h0 : m / 2 ^ (10 * 0) % 2 ^ 10 = toU 10 ofs := by omega
  have h1 : m / 2 ^ (10 * 1) % 2 ^ 10 = toU 10 gain := by omega
  have h2 : m / 2 ^ (10 * 2) % 2 ^ 10 = toU 10 skew := by omega
  rw [h0, h1, h2]
  exact ⟨sext_toU ho.1 ho.2, sext_toU hg.1 hg.2, sext_toU hs.1 hs.2⟩

/-- Plausible trims are within their bands. -/
theorem sliceOk_bands {s : Nat} {ofs gain skew : Int} (h : d.sliceOk n s ofs gain skew = true) :
    (-512 ≤ ofs ∧ ofs < 512) ∧ (-512 ≤ gain ∧ gain < 512) ∧ (-512 ≤ skew ∧ skew < 512) := by
  unfold Dev.sliceOk plausible at h
  simp only [Bool.and_eq_true, decide_eq_true_eq] at h
  obtain ⟨⟨⟨ho, -⟩, ⟨hg, -⟩⟩, ⟨hs, -⟩⟩ := h
  omega

theorem sliceOk_wr (d : Dev) (n s spur : Nat) (ofs gain skew : Int) :
    (d.wr (unitKey 0x681002 n) spur).sliceOk n s ofs gain skew = d.sliceOk n s ofs gain skew := by
  have hrd : (d.wr (unitKey 0x681002 n) spur).rd (unitKey 0x681001 n) = d.rd (unitKey 0x681001 n) :=
    Dev.rd_wr_other _ _ _ _ (by unfold unitKey; omega)
  unfold Dev.sliceOk
  rw [rd_sliceTrim_congr hrd, rd_sliceTrim_congr hrd, rd_sliceTrim_congr hrd]
  rfl

/-- The slice under check stands among the spares again, its trims as they were. -/
def checkLost (d : Dev) (n x : Nat) : Dev :=
  ((d.setLine n { d.lineRx n with checking := none, spares := (d.lineRx n).spares ++ [x] }).calBusy).flag 0x680003 2

/-- The slice under check stands among the spares again, with the trims of the check. -/
def checkPassed (d : Dev) (n x spur : Nat) (ofs gain skew : Int) : Dev :=
  ((((d.wr (unitKey 0x681002 n) spur).setSliceTrim n x ofs gain skew).markSeen (calIndex 1 1 (52 * n + x)) true).setLine n
    { d.lineRx n with
      checking := none, spares := (d.lineRx n).spares ++ [x], bad := (d.lineRx n).bad.filter fun b => b.1 != x }).calBusy

/-- The slice under check waits for its next turn. -/
def checkFailed (d : Dev) (n x spur : Nat) : Dev :=
  ((d.wr (unitKey 0x681002 n) spur).setLine n { d.lineRx n with
    checking := none, bad := ((d.lineRx n).bad.filter fun b => b.1 != x) ++ [(x, (d.lineRx n).turn)] }).calBusy

theorem sliceCheck_eq {x spur : Nat} {ofs gain skew : Int} (hcheck : (d.lineRx n).checking = some x)
    (hlong : (d.lineRx n).lastTurn + 6000 ≤ d.epoch) : ∃ old old' new new', sliceCheckOp n ofs gain skew spur d =
      if d.bit 0x200003 0 = false then (checkLost d n x).calRecord 1 3 1 n spur old old 0 0
      else if d.sliceOk n x ofs gain skew then (checkPassed d n x spur ofs gain skew).calRecord 1 0 1 n spur old' new 0 0
      else
        let r := (checkFailed d n x spur).glitch n x
        if r.2 then (r.1.calRecord 1 2 1 n spur old' new' 0 0).retireNow (.slice n x) 1
        else r.1.calRecord 1 2 1 n spur old' new' 0 0 := by
  refine ⟨d.worstOffset n, d.worstOffset n, (checkPassed d n x spur ofs gain skew).worstOffset n, ofs, ?_⟩
  unfold sliceCheckOp
  dsimp only
  rw [hcheck]
  dsimp only
  rw [if_neg (by omega), sliceOk_wr]
  exact if_congr (by simp) rfl rfl

/-! ### What the check leaves -/

theorem checkLost_leaves (d : Dev) (n x : Nat) : (checkLost d n x).lineRx n =
      { d.lineRx n with checking := none, spares := (d.lineRx n).spares ++ [x] } ∧
    (checkLost d n x).bit 0x680003 2 = true ∧ (checkLost d n x).rd (unitKey 0x681001 n) = d.rd (unitKey 0x681001 n) := by
  unfold checkLost
  refine ⟨?_, Dev.bit_flag_self .., ?_⟩
  · unfold Dev.lineRx
    rw [Dev.flag_rx]
    exact lineRx_setLine ..
  · rw [Dev.rd_flag_other _ _ _ _ (by unfold unitKey; omega)]
    exact Dev.rd_wr_other _ _ _ _ (by unfold unitKey; omega)

theorem checkPassed_leaves {x spur : Nat} {ofs gain skew : Int} (hok : d.sliceOk n x ofs gain skew = true) :
    (checkPassed d n x spur ofs gain skew).lineRx n = { d.lineRx n with
      checking := none, spares := (d.lineRx n).spares ++ [x], bad := (d.lineRx n).bad.filter fun b => b.1 != x } ∧
    (checkPassed d n x spur ofs gain skew).sliceTrim n x 0 = ofs ∧ (checkPassed d n x spur ofs gain skew).sliceTrim n x 1 = gain ∧
    (checkPassed d n x spur ofs gain skew).sliceTrim n x 2 = skew ∧
    (checkPassed d n x spur ofs gain skew).rd (unitKey 0x681002 n) = spur := by
  obtain ⟨ho, hg, hs⟩ := sliceOk_bands hok
  obtain ⟨h0, h1, h2⟩ := sliceTrim_set (d.wr (unitKey 0x681002 n) spur) n x ho hg hs
  have hrd : ∀ key, key ≠ 0x680002 → (checkPassed d n x spur ofs gain skew).rd key =
      ((d.wr (unitKey 0x681002 n) spur).setSliceTrim n x ofs gain skew).rd key := fun key hkey => Dev.rd_wr_other _ _ _ _ hkey
  have htrim := hrd (unitKey 0x681001 n) (by unfold unitKey; omega)
  refine ⟨lineRx_setLine .., (rd_sliceTrim_congr htrim x 0).trans h0, (rd_sliceTrim_congr htrim x 1).trans h1,
    (rd_sliceTrim_congr htrim x 2).trans h2, ?_⟩
  rw [hrd _ (by unfold unitKey; omega)]
  exact (Dev.rd_wr_other _ _ _ _ (by unfold unitKey; omega)).trans (Dev.rd_wr_self ..)

theorem checkFailed_leaves (d : Dev) (n x spur : Nat) : ((checkFailed d n x spur).lineRx n).checking = none ∧
    (checkFailed d n x spur).cal.bad = d.cal.bad ∧
    (checkFailed d n x spur).rd (unitKey 0x681001 n) = d.rd (unitKey 0x681001 n) := by
  refine ⟨congrArg LineRx.checking (lineRx_setLine ..), rfl, ?_⟩
  exact (Dev.rd_wr_other _ _ _ _ (by unfold unitKey; omega)).trans (Dev.rd_wr_other _ _ _ _ (by unfold unitKey; omega))

theorem glitch_leaves (d : Dev) (n x : Nat) : (d.glitch n x).1.rx = d.rx ∧ (d.glitch n x).1.bit (unitKey 0x384026 n) 1 = true ∧
    ((d.glitch n x).2 = true ↔ 3 ≤ tabGet 0 d.cal.bad (calIndex 1 1 (52 * n + x)) + 1) ∧
    (d.glitch n x).1.rd (unitKey 0x681001 n) = d.rd (unitKey 0x681001 n) := by
  have hfault : ∀ e : Dev, (e.noteFault (.slice n x) 0).rx = e.rx ∧ (e.noteFault (.slice n x) 0).cal = e.cal ∧
      (e.noteFault (.slice n x) 0).objs = e.objs := fun _ => ⟨rfl, rfl, rfl⟩
  have hflag := Dev.bit_flag_self d (unitKey 0x384026 n) 1
  have hrx := Dev.flag_rx d (unitKey 0x384026 n) 1
  have hcal := Dev.flag_cal d (unitKey 0x384026 n) 1
  have hrd := fun key (h : key ≠ unitKey 0x384026 n) => Dev.rd_flag_other d (unitKey 0x384026 n) 1 key h
  unfold Dev.glitch
  generalize d.flag (unitKey 0x384026 n) 1 = f at *
  obtain ⟨hrx', hcal', hobjs⟩ := hfault f
  generalize f.noteFault (.slice n x) 0 = g at *
  obtain ⟨-, -, irx, -, -, -, -, ithird, ird⟩ := implausible_leaves g (calIndex 1 1 (52 * n + x))
  refine ⟨irx.trans (hrx'.trans hrx), ?_, ?_, ?_⟩
  · unfold Dev.bit at hflag ⊢
    rw [ird _ (by unfold unitKey; omega), Dev.rd_congr hobjs, hflag]
  · rw [ithird, hcal', hcal]
  · rw [ird _ (by unfold unitKey; omega), Dev.rd_congr hobjs, hrd _ (by unfold unitKey; omega)]

end
end Sys2Proof.Machine
end

section
/-! The calibration engine: the statement (R243 to R246, R442 to R466). -/

namespace Sys2Proof.Machine

section
variable (s : State)
theorem exec_calSkew (u : Nat) : exec (.calSkew u) s = .next (s.onNow (·.calCmd 2 2 u)) := rfl
theorem exec_calLevel (k u : Nat) : exec (.calLevel k u) s = .next (s.onNow (·.calCmd 3 k u)) := rfl
theorem exec_calFluxOfs (u : Nat) : exec (.calFluxOfs u) s = .next (s.onNow (·.calCmd 4 5 u)) := rfl
theorem exec_calLoopback (u : Nat) : exec (.calLoopback u) s = .next (s.onNow (·.calCmd 5 1 u)) := rfl
theorem exec_skewAuto (u : Nat) : exec (.skewAuto u) s = .next (s.onNow (skewAutoOp u)) := rfl
theorem exec_calResult (routine ukind unit : Nat) (vs : List (Nat × Int)) (p f : Int) (aborted : Bool) :
    exec (.calResult routine ukind unit vs p f aborted) s = .next (s.onNow (calResultOp routine ukind unit vs p f aborted)) := rfl
theorem exec_discFit (q : Nat) (ground excited : List (Int × Int)) (fid : Nat) :
    exec (.discFit q ground excited fid) s = .next (s.onNow (discFitOp q ground excited fid)) := rfl
theorem exec_glazeStep : exec .glazeStep s = .next (s.onNow glazeStepOp) := rfl
theorem exec_sliceRotate (n : Nat) : exec (.sliceRotate n) s = .next (s.onNow (sliceRotateOp n)) := rfl
theorem exec_sliceCheck (n : Nat) (ofs gain skew : Int) (spur : Nat) :
    exec (.sliceCheck n ofs gain skew spur) s = .next (s.onNow (sliceCheckOp n ofs gain skew spur)) := rfl

/-- Each of the four commands starts its own routine. -/
theorem exec_calCmd {i : Instr} {routine ukind unit : Nat}
    (h : (i = .calSkew unit ∧ routine = 2 ∧ ukind = 2) ∨ (i = .calLevel ukind unit ∧ routine = 3) ∨
      (i = .calFluxOfs unit ∧ routine = 4 ∧ ukind = 5) ∨ (i = .calLoopback unit ∧ routine = 5 ∧ ukind = 1)) :
    exec i s = .next (s.onNow (·.calCmd routine ukind unit)) ∧ (routine = 2 ∨ routine = 3 ∨ routine = 4 ∨ routine = 5) := by
  rcases h with ⟨rfl, rfl, rfl⟩ | ⟨rfl, rfl⟩ | ⟨rfl, rfl, rfl⟩ | ⟨rfl, rfl, rfl⟩
  · exact ⟨exec_calSkew s unit, .inl rfl⟩
  · exact ⟨exec_calLevel s ukind unit, .inr (.inl rfl)⟩
  · exact ⟨exec_calFluxOfs s unit, .inr (.inr (.inl rfl))⟩
  · exact ⟨exec_calLoopback s unit, .inr (.inr (.inr rfl))⟩

end

section
variable {d : Dev}

/-- The mean of a group that is not empty is over its own length. -/
theorem meanOf_nonempty {l : List (Int × Int)} (h : 1 ≤ l.length) :
    meanOf l = (divRound ((l.map (·.1)).foldl (· + ·) 0) l.length, divRound ((l.map (·.2)).foldl (· + ·) 0) l.length) := by
  unfold meanOf
  rw [Nat.max_eq_right h]

theorem fitOver_fits {f : Fit} {q : Nat} (hfits : d.cal.fits = [f]) (hqubit : f.qubit = q) : (fitOver d q).cal.fits = [] := by
  unfold fitOver
  rw [hfits]
  simp [hqubit]

theorem kernelKept_leaves (e : Dev) (q : Nat) (k : List W32) : (kernelKept e q k).cal.fits = e.cal.fits ∧
    (kernelKept e q k).eas = e.eas ∧ ∀ key, (kernelKept e q k).rd key = e.rd key := by
  unfold kernelKept
  split
  · exact ⟨rfl, rfl, fun _ => rfl⟩
  · exact ⟨rfl, rfl, fun _ => rfl⟩

/-- What stays of a phase when its routine has no run any more: the next routine, or none. -/
theorem nextRuns_leaves {routine : Nat} (hnone : d.cal.runs = []) :
    (d.cal.phase ≠ routine → (d.nextRuns routine).cal.runs = [] ∧ (d.nextRuns routine).cal.phase = d.cal.phase) ∧
    (d.cal.phase = routine →
      (routine = 1 → (d.nextRuns routine).cal.phase = 2 ∧ ∀ u, u < 8 → ∃ x ∈ (d.nextRuns routine).cal.runs, x.routine = 2 ∧ x.unit = u) ∧
      (routine = 2 → (d.nextRuns routine).cal.phase = 3 ∧
        ∀ u, u < 64 → ∃ x ∈ (d.nextRuns routine).cal.runs, x.routine = 3 ∧ x.ukind = 3 ∧ x.unit = u) ∧
      (routine = 3 → d.state = .priming → (d.nextRuns routine).cal.phase = 4 ∧
        ∀ u, u < 768 → ∃ x ∈ (d.nextRuns routine).cal.runs, x.routine = 4 ∧ x.unit = u) ∧
      (routine = 4 ∨ routine = 3 ∧ d.state ≠ .priming → (d.nextRuns routine).cal.phase = 0 ∧ (d.nextRuns routine).cal.runs = [])) ∧
    (d.nextRuns routine).cal.stage = d.cal.stage ∧ (d.nextRuns routine).eas = d.eas ∧
    ∀ key, key ≠ 0x680002 → (d.nextRuns routine).rd key = d.rd key := by
  rw [nextRuns_of_none hnone]
  split
  · next hphase =>
    have hnext : ∀ k, (if routine < 3 ∨ routine = 3 ∧ d.state = .priming then routine + 1 else 0) = k →
        d.startPhase (if routine < 3 ∨ routine = 3 ∧ d.state = .priming then routine + 1 else 0) = d.startPhase k := fun k hk => by rw [hk]
    have hstage : ∀ k, (inPhase d k).cal.stage = d.cal.stage ∧ (inPhase d k).eas = d.eas ∧ ∀ key, (inPhase d k).rd key = d.rd key :=
      fun _ => ⟨rfl, rfl, fun _ => rfl⟩
    refine ⟨fun h => absurd hphase h, fun _ => ⟨?_, ?_, ?_, ?_⟩, ?_⟩
    · intro hr
      obtain ⟨honly, -, hskew, -, -⟩ := startPhase_only d 2
      rw [hnext 2 (by rw [hr]; rfl)]
      exact ⟨honly.phase, hskew rfl⟩
    · intro hr
      obtain ⟨honly, -, -, hlevel, -⟩ := startPhase_only d 3
      rw [hnext 3 (by rw [hr]; rfl)]
      exact ⟨honly.phase, hlevel rfl⟩
    · intro hr hpriming
      obtain ⟨honly, -, -, -, hflux⟩ := startPhase_only d 4
      rw [hnext 4 (by rw [if_pos (.inr ⟨hr, hpriming⟩), hr])]
      exact ⟨honly.phase, hflux rfl⟩
    · intro hends
      obtain ⟨honly, hruns, -, -, -⟩ := startPhase_only d 0
      rw [hnext 0 (if_neg (by rcases hends with h | ⟨h, hnot⟩ <;> simp [h]; exact hnot))]
      exact ⟨honly.phase, (hruns rfl).trans hnone⟩
    · generalize (if routine < 3 ∨ routine = 3 ∧ d.state = .priming then routine + 1 else 0) = k
      obtain ⟨honly, -⟩ := startPhase_only d k
      obtain ⟨hstage, heas, hrd⟩ := hstage k
      exact ⟨honly.stage.trans hstage, honly.eas.trans heas, fun key hkey => (honly.rd key hkey).trans (hrd key)⟩
  · next hphase => exact ⟨fun _ => ⟨hnone, rfl⟩, fun h => absurd h hphase, rfl, rfl, fun _ _ => rfl⟩

end

/-- Settles O49: a command starts its routine on every unit named or none; a run that ends leaves its record, and what a plausible
result, a fit, a glaze step or a slice check changes is named key by key. -/
theorem calibrationEngine : Obligations.CalibrationEngine := by
  unfold Obligations.CalibrationEngine
  intro s
  refine ⟨fun i routine ukind unit hi => ⟨fun hfree hallowed => ?starts, fun hwhy => ?rejected⟩,
    fun tile hcold hasleep hfree => ⟨fun hmoved => ?moved, fun hstill => ?still⟩,
    fun routine ukind unit vs p f aborted r hruns hroutine hkind hunit hwhy => ?aborted,
    fun unit v p f r hruns hroutine hkind hunit hlost hat hheld href hphase => ⟨fun hlow hhigh => ?shown, fun hout => ?counted⟩,
    fun q fid ga gb ground excited f hq hfits hqubit hgroups hres => ⟨fun ha hb hfid => ?fits, fun hpoor => ?poor⟩,
    fun hasleep hhold hperiod hinstant honce => ?glaze,
    fun n x p y rest hcold hasleep hphase hfree hleft hperiod => ⟨fun htick hnext hpos hspare hx hy => ?rotates, fun htick => ?waits⟩,
    fun n x spur ofs gain skew hcheck hlong => ⟨fun href => ?lost, fun href hok => ?passed, fun href hbad hfew => ?glitched⟩⟩
  case starts =>
    have hop := calCmd_starts hfree hallowed
    obtain ⟨honly, hruns, hbit⟩ := startedOn routine ukind (calUnits ukind unit) s.now
    have hddr : (s.now.calCmd routine ukind unit).ddr = s.now.ddr := by simp
    refine ⟨s.onNow (·.calCmd routine ukind unit), (exec_calCmd s hi).1, ?_⟩
    simp only [State.onNow, hop] at hddr ⊢
    exact ⟨hruns, hbit, honly.hub, honly.eas, hddr⟩
  case rejected =>
    obtain ⟨hexec, hroutine⟩ := exec_calCmd s hi
    exact does_of_onNow hexec (calCmd_rejected hroutine hwhy)
  case moved =>
    refine does_of_onNow (exec_skewAuto s tile) ((skewAuto_eq hcold hasleep hfree).trans (if_pos ?_))
    obtain ⟨i, hi, hmoved⟩ := hmoved
    rw [Bool.or_eq_true]
    rcases hi with rfl | rfl
    · exact .inl (decide_eq_true hmoved)
    · exact .inr (decide_eq_true hmoved)
  case still =>
    refine does_of_onNow (exec_skewAuto s tile) ((skewAuto_eq hcold hasleep hfree).trans (if_neg ?_))
    have hnot : ∀ i, (i = 2 * tile ∨ i = 2 * tile + 1) → sensorMoved s.now i = false := fun i hi => by
      have := hstill i hi
      exact decide_eq_false (by omega)
    rw [hnot _ (.inl rfl), hnot _ (.inr rfl)]
    decide
  case aborted =>
    have hddr : (calResultOp routine ukind unit vs p f aborted s.now).ddr = s.now.ddr := by simp
    obtain ⟨old, new, hop⟩ := calResult_aborted (vs := vs) (p := p) (f := f) hruns hroutine hkind hunit hwhy
    obtain ⟨heas, hst, hnone, hphase, hstage, hbit, hrd⟩ := runAborted_leaves s.now routine ukind unit f old new
    generalize runAborted s.now routine ukind unit f old new = e at *
    obtain ⟨nother, nphase, nstage, neas, nrd⟩ := nextRuns_leaves (routine := routine) hnone
    refine ⟨s.onNow (calResultOp routine ukind unit vs p f aborted), exec_calResult s _ _ _ _ _ _ _, ?_⟩
    simp only [State.onNow, hop] at hddr ⊢
    rw [hphase, hst] at nphase
    rw [hphase] at nother
    refine ⟨nother, nphase, ?_, nstage.trans hstage, fun key h2 h3 hB => (nrd key h2).trans (hrd key h2 h3 hB), neas.trans heas, hddr⟩
    unfold Dev.bit at hbit ⊢
    rw [nrd _ (by decide), hbit]
  case shown =>
    have hddr : (calResultOp 5 1 unit [(unitKey 0x681003 unit, v)] p f false s.now).ddr = s.now.ddr := by simp
    obtain ⟨old, new, hop⟩ := calResult_loopback (v := v) (p := p) (f := f) hruns hroutine hkind hunit hlost hat hheld href
    rw [if_pos ⟨hlow, hhigh⟩] at hop
    obtain ⟨reas, -, -, -, -, rcal, -⟩ := runOver_leaves s.now
    generalize runOver s.now = e at *
    have hput : ∀ w, ((e.markSeen (calIndex 5 1 unit) true).wrs [(unitKey 0x681003 unit, w)]).eas = e.eas ∧
        ((e.markSeen (calIndex 5 1 unit) true).wrs [(unitKey 0x681003 unit, w)]).cal.runs = e.cal.runs ∧
        ((e.markSeen (calIndex 5 1 unit) true).wrs [(unitKey 0x681003 unit, w)]).cal.phase = e.cal.phase ∧
        ((e.markSeen (calIndex 5 1 unit) true).wrs [(unitKey 0x681003 unit, w)]).rd (unitKey 0x681003 unit) = w :=
      fun w => ⟨rfl, rfl, rfl, Dev.rd_wr_self ..⟩
    obtain ⟨heas, hnone, hphase', hrd⟩ := hput (toU 32 v)
    generalize (e.markSeen (calIndex 5 1 unit) true).wrs [(unitKey 0x681003 unit, toU 32 v)] = g at *
    obtain ⟨ceas, -, -, -, ⟨m, ccal⟩, crd⟩ := calRecord_leaves g 5 0 1 unit f old new 0 0
    generalize g.calRecord 5 0 1 unit f old new 0 0 = c at *
    obtain ⟨nother, -, -, neas, nrd⟩ := nextRuns_leaves (d := c) (routine := 5) (by rw [ccal, hnone, rcal])
    refine ⟨s.onNow (calResultOp 5 1 unit [(unitKey 0x681003 unit, v)] p f false), exec_calResult s _ _ _ _ _ _ _, ?_⟩
    simp only [State.onNow, hop] at hddr ⊢
    refine ⟨(nother ?_).1, ?_, neas.trans (ceas.trans (heas.trans reas)), hddr⟩
    · rw [ccal, hphase', rcal, hphase]
      decide
    · rw [nrd _ (by unfold unitKey; omega), crd _ (by unfold unitKey; omega), hrd]
      unfold toU
      omega
  case counted =>
    have hddr : (calResultOp 5 1 unit [(unitKey 0x681003 unit, v)] p f false s.now).ddr = s.now.ddr := by simp
    obtain ⟨old, new, hop⟩ := calResult_loopback (v := v) (p := p) (f := f) hruns hroutine hkind hunit hlost hat hheld href
    rw [if_neg (by omega)] at hop
    obtain ⟨reas, -, -, -, -, rcal, rrd⟩ := runOver_leaves s.now
    generalize runOver s.now = e at *
    obtain ⟨ieas, -, -, iruns, iphase, -, ibit, -, ird⟩ := implausible_leaves e (calIndex 5 1 unit)
    generalize (e.implausible (calIndex 5 1 unit)).1 = g at *
    obtain ⟨ceas, -, -, -, ⟨m, ccal⟩, crd⟩ := calRecord_leaves g 5 2 1 unit f old new 0 0
    generalize g.calRecord 5 2 1 unit f old new 0 0 = c at *
    obtain ⟨nother, -, -, neas, nrd⟩ := nextRuns_leaves (d := c) (routine := 5) (by rw [ccal, iruns, rcal])
    refine ⟨s.onNow (calResultOp 5 1 unit [(unitKey 0x681003 unit, v)] p f false), exec_calResult s _ _ _ _ _ _ _, ?_⟩
    simp only [State.onNow, hop] at hddr ⊢
    refine ⟨(nother ?_).1, ?_, ?_, neas.trans (ceas.trans (ieas.trans reas)), hddr⟩
    · rw [ccal, iphase, rcal, hphase]
      decide
    · rw [nrd _ (by unfold unitKey; omega), crd _ (by unfold unitKey; omega), ird _ (by unfold unitKey; omega),
        rrd _ (by unfold unitKey; omega)]
    · unfold Dev.bit at ibit ⊢
      rw [nrd _ (by decide), crd _ (by decide), ibit]
  case fits =>
    have hddr : (discFitOp q ground excited fid s.now).ddr = s.now.ddr := by simp
    obtain ⟨old, new, hop⟩ := discFit_eq (fid := fid) (ground := ground) (excited := excited) hq hfits hqubit hgroups hres
    rw [if_pos ⟨ha, hb, hfid⟩] at hop
    have hfits' := fitOver_fits hfits hqubit
    have heas' : (fitOver s.now q).eas = s.now.eas := rfl
    generalize fitOver s.now q = e at *
    obtain ⟨k0, k1, k2, k3⟩ := rd_fitWords (d := s.now) (q := q) ga gb (e.markSeen (calIndex 6 7 q) true)
    have hkeep : ((e.markSeen (calIndex 6 7 q) true).wrs (fitWords s.now q ga gb)).cal.fits = e.cal.fits ∧
        ((e.markSeen (calIndex 6 7 q) true).wrs (fitWords s.now q ga gb)).eas = e.eas :=
      ⟨by rw [Dev.wrs_cal]; rfl, by rw [Dev.wrs_eas]; rfl⟩
    obtain ⟨wfits, weas⟩ := hkeep
    generalize (e.markSeen (calIndex 6 7 q) true).wrs (fitWords s.now q ga gb) = g at *
    obtain ⟨kfits, keas, krd⟩ := kernelKept_leaves g q (if f.capture.isSome then fitKernel ground excited else [])
    generalize kernelKept g q (if f.capture.isSome then fitKernel ground excited else []) = k at *
    obtain ⟨ceas, -, -, -, ⟨m, ccal⟩, crd⟩ := calRecord_leaves k 6 0 7 q fid old new f.job f.shot
    rw [meanOf_nonempty (by omega)] at k0 k1 k2 k3
    refine ⟨s.onNow (discFitOp q ground excited fid), exec_discFit s _ _ _ _, ?_⟩
    simp only [State.onNow, hop] at hddr ⊢
    refine ⟨?_, ?_, ?_, ?_, ?_, ceas.trans (keas.trans (weas.trans heas')), hddr⟩
    · rw [ccal]
      exact kfits.trans (wfits.trans hfits')
    · rw [crd _ (by unfold unitKey; omega), krd, k0]
    · rw [crd _ (by unfold unitKey; omega), krd, k1]
    · rw [crd _ (by unfold unitKey; omega), krd, k2]
    · rw [crd _ (by unfold unitKey; omega), krd, k3]
  case poor =>
    have hddr : (discFitOp q ground excited fid s.now).ddr = s.now.ddr := by simp
    obtain ⟨old, new, hop⟩ := discFit_eq (fid := fid) (ground := ground) (excited := excited) hq hfits hqubit hgroups hres
    rw [if_neg (by omega)] at hop
    have hfits' := fitOver_fits hfits hqubit
    have hrd' : ∀ key, (fitOver s.now q).rd key = s.now.rd key := fun _ => rfl
    have heas' : (fitOver s.now q).eas = s.now.eas := rfl
    generalize fitOver s.now q = e at *
    obtain ⟨ieas, -, -, -, -, ifits, ibit, -, ird⟩ := implausible_leaves e (calIndex 6 7 q)
    generalize (e.implausible (calIndex 6 7 q)).1 = g at *
    obtain ⟨ceas, -, -, -, ⟨m, ccal⟩, crd⟩ := calRecord_leaves g 6 2 7 q fid old new f.job f.shot
    refine ⟨s.onNow (discFitOp q ground excited fid), exec_discFit s _ _ _ _, ?_⟩
    simp only [State.onNow, hop] at hddr ⊢
    refine ⟨?_, ?_, fun key hlow hhigh => ?_, ceas.trans (ieas.trans heas'), hddr⟩
    · rw [ccal]
      exact ifits.trans hfits'
    · unfold Dev.bit at ibit ⊢
      rw [crd _ (by decide), ibit]
    · rw [crd _ (by unfold unitKey; omega), ird _ (by unfold unitKey; omega), hrd']
  case glaze =>
    have hddr : (glazeStepOp s.now).ddr = s.now.ddr := by simp
    have hop := glazeStep_eq hasleep hhold hperiod hinstant honce
    refine ⟨s.onNow glazeStepOp, exec_glazeStep s, ?_⟩
    simp only [State.onNow, hop] at hddr ⊢
    have honly : OnlyObjs { s.now with cal := { s.now.cal with lastGlaze := some s.now.epoch } }
        (allGlazed { s.now with cal := { s.now.cal with lastGlaze := some s.now.epoch } }) :=
      (glazed_objs _ _ _ _).trans ((glazed_objs _ _ _ _).trans (glazed_objs _ _ _ _))
    refine ⟨by rw [honly], fun key target u h => rd_allGlazed _ h, by rw [honly], hddr⟩
  case rotates =>
    have hddr : (sliceRotateOp n s.now).ddr = s.now.ddr := by simp
    have hop : sliceRotateOp n s.now = sliceSwapped s.now n x p y rest := by
      unfold sliceRotateOp
      rw [canRotate_of hcold hasleep hphase hfree hleft hperiod, if_neg (by decide), if_pos htick]
      exact rotateSlice_eq hnext hpos hspare
    obtain ⟨hline, hat, hhub⟩ := sliceSwapped_leaves (n := n) (y := y) (rest := rest) hpos (by omega)
    refine ⟨s.onNow (sliceRotateOp n), exec_sliceRotate s n, ?_⟩
    simp only [State.onNow, hop] at hddr ⊢
    rw [hline]
    exact ⟨rfl, rfl, rfl, rfl, hat, hhub, hddr⟩
  case waits =>
    refine does_of_onNow (exec_sliceRotate s n) ?_
    unfold sliceRotateOp
    rw [canRotate_of hcold hasleep hphase hfree hleft hperiod, if_neg (by decide), if_neg htick]
  case lost =>
    have hddr : (sliceCheckOp n ofs gain skew spur s.now).ddr = s.now.ddr := by simp
    obtain ⟨old, _, _, _, hop⟩ := sliceCheck_eq (spur := spur) (ofs := ofs) (gain := gain) (skew := skew) hcheck hlong
    rw [if_pos href] at hop
    obtain ⟨hline, hbit, hrd⟩ := checkLost_leaves s.now n x
    generalize checkLost s.now n x = e at *
    obtain ⟨-, -, -, crx, -, crd⟩ := calRecord_leaves e 1 3 1 n spur old old 0 0
    have hline' : (e.calRecord 1 3 1 n spur old old 0 0).lineRx n = e.lineRx n := by unfold Dev.lineRx; rw [crx]
    refine ⟨s.onNow (sliceCheckOp n ofs gain skew spur), exec_sliceCheck s _ _ _ _ _, ?_⟩
    simp only [State.onNow, hop] at hddr ⊢
    rw [hline', hline]
    refine ⟨rfl, rfl, (crd _ (by unfold unitKey; omega)).trans hrd, ?_, hddr⟩
    unfold Dev.bit at hbit ⊢
    rw [crd _ (by decide), hbit]
  case passed =>
    have hddr : (sliceCheckOp n ofs gain skew spur s.now).ddr = s.now.ddr := by simp
    obtain ⟨_, old, new, _, hop⟩ := sliceCheck_eq (spur := spur) (ofs := ofs) (gain := gain) (skew := skew) hcheck hlong
    rw [if_neg (by simp [href]), if_pos hok] at hop
    obtain ⟨hline, h0, h1, h2, hspur⟩ := checkPassed_leaves (spur := spur) hok
    generalize checkPassed s.now n x spur ofs gain skew = e at *
    obtain ⟨-, -, -, crx, -, crd⟩ := calRecord_leaves e 1 0 1 n spur old new 0 0
    have hline' : (e.calRecord 1 0 1 n spur old new 0 0).lineRx n = e.lineRx n := by unfold Dev.lineRx; rw [crx]
    have htrim := crd (unitKey 0x681001 n) (by unfold unitKey; omega)
    refine ⟨s.onNow (sliceCheckOp n ofs gain skew spur), exec_sliceCheck s _ _ _ _ _, ?_⟩
    simp only [State.onNow, hop] at hddr ⊢
    rw [hline', hline]
    exact ⟨rfl, rfl, (rd_sliceTrim_congr htrim x 0).trans h0, (rd_sliceTrim_congr htrim x 1).trans h1,
      (rd_sliceTrim_congr htrim x 2).trans h2, (crd _ (by unfold unitKey; omega)).trans hspur, hddr⟩
  case glitched =>
    have hddr : (sliceCheckOp n ofs gain skew spur s.now).ddr = s.now.ddr := by simp
    obtain ⟨_, old, _, new, hop⟩ := sliceCheck_eq (spur := spur) (ofs := ofs) (gain := gain) (skew := skew) hcheck hlong
    obtain ⟨hnone, hbads, hrd⟩ := checkFailed_leaves s.now n x spur
    rw [if_neg (by simp [href]), if_neg (by simp [hbad])] at hop
    generalize checkFailed s.now n x spur = e at *
    obtain ⟨grx, gbit, gthird, grd⟩ := glitch_leaves e n x
    rw [hbads] at gthird
    have hfirst : (e.glitch n x).2 = false := by
      rw [Bool.eq_false_iff, ne_eq, gthird]
      omega
    dsimp only at hop
    rw [hfirst, if_neg (by decide)] at hop
    generalize (e.glitch n x).1 = g at *
    obtain ⟨-, -, -, crx, -, crd⟩ := calRecord_leaves g 1 2 1 n spur old new 0 0
    have hline : (g.calRecord 1 2 1 n spur old new 0 0).lineRx n = e.lineRx n := by unfold Dev.lineRx; rw [crx, grx]
    refine ⟨s.onNow (sliceCheckOp n ofs gain skew spur), exec_sliceCheck s _ _ _ _ _, ?_⟩
    simp only [State.onNow, hop] at hddr ⊢
    rw [hline]
    refine ⟨hnone, ?_, (crd _ (by unfold unitKey; omega)).trans (grd.trans hrd), hddr⟩
    unfold Dev.bit at gbit ⊢
    rw [crd _ (by unfold unitKey; omega), gbit]

end Sys2Proof.Machine
end

section
/-! What of the ledger a retirement and what it brings with it keep (R428 to R434, R630 to R635, R660). -/

namespace Sys2Proof.Machine

section
variable (d : Dev)

/-! ### Discards and stops -/

theorem drainTrap_hub (n : Nat) : (d.drainTrap n).hub = d.hub := by
  unfold Dev.drainTrap
  dsimp only
  split
  · rfl
  split
  · rfl
  split
  · rfl
  · exact drainThread_hub d n

theorem ledgerKept_drainTrap (n : Nat) : d.LedgerKept (d.drainTrap n) := by
  refine .of_hub ?_ ?_ <;> rw [drainTrap_hub]

theorem ledgerKept_discard (q cause : Nat) : d.LedgerKept (d.discard q cause) := by
  unfold Dev.discard
  split
  · exact .refl d
  next j _ =>
    split
    · dsimp only
      generalize (le 2 cause ++ ((j.held.canvases.map (·.thread)).filter fun t => (d.thread t).active && !(d.thread t).ended).flatMap
        (le 2)) = body
      have hmod := ledgerKept_modJob d q (fun k => { k with discarded := true, discards := j.discards + 1 }) fun _ h => h
      generalize d.modJob q (fun k => { k with discarded := true, discards := j.discards + 1 }) = e at *
      have hgone := ((hmod.trans (ledgerKept_flag e 0x781001 1)).trans (.foldl Dev.drainTrap ((j.held.canvases.map (·.thread)).filter
        fun t => (d.thread t).active && !(d.thread t).ended) _ ledgerKept_drainTrap)).trans
        (ledgerKept_bbWrite _ 3 0 0 cause q j.shot body)
      split
      · exact ((hgone.trans (ledgerKept_modJob _ q (fun k => { k with stopDue := true, endCause := 5 }) fun _ h => h)).trans
          (ledgerKept_flag ..)).trans (ledgerKept_bbWrite ..)
      · exact hgone
    · exact .refl d

theorem ledgerKept_stopAt (q cause : Nat) : d.LedgerKept (d.stopAt q cause) := by
  unfold Dev.stopAt
  split
  · exact .refl d
  dsimp only
  have hdue := ledgerKept_modJob d q (fun k => if k.stopDue then k else { k with stopDue := true, endCause := cause }) fun k hk => by
    split <;> exact hk
  split
  · exact hdue.trans (ledgerKept_stopJob ..)
  · exact hdue.trans (ledgerKept_stopJob ..)
  · exact hdue
  · exact hdue

theorem ledgerKept_enterFaulted : d.LedgerKept d.enterFaulted := by
  unfold Dev.enterFaulted
  split
  · exact .refl d
  · exact (ledgerKept_setState ..).trans (ledgerKept_bbWrite ..)

theorem ledgerKept_noSpare (us : List Job) : d.LedgerKept (d.noSpare us) := by
  unfold Dev.noSpare
  exact ((ledgerKept_flag ..).trans (.foldl _ us _ fun e (j : Job) => ledgerKept_stopAt e j.seq 4)).trans (ledgerKept_enterFaulted _)

theorem ledgerKept_addDue (u : UnitRef) : d.LedgerKept (d.addDue u) := ⟨fun j hj => ⟨j, hj, rfl⟩, fun _ hu => hu⟩

/-! ### Easels, cores, ports, lines, channels and links -/

theorem ledgerKept_discards (us : List Job) (cause : Nat) : d.LedgerKept (us.foldl (fun e (j : Job) => e.discard j.seq cause) d) :=
  .foldl _ _ _ fun e j => ledgerKept_discard e j.seq cause

theorem ledgerKept_retireServer (u : UnitRef) : d.LedgerKept (d.retireServer u) := by
  have hspare : ∀ (e : Dev) (c : Prop) [Decidable c] bit, e.LedgerKept (if c then e.wrBit 0x600003 bit false else e) := by
    intro e c _ bit
    split
    · exact ledgerKept_wrBit ..
    · exact .refl e
  have hgone := ledgerKept_discards d (d.users u) (unitRow u)
  unfold Dev.retireServer
  dsimp only
  generalize (d.users u).foldl (fun e (j : Job) => e.discard j.seq (unitRow u)) d = e at *
  split
  · next n =>
    have hoff := (hgone.trans (ledgerKept_wr e (unitKey 0x440001 n) 3)).trans (hspare (e.wr (unitKey 0x440001 n) 3) (32 ≤ n) (n - 32))
    generalize (if 32 ≤ n then (e.wr (unitKey 0x440001 n) 3).wrBit 0x600003 (n - 32) false else e.wr (unitKey 0x440001 n) 3) = f at *
    split
    · exact hoff
    split
    · exact hoff.trans (ledgerKept_addDue ..)
    · exact hoff.trans (ledgerKept_noSpare ..)
  · next n =>
    have hoff := (hgone.trans (ledgerKept_wr e (unitKey 0x580001 n) 5)).trans (hspare (e.wr (unitKey 0x580001 n) 5) (n = 16) 2)
    generalize (if n = 16 then (e.wr (unitKey 0x580001 n) 5).wrBit 0x600003 2 false else e.wr (unitKey 0x580001 n) 5) = f at *
    split
    · exact hoff
    split
    · exact hoff.trans (ledgerKept_addDue ..)
    · exact hoff.trans (ledgerKept_noSpare ..)
  · exact hgone

theorem ledgerKept_retireFixed (u : UnitRef) : d.LedgerKept (d.retireFixed u) := by
  unfold Dev.retireFixed
  dsimp only
  split
  · exact .refl d
  · exact (ledgerKept_discards ..).trans (ledgerKept_noSpare ..)

theorem ledgerKept_setRoutes : d.LedgerKept d.setRoutes := .foldl _ _ _ fun e _ => ledgerKept_wr e _ _

theorem ledgerKept_reroute (k : Nat) : d.LedgerKept (d.reroute k) := by
  unfold Dev.reroute
  split
  · exact ledgerKept_addDue ..
  · exact (ledgerKept_setRoutes d).trans (ledgerKept_flag ..)

/-! ### Results that a DDR4 channel held -/

/-- A run of shots that a job has lost is run again from its first unsent one. -/
def shotsAgain (e : Dev) (j : Job) (again : Option Attempt) : Dev :=
  match again with
  | some a =>
    let e2 := e.modJob j.seq fun k => { k with
      final := k.final.filter (fun b => decide (b.shot < a.shot))
      queued := k.queued.filter (fun b => decide (b.shot < a.shot)), nextShot := a.shot, attempt := a.attempt
      contGens := a.gens }
    { e2 with hub := { e2.hub with qrs := e2.hub.qrs.filter fun (i : QItem) =>
        !(i.job == j.seq && i.flow != 9 && decide (a.shot ≤ i.shot)) } }
  | none => e

/-- The shots of a job that are lost go without their records. -/
def shotsLost (e1 : Dev) (j : Job) (lost : List Attempt) : Dev :=
  match lost with
  | [] => e1
  | a :: l =>
    let last := l.foldl (fun m b => max m b.shot) a.shot
    let e2 : Dev := { e1 with hub := { e1.hub with qrs := e1.hub.qrs.filter fun i =>
      !(i.job == j.seq && i.flow != 9 && lost.any fun b => b.shot == i.shot) } }
    let e3 := e2.modJob j.seq fun k =>
      { k with
        final := k.final.map fun b =>
          if lost.any (fun x => x.shot == b.shot) then { b with sentFlows := b.flows, recs := [] } else b }
    ((e3.refreshHeld).flag 0x780003 1).bbWrite 0x0A 0 0 9 j.seq a.shot (le 8 j.seq ++ le 8 a.shot ++ le 8 last)

theorem ledgerKept_qrs (q : List QItem) : d.LedgerKept { d with hub := { d.hub with qrs := q } } :=
  ⟨fun j hj => ⟨j, hj, rfl⟩, fun _ hu => hu⟩

theorem ledgerKept_shotsAgain (j : Job) (again : Option Attempt) : d.LedgerKept (shotsAgain d j again) := by
  unfold shotsAgain
  split
  · next a =>
    dsimp only
    have hmod := ledgerKept_modJob d j.seq (fun k => { k with
      final := k.final.filter (fun b => decide (b.shot < a.shot))
      queued := k.queued.filter (fun b => decide (b.shot < a.shot)), nextShot := a.shot, attempt := a.attempt
      contGens := a.gens }) fun _ h => h
    exact hmod.trans (ledgerKept_qrs _ _)
  · exact .refl d

theorem ledgerKept_shotsLost (j : Job) (lost : List Attempt) : d.LedgerKept (shotsLost d j lost) := by
  unfold shotsLost
  split
  · exact .refl d
  · dsimp only
    refine .trans ?_ (ledgerKept_bbWrite ..)
    refine .trans ?_ (ledgerKept_flag ..)
    refine .trans ?_ (ledgerKept_wr ..)
    exact (ledgerKept_qrs d _).trans (ledgerKept_modJob _ _ _ fun _ h => h)

theorem ledgerKept_loseResults (c : Nat) : d.LedgerKept (d.loseResults c) := by
  unfold Dev.loseResults
  refine .foldl _ _ _ fun e j => ?_
  dsimp only
  exact (ledgerKept_shotsAgain e j _).trans (ledgerKept_shotsLost _ j _)

/-! ### Slices -/

theorem ledgerKept_retireSlice (n s : Nat) : d.LedgerKept (d.retireSlice n s).1 := by
  have hline : ∀ (e : Dev) r, e.LedgerKept { e with rx := r } := fun _ _ => .of_hub rfl rfl
  unfold Dev.retireSlice
  dsimp only
  split
  · exact .refl d
  · dsimp only
    exact ((ledgerKept_wrs ..).trans (hline _ _)).trans (ledgerKept_flag ..)

/-! ### A retirement -/

theorem ledgerKept_retireEffect (u : UnitRef) : d.LedgerKept (d.retireEffect u) := by
  unfold Dev.retireEffect
  split
  · dsimp only
    split
    · exact (ledgerKept_retireSlice ..).trans (.foldl _ _ _ fun e _ => ledgerKept_report e _ _ _ _ _ _)
    · exact .refl d
  · exact ledgerKept_retireServer ..
  · exact ledgerKept_retireServer ..
  · exact ledgerKept_retireFixed ..
  · exact ledgerKept_retireFixed ..
  · exact ledgerKept_retireFixed ..
  · exact ledgerKept_retireFixed ..
  · exact ((ledgerKept_dropLink ..).trans (ledgerKept_flag ..)).trans (ledgerKept_reroute ..)
  · exact (ledgerKept_wr ..).trans (ledgerKept_flag ..)
  · exact ledgerKept_loseResults ..
  · exact .refl d
  · exact .refl d

theorem ledgerKept_recordRetired (u : UnitRef) (row : Nat) : d.LedgerKept (d.recordRetired u row) := by
  refine ⟨fun j hj => ?_, fun v hv => ?_⟩
  · unfold Dev.recordRetired at hj
    dsimp only at hj
    rw [Dev.refreshUnits_hub] at hj
    obtain ⟨bb, hhub, -⟩ := bbWrite_leaves
      (((({ d with hub := { d.hub with units := { d.hub.units with retired := d.hub.units.retired ++ [u] } } } : Dev).flag 0x781001
        0).produce 0x8F)) 1 (unitKind u).1 (unitKind u).2 row 0 0 (Config.retireCounts row d.epoch)
    rw [hhub, Dev.produce_hub, Dev.flag_hub] at hj
    exact ⟨j, hj, rfl⟩
  · rw [Dev.recordRetired_retired]
    exact List.mem_append_left _ hv

/-- A unit but for a spine path is retired once it has been recorded, whatever follows of it. -/
theorem retireUnit_retires {d : Dev} {u : UnitRef} (row : Nat) (hserves : d.isRetired u = false) (hspine : ∀ b, u ≠ .spine b) :
    (d.retireUnit u row).isRetired u = true := by
  have hrecorded : (d.recordRetired u row).isRetired u = true := by
    rw [Dev.isRetired_iff_mem, Dev.recordRetired_retired]
    exact List.mem_append_right _ List.mem_cons_self
  have heffect := ledgerKept_retireEffect (d.recordRetired u row) u
  unfold Dev.retireUnit
  rw [hserves, if_neg (by decide)]
  split
  · next b => exact absurd rfl (hspine b)
  · next n _ =>
    dsimp only
    split
    · exact ((heffect.trans (ledgerKept_recordRetired _ (.rlLine n) row)).trans (ledgerKept_retireEffect _ (.rlLine n))).isRetired hrecorded
    · exact heffect.isRetired hrecorded
  · exact (heffect.trans (ledgerKept_refreshUnits _)).isRetired hrecorded

end
end Sys2Proof.Machine
end

section
/-! Sprouting and the moving of flows (R428 to R433). -/

namespace Sys2Proof.Machine

section
variable {d e : Dev}

/-! ### What a replacement leaves of the other units -/

/-- What goes with a replacement keeps the cores, the lattice state and the objects of units, but for the report's and the stretch's. -/
structure UnitsKept (d e : Dev) : Prop where
  st : e.lat.st = d.lat.st
  dsp : e.dsp = d.dsp
  rd : ∀ key, 0x400000 ≤ key → key < 0x700000 → key ≠ 0x600001 → key ≠ 0x600005 → key ≠ 0x600006 → e.rd key = d.rd key
  bit : ∀ n, d.bit 0x600001 n = true → e.bit 0x600001 n = true

namespace UnitsKept

theorem of_objs (hobjs : e.objs = d.objs) (hst : e.lat.st = d.lat.st) (hdsp : e.dsp = d.dsp) : UnitsKept d e :=
  ⟨hst, hdsp, fun key _ _ _ _ _ => Dev.rd_congr hobjs key, fun n hn => (Dev.bit_congr hobjs 0x600001 n).trans hn⟩

theorem refl (d : Dev) : UnitsKept d d := of_objs rfl rfl rfl

theorem trans {c : Dev} (h : UnitsKept d e) (g : UnitsKept e c) : UnitsKept d c :=
  ⟨g.st.trans h.st, g.dsp.trans h.dsp, fun key h1 h2 h3 h4 h5 => (g.rd key h1 h2 h3 h4 h5).trans (h.rd key h1 h2 h3 h4 h5),
    fun n hn => g.bit n (h.bit n hn)⟩

theorem foldl {α : Type} (f : Dev → α → Dev) (l : List α) (d : Dev) (h : ∀ (e : Dev) x, UnitsKept e (f e x)) :
    UnitsKept d (l.foldl f d) :=
  List.foldlRecOn (motive := fun e : Dev => UnitsKept d e) l f (refl d) fun e he x _ => he.trans (h e x)

/-- What writes objects of other units alone keeps these. -/
theorem of_rd (hst : e.lat.st = d.lat.st) (hdsp : e.dsp = d.dsp)
    (hrd : ∀ key, 0x400000 ≤ key → key < 0x700000 → key ≠ 0x600005 → key ≠ 0x600006 → e.rd key = d.rd key) : UnitsKept d e :=
  ⟨hst, hdsp, fun key h1 h2 _ h4 h5 => hrd key h1 h2 h4 h5, fun n hn => by
    unfold Dev.bit at hn ⊢
    rw [hrd _ (by decide) (by decide) (by decide) (by decide), hn]⟩

end UnitsKept

theorem bbWrite_dsp (d : Dev) (btype ukind uidx cause job shot : Nat) (payload : List Byte) :
    (d.bbWrite btype ukind uidx cause job shot payload).dsp = d.dsp := by
  have hnote : ∀ (e : Dev) n, (e.noteStamp n).dsp = e.dsp := fun e n => by
    unfold Dev.noteStamp
    split <;> simp
  unfold Dev.bbWrite
  dsimp only
  rw [Dev.trace_dsp, hnote]
  split_ifs <;> simp [Dev.bbObjects]

theorem unitsKept_bbWrite (d : Dev) (btype ukind uidx cause job shot : Nat) (payload : List Byte) :
    UnitsKept d (d.bbWrite btype ukind uidx cause job shot payload) :=
  .of_rd (by rw [bbWrite_lat]) (bbWrite_dsp ..) fun key _ hhigh _ _ => rd_bbWrite_other _ _ _ _ _ _ _ _ (by omega)

theorem unitsKept_flag (d : Dev) (bit : Nat) : UnitsKept d (d.flag 0x600001 bit) :=
  ⟨by rw [Dev.flag_lat], Dev.flag_dsp .., fun key _ _ hkey _ _ => Dev.rd_flag_other _ _ _ _ hkey,
    fun n hn => Dev.bit_flag_of_bit _ _ _ _ hn⟩

theorem unitsKept_report (d : Dev) (verdict slot q shot reason : Nat) (es : List (List Byte)) :
    UnitsKept d (d.report verdict slot q shot reason es) := by
  have hfield : ∀ (f : Dev) (b : List Byte) (l : List QItem) key, ({ f with hub := { f.hub with report := b, qrs := l } } : Dev).rd key = f.rd key :=
    fun _ _ _ _ => rfl
  unfold Dev.report
  exact .of_rd rfl rfl fun key _ _ hkey _ => (hfield _ _ _ _).trans (Dev.rd_wr_other _ _ _ _ hkey)

theorem unitsKept_refreshUnits (d : Dev) : UnitsKept d d.refreshUnits := by
  have honly := onlyObjs_refreshUnits d
  refine .of_rd (by rw [honly]) (by rw [honly]) fun key hlow _ _ _ => Dev.rd_refreshUnits _ _ (by omega)

theorem unitsKept_settleDue (d : Dev) (u : UnitRef) : UnitsKept d (d.settleDue u) := by
  unfold Dev.settleDue
  split
  · exact .of_objs rfl rfl rfl
  · exact .refl d

theorem unitsKept_noteMove (d : Dev) (u : UnitRef) (js : List Job) (es : Job → List (List Byte)) : UnitsKept d (d.noteMove u js es) := by
  have hlong : ∀ (c : Prop) [Decidable c] v, UnitsKept d (if c then (d.wr 0x600006 v).flag 0x600001 3 else d) := by
    intro c _ v
    split
    · exact (UnitsKept.of_rd (d := d) (e := d.wr 0x600006 v) rfl rfl fun key _ _ _ hkey => Dev.rd_wr_other _ _ _ _ hkey).trans (unitsKept_flag _ 3)
    · exact .refl d
  unfold Dev.noteMove
  dsimp only
  exact (hlong _ _).trans (.foldl _ _ _ fun e j => (unitsKept_report e ..).trans (unitsKept_bbWrite ..))

theorem unitsKept_sought (h : d.Sought e) : UnitsKept d e :=
  .of_rd h.st h.dsp fun _ hlow _ _ _ => h.rd_unit hlow

/-- What a sprout leaves once the replacement has taken effect: the unit settles and the jobs seek their starts. -/
theorem unitsKept_sprouted (d : Dev) (u : UnitRef) (js : List Job) (hmember : d.lat.st ≠ .root) :
    UnitsKept d (js.foldl (fun e (j : Job) => e.seekStart j.seq) (d.settleDue u).refreshUnits) := by
  have hsettled := (unitsKept_settleDue d u).trans (unitsKept_refreshUnits _)
  exact hsettled.trans (unitsKept_sought (sought_seekStarts (fun j : Job => j.seq) js (by rw [hsettled.st]; exact hmember)))

/-! ### A spare easel -/

theorem rd_foldl_wr {α : Type} (key : α → Nat) (v : Nat) (l : List α) (d : Dev) (k : Nat) :
    ((∃ a ∈ l, key a = k) → (l.foldl (fun x a => x.wr (key a) v) d).rd k = v) ∧
    ((∀ a ∈ l, key a ≠ k) → (l.foldl (fun x a => x.wr (key a) v) d).rd k = d.rd k) := by
  induction l generalizing d with
  | nil => exact ⟨fun ⟨_, h, _⟩ => absurd h List.not_mem_nil, fun _ => rfl⟩
  | cons a l ih =>
    obtain ⟨ihin, ihout⟩ := ih (d.wr (key a) v)
    refine ⟨fun hin => ?_, fun hout => ?_⟩
    · by_cases hl : ∃ b ∈ l, key b = k
      · exact ihin hl
      · obtain ⟨b, hb, hbk⟩ := hin
        rcases List.mem_cons.mp hb with rfl | hb
        · refine (ihout fun c hc hck => hl ⟨c, hc, hck⟩).trans ?_
          rw [hbk]
          exact Dev.rd_wr_self ..
        · exact absurd ⟨b, hb, hbk⟩ hl
    · refine (ihout fun b hb => hout b (List.mem_cons_of_mem _ hb)).trans ?_
      exact Dev.rd_wr_other _ _ _ _ (hout a List.mem_cons_self).symm

/-- The threads of the jobs run on the spare that has taken over. -/
theorem sproutEasel_takes (d : Dev) (n m : Nat) (js : List Job) : (d.sproutEasel n m js).bit 0x600001 0 = true ∧
    (∀ j ∈ js, ∀ p ∈ d.onEasel j n, p.thread < 512 → (d.sproutEasel n m js).rd (unitKey 0x400002 p.thread) = m) ∧
    (d.sproutEasel n m js).lat.st = d.lat.st := by
  have hfresh : ∀ (c : Prop) [Decidable c] (bit : Nat) (ws : List (Nat × Nat)) (l : List (UnitRef × UnitRef × Nat)),
      (if c then ({ (d.wrBit 0x600003 bit false).wrs ws with hub := { ((d.wrBit 0x600003 bit false).wrs ws).hub with
        units := { ((d.wrBit 0x600003 bit false).wrs ws).hub.units with sprouts := l } } } : Dev) else d).lat.st = d.lat.st := by
    intro c _ bit ws l
    split
    · show ((d.wrBit 0x600003 bit false).wrs ws).lat.st = d.lat.st
      rw [Dev.wrs_lat, Dev.wrBit_lat]
    · rfl
  unfold Dev.sproutEasel
  dsimp only
  generalize hf : (if (d.sproutOf n).isNone = true then _ else d : Dev) = f
  have hst : f.lat.st = d.lat.st := hf ▸ hfresh _ _ _ _
  have hplaces := rd_foldl_wr (fun p : CanvasPlace => unitKey 0x400002 p.thread) m (js.flatMap fun j => d.onEasel j n) f
  have hlat : ((js.flatMap fun j => d.onEasel j n).foldl (fun x p => x.wr (unitKey 0x400002 p.thread) m) f).lat = f.lat :=
    List.foldlRecOn (motive := fun x : Dev => x.lat = f.lat) _ _ rfl fun _ hx _ _ => hx
  generalize (js.flatMap fun j => d.onEasel j n).foldl (fun x p => x.wr (unitKey 0x400002 p.thread) m) f = g at *
  have hflag := Dev.bit_flag_self g 0x600001 0
  have hkept := (unitsKept_flag g 0).trans (unitsKept_noteMove (g.flag 0x600001 0) (.easel n) js fun j =>
    [reportEntry 9 (6 + if (d.onEasel j n).any fun p => (secPinThread j.content p.canvas).isSome then 1 else 0) (unitCode 1 n)
      (unitCode 1 m) ((if n < 32 then n else d.rd (unitKey 0x440002 n)) / 4) (d.onEasel j n).length])
  have hbit := (unitsKept_noteMove (g.flag 0x600001 0) (.easel n) js fun j =>
    [reportEntry 9 (6 + if (d.onEasel j n).any fun p => (secPinThread j.content p.canvas).isSome then 1 else 0) (unitCode 1 n)
      (unitCode 1 m) ((if n < 32 then n else d.rd (unitKey 0x440002 n)) / 4) (d.onEasel j n).length]).bit 0 hflag
  refine ⟨hbit, fun j hj p hp hthread => ?_, hkept.st.trans ((congrArg Lat.st hlat).trans hst)⟩
  refine (hkept.rd _ (by unfold unitKey; omega) (by unfold unitKey; omega) (by unfold unitKey; omega) (by unfold unitKey; omega)
    (by unfold unitKey; omega)).trans ?_
  exact (hplaces _).1 ⟨p, List.mem_flatMap.mpr ⟨j, hj, hp⟩, rfl⟩

end
end Sys2Proof.Machine
end

section
/-! Sprouting in whole: a spare easel, and D16 in the place of a core (R428 to R431). -/

namespace Sys2Proof.Machine

section
variable {d e : Dev}

/-! ### D16 in the place of a core -/

/-- What D16 starts with for a job: the memories its row loads, and nothing accumulated. -/
def Dev.freshCore (d : Dev) (c : Nat) (j : Job) : DspCore :=
  match ((j.content.dsp.zip j.held.cores).find? fun x => x.2 == c).map (·.1) with
  | some r => { job := j.seq, image := (d.core c).image, pm := tabFill 0 [] 0 r.pm, xm := tabFill 0 [] 0 r.xm,
                ym := tabFill 0 [] 0 r.ym, km := tabFill 0 [] 0 r.km, pc := 0x20 }
  | none => { job := j.seq }

theorem freshCore_empty (d : Dev) (c : Nat) (j : Job) :
    (d.freshCore c j).g = [] ∧ (d.freshCore c j).ac = [] ∧ (d.freshCore c j).stack = [] := by
  unfold Dev.freshCore
  split <;> exact ⟨rfl, rfl, rfl⟩

/-- The objects of a retired core and of D16 once it has taken over. -/
def Dev.coreMoved (d : Dev) (c : Nat) : Dev :=
  let tile := if c = 16 then d.rd (unitKey 0x580002 16) else c / 2
  d.wrs ([3, 4, 5, 6, 7].map (fun s => (objKey 0x5810 s, d.rd (objKey (0x5800 + c) s))) ++
    [(objKey 0x5810 1, 4), (objKey 0x5810 2, tile), (unitKey 0x601005 tile, 16), (objKey 0x5810 0x0B, 0),
     (objKey 0x5810 0x0E, 0), (objKey 0x5810 0x0F, 0x20), (objKey (0x5800 + c) 4, 0), (objKey (0x5800 + c) 5, 0)])

theorem rd_coreMoved (d : Dev) (c : Nat) : (d.coreMoved c).rd 0x581001 = 4 := by
  unfold Dev.coreMoved
  dsimp only
  generalize (if c = 16 then _ else _ : Nat) = tile
  have htile : 0x600000 < unitKey 0x601005 tile := by unfold unitKey; omega
  generalize unitKey 0x601005 tile = key at htile ⊢
  refine Dev.rd_wrs_of_mem d (List.mem_append_right _ List.mem_cons_self) fun p hp hkey => ?_
  have hp' : p.1 ≠ 0x581001 ∨ p.2 = 4 := by
    simp only [List.map_cons, List.map_nil, List.cons_append, List.nil_append, List.mem_cons, List.not_mem_nil, or_false] at hp
    rcases hp with rfl | rfl | rfl | rfl | rfl | rfl | rfl | rfl | rfl | rfl | rfl | rfl | rfl
    case inr.inr.inr.inr.inr.inl => exact .inr rfl
    all_goals
      refine .inl ?_
      simp only [objKey, ne_eq]
      omega
  exact hp'.resolve_left fun hne => hne hkey

theorem bit_wrBit_cleared_two (d : Dev) (key : Nat) : (d.wrBit key 2 false).bit key 2 = false := by
  unfold Dev.bit
  rw [rd_wrBit_cleared]
  split
  · next hset =>
    rw [Nat.testBit_eq_decide_div_mod_eq] at hset ⊢
    have hset' := of_decide_eq_true hset
    exact decide_eq_false (by omega)
  · next hclear => exact Bool.eq_false_iff.mpr hclear

/-- D16 is loaded for a job of the core. -/
def Dev.loadCore (c : Nat) (k : Job → DspCore) (e : Dev) (j : Job) : Dev :=
  (e.setCore 16 (k j)).modJob j.seq fun x => { x with
    held := { x.held with cores := x.held.cores.map fun y => if y = c then 16 else y } }

/-- Loaded for each of the jobs in turn, core 16 is fresh once there is one; the objects stand. -/
theorem loadCore_foldl (c : Nat) (k : Job → DspCore) (hk : ∀ j, (k j).g = [] ∧ (k j).ac = [] ∧ (k j).stack = [])
    (js : List Job) (d : Dev) (hjs : js ≠ [] ∨ ((d.core 16).g = [] ∧ (d.core 16).ac = [] ∧ (d.core 16).stack = [])) :
    (js.foldl (Dev.loadCore c k) d).objs = d.objs ∧ (js.foldl (Dev.loadCore c k) d).lat = d.lat ∧
    ((js.foldl (Dev.loadCore c k) d).core 16).g = [] ∧ ((js.foldl (Dev.loadCore c k) d).core 16).ac = [] ∧
    ((js.foldl (Dev.loadCore c k) d).core 16).stack = [] := by
  induction js generalizing d with
  | nil => exact ⟨rfl, rfl, hjs.resolve_left fun h => h rfl⟩
  | cons j js ih =>
    have hcore : ((Dev.loadCore c k d j).core 16) = k j := Dev.core_setCore_self d 16 (k j)
    exact ih _ (.inr (hcore.symm ▸ hk j))

/-- The core has moved to D16, and its replacement is recorded. -/
def Dev.coreSprouted (d : Dev) (c : Nat) : Dev :=
  let d1 := ((d.coreMoved c).wrBit 0x600003 2 false).flag 0x600001 0
  { d1 with hub := { d1.hub with units := { d1.hub.units with sprouts := d1.hub.units.sprouts ++ [(.dsp c, .dsp 16, 0)] } } }

/-- What the report of the jobs of a core that moves to D16 says of each. -/
def Dev.coreReport (d : Dev) (c : Nat) (j : Job) : List (List Byte) :=
  let pinned := if j.content.pins.any (fun p => match p with
    | .dspCore _ k => k == c
    | _ => false) then 1 else 0
  [reportEntry 9 (6 + pinned) (unitCode 2 c) (unitCode 2 16) (if c = 16 then d.rd (unitKey 0x580002 16) else c / 2)
    (popcount 64 (d.rd (objKey (0x5800 + c) 4)))]

theorem sproutCore_eq (d : Dev) (c : Nat) (js : List Job) : d.sproutCore c js =
    (js.foldl (Dev.loadCore c (d.freshCore c)) (d.coreSprouted c)).noteMove (.dsp c) js (d.coreReport c) := rfl

theorem core_congr (h : e.dsp = d.dsp) (c : Nat) : e.core c = d.core c := by
  unfold Dev.core
  rw [h]

/-- D16 stands in the place of the core, with nothing of what it had accumulated. -/
theorem sproutCore_takes (d : Dev) (c : Nat) {js : List Job} (hjs : js ≠ []) :
    (d.sproutCore c js).rd 0x581001 = 4 ∧ (d.sproutCore c js).bit 0x600003 2 = false ∧
    ((d.sproutCore c js).core 16).g = [] ∧ ((d.sproutCore c js).core 16).ac = [] ∧ ((d.sproutCore c js).core 16).stack = [] ∧
    (d.sproutCore c js).lat.st = d.lat.st := by
  obtain ⟨hobjs', hlat', hg, hac, hstack⟩ := loadCore_foldl c (d.freshCore c) (freshCore_empty d c) js (d.coreSprouted c) (.inl hjs)
  have hobjs : (d.coreSprouted c).objs = (((d.coreMoved c).wrBit 0x600003 2 false).flag 0x600001 0).objs := rfl
  have hlat : (d.coreSprouted c).lat = d.lat := by
    show (((d.coreMoved c).wrBit 0x600003 2 false).flag 0x600001 0).lat = d.lat
    rw [Dev.flag_lat, Dev.wrBit_lat]
    exact Dev.wrs_lat ..
  rw [sproutCore_eq]
  generalize js.foldl _ (d.coreSprouted c) = g at *
  have hkept := unitsKept_noteMove g (.dsp c) js (d.coreReport c)
  have hcore := core_congr hkept.dsp 16
  have hobj : ∀ key, key ≠ 0x600001 → g.rd key = ((d.coreMoved c).wrBit 0x600003 2 false).rd key := fun key hkey =>
    (Dev.rd_congr (hobjs'.trans hobjs) key).trans (Dev.rd_flag_other _ _ _ _ hkey)
  refine ⟨?_, ?_, hcore ▸ hg, hcore ▸ hac, hcore ▸ hstack, hkept.st.trans (by rw [hlat', hlat])⟩
  · refine (hkept.rd _ (by decide) (by decide) (by decide) (by decide) (by decide)).trans ?_
    refine (hobj _ (by decide)).trans ((Dev.rd_wrBit_other _ _ _ _ _ (by decide)).trans (rd_coreMoved d c))
  · unfold Dev.bit
    rw [hkept.rd _ (by decide) (by decide) (by decide) (by decide) (by decide), hobj _ (by decide)]
    exact bit_wrBit_cleared_two _ _

/-! ### The operations -/

/-- A due unit with users that stand between shots takes its replacement. -/
theorem sproutOp_spare {n m : Nat} (hdue : d.hub.units.due.contains (.easel n) = true) (hjs : d.readyUsers (.easel n) ≠ [])
    (hspare : d.spareFor n = some m) : sproutOp (.easel n) d = (d.readyUsers (.easel n)).foldl (fun e (j : Job) => e.seekStart j.seq)
      ((d.sproutEasel n m (d.readyUsers (.easel n))).settleDue (.easel n)).refreshUnits := by
  unfold sproutOp
  dsimp only
  rw [if_neg (by rw [hdue]; simp [hjs]), hspare]

theorem sproutOp_core {c : Nat} (hdue : d.hub.units.due.contains (.dsp c) = true) (hjs : d.readyUsers (.dsp c) ≠ []) :
    sproutOp (.dsp c) d = (d.readyUsers (.dsp c)).foldl (fun e (j : Job) => e.seekStart j.seq)
      ((d.sproutCore c (d.readyUsers (.dsp c))).settleDue (.dsp c)).refreshUnits := by
  unfold sproutOp
  dsimp only
  rw [if_neg (by rw [hdue]; simp [hjs])]

theorem sproutOp_easel_takes {n m : Nat} (hdue : d.hub.units.due.contains (.easel n) = true) (hjs : d.readyUsers (.easel n) ≠ [])
    (hspare : d.spareFor n = some m) (hmember : d.lat.st ≠ .root) : (sproutOp (.easel n) d).bit 0x600001 0 = true ∧
    ∀ j ∈ d.readyUsers (.easel n), ∀ p ∈ d.onEasel j n, p.thread < 512 →
      (sproutOp (.easel n) d).rd (unitKey 0x400002 p.thread) = m := by
  rw [sproutOp_spare hdue hjs hspare]
  obtain ⟨hbit, hthreads, hst⟩ := sproutEasel_takes d n m (d.readyUsers (.easel n))
  generalize d.sproutEasel n m (d.readyUsers (.easel n)) = e at *
  have hkept := unitsKept_sprouted e (.easel n) (d.readyUsers (.easel n)) (by rw [hst]; exact hmember)
  refine ⟨hkept.bit 0 hbit, fun j hj p hp hthread => ?_⟩
  refine (hkept.rd _ ?_ ?_ ?_ ?_ ?_).trans (hthreads j hj p hp hthread)
  all_goals
    unfold unitKey
    omega

theorem sproutOp_core_takes {c : Nat} (hdue : d.hub.units.due.contains (.dsp c) = true) (hjs : d.readyUsers (.dsp c) ≠ [])
    (hmember : d.lat.st ≠ .root) : (sproutOp (.dsp c) d).rd 0x581001 = 4 ∧ (sproutOp (.dsp c) d).bit 0x600003 2 = false ∧
    ((sproutOp (.dsp c) d).core 16).g = [] ∧ ((sproutOp (.dsp c) d).core 16).ac = [] ∧
    ((sproutOp (.dsp c) d).core 16).stack = [] := by
  rw [sproutOp_core hdue hjs]
  obtain ⟨hobj, hbit, hg, hac, hstack, hst⟩ := sproutCore_takes d c hjs
  generalize d.sproutCore c (d.readyUsers (.dsp c)) = e at *
  have hkept := unitsKept_sprouted e (.dsp c) (d.readyUsers (.dsp c)) (by rw [hst]; exact hmember)
  generalize (d.readyUsers (.dsp c)).foldl _ _ = f at *
  have hcore := core_congr hkept.dsp 16
  have hread : ∀ key, key = 0x581001 ∨ key = 0x600003 → f.rd key = e.rd key := fun key hkey =>
    hkept.rd key (by omega) (by omega) (by omega) (by omega) (by omega)
  refine ⟨(hread _ (.inl rfl)).trans hobj, ?_, hcore ▸ hg, hcore ▸ hac, hcore ▸ hstack⟩
  unfold Dev.bit at hbit ⊢
  rw [hread _ (.inr rfl), hbit]

end
end Sys2Proof.Machine
end

section
/-! The moving of flows to a port that is up (R433), and O47. -/

namespace Sys2Proof.Machine

section
variable {d e : Dev}

/-! ### The port that is up -/

theorem ports_filter {f : Nat → Bool} {p : Nat} (hp : p < 4) (hf : ∀ k, k < 4 → (f k = true ↔ k = p)) :
    (List.range 4).filter f = [p] := by
  have heq : (List.range 4).filter f = (List.range 4).filter (· == p) :=
    List.filter_congr fun k hk => Bool.eq_iff_iff.mpr ((hf k (List.mem_range.mp hk)).trans beq_iff_eq.symm)
  rw [heq]
  interval_cases p <;> rfl

/-- The port alone is up. -/
def Dev.OnlyUp (d : Dev) (p : Nat) : Prop := p < 4 ∧ ∀ k, k < 4 → (d.rd (unitKey 0x280001 k) = 3 ↔ k = p)

theorem leastPort_onlyUp {p : Nat} (hup : d.OnlyUp p) : d.leastPort [] = p := by
  unfold Dev.leastPort
  dsimp only
  rw [ports_filter hup.1 fun k hk => beq_iff_eq.trans (hup.2 k hk)]
  rfl

/-! ### The flows of one job -/

/-- A flow of the port `h` goes to `p`. -/
def flowTo (h p : Nat) (f : Nat × Nat × Rat) : Nat × Nat × Rat := if f.2.1 = h then (f.1, p, f.2.2) else f

/-- The flows named go to `p`. -/
def namedTo (l : List Nat) (p : Nat) (g : Nat × Nat × Rat) : Nat × Nat × Rat := if g.1 ∈ l then (g.1, p, g.2.2) else g

theorem namedTo_nil (p : Nat) (F : List (Nat × Nat × Rat)) : F.map (namedTo [] p) = F := by
  have hid : namedTo [] p = id := funext fun g => if_neg List.not_mem_nil
  rw [hid, List.map_id]

theorem namedTo_twice (l : List Nat) (p : Nat) (F : List (Nat × Nat × Rat)) :
    (F.map (namedTo l p)).map (namedTo l p) = F.map (namedTo l p) := by
  rw [List.map_map]
  refine List.map_congr_left fun g _ => ?_
  show namedTo l p (namedTo l p g) = namedTo l p g
  unfold namedTo
  by_cases hg : g.1 ∈ l <;> simp [hg]

/-- Where every flow has a name of its own, the flows named after those of a port are those of the port. -/
theorem namedTo_flows {h p : Nat} {F : List (Nat × Nat × Rat)} (hnodup : (F.map (·.1)).Nodup) :
    F.map (namedTo ((F.filter fun f => f.2.1 == h).map (·.1)) p) = F.map (flowTo h p) := by
  refine List.map_congr_left fun g hg => ?_
  have hiff : g.1 ∈ (F.filter fun f => f.2.1 == h).map (·.1) ↔ g.2.1 = h := by
    refine ⟨fun hin => ?_, fun hh => List.mem_map.mpr ⟨g, List.mem_filter.mpr ⟨hg, beq_iff_eq.mpr hh⟩, rfl⟩⟩
    obtain ⟨f, hf, hfg⟩ := List.mem_map.mp hin
    obtain ⟨hfF, hfh⟩ := List.mem_filter.mp hf
    obtain rfl := List.inj_on_of_nodup_map hnodup hfF hg hfg
    exact beq_iff_eq.mp hfh
  unfold namedTo flowTo
  simp only [hiff]

/-! ### What a flow's move leaves -/

/-- What a move of flows leaves: the contexts, the port and the flag, and of a job all but its flows. -/
structure FlowsMoved (p q : Nat) (G : List (Nat × Nat × Rat) → List (Nat × Nat × Rat)) (d e : Dev) : Prop where
  eas : e.eas = d.eas
  up : d.OnlyUp p → e.OnlyUp p
  flag : d.bit 0x600001 1 = true → e.bit 0x600001 1 = true
  job : ∀ x, d.job q = some x → ∃ y, e.job q = some y ∧ y.held.flows = G x.held.flows

theorem FlowsMoved.trans {p q : Nat} {G H} {c : Dev} (h : FlowsMoved p q G d e) (g : FlowsMoved p q H e c) :
    FlowsMoved p q (H ∘ G) d c :=
  ⟨g.eas.trans h.eas, fun hup => g.up (h.up hup), fun hbit => g.flag (h.flag hbit), fun x hx => by
    obtain ⟨y, hy, hflows⟩ := h.job x hx
    obtain ⟨z, hz, hflows'⟩ := g.job y hy
    exact ⟨z, hz, hflows'.trans (congrArg H hflows)⟩⟩

/-- One flow of a job goes to the port. -/
def Dev.moveFlow (d : Dev) (seq name p : Nat) : Dev :=
  d.modJob seq fun k => { k with held := { k.held with
    flows := k.held.flows.map fun g => if g.1 = name then (g.1, p, g.2.2) else g } }

theorem job_modJob_other {f : Job → Job} {q r : Nat} (hseq : ∀ i, (f i).seq = i.seq) (hne : r ≠ q) : (d.modJob r f).job q = d.job q := by
  show List.find? _ (d.hub.jobs.map _) = List.find? _ d.hub.jobs
  induction d.hub.jobs with
  | nil => rfl
  | cons j js ih =>
    rw [List.map_cons]
    by_cases hj : j.seq = r
    · rw [if_pos (beq_iff_eq.mpr hj), List.find?_cons_of_neg, List.find?_cons_of_neg, ih]
      · simp only [hj, beq_iff_eq]
        exact hne
      · simp only [hseq, hj, beq_iff_eq]
        exact hne
    · rw [if_neg (by simpa using hj)]
      simp only [List.find?_cons]
      rw [ih]

theorem moveFlow_moves (d : Dev) (p q r name : Nat) :
    FlowsMoved p q (if r = q then List.map (namedTo [name] p) else id) d (d.moveFlow r name p) := by
  refine ⟨rfl, fun h => h, fun h => h, fun x hx => ?_⟩
  by_cases hr : r = q
  · subst hr
    refine ⟨_, job_modJob (fun _ => rfl) hx, ?_⟩
    rw [if_pos rfl]
    exact List.map_congr_left fun g _ => by simp [namedTo]
  · refine ⟨x, (show (d.moveFlow r name p).job q = d.job q from job_modJob_other (fun _ => rfl) hr).trans hx, ?_⟩
    rw [if_neg hr]
    rfl

theorem report_moves (d : Dev) (p q verdict slot r shot reason : Nat) (es : List (List Byte)) :
    FlowsMoved p q id d (d.report verdict slot r shot reason es) := by
  have hfield : ∀ (f : Dev) (b : List Byte) (l : List QItem) key, ({ f with hub := { f.hub with report := b, qrs := l } } : Dev).rd key = f.rd key :=
    fun _ _ _ _ => rfl
  have hrd : ∀ key, key ≠ 0x600005 → (d.report verdict slot r shot reason es).rd key = d.rd key := fun key hkey => by
    unfold Dev.report
    exact (hfield _ _ _ _).trans (Dev.rd_wr_other _ _ _ _ hkey)
  refine ⟨rfl, fun hup => ⟨hup.1, fun k hk => ?_⟩, fun hbit => ?_, fun x hx => ⟨x, hx, rfl⟩⟩
  · rw [hrd _ (by unfold unitKey; omega)]
    exact hup.2 k hk
  · unfold Dev.bit at hbit ⊢
    rw [hrd _ (by decide), hbit]

/-! ### The moves of one job, and of all -/

theorem namedTo_cons (a : Nat) (l : List Nat) (p : Nat) (F : List (Nat × Nat × Rat)) :
    (F.map (namedTo [a] p)).map (namedTo l p) = F.map (namedTo (a :: l) p) := by
  rw [List.map_map]
  refine List.map_congr_left fun g _ => ?_
  show namedTo l p (namedTo [a] p g) = _
  unfold namedTo
  by_cases ha : g.1 = a <;> by_cases hl : g.1 ∈ l <;> simp [ha, hl]

/-- A flow of the job goes to the port that carries least, and the report has its entry. -/
def Dev.flowStep (j : Job) (x : Dev × List (List Byte)) (f : Nat × Nat × Rat) : Dev × List (List Byte) :=
  let p := x.1.leastPort []
  (x.1.moveFlow j.seq f.1 p, x.2 ++ [reportEntry 7 (2 + if (secPinFlow j.content f.1).isSome then 1 else 0)
    (if f.1 = 8 then unitCode 2 (j.held.cores.headD 0) else unitCode 10 f.1) (unitCode 7 p) 0 (wholeRate f.2.2)])

theorem flowStep_foldl (p q : Nat) (j : Job) (mine : List (Nat × Nat × Rat)) (x : Dev × List (List Byte)) (hup : x.1.OnlyUp p) :
    FlowsMoved p q (if j.seq = q then List.map (namedTo (mine.map (·.1)) p) else id) x.1 (mine.foldl (Dev.flowStep j) x).1 := by
  induction mine generalizing x with
  | nil =>
    refine ⟨rfl, fun h => h, fun h => h, fun y hy => ⟨y, hy, ?_⟩⟩
    split
    · exact (namedTo_nil p _).symm
    · rfl
  | cons f mine ih =>
    have hfirst : FlowsMoved p q (if j.seq = q then List.map (namedTo [f.1] p) else id) x.1 (Dev.flowStep j x f).1 := by
      unfold Dev.flowStep
      rw [leastPort_onlyUp hup]
      exact moveFlow_moves x.1 p q j.seq f.1
    have hboth := hfirst.trans (ih (Dev.flowStep j x f) (hfirst.up hup))
    refine ⟨hboth.eas, hboth.up, hboth.flag, fun y hy => ?_⟩
    obtain ⟨z, hz, hflows⟩ := hboth.job y hy
    refine ⟨z, hz, hflows.trans ?_⟩
    split
    · exact namedTo_cons f.1 _ p _
    · rfl

/-- The flows of a job that are at the port go on, with a report. -/
def Dev.moveFlows (h : Nat) (d : Dev) (j : Job) : Dev :=
  let r := (j.held.flows.filter fun f => f.2.1 == h).foldl (Dev.flowStep j) (d, [])
  r.1.report 2 j.slot j.seq j.nextShot 0 r.2

theorem moveFlows_moves {p : Nat} (q h : Nat) (j : Job) (hup : d.OnlyUp p) :
    FlowsMoved p q (if j.seq = q then List.map (namedTo ((j.held.flows.filter fun f => f.2.1 == h).map (·.1)) p) else id) d
      (d.moveFlows h j) :=
  (flowStep_foldl p q j _ (d, []) hup).trans (report_moves ..)

theorem flowMoveOp_eq {h : Nat} (hdown : d.rd (unitKey 0x280001 h) ≠ 3) {p : Nat} (hup : d.OnlyUp p) {j : Job} (hj : j ∈ d.hub.jobs)
    (hflow : ∃ f ∈ j.held.flows, f.2.1 = h) : flowMoveOp h d =
      (d.hub.jobs.filter fun j => j.held.flows.any fun f => f.2.1 == h).foldl (Dev.moveFlows h) (d.flag 0x600001 1) := by
  have hany : ((List.range 4).any fun p => d.rd (unitKey 0x280001 p) == 3) = true :=
    List.any_eq_true.mpr ⟨p, List.mem_range.mpr hup.1, beq_iff_eq.mpr ((hup.2 p hup.1).mpr rfl)⟩
  obtain ⟨f, hf, hfh⟩ := hflow
  have hin : j ∈ d.hub.jobs.filter fun j => j.held.flows.any fun f => f.2.1 == h :=
    List.mem_filter.mpr ⟨hj, List.any_eq_true.mpr ⟨f, hf, beq_iff_eq.mpr hfh⟩⟩
  unfold flowMoveOp
  rw [if_neg (by rw [hany]; simp [hdown])]
  dsimp only
  rw [if_neg (List.ne_nil_of_mem hin)]
  rfl

/-- Through the moves of all the jobs, the one's flows are moved as often as it is met; that comes to once. -/
theorem moveFlows_foldl {h p : Nat} {j : Job} (js : List Job) (hone : ∀ k ∈ js, k.seq = j.seq → k = j) (d : Dev) (hup : d.OnlyUp p)
    {x : Job} (hx : d.job j.seq = some x) :
    let G := List.map (namedTo ((j.held.flows.filter fun f => f.2.1 == h).map (·.1)) p)
    (js.foldl (Dev.moveFlows h) d).eas = d.eas ∧
    (d.bit 0x600001 1 = true → (js.foldl (Dev.moveFlows h) d).bit 0x600001 1 = true) ∧
    ∃ y, (js.foldl (Dev.moveFlows h) d).job j.seq = some y ∧
      y.held.flows = (if j ∈ js then G x.held.flows else x.held.flows) := by
  intro G
  have htwice : ∀ F, G (G F) = G F := namedTo_twice _ p
  induction js generalizing d x with
  | nil => exact ⟨rfl, fun h => h, x, hx, (if_neg List.not_mem_nil).symm⟩
  | cons k js ih =>
    have hmoves := moveFlows_moves (d := d) (p := p) j.seq h k hup
    obtain ⟨y, hy, hyflows⟩ := hmoves.job x hx
    obtain ⟨heas, hflag, z, hz, hzflows⟩ := ih (fun i hi => hone i (List.mem_cons_of_mem _ hi)) _ (hmoves.up hup) hy
    refine ⟨heas.trans hmoves.eas, fun hbit => hflag (hmoves.flag hbit), z, hz, ?_⟩
    by_cases hk : k.seq = j.seq
    · obtain rfl := hone k List.mem_cons_self hk
      rw [if_pos rfl] at hyflows
      rw [if_pos List.mem_cons_self, hzflows, show y.held.flows = G x.held.flows from hyflows]
      split
      · exact htwice _
      · rfl
    · rw [if_neg hk] at hyflows
      have hmem : j ∈ k :: js ↔ j ∈ js :=
        List.mem_cons.trans (or_iff_right fun hjk => hk (congrArg Job.seq hjk).symm)
      simp only [hmem, hzflows, show y.held.flows = x.held.flows from hyflows]

theorem flowMoveOp_moves {h p : Nat} {j : Job} (hdown : d.rd (unitKey 0x280001 h) ≠ 3) (hup : d.OnlyUp p) (hj : j ∈ d.hub.jobs)
    (hone : ∀ k ∈ d.hub.jobs, k.seq = j.seq → k = j) (hnodup : (j.held.flows.map (·.1)).Nodup)
    (hflow : ∃ f ∈ j.held.flows, f.2.1 = h) : (flowMoveOp h d).eas = d.eas ∧ (flowMoveOp h d).bit 0x600001 1 = true ∧
    ∃ j', (flowMoveOp h d).job j.seq = some j' ∧ j'.held.flows = j.held.flows.map (flowTo h p) := by
  rw [flowMoveOp_eq hdown hup hj hflow]
  obtain ⟨f, hf, hfh⟩ := hflow
  have hin : j ∈ d.hub.jobs.filter fun j => j.held.flows.any fun f => f.2.1 == h :=
    List.mem_filter.mpr ⟨hj, List.any_eq_true.mpr ⟨f, hf, beq_iff_eq.mpr hfh⟩⟩
  have hup' : (d.flag 0x600001 1).OnlyUp p := ⟨hup.1, fun k hk => by
    rw [Dev.rd_flag_other _ _ _ _ (by unfold unitKey; omega)]
    exact hup.2 k hk⟩
  have hjob : (d.flag 0x600001 1).job j.seq = some j := by
    rw [job_congr (Dev.flag_hub ..)]
    obtain ⟨x, hx⟩ := Option.isSome_iff_exists.mp ((List.find?_isSome (p := fun k : Job => k.seq == j.seq)).mpr ⟨j, hj, beq_self_eq_true j.seq⟩)
    have hseq := List.find?_some (p := fun k : Job => k.seq == j.seq) hx
    obtain rfl := hone x (List.mem_of_find?_eq_some hx) (beq_iff_eq.mp hseq)
    exact hx
  obtain ⟨heas, hflag, y, hy, hyflows⟩ := moveFlows_foldl (h := h) _ (fun k hk => hone k (List.mem_of_mem_filter hk)) _ hup' hjob
  refine ⟨heas.trans (Dev.flag_eas ..), hflag (Dev.bit_flag_self ..), y, hy, ?_⟩
  rw [hyflows, if_pos hin]
  exact namedTo_flows hnodup

end

/-! ### The obligation -/

section
variable {s : State}

theorem exec_retire (u : UnitRef) : exec (.retire u) s = .next (s.onNow (retireOp u)) := rfl
theorem exec_sprout (u : UnitRef) : exec (.sprout u) s = .next (s.onNow (sproutOp u)) := rfl
theorem exec_flowMove (h : Nat) : exec (.flowMove h) s = .next (s.onNow (flowMoveOp h)) := rfl
theorem exec_dacFault (u : UnitRef) : exec (.dacFault u) s = .next (s.onNow (dacFaultOp u)) := rfl
theorem exec_adcOverrange (n : Nat) (code : Int) : exec (.adcOverrange n code) s = .next (s.onNow (adcOverrangeOp n code)) := rfl

end

/-- Settles O47: a replacement takes over what stood on the retired unit, and flows go to the one port that is up. -/
theorem unitsAndSpares : Obligations.UnitsAndSpares := by
  unfold Obligations.UnitsAndSpares
  intro s
  refine ⟨fun u hserves hspine => ?retires, fun u hretired => ?retiredBefore, fun n m hdue hjs hspare hmember => ?easel,
    fun c hdue hjs hmember => ?core, fun h p j hdown hp hup hj hone hnodup hflow => ?flows, fun n => ⟨?xyPort, ?rlTx, ?flux⟩,
    fun n code => ⟨fun hover => ?overrange, fun hlow hhigh => ?inRange⟩⟩
  case retires =>
    have hddr : (retireOp u s.now).ddr = s.now.ddr := by simp
    exact ⟨s.onNow (retireOp u), exec_retire .., (ledgerKept_flushStage _).isRetired (retireUnit_retires _ hserves hspine), hddr⟩
  case retiredBefore =>
    refine does_of_onNow (exec_retire u) ?_
    show (s.now.retireUnit u (unitRow u)).flushStage = _
    rw [Dev.retireUnit_of_retired _ hretired]
  case easel =>
    have hddr : (sproutOp (.easel n) s.now).ddr = s.now.ddr := by simp
    obtain ⟨hbit, hthreads⟩ := sproutOp_easel_takes hdue hjs hspare hmember
    exact ⟨s.onNow (sproutOp (.easel n)), exec_sprout .., hbit, hthreads, hddr⟩
  case core =>
    have hddr : (sproutOp (.dsp c) s.now).ddr = s.now.ddr := by simp
    obtain ⟨hobj, hbit, hg, hac, hstack⟩ := sproutOp_core_takes hdue hjs hmember
    exact ⟨s.onNow (sproutOp (.dsp c)), exec_sprout .., hobj, hbit, hg, hac, hstack, hddr⟩
  case flows =>
    have hddr : (flowMoveOp h s.now).ddr = s.now.ddr := by simp
    obtain ⟨heas, hflag, j', hj', hflows⟩ := flowMoveOp_moves hdown ⟨hp, hup⟩ hj hone hnodup hflow
    exact ⟨s.onNow (flowMoveOp h), j', exec_flowMove .., hj', hflows, hflag, heas, hddr⟩
  case xyPort => exact does_of_onNow (exec_dacFault (.xyPort n)) rfl
  case rlTx => exact does_of_onNow (exec_dacFault (.rlTx n)) rfl
  case flux => exact does_of_onNow (exec_dacFault (.flux n)) rfl
  case overrange =>
    refine does_of_onNow (exec_adcOverrange n code) ?_
    exact if_pos hover
  case inRange =>
    refine does_of_onNow (exec_adcOverrange n code) ?_
    exact if_neg (by omega)

end Sys2Proof.Machine
end

section
/-! What placement and a boundary set, beside the ledger, the lattice state and the threads (R96, R414 to R420). -/

namespace Sys2Proof.Machine

/-- The jobs, the lattice state and the threads stand. -/
structure Dev.Stands (d e : Dev) : Prop where
  hub : e.hub = d.hub
  lat : e.lat = d.lat
  eas : e.eas = d.eas

namespace Dev.Stands

theorem refl (d : Dev) : d.Stands d := ⟨rfl, rfl, rfl⟩

theorem trans {d e f : Dev} (h : d.Stands e) (g : e.Stands f) : d.Stands f :=
  ⟨g.hub.trans h.hub, g.lat.trans h.lat, g.eas.trans h.eas⟩

theorem foldl {α : Type} (f : Dev → α → Dev) (l : List α) (d : Dev) (h : ∀ (e : Dev) x, e.Stands (f e x)) : d.Stands (l.foldl f d) :=
  List.foldlRecOn (motive := fun e : Dev => d.Stands e) l f (refl d) fun e he x _ => he.trans (h e x)

theorem job {d e : Dev} (h : d.Stands e) (q : Nat) : e.job q = d.job q := job_congr h.hub q

theorem thread {d e : Dev} (h : d.Stands e) (n : Nat) : e.thread n = d.thread n := by
  unfold Dev.thread
  rw [h.eas]

end Dev.Stands

section
variable (d : Dev)

/-! ### Writes of objects and of outputs -/

theorem stands_wrs (l : List (Nat × Nat)) : d.Stands (d.wrs l) := ⟨Dev.wrs_hub .., Dev.wrs_lat .., Dev.wrs_eas ..⟩

theorem stands_flag (key bit : Nat) : d.Stands (d.flag key bit) := ⟨Dev.flag_hub .., Dev.flag_lat .., Dev.flag_eas ..⟩

theorem stands_setIdle (c : Nat) (v : Int) : d.Stands (d.setIdle c v) := ⟨Dev.setFlux_hub .., Dev.setFlux_lat .., Dev.setFlux_eas ..⟩

theorem stands_setHold (c : Nat) (v : Int) : d.Stands (d.setHold c v) := by
  have hwr : d.Stands (d.wr (unitKey 0x340004 c) (toU 16 v)) := ⟨rfl, rfl, rfl⟩
  unfold Dev.setHold
  exact hwr.trans (stands_setIdle ..)

theorem stands_setStream (k : Nat) (v : StreamSt) : d.Stands (d.setStream k v) := by
  obtain ⟨-, -, -, heas, hhub⟩ := setStream_leaves d k v
  refine ⟨hhub, ?_, heas⟩
  unfold Dev.setStream
  dsimp only
  split <;> rfl

theorem stands_receiveChange (slot x : Nat) (f : Frame) : d.Stands (d.receiveChange slot x f) := by
  have hset : ∀ (e : Dev) (r : SlotRx), e.Stands (e.setSlotRx slot r) := fun _ _ => ⟨rfl, rfl, rfl⟩
  have hmark : ∀ (e : Dev) a b c, e.Stands (e.markSlot slot a b c) := fun e _ _ _ => hset e _
  unfold Dev.receiveChange
  dsimp only
  split
  · exact .refl d
  · split
    · exact hset ..
    · exact (hset ..).trans (hmark ..)

/-! ### The frames, the hold values, the streams, the cores and the markers of a job -/

theorem stands_resetFrames (j : Job) (p : CanvasPlace) : d.Stands (d.resetFrames j p) := by
  unfold Dev.resetFrames
  dsimp only
  generalize hframes : (List.range 8).foldl _ d = e
  have he : d.Stands e := hframes ▸ .foldl _ _ _ fun _ _ => ⟨rfl, rfl, rfl⟩
  split
  · exact he
  · next slot _ =>
    have hslot : ∀ r, e.Stands (e.setSlotRx slot r) := fun _ => ⟨rfl, rfl, rfl⟩
    exact he.trans ((hslot _).trans (stands_receiveChange ..))

theorem stands_resetHolds (j : Job) : d.Stands (d.resetHolds j) := by
  unfold Dev.resetHolds
  dsimp only
  refine .foldl _ _ _ fun e c => ?_
  split
  · exact stands_setHold ..
  · exact stands_setIdle ..

theorem stands_restartStreams (j : Job) : d.Stands (d.restartStreams j) :=
  .foldl _ _ _ fun e _ => (stands_wrs e _).trans (stands_setStream ..)

theorem stands_restartCores (j : Job) : d.Stands (d.restartCores j) := by
  refine .foldl _ _ _ fun e c => ?_
  have hcore : ∀ k, e.Stands (e.setCore c k) := fun _ => ⟨rfl, rfl, rfl⟩
  dsimp only
  split
  · exact (hcore _).trans (stands_wrs ..)
  · exact .refl e

theorem stands_idleMarkers (j : Job) : d.Stands (d.idleMarkers j) := by
  unfold Dev.idleMarkers
  dsimp only
  refine .foldl _ _ _ fun e m => ?_
  split
  · exact .refl e
  · exact ⟨rfl, rfl, rfl⟩

/-! ### What a placed job loads -/

theorem stands_setRoutes : d.Stands d.setRoutes := .foldl _ _ _ fun _ _ => ⟨rfl, rfl, rfl⟩

theorem stands_setCarriers (h : Held) (cs : Sections) (vs : List CView) : d.Stands (d.setCarriers h cs vs) := by
  unfold Dev.setCarriers
  dsimp only
  generalize hxy : h.xy.foldl _ d = e
  have he : d.Stands e := hxy ▸ .foldl _ _ _ fun _ _ => ⟨rfl, rfl, rfl⟩
  exact he.trans (.foldl _ _ _ fun _ _ => ⟨rfl, rfl, rfl⟩)

theorem stands_setStreams (h : Held) (cs : Sections) : d.Stands (d.setStreams h cs) := by
  unfold Dev.setStreams
  dsimp only
  exact .foldl _ _ _ fun e _ => (stands_wrs e _).trans (stands_setStream ..)

theorem stands_setDefs (h : Held) (cs : Sections) : d.Stands (d.setDefs h cs) := .foldl _ _ _ fun e _ => stands_wrs e _

theorem stands_setChannels (slot : Nat) (cs : Sections) : d.Stands (d.setChannels slot cs) := by
  have hwr : ∀ (e : Dev) k v, e.Stands (e.wr k v) := fun _ _ _ => ⟨rfl, rfl, rfl⟩
  exact .foldl _ _ _ fun e _ => (stands_wrs e _).trans (hwr ..)

theorem stands_setCores (j : Job) (h : Held) : d.Stands (d.setCores j h) := by
  have hcore : ∀ (e : Dev) c k, e.Stands (e.setCore c k) := fun _ _ _ => ⟨rfl, rfl, rfl⟩
  unfold Dev.setCores
  refine .foldl _ _ _ fun e x => ?_
  dsimp only
  exact (stands_wrs e _).trans (hcore ..)

theorem stands_bindCanvas (j : Job) (h : Held) (p : CanvasPlace) : d.Stands (d.bindCanvas j h p) := by
  have hwr : ∀ (e : Dev) k v, e.Stands (e.wr k v) := fun _ _ _ => ⟨rfl, rfl, rfl⟩
  unfold Dev.bindCanvas
  extract_lets cs n exports tone q
  split
  · exact .refl d
  extract_lets base d1 d2 d3 d4 d5
  have h1 : d.Stands d1 := (stands_wrs d _).trans (stands_wrs ..)
  have h2 : d1.Stands d2 := by
    unfold d2
    split
    · exact stands_wrs ..
    · exact .refl _
  have h3 : d2.Stands d3 := by
    unfold d3
    split
    · exact (stands_wrs d2 _).trans (stands_wrs ..)
    · exact .refl _
  have h4 : d3.Stands d4 := by
    unfold d4
    split
    · exact .refl _
    · split
      · exact .refl _
      · exact hwr ..
  have h5 : d4.Stands d5 := stands_wrs ..
  clear_value d1 d2 d3 d4 d5
  exact h1.trans (h2.trans (h3.trans (h4.trans (h5.trans (.foldl _ _ _ fun e _ => (stands_wrs e _).trans (stands_setHold ..))))))

theorem stands_hkTrigger (source : Nat) : d.Stands (d.hkTrigger source) := by
  have hcal : ∀ c : Cal, d.Stands { d with cal := c } := fun _ => ⟨rfl, rfl, rfl⟩
  unfold Dev.hkTrigger
  dsimp only
  split
  · exact .refl d
  split
  · split
    · exact .refl d
    · exact (hcal _).trans (stands_flag ..)
  split
  · exact ⟨rfl, rfl, rfl⟩
  split
  · exact (hcal _).trans (stands_flag ..)
  · exact ⟨rfl, rfl, rfl⟩

end
end Sys2Proof.Machine
end

section
/-! Placement (R414, R424, R425). -/

namespace Sys2Proof.Machine

section
variable {d : Dev}

theorem job_seq {q : Nat} {j : Job} (hjob : d.job q = some j) : j.seq = q :=
  beq_iff_eq.mp (List.find?_some (p := fun k : Job => k.seq == q) hjob)

/-! ### A refusal -/

theorem placementOp_refused {j : Job} {f : Failure} {fs : List Failure} (hnext : d.nextJob = some j)
    (hfail : d.failures j.head (d.withFits j.content) = f :: fs) : placementOp d = d.refuseJob j (f :: fs) := by
  unfold placementOp
  rw [hnext]
  dsimp only
  rw [hfail]

theorem job_report (d : Dev) (verdict slot r shot reason : Nat) (es : List (List Byte)) (q : Nat) :
    (d.report verdict slot r shot reason es).job q = d.job q := rfl

theorem refuseJob_leaves {q : Nat} {j : Job} (fs : List Failure) (hjob : d.job q = some j) :
    ((d.refuseJob j fs).job q).map (·.st) = some .refused ∧ (d.refuseJob j fs).bit 0x600001 4 = true ∧
    (d.refuseJob j fs).eas = d.eas ∧ (d.refuseJob j fs).dsp = d.dsp ∧ (d.refuseJob j fs).state = d.state := by
  obtain rfl := job_seq hjob
  have hrefused := job_modJob (f := fun k => { k with st := .refused, endCause := 3 }) (fun _ => rfl) hjob
  unfold Dev.refuseJob
  refine ⟨?_, Dev.bit_flag_self .., (Dev.flag_eas ..).trans rfl, (Dev.flag_dsp ..).trans rfl, (Dev.flag_state ..).trans rfl⟩
  rw [job_congr (Dev.flag_hub ..), job_report, hrefused]
  rfl

/-! ### A placed job -/

/-- What a placed job holds when it has taken its units. -/
def armedJob (h : Held) (now : Nat) (k : Job) : Job :=
  let k := { k with held := h }
  { k with
    st := if k.haltDue then .halted else .armed, haltDue := false, armedAt := now, phase := .waiting
    shot := k.nextShot, nextStart := none, drainSent := none, trigSent := false, ackWait := false }

/-- Everything that a job takes with its units, but for the ledger's mark of them. -/
def Dev.takeUnits (d : Dev) (j : Job) : Dev :=
  let j := { j with content := d.withFits j.content }
  let h := d.choosePlacement j.head j.content
  let vs := d.views j.content
  let d1 := ((d.loadStores h j.content).loadTable j.slot h j.content vs).setRoutes
  let d2 := h.canvases.foldl (fun e p => e.bindCanvas j h p) (d1.setCarriers h j.content vs)
  let d3 := (((d2.setStreams h j.content).setDefs h j.content).setChannels j.slot j.content).setCores j h
  match h.trig with
  | some i => d3.wr (unitKey 0x3A4006 i) j.slot
  | none => d3

theorem loadTable_leaves (d : Dev) (slot : Nat) (h : Held) (cs : Sections) (vs : List CView) :
    (d.loadTable slot h cs vs).hub = d.hub ∧ (d.loadTable slot h cs vs).lat = d.lat := by
  have hdesc : ∀ t, ({ d with eas := { d.eas with desc := t } } : Dev).hub = d.hub ∧ ({ d with eas := { d.eas with desc := t } } : Dev).lat = d.lat :=
    fun _ => ⟨rfl, rfl⟩
  have hfold : ∀ (key v : Nat × Nat × Nat × Nat → Nat) (l : List (Nat × Nat × Nat × Nat)) (e : Dev),
      (l.foldl (fun x r => x.wr (key r) (v r)) e).hub = e.hub ∧ (l.foldl (fun x r => x.wr (key r) (v r)) e).lat = e.lat := fun _ _ l e =>
    List.foldlRecOn (motive := fun x : Dev => x.hub = e.hub ∧ x.lat = e.lat) l _ ⟨rfl, rfl⟩ fun _ hx _ _ => hx
  unfold Dev.loadTable
  exact ⟨(hfold _ _ _ _).1.trans (hdesc _).1, (hfold _ _ _ _).2.trans (hdesc _).2⟩

theorem takeUnits_leaves (d : Dev) (j : Job) : (d.takeUnits j).hub = d.hub ∧ (d.takeUnits j).lat = d.lat := by
  unfold Dev.takeUnits
  extract_lets k h vs d1 d2 d3
  obtain ⟨hhub, hlat⟩ := loadTable_leaves (d.loadStores h k.content) k.slot h k.content vs
  have h1 := stands_setRoutes ((d.loadStores h k.content).loadTable k.slot h k.content vs)
  have h2 : d1.Stands d2 := (stands_setCarriers ..).trans (.foldl _ _ _ fun e p => stands_bindCanvas e ..)
  have h3 : d2.Stands d3 := ((stands_setStreams ..).trans ((stands_setDefs ..).trans (stands_setChannels ..))).trans (stands_setCores ..)
  have hall := h1.trans (h2.trans h3)
  have hloaded : (d.loadStores h k.content).hub = d.hub ∧ (d.loadStores h k.content).lat = d.lat := ⟨rfl, rfl⟩
  have htrig : d.hub = d3.hub ∧ d.lat = d3.lat :=
    ⟨(hall.hub.trans (hhub.trans hloaded.1)).symm, (hall.lat.trans (hlat.trans hloaded.2)).symm⟩
  clear_value d3
  rw [htrig.1, htrig.2]
  split <;> exact ⟨rfl, rfl⟩

theorem settle_eq (d : Dev) (j : Job) : d.settle j =
    ((d.takeUnits j).modJob j.seq fun k => { k with held := d.choosePlacement j.head (d.withFits j.content) }).bumpRuns
      (d.choosePlacement j.head (d.withFits j.content)) := rfl

/-- The job armed: the ledger has its units, its state and its start still to be sought. -/
def Dev.placed (d : Dev) (j : Job) : Dev :=
  (d.settle j).modJob j.seq fun k => { k with
    st := if k.haltDue then .halted else .armed, haltDue := false, armedAt := d.epoch, phase := .waiting
    shot := k.nextShot, nextStart := none, drainSent := none, trigSent := false, ackWait := false }

theorem placed_leaves {q : Nat} {j : Job} (hjob : d.job q = some j) :
    (d.placed j).job q = some (armedJob (d.choosePlacement j.head (d.withFits j.content)) d.epoch j) ∧ (d.placed j).lat = d.lat := by
  obtain rfl := job_seq hjob
  obtain ⟨hhub, hlat⟩ := takeUnits_leaves d j
  generalize hheld : d.choosePlacement j.head (d.withFits j.content) = h
  have hsettle := settle_eq d j
  rw [hheld] at hsettle
  have hunits : (d.takeUnits j).job j.seq = some j := (job_congr hhub _).trans hjob
  have hbump : ∀ e : Dev, (e.bumpRuns h).job j.seq = e.job j.seq ∧ (e.bumpRuns h).lat = e.lat := fun _ => ⟨rfl, rfl⟩
  have hsettled : (d.settle j).job j.seq = some { j with held := h } := by
    rw [hsettle, (hbump _).1]
    exact job_modJob (f := fun k => { k with held := h }) (fun _ => rfl) hunits
  have hsettledLat : (d.settle j).lat = d.lat := by
    rw [hsettle, (hbump _).2, Dev.modJob_lat, hlat]
  unfold Dev.placed
  refine ⟨?_, (Dev.modJob_lat ..).trans hsettledLat⟩
  exact job_modJob (f := fun k => { k with
    st := if k.haltDue then .halted else .armed, haltDue := false, armedAt := d.epoch, phase := .waiting
    shot := k.nextShot, nextStart := none, drainSent := none, trigSent := false, ackWait := false }) (fun _ => rfl) hsettled

theorem syncState_leaves (d : Dev) : d.Stands d.syncState := by
  unfold Dev.syncState
  dsimp only
  split
  · exact stands_wrs ..
  · have hset : ∀ (e : Dev) st c, e.Stands (e.setState st c) := fun _ _ _ => ⟨Dev.setState_hub .., Dev.setState_lat .., Dev.setState_eas ..⟩
    exact (stands_wrs d _).trans (hset ..)

/-- What follows the arming of a job, up to its start. -/
def Dev.showPlaced (d : Dev) (k : Job) : Dev :=
  let d2 := (k.held.canvases.foldl (fun x p => x.resetFrames k p) d).resetHolds k
  (d2.report 0 k.slot k.seq 0 0 (d2.placedEntries k k.held)).syncState

theorem showPlaced_leaves (d : Dev) (k : Job) (q : Nat) : (d.showPlaced k).job q = d.job q ∧ (d.showPlaced k).lat = d.lat := by
  have hreset : d.Stands ((k.held.canvases.foldl (fun x p => x.resetFrames k p) d).resetHolds k) :=
    (Dev.Stands.foldl (fun (x : Dev) p => x.resetFrames k p) k.held.canvases d fun e p => stands_resetFrames e k p).trans
      (stands_resetHolds ..)
  have hlat : ∀ (e : Dev) es, (e.report 0 k.slot k.seq 0 0 es).lat = e.lat := fun _ _ => rfl
  unfold Dev.showPlaced
  dsimp only
  generalize (k.held.canvases.foldl (fun x p => x.resetFrames k p) d).resetHolds k = e at *
  have hsync := syncState_leaves (e.report 0 k.slot k.seq 0 0 (e.placedEntries k k.held))
  exact ⟨(hsync.job q).trans ((job_report ..).trans (hreset.job q)), hsync.lat.trans ((hlat ..).trans hreset.lat)⟩

theorem placementOp_placed {q : Nat} {j : Job} (hjob : d.job q = some j) (hnext : d.nextJob = some j)
    (hfail : d.failures j.head (d.withFits j.content) = []) : placementOp d =
      ((d.placed j).showPlaced (armedJob (d.choosePlacement j.head (d.withFits j.content)) d.epoch j)).seekStart q := by
  obtain rfl := job_seq hjob
  have hplaced := (placed_leaves hjob).1
  unfold placementOp
  rw [hnext]
  dsimp only
  rw [hfail]
  show (match (d.placed j).job j.seq with
    | none => d.placed j
    | some k => ((d.placed j).showPlaced k).seekStart k.seq) = _
  rw [hplaced]
  rfl

theorem placementOp_armed {q : Nat} {j : Job} (hjob : d.job q = some j) (hnext : d.nextJob = some j)
    (hfail : d.failures j.head (d.withFits j.content) = []) (hmember : d.lat.st ≠ .root) : ∃ j', (placementOp d).job q = some j' ∧
      j'.st = (if j.haltDue = true then .halted else .armed) ∧ j'.phase = .waiting ∧ j'.armedAt = d.epoch ∧
      j'.held.canvases = (d.choosePlacement j.head (d.withFits j.content)).canvases := by
  rw [placementOp_placed hjob hnext hfail]
  obtain ⟨hplaced, hlat⟩ := placed_leaves hjob
  obtain ⟨hshown, hlat'⟩ := showPlaced_leaves (d.placed j) (armedJob (d.choosePlacement j.head (d.withFits j.content)) d.epoch j) q
  generalize d.choosePlacement j.head (d.withFits j.content) = h at *
  generalize (d.placed j).showPlaced (armedJob h d.epoch j) = e at *
  obtain ⟨j', hj', hstands⟩ := (sought_seekStart (by rw [hlat', hlat]; exact hmember) q).job_some (hshown.trans hplaced)
  exact ⟨j', hj', congrArg Job.st hstands, congrArg Job.phase hstands, congrArg Job.armedAt hstands,
    congrArg (fun k : Job => k.held.canvases) hstands⟩

end
end Sys2Proof.Machine
end

section
/-! SHOT_START (R51, R96, R590). -/

namespace Sys2Proof.Machine

section
variable {d : Dev}

/-! ### The attempt that begins -/

/-- A job in the first tick of an attempt. -/
def shotJob (t n : Nat) (wall : Option (Nat × Nat × Bool)) (last : Bool) (k : Job) : Job :=
  { k with
    phase := .shot, shotStart := t, nextStart := none, attempt := n, spoiled := k.spoilNext, spoilNext := false, discarded := false
    started := true, lastStart := t, lastWall := wall, st := if last then .draining else .running
    rerunCount := if 1 < n then k.rerunCount + 1 else k.rerunCount }

/-- A job's start fixed at a tick. -/
def startFixed (start shot : Nat) (gens : List (Nat × Nat × Nat)) (k : Job) : Job :=
  { k with nextStart := some start, trigSent := false, shot := shot, shotGens := gens, ackWait := false, spoilNext := false }

theorem placeStart_job {q : Nat} {j : Job} (start shot : Nat) (hjob : d.job q = some j) :
    (d.placeStart q start shot).job q = some (startFixed start shot j.contGens j) := by
  obtain ⟨-, hhub, -⟩ := startThreads_leaves j start shot j.held.canvases d
  unfold Dev.placeStart
  rw [hjob]
  dsimp only
  generalize j.held.canvases.foldl (fun e p => e.startThread j p start shot) d = e at *
  exact job_modJob (f := startFixed start shot j.contGens) (fun _ => rfl) ((job_congr hhub q).trans hjob)

/-- The machine in which an attempt begins: a late one has its start placed anew, with its flag. -/
def Dev.lateStart (d : Dev) (q a shot : Nat) : Dev :=
  if decide (a < d.epoch) then (d.flag 0x200004 11).placeStart q (max a d.epoch) shot else d

/-- An attempt begins. -/
def Dev.beginAttempt (d : Dev) (j : Job) (q t : Nat) : Dev :=
  (((if j.started then d else d.restartPeaks j).noteStamp t).modJob q (shotJob t (j.attempt + 1) (d.wallStamp t)
    (decide (j.shot + 1 = j.head.shots) || j.haltDue || j.cancelDue))).beginShot j t

theorem shotStartOp_begins {q a : Nat} {j : Job} (hjob : d.job q = some j) (hnext : j.nextStart = some a) (hres : j.st.resident = true)
    (hhalted : j.st ≠ .halted) (hphase : j.phase = .waiting ∨ j.phase = .boundary) (hdue : a ≤ d.epoch) (hshots : d.noNewShot = false)
    (hmulti : j.head.multiChip = true → d.lat.st = .joined ∨ d.lat.st = .root) :
    shotStartOp q d = (d.lateStart q a j.shot).beginAttempt j q (max a d.epoch) := by
  have hready : (!j.st.resident || j.st == .halted || !(j.phase == .waiting || j.phase == .boundary) || decide (d.epoch < a)) = false := by
    rcases hphase with h | h <;> simp [hres, hhalted, h, hdue]
  have hlattice : (j.head.multiChip && !(d.lat.st == .joined || d.lat.st == .root)) = false := by
    cases hm : j.head.multiChip
    · rfl
    · rcases hmulti hm with h | h <;> simp [h]
  unfold shotStartOp
  rw [hjob]
  dsimp only
  rw [hnext]
  dsimp only
  rw [if_neg (by rw [hready]; decide), if_neg (by rw [hlattice]; decide), if_neg (by rw [hshots]; decide)]
  rfl

/-! ### What a shot's begin leaves -/

theorem stands_noteStamp (n : Nat) : d.Stands (d.noteStamp n) := by
  unfold Dev.noteStamp
  split
  · exact ⟨Dev.wrBit_hub .., Dev.wrBit_lat .., Dev.wrBit_eas ..⟩
  · exact .refl d

theorem stands_restartPeaks (d : Dev) (j : Job) : d.Stands (d.restartPeaks j) := by
  have hwr : ∀ (e : Dev) k v, e.Stands (e.wr k v) := fun _ _ _ => ⟨rfl, rfl, rfl⟩
  exact .foldl _ _ _ fun e _ => hwr ..

theorem stands_trigCause (d : Dev) (source : Nat) (arg : Option Nat) (t : Nat) : d.Stands (d.trigCause source arg t) := by
  refine ⟨(trigCause_leaves d source arg t).2.1, ?_, (trigCause_keeps d source arg t).2⟩
  unfold Dev.trigCause
  refine List.foldlRecOn (motive := fun e : Dev => e.lat = d.lat) (List.range 8) _ rfl fun e he k _ => ?_
  dsimp only
  generalize (e.rd (unitKey 0x3A4801 k) == source && _ : Bool) = fits
  split
  · split <;> exact he
  · exact he

theorem stands_addCond (d : Dev) (c bit t : Nat) : d.Stands (d.addCond c bit t) := by
  unfold Dev.addCond
  dsimp only
  split
  · exact ⟨rfl, rfl, rfl⟩
  · exact .refl d

theorem stands_acqBegin (d : Dev) (c : Nat) (l : AcqLeg) : d.Stands (d.acqBegin c l) := by
  have hset : ∀ (e : Dev) a, e.Stands (e.setAcq c a) := fun _ _ => ⟨rfl, rfl, rfl⟩
  unfold Dev.acqBegin
  exact (stands_wrs d _).trans (hset ..)

theorem rd_acqBegin (d : Dev) (c : Nat) (l : AcqLeg) {key : Nat} (hkey : key < 0x500000) : (d.acqBegin c l).rd key = d.rd key := by
  have hset : ∀ (e : Dev) a, (e.setAcq c a).rd key = e.rd key := fun _ _ => rfl
  unfold Dev.acqBegin
  refine (hset ..).trans (Dev.rd_wrs_other _ _ _ ?_)
  simp only [List.forall_mem_cons, List.not_mem_nil, false_implies, implies_true, and_true, unitKey]
  omega

theorem rd_syncState (d : Dev) {key : Nat} (hkey : 0x200000 ≤ key) (hkey' : key < 0x600000) : d.syncState.rd key = d.rd key := by
  have hwrs : ∀ a b, (d.wrs [(0x600002, a), (0x780002, b)]).rd key = d.rd key := fun a b => by
    refine Dev.rd_wrs_other _ _ _ ?_
    simp only [List.forall_mem_cons, List.not_mem_nil, false_implies, implies_true, and_true]
    omega
  unfold Dev.syncState
  dsimp only
  split
  · exact hwrs ..
  · exact (rd_setState _ _ _ (by omega)).trans (hwrs ..)

theorem beginShot_leaves (d : Dev) (j : Job) (t : Nat) : d.Stands (d.beginShot j t) ∧
    (d.beginShot j t).bit 0x200004 11 = d.bit 0x200004 11 := by
  have hcore : ∀ (e : Dev) (c : Nat), e.Stands (if e.rd (unitKey 0x580001 c) = 0 then e.wr (unitKey 0x580001 c) 1 else e) ∧
      (if e.rd (unitKey 0x580001 c) = 0 then e.wr (unitKey 0x580001 c) 1 else e).rd 0x200004 = e.rd 0x200004 := fun e c => by
    split
    · exact ⟨⟨rfl, rfl, rfl⟩, Dev.rd_wr_other _ _ _ _ (by unfold unitKey; omega)⟩
    · exact ⟨.refl e, rfl⟩
  have hacq : ∀ (e : Dev) (c : Nat) (l : AcqLeg), e.Stands (if e.rd (unitKey 0x510001 c) = 0 then e else (e.acqBegin c l).addCond c 12 t) ∧
      (if e.rd (unitKey 0x510001 c) = 0 then e else (e.acqBegin c l).addCond c 12 t).rd 0x200004 = e.rd 0x200004 := fun e c l => by
    split
    · exact ⟨.refl e, rfl⟩
    · exact ⟨(stands_acqBegin ..).trans (stands_addCond ..),
        (Dev.rd_congr (addCond_leaves ..).1 _).trans (rd_acqBegin _ _ _ (by decide))⟩
  have hproduce : d.Stands (d.produce 0x8C) ∧ (d.produce 0x8C).rd 0x200004 = d.rd 0x200004 :=
    ⟨⟨Dev.produce_hub .., Dev.produce_lat .., Dev.produce_eas ..⟩, Dev.rd_congr (Dev.produce_objs ..) _⟩
  have hfold : ∀ {α : Type} (f : Dev → α → Dev) (l : List α) (e : Dev), (∀ (x : Dev) a, x.Stands (f x a) ∧ (f x a).rd 0x200004 = x.rd 0x200004) →
      e.Stands (l.foldl f e) ∧ (l.foldl f e).rd 0x200004 = e.rd 0x200004 := fun f l e h =>
    List.foldlRecOn (motive := fun x : Dev => e.Stands x ∧ x.rd 0x200004 = e.rd 0x200004) l f ⟨.refl e, rfl⟩
      fun x hx a _ => ⟨hx.1.trans (h x a).1, (h x a).2.trans hx.2⟩
  unfold Dev.beginShot
  extract_lets d1 d2
  have h1 : (d.produce 0x8C).Stands d1 ∧ d1.rd 0x200004 = (d.produce 0x8C).rd 0x200004 := hfold _ _ _ fun x c => hcore x c
  have h2 : d1.Stands d2 ∧ d2.rd 0x200004 = d1.rd 0x200004 := hfold _ _ _ fun x c => hacq x c _
  clear_value d1 d2
  refine ⟨hproduce.1.trans (h1.1.trans (h2.1.trans ((stands_trigCause ..).trans (syncState_leaves _)))), ?_⟩
  unfold Dev.bit
  rw [rd_syncState _ (by decide) (by decide), Dev.rd_congr (trigCause_leaves ..).1, h2.2, h1.2, hproduce.2]

/-- An attempt that begins leaves its job in the shot, with the threads and the flag as they stood. -/
theorem beginAttempt_leaves {q t : Nat} {j k : Job} (hk : d.job q = some k) :
    (d.beginAttempt j q t).job q = some (shotJob t (j.attempt + 1) (d.wallStamp t)
      (decide (j.shot + 1 = j.head.shots) || j.haltDue || j.cancelDue) k) ∧
    (d.beginAttempt j q t).eas = d.eas ∧ (d.beginAttempt j q t).bit 0x200004 11 = d.bit 0x200004 11 := by
  have hpeaks : d.Stands (if j.started then d else d.restartPeaks j) ∧
      (if j.started then d else d.restartPeaks j).rd 0x200004 = d.rd 0x200004 := by
    split
    · exact ⟨.refl d, rfl⟩
    · refine ⟨stands_restartPeaks d j, ?_⟩
      unfold Dev.restartPeaks
      exact List.foldlRecOn (motive := fun x : Dev => x.rd 0x200004 = d.rd 0x200004) _ _ rfl fun x hx a _ =>
        (Dev.rd_wr_other _ _ _ _ (by unfold unitKey; omega)).trans hx
  have hstamp : ∀ e : Dev, (e.noteStamp t).rd 0x200004 = e.rd 0x200004 := fun e => by
    unfold Dev.noteStamp
    split
    · exact Dev.rd_wrBit_other _ _ _ _ _ (by decide)
    · rfl
  unfold Dev.beginAttempt
  generalize hf : shotJob t (j.attempt + 1) (d.wallStamp t) (decide (j.shot + 1 = j.head.shots) || j.haltDue || j.cancelDue) = f
  generalize (if j.started then d else d.restartPeaks j) = e at *
  obtain ⟨hbegun, hbit⟩ := beginShot_leaves ((e.noteStamp t).modJob q f) j t
  have hstood := hpeaks.1.trans (stands_noteStamp (d := e) t)
  have hmod : ((e.noteStamp t).modJob q f).job q = some (f k) :=
    job_modJob (hf ▸ fun _ => rfl) ((hstood.job q).trans hk)
  refine ⟨(hbegun.job q).trans hmod, hbegun.eas.trans ((Dev.modJob_eas ..).trans hstood.eas), hbit.trans ?_⟩
  show (e.noteStamp t).bit 0x200004 11 = d.bit 0x200004 11
  unfold Dev.bit
  rw [hstamp, hpeaks.2]

theorem shotStartOp_starts {q a : Nat} {j : Job} (hjob : d.job q = some j) (hnext : j.nextStart = some a) (hres : j.st.resident = true)
    (hhalted : j.st ≠ .halted) (hphase : j.phase = .waiting ∨ j.phase = .boundary) (hdue : a ≤ d.epoch) (hshots : d.noNewShot = false)
    (hmulti : j.head.multiChip = true → d.lat.st = .joined ∨ d.lat.st = .root) : ∃ j', (shotStartOp q d).job q = some j' ∧
      j'.phase = .shot ∧ j'.shotStart = d.epoch ∧ j'.nextStart = none ∧ j'.attempt = j.attempt + 1 ∧ j'.shot = j.shot ∧
      j'.st = (if j.shot + 1 = j.head.shots ∨ j.haltDue = true ∨ j.cancelDue = true then .draining else .running) ∧
      (a = d.epoch → j'.spoiled = j.spoilNext ∧ (shotStartOp q d).eas = d.eas) ∧
      (a < d.epoch → j'.spoiled = false ∧ (shotStartOp q d).bit 0x200004 11 = true) := by
  rw [shotStartOp_begins hjob hnext hres hhalted hphase hdue hshots hmulti, Nat.max_eq_right hdue]
  have hst : ∀ (t n : Nat) w (k : Job), (shotJob t n w (decide (j.shot + 1 = j.head.shots) || j.haltDue || j.cancelDue) k).st =
      if j.shot + 1 = j.head.shots ∨ j.haltDue = true ∨ j.cancelDue = true then .draining else .running := fun _ _ _ _ => by
    simp [shotJob, or_assoc]
  rcases Nat.lt_or_ge a d.epoch with hlate | hontime
  · have hplaced : d.lateStart q a j.shot = (d.flag 0x200004 11).placeStart q d.epoch j.shot := by
      unfold Dev.lateStart
      rw [if_pos (decide_eq_true hlate), Nat.max_eq_right hdue]
    have hflag := Dev.bit_flag_self d 0x200004 11
    have hjob' : (d.flag 0x200004 11).job q = some j := (job_congr (Dev.flag_hub ..) q).trans hjob
    have hk := placeStart_job d.epoch j.shot hjob'
    have hbit : (d.lateStart q a j.shot).bit 0x200004 11 = true := by
      rw [hplaced, Dev.bit_congr (placeStart_leaves hjob').2.1]
      exact hflag
    rw [← hplaced] at hk
    obtain ⟨hstarted, -, hbit'⟩ := beginAttempt_leaves (t := d.epoch) (j := j) hk
    refine ⟨_, hstarted, rfl, rfl, rfl, rfl, rfl, hst .., fun hnow => absurd hnow (Nat.ne_of_lt hlate), fun _ => ⟨rfl, ?_⟩⟩
    rw [hbit', hbit]
  · have hplaced : d.lateStart q a j.shot = d := if_neg (by simpa using hontime)
    rw [hplaced]
    obtain ⟨hstarted, heas, -⟩ := beginAttempt_leaves (t := d.epoch) (j := j) hjob
    exact ⟨_, hstarted, rfl, rfl, rfl, rfl, rfl, hst .., fun _ => ⟨rfl, heas⟩, fun hlate => absurd hlate (Nat.not_lt.mpr hontime)⟩

end
end Sys2Proof.Machine
end

section
/-! DRAIN_COMPLETE (R82, R404, R590, R636). -/

namespace Sys2Proof.Machine

section
variable {d : Dev}

/-! ### What closes with the drain -/

theorem closeCore_hub (d : Dev) (c : Nat) : (d.closeCore c).hub = d.hub := by
  have hcore : ∀ k v, ((d.setCore c k).wr (unitKey 0x58000A c) v).hub = d.hub := fun _ _ => rfl
  unfold Dev.closeCore
  dsimp only
  split
  · exact hcore ..
  · exact (Dev.bump_hub ..).trans (hcore ..)

theorem closeChannel_hub (d : Dev) (c : Nat) : (d.closeChannel c).hub = d.hub := by
  unfold Dev.closeChannel
  dsimp only
  split <;> rfl

/-- The cores and channels of a job closed, with the drain's own event. -/
def Dev.closed (d : Dev) (j : Job) : Dev := (j.held.acq.foldl Dev.closeChannel (j.held.cores.foldl Dev.closeCore d)).produce 0x8D

theorem closed_hub (d : Dev) (j : Job) : (d.closed j).hub = d.hub := by
  have hcores : (j.held.cores.foldl Dev.closeCore d).hub = d.hub :=
    List.foldlRecOn (motive := fun e : Dev => e.hub = d.hub) _ _ rfl fun e he c _ => (closeCore_hub e c).trans he
  have hchannels := List.foldlRecOn (motive := fun e : Dev => e.hub = d.hub) j.held.acq _ hcores fun e he c _ => (closeChannel_hub e c).trans he
  exact (Dev.produce_hub ..).trans hchannels

/-! ### What becomes of the attempt -/

/-- Records and the count of spoiled attempts, as every drain leaves them. -/
def drainedJob (spoiled : Bool) (k : Job) : Job :=
  { k with recs := k.recsNext, recsNext := [], spoiledCount := if spoiled then k.spoiledCount + 1 else k.spoiledCount }

/-- What the drained attempt makes of its job. -/
def settledJob (j : Job) (wall : Option (Nat × Nat × Bool)) (cont : List (Nat × Nat × Nat)) (k : Job) : Job :=
  if j.discarded then drainedJob j.spoiled k
  else if j.spoiled ∧ j.spoiledRuns + 1 ≤ j.head.spoilRetry ∧ !j.cancelDue then
    { drainedJob j.spoiled k with spoiledRuns := k.spoiledRuns + 1 }
  else if j.head.multiChip then { drainedJob j.spoiled k with tentative := some (j.attempted wall), contEnd := cont }
  else { (drainedJob j.spoiled k).finish (j.attempted wall) with contGens := cont, contEnd := cont }

theorem settledJob_seq (j : Job) (wall : Option (Nat × Nat × Bool)) (cont : List (Nat × Nat × Nat)) (k : Job) :
    (settledJob j wall cont k).seq = k.seq := by
  unfold settledJob
  split_ifs <;> rfl

theorem settleAttempt_eq (d : Dev) (j : Job) : d.settleAttempt j =
    (d.noteStamp j.shotStart).modJob j.seq (settledJob j (d.wallStamp j.shotStart) (d.contNow j)) := by
  unfold Dev.settleAttempt settledJob
  dsimp only
  split
  · rfl
  split
  · rfl
  split <;> rfl

/-! ### The state after it -/

/-- What a drained job keeps through the state that it takes. -/
structure DrainKept (k k' : Job) : Prop where
  phase : k'.phase = k.phase
  drainAt : k'.drainAt = k.drainAt
  nextShot : k'.nextShot = k.nextShot
  discards : k'.discards = k.discards
  spoiledRuns : k'.spoiledRuns = k.spoiledRuns
  queued : k.cancelDue = false → k'.queued = k.queued

/-- A job put in the place of the one that stands under its number is found there. -/
theorem job_modJob_const {q : Nat} {j k : Job} (hseq : k.seq = q) (hjob : d.job q = some j) : (d.modJob q fun _ => k).job q = some k := by
  have hcomp : ((fun j : Job => j.seq == q) ∘ fun j => if j.seq == q then k else j) = fun j => j.seq == q := by
    funext i
    simp only [Function.comp_apply]
    split
    · next hi => rw [hseq, beq_self_eq_true, hi]
    · rfl
  unfold Dev.job at hjob ⊢
  have hmatch : (j.seq == q) = true := List.find?_some (p := fun k : Job => k.seq == q) hjob
  unfold Dev.modJob
  simp only [List.find?_map, hcomp, hjob, Option.map_some, hmatch, if_true]

theorem cancelSummary_keeps (k : Job) : k.cancelSummary.seq = k.seq ∧ k.cancelSummary.phase = k.phase ∧
    k.cancelSummary.drainAt = k.drainAt ∧ k.cancelSummary.nextShot = k.nextShot ∧ k.cancelSummary.discards = k.discards ∧
    k.cancelSummary.spoiledRuns = k.spoiledRuns := by
  unfold Job.cancelSummary
  dsimp only
  split <;> exact ⟨rfl, rfl, rfl, rfl, rfl, rfl⟩

/-- The job as its end leaves it. -/
def endedJob (st : JobState) (cause : Nat) (k : Job) : Job :=
  { k with
    st := st, endCause := cause, nextStart := none, tentative := none, haltDue := false
    cancelDue := false, stopDue := false, ackWait := false }

theorem endJob_ended {q : Nat} {k : Job} (hk : d.job q = some k) (cause : Nat) :
    (d.endJob q .ended cause).job q = some (endedJob .ended cause k) := by
  obtain rfl := job_seq hk
  unfold Dev.endJob
  rw [hk]
  dsimp only
  rw [if_neg (by simp), (syncState_leaves _).job]
  exact job_modJob_const (k := endedJob .ended cause k) rfl hk

theorem endJob_cancelled {q : Nat} {k : Job} (hk : d.job q = some k) (cause : Nat) :
    (d.endJob q .cancelled cause).job q = some (endedJob .cancelled cause k) ∨
    (d.endJob q .cancelled cause).job q = some (endedJob .cancelled cause k.cancelSummary) := by
  obtain rfl := job_seq hk
  unfold Dev.endJob
  rw [hk]
  dsimp only
  rw [(syncState_leaves _).job]
  split
  · exact .inr (job_modJob_const (k := endedJob .cancelled cause k.cancelSummary) (cancelSummary_keeps k).1 hk)
  · exact .inl (job_modJob_const (k := endedJob .cancelled cause k) rfl hk)

theorem dropTriggers_hub (d : Dev) (j : Job) : (d.dropTriggers j).hub = d.hub := by
  unfold Dev.dropTriggers
  split
  · rfl
  · next i _ =>
    extract_lets t n d1
    clear_value n
    split
    · exact Dev.setTrigIn_hub ..
    · exact (Dev.flagN_hub ..).trans (Dev.setTrigIn_hub ..)

theorem finishJob_job (d : Dev) (j : Job) (q : Nat) : (d.finishJob j).job q = (d.endJob j.seq .ended 1).job q := by
  have hcal : ∀ (e : Dev) (c : Cal), ({ e with cal := c } : Dev).hub = e.hub := fun _ _ => rfl
  refine job_congr ?_ q
  unfold Dev.finishJob
  dsimp only
  split
  · exact (hcal ..).trans (dropTriggers_hub ..)
  · exact dropTriggers_hub ..

/-- The job is found after its drain as it stood, but for its state. -/
theorem afterDrain_keeps {k : Job} (hk : d.job k.seq = some k) : ∃ k', (d.afterDrain k).job k.seq = some k' ∧ DrainKept k k' ∧
    (k.cancelDue = false → k.head.multiChip = false → k.shot + 1 ≠ k.head.shots ∨ k.head.shots ≤ k.nextShot →
      k'.st = if k.head.shots ≤ k.nextShot then .ended else if k.haltDue = true then .halted else .running) := by
  unfold Dev.afterDrain
  split
  · next hcancel =>
    rw [job_congr (dropTriggers_hub ..)]
    rcases endJob_cancelled hk 2 with hjob | hjob
    · exact ⟨_, hjob, ⟨rfl, rfl, rfl, rfl, rfl, fun _ => rfl⟩, fun h => absurd (hcancel.symm.trans h) (by decide)⟩
    · obtain ⟨-, hphase, hdrain, hnext, hdiscards, hruns⟩ := cancelSummary_keeps k
      exact ⟨_, hjob, ⟨hphase, hdrain, hnext, hdiscards, hruns, fun h => absurd (hcancel.symm.trans h) (by decide)⟩,
        fun h => absurd (hcancel.symm.trans h) (by decide)⟩
  split
  · next hend =>
    rw [finishJob_job]
    have hshots : k.head.shots ≤ k.nextShot := by simpa using (Bool.and_eq_true_iff.mp hend).2
    exact ⟨_, endJob_ended hk 1, ⟨rfl, rfl, rfl, rfl, rfl, fun _ => rfl⟩, fun _ _ _ => (if_pos hshots).symm⟩
  next hend =>
  have hmore : k.head.multiChip = false → ¬ k.head.shots ≤ k.nextShot := fun hm hle => hend (by simp [hm, hle])
  split
  · next hhalt =>
    rw [(syncState_leaves _).job]
    refine ⟨_, job_modJob (f := fun k => { k with st := .halted, haltDue := false }) (fun _ => rfl) hk,
      ⟨rfl, rfl, rfl, rfl, rfl, fun _ => rfl⟩, fun _ hm _ => ?_⟩
    exact (if_neg (hmore hm)).symm
  next hhalt =>
  split
  · next hlast =>
    exact ⟨k, hk, ⟨rfl, rfl, rfl, rfl, rfl, fun _ => rfl⟩, fun _ hm h => absurd hlast (h.resolve_right (hmore hm))⟩
  · rw [(syncState_leaves _).job]
    refine ⟨_, job_modJob (f := fun k => { k with st := .running }) (fun _ => rfl) hk,
      ⟨rfl, rfl, rfl, rfl, rfl, fun _ => rfl⟩, fun _ hm _ => ?_⟩
    exact (if_neg (hmore hm)).symm

/-! ### The drain in whole -/

/-- The job drained, before it takes its state. -/
def afterAttempt (d : Dev) (j : Job) : Job :=
  { settledJob j ((d.closed j).wallStamp j.shotStart) ((d.closed j).contNow j) j with phase := .drained, drainAt := d.epoch }

theorem drainCompleteOp_settles {q : Nat} {j : Job} (hjob : d.job q = some j) (hshot : j.inShot = true) (hdrained : d.drained j = true) :
    ∃ e : Dev, e.job (afterAttempt d j).seq = some (afterAttempt d j) ∧ drainCompleteOp q d = e.afterDrain (afterAttempt d j) := by
  obtain rfl := job_seq hjob
  have hclosed : ((d.closed j).noteStamp j.shotStart).job j.seq = some j :=
    ((stands_noteStamp _).job _).trans ((job_congr (closed_hub d j) _).trans hjob)
  have hseq : (afterAttempt d j).seq = j.seq := settledJob_seq ..
  have hsettled : ((d.closed j).settleAttempt j).job j.seq =
      some (settledJob j ((d.closed j).wallStamp j.shotStart) ((d.closed j).contNow j) j) := by
    rw [settleAttempt_eq]
    exact job_modJob (settledJob_seq j _ _) hclosed
  have hfinal : (((d.closed j).settleAttempt j).modJob j.seq fun k => { k with phase := .drained, drainAt := d.epoch }).job j.seq =
      some (afterAttempt d j) :=
    job_modJob (f := fun k => { k with phase := .drained, drainAt := d.epoch }) (fun _ => rfl) hsettled
  refine ⟨((d.closed j).settleAttempt j).modJob j.seq fun k => { k with phase := .drained, drainAt := d.epoch },
    hseq.symm ▸ hfinal, ?_⟩
  unfold drainCompleteOp
  rw [hjob]
  dsimp only
  rw [if_pos (by rw [hshot, hdrained]; rfl)]
  show (match (((d.closed j).settleAttempt j).modJob j.seq fun k => { k with phase := .drained, drainAt := d.epoch }).job j.seq with
    | none => ((d.closed j).settleAttempt j).modJob j.seq fun k => { k with phase := .drained, drainAt := d.epoch }
    | some k => (((d.closed j).settleAttempt j).modJob j.seq fun k => { k with phase := .drained, drainAt := d.epoch }).afterDrain k) = _
  rw [hfinal]

theorem drainCompleteOp_drains {q : Nat} {j : Job} (hjob : d.job q = some j) (hshot : j.inShot = true) (hdrained : d.drained j = true) :
    ∃ j', (drainCompleteOp q d).job q = some j' ∧ j'.phase = .drained ∧ j'.drainAt = d.epoch ∧
      (j.discarded = true → j'.nextShot = j.nextShot ∧ j'.discards = j.discards ∧ j'.spoiledRuns = j.spoiledRuns) ∧
      (j.discarded = false → j.spoiled = true → j.spoiledRuns < j.head.spoilRetry → j.cancelDue = false →
        j'.nextShot = j.nextShot ∧ j'.spoiledRuns = j.spoiledRuns + 1 ∧ j'.queued = j.queued) ∧
      (j.discarded = false → (j.spoiled = false ∨ j.head.spoilRetry ≤ j.spoiledRuns) → j.head.multiChip = false →
        j.cancelDue = false → j'.nextShot = j.shot + 1 ∧
        (j'.st = if j.head.shots ≤ j.shot + 1 then .ended else if j.haltDue = true then .halted else .running) ∧
        ∃ a, j'.queued = j.queued ++ [a] ∧ a.shot = j.shot ∧ a.attempt = j.attempt ∧ a.start = j.shotStart ∧
          a.spoiled = j.spoiled ∧ a.rerun = decide (1 < j.attempt) ∧ a.recs = j.recs.map (stampRec j.shot)) := by
  obtain rfl := job_seq hjob
  obtain ⟨e, hsettled, heq⟩ := drainCompleteOp_settles hjob hshot hdrained
  obtain ⟨j', hj', hkept, hst⟩ := afterDrain_keeps hsettled
  have hseq : (afterAttempt d j).seq = j.seq := settledJob_seq ..
  rw [heq, ← hseq]
  refine ⟨j', hj', hkept.phase, hkept.drainAt, fun hdisc => ?discarded, fun hdisc hspoiled hruns hcancel => ?rerun,
    fun hdisc hdone hsingle hcancel => ?final⟩
  case discarded =>
    have hjob : settledJob j ((d.closed j).wallStamp j.shotStart) ((d.closed j).contNow j) j = drainedJob j.spoiled j := if_pos hdisc
    unfold afterAttempt at hkept
    rw [hjob] at hkept
    exact ⟨hkept.nextShot, hkept.discards, hkept.spoiledRuns⟩
  case rerun =>
    have hjob : settledJob j ((d.closed j).wallStamp j.shotStart) ((d.closed j).contNow j) j =
        { drainedJob j.spoiled j with spoiledRuns := j.spoiledRuns + 1 } :=
      (if_neg (by rw [hdisc]; decide)).trans (if_pos ⟨hspoiled, hruns, by rw [hcancel]; rfl⟩)
    unfold afterAttempt at hkept
    rw [hjob] at hkept
    exact ⟨hkept.nextShot, hkept.spoiledRuns, hkept.queued hcancel⟩
  case final =>
    generalize hcont : (d.closed j).contNow j = cont
    generalize hwall : (d.closed j).wallStamp j.shotStart = wall
    have hjob : settledJob j wall cont j = { (drainedJob j.spoiled j).finish (j.attempted wall) with contGens := cont, contEnd := cont } := by
      unfold settledJob
      rw [if_neg (by rw [hdisc]; decide), if_neg ?_, if_neg (by rw [hsingle]; decide)]
      rintro ⟨hspoiled, hruns, -⟩
      rcases hdone with h | h
      · rw [h] at hspoiled
        cases hspoiled
      · omega
    have hafter : afterAttempt d j = { (drainedJob j.spoiled j).finish (j.attempted wall) with
        contGens := cont, contEnd := cont, phase := .drained, drainAt := d.epoch } := by
      unfold afterAttempt
      rw [hcont, hwall, hjob]
    rw [hafter] at hkept hst
    refine ⟨hkept.nextShot, hst hcancel hsingle ?_, j.attempted wall, hkept.queued hcancel, rfl, rfl, rfl, rfl, rfl, rfl⟩
    show j.shot + 1 ≠ j.head.shots ∨ j.head.shots ≤ j.shot + 1
    omega

end
end Sys2Proof.Machine
end

section
/-! SHOT_BOUNDARY (R96, R214, R225, R237). -/

namespace Sys2Proof.Machine

section
variable {d : Dev}

/-! ### What of the commits and of calibration applies -/

theorem applyStage_empty (hstage : d.cal.stage = []) (q : Nat) (host : List Nat) :
    d.Stands (d.applyStage q host) ∧ (d.applyStage q host).qop = d.qop := by
  unfold Dev.applyStage
  split
  · exact ⟨.refl d, rfl⟩
  · rw [hstage]
    exact ⟨⟨rfl, rfl, rfl⟩, rfl⟩

theorem applyJobWords_none (hcommit : d.qop.commit = none) (j : Job) : d.applyJobWords j = d := by
  unfold Dev.applyJobWords
  rw [hcommit]

theorem jobWords_none (hcommit : d.qop.commit = none) (slot : Nat) : d.jobWords slot = none := by
  unfold Dev.jobWords
  rw [hcommit]
  rfl

/-! ### The threads at rest -/

theorem resetThread_inactive (d : Dev) (j : Job) (p : CanvasPlace) (kept : List (Nat × Nat × Nat)) (shot : Nat) :
    ((d.resetThread j p kept shot).thread p.thread).active = false := by
  have hbus : ∀ (e : Dev) (b : List BusWord) n, ({ e with eas := { e.eas with bus := b } } : Dev).thread n = e.thread n := fun _ _ _ => rfl
  unfold Dev.resetThread
  dsimp only
  rw [hbus, Dev.thread_setThread_self]

/-- The ledger and the lattice state stand, and the threads of the canvases rest. -/
theorem boundaryThreads_rest (d : Dev) {j : Job} (hres : j.st.resident = true) :
    (d.boundaryThreads j).hub = d.hub ∧ (d.boundaryThreads j).lat = d.lat ∧
    ∀ p ∈ j.held.canvases, ((d.boundaryThreads j).thread p.thread).active = false := by
  unfold Dev.boundaryThreads
  simp only [hres, if_true]
  generalize j.following = f
  have hstep : ∀ (e : Dev) (p : CanvasPlace), ((e.resetFrames j p).resetThread j p f.2 f.1).hub = e.hub ∧
      ((e.resetFrames j p).resetThread j p f.2 f.1).lat = e.lat ∧
      (((e.resetFrames j p).resetThread j p f.2 f.1).thread p.thread).active = false ∧
      ∀ n, n ≠ p.thread → ((e.resetFrames j p).resetThread j p f.2 f.1).thread n = e.thread n := fun e p => by
    have hframes := stands_resetFrames e j p
    obtain ⟨-, hhub, hother⟩ := resetThread_leaves (e.resetFrames j p) j p f.2 f.1
    exact ⟨hhub.trans hframes.hub, (resetThread_stands (e.resetFrames j p) j p f.2 f.1).1.trans hframes.lat,
      resetThread_inactive .., fun n hn => (hother n hn).trans (hframes.thread n)⟩
  have hrest : ∀ (ps : List CanvasPlace) (e : Dev),
      let g := ps.foldl (fun e p => (e.resetFrames j p).resetThread j p f.2 f.1) e
      g.hub = e.hub ∧ g.lat = e.lat ∧ ∀ n, (e.thread n).active = false ∨ (∃ p ∈ ps, p.thread = n) → (g.thread n).active = false := by
    intro ps
    induction ps with
    | nil => exact fun e => ⟨rfl, rfl, fun n h => h.resolve_right fun ⟨p, hp, _⟩ => by cases hp⟩
    | cons p ps ih =>
      intro e
      obtain ⟨hhub, hlat, hself, hother⟩ := hstep e p
      obtain ⟨hhub', hlat', hall⟩ := ih ((e.resetFrames j p).resetThread j p f.2 f.1)
      refine ⟨hhub'.trans hhub, hlat'.trans hlat, fun n hn => hall n ?_⟩
      by_cases hp : n = p.thread
      · exact .inl (hp ▸ hself)
      · rw [hother n hp]
        refine hn.imp_right fun ⟨r, hr, hrn⟩ => ⟨r, (List.mem_cons.mp hr).resolve_left fun h => hp (h ▸ hrn.symm), hrn⟩
  obtain ⟨hhub, hlat, hall⟩ := hrest j.held.canvases d
  exact ⟨hhub, hlat, fun p hp => hall _ (.inr ⟨p, hp, rfl⟩)⟩

theorem boundaryResets_rest (d : Dev) {j : Job} (hres : j.st.resident = true) :
    (d.boundaryResets j).hub = d.hub ∧ (d.boundaryResets j).lat = d.lat ∧
    ∀ p ∈ j.held.canvases, ((d.boundaryResets j).thread p.thread).active = false := by
  obtain ⟨hhub, hlat, hrest⟩ := boundaryThreads_rest d hres
  have hstands : (d.boundaryThreads j).Stands (d.boundaryResets j) :=
    (stands_resetHolds ..).trans ((stands_restartStreams ..).trans ((stands_restartCores ..).trans (stands_idleMarkers ..)))
  exact ⟨hstands.hub.trans hhub, hstands.lat.trans hlat, fun p hp => by rw [hstands.thread, hrest p hp]⟩

theorem boundaryRoutes_leaves (d : Dev) (j : Job) (q : Nat) : (d.boundaryRoutes j).job q = d.job q ∧
    (d.boundaryRoutes j).lat = d.lat ∧ (d.boundaryRoutes j).eas = d.eas := by
  have hdue : ∀ due, ({ d with hub := { d.hub with units := { d.hub.units with due := due } } } : Dev).job q = d.job q ∧
      ({ d with hub := { d.hub with units := { d.hub.units with due := due } } } : Dev).lat = d.lat ∧
      ({ d with hub := { d.hub with units := { d.hub.units with due := due } } } : Dev).eas = d.eas := fun _ => ⟨rfl, rfl, rfl⟩
  have hreport : ∀ (e : Dev) es, (e.report 2 j.slot j.seq j.nextShot 0 es).job q = e.job q ∧
      (e.report 2 j.slot j.seq j.nextShot 0 es).lat = e.lat ∧ (e.report 2 j.slot j.seq j.nextShot 0 es).eas = e.eas := fun _ _ => ⟨rfl, rfl, rfl⟩
  unfold Dev.boundaryRoutes
  dsimp only
  split
  · exact ⟨rfl, rfl, rfl⟩
  · generalize hx : ({ d with hub := _ } : Dev) = x
    have hx' : x.job q = d.job q ∧ x.lat = d.lat ∧ x.eas = d.eas := hx ▸ hdue _
    have hstands := (stands_setRoutes x).trans (stands_flag x.setRoutes 0x600001 1)
    obtain ⟨hjob, hlat, heas⟩ := hreport (x.setRoutes.flag 0x600001 1) _
    exact ⟨hjob.trans ((hstands.job q).trans hx'.1), hlat.trans (hstands.lat.trans hx'.2.1), heas.trans (hstands.eas.trans hx'.2.2)⟩

/-! ### A start that is sought, and the threads -/

theorem sendMsg_eas (d : Dev) (kind : Nat) (m : LatMsg) : (d.sendMsg kind m).eas = d.eas := by
  unfold Dev.sendMsg
  split
  · exact Dev.sendCell_eas ..
  · rfl

theorem reportDrain_eas (d : Dev) (j : Job) : (d.reportDrain j).eas = d.eas := by
  have htake : ∀ (e : Dev) m, (e.takeDrain m).eas = e.eas := fun e m => by
    unfold Dev.takeDrain
    dsimp only
    split <;> rfl
  unfold Dev.reportDrain
  split
  · rfl
  · unfold Dev.sendDrain
    dsimp only
    split
    · exact (htake ..).trans (Dev.modJob_eas ..)
    · exact (sendMsg_eas ..).trans (Dev.modJob_eas ..)

theorem sendTrigger_eas (d : Dev) (j : Job) (t : Nat) : (d.sendTrigger j t).eas = d.eas := by
  have hnote : ∀ (e : Dev) l, (e.noteTrigger l t).eas = e.eas := fun e l => by
    unfold Dev.noteTrigger
    split <;> rfl
  unfold Dev.sendTrigger
  dsimp only
  split
  · exact (hnote ..).trans (Dev.modJob_eas ..)
  · exact (sendMsg_eas ..).trans (Dev.modJob_eas ..)

theorem takeTrigger_leaves {i t : Nat} {e : Dev} (h : d.takeTrigger i = some (t, e)) : e.eas = d.eas ∧ e.hub = d.hub := by
  unfold Dev.takeTrigger at h
  dsimp only at h
  split at h
  · cases h
    exact ⟨rfl, rfl⟩
  · cases h
    exact ⟨rfl, rfl⟩
  · cases h

theorem resultGate_eas (d : Dev) (j : Job) : (d.resultGate j).1.eas = d.eas := by
  have hwait : ∀ bit, (if j.ackWait then d else (d.flag 0x180001 bit).modJob j.seq fun k => { k with ackWait := true }).eas = d.eas := by
    intro bit
    split
    · rfl
    · exact (Dev.modJob_eas ..).trans (Dev.flag_eas ..)
  unfold Dev.resultGate
  split
  · exact hwait 5
  · split
    · exact hwait 6
    · rfl

/-- A start that is fixed is there. -/
theorem fixStart_found {q : Nat} {j k : Job} (start shot : Nat) (hjob : d.job q = some j)
    (hk : (d.fixStart q start shot).job q = some k) : k.nextStart ≠ none := by
  have hplaced : ∀ {e : Dev} {a : Nat}, e.job q = some j → (e.placeStart q a shot).job q = some k → k.nextStart ≠ none := by
    intro e a he hek
    rw [placeStart_job a shot he] at hek
    cases hek
    exact Option.some_ne_none a
  unfold Dev.fixStart at hk
  split at hk
  · exact hplaced ((job_congr (Dev.flag_hub ..) q).trans hjob) hk
  · exact hplaced hjob hk

/-- Where a job that seeks its start does not find it, every thread stands as it was. -/
theorem seek_threads {q : Nat} {k : Job} (hjob : (d.seek q).job q = some k) (hnone : k.nextStart = none) :
    (d.seek q).eas = d.eas := by
  unfold Dev.seek at hjob ⊢
  cases hj : d.job q with
  | none => rfl
  | some j =>
    rw [hj] at hjob
    dsimp only at hjob ⊢
    split
    · rfl
    next hcan =>
    split
    · exact resultGate_eas ..
    next hgate =>
    rw [if_neg hcan, if_neg hgate] at hjob
    split
    · split
      · rfl
      split
      · split
        · exact reportDrain_eas ..
        · next htake => exact (sendTrigger_eas ..).trans ((takeTrigger_leaves htake).1.trans (reportDrain_eas ..))
      · exact reportDrain_eas ..
    next hsingle =>
    rw [if_neg hsingle] at hjob
    split
    · next hmode =>
      rw [if_pos hmode] at hjob
      split
      · rfl
      · next htake =>
        rw [htake] at hjob
        exact absurd hnone (fixStart_found _ _ ((job_congr (takeTrigger_leaves htake).2 q).trans hj) hjob)
    next hmode =>
    rw [if_neg hmode] at hjob
    split
    · next hself =>
      rw [if_pos hself] at hjob
      exact absurd hnone (fixStart_found _ _ hj hjob)
    · rfl

/-! ### The boundary in whole -/

/-- The machine in the first tick of the boundary, before the next start is sought. -/
def Dev.atBoundary (d : Dev) (j : Job) (q : Nat) : Dev :=
  ((((d.applyStage q []).boundaryResets j).hkTrigger 3).boundaryRoutes j).modJob q fun k => { k with
    phase := .boundary, boundaryAt := d.epoch }

theorem shotBoundaryOp_seeks {q : Nat} {j : Job} (hjob : d.job q = some j) (hphase : j.phase = .drained) (hdrain : j.drainAt < d.epoch)
    (hcommit : d.qop.commit = none) (hstage : d.cal.stage = []) (hres : j.st.resident = true) (hstop : j.stopDue = false)
    (hhalted : j.st ≠ .halted) : shotBoundaryOp q d = (d.atBoundary j q).seekStart q := by
  have hready : d.wordsReady j = true := by
    unfold Dev.wordsReady
    rw [jobWords_none hcommit]
  have happly : ((d.applyStage q []).applyJobWords j) = d.applyStage q [] :=
    applyJobWords_none (by rw [(applyStage_empty hstage q []).2, hcommit]) j
  unfold shotBoundaryOp
  rw [hjob]
  dsimp only
  rw [if_pos ⟨hphase, hdrain, hready⟩, jobWords_none hcommit]
  show (if (!j.st.resident) = true then _ else _ : Dev) = _
  rw [if_neg (by rw [hres]; decide), if_neg (by rw [hstop]; decide), if_neg hhalted]
  show ((((((d.applyStage q []).applyJobWords j).boundaryResets j).hkTrigger 3).boundaryRoutes j).modJob q _).seekStart q = _
  rw [happly]
  rfl

theorem atBoundary_leaves {q : Nat} {j : Job} (hjob : d.job q = some j) (hstage : d.cal.stage = []) (hres : j.st.resident = true) :
    (d.atBoundary j q).job q = some { j with phase := .boundary, boundaryAt := d.epoch } ∧ (d.atBoundary j q).lat = d.lat ∧
    ∀ p ∈ j.held.canvases, ((d.atBoundary j q).thread p.thread).active = false := by
  have hstaged := (applyStage_empty hstage q []).1
  obtain ⟨hhub, hlat, hrest⟩ := boundaryResets_rest (d.applyStage q []) hres
  have htrigger := stands_hkTrigger ((d.applyStage q []).boundaryResets j) 3
  obtain ⟨hroutes, hlat', heas⟩ := boundaryRoutes_leaves (((d.applyStage q []).boundaryResets j).hkTrigger 3) j q
  have hfound : ((((d.applyStage q []).boundaryResets j).hkTrigger 3).boundaryRoutes j).job q = some j := by
    rw [hroutes, htrigger.job, job_congr hhub, hstaged.job, hjob]
  unfold Dev.atBoundary
  refine ⟨job_modJob (f := fun k => { k with phase := .boundary, boundaryAt := d.epoch }) (fun _ => rfl) hfound, ?_, fun p hp => ?_⟩
  · rw [Dev.modJob_lat, hlat', htrigger.lat, hlat, hstaged.lat]
  · rw [thread_congr (Dev.modJob_eas ..), thread_congr heas, htrigger.thread]
    exact hrest p hp

theorem shotBoundaryOp_rests {q : Nat} {j : Job} (hjob : d.job q = some j) (hphase : j.phase = .drained) (hdrain : j.drainAt < d.epoch)
    (hcommit : d.qop.commit = none) (hstage : d.cal.stage = []) (hmember : d.lat.st ≠ .root) (hres : j.st.resident = true)
    (hstop : j.stopDue = false) (hhalted : j.st ≠ .halted) : ∃ j', (shotBoundaryOp q d).job q = some j' ∧ j'.phase = .boundary ∧
      j'.boundaryAt = d.epoch ∧ j'.nextShot = j.nextShot ∧
      (j'.nextStart = none → ∀ p ∈ j.held.canvases, ((shotBoundaryOp q d).thread p.thread).active = false) := by
  rw [shotBoundaryOp_seeks hjob hphase hdrain hcommit hstage hres hstop hhalted]
  obtain ⟨hfound, hlat, hrest⟩ := atBoundary_leaves hjob hstage hres
  generalize d.atBoundary j q = e at *
  rw [seekStart_member (by rw [hlat]; exact hmember)]
  obtain ⟨j', hj', hstands⟩ := (sought_seek e q).job_some hfound
  refine ⟨j', hj', congrArg Job.phase hstands, congrArg Job.boundaryAt hstands, (congrArg Job.nextShot hstands :), fun hnone p hp => ?_⟩
  rw [thread_congr (seek_threads hj' hnone)]
  exact hrest p hp

end

/-! ### The obligation -/

section
variable {s : State}

theorem exec_placement : exec .placement s = .next (s.onNow placementOp) := rfl
theorem exec_shotStart (q : Nat) : exec (.shotStart q) s = .next (s.onNow (shotStartOp q)) := rfl
theorem exec_drainComplete (q : Nat) : exec (.drainComplete q) s = .next (s.onNow (drainCompleteOp q)) := rfl
theorem exec_shotBoundary (q : Nat) : exec (.shotBoundary q) s = .next (s.onNow (shotBoundaryOp q)) := rfl

end

/-- Settles O46: placement arms or refuses, a start begins an attempt, a drain makes it run again or final, and a boundary brings the
threads to rest. -/
theorem placementAndShots : Obligations.PlacementAndShots := by
  unfold Obligations.PlacementAndShots
  intro s q j hjob
  refine ⟨fun f fs hnext hfail => ?refused, fun hnext hfail hmember => ?placed,
    fun a hnext hres hhalted hphase hdue hshots hmulti => ?start, fun hshot hdrained => ?drain,
    fun hphase hdrain hcommit hstage hmember hres hstop hhalted => ?boundary⟩
  case refused =>
    have hddr : (placementOp s.now).ddr = s.now.ddr := by simp
    refine ⟨s.onNow placementOp, exec_placement, ?_⟩
    have hop := placementOp_refused hnext hfail
    simp only [State.onNow, hop] at hddr ⊢
    obtain ⟨hst, hbit, heas, hdsp, hstate⟩ := refuseJob_leaves (f :: fs) hjob
    exact ⟨hst, hbit, heas, hdsp, hstate, hddr⟩
  case placed =>
    have hddr : (placementOp s.now).ddr = s.now.ddr := by simp
    obtain ⟨j', hj', hst, hphase, harmed, hheld⟩ := placementOp_armed hjob hnext hfail hmember
    exact ⟨s.onNow placementOp, j', exec_placement, hj', hst, hphase, harmed, hheld, hddr⟩
  case start =>
    have hddr : (shotStartOp q s.now).ddr = s.now.ddr := by simp
    obtain ⟨j', hj', hphase', hstart, hnone, hattempt, hshot, hst, hontime, hlate⟩ :=
      shotStartOp_starts hjob hnext hres hhalted hphase hdue hshots hmulti
    exact ⟨s.onNow (shotStartOp q), j', exec_shotStart q, hj', hphase', hstart, hnone, hattempt, hshot, hst, hontime, hlate, hddr⟩
  case drain =>
    have hddr : (drainCompleteOp q s.now).ddr = s.now.ddr := by simp
    obtain ⟨j', hj', hphase', hat, hdiscarded, hrerun, hfinal⟩ := drainCompleteOp_drains hjob hshot hdrained
    exact ⟨s.onNow (drainCompleteOp q), j', exec_drainComplete q, hj', hphase', hat, hdiscarded, hrerun, hfinal, hddr⟩
  case boundary =>
    have hddr : (shotBoundaryOp q s.now).ddr = s.now.ddr := by simp
    obtain ⟨j', hj', hphase', hat, hnext, hrest⟩ :=
      shotBoundaryOp_rests hjob hphase hdrain hcommit hstage hmember hres hstop hhalted
    exact ⟨s.onNow (shotBoundaryOp q), j', exec_shotBoundary q, hj', hphase', hat, hnext, hrest, hddr⟩

end Sys2Proof.Machine
end
